-- ==== Sys2Proof/Word.lean ====
section
/-! DEFINITION. The words the model is written in: bytes and 64-bit register words. Everything the spec treats as
bits is a bit vector; addresses as keys, counts and indexes are natural numbers. -/

namespace Sys2Proof

/-- One byte (R10: the byte at the lowest address holds bits 7 to 0). -/
abbrev Byte := BitVec 8

/-- One 64-bit register word (R18). -/
abbrev Word := BitVec 64

/-- Bytes in ascending address order. -/
abbrev Bytes := List Byte

end Sys2Proof
end

