-- ==== Sys2Proof/Syntax.lean ====
section
/-! DEFINITION. The commands of the block: one constructor of `Instr` for each row of spec/opcode_table.json, with the
row's operands. Addresses, counts and identifiers are natural numbers; messages, packets and records are the bytes that
the spec lays out. Where the spec leaves the moment or the outcome of something to the outside (an error found in a
stored sector, the facts of a training, a temperature), that fact is an operand. -/

namespace Sys2Proof.Machine

/-- An error found in one stored sector at an access. `hbm` holds the 37 symbols of the code of R262 that differ from
the stored codeword (symbol i, at bits 16i up, is the coefficient of x^i; 36 is the address symbol). `sram` is what the
SEC-DED or LPDDR5X code of R280 and R537 finds: 0 nothing, 1 correctable, 2 uncorrectable. -/
structure Flip where
  sector : Nat
  hbm    : BitVec 592 := 0
  sram   : Nat := 0
deriving DecidableEq, Repr

/-- A packet at a router: the header fields of R388 and the data that follows as one stream across its flits. -/
structure Packet where
  tc      : Nat
  vc      : Nat := 0
  secpath : Bool := false
  dest    : Nat
  destErg : Nat := 0
  bank    : Nat := 0
  bcast   : Bool := false
  src     : Nat := 0
  srcErg  : Nat := 0
  hops    : Nat := 0
  payload : Bytes := []
deriving DecidableEq, Repr

/-- The facts of one Vemen port training (R387, R394, R414). -/
structure VlkFacts where
  sound      : List Nat     -- lanes found sound
  erg        : Nat          -- partner's erg bit
  module     : Nat          -- partner's module number
  port       : Nat          -- partner's port number
  role       : Nat          -- partner port's role
  routing    : Bool         -- partner's ROUTING flag
  roundTrip  : Nat          -- measured round trip in picoseconds
  lastSeq    : Nat          -- last sequence number the partner accepted
  session    : Nat := 0     -- the partner's session number (R417)
deriving DecidableEq, Repr

/-- The facts of one BDI link training (R514-R517): failed data wires per cluster of the receiving direction,
clusters with a failed clock or valid wire, the highest common rate, the measured round trip. -/
structure BdiFacts where
  failed    : List (Nat × Nat)   -- (cluster, failed physical wire)
  dead      : List Nat           -- clusters with a failed clock or valid wire
  rate      : Nat := 16
  roundTrip : Nat := 0
  lastSeq   : Nat := 1023        -- last SEQ the peer accepted
deriving DecidableEq, Repr

/-- A fault record of R441, less PHASE, WADI and CRC, which the collector fills in. -/
structure FaultRec where
  source  : Nat
  cause   : Nat
  stalled : Bool := false
  write   : Bool := false
  vaddr   : Nat := 0
  paddr   : Nat := 0
  tick    : Nat := 0
  step    : Nat := 0
  segment : Nat := 0
  opclass : Nat := 0
  asid    : Nat := 0
  count   : Nat := 1
  detail  : Nat := 0
deriving DecidableEq, Repr

/-- The three kinds of ledger record of R624. -/
inductive LedgerKind where
  | phase | overrun | trace
deriving DecidableEq, Repr

/-- A ledger record of R624, less the ring's PHASE and the CRC, which the collector fills in. -/
structure LedgerRec where
  kind       : LedgerKind
  unit       : Nat
  phase      : Nat := 0
  aborted    : Bool := false
  error      : Bool := false
  replay     : Nat := 0
  step       : Nat := 0
  segment    : Nat := 0
  startTick  : Nat := 0
  startCycle : Nat := 0
  ticks      : Nat := 0
  endCycle   : Nat := 0
  busy       : Nat := 0
  starve     : Nat := 0
  stall      : Nat := 0
  wait       : Nat := 0
  remoteKib  : Nat := 0
  ops        : Nat := 0
  slips      : Nat := 0
deriving DecidableEq, Repr

/-- A PCIe memory request that arrives at a root port (R509, R510). -/
structure PciRequest where
  write : Bool
  addr  : Nat
  len   : Nat
  data  : Bytes := []
  tag   : Nat := 0
deriving DecidableEq, Repr

/-- The facts of one start (R582-R591): the straps, flash reads that fail, base dies and links that do not train, dies
that fail self-test, descriptors other than the class's standard one (of compute stacks by site, of the other dies by die
number), memories that fail, and what the training of single links found. -/
structure StartEnv where
  slotId      : Nat := 0
  flashError  : Bool × Bool := (false, false)
  darkSites   : List Nat := []
  deadEdges   : List Nat := []
  failedEdges : List Nat := []
  failedSites : List Nat := []
  stackFacts  : List (Nat × Bytes) := []
  edges       : List (Nat × Bytes) := []
  links       : List (Nat × Nat × BdiFacts) := []
  memoryFails : Bool := false
deriving DecidableEq, Repr

end Sys2Proof.Machine

namespace Sys2Proof

open Sys2Proof.Machine

/-- The commands: one constructor for each row of the opcode table, in the table's order. -/
inductive Instr where
  | registerWrite (org addr size v hw : Nat)
  | clearCounts (die blk inst : Nat) (inc : List Nat)
  | tick (die : Nat)
  | tickMark (mark : Bytes) (arrival : Nat)
  | holdover
  | tickLost
  | masterSwitch
  | partnerMasterSwitch
  | tickIoEdge (time : Nat)
  | schRun
  | schStop
  | schAbort
  | slipBreak (u : Nat)
  | operationStart (u : Nat)
  | operationComplete (u k : Nat)
  | synToken (ch : Nat)
  | synCredit (ch : Nat)
  | noOperation (u : Nat)
  | stepStart
  | replayWaitEntry
  | replayStart
  | haltEntry
  | ldx (u : Nat) (p : BitVec 192)
  | mma (u : Nat) (p : BitVec 192)
  | out (u : Nat) (p : BitVec 448)
  | psend (u : Nat) (p : BitVec 192)
  | padd (u : Nat) (p : BitVec 192)
  | stf (u : Nat) (p : BitVec 192)
  | ew (die : Nat) (p : BitVec 448)
  | cvt (die : Nat) (p : BitVec 448)
  | scan (die : Nat) (p : BitVec 448)
  | reduce (die : Nat) (p : BitVec 448)
  | dgrad (die : Nat) (p : BitVec 448)
  | rand (die : Nat) (p : BitVec 448)
  | slice (die : Nat) (p : BitVec 448)
  | flush (u : Nat)
  | chain (die : Nat) (p : BitVec 960)
  | genStateWrite (die idx half v : Nat)
  | code (u : Nat) (p : BitVec 448)
  | decode (u : Nat) (p : BitVec 448)
  | hstore (u : Nat) (p : BitVec 192)
  | build (u : Nat) (p : BitVec 192)
  | codecInputTimeout (u block : Nat)
  | codecLateSector (die : Nat)
  | memRead (org addr len : Nat) (flips : List Flip)
  | memWrite (org addr : Nat) (data : Bytes)
  | memPartialWrite (org addr : Nat) (data : Bytes) (mask : List Bool) (flips : List Flip)
  | accumulateWrite (org addr mask : Nat) (addends : List (BitVec 32)) (flips : List Flip)
  | partialSums (addr : Nat) (data : Bytes)
  | readResponse (u tag status : Nat) (data : Bytes)
  | writePerformed (u tag status : Nat)
  | patrolScrubStep (ms : Nat) (flips : List Flip)
  | fsel (die : Nat) (p : BitVec 192)
  | move (u : Nat) (p : BitVec 192)
  | xpose (u : Nat) (p : BitVec 448)
  | rbank (die : Nat) (p : BitVec 192)
  | bankSwitch (die : Nat)
  | nchk (die : Nat) (p : BitVec 192)
  | uprun (die : Nat) (p : BitVec 192)
  | cscale (die : Nat) (p : BitVec 192)
  | commit (die : Nat)
  | updateCommit
  | digestTimeout
  | digestPacket (pkt : Bytes)
  | updVerify (key : Nat)
  | updVerifyDone
  | updRewind (unum : Nat)
  | updRewindDone
  | ropen (u : Nat) (p : BitVec 192)
  | rsend (u : Nat) (p : BitVec 192)
  | allr (u : Nat) (p : BitVec 192)
  | reductionPacket (u : Nat) (pkt : Bytes) (crcOk : Bool)
  | checkTimeout (u tag element : Nat)
  | vlkFlitReceive (die inst : Nat) (flit : Bytes) (corrected ue : Nat)
  | gcmBatchClose (die inst : Nat)
  | vlkAckTimeout (die inst : Nat)
  | laneLockLoss (die inst : Nat)
  | vlkRetrain (die inst : Nat)
  | vlkTrained (die inst : Nat) (facts : VlkFacts)
  | vlkHoldExpire (die inst : Nat)
  | peerRoutingUpdate (die inst : Nat) (flag : Bool)
  | packetForward (die input : Nat) (pkt : Packet)
  | tc0Inject (die : Nat)
  | remoteTimeout (die tag : Nat)
  | remoteResponse (die tag status : Nat) (data : Bytes)
  | leave (die : Nat)
  | join (die : Nat)
  | vrtBankWrite (die half v : Nat)
  | routeEntryWrite (die : Nat) (bcast : Bool) (idx half v : Nat)
  | missRecordWrite (die slot : Nat)
  | xltRespFill (die slot v : Nat)
  | xltRespFault (die slot : Nat)
  | xltMissTimeout (die slot : Nat)
  | xpf (die : Nat) (p : BitVec 192)
  | xltInval (die v : Nat)
  | xltInvalDone (die : Nat)
  | faultRecord (rec : FaultRec)
  | fltResumeRetry (target : Nat)
  | fltResumeAbort (target : Nat)
  | fltWadiRelease (slot : Nat)
  | faultRecordCopy (rec : Bytes)
  | haboobExit
  | controlParityError (die : Nat)
  | signal (die : Nat) (p : BitVec 192)
  | wait (die : Nat) (p : BitVec 192)
  | bar (die : Nat) (p : BitVec 192)
  | synObjSignal (die obj core v : Nat)
  | synWaitTimeout (die obj w : Nat)
  | signalPacket (pkt : Bytes)
  | arrive (pkt : Bytes)
  | release (pkt : Bytes)
  | abort (pkt : Bytes)
  | abortRelease (pkt : Bytes)
  | readShared (core line : Nat)
  | readUnique (core line : Nat)
  | upgrade (core line : Nat)
  | writeBack (core line : Nat) (data : Bytes) (victim : Option Nat)
  | clean (core line : Nat)
  | cohFlush (core line : Nat)
  | invalidate (core line : Nat) (flushMode : Bool)
  | snoop (die line : Nat) (gone : List Nat) (stored : Option Bytes)
  | cohFwd (line : Nat)
  | cohResponse (core line : Nat)
  | cohData (core line : Nat)
  | cohAck (core line : Nat)
  | hcxRwinWrite (die idx half v : Nat)
  | submissionDoorbell (q value : Nat)
  | completionDoorbell (q value : Nat)
  | qctlEnable (die q : Nat)
  | qctlDisable (die q : Nat)
  | qctlDisableDone (die : Nat)
  | qctlSync (die q : Nat)
  | contextFetch (q : Nat)
  | entryFetchReturn (q k : Nat)
  | refetchIssue (q k : Nat)
  | nop (q c : Nat)
  | copy (q c : Nat)
  | writeInline (q c : Nat)
  | fill (q c : Nat)
  | queueSignal (q c : Nat)
  | commandComplete (q c : Nat)
  | pcieInboundRequest (port : Nat) (req : PciRequest)
  | pcieMsiWrite (port addr : Nat) (data : Bytes)
  | pcieLinkUp (port rate width : Nat)
  | pcieLinkDown (port : Nat)
  | bdiTraining (die link : Nat) (facts : BdiFacts)
  | bdiTrainTimeout (die link : Nat)
  | bdiDescriptor (die link : Nat) (desc : Bytes)
  | bdiFlitReceive (die link : Nat) (flit : Bytes)
  | bdiAckTimeout (die link : Nat)
  | bdiRetrainRequest (die link : Nat)
  | bdiRetrain (die link : Nat)
  | bdiHoldExpire (die link : Nat)
  | bdiTickFlit (die link : Nat) (flit : Bytes) (arrival : Nat)
  | interrupt (hart id : Nat)
  | ledgerRecord (rec : LedgerRec)
  | fltRecoveryRestore
  | ldgAttachWrite (core v : Nat)
  | powerOn (mv : Nat) (env : StartEnv)
  | startComplete
  | secReady
  | retire (confirm site : Nat)
  | revoke (confirm slot : Nat)
  | epoch (confirm : Nat)
  | attest (addr : Nat)
  | attestDone
  | flashProgram (addr : Nat)
  | flashProgramDone (mismatch : Bool)
  | mgmtGetStatus
  | mgmtDrain
  | mgmtDrainCancel
  | mgmtRestart
  | mgmtAttest (addr : Nat)
  | mgmtFuse (confirm cmd arg : Nat)
  | park
  | unpark
  | drain
  | drainCancel
  | powerOff
  | drainComplete (timeout : Bool)
  | restart
  | restartRailsOn (env : StartEnv)
  | attnRequest
  | powerEnFall
  | inputRange (mv : Nat)
  | inputRangeTimeout
  | powerFault (mv : Nat)
  | thermalWarn (tj outlet : Nat)
  | thermalTrip (tj : Nat)
  | railFault (dies : List Nat)
  | fuseCommandDone (failed : Bool)
  | rowRemapDone (ms : Nat)
  | hbmRefreshDouble (ms : Nat) (hot : Bool)
  | aerErrorReport (port : Nat) (ue : Bool)
  | pcieCompletion (port tag status : Nat) (data : Bytes)
deriving DecidableEq, Repr

end Sys2Proof
end

