-- ==== Sys2Proof/Decode.lean ====
section
/-! DEFINITION. The block's commands reach it as register writes, packets and events, not as words: the opcode table gives
no row any bits. -/

namespace Sys2Proof

/-- The command that a word spells by the table's bits: none, since the table gives no row bits. -/
def decodeTableWord (_nbits _w : Nat) : Option Instr := none

end Sys2Proof
end

