-- ==== Sys2Proof/Machine/Bits.lean ====
section
/-! DEFINITION. Bit fields, byte order, sign, checksums: the helpers every other part reads words and bytes with. -/

namespace Sys2Proof.Machine

/-- Bits `lo` to `lo + len - 1` of a number (R9). -/
def bits (x lo len : Nat) : Nat := (x >>> lo) % 2 ^ len

/-- Bit `i` of a number as a Bool. -/
def bit (x i : Nat) : Bool := bits x i 1 == 1

/-- A Bool as a one-bit number. -/
def b2n (b : Bool) : Nat := if b then 1 else 0

/-- The number whose bits `lo` up, `len` of them, are replaced by `v`. -/
def putBits (x lo len v : Nat) : Nat := x - (bits x lo len <<< lo) + ((v % 2 ^ len) <<< lo)

/-- Little-endian value of bytes (R10). -/
def leN : Bytes → Nat
  | [] => 0
  | b :: bs => b.toNat + 256 * leN bs

/-- `n` bytes of a number, little-endian (R10). -/
def toLE : Nat → Nat → Bytes
  | 0, _ => []
  | n + 1, x => BitVec.ofNat 8 x :: toLE n (x / 256)

/-- The value of the `len` bytes from offset `off` of a byte string. -/
def fieldAt (bs : Bytes) (off len : Nat) : Nat := leN ((bs.drop off).take len)

/-- `n` zero bytes. -/
def zeros (n : Nat) : Bytes := List.replicate n 0

/-- The bytes of a bit vector, little-endian. -/
def bytesOf {w : Nat} (p : BitVec w) : Bytes := toLE (w / 8) p.toNat

/-- Overwrite bytes of a string from an offset. -/
def patch (bs : Bytes) (off : Nat) (new : Bytes) : Bytes := bs.take off ++ new ++ bs.drop (off + new.length)

/-- Two's complement value of the low `w` bits. -/
def signed (w x : Nat) : Int := if bit x (w - 1) then (x % 2 ^ w : Nat) - (2 ^ w : Nat) else (x % 2 ^ w : Nat)

/-- The low `w` bits of an integer. -/
def unsigned (w : Nat) (x : Int) : Nat := (x % (2 ^ w : Nat)).toNat

/-- One shift of the reflected CRC-32 register (R225). -/
def crcShift (c : Nat) : Nat := if c % 2 = 1 then (c / 2) ^^^ 0xEDB88320 else c / 2

/-- One byte through the CRC-32 register. -/
def crcByte (c : Nat) (b : Byte) : Nat :=
  crcShift (crcShift (crcShift (crcShift (crcShift (crcShift (crcShift (crcShift (c ^^^ b.toNat))))))))

/-- CRC-32 of IEEE 802.3 (R225). -/
def crc32 (bs : Bytes) : Nat := bs.foldl crcByte 0xFFFFFFFF ^^^ 0xFFFFFFFF

/-- A byte string with its CRC-32 appended. -/
def withCrc (bs : Bytes) : Bytes := bs ++ toLE 4 (crc32 bs)

/-- Whether the last four bytes of a string of `n` bytes are the CRC-32 of the others. -/
def crcHolds (n : Nat) (bs : Bytes) : Bool :=
  bs.length == n && fieldAt bs (n - 4) 4 == crc32 (bs.take (n - 4))

/-- Cut a list into pieces of `n`, at most `fuel` of them. -/
def chunksFuel {α : Type} (n : Nat) : Nat → List α → List (List α)
  | 0, _ => []
  | _, [] => []
  | f + 1, xs => xs.take n :: chunksFuel n f (xs.drop n)

/-- Cut a list into pieces of `n` elements. -/
def chunks {α : Type} (n : Nat) (xs : List α) : List (List α) := chunksFuel n xs.length xs

/-- The distinct elements of a list, each at its last place. -/
def distinct {α : Type} [DecidableEq α] : List α → List α
  | [] => []
  | x :: xs => if x ∈ xs then distinct xs else x :: distinct xs

/-- The value of key `k` in an association list. -/
def lookupKey {κ α : Type} [DecidableEq κ] (k : κ) : List (κ × α) → Option α
  | [] => none
  | (k', v) :: rest => if k' = k then some v else lookupKey k rest

/-- An association list with key `k` set to `v`, in place where the key is present. -/
def setKey {κ α : Type} [DecidableEq κ] (k : κ) (v : α) : List (κ × α) → List (κ × α)
  | [] => [(k, v)]
  | (k', v') :: rest => if k' = k then (k, v) :: rest else (k', v') :: setKey k v rest

/-- An association list without key `k`. -/
def dropKey {κ α : Type} [DecidableEq κ] (k : κ) : List (κ × α) → List (κ × α)
  | [] => []
  | (k', v) :: rest => if k' = k then dropKey k rest else (k', v) :: dropKey k rest

/-- Remove the first element that a test accepts. -/
def removeFirst {α : Type} (p : α → Bool) : List α → List α
  | [] => []
  | x :: xs => if p x then xs else x :: removeFirst p xs

/-- Change the first element that a test accepts. -/
def updateFirst {α : Type} (p : α → Bool) (f : α → α) : List α → List α
  | [] => []
  | x :: xs => if p x then f x :: xs else x :: updateFirst p f xs

/-- Change element `i` of a list. -/
def updateAt {α : Type} (i : Nat) (f : α → α) (xs : List α) : List α := xs.modify i f

/-- Put a number in an ascending list without repeats. -/
def insertNat (x : Nat) : List Nat → List Nat
  | [] => [x]
  | y :: ys => if x < y then x :: y :: ys else if x = y then y :: ys else y :: insertNat x ys

/-- Ascending order by a key, stable. -/
def insertBy {α : Type} (key : α → Nat) (x : α) : List α → List α
  | [] => [x]
  | y :: ys => if key x < key y then x :: y :: ys else y :: insertBy key x ys

/-- Ascending order by a key, stable. -/
def sortBy {α : Type} (key : α → Nat) (xs : List α) : List α := xs.foldl (fun acc x => insertBy key x acc) []

/-- The least element of a list, or a default. -/
def minList (d : Nat) (xs : List Nat) : Nat := xs.foldl min d

end Sys2Proof.Machine
end

