-- ==== Sys2Proof/Machine/Float.lean ====
section
/-! DEFINITION. The number formats and the single rounding of the module (R119 to R139, R197): a value is a NaN, an
infinity, or an exact dyadic number with a sign, and every operation rounds it once. -/

namespace Sys2Proof.Machine

/-- A floating format (R119): bits of the exponent and of the fraction; `ieee` formats hold infinities. -/
structure FpFmt where
  ebits : Nat
  fbits : Nat
  ieee  : Bool := true
  nan   : Nat                            -- canonical NaN (R120)
deriving DecidableEq, Repr

def e4m3 : FpFmt := { ebits := 4, fbits := 3, ieee := false, nan := 0x7F }
def e5m2 : FpFmt := { ebits := 5, fbits := 2, nan := 0x7E }
def fp16 : FpFmt := { ebits := 5, fbits := 10, nan := 0x7E00 }
def bf16 : FpFmt := { ebits := 8, fbits := 7, nan := 0x7FC0 }
def fp32 : FpFmt := { ebits := 8, fbits := 23, nan := 0x7FC00000 }
def fp64 : FpFmt := { ebits := 11, fbits := 52, nan := 0x7FF8000000000000 }

/-- The exponent bias of a format. -/
def FpFmt.bias (f : FpFmt) : Nat := 2 ^ (f.ebits - 1) - 1
/-- The width of a format in bits. -/
def FpFmt.width (f : FpFmt) : Nat := 1 + f.ebits + f.fbits

/-- A value: a NaN, a signed infinity, or (-1)^neg * mag * 2^exp. -/
inductive Fp where
  | nan
  | inf (neg : Bool)
  | fin (neg : Bool) (mag : Nat) (exp : Int)
deriving DecidableEq, Repr

/-- Zero. -/
def Fp.zero : Fp := .fin false 0 0

/-- The value a code stands for (R119). -/
def FpFmt.decode (f : FpFmt) (code : Nat) : Fp :=
  let neg := bit code (f.ebits + f.fbits)
  let e := bits code f.fbits f.ebits
  let m := bits code 0 f.fbits
  let top := 2 ^ f.ebits - 1
  if f.ieee && e == top then (if m = 0 then .inf neg else .nan)
  else if !f.ieee && e == top && m == 2 ^ f.fbits - 1 then .nan
  else if e = 0 then .fin neg m (1 - (f.bias : Int) - f.fbits)
  else .fin neg (2 ^ f.fbits + m) ((e : Int) - f.bias - f.fbits)

/-- How a result is rounded (R130): to the nearer, toward zero, or by a drawn value. -/
inductive Rounding where
  | rne
  | rtz
  | rsr (r : Nat)
deriving DecidableEq, Repr

/-- A rounded result: its code, whether it is a NaN, overflowed from a finite value, or was flushed. -/
structure Rounded where
  code  : Nat
  nan   : Bool := false
  ovf   : Bool := false
  flush : Bool := false
deriving DecidableEq, Repr

/-- The number of bits of a natural number. -/
def bitLen (n : Nat) : Nat := if n = 0 then 0 else Nat.log2 n + 1

/-- A nonzero magnitude mag * 2^exp in units of 2^q, rounded (R130). -/
def roundMag (mode : Rounding) (mag : Nat) (exp q : Int) : Nat :=
  if q ≤ exp then mag <<< (exp - q).toNat
  else
    let sh := (q - exp).toNat
    let lo := mag >>> sh
    let rest := mag % 2 ^ sh
    match mode with
    | .rne => if 2 * rest > 2 ^ sh ∨ (2 * rest = 2 ^ sh ∧ lo % 2 = 1) then lo + 1 else lo
    | .rtz => lo
    | .rsr r => if (rest <<< 32) >>> sh + r ≥ 2 ^ 32 then lo + 1 else lo

/-- The exponent of the grid at a magnitude: that of the last fraction bit, not below the subnormal grid (R129). -/
def FpFmt.gridExp (f : FpFmt) (mag : Nat) (exp : Int) : Int :=
  max ((bitLen mag : Int) - 1 + exp) (1 - (f.bias : Int)) - f.fbits

/-- The largest finite code of a format (R119). -/
def FpFmt.largest (f : FpFmt) : Nat :=
  if f.ieee then (2 ^ f.ebits - 1) <<< f.fbits - 1 else 2 ^ (f.ebits + f.fbits) - 2

/-- The code of an overflow (R132, R133). -/
def FpFmt.overflow (f : FpFmt) (neg sat : Bool) : Rounded :=
  let s := b2n neg <<< (f.ebits + f.fbits)
  if sat && f.fbits ≤ 3 then { code := s + f.largest }
  else if f.ieee then { code := s + (2 ^ f.ebits - 1) <<< f.fbits }
  else { code := f.nan, nan := true }

/-- A value rounded once to a format (R126 to R133); `flush` makes a subnormal result zero with its sign (R135, R197). The
sign of an exact zero is the value's. -/
def FpFmt.round (f : FpFmt) (mode : Rounding) (sat flush : Bool) : Fp → Rounded
  | .nan => { code := f.nan, nan := true }
  | .inf neg => f.overflow neg sat
  | .fin neg mag exp =>
    let s := b2n neg <<< (f.ebits + f.fbits)
    if mag = 0 then { code := s }
    else
      let q := f.gridExp mag exp
      let n := roundMag mode mag exp q
      let e := (q + f.fbits + f.bias).toNat
      let code := (e <<< f.fbits) + n - 2 ^ f.fbits
      if f.largest < code then
        (if mode = .rtz then { code := s + f.largest } else { f.overflow neg sat with ovf := true })
      else if flush && decide (code < 2 ^ f.fbits) && code != 0 then { code := s, flush := true }
      else { code := s + code }

/-- Negation of a value. -/
def Fp.neg : Fp → Fp
  | .nan => .nan
  | .inf n => .inf (!n)
  | .fin n m e => .fin (!n) m e

/-- Magnitude of a value. -/
def Fp.abs : Fp → Fp
  | .nan => .nan
  | .inf _ => .inf false
  | .fin _ m e => .fin false m e

/-- The signed integer of a finite value in units of 2^q, for a q not above its exponent. -/
def scaled (neg : Bool) (mag : Nat) (exp q : Int) : Int :=
  let x : Int := ((mag <<< (exp - q).toNat : Nat) : Int)
  if neg then -x else x

/-- The exact sum of two values; an exact zero is negative only when both are. -/
def Fp.add : Fp → Fp → Fp
  | .nan, _ => .nan
  | _, .nan => .nan
  | .inf a, .inf b => if a = b then .inf a else .nan
  | .inf a, _ => .inf a
  | _, .inf b => .inf b
  | .fin na ma ea, .fin nb mb eb =>
    let q := min ea eb
    let x := scaled na ma ea q + scaled nb mb eb q
    if x = 0 then .fin (na && nb) 0 0 else .fin (decide (x < 0)) x.natAbs q

/-- The exact product of two values. -/
def Fp.mul : Fp → Fp → Fp
  | .nan, _ => .nan
  | _, .nan => .nan
  | .inf a, .inf b => .inf (a != b)
  | .inf a, .fin b m _ => if m = 0 then .nan else .inf (a != b)
  | .fin b m _, .inf a => if m = 0 then .nan else .inf (a != b)
  | .fin na ma ea, .fin nb mb eb => .fin (na != nb) (ma * mb) (ea + eb)

/-- Whether the first of two values that are not NaN is below the second; the zeros are equal. -/
def Fp.lt : Fp → Fp → Bool
  | .nan, _ => false
  | _, .nan => false
  | .inf a, .inf b => a && !b
  | .inf a, _ => a
  | _, .inf b => !b
  | .fin na ma ea, .fin nb mb eb =>
    let q := min ea eb
    decide (scaled na ma ea q < scaled nb mb eb q)

/-- Whether a value is a NaN. -/
def Fp.isNan : Fp → Bool
  | .nan => true
  | _ => false

/-- Whether a value is finite. -/
def Fp.isFin : Fp → Bool
  | .fin _ _ _ => true
  | _ => false

/-- Whether a value is a zero. -/
def Fp.isZero : Fp → Bool
  | .fin _ m _ => m == 0
  | _ => false

/-- The sign of a value. -/
def Fp.isNeg : Fp → Bool
  | .nan => false
  | .inf n => n
  | .fin n _ _ => n

/-- Whether two values are equal, the zeros being equal and a NaN equal to nothing. -/
def Fp.eq (a b : Fp) : Bool := !a.isNan && !b.isNan && !a.lt b && !b.lt a

/-- Maximum of two values (R198). -/
def Fp.max (a b : Fp) : Fp :=
  if a.isNan || b.isNan then .nan
  else if a.lt b then b else if b.lt a then a else if a.isNeg then b else a

/-- Minimum of two values (R198). -/
def Fp.min (a b : Fp) : Fp :=
  if a.isNan || b.isNan then .nan
  else if a.lt b then a else if b.lt a then b else if a.isNeg then a else b

/-- floor(log2) of a nonzero magnitude. -/
def log2Floor (mag : Nat) (exp : Int) : Int := (bitLen mag : Int) - 1 + exp

/-- A value rounded to FP32 by R135: once, to nearest, with subnormal results flushed. -/
def to32 (v : Fp) : Rounded := fp32.round .rne false true v

/-- The FP32 value of a code. -/
def of32 (x : Nat) : Fp := fp32.decode x

/-- add_fp32 of R135, on codes. -/
def add32 (a b : Nat) : Nat := (to32 ((of32 a).add (of32 b))).code

/-- A product of the wide array (R134): exact, an infinity from (2 - 2^-24) * 2^127 up. -/
def wideProduct (a b : Fp) : Fp × Bool :=
  let p := a.mul b
  match p with
  | .fin n m e =>
    if m ≠ 0 ∧ ¬ (Fp.fin false m e).lt (.fin false (2 ^ 25 - 1) 103) then (.inf n, true) else (p, false)
  | _ => (p, false)

/-- An integer square root: the largest r below 2^fuel with r * r ≤ n. -/
def isqrtAux : Nat → Nat → Nat → Nat
  | 0, r, _ => r
  | k + 1, r, n => if (r + 2 ^ k) * (r + 2 ^ k) ≤ n then isqrtAux k (r + 2 ^ k) n else isqrtAux k r n

/-- The integer square root. -/
def isqrt (n : Nat) : Nat := isqrtAux (bitLen n / 2 + 1) 0 n

/-- The square root of a value to more bits than any format holds, its last bit sticky, so that one rounding of it is that of
the exact root. -/
def Fp.sqrt : Fp → Fp
  | .nan => .nan
  | .inf n => if n then .nan else .inf false
  | .fin n m e =>
    if m = 0 then .fin n 0 e
    else if n then .nan
    else
      let (m, e) := if e % 2 = 0 then (m, e) else (2 * m, e - 1)
      let m' := m <<< 64
      let r := isqrt m'
      let sticky := if r * r = m' then 0 else 1
      .fin false (2 * r + sticky) ((e - 64) / 2 - 1)

/-- The correctly rounded FP32 square root of a value (R199). -/
def sqrt32 (v : Fp) : Nat := (fp32.round .rne false false v.sqrt).code

/-- The quotient of two values to more bits than FP32 holds, its last bit sticky. -/
def Fp.div (a b : Fp) : Fp :=
  match a, b with
  | .nan, _ => .nan
  | _, .nan => .nan
  | .inf _, .inf _ => .nan
  | .inf n, .fin k _ _ => .inf (n != k)
  | .fin n _ _, .inf k => .fin (n != k) 0 0
  | .fin n m e, .fin k d x =>
    if d = 0 then (if m = 0 then .nan else .inf (n != k))
    else if m = 0 then .fin (n != k) 0 0
    else
      let sh := bitLen d + 80
      let q := (m <<< sh) / d
      let sticky := if q * d = m <<< sh then 0 else 1
      .fin (n != k) (2 * q + sticky) (e - x - sh - 1)

end Sys2Proof.Machine
end

