-- ==== Sys2Proof/Config.lean ====
section
/-! DEFINITION. What the spec leaves to the part or leaves open, as constants with no body: the free values (a claim
holds whatever they are), the facts of manufacture, and the external standards that the model does not compute. -/

namespace Sys2Proof.Config

/-- The n-th free value that the machine meets: a value the spec does not state (log entry 1). -/
opaque freeValue : Nat → BitVec 64

/-- SERIAL, set at manufacture (R582). -/
opaque serial : BitVec 64
/-- KEY_DIGEST of slot k, set at manufacture (R582). -/
opaque keyDigest : Nat → List (BitVec 8)
/-- The identity public key derived from ID_SEED (R593). -/
opaque identityKey : List (BitVec 8)
/-- Word w of the identity certificate in the one-time store (R593). -/
opaque certificate : Nat → BitVec 64

/-- ML-DSA-44 verification of a signature over a message by a public key (R584). -/
opaque mldsaVerify : List (BitVec 8) → List (BitVec 8) → List (BitVec 8) → Bool
/-- The ML-DSA-44 signature of the identity key over a message (R594). -/
opaque mldsaSign : List (BitVec 8) → List (BitVec 8)
/-- Whether a wrapped key entry unwraps without error under WRAP_KEY (R585, R586). -/
opaque unwraps : List (BitVec 8) → Bool
/-- AES-256-XTS encryption of a sector: key slot, tweak, data (R282). -/
opaque xtsEncrypt : Nat → Nat → List (BitVec 8) → List (BitVec 8)
/-- AES-256-XTS decryption of a sector: key slot, tweak, data (R282). -/
opaque xtsDecrypt : Nat → Nat → List (BitVec 8) → List (BitVec 8)
/-- KMAC256 session key from the link key slot, both session numbers and both module numbers (R417). -/
opaque sessionKey : Nat → Nat → Nat → Nat → Nat → List (BitVec 8)
/-- AES-256-GCM encryption of a payload: session key, IV, position in the batch, plaintext (R417). -/
opaque gcmEncrypt : List (BitVec 8) → Nat → Nat → List (BitVec 8) → List (BitVec 8)
/-- AES-256-GCM decryption, the inverse of `gcmEncrypt`. -/
opaque gcmDecrypt : List (BitVec 8) → Nat → Nat → List (BitVec 8) → List (BitVec 8)
/-- The 16-byte GCM tag of a batch: session key, IV, authenticated headers, encrypted payloads (R417). -/
opaque gcmTag : List (BitVec 8) → Nat → List (List (BitVec 8)) → List (List (BitVec 8)) → BitVec 128

/-- Which of the values that R199 and R207 allow a vector function returns, by function and FP32 input: 0 RECIP, 1 RSQRT,
2 EXP2, 3 LOG2, 4 TANH, 5 SIGMOID, 6 GELU, 7 SILU, and the derivatives 8 softplus, 9 square root, 10 GELU, 11 SiLU. -/
opaque vectorChoice : Nat → Nat → Nat

/-- The set of a presence filter in which a line's entry stands (R474 gives the ways and not the index). -/
opaque filterSet : Nat → Nat

/-- PROTOCOLS, PART and STEPPING of the host, fabric and memory dies' descriptors, by class (R531 states the stack's). -/
opaque dieFacts : Nat → BitVec 32

end Sys2Proof.Config
end

