-- ==== Sys2Proof/Machine/Reg.lean ====
section
/-! DEFINITION. The module's registers as the spec's register tables give them: one name per register, its block,
offset, number of entries and home window (R56, R116, R118, R186, R223, R224, R258, R284, R285, R355, R383, R423, R424,
R447, R448, R468, R486, R512, R513, R536, R564, R598, R616, R637), and for each field its bits, access code (R15), value at
the die's entry into Starting, and permitted range of values (R638). Bits in no field are reserved (R17). -/

namespace Sys2Proof.Machine

/-- The five access codes of R15. -/
inductive Access where
  | ro | rw | rwl | w1c | wo
deriving DecidableEq, Repr

/-- The register blocks of R56. -/
inductive Blk where
  | TCK | SCH | MXA | MXW | VSE | VSC | CDC | UPD | XLT | SYN | OAS | HBC | VLK | VRT | RDX | QCX | HCX | PCI | BDI | SEC | PWR | FLT | LDG
deriving DecidableEq, Repr

/-- The offset of a block in a die window (R56). -/
def Blk.offset : Blk → Nat
  | .TCK => 0x0
  | .SCH => 0x80000
  | .MXA => 0x100000
  | .MXW => 0x180000
  | .VSE => 0x200000
  | .VSC => 0x280000
  | .CDC => 0x300000
  | .UPD => 0x380000
  | .XLT => 0x400000
  | .SYN => 0x480000
  | .OAS => 0x500000
  | .HBC => 0x580000
  | .VLK => 0x600000
  | .VRT => 0x680000
  | .RDX => 0x700000
  | .QCX => 0x780000
  | .HCX => 0x800000
  | .PCI => 0x880000
  | .BDI => 0x900000
  | .SEC => 0x980000
  | .PWR => 0xA00000
  | .FLT => 0xA80000
  | .LDG => 0xB00000

/-- Every register the spec names. A register with several entries (channels, objects, ports) is one name with an index. -/
inductive Reg where
  | TCK_COUNT | TCK_PERIOD | TCK_ROLE | TCK_HOLDOVER_LIMIT | TCK_STATUS | TCK_EVENTS
  | SCH_CTRL | SCH_IMAGE_BASE | SCH_BASE_TICK | SCH_STEP | SCH_SLIP_BUDGET | SCH_REPLAY
  | SCH_EVENTS | SCH_IMAGE_ERROR | SCH_BREAK | SCH_BREAK_TICK | SCH_STATUS | SCH_EPOCH
  | SCH_SLIP_COUNT | SCH_MIRAGE_DISCARDS | SCH_CHANNEL | MXA_CTRL | MXA_STATUS | MXA_EVENTS
  | MXA_ERROR | MXA_COUNTS | MXA_MACS | MXA_BUSY | MXA_STAT | MXW_CTRL
  | MXW_STATUS | MXW_EVENTS | MXW_ERROR | MXW_MACS | MXW_BUSY | MXW_STAT
  | VSE_CAPS | VSE_CTRL | VSE_EVENTS | VSE_ERROR | VSE_GEN_SEED | VSE_GEN_STATE
  | VSC_STATUS | VSC_CTRL | VSC_EVENTS | VSC_ERROR | VSC_VREG | CDC_TABLE_BASE
  | CDC_CTRL | CDC_EVENTS | CDC_ERROR | CDC_BLOCKS | CDC_BYTES_IN | CDC_BYTES_OUT
  | CDC_STALL | CDC_LATE | CDC_PENDING | CDC_HIST | UPD_CTRL | UPD_EVENTS
  | UPD_ERROR | UPD_COUNTS | UPD_BLOCKS | UPD_STRAY | UPD_STATE_BASE | UPD_FMT_BASE
  | UPD_LOSS | UPD_LS_PATCH | UPD_NORM | UPD_STATUS | UPD_DIGEST_TIMEOUT | UPD_VERIFY_RESULT
  | UPD_REWIND | UPD_UNUM | UPD_DIVERGE_STEP | UPD_NORM_CEIL | UPD_CLIP_NORM | UPD_PEER_IGNORE
  | UPD_DIVERGE | UPD_DIVERGE_OWN | UPD_DIVERGE_PEER | UPD_VERIFY_KEY | UPD_VERIFY_COUNT | RDX_TAG_BASE
  | RDX_VERDICT_ADDR | RDX_CTRL | RDX_STATUS | RDX_EVENTS | RDX_ERROR | RDX_CHECK_FAIL
  | RDX_CHECK_VALUES | RDX_COUNTS | RDX_SAMPLED | RDX_STRAY | RDX_LATE | VLK_PORT_CFG
  | VLK_STATUS | VLK_CTRL | VLK_EVENTS | VLK_DELAY | VLK_FEC | VLK_REPLAY
  | VLK_TX_FLITS | VLK_RX_FLITS | VLK_CREDIT | VLK_TC0_LIMIT | VLK_ARB | VLK_HOLD
  | VLK_SEC | VRT_BANK | VRT_ARM_TICK | VRT_CTRL | VRT_EVENTS | VRT_TIMEOUT
  | VRT_COUNTS | VRT_LATE | VRT_POP | VRT_BCAST | VRT_ROUTE | XLT_CTX
  | XLT_MISSQ_BASE | XLT_MISSQ_PTR | XLT_MISS_TIMEOUT | XLT_STATUS | XLT_EVENTS | XLT_INVAL
  | XLT_INVAL_VA | XLT_COUNTS | XLT_RESP | FLT_QBASE | FLT_WADI_BASE | FLT_QPTR
  | FLT_STATUS | FLT_EVENTS | FLT_RESUME | FLT_HABOOB | FLT_RATE | FLT_FWD
  | FLT_RECOVERY | FLT_WADI_RELEASE | FLT_DIE_STALLED | FLT_DIE_HEALTH | FLT_UNPLACED | SYN_CTRL
  | SYN_EVENTS | SYN_ERROR | SYN_STATUS | SYN_JOB | SYN_STRAY | SYN_LATE
  | SYN_OBJ_CFG | SYN_OBJ_LINK | SYN_OBJ_VALUE | SYN_OBJ_LAST | SYN_OBJ_LAST_TICK | SYN_OBJ_SIGNAL
  | SYN_OBJ_WAITER | OAS_SPLIT | OAS_CTRL | OAS_EVENTS | OAS_COUNTS | OAS_HITS
  | OAS_MISSES | OAS_WRITEBACKS | HBC_POOL | HBC_SCRUB | HBC_REPAIR_CTRL | HBC_EVENTS
  | HBC_COUNTS | HBC_UE_ADDR | HBC_CTRL | HBC_SPARES | HBC_RD_SECTORS | HBC_WR_SECTORS
  | HBC_AW_SECTORS | HBC_PREG0 | HBC_PREG1 | HBC_AWREG0 | HBC_AWREG1 | HBC_REPAIR_LOG
  | HCX_CTRL | HCX_STATUS | HCX_EVENTS | HCX_COUNTS | HCX_WB_CANCEL | HCX_RWIN
  | QCX_BASE | QCX_DOORBELL | QCX_QCTL | QCX_EVENTS | QCX_COUNTS | QCX_CACHE
  | PCI_CTRL | PCI_STATUS | PCI_EVENTS | PCI_MSI | PCI_COUNTS | PCI_IN_BASE
  | PCI_IN_LIMIT | PCI_OUT0 | PCI_OUT1 | BDI_STATUS | BDI_EVENTS | BDI_CTRL
  | BDI_HOLD | BDI_COUNTS | BDI_REPAIR | BDI_CAPS_OWN | BDI_CAPS_PEER | SEC_START
  | SEC_IMAGE | SEC_IDENTITY | SEC_FUSE_CMD | SEC_FUSE_STATUS | SEC_ATTEST | SEC_FLASH
  | SEC_EVENTS | SEC_SERIAL | SEC_RETIRED0 | SEC_RETIRED1 | SEC_DIE_MAP | SEC_CERT
  | PWR_STATUS | PWR_CTRL | PWR_EVENTS | PWR_SENSE | PWR_IRQ | PWR_RAIL
  | LDG_CTRL | LDG_BASE | LDG_PTR | LDG_EVENTS | LDG_DROPPED | LDG_CAIRN_BASE
  | LDG_CAIRN_STATUS | LDG_INPUT | LDG_ATTACH | LDG_TRACE | LDG_MIRROR_BASE | LDG_PHASE
  | LDG_UNIT
deriving DecidableEq, Repr

/-- The bits of one field: `len` bits from bit `lo`. -/
structure Fld where
  reg : Reg
  lo  : Nat
  len : Nat
deriving DecidableEq, Repr

/-- One row of a register table: bits, access code, reset value, and the values a write may give it (a write of any
other value to the field is discarded, R638). -/
structure FieldDef where
  lo    : Nat
  len   : Nat
  acc   : Access
  reset : Nat := 0
  least : Nat := 0
  most  : Nat := 0xFFFF_FFFF_FFFF_FFFF
deriving DecidableEq, Repr

/-- A register's place: block, offset of entry 0 of an instance, entries per instance, distance of entries, and, for a
module-wide register, the die whose window is written (R116, R118). -/
structure RegDef where
  blk    : Blk
  off    : Nat
  count  : Nat := 1
  stride : Nat := 8
  home   : Option Nat := none
  fields : List FieldDef
deriving DecidableEq, Repr

/-- A field with a reset value and no rule on the values written. -/
def FieldDef.plain (acc : Access) (lo len reset : Nat) : FieldDef := .mk lo len acc reset 0 0xFFFF_FFFF_FFFF_FFFF
/-- A field whose writes outside `least` to `most` are discarded. -/
def FieldDef.ranged (acc : Access) (lo len reset least most : Nat) : FieldDef := .mk lo len acc reset least most
/-- A read-only field that resets to 0. -/
def FieldDef.ro (lo len : Nat) : FieldDef := .plain .ro lo len 0
/-- A writable field that resets to 0. -/
def FieldDef.rw (lo len : Nat) : FieldDef := .plain .rw lo len 0
/-- A field writable until start completes that resets to 0. -/
def FieldDef.rwl (lo len : Nat) : FieldDef := .plain .rwl lo len 0
/-- An event bit. -/
def FieldDef.w1c (lo len : Nat) : FieldDef := .plain .w1c lo len 0
/-- A field whose write performs an action. -/
def FieldDef.wo (lo len : Nat) : FieldDef := .plain .wo lo len 0

/-! The register tables of the spec, one definition a register. -/

/-- TCK_COUNT (R116). -/
def regTCK_COUNT : RegDef :=
  .mk .TCK 0x0 1 8 none [.ro 0 64]
/-- TCK_PERIOD (R116). -/
def regTCK_PERIOD : RegDef :=
  .mk .TCK 0x8 1 8 (some 72) [.ranged .rwl 0 13 64 4 4096]
/-- TCK_ROLE (R116). -/
def regTCK_ROLE : RegDef :=
  .mk .TCK 0x10 1 8 (some 72) [.rwl 28 2, .rwl 16 12, .rwl 4 12, .rwl 3 1, .rwl 0 2]
/-- TCK_HOLDOVER_LIMIT (R116). -/
def regTCK_HOLDOVER_LIMIT : RegDef :=
  .mk .TCK 0x18 1 8 (some 72) [.ranged .rwl 0 16 1024 16 65535]
/-- TCK_STATUS (R116). -/
def regTCK_STATUS : RegDef :=
  .mk .TCK 0x20 1 8 (some 72) [.ro 32 32, .ro 16 8, .ro 4 12, .ro 0 3]
/-- TCK_EVENTS (R116). -/
def regTCK_EVENTS : RegDef :=
  .mk .TCK 0x28 1 8 (some 72) [.w1c 6 1, .w1c 5 1, .w1c 4 1, .w1c 3 1, .w1c 2 1, .w1c 1 1, .w1c 0 1]
/-- SCH_CTRL (R118). -/
def regSCH_CTRL : RegDef :=
  .mk .SCH 0x0 1 8 (some 0) [.plain .rw 4 2 1, .plain .rw 2 1 1, .wo 1 1, .rw 0 1]
/-- SCH_IMAGE_BASE (R118). -/
def regSCH_IMAGE_BASE : RegDef :=
  .mk .SCH 0x8 1 8 (some 0) [.rw 8 39]
/-- SCH_BASE_TICK (R118). -/
def regSCH_BASE_TICK : RegDef :=
  .mk .SCH 0x10 1 8 (some 0) [.rw 0 64]
/-- SCH_STEP (R118). -/
def regSCH_STEP : RegDef :=
  .mk .SCH 0x18 1 8 (some 0) [.rw 0 40]
/-- SCH_SLIP_BUDGET (R118). -/
def regSCH_SLIP_BUDGET : RegDef :=
  .mk .SCH 0x20 1 8 (some 0) [.plain .rw 0 4 2]
/-- SCH_REPLAY (R118). -/
def regSCH_REPLAY : RegDef :=
  .mk .SCH 0x28 1 8 (some 0) [.ro 16 4, .ranged .rw 8 8 16 4 255, .plain .rw 0 4 2]
/-- SCH_EVENTS (R118). -/
def regSCH_EVENTS : RegDef :=
  .mk .SCH 0x58 1 8 (some 0) [.w1c 5 1, .w1c 4 1, .w1c 3 1, .w1c 2 1, .w1c 1 1, .w1c 0 1]
/-- SCH_IMAGE_ERROR (R118). -/
def regSCH_IMAGE_ERROR : RegDef :=
  .mk .SCH 0x68 1 8 (some 0) [.ro 0 4]
/-- SCH_BREAK (R118). -/
def regSCH_BREAK : RegDef :=
  .mk .SCH 0x48 1 8 (some 0) [.ro 40 24, .ro 36 4, .ro 16 16, .ro 12 1, .ro 0 12]
/-- SCH_BREAK_TICK (R118). -/
def regSCH_BREAK_TICK : RegDef :=
  .mk .SCH 0x50 1 8 (some 0) [.ro 0 64]
/-- SCH_STATUS (R118). -/
def regSCH_STATUS : RegDef :=
  .mk .SCH 0x30 1 8 none [.ro 8 24, .ro 0 3]
/-- SCH_EPOCH (R118). -/
def regSCH_EPOCH : RegDef :=
  .mk .SCH 0x38 1 8 none [.ro 0 32]
/-- SCH_SLIP_COUNT (R118). -/
def regSCH_SLIP_COUNT : RegDef :=
  .mk .SCH 0x40 1 8 none [.ro 0 32]
/-- SCH_MIRAGE_DISCARDS (R118). -/
def regSCH_MIRAGE_DISCARDS : RegDef :=
  .mk .SCH 0x60 1 8 none [.ro 0 32]
/-- SCH_CHANNEL (R118). -/
def regSCH_CHANNEL : RegDef :=
  .mk .SCH 0x1000 4096 8 (some 0) [.ro 16 9, .ro 0 9]
/-- MXA_CTRL (R186). -/
def regMXA_CTRL : RegDef :=
  .mk .MXA 0x0 1 8 none [.wo 1 1, .rw 0 1]
/-- MXA_STATUS (R186). -/
def regMXA_STATUS : RegDef :=
  .mk .MXA 0x8 1 8 none [.ro 8 4, .ro 7 1, .ro 5 2, .ro 4 1, .ro 3 1, .ro 2 1]
/-- MXA_EVENTS (R186). -/
def regMXA_EVENTS : RegDef :=
  .mk .MXA 0x10 1 8 none [.w1c 3 1, .w1c 2 1, .w1c 1 1, .w1c 0 1]
/-- MXA_ERROR (R186). -/
def regMXA_ERROR : RegDef :=
  .mk .MXA 0x18 1 8 none [.ro 40 24, .ro 32 8, .ro 0 8]
/-- MXA_COUNTS (R186). -/
def regMXA_COUNTS : RegDef :=
  .mk .MXA 0x20 1 8 none [.ro 32 32, .ro 0 32]
/-- MXA_MACS (R186). -/
def regMXA_MACS : RegDef :=
  .mk .MXA 0x28 1 8 none [.ro 0 64]
/-- MXA_BUSY (R186). -/
def regMXA_BUSY : RegDef :=
  .mk .MXA 0x30 1 8 none [.ro 0 64]
/-- MXA_STAT (R186). -/
def regMXA_STAT : RegDef :=
  .mk .MXA 0x100 176 8 none [.ro 0 64]
/-- MXW_CTRL (R186). -/
def regMXW_CTRL : RegDef :=
  .mk .MXW 0x0 1 8 none [.wo 1 1]
/-- MXW_STATUS (R186). -/
def regMXW_STATUS : RegDef :=
  .mk .MXW 0x8 1 8 none [.plain .ro 8 4 7, .ro 7 1, .ro 5 2, .ro 4 1, .ro 3 1, .ro 2 1]
/-- MXW_EVENTS (R187). -/
def regMXW_EVENTS : RegDef :=
  .mk .MXW 0x10 1 8 none [.w1c 63 1, .w1c 62 1, .ro 40 20, .ro 20 20, .ro 0 20]
/-- MXW_ERROR (R186). -/
def regMXW_ERROR : RegDef :=
  .mk .MXW 0x18 1 8 none [.ro 40 24, .ro 32 8, .ro 0 8]
/-- MXW_MACS (R186). -/
def regMXW_MACS : RegDef :=
  .mk .MXW 0x28 1 8 none [.ro 0 64]
/-- MXW_BUSY (R186). -/
def regMXW_BUSY : RegDef :=
  .mk .MXW 0x30 1 8 none [.ro 0 64]
/-- MXW_STAT (R186). -/
def regMXW_STAT : RegDef :=
  .mk .MXW 0x100 176 8 none [.ro 0 64]
/-- VSE_CAPS (R223). -/
def regVSE_CAPS : RegDef :=
  .mk .VSE 0x0 1 8 none [.plain .ro 16 8 1, .plain .ro 0 16 1024]
/-- VSE_CTRL (R223). -/
def regVSE_CTRL : RegDef :=
  .mk .VSE 0x8 1 8 none [.wo 0 1]
/-- VSE_EVENTS (R223). -/
def regVSE_EVENTS : RegDef :=
  .mk .VSE 0x10 1 8 none [.w1c 63 1, .w1c 62 1, .w1c 61 1, .w1c 60 1, .ro 40 20, .ro 20 20, .ro 0 20]
/-- VSE_ERROR (R223). -/
def regVSE_ERROR : RegDef :=
  .mk .VSE 0x18 1 8 none [.ro 40 24, .ro 32 8, .ro 0 8]
/-- VSE_GEN_SEED (R223). -/
def regVSE_GEN_SEED : RegDef :=
  .mk .VSE 0x20 1 8 none [.rwl 0 64]
/-- VSE_GEN_STATE (R223). -/
def regVSE_GEN_STATE : RegDef :=
  .mk .VSE 0x10000 4352 8 none [.rw 32 32, .rw 0 32]
/-- VSC_STATUS (R224). -/
def regVSC_STATUS : RegDef :=
  .mk .VSC 0x0 1 8 none [.ro 6 2, .ro 3 3, .ro 0 1]
/-- VSC_CTRL (R223). -/
def regVSC_CTRL : RegDef :=
  .mk .VSC 0x8 1 8 none [.wo 0 1]
/-- VSC_EVENTS (R223). -/
def regVSC_EVENTS : RegDef :=
  .mk .VSC 0x10 1 8 none [.w1c 63 1, .w1c 62 1, .ro 40 20, .ro 20 20, .ro 0 20]
/-- VSC_ERROR (R223). -/
def regVSC_ERROR : RegDef :=
  .mk .VSC 0x18 1 8 none [.ro 40 24, .ro 32 8, .ro 0 8]
/-- VSC_VREG (R224). -/
def regVSC_VREG : RegDef :=
  .mk .VSC 0x10000 16384 8 none [.ro 32 32, .ro 0 32]
/-- CDC_TABLE_BASE (R258). -/
def regCDC_TABLE_BASE : RegDef :=
  .mk .CDC 0x0 1 8 (some 0) [.rwl 21 26]
/-- CDC_CTRL (R258). -/
def regCDC_CTRL : RegDef :=
  .mk .CDC 0x8 1 8 none [.ranged .rw 8 16 16384 1024 65535, .wo 0 1]
/-- CDC_EVENTS (R258). -/
def regCDC_EVENTS : RegDef :=
  .mk .CDC 0x10 1 8 none [.w1c 3 1, .w1c 2 1, .w1c 1 1, .w1c 0 1]
/-- CDC_ERROR (R258). -/
def regCDC_ERROR : RegDef :=
  .mk .CDC 0x18 1 8 none [.ro 40 24, .ro 32 8, .ro 8 24, .ro 4 4, .ro 0 2]
/-- CDC_BLOCKS (R258). -/
def regCDC_BLOCKS : RegDef :=
  .mk .CDC 0x20 1 8 none [.ro 32 32, .ro 0 32]
/-- CDC_BYTES_IN (R258). -/
def regCDC_BYTES_IN : RegDef :=
  .mk .CDC 0x28 1 8 none [.ro 0 64]
/-- CDC_BYTES_OUT (R258). -/
def regCDC_BYTES_OUT : RegDef :=
  .mk .CDC 0x30 1 8 none [.ro 0 64]
/-- CDC_STALL (R258). -/
def regCDC_STALL : RegDef :=
  .mk .CDC 0x38 1 8 none [.ro 0 64]
/-- CDC_LATE (R258). -/
def regCDC_LATE : RegDef :=
  .mk .CDC 0x40 1 8 none [.ro 0 32]
/-- CDC_PENDING (R258). -/
def regCDC_PENDING : RegDef :=
  .mk .CDC 0x48 1 8 none [.ro 8 5, .ro 0 5]
/-- CDC_HIST (R258). -/
def regCDC_HIST : RegDef :=
  .mk .CDC 0x10000 4096 8 none [.ro 32 32, .ro 0 32]
/-- UPD_CTRL (R355). -/
def regUPD_CTRL : RegDef :=
  .mk .UPD 0x0 1 8 (some 0) [.wo 0 1]
/-- UPD_EVENTS (R355). -/
def regUPD_EVENTS : RegDef :=
  .mk .UPD 0x48 1 8 none [.w1c 8 1, .w1c 7 1, .w1c 6 1, .w1c 5 1, .w1c 4 1, .w1c 3 1, .w1c 2 1, .w1c 1 1, .w1c 0 1]
/-- UPD_ERROR (R355). -/
def regUPD_ERROR : RegDef :=
  .mk .UPD 0x50 1 8 none [.ro 40 24, .ro 32 8, .ro 16 16, .ro 0 8]
/-- UPD_COUNTS (R355). -/
def regUPD_COUNTS : RegDef :=
  .mk .UPD 0x58 1 8 none [.ro 32 32, .ro 0 32]
/-- UPD_BLOCKS (R355). -/
def regUPD_BLOCKS : RegDef :=
  .mk .UPD 0x60 1 8 (some 0) [.ro 32 32, .ro 0 32]
/-- UPD_STRAY (R355). -/
def regUPD_STRAY : RegDef :=
  .mk .UPD 0x68 1 8 (some 0) [.ro 32 32, .ro 0 32]
/-- UPD_STATE_BASE (R355). -/
def regUPD_STATE_BASE : RegDef :=
  .mk .UPD 0x8 1 8 (some 0) [.rw 6 41]
/-- UPD_FMT_BASE (R355). -/
def regUPD_FMT_BASE : RegDef :=
  .mk .UPD 0x10 1 8 (some 0) [.rw 6 41]
/-- UPD_LOSS (R355). -/
def regUPD_LOSS : RegDef :=
  .mk .UPD 0x18 1 8 (some 0) [.ro 48 16, .ranged .rw 32 16 2000 1 65535, .plain .rw 16 8 40, .rw 8 8, .plain .rw 0 8 16]
/-- UPD_LS_PATCH (R355). -/
def regUPD_LS_PATCH : RegDef :=
  .mk .UPD 0x20 1 8 (some 0) [.rw 48 16, .rw 3 44]
/-- UPD_NORM (R355). -/
def regUPD_NORM : RegDef :=
  .mk .UPD 0x38 1 8 (some 0) [.plain .ro 32 32 1065353216, .ro 0 32]
/-- UPD_STATUS (R355). -/
def regUPD_STATUS : RegDef :=
  .mk .UPD 0x40 1 8 (some 0) [.ro 4 1, .ro 3 1, .ro 2 1, .ro 0 2]
/-- UPD_DIGEST_TIMEOUT (R355). -/
def regUPD_DIGEST_TIMEOUT : RegDef :=
  .mk .UPD 0x70 1 8 (some 0) [.ranged .rw 0 16 64 1 65535]
/-- UPD_VERIFY_RESULT (R355). -/
def regUPD_VERIFY_RESULT : RegDef :=
  .mk .UPD 0xF0 1 8 (some 0) [.ro 63 1, .ro 62 1, .ro 0 32]
/-- UPD_REWIND (R355). -/
def regUPD_REWIND : RegDef :=
  .mk .UPD 0xF8 1 8 (some 0) [.wo 63 1, .rw 0 40]
/-- UPD_UNUM (R355). -/
def regUPD_UNUM : RegDef :=
  .mk .UPD 0x100 1 8 (some 0) [.plain .rw 0 40 1]
/-- UPD_DIVERGE_STEP (R355). -/
def regUPD_DIVERGE_STEP : RegDef :=
  .mk .UPD 0xD8 1 8 (some 0) [.ro 0 40]
/-- UPD_NORM_CEIL (R355). -/
def regUPD_NORM_CEIL : RegDef :=
  .mk .UPD 0x28 1 8 (some 0) [.plain .rw 0 32 2139095040]
/-- UPD_CLIP_NORM (R355). -/
def regUPD_CLIP_NORM : RegDef :=
  .mk .UPD 0x30 1 8 (some 0) [.rw 0 32]
/-- UPD_PEER_IGNORE (R355). -/
def regUPD_PEER_IGNORE : RegDef :=
  .mk .UPD 0x80 8 8 (some 0) [.rw 63 1, .rw 12 1, .rw 0 12]
/-- UPD_DIVERGE (R355). -/
def regUPD_DIVERGE : RegDef :=
  .mk .UPD 0xC0 1 8 (some 0) [.ro 63 1, .ro 48 13, .ro 0 48]
/-- UPD_DIVERGE_OWN (R355). -/
def regUPD_DIVERGE_OWN : RegDef :=
  .mk .UPD 0xC8 1 8 (some 0) [.ro 0 64]
/-- UPD_DIVERGE_PEER (R355). -/
def regUPD_DIVERGE_PEER : RegDef :=
  .mk .UPD 0xD0 1 8 (some 0) [.ro 0 64]
/-- UPD_VERIFY_KEY (R355). -/
def regUPD_VERIFY_KEY : RegDef :=
  .mk .UPD 0xE0 1 8 (some 0) [.wo 63 1, .rw 0 48]
/-- UPD_VERIFY_COUNT (R355). -/
def regUPD_VERIFY_COUNT : RegDef :=
  .mk .UPD 0xE8 1 8 (some 0) [.rw 0 48]
/-- RDX_TAG_BASE (R383). -/
def regRDX_TAG_BASE : RegDef :=
  .mk .RDX 0x0 1 8 (some 72) [.rwl 3 44]
/-- RDX_VERDICT_ADDR (R383). -/
def regRDX_VERDICT_ADDR : RegDef :=
  .mk .RDX 0x8 1 8 (some 72) [.rwl 3 44]
/-- RDX_CTRL (R383). -/
def regRDX_CTRL : RegDef :=
  .mk .RDX 0x10 1 8 none [.ranged .rw 8 24 1048576 65536 16777215, .wo 0 1]
/-- RDX_STATUS (R383). -/
def regRDX_STATUS : RegDef :=
  .mk .RDX 0x18 1 8 none [.ro 16 9, .ro 0 5]
/-- RDX_EVENTS (R383). -/
def regRDX_EVENTS : RegDef :=
  .mk .RDX 0x20 1 8 none [.w1c 4 1, .w1c 3 1, .w1c 2 1, .w1c 1 1, .w1c 0 1]
/-- RDX_ERROR (R383). -/
def regRDX_ERROR : RegDef :=
  .mk .RDX 0x28 1 8 none [.ro 40 24, .ro 32 8, .ro 16 16, .ro 0 8]
/-- RDX_CHECK_FAIL (R383). -/
def regRDX_CHECK_FAIL : RegDef :=
  .mk .RDX 0x30 1 8 none [.ro 63 1, .ro 32 16, .ro 0 32]
/-- RDX_CHECK_VALUES (R383). -/
def regRDX_CHECK_VALUES : RegDef :=
  .mk .RDX 0x38 1 8 none [.ro 32 32, .ro 0 32]
/-- RDX_COUNTS (R383). -/
def regRDX_COUNTS : RegDef :=
  .mk .RDX 0x40 1 8 none [.ro 0 64]
/-- RDX_SAMPLED (R383). -/
def regRDX_SAMPLED : RegDef :=
  .mk .RDX 0x48 1 8 none [.ro 0 64]
/-- RDX_STRAY (R383). -/
def regRDX_STRAY : RegDef :=
  .mk .RDX 0x50 1 8 none [.ro 0 32]
/-- RDX_LATE (R383). -/
def regRDX_LATE : RegDef :=
  .mk .RDX 0x58 1 8 none [.ro 0 32]
/-- VLK_PORT_CFG (R423). -/
def regVLK_PORT_CFG : RegDef :=
  .mk .VLK 0x0 1 8 none [.plain .rwl 15 1 1, .rwl 14 1, .rwl 13 1, .rwl 11 2, .rwl 9 2]
/-- VLK_STATUS (R423). -/
def regVLK_STATUS : RegDef :=
  .mk .VLK 0x8 1 8 none [.ro 48 5, .ro 44 1, .ro 32 12, .ro 9 1, .ro 8 1, .ro 0 3]
/-- VLK_CTRL (R423). -/
def regVLK_CTRL : RegDef :=
  .mk .VLK 0x10 1 8 none [.wo 1 1, .wo 0 1]
/-- VLK_EVENTS (R423). -/
def regVLK_EVENTS : RegDef :=
  .mk .VLK 0x18 1 8 none [.w1c 6 1, .w1c 5 1, .w1c 4 1, .w1c 3 1, .w1c 2 1, .w1c 1 1, .w1c 0 1]
/-- VLK_DELAY (R423). -/
def regVLK_DELAY : RegDef :=
  .mk .VLK 0x30 1 8 none [.ro 0 32]
/-- VLK_FEC (R423). -/
def regVLK_FEC : RegDef :=
  .mk .VLK 0x20 1 8 none [.ro 32 32, .ro 0 32]
/-- VLK_REPLAY (R423). -/
def regVLK_REPLAY : RegDef :=
  .mk .VLK 0x28 1 8 none [.ro 32 32, .ro 0 32]
/-- VLK_TX_FLITS (R423). -/
def regVLK_TX_FLITS : RegDef :=
  .mk .VLK 0x38 1 8 none [.ro 0 64]
/-- VLK_RX_FLITS (R423). -/
def regVLK_RX_FLITS : RegDef :=
  .mk .VLK 0x40 1 8 none [.ro 0 64]
/-- VLK_CREDIT (R423). -/
def regVLK_CREDIT : RegDef :=
  .mk .VLK 0x100 32 8 none [.rwl 0 12]
/-- VLK_TC0_LIMIT (R423). -/
def regVLK_TC0_LIMIT : RegDef :=
  .mk .VLK 0x200 1 8 (some 72) [.ranged .rwl 0 16 2000 100 8000]
/-- VLK_ARB (R423). -/
def regVLK_ARB : RegDef :=
  .mk .VLK 0x208 1 8 (some 72) [.ranged .rwl 8 16 4096 16 65535, .ranged .rwl 4 4 1 1 15, .ranged .rwl 0 4 2 1 15]
/-- VLK_HOLD (R423). -/
def regVLK_HOLD : RegDef :=
  .mk .VLK 0x210 1 8 (some 72) [.ranged .rwl 0 16 200 20 65535]
/-- VLK_SEC (R423). -/
def regVLK_SEC : RegDef :=
  .mk .VLK 0x218 1 8 (some 72) [.rwl 0 4]
/-- VRT_BANK (R424). -/
def regVRT_BANK : RegDef :=
  .mk .VRT 0x0 1 8 none [.rw 8 4, .ro 7 1, .ro 6 1, .ro 4 2, .rw 0 2]
/-- VRT_ARM_TICK (R424). -/
def regVRT_ARM_TICK : RegDef :=
  .mk .VRT 0x8 1 8 none [.ro 0 64]
/-- VRT_CTRL (R424). -/
def regVRT_CTRL : RegDef :=
  .mk .VRT 0x10 1 8 none [.wo 2 1, .wo 1 1, .wo 0 1]
/-- VRT_EVENTS (R424). -/
def regVRT_EVENTS : RegDef :=
  .mk .VRT 0x18 1 8 none [.w1c 8 1, .w1c 7 1, .w1c 6 1, .w1c 5 1, .w1c 4 1, .w1c 3 1, .w1c 2 1, .w1c 1 1, .w1c 0 1]
/-- VRT_TIMEOUT (R424). -/
def regVRT_TIMEOUT : RegDef :=
  .mk .VRT 0x20 1 8 (some 72) [.ranged .rw 0 16 1000 100 65535]
/-- VRT_COUNTS (R424). -/
def regVRT_COUNTS : RegDef :=
  .mk .VRT 0x28 1 8 none [.ro 32 32, .ro 0 32]
/-- VRT_LATE (R424). -/
def regVRT_LATE : RegDef :=
  .mk .VRT 0x30 1 8 none [.ro 32 32, .ro 0 32]
/-- VRT_POP (R424). -/
def regVRT_POP : RegDef :=
  .mk .VRT 0x400 9 8 none [.plain .ro 16 14 1, .plain .ro 0 14 1]
/-- VRT_BCAST (R424). -/
def regVRT_BCAST : RegDef :=
  .mk .VRT 0x800 64 8 none [.rw 63 1, .rw 62 1, .rw 44 1, .rw 32 12, .rw 0 24]
/-- VRT_ROUTE (R403). -/
def regVRT_ROUTE : RegDef :=
  .mk .VRT 0x10000 16384 8 none [.rw 63 1, .rw 32 24, .rw 24 5, .rw 16 5]
/-- XLT_CTX (R447). -/
def regXLT_CTX : RegDef :=
  .mk .XLT 0x0 1 8 (some 64) [.rw 0 12]
/-- XLT_MISSQ_BASE (R447). -/
def regXLT_MISSQ_BASE : RegDef :=
  .mk .XLT 0x8 1 8 (some 64) [.rw 15 32]
/-- XLT_MISSQ_PTR (R447). -/
def regXLT_MISSQ_PTR : RegDef :=
  .mk .XLT 0x10 1 8 (some 64) [.ro 16 11, .rw 0 11]
/-- XLT_MISS_TIMEOUT (R447). -/
def regXLT_MISS_TIMEOUT : RegDef :=
  .mk .XLT 0x18 1 8 (some 64) [.ranged .rw 0 16 100 10 65535]
/-- XLT_STATUS (R447). -/
def regXLT_STATUS : RegDef :=
  .mk .XLT 0x20 1 8 none [.ro 16 12, .ro 0 7]
/-- XLT_EVENTS (R447). -/
def regXLT_EVENTS : RegDef :=
  .mk .XLT 0x28 1 8 none [.w1c 5 1, .w1c 4 1, .w1c 3 1, .w1c 2 1, .w1c 1 1, .w1c 0 1]
/-- XLT_INVAL (R447). -/
def regXLT_INVAL : RegDef :=
  .mk .XLT 0x30 1 8 none [.wo 63 1, .plain .ro 62 1 1, .wo 61 1, .rw 44 2, .rw 28 16, .rw 0 12]
/-- XLT_INVAL_VA (R447). -/
def regXLT_INVAL_VA : RegDef :=
  .mk .XLT 0x38 1 8 none [.rw 16 41]
/-- XLT_COUNTS (R447). -/
def regXLT_COUNTS : RegDef :=
  .mk .XLT 0x40 1 8 none [.ro 48 16, .ro 24 24, .ro 0 24]
/-- XLT_RESP (R447). -/
def regXLT_RESP : RegDef :=
  .mk .XLT 0x1000 64 8 none [.wo 62 2, .wo 60 2, .wo 16 44, .wo 1 1, .wo 0 1]
/-- FLT_QBASE (R448). -/
def regFLT_QBASE : RegDef :=
  .mk .FLT 0x0 1 8 (some 64) [.rw 63 1, .rw 17 30]
/-- FLT_WADI_BASE (R448). -/
def regFLT_WADI_BASE : RegDef :=
  .mk .FLT 0x8 1 8 (some 64) [.rw 17 30]
/-- FLT_QPTR (R448). -/
def regFLT_QPTR : RegDef :=
  .mk .FLT 0x10 1 8 (some 64) [.ro 16 13, .rw 0 13]
/-- FLT_STATUS (R448). -/
def regFLT_STATUS : RegDef :=
  .mk .FLT 0x18 1 8 (some 64) [.ro 1 11, .ro 0 1]
/-- FLT_EVENTS (R448). -/
def regFLT_EVENTS : RegDef :=
  .mk .FLT 0x20 1 8 (some 64) [.w1c 2 1, .w1c 1 1, .w1c 0 1]
/-- FLT_RESUME (R448). -/
def regFLT_RESUME : RegDef :=
  .mk .FLT 0x28 1 8 (some 64) [.wo 16 2, .wo 0 16]
/-- FLT_HABOOB (R564). -/
def regFLT_HABOOB : RegDef :=
  .mk .FLT 0x48 1 8 (some 64) [.ro 63 1, .w1c 62 1, .w1c 61 1, .w1c 60 1, .ranged .rwl 32 16 1024 256 65535, .ranged .rw 24 8 16 1 255, .ranged .rwl 0 16 256 16 65535]
/-- FLT_RATE (R564). -/
def regFLT_RATE : RegDef :=
  .mk .FLT 0x50 1 8 (some 64) [.ro 32 32, .ro 0 32]
/-- FLT_FWD (R564). -/
def regFLT_FWD : RegDef :=
  .mk .FLT 0x58 1 8 (some 64) [.rw 63 1, .rw 12 1, .rw 0 12]
/-- FLT_RECOVERY (R564). -/
def regFLT_RECOVERY : RegDef :=
  .mk .FLT 0x60 1 8 (some 64) [.wo 63 1, .ro 62 1, .ro 61 1, .ro 52 4, .ro 48 4, .ro 0 40]
/-- FLT_WADI_RELEASE (R448). -/
def regFLT_WADI_RELEASE : RegDef :=
  .mk .FLT 0x30 1 8 (some 64) [.wo 0 16]
/-- FLT_DIE_STALLED (R448). -/
def regFLT_DIE_STALLED : RegDef :=
  .mk .FLT 0x38 1 8 none [.ro 0 36]
/-- FLT_DIE_HEALTH (R564). -/
def regFLT_DIE_HEALTH : RegDef :=
  .mk .FLT 0x40 1 8 none [.ro 63 1, .ro 62 1, .ro 56 3, .ro 16 16, .ro 0 16]
/-- FLT_UNPLACED (R448). -/
def regFLT_UNPLACED : RegDef :=
  .mk .FLT 0x100 16 8 (some 64) [.ro 0 32]
/-- SYN_CTRL (R468). -/
def regSYN_CTRL : RegDef :=
  .mk .SYN 0x0 1 8 none [.wo 0 1]
/-- SYN_EVENTS (R468). -/
def regSYN_EVENTS : RegDef :=
  .mk .SYN 0x10 1 8 none [.w1c 3 1, .w1c 2 1, .w1c 1 1, .w1c 0 1]
/-- SYN_ERROR (R468). -/
def regSYN_ERROR : RegDef :=
  .mk .SYN 0x18 1 8 none [.ro 40 24, .ro 32 8, .ro 8 6, .ro 0 8]
/-- SYN_STATUS (R468). -/
def regSYN_STATUS : RegDef :=
  .mk .SYN 0x30 1 8 none [.ro 0 5]
/-- SYN_JOB (R468). -/
def regSYN_JOB : RegDef :=
  .mk .SYN 0x8 1 8 (some 0) [.rw 63 1, .rw 13 1, .rw 0 12]
/-- SYN_STRAY (R468). -/
def regSYN_STRAY : RegDef :=
  .mk .SYN 0x20 1 8 none [.ro 0 32]
/-- SYN_LATE (R468). -/
def regSYN_LATE : RegDef :=
  .mk .SYN 0x28 1 8 none [.ro 0 32]
/-- SYN_OBJ_CFG (R468). -/
def regSYN_OBJ_CFG : RegDef :=
  .mk .SYN 0x1000 48 256 none [.rw 32 32, .rw 30 2, .plain .rw 29 1 1, .rw 28 1, .rw 0 16]
/-- SYN_OBJ_LINK (R468). -/
def regSYN_OBJ_LINK : RegDef :=
  .mk .SYN 0x1008 48 256 none [.rw 63 1, .rw 32 12, .rw 24 7, .rw 16 6, .rw 8 7, .rw 0 6]
/-- SYN_OBJ_VALUE (R468). -/
def regSYN_OBJ_VALUE : RegDef :=
  .mk .SYN 0x1010 48 256 none [.ro 56 8, .ro 55 1, .ro 48 5, .ro 0 32]
/-- SYN_OBJ_LAST (R468). -/
def regSYN_OBJ_LAST : RegDef :=
  .mk .SYN 0x1018 48 256 none [.ro 63 1, .ro 0 29]
/-- SYN_OBJ_LAST_TICK (R468). -/
def regSYN_OBJ_LAST_TICK : RegDef :=
  .mk .SYN 0x1020 48 256 none [.ro 0 64]
/-- SYN_OBJ_SIGNAL (R468). -/
def regSYN_OBJ_SIGNAL : RegDef :=
  .mk .SYN 0x1028 48 256 none [.wo 32 1, .wo 0 32]
/-- SYN_OBJ_WAITER (R468). -/
def regSYN_OBJ_WAITER : RegDef :=
  .mk .SYN 0x1040 768 8 none [.ro 63 1, .ro 61 2, .ro 60 1, .ro 32 16, .ro 0 32]
/-- OAS_SPLIT (R285). -/
def regOAS_SPLIT : RegDef :=
  .mk .OAS 0x0 1 8 (some 0) [.ranged .rwl 0 5 4 0 16]
/-- OAS_CTRL (R285). -/
def regOAS_CTRL : RegDef :=
  .mk .OAS 0x8 1 8 none [.wo 0 1]
/-- OAS_EVENTS (R285). -/
def regOAS_EVENTS : RegDef :=
  .mk .OAS 0x10 1 8 none [.w1c 2 1, .w1c 1 1, .w1c 0 1]
/-- OAS_COUNTS (R285). -/
def regOAS_COUNTS : RegDef :=
  .mk .OAS 0x18 1 8 none [.ro 32 32, .ro 0 32]
/-- OAS_HITS (R285). -/
def regOAS_HITS : RegDef :=
  .mk .OAS 0x20 1 8 none [.ro 0 64]
/-- OAS_MISSES (R285). -/
def regOAS_MISSES : RegDef :=
  .mk .OAS 0x28 1 8 none [.ro 0 64]
/-- OAS_WRITEBACKS (R285). -/
def regOAS_WRITEBACKS : RegDef :=
  .mk .OAS 0x30 1 8 none [.ro 0 64]
/-- HBC_POOL (R284). -/
def regHBC_POOL : RegDef :=
  .mk .HBC 0x0 1 8 (some 80) [.plain .rwl 0 12 4095]
/-- HBC_SCRUB (R284). -/
def regHBC_SCRUB : RegDef :=
  .mk .HBC 0x8 1 8 none [.plain .rw 8 1 1, .ranged .rw 0 8 24 1 255]
/-- HBC_REPAIR_CTRL (R284). -/
def regHBC_REPAIR_CTRL : RegDef :=
  .mk .HBC 0x10 1 8 none [.plain .rw 8 1 1, .ranged .rw 0 4 4 1 15]
/-- HBC_EVENTS (R284). -/
def regHBC_EVENTS : RegDef :=
  .mk .HBC 0x18 1 8 none [.w1c 7 1, .w1c 6 1, .w1c 5 1, .w1c 4 1, .w1c 3 1, .w1c 2 1, .w1c 1 1, .w1c 0 1]
/-- HBC_COUNTS (R284). -/
def regHBC_COUNTS : RegDef :=
  .mk .HBC 0x20 1 8 none [.ro 32 32, .ro 0 32]
/-- HBC_UE_ADDR (R284). -/
def regHBC_UE_ADDR : RegDef :=
  .mk .HBC 0x28 1 8 none [.ro 63 1, .ro 6 34]
/-- HBC_CTRL (R284). -/
def regHBC_CTRL : RegDef :=
  .mk .HBC 0x30 1 8 none [.wo 0 1]
/-- HBC_SPARES (R284). -/
def regHBC_SPARES : RegDef :=
  .mk .HBC 0x38 1 8 none [.ro 16 12, .plain .ro 0 12 2048]
/-- HBC_RD_SECTORS (R284). -/
def regHBC_RD_SECTORS : RegDef :=
  .mk .HBC 0x40 1 8 none [.ro 0 64]
/-- HBC_WR_SECTORS (R284). -/
def regHBC_WR_SECTORS : RegDef :=
  .mk .HBC 0x48 1 8 none [.ro 0 64]
/-- HBC_AW_SECTORS (R284). -/
def regHBC_AW_SECTORS : RegDef :=
  .mk .HBC 0x50 1 8 none [.ro 0 64]
/-- HBC_PREG0 (R284). -/
def regHBC_PREG0 : RegDef :=
  .mk .HBC 0x2000 16 16 (some 80) [.rwl 63 1, .rwl 48 4, .rwl 21 19]
/-- HBC_PREG1 (R284). -/
def regHBC_PREG1 : RegDef :=
  .mk .HBC 0x2008 16 16 (some 80) [.rwl 21 19]
/-- HBC_AWREG0 (R284). -/
def regHBC_AWREG0 : RegDef :=
  .mk .HBC 0x3000 16 16 (some 80) [.rwl 63 1, .rwl 21 19]
/-- HBC_AWREG1 (R284). -/
def regHBC_AWREG1 : RegDef :=
  .mk .HBC 0x3008 16 16 (some 80) [.rwl 21 19]
/-- HBC_REPAIR_LOG (R284). -/
def regHBC_REPAIR_LOG : RegDef :=
  .mk .HBC 0x4000 2048 8 none [.ro 63 1, .ro 21 6, .ro 15 6, .ro 0 15]
/-- HCX_CTRL (R486). -/
def regHCX_CTRL : RegDef :=
  .mk .HCX 0x0 1 8 none [.wo 0 1]
/-- HCX_STATUS (R486). -/
def regHCX_STATUS : RegDef :=
  .mk .HCX 0x8 1 8 none [.ro 44 1, .ro 0 36]
/-- HCX_EVENTS (R486). -/
def regHCX_EVENTS : RegDef :=
  .mk .HCX 0x10 1 8 none [.w1c 2 1, .w1c 1 1, .w1c 0 1]
/-- HCX_COUNTS (R486). -/
def regHCX_COUNTS : RegDef :=
  .mk .HCX 0x18 1 8 none [.ro 44 20, .ro 22 22, .ro 0 22]
/-- HCX_WB_CANCEL (R486). -/
def regHCX_WB_CANCEL : RegDef :=
  .mk .HCX 0x20 1 8 none [.ro 0 32]
/-- HCX_RWIN (R63). -/
def regHCX_RWIN : RegDef :=
  .mk .HCX 0x10000 512 8 none [.rw 63 1, .rw 12 1, .rw 0 12]
/-- QCX_BASE (R512). -/
def regQCX_BASE : RegDef :=
  .mk .QCX 0x0 1 8 (some 72) [.rwl 26 21]
/-- QCX_DOORBELL (R512). -/
def regQCX_DOORBELL : RegDef :=
  .mk .QCX 0x8 1 8 none [.wo 63 1, .wo 32 20, .wo 0 16]
/-- QCX_QCTL (R512). -/
def regQCX_QCTL : RegDef :=
  .mk .QCX 0x10 1 8 none [.ro 63 1, .ro 60 3, .wo 59 1, .wo 56 3, .rw 0 20]
/-- QCX_EVENTS (R512). -/
def regQCX_EVENTS : RegDef :=
  .mk .QCX 0x18 1 8 none [.w1c 5 1, .w1c 4 1, .w1c 3 1, .w1c 2 1, .w1c 1 1, .w1c 0 1]
/-- QCX_COUNTS (R512). -/
def regQCX_COUNTS : RegDef :=
  .mk .QCX 0x20 1 8 none [.ro 42 22, .ro 21 21, .ro 0 21]
/-- QCX_CACHE (R512). -/
def regQCX_CACHE : RegDef :=
  .mk .QCX 0x28 1 8 none [.ro 32 14, .ro 0 14]
/-- PCI_CTRL (R513). -/
def regPCI_CTRL : RegDef :=
  .mk .PCI 0x0 1 8 none [.wo 5 1, .plain .rw 1 4 7, .rw 0 1]
/-- PCI_STATUS (R513). -/
def regPCI_STATUS : RegDef :=
  .mk .PCI 0x8 1 8 none [.ro 4 5, .ro 1 3, .ro 0 1]
/-- PCI_EVENTS (R513). -/
def regPCI_EVENTS : RegDef :=
  .mk .PCI 0x10 1 8 none [.w1c 3 1, .w1c 2 1, .w1c 1 1, .w1c 0 1]
/-- PCI_MSI (R513). -/
def regPCI_MSI : RegDef :=
  .mk .PCI 0x28 1 8 none [.rw 63 1, .rw 19 44]
/-- PCI_COUNTS (R513). -/
def regPCI_COUNTS : RegDef :=
  .mk .PCI 0x30 1 8 none [.ro 32 32, .ro 0 32]
/-- PCI_IN_BASE (R513). -/
def regPCI_IN_BASE : RegDef :=
  .mk .PCI 0x18 1 8 none [.rw 12 35]
/-- PCI_IN_LIMIT (R513). -/
def regPCI_IN_LIMIT : RegDef :=
  .mk .PCI 0x20 1 8 none [.rw 12 35]
/-- PCI_OUT0 (R513). -/
def regPCI_OUT0 : RegDef :=
  .mk .PCI 0x100 8 16 none [.rw 63 1, .rw 62 1, .rw 41 21, .rw 20 21]
/-- PCI_OUT1 (R513). -/
def regPCI_OUT1 : RegDef :=
  .mk .PCI 0x108 8 16 none [.rw 20 44]
/-- BDI_STATUS (R536). -/
def regBDI_STATUS : RegDef :=
  .mk .BDI 0x0 1 8 none [.ro 48 6, .ro 32 16, .ro 8 1, .ro 0 3]
/-- BDI_EVENTS (R536). -/
def regBDI_EVENTS : RegDef :=
  .mk .BDI 0x8 1 8 none [.w1c 7 1, .w1c 6 1, .w1c 5 1, .w1c 4 1, .w1c 3 1, .w1c 2 1, .w1c 1 1, .w1c 0 1]
/-- BDI_CTRL (R536). -/
def regBDI_CTRL : RegDef :=
  .mk .BDI 0x10 1 8 none [.wo 1 1, .wo 0 1]
/-- BDI_HOLD (R536). -/
def regBDI_HOLD : RegDef :=
  .mk .BDI 0x18 1 8 none [.ranged .rwl 0 16 20 10 1000]
/-- BDI_COUNTS (R536). -/
def regBDI_COUNTS : RegDef :=
  .mk .BDI 0x20 1 8 none [.ro 32 32, .ro 0 32]
/-- BDI_REPAIR (R536). -/
def regBDI_REPAIR : RegDef :=
  .mk .BDI 0x100 16 8 none [.ro 28 3, .plain .ro 0 28 268435455]
/-- BDI_CAPS_OWN (R536). -/
def regBDI_CAPS_OWN : RegDef :=
  .mk .BDI 0x400 32 8 none [.ro 0 64]
/-- BDI_CAPS_PEER (R536). -/
def regBDI_CAPS_PEER : RegDef :=
  .mk .BDI 0x600 32 8 none [.ro 0 64]
/-- SEC_START (R598). -/
def regSEC_START : RegDef :=
  .mk .SEC 0x0 1 8 (some 72) [.wo 63 1, .ro 16 1, .ro 8 8, .ro 4 1, .ro 0 4]
/-- SEC_IMAGE (R598). -/
def regSEC_IMAGE : RegDef :=
  .mk .SEC 0x8 1 8 (some 72) [.ro 32 32, .ro 20 4, .ro 16 4, .ro 8 8, .ro 1 2, .ro 0 1]
/-- SEC_IDENTITY (R598). -/
def regSEC_IDENTITY : RegDef :=
  .mk .SEC 0x10 1 8 (some 72) [.ro 32 1, .ro 24 6, .ro 16 6, .ro 12 1, .ro 0 12]
/-- SEC_FUSE_CMD (R598). -/
def regSEC_FUSE_CMD : RegDef :=
  .mk .SEC 0x20 1 8 (some 72) [.wo 48 16, .wo 8 2, .wo 0 8]
/-- SEC_FUSE_STATUS (R598). -/
def regSEC_FUSE_STATUS : RegDef :=
  .mk .SEC 0x28 1 8 (some 72) [.ro 63 1, .ro 60 3, .ro 8 4, .ro 0 7]
/-- SEC_ATTEST (R598). -/
def regSEC_ATTEST : RegDef :=
  .mk .SEC 0x40 1 8 (some 72) [.wo 63 1, .ro 62 1, .ro 61 1, .ro 60 1, .rw 12 35]
/-- SEC_FLASH (R598). -/
def regSEC_FLASH : RegDef :=
  .mk .SEC 0x48 1 8 (some 72) [.wo 63 1, .ro 62 1, .ro 60 2, .rw 12 35]
/-- SEC_EVENTS (R598). -/
def regSEC_EVENTS : RegDef :=
  .mk .SEC 0x50 1 8 (some 72) [.w1c 1 1, .w1c 0 1]
/-- SEC_SERIAL (R598). -/
def regSEC_SERIAL : RegDef :=
  .mk .SEC 0x18 1 8 (some 72) [.ro 0 64]
/-- SEC_RETIRED0 (R598). -/
def regSEC_RETIRED0 : RegDef :=
  .mk .SEC 0x30 1 8 (some 72) [.ro 0 64]
/-- SEC_RETIRED1 (R598). -/
def regSEC_RETIRED1 : RegDef :=
  .mk .SEC 0x38 1 8 (some 72) [.ro 0 8]
/-- SEC_DIE_MAP (R598). -/
def regSEC_DIE_MAP : RegDef :=
  .mk .SEC 0x100 8 8 (some 72) [.ro 0 32]
/-- SEC_CERT (R598). -/
def regSEC_CERT : RegDef :=
  .mk .SEC 0x1000 512 8 (some 72) [.ro 0 64]
/-- PWR_STATUS (R616). -/
def regPWR_STATUS : RegDef :=
  .mk .PWR 0x0 1 8 (some 72) [.ro 8 4, .ro 7 1, .plain .ro 0 3 1]
/-- PWR_CTRL (R616). -/
def regPWR_CTRL : RegDef :=
  .mk .PWR 0x8 1 8 (some 72) [.wo 5 1, .wo 4 1, .wo 3 1, .wo 2 1, .wo 1 1, .wo 0 1]
/-- PWR_EVENTS (R616). -/
def regPWR_EVENTS : RegDef :=
  .mk .PWR 0x10 1 8 (some 72) [.w1c 5 1, .w1c 4 1, .w1c 3 1, .w1c 2 1, .w1c 1 1, .w1c 0 1]
/-- PWR_SENSE (R616). -/
def regPWR_SENSE : RegDef :=
  .mk .PWR 0x18 1 8 (some 72) [.ro 48 16, .ro 32 16, .ro 24 8, .ro 16 8, .ro 8 8]
/-- PWR_IRQ (R616). -/
def regPWR_IRQ : RegDef :=
  .mk .PWR 0x20 1 8 (some 72) [.rw 63 1, .rw 16 7, .rw 0 11]
/-- PWR_RAIL (R616). -/
def regPWR_RAIL : RegDef :=
  .mk .PWR 0x28 1 8 none [.ro 63 1, .ro 16 8, .ro 0 16]
/-- LDG_CTRL (R637). -/
def regLDG_CTRL : RegDef :=
  .mk .LDG 0x0 1 8 (some 72) [.wo 1 1, .rw 0 1]
/-- LDG_BASE (R637). -/
def regLDG_BASE : RegDef :=
  .mk .LDG 0x8 1 8 (some 72) [.rw 22 25]
/-- LDG_PTR (R637). -/
def regLDG_PTR : RegDef :=
  .mk .LDG 0x10 1 8 (some 72) [.ro 32 17, .rw 0 17]
/-- LDG_EVENTS (R637). -/
def regLDG_EVENTS : RegDef :=
  .mk .LDG 0x18 1 8 (some 72) [.w1c 3 1, .w1c 2 1, .w1c 1 1, .w1c 0 1]
/-- LDG_DROPPED (R637). -/
def regLDG_DROPPED : RegDef :=
  .mk .LDG 0x20 1 8 (some 72) [.ro 32 32, .ro 0 32]
/-- LDG_CAIRN_BASE (R637). -/
def regLDG_CAIRN_BASE : RegDef :=
  .mk .LDG 0x28 1 8 (some 72) [.rw 63 1, .rw 26 21]
/-- LDG_CAIRN_STATUS (R637). -/
def regLDG_CAIRN_STATUS : RegDef :=
  .mk .LDG 0x38 1 8 (some 72) [.ro 48 16, .ro 0 40]
/-- LDG_INPUT (R637). -/
def regLDG_INPUT : RegDef :=
  .mk .LDG 0x40 1 8 (some 72) [.rw 55 9, .rw 5 42]
/-- LDG_ATTACH (R637). -/
def regLDG_ATTACH : RegDef :=
  .mk .LDG 0x48 1 8 (some 72) [.rw 48 16, .rw 12 35]
/-- LDG_TRACE (R637). -/
def regLDG_TRACE : RegDef :=
  .mk .LDG 0x50 1 8 (some 72) [.rw 63 1, .rw 0 16]
/-- LDG_MIRROR_BASE (R637). -/
def regLDG_MIRROR_BASE : RegDef :=
  .mk .LDG 0x30 1 8 (some 72) [.rw 63 1, .rw 26 21]
/-- LDG_PHASE (R637). -/
def regLDG_PHASE : RegDef :=
  .mk .LDG 0x100 8 8 (some 72) [.rw 63 1, .rw 0 24]
/-- LDG_UNIT (R637). -/
def regLDG_UNIT : RegDef :=
  .mk .LDG 0x1000 144 8 none [.ro 0 32]

/-- The table of a register. -/
def Reg.info : Reg → RegDef
  | .TCK_COUNT => regTCK_COUNT
  | .TCK_PERIOD => regTCK_PERIOD
  | .TCK_ROLE => regTCK_ROLE
  | .TCK_HOLDOVER_LIMIT => regTCK_HOLDOVER_LIMIT
  | .TCK_STATUS => regTCK_STATUS
  | .TCK_EVENTS => regTCK_EVENTS
  | .SCH_CTRL => regSCH_CTRL
  | .SCH_IMAGE_BASE => regSCH_IMAGE_BASE
  | .SCH_BASE_TICK => regSCH_BASE_TICK
  | .SCH_STEP => regSCH_STEP
  | .SCH_SLIP_BUDGET => regSCH_SLIP_BUDGET
  | .SCH_REPLAY => regSCH_REPLAY
  | .SCH_EVENTS => regSCH_EVENTS
  | .SCH_IMAGE_ERROR => regSCH_IMAGE_ERROR
  | .SCH_BREAK => regSCH_BREAK
  | .SCH_BREAK_TICK => regSCH_BREAK_TICK
  | .SCH_STATUS => regSCH_STATUS
  | .SCH_EPOCH => regSCH_EPOCH
  | .SCH_SLIP_COUNT => regSCH_SLIP_COUNT
  | .SCH_MIRAGE_DISCARDS => regSCH_MIRAGE_DISCARDS
  | .SCH_CHANNEL => regSCH_CHANNEL
  | .MXA_CTRL => regMXA_CTRL
  | .MXA_STATUS => regMXA_STATUS
  | .MXA_EVENTS => regMXA_EVENTS
  | .MXA_ERROR => regMXA_ERROR
  | .MXA_COUNTS => regMXA_COUNTS
  | .MXA_MACS => regMXA_MACS
  | .MXA_BUSY => regMXA_BUSY
  | .MXA_STAT => regMXA_STAT
  | .MXW_CTRL => regMXW_CTRL
  | .MXW_STATUS => regMXW_STATUS
  | .MXW_EVENTS => regMXW_EVENTS
  | .MXW_ERROR => regMXW_ERROR
  | .MXW_MACS => regMXW_MACS
  | .MXW_BUSY => regMXW_BUSY
  | .MXW_STAT => regMXW_STAT
  | .VSE_CAPS => regVSE_CAPS
  | .VSE_CTRL => regVSE_CTRL
  | .VSE_EVENTS => regVSE_EVENTS
  | .VSE_ERROR => regVSE_ERROR
  | .VSE_GEN_SEED => regVSE_GEN_SEED
  | .VSE_GEN_STATE => regVSE_GEN_STATE
  | .VSC_STATUS => regVSC_STATUS
  | .VSC_CTRL => regVSC_CTRL
  | .VSC_EVENTS => regVSC_EVENTS
  | .VSC_ERROR => regVSC_ERROR
  | .VSC_VREG => regVSC_VREG
  | .CDC_TABLE_BASE => regCDC_TABLE_BASE
  | .CDC_CTRL => regCDC_CTRL
  | .CDC_EVENTS => regCDC_EVENTS
  | .CDC_ERROR => regCDC_ERROR
  | .CDC_BLOCKS => regCDC_BLOCKS
  | .CDC_BYTES_IN => regCDC_BYTES_IN
  | .CDC_BYTES_OUT => regCDC_BYTES_OUT
  | .CDC_STALL => regCDC_STALL
  | .CDC_LATE => regCDC_LATE
  | .CDC_PENDING => regCDC_PENDING
  | .CDC_HIST => regCDC_HIST
  | .UPD_CTRL => regUPD_CTRL
  | .UPD_EVENTS => regUPD_EVENTS
  | .UPD_ERROR => regUPD_ERROR
  | .UPD_COUNTS => regUPD_COUNTS
  | .UPD_BLOCKS => regUPD_BLOCKS
  | .UPD_STRAY => regUPD_STRAY
  | .UPD_STATE_BASE => regUPD_STATE_BASE
  | .UPD_FMT_BASE => regUPD_FMT_BASE
  | .UPD_LOSS => regUPD_LOSS
  | .UPD_LS_PATCH => regUPD_LS_PATCH
  | .UPD_NORM => regUPD_NORM
  | .UPD_STATUS => regUPD_STATUS
  | .UPD_DIGEST_TIMEOUT => regUPD_DIGEST_TIMEOUT
  | .UPD_VERIFY_RESULT => regUPD_VERIFY_RESULT
  | .UPD_REWIND => regUPD_REWIND
  | .UPD_UNUM => regUPD_UNUM
  | .UPD_DIVERGE_STEP => regUPD_DIVERGE_STEP
  | .UPD_NORM_CEIL => regUPD_NORM_CEIL
  | .UPD_CLIP_NORM => regUPD_CLIP_NORM
  | .UPD_PEER_IGNORE => regUPD_PEER_IGNORE
  | .UPD_DIVERGE => regUPD_DIVERGE
  | .UPD_DIVERGE_OWN => regUPD_DIVERGE_OWN
  | .UPD_DIVERGE_PEER => regUPD_DIVERGE_PEER
  | .UPD_VERIFY_KEY => regUPD_VERIFY_KEY
  | .UPD_VERIFY_COUNT => regUPD_VERIFY_COUNT
  | .RDX_TAG_BASE => regRDX_TAG_BASE
  | .RDX_VERDICT_ADDR => regRDX_VERDICT_ADDR
  | .RDX_CTRL => regRDX_CTRL
  | .RDX_STATUS => regRDX_STATUS
  | .RDX_EVENTS => regRDX_EVENTS
  | .RDX_ERROR => regRDX_ERROR
  | .RDX_CHECK_FAIL => regRDX_CHECK_FAIL
  | .RDX_CHECK_VALUES => regRDX_CHECK_VALUES
  | .RDX_COUNTS => regRDX_COUNTS
  | .RDX_SAMPLED => regRDX_SAMPLED
  | .RDX_STRAY => regRDX_STRAY
  | .RDX_LATE => regRDX_LATE
  | .VLK_PORT_CFG => regVLK_PORT_CFG
  | .VLK_STATUS => regVLK_STATUS
  | .VLK_CTRL => regVLK_CTRL
  | .VLK_EVENTS => regVLK_EVENTS
  | .VLK_DELAY => regVLK_DELAY
  | .VLK_FEC => regVLK_FEC
  | .VLK_REPLAY => regVLK_REPLAY
  | .VLK_TX_FLITS => regVLK_TX_FLITS
  | .VLK_RX_FLITS => regVLK_RX_FLITS
  | .VLK_CREDIT => regVLK_CREDIT
  | .VLK_TC0_LIMIT => regVLK_TC0_LIMIT
  | .VLK_ARB => regVLK_ARB
  | .VLK_HOLD => regVLK_HOLD
  | .VLK_SEC => regVLK_SEC
  | .VRT_BANK => regVRT_BANK
  | .VRT_ARM_TICK => regVRT_ARM_TICK
  | .VRT_CTRL => regVRT_CTRL
  | .VRT_EVENTS => regVRT_EVENTS
  | .VRT_TIMEOUT => regVRT_TIMEOUT
  | .VRT_COUNTS => regVRT_COUNTS
  | .VRT_LATE => regVRT_LATE
  | .VRT_POP => regVRT_POP
  | .VRT_BCAST => regVRT_BCAST
  | .VRT_ROUTE => regVRT_ROUTE
  | .XLT_CTX => regXLT_CTX
  | .XLT_MISSQ_BASE => regXLT_MISSQ_BASE
  | .XLT_MISSQ_PTR => regXLT_MISSQ_PTR
  | .XLT_MISS_TIMEOUT => regXLT_MISS_TIMEOUT
  | .XLT_STATUS => regXLT_STATUS
  | .XLT_EVENTS => regXLT_EVENTS
  | .XLT_INVAL => regXLT_INVAL
  | .XLT_INVAL_VA => regXLT_INVAL_VA
  | .XLT_COUNTS => regXLT_COUNTS
  | .XLT_RESP => regXLT_RESP
  | .FLT_QBASE => regFLT_QBASE
  | .FLT_WADI_BASE => regFLT_WADI_BASE
  | .FLT_QPTR => regFLT_QPTR
  | .FLT_STATUS => regFLT_STATUS
  | .FLT_EVENTS => regFLT_EVENTS
  | .FLT_RESUME => regFLT_RESUME
  | .FLT_HABOOB => regFLT_HABOOB
  | .FLT_RATE => regFLT_RATE
  | .FLT_FWD => regFLT_FWD
  | .FLT_RECOVERY => regFLT_RECOVERY
  | .FLT_WADI_RELEASE => regFLT_WADI_RELEASE
  | .FLT_DIE_STALLED => regFLT_DIE_STALLED
  | .FLT_DIE_HEALTH => regFLT_DIE_HEALTH
  | .FLT_UNPLACED => regFLT_UNPLACED
  | .SYN_CTRL => regSYN_CTRL
  | .SYN_EVENTS => regSYN_EVENTS
  | .SYN_ERROR => regSYN_ERROR
  | .SYN_STATUS => regSYN_STATUS
  | .SYN_JOB => regSYN_JOB
  | .SYN_STRAY => regSYN_STRAY
  | .SYN_LATE => regSYN_LATE
  | .SYN_OBJ_CFG => regSYN_OBJ_CFG
  | .SYN_OBJ_LINK => regSYN_OBJ_LINK
  | .SYN_OBJ_VALUE => regSYN_OBJ_VALUE
  | .SYN_OBJ_LAST => regSYN_OBJ_LAST
  | .SYN_OBJ_LAST_TICK => regSYN_OBJ_LAST_TICK
  | .SYN_OBJ_SIGNAL => regSYN_OBJ_SIGNAL
  | .SYN_OBJ_WAITER => regSYN_OBJ_WAITER
  | .OAS_SPLIT => regOAS_SPLIT
  | .OAS_CTRL => regOAS_CTRL
  | .OAS_EVENTS => regOAS_EVENTS
  | .OAS_COUNTS => regOAS_COUNTS
  | .OAS_HITS => regOAS_HITS
  | .OAS_MISSES => regOAS_MISSES
  | .OAS_WRITEBACKS => regOAS_WRITEBACKS
  | .HBC_POOL => regHBC_POOL
  | .HBC_SCRUB => regHBC_SCRUB
  | .HBC_REPAIR_CTRL => regHBC_REPAIR_CTRL
  | .HBC_EVENTS => regHBC_EVENTS
  | .HBC_COUNTS => regHBC_COUNTS
  | .HBC_UE_ADDR => regHBC_UE_ADDR
  | .HBC_CTRL => regHBC_CTRL
  | .HBC_SPARES => regHBC_SPARES
  | .HBC_RD_SECTORS => regHBC_RD_SECTORS
  | .HBC_WR_SECTORS => regHBC_WR_SECTORS
  | .HBC_AW_SECTORS => regHBC_AW_SECTORS
  | .HBC_PREG0 => regHBC_PREG0
  | .HBC_PREG1 => regHBC_PREG1
  | .HBC_AWREG0 => regHBC_AWREG0
  | .HBC_AWREG1 => regHBC_AWREG1
  | .HBC_REPAIR_LOG => regHBC_REPAIR_LOG
  | .HCX_CTRL => regHCX_CTRL
  | .HCX_STATUS => regHCX_STATUS
  | .HCX_EVENTS => regHCX_EVENTS
  | .HCX_COUNTS => regHCX_COUNTS
  | .HCX_WB_CANCEL => regHCX_WB_CANCEL
  | .HCX_RWIN => regHCX_RWIN
  | .QCX_BASE => regQCX_BASE
  | .QCX_DOORBELL => regQCX_DOORBELL
  | .QCX_QCTL => regQCX_QCTL
  | .QCX_EVENTS => regQCX_EVENTS
  | .QCX_COUNTS => regQCX_COUNTS
  | .QCX_CACHE => regQCX_CACHE
  | .PCI_CTRL => regPCI_CTRL
  | .PCI_STATUS => regPCI_STATUS
  | .PCI_EVENTS => regPCI_EVENTS
  | .PCI_MSI => regPCI_MSI
  | .PCI_COUNTS => regPCI_COUNTS
  | .PCI_IN_BASE => regPCI_IN_BASE
  | .PCI_IN_LIMIT => regPCI_IN_LIMIT
  | .PCI_OUT0 => regPCI_OUT0
  | .PCI_OUT1 => regPCI_OUT1
  | .BDI_STATUS => regBDI_STATUS
  | .BDI_EVENTS => regBDI_EVENTS
  | .BDI_CTRL => regBDI_CTRL
  | .BDI_HOLD => regBDI_HOLD
  | .BDI_COUNTS => regBDI_COUNTS
  | .BDI_REPAIR => regBDI_REPAIR
  | .BDI_CAPS_OWN => regBDI_CAPS_OWN
  | .BDI_CAPS_PEER => regBDI_CAPS_PEER
  | .SEC_START => regSEC_START
  | .SEC_IMAGE => regSEC_IMAGE
  | .SEC_IDENTITY => regSEC_IDENTITY
  | .SEC_FUSE_CMD => regSEC_FUSE_CMD
  | .SEC_FUSE_STATUS => regSEC_FUSE_STATUS
  | .SEC_ATTEST => regSEC_ATTEST
  | .SEC_FLASH => regSEC_FLASH
  | .SEC_EVENTS => regSEC_EVENTS
  | .SEC_SERIAL => regSEC_SERIAL
  | .SEC_RETIRED0 => regSEC_RETIRED0
  | .SEC_RETIRED1 => regSEC_RETIRED1
  | .SEC_DIE_MAP => regSEC_DIE_MAP
  | .SEC_CERT => regSEC_CERT
  | .PWR_STATUS => regPWR_STATUS
  | .PWR_CTRL => regPWR_CTRL
  | .PWR_EVENTS => regPWR_EVENTS
  | .PWR_SENSE => regPWR_SENSE
  | .PWR_IRQ => regPWR_IRQ
  | .PWR_RAIL => regPWR_RAIL
  | .LDG_CTRL => regLDG_CTRL
  | .LDG_BASE => regLDG_BASE
  | .LDG_PTR => regLDG_PTR
  | .LDG_EVENTS => regLDG_EVENTS
  | .LDG_DROPPED => regLDG_DROPPED
  | .LDG_CAIRN_BASE => regLDG_CAIRN_BASE
  | .LDG_CAIRN_STATUS => regLDG_CAIRN_STATUS
  | .LDG_INPUT => regLDG_INPUT
  | .LDG_ATTACH => regLDG_ATTACH
  | .LDG_TRACE => regLDG_TRACE
  | .LDG_MIRROR_BASE => regLDG_MIRROR_BASE
  | .LDG_PHASE => regLDG_PHASE
  | .LDG_UNIT => regLDG_UNIT

/-- The registers of one block, in table order. -/
def Blk.regs : Blk → List Reg
  | .TCK => [.TCK_COUNT, .TCK_PERIOD, .TCK_ROLE, .TCK_HOLDOVER_LIMIT, .TCK_STATUS, .TCK_EVENTS]
  | .SCH => [.SCH_CTRL, .SCH_IMAGE_BASE, .SCH_BASE_TICK, .SCH_STEP, .SCH_SLIP_BUDGET, .SCH_REPLAY, .SCH_EVENTS, .SCH_IMAGE_ERROR, .SCH_BREAK, .SCH_BREAK_TICK, .SCH_STATUS, .SCH_EPOCH, .SCH_SLIP_COUNT, .SCH_MIRAGE_DISCARDS, .SCH_CHANNEL]
  | .MXA => [.MXA_CTRL, .MXA_STATUS, .MXA_EVENTS, .MXA_ERROR, .MXA_COUNTS, .MXA_MACS, .MXA_BUSY, .MXA_STAT]
  | .MXW => [.MXW_CTRL, .MXW_STATUS, .MXW_EVENTS, .MXW_ERROR, .MXW_MACS, .MXW_BUSY, .MXW_STAT]
  | .VSE => [.VSE_CAPS, .VSE_CTRL, .VSE_EVENTS, .VSE_ERROR, .VSE_GEN_SEED, .VSE_GEN_STATE]
  | .VSC => [.VSC_STATUS, .VSC_CTRL, .VSC_EVENTS, .VSC_ERROR, .VSC_VREG]
  | .CDC => [.CDC_TABLE_BASE, .CDC_CTRL, .CDC_EVENTS, .CDC_ERROR, .CDC_BLOCKS, .CDC_BYTES_IN, .CDC_BYTES_OUT, .CDC_STALL, .CDC_LATE, .CDC_PENDING, .CDC_HIST]
  | .UPD => [.UPD_CTRL, .UPD_EVENTS, .UPD_ERROR, .UPD_COUNTS, .UPD_BLOCKS, .UPD_STRAY, .UPD_STATE_BASE, .UPD_FMT_BASE, .UPD_LOSS, .UPD_LS_PATCH, .UPD_NORM, .UPD_STATUS, .UPD_DIGEST_TIMEOUT, .UPD_VERIFY_RESULT, .UPD_REWIND, .UPD_UNUM, .UPD_DIVERGE_STEP, .UPD_NORM_CEIL, .UPD_CLIP_NORM, .UPD_PEER_IGNORE, .UPD_DIVERGE, .UPD_DIVERGE_OWN, .UPD_DIVERGE_PEER, .UPD_VERIFY_KEY, .UPD_VERIFY_COUNT]
  | .XLT => [.XLT_CTX, .XLT_MISSQ_BASE, .XLT_MISSQ_PTR, .XLT_MISS_TIMEOUT, .XLT_STATUS, .XLT_EVENTS, .XLT_INVAL, .XLT_INVAL_VA, .XLT_COUNTS, .XLT_RESP]
  | .SYN => [.SYN_CTRL, .SYN_EVENTS, .SYN_ERROR, .SYN_STATUS, .SYN_JOB, .SYN_STRAY, .SYN_LATE, .SYN_OBJ_CFG, .SYN_OBJ_LINK, .SYN_OBJ_VALUE, .SYN_OBJ_LAST, .SYN_OBJ_LAST_TICK, .SYN_OBJ_SIGNAL, .SYN_OBJ_WAITER]
  | .OAS => [.OAS_SPLIT, .OAS_CTRL, .OAS_EVENTS, .OAS_COUNTS, .OAS_HITS, .OAS_MISSES, .OAS_WRITEBACKS]
  | .HBC => [.HBC_POOL, .HBC_SCRUB, .HBC_REPAIR_CTRL, .HBC_EVENTS, .HBC_COUNTS, .HBC_UE_ADDR, .HBC_CTRL, .HBC_SPARES, .HBC_RD_SECTORS, .HBC_WR_SECTORS, .HBC_AW_SECTORS, .HBC_PREG0, .HBC_PREG1, .HBC_AWREG0, .HBC_AWREG1, .HBC_REPAIR_LOG]
  | .VLK => [.VLK_PORT_CFG, .VLK_STATUS, .VLK_CTRL, .VLK_EVENTS, .VLK_DELAY, .VLK_FEC, .VLK_REPLAY, .VLK_TX_FLITS, .VLK_RX_FLITS, .VLK_CREDIT, .VLK_TC0_LIMIT, .VLK_ARB, .VLK_HOLD, .VLK_SEC]
  | .VRT => [.VRT_BANK, .VRT_ARM_TICK, .VRT_CTRL, .VRT_EVENTS, .VRT_TIMEOUT, .VRT_COUNTS, .VRT_LATE, .VRT_POP, .VRT_BCAST, .VRT_ROUTE]
  | .RDX => [.RDX_TAG_BASE, .RDX_VERDICT_ADDR, .RDX_CTRL, .RDX_STATUS, .RDX_EVENTS, .RDX_ERROR, .RDX_CHECK_FAIL, .RDX_CHECK_VALUES, .RDX_COUNTS, .RDX_SAMPLED, .RDX_STRAY, .RDX_LATE]
  | .QCX => [.QCX_BASE, .QCX_DOORBELL, .QCX_QCTL, .QCX_EVENTS, .QCX_COUNTS, .QCX_CACHE]
  | .HCX => [.HCX_CTRL, .HCX_STATUS, .HCX_EVENTS, .HCX_COUNTS, .HCX_WB_CANCEL, .HCX_RWIN]
  | .PCI => [.PCI_CTRL, .PCI_STATUS, .PCI_EVENTS, .PCI_MSI, .PCI_COUNTS, .PCI_IN_BASE, .PCI_IN_LIMIT, .PCI_OUT0, .PCI_OUT1]
  | .BDI => [.BDI_STATUS, .BDI_EVENTS, .BDI_CTRL, .BDI_HOLD, .BDI_COUNTS, .BDI_REPAIR, .BDI_CAPS_OWN, .BDI_CAPS_PEER]
  | .SEC => [.SEC_START, .SEC_IMAGE, .SEC_IDENTITY, .SEC_FUSE_CMD, .SEC_FUSE_STATUS, .SEC_ATTEST, .SEC_FLASH, .SEC_EVENTS, .SEC_SERIAL, .SEC_RETIRED0, .SEC_RETIRED1, .SEC_DIE_MAP, .SEC_CERT]
  | .PWR => [.PWR_STATUS, .PWR_CTRL, .PWR_EVENTS, .PWR_SENSE, .PWR_IRQ, .PWR_RAIL]
  | .FLT => [.FLT_QBASE, .FLT_WADI_BASE, .FLT_QPTR, .FLT_STATUS, .FLT_EVENTS, .FLT_RESUME, .FLT_HABOOB, .FLT_RATE, .FLT_FWD, .FLT_RECOVERY, .FLT_WADI_RELEASE, .FLT_DIE_STALLED, .FLT_DIE_HEALTH, .FLT_UNPLACED]
  | .LDG => [.LDG_CTRL, .LDG_BASE, .LDG_PTR, .LDG_EVENTS, .LDG_DROPPED, .LDG_CAIRN_BASE, .LDG_CAIRN_STATUS, .LDG_INPUT, .LDG_ATTACH, .LDG_TRACE, .LDG_MIRROR_BASE, .LDG_PHASE, .LDG_UNIT]

/-! The named fields of the register tables. -/

abbrev F.TCK_COUNT.COUNT : Fld := ⟨.TCK_COUNT, 0, 64⟩
abbrev F.TCK_PERIOD.PERIOD_US : Fld := ⟨.TCK_PERIOD, 0, 13⟩
abbrev F.TCK_ROLE.IO_MODE : Fld := ⟨.TCK_ROLE, 28, 2⟩
abbrev F.TCK_ROLE.BACKUP : Fld := ⟨.TCK_ROLE, 16, 12⟩
abbrev F.TCK_ROLE.MASTER : Fld := ⟨.TCK_ROLE, 4, 12⟩
abbrev F.TCK_ROLE.BACKUP_VALID : Fld := ⟨.TCK_ROLE, 3, 1⟩
abbrev F.TCK_ROLE.ROLE : Fld := ⟨.TCK_ROLE, 0, 2⟩
abbrev F.TCK_HOLDOVER_LIMIT.LIMIT : Fld := ⟨.TCK_HOLDOVER_LIMIT, 0, 16⟩
abbrev F.TCK_STATUS.OFFSET_PS : Fld := ⟨.TCK_STATUS, 32, 32⟩
abbrev F.TCK_STATUS.MISSED : Fld := ⟨.TCK_STATUS, 16, 8⟩
abbrev F.TCK_STATUS.SOURCE : Fld := ⟨.TCK_STATUS, 4, 12⟩
abbrev F.TCK_STATUS.STATE : Fld := ⟨.TCK_STATUS, 0, 3⟩
abbrev F.TCK_EVENTS.MARK_DISCARDED : Fld := ⟨.TCK_EVENTS, 6, 1⟩
abbrev F.TCK_EVENTS.IO_CONFLICT : Fld := ⟨.TCK_EVENTS, 5, 1⟩
abbrev F.TCK_EVENTS.MASTER_SWITCH : Fld := ⟨.TCK_EVENTS, 4, 1⟩
abbrev F.TCK_EVENTS.COUNT_MISMATCH : Fld := ⟨.TCK_EVENTS, 3, 1⟩
abbrev F.TCK_EVENTS.LOST : Fld := ⟨.TCK_EVENTS, 2, 1⟩
abbrev F.TCK_EVENTS.HOLDOVER : Fld := ⟨.TCK_EVENTS, 1, 1⟩
abbrev F.TCK_EVENTS.LOCK_LOST : Fld := ⟨.TCK_EVENTS, 0, 1⟩
abbrev F.SCH_CTRL.RA_DEPTH : Fld := ⟨.SCH_CTRL, 4, 2⟩
abbrev F.SCH_CTRL.RA_ENABLE : Fld := ⟨.SCH_CTRL, 2, 1⟩
abbrev F.SCH_CTRL.ABORT : Fld := ⟨.SCH_CTRL, 1, 1⟩
abbrev F.SCH_CTRL.RUN : Fld := ⟨.SCH_CTRL, 0, 1⟩
abbrev F.SCH_IMAGE_BASE.BASE : Fld := ⟨.SCH_IMAGE_BASE, 8, 39⟩
abbrev F.SCH_BASE_TICK.BASE_TICK : Fld := ⟨.SCH_BASE_TICK, 0, 64⟩
abbrev F.SCH_STEP.STEP : Fld := ⟨.SCH_STEP, 0, 40⟩
abbrev F.SCH_SLIP_BUDGET.BUDGET : Fld := ⟨.SCH_SLIP_BUDGET, 0, 4⟩
abbrev F.SCH_REPLAY.COUNT : Fld := ⟨.SCH_REPLAY, 16, 4⟩
abbrev F.SCH_REPLAY.DELAY : Fld := ⟨.SCH_REPLAY, 8, 8⟩
abbrev F.SCH_REPLAY.LIMIT : Fld := ⟨.SCH_REPLAY, 0, 4⟩
abbrev F.SCH_EVENTS.START_LATE : Fld := ⟨.SCH_EVENTS, 5, 1⟩
abbrev F.SCH_EVENTS.EXTRA_BREAK : Fld := ⟨.SCH_EVENTS, 4, 1⟩
abbrev F.SCH_EVENTS.REPLAY_LIMIT : Fld := ⟨.SCH_EVENTS, 3, 1⟩
abbrev F.SCH_EVENTS.BREAK_REMOTE : Fld := ⟨.SCH_EVENTS, 2, 1⟩
abbrev F.SCH_EVENTS.BREAK_LOCAL : Fld := ⟨.SCH_EVENTS, 1, 1⟩
abbrev F.SCH_EVENTS.IMAGE_REJECT : Fld := ⟨.SCH_EVENTS, 0, 1⟩
abbrev F.SCH_IMAGE_ERROR.REASON : Fld := ⟨.SCH_IMAGE_ERROR, 0, 4⟩
abbrev F.SCH_BREAK.SEGMENT : Fld := ⟨.SCH_BREAK, 40, 24⟩
abbrev F.SCH_BREAK.CAUSE : Fld := ⟨.SCH_BREAK, 36, 4⟩
abbrev F.SCH_BREAK.UNIT : Fld := ⟨.SCH_BREAK, 16, 16⟩
abbrev F.SCH_BREAK.ERG : Fld := ⟨.SCH_BREAK, 12, 1⟩
abbrev F.SCH_BREAK.MODULE : Fld := ⟨.SCH_BREAK, 0, 12⟩
abbrev F.SCH_BREAK_TICK.TICK : Fld := ⟨.SCH_BREAK_TICK, 0, 64⟩
abbrev F.SCH_STATUS.SEGMENT : Fld := ⟨.SCH_STATUS, 8, 24⟩
abbrev F.SCH_STATUS.STATE : Fld := ⟨.SCH_STATUS, 0, 3⟩
abbrev F.SCH_EPOCH.VALUE : Fld := ⟨.SCH_EPOCH, 0, 32⟩
abbrev F.SCH_SLIP_COUNT.VALUE : Fld := ⟨.SCH_SLIP_COUNT, 0, 32⟩
abbrev F.SCH_MIRAGE_DISCARDS.VALUE : Fld := ⟨.SCH_MIRAGE_DISCARDS, 0, 32⟩
abbrev F.SCH_CHANNEL.CREDITS : Fld := ⟨.SCH_CHANNEL, 16, 9⟩
abbrev F.SCH_CHANNEL.TOKENS : Fld := ⟨.SCH_CHANNEL, 0, 9⟩
abbrev F.MXA_CTRL.CLEAR_COUNTS : Fld := ⟨.MXA_CTRL, 1, 1⟩
abbrev F.MXA_CTRL.SAT_ERROR : Fld := ⟨.MXA_CTRL, 0, 1⟩
abbrev F.MXA_STATUS.ACTIVE_SHAPE : Fld := ⟨.MXA_STATUS, 8, 4⟩
abbrev F.MXA_STATUS.ACTIVE_VALID : Fld := ⟨.MXA_STATUS, 7, 1⟩
abbrev F.MXA_STATUS.SHADOW : Fld := ⟨.MXA_STATUS, 5, 2⟩
abbrev F.MXA_STATUS.OUT_BUSY : Fld := ⟨.MXA_STATUS, 4, 1⟩
abbrev F.MXA_STATUS.STREAM_BUSY : Fld := ⟨.MXA_STATUS, 3, 1⟩
abbrev F.MXA_STATUS.LOAD_BUSY : Fld := ⟨.MXA_STATUS, 2, 1⟩
abbrev F.MXA_EVENTS.STAT_SAT : Fld := ⟨.MXA_EVENTS, 3, 1⟩
abbrev F.MXA_EVENTS.OP_ERROR : Fld := ⟨.MXA_EVENTS, 2, 1⟩
abbrev F.MXA_EVENTS.NAN_MARK : Fld := ⟨.MXA_EVENTS, 1, 1⟩
abbrev F.MXA_EVENTS.ACC_SAT : Fld := ⟨.MXA_EVENTS, 0, 1⟩
abbrev F.MXA_ERROR.SEGMENT : Fld := ⟨.MXA_ERROR, 40, 24⟩
abbrev F.MXA_ERROR.OPCLASS : Fld := ⟨.MXA_ERROR, 32, 8⟩
abbrev F.MXA_ERROR.CAUSE : Fld := ⟨.MXA_ERROR, 0, 8⟩
abbrev F.MXA_COUNTS.NAN_OUT : Fld := ⟨.MXA_COUNTS, 32, 32⟩
abbrev F.MXA_COUNTS.SAT_ADDS : Fld := ⟨.MXA_COUNTS, 0, 32⟩
abbrev F.MXA_MACS.VALUE : Fld := ⟨.MXA_MACS, 0, 64⟩
abbrev F.MXA_BUSY.VALUE : Fld := ⟨.MXA_BUSY, 0, 64⟩
abbrev F.MXA_STAT.DATA : Fld := ⟨.MXA_STAT, 0, 64⟩
abbrev F.MXW_CTRL.CLEAR_COUNTS : Fld := ⟨.MXW_CTRL, 1, 1⟩
abbrev F.MXW_STATUS.ACTIVE_SHAPE : Fld := ⟨.MXW_STATUS, 8, 4⟩
abbrev F.MXW_STATUS.ACTIVE_VALID : Fld := ⟨.MXW_STATUS, 7, 1⟩
abbrev F.MXW_STATUS.SHADOW : Fld := ⟨.MXW_STATUS, 5, 2⟩
abbrev F.MXW_STATUS.OUT_BUSY : Fld := ⟨.MXW_STATUS, 4, 1⟩
abbrev F.MXW_STATUS.STREAM_BUSY : Fld := ⟨.MXW_STATUS, 3, 1⟩
abbrev F.MXW_STATUS.LOAD_BUSY : Fld := ⟨.MXW_STATUS, 2, 1⟩
abbrev F.MXW_EVENTS.STAT_SAT : Fld := ⟨.MXW_EVENTS, 63, 1⟩
abbrev F.MXW_EVENTS.OP_ERROR : Fld := ⟨.MXW_EVENTS, 62, 1⟩
abbrev F.MXW_EVENTS.NAN_COUNT : Fld := ⟨.MXW_EVENTS, 40, 20⟩
abbrev F.MXW_EVENTS.OVF_COUNT : Fld := ⟨.MXW_EVENTS, 20, 20⟩
abbrev F.MXW_EVENTS.FLUSH_COUNT : Fld := ⟨.MXW_EVENTS, 0, 20⟩
abbrev F.MXW_ERROR.SEGMENT : Fld := ⟨.MXW_ERROR, 40, 24⟩
abbrev F.MXW_ERROR.OPCLASS : Fld := ⟨.MXW_ERROR, 32, 8⟩
abbrev F.MXW_ERROR.CAUSE : Fld := ⟨.MXW_ERROR, 0, 8⟩
abbrev F.MXW_MACS.VALUE : Fld := ⟨.MXW_MACS, 0, 64⟩
abbrev F.MXW_BUSY.VALUE : Fld := ⟨.MXW_BUSY, 0, 64⟩
abbrev F.MXW_STAT.DATA : Fld := ⟨.MXW_STAT, 0, 64⟩
abbrev F.VSE_CAPS.VERSION : Fld := ⟨.VSE_CAPS, 16, 8⟩
abbrev F.VSE_CAPS.LANES : Fld := ⟨.VSE_CAPS, 0, 16⟩
abbrev F.VSE_CTRL.CLEAR_COUNTS : Fld := ⟨.VSE_CTRL, 0, 1⟩
abbrev F.VSE_EVENTS.OP_ERROR : Fld := ⟨.VSE_EVENTS, 63, 1⟩
abbrev F.VSE_EVENTS.GEN_CONTEND : Fld := ⟨.VSE_EVENTS, 62, 1⟩
abbrev F.VSE_EVENTS.GEN_WRITE_DISCARD : Fld := ⟨.VSE_EVENTS, 61, 1⟩
abbrev F.VSE_EVENTS.GEN_ZERO : Fld := ⟨.VSE_EVENTS, 60, 1⟩
abbrev F.VSE_EVENTS.NAN_COUNT : Fld := ⟨.VSE_EVENTS, 40, 20⟩
abbrev F.VSE_EVENTS.OVF_COUNT : Fld := ⟨.VSE_EVENTS, 20, 20⟩
abbrev F.VSE_EVENTS.FLUSH_COUNT : Fld := ⟨.VSE_EVENTS, 0, 20⟩
abbrev F.VSE_ERROR.SEGMENT : Fld := ⟨.VSE_ERROR, 40, 24⟩
abbrev F.VSE_ERROR.OPCLASS : Fld := ⟨.VSE_ERROR, 32, 8⟩
abbrev F.VSE_ERROR.CAUSE : Fld := ⟨.VSE_ERROR, 0, 8⟩
abbrev F.VSE_GEN_SEED.SEED : Fld := ⟨.VSE_GEN_SEED, 0, 64⟩
abbrev F.VSE_GEN_STATE.HI : Fld := ⟨.VSE_GEN_STATE, 32, 32⟩
abbrev F.VSE_GEN_STATE.LO : Fld := ⟨.VSE_GEN_STATE, 0, 32⟩
abbrev F.VSC_STATUS.PHASE : Fld := ⟨.VSC_STATUS, 6, 2⟩
abbrev F.VSC_STATUS.STAGES : Fld := ⟨.VSC_STATUS, 3, 3⟩
abbrev F.VSC_STATUS.BUSY : Fld := ⟨.VSC_STATUS, 0, 1⟩
abbrev F.VSC_CTRL.CLEAR_COUNTS : Fld := ⟨.VSC_CTRL, 0, 1⟩
abbrev F.VSC_EVENTS.OP_ERROR : Fld := ⟨.VSC_EVENTS, 63, 1⟩
abbrev F.VSC_EVENTS.GEN_CONTEND : Fld := ⟨.VSC_EVENTS, 62, 1⟩
abbrev F.VSC_EVENTS.NAN_COUNT : Fld := ⟨.VSC_EVENTS, 40, 20⟩
abbrev F.VSC_EVENTS.OVF_COUNT : Fld := ⟨.VSC_EVENTS, 20, 20⟩
abbrev F.VSC_EVENTS.FLUSH_COUNT : Fld := ⟨.VSC_EVENTS, 0, 20⟩
abbrev F.VSC_ERROR.SEGMENT : Fld := ⟨.VSC_ERROR, 40, 24⟩
abbrev F.VSC_ERROR.OPCLASS : Fld := ⟨.VSC_ERROR, 32, 8⟩
abbrev F.VSC_ERROR.CAUSE : Fld := ⟨.VSC_ERROR, 0, 8⟩
abbrev F.VSC_VREG.LANE_ODD : Fld := ⟨.VSC_VREG, 32, 32⟩
abbrev F.VSC_VREG.LANE_EVEN : Fld := ⟨.VSC_VREG, 0, 32⟩
abbrev F.CDC_TABLE_BASE.BASE : Fld := ⟨.CDC_TABLE_BASE, 21, 26⟩
abbrev F.CDC_CTRL.TIMEOUT : Fld := ⟨.CDC_CTRL, 8, 16⟩
abbrev F.CDC_CTRL.CLEAR_COUNTS : Fld := ⟨.CDC_CTRL, 0, 1⟩
abbrev F.CDC_EVENTS.INSTALL_LATE : Fld := ⟨.CDC_EVENTS, 3, 1⟩
abbrev F.CDC_EVENTS.PENDING_DISCARD : Fld := ⟨.CDC_EVENTS, 2, 1⟩
abbrev F.CDC_EVENTS.HIST_SAT : Fld := ⟨.CDC_EVENTS, 1, 1⟩
abbrev F.CDC_EVENTS.OP_ERROR : Fld := ⟨.CDC_EVENTS, 0, 1⟩
abbrev F.CDC_ERROR.SEGMENT : Fld := ⟨.CDC_ERROR, 40, 24⟩
abbrev F.CDC_ERROR.OPCLASS : Fld := ⟨.CDC_ERROR, 32, 8⟩
abbrev F.CDC_ERROR.BLOCK : Fld := ⟨.CDC_ERROR, 8, 24⟩
abbrev F.CDC_ERROR.CAUSE : Fld := ⟨.CDC_ERROR, 4, 4⟩
abbrev F.CDC_ERROR.UNIT : Fld := ⟨.CDC_ERROR, 0, 2⟩
abbrev F.CDC_BLOCKS.RAW_BLOCKS : Fld := ⟨.CDC_BLOCKS, 32, 32⟩
abbrev F.CDC_BLOCKS.ZERO_BLOCKS : Fld := ⟨.CDC_BLOCKS, 0, 32⟩
abbrev F.CDC_BYTES_IN.VALUE : Fld := ⟨.CDC_BYTES_IN, 0, 64⟩
abbrev F.CDC_BYTES_OUT.VALUE : Fld := ⟨.CDC_BYTES_OUT, 0, 64⟩
abbrev F.CDC_STALL.VALUE : Fld := ⟨.CDC_STALL, 0, 64⟩
abbrev F.CDC_LATE.VALUE : Fld := ⟨.CDC_LATE, 0, 32⟩
abbrev F.CDC_PENDING.CX1 : Fld := ⟨.CDC_PENDING, 8, 5⟩
abbrev F.CDC_PENDING.CX0 : Fld := ⟨.CDC_PENDING, 0, 5⟩
abbrev F.CDC_HIST.ODD : Fld := ⟨.CDC_HIST, 32, 32⟩
abbrev F.CDC_HIST.EVEN : Fld := ⟨.CDC_HIST, 0, 32⟩
abbrev F.UPD_CTRL.CLEAR_COUNTS : Fld := ⟨.UPD_CTRL, 0, 1⟩
abbrev F.UPD_EVENTS.REWIND_REFUSED : Fld := ⟨.UPD_EVENTS, 8, 1⟩
abbrev F.UPD_EVENTS.SCALE_INF : Fld := ⟨.UPD_EVENTS, 7, 1⟩
abbrev F.UPD_EVENTS.DIGEST_STRAY : Fld := ⟨.UPD_EVENTS, 6, 1⟩
abbrev F.UPD_EVENTS.DIVERGE : Fld := ⟨.UPD_EVENTS, 5, 1⟩
abbrev F.UPD_EVENTS.LS_CEIL : Fld := ⟨.UPD_EVENTS, 4, 1⟩
abbrev F.UPD_EVENTS.LS_FLOOR : Fld := ⟨.UPD_EVENTS, 3, 1⟩
abbrev F.UPD_EVENTS.SKIPPED : Fld := ⟨.UPD_EVENTS, 2, 1⟩
abbrev F.UPD_EVENTS.GEN_CONTEND : Fld := ⟨.UPD_EVENTS, 1, 1⟩
abbrev F.UPD_EVENTS.OP_ERROR : Fld := ⟨.UPD_EVENTS, 0, 1⟩
abbrev F.UPD_ERROR.SEGMENT : Fld := ⟨.UPD_ERROR, 40, 24⟩
abbrev F.UPD_ERROR.OPCLASS : Fld := ⟨.UPD_ERROR, 32, 8⟩
abbrev F.UPD_ERROR.SHARD : Fld := ⟨.UPD_ERROR, 16, 16⟩
abbrev F.UPD_ERROR.CAUSE : Fld := ⟨.UPD_ERROR, 0, 8⟩
abbrev F.UPD_COUNTS.HIGH : Fld := ⟨.UPD_COUNTS, 32, 32⟩
abbrev F.UPD_COUNTS.LOW : Fld := ⟨.UPD_COUNTS, 0, 32⟩
abbrev F.UPD_BLOCKS.HIGH : Fld := ⟨.UPD_BLOCKS, 32, 32⟩
abbrev F.UPD_BLOCKS.LOW : Fld := ⟨.UPD_BLOCKS, 0, 32⟩
abbrev F.UPD_STRAY.HIGH : Fld := ⟨.UPD_STRAY, 32, 32⟩
abbrev F.UPD_STRAY.LOW : Fld := ⟨.UPD_STRAY, 0, 32⟩
abbrev F.UPD_STATE_BASE.BASE : Fld := ⟨.UPD_STATE_BASE, 6, 41⟩
abbrev F.UPD_FMT_BASE.BASE : Fld := ⟨.UPD_FMT_BASE, 6, 41⟩
abbrev F.UPD_LOSS.GOOD : Fld := ⟨.UPD_LOSS, 48, 16⟩
abbrev F.UPD_LOSS.INTERVAL : Fld := ⟨.UPD_LOSS, 32, 16⟩
abbrev F.UPD_LOSS.MAX : Fld := ⟨.UPD_LOSS, 16, 8⟩
abbrev F.UPD_LOSS.MIN : Fld := ⟨.UPD_LOSS, 8, 8⟩
abbrev F.UPD_LOSS.EXP : Fld := ⟨.UPD_LOSS, 0, 8⟩
abbrev F.UPD_LS_PATCH.COUNT : Fld := ⟨.UPD_LS_PATCH, 48, 16⟩
abbrev F.UPD_LS_PATCH.BASE : Fld := ⟨.UPD_LS_PATCH, 3, 44⟩
abbrev F.UPD_NORM.CLIP : Fld := ⟨.UPD_NORM, 32, 32⟩
abbrev F.UPD_NORM.NORM : Fld := ⟨.UPD_NORM, 0, 32⟩
abbrev F.UPD_STATUS.REWIND_BUSY : Fld := ⟨.UPD_STATUS, 4, 1⟩
abbrev F.UPD_STATUS.VERIFY_BUSY : Fld := ⟨.UPD_STATUS, 3, 1⟩
abbrev F.UPD_STATUS.COMMIT_WAIT : Fld := ⟨.UPD_STATUS, 2, 1⟩
abbrev F.UPD_STATUS.VERDICT : Fld := ⟨.UPD_STATUS, 0, 2⟩
abbrev F.UPD_DIGEST_TIMEOUT.TICKS : Fld := ⟨.UPD_DIGEST_TIMEOUT, 0, 16⟩
abbrev F.UPD_VERIFY_RESULT.DONE : Fld := ⟨.UPD_VERIFY_RESULT, 63, 1⟩
abbrev F.UPD_VERIFY_RESULT.ERROR : Fld := ⟨.UPD_VERIFY_RESULT, 62, 1⟩
abbrev F.UPD_VERIFY_RESULT.MISMATCHES : Fld := ⟨.UPD_VERIFY_RESULT, 0, 32⟩
abbrev F.UPD_REWIND.START : Fld := ⟨.UPD_REWIND, 63, 1⟩
abbrev F.UPD_REWIND.UNUM : Fld := ⟨.UPD_REWIND, 0, 40⟩
abbrev F.UPD_UNUM.VALUE : Fld := ⟨.UPD_UNUM, 0, 40⟩
abbrev F.UPD_DIVERGE_STEP.STEP : Fld := ⟨.UPD_DIVERGE_STEP, 0, 40⟩
abbrev F.UPD_NORM_CEIL.VALUE : Fld := ⟨.UPD_NORM_CEIL, 0, 32⟩
abbrev F.UPD_CLIP_NORM.VALUE : Fld := ⟨.UPD_CLIP_NORM, 0, 32⟩
abbrev F.UPD_PEER_IGNORE.VALID : Fld := ⟨.UPD_PEER_IGNORE, 63, 1⟩
abbrev F.UPD_PEER_IGNORE.ERG : Fld := ⟨.UPD_PEER_IGNORE, 12, 1⟩
abbrev F.UPD_PEER_IGNORE.MODULE : Fld := ⟨.UPD_PEER_IGNORE, 0, 12⟩
abbrev F.UPD_DIVERGE.VALID : Fld := ⟨.UPD_DIVERGE, 63, 1⟩
abbrev F.UPD_DIVERGE.PEER : Fld := ⟨.UPD_DIVERGE, 48, 13⟩
abbrev F.UPD_DIVERGE.KEY : Fld := ⟨.UPD_DIVERGE, 0, 48⟩
abbrev F.UPD_DIVERGE_OWN.DIGEST : Fld := ⟨.UPD_DIVERGE_OWN, 0, 64⟩
abbrev F.UPD_DIVERGE_PEER.DIGEST : Fld := ⟨.UPD_DIVERGE_PEER, 0, 64⟩
abbrev F.UPD_VERIFY_KEY.START : Fld := ⟨.UPD_VERIFY_KEY, 63, 1⟩
abbrev F.UPD_VERIFY_KEY.VALUE : Fld := ⟨.UPD_VERIFY_KEY, 0, 48⟩
abbrev F.UPD_VERIFY_COUNT.VALUE : Fld := ⟨.UPD_VERIFY_COUNT, 0, 48⟩
abbrev F.RDX_TAG_BASE.BASE : Fld := ⟨.RDX_TAG_BASE, 3, 44⟩
abbrev F.RDX_VERDICT_ADDR.BASE : Fld := ⟨.RDX_VERDICT_ADDR, 3, 44⟩
abbrev F.RDX_CTRL.CHECK_TIMEOUT : Fld := ⟨.RDX_CTRL, 8, 24⟩
abbrev F.RDX_CTRL.CLEAR_COUNTS : Fld := ⟨.RDX_CTRL, 0, 1⟩
abbrev F.RDX_STATUS.HELD : Fld := ⟨.RDX_STATUS, 16, 9⟩
abbrev F.RDX_STATUS.OPEN : Fld := ⟨.RDX_STATUS, 0, 5⟩
abbrev F.RDX_EVENTS.HELD_FULL : Fld := ⟨.RDX_EVENTS, 4, 1⟩
abbrev F.RDX_EVENTS.STRAY : Fld := ⟨.RDX_EVENTS, 3, 1⟩
abbrev F.RDX_EVENTS.CHECK_TIMEOUT : Fld := ⟨.RDX_EVENTS, 2, 1⟩
abbrev F.RDX_EVENTS.CHECK_FAIL : Fld := ⟨.RDX_EVENTS, 1, 1⟩
abbrev F.RDX_EVENTS.OP_ERROR : Fld := ⟨.RDX_EVENTS, 0, 1⟩
abbrev F.RDX_ERROR.SEGMENT : Fld := ⟨.RDX_ERROR, 40, 24⟩
abbrev F.RDX_ERROR.OPCLASS : Fld := ⟨.RDX_ERROR, 32, 8⟩
abbrev F.RDX_ERROR.TAG : Fld := ⟨.RDX_ERROR, 16, 16⟩
abbrev F.RDX_ERROR.CAUSE : Fld := ⟨.RDX_ERROR, 0, 8⟩
abbrev F.RDX_CHECK_FAIL.VALID : Fld := ⟨.RDX_CHECK_FAIL, 63, 1⟩
abbrev F.RDX_CHECK_FAIL.TAG : Fld := ⟨.RDX_CHECK_FAIL, 32, 16⟩
abbrev F.RDX_CHECK_FAIL.ELEMENT : Fld := ⟨.RDX_CHECK_FAIL, 0, 32⟩
abbrev F.RDX_CHECK_VALUES.PRIMARY : Fld := ⟨.RDX_CHECK_VALUES, 32, 32⟩
abbrev F.RDX_CHECK_VALUES.CHECK : Fld := ⟨.RDX_CHECK_VALUES, 0, 32⟩
abbrev F.RDX_COUNTS.VALUE : Fld := ⟨.RDX_COUNTS, 0, 64⟩
abbrev F.RDX_SAMPLED.VALUE : Fld := ⟨.RDX_SAMPLED, 0, 64⟩
abbrev F.RDX_STRAY.VALUE : Fld := ⟨.RDX_STRAY, 0, 32⟩
abbrev F.RDX_LATE.VALUE : Fld := ⟨.RDX_LATE, 0, 32⟩
abbrev F.VLK_PORT_CFG.ENABLE : Fld := ⟨.VLK_PORT_CFG, 15, 1⟩
abbrev F.VLK_PORT_CFG.SEC : Fld := ⟨.VLK_PORT_CFG, 14, 1⟩
abbrev F.VLK_PORT_CFG.DATELINE : Fld := ⟨.VLK_PORT_CFG, 13, 1⟩
abbrev F.VLK_PORT_CFG.ROLE : Fld := ⟨.VLK_PORT_CFG, 11, 2⟩
abbrev F.VLK_PORT_CFG.DIM : Fld := ⟨.VLK_PORT_CFG, 9, 2⟩
abbrev F.VLK_STATUS.PEER_PORT : Fld := ⟨.VLK_STATUS, 48, 5⟩
abbrev F.VLK_STATUS.PEER_ERG : Fld := ⟨.VLK_STATUS, 44, 1⟩
abbrev F.VLK_STATUS.PEER_MODULE : Fld := ⟨.VLK_STATUS, 32, 12⟩
abbrev F.VLK_STATUS.PEER_ROUTING : Fld := ⟨.VLK_STATUS, 9, 1⟩
abbrev F.VLK_STATUS.HALF : Fld := ⟨.VLK_STATUS, 8, 1⟩
abbrev F.VLK_STATUS.STATE : Fld := ⟨.VLK_STATUS, 0, 3⟩
abbrev F.VLK_CTRL.CLEAR_COUNTS : Fld := ⟨.VLK_CTRL, 1, 1⟩
abbrev F.VLK_CTRL.RETRAIN : Fld := ⟨.VLK_CTRL, 0, 1⟩
abbrev F.VLK_EVENTS.MISCABLED : Fld := ⟨.VLK_EVENTS, 6, 1⟩
abbrev F.VLK_EVENTS.GCM_FAIL : Fld := ⟨.VLK_EVENTS, 5, 1⟩
abbrev F.VLK_EVENTS.HOLD_EXPIRED : Fld := ⟨.VLK_EVENTS, 4, 1⟩
abbrev F.VLK_EVENTS.HALF_WIDTH : Fld := ⟨.VLK_EVENTS, 3, 1⟩
abbrev F.VLK_EVENTS.RETRAIN : Fld := ⟨.VLK_EVENTS, 2, 1⟩
abbrev F.VLK_EVENTS.FEC_UE : Fld := ⟨.VLK_EVENTS, 1, 1⟩
abbrev F.VLK_EVENTS.REPLAY : Fld := ⟨.VLK_EVENTS, 0, 1⟩
abbrev F.VLK_DELAY.DELAY_PS : Fld := ⟨.VLK_DELAY, 0, 32⟩
abbrev F.VLK_FEC.HIGH : Fld := ⟨.VLK_FEC, 32, 32⟩
abbrev F.VLK_FEC.LOW : Fld := ⟨.VLK_FEC, 0, 32⟩
abbrev F.VLK_REPLAY.HIGH : Fld := ⟨.VLK_REPLAY, 32, 32⟩
abbrev F.VLK_REPLAY.LOW : Fld := ⟨.VLK_REPLAY, 0, 32⟩
abbrev F.VLK_TX_FLITS.VALUE : Fld := ⟨.VLK_TX_FLITS, 0, 64⟩
abbrev F.VLK_RX_FLITS.VALUE : Fld := ⟨.VLK_RX_FLITS, 0, 64⟩
abbrev F.VLK_CREDIT.DEPTH : Fld := ⟨.VLK_CREDIT, 0, 12⟩
abbrev F.VLK_TC0_LIMIT.VALUE : Fld := ⟨.VLK_TC0_LIMIT, 0, 16⟩
abbrev F.VLK_ARB.TC3_GUARD : Fld := ⟨.VLK_ARB, 8, 16⟩
abbrev F.VLK_ARB.W2 : Fld := ⟨.VLK_ARB, 4, 4⟩
abbrev F.VLK_ARB.W1 : Fld := ⟨.VLK_ARB, 0, 4⟩
abbrev F.VLK_HOLD.VALUE : Fld := ⟨.VLK_HOLD, 0, 16⟩
abbrev F.VLK_SEC.KEY : Fld := ⟨.VLK_SEC, 0, 4⟩
abbrev F.VRT_BANK.VALID : Fld := ⟨.VRT_BANK, 8, 4⟩
abbrev F.VRT_BANK.ROUTING : Fld := ⟨.VRT_BANK, 7, 1⟩
abbrev F.VRT_BANK.ARMED : Fld := ⟨.VRT_BANK, 6, 1⟩
abbrev F.VRT_BANK.ARM_BANK : Fld := ⟨.VRT_BANK, 4, 2⟩
abbrev F.VRT_BANK.CURRENT : Fld := ⟨.VRT_BANK, 0, 2⟩
abbrev F.VRT_ARM_TICK.TICK : Fld := ⟨.VRT_ARM_TICK, 0, 64⟩
abbrev F.VRT_CTRL.CLEAR_COUNTS : Fld := ⟨.VRT_CTRL, 2, 1⟩
abbrev F.VRT_CTRL.JOIN : Fld := ⟨.VRT_CTRL, 1, 1⟩
abbrev F.VRT_CTRL.LEAVE : Fld := ⟨.VRT_CTRL, 0, 1⟩
abbrev F.VRT_EVENTS.ROUTE_ERROR : Fld := ⟨.VRT_EVENTS, 8, 1⟩
abbrev F.VRT_EVENTS.REMOTE_LATE : Fld := ⟨.VRT_EVENTS, 7, 1⟩
abbrev F.VRT_EVENTS.REMOTE_TIMEOUT : Fld := ⟨.VRT_EVENTS, 6, 1⟩
abbrev F.VRT_EVENTS.HOP_LIMIT : Fld := ⟨.VRT_EVENTS, 5, 1⟩
abbrev F.VRT_EVENTS.BCAST_NO_ENTRY : Fld := ⟨.VRT_EVENTS, 4, 1⟩
abbrev F.VRT_EVENTS.DETOUR_DROP : Fld := ⟨.VRT_EVENTS, 3, 1⟩
abbrev F.VRT_EVENTS.DETOUR : Fld := ⟨.VRT_EVENTS, 2, 1⟩
abbrev F.VRT_EVENTS.BANK_WRITE_DISCARD : Fld := ⟨.VRT_EVENTS, 1, 1⟩
abbrev F.VRT_EVENTS.NO_ROUTE : Fld := ⟨.VRT_EVENTS, 0, 1⟩
abbrev F.VRT_TIMEOUT.MICROSECONDS : Fld := ⟨.VRT_TIMEOUT, 0, 16⟩
abbrev F.VRT_COUNTS.HIGH : Fld := ⟨.VRT_COUNTS, 32, 32⟩
abbrev F.VRT_COUNTS.LOW : Fld := ⟨.VRT_COUNTS, 0, 32⟩
abbrev F.VRT_LATE.HIGH : Fld := ⟨.VRT_LATE, 32, 32⟩
abbrev F.VRT_LATE.LOW : Fld := ⟨.VRT_LATE, 0, 32⟩
abbrev F.VRT_POP.TC2 : Fld := ⟨.VRT_POP, 16, 14⟩
abbrev F.VRT_POP.TC1 : Fld := ⟨.VRT_POP, 0, 14⟩
abbrev F.VRT_BCAST.VALID : Fld := ⟨.VRT_BCAST, 63, 1⟩
abbrev F.VRT_BCAST.LOCAL : Fld := ⟨.VRT_BCAST, 62, 1⟩
abbrev F.VRT_BCAST.ERG : Fld := ⟨.VRT_BCAST, 44, 1⟩
abbrev F.VRT_BCAST.ROOT : Fld := ⟨.VRT_BCAST, 32, 12⟩
abbrev F.VRT_BCAST.MASK : Fld := ⟨.VRT_BCAST, 0, 24⟩
abbrev F.VRT_ROUTE.VALID : Fld := ⟨.VRT_ROUTE, 63, 1⟩
abbrev F.VRT_ROUTE.ADAPT : Fld := ⟨.VRT_ROUTE, 32, 24⟩
abbrev F.VRT_ROUTE.ALT : Fld := ⟨.VRT_ROUTE, 24, 5⟩
abbrev F.VRT_ROUTE.PRIMARY : Fld := ⟨.VRT_ROUTE, 16, 5⟩
abbrev F.XLT_CTX.ASID : Fld := ⟨.XLT_CTX, 0, 12⟩
abbrev F.XLT_MISSQ_BASE.BASE : Fld := ⟨.XLT_MISSQ_BASE, 15, 32⟩
abbrev F.XLT_MISSQ_PTR.TAIL : Fld := ⟨.XLT_MISSQ_PTR, 16, 11⟩
abbrev F.XLT_MISSQ_PTR.HEAD : Fld := ⟨.XLT_MISSQ_PTR, 0, 11⟩
abbrev F.XLT_MISS_TIMEOUT.VALUE : Fld := ⟨.XLT_MISS_TIMEOUT, 0, 16⟩
abbrev F.XLT_STATUS.ENTRIES : Fld := ⟨.XLT_STATUS, 16, 12⟩
abbrev F.XLT_STATUS.OUTSTANDING : Fld := ⟨.XLT_STATUS, 0, 7⟩
abbrev F.XLT_EVENTS.INVAL_BAD : Fld := ⟨.XLT_EVENTS, 5, 1⟩
abbrev F.XLT_EVENTS.INVAL_BUSY : Fld := ⟨.XLT_EVENTS, 4, 1⟩
abbrev F.XLT_EVENTS.RESP_BAD : Fld := ⟨.XLT_EVENTS, 3, 1⟩
abbrev F.XLT_EVENTS.RESP_LATE : Fld := ⟨.XLT_EVENTS, 2, 1⟩
abbrev F.XLT_EVENTS.MISSQ_FULL : Fld := ⟨.XLT_EVENTS, 1, 1⟩
abbrev F.XLT_EVENTS.TIMEOUT : Fld := ⟨.XLT_EVENTS, 0, 1⟩
abbrev F.XLT_INVAL.START : Fld := ⟨.XLT_INVAL, 63, 1⟩
abbrev F.XLT_INVAL.DONE : Fld := ⟨.XLT_INVAL, 62, 1⟩
abbrev F.XLT_INVAL.CLEAR_COUNTS : Fld := ⟨.XLT_INVAL, 61, 1⟩
abbrev F.XLT_INVAL.SCOPE : Fld := ⟨.XLT_INVAL, 44, 2⟩
abbrev F.XLT_INVAL.PAGES : Fld := ⟨.XLT_INVAL, 28, 16⟩
abbrev F.XLT_INVAL.ASID : Fld := ⟨.XLT_INVAL, 0, 12⟩
abbrev F.XLT_INVAL_VA.VA : Fld := ⟨.XLT_INVAL_VA, 16, 41⟩
abbrev F.XLT_COUNTS.LATE : Fld := ⟨.XLT_COUNTS, 48, 16⟩
abbrev F.XLT_COUNTS.MISSES : Fld := ⟨.XLT_COUNTS, 24, 24⟩
abbrev F.XLT_COUNTS.FAULTS : Fld := ⟨.XLT_COUNTS, 0, 24⟩
abbrev F.XLT_RESP.ACTION : Fld := ⟨.XLT_RESP, 62, 2⟩
abbrev F.XLT_RESP.SIZE : Fld := ⟨.XLT_RESP, 60, 2⟩
abbrev F.XLT_RESP.FRAME : Fld := ⟨.XLT_RESP, 16, 44⟩
abbrev F.XLT_RESP.W : Fld := ⟨.XLT_RESP, 1, 1⟩
abbrev F.XLT_RESP.R : Fld := ⟨.XLT_RESP, 0, 1⟩
abbrev F.FLT_QBASE.ENABLE : Fld := ⟨.FLT_QBASE, 63, 1⟩
abbrev F.FLT_QBASE.BASE : Fld := ⟨.FLT_QBASE, 17, 30⟩
abbrev F.FLT_WADI_BASE.BASE : Fld := ⟨.FLT_WADI_BASE, 17, 30⟩
abbrev F.FLT_QPTR.TAIL : Fld := ⟨.FLT_QPTR, 16, 13⟩
abbrev F.FLT_QPTR.HEAD : Fld := ⟨.FLT_QPTR, 0, 13⟩
abbrev F.FLT_STATUS.WADI_USED : Fld := ⟨.FLT_STATUS, 1, 11⟩
abbrev F.FLT_STATUS.OVERFLOW : Fld := ⟨.FLT_STATUS, 0, 1⟩
abbrev F.FLT_EVENTS.UNPLACED : Fld := ⟨.FLT_EVENTS, 2, 1⟩
abbrev F.FLT_EVENTS.RESUME_DISCARD : Fld := ⟨.FLT_EVENTS, 1, 1⟩
abbrev F.FLT_EVENTS.QUEUE_FULL : Fld := ⟨.FLT_EVENTS, 0, 1⟩
abbrev F.FLT_RESUME.ACTION : Fld := ⟨.FLT_RESUME, 16, 2⟩
abbrev F.FLT_RESUME.TARGET : Fld := ⟨.FLT_RESUME, 0, 16⟩
abbrev F.FLT_HABOOB.ACTIVE : Fld := ⟨.FLT_HABOOB, 63, 1⟩
abbrev F.FLT_HABOOB.ENTERED : Fld := ⟨.FLT_HABOOB, 62, 1⟩
abbrev F.FLT_HABOOB.FENCE : Fld := ⟨.FLT_HABOOB, 61, 1⟩
abbrev F.FLT_HABOOB.TABLE_FULL : Fld := ⟨.FLT_HABOOB, 60, 1⟩
abbrev F.FLT_HABOOB.ENTER : Fld := ⟨.FLT_HABOOB, 32, 16⟩
abbrev F.FLT_HABOOB.QUIET : Fld := ⟨.FLT_HABOOB, 24, 8⟩
abbrev F.FLT_HABOOB.DIE_LIMIT : Fld := ⟨.FLT_HABOOB, 0, 16⟩
abbrev F.FLT_RATE.LAST : Fld := ⟨.FLT_RATE, 32, 32⟩
abbrev F.FLT_RATE.CURRENT : Fld := ⟨.FLT_RATE, 0, 32⟩
abbrev F.FLT_FWD.VALID : Fld := ⟨.FLT_FWD, 63, 1⟩
abbrev F.FLT_FWD.ERG : Fld := ⟨.FLT_FWD, 12, 1⟩
abbrev F.FLT_FWD.MODULE : Fld := ⟨.FLT_FWD, 0, 12⟩
abbrev F.FLT_RECOVERY.RESTORE : Fld := ⟨.FLT_RECOVERY, 63, 1⟩
abbrev F.FLT_RECOVERY.ARMED : Fld := ⟨.FLT_RECOVERY, 62, 1⟩
abbrev F.FLT_RECOVERY.VALID : Fld := ⟨.FLT_RECOVERY, 61, 1⟩
abbrev F.FLT_RECOVERY.REASON : Fld := ⟨.FLT_RECOVERY, 52, 4⟩
abbrev F.FLT_RECOVERY.ITEM : Fld := ⟨.FLT_RECOVERY, 48, 4⟩
abbrev F.FLT_RECOVERY.STEP : Fld := ⟨.FLT_RECOVERY, 0, 40⟩
abbrev F.FLT_WADI_RELEASE.TARGET : Fld := ⟨.FLT_WADI_RELEASE, 0, 16⟩
abbrev F.FLT_DIE_STALLED.UNITS : Fld := ⟨.FLT_DIE_STALLED, 0, 36⟩
abbrev F.FLT_DIE_HEALTH.FATAL : Fld := ⟨.FLT_DIE_HEALTH, 63, 1⟩
abbrev F.FLT_DIE_HEALTH.FENCED : Fld := ⟨.FLT_DIE_HEALTH, 62, 1⟩
abbrev F.FLT_DIE_HEALTH.CAUSE : Fld := ⟨.FLT_DIE_HEALTH, 56, 3⟩
abbrev F.FLT_DIE_HEALTH.PEAK : Fld := ⟨.FLT_DIE_HEALTH, 16, 16⟩
abbrev F.FLT_DIE_HEALTH.WINDOW : Fld := ⟨.FLT_DIE_HEALTH, 0, 16⟩
abbrev F.FLT_UNPLACED.COUNT : Fld := ⟨.FLT_UNPLACED, 0, 32⟩
abbrev F.SYN_CTRL.CLEAR_COUNTS : Fld := ⟨.SYN_CTRL, 0, 1⟩
abbrev F.SYN_EVENTS.CFG_DISCARD : Fld := ⟨.SYN_EVENTS, 3, 1⟩
abbrev F.SYN_EVENTS.HOLD_FULL : Fld := ⟨.SYN_EVENTS, 2, 1⟩
abbrev F.SYN_EVENTS.STRAY : Fld := ⟨.SYN_EVENTS, 1, 1⟩
abbrev F.SYN_EVENTS.OP_ERROR : Fld := ⟨.SYN_EVENTS, 0, 1⟩
abbrev F.SYN_ERROR.SEGMENT : Fld := ⟨.SYN_ERROR, 40, 24⟩
abbrev F.SYN_ERROR.OPCLASS : Fld := ⟨.SYN_ERROR, 32, 8⟩
abbrev F.SYN_ERROR.INDEX : Fld := ⟨.SYN_ERROR, 8, 6⟩
abbrev F.SYN_ERROR.CAUSE : Fld := ⟨.SYN_ERROR, 0, 8⟩
abbrev F.SYN_STATUS.HELD : Fld := ⟨.SYN_STATUS, 0, 5⟩
abbrev F.SYN_JOB.VALID : Fld := ⟨.SYN_JOB, 63, 1⟩
abbrev F.SYN_JOB.MIRROR : Fld := ⟨.SYN_JOB, 13, 1⟩
abbrev F.SYN_JOB.ROOT : Fld := ⟨.SYN_JOB, 0, 12⟩
abbrev F.SYN_STRAY.VALUE : Fld := ⟨.SYN_STRAY, 0, 32⟩
abbrev F.SYN_LATE.VALUE : Fld := ⟨.SYN_LATE, 0, 32⟩
abbrev F.SYN_OBJ_CFG.INIT : Fld := ⟨.SYN_OBJ_CFG, 32, 32⟩
abbrev F.SYN_OBJ_CFG.KIND : Fld := ⟨.SYN_OBJ_CFG, 30, 2⟩
abbrev F.SYN_OBJ_CFG.RESET : Fld := ⟨.SYN_OBJ_CFG, 29, 1⟩
abbrev F.SYN_OBJ_CFG.BCAST : Fld := ⟨.SYN_OBJ_CFG, 28, 1⟩
abbrev F.SYN_OBJ_CFG.TARGET : Fld := ⟨.SYN_OBJ_CFG, 0, 16⟩
abbrev F.SYN_OBJ_LINK.PARENT_VALID : Fld := ⟨.SYN_OBJ_LINK, 63, 1⟩
abbrev F.SYN_OBJ_LINK.PARENT_MODULE : Fld := ⟨.SYN_OBJ_LINK, 32, 12⟩
abbrev F.SYN_OBJ_LINK.PARENT_DIE : Fld := ⟨.SYN_OBJ_LINK, 24, 7⟩
abbrev F.SYN_OBJ_LINK.PARENT_INDEX : Fld := ⟨.SYN_OBJ_LINK, 16, 6⟩
abbrev F.SYN_OBJ_LINK.ROOT_DIE : Fld := ⟨.SYN_OBJ_LINK, 8, 7⟩
abbrev F.SYN_OBJ_LINK.ROOT_INDEX : Fld := ⟨.SYN_OBJ_LINK, 0, 6⟩
abbrev F.SYN_OBJ_VALUE.GEN : Fld := ⟨.SYN_OBJ_VALUE, 56, 8⟩
abbrev F.SYN_OBJ_VALUE.HELD : Fld := ⟨.SYN_OBJ_VALUE, 55, 1⟩
abbrev F.SYN_OBJ_VALUE.WAITERS : Fld := ⟨.SYN_OBJ_VALUE, 48, 5⟩
abbrev F.SYN_OBJ_VALUE.VALUE : Fld := ⟨.SYN_OBJ_VALUE, 0, 32⟩
abbrev F.SYN_OBJ_LAST.VALID : Fld := ⟨.SYN_OBJ_LAST, 63, 1⟩
abbrev F.SYN_OBJ_LAST.ORIGINATOR : Fld := ⟨.SYN_OBJ_LAST, 0, 29⟩
abbrev F.SYN_OBJ_LAST_TICK.TICK : Fld := ⟨.SYN_OBJ_LAST_TICK, 0, 64⟩
abbrev F.SYN_OBJ_SIGNAL.MODE : Fld := ⟨.SYN_OBJ_SIGNAL, 32, 1⟩
abbrev F.SYN_OBJ_SIGNAL.VALUE : Fld := ⟨.SYN_OBJ_SIGNAL, 0, 32⟩
abbrev F.SYN_OBJ_WAITER.VALID : Fld := ⟨.SYN_OBJ_WAITER, 63, 1⟩
abbrev F.SYN_OBJ_WAITER.KIND : Fld := ⟨.SYN_OBJ_WAITER, 61, 2⟩
abbrev F.SYN_OBJ_WAITER.CONSUME : Fld := ⟨.SYN_OBJ_WAITER, 60, 1⟩
abbrev F.SYN_OBJ_WAITER.UNIT : Fld := ⟨.SYN_OBJ_WAITER, 32, 16⟩
abbrev F.SYN_OBJ_WAITER.TARGET : Fld := ⟨.SYN_OBJ_WAITER, 0, 32⟩
abbrev F.OAS_SPLIT.SCRATCH_WAYS : Fld := ⟨.OAS_SPLIT, 0, 5⟩
abbrev F.OAS_CTRL.CLEAR_COUNTS : Fld := ⟨.OAS_CTRL, 0, 1⟩
abbrev F.OAS_EVENTS.UE : Fld := ⟨.OAS_EVENTS, 2, 1⟩
abbrev F.OAS_EVENTS.UE_CLEAN : Fld := ⟨.OAS_EVENTS, 1, 1⟩
abbrev F.OAS_EVENTS.CE : Fld := ⟨.OAS_EVENTS, 0, 1⟩
abbrev F.OAS_COUNTS.UE : Fld := ⟨.OAS_COUNTS, 32, 32⟩
abbrev F.OAS_COUNTS.CE : Fld := ⟨.OAS_COUNTS, 0, 32⟩
abbrev F.OAS_HITS.VALUE : Fld := ⟨.OAS_HITS, 0, 64⟩
abbrev F.OAS_MISSES.VALUE : Fld := ⟨.OAS_MISSES, 0, 64⟩
abbrev F.OAS_WRITEBACKS.VALUE : Fld := ⟨.OAS_WRITEBACKS, 0, 64⟩
abbrev F.HBC_POOL.MEMBERS : Fld := ⟨.HBC_POOL, 0, 12⟩
abbrev F.HBC_SCRUB.ENABLE : Fld := ⟨.HBC_SCRUB, 8, 1⟩
abbrev F.HBC_SCRUB.PERIOD : Fld := ⟨.HBC_SCRUB, 0, 8⟩
abbrev F.HBC_REPAIR_CTRL.AUTO : Fld := ⟨.HBC_REPAIR_CTRL, 8, 1⟩
abbrev F.HBC_REPAIR_CTRL.THRESHOLD : Fld := ⟨.HBC_REPAIR_CTRL, 0, 4⟩
abbrev F.HBC_EVENTS.SCRUB_UE : Fld := ⟨.HBC_EVENTS, 7, 1⟩
abbrev F.HBC_EVENTS.REPAIR_FULL : Fld := ⟨.HBC_EVENTS, 6, 1⟩
abbrev F.HBC_EVENTS.REPAIR_DONE : Fld := ⟨.HBC_EVENTS, 5, 1⟩
abbrev F.HBC_EVENTS.PREG_DENIED : Fld := ⟨.HBC_EVENTS, 4, 1⟩
abbrev F.HBC_EVENTS.AW_REGION : Fld := ⟨.HBC_EVENTS, 3, 1⟩
abbrev F.HBC_EVENTS.MISADDRESS : Fld := ⟨.HBC_EVENTS, 2, 1⟩
abbrev F.HBC_EVENTS.UE : Fld := ⟨.HBC_EVENTS, 1, 1⟩
abbrev F.HBC_EVENTS.CE : Fld := ⟨.HBC_EVENTS, 0, 1⟩
abbrev F.HBC_COUNTS.UE : Fld := ⟨.HBC_COUNTS, 32, 32⟩
abbrev F.HBC_COUNTS.CE : Fld := ⟨.HBC_COUNTS, 0, 32⟩
abbrev F.HBC_UE_ADDR.VALID : Fld := ⟨.HBC_UE_ADDR, 63, 1⟩
abbrev F.HBC_UE_ADDR.SECTOR : Fld := ⟨.HBC_UE_ADDR, 6, 34⟩
abbrev F.HBC_CTRL.CLEAR_COUNTS : Fld := ⟨.HBC_CTRL, 0, 1⟩
abbrev F.HBC_SPARES.REMAPPED : Fld := ⟨.HBC_SPARES, 16, 12⟩
abbrev F.HBC_SPARES.LEFT : Fld := ⟨.HBC_SPARES, 0, 12⟩
abbrev F.HBC_RD_SECTORS.VALUE : Fld := ⟨.HBC_RD_SECTORS, 0, 64⟩
abbrev F.HBC_WR_SECTORS.VALUE : Fld := ⟨.HBC_WR_SECTORS, 0, 64⟩
abbrev F.HBC_AW_SECTORS.VALUE : Fld := ⟨.HBC_AW_SECTORS, 0, 64⟩
abbrev F.HBC_PREG0.VALID : Fld := ⟨.HBC_PREG0, 63, 1⟩
abbrev F.HBC_PREG0.KEY : Fld := ⟨.HBC_PREG0, 48, 4⟩
abbrev F.HBC_PREG0.BASE : Fld := ⟨.HBC_PREG0, 21, 19⟩
abbrev F.HBC_PREG1.LIMIT : Fld := ⟨.HBC_PREG1, 21, 19⟩
abbrev F.HBC_AWREG0.VALID : Fld := ⟨.HBC_AWREG0, 63, 1⟩
abbrev F.HBC_AWREG0.BASE : Fld := ⟨.HBC_AWREG0, 21, 19⟩
abbrev F.HBC_AWREG1.LIMIT : Fld := ⟨.HBC_AWREG1, 21, 19⟩
abbrev F.HBC_REPAIR_LOG.VALID : Fld := ⟨.HBC_REPAIR_LOG, 63, 1⟩
abbrev F.HBC_REPAIR_LOG.PCHANNEL : Fld := ⟨.HBC_REPAIR_LOG, 21, 6⟩
abbrev F.HBC_REPAIR_LOG.BANK : Fld := ⟨.HBC_REPAIR_LOG, 15, 6⟩
abbrev F.HBC_REPAIR_LOG.ROW : Fld := ⟨.HBC_REPAIR_LOG, 0, 15⟩
abbrev F.HCX_CTRL.CLEAR_COUNTS : Fld := ⟨.HCX_CTRL, 0, 1⟩
abbrev F.HCX_STATUS.PEER_LINK_UP : Fld := ⟨.HCX_STATUS, 44, 1⟩
abbrev F.HCX_STATUS.CORES_RUNNING : Fld := ⟨.HCX_STATUS, 0, 36⟩
abbrev F.HCX_EVENTS.CORE_ACCESS_FAULT : Fld := ⟨.HCX_EVENTS, 2, 1⟩
abbrev F.HCX_EVENTS.L3_CE : Fld := ⟨.HCX_EVENTS, 1, 1⟩
abbrev F.HCX_EVENTS.FILTER_EVICT : Fld := ⟨.HCX_EVENTS, 0, 1⟩
abbrev F.HCX_COUNTS.FILTER_EVICT : Fld := ⟨.HCX_COUNTS, 44, 20⟩
abbrev F.HCX_COUNTS.STALE_SNOOP : Fld := ⟨.HCX_COUNTS, 22, 22⟩
abbrev F.HCX_COUNTS.SNOOPS : Fld := ⟨.HCX_COUNTS, 0, 22⟩
abbrev F.HCX_WB_CANCEL.VALUE : Fld := ⟨.HCX_WB_CANCEL, 0, 32⟩
abbrev F.HCX_RWIN.VALID : Fld := ⟨.HCX_RWIN, 63, 1⟩
abbrev F.HCX_RWIN.ERG : Fld := ⟨.HCX_RWIN, 12, 1⟩
abbrev F.HCX_RWIN.MODULE : Fld := ⟨.HCX_RWIN, 0, 12⟩
abbrev F.QCX_BASE.BASE : Fld := ⟨.QCX_BASE, 26, 21⟩
abbrev F.QCX_DOORBELL.KIND : Fld := ⟨.QCX_DOORBELL, 63, 1⟩
abbrev F.QCX_DOORBELL.QUEUE : Fld := ⟨.QCX_DOORBELL, 32, 20⟩
abbrev F.QCX_DOORBELL.VALUE : Fld := ⟨.QCX_DOORBELL, 0, 16⟩
abbrev F.QCX_QCTL.BUSY : Fld := ⟨.QCX_QCTL, 63, 1⟩
abbrev F.QCX_QCTL.RESULT : Fld := ⟨.QCX_QCTL, 60, 3⟩
abbrev F.QCX_QCTL.CLEAR_COUNTS : Fld := ⟨.QCX_QCTL, 59, 1⟩
abbrev F.QCX_QCTL.ACTION : Fld := ⟨.QCX_QCTL, 56, 3⟩
abbrev F.QCX_QCTL.QUEUE : Fld := ⟨.QCX_QCTL, 0, 20⟩
abbrev F.QCX_EVENTS.QCTL_DISCARD : Fld := ⟨.QCX_EVENTS, 5, 1⟩
abbrev F.QCX_EVENTS.CACHE_FULL : Fld := ⟨.QCX_EVENTS, 4, 1⟩
abbrev F.QCX_EVENTS.CQ_FULL : Fld := ⟨.QCX_EVENTS, 3, 1⟩
abbrev F.QCX_EVENTS.QUEUE_ERROR : Fld := ⟨.QCX_EVENTS, 2, 1⟩
abbrev F.QCX_EVENTS.EARLY : Fld := ⟨.QCX_EVENTS, 1, 1⟩
abbrev F.QCX_EVENTS.DB_DISCARD : Fld := ⟨.QCX_EVENTS, 0, 1⟩
abbrev F.QCX_COUNTS.INVALID_FETCHES : Fld := ⟨.QCX_COUNTS, 42, 22⟩
abbrev F.QCX_COUNTS.PARKS : Fld := ⟨.QCX_COUNTS, 21, 21⟩
abbrev F.QCX_COUNTS.DB_DISCARDED : Fld := ⟨.QCX_COUNTS, 0, 21⟩
abbrev F.QCX_CACHE.CACHED : Fld := ⟨.QCX_CACHE, 32, 14⟩
abbrev F.QCX_CACHE.BUSY_QUEUES : Fld := ⟨.QCX_CACHE, 0, 14⟩
abbrev F.PCI_CTRL.CLEAR_COUNTS : Fld := ⟨.PCI_CTRL, 5, 1⟩
abbrev F.PCI_CTRL.MAX_RATE : Fld := ⟨.PCI_CTRL, 1, 4⟩
abbrev F.PCI_CTRL.ENABLE : Fld := ⟨.PCI_CTRL, 0, 1⟩
abbrev F.PCI_STATUS.WIDTH : Fld := ⟨.PCI_STATUS, 4, 5⟩
abbrev F.PCI_STATUS.RATE : Fld := ⟨.PCI_STATUS, 1, 3⟩
abbrev F.PCI_STATUS.LINK_UP : Fld := ⟨.PCI_STATUS, 0, 1⟩
abbrev F.PCI_EVENTS.AER_UE : Fld := ⟨.PCI_EVENTS, 3, 1⟩
abbrev F.PCI_EVENTS.AER_CE : Fld := ⟨.PCI_EVENTS, 2, 1⟩
abbrev F.PCI_EVENTS.INBOUND_UR : Fld := ⟨.PCI_EVENTS, 1, 1⟩
abbrev F.PCI_EVENTS.LINK_DOWN : Fld := ⟨.PCI_EVENTS, 0, 1⟩
abbrev F.PCI_MSI.VALID : Fld := ⟨.PCI_MSI, 63, 1⟩
abbrev F.PCI_MSI.BASE : Fld := ⟨.PCI_MSI, 19, 44⟩
abbrev F.PCI_COUNTS.INBOUND_UR : Fld := ⟨.PCI_COUNTS, 32, 32⟩
abbrev F.PCI_COUNTS.AER_CE : Fld := ⟨.PCI_COUNTS, 0, 32⟩
abbrev F.PCI_IN_BASE.ADDR : Fld := ⟨.PCI_IN_BASE, 12, 35⟩
abbrev F.PCI_IN_LIMIT.ADDR : Fld := ⟨.PCI_IN_LIMIT, 12, 35⟩
abbrev F.PCI_OUT0.VALID : Fld := ⟨.PCI_OUT0, 63, 1⟩
abbrev F.PCI_OUT0.TYPE : Fld := ⟨.PCI_OUT0, 62, 1⟩
abbrev F.PCI_OUT0.SIZE : Fld := ⟨.PCI_OUT0, 41, 21⟩
abbrev F.PCI_OUT0.OFFSET : Fld := ⟨.PCI_OUT0, 20, 21⟩
abbrev F.PCI_OUT1.BUS_BASE : Fld := ⟨.PCI_OUT1, 20, 44⟩
abbrev F.BDI_STATUS.PROTOCOLS : Fld := ⟨.BDI_STATUS, 48, 6⟩
abbrev F.BDI_STATUS.VERSION : Fld := ⟨.BDI_STATUS, 32, 16⟩
abbrev F.BDI_STATUS.PEER_MEETS : Fld := ⟨.BDI_STATUS, 8, 1⟩
abbrev F.BDI_STATUS.STATE : Fld := ⟨.BDI_STATUS, 0, 3⟩
abbrev F.BDI_EVENTS.TRAIN_FAIL : Fld := ⟨.BDI_EVENTS, 7, 1⟩
abbrev F.BDI_EVENTS.CAPS_FAIL : Fld := ⟨.BDI_EVENTS, 6, 1⟩
abbrev F.BDI_EVENTS.CHAN_DISCARD : Fld := ⟨.BDI_EVENTS, 5, 1⟩
abbrev F.BDI_EVENTS.TICK_MISS : Fld := ⟨.BDI_EVENTS, 4, 1⟩
abbrev F.BDI_EVENTS.HOLD_EXPIRED : Fld := ⟨.BDI_EVENTS, 3, 1⟩
abbrev F.BDI_EVENTS.REPAIR : Fld := ⟨.BDI_EVENTS, 2, 1⟩
abbrev F.BDI_EVENTS.RETRAIN : Fld := ⟨.BDI_EVENTS, 1, 1⟩
abbrev F.BDI_EVENTS.CRC_FAIL : Fld := ⟨.BDI_EVENTS, 0, 1⟩
abbrev F.BDI_CTRL.CLEAR_COUNTS : Fld := ⟨.BDI_CTRL, 1, 1⟩
abbrev F.BDI_CTRL.RETRAIN : Fld := ⟨.BDI_CTRL, 0, 1⟩
abbrev F.BDI_HOLD.MICROSECONDS : Fld := ⟨.BDI_HOLD, 0, 16⟩
abbrev F.BDI_COUNTS.CRC_FAILS : Fld := ⟨.BDI_COUNTS, 32, 32⟩
abbrev F.BDI_COUNTS.REPLAYS : Fld := ⟨.BDI_COUNTS, 0, 32⟩
abbrev F.BDI_REPAIR.USED : Fld := ⟨.BDI_REPAIR, 28, 3⟩
abbrev F.BDI_REPAIR.WIRES : Fld := ⟨.BDI_REPAIR, 0, 28⟩
abbrev F.BDI_CAPS_OWN.DATA : Fld := ⟨.BDI_CAPS_OWN, 0, 64⟩
abbrev F.BDI_CAPS_PEER.DATA : Fld := ⟨.BDI_CAPS_PEER, 0, 64⟩
abbrev F.SEC_START.READY : Fld := ⟨.SEC_START, 63, 1⟩
abbrev F.SEC_START.JOINED : Fld := ⟨.SEC_START, 16, 1⟩
abbrev F.SEC_START.FAIL_CAUSE : Fld := ⟨.SEC_START, 8, 8⟩
abbrev F.SEC_START.FAILED : Fld := ⟨.SEC_START, 4, 1⟩
abbrev F.SEC_START.STAGE : Fld := ⟨.SEC_START, 0, 4⟩
abbrev F.SEC_IMAGE.SEQUENCE : Fld := ⟨.SEC_IMAGE, 32, 32⟩
abbrev F.SEC_IMAGE.B_RESULT : Fld := ⟨.SEC_IMAGE, 20, 4⟩
abbrev F.SEC_IMAGE.A_RESULT : Fld := ⟨.SEC_IMAGE, 16, 4⟩
abbrev F.SEC_IMAGE.EPOCH : Fld := ⟨.SEC_IMAGE, 8, 8⟩
abbrev F.SEC_IMAGE.KEY_SLOT : Fld := ⟨.SEC_IMAGE, 1, 2⟩
abbrev F.SEC_IMAGE.SLOT : Fld := ⟨.SEC_IMAGE, 0, 1⟩
abbrev F.SEC_IDENTITY.MIRROR_VALID : Fld := ⟨.SEC_IDENTITY, 32, 1⟩
abbrev F.SEC_IDENTITY.SLOT_ID : Fld := ⟨.SEC_IDENTITY, 24, 6⟩
abbrev F.SEC_IDENTITY.RACK : Fld := ⟨.SEC_IDENTITY, 16, 6⟩
abbrev F.SEC_IDENTITY.ERG : Fld := ⟨.SEC_IDENTITY, 12, 1⟩
abbrev F.SEC_IDENTITY.MODULE : Fld := ⟨.SEC_IDENTITY, 0, 12⟩
abbrev F.SEC_FUSE_CMD.CONFIRM : Fld := ⟨.SEC_FUSE_CMD, 48, 16⟩
abbrev F.SEC_FUSE_CMD.CMD : Fld := ⟨.SEC_FUSE_CMD, 8, 2⟩
abbrev F.SEC_FUSE_CMD.ARG : Fld := ⟨.SEC_FUSE_CMD, 0, 8⟩
abbrev F.SEC_FUSE_STATUS.BUSY : Fld := ⟨.SEC_FUSE_STATUS, 63, 1⟩
abbrev F.SEC_FUSE_STATUS.RESULT : Fld := ⟨.SEC_FUSE_STATUS, 60, 3⟩
abbrev F.SEC_FUSE_STATUS.REVOKE : Fld := ⟨.SEC_FUSE_STATUS, 8, 4⟩
abbrev F.SEC_FUSE_STATUS.EPOCH : Fld := ⟨.SEC_FUSE_STATUS, 0, 7⟩
abbrev F.SEC_ATTEST.START : Fld := ⟨.SEC_ATTEST, 63, 1⟩
abbrev F.SEC_ATTEST.BUSY : Fld := ⟨.SEC_ATTEST, 62, 1⟩
abbrev F.SEC_ATTEST.DONE : Fld := ⟨.SEC_ATTEST, 61, 1⟩
abbrev F.SEC_ATTEST.ERROR : Fld := ⟨.SEC_ATTEST, 60, 1⟩
abbrev F.SEC_ATTEST.ADDR : Fld := ⟨.SEC_ATTEST, 12, 35⟩
abbrev F.SEC_FLASH.START : Fld := ⟨.SEC_FLASH, 63, 1⟩
abbrev F.SEC_FLASH.BUSY : Fld := ⟨.SEC_FLASH, 62, 1⟩
abbrev F.SEC_FLASH.RESULT : Fld := ⟨.SEC_FLASH, 60, 2⟩
abbrev F.SEC_FLASH.ADDR : Fld := ⟨.SEC_FLASH, 12, 35⟩
abbrev F.SEC_EVENTS.ATTEST_BUSY : Fld := ⟨.SEC_EVENTS, 1, 1⟩
abbrev F.SEC_EVENTS.ITEM_DISCARD : Fld := ⟨.SEC_EVENTS, 0, 1⟩
abbrev F.SEC_SERIAL.SERIAL : Fld := ⟨.SEC_SERIAL, 0, 64⟩
abbrev F.SEC_RETIRED0.SITES : Fld := ⟨.SEC_RETIRED0, 0, 64⟩
abbrev F.SEC_RETIRED1.SITES : Fld := ⟨.SEC_RETIRED1, 0, 8⟩
abbrev F.SEC_DIE_MAP.MAP : Fld := ⟨.SEC_DIE_MAP, 0, 32⟩
abbrev F.SEC_CERT.DATA : Fld := ⟨.SEC_CERT, 0, 64⟩
abbrev F.PWR_STATUS.DRAIN_SOURCE : Fld := ⟨.PWR_STATUS, 8, 4⟩
abbrev F.PWR_STATUS.DRAIN_HELD : Fld := ⟨.PWR_STATUS, 7, 1⟩
abbrev F.PWR_STATUS.STATE : Fld := ⟨.PWR_STATUS, 0, 3⟩
abbrev F.PWR_CTRL.RESTART : Fld := ⟨.PWR_CTRL, 5, 1⟩
abbrev F.PWR_CTRL.POWER_OFF : Fld := ⟨.PWR_CTRL, 4, 1⟩
abbrev F.PWR_CTRL.DRAIN_CANCEL : Fld := ⟨.PWR_CTRL, 3, 1⟩
abbrev F.PWR_CTRL.DRAIN : Fld := ⟨.PWR_CTRL, 2, 1⟩
abbrev F.PWR_CTRL.UNPARK : Fld := ⟨.PWR_CTRL, 1, 1⟩
abbrev F.PWR_CTRL.PARK : Fld := ⟨.PWR_CTRL, 0, 1⟩
abbrev F.PWR_EVENTS.POWER_OFF_REFUSED : Fld := ⟨.PWR_EVENTS, 5, 1⟩
abbrev F.PWR_EVENTS.PARK_REFUSED : Fld := ⟨.PWR_EVENTS, 4, 1⟩
abbrev F.PWR_EVENTS.RAIL_FAULT : Fld := ⟨.PWR_EVENTS, 3, 1⟩
abbrev F.PWR_EVENTS.THERMAL_WARN : Fld := ⟨.PWR_EVENTS, 2, 1⟩
abbrev F.PWR_EVENTS.INPUT_RANGE : Fld := ⟨.PWR_EVENTS, 1, 1⟩
abbrev F.PWR_EVENTS.DRAIN_REQ : Fld := ⟨.PWR_EVENTS, 0, 1⟩
abbrev F.PWR_SENSE.INPUT_MV : Fld := ⟨.PWR_SENSE, 48, 16⟩
abbrev F.PWR_SENSE.INPUT_W : Fld := ⟨.PWR_SENSE, 32, 16⟩
abbrev F.PWR_SENSE.INLET_C : Fld := ⟨.PWR_SENSE, 24, 8⟩
abbrev F.PWR_SENSE.OUTLET_C : Fld := ⟨.PWR_SENSE, 16, 8⟩
abbrev F.PWR_SENSE.TJ_MAX_C : Fld := ⟨.PWR_SENSE, 8, 8⟩
abbrev F.PWR_IRQ.VALID : Fld := ⟨.PWR_IRQ, 63, 1⟩
abbrev F.PWR_IRQ.HART : Fld := ⟨.PWR_IRQ, 16, 7⟩
abbrev F.PWR_IRQ.ID : Fld := ⟨.PWR_IRQ, 0, 11⟩
abbrev F.PWR_RAIL.FAULT : Fld := ⟨.PWR_RAIL, 63, 1⟩
abbrev F.PWR_RAIL.TJ_C : Fld := ⟨.PWR_RAIL, 16, 8⟩
abbrev F.PWR_RAIL.RAIL_MV : Fld := ⟨.PWR_RAIL, 0, 16⟩
abbrev F.LDG_CTRL.CLEAR_COUNTS : Fld := ⟨.LDG_CTRL, 1, 1⟩
abbrev F.LDG_CTRL.ENABLE : Fld := ⟨.LDG_CTRL, 0, 1⟩
abbrev F.LDG_BASE.BASE : Fld := ⟨.LDG_BASE, 22, 25⟩
abbrev F.LDG_PTR.TAIL : Fld := ⟨.LDG_PTR, 32, 17⟩
abbrev F.LDG_PTR.HEAD : Fld := ⟨.LDG_PTR, 0, 17⟩
abbrev F.LDG_EVENTS.ATTACH_REFUSED : Fld := ⟨.LDG_EVENTS, 3, 1⟩
abbrev F.LDG_EVENTS.TRACE_REPLACED : Fld := ⟨.LDG_EVENTS, 2, 1⟩
abbrev F.LDG_EVENTS.TRACE_DROP : Fld := ⟨.LDG_EVENTS, 1, 1⟩
abbrev F.LDG_EVENTS.FULL : Fld := ⟨.LDG_EVENTS, 0, 1⟩
abbrev F.LDG_DROPPED.TRACE : Fld := ⟨.LDG_DROPPED, 32, 32⟩
abbrev F.LDG_DROPPED.LEDGER : Fld := ⟨.LDG_DROPPED, 0, 32⟩
abbrev F.LDG_CAIRN_BASE.VALID : Fld := ⟨.LDG_CAIRN_BASE, 63, 1⟩
abbrev F.LDG_CAIRN_BASE.BASE : Fld := ⟨.LDG_CAIRN_BASE, 26, 21⟩
abbrev F.LDG_CAIRN_STATUS.SLOT_VALID : Fld := ⟨.LDG_CAIRN_STATUS, 48, 16⟩
abbrev F.LDG_CAIRN_STATUS.LAST_STEP : Fld := ⟨.LDG_CAIRN_STATUS, 0, 40⟩
abbrev F.LDG_INPUT.COUNT : Fld := ⟨.LDG_INPUT, 55, 9⟩
abbrev F.LDG_INPUT.BASE : Fld := ⟨.LDG_INPUT, 5, 42⟩
abbrev F.LDG_ATTACH.GENERATION : Fld := ⟨.LDG_ATTACH, 48, 16⟩
abbrev F.LDG_ATTACH.ADDR : Fld := ⟨.LDG_ATTACH, 12, 35⟩
abbrev F.LDG_TRACE.VALID : Fld := ⟨.LDG_TRACE, 63, 1⟩
abbrev F.LDG_TRACE.UNIT : Fld := ⟨.LDG_TRACE, 0, 16⟩
abbrev F.LDG_MIRROR_BASE.VALID : Fld := ⟨.LDG_MIRROR_BASE, 63, 1⟩
abbrev F.LDG_MIRROR_BASE.BASE : Fld := ⟨.LDG_MIRROR_BASE, 26, 21⟩
abbrev F.LDG_PHASE.VALID : Fld := ⟨.LDG_PHASE, 63, 1⟩
abbrev F.LDG_PHASE.FIRST : Fld := ⟨.LDG_PHASE, 0, 24⟩
abbrev F.LDG_UNIT.CYCLES : Fld := ⟨.LDG_UNIT, 0, 32⟩

end Sys2Proof.Machine
end

