-- ==== Sys2Proof/Machine/State.lean ====
section
/-! DEFINITION. The module's state as plain data: every register of the spec's tables (`regs`), local memory (`mem`),
and what the rules give each unit beside its registers. A register or a byte that is not listed holds its reset value
or zero (log entries 2 and 3). `State.reset` is the module at its entry into Starting (log entry 4). -/

namespace Sys2Proof.Machine

/-- Why the machine stops with a fault: never. Errors of the module are error statuses, events, records and breaks,
which are next states; the type is here because the interface asks for one. -/
inductive Fault where
  /-- Raised by no command. -/
  | none
deriving DecidableEq, Repr

/-- Why the model answers a command with no next state. -/
inductive Refusal where
  /-- Raised by an arm of exec whose command has no meaning yet. Safe: nothing is claimed of it. -/
  | notModelled (mnemonic : String)
  /-- Raised by `act` for a command whose operands name no place of the module or are not of the form the spec gives
  them (`WellFormed`): no such event can reach the module. Safe: nothing is claimed of it. -/
  | illFormed
deriving DecidableEq, Repr

/-- The place of one register word: the register, the die whose window holds it, and the number of the entry within
the register (instance, object, channel). -/
structure Loc where
  reg : Reg
  die : Nat
  idx : Nat
deriving DecidableEq, Repr

/-- What leaves the module, oldest last. -/
inductive Out where
  /-- A register or memory read response, or a write answer, to a requester: originator, address, status, data. -/
  | response (org addr status : Nat) (data : Bytes)
  /-- A flit sent on a Vemen port: fabric die, port instance, the flit. -/
  | vlkFlit (die inst : Nat) (flit : Bytes)
  /-- A packet sent by a router on a Vemen port (die, port instance) or on the fabric-die ring (die, 6 or 7). -/
  | packet (die output : Nat) (pkt : Packet)
  /-- A flit sent on a BDI link. -/
  | bdiFlit (die link : Nat) (flit : Bytes)
  /-- A message of a BDI channel handed to the units of the die that it names (R529). -/
  | message (die chan : Nat) (msg : Bytes)
  /-- The pulse on TICK_IO (R81), at the tick of this count. -/
  | tickIo (count : Nat)
  /-- A request or an answer on a PCIe port: write, bus address, TYPE, tag, data. -/
  | pciRequest (port : Nat) (write : Bool) (busAddr type tag len : Nat) (data : Bytes)
  /-- A completion sent on a PCIe port: tag, status (1 is Unsupported Request), data. -/
  | pciCompletion (port tag status : Nat) (data : Bytes)
  /-- An answer of the management endpoint (R615). -/
  | mgmt (code : Nat) (words : List Nat)
  /-- An access-fault exception on a core (R471): the core's number, and whether it was a store. -/
  | coreFault (core : Nat) (store : Bool)
  /-- The release of a core at an entry address (R587). -/
  | coreRelease (core addr : Nat)
deriving DecidableEq, Repr

/-! ### Power, tick -/

/-- The module's states of R606. -/
inductive PowerMode where
  | off | starting | running | parked | draining
deriving DecidableEq, Repr

/-- Power state beside PWR_STATUS (R600, R606, R608, R609). -/
structure PowerSt where
  mode       : PowerMode := .starting
  resume     : PowerMode := .running     -- the state Draining left
  heldSource : Nat := 0                  -- source of a held removal request
  counted    : Nat := 0                  -- removal requests counted only
  leaving    : Bool := false             -- POWER_OFF accepted
  restarting : Bool := false             -- every rail off for a restart
  marginal   : Bool := false             -- input outside 48 V to 58 V, within 46 V to 60 V
deriving DecidableEq, Repr

/-- The tick timer of FD0 and the runs of R74 and R76. Times are local, in picoseconds. -/
structure TickSt where
  lastMark   : Nat := 0                  -- local time of FD0's last tick
  nextMark   : Nat := 64000000           -- local time of FD0's next tick
  offset     : Int := 0                  -- offset still to steer away
  goodRun    : Nat := 0
  badRun     : Nat := 0
  noMark     : Nat := 0                  -- periods since an accepted mark
  noMaster   : Nat := 0                  -- periods since an accepted mark of the master
  inHoldover : Nat := 0                  -- periods in HOLDOVER
  marked     : Bool := false             -- a mark was accepted in this period
  fromMaster : Bool := false             -- a mark of the master was accepted in this period
  masterMark : Option Nat := none        -- COUNT of the last mark accepted from the master (R78)
  discards   : Nat := 0                  -- marks discarded (R72)
  sending    : Bool := false             -- sends marks from its own timer without being master
  dieMarks   : List (Nat × Nat × Int) := []   -- die: count and local time, in half picoseconds, of the tick it marked (R530)
deriving DecidableEq, Repr

/-! ### Schedule -/

/-- SCH_STATUS.STATE (R118). -/
inductive SchedState where
  | idle | running | aborting | replayWait | halted
deriving DecidableEq, Repr

/-- A channel table entry (R89). -/
structure Channel where
  producer  : Nat
  consumer  : Nat
  depth     : Nat
  mirage    : Bool
  itemBytes : Nat
  mirageBuf : Nat
  buffer    : Nat
deriving DecidableEq, Repr

/-- A stream directory entry (R85). -/
structure Stream where
  unit    : Nat
  entries : Nat
  offset  : Nat
deriving DecidableEq, Repr

/-- An accepted schedule image (R83, R85, R89, R109): header figures and tables. Stream entries stay in memory. -/
structure Image where
  base     : Nat
  segments : Nat
  channels : List Channel
  streams  : List Stream
  mirage   : List (Nat × Nat)            -- address and size of each mirage buffer
deriving DecidableEq, Repr

/-- The state of an operation in flight. -/
inductive OpState where
  | started                              -- its effect is still to come
  | waiting                              -- started, and waits for a translation or for data from elsewhere
  | writing                              -- its effect stands but for writes not yet acknowledged
  | done                                 -- its effect stands
  | failed                               -- ended with an error status
  | ended                                -- ended by an abort (R104)
deriving DecidableEq, Repr

/-- An operation in flight in a stream (R91, R92, R645). -/
structure Op where
  entry   : Nat := 0                     -- number of its first stream entry
  segment : Nat := 0
  opclass : Nat
  payload : Bytes := []
  ins     : List (Nat × Nat) := []       -- input channels with the item number k
  outs    : List (Nat × Nat) := []       -- output channels with the item number k
  state   : OpState := .started
  ahead   : Bool := false                -- started as run-ahead
  tag     : Nat := 0                     -- epoch when its first read was issued
  next    : Bool := false                -- its entry belongs to the next step (R111)
  redo    : Bool := false                -- runs an entry again for a discarded item (R112)
  invalid : Bool := false                -- its item is invalid (R114, R436)
  draws   : Bool := false                -- draws from the lane generators (R211)
  tags    : List Nat := []               -- remote accesses still outstanding
  tick    : Nat := 0                     -- tick in which it started
  remote  : Nat := 0                     -- bytes read or written at other modules
  cut     : Bool := false                -- an abort has reached it (R104)
deriving DecidableEq, Repr

/-- A unit's stall on a translation fault (R439): the faulting access. -/
structure Stall where
  vaddr : Nat
  write : Bool
  asid  : Nat
  op    : Nat                            -- entry of the stalled operation
deriving DecidableEq, Repr

/-- The state of a unit that runs a stream (R91-R97, R623). -/
structure UnitSt where
  pos      : Nat := 0                    -- next stream entry to reach
  started  : Nat := 0                    -- segments started in this step
  finished : Nat := 0                    -- segments finished in this step
  ops      : List Op := []
  ahead    : List Nat := []              -- entries already started as run-ahead
  stall    : Option Stall := none
  blocked  : List FaultRec := []         -- records that wait for the unit's wadi slot (R444)
  stopped  : Bool := false               -- reached by an abort
  fenced   : Bool := false               -- its die was fenced or became fatal (R548, R549)
  redo     : List (Nat × Nat × Nat) := []   -- entries to run again: entry, item number, channel (R112)
  aheadNext : List Nat := []             -- entries of the next step already started as run-ahead
  phase    : Nat := 0                    -- phase of the step (R621)
  phaseSeg : Nat := 0                    -- first segment of the phase
  phaseTick : Nat := 0
  phaseCycle : Nat := 0
  busy     : Nat := 0                    -- cycles of the phase counted so far (R623)
  starve   : Nat := 0
  stalled  : Nat := 0
  waited   : Nat := 0
  opsDone  : Nat := 0
  slips    : Nat := 0
  remote   : Nat := 0
  opError  : Bool := false
deriving DecidableEq, Repr

/-- A mirage item written by run-ahead (R112): channel, item number, tag, validity and the producing entry. -/
structure Item where
  chan  : Nat
  k     : Nat
  tag   : Nat
  valid : Bool
  entry : Nat
deriving DecidableEq, Repr

/-- A token or credit that crosses the panel (R92), with the item of a mirage channel's token. -/
structure MeshMsg where
  chan  : Nat
  token : Bool
  item  : Option Item := none
deriving DecidableEq, Repr

/-- The verdict that ends the step (R335, R350, R646). -/
inductive Ending where
  | none | committed | skipped
deriving DecidableEq, Repr

/-- Schedule state beside the SCH registers. -/
structure SchedSt where
  st        : SchedState := .idle
  image     : Option Image := none
  newImage  : Bool := false              -- SCH_IMAGE_BASE written since the last take-up (R117)
  stopReq   : Bool := false              -- a write of 0 to RUN waits for the step end
  budget    : Nat := 2                   -- SCH_SLIP_BUDGET as read at the step start
  raDepth   : Nat := 1                   -- RA_DEPTH as read at the step start
  stepEnded : Bool := false              -- the step's end actions are complete (R644)
  first     : Bool := false              -- a step start is due that no step end precedes
  ending    : Ending := .none
  broken    : Bool := false              -- a break of this step is recorded (R103)
  abortNext : Bool := false              -- an abort after the step's end aborts the next step at its start (R351)
  halt      : Bool := false              -- the abort in force is a halt (R464)
  haltAt    : Option Nat := none         -- a received halt acts at the next tick (R464)
  replayTick : Option Nat := none        -- R106
  release   : Bool := false              -- the root owes an ABORT_RELEASE (R463)
  restored  : Bool := false              -- the next start is a restoring replay (R555)
  replaying : Bool := false              -- the running attempt is a replay
  units     : List (Nat × UnitSt) := []
  tokens    : List (Nat × Nat × Option Item) := []   -- tokens held for order: channel, item number (R645)
  carried   : List (Nat × Nat × Option Item) := []   -- tokens of the next step's run-ahead entries (R111)
  posted    : List (Nat × Nat) := []     -- channel, items posted so far in the step
  mesh      : List MeshMsg := []         -- tokens and credits crossing the panel, oldest first
  items     : List Item := []
  stepTick  : Nat := 0                   -- due tick of segment 0 of the running attempt
deriving DecidableEq, Repr

/-! ### Arrays and vector engine -/

/-- A stationary tile (R150 to R163): shape and format codes, split plane, KLEN, and the codes of its loaded rows. -/
structure Tile where
  shape  : Nat
  format : Nat
  slice  : Nat
  klen   : Nat
  rows   : List (List Nat)
deriving DecidableEq, Repr

/-- A statistics slot that is not cleared (R172, R173). -/
structure StatSlot where
  hbase : Int
  amax  : Nat := 0                       -- FP32
  count : Nat := 0
  bins  : List Nat := []                 -- 40 bins
deriving DecidableEq, Repr

/-- An array unit: tiles, accumulator columns by physical column, each with one entry per cell row (`none`: uncleared),
statistics slots that are not cleared. -/
structure ArraySt where
  shadow : Option Tile := none
  active : Option Tile := none
  acc    : List (Nat × List (Option Int)) := []
  stats  : List (Nat × StatSlot) := []
deriving DecidableEq, Repr

/-! ### Codec -/

/-- A code table of R233: its slot, its 512 bytes, and for a pending one the stream entry of the BUILD that made it. For a
cached one the slot number carries the number of the module that holds its store above bit 12. -/
structure CodeTable where
  slot  : Nat
  words : Bytes
  entry : Nat := 0
deriving DecidableEq, Repr

/-- Codec state (R239-R245). -/
structure CodecSt where
  pending : List ((Nat × Nat) × List CodeTable) := []   -- (die, coder): pending tables in stream order
  cached  : List (Nat × CodeTable) := []                -- unit: cached tables, most recent first
  late    : List (Nat × Nat) := []                      -- sectors that come after their timeout: die, number
deriving DecidableEq, Repr

/-! ### Memory -/

/-- HBM state beside the HBC registers (R262-R272). -/
structure HbmSt where
  flips   : List (Nat × Nat) := []       -- sector: disturbed code bits, as a number of 592 bits
  hostBad : List Nat := []               -- host-memory sectors that read uncorrectable (R537)
  rows    : List ((Nat × Nat) × Nat) := []   -- (stack, row number): corrected sectors, oldest entry first
  remaps  : List (Nat × Nat) := []       -- (stack, row number) remapped, oldest first
  copying : List (Nat × Nat) := []       -- remaps in progress: stack, row number
  scrub   : List (Nat × Nat) := []       -- stack: sectors read in this pass
  ceRows  : List (Nat × Nat) := []       -- rows that wrote a record in this tick window (R265)
  hot     : List Nat := []               -- stacks with doubled refresh (R613)
deriving DecidableEq, Repr

/-- One line of an Oasis cache way (R278, R279): granule, valid and dirty sectors. -/
structure OasisLine where
  slice   : Nat
  set     : Nat
  way     : Nat
  granule : Nat
  valid   : List Nat
  dirty   : List Nat
deriving DecidableEq, Repr

/-- Oasis state beside the OAS registers. -/
structure OasisSt where
  lines  : List OasisLine := []
  failed : List Nat := []                -- failed sectors of the Oasis, tile stores and mirage buffers (R280, R537)
deriving DecidableEq, Repr

/-! ### Training data flow, update, reduction -/

/-- One pending format selection (R294): tensor, FMT, EXP and HBASE as their bytes, NEEDS_WIDE, and the merged record in
true units. -/
structure FormatSel where
  tensor : Nat
  fmt    : Nat
  exp    : Nat
  hbase  : Nat
  wide   : Bool
  record : Bytes
deriving DecidableEq, Repr

/-- Format selection state (R294, R297). -/
structure FselSt where
  pending : List FormatSel := []
deriving DecidableEq, Repr

/-- Update state beside the UPD registers (R350 to R353): the tick in which a waiting COMMIT started, the mismatches
that a running verify will show, and whether a rewind runs. -/
structure UpdSt where
  commitTick : Option Nat := none
  verifying  : Option Nat := none
  rewinding  : Bool := false
deriving DecidableEq, Repr

/-- A value that a node of a reduction has received: element, level, position it came from, value, and on the check
route the magnitude (R369, R370, R375). -/
structure RedPart where
  elem  : Nat
  level : Nat
  src   : Nat
  val   : Nat
  mag   : Nat := 0
deriving DecidableEq, Repr

/-- A tag open on an RDX engine: the fields of its entry (R356), this module's rank, and its work so far (R359 to R380). -/
structure OpenTag where
  engine  : Nat                          -- the unit
  tag     : Nat
  round   : Nat
  payload : Bytes                        -- of its ROPEN or ALLR
  allr    : Bool := false
  func    : Nat := 0                     -- ALLR: 0 sum, 1 maximum
  dst     : Nat := 0                     -- ALLR: virtual address of the result
  ordered : Bool
  check   : Bool
  mirror  : Bool
  mirrorRx : Bool
  rate    : Nat
  n       : Nat
  m       : Nat
  s       : Nat
  dkind   : Nat
  dest    : Nat
  group   : Nat
  step    : Nat
  ranks   : List Nat
  me      : Nat                          -- own rank
  own     : List (Nat × Nat) := []       -- own contributions not yet used: element, value
  parts   : List RedPart := []
  checks  : List RedPart := []
  sums    : List (Nat × Nat) := []       -- primary results of sampled elements not yet compared
  verdicts : List RedPart := []          -- check results that came before their primary result
  late    : List Nat := []               -- sampled elements treated as compared at a timeout (R378)
  results : List (Nat × Nat) := []       -- results not yet delivered
  next    : Nat := 0                     -- offset of the next sector to deliver (R371)
  given   : Nat := 0                     -- contributions of this module
  roles   : Nat := 0                     -- elements whose primary part is done here
  checked : Nat := 0                     -- check nodes performed here
  delivered : Nat := 0
  compared : Nat := 0
deriving DecidableEq, Repr

/-- Reduction state (R359-R382). -/
structure RdxSt where
  tags    : List OpenTag := []
  hold    : List (Nat × Bytes) := []     -- engine, held packets in order (R365)
deriving DecidableEq, Repr

/-! ### Vemen fabric and remote accesses -/

/-- A Vemen port (R391-R395, R414, R417). -/
structure VlkPort where
  txSeq     : Nat := 0                   -- next sequence number to send
  txAck     : Nat := 4095                -- last sequence number acknowledged
  rxSeq     : Nat := 0                   -- next sequence number expected
  retry     : List Bytes := []           -- flits sent and not acknowledged, oldest first
  replays   : Nat := 0                   -- replays of the same sequence number
  replayed  : Nat := 4096                -- that number
  credits   : List (Nat × Nat) := []     -- (tc * 8 + vc): credits held by the sender
  queue     : List Bytes := []           -- flits that wait for a credit, without SEQ, ACK and CRC
  turn      : Nat := 2                   -- class of the round robin's turn (R397)
  left      : Nat := 0                   -- flits left of its quantum
  guard     : Nat := 0                   -- flits sent while a TC3 flit waits
  rx        : List Bytes := []           -- flits in the input buffer
  nakSent   : Bool := false
  ueWindow  : Nat := 0                   -- uncorrectable codewords in this tick window
  partner   : Option (Nat × Nat × Nat) := none   -- erg, module, port reported at training
  held      : Bool := false              -- trains again with sequence state kept (R394)
  session   : Nat := 0                   -- own session number (R417)
  peerSession : Nat := 0
  batch     : List Bytes := []           -- encrypted flits of the open batch sent
  batches   : Nat := 0
  rxBatch   : List Bytes := []           -- flits of the batch not yet verified
  rxBatches : Nat := 0
deriving DecidableEq, Repr

/-- Fabric state beside the VLK and VRT registers. -/
structure VrtSt where
  ports  : List ((Nat × Nat) × VlkPort) := []
  left   : Bool := false                 -- LEAVE has been written since the last JOIN (R421)
  tc0    : List (Nat × Packet) := []     -- TC0 packets that wait: fabric die, packet (R400)
  heads  : List (Nat × Nat × Nat × Nat) := []   -- die, input, class, originator seen in this window (R399)
  inject  : List (Nat × Packet) := []    -- packets waiting at a fabric die's local input
deriving DecidableEq, Repr

/-- A remote access in flight (R412, R640). -/
structure Remote where
  fd    : Nat                            -- source fabric die
  tag   : Nat
  unit  : Nat                            -- requester
  addr  : Nat                            -- fabric physical address
  len   : Nat
  write : Bool
deriving DecidableEq, Repr

/-- Remote accesses: outstanding at a source fabric die, answers crossing the panel, data that has come. -/
structure RemoteSt where
  pending  : List Remote := []
  answers  : List (Remote × Nat × Bytes) := []
  arrived  : List ((Nat × Nat × Nat) × Bytes) := []   -- (unit, address, length): data
  failed   : List (Nat × Nat × Nat) := []             -- (unit, address, length): ended with an error status
  issued   : List ((Nat × Nat × Nat) × Nat) := []     -- (unit, virtual address, length): translated and under way (R438)
  nextTag  : Nat := 0
deriving DecidableEq, Repr

/-! ### Translation and faults -/

/-- A translation entry (R426, R428). Entries stand most recently used first. -/
structure XltEntry where
  die   : Nat
  asid  : Nat
  page  : Nat                            -- virtual address >> size
  size  : Nat                            -- 16, 21 or 30
  frame : Nat                            -- fabric physical address of the page
  r     : Bool
  w     : Bool
deriving DecidableEq, Repr

/-- An access that waits on a miss slot. -/
structure Waiter where
  unit  : Nat
  vaddr : Nat
  write : Bool
  op    : Nat                            -- entry of its operation
deriving DecidableEq, Repr

/-- A miss slot (R431-R434). -/
structure MissSlot where
  die     : Nat
  slot    : Nat
  granule : Nat
  asid    : Nat
  unit    : Nat
  vaddr   : Nat
  write   : Bool
  ahead   : Bool
  written : Bool := false                -- its record is in the miss queue
  stale   : Bool := false                -- covered by a later invalidation (R437)
  waiters : List Waiter := []
deriving DecidableEq, Repr

/-- Translation state beside the XLT registers. -/
structure XltSt where
  entries : List XltEntry := []
  slots   : List MissSlot := []
  inval   : List (Nat × List Nat) := []  -- removals under way: die, the accesses already translated (R438)
deriving DecidableEq, Repr

/-- An entry of the coalescing table (R545). -/
structure Coalesce where
  record  : FaultRec
  dieWide : Bool
deriving DecidableEq, Repr

/-- Fault collection beside the FLT registers (R443-R448, R544-R550). -/
structure FltSt where
  wadi     : List Nat := []              -- occupied slots
  coalesce : List Coalesce := []
  quiet    : Nat := 0                    -- quiet windows so far
  fatal    : List Nat := []              -- dies newly fatal whose halt is still to be sent (R550)
deriving DecidableEq, Repr

/-! ### Synchronisation, coherence, interrupts, queues -/

/-- A waiter of a synchronisation object (R450, R454-R458). -/
structure SynWaiter where
  unit    : Nat
  kind    : Nat                          -- 0 WAIT GE, 1 WAIT EQ, 2 BAR
  consume : Bool
  target  : Nat
  op      : Nat                          -- stream entry of its operation
  tick    : Nat                          -- tick count when it registered
  timeout : Nat
deriving DecidableEq, Repr

/-- Synchronisation state beside the SYN registers. -/
structure SynSt where
  waiters  : List ((Nat × Nat) × List SynWaiter) := []   -- (die, object): waiters in order of registration
  timedOut : List (Nat × Nat × Nat) := []                -- (die, object, unit): BARs that timed out in this round
  hold     : List (Nat × Bytes) := []                    -- die, held packets in order (R461)
deriving DecidableEq, Repr

/-- Line state in an L2 (R476); no entry is I. -/
inductive LineState where
  | m | e | s
deriving DecidableEq, Repr

/-- A line in a core's L2. -/
structure L2Line where
  core  : Nat
  line  : Nat
  state : LineState
  data  : Bytes
deriving DecidableEq, Repr

/-- The seven requests of R476. -/
inductive CohReq where
  | readShared | readUnique | upgrade | writeBack | clean | flush | invalidate
deriving DecidableEq, Repr

/-- A message of R481 in flight. A snoop with no request is a back-invalidation (R475). -/
inductive CohMsg where
  | snp (die line : Nat) (req : Option CohReq)
  | fwd (line : Nat) (write : Bool) (data : Bytes)
  | rsp (core line : Nat) (code : Nat)   -- 0 GO, 1 GO_WB, 2 WB_CANCEL
  | dat (core line : Nat) (grant : LineState) (data : Bytes)
  | datHome (core line : Nat) (data : Bytes)
  | ack (core line : Nat)
deriving DecidableEq, Repr

/-- A presence filter entry (R474): line, dies, owner. Entries of a home stand least recently used first. -/
structure FilterEntry where
  line  : Nat
  dies  : List Nat := []
  owner : Option Nat := none
deriving DecidableEq, Repr

/-- The transaction that blocks a line at its home (R477); one with no request is a back-invalidation (R475). -/
structure CohTxn where
  core   : Nat
  line   : Nat
  req    : Option CohReq
  snoops : List Nat := []                -- dies still to answer
  supplied : Bool := false               -- an owner has sent the data
  others : Bool := false                 -- a snoop has found a copy that stays
  dirty  : Option Bytes := none          -- data of a modified copy that a snoop has found
  victim : Option Nat := none            -- L3 line that makes room for a WriteBack (R482)
deriving DecidableEq, Repr

/-- Coherence state beside the HCX registers. -/
structure CohSt where
  l2      : List L2Line := []
  l3      : List (Nat × Bytes × Bool) := []   -- line, data, dirty
  filter  : List FilterEntry := []
  txns    : List CohTxn := []
  waiting : List CohTxn := []                 -- requests for blocked lines, in order of arrival
  sent    : List (Nat × Nat × Bytes) := []    -- WriteBacks sent: core, line, data
  msgs    : List CohMsg := []
deriving DecidableEq, Repr

/-- The fetch sequence of one entry (R499). -/
structure Fetch where
  q        : Nat
  c        : Nat                         -- counter of the entry
  issued   : Nat := 1                    -- fetches issued, 1 to 9
  returned : List Nat := []              -- fetches that returned invalid
  valid    : List (Nat × Bytes) := []    -- fetches that returned valid before an earlier one returned
deriving DecidableEq, Repr

/-- A fetched command (R501-R505). -/
structure Cmd where
  q       : Nat
  c       : Nat
  entry   : Bytes
  engine  : Nat := 0                     -- unit that serves it, once it has started
  started : Bool := false
  status  : Option Nat := none           -- ended with this STATUS
  stall   : Option Stall := none
  tags    : List Nat := []               -- writes not yet acknowledged
  wrote   : List Nat := []               -- last sector written at each holder, by fabric physical address (R502)
  flagPa  : Nat := 0                     -- fabric physical address of its flag
  posted  : Bool := false                -- its record is written
deriving DecidableEq, Repr

/-- Queue state beside the QCX registers. -/
structure QcxSt where
  cached  : List (Nat × Bytes) := []     -- queue, context, least recently used first
  waiting : List (Nat × Nat × Nat) := [] -- doorbells that wait for their context: queue, kind, value
  fetches : List Fetch := []
  cmds    : List Cmd := []
  qctl    : List (Nat × Nat) := []       -- die, queue: DISABLE in progress
  turn    : List (Nat × Nat) := []       -- (die * 2 + PRIO): queue served last
deriving DecidableEq, Repr

/-- An outbound PCIe request that a completion will answer (R508). `unit` is the module's unit whose operation or command
reads or writes; for any other requester it is absent. -/
structure PciOut where
  port  : Nat
  tag   : Nat
  unit  : Option Nat
  org   : Nat
  addr  : Nat
  len   : Nat
  write : Bool
deriving DecidableEq, Repr

/-- PCIe state beside the PCI registers. -/
structure PciSt where
  outstanding : List PciOut := []
deriving DecidableEq, Repr

/-! ### BDI, security, ledger -/

/-- A BDI link end (R519-R525). -/
structure BdiLink where
  txSeq    : Nat := 0
  txAck    : Nat := 1023
  rxSeq    : Nat := 0
  replayBuf : List Bytes := []           -- flits sent and not acknowledged, oldest first
  replays  : Nat := 0
  replayed : Nat := 1024
  nakSent  : Bool := false
  crcWindow : Nat := 0                   -- CRC failures in this tick window
  credits  : List (Nat × Nat) := []      -- (channel * 8 + sub class): credits held
  queue    : List Bytes := []            -- flits that wait to be sent, without SEQ, ACK and CRC
  turn     : Nat := 2                    -- channel of MEM and INT served last (R526)
  dbgWait  : Nat := 0                    -- flits sent while a DBG flit waits
  rx       : List Bytes := []            -- flits of messages being received
  delay    : Nat := 0                    -- half the measured round trip, in picoseconds
  held     : Bool := false               -- retrains with its state kept (R523)
  lastSeq  : Nat := 1023                 -- the peer's last accepted flit, reported at training
  peer     : Bytes := []                 -- the descriptor the link last came UP with
  seen     : Bytes := []                 -- the descriptor the peer last sent (BDI_CAPS_PEER)
deriving DecidableEq, Repr

/-- BDI state beside the BDI registers. -/
structure BdiSt where
  links : List ((Nat × Nat) × BdiLink) := []
  caps  : List (Nat × Bytes) := []       -- descriptor of a die that is not its class's standard one
deriving DecidableEq, Repr

/-- What the selected configuration image fixes beside registers (R585, R587). -/
structure ImageFacts where
  digest    : Bytes := []
  dbgRemote : Bool := false
  mgmtFuse  : Bool := false
  spareRows : List Nat := []
  keys      : List Bytes := []
  boot      : Bytes := []
  repair    : List Nat := []
deriving DecidableEq, Repr

/-- Security state beside the SEC registers (R582-R597). -/
structure SecSt where
  revoke  : List Nat := []               -- key slots revoked
  epoch   : Nat := 0                     -- fused epoch
  retire  : List Nat := []               -- sites retired
  flash   : Bytes × Bytes := ([], [])    -- the two flash devices from byte 0; the rest erased
  image   : ImageFacts := {}
  fuse    : Option (Nat × Nat) := none   -- running fuse command: CMD, ARG
  attest  : Option (Nat × Bool) := none  -- running report: buffer, asked by management
  waiting : List Nat := []               -- management reports that wait: buffers (R595)
  flashing : Option Nat := none          -- running flash program: buffer
  siteOf  : List Nat := []               -- site of each logical die (R27)
deriving DecidableEq, Repr

/-- Ledger state beside the LDG registers (R625, R626). -/
structure LdgSt where
  kinds   : List LedgerKind := []        -- kind of each unread record, oldest first
  phases  : List (Nat × Nat) := []       -- phases as read at the step start: number, FIRST
  inputs  : List Bytes := []             -- input descriptors as read at the step start
deriving DecidableEq, Repr

/-- The state of the module. -/
structure State where
  pending : List Instr := []
  fresh   : Nat := 0
  out     : List Out := []
  regs    : List (Loc × Word) := []
  mem     : List Host.Cell := []
  power   : PowerSt := {}
  tick    : TickSt := {}
  sched   : SchedSt := {}
  arrays  : List (Nat × ArraySt) := []
  codec   : CodecSt := {}
  hbm     : HbmSt := {}
  oasis   : OasisSt := {}
  fsel    : FselSt := {}
  upd     : UpdSt := {}
  rdx     : RdxSt := {}
  vrt     : VrtSt := {}
  rem     : RemoteSt := {}
  xlt     : XltSt := {}
  flt     : FltSt := {}
  syn     : SynSt := {}
  coh     : CohSt := {}
  imsic   : List (Nat × Nat) := []       -- pending interrupt identities: hart, identity
  qcx     : QcxSt := {}
  pci     : PciSt := {}
  bdi     : BdiSt := {}
  sec     : SecSt := {}
  ldg     : LdgSt := {}
deriving DecidableEq, Repr

/-- The module at its entry into Starting: registers at their Reset values, memory zero, nothing in flight, no command
waiting (R588, R606; log entries 2, 3, 4). -/
def State.reset : State := {}

end Sys2Proof.Machine
end

