-- ==== Sys2Proof/Machine/Ops.lean ====
section
/-! DEFINITION. The named operations over the state: registers and their fields, memory bytes, free values, what
leaves the module, and the die numbers and unit identifiers of R11 and R35. -/

namespace Sys2Proof.Machine

/-! ### Registers -/

/-- The word a register table's Reset column gives. -/
def resetBits : List FieldDef → Nat
  | [] => 0
  | f :: fs => (f.reset % 2 ^ f.len) <<< f.lo + resetBits fs

/-- Default configuration of port instance `i` of fabric die `d` (R384): ENABLE in bit 15, ROLE in bits 12-11 (0 torus,
1 global, 2 mirror, 3 unused), DIM in bits 10-9 (0 x, 1 y, 2 z, 3 none). -/
def portCfgReset (d i : Nat) : Nat :=
  let enable := 1 <<< 15
  if i < 2 then (if d = 75 then enable + 2 <<< 11 + 3 <<< 9 else enable + (d - 72) <<< 9)
  else enable + 1 <<< 11 + 3 <<< 9

/-- Default division of a port's buffer (R395), for the entry of traffic class `tc` and virtual channel `vc`. -/
def creditReset (tc vc : Nat) : Nat :=
  if vc < 5 then (match tc with | 0 => 16 | 1 => 128 | 2 => 64 | _ => 16)
  else if vc = 5 ∧ tc = 2 then 928 else 0

/-- The value a register holds at its die's entry into Starting: the Reset column, the tables of R384 and R395 for
their two registers, and the constants of manufacture (log entry 2). -/
def Reg.resetWord (r : Reg) (die idx : Nat) : Word :=
  match r with
  | .VLK_PORT_CFG => BitVec.ofNat 64 (portCfgReset die idx)
  | .VLK_CREDIT => BitVec.ofNat 64 (creditReset (idx % 32 / 8) (idx % 8))
  | .SEC_SERIAL => Config.serial
  | .SEC_CERT => Config.certificate idx
  | r => BitVec.ofNat 64 (resetBits r.info.fields)

/-- The word stored at a place. -/
def findWord (l : Loc) : List (Loc × Word) → Option Word
  | [] => none
  | (k, v) :: rest => if k = l then some v else findWord l rest

/-- The register words with the place `l` set to `v`. -/
def storeWord (l : Loc) (v : Word) : List (Loc × Word) → List (Loc × Word)
  | [] => [(l, v)]
  | (k, w) :: rest => if k = l then (l, v) :: rest else (k, w) :: storeWord l v rest

/-- The place of a register entry: a module-wide register has one place, in its home window (R116, R118). -/
def Reg.place (r : Reg) (die idx : Nat) : Loc := ⟨r, r.info.home.getD die, idx⟩

/-- The 64 bits a register holds. -/
def State.word (s : State) (r : Reg) (die : Nat := 0) (idx : Nat := 0) : Word :=
  (findWord (r.place die idx) s.regs).getD (r.resetWord (r.place die idx).die idx)

/-- The state with a register's 64 bits set. -/
def State.setWord (s : State) (r : Reg) (v : Word) (die : Nat := 0) (idx : Nat := 0) : State :=
  { s with regs := storeWord (r.place die idx) v s.regs }

/-- The value of a field. -/
def State.get (s : State) (f : Fld) (die : Nat := 0) (idx : Nat := 0) : Nat :=
  bits (s.word f.reg die idx).toNat f.lo f.len

/-- The state with a field set (the value is cut to the field's width). -/
def State.put (s : State) (f : Fld) (v : Nat) (die : Nat := 0) (idx : Nat := 0) : State :=
  s.setWord f.reg (BitVec.ofNat 64 (putBits (s.word f.reg die idx).toNat f.lo f.len v)) die idx

/-- Whether a one-bit field is 1. -/
def State.on (s : State) (f : Fld) (die : Nat := 0) (idx : Nat := 0) : Bool := s.get f die idx != 0

/-- Set a one-bit field: an event, a flag. -/
def State.flag (s : State) (f : Fld) (die : Nat := 0) (idx : Nat := 0) : State := s.put f 1 die idx

/-- Add to a counter field, which saturates at its largest value. -/
def State.bump (s : State) (f : Fld) (n : Nat) (die : Nat := 0) (idx : Nat := 0) : State :=
  s.put f (min (s.get f die idx + n) (2 ^ f.len - 1)) die idx

/-- Add to a counter field, modulo its width. -/
def State.addWrap (s : State) (f : Fld) (n : Nat) (die : Nat := 0) (idx : Nat := 0) : State :=
  s.put f (s.get f die idx + n) die idx

/-! ### Memory -/

/-- What a byte that is not listed reads as (log entry 3; R587: HBM and host memory are zeroed at start). -/
def unlisted : Byte := 0

/-- The byte at an address of a cell list in ascending order. -/
def cellAt (a : Nat) : List Host.Cell → Byte
  | [] => unlisted
  | (k, v) :: rest => if k = a then v else if a < k then unlisted else cellAt a rest

/-- A cell list with the byte at `a` set, in ascending order and with no cell equal to the unlisted value. -/
def setCell (a : Nat) (v : Byte) : List Host.Cell → List Host.Cell
  | [] => if v = unlisted then [] else [(a, v)]
  | (k, w) :: rest =>
    if a < k then (if v = unlisted then (k, w) :: rest else (a, v) :: (k, w) :: rest)
    else if k = a then (if v = unlisted then rest else (a, v) :: rest)
    else (k, w) :: setCell a v rest

/-- Set consecutive bytes from `a`. -/
def setCells (a : Nat) : Bytes → List Host.Cell → List Host.Cell
  | [], m => m
  | v :: vs, m => setCells (a + 1) vs (setCell a v m)

/-- Every address of the list lies above `a`. -/
def Memory.above (a : Nat) : List Host.Cell → Bool
  | [] => true
  | (k, _) :: _ => a < k

/-- The canonical form of memory: addresses rise strictly and no cell holds the unlisted value. -/
def Memory.wf : List Host.Cell → Bool
  | [] => true
  | (k, v) :: rest => decide (v ≠ unlisted) && Memory.above k rest && Memory.wf rest

/-- The byte at a local address. -/
def State.byte (s : State) (a : Nat) : Byte := cellAt a s.mem

/-- `n` bytes from a local address. -/
def State.bytes (s : State) (a n : Nat) : Bytes := (List.range n).map fun i => s.byte (a + i)

/-- The little-endian number in `n` bytes at a local address. -/
def State.load (s : State) (a n : Nat) : Nat := leN (s.bytes a n)

/-- Bytes written at a local address. -/
def State.store (s : State) (a : Nat) (bs : Bytes) : State := { s with mem := setCells a bs s.mem }

/-! ### Parts of the state -/

def State.onPower (s : State) (f : PowerSt → PowerSt) : State := { s with power := f s.power }
def State.onTick (s : State) (f : TickSt → TickSt) : State := { s with tick := f s.tick }
def State.onSched (s : State) (f : SchedSt → SchedSt) : State := { s with sched := f s.sched }
def State.onCodec (s : State) (f : CodecSt → CodecSt) : State := { s with codec := f s.codec }
def State.onHbm (s : State) (f : HbmSt → HbmSt) : State := { s with hbm := f s.hbm }
def State.onOasis (s : State) (f : OasisSt → OasisSt) : State := { s with oasis := f s.oasis }
def State.onFsel (s : State) (f : FselSt → FselSt) : State := { s with fsel := f s.fsel }
def State.onUpd (s : State) (f : UpdSt → UpdSt) : State := { s with upd := f s.upd }
def State.onRdx (s : State) (f : RdxSt → RdxSt) : State := { s with rdx := f s.rdx }
def State.onVrt (s : State) (f : VrtSt → VrtSt) : State := { s with vrt := f s.vrt }
def State.onRem (s : State) (f : RemoteSt → RemoteSt) : State := { s with rem := f s.rem }
def State.onXlt (s : State) (f : XltSt → XltSt) : State := { s with xlt := f s.xlt }
def State.onFlt (s : State) (f : FltSt → FltSt) : State := { s with flt := f s.flt }
def State.onSyn (s : State) (f : SynSt → SynSt) : State := { s with syn := f s.syn }
def State.onCoh (s : State) (f : CohSt → CohSt) : State := { s with coh := f s.coh }
def State.onQcx (s : State) (f : QcxSt → QcxSt) : State := { s with qcx := f s.qcx }
def State.onPci (s : State) (f : PciSt → PciSt) : State := { s with pci := f s.pci }
def State.onBdi (s : State) (f : BdiSt → BdiSt) : State := { s with bdi := f s.bdi }
def State.onSec (s : State) (f : SecSt → SecSt) : State := { s with sec := f s.sec }
def State.onLdg (s : State) (f : LdgSt → LdgSt) : State := { s with ldg := f s.ldg }

/-- Something leaves the module. -/
def State.emit (s : State) (o : Out) : State := { s with out := s.out ++ [o] }

/-- The next free value (log entry 1). -/
def State.free (s : State) : Nat := (Config.freeValue s.fresh).toNat

/-- The state after `n` free values were taken. -/
def State.took (s : State) (n : Nat := 1) : State := { s with fresh := s.fresh + n }

/-- The free value `i` places after the next one. -/
def State.freeAt (s : State) (i : Nat) : Nat := (Config.freeValue (s.fresh + i)).toNat

/-! ### Dies and units -/

/-- A unit identifier (R11). -/
def unitId (die typ inst : Nat) : Nat := die * 512 + typ * 16 + inst
/-- The die number of a unit identifier. -/
def unitDie (u : Nat) : Nat := u / 512 % 128
/-- The unit type of a unit identifier. -/
def unitType (u : Nat) : Nat := u / 16 % 32
/-- The instance of a unit identifier. -/
def unitInst (u : Nat) : Nat := u % 16

def isCompute (d : Nat) : Bool := d < 64
def isHost (d : Nat) : Bool := d == 64 || d == 65
def isFabric (d : Nat) : Bool := 72 ≤ d && d ≤ 75
def isMemory (d : Nat) : Bool := 80 ≤ d && d ≤ 91

/-- The die numbers of R11 that name a die in service. -/
def isDie (d : Nat) : Bool := isCompute d || isHost d || isFabric d || isMemory d

/-- The dies in service, in die number order. -/
def allDies : List Nat := List.range 64 ++ [64, 65, 72, 73, 74, 75, 80, 81, 82, 83, 84, 85, 86, 87, 88, 89, 90, 91]
/-- Compute and fabric dies, which hold SCH blocks (R57). -/
def schedDies : List Nat := List.range 64 ++ [72, 73, 74, 75]

/-- The instances of a unit type on a die class (R35), 0 for a type the table does not list. -/
def unitCount (die typ : Nat) : Nat :=
  if isCompute die then
    (match typ with
     | 0 => 4 | 1 => 1 | 2 => 1 | 3 => 1 | 4 => 2 | 5 => 2 | 6 => 2 | 7 => 1 | 8 => 1 | 9 => 1
     | 16 => 1 | 17 => 1 | 18 => 4 | _ => 0)
  else if isHost die then
    (match typ with
     | 0 => 16 | 1 => 16 | 2 => 4 | 3 => 16 | 4 => 8 | 5 => 12 | 6 => 8 | 7 => 3 | _ => 0)
  else if isFabric die then
    (match typ with
     | 0 => 16 | 1 => 16 | 2 => 2 | 3 => 2 | 4 => 6 | 5 => 1
     | 6 => if die ≤ 73 then 1 else 0 | 7 => if die = 72 then 1 else 0 | 8 => 3 | _ => 0)
  else if isMemory die then
    (match typ with | 0 => 1 | 1 => 1 | 2 => 1 | 3 => 1 | 4 => 2 | _ => 0)
  else 0

/-- Whether an identifier names a unit that R35 lists on a die in service. -/
def isUnit (u : Nat) : Bool := u < 65536 && isDie (unitDie u) && unitInst u < unitCount (unitDie u) (unitType u)

/-- Units that run a stream: the 16 units of a compute die, the RDX engines and the wire codec (R84). -/
def isStreamUnit (u : Nat) : Bool :=
  isUnit u && ((isCompute (unitDie u) && unitType u < 10) ||
    (isFabric (unitDie u) && (unitType u == 2 || unitType u == 3)))

/-- The fault-capable units of R35. -/
def isFaultCapable (u : Nat) : Bool :=
  isUnit u && ((isCompute (unitDie u) && unitType u < 10) ||
    (isHost (unitDie u) && (unitType u == 3 || unitType u == 4)) ||
    (isFabric (unitDie u) && unitType u < 4))

/-- Whether an identifier names a server core. -/
def isCore (u : Nat) : Bool := isUnit u && isHost (unitDie u) && unitType u < 3

/-- The identifier of core `n` (36 × die + core, 0 to 71). -/
def coreUnit (n : Nat) : Nat := unitId (64 + n / 36) (n % 36 / 16) (n % 36 % 16)
/-- The core number of a core's identifier. -/
def coreOf (u : Nat) : Nat := 36 * (unitDie u - 64) + 16 * unitType u + unitInst u

/-- The index of a fault-capable unit within its die (R443). -/
def unitIndex (u : Nat) : Nat :=
  let t := unitType u
  let i := unitInst u
  if isCompute (unitDie u) then
    (match t with
     | 0 => i | 1 => 4 | 2 => 5 | 3 => 6 | 4 => 7 + i | 5 => 9 + i | 6 => 11 + i | 7 => 13 | 8 => 14 | _ => 15)
  else if isHost (unitDie u) then (if t = 3 then i else 16 + i)
  else (match t with | 0 => i | 1 => 16 + i | 2 => 32 + i | _ => 34 + i)

/-- The wadi slot of a fault-capable unit (R443). -/
def wadiSlot (u : Nat) : Nat :=
  let d := unitDie u
  if isCompute d then 16 * d + unitIndex u
  else if isHost d then 1024 + 24 * (d - 64) + unitIndex u
  else 1072 + 36 * (d - 72) + unitIndex u

/-- The stream units of the module in ascending unit identifier. -/
def dieStreamUnits (d : Nat) : List Nat :=
  if isCompute d then
    [unitId d 0 0, unitId d 0 1, unitId d 0 2, unitId d 0 3, unitId d 1 0, unitId d 2 0, unitId d 3 0, unitId d 4 0,
     unitId d 4 1, unitId d 5 0, unitId d 5 1, unitId d 6 0, unitId d 6 1, unitId d 7 0, unitId d 8 0, unitId d 9 0]
  else if isFabric d then [unitId d 2 0, unitId d 2 1, unitId d 3 0, unitId d 3 1]
  else []

/-- The module's own number (R598). -/
def State.moduleNo (s : State) : Nat := s.get F.SEC_IDENTITY.MODULE
/-- The module's own erg bit. -/
def State.erg (s : State) : Nat := s.get F.SEC_IDENTITY.ERG
/-- The global originator of a unit of this module (R12). -/
def State.originator (s : State) (u : Nat) : Nat := s.erg <<< 28 + s.moduleNo <<< 16 + u
/-- The fabric physical address of a local address (R13). -/
def State.fabricAddr (s : State) (a : Nat) : Nat := s.erg <<< 59 + s.moduleNo <<< 47 + a
/-- Whether a fabric physical address is local (R42). -/
def State.isLocal (s : State) (pa : Nat) : Bool := bits pa 47 12 == s.moduleNo && bits pa 59 1 == s.erg
/-- The local part of a fabric physical address (R13). -/
def localPart (pa : Nat) : Nat := bits pa 0 47

/-- The ROUTING flag of each fabric die follows its bank in force and LEAVE (R419 to R421). -/
def State.showRouting (s : State) : State :=
  [72, 73, 74, 75].foldl (fun s d =>
    s.put F.VRT_BANK.ROUTING (b2n (bit (s.get F.VRT_BANK.VALID d) (s.get F.VRT_BANK.CURRENT d) && !s.vrt.left)) d) s

/-- Stage 11 of the start, once the tick is LOCKED and the module routes (R589). -/
def State.checkJoined (s : State) : State :=
  if s.get F.SEC_START.STAGE == 10 && s.get F.TCK_STATUS.STATE == 2 &&
      [72, 73, 74, 75].all (fun d => s.on F.VRT_BANK.ROUTING d) then
    (s.put F.SEC_START.STAGE 11).flag F.SEC_START.JOINED
  else s

/-- The tick count of a die's timer. -/
def State.now (s : State) (die : Nat) : Nat := s.get F.TCK_COUNT.COUNT die

end Sys2Proof.Machine
end

