-- ==== Sys2Proof/Machine/Panel.lean ====
section
/-! DEFINITION. The panel of R21 to R41: which edge die sits on which site, which site holds a logical die, distances,
the source fabric die of a remote access (R640), and the next link of a message. -/

namespace Sys2Proof.Machine

/-- The sites an edge die is attached to, with the link of the site (0 N, 1 E, 2 S, 3 W), in the table's order (R22). -/
def attached : Nat → List (Nat × Nat)
  | 80 => [(0, 3), (8, 3)]
  | 81 => [(0, 0), (1, 0)]
  | 82 => [(2, 0), (3, 0)]
  | 83 => [(4, 0), (5, 0)]
  | 84 => [(6, 0), (7, 0)]
  | 85 => [(7, 1), (15, 1)]
  | 86 => [(64, 3), (56, 3)]
  | 87 => [(64, 2), (65, 2)]
  | 88 => [(66, 2), (67, 2)]
  | 89 => [(68, 2), (69, 2)]
  | 90 => [(70, 2), (71, 2)]
  | 91 => [(71, 1), (63, 1)]
  | 64 => [(16, 3), (24, 3)]
  | 65 => [(40, 3), (48, 3)]
  | 72 => [(23, 1)]
  | 73 => [(31, 1)]
  | 74 => [(47, 1)]
  | 75 => [(55, 1)]
  | _ => []

/-- The k-th site of column c in ascending row order, skipping the excluded row (R27). -/
def siteInColumn (c k excl : Nat) : Nat := (if k < excl then k else k + 1) * 8 + c

/-- The site that holds a logical die: as the start found it, else with every designated spare row at 8 (R26, R27). -/
def State.siteOf (s : State) (d : Nat) : Nat := (s.sec.siteOf[d]?).getD (siteInColumn (d / 8) (d % 8) 8)

/-- The logical die on a site, if the site is in service. -/
def State.dieOn (s : State) (site : Nat) : Option Nat := (List.range 64).find? fun d => s.siteOf d == site

/-- Mesh hops between two sites (R21). -/
def siteHops (a b : Nat) : Nat :=
  ((a / 8 - b / 8) + (b / 8 - a / 8)) + ((a % 8 - b % 8) + (b % 8 - a % 8))

/-- The sites from which a die reaches the mesh. -/
def State.sitesOf (s : State) (d : Nat) : List Nat :=
  if isCompute d then [s.siteOf d] else (attached d).map (·.1)

/-- Of the attached sites of an edge die, the nearest to a site; the lower number on a tie (R37). -/
def nearestSite (d from_ : Nat) : Nat × Nat :=
  ((sortBy (·.1) (attached d)).foldl (fun best p =>
    match best with
    | none => some p
    | some q => if siteHops p.1 from_ < siteHops q.1 from_ then some p else some q) none).getD (0, 0)

/-- Distance of a fabric die from a die (R640). -/
def State.fdDistance (s : State) (d fd : Nat) : Nat :=
  let here := (s.sitesOf d)
  let there := ((attached fd).map (·.1)).headD 0
  minList 1000 (here.map fun a => siteHops a there)

/-- The source fabric die of a remote access of a die (R640). -/
def State.sourceFd (s : State) (d : Nat) : Nat :=
  if isFabric d then d
  else [73, 74, 75].foldl (fun best fd => if s.fdDistance d fd < s.fdDistance d best then fd else best) 72

/-- The next step of a message on the panel (R36 to R38). -/
inductive PanelHop where
  | here                                 -- the site is the last of the path on the mesh
  | link (inst : Nat)                    -- leaves by this link of the site
deriving DecidableEq, Repr

/-- From a site toward a site: along the row first, then along the column (R36). -/
def meshHop (a b : Nat) : PanelHop :=
  if a % 8 < b % 8 then .link 1
  else if b % 8 < a % 8 then .link 3
  else if a / 8 < b / 8 then .link 2
  else if b / 8 < a / 8 then .link 0
  else .here

/-- From a site toward a die (R36, R37). `none` when the message is for this site's own die. -/
def State.hopToDie (s : State) (site d : Nat) : Option Nat :=
  if isCompute d then
    (match meshHop site (s.siteOf d) with | .here => none | .link i => some i)
  else
    let (t, out) := nearestSite d site
    match meshHop site t with
    | .here => some out
    | .link i => some i

/-- The direction of a packet on the fabric-die ring: 1 forward, 2 back, by the shorter way, forward on a tie (R40). -/
def ringHop (fd to_ : Nat) : Nat :=
  let k := (to_ + 4 - fd) % 4
  if k = 3 then 2 else 1

/-- The die at the other end of a die's BDI link, with the link instance there (R22, R23): for a compute die the links of
its site. `none` for a link that leads nowhere or a site out of service. -/
def State.bdiPeer (s : State) (d inst : Nat) : Option (Nat × Nat) :=
  if isCompute d then
    let site := s.siteOf d
    match ([64, 65, 72, 73, 74, 75, 80, 81, 82, 83, 84, 85, 86, 87, 88, 89, 90, 91]).find? fun e =>
        (attached e).contains (site, inst) with
    | some e => some (e, ((attached e).findIdx? (· == (site, inst))).getD 0)
    | none =>
      let t? : Option Nat := match inst with
        | 0 => if site < 8 then none else some (site - 8)
        | 1 => if site % 8 = 7 then none else some (site + 1)
        | 2 => if 64 ≤ site then none else some (site + 8)
        | _ => if site % 8 = 0 then none else some (site - 1)
      match t? with
      | none => none
      | some t => (s.dieOn t).map fun e => (e, (inst + 2) % 4)
  else if isHost d ∧ inst = 2 then some (129 - d, 2)
  else if isFabric d ∧ inst = 1 then some (72 + (d - 72 + 1) % 4, 2)
  else if isFabric d ∧ inst = 2 then some (72 + (d - 72 + 3) % 4, 1)
  else match (attached d)[inst]? with
    | some (site, l) => (s.dieOn site).map fun e => (e, l)
    | none => none

/-- Whether a link of a site leads outward to no die (R22: CS32 west and CS39 east). -/
def State.unconnected (s : State) (d inst : Nat) : Bool :=
  isCompute d && ((s.siteOf d == 32 && inst == 3) || (s.siteOf d == 39 && inst == 1))

/-- The link instances R35 lists for a die. -/
def bdiLinks (d : Nat) : Nat := if isCompute d then 4 else if isMemory d then 2 else 3

/-- The unit identifier of a BDI link (R35). -/
def bdiUnit (d inst : Nat) : Nat :=
  if isCompute d then unitId d 18 inst
  else if isHost d then unitId d 7 inst
  else if isFabric d then unitId d 8 inst
  else unitId d 4 inst

end Sys2Proof.Machine
end

