-- ==== Sys2Proof/Machine/Place.lean ====
section
/-! DEFINITION. Where a local address lies: regions and their backed parts (R47, R48), the placement of HBM granules
(R50, R260, R261), the sector code (R262, R263), the Oasis slice and set of a granule (R277 to R279), protected and
accumulate-write regions (R281). -/

namespace Sys2Proof.Machine

/-- The local regions of R47. -/
inductive Region where
  | hbm | host | window | control | pcie | tile | reserved
deriving DecidableEq, Repr

/-- The region of a local address (R47). -/
def region (a : Nat) : Region :=
  match a >>> 40 with
  | 0 => .hbm
  | 1 => .host
  | 2 => .window
  | 3 => .control
  | 4 => .pcie
  | 5 => .pcie
  | 6 => .pcie
  | 7 => .pcie
  | 8 => .tile
  | _ => .reserved

/-- Scratchpad ways per slice in force (R277). -/
def State.scratchWays (s : State) : Nat := s.get F.OAS_SPLIT.SCRATCH_WAYS

/-- Whether storage backs a local address (R47, R53, R54). Control space and PCIe windows are decided by their own
rules. -/
def State.backed (s : State) (a : Nat) : Bool :=
  match region a with
  | .hbm => a < 0xD800000000
  | .host => a < 0x18000000000
  | .window => a - 0x20000000000 < s.scratchWays * 0xC000000
  | .tile => a < 0x80040000000
  | _ => false

/-- Whether every byte of a span is backed by storage of one region. -/
def State.backedSpan (s : State) (a n : Nat) : Bool :=
  s.backed a && s.backed (a + n - 1) && region a == region (a + n - 1)

/-- The sectors a span touches. -/
def sectorsOf (a n : Nat) : List Nat :=
  if n = 0 then [] else (List.range ((a + n - 1) / 64 - a / 64 + 1)).map (· + a / 64)

/-- The spans of at most 256 B, cut at 256 B boundaries, that a longer span is split into (R49). -/
def splitFuel : Nat → Nat → Nat → List (Nat × Nat)
  | 0, _, _ => []
  | f + 1, a, n =>
    if n = 0 then [] else
      let k := min n (256 - a % 256)
      (a, k) :: splitFuel f (a + k) (n - k)

/-- The accesses of a span (R49). -/
def split256 (a n : Nat) : List (Nat × Nat) := splitFuel (n / 256 + 2) a n

/-! ### HBM placement -/

/-- 72 GiB, the size of a stack. -/
def stackBytes : Nat := 0x1200000000

/-- The stacks of the hashed pool, ascending (R260). -/
def State.pool (s : State) : List Nat := (List.range 12).filter fun k => bit (s.get F.HBC_POOL.MEMBERS) k

/-- The stacks assigned to contiguous ranges, ascending (R50). -/
def State.ranges (s : State) : List Nat := (List.range 12).filter fun k => !bit (s.get F.HBC_POOL.MEMBERS) k

/-- A place in HBM (R261). -/
structure HbmPlace where
  stack  : Nat
  pch    : Nat
  bank   : Nat
  row    : Nat
  column : Nat
deriving DecidableEq, Repr

/-- The pseudocode of R261 for an offset over the given members. -/
def placeIn (members : List Nat) (o : Nat) : HbmPlace :=
  let p := members.length
  let g := o >>> 8
  let q := g / (64 * p)
  let c0 := g % (64 * p)
  let h := bits q 0 8 ^^^ bits q 8 8 ^^^ bits q 16 7
  let c := (c0 + h + 256 * (q % 3)) % (64 * p)
  { stack := (members[c / 64]?).getD 0, pch := c % 64, bank := bits q 2 6, row := bits q 8 15, column := bits q 0 2 }

/-- Where a local HBM address lies (R50, R261). -/
def State.hbmPlace (s : State) (a : Nat) : HbmPlace :=
  let poolSize := s.pool.length * stackBytes
  if a < poolSize then placeIn s.pool a
  else
    let k := (a - poolSize) / stackBytes
    placeIn [(s.ranges[k]?).getD 0] ((a - poolSize) % stackBytes)

/-- A row's number within its stack, laid out as an entry of HBC_REPAIR_LOG (R284). -/
def HbmPlace.rowNo (p : HbmPlace) : Nat := p.pch <<< 21 + p.bank <<< 15 + p.row

/-- The die number of the stack that holds a local HBM address. -/
def State.stackDie (s : State) (a : Nat) : Nat := 80 + (s.hbmPlace a).stack

/-- The die number of the host die whose memory holds a local address (R51). -/
def hostDieOf (a : Nat) : Nat := if a < 0x14000000000 then 64 else 65

/-- The LPDDR5X controller instance of a host memory address (R472). -/
def hostController (a : Nat) : Nat :=
  let o := a % 0x4000000000
  bits o 8 3 ^^^ bits o 17 3 ^^^ bits o 26 3

/-! ### The sector code (R262) -/

/-- Doubling in GF(2^16) with x^16 + x^12 + x^3 + x + 1. -/
def gfDouble (x : Nat) : Nat := if x ≥ 0x8000 then ((2 * x) ^^^ 0x1100B) % 0x10000 else 2 * x

/-- Product in GF(2^16), from the high bit of the second factor. -/
def gfMulAux : Nat → Nat → Nat → Nat
  | 0, _, _ => 0
  | k + 1, x, y => gfDouble (gfMulAux k x (y / 2)) ^^^ (if y % 2 = 1 then x else 0)

/-- Product in GF(2^16). -/
def gfMul (x y : Nat) : Nat := gfMulAux 16 x y

/-- A power in GF(2^16). -/
def gfPow (x : Nat) : Nat → Nat
  | 0 => 1
  | n + 1 => gfMul x (gfPow x n)

/-- Symbol `i` of an error pattern. -/
def symbolAt (e i : Nat) : Nat := bits e (16 * i) 16

/-- Syndrome j of an error pattern of 37 symbols: its value at α^j (R262). -/
def syndrome (e j : Nat) : Nat :=
  (List.range 37).foldl (fun acc k => gfMul acc (gfPow 2 j) ^^^ symbolAt e (36 - k)) 0

/-- What the syndromes of a sector show (R263). -/
inductive SectorCheck where
  | clean
  | single (pos val : Nat)               -- an error in this data or check symbol
  | misaddress
  | bad
deriving DecidableEq, Repr

/-- R263's table over the syndromes of the disturbance of a sector. -/
def checkSector (e : Nat) : SectorCheck :=
  let s0 := syndrome e 0
  let s1 := syndrome e 1
  let s2 := syndrome e 2
  let s3 := syndrome e 3
  if s0 = 0 ∧ s1 = 0 ∧ s2 = 0 ∧ s3 = 0 then .clean
  else
    match (List.range 37).find? fun i =>
        s0 != 0 && s1 == gfMul s0 (gfPow 2 i) && s2 == gfMul s1 (gfPow 2 i) && s3 == gfMul s2 (gfPow 2 i) with
    | some 36 => .misaddress
    | some i => .single i s0
    | none => .bad

/-! ### Oasis and regions -/

/-- The Oasis slice of a granule: a logical die (R278). -/
def oasisSlice (g : Nat) : Nat :=
  bits g 0 6 ^^^ bits g 6 6 ^^^ bits g 12 6 ^^^ bits g 18 6 ^^^ bits g 24 6 ^^^ bits g 30 2

/-- The set of a granule within its slice (R278). -/
def oasisSet (g : Nat) : Nat := (g >>> 6) % 12288

/-- Whether a 2 MiB unit number lies in one of the 16 regions given by their word registers (R281). -/
def State.inRegion (s : State) (valid base limit : Fld) (a : Nat) : Option Nat :=
  if region a = .hbm then
    (List.range 16).find? fun n =>
      s.on valid 80 n && s.get base 80 n ≤ a >>> 21 && a >>> 21 ≤ s.get limit 80 n
  else none

/-- The accumulate-write region that holds a local address (R281). -/
def State.awRegion (s : State) (a : Nat) : Option Nat :=
  s.inRegion F.HBC_AWREG0.VALID F.HBC_AWREG0.BASE F.HBC_AWREG1.LIMIT a

/-- The protected region that holds a local address (R281). -/
def State.protectedRegion (s : State) (a : Nat) : Option Nat :=
  s.inRegion F.HBC_PREG0.VALID F.HBC_PREG0.BASE F.HBC_PREG1.LIMIT a

/-- Whether accesses to a local address pass an Oasis cache way (R276 to R278). -/
def State.cached (s : State) (a : Nat) : Bool :=
  region a == .hbm && s.scratchWays != 16 && (s.awRegion a).isNone

/-- The slice that holds a scratchpad window address (R52). -/
def windowSlice (a : Nat) : Nat := bits (a - 0x20000000000) 8 6

/-- The holder of a local address, as a unit identifier: the HBM controller, the LPDDR5X controller or the Oasis slice
(R35); the compute die's tile store has no unit of its own and is named by its die's router. -/
def State.holder (s : State) (a : Nat) : Nat :=
  match region a with
  | .hbm => unitId (s.stackDie a) 0 0
  | .host => unitId (hostDieOf a) 6 (hostController a)
  | .window => unitId (windowSlice a) 16 0
  | .tile => unitId (bits a 24 6) 17 0
  | _ => unitId 72 5 0

end Sys2Proof.Machine
end

