-- ==== Sys2Proof/Machine/Oasis.lean ====
section
/-! DEFINITION. The cache ways of the Oasis (R277 to R280) as lines over the same bytes, and whole-sector writes, which
never fail at the holder (R267). -/

namespace Sys2Proof.Machine

/-- The line that holds a granule, if a cache way does. -/
def State.oasisLine (s : State) (g : Nat) : Option OasisLine :=
  s.oasis.lines.find? fun l => l.granule == g

/-- Change the line of a granule. -/
def State.onLine (s : State) (g : Nat) (f : OasisLine → OasisLine) : State :=
  s.onOasis fun o => { o with lines := updateFirst (fun l => l.granule == g) f o.lines }

/-- A line is used: it becomes the most recent of its set (lines stand most recently used first). -/
def State.useLine (s : State) (g : Nat) : State :=
  match s.oasisLine g with
  | none => s
  | some l => s.onOasis fun o => { o with lines := l :: removeFirst (fun x => x.granule == g) o.lines }

/-- Whether a line holds a failed sector, and so is not evicted (R280). -/
def State.lineFailed (s : State) (l : OasisLine) : Bool :=
  (List.range 4).any fun i => s.oasis.failed.contains (l.granule * 4 + i)

/-- Whole-sector writes at the HBM controller: counted, and the sectors are good again (R267). -/
def State.controllerWrites (s : State) (sectors : List Nat) : State :=
  sectors.foldl (fun s n =>
    (s.onHbm fun h => { h with flips := dropKey n h.flips }).bump F.HBC_WR_SECTORS.VALUE 1 (s.stackDie (n * 64))) s

/-- Evict a line: its dirty sectors are written as whole sectors (R279). -/
def State.evict (s : State) (l : OasisLine) : State :=
  let s := s.onOasis fun o => { o with lines := removeFirst (fun x => x.granule == l.granule) o.lines }
  (s.controllerWrites (l.dirty.map (l.granule * 4 + ·))).bump F.OAS_WRITEBACKS.VALUE l.dirty.length l.slice

/-- Make room for a granule in its set: a way that holds no line, else an eviction. The order of replacement is a tree
pseudo-LRU that the spec does not lay out for sets of fewer than 16 ways, so the victim is a free choice among the lines
that may be evicted and are not the most recently used (log entry 10). `none` when every line holds a failed sector. -/
def State.makeRoom (s : State) (g : Nat) : Option (State × Nat) :=
  let slice := oasisSlice g
  let set := oasisSet g
  let ways := 16 - s.scratchWays
  let here := s.oasis.lines.filter fun l => l.slice == slice && l.set == set
  match (List.range ways).find? fun w => !(here.any fun l => l.way == w) with
  | some w => some (s, w)
  | none =>
    let cands := here.filter fun l => !s.lineFailed l
    let cands := if cands.length ≤ 1 then cands else cands.drop 1
    match cands[s.free % cands.length]? with
    | none => none
    | some l => some ((s.took 1).evict l, l.way)

/-- A line allocated for a granule with these sectors valid and dirty. -/
def State.allocate (s : State) (g : Nat) (valid dirty : List Nat) : State :=
  match s.makeRoom g with
  | none => s.controllerWrites (dirty.map (g * 4 + ·))
  | some (s, w) => s.onOasis fun o =>
      { o with lines := ⟨oasisSlice g, oasisSet g, w, g, valid, dirty⟩ :: o.lines }

/-- A hit or a miss of a cache way is counted at its slice (R285). -/
def State.countAccess (s : State) (g : Nat) (hit : Bool) : State :=
  if hit then s.bump F.OAS_HITS.VALUE 1 (oasisSlice g) else s.bump F.OAS_MISSES.VALUE 1 (oasisSlice g)

/-- The Oasis at a write of whole sectors of one granule: no fetch, the sectors become valid and dirty (R279). -/
def State.oasisWrite (s : State) (g : Nat) (secs : List Nat) : State :=
  match s.oasisLine g with
  | some l =>
    let hit := secs.all fun i => l.valid.contains i
    ((s.countAccess g hit).useLine g).onLine g fun l =>
      { l with valid := secs.foldl (fun v i => insertNat i v) l.valid
               dirty := secs.foldl (fun v i => insertNat i v) l.dirty }
  | none => (s.countAccess g false).allocate g secs secs

/-- The sectors are good again: a whole-sector write clears every mark of failure (R267, R280, R537). -/
def State.mendSectors (s : State) (secs : List Nat) : State :=
  (s.onOasis fun o => { o with failed := o.failed.filter fun n => !secs.contains n }).onHbm fun h =>
    { h with hostBad := h.hostBad.filter fun n => !secs.contains n }

/-- One write of whole sectors within a granule at the holder of its address (R267, R279). -/
def State.writeGranule (s : State) (a : Nat) (data : Bytes) : State :=
  let secs := sectorsOf a data.length
  let s := (s.mendSectors secs).store a data
  if s.cached a then s.oasisWrite (a / 256) (secs.map (· % 4))
  else if region a = .hbm then s.controllerWrites secs
  else s

/-- Whole sectors written from a sector boundary, split at 256 B (R49). Sectors outside storage are not written. -/
def State.writeSectors (s : State) (a : Nat) (data : Bytes) : State :=
  if s.backedSpan a data.length then
    (split256 a data.length).foldl (fun s p => s.writeGranule p.1 ((data.drop (p.1 - a)).take p.2)) s
  else s

/-- Every line and every dirty sector of the Oasis is lost or clean: used when the rails go off. -/
def State.clearOasis (s : State) : State := s.onOasis fun _ => {}

end Sys2Proof.Machine
end

