-- ==== Sys2Proof/Machine/Record.lean ====
section
/-! DEFINITION. What the module writes about itself: fault records and their collector on HD0 (R441 to R446, R540 to
R548), ledger records and their collector on FD0 (R624 to R626), interrupts (R504, R528) and the TC0 packets that wait for
injection (R400). -/

namespace Sys2Proof.Machine

/-! ### TC0 packets and interrupts -/

/-- A one-flit TC0 packet to a module: its body is the 64 B of its kind (R389). SECPATH is set at injection (R419). -/
def State.tc0Packet (s : State) (dest destErg : Nat) (bcast : Bool) (body : Bytes) : Packet :=
  { tc := 0, secpath := true, dest := dest, destErg := destErg, bank := 0, bcast := bcast, src := s.moduleNo,
    srcErg := s.erg, hops := 0, payload := body }

/-- A TC0 packet joins those that wait for a fabric die's bucket (R400). -/
def State.sendTc0 (s : State) (fd : Nat) (p : Packet) : State := s.onVrt fun v => { v with tc0 := v.tc0 ++ [(fd, p)] }

/-- A TC0 packet to one module (R389). -/
def State.tc0To (s : State) (fd dest destErg : Nat) (body : Bytes) : State :=
  s.sendTc0 fd (s.tc0Packet dest destErg false body)

/-- A TC0 broadcast by the entry whose root is this module (R409). -/
def State.tc0Bcast (s : State) (fd : Nat) (body : Bytes) : State :=
  s.sendTc0 fd (s.tc0Packet s.moduleNo s.erg true body)

/-- An interrupt identity becomes pending at a core's interrupt file (R504, R510, R528). -/
def State.interruptTo (s : State) (hart id : Nat) : State :=
  if hart < 72 ∧ ¬ s.imsic.contains (hart, id) then { s with imsic := s.imsic ++ [(hart, id)] } else s

/-! ### Fault records -/

/-- The 64 bytes of a fault record (R441). -/
def FaultRec.bytes (r : FaultRec) (phase wadi : Bool) : Bytes :=
  withCrc (toLE 2 3 ++ toLE 4 r.source ++ toLE 1 r.cause ++
    toLE 1 (b2n phase + 2 * b2n r.stalled + 4 * b2n r.write + 8 * b2n wadi) ++
    toLE 8 r.vaddr ++ toLE 8 r.paddr ++ toLE 8 r.tick ++ toLE 5 r.step ++ toLE 3 r.segment ++ toLE 1 r.opclass ++
    [0] ++ toLE 2 r.asid ++ toLE 4 r.count ++ toLE 4 r.detail ++ zeros 8)

/-- A fault record read from its 64 bytes. -/
def FaultRec.ofBytes (b : Bytes) : FaultRec :=
  { source := fieldAt b 2 4 % 2 ^ 29, cause := fieldAt b 6 1, stalled := bit (fieldAt b 7 1) 1
    write := bit (fieldAt b 7 1) 2, vaddr := fieldAt b 8 8, paddr := fieldAt b 16 8, tick := fieldAt b 24 8
    step := fieldAt b 32 5, segment := fieldAt b 37 3, opclass := fieldAt b 40 1, asid := fieldAt b 42 2
    count := fieldAt b 44 4, detail := fieldAt b 48 4 }

/-- The unit named by a record's SOURCE. -/
def FaultRec.unit (r : FaultRec) : Nat := r.source % 65536

/-- The state of a stream unit. -/
def State.unit (s : State) (u : Nat) : UnitSt := (lookupKey u s.sched.units).getD {}

/-- The state with a stream unit's state set. -/
def State.setUnit (s : State) (u : Nat) (x : UnitSt) : State :=
  s.onSched fun c => { c with units := setKey u x c.units }

/-- Change a stream unit's state. -/
def State.onUnit (s : State) (u : Nat) (f : UnitSt → UnitSt) : State := s.setUnit u (f (s.unit u))

/-- The segment a unit is in: the last one it started. -/
def UnitSt.segment (x : UnitSt) : Nat := x.started - 1

/-- A record of a unit of this module with the fields every record carries (R441). -/
def State.mkRecord (s : State) (u cause : Nat) : FaultRec :=
  { source := s.originator u, cause := cause, tick := s.now (unitDie u), step := s.get F.SCH_STEP.STEP
    segment := (s.unit u).segment }

/-- Whether the fault queue is full (R442). -/
def State.fltFull (s : State) : Bool :=
  decide ((s.get F.FLT_QPTR.TAIL + 8192 - s.get F.FLT_QPTR.HEAD) % 8192 ≥ 4096)

/-- A record enters the fault queue (R442). -/
def State.queueRecord (s : State) (r : FaultRec) : State :=
  let t := s.get F.FLT_QPTR.TAIL
  let a := s.get F.FLT_QBASE.BASE <<< 17 + 64 * (t % 4096)
  (s.writeSectors a (r.bytes (!bit t 12) false)).addWrap F.FLT_QPTR.TAIL 1

/-- A record goes to a wadi slot (R444, R445): the slot is occupied and OVERFLOW is set. -/
def State.wadiRecord (s : State) (slot : Nat) (r : FaultRec) : State :=
  let a := s.get F.FLT_WADI_BASE.BASE <<< 17 + 64 * slot
  let s := (s.writeSectors a (r.bytes false true)).onFlt fun f => { f with wadi := insertNat slot f.wadi }
  (s.put F.FLT_STATUS.WADI_USED s.flt.wadi.length).flag F.FLT_STATUS.OVERFLOW

/-- The lowest free shared wadi slot (R443, R445). -/
def State.sharedSlot (s : State) : Option Nat :=
  ((List.range 64).map (· + 1216)).find? fun n => !s.flt.wadi.contains n

/-- A copy of a record of cause 6, 9, 10 or 11 goes to the collector module (R541). -/
def State.forwardRecord (s : State) (r : FaultRec) : State :=
  if s.on F.FLT_FWD.VALID ∧ (r.cause = 6 ∨ r.cause = 9 ∨ r.cause = 10 ∨ r.cause = 11) then
    s.tc0To (s.sourceFd 64) (s.get F.FLT_FWD.MODULE) (s.get F.FLT_FWD.ERG) (r.bytes false false)
  else s

/-- A record finds its place: the queue, its unit's wadi slot or a shared one, or it is counted only; a fault-capable unit
whose slot is occupied keeps it and stalls (R442 to R445). `own` is false for a forwarded copy. -/
def State.placeRecord (s : State) (r : FaultRec) (own : Bool) : State :=
  let full := s.fltFull
  let enabled := s.on F.FLT_QBASE.ENABLE
  let s := if enabled && full then s.flag F.FLT_EVENTS.QUEUE_FULL else s
  if enabled && !full && !s.on F.FLT_STATUS.OVERFLOW then s.queueRecord r
  else if own && isFaultCapable r.unit then
    (if s.flt.wadi.contains (wadiSlot r.unit) then s.onUnit r.unit fun x => { x with blocked := x.blocked ++ [r] }
     else s.wadiRecord (wadiSlot r.unit) r)
  else match s.sharedSlot with
    | some slot => s.wadiRecord slot r
    | none => (s.bump F.FLT_UNPLACED.COUNT 1 64 (r.cause % 16)).flag F.FLT_EVENTS.UNPLACED

/-- A record is written: a copy is forwarded (R541) and the record placed. -/
def State.writeRecord (s : State) (r : FaultRec) : State := (s.forwardRecord r).placeRecord r true

/-- A record joins the coalescing table (R545): its own pair's entry, else, with the table full, its die's entry. -/
def State.coalesceRecord (s : State) (r : FaultRec) : State :=
  let same (e : Coalesce) : Bool := !e.dieWide && e.record.source == r.source && e.record.cause == r.cause
  let dieSource := r.source / 512 * 512 + 0x1FF
  let sameDie (e : Coalesce) : Bool := e.dieWide && e.record.source == dieSource
  let more (e : Coalesce) : Coalesce := { e with record := { e.record with count := e.record.count + 1 } }
  if s.flt.coalesce.any same then s.onFlt fun f => { f with coalesce := updateFirst same more f.coalesce }
  else if (s.flt.coalesce.filter fun e => !e.dieWide).length < 256 then
    s.onFlt fun f => { f with coalesce := f.coalesce ++ [⟨{ r with count := 1 }, false⟩] }
  else
    let s := s.flag F.FLT_HABOOB.TABLE_FULL
    if s.flt.coalesce.any sameDie then s.onFlt fun f => { f with coalesce := updateFirst sameDie more f.coalesce }
    else s.onFlt fun f => { f with coalesce := f.coalesce ++ [⟨{ r with source := dieSource, count := 1 }, true⟩] }

/-- At a tick every entry with a count writes one COALESCED record, in ascending SOURCE, and clears (R545, R546). -/
def State.flushCoalesced (s : State) : State :=
  let es := sortBy (fun e : Coalesce => e.record.source) s.flt.coalesce
  es.foldl (fun s e => s.writeRecord { e.record with cause := 11, detail := e.record.cause % 256 })
    (s.onFlt fun f => { f with coalesce := [] })

/-- A die becomes fatal (R549): the first cause stands; its halt is owed (R550). -/
def State.makeFatal (s : State) (die cause : Nat) : State :=
  if s.on F.FLT_DIE_HEALTH.FATAL die then s
  else ((s.flag F.FLT_DIE_HEALTH.FATAL die).put F.FLT_DIE_HEALTH.CAUSE cause die).onFlt fun f =>
    { f with fatal := insertNat die f.fatal }

/-- A fence (R548): a die other than a memory stack becomes fatal. -/
def State.fence (s : State) (die : Nat) : State :=
  let s := (s.flag F.FLT_DIE_HEALTH.FENCED die).flag F.FLT_HABOOB.FENCE
  if isMemory die then s else s.makeFatal die 2

/-- A record arises on the module (R540, R544 to R548): it is counted, may begin haboob mode and fence its die, and is
coalesced or written. -/
def State.collect (s : State) (r : FaultRec) : State :=
  let die := unitDie r.unit
  let s := (s.bump F.FLT_RATE.CURRENT 1).bump F.FLT_DIE_HEALTH.WINDOW 1 die
  let s := s.put F.FLT_DIE_HEALTH.PEAK (max (s.get F.FLT_DIE_HEALTH.PEAK die) (s.get F.FLT_DIE_HEALTH.WINDOW die)) die
  let s := if !s.on F.FLT_HABOOB.ACTIVE && decide (s.get F.FLT_HABOOB.ENTER < s.get F.FLT_RATE.CURRENT) then
      (s.flag F.FLT_HABOOB.ACTIVE).flag F.FLT_HABOOB.ENTERED else s
  let s := if s.on F.FLT_HABOOB.ACTIVE && !s.on F.FLT_DIE_HEALTH.FENCED die &&
      decide (s.get F.FLT_HABOOB.DIE_LIMIT < s.get F.FLT_DIE_HEALTH.WINDOW die) then s.fence die else s
  if isMemory die && s.on F.FLT_DIE_HEALTH.FENCED die && r.cause == 7 then s
  else if s.on F.FLT_HABOOB.ACTIVE && !r.stalled then s.coalesceRecord r
  else s.writeRecord r

/-- A unit's record of a cause. -/
def State.faultOf (s : State) (u cause : Nat) (f : FaultRec → FaultRec := id) : State :=
  s.collect (f (s.mkRecord u cause))

/-! ### Ledger records -/

/-- The 64 bytes of a ledger record (R624). -/
def LedgerRec.bytes (r : LedgerRec) (phase : Bool) : Bytes :=
  let typ := match r.kind with | .phase => 0x0101 | .overrun => 0x0102 | .trace => 0x0104
  withCrc (toLE 2 typ ++ toLE 2 r.unit ++ toLE 1 r.phase ++ toLE 1 (b2n phase + 2 * b2n r.aborted + 4 * b2n r.error) ++
    toLE 1 r.replay ++ [0] ++ toLE 5 r.step ++ toLE 3 r.segment ++ toLE 8 r.startTick ++ toLE 3 r.startCycle ++
    toLE 3 r.ticks ++ toLE 3 r.endCycle ++ toLE 4 (min r.busy 0xFFFFFFFF) ++ toLE 4 (min r.starve 0xFFFFFFFF) ++
    toLE 4 (min r.stall 0xFFFFFFFF) ++ toLE 4 (min r.wait 0xFFFFFFFF) ++ toLE 4 (min r.remoteKib 0xFFFFFFFF) ++
    toLE 4 r.ops ++ toLE 2 r.slips ++ [0])

/-- A ledger record with PHASE of a ring lap at a ring slot (R625). -/
def State.ledgerSlot (s : State) (slot : Nat) (phase : Bool) (r : LedgerRec) : State :=
  s.writeSectors (s.get F.LDG_BASE.BASE <<< 22 + 64 * (slot % 65536)) (r.bytes phase)

/-- Unread records of the ring (R625). -/
def State.ledgerUnread (s : State) : Nat :=
  (s.get F.LDG_PTR.TAIL + 131072 - s.get F.LDG_PTR.HEAD) % 131072

/-- The collector on FD0 places a record, replaces the oldest unread trace record, or drops it (R625, R626). The kinds of
the unread records stand oldest first; records the driver has consumed have left the list. -/
def State.ledger (s : State) (r : LedgerRec) : State :=
  if !s.on F.LDG_CTRL.ENABLE then s
  else
    let unread := s.ledgerUnread
    let s := s.onLdg fun l => { l with kinds := l.kinds.drop (l.kinds.length - unread) }
    if unread < 65536 then
      let t := s.get F.LDG_PTR.TAIL
      ((s.ledgerSlot t (!bit t 16) r).addWrap F.LDG_PTR.TAIL 1).onLdg fun l => { l with kinds := l.kinds ++ [r.kind] }
    else if r.kind = .trace then (s.bump F.LDG_DROPPED.TRACE 1).flag F.LDG_EVENTS.TRACE_DROP
    else match s.ldg.kinds.findIdx? (· == .trace) with
      | some i =>
        let t := (s.get F.LDG_PTR.TAIL + 131072 - s.ldg.kinds.length + i) % 131072
        ((s.ledgerSlot t (!bit t 16) r).flag F.LDG_EVENTS.TRACE_REPLACED).onLdg fun l =>
          { l with kinds := l.kinds.set i r.kind }
      | none => (s.bump F.LDG_DROPPED.LEDGER 1).flag F.LDG_EVENTS.FULL

end Sys2Proof.Machine
end

