-- ==== Sys2Proof/Machine/Mem.lean ====
section
/-! DEFINITION. Reads and writes at the holders of local memory: the HBM controllers with their code, counters, row
repair and write-back (R262 to R272), the Oasis (R279, R280), host memory and tile stores (R537), and the span operations
that every engine uses (R49, R267). -/

namespace Sys2Proof.Machine

/-! ### HBM controller -/

/-- A record of a holder (R264, R265, R643): cause 6 or 7, the sector number in DETAIL. -/
def State.holderRecord (s : State) (u cause sector : Nat) (write : Bool) : State :=
  s.faultOf u cause fun r =>
    { r with paddr := s.fabricAddr (sector * 64), detail := sector % 2 ^ 32, write := write, segment := 0 }

/-- Rows remapped or being remapped in a pseudo-channel of a stack (R270, R271). -/
def State.spareRowsUsed (s : State) (stack pch : Nat) : Nat :=
  ((s.hbm.remaps ++ s.hbm.copying).filter fun r => r.1 == stack && r.2 >>> 21 == pch).length

/-- A row's count reaches the threshold: its copy to a spare row begins, or REPAIR_FULL is set (R270, R271). -/
def State.startRemap (s : State) (stack row : Nat) : State :=
  if s.spareRowsUsed stack (row >>> 21) < 32 then
    s.onHbm fun h => { h with copying := h.copying ++ [(stack, row)], rows := dropKey (stack, row) h.rows }
  else s.flag F.HBC_EVENTS.REPAIR_FULL (80 + stack)

/-- Drop the row of the stack with the lowest count, the older one on a tie, when its table of 256 rows is full
(R270). -/
def State.rowRoom (s : State) (stack : Nat) : State :=
  let here := s.hbm.rows.filter fun r => r.1.1 == stack
  if here.length < 256 then s
  else match here.foldl (fun (b : Option ((Nat × Nat) × Nat)) r =>
      match b with | none => some r | some q => if r.2 < q.2 then some r else some q) none with
    | none => s
    | some r => s.onHbm fun h => { h with rows := dropKey r.1 h.rows }

/-- A corrected sector counts against its row (R270). -/
def State.countRow (s : State) (stack row : Nat) : State :=
  let key := (stack, row)
  let s := match lookupKey key s.hbm.rows with
    | some n => s.onHbm fun h => { h with rows := setKey key (n + 1) h.rows }
    | none => (s.rowRoom stack).onHbm fun h => { h with rows := h.rows ++ [(key, 1)] }
  let n := (lookupKey key s.hbm.rows).getD 0
  if s.on F.HBC_REPAIR_CTRL.AUTO (80 + stack) ∧ s.get F.HBC_REPAIR_CTRL.THRESHOLD (80 + stack) ≤ n ∧
      ¬ s.hbm.copying.contains key ∧ ¬ s.hbm.remaps.contains key then
    s.startRemap stack row
  else s

/-- The data of a sector after a disturbance that the code does not show (a difference of two codewords): the stored
bytes change with it, in a protected region through the cipher (R282). -/
def State.residue (s : State) (sector e : Nat) : State :=
  let s := s.onHbm fun h => { h with flips := dropKey sector h.flips }
  let d := bits e 64 512
  if d = 0 then s
  else
    let old := s.bytes (sector * 64) 64
    let mix (b : Bytes) : Bytes := toLE 64 (leN b ^^^ d)
    match s.protectedRegion (sector * 64) with
    | none => s.store (sector * 64) (mix old)
    | some r =>
      let k := s.get F.HBC_PREG0.KEY 80 r
      s.store (sector * 64) (Config.xtsDecrypt k sector (mix (Config.xtsEncrypt k sector old)))

/-- A corrected sector (R263, R265, R270): written back, counted, recorded once per row and tick window. -/
def State.corrected (s : State) (sector : Nat) (rest : Nat) : State :=
  let die := s.stackDie (sector * 64)
  let row := (s.hbmPlace (sector * 64)).rowNo
  let s := ((s.residue sector rest).bump F.HBC_COUNTS.CE 1 die).flag F.HBC_EVENTS.CE die
  let s := if s.hbm.ceRows.contains (die, row) then s
    else (s.onHbm fun h => { h with ceRows := h.ceRows ++ [(die, row)] }).holderRecord (unitId die 0 0) 7 sector false
  s.countRow (die - 80) row

/-- An uncorrectable sector (R263, R264): counted, recorded, left unchanged. -/
def State.uncorrectable (s : State) (sector : Nat) (misaddress write : Bool) : State :=
  let die := s.stackDie (sector * 64)
  let s := ((s.bump F.HBC_COUNTS.UE 1 die).flag F.HBC_EVENTS.UE die).flag F.HBC_UE_ADDR.VALID die
  let s := s.put F.HBC_UE_ADDR.SECTOR sector die
  let s := if misaddress then s.flag F.HBC_EVENTS.MISADDRESS die else s
  s.holderRecord (unitId die 0 0) 6 sector write

/-- A sector at its controller meets the code (R263 to R266): the state after it and whether it is readable. -/
def State.checkHbm (s : State) (sector : Nat) (write : Bool := false) : State × Bool :=
  match lookupKey sector s.hbm.flips with
  | none => (s, true)
  | some e =>
    match checkSector e with
    | .clean => (s.residue sector e, true)
    | .single pos val => (s.corrected sector (e ^^^ (val <<< (16 * pos))), true)
    | .misaddress => (s.uncorrectable sector true write, false)
    | .bad => (s.uncorrectable sector false write, false)

/-- A read of a sector at its controller: counted (R284), and whether data was returned. -/
def State.readHbm (s : State) (sector : Nat) (write : Bool := false) : State × Bool :=
  (s.bump F.HBC_RD_SECTORS.VALUE 1 (s.stackDie (sector * 64))).checkHbm sector write

/-- Reads of several sectors in turn: the sectors that failed. -/
def State.readHbmAll (s : State) (sectors : List Nat) (write : Bool := false) : State × List Nat :=
  sectors.foldl (fun (p : State × List Nat) n =>
    let (s, ok) := p.1.readHbm n write
    (s, if ok then p.2 else p.2 ++ [n])) (s, [])

/-! ### Errors found at an access -/

/-- The error that an access finds in one stored sector (R262, R280, R537). -/
def State.disturb (s : State) (f : Flip) : State :=
  let a := f.sector * 64
  let s := if f.hbm ≠ 0 ∧ region a = .hbm then
      s.onHbm fun h =>
        { h with flips := setKey f.sector (((lookupKey f.sector h.flips).getD 0) ^^^ f.hbm.toNat) h.flips }
    else s
  let inLine : Bool := match s.oasisLine (a / 256) with
    | some l => s.cached a && l.valid.contains (f.sector % 4)
    | none => false
  let dirty : Bool := match s.oasisLine (a / 256) with | some l => l.dirty.contains (f.sector % 4) | none => false
  let slice := if region a = .window then windowSlice a else oasisSlice (a / 256)
  match region a, f.sram with
  | _, 0 => s
  | .host, 1 => s.holderRecord (s.holder a) 7 f.sector false
  | .host, _ => s.onHbm fun h => { h with hostBad := insertNat f.sector h.hostBad }
  | .tile, 1 => s
  | .tile, _ => s.onOasis fun o => { o with failed := insertNat f.sector o.failed }
  | r, n =>
    if r == .window || inLine then
      if n = 1 then (s.bump F.OAS_COUNTS.CE 1 slice).flag F.OAS_EVENTS.CE slice
      else
        let s := s.bump F.OAS_COUNTS.UE 1 slice
        if r != .window && !dirty then
          (s.flag F.OAS_EVENTS.UE_CLEAN slice).onLine (a / 256) fun l =>
            { l with valid := l.valid.filter (· != f.sector % 4) }
        else
          (s.flag F.OAS_EVENTS.UE slice).onOasis fun o => { o with failed := insertNat f.sector o.failed }
    else s

/-- The errors that an access finds in the sectors it touches. -/
def State.disturbAll (s : State) (a n : Nat) (flips : List Flip) : State :=
  (flips.filter fun f => (sectorsOf a n).contains f.sector).foldl State.disturb s

/-! ### Accesses within a granule -/

/-- Sectors of a granule that the Oasis fetches: those of the line that are not valid (R279). -/
def State.fetchLine (s : State) (g : Nat) (write : Bool) : State :=
  match s.oasisLine g with
  | some l =>
    let need := (List.range 4).filter fun i => !l.valid.contains i
    let (s, bad) := s.readHbmAll (need.map (g * 4 + ·)) write
    let got := need.filter fun i => !bad.contains (g * 4 + i)
    s.onLine g fun l => { l with valid := got.foldl (fun v i => insertNat i v) l.valid }
  | none =>
    let (s, bad) := s.readHbmAll ((List.range 4).map (g * 4 + ·)) write
    s.allocate g ((List.range 4).filter fun i => !bad.contains (g * 4 + i)) []

/-- A read of sectors of one granule through the Oasis (R279, R280): whether every sector returned data. -/
def State.readCached (s : State) (g : Nat) (secs : List Nat) (write : Bool := false) : State × Bool :=
  let validIn (s : State) : Bool := match s.oasisLine g with
    | some l => secs.all fun i => l.valid.contains i
    | none => false
  let hit := validIn s
  let s := s.countAccess g hit
  let s := if hit then s.useLine g else s.fetchLine g write
  let failed := secs.find? fun i => s.oasis.failed.contains (g * 4 + i)
  let bypass := (s.oasisLine g).isNone
  if bypass then (let (s, bad) := s.readHbmAll (secs.map (g * 4 + ·)) write; (s, bad.isEmpty))
  else match failed with
    | some i => (s.holderRecord (unitId (oasisSlice g) 16 0) 6 (g * 4 + i) write, false)
    | none => (s, validIn s)

/-- A read within one granule at the holder of a backed local address: whether it returned data. -/
def State.readGranule (s : State) (a n : Nat) (write : Bool := false) : State × Bool :=
  let secs := sectorsOf a n
  match region a with
  | .hbm =>
    if s.cached a then s.readCached (a / 256) (secs.map (· % 4)) write
    else let (s, bad) := s.readHbmAll secs write; (s, bad.isEmpty)
  | .host =>
    match secs.find? fun n => s.hbm.hostBad.contains n with
    | some n => (s.holderRecord (s.holder a) 6 n write, false)
    | none => (s, true)
  | .window =>
    match secs.find? fun n => s.oasis.failed.contains n with
    | some n => (s.holderRecord (s.holder a) 6 n write, false)
    | none => (s, true)
  | _ => (s, !(secs.any fun n => s.oasis.failed.contains n))

/-- The bytes that a masked write leaves: the new ones where the mask is true. -/
def mergeBytes : Bytes → Bytes → List Bool → Bytes
  | o :: old, d :: data, m :: mask => (if m then d else o) :: mergeBytes old data mask
  | _, _, _ => []

/-- A write of bytes of one sector under a mask: the sector is read and corrected, then merged and written; an uncorrectable
read makes it end with an error status and the sector is unchanged (R267, R279). -/
def State.writeMasked (s : State) (a : Nat) (data : Bytes) (mask : List Bool) : State × Bool :=
  let (s, ok) := s.readGranule a data.length true
  if !ok then (s, false)
  else
    let s := s.store a (mergeBytes (s.bytes a data.length) data mask)
    if s.cached a then
      (match s.oasisLine (a / 256) with
       | some _ => (s.onLine (a / 256) fun l => { l with dirty := insertNat (a / 64 % 4) l.dirty }, true)
       | none => (s.controllerWrites [a / 64], true))
    else if region a = .hbm then (s.controllerWrites [a / 64], true)
    else (s, true)

/-- A write of part of one sector (R267). -/
def State.writePart (s : State) (a : Nat) (data : Bytes) : State × Bool :=
  s.writeMasked a data (List.replicate data.length true)

/-- The pieces of a span that lie in whole sectors together and the partial sectors at its ends. -/
def writePieces (a n : Nat) : List (Nat × Nat) :=
  (split256 a n).flatMap fun p =>
    let head := if p.1 % 64 = 0 then 0 else min p.2 (64 - p.1 % 64)
    let body := (p.2 - head) / 64 * 64
    let tail := p.2 - head - body
    [(p.1, head), (p.1 + head, body), (p.1 + head + body, tail)].filter fun q => q.2 != 0

/-! ### Spans of local memory -/

/-- A read of a backed local span, split at 256 B (R49): whether every access returned data. -/
def State.readSpan (s : State) (a n : Nat) : State × Bool :=
  (split256 a n).foldl (fun (p : State × Bool) q =>
    let (s, ok) := p.1.readGranule q.1 q.2
    (s, p.2 && ok)) (s, true)

/-- A write of a backed local span, split at 256 B and at partial sectors (R49, R267): whether every access was
performed. -/
def State.writeSpan (s : State) (a : Nat) (data : Bytes) : State × Bool :=
  (writePieces a data.length).foldl (fun (p : State × Bool) q =>
    let d := (data.drop (q.1 - a)).take q.2
    if q.1 % 64 = 0 ∧ q.2 % 64 = 0 then (p.1.writeGranule q.1 d, p.2)
    else let (s, ok) := p.1.writePart q.1 d; (s, p.2 && ok)) (s, true)

end Sys2Proof.Machine
end

