-- ==== Sys2Proof/Machine/Accum.lean ====
section
/-! DEFINITION. Accumulate-write at its controller (R148, R273, R274). -/

namespace Sys2Proof.Machine

/-- One FP16 cell plus one FP32 addend (R148). -/
def addCell (cell addend : Nat) : Nat := (fp16.round .rne false false ((fp16.decode cell).add (of32 addend))).code

/-- A sector of 32 FP16 cells after the addends whose mask bit is 1. -/
def addCells (old : Bytes) (mask : Nat) (addends : List Nat) : Bytes :=
  (List.range 32).flatMap fun i =>
    let c := fieldAt old (2 * i) 2
    toLE 2 (if bit mask i then addCell c ((addends[i]?).getD 0) else c)

/-- The memory stack on which a refused accumulate-write sets AW_REGION: the one that holds the sector, else MS00 (R274). -/
def State.awRefuse (s : State) (a : Nat) : State :=
  let die := if region a = .hbm ∧ s.backed a then s.stackDie a else 80
  s.flag F.HBC_EVENTS.AW_REGION die

/-- An accumulate-write at a local address (R273, R274, R276): whether it was performed. -/
def State.accumulate (s : State) (a mask : Nat) (addends : List Nat) : State × Bool :=
  if a % 64 ≠ 0 ∨ ¬ s.backed a ∨ (s.awRegion a).isNone then (s.awRefuse a, false)
  else
    let (s, ok) := s.checkHbm (a / 64) true
    if ok then ((s.store a (addCells (s.bytes a 64) mask addends)).bump F.HBC_AW_SECTORS.VALUE 1 (s.stackDie a), true)
    else (s, false)

end Sys2Proof.Machine
end

