-- ==== Sys2Proof/Machine/Pci.lean ====
section
/-! DEFINITION. Outbound accesses through the two PCIe root ports (R59, R508). Port 0 stands on FD0, port 1 on FD1. -/

namespace Sys2Proof.Machine

/-- The fabric die of a root port. -/
def pciDie (port : Nat) : Nat := 72 + port

/-- The port that owns a local address of the PCIe windows (R59). -/
def pciPort (a : Nat) : Nat := if a < 0x60000000000 then 0 else 1

/-- The first address of a port's range (R59). -/
def pciStart (port : Nat) : Nat := if port = 0 then 0x40000000000 else 0x60000000000

/-- The open window of the lowest number that holds an access, with its TYPE and bus address (R508). -/
def State.pciWindow (s : State) (a n : Nat) : Option (Nat × Nat) :=
  let port := pciPort a
  let die := pciDie port
  let o := a - pciStart port
  let holds (w : Nat) : Bool :=
    s.on F.PCI_OUT0.VALID die w && decide (s.get F.PCI_OUT0.OFFSET die w <<< 20 ≤ o) &&
      decide (o + n ≤ (s.get F.PCI_OUT0.OFFSET die w + s.get F.PCI_OUT0.SIZE die w) <<< 20)
  match (List.range 8).find? holds with
  | none => none
  | some w =>
    some (s.get F.PCI_OUT0.TYPE die w, (s.get F.PCI_OUT1.BUS_BASE die w <<< 20) + (o - (s.get F.PCI_OUT0.OFFSET die w <<< 20)))

/-- An access to the PCIe windows goes out as a request (R59, R508): its tag, and whether a completion is to come. A memory
write is posted. `none` when the port has no link or no window is open there. -/
def State.sendPci (s : State) (unit : Option Nat) (org a : Nat) (write : Bool) (len : Nat) (data : Bytes) :
    State × Option (Nat × Bool) :=
  let port := pciPort a
  match s.pciWindow a len with
  | none => (s, none)
  | some (type, bus) =>
    if !s.on F.PCI_STATUS.LINK_UP (pciDie port) then (s, none)
    else
      let tag := s.rem.nextTag
      let s := (s.emit (.pciRequest port write bus type tag len data)).onRem fun r => { r with nextTag := tag + 1 }
      if write && type == 0 then (s, some (tag, false))
      else (s.onPci fun p => { p with outstanding := p.outstanding ++ [⟨port, tag, unit, org, a, len, write⟩] }, some (tag, true))

end Sys2Proof.Machine
end

