-- ==== Sys2Proof/Machine/Xlate.lean ====
section
/-! DEFINITION. From a virtual address to bytes: the translation cache and its misses (R425 to R431), remote accesses
(R42 to R44, R407, R640), and the accesses of an operation: everything is translated first, then read, then written. -/

namespace Sys2Proof.Machine

/-! ### Translation -/

/-- The entry that translates an address (R426, R428). -/
def State.xltFind (s : State) (die asid va : Nat) : Option XltEntry :=
  s.xlt.entries.find? fun e => e.die == die && e.asid == asid && e.page == va >>> e.size

/-- What a lookup gives (R425, R429, R431). -/
inductive Lookup where
  | hit (pa : Nat)
  | fault (cause : Nat)
  | miss
deriving DecidableEq, Repr

/-- A lookup (R425, R426, R429): cause 4 ADDRESS, cause 2 PERMISSION. -/
def State.lookupVa (s : State) (die asid va : Nat) (write : Bool) : Lookup :=
  if va ≥ 2 ^ 56 then .fault 4
  else match s.xltFind die asid va with
    | none => .miss
    | some e => if (if write then e.w else e.r) then .hit (e.frame + va % 2 ^ e.size) else .fault 2

/-- An entry is used: it becomes its die's most recent (R428). -/
def State.xltUse (s : State) (die asid va : Nat) : State :=
  match s.xltFind die asid va with
  | none => s
  | some e => s.onXlt fun x => { x with entries := e :: removeFirst (· == e) x.entries }

/-- The set of an entry (R428). -/
def XltEntry.set (e : XltEntry) : Nat := e.page % 256 ^^^ e.asid % 256

/-- Whether an entry overlaps a range of virtual addresses. -/
def XltEntry.overlaps (e : XltEntry) (lo len : Nat) : Bool :=
  decide (e.page <<< e.size < lo + len) && decide (lo < (e.page + 1) <<< e.size)

/-- Remove the least recently used entry of a set that holds 8 (R428). -/
def xltRoom (die set : Nat) (es : List XltEntry) : List XltEntry :=
  let here := es.filter fun e => e.die == die && e.set == set
  if here.length < 8 then es
  else match here.getLast? with
    | none => es
    | some v => removeFirst (· == v) es

/-- Install an entry: it replaces every overlapping entry of its ASID (R430) and the least recently used of a full set. -/
def State.xltInstall (s : State) (e : XltEntry) : State :=
  s.onXlt fun x =>
    let es := x.entries.filter fun o => !(o.die == e.die && o.asid == e.asid && o.overlaps (e.page <<< e.size) (2 ^ e.size))
    { x with entries := e :: xltRoom e.die e.set es }

/-- The lowest free miss slot of a die (R431). -/
def State.freeSlot (s : State) (die : Nat) : Option Nat :=
  (List.range 64).find? fun n => !(s.xlt.slots.any fun m => m.die == die && m.slot == n)

/-- Whether a run-ahead translation may have the granule's miss slot (R580): the slot is open already, or at least 16 of the
die's 64 slots are free. -/
def State.aheadSlot (s : State) (die asid granule : Nat) : Bool :=
  (s.xlt.slots.any fun m => m.die == die && m.asid == asid && m.granule == granule) ||
    decide (16 ≤ ((List.range 64).filter fun n => !(s.xlt.slots.any fun m => m.die == die && m.slot == n)).length)

/-- A missing access takes a miss slot or joins the one open for its granule (R431, R435). With every slot busy it waits
and no error arises. -/
def State.openMiss (s : State) (die asid : Nat) (w : Waiter) (ahead : Bool) : State :=
  let same (m : MissSlot) : Bool := m.die == die && m.asid == asid && m.granule == w.vaddr >>> 16
  if s.xlt.slots.any same then
    s.onXlt fun x =>
      { x with slots := updateFirst same (fun m =>
        if m.waiters.contains w then m else { m with waiters := m.waiters ++ [w] }) x.slots }
  else match s.freeSlot die with
    | none => s
    | some n =>
      let m : MissSlot := { die := die, slot := n, granule := w.vaddr >>> 16, asid := asid, unit := w.unit
                            vaddr := w.vaddr, write := w.write, ahead := ahead, waiters := [w] }
      (s.onXlt fun x => { x with slots := x.slots ++ [m] }).bump F.XLT_COUNTS.MISSES 1 die

/-! ### Remote accesses -/

/-- The bank in force on a fabric die (R317). -/
def State.bankOf (s : State) (fd : Nat) : Nat := s.get F.VRT_BANK.CURRENT fd

/-- Port P of R384 as fabric die and instance. -/
def portDie (p : Nat) : Nat := if p < 8 then 72 + p / 2 else 72 + (p - 8) / 4
/-- Port P of R384 as an instance on its die. -/
def portInst (p : Nat) : Nat := if p < 8 then p % 2 else 2 + (p - 8) % 4
/-- The number of a port instance (R384). -/
def portNo (fd inst : Nat) : Nat := if inst < 2 then 2 * (fd - 72) + inst else 8 + 4 * (fd - 72) + (inst - 2)

/-- Whether a port is usable (R405): UP, and its partner reports ROUTING. -/
def State.portUsable (s : State) (p : Nat) : Bool :=
  s.get F.VLK_STATUS.STATE (portDie p) (portInst p) == 3 && s.on F.VLK_STATUS.PEER_ROUTING (portDie p) (portInst p)

/-- Whether a port has the mirror role. -/
def State.portMirror (s : State) (p : Nat) : Bool := s.get F.VLK_PORT_CFG.ROLE (portDie p) (portInst p) == 2

/-- The mirror port for a destination in the other erg (R407). -/
def State.mirrorPort (s : State) (dest : Nat) : Option Nat :=
  let first := if dest % 2 = 0 then 6 else 7
  ([first, 13 - first].find? fun p => s.portMirror p && s.portUsable p)

/-- The route entry of a destination module in a bank (R403). -/
def State.route (s : State) (fd bank dest : Nat) (f : Fld) : Nat := s.get f fd (bank * 4096 + dest)

/-- Whether the source fabric die refuses an access (R43, R44, R407). -/
def State.refusesRemote (s : State) (fd pa : Nat) : Bool :=
  let dest := bits pa 47 12
  if bits pa 59 1 ≠ s.erg then !s.on F.SEC_IDENTITY.MIRROR_VALID || (s.mirrorPort dest).isNone
  else s.route fd (s.bankOf fd) dest F.VRT_ROUTE.VALID == 0

/-- The 16 B request header of a message (R527), which the model also uses at the start of a fabric packet's payload (R389;
log entry 11). -/
def requestHeader (opcode dest src tag len status addr : Nat) : Bytes :=
  toLE 1 opcode ++ toLE 1 dest ++ toLE 2 src ++ toLE 2 (tag % 4096) ++ toLE 1 len ++ toLE 1 status ++ toLE 8 addr

/-- Issue a remote access: refused with an error status, or injected at the source fabric die (R640, R42 to R44). The
opcodes are those of MEM in R528. -/
def State.sendRemote (s : State) (u pa len opcode : Nat) (data : Bytes) : State × Option Nat :=
  let fd := s.sourceFd (unitDie u)
  if s.refusesRemote fd pa then
    ((if bits pa 59 1 != s.erg && !s.on F.SEC_IDENTITY.MIRROR_VALID then s else s.flag F.VRT_EVENTS.NO_ROUTE fd), none)
  else
    let tag := s.rem.nextTag
    let p : Packet :=
      { tc := 2, secpath := true, dest := bits pa 47 12, destErg := bits pa 59 1, bank := s.bankOf fd, src := s.moduleNo
        srcErg := s.erg, payload := requestHeader opcode 0 u tag ((len + 63) / 64 - 1) 0 pa ++ data }
    ((s.onRem fun r => { r with pending := r.pending ++ [⟨fd, tag, u, pa, len, opcode != 1⟩], nextTag := tag + 1 }).onVrt
      fun v => { v with inject := v.inject ++ [(fd, p)] }, some tag)

/-! ### The accesses of an operation -/

/-- A span of an operation: virtual address, bytes, and whether it writes. -/
structure Span where
  va    : Nat
  len   : Nat
  write : Bool := false
deriving DecidableEq, Repr

/-- The accesses of a list of spans (R49). -/
def accessesOf (spans : List Span) : List Span :=
  spans.flatMap fun p => (split256 p.va p.len).map fun q => ⟨q.1, q.2, p.write⟩

/-- Whether the translations of a unit's accesses all stand: the first access that does not. A read that is translated and
under way needs no translation again (R438). -/
def State.firstTrouble (s : State) (u asid : Nat) (acc : List Span) : Option (Span × Lookup) :=
  match acc with
  | [] => none
  | a :: rest =>
    if !a.write && (lookupKey (u, a.va, a.len) s.rem.issued).isSome then s.firstTrouble u asid rest
    else match s.lookupVa (unitDie u) asid a.va a.write with
    | .hit _ => s.firstTrouble u asid rest
    | l => some (a, l)

/-- The fabric physical address of a virtual address whose translation stands. -/
def State.paOf (s : State) (die asid va : Nat) : Nat :=
  match s.xltFind die asid va with
  | none => 0
  | some e => e.frame + va % 2 ^ e.size

/-- The fabric physical address of a unit's read: that it was translated to when it was issued, or what its translation
gives now (R438). -/
def State.paFor (s : State) (u die asid va len : Nat) : Nat :=
  (lookupKey (u, va, len) s.rem.issued).getD (s.paOf die asid va)

/-- The bytes at a fabric physical address, once the access has been performed: local memory, or what came from another
module or a PCIe port. -/
def State.physicalBytes (s : State) (u pa n : Nat) : Bytes :=
  if s.isLocal pa && region (localPart pa) != .pcie then s.bytes (localPart pa) n
  else (lookupKey (u, pa, n) s.rem.arrived).getD (zeros n)

/-- The bytes of one access, once it has been performed. -/
def State.pieceBytes (s : State) (u die asid : Nat) (va n : Nat) : Bytes :=
  s.physicalBytes u (s.paFor u die asid va n) n

/-- The bytes of a span, once its accesses have been performed. -/
def State.spanBytes (s : State) (u die asid va n : Nat) : Bytes :=
  (split256 va n).flatMap fun q => s.pieceBytes u die asid q.1 q.2

/-- What the reads of an operation come to. -/
structure ReadResult where
  state   : State
  failed  : Option Nat := none           -- fabric physical address of an access that ended with an error status
  pending : List Nat := []               -- tags of remote reads still under way
  remote  : Nat := 0

/-- Whether an access of a unit is under way at another module or on a PCIe port. -/
def State.underWay (s : State) (u pa len : Nat) : Bool :=
  (s.rem.pending.any fun p => p.unit == u && p.addr == pa && p.len == len) ||
    (s.rem.answers.any fun p => p.1.unit == u && p.1.addr == pa && p.1.len == len) ||
    (s.pci.outstanding.any fun p => p.unit == some u && p.addr == localPart pa && p.len == len && s.isLocal pa)

/-- The fabric physical address a failed access of a unit is recorded with: a failed sector of a tile store shows in the
unit's own record, with the sector's address; any other failed access with its own address. -/
def State.failPoint (s : State) (pa len : Nat) : Nat :=
  let la := localPart pa
  if region la = .tile then
    match (sectorsOf la len).find? fun n => s.oasis.failed.contains n with
    | some n => pa - la + n * 64
    | none => pa
  else pa

/-- Issue a read outside local memory: to another module, or through a PCIe port (R42, R59). -/
def State.issueRead (s : State) (u pa len : Nat) : State × Option Nat :=
  if s.isLocal pa then
    match s.sendPci (some u) (s.originator u) (localPart pa) false len [] with
    | (s, none) => (s, none)
    | (s, some t) => (s, some t.1)
  else s.sendRemote u pa len 1 []

/-- Perform one read access of an engine at a fabric physical address. -/
def State.readPhysical (r : ReadResult) (u pa len : Nat) : ReadResult :=
  let s := r.state
  let la := localPart pa
  if s.isLocal pa && region la != .pcie then
    if s.backedSpan la len then
      let (s, ok) := s.readGranule la len
      { r with state := s, failed := if ok then r.failed else r.failed.or (some (s.failPoint pa len)) }
    else { r with failed := r.failed.or (some pa) }
  else if s.rem.failed.contains (u, pa, len) then
    { r with state := s.onRem fun x => { x with failed := x.failed.filter (· != (u, pa, len)) }
             failed := r.failed.or (some pa) }
  else if (lookupKey (u, pa, len) s.rem.arrived).isSome then { r with remote := r.remote + len }
  else if s.underWay u pa len then { r with pending := r.pending ++ [0] }
  else match s.issueRead u pa len with
    | (s, none) => { r with state := s, failed := r.failed.or (some pa) }
    | (s, some t) => { r with state := s, pending := r.pending ++ [t] }

/-- A read that stays under way keeps the address it was translated to (R438). -/
def State.noteIssued (s : State) (u va len pa : Nat) : State :=
  s.onRem fun x => { x with issued := setKey (u, va, len) pa x.issued }

/-- Perform one read access of an operation. -/
def State.readPiece (r : ReadResult) (u die asid : Nat) (a : Span) : ReadResult :=
  match lookupKey (u, a.va, a.len) r.state.rem.issued with
  | some pa => State.readPhysical r u pa a.len
  | none =>
    let pa := r.state.paOf die asid a.va
    let x := State.readPhysical { r with state := r.state.xltUse die asid a.va } u pa a.len
    if x.pending.length = r.pending.length then x else { x with state := x.state.noteIssued u a.va a.len pa }

/-- Perform the read accesses of an operation. -/
def State.readAll (s : State) (u die asid : Nat) (reads : List Span) : ReadResult :=
  reads.foldl (fun r a => State.readPiece r u die asid a) { state := s }

/-- The remote data that a unit holds is used up. -/
def State.dropArrived (s : State) (u : Nat) : State :=
  s.onRem fun r => { r with arrived := r.arrived.filter (fun p => p.1.1 != u), issued := r.issued.filter fun p => p.1.1 != u }

/-- The remote data of a unit's reads is used up. -/
def State.dropReads (s : State) (u die asid : Nat) (reads : List Span) : State :=
  (accessesOf reads).foldl (fun s a =>
    let pa := s.paFor u die asid a.va a.len
    s.onRem fun r => { r with arrived := r.arrived.filter (fun p => p.1 != (u, pa, a.len))
                              issued := r.issued.filter fun p => p.1 != (u, a.va, a.len) }) s

/-- Perform one write access of an engine at a fabric physical address; `pending` holds the tags of writes that are to be
acknowledged. After a failed access no further write is issued (R538). -/
def State.writePhysical (r : ReadResult) (u pa : Nat) (data : Bytes) : ReadResult :=
  match r.failed with
  | some _ => r
  | none =>
    let s := r.state
    let la := localPart pa
    if s.isLocal pa then
      if region la = .pcie then
        match s.sendPci (some u) (s.originator u) la true data.length data with
        | (s, none) => { r with state := s, failed := some pa }
        | (s, some t) => { r with state := s, pending := if t.2 then r.pending ++ [t.1] else r.pending }
      else if s.backedSpan la data.length then
        let (s, ok) := s.writeSpan la data
        { r with state := s, failed := if ok then none else some (s.failPoint pa data.length) }
      else { r with failed := some pa }
    else
      let whole := la % 64 == 0 && data.length % 64 == 0
      let mask := (2 ^ data.length - 1) <<< (la % 64)
      let body := if whole then data else toLE 8 mask ++ zeros (la % 64) ++ data ++ zeros (64 - la % 64 - data.length)
      match s.sendRemote u pa data.length (if whole then 2 else 3) body with
      | (s, none) => { r with state := s, failed := some pa }
      | (s, some t) => { r with state := s, pending := r.pending ++ [t], remote := r.remote + data.length }

/-- Perform one write access of an operation. -/
def State.writePiece (r : ReadResult) (u die asid va : Nat) (data : Bytes) : ReadResult :=
  match r.failed with
  | some _ => r
  | none =>
    let s := r.state.xltUse die asid va
    State.writePhysical { r with state := s } u (s.paOf die asid va) data

/-- The accesses of a write of bytes at a virtual address: split at 256 B, and for another module at partial sectors. -/
def State.writeData (r : ReadResult) (u die asid va : Nat) (data : Bytes) : ReadResult :=
  (writePieces va data.length).foldl (fun r q =>
    State.writePiece r u die asid q.1 ((data.drop (q.1 - va)).take q.2)) r

/-- Perform the writes of an operation, in order. -/
def State.writeAll (s : State) (u die asid : Nat) (writes : List (Nat × Bytes)) : ReadResult :=
  writes.foldl (fun r w => State.writeData r u die asid w.1 w.2) { state := s }

end Sys2Proof.Machine
end

