-- ==== Sys2Proof/Machine/Operands.lean ====
section
/-! DEFINITION. The life of an operation in a unit (R91, R92, R101, R104, R439, R538, R643): finding it, performing its
accesses in the order translate, read, compute, write, and ending it done, waiting, stalled or with an error status; and
the operand fields of a payload. -/

namespace Sys2Proof.Machine

/-! ### Operand fields of a payload -/

/-- Bytes [off + len - 1 : off] of a payload as a number (R179: payload byte 0 is byte 8 of the first stream entry). -/
def pay {w : Nat} (p : BitVec w) (off len : Nat) : Nat := bits p.toNat (8 * off) (8 * len)

/-- Bits [lo + len - 1 : lo] of payload byte `off` and those after it. -/
def payBits {w : Nat} (p : BitVec w) (off lo len : Nat) : Nat := bits p.toNat (8 * off + lo) len

/-- Whether payload bytes [off + len - 1 : off] are all 0. -/
def payZero {w : Nat} (p : BitVec w) (off len : Nat) : Bool := pay p off len == 0

/-! ### Operations in flight -/

/-- The place in a unit's list of the operation a command acts on: the first of that class and payload whose effect is
still to come. -/
def State.findOp (s : State) (u cls : Nat) (payload : Bytes) : Option Nat :=
  (s.unit u).ops.findIdx? fun o =>
    o.opclass == cls && o.payload == payload && (o.state == .started || o.state == .waiting)

/-- The operation at a place of a unit's list. -/
def State.opAt (s : State) (u k : Nat) : Op := ((s.unit u).ops[k]?).getD { opclass := 0 }

/-- Change the operation at a place of a unit's list. -/
def State.onOp (s : State) (u k : Nat) (f : Op → Op) : State := s.onUnit u fun x => { x with ops := updateAt k f x.ops }

/-- The operation a command acts on. An operation commanded outside any stream entry joins the unit's list with no
channels, so that its completion is a command like any other (log entry 6). -/
def State.takeOp (s : State) (u cls : Nat) (payload : Bytes) : State × Nat :=
  match s.findOp u cls payload with
  | some k => (s, k)
  | none =>
    let x := s.unit u
    (s.setUnit u { x with ops := x.ops ++ [{ opclass := cls, payload := payload, entry := 2 ^ 32
                                             segment := x.segment, tick := s.now (unitDie u) }] }, x.ops.length)

/-- The event and error register of a unit (R186, R223, R224, R258, R355, R383, R468). -/
structure ErrRegs where
  event   : Fld
  segment : Fld
  opclass : Fld
  cause   : Fld
  idx     : Nat := 0

/-- The error register that a unit's error statuses are recorded in; a caravan engine and the translation unit have none. -/
def errRegs (u : Nat) : Option ErrRegs :=
  if isCompute (unitDie u) then
    (match unitType u with
     | 0 => some ⟨F.MXA_EVENTS.OP_ERROR, F.MXA_ERROR.SEGMENT, F.MXA_ERROR.OPCLASS, F.MXA_ERROR.CAUSE, unitInst u⟩
     | 1 => some ⟨F.MXW_EVENTS.OP_ERROR, F.MXW_ERROR.SEGMENT, F.MXW_ERROR.OPCLASS, F.MXW_ERROR.CAUSE, 0⟩
     | 2 => some ⟨F.VSE_EVENTS.OP_ERROR, F.VSE_ERROR.SEGMENT, F.VSE_ERROR.OPCLASS, F.VSE_ERROR.CAUSE, 0⟩
     | 3 => some ⟨F.VSC_EVENTS.OP_ERROR, F.VSC_ERROR.SEGMENT, F.VSC_ERROR.OPCLASS, F.VSC_ERROR.CAUSE, 0⟩
     | 5 => some ⟨F.CDC_EVENTS.OP_ERROR, F.CDC_ERROR.SEGMENT, F.CDC_ERROR.OPCLASS, F.CDC_ERROR.CAUSE, 0⟩
     | 6 => some ⟨F.CDC_EVENTS.OP_ERROR, F.CDC_ERROR.SEGMENT, F.CDC_ERROR.OPCLASS, F.CDC_ERROR.CAUSE, 0⟩
     | 7 => some ⟨F.UPD_EVENTS.OP_ERROR, F.UPD_ERROR.SEGMENT, F.UPD_ERROR.OPCLASS, F.UPD_ERROR.CAUSE, 0⟩
     | 9 => some ⟨F.SYN_EVENTS.OP_ERROR, F.SYN_ERROR.SEGMENT, F.SYN_ERROR.OPCLASS, F.SYN_ERROR.CAUSE, 0⟩
     | _ => none)
  else if isFabric (unitDie u) then
    (match unitType u with
     | 2 => some ⟨F.RDX_EVENTS.OP_ERROR, F.RDX_ERROR.SEGMENT, F.RDX_ERROR.OPCLASS, F.RDX_ERROR.CAUSE, unitInst u⟩
     | 3 => some ⟨F.CDC_EVENTS.OP_ERROR, F.CDC_ERROR.SEGMENT, F.CDC_ERROR.OPCLASS, F.CDC_ERROR.CAUSE, 0⟩
     | _ => none)
  else none

/-- The first error status since OP_ERROR was last clear is recorded; `more` records what a block's register adds. -/
def State.recordError (s : State) (u segment opclass cause : Nat) (more : State → State) : State :=
  match errRegs u with
  | none => s
  | some e =>
    let d := unitDie u
    if s.on e.event d e.idx then s
    else
      let s := ((s.flag e.event d e.idx).put e.segment segment d e.idx).put e.opclass opclass d e.idx
      more (s.put e.cause cause d e.idx)

/-- Where an error status comes from (R643). -/
inductive ErrorKind where
  | access (pa : Nat)                    -- an access (cause 5, with its address)
  | operation                            -- anything else (cause 8)
deriving DecidableEq, Repr

/-- An operation ends with an error status (R101, R538, R643): its unit's error register and one fault record. A run-ahead
operation marks its item invalid and records nothing (R114). -/
def State.failOp (s : State) (u k cause : Nat) (kind : ErrorKind) (more : State → State := id) : State :=
  let o := s.opAt u k
  if o.ahead then s.onOp u k fun o => { o with state := .done, invalid := true }
  else
    let s := s.recordError u o.segment o.opclass cause more
    let s := (s.onOp u k fun o => { o with state := .failed }).onUnit u fun x => { x with opError := true }
    match kind with
    | .access pa => s.faultOf u 5 fun r => { r with paddr := pa, segment := o.segment, opclass := o.opclass }
    | .operation => s.faultOf u 8 fun r => { r with detail := cause, segment := o.segment, opclass := o.opclass }

/-- An operation's effect stands: done at once, or when its remote writes are acknowledged (R92, R302). -/
def State.finishOp (s : State) (u k : Nat) (tags : List Nat) (remote : Nat) : State :=
  s.onOp u k fun o =>
    { o with state := if tags.isEmpty then .done else .writing, tags := o.tags ++ tags, remote := o.remote + remote }

/-- An operation waits for something that another command brings. -/
def State.waitOp (s : State) (u k : Nat) : State := s.onOp u k fun o => { o with state := .waiting }

/-- An access of a unit faults (R439, R440): the unit stalls and writes its record with STALLED; a unit that an abort has
reached writes its record without STALLED and its operation ends; a run-ahead access only marks its item (R114, R436). -/
def State.faultAccess (s : State) (u k asid cause va : Nat) (write : Bool) : State :=
  let o := s.opAt u k
  if o.ahead then s.onOp u k fun o => { o with state := .done, invalid := true }
  else
    let s := s.bump F.XLT_COUNTS.FAULTS 1 (unitDie u)
    let stalled := !o.cut
    let s := s.faultOf u cause fun r =>
      { r with vaddr := va % 2 ^ 64, asid := asid, write := write, stalled := stalled, segment := o.segment, opclass := o.opclass }
    if stalled then
      (s.onUnit u fun x => { x with stall := some ⟨va, write, asid, o.entry⟩ }).onOp u k fun o => { o with state := .waiting }
    else s.onOp u k fun o => { o with state := .ended }

/-- What an operation computes from the bytes it has read: the writes to perform, or the cause of an error status. -/
inductive Computed where
  | writes (ws : List (Nat × Bytes))
  | error (cause : Nat)
  /-- An access of the computation itself ended with an error status. -/
  | access (cause pa : Nat)
  /-- The operation has begun and goes on waiting. -/
  | wait
  /-- The operation waits for remote data and is computed anew when it has come. -/
  | again
  /-- Part of the writes stands; then an error status: its cause, the address of an access that failed, and what the
  unit's error register adds. -/
  | stopped (ws : List (Nat × Bytes)) (cause : Nat) (pa : Option Nat) (more : State → State)

/-- The ASID of a unit that runs a stream (R427). -/
def State.asidOf (s : State) : Nat := s.get F.XLT_CTX.ASID

/-- Whether a unit can go on with an operation: it is not stalled, not held by an occupied wadi slot, its die is not fenced,
and a compute die's clocks are not stopped (R439, R444, R548, R607). -/
def State.unitFree (s : State) (u : Nat) : Bool :=
  (s.unit u).stall.isNone && (s.unit u).blocked.isEmpty && !(s.unit u).fenced &&
    !(s.power.mode == .parked && isCompute (unitDie u))

/-- What an operation does: the spans it reads and writes, the spans that must lie in the tile store of the unit's die or
in the Oasis scratchpad window (with `anyTile`, in any tile store) and the cause of the error status otherwise (R151,
R189), the cause for an access (R184, R222, R254, R382), what the unit's error register adds, what an access error leaves
(R184), whether writes to other modules are posted (R189), and the computation. -/
structure Plan where
  reads       : List Span := []
  writes      : List Span := []
  near        : List Span := []
  anyTile     : Bool := false
  nearCause   : Nat := 0
  accessCause : Nat
  also        : List Span := []          -- translated with the reads and writes; read by the computation itself
  place       : State → Option Nat := fun _ => none   -- a cause the translated addresses call for before the start
  more        : State → State := id
  onError     : State → Option Nat → State := fun s _ => s   -- with the address of a write that failed
  posted      : Bool := false
  body        : State → State × Computed

/-- Whether an access whose translation stands lies in the tile store of a die or in the backed Oasis scratchpad window
(R150, R189). -/
def State.nearPiece (s : State) (die asid : Nat) (anyTile : Bool) (a : Span) : Bool :=
  let pa := s.paOf die asid a.va
  let la := localPart pa
  s.isLocal pa && s.backedSpan la a.len &&
    (region la == .window || (region la == .tile && (anyTile || bits la 24 6 == die)))

/-- Whether an access whose translation stands lies in a mirage buffer of the schedule image, where alone run-ahead writes
(R113). -/
def State.miragePiece (s : State) (die asid : Nat) (a : Span) : Bool :=
  let pa := s.paOf die asid a.va
  let la := localPart pa
  s.isLocal pa && (match s.sched.image with
    | none => false
    | some i => i.mirage.any fun m => decide (m.1 ≤ la) && decide (la + a.len ≤ m.1 + m.2))

/-- Perform an operation's accesses and its computation: every access is translated first; then its place is checked; then
the reads are performed; then the effect is computed; then the writes are performed (R49, R431, R439, R538). -/
def State.performOp (s : State) (u k : Nat) (p : Plan) : State :=
  let die := unitDie u
  let asid := s.asidOf
  let o := s.opAt u k
  let acc := accessesOf (p.reads ++ p.also ++ p.writes.map fun w => { w with write := true })
  match s.firstTrouble u asid acc with
  | some (a, .fault c) => s.faultAccess u k asid c a.va a.write
  | some (a, _) =>
    if o.ahead then s.onOp u k fun o => { o with state := .done, invalid := true }
    else (s.openMiss die asid ⟨u, a.va, a.write, o.entry⟩ false).waitOp u k
  | none =>
    if !((accessesOf p.near).all fun a => s.nearPiece die asid p.anyTile a) then
      s.failOp u k p.nearCause .operation p.more
    else if o.ahead && !((accessesOf p.writes).all fun a => s.miragePiece die asid a) then
      s.onOp u k fun o => { o with state := .done, invalid := true }
    else match p.place s with
    | some c => s.failOp u k c .operation p.more
    | none =>
      let s := if o.state == .started then s.onOp u k fun o => { o with tag := s.get F.SCH_EPOCH.VALUE die } else s
      let r := s.readAll u die asid (accessesOf p.reads)
      let used (s : State) : State := s.dropReads u die asid (p.reads ++ p.also)
      match r.failed with
      | some pa => p.onError ((used r.state).failOp u k p.accessCause (.access pa) p.more) none
      | none =>
        if !r.pending.isEmpty then r.state.waitOp u k
        else
          match p.body r.state with
          | (s, .error c) => (used s).failOp u k c .operation p.more
          | (s, .access c pa) => (used s).failOp u k c (.access pa) p.more
          | (s, .wait) => s.waitOp u k
          | (s, .again) => s.waitOp u k
          | (s, .stopped ws c pa more) =>
            (used (s.writeAll u die asid ws).state).failOp u k c
              (match pa with | some a => .access a | none => .operation) more
          | (s, .writes ws) =>
            let w := s.writeAll u die asid ws
            match w.failed with
            | some pa => p.onError ((used w.state).failOp u k p.accessCause (.access pa) p.more) (some pa)
            | none => (used w.state).finishOp u k (if p.posted then [] else w.pending) (r.remote + w.remote)

/-- Whether no operation of these classes that started before the one at a place is still to be performed. -/
def State.earlierDone (s : State) (u k : Nat) (classes : List Nat) : Bool :=
  ((s.unit u).ops.take k).all fun o => !(classes.contains o.opclass && (o.state == .started || o.state == .waiting))

/-- Whether another drawing unit of the die, the VSE, the VSC or the UPD, has a drawing operation in flight (R211, R331). -/
def State.otherDraws (s : State) (u : Nat) : Bool :=
  [2, 3, 7].any fun t =>
    let other := unitId (unitDie u) t 0
    other != u && (s.unit other).ops.any fun o => o.draws

/-- The event of a unit that waits for another's drawing operation. -/
def contendEvent (u : Nat) : Fld :=
  match unitType u with
  | 2 => F.VSE_EVENTS.GEN_CONTEND
  | 3 => F.VSC_EVENTS.GEN_CONTEND
  | _ => F.UPD_EVENTS.GEN_CONTEND

/-- A drawing operation waits for that of another unit (R211); else it is performed and marked. -/
def State.drawing (s : State) (u cls : Nat) (payload : Bytes) (draws : Bool) (run : State → State) : State :=
  if !draws then run s
  else if s.otherDraws u then s.flag (contendEvent u) (unitDie u)
  else
    (run s).onUnit u fun x =>
      { x with ops := x.ops.map fun o =>
          if o.opclass == cls && o.payload == payload && (o.state == .done || o.state == .writing) then { o with draws := true }
          else o }

/-- What an operation of a unit is: its unit, OPCLASS and payload; `check` gives the cause of an error status that the
payload or the unit's state calls for before anything is read (R179, R184); `order` says whether the earlier operations that
it follows have been performed (R157, R158), `ready` whether what it waits for in its unit stands (R160, R360), and `plan`
what it then does; `more` records what its block's error register adds; `draws` says whether it draws random values (R211). -/
structure Task where
  unit    : Nat
  cls     : Nat
  payload : Bytes
  check   : State → Option Nat
  more    : State → State := id
  ready   : State → Bool := fun _ => true
  order   : State → Nat → Bool := fun _ _ => true
  plan    : State → Plan
  draws   : State → Bool := fun _ => false

/-- An operation of a unit: taken from its list, checked, and performed. -/
def State.runTask (s : State) (t : Task) : State :=
  if !s.unitFree t.unit then s
  else
    let (s, k) := s.takeOp t.unit t.cls t.payload
    if !t.order s k then s
    else match t.check s with
    | some c => s.failOp t.unit k c .operation t.more
    | none => if t.ready s then s.performOp t.unit k (t.plan s) else s

/-- An operation of a unit; a drawing one waits for that of another unit (R211). -/
def State.runOp (s : State) (t : Task) : State := s.drawing t.unit t.cls t.payload (t.draws s) fun s => s.runTask t

end Sys2Proof.Machine
end

