-- ==== Sys2Proof/Machine/Break.lean ====
section
/-! DEFINITION. Schedule breaks, aborts and halts (R101 to R105, R110, R462 to R465, R549, R550) and the packets that carry
them (R460), with what an abort does in every unit. -/

namespace Sys2Proof.Machine

/-! ### Synchronisation packets (R460) -/

/-- The fields of a 64 B synchronisation packet. -/
structure SynPacket where
  type    : Nat
  source  : Nat
  step    : Nat := 0
  replay  : Nat := 0
  halt    : Bool := false
  mode    : Bool := false
  index   : Nat := 0
  die     : Nat := 0
  gen     : Nat := 0
  value   : Nat := 0
  tick    : Nat := 0
  segment : Nat := 0
  cause   : Nat := 0
  unit    : Nat := 0
deriving DecidableEq, Repr

/-- The bytes of a synchronisation packet. -/
def SynPacket.bytes (p : SynPacket) : Bytes :=
  withCrc (toLE 2 p.type ++ toLE 4 p.source ++ toLE 2 (p.step % 65536) ++
    toLE 1 (p.replay % 16 + 16 * b2n p.halt + 32 * b2n p.mode) ++ toLE 1 p.index ++ toLE 1 p.die ++ toLE 1 p.gen ++
    toLE 4 p.value ++ toLE 8 p.tick ++ toLE 3 p.segment ++ toLE 1 p.cause ++ toLE 2 p.unit ++ zeros 30)

/-- A synchronisation packet read from its bytes. -/
def SynPacket.ofBytes (b : Bytes) : SynPacket :=
  { type := fieldAt b 0 2, source := fieldAt b 2 4 % 2 ^ 29, step := fieldAt b 6 2, replay := bits (fieldAt b 8 1) 0 4
    halt := bit (fieldAt b 8 1) 4, mode := bit (fieldAt b 8 1) 5, index := fieldAt b 9 1, die := fieldAt b 10 1
    gen := fieldAt b 11 1, value := fieldAt b 12 4, tick := fieldAt b 16 8, segment := fieldAt b 24 3
    cause := fieldAt b 27 1, unit := fieldAt b 28 2 }

/-- A packet of this module, with its step and replay count (R460). -/
def State.synPacket (s : State) (type u : Nat) : SynPacket :=
  { type := type, source := s.originator u, step := s.get F.SCH_STEP.STEP, replay := s.get F.SCH_REPLAY.COUNT }

/-- The unit that sends the module's own aborts and halts: the fabric router of FD0 (R540). -/
def routerFd0 : Nat := 0x9050

/-! ### The schedule's own figures -/

/-- Whether the schedule is active (R73). -/
def State.active (s : State) : Bool :=
  s.sched.st == .running || s.sched.st == .aborting || s.sched.st == .replayWait

/-- The streams of the accepted image. -/
def State.streams (s : State) : List Stream := match s.sched.image with | none => [] | some i => i.streams

/-- S, the segments of a step (R83). -/
def State.segments (s : State) : Nat := match s.sched.image with | none => 0 | some i => i.segments

/-- The due tick of segment `j` of the current step (R94). -/
def State.dueTick (s : State) (j : Nat) : Nat :=
  (s.get F.SCH_BASE_TICK.BASE_TICK + s.get F.SCH_STEP.STEP * s.segments + j) % 2 ^ 64

/-- Whether tick `t` lies at or before tick `now`, by differences modulo 2^64 (R94). -/
def tickReached (now t : Nat) : Bool := decide ((now + 2 ^ 64 - t % 2 ^ 64) % 2 ^ 64 < 2 ^ 63)

/-- The lowest segment that any stream of the module has not yet finished (R103). -/
def State.lowestSegment (s : State) : Nat :=
  match s.streams with
  | [] => 0
  | t :: ts => minList (s.unit t.unit).finished (ts.map fun t => (s.unit t.unit).finished)

/-- SCH_STATUS.STATE of R118. -/
def SchedState.code : SchedState → Nat
  | .idle => 0 | .running => 1 | .aborting => 2 | .replayWait => 3 | .halted => 4

/-- The schedule moves to a state; RUN reads 0 in IDLE and HALTED (R117, R118). -/
def State.setSched (s : State) (st : SchedState) : State :=
  let s := s.onSched fun c => { c with st := st }
  if st = .idle ∨ st = .halted then s.put F.SCH_CTRL.RUN 0 else s

/-- The first halt since Starting is recorded in FLT_RECOVERY (R564). -/
def State.recordHalt (s : State) (reason item : Nat) : State :=
  if s.on F.FLT_RECOVERY.VALID then s
  else (((s.flag F.FLT_RECOVERY.VALID).put F.FLT_RECOVERY.REASON reason).put F.FLT_RECOVERY.ITEM item).put
    F.FLT_RECOVERY.STEP (s.get F.SCH_STEP.STEP)

/-! ### What an abort does -/

/-- Every die's epoch increments (R105, R110). -/
def State.bumpEpoch (s : State) : State := schedDies.foldl (fun s d => s.bump F.SCH_EPOCH.VALUE 1 d) s

/-- The operations that an abort itself ends (R104): a WAIT or BAR that has registered, a COMMIT that waits, a stalled
access, reductions whose tag the abort closes (R381). -/
def Op.endedByAbort (o : Op) (stall : Option Stall) : Bool :=
  (o.state == .waiting && (o.opclass == 0x59 || o.opclass == 0x5A || o.opclass == 0x4C ||
    o.opclass == 0x45 || o.opclass == 0x46 || o.opclass == 0x47)) ||
  (match stall with | some t => o.entry == t.op && o.state == .waiting | none => false)

/-- An abort reaches a unit (R104, R440): nothing further is issued, its stall ends, and the operations that it ends are
marked. -/
def UnitSt.abort (x : UnitSt) : UnitSt :=
  { x with
    stopped := true
    stall := none
    ops := x.ops.map fun o => { o with cut := true, state := if o.endedByAbort x.stall then .ended else o.state } }

/-- Cycle counts are not measured by the model: a count of cycles within a tick is a free value below the tick's length
(log entry 7). -/
def State.freeCycle (s : State) (i : Nat) : Nat := s.freeAt i % (s.get F.TCK_PERIOD.PERIOD_US * 1400)

/-- Cycles of a unit's phase are counted (R623): each counts in one of four counters. Their shares are free values that add
up to the number (log entry 7). -/
def State.countCycles (s : State) (u n : Nat) : State :=
  let busy := s.freeAt 0 % (n + 1)
  let starve := s.freeAt 1 % (n - busy + 1)
  let stall := s.freeAt 2 % (n - busy - starve + 1)
  (s.took 3).onUnit u fun x =>
    { x with busy := x.busy + busy, starve := x.starve + starve, stalled := x.stalled + stall
             waited := x.waited + (n - busy - starve - stall) }

/-- The phase record of a unit (R622 to R624), written when its phase ends. -/
def State.phaseRecord (s : State) (u : Nat) (aborted : Bool) : State :=
  let x := s.unit u
  if s.ldg.phases.isEmpty || x.started == 0 || (aborted && decide (s.segments ≤ x.finished)) then s
  else
    let here := if x.phaseTick = s.now (unitDie u) then x.phaseCycle else 0
    let cycle := max (s.freeCycle 0) here
    let s := (s.took 1).countCycles u (cycle - here)
    let x := s.unit u
    s.ledger { kind := .phase, unit := u, phase := x.phase, aborted := aborted, error := x.opError
               replay := s.get F.SCH_REPLAY.COUNT, step := s.get F.SCH_STEP.STEP, segment := x.phaseSeg
               startTick := x.phaseTick, startCycle := x.phaseCycle, ticks := s.now (unitDie u) - x.phaseTick
               endCycle := cycle, busy := x.busy, starve := x.starve, stall := x.stalled, wait := x.waited
               remoteKib := (x.remote + 1023) / 1024, ops := x.opsDone, slips := x.slips }

/-- At a tick, the cycles of the tick just ended count in the phases of a die's units (R623). -/
def State.countTick (s : State) (u : Nat) : State :=
  let x := s.unit u
  if s.ldg.phases.isEmpty || x.started == 0 || x.stopped || decide (s.segments ≤ x.finished) then s
  else
    let here := if x.phaseTick + 1 = s.now (unitDie u) then x.phaseCycle else 0
    s.countCycles u (s.get F.TCK_PERIOD.PERIOD_US * 1400 - here)

/-- The hold queues of every die are emptied (R461). -/
def State.emptyHolds (s : State) : State :=
  (s.syn.hold.map (·.1)).foldl (fun s d => s.put F.SYN_STATUS.HELD 0 d) (s.onSyn fun x => { x with hold := [] })

/-- Every waiting WAIT and BAR is cancelled (R456). -/
def State.cancelWaiters (s : State) : State :=
  (s.syn.waiters.map (·.1)).foldl (fun s k => s.put F.SYN_OBJ_VALUE.WAITERS 0 k.1 k.2)
    (s.onSyn fun x => { x with waiters := [] })

/-- Tags close and hold buffers empty; the held packets are counted as stray (R381). -/
def State.abortReductions (s : State) : State :=
  let s := s.rdx.hold.foldl (fun s h => s.bump F.RDX_STRAY.VALUE 1 (unitDie h.1) (unitInst h.1)) s
  s.onRdx fun r => { r with tags := [], hold := [] }

/-- Pending tables are discarded, and cached tables with them (R242, R245). -/
def State.abortTables (s : State) : State :=
  let s := s.codec.pending.foldl (fun s p =>
    if p.2.isEmpty then s else s.flag F.CDC_EVENTS.PENDING_DISCARD p.1.1) s
  let s := (s.codec.pending.map (·.1)).foldl (fun s k =>
    s.put (if k.2 = 0 then F.CDC_PENDING.CX0 else F.CDC_PENDING.CX1) 0 k.1) s
  s.onCodec fun c => { c with pending := [], cached := [] }

/-- Armed bank switches are cancelled (R318). -/
def State.cancelSwitches (s : State) : State :=
  [72, 73, 74, 75].foldl (fun s d => s.put F.VRT_BANK.ARMED 0 d) s

/-- The step is aborted on the module (R102, R104, R105): the epoch increments, mirage buffers and every structure of the
step are emptied, and each unit stops. An abort that comes when the step has ended leaves its commit standing and aborts the
next step at its start (R351). -/
def State.abortStep (s : State) : State :=
  if s.sched.st != .running then s
  else if s.sched.stepEnded then s.onSched fun c => { c with abortNext := true }
  else
    let s := s.streams.foldl (fun s t => s.phaseRecord t.unit true) s
    let s := s.onSched fun c =>
      { c with items := [], carried := [], tokens := [], mesh := [], units := c.units.map fun p => (p.1, p.2.abort) }
    let s := (s.bumpEpoch.cancelWaiters.emptyHolds.abortReductions.abortTables).cancelSwitches
    let s := (s.onFsel fun f => { f with pending := [] }).onUpd fun u =>
      { u with commitTick := none }
    (s.put F.UPD_STATUS.COMMIT_WAIT 0).setSched .aborting

/-! ### Breaks and halts -/

/-- An ABORT of this module goes to the job root, or, on the root, to every module of the job and to the mirror (R462, R463,
R465). The root owes an ABORT_RELEASE for a plain abort (R463, R464). -/
def State.sendAbort (s : State) (tick segment cause unit : Nat) (halt : Bool) : State :=
  let p := { s.synPacket 0x13 routerFd0 with
             halt := halt, tick := tick, segment := segment, cause := cause, unit := unit }
  if !s.on F.SYN_JOB.VALID then s
  else if s.get F.SYN_JOB.ROOT = s.moduleNo then
    let s := s.tc0Bcast 72 p.bytes
    let s := if s.on F.SYN_JOB.MIRROR then s.tc0To 72 s.moduleNo (1 - s.erg) p.bytes else s
    if halt then s else s.onSched fun c => { c with release := true }
  else s.tc0To 72 (s.get F.SYN_JOB.ROOT) s.erg p.bytes

/-- The first break of a step is recorded (R103): SCH_BREAK, SCH_BREAK_TICK. -/
def State.recordBreak (s : State) (segment cause unit erg module tick : Nat) : State :=
  let s := (s.put F.SCH_BREAK.SEGMENT segment).put F.SCH_BREAK.CAUSE cause
  let s := (s.put F.SCH_BREAK.UNIT unit).put F.SCH_BREAK.ERG erg
  let s := (s.put F.SCH_BREAK.MODULE module).put F.SCH_BREAK_TICK.TICK tick
  s.onSched fun c => { c with broken := true }

/-- A schedule break arises on the module (R101 to R103, R462): recorded if it is the step's first, with its record of
cause 9; the step aborts, and the job root is told. Causes 4 to 6 are raised by no unit. A break taken as a halt carries
HALT (R464). A module whose schedule is not active has no step to break. -/
def State.raiseBreak (s : State) (cause unit segment : Nat) (halt : Bool := false) : State :=
  if !s.active then s
  else
    let noUnit := 4 ≤ cause && cause ≤ 6
    let u := if noUnit then 0 else unit
    let seg := if noUnit then s.lowestSegment else segment
    let tick := s.now (if noUnit then 72 else unitDie unit)
    let s := s.flag F.SCH_EVENTS.BREAK_LOCAL
    let s := if halt then s.onSched fun c => { c with halt := true } else s
    if s.sched.broken then
      let s := s.flag F.SCH_EVENTS.EXTRA_BREAK
      if halt then s.sendAbort tick seg cause u true else s
    else
      let s := s.recordBreak seg cause u s.erg s.moduleNo tick
      let s := s.faultOf (if noUnit then routerFd0 else unit) 9 fun r => { r with segment := seg }
      (s.abortStep).sendAbort tick seg cause u halt

/-- The module itself stops for good (R106, R107, R554): it aborts what runs, sends a halt that arises from no break, and
enters HALTED once its units have stopped. -/
def State.haltModule (s : State) (reason item : Nat) : State :=
  let tick := s.now 72
  let s := (s.recordHalt reason item).faultOf routerFd0 9 fun r => { r with segment := 0 }
  let s := s.sendAbort tick 0 0 0 true
  let s := s.abortStep.onSched fun c => { c with halt := true }
  if s.sched.st = .halted || s.sched.abortNext then s else s.setSched .aborting

/-- The units of a fatal die stop, and their operations complete with an error status (R548, R549). -/
def State.stopDie (s : State) (die : Nat) : State :=
  let units := s.sched.units.filter fun p => unitDie p.1 == die
  units.foldl (fun s p =>
    let s := s.onUnit p.1 fun x => { x with fenced := true, stall := none }
    (List.range p.2.ops.length).foldl (fun s k =>
      let o := s.opAt p.1 k
      if o.state == .started || o.state == .waiting || o.state == .writing then
        s.failOp p.1 k 0 .operation
      else s) s) s

/-- The halt that a newly fatal die calls for (R550). -/
def State.haltFatal (s : State) : State :=
  match s.flt.fatal with
  | [] => s
  | d :: rest =>
    let dies := d :: rest
    let s := dies.foldl State.stopDie (s.onFlt fun f => { f with fatal := [] })
    let seg := s.lowestSegment
    let s := s.recordHalt 1 0
    if s.active then s.raiseBreak 7 (unitId d 0 0) seg true
    else
      let s := (s.sendAbort (s.now 72) seg 7 (unitId d 0 0) true).onSched fun c => { c with halt := true }
      if s.sched.st = .halted then s else s.setSched .halted

/-- After a command: the halts of the dies that it made fatal. A halt's own records can fence one more die, FD0, so twice;
after that no halt is owed. -/
def State.settle (s : State) : State :=
  if s.flt.fatal.isEmpty then s else s.haltFatal.haltFatal.onFlt fun f => { f with fatal := [] }

end Sys2Proof.Machine
end

