-- ==== Sys2Proof/WellFormed.lean ====
section
/-! DEFINITION. Which commands can reach the module: the operands name dies, units, ports and queues that the spec gives
the module, and messages have the length the spec gives them. -/

namespace Sys2Proof

open Sys2Proof.Machine

/-- A unit of a type on a compute die. -/
def isComputeUnit (types : List Nat) (u : Nat) : Bool :=
  isUnit u && isCompute (unitDie u) && types.contains (unitType u)

/-- A unit of a type on a fabric die. -/
def isFabricUnit (types : List Nat) (u : Nat) : Bool :=
  isUnit u && isFabric (unitDie u) && types.contains (unitType u)

/-- A Vemen port: fabric die and instance. -/
def isPort (die inst : Nat) : Bool := isFabric die && decide (inst < 6)

/-- A BDI link: die and instance. -/
def isLink (die link : Nat) : Bool := isDie die && decide (link < bdiLinkCount die)
where
  bdiLinkCount (d : Nat) : Nat := if isCompute d then 4 else if isMemory d then 2 else 3

/-- A die that holds synchronisation objects (R449). -/
def isSynDie (d : Nat) : Bool := isCompute d || isHost d

/-- An address that a requester can send: a core's physical address, or a local address (R61). -/
def addrFits (org addr : Nat) : Bool :=
  decide (org < 2 ^ 29) && decide (addr < (if isCore (org % 65536) then 2 ^ 56 else 2 ^ 47))

/-- A span within one 256 B granule, which no single access crosses (R49). -/
def oneAccess (addr n : Nat) : Bool := decide (0 < n) && decide (addr % 256 + n ≤ 256)

/-- A die that holds an XLT (R428). -/
def hasXlt (d : Nat) : Bool := isDie d && !isMemory d

/-- A queue (R487). -/
def isQueue (q : Nat) : Bool := decide (q < 2 ^ 20)

/-- A command that the module can be given. -/
def Instr.wf : Instr → Bool
  | .registerWrite org addr _ v _ => decide (org < 2 ^ 29) && decide (addr < 2 ^ 47) && decide (v < 2 ^ 64)
  | .clearCounts die _ _ _ => isDie die
  | .tick die => isDie die
  | .tickMark mark _ => mark.length == 64
  | .slipBreak u => isStreamUnit u
  | .operationStart u => isStreamUnit u
  | .operationComplete u _ => isStreamUnit u
  | .synToken ch => decide (ch < 65536)
  | .synCredit ch => decide (ch < 65536)
  | .noOperation u => isStreamUnit u
  | .ldx u _ => isComputeUnit [0, 1] u
  | .mma u _ => isComputeUnit [0, 1] u
  | .out u _ => isComputeUnit [0, 1] u
  | .psend u _ => isComputeUnit [0, 1] u
  | .padd u _ => isComputeUnit [0, 1] u
  | .stf u _ => isComputeUnit [0, 1] u
  | .ew die _ => isCompute die
  | .cvt die _ => isCompute die
  | .scan die _ => isCompute die
  | .reduce die _ => isCompute die
  | .dgrad die _ => isCompute die
  | .rand die _ => isCompute die
  | .slice die _ => isCompute die
  | .flush u => isComputeUnit [2, 3] u
  | .chain die _ => isCompute die
  | .genStateWrite die idx half v => isCompute die && decide (idx < 4352) && decide (half < 3) && decide (v < 2 ^ 64)
  | .code u _ => isComputeUnit [5] u || (isFabricUnit [3] u && unitInst u == 0)
  | .decode u _ => isComputeUnit [6] u || (isFabricUnit [3] u && unitInst u == 1)
  | .hstore u _ => isComputeUnit [5] u || (isFabricUnit [3] u && unitInst u == 0)
  | .build u _ => isComputeUnit [5] u
  | .codecInputTimeout u _ => isComputeUnit [6] u || (isFabricUnit [3] u && unitInst u == 1)
  | .codecLateSector die => isCompute die || isFabric die
  | .memRead org addr len _ => addrFits org addr && oneAccess addr len
  | .memWrite org addr data =>
      addrFits org addr && oneAccess addr data.length && addr % 64 == 0 && data.length % 64 == 0
  | .memPartialWrite org addr data mask _ => addrFits org addr && oneAccess addr data.length && mask.length == data.length
  | .accumulateWrite org addr mask addends _ =>
      decide (org < 2 ^ 29) && decide (addr < 2 ^ 60) && decide (mask < 2 ^ 32) && addends.length == 32
  | .partialSums addr data => decide (addr < 2 ^ 47) && data.length == 64
  | .readResponse u _ _ _ => isUnit u
  | .writePerformed u _ _ => isUnit u
  | .fsel die _ => isCompute die
  | .move u _ => isComputeUnit [4] u
  | .xpose u _ => isComputeUnit [4] u
  | .rbank die _ => isFabric die
  | .bankSwitch die => isFabric die
  | .nchk die _ => isCompute die
  | .uprun die _ => isCompute die
  | .cscale die _ => isCompute die
  | .commit die => isCompute die
  | .digestPacket pkt => pkt.length == 64
  | .updVerify key => decide (key < 2 ^ 64)
  | .updRewind unum => decide (unum < 2 ^ 64)
  | .ropen u _ => isFabricUnit [2] u
  | .rsend u _ => isFabricUnit [2] u
  | .allr u _ => isFabricUnit [2] u
  | .reductionPacket u _ _ => isFabricUnit [2] u
  | .checkTimeout u _ _ => isFabricUnit [2] u
  | .vlkFlitReceive die inst flit _ _ => isPort die inst && flit.length == 256
  | .gcmBatchClose die inst => isPort die inst
  | .vlkAckTimeout die inst => isPort die inst
  | .laneLockLoss die inst => isPort die inst
  | .vlkRetrain die inst => isPort die inst
  | .vlkTrained die inst _ => isPort die inst
  | .vlkHoldExpire die inst => isPort die inst
  | .peerRoutingUpdate die inst _ => isPort die inst
  | .packetForward die input pkt =>
      isFabric die && decide (input ≤ 8) && decide (pkt.payload.length ≤ 3840) && decide (pkt.tc < 4) && decide (pkt.vc < 6) &&
        decide (pkt.dest < 4096) && decide (pkt.destErg < 2) && decide (pkt.bank < 4) && decide (pkt.src < 4096) &&
        decide (pkt.srcErg < 2)
  | .tc0Inject die => isFabric die
  | .remoteTimeout die _ => isFabric die
  | .remoteResponse die _ _ _ => isFabric die
  | .leave die => isFabric die
  | .join die => isFabric die
  | .vrtBankWrite die half v => isFabric die && decide (half < 3) && decide (v < 2 ^ 64)
  | .routeEntryWrite die bcast idx half v =>
      isFabric die && decide (idx < (if bcast then 64 else 16384)) && decide (half < 3) && decide (v < 2 ^ 64)
  | .missRecordWrite die slot => hasXlt die && decide (slot < 64)
  | .xltRespFill die slot v => hasXlt die && decide (slot < 64) && decide (v < 2 ^ 64)
  | .xltRespFault die slot => hasXlt die && decide (slot < 64)
  | .xltMissTimeout die slot => hasXlt die && decide (slot < 64)
  | .xpf die _ => isCompute die
  | .xltInval die v => hasXlt die && decide (v < 2 ^ 64)
  | .xltInvalDone die => hasXlt die
  | .faultRecord rec => decide (rec.source < 2 ^ 29)
  | .fltResumeRetry target => decide (target < 65536)
  | .fltResumeAbort target => decide (target < 65536)
  | .fltWadiRelease slot => decide (slot < 2048)
  | .faultRecordCopy rec => rec.length == 64
  | .controlParityError die => isDie die
  | .signal die _ => isCompute die
  | .wait die _ => isCompute die
  | .bar die _ => isCompute die
  | .synObjSignal die obj core v => isSynDie die && decide (obj < 48) && decide (core < 2 ^ 29) && decide (v < 2 ^ 64)
  | .synWaitTimeout die obj w => isSynDie die && decide (obj < 48) && decide (w < 16)
  | .signalPacket pkt => pkt.length == 64
  | .arrive pkt => pkt.length == 64
  | .release pkt => pkt.length == 64
  | .abort pkt => pkt.length == 64
  | .abortRelease pkt => pkt.length == 64
  | .readShared core _ => decide (core < 72)
  | .readUnique core _ => decide (core < 72)
  | .upgrade core _ => decide (core < 72)
  | .writeBack core _ data _ => decide (core < 72) && data.length == 64
  | .clean core _ => decide (core < 72)
  | .cohFlush core _ => decide (core < 72)
  | .invalidate core _ _ => decide (core < 72)
  | .snoop die _ _ stored => isHost die && (match stored with | some d => d.length == 64 | none => true)
  | .cohResponse core _ => decide (core < 72)
  | .cohData core _ => decide (core < 72)
  | .cohAck core _ => decide (core < 72)
  | .hcxRwinWrite die idx half v => isHost die && decide (idx < 512) && decide (half < 3) && decide (v < 2 ^ 64)
  | .qctlEnable die q => isFabric die && isQueue q
  | .qctlDisable die q => isFabric die && isQueue q
  | .qctlDisableDone die => isFabric die
  | .qctlSync die q => isFabric die && isQueue q
  | .submissionDoorbell q v => isQueue q && decide (v < 65536)
  | .completionDoorbell q v => isQueue q && decide (v < 65536)
  | .contextFetch q => isQueue q
  | .entryFetchReturn q k => isQueue q && decide (k < 9)
  | .refetchIssue q k => isQueue q && decide (1 ≤ k) && decide (k < 9)
  | .nop q c => isQueue q && decide (c < 65536)
  | .copy q c => isQueue q && decide (c < 65536)
  | .writeInline q c => isQueue q && decide (c < 65536)
  | .fill q c => isQueue q && decide (c < 65536)
  | .queueSignal q c => isQueue q && decide (c < 65536)
  | .commandComplete q c => isQueue q && decide (c < 65536)
  | .pcieInboundRequest port _ => decide (port < 2)
  | .pcieMsiWrite port _ _ => decide (port < 2)
  | .pcieLinkUp port rate width => decide (port < 2) && decide (1 ≤ rate) && decide (rate ≤ 7) && [1, 2, 4, 8, 16].contains width
  | .pcieLinkDown port => decide (port < 2)
  | .bdiTraining die link _ => isLink die link
  | .bdiTrainTimeout die link => isLink die link
  | .bdiDescriptor die link _ => isLink die link
  | .bdiFlitReceive die link flit => isLink die link && flit.length == 64
  | .bdiAckTimeout die link => isLink die link
  | .bdiRetrainRequest die link => isLink die link
  | .bdiRetrain die link => isLink die link
  | .bdiHoldExpire die link => isLink die link
  | .bdiTickFlit die link flit _ => isLink die link && flit.length == 64
  | .interrupt hart _ => decide (hart < 72)
  | .ledgerRecord rec => decide (rec.unit < 65536)
  | .ldgAttachWrite core v => decide (core < 72) && decide (v < 2 ^ 64)
  | .railFault dies => dies.all isDie
  | .rowRemapDone ms => isMemory ms
  | .hbmRefreshDouble ms _ => isMemory ms
  | .patrolScrubStep ms _ => isMemory ms
  | .aerErrorReport port _ => decide (port < 2)
  | .pcieCompletion port _ _ _ => decide (port < 2)
  | .holdover | .tickLost | .masterSwitch | .partnerMasterSwitch | .tickIoEdge _ | .schRun | .schStop | .schAbort
  | .stepStart | .replayWaitEntry | .replayStart | .haltEntry | .updateCommit | .digestTimeout | .updVerifyDone
  | .updRewindDone | .haboobExit | .cohFwd _
  | .fltRecoveryRestore | .powerOn _ _ | .startComplete | .secReady | .retire _ _ | .revoke _ _
  | .epoch _ | .attest _ | .attestDone | .flashProgram _ | .flashProgramDone _ | .mgmtGetStatus | .mgmtDrain
  | .mgmtDrainCancel | .mgmtRestart | .mgmtAttest _ | .mgmtFuse _ _ _ | .park | .unpark | .drain | .drainCancel
  | .powerOff | .drainComplete _ | .restart | .restartRailsOn _ | .attnRequest | .powerEnFall | .inputRange _
  | .inputRangeTimeout | .powerFault _ | .thermalWarn _ _ | .thermalTrip _ | .fuseCommandDone _ => true

end Sys2Proof
end

