-- ==== Sys2Proof/Machine/Act.lean ====
section
/-! DEFINITION. The frame that every command's meaning stands in. -/

namespace Sys2Proof.Machine

/-- The commands that reach a module whose rails are off (R600, R604, R606): the edges of PWR_EN and the end of a restart's
20 ms. -/
def wakes : Instr → Bool
  | .powerOn _ _ | .powerEnFall | .restartRailsOn _ => true
  | _ => false

/-- The commands that reach a module whose start has failed (R590): its input and temperature, and the security block and the
management endpoint, which are not stopped. -/
def reachesFailed : Instr → Bool
  | .powerEnFall | .inputRange _ | .inputRangeTimeout | .powerFault _ | .thermalWarn _ _ | .thermalTrip _ | .attnRequest
  | .mgmtGetStatus | .mgmtDrain | .mgmtDrainCancel | .mgmtRestart | .mgmtAttest _ | .mgmtFuse _ _ _ | .attest _ | .attestDone
  | .flashProgram _ | .flashProgramDone _ | .retire _ _ | .revoke _ _ | .epoch _ | .fuseCommandDone _ | .restart | .drain
  | .drainCancel | .powerOff | .registerWrite _ _ _ _ _ | .memRead _ _ _ _ => true
  | _ => false

/-- Whether the state of the module lets a command act: with the rails off and after a failed start only the commands above
do. -/
def State.admits (s : State) (c : Instr) : Bool :=
  if s.power.mode == .off then wakes c else !s.on F.SEC_START.FAILED || reachesFailed c

/-- A command's effect in its frame: a command that names no place of the module is refused by name; one that the module's
state does not admit changes nothing; after the effect the dies it made fatal bring their halt (R550). -/
def act (c : Instr) (s : State) (effect : State → State) : Host.Outcome State Fault Refusal :=
  if c.wf then
    if s.admits c then .next (effect s).settle else .next s
  else .refused .illFormed

end Sys2Proof.Machine
end

