-- ==== Sys2Proof/Machine/Holder.lean ====
section
/-! DEFINITION. Answers to requests (R471, R528, R539), partial sums between dies (R125, R176), patrol scrub, row repair and
refresh at a memory stack (R269 to R271, R613). -/

namespace Sys2Proof.Machine

/-! ### Answers -/

/-- The unit of this module that a global originator names (R12). -/
def State.localUnit (s : State) (org : Nat) : Option Nat :=
  if bits org 28 1 = s.erg ∧ bits org 16 12 = s.moduleNo then some (org % 65536) else none

/-- A core access that ends with an error status: an access-fault exception and a fault record (R471). -/
def State.coreError (s : State) (u addr : Nat) (write : Bool) : State :=
  let s := s.faultOf u 5 fun r => { r with paddr := addr, write := write, segment := 0 }
  (s.flag F.HCX_EVENTS.CORE_ACCESS_FAULT (unitDie u)).emit (.coreFault (coreOf u) write)

/-- A remote or PCIe read of a unit has come to an end at the unit (R412, R508, R528): its data, or an error status. -/
def State.readArrived (s : State) (u addr len status : Nat) (data : Bytes) : State :=
  if isCore u then
    (if status = 0 then s.emit (.response (s.originator u) addr 0 data) else s.coreError u addr false)
  else if status = 0 then s.onRem fun r => { r with arrived := r.arrived ++ [((u, addr, len), data)] }
  else s.onRem fun r => { r with failed := r.failed ++ [(u, addr, len)] }

/-- A write of an operation in flight is acknowledged: the operation is done with the last one, and ends with an error
status when one failed (R302, R528). -/
def State.opAcknowledged (s : State) (u tag addr status : Nat) : State :=
  match (s.unit u).ops.findIdx? fun o => o.state == .writing && o.tags.contains tag with
  | none => s
  | some k =>
    let s := s.onOp u k fun o => { o with tags := removeFirst (· == tag) o.tags }
    if status ≠ 0 then s.failOp u k (match errRegs u with | some e => accessCause e.cause.reg | none => 0) (.access addr)
    else s.onOp u k fun o => { o with state := if o.tags.isEmpty then .done else .writing }
where
  /-- The cause that a block's error register gives an access error (R186, R223, R224, R258, R355, R383). -/
  accessCause (r : Reg) : Nat :=
    match r with
    | .MXA_ERROR => 5 | .MXW_ERROR => 5 | .VSE_ERROR => 7 | .VSC_ERROR => 7 | .CDC_ERROR => 9 | .UPD_ERROR => 10
    | .RDX_ERROR => 11 | _ => 0

/-- A write of a queue's command is acknowledged (R502); one that failed gives the command STATUS 1 (R505). -/
def State.cmdAcknowledged (s : State) (u tag addr status : Nat) : State :=
  if s.qcx.cmds.any fun c => c.tags.contains tag then
    let s := s.onQcx fun q => { q with cmds := updateFirst (fun c => c.tags.contains tag) (fun c =>
      { c with tags := removeFirst (· == tag) c.tags
               status := if status = 0 then c.status else some 1 }) q.cmds }
    if status = 0 then s else s.faultOf u 5 fun r => { r with paddr := addr, write := true, segment := 0 }
  else s

/-- A remote or PCIe write of a unit has been performed, or has ended with an error status (R412, R508, R528). -/
def State.writeArrived (s : State) (u tag addr status : Nat) : State :=
  if isCore u then
    (if status = 0 then s.emit (.response (s.originator u) addr 0 []) else s.coreError u addr true)
  else (s.opAcknowledged u tag addr status).cmdAcknowledged u tag addr status

/-- The answer with a unit's tag that crosses the panel (R528): the one that its source fabric die sent. -/
def State.takeAnswer (s : State) (u tag status : Nat) (data : Bytes) (write : Bool) : Option (Remote × State) :=
  let mine (p : Remote × Nat × Bytes) : Bool :=
    p.1.unit == u && p.1.tag == tag && p.1.write == write && p.2.1 == status && p.2.2 == data
  match s.rem.answers.find? mine with
  | none => none
  | some p => some (p.1, s.onRem fun r => { r with answers := removeFirst mine r.answers })

/-- READ_RESPONSE (R528, R539). -/
def execReadResponse (u tag status : Nat) (data : Bytes) (s : State) : Host.Outcome State Fault Refusal :=
  act (.readResponse u tag status data) s fun s =>
    match s.takeAnswer u tag status data false with
    | none => s
    | some (r, s) => s.readArrived u r.addr r.len status data

/-- WRITE_PERFORMED (R528). -/
def execWritePerformed (u tag status : Nat) (s : State) : Host.Outcome State Fault Refusal :=
  act (.writePerformed u tag status) s fun s =>
    match s.takeAnswer u tag status [] true with
    | none => s
    | some (r, s) => s.writeArrived u tag r.addr status

/-! ### Partial sums -/

/-- PARTIAL_SUMS (R125, R176): a message with packed partial sums is written where it is addressed. -/
def execPartialSums (addr : Nat) (data : Bytes) (s : State) : Host.Outcome State Fault Refusal :=
  act (.partialSums addr data) s fun s => s.writeSectors addr data

/-! ### Patrol scrub and row repair -/

/-- The local address of sector `n` of a stack, in the order of its granules (R261): pass q of the pool's granules holds 64
of each stack. The order of a scrub pass is not stated (log entry 41). -/
def State.stackSector (s : State) (stack n : Nat) : Nat :=
  let k := n / 4
  match s.pool.findIdx? (· == stack) with
  | some j =>
    let m := 64 * s.pool.length
    let q := k / 64
    let h := bits q 0 8 ^^^ bits q 8 8 ^^^ bits q 16 7
    let c0 := (64 * j + k % 64 + 1024 * m - h - 256 * (q % 3)) % m
    (q * m + c0) * 256 + n % 4 * 64
  | none => s.pool.length * stackBytes + ((s.ranges.findIdx? (· == stack)).getD 0) * stackBytes + 64 * n

/-- Sectors of a stack. -/
def stackSectors : Nat := stackBytes / 64

/-- PATROL_SCRUB_STEP (R269, R271): the stack's next sector is read, corrected and written back. -/
def execPatrolScrubStep (ms : Nat) (flips : List Flip) (s : State) : Host.Outcome State Fault Refusal :=
  act (.patrolScrubStep ms flips) s fun s =>
    if !s.on F.HBC_SCRUB.ENABLE ms then s
    else
      let stack := ms - 80
      let n := (lookupKey stack s.hbm.scrub).getD 0
      let a := s.stackSector stack n
      let s := (s.onHbm fun h => { h with scrub := setKey stack ((n + 1) % stackSectors) h.scrub }).disturbAll a 64
        (flips.map fun f => { f with sram := 0 })
      match s.checkHbm (a / 64) with
      | (s, true) => s
      | (s, false) => s.flag F.HBC_EVENTS.SCRUB_UE ms

/-- ROW_REMAP_DONE (R270): every sector of the row has been read and copied, an uncorrectable one so that it stays
uncorrectable; the remap is logged. -/
def execRowRemapDone (ms : Nat) (s : State) : Host.Outcome State Fault Refusal :=
  act (.rowRemapDone ms) s fun s =>
    match s.hbm.copying.find? fun r => r.1 == ms - 80 with
    | none => s
    | some (stack, row) =>
      let bad := (s.hbm.flips.map (·.1)).filter fun n => s.stackDie (n * 64) == ms && (s.hbmPlace (n * 64)).rowNo == row
      let s := bad.foldl (fun s n => (s.checkHbm n).1) s
      let s := s.onHbm fun h =>
        { h with copying := removeFirst (· == (stack, row)) h.copying, remaps := h.remaps ++ [(stack, row)] }
      let n := s.get F.HBC_SPARES.REMAPPED ms
      let s := s.setWord .HBC_REPAIR_LOG (BitVec.ofNat 64 (2 ^ 63 + row)) ms n
      ((s.put F.HBC_SPARES.REMAPPED (n + 1) ms).put F.HBC_SPARES.LEFT (s.get F.HBC_SPARES.LEFT ms - 1) ms).flag
        F.HBC_EVENTS.REPAIR_DONE ms

/-- HBM_REFRESH_DOUBLE (R613): a stack above 85 °C doubles its refresh. -/
def execHbmRefreshDouble (ms : Nat) (hot : Bool) (s : State) : Host.Outcome State Fault Refusal :=
  act (.hbmRefreshDouble ms hot) s fun s => s.onHbm fun h =>
    { h with hot := if hot then insertNat ms h.hot else h.hot.filter (· != ms) }

end Sys2Proof.Machine
end

