-- ==== Sys2Proof/Machine/Hash.lean ====
section
/-! DEFINITION. SHA3-256 (FIPS 202), which the spec names for CAPS_DIGEST (R83), image digests (R584), reports (R594)
and ledger digests: the sponge of rate 136 bytes over Keccak-f[1600]. -/

namespace Sys2Proof.Machine

/-- Rotation of a 64-bit lane. -/
def rotl64 (x n : Nat) : Nat := ((x <<< n) % 2 ^ 64) ||| (x >>> (64 - n))

/-- The round constants of iota. -/
def keccakConstants : List Nat :=
  [0x0000000000000001, 0x0000000000008082, 0x800000000000808A, 0x8000000080008000, 0x000000000000808B,
   0x0000000080000001, 0x8000000080008081, 0x8000000000008009, 0x000000000000008A, 0x0000000000000088,
   0x0000000080008009, 0x000000008000000A] ++
  [0x000000008000808B, 0x800000000000008B, 0x8000000000008089, 0x8000000000008003, 0x8000000000008002,
   0x8000000000000080, 0x000000000000800A, 0x800000008000000A, 0x8000000080008081, 0x8000000000008080,
   0x0000000080000001, 0x8000000080008008]

/-- The rotations of rho, lane x + 5y at place x + 5y. -/
def keccakRotations : List Nat :=
  [0, 1, 62, 28, 27, 36, 44, 6, 55, 20, 3, 10, 43, 25, 39, 41, 45, 15, 21, 8, 18, 2, 61, 56, 14]

/-- One round of Keccak-f[1600] on 25 lanes. -/
def keccakRound (a : List Nat) (rc : Nat) : List Nat :=
  let at_ (l : List Nat) (x y : Nat) : Nat := l[x % 5 + 5 * (y % 5)]?.getD 0
  let par := (List.range 5).map fun x => at_ a x 0 ^^^ at_ a x 1 ^^^ at_ a x 2 ^^^ at_ a x 3 ^^^ at_ a x 4
  let d := (List.range 5).map fun x => (par[(x + 4) % 5]?.getD 0) ^^^ rotl64 (par[(x + 1) % 5]?.getD 0) 1
  let t := (List.range 25).map fun i => (a[i]?.getD 0) ^^^ (d[i % 5]?.getD 0)
  let r := (List.range 25).map fun i => rotl64 (t[i]?.getD 0) (keccakRotations[i]?.getD 0)
  -- pi: lane (x, y) comes from lane (x + 3y, x)
  let b := (List.range 25).map fun i => at_ r (i % 5 + 3 * (i / 5)) (i % 5)
  let e := (List.range 25).map fun i =>
    at_ b (i % 5) (i / 5) ^^^ ((2 ^ 64 - 1 - at_ b (i % 5 + 1) (i / 5)) &&& at_ b (i % 5 + 2) (i / 5))
  match e with
  | [] => []
  | l :: ls => (l ^^^ rc) :: ls

/-- Keccak-f[1600]. -/
def keccakF (a : List Nat) : List Nat := keccakConstants.foldl keccakRound a

/-- Absorb one block of 136 bytes. -/
def absorb (a : List Nat) (block : Bytes) : List Nat :=
  keccakF ((List.range 25).map fun i => (a[i]?.getD 0) ^^^ (if i < 17 then fieldAt block (8 * i) 8 else 0))

/-- The message with SHA-3's suffix and padding to a multiple of 136 bytes. -/
def sha3Pad (m : Bytes) : Bytes :=
  let n := 136 - m.length % 136
  if n = 1 then m ++ [0x86] else m ++ [0x06] ++ zeros (n - 2) ++ [0x80]

/-- SHA3-256 of a byte string, 32 bytes. -/
def sha3 (m : Bytes) : Bytes :=
  let a := (chunks 136 (sha3Pad m)).foldl absorb (List.replicate 25 0)
  (a.take 4).flatMap (toLE 8)

end Sys2Proof.Machine
end

