-- ==== Sys2Proof/Machine/Field.lean ====
section
/-! DEFINITION. A write to a register by the access codes of its fields (R15 to R17, R638, R639). -/

namespace Sys2Proof.Machine

/-- The value a write of a half or of the whole of a 64-bit register gives: half 0 the low word, 1 the high word, 2 both. -/
def halfWrite (old half v : Nat) : Nat :=
  match half with
  | 0 => putBits old 0 32 v
  | 1 => putBits old 32 32 v
  | _ => v % 2 ^ 64

/-- Whether the start has completed, after which RWL fields keep their values (R15). -/
def State.started (s : State) : Bool := s.power.mode != .starting && s.power.mode != .off

/-- Whether a value lies in a field's range (R638). -/
def FieldDef.allows (f : FieldDef) (v : Nat) : Bool := decide (f.least ≤ v) && decide (v ≤ f.most)

/-- What a field holds after a write (R15, R16, R638): `new` is the register's value with the written half replaced, `shown`
the written bits with the other half 0 (R639), `hw` the events of the same cycle. -/
def FieldDef.after (f : FieldDef) (started : Bool) (old new shown hw : Nat) : Nat :=
  let cur := bits old f.lo f.len
  let v := bits new f.lo f.len
  match f.acc with
  | .ro => cur
  | .wo => cur
  | .rw => if f.allows v then v else cur
  | .rwl => if !started && f.allows v then v else cur
  | .w1c => (cur ^^^ (cur &&& bits shown f.lo f.len)) ||| bits hw f.lo f.len

/-- The word of a register after a write to each of its fields; the fields of `keep`, by their lowest bit, keep their
values. -/
def fieldsAfter (fs : List FieldDef) (started : Bool) (old new shown hw : Nat) (keep : List Nat) : Nat :=
  fs.foldl (fun w f => if keep.contains f.lo then w else putBits w f.lo f.len (f.after started old new shown hw)) old

/-- A write to a register (R15 to R17, R638, R639). -/
def State.writeReg (s : State) (r : Reg) (die idx half v : Nat) (keep : List Nat := []) (hw : Nat := 0) : State :=
  let old := (s.word r die idx).toNat
  s.setWord r (BitVec.ofNat 64 (fieldsAfter r.info.fields s.started old (halfWrite old half v) (halfWrite 0 half v) hw keep))
    die idx

/-- The value that a write gives a field, before its rules. -/
def State.written (s : State) (f : Fld) (die idx half v : Nat) : Nat :=
  bits (halfWrite (s.word f.reg die idx).toNat half v) f.lo f.len

/-- Whether a write shows a 1 to a W1C or WO field (R639). -/
def shows (f : Fld) (half v : Nat) : Bool := bits (halfWrite 0 half v) f.lo f.len != 0

end Sys2Proof.Machine
end

