-- ==== Sys2Proof/Machine/Coherence.lean ====
section
/-! DEFINITION. The host complex (R469 to R486): homes, the presence filter, the states of lines in the L2s, the requests and
the messages of the snooping protocol, and the remote windows (R61, R63). A command is the arrival of a request or of a
message; lines are numbered by local address [46:6]. -/

namespace Sys2Proof.Machine

/-! ### Homes and regions -/

/-- The home slice of a line, 0 to 23 (R473). -/
def homeSlice (line : Nat) : Nat := (bits line 0 18 ^^^ bits line 18 18 ^^^ bits line 36 5) % 24

/-- The host die of a line's home (R473). -/
def homeDie (line : Nat) : Nat := 64 + homeSlice line / 12

/-- The host die of a core (R474). -/
def coreDie (core : Nat) : Nat := 64 + core / 36

/-- Whether cores hold a line of this address in their caches (R470). -/
def State.cacheable (s : State) (line : Nat) : Bool :=
  match region (64 * line) with
  | .hbm | .host | .window => s.backed (64 * line)
  | _ => false

/-! ### Lines and filter -/

/-- The copy that a core holds. -/
def State.l2Line (s : State) (core line : Nat) : Option L2Line := s.coh.l2.find? fun l => l.core == core && l.line == line

/-- A core holds a line in a state with its data. -/
def State.setL2 (s : State) (core line : Nat) (st : LineState) (data : Bytes) : State :=
  s.onCoh fun c => { c with l2 := c.l2.filter (fun l => !(l.core == core && l.line == line)) ++ [⟨core, line, st, data⟩] }

/-- A core holds a line no more. -/
def State.dropL2 (s : State) (core line : Nat) : State :=
  s.onCoh fun c => { c with l2 := c.l2.filter fun l => !(l.core == core && l.line == line) }

/-- A line in L3. -/
def State.l3Line (s : State) (line : Nat) : Option (Bytes × Bool) := lookupKey line s.coh.l3

/-- A home writes a line into L3. -/
def State.setL3 (s : State) (line : Nat) (data : Bytes) (dirty : Bool) : State :=
  s.onCoh fun c => { c with l3 := setKey line (data, dirty) c.l3 }

/-- The filter entry of a line (R474). -/
def State.filterOf (s : State) (line : Nat) : Option FilterEntry := s.coh.filter.find? fun e => e.line == line

/-- Change the filter entry of a line; an entry that marks no die is no entry (R474). -/
def State.onFilter (s : State) (line : Nat) (f : FilterEntry → FilterEntry) : State :=
  s.onCoh fun c => { c with filter := updateFirst (fun e => e.line == line) f c.filter }

/-- An entry that marks no die is freed. -/
def State.tidyFilter (s : State) (line : Nat) : State :=
  s.onCoh fun c => { c with filter := c.filter.filter fun e => !(e.line == line && e.dies.isEmpty) }

/-- The transaction that blocks a line (R477). -/
def State.txnOf (s : State) (line : Nat) : Option CohTxn := s.coh.txns.find? fun t => t.line == line

/-- Change the transaction of a line. -/
def State.onTxn (s : State) (line : Nat) (f : CohTxn → CohTxn) : State :=
  s.onCoh fun c => { c with txns := updateFirst (fun t => t.line == line) f c.txns }

/-- A message is sent. -/
def State.sendCoh (s : State) (m : CohMsg) : State := s.onCoh fun c => { c with msgs := c.msgs ++ [m] }

/-- The first message in flight that a test accepts, taken from the others. -/
def State.takeCoh (s : State) (p : CohMsg → Bool) : Option (CohMsg × State) :=
  match s.coh.msgs.find? p with
  | none => none
  | some m => some (m, s.onCoh fun c => { c with msgs := removeFirst p c.msgs })

/-! ### Acceptance at the home -/

/-- A snoop is broadcast on the rings of these dies (R478). -/
def State.snoopDies (s : State) (line : Nat) (req : Option CohReq) (dies : List Nat) : State :=
  dies.foldl (fun s d => (s.bump F.HCX_COUNTS.SNOOPS 1 d).sendCoh (.snp d line req)) s

/-- The least recently used entry of a set of 16 that has no room, among those whose line is not blocked (R474, R475). -/
def State.fullSet (s : State) (line : Nat) : Option FilterEntry :=
  let here := s.coh.filter.filter fun e => homeSlice e.line == homeSlice line
  if here.length < 16 then none
  else
    let set := here.filter fun e => Config.filterSet e.line % 16384 == Config.filterSet line % 16384
    if set.length < 16 then none else set.find? fun e => (s.txnOf e.line).isNone

/-- A line gets an entry; a full set loses its least recently used one, whose copies are snooped out (R475). -/
def State.needEntry (s : State) (line : Nat) : State :=
  match s.filterOf line with
  | some e => s.onCoh fun c => { c with filter := removeFirst (fun x => x.line == line) c.filter ++ [e] }
  | none =>
    let s := match s.fullSet line with
      | none => s
      | some v =>
        let s := (s.bump F.HCX_COUNTS.FILTER_EVICT 1 (homeDie v.line)).flag F.HCX_EVENTS.FILTER_EVICT (homeDie v.line)
        let t : CohTxn := { core := 0, line := v.line, req := none, snoops := v.dies }
        let s := s.onCoh fun c =>
          { c with filter := removeFirst (fun x => x.line == v.line) c.filter
                   txns := if v.dies.isEmpty then c.txns else c.txns ++ [t] }
        s.snoopDies v.line none v.dies
    s.onCoh fun c => { c with filter := c.filter ++ [{ line := line }] }

/-- The home supplies a line from L3, or reads it at its holder (R478). -/
def State.supply (s : State) (t : CohTxn) (grant : LineState) : State :=
  match s.l3Line t.line with
  | some (d, _) => s.sendCoh (.dat t.core t.line grant d)
  | none => s.sendCoh (.fwd t.line false [])

/-- The state that the requester of a line takes (R476). -/
def CohTxn.grant (t : CohTxn) : LineState :=
  if t.req = some .readShared then (if t.others then .s else .e) else .m

/-- A maintenance request goes on once the snoops are answered (R484): modified data, of a copy or of L3, goes to its holder
and the request completes when it is there; an Invalidate discards it. -/
def State.maintain (s : State) (t : CohTxn) (req : CohReq) : State :=
  let l3 := match s.l3Line t.line with | some (d, true) => some d | _ => none
  let data := if req = .invalidate then none else t.dirty.or l3
  let s := s.onCoh fun c =>
    { c with l3 := match req, data with
        | .clean, some d => if (lookupKey t.line c.l3).isSome then setKey t.line (d, false) c.l3 else c.l3
        | .clean, none => c.l3
        | _, _ => dropKey t.line c.l3 }
  match data with
  | some d => s.sendCoh (.fwd t.line true d)
  | none => s.sendCoh (.rsp t.core t.line 0)

/-- What the home does once every snoop of a transaction is answered (R475, R476, R478, R480). A back-invalidation ends, and
its modified data is in L3. -/
def State.proceed (s : State) (t : CohTxn) : State :=
  match t.req with
  | none =>
    let s := match t.dirty with | some d => s.setL3 t.line d true | none => s
    s.onCoh fun c => { c with txns := removeFirst (fun x => x.line == t.line) c.txns }
  | some .readShared => if t.supplied then s else s.supply t t.grant
  | some .readUnique => if t.supplied then s else s.supply t .m
  | some .upgrade =>
    if t.supplied then s
    else match s.l2Line t.core t.line with
      | some _ => s.sendCoh (.rsp t.core t.line 0)
      | none => s.supply t .m
  | some .writeBack => s
  | some r => s.maintain t r

/-- A WriteBack is accepted (R480, R482): GO_WB while the filter names its core as owner, with the victim of L3 written out
first; else WB_CANCEL. -/
def State.acceptWriteBack (s : State) (t : CohTxn) : State :=
  if (match s.filterOf t.line with | some e => e.owner == some t.core | none => false) then
    let s := match t.victim with
      | none => s
      | some v =>
        match s.l3Line v with
        | some (d, dirty) =>
          if homeSlice v = homeSlice t.line ∧ (s.txnOf v).isNone = true then
            let s := s.onCoh fun c => { c with l3 := dropKey v c.l3 }
            if dirty then s.sendCoh (.fwd v true d) else s
          else s
        | none => s
    s.sendCoh (.rsp t.core t.line 1)
  else (s.bump F.HCX_WB_CANCEL.VALUE 1 (homeDie t.line)).sendCoh (.rsp t.core t.line 2)

/-- A request is accepted at its home (R477, R478): the line is blocked, and the dies that the filter marks are snooped. -/
def State.acceptCoh (s : State) (t : CohTxn) : State :=
  if t.req = some .writeBack then
    State.acceptWriteBack (s.onCoh fun c => { c with txns := c.txns ++ [t] }) t
  else
    let dies := match s.filterOf t.line with | some e => e.dies | none => []
    let t := { t with snoops := dies }
    let s := s.onCoh fun c => { c with txns := c.txns ++ [t] }
    let s := if t.req = some .readShared ∨ t.req = some .readUnique ∨ t.req = some .upgrade then s.needEntry t.line else s
    if dies.isEmpty then s.proceed t else s.snoopDies t.line t.req dies

/-- A request arrives at its home: accepted, or it waits while the line is blocked (R477). -/
def State.requestCoh (s : State) (t : CohTxn) : State :=
  if (s.txnOf t.line).isSome then s.onCoh fun c => { c with waiting := c.waiting ++ [t] } else s.acceptCoh t

/-- The next request for a line is accepted (R477). -/
def State.nextCoh (s : State) (line : Nat) : State :=
  match s.coh.waiting.find? fun t => t.line == line with
  | none => s
  | some t => State.acceptCoh (s.onCoh fun c => { c with waiting := removeFirst (fun x => x.line == line) c.waiting }) t

/-- A transaction ends and its line is free (R477). -/
def State.endTxn (s : State) (line : Nat) : State :=
  State.nextCoh (s.onCoh fun c => { c with txns := removeFirst (fun t => t.line == line) c.txns }) line

/-! ### Snoops -/

/-- The copies of a line on a die that a snoop meets: the requester's own is not met by its own request for the line. -/
def State.met (s : State) (t : CohTxn) (die : Nat) : List L2Line :=
  s.coh.l2.filter fun l => l.line == t.line && coreDie l.core == die &&
    !(l.core == t.core && (t.req == some .readShared || t.req == some .readUnique || t.req == some .upgrade))

/-- A snoop acts on one copy (R476, R478, R480, R484). -/
def State.snoopCopy (s : State) (t : CohTxn) (l : L2Line) : State :=
  let leaving := s.coh.sent.any fun w => w.1 == l.core && w.2.1 == l.line
  let mark (s : State) (f : CohTxn → CohTxn) : State := s.onTxn l.line f
  match t.req, l.state with
  | some .readShared, .s => mark s fun t => { t with others := true }
  | some .readShared, st =>
    let s := s.sendCoh (.dat t.core l.line (if leaving then .e else .s) l.data)
    let s := if st = .m then s.sendCoh (.datHome l.core l.line l.data) else s
    let s := mark s fun t => { t with supplied := true, others := !leaving }
    if leaving then s.dropL2 l.core l.line else s.setL2 l.core l.line .s l.data
  | some .readUnique, .s => s.dropL2 l.core l.line
  | some .upgrade, .s => s.dropL2 l.core l.line
  | some .readUnique, _ => mark ((s.sendCoh (.dat t.core l.line .m l.data)).dropL2 l.core l.line) fun t => { t with supplied := true }
  | some .upgrade, _ => mark ((s.sendCoh (.dat t.core l.line .m l.data)).dropL2 l.core l.line) fun t => { t with supplied := true }
  | some .clean, .m =>
    let s := mark s fun t => { t with dirty := some l.data, others := true }
    if leaving then s.dropL2 l.core l.line else s.setL2 l.core l.line .e l.data
  | some .clean, _ => mark s fun t => { t with others := true }
  | _, .m => mark (s.dropL2 l.core l.line) fun t => { t with dirty := some l.data }
  | _, _ => s.dropL2 l.core l.line

/-- What the caches of a die have done with a line since: S and E copies evicted without a message (R479), and the data that
stores have put into the copy of its sole holder. -/
def State.coresActed (s : State) (die line : Nat) (gone : List Nat) (stored : Option Bytes) : State :=
  let here (l : L2Line) : Bool := l.line == line && coreDie l.core == die
  s.onCoh fun c =>
    { c with l2 := (c.l2.filter fun l => !(here l && gone.contains l.core && l.state != .m)).map fun l =>
        if here l && l.state != .s then { l with state := if stored.isSome then .m else l.state, data := stored.getD l.data }
        else l }

/-- The filter after a snoop's answer: a die without a copy is marked no more, and an owner without one is none (R479). -/
def State.filterAnswer (s : State) (die line : Nat) : State :=
  let held := s.coh.l2.filter fun l => l.line == line
  s.onFilter line fun e =>
    { e with dies := if held.any fun l => coreDie l.core == die then e.dies else e.dies.filter (· != die)
             owner := match e.owner with
               | some o => if coreDie o = die ∧ ¬ (held.any fun l => l.core == o && l.state != .s) = true then none else some o
               | none => none }

/-- A snoop reaches the cores of a die (R478, R479), and its answer the home. -/
def State.snoopArrives (s : State) (die line : Nat) (gone : List Nat) (stored : Option Bytes) : State :=
  match s.takeCoh fun m => (match m with | .snp d l _ => d == die && l == line | _ => false), s.txnOf line with
  | some (_, s), some t =>
    let s := s.coresActed die line gone stored
    let copies := s.met t die
    let s := if copies.isEmpty then s.bump F.HCX_COUNTS.STALE_SNOOP 1 die else s
    let s := (copies.foldl (fun s l => s.snoopCopy t l) s).filterAnswer die line
    let s := s.onTxn line fun t => { t with snoops := removeFirst (· == die) t.snoops }
    match s.txnOf line with
    | some t => if t.snoops.isEmpty then
        (let s := s.proceed t; if t.req.isNone then s.nextCoh line else s)
      else s
    | none => s
  | _, _ => s

/-! ### Other messages -/

/-- A forwarded read or write reaches the line's holder (R472, R478, R482, R484). -/
def State.fwdArrives (s : State) (line : Nat) : State :=
  match s.takeCoh fun m => (match m with | .fwd l _ _ => l == line | _ => false) with
  | some (.fwd _ true data, s) =>
    let s := s.writeSectors (64 * line) data
    (match s.txnOf line with
     | some t =>
       let more := s.coh.msgs.any fun m => (match m with | .fwd l w _ => l == line && w | .rsp _ l _ => l == line | _ => false)
       if (t.req = some .clean ∨ t.req = some .flush) ∧ ¬ more = true then s.sendCoh (.rsp t.core line 0) else s
     | none => s)
  | some (.fwd _ false _, s) =>
    let (s, ok) := s.readSpan (64 * line) 64
    (match s.txnOf line with
     | some t =>
       if ok then s.sendCoh (.dat t.core line t.grant (s.bytes (64 * line) 64))
       else ((s.coreError (coreUnit t.core) (64 * line) (t.req != some .readShared)).tidyFilter line).endTxn line
     | none => s)
  | _ => s

/-- A GO, GO_WB or WB_CANCEL reaches a core (R480 to R484). -/
def State.rspArrives (s : State) (core line : Nat) : State :=
  match s.takeCoh fun m => (match m with | .rsp c l _ => c == core && l == line | _ => false) with
  | some (.rsp _ _ code, s) =>
    let data := ((s.coh.sent.find? fun w => w.1 == core && w.2.1 == line).map (·.2.2)).getD []
    let unsent (s : State) : State := s.onCoh fun c => { c with sent := removeFirst (fun w => w.1 == core && w.2.1 == line) c.sent }
    match code, (s.txnOf line).bind (·.req) with
    | 1, _ => ((unsent s).dropL2 core line).sendCoh (.datHome core line data)
    | 2, _ => (unsent s).endTxn line
    | _, some .upgrade =>
      (match s.l2Line core line with
       | some l => (s.setL2 core line .m l.data).sendCoh (.ack core line)
       | none => s.sendCoh (.ack core line))
    | _, _ => (s.tidyFilter line).endTxn line
  | _ => s

/-- A modified line's data reaches the home, which writes it into L3; with a WriteBack this is the last message (R477,
R478). -/
def State.homeData (s : State) (line : Nat) (data : Bytes) : State :=
  let s := s.setL3 line data true
  match (s.txnOf line).bind (·.req) with
  | some .writeBack => (s.onCoh fun c => { c with filter := removeFirst (fun e => e.line == line) c.filter }).endTxn line
  | _ => s

/-- Line data arrives at a requester, which fills its line and acknowledges, or at a home (R478, R481). -/
def State.datArrives (s : State) (core line : Nat) : State :=
  match s.takeCoh fun m => (match m with
      | .dat c l _ _ => c == core && l == line
      | .datHome c l _ => c == core && l == line
      | _ => false) with
  | some (.dat _ _ grant data, s) => (s.setL2 core line grant data).sendCoh (.ack core line)
  | some (.datHome _ _ data, s) => s.homeData line data
  | _ => s

/-- The filter after a completed request for a line (R474, R476). -/
def State.filterDone (s : State) (core line : Nat) : State :=
  match s.l2Line core line with
  | none => s.tidyFilter line
  | some l =>
    let shared : Bool := l.state == LineState.s
    s.onFilter line fun e =>
      { e with dies := if shared then insertNat (coreDie core) e.dies else [coreDie core]
               owner := if shared then none else some core }

/-- A requester's ACK ends its transaction (R477). A modified line's data for the home is written into L3 first. -/
def State.ackArrives (s : State) (core line : Nat) : State :=
  match s.takeCoh fun m => (match m with | .ack c l => c == core && l == line | _ => false) with
  | some (_, s) =>
    let s := match s.takeCoh fun m => (match m with | .datHome _ l _ => l == line | _ => false) with
      | some (.datHome _ _ d, s) => s.setL3 line d true
      | _ => s
    (s.filterDone core line).endTxn line
  | none => s

/-! ### Requests -/

/-- A core's request for a line. A line that no storage backs gives the core an access fault (R48, R471). -/
def State.coreRequest (s : State) (core line : Nat) (req : CohReq) : State :=
  if s.cacheable line then s.requestCoh { core := core, line := line, req := some req }
  else s.coreError (coreUnit core) (64 * line) (req != .readShared)

def execReadShared (core line : Nat) (s : State) : Host.Outcome State Fault Refusal :=
  act (.readShared core line) s fun s => s.coreRequest core line .readShared

def execReadUnique (core line : Nat) (s : State) : Host.Outcome State Fault Refusal :=
  act (.readUnique core line) s fun s => s.coreRequest core line .readUnique

def execUpgrade (core line : Nat) (s : State) : Host.Outcome State Fault Refusal :=
  act (.upgrade core line) s fun s => s.coreRequest core line .upgrade

/-- WRITE_BACK (R480): the core evicts its modified line with this data; L3 makes room by this victim. -/
def execWriteBack (core line : Nat) (data : Bytes) (victim : Option Nat) (s : State) : Host.Outcome State Fault Refusal :=
  act (.writeBack core line data victim) s fun s =>
    if !s.cacheable line then s
    else
      let s := match s.l2Line core line with
        | some l => if l.state = LineState.s then s else s.setL2 core line .m data
        | none => s
      let s := s.onCoh fun c => { c with sent := c.sent ++ [(core, line, data)] }
      s.requestCoh { core := core, line := line, req := some .writeBack, victim := victim }

def execClean (core line : Nat) (s : State) : Host.Outcome State Fault Refusal :=
  act (.clean core line) s fun s => s.coreRequest core line .clean

def execCohFlush (core line : Nat) (s : State) : Host.Outcome State Fault Refusal :=
  act (.cohFlush core line) s fun s => s.coreRequest core line .flush

/-- INVALIDATE (R476, R484): in flush mode a Flush. -/
def execInvalidate (core line : Nat) (flushMode : Bool) (s : State) : Host.Outcome State Fault Refusal :=
  act (.invalidate core line flushMode) s fun s => s.coreRequest core line (if flushMode then .flush else .invalidate)

def execSnoop (die line : Nat) (gone : List Nat) (stored : Option Bytes) (s : State) : Host.Outcome State Fault Refusal :=
  act (.snoop die line gone stored) s fun s => s.snoopArrives die line gone stored

def execCohFwd (line : Nat) (s : State) : Host.Outcome State Fault Refusal :=
  act (.cohFwd line) s fun s => s.fwdArrives line

def execCohResponse (core line : Nat) (s : State) : Host.Outcome State Fault Refusal :=
  act (.cohResponse core line) s fun s => s.rspArrives core line

def execCohData (core line : Nat) (s : State) : Host.Outcome State Fault Refusal :=
  act (.cohData core line) s fun s => s.datArrives core line

def execCohAck (core line : Nat) (s : State) : Host.Outcome State Fault Refusal :=
  act (.cohAck core line) s fun s => s.ackArrives core line

/-! ### Remote windows -/

/-- A write to an HCX_RWIN entry (R63): slot 0 discards it. -/
def State.rwinWrite (s : State) (die idx half v : Nat) : State :=
  if idx = 0 then s else s.writeReg .HCX_RWIN die idx half v

def execHcxRwinWrite (die idx half v : Nat) (s : State) : Host.Outcome State Fault Refusal :=
  act (.hcxRwinWrite die idx half v) s fun s => s.rwinWrite die idx half v

end Sys2Proof.Machine
end

