-- ==== Sys2Proof/Machine/Faults.lean ====
section
/-! DEFINITION. The fault collector's commands: records and forwarded copies (R442 to R446, R541), the end of haboob mode
(R547), control parity (R549) and the arming of a restoring start (R555). -/

namespace Sys2Proof.Machine

/-- The units whose wadi slot this is and that hold further records (R444). -/
def State.blockedOn (s : State) (slot : Nat) : List Nat :=
  (s.sched.units.filter fun p => wadiSlot p.1 == slot && isFaultCapable p.1 && !p.2.blocked.isEmpty).map (·.1)

/-- The records that a unit held are placed, in order (R444). -/
def State.placeBlocked (s : State) (u : Nat) : State :=
  (s.unit u).blocked.foldl (fun s r => s.placeRecord r true) (s.onUnit u fun x => { x with blocked := [] })

/-- A wadi slot is released (R446): OVERFLOW clears with the last one, and a unit that waited for it goes on. -/
def State.releaseWadi (s : State) (slot : Nat) : State :=
  if s.flt.wadi.contains slot then
    let s := s.onFlt fun f => { f with wadi := f.wadi.filter (· != slot) }
    let s := s.put F.FLT_STATUS.WADI_USED s.flt.wadi.length
    let s := if s.flt.wadi.isEmpty then s.put F.FLT_STATUS.OVERFLOW 0 else s
    (s.blockedOn slot).foldl State.placeBlocked s
  else s

/-- A forwarded copy at its collector (R541). -/
def State.acceptCopy (s : State) (rec : Bytes) : State :=
  if s.on F.FLT_FWD.VALID then s.placeRecord (FaultRec.ofBytes rec) false else s

/-- Haboob mode ends once QUIET windows were quiet and the entry condition does not hold (R547). -/
def State.endHaboob (s : State) : State :=
  if s.on F.FLT_HABOOB.ACTIVE && decide (s.get F.FLT_HABOOB.QUIET ≤ s.flt.quiet) &&
      decide (s.get F.FLT_RATE.CURRENT ≤ s.get F.FLT_HABOOB.ENTER) then
    (s.flushCoalesced.put F.FLT_HABOOB.ACTIVE 0).onFlt fun f => { f with quiet := 0 }
  else s

/-- A write of 1 to FLT_RECOVERY.RESTORE (R555). -/
def State.armRestore (s : State) : State :=
  if s.sched.st = .idle ∨ s.sched.st = .halted then s.flag F.FLT_RECOVERY.ARMED else s

def execFaultRecord (rec : FaultRec) (s : State) : Host.Outcome State Fault Refusal :=
  act (.faultRecord rec) s fun s => s.collect rec

def execFltWadiRelease (slot : Nat) (s : State) : Host.Outcome State Fault Refusal :=
  act (.fltWadiRelease slot) s fun s => s.releaseWadi slot

def execFaultRecordCopy (rec : Bytes) (s : State) : Host.Outcome State Fault Refusal :=
  act (.faultRecordCopy rec) s fun s => s.acceptCopy rec

def execHaboobExit (s : State) : Host.Outcome State Fault Refusal :=
  act .haboobExit s State.endHaboob

def execControlParityError (die : Nat) (s : State) : Host.Outcome State Fault Refusal :=
  act (.controlParityError die) s fun s => s.makeFatal die 1

def execFltRecoveryRestore (s : State) : Host.Outcome State Fault Refusal :=
  act .fltRecoveryRestore s State.armRestore

end Sys2Proof.Machine
end

