-- ==== Sys2Proof/Machine/Image.lean ====
section
/-! DEFINITION. The schedule image (R83 to R89, R109, R641): capability descriptors and their digest (R531, R83), the
checks of the take-up, and the entries of a stream with their control words. -/

namespace Sys2Proof.Machine

/-! ### Capability descriptors -/

/-- The descriptor of a die of a class (R531): the standard compute stack's, and for the other classes, whose fields [16] to
[34] are 0, PROTOCOLS, PART and STEPPING as manufacture fixes them (log entry 43). -/
def standardDescriptor (cls : Nat) : Bytes :=
  let facts := (Config.dieFacts cls).toNat
  let stack := cls == 0
  let head := toLE 4 0x53504143 ++ toLE 2 0x0100 ++ toLE 1 cls ++ toLE 1 (if stack then 0x39 else bits facts 0 8) ++
    toLE 4 1 ++ toLE 2 (if stack then 0x7264 else bits facts 8 16) ++ toLE 1 (if stack then 0 else bits facts 24 8) ++ toLE 1 7
  let own := toLE 1 4 ++ toLE 1 0x1F ++ toLE 1 1 ++ toLE 1 3 ++ toLE 2 1024 ++ toLE 1 1 ++ toLE 1 16 ++ toLE 4 16384 ++
    toLE 4 49152 ++ toLE 1 16 ++ toLE 1 1 ++ toLE 1 64
  withCrc (head ++ (if stack then own else zeros 19) ++ zeros 217)

/-- The class of a die (R531). -/
def dieClass (d : Nat) : Nat := if isCompute d then 0 else if isHost d then 1 else if isFabric d then 2 else 3

/-- The descriptor of a die in service. -/
def State.descriptor (s : State) (d : Nat) : Bytes := (lookupKey d s.bdi.caps).getD (standardDescriptor (dieClass d))

/-- The digest of the 64 logical dies' descriptors in logical die order (R83). -/
def State.capsDigest (s : State) : Bytes := sha3 ((List.range 64).flatMap s.descriptor)

/-! ### Tables -/

/-- Whether a span lies wholly within the tile store of a die. -/
def inTile (d a n : Nat) : Bool :=
  decide (0x80000000000 + d * 0x1000000 ≤ a) && decide (a + n ≤ 0x80000000000 + (d + 1) * 0x1000000) && isCompute d

/-- Whether a span lies wholly within the backed Oasis scratchpad window (R53). -/
def State.inWindow (s : State) (a n : Nat) : Bool :=
  decide (0x20000000000 ≤ a) && decide (a + n ≤ 0x20000000000 + s.scratchWays * 0xC000000)

/-- A stream directory entry read from its 16 bytes (R85). -/
def streamOf (b : Bytes) : Stream := { unit := fieldAt b 0 2, entries := fieldAt b 4 4, offset := fieldAt b 8 8 }

/-- Whether a stream directory entry is well formed (R84, R85): it names a unit that runs a stream, and its reserved bytes
are 0. -/
def streamOk (b : Bytes) : Bool := isStreamUnit (fieldAt b 0 2) && fieldAt b 2 2 == 0

/-- Whether no unit stands twice in a directory. -/
def noRepeat : List Nat → Bool
  | [] => true
  | x :: xs => !xs.contains x && noRepeat xs

/-- A channel table entry read from its 32 bytes (R89). -/
def channelOf (b : Bytes) : Channel :=
  { producer := fieldAt b 0 2, consumer := fieldAt b 2 2, depth := fieldAt b 4 2, mirage := bit (fieldAt b 6 1) 0
    itemBytes := fieldAt b 8 4, mirageBuf := fieldAt b 12 2, buffer := fieldAt b 16 8 }

/-- Whether an identifier names a unit of a compute or fabric die (R641). -/
def isScheduled (u : Nat) : Bool := isUnit u && (isCompute (unitDie u) || isFabric (unitDie u))

/-- Whether a channel table entry is well formed (R641), with the mirage buffers of the image. -/
def State.channelOk (s : State) (mirage : List (Nat × Nat)) (b : Bytes) : Bool :=
  let c := channelOf b
  let span := c.depth * c.itemBytes
  fieldAt b 6 1 < 2 && fieldAt b 7 1 == 0 && fieldAt b 14 2 == 0 && fieldAt b 24 8 == 0 &&
    isScheduled c.producer && isScheduled c.consumer && decide (1 ≤ c.depth) && decide (c.depth ≤ 256) &&
    c.itemBytes % 64 == 0 && decide (64 ≤ c.itemBytes) && decide (c.itemBytes ≤ 0x1000000) &&
    (inTile (unitDie c.consumer) c.buffer span || s.inWindow c.buffer span) &&
    (if c.mirage then
      (match mirage[c.mirageBuf]? with
       | some m => decide (m.1 ≤ c.buffer) && decide (c.buffer + span ≤ m.1 + m.2)
       | none => false)
     else c.mirageBuf == 0)

/-- The tile store that holds a span. -/
def tileOf (a n : Nat) : Option Nat := (List.range 64).find? fun d => inTile d a n

/-- The dies that a mirage buffer counts against (R109). -/
def mirageDies (channels : List Channel) (i : Nat) (m : Nat × Nat) : List Nat :=
  let users := distinct ((channels.filter fun c => c.mirage && c.mirageBuf == i).map fun c => unitDie c.consumer)
  match tileOf m.1 m.2 with
  | some d => if users.isEmpty then [] else [d]
  | none => users

/-- Whether no two spans of a list overlap. -/
def apart : List (Nat × Nat) → Bool
  | [] => true
  | m :: ms => (ms.all fun n => decide (m.1 + m.2 ≤ n.1) || decide (n.1 + n.2 ≤ m.1)) && apart ms

/-- Whether the mirage buffer table is well formed (R109). -/
def State.mirageOk (s : State) (channels : List Channel) (raw : List Bytes) : Bool :=
  let ms := raw.map fun b => (fieldAt b 0 8, fieldAt b 8 4)
  let counted := (ms.zipIdx).flatMap fun m => mirageDies channels m.2 m.1
  (raw.all fun b => fieldAt b 12 4 == 0) &&
    (ms.all fun m => m.1 % 64 == 0 && decide (4096 ≤ m.2) && decide (m.2 ≤ 0x400000) &&
      ((tileOf m.1 m.2).isSome || s.inWindow m.1 m.2)) &&
    apart ms && (counted.all fun d => decide ((counted.filter (· == d)).length ≤ 32))

/-- The image at an address: the reason it is rejected for, in the order of R84, or the image. -/
def State.readImage (s : State) (base : Nat) : Nat ⊕ Image :=
  let h := s.bytes base 256
  let segments := fieldAt h 8 4
  let nchan := fieldAt h 14 2
  let nstream := fieldAt h 16 2
  let nmirage := fieldAt h 18 2
  let table (off n k : Nat) : List Bytes := (List.range n).map fun i => s.bytes (base + fieldAt h off 8 + k * i) k
  let zero (off n : Nat) : Bool := fieldAt h off n == 0
  if fieldAt h 0 4 ≠ 0x534B424F ∨ fieldAt h 4 2 ≠ 1 ∨ !(zero 6 2 && zero 20 4 && zero 80 172) ∨ segments = 0 ∨
      segments > 0x1000000 then .inl 1
  else if !crcHolds 256 h then .inl 2
  else if fieldAt h 12 2 ≠ s.get F.TCK_PERIOD.PERIOD_US then .inl 3
  else if (h.drop 48).take 32 ≠ s.capsDigest then .inl 4
  else if nstream = 0 ∨ nstream > 1040 then .inl 5
  else
    let dir := table 32 nstream 16
    if !(dir.all streamOk) || !noRepeat (dir.map fun b => fieldAt b 0 2) then .inl 5
    else if nchan > 4096 then .inl 6
    else
      let rawMirage := table 40 (min nmirage 2048) 16
      let mirage := rawMirage.map fun b => (fieldAt b 0 8, fieldAt b 8 4)
      let chans := table 24 nchan 32
      if !(chans.all fun b => s.channelOk (if nmirage > 2048 then [] else mirage) b || (nmirage > 2048 && bit (fieldAt b 6 1) 0)) then .inl 6
      else if nmirage > 2048 || !s.mirageOk (chans.map channelOf) rawMirage then .inl 7
      else .inr { base := base, segments := segments, channels := chans.map channelOf, streams := dir.map streamOf
                  mirage := mirage }

/-- The image SCH_IMAGE_BASE names is taken up, or rejected and the one held before stays (R84). -/
def State.takeUp (s : State) : State :=
  let s := s.onSched fun c => { c with newImage := false }
  match s.readImage (s.get F.SCH_IMAGE_BASE.BASE <<< 8) with
  | .inl r => (s.put F.SCH_IMAGE_ERROR.REASON r).flag F.SCH_EVENTS.IMAGE_REJECT
  | .inr i => s.onSched fun c => { c with image := some i }

/-! ### Entries -/

/-- A control word (R87). -/
structure Ctrl where
  opclass : Nat
  nin     : Nat
  nout    : Nat
  ahead   : Bool
  ext     : Nat
  chans   : List Nat
deriving DecidableEq, Repr

/-- A control word read from its 64 bits. -/
def ctrlOf (w : Nat) : Ctrl :=
  { opclass := bits w 56 8, nin := bits w 54 2, nout := bits w 52 2, ahead := bit w 51, ext := bits w 48 3
    chans := [bits w 0 12, bits w 12 12, bits w 24 12, bits w 36 12] }

/-- The input channels a control word names. -/
def Ctrl.ins (c : Ctrl) : List Nat := c.chans.take c.nin
/-- The output channels a control word names. -/
def Ctrl.outs (c : Ctrl) : List Nat := (c.chans.drop c.nin).take c.nout

/-- The stream of a unit in the accepted image. -/
def State.streamOfUnit (s : State) (u : Nat) : Option Stream := s.streams.find? fun t => t.unit == u

/-- The address of entry `i` of a stream. -/
def State.entryAddr (s : State) (t : Stream) (i : Nat) : Nat :=
  (match s.sched.image with | none => 0 | some m => m.base) + t.offset + 32 * i

/-- The control word of entry `i` of a stream. -/
def State.ctrlAt (s : State) (t : Stream) (i : Nat) : Ctrl := ctrlOf (s.load (s.entryAddr t i) 8)

/-- The segment number of a marker (R87). -/
def State.markerAt (s : State) (t : Stream) (i : Nat) : Nat := s.load (s.entryAddr t i + 16) 4

/-- The payload of the operation at entry `i` (R87). -/
def State.payloadAt (s : State) (t : Stream) (i ext : Nat) : Bytes := s.bytes (s.entryAddr t i + 8) (24 + 32 * ext)

/-- A channel of the accepted image. -/
def State.chan (s : State) (c : Nat) : Option Channel :=
  match s.sched.image with | none => none | some i => i.channels[c]?

/-- R88: whether a control word of a unit's stream is malformed in itself. -/
def Ctrl.malformed (c : Ctrl) : Bool := decide (0x81 < c.opclass) || c.nout == 3 || decide (3 < c.ext) || decide (4 < c.nin + c.nout)

/-- R88: whether an operation's channel references name channels of which the unit is the consumer and the producer. -/
def State.refsOk (s : State) (u : Nat) (c : Ctrl) : Bool :=
  (c.ins.all fun n => match s.chan n with | some x => x.consumer == u | none => false) &&
    (c.outs.all fun n => match s.chan n with | some x => x.producer == u | none => false)

/-- R88: whether the entry at a place of a unit's stream fails a check. `next` is the marker number that is due. -/
def State.entryBad (s : State) (u : Nat) (t : Stream) (i next : Nat) : Bool :=
  let c := s.ctrlAt t i
  c.malformed ||
    (if c.opclass = 0x80 then s.markerAt t i != next || decide (s.segments ≤ next)
     else if c.opclass = 0x81 then false
     else decide (t.entries < i + 1 + c.ext) || !s.refsOk u c)

/-- The operations of a stream in order, each with its entry, its segment and its control word; a walk of at most `fuel`
entries from entry `i` in segment `seg` (segments count from 1 here, 0 before the first marker). -/
def State.opsFrom (s : State) (t : Stream) : Nat → Nat → Nat → List (Nat × Nat × Ctrl)
  | 0, _, _ => []
  | fuel + 1, i, seg =>
    if t.entries ≤ i then []
    else
      let c := s.ctrlAt t i
      if c.malformed then []
      else if c.opclass = 0x80 then s.opsFrom t fuel (i + 1 + c.ext) (seg + 1)
      else if c.opclass = 0x81 then s.opsFrom t fuel (i + 1 + c.ext) seg
      else (i, seg - 1, c) :: s.opsFrom t fuel (i + 1 + c.ext) seg

/-- All operations of a stream. -/
def State.opsOf (s : State) (t : Stream) : List (Nat × Nat × Ctrl) := s.opsFrom t t.entries 0 0

/-- How many operations of a stream before an entry name a channel as an input or as an output: the k of R645. -/
def State.useNo (s : State) (t : Stream) (entry ch : Nat) (out : Bool) : Nat :=
  ((s.opsOf t).filter fun o => decide (o.1 < entry) && (if out then o.2.2.outs else o.2.2.ins).contains ch).length

end Sys2Proof.Machine
end

