-- ==== Sys2Proof/Machine/Bdi.lean ====
section
/-! DEFINITION. The Badjailo Die Interface (R514 to R536): training and repair, descriptors, flits, replay, credits, messages
and their way across the panel (R36 to R41), TICK flits. -/

namespace Sys2Proof.Machine

/-! ### Descriptors -/

/-- What every descriptor shows (R531, R517, R533): its CRC, MAGIC, VERSION major 1 and the rate of 16 Gb/s. -/
def descriptorSound (d : Bytes) : Bool :=
  crcHolds 256 d && fieldAt d 0 4 == 0x53504143 && fieldAt d 5 1 == 1 && bit (fieldAt d 15 1) 2

/-- Whether all bits of a mask are set. -/
def hasBits (x mask : Nat) : Bool := x &&& mask == mask

/-- The mandatory set of a compute stack (R533). -/
def stackMeets (d : Bytes) : Bool :=
  descriptorSound d && hasBits (fieldAt d 7 1) 0x39 && fieldAt d 16 1 == 4 && fieldAt d 18 1 == 1 && fieldAt d 23 1 == 16 &&
    hasBits (fieldAt d 17 1) 0x1F && hasBits (fieldAt d 19 1) 3 && fieldAt d 20 2 % 1024 == 0 && decide (1024 ≤ fieldAt d 20 2) &&
    decide (fieldAt d 20 2 ≤ 4096) && decide (16384 ≤ fieldAt d 24 4) && fieldAt d 28 4 == 49152 && fieldAt d 32 1 == 16 &&
    fieldAt d 33 1 == 1

/-- The check that an end makes of its peer's descriptor (R518, R533). -/
def peerMeets (d : Bytes) : Bool := if fieldAt d 6 1 = 0 then stackMeets d else descriptorSound d

/-! ### Flits -/

/-- A BDI flit (R519). -/
structure BFlit where
  seq   : Nat := 0
  ack   : Nat := 0
  nak   : Bool := false
  chan  : Nat
  head  : Bool := false
  more  : Nat := 0
  cchan : Nat := 0
  count : Nat := 0
  csub  : Nat := 0
  data  : Bytes := zeros 54
deriving DecidableEq, Repr

/-- Bytes [59:0] of a flit. -/
def BFlit.body (f : BFlit) : Bytes :=
  toLE 6 (f.seq % 1024 + (f.ack % 1024) <<< 10 + b2n f.nak <<< 20 + f.chan <<< 21 + b2n f.head <<< 24 + f.more <<< 25 +
    f.cchan <<< 28 + f.count <<< 31 + f.csub <<< 39) ++ f.data

/-- The 64 bytes of a flit. -/
def BFlit.bytes (f : BFlit) : Bytes := withCrc f.body

/-- A flit read from its bytes. -/
def BFlit.ofBytes (b : Bytes) : BFlit :=
  let h := fieldAt b 0 6
  { seq := bits h 0 10, ack := bits h 10 10, nak := bit h 20, chan := bits h 21 3, head := bit h 24, more := bits h 25 3
    cchan := bits h 28 3, count := bits h 31 8, csub := bits h 39 3, data := (b.drop 6).take 54 }

/-- The flits of a message on a channel (R527). -/
def messageFlits (chan : Nat) (msg : Bytes) : List BFlit :=
  let n := max 1 ((msg.length + 53) / 54)
  (List.range n).map fun i =>
    let d := (msg.drop (54 * i)).take 54
    { chan := chan, head := i == 0, more := n - 1 - i, data := d ++ zeros (54 - d.length) }

/-! ### Links -/

/-- The state of a link end. -/
def State.bdiLink (s : State) (die link : Nat) : BdiLink := (lookupKey (die, link) s.bdi.links).getD {}

/-- Change the state of a link end. -/
def State.onLinkEnd (s : State) (die link : Nat) (f : BdiLink → BdiLink) : State :=
  s.onBdi fun b => { b with links := setKey (die, link) (f ((lookupKey (die, link) b.links).getD {})) b.links }

/-- Link states of BDI_STATUS (R536). -/
def bdiDown : Nat := 0
def bdiTrainingState : Nat := 1
def bdiCaps : Nat := 2
def bdiUp : Nat := 3

/-- Whether a link is UP. -/
def State.linkUp (s : State) (die link : Nat) : Bool := s.get F.BDI_STATUS.STATE die link == bdiUp

/-- The peer link of the host dies (R23). -/
def isPeerLink (die link : Nat) : Bool := isHost die && link == 2

/-- The credits that a sender holds after training: the buffer of the receiving end (R525). -/
def fullCredits (peer : Bool) : List (Nat × Nat) :=
  [(0, if peer then 256 else 448), (16, 8), (24, 8), (32, 16), (40, 32)] ++
    (if peer then (List.range 6).map fun c => (8 + c, 32) else [])

/-- Credits held for a channel; COH has one count for each class. -/
def BdiLink.credit (l : BdiLink) (chan sub : Nat) : Nat := (lookupKey (chan * 8 + sub) l.credits).getD 0

/-- A control flit (R520): idle, with ACK, NAK and a credit return. -/
def State.sendControl (s : State) (die link : Nat) (nak : Bool) (cchan count : Nat) : State :=
  let ack := ((s.bdiLink die link).rxSeq + 1023) % 1024
  s.emit (.bdiFlit die link { chan := 7, ack := ack, nak := nak, cchan := cchan, count := count : BFlit }.bytes)

/-- The first waiting flit of a channel that holds a credit. -/
def BdiLink.ready (l : BdiLink) (chan : Nat) : Option Bytes :=
  if l.credit chan 0 = 0 then none else l.queue.find? fun b => (BFlit.ofBytes b).chan == chan

/-- What the next slot takes (R526): SYN, CFG, COH, DBG when it has waited 1,024 slots, MEM and INT in turn, DBG. -/
def BdiLink.nextFlit (l : BdiLink) : Option Bytes :=
  let late := if 1024 ≤ l.dbgWait then l.ready 3 else none
  let first := if l.turn = 0 then 2 else 0
  (((((l.ready 5).or (l.ready 4)).or (l.ready 1)).or late).or ((l.ready first).or (l.ready (2 - first)))).or (l.ready 3)

/-- One slot: the next flit takes its number, is kept in the replay buffer and goes (R521, R525, R526). -/
def State.sendSlot (s : State) (die link : Nat) : Option State :=
  let l := s.bdiLink die link
  if !s.linkUp die link || decide (512 ≤ l.replayBuf.length) then none
  else match l.nextFlit with
    | none => none
    | some b =>
      let f := BFlit.ofBytes b
      let sent := { f with seq := l.txSeq, ack := (l.rxSeq + 1023) % 1024 }.bytes
      let queue := removeFirst (· == b) l.queue
      let s := s.onLinkEnd die link fun l =>
        { l with txSeq := (l.txSeq + 1) % 1024, replayBuf := l.replayBuf ++ [sent], queue := queue
                 credits := setKey (f.chan * 8) (l.credit f.chan 0 - 1) l.credits
                 turn := if f.chan = 0 ∨ f.chan = 2 then f.chan else l.turn
                 dbgWait := if f.chan != 3 && queue.any (fun q => (BFlit.ofBytes q).chan == 3) then l.dbgWait + 1 else 0 }
      some (s.emit (.bdiFlit die link sent))

/-- Flits go while they can. -/
def State.drainLink : Nat → State → (die link : Nat) → State
  | 0, s, _, _ => s
  | n + 1, s, die, link =>
    match s.sendSlot die link with
    | none => s
    | some s => State.drainLink n s die link

/-- A link sends what it can. -/
def State.drainBdi (s : State) (die link : Nat) : State := State.drainLink (s.bdiLink die link).queue.length s die link

/-- A message is given to a link. -/
def State.sendMessage (s : State) (die link chan : Nat) (msg : Bytes) : State :=
  (s.onLinkEnd die link fun l => { l with queue := l.queue ++ (messageFlits chan msg).map BFlit.bytes }).drainBdi die link

/-! ### Leaving UP, going DOWN -/

/-- A record of cause 10 of a link (R540). -/
def State.linkRecord (s : State) (die link : Nat) : State := s.faultOf (bdiUnit die link) 10 id

/-- A link leaves UP for TRAINING with its state kept (R522, R523). -/
def State.linkRetrain (s : State) (die link : Nat) : State :=
  if s.linkUp die link then
    let s := (s.put F.BDI_STATUS.STATE bdiTrainingState die link).flag F.BDI_EVENTS.RETRAIN die link
    (s.onLinkEnd die link fun l => { l with held := true, replays := 0, replayed := 1024 }).linkRecord die link
  else s

/-- A message whose opcode is a request (R528). -/
def isRequest (chan op : Nat) : Bool := (chan == 0 && decide (1 ≤ op) && decide (op ≤ 4)) || (chan == 4 && (op == 1 || op == 2))

/-- A request that a router cannot pass on completes with an error status (R524). -/
def State.refuseMessage (s : State) (chan : Nat) (msg : Bytes) : State :=
  if isRequest chan (fieldAt msg 0 1) then s.emit (.response (s.originator (fieldAt msg 2 2)) (fieldAt msg 8 8) 1 []) else s

/-- The held flits of a link are discarded: the requests among them end with an error status (R523, R524). -/
def State.discardLink (s : State) (die link : Nat) : State :=
  let heads := ((s.bdiLink die link).replayBuf ++ (s.bdiLink die link).queue).filter fun b => (BFlit.ofBytes b).head
  let s := heads.foldl (fun s b => s.refuseMessage (BFlit.ofBytes b).chan (BFlit.ofBytes b).data) s
  s.onLinkEnd die link fun l => { delay := l.delay, peer := l.peer }

/-- A link goes DOWN (R518, R523, R549): after a hold its flits are discarded; in service both its dies become fatal. -/
def State.linkDown (s : State) (die link : Nat) (event : Fld) : State :=
  let held := (s.bdiLink die link).held
  let s := (s.put F.BDI_STATUS.STATE bdiDown die link).flag event die link
  if held then
    let s := ((s.discardLink die link).flag F.BDI_EVENTS.HOLD_EXPIRED die link).linkRecord die link
    if s.power.mode = .starting then s
    else
      let s := s.makeFatal die 3
      match s.bdiPeer die link with
      | some (d, _) => s.makeFatal d 3
      | none => s
  else s

/-! ### The way of a message -/

/-- The site where a message for a die lies nearest to a site. -/
def State.wayLength (s : State) (site d : Nat) : Nat := minList 1000 ((s.sitesOf d).map (siteHops site))

/-- The link by which a message leaves a die for another (R36 to R41). -/
def State.nextLink (s : State) (die dest chan : Nat) : Option Nat :=
  if isCompute die then s.hopToDie (s.siteOf die) dest
  else if isHost die ∧ isHost dest ∧ chan = 1 then some 2
  else if isFabric die ∧ isFabric dest then some (ringHop die dest)
  else
    let ways := sortBy (fun p : (Nat × Nat) × Nat => p.1.1) (attached die).zipIdx
    (ways.foldl (fun best p =>
      match best with
      | none => some p
      | some q => if s.wayLength p.1.1 dest < s.wayLength q.1.1 dest then some p else some q) none).map (·.2)

/-- Whether a channel defines an opcode (R528). -/
def opcodeKnown (chan op : Nat) : Bool :=
  match chan with
  | 0 => [1, 2, 3, 4, 5, 0x81, 0x82].contains op
  | 1 => true
  | 2 => op == 1
  | 3 => op == 1 || op == 2
  | 4 => [1, 2, 0x81, 0x82, 0x10].contains op
  | 5 => decide (1 ≤ op) && decide (op ≤ 7)
  | _ => false

/-- A whole message at a die (R524, R528, R529): discarded, delivered, or passed on. -/
def State.routeMessage (s : State) (die link chan : Nat) (msg : Bytes) : State :=
  let dest := fieldAt msg 1 1 % 128
  if !opcodeKnown chan (fieldAt msg 0 1) then s.flag F.BDI_EVENTS.CHAN_DISCARD die link
  else if dest = die then s.emit (.message die chan msg)
  else match s.nextLink die dest chan with
    | none => s.refuseMessage chan msg
    | some out =>
      if s.get F.BDI_STATUS.STATE die out = bdiDown then (s.refuseMessage chan msg).linkRecord die out
      else s.sendMessage die out chan msg

/-! ### Reception -/

/-- Every flit of the replay buffer goes again, in order. -/
def State.resendBdi (s : State) (die link : Nat) : State :=
  (s.bdiLink die link).replayBuf.foldl (fun s b => s.emit (.bdiFlit die link b)) s

/-- The sequence number of a flit. -/
def bdiSeq (b : Bytes) : Nat := (BFlit.ofBytes b).seq

/-- An ACK covers the retained flits up to its number, if it names one of them (R521). -/
def State.bdiAck (s : State) (die link ack : Nat) : State :=
  match (s.bdiLink die link).replayBuf.findIdx? fun b => bdiSeq b == ack with
  | none => s
  | some i => s.onLinkEnd die link fun l =>
      { l with replayBuf := l.replayBuf.drop (i + 1), txAck := ack, replays := 0, replayed := 1024 }

/-- A NAK: every retained flit is sent again and one replay counted; the fourth of one SEQ takes the link out of UP (R521,
R522). -/
def State.bdiNak (s : State) (die link : Nat) : State :=
  match (s.bdiLink die link).replayBuf with
  | [] => s
  | b :: _ =>
    let s := s.bump F.BDI_COUNTS.REPLAYS 1 die link
    let s := s.onLinkEnd die link fun l =>
      { l with replayed := bdiSeq b, replays := if l.replayed = bdiSeq b then l.replays + 1 else 1 }
    if 4 ≤ (s.bdiLink die link).replays then s.linkRetrain die link else s.resendBdi die link

/-- A flit is not accepted (R521). -/
def State.bdiReject (s : State) (die link : Nat) (again : Bool) : State :=
  if (s.bdiLink die link).nakSent && !again then s
  else (s.onLinkEnd die link fun l => { l with nakSent := true }).sendControl die link true 0 0

/-- A flit fails its CRC: counted; more than 256 in one tick window take the link out of UP (R521, R522). -/
def State.bdiCrcFail (s : State) (die link : Nat) : State :=
  let s := ((s.bump F.BDI_COUNTS.CRC_FAILS 1 die link).flag F.BDI_EVENTS.CRC_FAIL die link).onLinkEnd die link fun l =>
    { l with crcWindow := l.crcWindow + 1 }
  if 256 < (s.bdiLink die link).crcWindow then s.linkRetrain die link else s

/-- Credits come back (R525). -/
def State.bdiCredits (s : State) (die link : Nat) (f : BFlit) : State :=
  if f.count = 0 then s
  else
    let key := f.cchan * 8 + (if f.cchan = 1 then f.csub else 0)
    let most := (lookupKey key (fullCredits (isPeerLink die link))).getD 0
    s.onLinkEnd die link fun l => { l with credits := setKey key (min most ((lookupKey key l.credits).getD 0 + f.count)) l.credits }

/-- The flits of a channel that stand in the input buffer. -/
def BdiLink.onChan (l : BdiLink) (chan : Nat) : List Bytes := l.rx.filter fun b => (BFlit.ofBytes b).chan == chan

/-- An accepted flit joins its message; the last one completes it, and its flits leave the buffer (R525, R527, R529). A flit
of a channel that the link does not carry is discarded. -/
def State.bdiAccept (s : State) (die link : Nat) (b : Bytes) : State :=
  let f := BFlit.ofBytes b
  let s := s.onLinkEnd die link fun l => { l with rxSeq := (f.seq + 1) % 1024, nakSent := false }
  let begun := !((s.bdiLink die link).onChan f.chan).isEmpty
  if f.chan = 6 ∨ (f.chan = 1 ∧ isPeerLink die link = false) ∨ f.head = begun then
    (s.flag F.BDI_EVENTS.CHAN_DISCARD die link).sendControl die link false f.chan 1
  else
    let s := s.onLinkEnd die link fun l => { l with rx := l.rx ++ [b] }
    if f.more ≠ 0 then s.sendControl die link false 0 0
    else
      let flits := (s.bdiLink die link).onChan f.chan
      let msg := flits.flatMap fun b => (BFlit.ofBytes b).data
      let s := s.onLinkEnd die link fun l => { l with rx := l.rx.filter fun b => (BFlit.ofBytes b).chan != f.chan }
      (s.sendControl die link false f.chan flits.length).routeMessage die link f.chan msg

/-- A flit arrives (R520, R521, R529). -/
def State.bdiReceive (s : State) (die link : Nat) (b : Bytes) : State :=
  if !s.linkUp die link then s
  else if !crcHolds 64 b then
    (let s := s.bdiCrcFail die link; if s.linkUp die link then s.bdiReject die link true else s)
  else
    let f := BFlit.ofBytes b
    let s := (s.bdiAck die link f.ack).bdiCredits die link f
    let s := if f.nak then s.bdiNak die link else s
    if !s.linkUp die link then s
    else if f.chan = 7 then
      (if fieldAt f.data 0 1 = 3 then s.linkRetrain die link else s.drainBdi die link)
    else if f.seq ≠ (s.bdiLink die link).rxSeq then (s.bdiReject die link false).drainBdi die link
    else (s.bdiAccept die link b).drainBdi die link

/-! ### Training -/

/-- The failed wires of a cluster. -/
def BdiFacts.wires (x : BdiFacts) (c : Nat) : List Nat :=
  (x.failed.filter fun p => p.1 == c).foldl (fun ws p => insertNat p.2 ws) []

/-- Whether training fails (R516, R517): a cluster with more than 4 failed wires, or a failed clock or valid wire, or a rate
other than 16 Gb/s. -/
def BdiFacts.fails (x : BdiFacts) : Bool :=
  x.rate != 16 || !x.dead.isEmpty || (List.range 16).any fun c => decide (4 < (x.wires c).length)

/-- A BDI_REPAIR entry (R516, R536): the failed wires, lowest first, 127 for none. -/
def repairWord (ws : List Nat) : Nat :=
  let at_ (i : Nat) : Nat := (ws[i]?).getD 127
  ws.length <<< 28 + at_ 3 <<< 21 + at_ 2 <<< 14 + at_ 1 <<< 7 + at_ 0

/-- The repairs of every cluster are recorded; a wire newly failed in service sets REPAIR (R516, R523). -/
def State.recordRepairs (s : State) (die link : Nat) (x : BdiFacts) : State :=
  (List.range 16).foldl (fun s c =>
    let n := repairWord (x.wires c)
    let old := (s.word .BDI_REPAIR die (link * 16 + c)).toNat
    let s := if (s.bdiLink die link).held ∧ n ≠ old ∧ ¬ (x.wires c).isEmpty = true then s.flag F.BDI_EVENTS.REPAIR die link else s
    s.setWord .BDI_REPAIR (BitVec.ofNat 64 n) die (link * 16 + c)) s

/-- A link is trained (R515 to R518): credits are granted in full, and the descriptors follow. -/
def State.bdiTrained (s : State) (die link : Nat) (x : BdiFacts) : State :=
  if s.linkUp die link || s.unconnected die link then s
  else if x.fails then s.linkDown die link F.BDI_EVENTS.TRAIN_FAIL
  else
    let s := (s.recordRepairs die link x).put F.BDI_STATUS.STATE bdiCaps die link
    s.onLinkEnd die link fun l =>
      { l with delay := x.roundTrip / 2, lastSeq := x.lastSeq, credits := fullCredits (isPeerLink die link), nakSent := false }

/-- The peer's descriptor arrives (R518, R523, R533, R534): the link comes UP on the common subset, with its held flits when
the descriptor is byte-identical to the last one; or it goes DOWN. -/
def State.bdiDescribed (s : State) (die link : Nat) (d : Bytes) : State :=
  if s.get F.BDI_STATUS.STATE die link ≠ bdiCaps then s
  else
    let l := s.bdiLink die link
    let own := s.descriptor die
    let s := s.onLinkEnd die link fun l => { l with seen := d }
    if !peerMeets d then (s.put F.BDI_STATUS.PEER_MEETS 0 die link).linkDown die link F.BDI_EVENTS.CAPS_FAIL
    else
      let resume := l.held && l.peer == d
      let s := if l.held && !resume then (s.discardLink die link).flag F.BDI_EVENTS.HOLD_EXPIRED die link else s
      let s := (s.flag F.BDI_STATUS.PEER_MEETS die link).put F.BDI_STATUS.PROTOCOLS (fieldAt d 7 1 &&& fieldAt own 7 1) die link
      let s := s.put F.BDI_STATUS.VERSION (0x100 + min (fieldAt d 4 1) (fieldAt own 4 1)) die link
      let s := s.put F.BDI_STATUS.STATE bdiUp die link
      let s := s.onLinkEnd die link fun k =>
        { (if resume then k else { k with txSeq := 0, txAck := 1023, rxSeq := 0, replayBuf := [], rx := [] }) with
            held := false, peer := d, credits := fullCredits (isPeerLink die link) }
      if resume then ((s.bdiAck die link l.lastSeq).resendBdi die link).drainBdi die link else s.drainBdi die link

/-- 1 ms without UP (R518). -/
def State.bdiTrainLate (s : State) (die link : Nat) : State :=
  if s.linkUp die link || s.unconnected die link then s else s.linkDown die link F.BDI_EVENTS.TRAIN_FAIL

/-! ### TICK flits -/

/-- A TICK flit (R530): the die's timer marks the tick at the arrival, less the UI it tells and the delay of the link. -/
def State.tickFlit (s : State) (die link : Nat) (b : Bytes) (arrival : Nat) : State :=
  if !crcHolds 64 b then (s.bdiCrcFail die link).flag F.BDI_EVENTS.TICK_MISS die link
  else
    let f := BFlit.ofBytes b
    if f.chan = 7 ∧ fieldAt f.data 0 1 = 1 then
      let ui := fieldAt f.data 1 2
      let t : Int := 2 * (arrival : Int) - (ui : Int) * 125 - 2 * ((s.bdiLink die link).delay : Int)
      s.onTick fun x => { x with dieMarks := setKey die (fieldAt f.data 3 8, t) x.dieMarks }
    else s

end Sys2Proof.Machine
end

