-- ==== Sys2Proof/Machine/Approx.lean ====
section
/-! DEFINITION. The vector functions of R199 and the derivatives of R207 that the spec gives with an error bound only. The
exact result is computed as a fixed-point number of 224 fraction bits; which FP32 value within the bound the hardware
returns is a free choice that depends on the input alone (R200; log entry 12). -/

namespace Sys2Proof.Machine

/-- The fraction bits of the fixed-point numbers. -/
def fixBits : Nat := 224
/-- One, as a fixed-point number. -/
def fixOne : Int := 2 ^ fixBits

/-- A product of fixed-point numbers. -/
def fixMul (a b : Int) : Int := a * b / fixOne
/-- A quotient of fixed-point numbers. -/
def fixDiv (a b : Int) : Int := if b = 0 then 0 else a * fixOne / b

/-- A finite value as a fixed-point number, cut below its last bit. -/
def toFix : Fp → Int
  | .fin n m e =>
    let x := roundMag .rtz m e (-(fixBits : Int))
    if n then -(x : Int) else x
  | _ => 0

/-- A fixed-point number as a value. -/
def ofFix (x : Int) : Fp := .fin (decide (x < 0)) x.natAbs (-(fixBits : Int))

/-- The series z + z^3/3 + z^5/5 + ... from term k on: atanh. -/
def atanhAux : Nat → Int → Int → Nat → Int
  | 0, _, _, _ => 0
  | n + 1, zz, t, k => t / (k : Int) + atanhAux n zz (fixMul t zz) (k + 2)

/-- atanh of a fixed-point number of magnitude at most 1/3. -/
def fixAtanh (z : Int) : Int := atanhAux 80 (fixMul z z) z 1

/-- ln 2. -/
def fixLn2 : Int := 2 * fixAtanh (fixOne / 3)
/-- log2 e. -/
def fixLog2e : Int := fixDiv fixOne fixLn2

/-- The series of the exponential from term k on. -/
def expAux : Nat → Int → Int → Nat → Int
  | 0, _, _, _ => 0
  | n + 1, x, t, k => t + expAux n x (fixMul t x / (k : Int)) (k + 1)

/-- 2^x of a fixed-point x: a fixed-point mantissa in [1, 2] and an exponent. -/
def fixExp2 (x : Int) : Int × Int :=
  let n := x / fixOne
  (expAux 64 (fixMul (x - n * fixOne) fixLn2) fixOne 1, n)

/-- A fixed-point number times 2^n. -/
def fixShift (x n : Int) : Int := if 0 ≤ n then x * 2 ^ n.toNat else if n < -1000 then 0 else x / 2 ^ (-n).toNat

/-- e^x of a fixed-point x ≤ 0. -/
def fixExpNeg (x : Int) : Int := let (m, n) := fixExp2 (fixMul x fixLog2e); fixShift m n

/-- log2 of a positive value. -/
def fixLog2 (m : Nat) (e : Int) : Int :=
  let k := bitLen m
  let u : Int := (m <<< (fixBits + 1 - k) : Nat)
  let u := if bitLen m > fixBits + 1 then fixOne else u
  fixMul (2 * fixAtanh (fixDiv (u - fixOne) (u + fixOne))) fixLog2e + ((k : Int) - 1 + e) * fixOne

/-- tanh of a fixed-point number. -/
def fixTanh (x : Int) : Int :=
  let e := fixExpNeg (-2 * x.natAbs)
  let t := fixDiv (fixOne - e) (fixOne + e)
  if x < 0 then -t else t

/-- 1 + tanh of a fixed-point number, without cancellation. -/
def fixOneTanh (x : Int) : Int :=
  let e := fixExpNeg (-2 * x.natAbs)
  if x < 0 then fixDiv (2 * e) (fixOne + e) else fixDiv (2 * fixOne) (fixOne + e)

/-- sigmoid of a fixed-point number. -/
def fixSigmoid (x : Int) : Int := fixOneTanh (x / 2) / 2

/-- A decimal fraction a / b. -/
def fixRatio (a b : Int) : Int := a * fixOne / b

/-- c of R196: the square root of 2/π. π from Machin's formula: 16 atan(1/5) - 4 atan(1/239). -/
def fixC : Int :=
  let atanInv (n : Int) : Int := atanhAux 80 (-(fixOne / (n * n))) (fixOne / n) 1
  let pi := 16 * atanInv 5 - 4 * atanInv 239
  (isqrt ((fixDiv (2 * fixOne) pi * fixOne).toNat) : Int)

/-- The argument of tanh in GELU: c(x + 0.044715 x^3). -/
def geluArg (x : Int) : Int := fixMul fixC (x + fixMul (fixRatio 44715 1000000) (fixMul x (fixMul x x)))

/-- One unit in the last place of FP32 at an exact result (R199), as a fixed-point number. -/
def ulpOf (y : Int) : Int :=
  let q := fp32.gridExp y.natAbs (-(fixBits : Int))
  fixShift fixOne q

/-- The FP32 value a function returns: the free choice among the FP32 values within `tol` of the exact result; the nearest
value always is one. -/
def chooseNear (fn input : Nat) (y tol : Int) : Nat :=
  let span := (2 * tol + 1).toNat
  let d : Int := ((Config.vectorChoice fn input) % span : Nat) - tol
  let code := (fp32.round .rne false false (ofFix (y + d))).code
  if (toFix (of32 code) - y).natAbs ≤ tol.toNat ∧ (of32 code).isFin then code
  else (fp32.round .rne false false (ofFix y)).code

/-- The choice among the FP32 values within `n` units in the last place, or within 2^-a absolute where that is larger. -/
def chooseUlp (fn input : Nat) (y : Int) (n a : Nat) : Nat :=
  chooseNear fn input y (max (n * ulpOf y) (if a = 0 then 0 else fixOne / 2 ^ a))

/-- A result mantissa * 2^exp that may lie outside the fixed-point range: the choice is made at the mantissa's scale. -/
def chooseScaled (fn input : Nat) (m : Int) (n : Int) : Nat :=
  if -126 ≤ n ∧ n ≤ 126 then
    let code := chooseUlp fn input m 1 0
    match of32 code with
    | .fin s g e => (fp32.round .rne false false (.fin s g (e + n))).code
    | _ => code
  else
    match ofFix m with
    | .fin s g e => (fp32.round .rne false false (.fin s g (e + n))).code
    | _ => fp32.nan

/-- EXP2 (R199). -/
def vExp2 (x : Nat) : Nat :=
  match of32 x with
  | .nan => fp32.nan
  | .inf n => if n then 0 else 0x7F800000
  | v =>
    if !(v.lt (.fin false 128 0)) then 0x7F800000
    else if v.lt (.fin true 160 0) then 0
    else
      let (m, n) := fixExp2 (toFix v)
      if m = fixOne ∧ -126 ≤ n then ((n + 127).toNat) <<< 23 else chooseScaled 2 x m n

/-- LOG2 (R199). -/
def vLog2 (x : Nat) : Nat :=
  match of32 x with
  | .nan => fp32.nan
  | .inf n => if n then fp32.nan else 0x7F800000
  | .fin n m e =>
    if m = 0 then 0xFF800000
    else if n then fp32.nan
    else if x = 0x3F800000 then 0
    else chooseUlp 3 x (fixLog2 m e) 1 29

/-- RECIP (R199): the exact quotient at 64 bits below its leading bit. -/
def vRecip (x : Nat) : Nat :=
  match of32 x with
  | .nan => fp32.nan
  | .inf n => b2n n <<< 31
  | .fin n m e =>
    if m = 0 then (b2n n <<< 31) + 0x7F800000
    else
      -- 1 / (m * 2^e) = (2^k / m) * 2^(-k - e), with the quotient in [1, 2]
      let k := bitLen m - 1
      let y := fixDiv (2 ^ k : Nat) (m : Int)
      (b2n n <<< 31) + chooseScaled 0 (x % 2 ^ 31) y (-(k : Int) - e)

/-- RSQRT (R199). -/
def vRsqrt (x : Nat) : Nat :=
  match of32 x with
  | .nan => fp32.nan
  | .inf n => if n then fp32.nan else 0
  | .fin n m e =>
    if m = 0 then (b2n n <<< 31) + 0x7F800000
    else if n then fp32.nan
    else
      -- m * 2^e = u * 4^h with u in [1, 4); 1/sqrt(u) lies in (1/2, 1]
      let h := ((bitLen m : Int) - 1 + e) / 2
      let u := fixShift ((m : Int) * fixOne) (e - 2 * h)
      let y : Int := (isqrt ((fixDiv fixOne u * fixOne).toNat) : Int)
      chooseScaled 1 x y (-h)

/-- TANH (R199). -/
def vTanh (x : Nat) : Nat :=
  match of32 x with
  | .nan => fp32.nan
  | v =>
    if !(v.abs.lt (.fin false 9542042 (-20))) then (if v.isNeg then 0xBF800000 else 0x3F800000)
    else chooseUlp 4 x (fixTanh (toFix v)) 2 26

/-- SIGMOID (R199). -/
def vSigmoid (x : Nat) : Nat :=
  match of32 x with
  | .nan => fp32.nan
  | v =>
    if !(v.lt (.fin false 17 0)) then 0x3F800000
    else if v.lt (.fin true 11442585 (-17)) then 0
    else chooseUlp 5 x (fixSigmoid (toFix v)) 2 28

/-- GELU (R196, R199). An infinite input gives the limit: x itself, or zero with the sign of the product. -/
def vGelu (x : Nat) : Nat :=
  match of32 x with
  | .nan => fp32.nan
  | .inf n => if n then 0x80000000 else 0x7F800000
  | v => chooseUlp 6 x (fixMul (toFix v) (fixOneTanh (geluArg (toFix v)) / 2)) 4 26

/-- SILU (R196, R199). -/
def vSilu (x : Nat) : Nat :=
  match of32 x with
  | .nan => fp32.nan
  | .inf n => if n then 0x80000000 else 0x7F800000
  | v => chooseUlp 7 x (fixMul (toFix v) (fixSigmoid (toFix v))) 4 26

/-- The derivative of softplus from its output (R207): 1 - exp2(-y log2 e). -/
def dSoftplus (y : Nat) : Nat :=
  match of32 y with
  | .nan => fp32.nan
  | .inf n => if n then 0xFF800000 else 0x3F800000
  | v =>
    if v.lt (.fin true 90 0) then 0xFF800000
    else
      let (m, n) := fixExp2 (-(fixMul (toFix v) fixLog2e))
      chooseUlp 8 y (fixOne - fixShift m n) 2 0

/-- The derivative of the square root from its output (R207): 1 / (2y). -/
def dSqrt (y : Nat) : Nat :=
  match of32 y with
  | .nan => fp32.nan
  | .inf n => b2n n <<< 31
  | .fin n m e =>
    if m = 0 then (b2n n <<< 31) + 0x7F800000
    else
      let k := bitLen m - 1
      let q := fixDiv (2 ^ k : Nat) (m : Int)
      (b2n n <<< 31) + chooseScaled 9 (y % 2 ^ 31) q (-(k : Int) - e - 1)

/-- The derivative of GELU from its input (R207). -/
def dGelu (x : Nat) : Nat :=
  match of32 x with
  | .nan => fp32.nan
  | .inf n => if n then 0 else 0x3F800000
  | v =>
    let x' := toFix v
    let a := geluArg x'
    let e := fixExpNeg (-2 * a.natAbs)
    -- 1 - t^2 = 4e / (1 + e)^2
    let sech := fixDiv (4 * e) (fixMul (fixOne + e) (fixOne + e))
    let d := fixOneTanh a / 2 +
      fixMul (fixMul x' sech / 2) (fixMul fixC (fixOne + fixMul (fixRatio 134145 1000000) (fixMul x' x')))
    chooseUlp 10 x d 4 0

/-- The derivative of SiLU from its input (R207). -/
def dSilu (x : Nat) : Nat :=
  match of32 x with
  | .nan => fp32.nan
  | .inf n => if n then 0 else 0x3F800000
  | v =>
    let x' := toFix v
    let s := fixSigmoid x'
    chooseUlp 11 x (fixMul s (fixOne + fixMul x' (fixSigmoid (-x')))) 4 0

end Sys2Proof.Machine
end

