-- ==== Sys2Proof/Machine/Gen.lean ====
section
/-! DEFINITION. The lane generators of a compute die (R208 to R213): the words of VSE_GEN_STATE, their seeding and one
draw. -/

namespace Sys2Proof.Machine

/-- Rotation of a 32-bit word. -/
def rotl32 (x n : Nat) : Nat := ((x <<< n) % 2 ^ 32) ||| (x >>> (32 - n))

/-- mix of R209. -/
def mix64 (z : Nat) : Nat :=
  let z := ((z ^^^ (z >>> 30)) * 0xBF58476D1CE4E5B9) % 2 ^ 64
  let z := ((z ^^^ (z >>> 27)) * 0x94D049BB133111EB) % 2 ^ 64
  z ^^^ (z >>> 31)

/-- The two words a generator is seeded with (R209): s1 and s0, s3 and s2. -/
def seedWords (seed module die g : Nat) : Nat × Nat :=
  let gamma := 0x9E3779B97F4A7C15
  let c := (module * 64 + die) * 2176 + g
  let w0 := mix64 ((seed + (2 * c + 1) * gamma) % 2 ^ 64)
  let w1 := mix64 ((seed + (2 * c + 2) * gamma) % 2 ^ 64)
  if w0 = 0 ∧ w1 = 0 then (1, 0) else (w0, w1)

/-- The two words of generator `g` of a compute die: as last drawn, written or restored, else as seeded (R209). -/
def State.genWords (s : State) (die g : Nat) : Nat × Nat :=
  let seed := seedWords (s.get F.VSE_GEN_SEED.SEED die) s.moduleNo die g
  (match findWord (Reg.VSE_GEN_STATE.place die (2 * g)) s.regs with | some w => w.toNat | none => seed.1,
   match findWord (Reg.VSE_GEN_STATE.place die (2 * g + 1)) s.regs with | some w => w.toNat | none => seed.2)

/-- The words of a generator set. -/
def State.setGen (s : State) (die g : Nat) (w : Nat × Nat) : State :=
  (s.setWord .VSE_GEN_STATE (BitVec.ofNat 64 w.1) die (2 * g)).setWord .VSE_GEN_STATE (BitVec.ofNat 64 w.2) die (2 * g + 1)

/-- One draw of xoshiro128++ (R208): the value and the words after it. -/
def drawWords (w : Nat × Nat) : Nat × (Nat × Nat) :=
  let s0 := w.1 % 2 ^ 32
  let s1 := w.1 >>> 32
  let s2 := w.2 % 2 ^ 32
  let s3 := w.2 >>> 32
  let r := (rotl32 ((s0 + s3) % 2 ^ 32) 7 + s0) % 2 ^ 32
  let t := (s1 <<< 9) % 2 ^ 32
  let s2 := s2 ^^^ s0
  let s3 := s3 ^^^ s1
  let s1 := s1 ^^^ s2
  let s0 := s0 ^^^ s3
  let s2 := s2 ^^^ t
  let s3 := rotl32 s3 11
  (r, (s0 + s1 <<< 32, s2 + s3 <<< 32))

/-- One draw from generator `g` of a die. -/
def State.draw (s : State) (die g : Nat) : State × Nat :=
  let (r, w) := drawWords (s.genWords die g)
  (s.setGen die g w, r)

/-- Draws from vector-lane generators for elements 0 to n - 1, element e from generator e mod 1,024 (R191, R210). -/
def State.drawVector (s : State) (die n : Nat) : State × List Nat :=
  (List.range n).foldl (fun (p : State × List Nat) e =>
    let (s, r) := p.1.draw die (e % 1024)
    (s, p.2 ++ [r])) (s, [])

end Sys2Proof.Machine
end

