-- ==== Sys2Proof/Machine/Reduce.lean ====
section
/-! DEFINITION. Gradient reduction (R356 to R382): tag entries, the primary and the check route of an element, packets,
delivery, the sample check and the completion of ROPEN and ALLR. -/

namespace Sys2Proof.Machine

/-! ### Positions and nodes -/

/-- The number of trailing zero bits of a position below 2^13. -/
def trailingZeros (p : Nat) : Nat := ((List.range 13).find? fun i => bit p i).getD 13

/-- The position of a rank for a shard (R368). -/
def OpenTag.position (t : OpenTag) (shard rank : Nat) : Nat := (rank + t.n - shard % t.n) % t.n
/-- The module at a position of a shard (R368). -/
def OpenTag.moduleAt (t : OpenTag) (shard p : Nat) : Nat := (t.ranks[(shard + p) % t.n]?).getD 0
/-- The shard of an element (R356). -/
def OpenTag.shardOf (t : OpenTag) (i : Nat) : Nat := if t.allr then 0 else i / t.s
/-- The number of elements (R356). -/
def OpenTag.elements (t : OpenTag) : Nat := t.m * t.s

/-- The levels at which a position performs a node on the primary route (R369). -/
def nodeLevels (n p : Nat) : List Nat :=
  (List.range 13).filter fun l => (p == 0 || l < trailingZeros p) && decide (p + 2 ^ l < n)

/-- Where v[p] of level l goes on the check route in ordered mode: the position that performs its next node, and that
node's level; position 0 after the last node (R375). -/
def checkRoute (n p : Nat) : Nat → Nat → Nat × Nat
  | 0, l => (0, l)
  | k + 1, l =>
    if p % 2 ^ (l + 1) ≠ 0 then (p, l)
    else if p + 2 ^ l < n then (p + 2 ^ l, l)
    else if n ≤ 2 ^ l then (0, l)
    else checkRoute n p k (l + 1)

/-- The size of the leaf group of a position (R370). -/
def groupSize (n p : Nat) : Nat := min 64 (n - p / 64 * 64)
/-- The check leader of a position's leaf group (R375). -/
def checkLeader (n p : Nat) : Nat := p / 64 * 64 + (if 32 < groupSize n p then 32 else groupSize n p - 1)
/-- The check root in adaptive mode (R375). -/
def checkRoot (n : Nat) : Nat := if 32 < n then 32 else n - 1
/-- The number of leaf groups. -/
def groupCount (n : Nat) : Nat := (n + 63) / 64

/-- The operation of a tag: add_fp32, or the maximum of R198 for an ALLR with FUNC 1 (R380). -/
def OpenTag.combine (t : OpenTag) (a b : Nat) : Nat :=
  if t.allr && t.func == 1 then (fp32.round .rne false false ((of32 a).max (of32 b))).code else add32 a b

/-- The values combined in order. -/
def OpenTag.fold (t : OpenTag) : List Nat → Nat
  | [] => 0
  | v :: vs => vs.foldl t.combine v

/-- Whether an element is sampled (R374). -/
def OpenTag.sampled (t : OpenTag) (i : Nat) : Bool :=
  t.check && !t.allr && !t.mirrorRx && decide (1 < t.n) &&
    (i + mix64 (t.step * 65536 + t.tag) % 2 ^ 32) % 2 ^ t.rate == 0

/-- Sampled elements below `x` (R374). -/
def OpenTag.sampledBelow (t : OpenTag) (x : Nat) : Nat :=
  let h := mix64 (t.step * 65536 + t.tag) % 2 ^ 32
  let r := 2 ^ t.rate
  (x + h + r - 1) / r - (h + r - 1) / r

/-- Something a position sends: the kind and level of R364, the position it goes to, element, value and magnitude. -/
structure RedSend where
  kind  : Nat
  level : Nat
  shard : Nat
  pos   : Nat
  elem  : Nat
  val   : Nat
  mag   : Nat := 0

/-- What a tag has to do outside itself: its sends, additions performed, results found here, check results found here. -/
structure RedWork where
  t       : OpenTag
  sends   : List RedSend := []
  adds    : Nat := 0
  results : List (Nat × Nat) := []
  checks  : List RedPart := []

/-- A value enters the check route at a position (R375): it is kept for the node this position performs or sent on. -/
def RedWork.checkTo (w : RedWork) (i me pos level val mag : Nat) : RedWork :=
  if pos = me then { w with t := { w.t with checks := w.t.checks ++ [⟨i, level, me, val, mag⟩] } }
  else { w with sends := w.sends ++ [{ kind := 1, level := level, shard := w.t.shardOf i, pos := pos, elem := i, val := val, mag := mag }] }

/-- The check node of an element at this position, if its operands are all here (R375). -/
def RedWork.checkNode (w : RedWork) (i : Nat) : RedWork :=
  let t := w.t
  let me := t.position (t.shardOf i) t.me
  let here := t.checks.filter fun c => c.elem == i
  if t.ordered then
    if me = 0 then w
    else
      let l := trailingZeros me
      match here.find? fun c => c.src < me, here.find? fun c => me ≤ c.src with
      | some a, some b =>
        let (to_, l') := checkRoute t.n (me - 2 ^ l) 14 (l + 1)
        { w with t := { t with checks := t.checks.filter (fun c => c.elem != i), checked := t.checked + 1 } }.checkTo
          i me to_ l' (add32 a.val b.val) (add32 a.mag b.mag)
      | _, _ => w
  else
    let leaf := here.filter fun c => c.level == 0
    let w := if me = checkLeader t.n me ∧ leaf.length = groupSize t.n me then
        { w with t := { t with checks := t.checks.filter (fun c => !(c.elem == i && c.level == 0)), checked := t.checked + 1 } }.checkTo
          i me (checkRoot t.n) 1 (t.fold (leaf.map fun c : RedPart => c.val)) (t.fold (leaf.map fun c : RedPart => c.mag))
      else w
    let t := w.t
    let tops := t.checks.filter fun c => c.elem == i && c.level == 1
    if me = checkRoot t.n ∧ tops.length = groupCount t.n then
      let w := { w with t := { t with checks := t.checks.filter (fun c => c.elem != i), checked := t.checked + 1 } }
      let val := t.fold (tops.map (·.val))
      let mag := t.fold (tops.map (·.mag))
      if me = 0 then { w with checks := w.checks ++ [⟨i, 2, 0, val, mag⟩] }
      else w.checkTo i me 0 2 val mag
    else w

/-- The primary part of an element at this position, if its operands are all here (R369, R370). -/
def RedWork.primaryNode (w : RedWork) (i : Nat) : RedWork :=
  let t := w.t
  let shard := t.shardOf i
  let me := t.position shard t.me
  if t.ordered then
    let levels := nodeLevels t.n me
    let ops := levels.filterMap fun l => t.parts.find? fun p => p.elem == i && p.level == l
    match lookupKey i t.own with
    | none => w
    | some v =>
      if ops.length < levels.length then w
      else
        let sum := t.fold (v :: ops.map (·.val))
        let w := { w with
          t := { t with own := dropKey i t.own, parts := t.parts.filter (fun p => p.elem != i), roles := t.roles + 1 }
          adds := w.adds + levels.length }
        if me = 0 then { w with results := w.results ++ [(i, sum)] }
        else
          let l := trailingZeros me
          { w with sends := w.sends ++ [{ kind := 0, level := l, shard := shard, pos := me - 2 ^ l, elem := i, val := sum }] }
  else
    let lead := me / 64 * 64
    if me ≠ lead then
      (match lookupKey i t.own with
       | none => w
       | some v => { w with
           t := { t with own := dropKey i t.own, roles := t.roles + 1 }
           sends := w.sends ++ [{ kind := 0, level := 0, shard := shard, pos := lead, elem := i, val := v }] })
    else
      let leaf := t.parts.filter fun p => p.elem == i && p.level == 0
      let w :=
        if leaf.length = groupSize t.n me then
          let sum := t.fold (leaf.map (·.val))
          let t' := { t with parts := t.parts.filter (fun p => !(p.elem == i && p.level == 0)) }
          if me = 0 then
            { w with t := { t' with parts := t'.parts ++ [⟨i, 1, 0, sum, 0⟩] }, adds := w.adds + (leaf.length - 1) }
          else { w with
            t := { t' with roles := t'.roles + 1 }, adds := w.adds + (leaf.length - 1)
            sends := w.sends ++ [{ kind := 0, level := 1, shard := shard, pos := 0, elem := i, val := sum }] }
        else w
      let t := w.t
      let tops := t.parts.filter fun p => p.elem == i && p.level == 1
      if me = 0 ∧ tops.length = groupCount t.n then
        { w with
          t := { t with parts := t.parts.filter (fun p => p.elem != i), roles := t.roles + 1 }
          adds := w.adds + (tops.length - 1)
          results := w.results ++ [(i, t.fold (tops.map (·.val)))] }
      else w

/-- A contribution of this module to an element (R361, R375). -/
def RedWork.contribute (w : RedWork) (i v : Nat) : RedWork :=
  let t := w.t
  let me := t.position (t.shardOf i) t.me
  let t := { t with given := t.given + 1 }
  let t := if !t.ordered && me % 64 == 0 then { t with parts := t.parts ++ [⟨i, 0, me, v, 0⟩] }
    else { t with own := t.own ++ [(i, v)] }
  let w := RedWork.primaryNode { w with t := t } i
  if w.t.sampled i then
    let mag := v % 2 ^ 31
    let to_ : Nat × Nat := if t.ordered then checkRoute t.n me 14 0 else (checkLeader t.n me, 0)
    (w.checkTo i me to_.1 to_.2 v mag).checkNode i
  else w

/-! ### Packets -/

/-- The 240 bytes of a reduction packet (R364). -/
def redPayload (t : OpenTag) (module kind level offset : Nat) (vals : List (Nat × Nat)) : Bytes :=
  let body := if kind = 1 then vals.flatMap fun v => toLE 4 v.1 ++ toLE 4 v.2 else vals.flatMap fun v => toLE 4 v.1
  toLE 2 t.tag ++ toLE 1 t.round ++ toLE 1 (level + 16 * kind) ++ toLE 4 offset ++ toLE 1 vals.length ++
    toLE 1 (t.group % 256) ++ toLE 2 t.step ++ toLE 2 module ++ zeros 2 ++ body ++ zeros (224 - body.length)

/-- A packet on TC1, injected at the engine's fabric die with the bank in force (R364, R367). -/
def State.redPacket (s : State) (u dest destErg : Nat) (payload : Bytes) : State :=
  let fd := unitDie u
  let p : Packet := { tc := 1, secpath := true, dest := dest, destErg := destErg, bank := s.bankOf fd, src := s.moduleNo
                      srcErg := s.erg, payload := payload }
  s.onVrt fun v => { v with inject := v.inject ++ [(fd, p)] }

/-- Sends grouped into packets: values of one kind, level and destination whose elements follow one another, at most `cap`
to a packet (R364; log entry 13). -/
def groupSends (stride : Nat) : List RedSend → List (List RedSend)
  | [] => []
  | x :: xs =>
    match groupSends stride xs with
    | [] => [[x]]
    | [] :: gs => [x] :: gs
    | (y :: ys) :: gs =>
      let step := if x.kind = 1 then stride else 1
      let cap := if x.kind = 1 then 28 else 56
      if x.kind = y.kind ∧ x.level = y.level ∧ x.shard = y.shard ∧ x.pos = y.pos ∧ y.elem = x.elem + step ∧ ys.length + 1 < cap then
        (x :: y :: ys) :: gs
      else [x] :: (y :: ys) :: gs

/-- The sends of a tag leave as packets. -/
def State.redSends (s : State) (t : OpenTag) (sends : List RedSend) : State :=
  (groupSends (2 ^ t.rate) sends).foldl (fun s g =>
    match g with
    | [] => s
    | x :: _ => s.redPacket t.engine (t.moduleAt x.shard x.pos) s.erg
        (redPayload t s.moduleNo x.kind x.level x.elem (g.map fun y => (y.val, y.mag)))) s

/-! ### Delivery, compare, completion -/

/-- Change an open tag. -/
def State.onTag (s : State) (u tag : Nat) (f : OpenTag → OpenTag) : State :=
  s.onRdx fun r => { r with tags := updateFirst (fun t => t.engine == u && t.tag == tag) f r.tags }

/-- The tag open on an engine. -/
def State.openTag (s : State) (u tag : Nat) : Option OpenTag :=
  s.rdx.tags.find? fun t => t.engine == u && t.tag == tag

/-- A tag closes. -/
def State.closeTag (s : State) (u tag : Nat) : State :=
  s.onRdx fun r => { r with tags := r.tags.filter fun t => !(t.engine == u && t.tag == tag) }

/-- The engine number of an RDX unit. -/
def engineNo (u : Nat) : Nat := 2 * (unitDie u - 72) + unitInst u
/-- The unit of an engine number. -/
def engineUnit (q : Nat) : Nat := unitId (72 + q / 2) 2 (q % 2)

/-- A bit of an engine's byte of the verdict word is set, by a one-byte write (R377). -/
def State.setVerdict (s : State) (u n : Nat) : State :=
  let a := s.get F.RDX_VERDICT_ADDR.BASE 72 <<< 3 + engineNo u
  (s.writeSpan a [s.byte a ||| BitVec.ofNat 8 (2 ^ n)]).1

/-- What RDX_ERROR adds: the tag. -/
def redMore (u tag : Nat) (s : State) : State := s.put F.RDX_ERROR.TAG tag (unitDie u) (unitInst u)

/-- The operation of an open tag ends with an error status; its tag closes (R361, R382). -/
def State.failTag (s : State) (t : OpenTag) (cause : Nat) (kind : ErrorKind) : State :=
  let s := s.closeTag t.engine t.tag
  match s.findOp t.engine (if t.allr then 0x47 else 0x45) t.payload with
  | some k => s.failOp t.engine k cause kind (redMore t.engine t.tag)
  | none => s

/-- Delivery of a result element to the tag's DEST (R371): FP32 writes one by one, accumulate-writes by whole sectors in
ascending order. The fuel bounds the sectors that one element can complete. -/
def State.deliverSectors (s : State) (u tag : Nat) : Nat → State
  | 0 => s
  | k + 1 =>
    match s.openTag u tag with
    | none => s
    | some t =>
      let offs := (List.range 32).map (· + t.next)
      let vals := offs.filterMap fun o => lookupKey o t.results
      if vals.length < 32 then s
      else
        match s.accumulate (t.dest + 2 * t.next) (2 ^ 32 - 1) vals with
        | (s, false) => s.failTag t 11 (.access (s.fabricAddr (t.dest + 2 * t.next)))
        | (s, true) =>
          (s.onTag u tag fun t =>
            { t with results := t.results.filter (fun r => t.next + 32 ≤ r.1), next := t.next + 32
                     delivered := t.delivered + 32 }).deliverSectors u tag k

/-- A result element of this module's shard is delivered (R371). -/
def State.deliver (s : State) (u tag i v : Nat) : State :=
  match s.openTag u tag with
  | none => s
  | some t =>
    let off := i % t.s
    if t.dkind = 1 then
      match s.writeSpan (t.dest + 4 * off) (toLE 4 v) with
      | (s, true) => s.onTag u tag fun t => { t with delivered := t.delivered + 1 }
      | (s, false) => s.failTag t 11 (.access (s.fabricAddr (t.dest + 4 * off)))
    else (s.onTag u tag fun t => { t with results := t.results ++ [(off, v)] }).deliverSectors u tag (t.results.length + 1)

/-- The compare of a sampled element (R376). -/
def comparePasses (t : OpenTag) (p c a : Nat) : Bool :=
  if t.ordered then p == c
  else if (of32 p).isFin && (of32 c).isFin then
    let d := ((of32 p).add (of32 c).neg).abs
    !((Fp.mul (.fin false (2 * (t.n - 1)) 0) (of32 a)).lt (d.mul (.fin false (2 ^ 24 - (t.n - 1)) 0)))
  else p == c

/-- The first holder compares a sampled element whose sums are both here (R376, R377). -/
def State.compareElement (s : State) (u tag i p c a : Nat) : State :=
  match s.openTag u tag with
  | none => s
  | some t =>
    let d := unitDie u
    let n := unitInst u
    let s := (s.bump F.RDX_SAMPLED.VALUE 1 d n).onTag u tag fun t => { t with compared := t.compared + 1 }
    if comparePasses t p c a then s
    else
      let s := if s.on F.RDX_EVENTS.CHECK_FAIL d n then s
        else
          let s := ((s.flag F.RDX_CHECK_FAIL.VALID d n).put F.RDX_CHECK_FAIL.TAG tag d n).put F.RDX_CHECK_FAIL.ELEMENT i d n
          s.setWord .RDX_CHECK_VALUES (BitVec.ofNat 64 (p <<< 32 + c)) d n
      (s.flag F.RDX_EVENTS.CHECK_FAIL d n).setVerdict u (if t.ordered then 0 else 1)

/-- A check result reaches the first holder (R376, R378). -/
def State.checkArrives (s : State) (u tag : Nat) (c : RedPart) : State :=
  match s.openTag u tag with
  | none => s
  | some t =>
    if t.late.contains c.elem then s.bump F.RDX_LATE.VALUE 1 (unitDie u) (unitInst u)
    else match lookupKey c.elem t.sums with
      | some p =>
        (s.onTag u tag fun t => { t with sums := dropKey c.elem t.sums }).compareElement u tag c.elem p c.val c.mag
      | none => s.onTag u tag fun t => { t with verdicts := t.verdicts ++ [c] }

/-- A primary result is found at the first holder: delivered, sent to the other holders and the mirror, and kept for its
compare (R371 to R373, R376). -/
def State.resultFound (s : State) (u tag i v : Nat) : State :=
  match s.openTag u tag with
  | none => s
  | some t =>
    let shard := t.shardOf i
    let payload := redPayload t s.moduleNo 2 0 i [(v, 0)]
    let others := (List.range t.n).filter fun r => r % t.m == shard && r != shard
    let s := others.foldl (fun s r => s.redPacket u ((t.ranks[r]?).getD 0) s.erg payload) s
    let s := if t.mirror then s.redPacket u s.moduleNo (1 - s.erg) payload else s
    let s := if t.sampled i then
        (match t.verdicts.find? fun c => c.elem == i with
         | some c => (s.onTag u tag fun t => { t with verdicts := t.verdicts.filter fun c => c.elem != i }).compareElement
             u tag i v c.val c.mag
         | none => s.onTag u tag fun t => { t with sums := t.sums ++ [(i, v)] })
      else s
    s.deliver u tag i v

/-- The check nodes that this module performs in a round (R375). -/
def OpenTag.checkTasks (t : OpenTag) : Nat :=
  if t.check && !t.allr && !t.mirrorRx && decide (1 < t.n) then
    (List.range t.m).foldl (fun acc m =>
      let p := t.position m t.me
      let tasks := if t.ordered then (if p = 0 then 0 else 1)
        else b2n (p == checkLeader t.n p) + b2n (p == checkRoot t.n)
      acc + tasks * (t.sampledBelow ((m + 1) * t.s) - t.sampledBelow (m * t.s))) 0
  else 0

/-- Whether every condition of R362 (R373 for a mirror partner) holds. -/
def OpenTag.complete (t : OpenTag) : Bool :=
  if t.mirrorRx then t.delivered == t.s
  else
    let shard := t.me % t.m
    let mine := if t.check && decide (1 < t.n) && t.me == shard then t.sampledBelow ((shard + 1) * t.s) - t.sampledBelow (shard * t.s) else 0
    t.roles == t.elements && t.delivered == t.s && t.checked == t.checkTasks && t.compared == mine

/-- An ROPEN whose conditions all hold completes, and its tag closes (R360, R362). -/
def State.tagProgress (s : State) (u tag : Nat) : State :=
  match s.openTag u tag with
  | none => s
  | some t =>
    if !t.allr && t.complete then
      let s := s.closeTag u tag
      match s.findOp u 0x45 t.payload with
      | some k => s.finishOp u k [] 0
      | none => s
    else s

/-- ALLR: the result of every element stands at position 0, which sends it to every participant (R380). -/
def State.allrResult (s : State) (u tag : Nat) : State :=
  match s.openTag u tag with
  | none => s
  | some t =>
    if t.allr && !t.mirrorRx && t.me == 0 && t.results.length == t.s && t.delivered == 0 then
      let vals := (List.range t.s).map fun i => ((lookupKey i t.results).getD 0, 0)
      let payload := redPayload t s.moduleNo 3 0 0 vals
      let s := ((List.range t.n).drop 1).foldl (fun s r => s.redPacket u ((t.ranks[r]?).getD 0) s.erg payload) s
      let s := if t.mirror then s.redPacket u s.moduleNo (1 - s.erg) payload else s
      s.onTag u tag fun t => { t with delivered := t.s }
    else s

/-- What a tag has found is applied to the state: additions counted, packets sent, results and checks taken up. -/
def State.applyWork (s : State) (w : RedWork) : State :=
  let u := w.t.engine
  let tag := w.t.tag
  let s := (s.onTag u tag fun _ => w.t).bump F.RDX_COUNTS.VALUE w.adds (unitDie u) (unitInst u)
  let s := s.redSends w.t w.sends
  let s := if w.t.allr then s.onTag u tag fun t => { t with results := t.results ++ w.results }
    else w.results.foldl (fun s r => s.resultFound u tag r.1 r.2) s
  let s := w.checks.foldl (fun s c => s.checkArrives u tag c) s
  (s.allrResult u tag).tagProgress u tag

/-- Contributions of this module to an open tag (R361). -/
def State.contribute (s : State) (u tag : Nat) (vals : List (Nat × Nat)) : State :=
  match s.openTag u tag with
  | none => s
  | some t =>
    if (vals.any fun v => t.elements ≤ v.1) || decide (t.elements < t.given + vals.length) || t.mirrorRx then
      s.failTag t 10 .operation
    else s.applyWork (vals.foldl (fun w v => w.contribute v.1 v.2) { t := t })

/-! ### Packet reception -/

/-- The fields of a reduction packet (R364). -/
structure RedHeader where
  tag    : Nat
  round  : Nat
  level  : Nat
  kind   : Nat
  offset : Nat
  count  : Nat
  group  : Nat
  step   : Nat
  source : Nat

def redHeader (b : Bytes) : RedHeader :=
  { tag := fieldAt b 0 2, round := fieldAt b 2 1, level := bits (fieldAt b 3 1) 0 4, kind := bits (fieldAt b 3 1) 4 2
    offset := fieldAt b 4 4, count := fieldAt b 8 1, group := fieldAt b 9 1, step := fieldAt b 10 2
    source := bits (fieldAt b 12 2) 0 12 }

/-- Value j of a packet with its element (R364). -/
def redValue (b : Bytes) (h : RedHeader) (stride j : Nat) : Nat × Nat × Nat :=
  if h.kind = 1 then (h.offset + j * stride, fieldAt b (16 + 8 * j) 4, fieldAt b (20 + 8 * j) 4)
  else (h.offset + j, fieldAt b (16 + 4 * j) 4, 0)

/-- The engine whose tag a packet at an engine belongs to: a check packet arrives at engine (q + 4) mod 8 (R375). -/
def tagEngine (u kind : Nat) : Nat := if kind = 1 then engineUnit ((engineNo u + 4) % 8) else u

/-- A packet whose tag is open with its ROUND is used (R365). -/
def State.usePacket (s : State) (b : Bytes) (u : Nat) : State :=
  let h := redHeader b
  match s.openTag u h.tag with
  | none => s
  | some t =>
    let vals := (List.range h.count).map (redValue b h (2 ^ t.rate))
    match h.kind with
    | 2 => (vals.foldl (fun s v => s.deliver u h.tag v.1 v.2.1) s).tagProgress u h.tag
    | 3 =>
      if t.allr then
        let relay := t.mirror && !t.mirrorRx
        let s := if relay then s.redPacket u s.moduleNo (1 - s.erg) (redPayload t s.moduleNo 3 0 0 (vals.map fun v => (v.2.1, 0)))
          else s
        s.onTag u h.tag fun t => { t with results := vals.map (fun v => (v.1, v.2.1)), delivered := t.s }
      else s
    | k =>
      let rank := (t.ranks.findIdx? (· == h.source)).getD 0
      s.applyWork (vals.foldl (fun w v =>
        let shard := t.shardOf v.1
        let src := t.position shard rank
        if k = 0 then
          RedWork.primaryNode { w with t := { w.t with parts := w.t.parts ++ [⟨v.1, h.level, src, v.2.1, 0⟩] } } v.1
        else if t.position shard t.me = 0 ∧ (t.ordered ∨ h.level = 2) then
          { w with checks := w.checks ++ [⟨v.1, h.level, src, v.2.1, v.2.2⟩] }
        else
          RedWork.checkNode { w with t := { w.t with checks := w.t.checks ++ [⟨v.1, h.level, src, v.2.1, v.2.2⟩] } } v.1)
        { t := t })

/-- The byte GROUP[7:0] of this module's own entry of a tag (R365). -/
def State.ownGroup (s : State) (tag : Nat) : Nat :=
  s.load (s.get F.RDX_TAG_BASE.BASE 72 <<< 3 + 64 * tag + 32) 1

/-- A reduction packet arrives at an engine (R365, R366): stray, used, or held. With the hold buffer full it is not granted
a credit and stays in the fabric. -/
def State.redArrive (s : State) (u : Nat) (b : Bytes) (crcOk : Bool) : State :=
  let h := redHeader b
  let d := unitDie u
  let n := unitInst u
  let eng := tagEngine u h.kind
  if !crcOk || h.step != s.get F.SCH_STEP.STEP % 65536 || h.group != s.ownGroup h.tag then
    (s.bump F.RDX_STRAY.VALUE 1 d n).flag F.RDX_EVENTS.STRAY d n
  else
    let fits : Bool := match s.openTag eng h.tag with | some t => t.round == h.round | none => false
    if fits then s.usePacket b eng
    else
      let held := (s.rdx.hold.filter fun p => p.1 == u).length
      if held < 256 then
        let s := s.onRdx fun r => { r with hold := r.hold ++ [(u, b)] }
        if held = 255 then s.flag F.RDX_EVENTS.HELD_FULL d n else s
      else s

/-- A tag has opened: the packets held for it are used in order (R365). -/
def State.useHeld (s : State) (u tag round : Nat) : State :=
  let mine (p : Nat × Bytes) : Bool :=
    let h := redHeader p.2
    tagEngine p.1 h.kind == u && h.tag == tag && h.round == round
  let now := s.rdx.hold.filter mine
  now.foldl (fun s p => s.usePacket p.2 u) (s.onRdx fun r => { r with hold := r.hold.filter fun p => !mine p })

/-! ### ROPEN, RSEND, ALLR -/

/-- A tag entry and its rank list, read from local memory: the tag, or the cause of an error status in the order of R359. -/
def State.readTag (s : State) (u tag round : Nat) (payload : Bytes) : State × (Nat ⊕ OpenTag) :=
  let a := s.get F.RDX_TAG_BASE.BASE 72 <<< 3 + 64 * tag
  let (s, ok) := s.readSpan a 64
  let e := s.bytes a 64
  let n := fieldAt e 8 2
  let ranksAt := fieldAt e 16 8
  let (s, ok2) := if n = 0 ∨ 4096 < n ∨ ¬ s.backedSpan ranksAt (2 * n) then (s, false) else s.readSpan ranksAt (2 * n)
  let list := s.bytes ranksAt (2 * n)
  let ranks := (List.range n).map fun i => fieldAt list (2 * i) 2
  let flags := fieldAt e 5 1
  let m := fieldAt e 10 2
  let sz := fieldAt e 12 4
  let mirrorRx := bit flags 2
  let seen := (ranks.filter (· == s.moduleNo)).length
  let me := (ranks.findIdx? (· == s.moduleNo)).getD 0
  let t : OpenTag :=
    { engine := u, tag := tag, round := round, payload := payload, ordered := fieldAt e 2 1 == 0, check := bit flags 0
      mirror := bit flags 1, mirrorRx := mirrorRx, rate := fieldAt e 6 1, n := n, m := m, s := sz, dkind := fieldAt e 4 1
      dest := fieldAt e 24 8, group := fieldAt e 32 4, step := s.get F.SCH_STEP.STEP, ranks := ranks, me := me }
  if !ok then (s, .inl 11)
  else if !crcHolds 64 e || fieldAt e 0 2 != tag then (s, .inl 2)
  else if bits (fieldAt e 3 1) 0 3 ≠ engineNo u then (s, .inl 3)
  else if fieldAt e 2 1 = 0 ∧ 256 < n then (s, .inl 4)
  else if m = 0 ∨ n % m ≠ 0 ∨ 2 ^ 32 < m * sz then (s, .inl 5)
  else if !ok2 then (s, .inl 11)
  else if t.group ≠ crc32 list then (s, .inl 6)
  else if seen ≠ 1 ∧ ¬ mirrorRx then (s, .inl 7)
  else (s, .inr t)

/-- Whether the destination of the held shard lies in an accumulate-write region (R359). -/
def State.destInRegion (s : State) (t : OpenTag) : Bool :=
  match s.awRegion t.dest, s.awRegion (t.dest + 2 * t.s - 1) with
  | some a, some b => a == b
  | _, _ => false

/-- Open tags of an engine (R360). -/
def State.openCount (s : State) (u : Nat) : Nat := (s.rdx.tags.filter fun t => t.engine == u).length

/-- Values held in an engine's partial store, against its 4 MiB (R367). -/
def State.storeFree (s : State) (u : Nat) : Bool :=
  decide ((s.rdx.tags.foldl (fun n t => if t.engine = u then n + t.own.length + t.parts.length else n) 0) < 1048576)

/-- ROPEN as an operation of its engine. -/
def ropenTask (u : Nat) (p : BitVec 192) : Task :=
  let tag := pay p 8 2
  let round := pay p 10 1
  let more := redMore u tag
  { unit := u, cls := 0x45, payload := bytesOf p
    check := fun _ => if payZero p 0 8 && payZero p 11 13 then none else some 1
    more := more
    ready := fun s => decide (s.openCount u < 16)
    plan := fun _ => {
      accessCause := 11, more := more
      body := fun s =>
        match s.readTag u tag round (bytesOf p) with
        | (s, .inl 11) => (s, .access 11 (s.fabricAddr (s.get F.RDX_TAG_BASE.BASE 72 <<< 3 + 64 * tag)))
        | (s, .inl c) => (s, .error c)
        | (s, .inr t) =>
          if t.dkind = 0 ∧ ¬ s.destInRegion t then (s, .error 8)
          else if (s.openTag u tag).isSome then (s, .error 9)
          else (s.onRdx fun r => { r with tags := r.tags ++ [t] }, .wait) } }

/-- ROPEN (R359, R360). -/
def State.ropen (s : State) (u : Nat) (p : BitVec 192) : State :=
  let tag := pay p 8 2
  let isOpen := (s.openTag u tag).any fun t => t.payload == bytesOf p && !t.allr
  if isOpen && (s.findOp u 0x45 (bytesOf p)).any (fun k => (s.opAt u k).state == .waiting) then s
  else s.runOp (ropenTask u p)

/-- After an ROPEN: what was held for it is used, and it completes if nothing is left to do. -/
def State.afterOpen (s : State) (u : Nat) (p : BitVec 192) : State :=
  (s.useHeld u (pay p 8 2) (pay p 10 1)).tagProgress u (pay p 8 2)

/-- RSEND (R361): COUNT values from SRC as elements FIRST up; it waits until its tag is open and the store has room. -/
def rsendTask (u : Nat) (p : BitVec 192) : Task :=
  let tag := pay p 8 2
  let first := pay p 12 4
  let count := pay p 16 4
  { unit := u, cls := 0x46, payload := bytesOf p
    check := fun _ => if payZero p 10 2 && payZero p 20 4 && bits (pay p 0 8) 57 7 == 0 then none else some 1
    more := redMore u tag
    ready := fun s => (s.openTag u tag).isSome && s.storeFree u
    plan := fun s => {
      reads := [⟨pay p 0 8, 4 * count, false⟩], accessCause := 11, more := redMore u tag
      body := fun s' =>
        let data := s'.spanBytes u (unitDie u) s.asidOf (pay p 0 8) (4 * count)
        (s'.contribute u tag ((List.range count).map fun j => (first + j, fieldAt data (4 * j) 4)), .writes []) } }

/-- ALLR, first part (R380): the values of SRC enter the tree of its tag; the operation waits for the result. -/
def allrTask (u : Nat) (p : BitVec 192) : Task :=
  let tag := pay p 16 2
  let count := pay p 18 1
  let func := pay p 19 1
  let addrs := bits (pay p 0 8) 57 7 == 0 && bits (pay p 8 8) 57 7 == 0
  { unit := u, cls := 0x47, payload := bytesOf p
    check := fun _ =>
      if payZero p 20 4 && addrs && decide (1 ≤ count ∧ count ≤ 56 ∧ func ≤ 1) then none else some 1
    more := redMore u tag
    ready := fun s => decide (s.openCount u < 16)
    plan := fun s => {
      reads := [⟨pay p 0 8, 4 * count, false⟩], writes := [⟨pay p 8 8, 4 * count, true⟩], accessCause := 11
      more := redMore u tag
      body := fun s' =>
        match s'.readTag u tag 0 (bytesOf p) with
        | (s', .inl 11) => (s', .access 11 (s'.fabricAddr (s'.get F.RDX_TAG_BASE.BASE 72 <<< 3 + 64 * tag)))
        | (s', .inl c) => (s', .error c)
        | (s', .inr t) =>
          if (s'.openTag u tag).isSome then (s', .error 9)
          else
            let data := s'.spanBytes u (unitDie u) s.asidOf (pay p 0 8) (4 * count)
            let t := { t with allr := true, func := func, dst := pay p 8 8, m := 1, s := count }
            let s' := s'.onRdx fun r => { r with tags := r.tags ++ [t] }
            (if t.mirrorRx then s'
             else s'.contribute u tag ((List.range count).map fun j => (j, fieldAt data (4 * j) 4)), .wait) } }

/-- ALLR, last part (R380): the result is written at DST. -/
def State.allrClose (s : State) (u : Nat) (p : BitVec 192) : State :=
  let tag := pay p 16 2
  match s.openTag u tag with
  | none => s
  | some t =>
    if t.allr && t.payload == bytesOf p && t.delivered == t.s && s.unitFree u then
      match s.findOp u 0x47 (bytesOf p) with
      | none => s.closeTag u tag
      | some k => s.performOp u k {
          writes := [⟨t.dst, 4 * t.s, true⟩], accessCause := 11, more := redMore u tag
          body := fun s => (s.closeTag u tag,
            .writes [(t.dst, (List.range t.s).flatMap fun i => toLE 4 ((lookupKey i t.results).getD 0))]) }
    else s

/-- ALLR (R380). -/
def State.allr (s : State) (u : Nat) (p : BitVec 192) : State :=
  let isOpen := (s.openTag u (pay p 16 2)).any fun t => t.allr && t.payload == bytesOf p
  if isOpen then s.allrClose u p
  else
    let s := s.runOp (allrTask u p)
    (s.useHeld u (pay p 16 2) 0).allrClose u p

/-- The result of an open ALLR has come: it is written at once if its translation stands. -/
def State.allrArrived (s : State) (u tag : Nat) : State :=
  match s.openTag u tag with
  | some t => if t.allr then s.allrClose u (BitVec.ofNat 192 (leN t.payload)) else s
  | none => s

/-! ### Meanings -/

/-- ROPEN (R358 to R362). -/
def execRopen (u : Nat) (p : BitVec 192) (s : State) : Host.Outcome State Fault Refusal :=
  act (.ropen u p) s fun s => (s.ropen u p).afterOpen u p

/-- RSEND (R358, R361). -/
def execRsend (u : Nat) (p : BitVec 192) (s : State) : Host.Outcome State Fault Refusal :=
  act (.rsend u p) s fun s => s.runOp (rsendTask u p)

/-- ALLR (R380). -/
def execAllr (u : Nat) (p : BitVec 192) (s : State) : Host.Outcome State Fault Refusal :=
  act (.allr u p) s fun s => s.allr u p

/-- REDUCTION_PACKET (R365). -/
def execReductionPacket (u : Nat) (pkt : Bytes) (crcOk : Bool) (s : State) : Host.Outcome State Fault Refusal :=
  act (.reductionPacket u pkt crcOk) s fun s =>
    let h := redHeader pkt
    (s.redArrive u pkt crcOk).allrArrived (tagEngine u h.kind) h.tag

/-- CHECK_TIMEOUT (R378): the check result of a sampled element whose primary result stands has not come. -/
def execCheckTimeout (u tag element : Nat) (s : State) : Host.Outcome State Fault Refusal :=
  act (.checkTimeout u tag element) s fun s =>
    match s.openTag u tag with
    | none => s
    | some t =>
      if (lookupKey element t.sums).isNone then s
      else
        let s := s.onTag u tag fun t =>
          { t with sums := dropKey element t.sums, late := t.late ++ [element], compared := t.compared + 1 }
        ((s.flag F.RDX_EVENTS.CHECK_TIMEOUT (unitDie u) (unitInst u)).setVerdict u 2).tagProgress u tag

end Sys2Proof.Machine
end

