-- ==== Sys2Proof/Machine/Arrays.lean ====
section
/-! DEFINITION. The matrix arrays (R121 to R184): tiles, accumulators, exact products, the wide array, split mode, the
output stage with its statistics, and the six array operations. -/

namespace Sys2Proof.Machine

/-! ### Shapes -/

/-- The figures of a shape (R154): rows and elements of the stationary tile, columns entering per cycle, accumulator
columns, and for a split shape the number of slices and the columns of a group. -/
structure Shape where
  rows   : Nat
  k      : Nat
  per    : Nat
  cols   : Nat
  slices : Nat := 0
  group  : Nat := 0

/-- The shape table of R154. -/
def shapeOf : Nat → Shape
  | 0 => ⟨256, 128, 1, 1024, 0, 0⟩
  | 1 => ⟨128, 128, 2, 2048, 0, 0⟩
  | 2 => ⟨64, 128, 4, 4096, 0, 0⟩
  | 3 => ⟨256, 64, 1, 1024, 0, 0⟩
  | 4 => ⟨256, 32, 1, 1024, 0, 0⟩
  | 5 => ⟨256, 128, 1, 1024, 4, 256⟩
  | 6 => ⟨256, 128, 1, 1008, 7, 144⟩
  | _ => ⟨128, 128, 1, 1024, 0, 0⟩

/-- Whether a unit is the wide array. -/
def isWide (u : Nat) : Bool := unitType u == 1

/-- The state of an array unit. -/
def State.array (s : State) (u : Nat) : ArraySt := (lookupKey u s.arrays).getD {}

/-- Change the state of an array unit. -/
def State.onArray (s : State) (u : Nat) (f : ArraySt → ArraySt) : State :=
  { s with arrays := setKey u (f (s.array u)) s.arrays }

/-- The shape in which operations read the accumulators: that of the active tile (log entry 14). -/
def ArraySt.shape (a : ArraySt) (u : Nat) : Nat :=
  match a.active with | some t => t.shape | none => if isWide u then 7 else 0

/-- Cell rows of an array. -/
def cellRows (u : Nat) : Nat := if isWide u then 128 else 256

/-- The cell row of an accumulator column of output row 0, and the physical column (R155). -/
def cellOf (shape c : Nat) : Nat × Nat :=
  if shape = 1 then (128 * (c % 2), c / 2) else if shape = 2 then (64 * (c % 4), c / 4) else (0, c)

/-- The accumulators of one column, by output row. -/
def ArraySt.column (a : ArraySt) (u shape c : Nat) : List (Option Int) :=
  let (base, pc) := cellOf shape c
  (((lookupKey pc a.acc).getD (List.replicate (cellRows u) none)).drop base).take (shapeOf shape).rows

/-- The accumulators of one column set. -/
def ArraySt.setColumn (a : ArraySt) (u shape c : Nat) (vals : List (Option Int)) : ArraySt :=
  let (base, pc) := cellOf shape c
  let old := (lookupKey pc a.acc).getD (List.replicate (cellRows u) none)
  { a with acc := setKey pc (old.take base ++ vals ++ old.drop (base + vals.length)) a.acc }

/-! ### Exact products (R121 to R125) -/

/-- decode of *Arithmetic definitions*: significand and exponent, `none` for a NaN or an infinity. -/
def decode8 (fmt code : Nat) : Option (Int × Nat) :=
  let neg (x : Nat) : Int := if bit code 7 then -(x : Int) else x
  match fmt with
  | 2 => some (signed 8 code, 16)
  | 0 =>
    let e := bits code 3 4
    let f := bits code 0 3
    if e = 15 ∧ f = 7 then none
    else if e = 0 then some (neg f, 16 - 9) else some (neg (8 + f), 16 + e - 10)
  | _ =>
    let e := bits code 2 5
    let f := bits code 0 2
    if e = 31 then none
    else if e = 0 then some (neg f, 0) else some (neg (4 + f), 16 + e - 17)

/-- The NaN mark of an accumulator (R123). -/
def nan80 : Int := -(2 ^ 79)
/-- The largest accumulator (R122). -/
def max80 : Int := 2 ^ 79 - 1

/-- An accumulator with what its additions did: how many saturated, and whether it received the mark. -/
structure AccRun where
  acc  : Int
  sat  : Nat := 0
  mark : Bool := false

/-- An exact addition into an accumulator (R123, R124). -/
def AccRun.add (r : AccRun) (x : Int) : AccRun :=
  if r.acc = nan80 then r
  else
    let t := r.acc + x
    if max80 < t then { r with acc := max80, sat := r.sat + 1 }
    else if t < -max80 then { r with acc := -max80, sat := r.sat + 1 }
    else { r with acc := t }

/-- An accumulator receives the mark (R123). -/
def AccRun.toNan (r : AccRun) : AccRun := if r.acc = nan80 then r else { r with acc := nan80, mark := true }

/-- One term of a dot product: a decoded stationary and a decoded stream element (exponents offset by 16 each). -/
def AccRun.term (r : AccRun) (x w : Option (Int × Nat)) : AccRun :=
  match x, w with
  | some (sx, qx), some (sw, qw) => r.add ((sx * sw) * 2 ^ (qx + qw))
  | _, _ => r.toNan

/-- The terms of one output element, ascending: cells beyond the loaded elements hold zero (R156). -/
def AccRun.dot (r : AccRun) : List (Option (Int × Nat)) → List (Option (Int × Nat)) → AccRun
  | x :: xs, w :: ws => (r.term x w).dot xs ws
  | [], w :: ws => (r.term (some (0, 16)) w).dot [] ws
  | _, [] => r

/-- A slice of a split operand as an integer: slice 0 is signed (R141, R162). -/
def sliceValue (i code : Nat) : Int := if i = 0 then signed 8 code else (code : Int)

/-! ### The wide array (R134 to R137) -/

/-- A wide sum with its counters: NaN results, overflows, flushes. -/
structure WideRun where
  sum   : Nat := 0
  nans  : Nat := 0
  ovfs  : Nat := 0
  flush : Nat := 0

/-- One addition, rounded once (R135). -/
def WideRun.add (r : WideRun) (x : Fp) : WideRun :=
  let v := to32 ((of32 r.sum).add x)
  { sum := v.code, nans := r.nans + b2n v.nan, ovfs := r.ovfs + b2n v.ovf, flush := r.flush + b2n v.flush }

/-- One term: the exact product (R134), then the addition. -/
def WideRun.term (r : WideRun) (x w : Fp) : WideRun :=
  let (p, ovf) := wideProduct x w
  ({ r with nans := r.nans + b2n p.isNan, ovfs := r.ovfs + b2n ovf }).add p

/-- The counters of another run added to a run. -/
def WideRun.withCounts (w o : WideRun) : WideRun :=
  { w with nans := w.nans + o.nans, ovfs := w.ovfs + o.ovfs, flush := w.flush + o.flush }

/-- The floating format of a code of R179. -/
def fmtOf : Nat → FpFmt
  | 0 => e4m3
  | 1 => e5m2
  | 3 => bf16
  | 4 => fp16
  | 6 => fp64
  | _ => fp32

/-- The size in bytes of an element of a format of R179 and R194. -/
def fmtSize (f : Nat) : Nat :=
  if f ≤ 2 ∨ f = 7 ∨ f = 10 then 1 else if f = 3 ∨ f = 4 ∨ f = 8 ∨ f = 11 then 2 else if f = 6 then 8 else 4

/-- The pass of one output element on the wide array (R136): the sum of its terms in ascending k. -/
def widePass (fx fw : Nat) (row col : List Nat) (klen : Nat) : WideRun :=
  (List.range klen).foldl (fun r k =>
    r.term ((fmtOf fx).decode (row.getD k 0)) ((fmtOf fw).decode (col.getD k 0))) {}

/-! ### LDX -/

/-- The registers of an array: its event and counter fields. -/
def State.arrayEvents (s : State) (u sats marks : Nat) (w : WideRun) : State :=
  let d := unitDie u
  let i := unitInst u
  if isWide u then
    ((s.bump F.MXW_EVENTS.NAN_COUNT w.nans d).bump F.MXW_EVENTS.OVF_COUNT w.ovfs d).bump F.MXW_EVENTS.FLUSH_COUNT w.flush d
  else
    let s := s.bump F.MXA_COUNTS.SAT_ADDS sats d i
    let s := if sats = 0 then s else s.flag F.MXA_EVENTS.ACC_SAT d i
    if marks = 0 then s else s.flag F.MXA_EVENTS.NAN_MARK d i

/-- Whether a payload's address field is a 57-bit virtual address (R179). -/
def addrOk (a : Nat) : Bool := bits a 57 7 == 0

/-- Whether a stationary format is one of its shape's (R183). -/
def tileFormatOk (shape fmt : Nat) : Bool :=
  if shape ≤ 4 then decide (fmt ≤ 2) else if shape ≤ 6 then fmt == 7 else fmt == 3 || fmt == 4

/-- What R180 and R184 ask of an LDX. -/
def ldxCheck (u : Nat) (p : BitVec 192) : Option Nat :=
  let shape := payBits p 14 0 4
  let sh := shapeOf shape
  if payZero p 17 7 && addrOk (pay p 0 8) && pay p 0 8 % 32 == 0 && pay p 8 4 % 32 == 0 &&
      (if isWide u then shape == 7 else decide (shape ≤ 6)) && tileFormatOk shape (payBits p 14 4 4) &&
      decide (1 ≤ pay p 12 2 ∧ pay p 12 2 ≤ sh.rows) && decide (1 ≤ pay p 16 1 ∧ pay p 16 1 ≤ sh.k) &&
      (if sh.slices = 0 then pay p 15 1 == 0 else decide (pay p 15 1 < sh.slices))
  then none else some 1

/-- LDX as an operation of its array. -/
def ldxTask (u : Nat) (p : BitVec 192) : Task :=
  let src := pay p 0 8
  let stride := pay p 8 4
  let esz := if isWide u then 2 else 1
  let klen := pay p 16 1
  let spans := (List.range (pay p 12 2)).map fun r => (⟨src + r * stride, klen * esz, false⟩ : Span)
  { unit := u, cls := 0x01, payload := bytesOf p, check := fun _ => ldxCheck u p, ready := fun s => (s.array u).shadow.isNone
    order := fun s k => s.earlierDone u k [0x01]
    plan := fun s => {
      reads := spans, near := spans, nearCause := 5, accessCause := 5
      body := fun s' =>
        let rows := spans.map fun sp =>
          let b := s'.spanBytes u (unitDie u) s.asidOf sp.va sp.len
          (List.range klen).map fun k => fieldAt b (k * esz) esz
        let t : Tile := { shape := payBits p 14 0 4, format := payBits p 14 4 4, slice := pay p 15 1, klen := klen, rows := rows }
        (s'.onArray u fun a => { a with shadow := some t }, .writes []) } }

/-- LDX (R150 to R160, R180): the rows become the shadow tile. -/
def execLdx (u : Nat) (p : BitVec 192) (s : State) : Host.Outcome State Fault Refusal :=
  act (.ldx u p) s fun s =>
    s.runOp (ldxTask u p)

/-! ### MMA and PADD -/

/-- Whether a column holds an accumulator that is not cleared. -/
def ArraySt.uncleared (a : ArraySt) (u shape acc n : Nat) : Bool :=
  (List.range n).any fun j => (a.column u shape (acc + j)).any (·.isNone)

/-- The tile an MMA streams against (R160). -/
def mmaTile (a : ArraySt) (swap : Bool) : Option Tile := if swap then a.shadow else a.active

/-- The first accumulator column of an MMA (R163). -/
def mmaColumn (t : Tile) (acc slice : Nat) : Nat := (t.slice + slice) * (shapeOf t.shape).group + acc

/-- What R160 to R163, R180, R183 and R184 ask of an MMA. -/
def mmaCheck (a : ArraySt) (u : Nat) (p : BitVec 192) : Option Nat :=
  let swap := payBits p 16 0 1 == 1
  let clr := payBits p 16 1 1 == 1
  let n := pay p 12 2
  let acc := pay p 14 2
  let fw := payBits p 17 0 4
  let sj := payBits p 17 4 4
  if !(payZero p 18 6 && payBits p 16 2 6 == 0 && addrOk (pay p 0 8) && pay p 0 8 % 32 == 0 && pay p 8 4 % 32 == 0 &&
      decide (1 ≤ n)) then some 1
  else match mmaTile a swap with
    | none => if swap then none else some 4
    | some t =>
      let sh := shapeOf t.shape
      let formats := if t.shape ≤ 4 then (fw == 2) == (t.format == 2) && decide (fw ≤ 2)
        else if t.shape ≤ 6 then fw == 7 else fw == 3 || fw == 4
      if !formats then some 1
      else if sh.slices = 0 ∧ sj ≠ 0 then some 1
      else if sh.slices ≠ 0 ∧ (sh.slices ≤ t.slice + sj ∨ sh.group < acc + n) then some 6
      else if sh.slices = 0 ∧ sh.cols < acc + n then some 2
      else if !clr && a.uncleared u t.shape (mmaColumn t acc sj) n then some 3
      else none

/-- An array with what updates did to it. -/
structure ArrayRun where
  a    : ArraySt
  sats : Nat := 0
  marks : Nat := 0
  wide : WideRun := {}

/-- One column of an MMA meets every row of the tile (R123, R136, R142, R156, R161). -/
def ArrayRun.mmaCol (r : ArrayRun) (u : Nat) (t : Tile) (fw sj c : Nat) (clr : Bool) (codes : List Nat) : ArrayRun :=
  let sh := shapeOf t.shape
  let old := r.a.column u t.shape c
  let row (i : Nat) : List Nat := (t.rows[i]?).getD []
  if t.shape = 7 then
    let runs := (List.range sh.rows).map fun i =>
      let pass := widePass t.format fw (row i) codes t.klen
      match (old[i]?).getD none with
      | some v => if clr then pass else (WideRun.add { sum := v.toNat } (of32 pass.sum)).withCounts pass
      | none => pass
    { r with a := r.a.setColumn u t.shape c (runs.map fun w => some (w.sum : Int))
             wide := runs.foldl WideRun.withCounts r.wide }
  else
    let start (i : Nat) : AccRun := { acc := if clr then 0 else ((old[i]?).getD none).getD 0 }
    let runs := (List.range sh.rows).map fun i =>
      if sh.slices = 0 then
        (start i).dot ((row i).map (decode8 t.format)) (codes.map (decode8 fw))
      else
        (List.range sh.k).foldl (fun r k =>
          r.add (sliceValue t.slice ((row i).getD k 0) * sliceValue sj (codes.getD k 0))) (start i)
    { r with a := r.a.setColumn u t.shape c (runs.map fun w => some w.acc)
             sats := runs.foldl (fun n w => n + w.sat) r.sats
             marks := runs.foldl (fun n w => n + b2n w.mark) r.marks }

/-- Columns that an operation was updating when an access failed hold no defined value until an MMA with CLR (R184): free
values. -/
def State.spoilColumns (s : State) (u shape acc n : Nat) : State :=
  let rows := (shapeOf shape).rows
  let free (j r : Nat) : Option Int :=
    let x := s.freeAt (j * rows + r)
    some (if isWide u then ((x % 2 ^ 32 : Nat) : Int) else (x : Int) - 2 ^ 63)
  (s.onArray u fun a => (List.range n).foldl (fun a j =>
    a.setColumn u shape (acc + j) ((List.range rows).map (free j))) a).took (n * rows)

/-- The tile of an MMA becomes the active one (R153, R160). -/
def State.swapTile (s : State) (u : Nat) (swap : Bool) : State :=
  if swap then s.onArray u fun a => { a with active := a.shadow, shadow := none } else s

/-- MMA as an operation of its array. -/
def mmaTask (u : Nat) (p : BitVec 192) : Task :=
  let swap := payBits p 16 0 1 == 1
  let clr := payBits p 16 1 1 == 1
  let n := pay p 12 2
  let fw := payBits p 17 0 4
  let sj := payBits p 17 4 4
  let d := unitDie u
  { unit := u, cls := 0x02, payload := bytesOf p, check := fun s => mmaCheck (s.array u) u p
    ready := fun s => (mmaTile (s.array u) swap).isSome, order := fun s k => s.earlierDone u k [0x02, 0x03, 0x04, 0x05]
    plan := fun s =>
      let t := (mmaTile (s.array u) swap).getD ⟨0, 0, 0, 1, []⟩
      let sh := shapeOf t.shape
      let esz := if isWide u then 2 else 1
      let first := mmaColumn t (pay p 14 2) sj
      let spans := (List.range n).map fun j => (⟨pay p 0 8 + j * pay p 8 4, sh.k * esz, false⟩ : Span)
      { reads := spans, near := spans, nearCause := 5, accessCause := 5
        onError := fun s _ => (s.swapTile u swap).spoilColumns u t.shape first n
        body := fun s' =>
          let cols := spans.map fun sp =>
            let b := s'.spanBytes u d s.asidOf sp.va sp.len
            (List.range sh.k).map fun k => fieldAt b (k * esz) esz
          let s' := s'.swapTile u swap
          let r := (cols.zipIdx).foldl (fun (r : ArrayRun) c => r.mmaCol u t fw sj (first + c.2) clr c.1) { a := s'.array u }
          let s' := (s'.onArray u fun _ => r.a).arrayEvents u r.sats r.marks r.wide
          let macs := t.rows.length * t.klen * n
          let beats := (n + sh.per - 1) / sh.per
          let s' := if isWide u then (s'.addWrap F.MXW_MACS.VALUE macs d).addWrap F.MXW_BUSY.VALUE beats d
            else (s'.addWrap F.MXA_MACS.VALUE macs d (unitInst u)).addWrap F.MXA_BUSY.VALUE beats d (unitInst u)
          if !isWide u && r.sats != 0 && s'.on F.MXA_CTRL.SAT_ERROR d (unitInst u) then (s', .error 9)
          else (s', .writes []) } }

/-- MMA (R121 to R125, R134 to R137, R153 to R163, R180): columns stream against the tile. -/
def execMma (u : Nat) (p : BitVec 192) (s : State) : Host.Outcome State Fault Refusal :=
  act (.mma u p) s fun s =>
    s.runOp (mmaTask u p)

/-- What R176, R182 and R184 ask of a PSEND or PADD. -/
def partialCheck (a : ArraySt) (u : Nat) (p : BitVec 192) (add : Bool) : Option Nat :=
  let sh := shapeOf (a.shape u)
  let n := pay p 12 2
  if !(payZero p 8 4 && payZero p 18 6 && addrOk (pay p 0 8) && decide (1 ≤ n) &&
      decide (1 ≤ pay p 16 2 ∧ pay p 16 2 ≤ sh.rows)) then some 1
  else if sh.cols < pay p 14 2 + n then some 2
  else if add && a.uncleared u (a.shape u) (pay p 14 2) n then some 3
  else none

/-- PADD as an operation of its array. -/
def paddTask (u : Nat) (p : BitVec 192) : Task :=
  let n := pay p 12 2
  let acc := pay p 14 2
  let rows := pay p 16 2
  let b := if isWide u then 4 else 10
  { unit := u, cls := 0x05, payload := bytesOf p, check := fun s => partialCheck (s.array u) u p true
    order := fun s k => s.earlierDone u k [0x02, 0x03, 0x04, 0x05]
    plan := fun s =>
      let shape := (s.array u).shape u
      let span : Span := ⟨pay p 0 8, rows * n * b, false⟩
      { reads := [span], near := [span], nearCause := 5, accessCause := 5
        onError := fun s _ => s.spoilColumns u shape acc n
        body := fun s' =>
          let data := s'.spanBytes u (unitDie u) s.asidOf span.va span.len
          let r := (List.range n).foldl (fun (r : ArrayRun) j =>
            let old := r.a.column u shape (acc + j)
            let val (i : Nat) : Nat := fieldAt data ((i * n + j) * b) b
            let at_ (i : Nat) : Int := ((old[i]?).getD none).getD 0
            if isWide u then
              let runs := (List.range rows).map fun i => WideRun.add { sum := (at_ i).toNat } (of32 (val i))
              { r with a := r.a.setColumn u shape (acc + j) ((runs.map fun w => some (w.sum : Int)) ++ old.drop rows)
                       wide := runs.foldl WideRun.withCounts r.wide }
            else
              let runs := (List.range rows).map fun i =>
                let x := signed 80 (val i)
                let a : AccRun := { acc := at_ i }
                if x = nan80 then a.toNan else a.add x
              { r with a := r.a.setColumn u shape (acc + j) ((runs.map fun w => some w.acc) ++ old.drop rows)
                       sats := runs.foldl (fun n w => n + w.sat) r.sats
                       marks := runs.foldl (fun n w => n + b2n w.mark) r.marks }) { a := s'.array u }
          let s' := (s'.onArray u fun _ => r.a).arrayEvents u r.sats r.marks r.wide
          if !isWide u && r.sats != 0 && s'.on F.MXA_CTRL.SAT_ERROR (unitDie u) (unitInst u) then (s', .error 9)
          else (s', .writes []) } }

/-- PADD (R125, R137, R176): partials are added into columns ACC up. -/
def execPadd (u : Nat) (p : BitVec 192) (s : State) : Host.Outcome State Fault Refusal :=
  act (.padd u p) s fun s =>
    s.runOp (paddTask u p)

/-- An accumulator as an output operation reads it; an uncleared one holds no stated value (log entry 15). -/
def State.readAcc (s : State) (u shape c r : Nat) : Int :=
  match (((s.array u).column u shape c)[r]?).getD none with
  | some v => v
  | none =>
    let x := s.freeAt (c * 256 + r)
    if isWide u then ((x % 2 ^ 32 : Nat) : Int) else (x : Int) - 2 ^ 63

/-- PSEND as an operation of its array. -/
def psendTask (u : Nat) (p : BitVec 192) : Task :=
  let n := pay p 12 2
  let rows := pay p 16 2
  let b := if isWide u then 4 else 10
  { unit := u, cls := 0x04, payload := bytesOf p, check := fun s => partialCheck (s.array u) u p false
    order := fun s k => s.earlierDone u k [0x02, 0x03, 0x04, 0x05]
    plan := fun s =>
      let shape := (s.array u).shape u
      let span : Span := ⟨pay p 0 8, rows * n * b, true⟩
      { writes := [span], near := [span], anyTile := true, nearCause := 5, accessCause := 5
        body := fun s' =>
          let data := (List.range rows).flatMap fun r => (List.range n).flatMap fun j =>
            toLE b (unsigned (8 * b) (s'.readAcc u shape (pay p 14 2 + j) r))
          (s'.took 262144, .writes [(span.va, data)]) } }

/-- PSEND (R125, R176): packed partials. -/
def execPsend (u : Nat) (p : BitVec 192) (s : State) : Host.Outcome State Fault Refusal :=
  act (.psend u p) s fun s =>
    s.runOp (psendTask u p)

/-! ### The output stage -/

/-- Statistics of one value (R172): bins and the largest magnitude rounded up to FP32. -/
def StatSlot.observe (t : StatSlot) (v : Fp) : StatSlot × Bool :=
  let bin : Nat := match v with
    | .nan => 39
    | .inf _ => 39
    | .fin _ m e =>
      if m = 0 then 0
      else
        let x := log2Floor m e - t.hbase
        if x < 0 then 1 else if 35 < x then 38 else 2 + x.toNat
  let amax : Nat := match v with
    | .nan => 0
    | .inf _ => 0x7F800000
    | .fin _ m e =>
      let lo := (fp32.round .rtz false false (.fin false m e)).code
      if m = 0 then 0
      else if (of32 lo).eq (.fin false m e) then lo else lo + 1
  let bins := if t.bins.isEmpty then List.replicate 40 0 else t.bins
  let old := bins.getD bin 0
  let full := decide (0xFFFFFFFF ≤ old) || decide (0xFFFFFFFF ≤ t.count)
  ({ t with bins := bins.set bin (min (old + 1) 0xFFFFFFFF), count := min (t.count + 1) 0xFFFFFFFF, amax := max t.amax amax }, full)

/-- The record STF writes from a slot (R174). -/
def statRecord (u tensor : Nat) (t : StatSlot) : Bytes :=
  let bins := if t.bins.isEmpty then List.replicate 40 0 else t.bins
  withCrc (toLE 2 u ++ toLE 1 (unsigned 8 t.hbase) ++ [0] ++ toLE 4 tensor ++ toLE 4 t.amax ++ toLE 4 t.count ++
    bins.flatMap (toLE 4) ++ zeros 76)

/-- Whether an output format is one of its shape's (R183). -/
def outFormatOk (shape fmt : Nat) : Bool :=
  if shape ≤ 4 then fmt == 0 || fmt == 1 || fmt == 3 || fmt == 4 || fmt == 5
  else if shape = 5 then fmt == 5
  else if shape = 6 then fmt == 5 || fmt == 6
  else fmt == 3 || fmt == 4 || fmt == 5

/-- The engine of the module that holds an open tag (R175). -/
def State.holdsTag (s : State) (tag : Nat) : Option Nat :=
  (s.rdx.tags.find? fun t => t.tag == tag && !t.allr).map (·.engine)

/-- What R171 to R175, R181, R183 and R184 ask of an OUT. -/
def outCheck (s : State) (u : Nat) (p : BitVec 448) : Option Nat :=
  let a := s.array u
  let shape := a.shape u
  let sh := shapeOf shape
  let fmt := payBits p 16 0 4
  let dest := payBits p 16 7 1 == 1
  let n := pay p 12 2
  let limit := if sh.slices = 0 then sh.cols else sh.group
  if !(payZero p 21 3 && payZero p 42 6 && payBits p 17 4 4 == 0 && payBits p 16 4 2 != 3 && (dest || addrOk (pay p 0 8)) &&
      addrOk (pay p 24 8) && addrOk (pay p 32 8) && decide (1 ≤ n) && decide (1 ≤ pay p 18 2 ∧ pay p 18 2 ≤ sh.rows)) then some 1
  else if limit < pay p 14 2 + n then some 2
  else if !outFormatOk shape fmt then some 1
  else if dest && (fmt != 5 || (s.holdsTag (pay p 40 2)).isNone) then some 7
  else if payBits p 17 3 1 = 1 then
    (match lookupKey (payBits p 17 0 3) a.stats with
     | some t => if t.hbase = signed 8 (pay p 20 1) then none else some 8
     | none => none)
  else none

/-- The exact value an output element is rounded from (R126, R127, R138, R142, R143). -/
def outValue (s : State) (u shape r c n : Nat) (sx sw : Bytes) : Fp :=
  let sh := shapeOf shape
  let of_ (x : Int) (e : Int) : Fp := .fin (decide (x < 0)) x.natAbs e
  if shape = 7 then of32 (s.readAcc u shape c r).toNat
  else if sh.slices = 0 then
    let a := s.readAcc u shape c r
    let scale := (of32 (fieldAt sx (4 * r) 4)).mul (of32 (fieldAt sw (4 * n) 4))
    if a = nan80 then .nan else
      match scale.mul (of_ a (-32)) with
      | .fin neg m e => if m = 0 then .zero else .fin neg m e
      | v => v
  else
    let da := fieldAt sx (4 * r) 4
    let db := fieldAt sw (4 * n) 4
    if bit da 16 || bit db 16 then .nan
    else
      let vv := (List.range sh.slices).foldl (fun (acc : Int) g =>
        acc + s.readAcc u shape (g * sh.group + c) r * 2 ^ (8 * (2 * sh.slices - 2 - g))) 0
      let marked := (List.range sh.slices).any fun g => s.readAcc u shape (g * sh.group + c) r == nan80
      if marked then .nan
      else if vv = 0 then .zero
      else of_ vv (signed 16 da + signed 16 db + 4 - 16 * sh.slices)

/-- The work of an OUT over its elements: state with draws, rows of results, statistics. -/
structure OutRun where
  s    : State
  out  : List (List Bytes) := []         -- by column
  vals : List (List Nat) := []
  nans : Nat := 0
  stat : Option StatSlot
  full : Bool := false

/-- One element of an OUT (R128 to R133, R138, R169, R170, R172). -/
def OutRun.element (r : OutRun) (u shape fmt mode : Nat) (sat : Bool) (row c : Nat) (v : Fp) : OutRun × Nat :=
  let cell := (cellOf shape c).1 + row
  let lane := if isWide u then 1024 + cell else unitInst u * 256 + cell
  let (s, draw) := if mode = 2 then r.s.draw (unitDie u) (1024 + lane) else (r.s, 0)
  let rnd : Rounding := if mode = 0 then .rne else if mode = 1 then .rtz else .rsr draw
  let f := fmtOf fmt
  let res : Rounded :=
    if shape = 7 ∧ fmt = 5 then { code := (s.readAcc u shape c row).toNat, nan := v.isNan }
    else f.round rnd sat false (match v with | .fin neg m e => if m = 0 then .zero else .fin neg m e | v => v)
  let st := r.stat.map fun t => t.observe v
  ({ r with s := s, nans := r.nans + b2n res.nan, stat := st.map (·.1)
            full := r.full || (st.map (·.2)).getD false }, res.code)

/-- One column of an OUT, rows in ascending order. -/
def OutRun.column (r : OutRun) (u shape fmt mode : Nat) (sat : Bool) (rows acc n : Nat) (sx sw : Bytes) : OutRun :=
  let (r, codes) := (List.range rows).foldl (fun (p : OutRun × List Nat) row =>
    let (r, code) := p.1.element u shape fmt mode sat row (acc + n) (outValue p.1.s u shape row (acc + n) n sx sw)
    (r, p.2 ++ [code])) (r, [])
  { r with vals := r.vals ++ [codes] }

/-- OUT as an operation of its array. -/
def outTask (u : Nat) (p : BitVec 448) : Task :=
  let fmt := payBits p 16 0 4
  let mode := payBits p 16 4 2
  let sat := payBits p 16 6 1 == 1
  let dest := payBits p 16 7 1 == 1
  let n := pay p 12 2
  let acc := pay p 14 2
  let rows := pay p 18 2
  let stride := pay p 8 4
  let size := fmtSize fmt
  let slot := payBits p 17 0 3
  let statOn := payBits p 17 3 1 == 1
  let d := unitDie u
  { unit := u, cls := 0x03, payload := bytesOf p, check := fun s => outCheck s u p
    ready := fun s => !dest || ((s.holdsTag (pay p 40 2)).all fun e => s.storeFree e)
    order := fun s k => s.earlierDone u k [0x02, 0x03, 0x04, 0x05, 0x06]
    plan := fun s =>
      let shape := (s.array u).shape u
      let scales : List Span := if shape = 7 then [] else [⟨pay p 24 8, 4 * rows, false⟩, ⟨pay p 32 8, 4 * n, false⟩]
      let outs : List Span := if dest then [] else (List.range rows).map fun r => ⟨pay p 0 8 + r * stride, n * size, true⟩
      { reads := scales, writes := outs, near := scales ++ outs, nearCause := 5, accessCause := 5
        body := fun s' =>
          let sx := s'.spanBytes u d s.asidOf (pay p 24 8) (4 * rows)
          let sw := s'.spanBytes u d s.asidOf (pay p 32 8) (4 * n)
          let outside := (shapeOf shape).slices != 0 &&
            (((List.range rows).any fun r => bit (fieldAt sx (4 * r) 4) 17) || ((List.range n).any fun j => bit (fieldAt sw (4 * j) 4) 17))
          if outside then (s', .error 6)
          else
            let slotNow := (lookupKey slot (s'.array u).stats).getD { hbase := signed 8 (pay p 20 1) }
            let r := (List.range n).foldl (fun (r : OutRun) j => r.column u shape fmt mode sat rows acc j sx sw)
              { s := s', stat := if statOn then some slotNow else none }
            let s' := r.s.took 262144
            let s' := match r.stat with
              | some t => s'.onArray u fun a => { a with stats := setKey slot t a.stats }
              | none => s'
            let s' := if isWide u then (if r.full then s'.flag F.MXW_EVENTS.STAT_SAT d else s')
              else
                let s' := s'.bump F.MXA_COUNTS.NAN_OUT r.nans d (unitInst u)
                if r.full then s'.flag F.MXA_EVENTS.STAT_SAT d (unitInst u) else s'
            let code (row j : Nat) : Nat := ((r.vals.getD j []).getD row 0)
            if dest then
              (match s'.holdsTag (pay p 40 2) with
               | some e => (s'.contribute e (pay p 40 2) ((List.range rows).flatMap fun row => (List.range n).map fun j =>
                   (pay p 0 8 + row * (stride / 4) + j, code row j)), .writes [])
               | none => (s', .error 7))
            else (s', .writes ((List.range rows).map fun row =>
              (pay p 0 8 + row * stride, (List.range n).flatMap fun j => toLE size (code row j)))) } }

/-- OUT (R126 to R133, R138, R142, R143, R164, R169 to R175, R181). -/
def execOut (u : Nat) (p : BitVec 448) (s : State) : Host.Outcome State Fault Refusal :=
  act (.out u p) s fun s =>
    s.runOp (outTask u p)

/-- STF as an operation of its array. -/
def stfTask (u : Nat) (p : BitVec 192) : Task :=
  let slot := payBits p 12 0 3
  let span : Span := ⟨pay p 0 8, 256, true⟩
  { unit := u, cls := 0x06, payload := bytesOf p
    check := fun _ =>
      if addrOk (pay p 0 8) && pay p 0 8 % 256 == 0 && payBits p 12 3 5 == 0 && payZero p 13 11 then none else some 1
    order := fun s k => s.earlierDone u k [0x03, 0x06]
    plan := fun _ => {
      writes := [span], near := [span], nearCause := 5, accessCause := 5
      body := fun s' =>
        let t := (lookupKey slot (s'.array u).stats).getD { hbase := 0 }
        (s'.onArray u fun a => { a with stats := dropKey slot a.stats },
         .writes [(span.va, statRecord u (pay p 8 4) t)]) } }

/-- STF (R173, R174): the record of a slot is written and the slot cleared. -/
def execStf (u : Nat) (p : BitVec 192) (s : State) : Host.Outcome State Fault Refusal :=
  act (.stf u p) s fun s =>
    s.runOp (stfTask u p)

/-- The state of every array at the start of a step (R161). -/
def State.resetArrays (s : State) : State := { s with arrays := [] }

end Sys2Proof.Machine
end

