-- ==== Sys2Proof/Machine/Vector.lean ====
section
/-! DEFINITION. The vector stream engine and the stage chain (R188 to R222): element formats, element operations, masks,
scans, reductions, slicing, derivatives, random values, chains and FLUSH. -/

namespace Sys2Proof.Machine

/-! ### Elements -/

/-- Whether a format code of R194 is one of the FP formats that EW takes. -/
def isFloat (f : Nat) : Bool := f == 3 || f == 4 || f == 5
/-- Whether a format code is an FP format that a result can have. -/
def isFloatOut (f : Nat) : Bool := f == 0 || f == 1 || isFloat f
/-- Whether a format code is an integer format. -/
def isInteger (f : Nat) : Bool := f == 2 || (decide (8 ≤ f) && decide (f ≤ 12))

/-- The width of an integer format in bits. -/
def intWidth (f : Nat) : Nat := if f = 2 ∨ f = 10 then 8 else if f = 8 ∨ f = 11 then 16 else 32
/-- Whether an integer format is signed. -/
def intSigned (f : Nat) : Bool := f == 2 || f == 8 || f == 9
/-- The lowest value of an integer format. -/
def intLow (f : Nat) : Int := if intSigned f then -(2 ^ (intWidth f - 1) : Nat) else 0
/-- The highest value of an integer format. -/
def intHigh (f : Nat) : Int := if intSigned f then (2 ^ (intWidth f - 1) : Nat) - 1 else (2 ^ intWidth f : Nat) - 1
/-- The integer of a code. -/
def intDecode (f code : Nat) : Int := if intSigned f then signed (intWidth f) code else ((code % 2 ^ intWidth f : Nat) : Int)
/-- An exact integer result in an integer format (R201). -/
def intEncode (f : Nat) (sat : Bool) (x : Int) : Nat :=
  unsigned (intWidth f) (if sat then max (intLow f) (min (intHigh f) x) else x)

/-- The bytes that `n` elements of a format take: one bit each for the mask format (R188). -/
def streamBytes (f n : Nat) : Nat := if f = 13 then (n + 7) / 8 else n * fmtSize f

/-- Element codes of a stream's bytes (R188). -/
def elementsOf (f n : Nat) (b : Bytes) : List Nat :=
  if f = 13 then (List.range n).map fun e => bits (fieldAt b (e / 8) 1) (e % 8) 1
  else (List.range n).map fun e => fieldAt b (e * fmtSize f) (fmtSize f)

/-- The bytes of element codes; bits of the last byte beyond the stream keep their old value. -/
def bytesOfElements (f : Nat) (codes : List Nat) (old : Bytes) : Bytes :=
  if f = 13 then
    (List.range ((codes.length + 7) / 8)).map fun i =>
      BitVec.ofNat 8 ((List.range 8).foldl (fun acc j =>
        acc + ((codes[8 * i + j]?).getD (bits (fieldAt old i 1) j 1)) % 2 * 2 ^ j) 0)
  else codes.flatMap (toLE (fmtSize f))

/-! ### Element operations -/

/-- A finite or special FP32 code as a value for the next rounding, with whether it overflowed from a finite input. -/
def ofFn (x : Nat) (code : Nat) : Fp × Bool :=
  (of32 code, (match of32 code with | .inf _ => (of32 x).isFin && !(of32 x).isZero | _ => false))

/-- The exact result of an FP function of R196 and whether it overflowed on the way. The vector functions give their FP32
value (R199). -/
def fpOp (func : Nat) (a b c imm : Fp) : Fp × Bool :=
  let x := (fp32.round .rne false false a).code
  match func with
  | 0x00 => (a, false)
  | 0x01 => (a.add b, false)
  | 0x02 => (a.add b.neg, false)
  | 0x03 => (a.mul b, false)
  | 0x04 => ((a.mul b).add c, false)
  | 0x05 => (a.min b, false)
  | 0x06 => (a.max b, false)
  | 0x07 => (a.abs, false)
  | 0x08 => (a.neg, false)
  | 0x09 => (a.add imm, false)
  | 0x0A => (a.mul imm, false)
  | 0x10 => ofFn x (vExp2 x)
  | 0x11 => (of32 (vLog2 x), false)
  | 0x12 => (of32 (vRsqrt x), false)
  | 0x13 => ofFn x (vRecip x)
  | 0x14 => (of32 (sqrt32 a), false)
  | 0x15 => (of32 (vTanh x), false)
  | 0x16 => (of32 (vSigmoid x), false)
  | 0x17 => (a.max .zero, false)
  | 0x18 => (if Fp.lt .zero a then a else a.mul imm, false)
  | 0x19 => (of32 (vGelu x), false)
  | 0x1A => (of32 (vSilu x), false)
  | 0x2D => ((a.max b).min c, false)
  | _ => (.nan, false)

/-- A compare of R196 and R202: EQ, NE, LT, LE, GT, GE. -/
def fpCompare (func : Nat) (a b : Fp) : Bool :=
  let ordered := !a.isNan && !b.isNan
  match func with
  | 0x30 => a.eq b
  | 0x31 => !a.eq b
  | 0x32 => a.lt b
  | 0x33 => ordered && !b.lt a
  | 0x34 => b.lt a
  | _ => ordered && !a.lt b

/-- A bitwise function on the patterns of two integers of `w` bits. -/
def bitwise (w : Nat) (sgn : Bool) (f : Nat → Nat → Nat) (a b : Int) : Int :=
  let r := f (unsigned w a) (unsigned w b) % 2 ^ w
  if sgn then signed w r else (r : Int)

/-- The exact result of an integer function of R196 (R201): input width `w`, immediate, element number. -/
def intOp (func w : Nat) (sgn : Bool) (a b c imm : Int) (e : Nat) : Int :=
  let sh := (unsigned 6 imm)
  match func with
  | 0x00 => a
  | 0x20 => a + b
  | 0x21 => a - b
  | 0x22 => a * b
  | 0x23 => min a b
  | 0x24 => max a b
  | 0x25 => bitwise w sgn (· &&& ·) a b
  | 0x26 => bitwise w sgn (· ||| ·) a b
  | 0x27 => bitwise w sgn (· ^^^ ·) a b
  | 0x28 => bitwise w sgn (fun x _ => 2 ^ w - 1 - x) a a
  | 0x29 => if w ≤ sh then 0 else a * 2 ^ sh
  | 0x2A => if w ≤ sh then 0 else ((unsigned w a >>> sh : Nat) : Int)
  | 0x2B => if w ≤ sh then (if a < 0 then -1 else 0) else a / 2 ^ sh
  | 0x2C => (e : Int) + imm
  | 0x2D => min (max a b) c
  | _ => 0

/-- A compare of integers. -/
def intCompare (func : Nat) (a b : Int) : Bool :=
  match func with
  | 0x30 => a == b
  | 0x31 => a != b
  | 0x32 => decide (a < b)
  | 0x33 => decide (a ≤ b)
  | 0x34 => decide (b < a)
  | _ => decide (b ≤ a)

/-- How many input streams an EW function reads (R196). -/
def ewArity (func : Nat) : Nat :=
  if func = 0x2C then 0
  else if func = 0x04 ∨ func = 0x2D then 3
  else if func = 0x01 ∨ func = 0x02 ∨ func = 0x03 ∨ func = 0x05 ∨ func = 0x06 then 2
  else if 0x20 ≤ func ∧ func ≤ 0x27 then 2
  else if 0x30 ≤ func ∧ func ≤ 0x35 then 2
  else 1

/-- Whether a function is one of the FP functions of R196 (COPY and CLAMP serve both kinds; log entry 16). -/
def isFpFunc (func : Nat) : Bool :=
  decide (func ≤ 0x0A) || (decide (0x10 ≤ func) && decide (func ≤ 0x1A)) || func == 0x2D ||
    (decide (0x30 ≤ func) && decide (func ≤ 0x35))
/-- Whether a function is one of the integer functions of R196. -/
def isIntFunc (func : Nat) : Bool :=
  func == 0 || (decide (0x20 ≤ func) && decide (func ≤ 0x2D)) || (decide (0x30 ≤ func) && decide (func ≤ 0x35))

/-! ### Payloads -/

/-- The fields of a VSE payload (R194). -/
structure VsePayload where
  dst     : Nat
  a       : Nat
  b       : Nat
  c       : Nat
  mask    : Nat
  n       : Nat
  func    : Nat
  fa      : Nat
  fb      : Nat
  fc      : Nat
  fo      : Nat
  mode    : Nat
  sat     : Bool
  masked  : Bool
  zero    : Bool
  spare   : Nat                          -- reserved bits of MODES
  imm     : Nat
  glen    : Nat

/-- A VSE payload read from its bytes (R194). -/
def vsePayload (p : BitVec 448) : VsePayload :=
  { dst := pay p 0 8, a := pay p 8 8, b := pay p 16 8, c := pay p 24 8, mask := pay p 32 8, n := pay p 40 4
    func := pay p 44 1, fa := payBits p 45 0 4, fb := payBits p 45 4 4, fc := payBits p 46 0 4, fo := payBits p 46 4 4
    mode := payBits p 47 0 2, sat := payBits p 47 2 1 == 1, masked := payBits p 47 3 1 == 1, zero := payBits p 47 4 1 == 1
    spare := payBits p 47 5 3, imm := pay p 48 4, glen := pay p 52 4 }

/-- A stream an operation reads: address, format, elements. -/
structure Stream3 where
  va  : Nat
  fmt : Nat
  n   : Nat

/-- The span of a stream. -/
def Stream3.span (x : Stream3) (write : Bool := false) : Span := ⟨x.va, streamBytes x.fmt x.n, write⟩

/-- Whether D and an input overlap other than by coinciding exactly with elements of one size (R190). -/
def badOverlap (d x : Stream3) : Bool :=
  let ds := d.span
  let xs := x.span
  let size (f : Nat) : Nat := if f = 13 then 0 else fmtSize f
  decide (ds.va < xs.va + xs.len) && decide (xs.va < ds.va + ds.len) &&
    !(ds.va == xs.va && ds.len == xs.len && size d.fmt == size x.fmt)

/-- The checks every VSE operation shares (R179, R188, R190, R194): reserved bits, formats, N, addresses, overlap. -/
def vseCheck (v : VsePayload) (formats : Bool) (inputs : List Stream3) (outs : List Stream3) (draws : Nat) : Option Nat :=
  let inputs' := if v.masked then inputs ++ [⟨v.mask, 13, v.n⟩] else inputs
  if v.spare != 0 || v.mode == 3 || !formats || !((inputs' ++ outs).all fun x => addrOk x.va) then some 1
  else if v.n = 0 ∨ 16777215 < v.n then some 4
  else if outs.any fun d => inputs'.any fun x => badOverlap d x then some 3
  else if 1 < draws then some 5
  else none

/-- The rounding of an element with its draw. -/
def roundingOf (mode draw : Nat) : Rounding := if mode = 0 then .rne else if mode = 1 then .rtz else .rsr draw

/-! ### Counters and generators -/

/-- The error register's more than one event: NaN results, overflows and flushes of a unit (R197, R223, R224). -/
def State.vseCount (s : State) (u : Nat) (rs : List Rounded) : State :=
  let d := unitDie u
  let n (f : Rounded → Bool) : Nat := (rs.filter f).length
  if unitType u = 2 then
    ((s.bump F.VSE_EVENTS.NAN_COUNT (n (·.nan)) d).bump F.VSE_EVENTS.OVF_COUNT (n (·.ovf)) d).bump F.VSE_EVENTS.FLUSH_COUNT (n (·.flush)) d
  else
    ((s.bump F.VSC_EVENTS.NAN_COUNT (n (·.nan)) d).bump F.VSC_EVENTS.OVF_COUNT (n (·.ovf)) d).bump F.VSC_EVENTS.FLUSH_COUNT (n (·.flush)) d

/-- Draws for the elements of an operation, or zeros (R210). -/
def State.drawsFor (s : State) (die n : Nat) (draws : Bool) : State × List Nat :=
  if draws then s.drawVector die n else (s, List.replicate n 0)

/-- D of an operation that gives one element for each element of its inputs, with the mask applied (R192): the bytes, and
the results of the active elements. -/
def maskedResult (v : VsePayload) (fo : Nat) (mask : List Nat) (old : Bytes) (rs : List Rounded) : Bytes × List Rounded :=
  let olds := elementsOf fo v.n old
  let on (e : Nat) : Bool := !v.masked || mask.getD e 0 == 1
  let codes := (rs.zipIdx).map fun x =>
    if on x.2 then x.1.code else if v.zero then 0 else olds.getD x.2 0
  (bytesOfElements fo codes old, ((rs.zipIdx).filter fun x => on x.2).map (·.1))

/-- An operation of the VSE whose D has an element for each input element: its streams, its D format, and its elements
from the input codes, the activity of each element, and the draws. -/
def elementsTask (die cls : Nat) (p : BitVec 448) (formats : Bool) (inputs : List Stream3) (fo : Nat)
    (purposes : Nat) (elems : List (List Nat) → List Bool → List Nat → List Rounded) : Task :=
  let v := vsePayload p
  let u := unitId die 2 0
  let d : Stream3 := ⟨v.dst, fo, v.n⟩
  let draws := purposes != 0
  let keep := v.masked && !v.zero
  let maskSpan : List Span := if v.masked then [⟨v.mask, (v.n + 7) / 8, false⟩] else []
  let ins := inputs.map (·.span) ++ maskSpan
  let olds : List Span := if keep || fo == 13 then [d.span] else []
  { unit := u, cls := cls, payload := bytesOf p, draws := fun _ => draws
    check := fun _ => vseCheck v formats inputs [d] purposes
    order := fun s k => s.earlierDone u k [0x10, 0x11, 0x12, 0x13, 0x14, 0x15, 0x16]
    plan := fun s => {
        reads := ins ++ olds, writes := [d.span true], near := ins ++ (if keep then olds else []), nearCause := 2
        accessCause := 7, posted := true
        body := fun s' =>
          let get (x : Span) : Bytes := s'.spanBytes u die s.asidOf x.va x.len
          let codes := inputs.map fun x => elementsOf x.fmt x.n (get x.span)
          let mask := if v.masked then elementsOf 13 v.n (get ⟨v.mask, (v.n + 7) / 8, false⟩) else []
          let old := if keep || fo == 13 then get d.span else []
          let (s', rs) := s'.drawsFor die v.n draws
          let on := (List.range v.n).map fun e => !v.masked || mask.getD e 0 == 1
          let (out, active) := maskedResult v fo mask old (elems codes on rs)
          (s'.vseCount u active, .writes [(v.dst, out)]) } }

/-- Element e of input stream i. -/
def elemAt (codes : List (List Nat)) (i e : Nat) : Nat := (codes.getD i []).getD e 0

/-! ### EW, CVT, DGRAD, RAND -/

/-- Whether an EW payload's formats are a combination of R196. -/
def ewFormats (v : VsePayload) : Bool :=
  let used := ([v.fa, v.fb, v.fc]).take (max 1 (ewArity v.func))
  let cmp := decide (0x30 ≤ v.func) && decide (v.func ≤ 0x35)
  if isFloat v.fa then
    isFpFunc v.func && used.all isFloat && (if cmp then v.fo == 13 else isFloatOut v.fo)
  else
    isIntFunc v.func && isInteger v.fa && used.all (· == v.fa) && (if cmp then v.fo == 13 else isInteger v.fo)

/-- The input streams of an EW operation. -/
def ewInputs (v : VsePayload) : List Stream3 :=
  ([⟨v.a, v.fa, v.n⟩, ⟨v.b, v.fb, v.n⟩, ⟨v.c, v.fc, v.n⟩] : List Stream3).take (ewArity v.func)

/-- One element of EW (R196 to R202). -/
def ewElement (v : VsePayload) (codes : List (List Nat)) (draw e : Nat) : Rounded :=
  let x (i : Nat) : Nat := elemAt codes i e
  if isFloat v.fa then
    let a := (fmtOf v.fa).decode (x 0)
    let b := (fmtOf v.fb).decode (x 1)
    let c := (fmtOf v.fc).decode (x 2)
    if 0x30 ≤ v.func then { code := b2n (fpCompare v.func a b) }
    else if v.func = 0x2D ∨ v.func < 0x20 then
      let (r, ovf) := fpOp v.func a b c ((fmtOf v.fa).decode (v.imm % 2 ^ (fmtOf v.fa).width))
      let res := (fmtOf v.fo).round (roundingOf v.mode draw) v.sat true r
      { res with ovf := res.ovf || ovf }
    else { code := 0 }
  else
    let a := intDecode v.fa (x 0)
    let b := intDecode v.fa (x 1)
    let c := intDecode v.fa (x 2)
    if 0x30 ≤ v.func then { code := b2n (intCompare v.func a b) }
    else { code := intEncode v.fo v.sat (intOp v.func (intWidth v.fa) (intSigned v.fa) a b c (intDecode v.fa v.imm) e) }

/-- Whether an operation's output rounding draws: RSR on a floating result (R193, R210). -/
def roundsRsr (v : VsePayload) (float : Bool) : Nat := b2n (v.mode == 2 && float)

/-- EW as an operation of the vector engine. -/
def ewTask (die : Nat) (p : BitVec 448) : Task :=
  let v := vsePayload p
  elementsTask die 0x10 p (ewFormats v) (ewInputs v) v.fo (roundsRsr v (isFloatOut v.fo)) fun codes _ draws =>
    (List.range v.n).map fun e => ewElement v codes (draws.getD e 0) e

/-- EW (R196). -/
def execEw (die : Nat) (p : BitVec 448) (s : State) : Host.Outcome State Fault Refusal :=
  act (.ew die p) s fun s =>
    s.runOp (ewTask die p)

/-- One element of CVT (R205): A, or the exact product A * IMM, in FMT_O with gradual underflow. -/
def cvtElement (v : VsePayload) (wideImm : Nat) (code draw : Nat) : Rounded :=
  let rnd := roundingOf v.mode draw
  let val : Fp :=
    if isInteger v.fa then
      let x := if v.func = 1 then intDecode v.fa code * intDecode v.fa v.imm else intDecode v.fa code
      .fin (decide (x < 0)) x.natAbs 0
    else
      let f := fmtOf v.fa
      let imm := if v.fa = 6 then wideImm else v.imm % 2 ^ f.width
      if v.func = 1 then (f.decode code).mul (f.decode imm) else f.decode code
  if isInteger v.fo then
    if isInteger v.fa then
      (match val with
       | .fin n m _ => { code := intEncode v.fo v.sat (if n then -(m : Int) else (m : Int)) }
       | _ => { code := 0 })
    else match val with
      | .nan => { code := 0, nan := true }
      | .inf n => { code := unsigned (intWidth v.fo) (if n then intLow v.fo else intHigh v.fo) }
      | .fin n m e =>
        let r := if m = 0 then 0 else roundMag rnd m e 0
        { code := intEncode v.fo true (if n then -(r : Int) else (r : Int)) }
  else
    let flush := isInteger v.fa
    (fmtOf v.fo).round rnd v.sat flush (match val with | .fin n m e => if m = 0 then .zero else .fin n m e | x => x)

/-- CVT as an operation of the vector engine; `imm` is the unstated immediate of an FP64 source (log entry 17). -/
def cvtTask (die : Nat) (p : BitVec 448) (imm : Nat) : Task :=
  let v := vsePayload p
  let ok (f : Nat) : Bool := isFloatOut f || f == 6 || isInteger f
  elementsTask die 0x11 p (ok v.fa && ok v.fo && decide (v.func ≤ 1)) [⟨v.a, v.fa, v.n⟩] v.fo
    (roundsRsr v true) fun codes _ draws =>
      (List.range v.n).map fun e => cvtElement v imm (elemAt codes 0 e) (draws.getD e 0)

/-- CVT (R205). A 32-bit immediate does not fill the FP64 it is read in; that value is a free one (log entry 17). -/
def execCvt (die : Nat) (p : BitVec 448) (s : State) : Host.Outcome State Fault Refusal :=
  act (.cvt die p) s fun s =>
    (s.took 1).runOp (cvtTask die p s.free)

/-- The product of two FP32 codes, rounded once (R135). -/
def mul32 (a b : Nat) : Nat := (to32 ((of32 a).mul (of32 b))).code

/-- The derivative d of R207, as an FP32 code. -/
def derivative (func y imm : Nat) : Nat :=
  let one := 0x3F800000
  let neg (x : Nat) : Nat := (to32 (of32 x).neg).code
  let pos := Fp.lt .zero (of32 y)
  match func with
  | 0 => if pos then one else 0
  | 1 => if pos then one else imm
  | 2 => mul32 y (add32 one (neg y))
  | 3 => add32 one (neg (mul32 y y))
  | 4 => y
  | 5 => dSoftplus y
  | 6 => if pos then one else add32 y imm
  | 7 => dSqrt y
  | 8 => neg (mul32 y y)
  | 9 => dGelu y
  | _ => dSilu y

/-- DGRAD as an operation of the vector engine. -/
def dgradTask (die : Nat) (p : BitVec 448) : Task :=
  let v := vsePayload p
  let ok := isFloat v.fa && isFloat v.fb && isFloatOut v.fo && decide (v.func ≤ 10)
  let to32c (f code : Nat) : Nat := (fp32.round .rne false false ((fmtOf f).decode code)).code
  let imm := to32c v.fa (v.imm % 2 ^ (fmtOf v.fa).width)
  elementsTask die 0x14 p ok [⟨v.a, v.fa, v.n⟩, ⟨v.b, v.fb, v.n⟩] v.fo (roundsRsr v true) fun codes _ draws =>
    (List.range v.n).map fun e =>
      let d := derivative v.func (to32c v.fb (elemAt codes 1 e)) imm
      (fmtOf v.fo).round (roundingOf v.mode (draws.getD e 0)) v.sat true (((fmtOf v.fa).decode (elemAt codes 0 e)).mul (of32 d))

/-- DGRAD (R207). -/
def execDgrad (die : Nat) (p : BitVec 448) (s : State) : Host.Outcome State Fault Refusal :=
  act (.dgrad die p) s fun s =>
    s.runOp (dgradTask die p)

/-- One random element (R213). -/
def randElement (func imm r : Nat) : Nat :=
  match func with
  | 0 => r
  | 1 => (fp32.round .rne false false (.fin false (r >>> 8) (-24))).code
  | _ => b2n (decide (r < imm))

/-- RAND as an operation of the vector engine. -/
def randTask (die : Nat) (p : BitVec 448) : Task :=
  let v := vsePayload p
  let ok := (v.func == 0 && v.fo == 12) || (v.func == 1 && v.fo == 5) || (v.func == 2 && v.fo == 13)
  elementsTask die 0x15 p ok [] v.fo (1 + b2n (v.mode == 2)) fun _ _ draws =>
    (List.range v.n).map fun e => { code := randElement v.func v.imm (draws.getD e 0) }

/-- RAND (R210, R213). -/
def execRand (die : Nat) (p : BitVec 448) (s : State) : Host.Outcome State Fault Refusal :=
  act (.rand die p) s fun s =>
    s.runOp (randTask die p)

/-! ### SCAN and REDUCE -/

/-- The operators of scans and reductions on FP32 codes: 0 add, 1 maximum, 2 minimum. -/
def fold32 (op a b : Nat) : Nat :=
  match op with
  | 0 => add32 a b
  | 1 => (fp32.round .rne false false ((of32 a).max (of32 b))).code
  | _ => (fp32.round .rne false false ((of32 a).min (of32 b))).code

/-- The same on integers. -/
def foldInt (op : Nat) (a b : Int) : Int := match op with | 0 => a + b | 1 => max a b | _ => min a b

/-- The identity of an operator on FP32 codes (R203). -/
def identity32 (op : Nat) : Nat := match op with | 0 => 0 | 1 => 0xFF800000 | _ => 0x7F800000
/-- The identity of an operator on a format's integers (R203). -/
def identityInt (op f : Nat) : Int := match op with | 0 => 0 | 1 => intLow f | _ => intHigh f

/-- The pseudocode of R203, over elements with their activity and flags: the values before rounding. -/
def scanGo {α : Type} (op : α → α → α) (id_ : α) (exclusive segmented : Bool) : α → List (α × Bool × Bool) → List α
  | _, [] => []
  | acc, (x, on, flag) :: rest =>
    let acc := if segmented && flag then id_ else acc
    let next := op acc (if on then x else id_)
    (if exclusive then acc else next) :: scanGo op id_ exclusive segmented next rest

/-- SCAN as an operation of the vector engine. -/
def scanTask (die : Nat) (p : BitVec 448) : Task :=
  let v := vsePayload p
  let op := v.func % 4
  let exclusive := bit v.func 2
  let segmented := bit v.func 3
  let float := isFloat v.fa
  let ok := decide (op ≤ 2) && decide (v.func < 16) &&
    (if float then isFloatOut v.fo else isInteger v.fa && isInteger v.fo)
  let inputs : List Stream3 := [⟨v.a, v.fa, v.n⟩] ++ (if segmented then [⟨v.c, 13, v.n⟩] else [])
  elementsTask die 0x12 p ok inputs v.fo (roundsRsr v float) fun codes on draws =>
    let flags (e : Nat) : Bool := elemAt codes 1 e == 1
    let items {α : Type} (f : Nat → α) : List (α × Bool × Bool) :=
      (List.range v.n).map fun e => (f (elemAt codes 0 e), on.getD e true, flags e)
    if float then
      let xs := items fun c => (fp32.round .rne false false ((fmtOf v.fa).decode c)).code
      ((scanGo (fold32 op) (identity32 op) exclusive segmented (identity32 op) xs).zipIdx).map fun x =>
        (fmtOf v.fo).round (roundingOf v.mode (draws.getD x.2 0)) v.sat true (of32 x.1)
    else
      let xs := items fun c => intDecode v.fa c
      (scanGo (foldInt op) (identityInt op v.fa) exclusive segmented (identityInt op v.fa) xs).map fun x =>
        { code := intEncode v.fo v.sat x }

/-- SCAN (R203). -/
def execScan (die : Nat) (p : BitVec 448) (s : State) : Host.Outcome State Fault Refusal :=
  act (.scan die p) s fun s =>
    s.runOp (scanTask die p)

/-- The tree of R204 over the lane partials: neighbours are combined until one is left. -/
def laneTree {α : Type} (op : α → α → α) : Nat → List α → List α
  | 0, xs => xs
  | k + 1, xs =>
    let rec pairs : List α → List α
      | a :: b :: rest => op a b :: pairs rest
      | rest => rest
    laneTree op k (pairs xs)

/-- One group reduced by the order of R204 over `lanes` lanes, a power of two. -/
def reduceGroup {α : Type} (op : α → α → α) (id_ : α) (lanes : Nat) (xs : List α) : α :=
  let part := (xs.zipIdx).foldl (fun (ps : List α) x => ps.modify (x.2 % lanes) fun a => op a x.1) (List.replicate lanes id_)
  ((laneTree op (Nat.log2 lanes) part).head?).getD id_

/-- The operator under a reduction FUNC (R204): sums, maxima, minima. -/
def reduceOp (func : Nat) : Nat := match func with | 1 => 1 | 2 => 2 | 5 => 1 | _ => 0

/-- The term of an FP reduction: x, |x| or x * x rounded once (R204). -/
def reduceTerm32 (func x : Nat) : Nat :=
  match func with
  | 3 => x % 2 ^ 31
  | 5 => x % 2 ^ 31
  | 4 => mul32 x x
  | _ => x

/-- The term of an integer reduction. -/
def reduceTermInt (func : Nat) (x : Int) : Int :=
  match func with
  | 3 => (x.natAbs : Int)
  | 5 => (x.natAbs : Int)
  | 4 => x * x
  | _ => x

/-- The lane count L of a die (R191, R223). -/
def State.lanes (s : State) (die : Nat) : Nat := s.get F.VSE_CAPS.LANES die

/-- REDUCE as an operation of the vector engine. -/
def reduceTask (die : Nat) (p : BitVec 448) : Task :=
  let v := vsePayload p
  let u := unitId die 2 0
  let float := isFloat v.fa
  let ok := decide (v.func ≤ 5) && (if float then isFloatOut v.fo else isInteger v.fa && isInteger v.fo)
  let groups := if v.glen = 0 then 0 else v.n / v.glen
  let a : Stream3 := ⟨v.a, v.fa, v.n⟩
  let d : Stream3 := ⟨v.dst, v.fo, groups⟩
  let draws := v.mode == 2 && float
  let ins := [a.span] ++ (if v.masked then [(⟨v.mask, (v.n + 7) / 8, false⟩ : Span)] else [])
  let check : Option Nat :=
    match vseCheck v ok [a] [d] (b2n draws) with
    | some c => some c
    | none => if v.glen = 0 ∨ v.n % v.glen ≠ 0 then some 4 else none
  { unit := u, cls := 0x13, payload := bytesOf p, draws := fun _ => draws, check := fun _ => check
    order := fun s k => s.earlierDone u k [0x10, 0x11, 0x12, 0x13, 0x14, 0x15, 0x16]
    plan := fun s => {
        reads := ins, writes := [d.span true], near := ins, nearCause := 2, accessCause := 7, posted := true
        body := fun s' =>
          let get (x : Span) : Bytes := s'.spanBytes u die s.asidOf x.va x.len
          let codes := elementsOf v.fa v.n (get a.span)
          let mask := if v.masked then elementsOf 13 v.n (get ⟨v.mask, (v.n + 7) / 8, false⟩) else []
          let on (e : Nat) : Bool := !v.masked || mask.getD e 0 == 1
          let (s', rs) := s'.drawsFor die groups draws
          let op := reduceOp v.func
          let lanes := s'.lanes die
          let results := (List.range groups).map fun g =>
            let es := (List.range v.glen).map (· + g * v.glen)
            if float then
              let xs := es.map fun e =>
                if on e then reduceTerm32 v.func (fp32.round .rne false false ((fmtOf v.fa).decode (codes.getD e 0))).code
                else identity32 op
              (fmtOf v.fo).round (roundingOf v.mode (rs.getD g 0)) v.sat true (of32 (reduceGroup (fold32 op) (identity32 op) lanes xs))
            else
              let xs := es.map fun e =>
                if on e then reduceTermInt v.func (intDecode v.fa (codes.getD e 0)) else identityInt op v.fa
              ({ code := intEncode v.fo v.sat (reduceGroup (foldInt op) (identityInt op v.fa) lanes xs) } : Rounded)
          (s'.vseCount u results, .writes [(v.dst, bytesOfElements v.fo (results.map (·.code)) [])]) } }

/-- REDUCE (R204). Draws of RSR are per result element. -/
def execReduce (die : Nat) (p : BitVec 448) (s : State) : Host.Outcome State Fault Refusal :=
  act (.reduce die p) s fun s =>
    s.runOp (reduceTask die p)

/-! ### SLICE -/

/-- A finite element aligned for slicing (R141): trunc(a * 2^(L - 2 - E)). -/
def alignedInt (l : Nat) (e : Int) : Fp → Int
  | .fin n m x =>
    let r := if m = 0 then 0 else roundMag .rtz m (x + (l : Int) - 2 - e) 0
    if n then -(r : Int) else (r : Int)
  | _ => 0

/-- SLICE as an operation of the vector engine. -/
def sliceTask (die : Nat) (p : BitVec 448) : Task :=
  let v := vsePayload p
  let u := unitId die 2 0
  let f := fmtOf v.fa
  let slices := if v.fa = 6 then 7 else 4
  let l := 8 * slices
  let groups := if v.glen = 0 then 0 else v.n / v.glen
  let a : Stream3 := ⟨v.a, v.fa, v.n⟩
  let exps : List Stream3 := if v.func = 0 then [⟨v.b, 8, groups⟩] else []
  let planes : List Stream3 := (List.range slices).map fun i => ⟨v.dst + i * v.imm, 10, v.n⟩
  let descs : Stream3 := ⟨v.c, 12, groups⟩
  let keep := v.masked && !v.zero
  let maskSpan : List Span := if v.masked then [⟨v.mask, (v.n + 7) / 8, false⟩] else []
  let ins := [a.span] ++ exps.map (·.span) ++ maskSpan
  let olds := if keep then planes.map (·.span) else []
  let check : Option Nat :=
    match vseCheck v ((v.fa == 5 || v.fa == 6) && decide (v.func ≤ 1)) ([a] ++ exps) (planes ++ [descs]) 0 with
    | some c => some c
    | none => if v.glen = 0 ∨ v.n % v.glen ≠ 0 then some 4 else none
  { unit := u, cls := 0x16, payload := bytesOf p, check := fun _ => check
    order := fun s k => s.earlierDone u k [0x10, 0x11, 0x12, 0x13, 0x14, 0x15, 0x16]
    plan := fun s => {
      reads := ins ++ olds, writes := planes.map (·.span true) ++ [descs.span true], near := ins ++ olds
      nearCause := 2, accessCause := 7, posted := true
      body := fun s' =>
        let get (x : Span) : Bytes := s'.spanBytes u die s.asidOf x.va x.len
        let vals := (elementsOf v.fa v.n (get a.span)).map f.decode
        let given := if v.func = 0 then elementsOf 8 groups (get ⟨v.b, 2 * groups, false⟩) else []
        let mask := if v.masked then elementsOf 13 v.n (get ⟨v.mask, (v.n + 7) / 8, false⟩) else []
        let on (e : Nat) : Bool := !v.masked || mask.getD e 0 == 1
        let val (e : Nat) : Fp := vals.getD e .zero
        let members (g : Nat) : List Nat := ((List.range v.glen).map (· + g * v.glen)).filter on
        let expOf (g : Nat) : Int :=
          if v.func = 0 then signed 16 (given.getD g 0)
          else
            let es := (members g).filterMap fun e => match val e with
              | .fin _ m x => if m = 0 then none else some (log2Floor m x)
              | _ => none
            match es with | [] => 0 | x :: xs => xs.foldl max x
        let outside (g e : Nat) : Bool := match val e with
          | .fin _ m x => !(Fp.fin false m x).lt (.fin false 1 (expOf g + 1))
          | _ => false
        let desc (g : Nat) : Nat :=
          unsigned 16 (expOf g) + b2n ((members g).any fun e => !(val e).isFin) * 2 ^ 16 +
            b2n ((members g).any (outside g)) * 2 ^ 17
        let whole (e : Nat) : Nat :=
          let g := e / v.glen
          if outside g e || !(val e).isFin then 0 else unsigned l (alignedInt l (expOf g) (val e))
        let plane (i : Nat) : Nat × Bytes :=
          let old := if keep then get ⟨v.dst + i * v.imm, v.n, false⟩ else []
          (v.dst + i * v.imm, (List.range v.n).map fun e =>
            if on e then BitVec.ofNat 8 (bits (whole e) (l - 8 - 8 * i) 8)
            else if v.zero then 0 else old.getD e 0)
        (s', .writes ((List.range slices).map plane ++ [(v.c, (List.range groups).flatMap fun g => toLE 4 (desc g))])) } }

/-- SLICE (R140, R141, R162, R206). -/
def execSlice (die : Nat) (p : BitVec 448) (s : State) : Host.Outcome State Fault Refusal :=
  act (.slice die p) s fun s =>
    s.runOp (sliceTask die p)

/-! ### FLUSH -/

/-- The place of the first operation of a class without payload fields whose effect is still to come. -/
def State.findClass (s : State) (u cls : Nat) : Option Nat :=
  (s.unit u).ops.findIdx? fun o => o.opclass == cls && (o.state == .started || o.state == .waiting)

/-- The operation of a class without payload fields that a command acts on (log entry 6). -/
def State.takeClass (s : State) (u cls : Nat) : State × Nat :=
  match s.findClass u cls with
  | some k => (s, k)
  | none => s.takeOp u cls []

/-- Tags of the writes to other modules that a unit has under way. -/
def State.writesUnderWay (s : State) (u : Nat) : List Nat :=
  ((s.rem.pending.filter fun r => r.unit == u && r.write).map (·.tag)) ++
    ((s.rem.answers.filter fun r => r.1.unit == u && r.1.write).map (·.1.tag))

/-- FLUSH (R221): it completes when every write of the operations before it has been performed and confirmed. -/
def execFlush (u : Nat) (s : State) : Host.Outcome State Fault Refusal :=
  act (.flush u) s fun s =>
    if !s.unitFree u then s
    else
      let (s, k) := s.takeClass u 0x17
      if s.earlierDone u k [0x10, 0x11, 0x12, 0x13, 0x14, 0x15, 0x16, 0x20] then s.finishOp u k (s.writesUnderWay u) 0 else s

end Sys2Proof.Machine
end

