-- ==== Sys2Proof/Machine/Chain.lean ====
section
/-! DEFINITION. The stage chain (R214 to R220) and the two generator and register rules beside it (R212, R219). -/

namespace Sys2Proof.Machine

/-- A stage descriptor (R215). -/
structure Stage where
  func  : Nat
  src1  : Nat
  src2  : Nat
  reg   : Nat
  hold  : Bool
  after : Bool
  spare : Bool                           -- a reserved bit is set
  imm   : Nat

/-- Stage `i` of a CHAIN payload (R214, R215). -/
def chainStage (p : BitVec 960) (i : Nat) : Stage :=
  let w := pay p (48 + 8 * i) 8
  { func := bits w 0 8, src1 := bits w 8 4, src2 := bits w 12 4, reg := bits w 19 5, hold := bit w 24, after := bit w 25
    spare := bits w 16 3 != 0 || bits w 26 6 != 0, imm := bits w 32 32 }

/-- The operands a stage function takes: none for RAND and IOTA, one, or two; the third operand of FMA and CLAMP is not
stated (log entry 18). -/
def stageArity (func : Nat) : Nat :=
  if func = 0x50 then 0 else if 0x40 ≤ func then 1 else min 2 (ewArity func)

/-- Whether a stage uses a source code. -/
def Stage.uses (g : Stage) (src : Nat) : Bool :=
  (decide (1 ≤ stageArity g.func) && g.src1 == src) || (decide (2 ≤ stageArity g.func) && g.src2 == src)

/-- Whether a stage is a reduction stage. -/
def Stage.reduces (g : Stage) : Bool := decide (0x40 ≤ g.func) && decide (g.func ≤ 0x42)

/-- The fields of a CHAIN payload (R214). -/
structure ChainPayload where
  dst    : Nat
  a      : Nat
  b      : Nat
  c      : Nat
  n      : Nat
  glen   : Nat
  fa     : Nat
  fb     : Nat
  fc     : Nat
  fo     : Nat
  mode   : Nat
  sat    : Bool
  spare  : Bool
  stages : List Stage

/-- A CHAIN payload read from its bytes. -/
def chainPayload (p : BitVec 960) : ChainPayload :=
  { dst := pay p 0 8, a := pay p 8 8, b := pay p 16 8, c := pay p 24 8, n := pay p 32 4, glen := pay p 36 4
    fa := payBits p 40 0 4, fb := payBits p 40 4 4, fc := payBits p 41 0 4, fo := payBits p 41 4 4, mode := payBits p 42 0 2
    sat := payBits p 42 2 1 == 1, spare := payBits p 42 3 5 != 0 || !payZero p 44 4 || !payZero p 112 8
    stages := (List.range (pay p 43 1)).map (chainStage p) }

/-- The phases of a chain (R217): a stage with AFTER opens a new one. -/
def phasesOf (stages : List Stage) : List (List (Nat × Stage)) :=
  (stages.zipIdx).foldl (fun (acc : List (List (Nat × Stage))) x =>
    let item := (x.2, x.1)
    match acc.reverse with
    | [] => [[item]]
    | last :: rest => if x.1.after && x.2 != 0 then acc ++ [[item]] else rest.reverse ++ [last ++ [item]]) []

/-- The streams a chain reads. -/
def chainInputs (v : ChainPayload) : List Stream3 :=
  ([(1, (⟨v.a, v.fa, v.n⟩ : Stream3)), (2, ⟨v.b, v.fb, v.n⟩), (3, ⟨v.c, v.fc, v.n⟩)].filter fun x =>
    v.stages.any fun g => g.uses x.1).map (·.2)

/-- Whether a chain's formats are of one kind, as R196 asks. -/
def chainFormats (v : ChainPayload) : Bool :=
  let ok (f : Nat) : Bool := if isFloat v.fa then isFloat f else f == v.fa
  (isFloat v.fa || isInteger v.fa) && (if isFloat v.fa then isFloatOut v.fo else isInteger v.fo) &&
    ((chainInputs v).all fun x => ok x.fmt) &&
    v.stages.all fun g => decide (0x40 ≤ g.func ∧ g.func ≤ 0x42) || g.func == 0x50 || (if isFloat v.fa then isFpFunc g.func else isIntFunc g.func)

/-- Whether the stage configuration of a chain is one of R215 to R217 and R220. -/
def chainStagesOk (v : ChainPayload) : Bool :=
  let phases := phasesOf v.stages
  let regs := (v.glen - 1) / 1024
  let srcs (g : Stage) : List Nat := ([g.src1, g.src2]).take (stageArity g.func)
  decide (1 ≤ v.stages.length ∧ v.stages.length ≤ 8) && decide (phases.length ≤ 3) &&
    (v.stages.all fun g => !g.spare && (srcs g).all (fun x => decide (x ≤ 7)) &&
      (!(g.hold || g.uses 4 || g.uses 7) || decide (g.reg + regs ≤ 31))) &&
    (phases.all fun ph => match ph with | [] => true | (_, g) :: _ => !g.uses 0) &&
    ((phases.zipIdx).all fun ph => ph.1.all fun g => !g.2.uses 6 ||
      ((phases.take ph.2).any fun q => q.any fun h => h.2.reduces))

/-- The checks of a CHAIN (R190, R210, R214 to R220, R222). -/
def chainCheck (v : ChainPayload) : Option Nat :=
  let d : Stream3 := ⟨v.dst, v.fo, v.n⟩
  let draws := (v.stages.filter fun g => g.func == 0x50).length + b2n (v.mode == 2 && isFloat v.fa)
  if v.spare || v.mode == 3 || !chainFormats v || !((chainInputs v ++ [d]).all fun x => addrOk x.va) then some 1
  else if v.n = 0 ∨ v.glen = 0 ∨ 32768 < v.glen ∨ v.n % v.glen ≠ 0 then some 4
  else if (chainInputs v).any fun x => badOverlap d x then some 3
  else if 1 < draws then some 5
  else if !chainStagesOk v then some 6
  else none

/-- The work of a chain: registers by lane number, the latest group scalar, outputs of the previous and of this group by
stage, results. Values are FP32 codes or integers. -/
structure ChainRun where
  regs   : List (Nat × Int)
  scalar : Int := 0
  prev   : List (Nat × List Int) := []
  cur    : List (Nat × List Int) := []
  count  : List Rounded := []
  out    : List Int := []

/-- The result of a stage function (R218): FP rounded to FP32 by R135, or signed 64 bits. -/
def stageResult (float : Bool) (func : Nat) (a b c imm : Int) (draw e : Nat) : Rounded × Int :=
  if func = 0x50 then
    let on := decide (draw < unsigned 32 imm)
    let code := if float then (if on then 0x3F800000 else 0) else b2n on
    ({ code := code }, code)
  else if float then
    if 0x30 ≤ func then
      let code := if fpCompare func (of32 a.toNat) (of32 b.toNat) then 0x3F800000 else 0
      ({ code := code }, code)
    else
      let (r, ovf) := fpOp func (of32 a.toNat) (of32 b.toNat) (of32 c.toNat) (of32 imm.toNat)
      let r := to32 r
      ({ r with ovf := r.ovf || ovf }, (r.code : Int))
  else if 0x30 ≤ func then ({ code := 0 }, (b2n (intCompare func a b) : Nat))
  else ({ code := 0 }, signed 64 (unsigned 64 (intOp func 64 true a b c imm e)))

/-- One stage at one position of a group (R216, R217). -/
def ChainRun.stage (r : ChainRun) (v : ChainPayload) (float : Bool) (codes : Nat → Nat → Int) (draws : List Nat) (third : Int)
    (group p : Nat) (i : Nat) (g : Stage) : ChainRun :=
  let e := group * v.glen + p
  let imm : Int := if float then (g.imm : Int) else signed 32 g.imm
  let lane := (g.reg + p / 1024) * 1024 + p % 1024
  let reg := (lookupKey lane r.regs).getD 0
  let out (rows : List (Nat × List Int)) (j : Nat) : Option Int := ((lookupKey j rows).getD [])[p]?
  let src (code : Nat) : Int :=
    match code with
    | 0 => (out r.cur (i - 1)).getD 0
    | 1 => codes 1 e
    | 2 => codes 2 e
    | 3 => codes 3 e
    | 4 => reg
    | 5 => imm
    | 6 => r.scalar
    | _ => if group = 0 then reg else (out r.prev i).getD 0
  let (res, val) : Rounded × Int :=
    if g.reduces then ({ code := 0 }, src g.src1)
    else stageResult float g.func (src g.src1) (src g.src2) third imm (draws.getD e 0) e
  { r with
    cur := setKey i (((lookupKey i r.cur).getD []) ++ [val]) r.cur
    regs := if g.hold then setKey lane (if float then val else signed 32 (unsigned 32 val)) r.regs else r.regs
    count := if float then r.count ++ [res] else r.count }

/-- One phase over a group (R217): positions in ascending order, then the scalars of its reduction stages. -/
def ChainRun.phase (r : ChainRun) (v : ChainPayload) (float : Bool) (lanes : Nat) (codes : Nat → Nat → Int) (draws : List Nat)
    (third : Int) (group : Nat) (ph : List (Nat × Stage)) : ChainRun :=
  let r := (List.range v.glen).foldl (fun r p =>
    ph.foldl (fun r g => r.stage v float codes draws third group p g.1 g.2) r) r
  ph.foldl (fun r g =>
    if g.2.reduces then
      let op := g.2.func - 0x40
      let xs := (lookupKey g.1 r.cur).getD []
      { r with scalar :=
          if float then (reduceGroup (fold32 op) (identity32 op) lanes (xs.map (·.toNat)) : Nat)
          else reduceGroup (foldInt op) (identityInt op v.fa) lanes xs }
    else r) r

/-- One group through every phase; the last stage's outputs are its part of D. -/
def ChainRun.group (r : ChainRun) (v : ChainPayload) (float : Bool) (lanes : Nat) (codes : Nat → Nat → Int) (draws : List Nat)
    (third : Int) (group : Nat) : ChainRun :=
  let r := (phasesOf v.stages).foldl (fun r ph => r.phase v float lanes codes draws third group ph) { r with cur := [] }
  { r with prev := r.cur, out := r.out ++ (lookupKey (v.stages.length - 1) r.cur).getD [] }

/-- The lanes of V0 to V31 that registers name, as lane number and value. -/
def State.vregLanes (s : State) (die : Nat) (float : Bool) (lanes : List Nat) : List (Nat × Int) :=
  lanes.map fun l =>
    let x := s.get (if l % 2 = 0 then F.VSC_VREG.LANE_EVEN else F.VSC_VREG.LANE_ODD) die (l / 2)
    (l, if float then (x : Int) else signed 32 x)

/-- Lanes of V0 to V31 written. -/
def State.setLanes (s : State) (die : Nat) (regs : List (Nat × Int)) : State :=
  regs.foldl (fun s r =>
    s.put (if r.1 % 2 = 0 then F.VSC_VREG.LANE_EVEN else F.VSC_VREG.LANE_ODD) (unsigned 32 r.2) die (r.1 / 2)) s

/-- CHAIN as an operation of its engine. -/
def chainTask (die : Nat) (p : BitVec 960) : Task :=
  let v := chainPayload p
  let u := unitId die 3 0
  let float := isFloat v.fa
  let d : Stream3 := ⟨v.dst, v.fo, v.n⟩
  let ins := (chainInputs v).map (·.span)
  let draws := (v.stages.any fun g => g.func == 0x50) || (v.mode == 2 && float)
  { unit := u, cls := 0x20, payload := bytesOf p, draws := fun _ => draws, check := fun _ => chainCheck v
    order := fun s k => s.earlierDone u k [0x20]
    plan := fun s => {
        reads := ins, writes := [d.span true], near := ins, nearCause := 2, accessCause := 7, posted := true
        body := fun s' =>
          let get (va f : Nat) : List Nat := elementsOf f v.n (s'.spanBytes u die s.asidOf va (streamBytes f v.n))
          let used (i : Nat) : Bool := v.stages.any fun g => g.uses i
          let val (f code : Nat) : Int :=
            if float then (((fp32.round .rne false false ((fmtOf f).decode code)).code : Nat) : Int) else intDecode f code
          let load (i va f : Nat) : List Int := if used i then (get va f).map (val f) else []
          let ca := load 1 v.a v.fa
          let cb := load 2 v.b v.fb
          let cc := load 3 v.c v.fc
          let codes (i e : Nat) : Int := (match i with | 1 => ca | 2 => cb | _ => cc).getD e 0
          let (s', rs) := s'.drawsFor die v.n draws
          let third : Int := (s'.free % 2 ^ 32 : Nat)
          let lanesUsed := (v.stages.filter fun g => g.hold || g.uses 4 || g.uses 7).flatMap fun g =>
            (List.range v.glen).map fun q => (g.reg + q / 1024) * 1024 + q % 1024
          let r := (List.range (v.n / v.glen)).foldl
            (fun (r : ChainRun) g => r.group v float (s'.lanes die) codes rs third g) { regs := s'.vregLanes die float (distinct lanesUsed) }
          let s' := ((s'.took 1).setLanes die r.regs).vseCount u r.count
          let outs := (r.out.zipIdx).map fun x =>
            if float then (fmtOf v.fo).round (roundingOf v.mode (rs.getD x.2 0)) v.sat true (of32 x.1.toNat)
            else { code := intEncode v.fo v.sat x.1 }
          let s' := if float && v.fo != 5 then s'.vseCount u outs else s'
          (s', .writes [(v.dst, bytesOfElements v.fo (outs.map (·.code)) [])]) } }

/-- CHAIN (R214 to R220). -/
def execChain (die : Nat) (p : BitVec 960) (s : State) : Host.Outcome State Fault Refusal :=
  act (.chain die p) s fun s =>
    s.runOp (chainTask die p)

/-- A write to VSE_GEN_STATE (R212): only in IDLE, REPLAY_WAIT or HALTED, and never to all zero. `idx` is 2g + w. -/
def State.genWrite (s : State) (die idx half v : Nat) : State :=
  let st := s.sched.st
  if st == .running || st == .aborting then s.flag F.VSE_EVENTS.GEN_WRITE_DISCARD die
  else
    let w := s.genWords die (idx / 2)
    let w' := if idx % 2 = 0 then (halfWrite w.1 half v, w.2) else (w.1, halfWrite w.2 half v)
    if w'.1 = 0 ∧ w'.2 = 0 then s.flag F.VSE_EVENTS.GEN_ZERO die else s.setGen die (idx / 2) w'

/-- GEN_STATE_WRITE (R212). -/
def execGenStateWrite (die idx half v : Nat) (s : State) : Host.Outcome State Fault Refusal :=
  act (.genStateWrite die idx half v) s fun s => s.genWrite die idx half v

/-- V0 to V31 of every compute die at the start of a step (R219). -/
def State.resetVregs (s : State) : State := { s with regs := s.regs.filter fun r => r.1.reg != .VSC_VREG }

end Sys2Proof.Machine
end

