-- ==== Sys2Proof/Machine/Translate.lean ====
section
/-! DEFINITION. The translation unit's commands: miss records and their answers (R431 to R434), run-ahead translation
(R435, R436), invalidation (R437, R438), and the resumption of a stalled unit (R440). -/

namespace Sys2Proof.Machine

/-! ### Faults of waiting accesses -/

/-- The cause that a unit's error register names for an access (R186, R223, R224, R258, R355, R383); 0 for a unit without
one. -/
def accessCauseOf (u : Nat) : Nat :=
  if isCompute (unitDie u) then
    (match unitType u with
     | 0 => 5 | 1 => 5 | 2 => 7 | 3 => 7 | 5 => 9 | 6 => 9 | 7 => 10 | _ => 0)
  else match unitType u with
    | 2 => 11
    | 3 => 9
    | _ => 0

/-- The place of a unit's waiting operation with this stream entry. -/
def State.waitingOp (s : State) (u entry : Nat) : Option Nat :=
  (s.unit u).ops.findIdx? fun o => o.entry == entry && o.state == .waiting

/-- The number under which a queue command waits for a translation: its queue and the counter of its entry. -/
def Cmd.key (c : Cmd) : Nat := c.q * 2 ^ 20 + c.c

/-- An access of a queue command faults: its engine stalls with its record (R439). -/
def State.faultCommand (s : State) (key asid cause va : Nat) (write : Bool) : State :=
  match s.qcx.cmds.find? fun c => c.key == key && c.status.isNone with
  | none => s
  | some c =>
    let s := s.bump F.XLT_COUNTS.FAULTS 1 (unitDie c.engine)
    let s := s.faultOf c.engine cause fun r =>
      { r with vaddr := va % 2 ^ 64, asid := asid, write := write, stalled := true, segment := 0 }
    s.onQcx fun q =>
      { q with cmds := updateFirst (fun c => c.key == key) (fun c => { c with stall := some ⟨va, write, asid, key⟩ }) q.cmds }

/-- A waiting access faults: of an operation in a stream, or of a queue command. -/
def State.faultWaiter (s : State) (asid cause : Nat) (w : Waiter) : State :=
  if isStreamUnit w.unit then
    (match s.waitingOp w.unit w.op with
     | some k => s.faultAccess w.unit k asid cause w.vaddr w.write
     | none => s)
  else s.faultCommand w.op asid cause w.vaddr w.write

/-- A slot that is open. -/
def State.missSlot (s : State) (die slot : Nat) : Option MissSlot :=
  s.xlt.slots.find? fun m => m.die == die && m.slot == slot

/-- Close a slot. -/
def State.closeSlot (s : State) (die slot : Nat) : State :=
  s.onXlt fun x => { x with slots := removeFirst (fun m => m.die == die && m.slot == slot) x.slots }

/-- A slot closes and every access that waits on it faults (R433, R434). -/
def State.faultSlot (s : State) (m : MissSlot) (cause : Nat) : State :=
  m.waiters.foldl (fun s w => s.faultWaiter m.asid cause w) (s.closeSlot m.die m.slot)

/-! ### Miss records -/

/-- The 32 bytes of a miss record (R431). -/
def MissSlot.bytes (m : MissSlot) (phase : Bool) : Bytes :=
  withCrc (toLE 8 m.vaddr ++ toLE 2 m.asid ++ toLE 2 m.unit ++ toLE 1 m.slot ++
    toLE 1 (b2n m.write + 2 * b2n m.ahead + 128 * b2n phase) ++ zeros 14)

/-- Whether the miss queue is full (R432). -/
def State.missqFull (s : State) : Bool :=
  decide ((s.get F.XLT_MISSQ_PTR.TAIL + 2048 - s.get F.XLT_MISSQ_PTR.HEAD) % 2048 ≥ 1024)

/-- A slot's record enters the miss queue, or the slot waits for room (R432). -/
def State.writeMiss (s : State) (m : MissSlot) : State :=
  if s.missqFull then s.flag F.XLT_EVENTS.MISSQ_FULL m.die
  else
    let t := s.get F.XLT_MISSQ_PTR.TAIL
    let a := s.get F.XLT_MISSQ_BASE.BASE <<< 15 + 32 * (t % 1024)
    let s := if s.backedSpan a 32 then (s.writeSpan a (m.bytes (!bit t 10))).1 else s
    (s.addWrap F.XLT_MISSQ_PTR.TAIL 1).onXlt fun x =>
      { x with slots := updateFirst (fun n => n.die == m.die && n.slot == m.slot) (fun n => { n with written := true })
                          x.slots }

/-! ### Answers -/

/-- An answer that is discarded (R434). -/
def State.lateAnswer (s : State) (die : Nat) : State := (s.bump F.XLT_COUNTS.LATE 1 die).flag F.XLT_EVENTS.RESP_LATE die

/-- A covered slot's answer is discarded and its waiting accesses miss again (R437). -/
def State.missAgain (s : State) (m : MissSlot) : State :=
  m.waiters.foldl (fun s w => s.openMiss m.die m.asid w m.ahead) (s.closeSlot m.die m.slot)

/-- Bits of an answer's SIZE (R447): the page size 2^z. -/
def pageBits (size : Nat) : Nat := match size with | 0 => 16 | 1 => 21 | _ => 30

/-- A fill (R430, R433). A fill whose SIZE is 3 or whose FRAME is not aligned faults the accesses. -/
def State.fillSlot (s : State) (m : MissSlot) (size frame : Nat) (w r : Bool) : State :=
  let z := pageBits size
  let pa := frame <<< 16
  if size = 3 ∨ pa % 2 ^ z ≠ 0 then (s.flag F.XLT_EVENTS.RESP_BAD m.die).faultSlot m 1
  else (s.closeSlot m.die m.slot).xltInstall
    { die := m.die, asid := m.asid, page := m.vaddr >>> z, size := z, frame := pa, r := r, w := w }

/-- An answer to a miss (R433, R434, R437): `none` is ACTION 2, else the fields of a fill from the written word. -/
def State.answerMiss (s : State) (die slot : Nat) (fill : Option Nat) : State :=
  match s.missSlot die slot with
  | none => s.lateAnswer die
  | some m =>
    if m.stale then s.missAgain m
    else match fill with
      | none => s.faultSlot m 1
      | some v => s.fillSlot m (bits v 60 2) (bits v 16 44) (bit v 1) (bit v 0)

/-- A write to XLT_RESP (R433): ACTION 0 and 3 are discarded. -/
def State.respWrite (s : State) (die slot v : Nat) : State :=
  match bits v 62 2 with
  | 1 => s.answerMiss die slot (some v)
  | 2 => s.answerMiss die slot none
  | _ => s

/-- A slot that has written its record times out (R434). -/
def State.timeoutMiss (s : State) (die slot : Nat) : State :=
  match s.missSlot die slot with
  | none => s
  | some m => if m.written then (s.flag F.XLT_EVENTS.TIMEOUT die).faultSlot m 3 else s

/-! ### Run-ahead translation -/

/-- The granules of a translation operation in order (R435): what the lookups give, each miss opening a slot; the first
fault ends it. One that runs ahead and finds too few free slots opens none and ends with its item marked (R580). -/
def State.prefetch (s : State) (u : Nat) (o : Op) (write : Bool) (gs : List Nat) : State × Bool × Option (Nat × Nat) :=
  let die := unitDie u
  match gs with
  | [] => (s, true, none)
  | va :: rest =>
    match s.lookupVa die s.asidOf va write with
    | .fault c => (s, true, some (va, c))
    | .hit _ => (s.xltUse die s.asidOf va).prefetch u o write rest
    | .miss =>
      if o.ahead && !s.aheadSlot die s.asidOf (va / 65536) then (s, false, some (va, 0))
      else
        let s := s.openMiss die s.asidOf ⟨u, va, write, o.entry⟩ true
        let (s, _, f) := s.prefetch u o write rest
        (s, false, f)

/-- The place of item k of a channel (R645). -/
def Channel.itemAt (c : Channel) (k : Nat) : Nat := c.buffer + (k % c.depth) * c.itemBytes

/-- The run-ahead translation writes its item: the granule count, then 0 (R435). -/
def State.prefetchItem (s : State) (k : Nat) (u count : Nat) : State :=
  let item := toLE 4 count ++ zeros 60
  let s := match (s.opAt u k).outs with
    | (ch, n) :: _ =>
      (match s.sched.image with
       | some i => (match i.channels[ch]? with | some c => s.writeSectors (c.itemAt n) item | none => s)
       | none => s)
    | [] => s
  s.finishOp u k [] 0

/-- XPF (R435, R436). -/
def State.prefetchOp (s : State) (die : Nat) (p : BitVec 192) : State :=
  let u := unitId die 8 0
  if !s.unitFree u then s
  else
    let (s, k) := s.takeOp u 0x50 (bytesOf p)
    let count := pay p 8 4
    if count = 0 ∨ payBits p 12 1 7 ≠ 0 ∨ !payZero p 13 11 then s.failOp u k 0 .operation
    else
      let va := pay p 0 8
      let write := payBits p 12 0 1 == 1
      let granules := (List.range count).map fun i => (va / 65536 + i) * 65536
      match s.prefetch u (s.opAt u k) write granules with
      | (s, _, some (a, c)) => s.faultAccess u k s.asidOf c a write
      | (s, true, none) => s.prefetchItem k u count
      | (s, false, none) => s.waitOp u k

/-! ### Invalidation -/

/-- Whether an invalidation's scope covers a range of an ASID (R437). -/
def covers (scope asid lo len : Nat) (easid elo elen : Nat) : Bool :=
  scope == 0 || (easid == asid && (scope == 1 || (decide (elo < lo + len) && decide (lo < elo + elen))))

/-- The accesses of a die's units under way at other modules and PCIe ports: a number of each, and its fabric physical
address. -/
def State.waysOut (s : State) (die : Nat) : List (Nat × Nat) :=
  ((s.rem.pending ++ s.rem.answers.map (·.1)).filter fun r => unitDie r.unit == die).map (fun r => (r.tag * 128 + r.fd, r.addr)) ++
    s.pci.outstanding.filterMap fun p => match p.unit with
      | some u => if unitDie u == die then some ((p.tag * 2 + p.port) * 128, s.erg <<< 59 + s.moduleNo <<< 47 + p.addr) else none
      | none => none

/-- A START of an invalidation (R437, R438). -/
def State.invalidateXlt (s : State) (die : Nat) : State :=
  let scope := s.get F.XLT_INVAL.SCOPE die
  let pages := s.get F.XLT_INVAL.PAGES die
  let asid := s.get F.XLT_INVAL.ASID die
  let lo := s.get F.XLT_INVAL_VA.VA die <<< 16
  let len := pages <<< 16
  if s.on F.XLT_INVAL.DONE die then
    if scope = 3 ∨ (scope = 2 ∧ pages = 0) then s.flag F.XLT_EVENTS.INVAL_BAD die
    else
      let gone := s.xlt.entries.filter fun e =>
        e.die == die && covers scope asid lo len e.asid (e.page <<< e.size) (2 ^ e.size)
      let busy := (s.waysOut die).filter fun r => gone.any fun e => decide (e.frame ≤ r.2) && decide (r.2 < e.frame + 2 ^ e.size)
      (s.put F.XLT_INVAL.DONE 0 die).onXlt fun x =>
        { x with
          entries := x.entries.filter fun e => !gone.contains e
          slots := x.slots.map fun m =>
            if m.die == die && covers scope asid lo len m.asid (m.granule <<< 16) 65536 then { m with stale := true }
            else m
          inval := setKey die (busy.map (·.1)) x.inval }
  else s.flag F.XLT_EVENTS.INVAL_BUSY die

/-- A write to XLT_INVAL: its scope fields take their values, CLEAR_COUNTS zeroes the counts, START starts (R437,
R447). -/
def State.invalWrite (s : State) (die v : Nat) : State :=
  let s := (s.put F.XLT_INVAL.SCOPE (bits v 44 2) die).put F.XLT_INVAL.PAGES (bits v 28 16) die
  let s := s.put F.XLT_INVAL.ASID (bits v 0 12) die
  let s := if bit v 61 then s.setWord .XLT_COUNTS 0 die else s
  if bit v 63 then s.invalidateXlt die else s

/-- The removal is complete once the accesses translated by a removed entry are done (R438). -/
def State.invalDone (s : State) (die : Nat) : State :=
  match lookupKey die s.xlt.inval with
  | none => s
  | some tags =>
    if tags.any fun t => (s.waysOut die).any fun r => r.1 == t then s
    else (s.flag F.XLT_INVAL.DONE die).onXlt fun x => { x with inval := dropKey die x.inval }

/-! ### Resumption -/

/-- A resume that names no stalled unit is discarded (R440). -/
def State.resumeDiscard (s : State) : State := s.flag F.FLT_EVENTS.RESUME_DISCARD

/-- The faulting access is translated again: it may wait on a miss or fault again (R440). -/
def State.retryAccess (s : State) (w : Waiter) (asid : Nat) : State :=
  match s.lookupVa (unitDie w.unit) asid w.vaddr w.write with
  | .hit _ => s
  | .miss => s.openMiss (unitDie w.unit) asid w false
  | .fault c => s.faultWaiter asid c w

/-- The stall of a unit: of its operation, or of a command it serves. -/
def State.stallOf (s : State) (u : Nat) : Option Stall :=
  if isStreamUnit u then (s.unit u).stall
  else (s.qcx.cmds.find? fun c => c.engine == u && c.stall.isSome).bind (·.stall)

/-- The stall ends. -/
def State.endStall (s : State) (u : Nat) (t : Stall) : State :=
  if isStreamUnit u then s.onUnit u fun x => { x with stall := none }
  else s.onQcx fun q => { q with cmds := updateFirst (fun c => c.key == t.op) (fun c => { c with stall := none }) q.cmds }

/-- FLT_RESUME with RETRY (R440). -/
def State.resumeRetry (s : State) (u : Nat) : State :=
  match s.stallOf u with
  | none => s.resumeDiscard
  | some t => (s.endStall u t).retryAccess ⟨u, t.vaddr, t.write, t.op⟩ t.asid

/-- FLT_RESUME with ABORT (R440): the operation ends with an error status; its record is the one of its stall (R643). -/
def State.resumeAbort (s : State) (u : Nat) : State :=
  match s.stallOf u with
  | none => s.resumeDiscard
  | some t =>
    let s := s.endStall u t
    if isStreamUnit u then
      (match s.waitingOp u t.op with
       | none => s
       | some k =>
         let o := s.opAt u k
         ((s.recordError u o.segment o.opclass (accessCauseOf u) id).onOp u k fun o => { o with state := .failed }).onUnit
           u fun x => { x with opError := true })
    else s.onQcx fun q =>
      { q with cmds := updateFirst (fun c => c.key == t.op) (fun c => { c with status := some 2 }) q.cmds }

/-- A write to FLT_RESUME: ACTION 0 and 3 are discarded (R440, R448). -/
def State.resumeWrite (s : State) (v : Nat) : State :=
  match bits v 16 2 with
  | 1 => s.resumeRetry (bits v 0 16)
  | 2 => s.resumeAbort (bits v 0 16)
  | _ => s.resumeDiscard

/-! ### Commands -/

def execMissRecordWrite (die slot : Nat) (s : State) : Host.Outcome State Fault Refusal :=
  act (.missRecordWrite die slot) s fun s =>
    match s.missSlot die slot with
    | none => s
    | some m => if m.written then s else s.writeMiss m

def execXltRespFill (die slot v : Nat) (s : State) : Host.Outcome State Fault Refusal :=
  act (.xltRespFill die slot v) s fun s => s.answerMiss die slot (some v)

def execXltRespFault (die slot : Nat) (s : State) : Host.Outcome State Fault Refusal :=
  act (.xltRespFault die slot) s fun s => s.answerMiss die slot none

def execXltMissTimeout (die slot : Nat) (s : State) : Host.Outcome State Fault Refusal :=
  act (.xltMissTimeout die slot) s fun s => s.timeoutMiss die slot

def execXpf (die : Nat) (p : BitVec 192) (s : State) : Host.Outcome State Fault Refusal :=
  act (.xpf die p) s fun s => s.prefetchOp die p

def execXltInval (die v : Nat) (s : State) : Host.Outcome State Fault Refusal :=
  act (.xltInval die v) s fun s => s.invalWrite die (putBits v 63 1 1)

def execXltInvalDone (die : Nat) (s : State) : Host.Outcome State Fault Refusal :=
  act (.xltInvalDone die) s fun s => s.invalDone die

def execFltResumeRetry (target : Nat) (s : State) : Host.Outcome State Fault Refusal :=
  act (.fltResumeRetry target) s fun s => s.resumeRetry target

def execFltResumeAbort (target : Nat) (s : State) : Host.Outcome State Fault Refusal :=
  act (.fltResumeAbort target) s fun s => s.resumeAbort target

end Sys2Proof.Machine
end

