-- ==== Sys2Proof/Machine/Queue.lean ====
section
/-! DEFINITION. Hardware queues (R487 to R501, R512): contexts and their cache, doorbells, the actions of QCX_QCTL, and the
fetching of command entries. -/

namespace Sys2Proof.Machine

/-! ### Contexts -/

/-- The fabric die that serves a queue (R487). -/
def queueDie (q : Nat) : Nat := 72 + q % 4

/-- The local address of a context (R487). -/
def State.ctxAddr (s : State) (q : Nat) : Nat := s.get F.QCX_BASE.BASE <<< 26 + 64 * q

/-- A field of a context: its first byte and length (R488). -/
structure CtxFld where
  off : Nat
  len : Nat

def ctxRing : CtxFld := ⟨0, 8⟩
def ctxCq : CtxFld := ⟨8, 8⟩
def ctxRingLog : CtxFld := ⟨16, 1⟩
def ctxCqLog : CtxFld := ⟨17, 1⟩
def ctxAsid : CtxFld := ⟨18, 2⟩
def ctxCtl : CtxFld := ⟨20, 1⟩
def ctxState : CtxFld := ⟨21, 1⟩
def ctxMsiHart : CtxFld := ⟨22, 1⟩
def ctxMsiId : CtxFld := ⟨23, 2⟩
def ctxHead : CtxFld := ⟨25, 2⟩
def ctxTail : CtxFld := ⟨27, 2⟩
def ctxCqTail : CtxFld := ⟨29, 2⟩
def ctxCqHead : CtxFld := ⟨31, 2⟩
def ctxErrSeq : CtxFld := ⟨33, 2⟩
def ctxErrCause : CtxFld := ⟨35, 1⟩
def ctxParks : CtxFld := ⟨36, 1⟩

/-- The value of a field of a context. -/
def ctxGet (b : Bytes) (f : CtxFld) : Nat := fieldAt b f.off f.len

/-- A context with a field set. -/
def ctxPut (f : CtxFld) (v : Nat) (b : Bytes) : Bytes := patch b f.off (toLE f.len v)

/-- The states of a queue (R488). -/
def qDisabled : Nat := 0
def qIdle : Nat := 1
def qActive : Nat := 2
def qEarly : Nat := 3
def qError : Nat := 4

/-- A cached context. -/
def State.ctx (s : State) (q : Nat) : Option Bytes := lookupKey q s.qcx.cached

/-- A field of a queue's cached context, 0 when it is not cached. -/
def State.ctxField (s : State) (q : Nat) (f : CtxFld) : Nat := match s.ctx q with | some b => ctxGet b f | none => 0

/-- Change a cached context. -/
def State.onCtx (s : State) (q : Nat) (f : Bytes → Bytes) : State :=
  match s.ctx q with
  | some b => s.onQcx fun x => { x with cached := setKey q (f b) x.cached }
  | none => s

/-- Set a field of a cached context. -/
def State.setCtx (s : State) (q : Nat) (f : CtxFld) (v : Nat) : State := s.onCtx q (ctxPut f v)

/-- A context becomes its cache's most recently used. -/
def State.touchCtx (s : State) (q : Nat) : State :=
  match s.ctx q with
  | some b => s.onQcx fun x => { x with cached := dropKey q x.cached ++ [(q, b)] }
  | none => s

/-- A context is written to HBM with its CRC (R488, R490). -/
def State.writeCtx (s : State) (q : Nat) (b : Bytes) : State := s.writeSectors (s.ctxAddr q) (withCrc (b.take 60))

/-- The contexts that a die's cache holds, least recently used first. -/
def State.cachedOn (s : State) (die : Nat) : List (Nat × Bytes) := s.qcx.cached.filter fun e => queueDie e.1 == die

/-- Whether a context may be evicted (R490). -/
def evictable (b : Bytes) : Bool := ctxGet b ctxState == qIdle || ctxGet b ctxState == qDisabled

/-- A free place in a die's cache: room, or the place of the least recently used IDLE or DISABLED context, which is written
back (R490). -/
def State.ctxRoom (s : State) (die : Nat) : Option State :=
  if (s.cachedOn die).length < 8192 then some s
  else match (s.cachedOn die).find? fun e => evictable e.2 with
    | none => none
    | some e => some ((s.writeCtx e.1 e.2).onQcx fun x => { x with cached := dropKey e.1 x.cached })

/-- A context enters the cache. -/
def State.cacheCtx (s : State) (q : Nat) (b : Bytes) : State := s.onQcx fun x => { x with cached := x.cached ++ [(q, b)] }

/-! ### States of a queue -/

/-- Commands of a queue that have not posted their record. -/
def State.inFlight (s : State) (q : Nat) : List Cmd := s.qcx.cmds.filter fun c => c.q == q && !c.posted

/-- Whether a DISABLE of the queue is under way (R492). -/
def State.disabling (s : State) (q : Nat) : Bool := s.qcx.qctl.contains (queueDie q, q)

/-- The next entry's fetch sequence begins (R499): at HEAD, one at a time, while fewer than 8 commands are in flight
(R501). -/
def State.startFetch (s : State) (q : Nat) : State :=
  if s.ctxField q ctxState == qActive && s.ctxField q ctxHead != s.ctxField q ctxTail && !s.disabling q &&
      decide ((s.inFlight q).length < 8) && !(s.qcx.fetches.any fun f => f.q == q) then
    s.onQcx fun x => { x with fetches := x.fetches ++ [{ q := q, c := s.ctxField q ctxHead }] }
  else s

/-- An ACTIVE queue whose HEAD has reached TAIL and whose commands have all posted is IDLE (R491); else it fetches on. -/
def State.settleQueue (s : State) (q : Nat) : State :=
  if s.ctxField q ctxState = qActive ∧ s.ctxField q ctxHead = s.ctxField q ctxTail ∧ (s.inFlight q).isEmpty = true then
    State.setCtx (s.onQcx fun x => { x with fetches := x.fetches.filter fun f => f.q != q }) q ctxState qIdle
  else s.startFetch q

/-- A queue enters ERROR and fetches no more (R491). -/
def State.queueError (s : State) (q cause : Nat) : State :=
  if s.ctxField q ctxState = qDisabled then s
  else
    let s := ((s.setCtx q ctxState qError).setCtx q ctxErrCause cause).flag F.QCX_EVENTS.QUEUE_ERROR (queueDie q)
    s.onQcx fun x => { x with fetches := x.fetches.filter fun f => f.q != q }

/-! ### Doorbells -/

/-- A doorbell is discarded and counted (R492, R498). -/
def State.discardDoorbell (s : State) (q : Nat) : State :=
  (s.bump F.QCX_COUNTS.DB_DISCARDED 1 (queueDie q)).flag F.QCX_EVENTS.DB_DISCARD (queueDie q)

/-- A submission doorbell on a cached context (R491, R498, R500). -/
def State.submitted (s : State) (q value : Nat) : State :=
  let st := s.ctxField q ctxState
  if st = qDisabled ∨ s.disabling q = true then s.discardDoorbell q
  else if 2 ^ s.ctxField q ctxRingLog < (value + 65536 - s.ctxField q ctxHead) % 65536 then s.queueError q 1
  else
    let s := s.setCtx q ctxTail value
    let s := if (st = qIdle ∧ value ≠ s.ctxField q ctxHead) ∨ st = qEarly then s.setCtx q ctxState qActive else s
    s.settleQueue q

/-- A completion doorbell on a cached context (R498). -/
def State.consumed (s : State) (q value : Nat) : State :=
  if 2 ^ s.ctxField q ctxCqLog < (s.ctxField q ctxCqTail + 65536 - value) % 65536 then s.queueError q 3
  else s.setCtx q ctxCqHead value

/-- A doorbell takes effect on a cached context; kind 0 is a submission, 1 a completion (R497). -/
def State.ringCached (s : State) (q kind value : Nat) : State :=
  let s := s.touchCtx q
  if kind = 0 then s.submitted q value else s.consumed q value

/-- A doorbell recorded at the die that owns its queue (R490, R497, R498): it waits when the context is not cached. -/
def State.doorbell (s : State) (q kind value : Nat) : State :=
  match s.ctx q with
  | some _ => s.ringCached q kind value
  | none =>
    let s := if (s.ctxRoom (queueDie q)).isNone then s.flag F.QCX_EVENTS.CACHE_FULL (queueDie q) else s
    s.onQcx fun x => { x with waiting := x.waiting ++ [(q, kind, value)] }

/-- The doorbells that wait for a context take effect in order. -/
def State.ringWaiting (s : State) (q : Nat) : State :=
  let ws := s.qcx.waiting.filter fun w => w.1 == q
  ws.foldl (fun s w => s.ringCached w.1 w.2.1 w.2.2) (s.onQcx fun x => { x with waiting := x.waiting.filter fun w => w.1 != q })

/-- The context of a queue whose doorbell waits is fetched, once there is a place for it (R490). -/
def State.fetchCtx (s : State) (q : Nat) : State :=
  if (s.ctx q).isSome || !(s.qcx.waiting.any fun w => w.1 == q) then s
  else match s.ctxRoom (queueDie q) with
    | none => s
    | some s =>
      let a := s.ctxAddr q
      let (s, ok) := if s.backedSpan a 64 then s.readSpan a 64 else (s, false)
      if ok then (s.cacheCtx q (s.bytes a 64)).ringWaiting q
      else
        let ws := s.qcx.waiting.filter fun w => w.1 == q
        ws.foldl (fun s _ => s.discardDoorbell q) (s.onQcx fun x => { x with waiting := x.waiting.filter fun w => w.1 != q })

/-! ### QCX_QCTL -/

/-- Whether a ring of a context lies wholly in backed HBM or host memory (R489). -/
def State.ringBacked (s : State) (a n : Nat) : Bool := (region a == .hbm || region a == .host) && s.backedSpan a n

/-- The check of a context at ENABLE (R489). -/
def State.ctxPasses (s : State) (b : Bytes) : Bool :=
  crcHolds 64 b && ctxGet b ctxState == qDisabled && ctxGet b ctxHead == ctxGet b ctxTail &&
    ctxGet b ctxCqHead == ctxGet b ctxCqTail && decide (ctxGet b ctxRingLog ≤ 15) && decide (ctxGet b ctxCqLog ≤ 15) &&
    s.ringBacked (ctxGet b ctxRing) (256 * 2 ^ ctxGet b ctxRingLog) && s.ringBacked (ctxGet b ctxCq) (32 * 2 ^ ctxGet b ctxCqLog)

/-- The result of an action (R512). -/
def State.qctlResult (s : State) (die r : Nat) : State := s.put F.QCX_QCTL.RESULT r die

/-- ENABLE (R489, R491). -/
def State.enableQueue (s : State) (die q : Nat) : State :=
  if s.ctxField q ctxState ≠ qDisabled then s.qctlResult die 2
  else
    let a := s.ctxAddr q
    let (s, ok) := if s.backedSpan a 64 then s.readSpan a 64 else (s, false)
    let b := s.bytes a 64
    if ok && s.ctxPasses b then
      let b := ctxPut ctxState qIdle b
      let s := s.onQcx fun x => { x with cached := dropKey q x.cached }
      let s := match s.ctxRoom die with
        | some s => s.cacheCtx q b
        | none => s.writeCtx q b
      s.qctlResult die 0
    else s.qctlResult die 1

/-- DISABLE (R492): fetching stops at once; the action goes on until QCTL_DISABLE_DONE. -/
def State.disableQueue (s : State) (die q : Nat) : State :=
  (s.flag F.QCX_QCTL.BUSY die).onQcx fun x =>
    { x with qctl := x.qctl ++ [(die, q)], fetches := x.fetches.filter fun f => f.q != q }

/-- SYNC: the context is written back and stays cached (R512). -/
def State.syncQueue (s : State) (die q : Nat) : State :=
  (match s.ctx q with | some b => s.writeCtx q b | none => s).qctlResult die 0

/-- An action of QCX_QCTL (R512): 1 ENABLE, 2 DISABLE, 3 SYNC. One on a queue of another die, while BUSY, or of no known
number is discarded. -/
def State.qctl (s : State) (die q action : Nat) : State :=
  let s := s.put F.QCX_QCTL.QUEUE q die
  if queueDie q ≠ die ∨ s.on F.QCX_QCTL.BUSY die = true then s.flag F.QCX_EVENTS.QCTL_DISCARD die
  else match action with
    | 1 => s.enableQueue die q
    | 2 => s.disableQueue die q
    | 3 => s.syncQueue die q
    | _ => s.flag F.QCX_EVENTS.QCTL_DISCARD die

/-- A DISABLE completes once every fetched command has posted its record (R491, R492). -/
def State.disableDone (s : State) (die : Nat) : State :=
  match s.qcx.qctl.find? fun p => p.1 == die with
  | none => s
  | some (_, q) =>
    if (s.inFlight q).isEmpty then
      let s := match s.ctx q with
        | some b => (s.writeCtx q (ctxPut ctxState qDisabled b)).onQcx fun x => { x with cached := dropKey q x.cached }
        | none =>
          let a := s.ctxAddr q
          if s.backedSpan a 64 then s.writeCtx q (ctxPut ctxState qDisabled (s.bytes a 64)) else s
      let s := s.onQcx fun x => { x with qctl := removeFirst (· == (die, q)) x.qctl }
      (s.put F.QCX_QCTL.BUSY 0 die).qctlResult die 0
    else s

/-! ### Entries -/

/-- Whether an entry is valid for a counter of a ring of 2^n entries (R493, R494). -/
def entryValid (b : Bytes) (c n : Nat) : Bool :=
  (bit (fieldAt b 1 1) 0 == !bit c n) && fieldAt b 2 2 == c && fieldAt b 60 4 == crc32 (b.take 60 ++ b.drop 64)

/-- Whether a command is BAD_COMMAND (R494 to R496): an opcode of no row, a length outside its range, a COPY whose ranges
overlap, a misaligned flag. -/
def badCommand (b : Bytes) : Bool :=
  let src := fieldAt b 16 8
  let dst := fieldAt b 24 8
  let len := fieldAt b 32 8
  let inline := fieldAt b 4 1
  let lenBad : Bool := len == 0 || decide (2 ^ 32 < len)
  (bit (fieldAt b 1 1) 2 && fieldAt b 40 8 % 8 != 0) ||
    (match fieldAt b 0 1 with
     | 1 => false
     | 2 => lenBad || (decide (src < dst + len) && decide (dst < src + len))
     | 3 => inline == 0 || decide (192 < inline)
     | 4 => lenBad
     | 5 => false
     | _ => true)

/-- An entry is taken (R499, R501): HEAD goes on, and the command is in flight. -/
def State.takeEntry (s : State) (q c : Nat) (b : Bytes) : State :=
  let s := (s.setCtx q ctxHead ((c + 1) % 65536)).onQcx fun x =>
    { x with fetches := x.fetches.filter (fun f => f.q != q)
             cmds := x.cmds ++ [{ q := q, c := c, entry := b, status := if badCommand b then some 3 else none }] }
  s.startFetch q

/-- A queue parks (R491, R499). -/
def State.park (s : State) (q : Nat) : State :=
  let die := queueDie q
  let s := s.onQcx fun x => { x with fetches := x.fetches.filter fun f => f.q != q }
  let s := (s.setCtx q ctxState qEarly).setCtx q ctxParks (min 255 (s.ctxField q ctxParks + 1))
  (s.bump F.QCX_COUNTS.PARKS 1 die).flag F.QCX_EVENTS.EARLY die

/-- The first fetch, in issue order, that has returned valid, all earlier ones being invalid. -/
def Fetch.ready (f : Fetch) : Option Bytes :=
  (f.valid.find? fun v => (List.range v.1).all fun j => f.returned.contains j).map (·.2)

/-- Fetch `k` of a queue's sequence returns what memory holds (R493, R499). -/
def State.entryReturns (s : State) (q k : Nat) : State :=
  match s.qcx.fetches.find? fun f => f.q == q with
  | none => s
  | some f =>
    if f.issued ≤ k ∨ f.returned.contains k = true ∨ (lookupKey k f.valid).isSome = true then s
    else
      let n := s.ctxField q ctxRingLog
      let a := s.ctxField q ctxRing + 256 * (f.c % 2 ^ n)
      let (s, ok) := if s.backedSpan a 256 then s.readSpan a 256 else (s, false)
      let b := s.bytes a 256
      let good := ok && entryValid b f.c n
      let f := if good then { f with valid := f.valid ++ [(k, b)] } else { f with returned := f.returned ++ [k] }
      let s := if good then s else s.bump F.QCX_COUNTS.INVALID_FETCHES 1 (queueDie q)
      let s := s.onQcx fun x => { x with fetches := updateFirst (fun g => g.q == q) (fun _ => f) x.fetches }
      if s.ctxField q ctxHead = s.ctxField q ctxTail then s.settleQueue q
      else match f.ready with
        | some b => s.takeEntry q f.c b
        | none => if f.returned.length = 9 then s.park q else s

/-- Re-fetch `k` is issued (R499). -/
def State.refetch (s : State) (q k : Nat) : State :=
  s.onQcx fun x =>
    { x with fetches := updateFirst (fun f => f.q == q && f.issued == k) (fun f => { f with issued := k + 1 }) x.fetches }

/-! ### Commands -/

def execSubmissionDoorbell (q value : Nat) (s : State) : Host.Outcome State Fault Refusal :=
  act (.submissionDoorbell q value) s fun s => s.doorbell q 0 value

def execCompletionDoorbell (q value : Nat) (s : State) : Host.Outcome State Fault Refusal :=
  act (.completionDoorbell q value) s fun s => s.doorbell q 1 value

def execQctlEnable (die q : Nat) (s : State) : Host.Outcome State Fault Refusal :=
  act (.qctlEnable die q) s fun s => s.qctl die q 1

def execQctlDisable (die q : Nat) (s : State) : Host.Outcome State Fault Refusal :=
  act (.qctlDisable die q) s fun s => s.qctl die q 2

def execQctlDisableDone (die : Nat) (s : State) : Host.Outcome State Fault Refusal :=
  act (.qctlDisableDone die) s fun s => s.disableDone die

def execQctlSync (die q : Nat) (s : State) : Host.Outcome State Fault Refusal :=
  act (.qctlSync die q) s fun s => s.qctl die q 3

def execContextFetch (q : Nat) (s : State) : Host.Outcome State Fault Refusal :=
  act (.contextFetch q) s fun s => s.fetchCtx q

def execEntryFetchReturn (q k : Nat) (s : State) : Host.Outcome State Fault Refusal :=
  act (.entryFetchReturn q k) s fun s => s.entryReturns q k

def execRefetchIssue (q k : Nat) (s : State) : Host.Outcome State Fault Refusal :=
  act (.refetchIssue q k) s fun s => s.refetch q k

end Sys2Proof.Machine
end

