-- ==== Sys2Proof/Machine/RegMap.lean ====
section
/-! DEFINITION. The control space: which register a local address names (R18, R55 to R58). -/

namespace Sys2Proof.Machine

/-- The block at an index of a die window (R56). -/
def Blk.ofIndex : Nat → Option Blk
  | 0 => some .TCK | 1 => some .SCH | 2 => some .MXA | 3 => some .MXW | 4 => some .VSE | 5 => some .VSC | 6 => some .CDC
  | 7 => some .UPD | 8 => some .XLT | 9 => some .SYN | 10 => some .OAS | 11 => some .HBC | 12 => some .VLK | 13 => some .VRT
  | 14 => some .RDX | 15 => some .QCX | 16 => some .HCX | 17 => some .PCI | 18 => some .BDI | 19 => some .SEC
  | 20 => some .PWR | 21 => some .FLT | 22 => some .LDG | _ => none

/-- Whether a die's window holds a block (R57). -/
def Blk.present (b : Blk) (die : Nat) : Bool :=
  isDie die && (match b with
    | .TCK | .BDI | .PWR | .FLT => true
    | .SCH | .CDC => isCompute die || isFabric die
    | .MXA | .MXW | .VSE | .VSC | .UPD | .OAS => isCompute die
    | .XLT | .LDG => !isMemory die
    | .SYN => isCompute die || isHost die
    | .HBC => isMemory die
    | .VLK | .VRT | .RDX | .QCX => isFabric die
    | .HCX => isHost die
    | .PCI => die == 72 || die == 73
    | .SEC => die == 72)

/-- The block instances of a die, 0x1_0000 bytes each, of the blocks that have them (R58); 1 for a block without. -/
def Blk.instances (b : Blk) (die : Nat) : Nat :=
  match b with
  | .MXA => 4
  | .RDX => 2
  | .VLK => 6
  | .BDI => bdiLinks die
  | _ => 1

/-- Whether instances of a block stand side by side in its 512 KiB. -/
def Blk.instanced : Blk → Bool
  | .MXA | .RDX | .VLK | .BDI => true
  | _ => false

/-- The entry of a register at an offset of its block instance, where the register has one there. -/
def Reg.entryAt (r : Reg) (off : Nat) : Option Nat :=
  match r with
  | .MXA_STAT | .MXW_STAT =>
    let o := off - 0x100
    if 0x100 ≤ off ∧ o / 0x100 < 8 ∧ o % 0x100 / 8 < 22 ∧ off % 8 = 0 then some (o / 0x100 * 22 + o % 0x100 / 8) else none
  | .SYN_OBJ_WAITER =>
    let o := off - 0x1000
    if 0x1000 ≤ off ∧ o / 0x100 < 48 ∧ 0x40 ≤ o % 0x100 ∧ o % 0x100 < 0xC0 ∧ off % 8 = 0
    then some (o / 0x100 * 16 + (o % 0x100 - 0x40) / 8) else none
  | r =>
    let d := r.info
    if d.off ≤ off ∧ (off - d.off) % d.stride = 0 ∧ (off - d.off) / d.stride < d.count
    then some ((off - d.off) / d.stride) else none

/-- The first register of a list that has an entry at an offset. -/
def firstAt (off : Nat) : List Reg → Option (Reg × Nat)
  | [] => none
  | r :: rest => (match r.entryAt off with | some e => some (r, e) | none => firstAt off rest)

/-- The register word at an 8-byte aligned local address of the control space: register, die window, index (R55 to R58). -/
def decodeAddr (addr : Nat) : Option (Reg × Nat × Nat) :=
  let off := addr - 0x0300_0000_0000
  let die := off / 0x100_0000
  match Blk.ofIndex (off % 0x100_0000 / 0x8_0000) with
  | none => none
  | some b =>
    let o := off % 0x8_0000
    let inst := if b.instanced then o / 0x1_0000 else 0
    if b.present die && decide (inst < b.instances die) then
      match firstAt (if b.instanced then o % 0x1_0000 else o) b.regs with
      | none => none
      | some (r, e) =>
        if r.info.home.isSome && decide (0 < inst) then none
        else some (r, die, if r == .BDI_CAPS_OWN then e else inst * r.info.count + e)
    else none

/-- Whether an address lies in the control space's region (R47). -/
def inControl (addr : Nat) : Bool := decide (0x0300_0000_0000 ≤ addr) && decide (addr < 0x0400_0000_0000)

/-- Whether an address and size are an access that R18 carries out: an aligned 64-bit or 32-bit access. -/
def controlShape (addr n : Nat) : Bool := (n == 8 && addr % 8 == 0) || (n == 4 && addr % 4 == 0)

/-- The half of a register that an access names: 2 for the whole (R639). -/
def accessHalf (addr n : Nat) : Nat := if n = 8 then 2 else addr % 8 / 4

/-- The register that an access of a size names, and its half; none where the access completes with an error status
(R18, R55, R58). -/
def accessReg (addr n : Nat) : Option (Reg × Nat × Nat × Nat) :=
  if inControl addr && controlShape addr n && decide (addr < 0x0300_8000_0000) then
    (decodeAddr (addr / 8 * 8)).map fun p => (p.1, p.2.1, p.2.2, accessHalf addr n)
  else none

end Sys2Proof.Machine
end

