-- ==== Sys2Proof/Machine/Codec.lean ====
section
/-! DEFINITION. Tensor compression (R225 to R258): coded blocks and tables, the meanings of CODE, DECODE, HSTORE, BUILD and
of the codec's two events, and what the start and the end of a step do to histograms and tables. -/

namespace Sys2Proof.Machine

/-! ### Tables and canonical codes (R233 to R235) -/

/-- The code length of a symbol in a table. -/
def lengthIn (t : Bytes) (s : Nat) : Nat := bits (fieldAt t (s / 2) 1) (4 * (s % 2)) 4

/-- The 256 code lengths of a table. -/
def lengthsIn (t : Bytes) : List Nat := (List.range 256).map (lengthIn t)

/-- Whether a table in a slot is valid (R234). -/
def tableValid (slot : Nat) (t : Bytes) : Bool :=
  let lens := lengthsIn t
  let present := lens.filter (· != 0)
  crcHolds 512 t && fieldAt t 128 2 == slot && lens.all (fun l => decide (l ≤ 11)) &&
    ((present.map fun l => 2 ^ (11 - l)).foldl (· + ·) 0 == 2048 || present == [1])

/-- The first code of each length 1 to 11, from the code that the shorter lengths end at (R235). -/
def codeStarts (lens : List Nat) : Nat → Nat → List Nat
  | 0, _ => []
  | k + 1, code =>
    let l := 11 - k
    code :: codeStarts lens k (((code + lens.count l) * 2) % 4096)

/-- The codes of a table: for each symbol its length and codeword, length 0 for an absent symbol (R235). -/
def codesOf (lens : List Nat) : List (Nat × Nat) :=
  let starts := codeStarts lens 11 0
  (lens.zipIdx).map fun x =>
    if x.1 = 0 then (0, 0) else (x.1, starts.getD (x.1 - 1) 0 + (lens.take x.2).count x.1)

/-- A table of lengths for a slot, with its CRC (R233). -/
def tableBytes (slot : Nat) (lens : List Nat) : Bytes :=
  withCrc ((List.range 128).map (fun i => BitVec.ofNat 8 (lens.getD (2 * i) 0 + 16 * lens.getD (2 * i + 1) 0)) ++
    toLE 2 slot ++ zeros 378)

/-! ### Blocks (R229 to R232) -/

/-- The element size of a symbol mode (R231). -/
def symSize (sym : Nat) : Nat := match sym with | 0 => 1 | 1 => 2 | _ => 4

/-- The symbols of a block (R231). -/
def symbolsOf (z : Nat) (b : Bytes) : List Nat := (List.range (b.length / z)).map fun j => (b.getD (z * j + z - 1) 0).toNat

/-- The raw part of a coded block (R231). -/
def rawPart (z : Nat) (b : Bytes) : Bytes := (chunks z b).flatMap fun e => e.take (z - 1)

/-- The bits of a code, most significant first. -/
def codeBits (c : Nat × Nat) : List Bool := (List.range c.1).map fun i => bit c.2 (c.1 - 1 - i)

/-- Bits packed into bytes from bit 7 down, the last byte filled with 0 (R230, R232). -/
def packBits (bs : List Bool) : Bytes :=
  (chunks 8 bs).map fun c => BitVec.ofNat 8 (((c ++ List.replicate (8 - c.length) false).foldl (fun x b => 2 * x + b2n b) 0))

/-- The bits of bytes, bit 7 first (R232). -/
def unpackBits (b : Bytes) : List Bool := b.flatMap fun x => (List.range 8).map fun i => bit x.toNat (7 - i)

/-- Zero bytes up to whole sectors. -/
def padSectors (b : Bytes) : Bytes := b ++ zeros ((64 - b.length % 64) % 64)

/-- The coded form of a block, in whole sectors; a byte that has no code in the table leaves the block without one
(log entry 20). -/
def codedForm (codes : List (Nat × Nat)) (z : Nat) (b : Bytes) : Option Bytes :=
  let cs := (symbolsOf z b).map fun s => codes.getD s (0, 0)
  if cs.any fun c => c.1 == 0 then none else some (padSectors (rawPart z b ++ packBits (cs.flatMap codeBits)))

/-- A block as it is stored: mode and bytes (R229). -/
def encodeBlock (codes : List (Nat × Nat)) (z : Nat) (b : Bytes) : Nat × Bytes :=
  if b.all fun x => x == 0 then (2, [])
  else match codedForm codes z b with
    | some c => if c.length < b.length then (0, c) else (1, b)
    | none => (1, b)

/-- Decode `n` symbols from bits: the cause of a failure (4 INVALID_CODE, 5 SHORT), or the symbols and the bits left.
`longest` is the greatest code length of the table; `len` and `code` are the bits of the symbol read so far. -/
def decodeBits (codes : List (Nat × Nat)) (longest : Nat) : Nat → Nat → Nat → List Bool → Nat ⊕ (List Nat × List Bool)
  | 0, _, _, rest => .inr ([], rest)
  | _ + 1, _, _, [] => .inl 5
  | n + 1, len, code, b :: rest =>
    let c := (len + 1, 2 * code + b2n b)
    match codes.findIdx? (· == c) with
    | some s =>
      (match decodeBits codes longest n 0 0 rest with
       | .inl e => .inl e
       | .inr (ss, left) => .inr (s :: ss, left))
    | none => if longest ≤ len + 1 then .inl 4 else decodeBits codes longest (n + 1) c.1 c.2 rest

/-- A coded block of `b` decoded bytes from its stored sectors (R251): the cause of a failed check, or the bytes. -/
def decodeCoded (lens : List Nat) (z b : Nat) (data : Bytes) : Nat ⊕ Bytes :=
  let rawLen := (z - 1) * (b / z)
  let raw := data.take rawLen
  match decodeBits (codesOf lens) (lens.foldl max 0) (b / z) 0 0 (unpackBits (data.drop rawLen)) with
  | .inl e => .inl e
  | .inr (syms, left) =>
    if left.any id || decide (512 ≤ left.length) then .inl 6
    else .inr ((syms.zipIdx).flatMap fun x => (raw.drop ((z - 1) * x.2)).take (z - 1) ++ [BitVec.ofNat 8 x.1])

/-! ### The coded tensor (R226 to R228) -/

/-- The number of blocks of a tensor (R226). -/
def blocksOf (raw : Nat) : Nat := (raw + 4095) / 4096
/-- DATA_OFF of a tensor (R226). -/
def dataOff (raw : Nat) : Nat := (64 + 8 * blocksOf raw + 255) / 256 * 256
/-- Decoded bytes of block `i` (R228). -/
def blockBytes (raw i : Nat) : Nat := min 4096 (raw - 4096 * i)

/-- The tensor header (R226). -/
def tensorHeader (sym raw : Nat) : Bytes :=
  withCrc (toLE 4 0x4B4F4443 ++ [1, BitVec.ofNat 8 sym] ++ zeros 2 ++ toLE 8 raw ++ toLE 4 (blocksOf raw) ++
    toLE 4 (dataOff raw) ++ zeros 36)

/-- The header's check (R251, cause 1). -/
def headerOk (h : Bytes) : Bool :=
  let raw := fieldAt h 8 8
  fieldAt h 0 4 == 0x4B4F4443 && fieldAt h 4 1 == 1 && decide (fieldAt h 5 1 ≤ 2) && crcHolds 64 h &&
    raw % 64 == 0 && decide (64 ≤ raw) && fieldAt h 16 4 == blocksOf raw && fieldAt h 20 4 == dataOff raw

/-- An index entry (R227). -/
def indexEntry (crc table mode len offset : Nat) : Bytes :=
  toLE 8 (crc <<< 32 + table <<< 20 + mode <<< 18 + len <<< 11 + offset)

/-- The fields of an index entry (R227). -/
structure IndexEntry where
  crc    : Nat
  table  : Nat
  mode   : Nat
  len    : Nat
  offset : Nat
deriving DecidableEq, Repr

/-- An index entry read from its 8 bytes. -/
def IndexEntry.ofBytes (b : Bytes) : IndexEntry :=
  let w := leN b
  { crc := bits w 32 32, table := bits w 20 12, mode := bits w 18 2, len := bits w 11 7, offset := bits w 0 11 }

/-- The entry's check against the raw length r in sectors (R251, cause 2). -/
def IndexEntry.ok (e : IndexEntry) (r : Nat) : Bool :=
  (match e.mode with
   | 0 => decide (0 < e.len) && decide (e.len < r)
   | 1 => e.len == r
   | 2 => e.len == 0
   | _ => false) && decide (64 * (e.offset + e.len) ≤ 131072)

/-- Where block `i` is stored, relative to the tensor (R228). -/
def IndexEntry.at (e : IndexEntry) (off i : Nat) : Nat := off + i / 32 * 131072 + 64 * e.offset

/-- The blocks of an operation with their places: mode, bytes and the sector offset within the group, which sums LEN over
the earlier blocks of the group (R228). -/
def layOut : Nat → Nat → List (Nat × Bytes) → List (Nat × Nat × Bytes × Nat)
  | _, _, [] => []
  | i, off, (mode, b) :: rest =>
    let off := if i % 32 = 0 then 0 else off
    (i, mode, b, off) :: layOut (i + 1) (off + b.length / 64) rest

/-! ### Coders -/

/-- CDC_ERROR.UNIT of a coder (R258 and the text before it). -/
def coderUnit (u : Nat) : Nat :=
  if isFabric (unitDie u) then 2 * unitInst u else if unitType u = 5 then unitInst u else 2 + unitInst u

/-- CDC_ERROR of a failing block (R258). -/
def cdcAt (u block : Nat) (s : State) : State :=
  (s.put F.CDC_ERROR.BLOCK block (unitDie u)).put F.CDC_ERROR.UNIT (coderUnit u) (unitDie u)

/-- CDC_ERROR of an operation that no block has failed: BLOCK is not stated, a free value (log entry 21). -/
def cdcMore (u : Nat) (s : State) : State := (cdcAt u s.free s).took 1

/-- Bytes that hold no defined value: free values (R251, R254). Bytes at another module are out of the model's sight. -/
def State.spoil (s : State) (die asid va n : Nat) : State :=
  ((accessesOf [⟨va, n, true⟩]).foldl (fun (p : State × Nat) a =>
    let pa := p.1.paOf die asid a.va
    let data := (List.range a.len).map fun i => BitVec.ofNat 8 (s.freeAt (p.2 + i))
    if s.isLocal pa && s.backedSpan (localPart pa) a.len then (p.1.store (localPart pa) data, p.2 + a.len)
    else (p.1, p.2 + a.len)) (s, 0)).1.took n

/-- Whether a span of coded data names a place that is not backed memory of this module's address space (R250). -/
def State.codedUnbacked (s : State) (die asid : Nat) (sp : Span) : Bool :=
  (accessesOf [sp]).any fun a =>
    let pa := s.paOf die asid a.va
    s.isLocal pa && !s.backedSpan (localPart pa) a.len

/-- Whether a span of coded data lies wholly or partly in a protected or an accumulate-write region (R255). -/
def State.codedRegion (s : State) (die asid : Nat) (sp : Span) : Bool :=
  (accessesOf [sp]).any fun a =>
    let pa := s.paOf die asid a.va
    s.isLocal pa && ((s.awRegion (localPart pa)).isSome || (s.protectedRegion (localPart pa)).isSome)

/-- The cause that the place of a coded tensor calls for (R250, R255). -/
def State.codedPlace (s : State) (die asid : Nat) (sp : Span) : Option Nat :=
  if s.codedUnbacked die asid sp then some 11 else if s.codedRegion die asid sp then some 10 else none

/-- The fabric physical address of a table slot in the store of the module that holds an address (R240, R244). -/
def State.tableAddr (s : State) (pa slot : Nat) : Nat :=
  (pa - localPart pa) + s.get F.CDC_TABLE_BASE.BASE <<< 21 + 512 * slot

/-- The key of a cached table: slot, and the module that holds its store. -/
def tableKey (pa slot : Nat) : Nat := pa >>> 47 <<< 12 + slot

/-- A coder's cached table. -/
def State.cachedTable (s : State) (u key : Nat) : Option CodeTable :=
  (s.codec.cached.find? fun c => c.1 == u && c.2.slot == key).map (·.2)

/-- A coder's cache takes a table; with 32 held, which one leaves is not stated: a free choice (R245, log entry 22). -/
def State.cacheTable (s : State) (u : Nat) (t : CodeTable) : State :=
  let mine := s.codec.cached.filter fun c => c.1 == u
  if mine.length < 32 then s.onCodec fun c => { c with cached := c.cached ++ [(u, t)] }
  else match mine[s.free % 32]? with
    | none => s
    | some v => (s.took 1).onCodec fun c => { c with cached := removeFirst (· == v) c.cached ++ [(u, t)] }

/-- A coder fetches the table of a slot in the store of the module that holds an address (R244, R245). -/
def State.fetchTable (r : ReadResult) (u pa slot : Nat) : ReadResult × Bytes :=
  match r.state.cachedTable u (tableKey pa slot) with
  | some t => (r, t.words)
  | none =>
    let a := r.state.tableAddr pa slot
    let r := State.readPhysical (State.readPhysical r u a 256) u (a + 256) 256
    let words := r.state.physicalBytes u a 256 ++ r.state.physicalBytes u (a + 256) 256
    if r.failed.isSome || !r.pending.isEmpty then (r, words)
    else
      let s := r.state.onRem fun x => { x with arrived := x.arrived.filter fun p => p.1 != (u, a, 256) && p.1 != (u, a + 256, 256) }
      ({ r with state := s.cacheTable u { slot := tableKey pa slot, words := words } }, words)

/-! ### CODE -/

/-- The fields of a CODE (R257). -/
structure CodePayload where
  src    : Nat
  tensor : Nat
  first  : Nat
  count  : Nat
  table  : Nat
  hist   : Bool
  hslot  : Nat
  sym    : Nat
  raw    : Nat

/-- A CODE's payload. -/
def codePayload (p : BitVec 448) : CodePayload :=
  { src := pay p 0 8, tensor := pay p 8 8, first := pay p 16 4, count := pay p 20 4, table := pay p 24 2
    hist := payBits p 26 0 1 == 1, hslot := payBits p 26 1 4, sym := pay p 27 1, raw := pay p 32 8 }

/-- Whether a range of blocks covers whole groups of a tensor (R256). -/
def wholeGroups (first count blocks : Nat) : Bool :=
  first % 32 == 0 && ((first + count) % 32 == 0 || first + count == blocks)

/-- What R256 asks of a CODE; a payload that R226 gives no tensor for is refused in the same way (log entry 23). -/
def codeCheck (v : CodePayload) : Option Nat :=
  let nb := blocksOf v.raw
  if addrOk57 v.src && addrOk57 v.tensor && decide (1 ≤ v.count) && decide (v.count ≤ 16777215) &&
      decide (v.first + v.count ≤ nb) && wholeGroups v.first v.count nb && decide (v.sym ≤ 2) && v.raw % 64 == 0 &&
      decide (v.table < 4096)
  then none else some 11
where
  addrOk57 (a : Nat) : Bool := bits a 57 7 == 0

/-- Add a block's symbol counts to a histogram slot (R236). -/
def State.histogram (s : State) (die x h : Nat) (syms : List Nat) : State :=
  (List.range 256).foldl (fun s k =>
    let n := syms.count k
    if n = 0 then s
    else
      let idx := (x * 16 + h) * 128 + k / 2
      let f := if k % 2 = 0 then F.CDC_HIST.EVEN else F.CDC_HIST.ODD
      let s := if 0xFFFFFFFF < s.get f die idx + n then s.flag F.CDC_EVENTS.HIST_SAT die else s
      s.bump f n die idx) s

/-- The coder number of a compressor or the wire encoder in CDC_HIST and CDC_PENDING. -/
def coderNo (u : Nat) : Nat := if isFabric (unitDie u) then 0 else unitInst u

/-- CODE as an operation of its coder. -/
def codeTask (u : Nat) (p : BitVec 448) : Task :=
  let v := codePayload p
  let die := unitDie u
  let n := min v.raw ((v.first + v.count) * 4096) - v.first * 4096
  let src : Span := ⟨v.src, n, false⟩
  let whole : Span := ⟨v.tensor, dataOff v.raw + v.raw, true⟩
  let idx : Span := ⟨v.tensor + 64 + 8 * v.first, 8 * v.count, true⟩
  { unit := u, cls := 0x30, payload := bytesOf p, check := fun _ => codeCheck v, more := cdcMore u
    plan := fun s =>
    let asid := s.asidOf
    let spoil (s : State) : State := s.spoil die asid idx.va idx.len
    { reads := [src], writes := [whole], near := [src], nearCause := 11, accessCause := 9
      more := cdcMore u, onError := fun s _ => spoil s
      place := fun s => s.codedPlace die asid whole
      body := fun s' =>
        let (r, table) := State.fetchTable { state := s' } u (s'.paOf die asid v.tensor) v.table
        let s' := r.state
        if let some pa := r.failed then (spoil s', .access 9 pa)
        else if !r.pending.isEmpty then (s', .again)
        else if !tableValid v.table table then (spoil s', .error 3)
        else
          let z := symSize v.sym
          let codes := codesOf (lengthsIn table)
          let blocks := chunks 4096 (s'.spanBytes u die asid v.src n)
          let s' := if v.hist then blocks.foldl (fun s b => s.histogram die (coderNo u) v.hslot (symbolsOf z b)) s' else s'
          let stored := blocks.map (encodeBlock codes z)
          let s' := s'.bump F.CDC_BLOCKS.RAW_BLOCKS (stored.filter fun b => b.1 == 1).length die
          let s' := s'.bump F.CDC_BLOCKS.ZERO_BLOCKS (stored.filter fun b => b.1 == 2).length die
          let laid := layOut v.first 0 stored
          let entries := (laid.zip blocks).flatMap fun x =>
            indexEntry (crc32 x.2) (if x.1.2.1 = 0 then v.table else 0) x.1.2.1 (x.1.2.2.1.length / 64) x.1.2.2.2
          let header := if v.first = 0 then [(v.tensor, tensorHeader v.sym v.raw)] else []
          let data := (laid.filter fun x => x.2.1 != 2).map fun x =>
            (v.tensor + dataOff v.raw + x.1 / 32 * 131072 + 64 * x.2.2.2, x.2.2.1)
          (s', .writes (header ++ data ++ [(idx.va, entries)])) } }

/-- CODE (R225 to R232, R236, R250, R254 to R257). The table is the one that a decoder of the tensor takes (R244; log entry
24). -/
def execCode (u : Nat) (p : BitVec 448) (s : State) : Host.Outcome State Fault Refusal :=
  act (.code u p) s fun s =>
    s.runOp (codeTask u p)

/-! ### DECODE -/

/-- The fields of a DECODE (R257). -/
structure DecodePayload where
  dst    : Nat
  tensor : Nat
  first  : Nat
  count  : Nat

/-- A DECODE's payload. -/
def decodePayload (p : BitVec 448) : DecodePayload :=
  { dst := pay p 0 8, tensor := pay p 8 8, first := pay p 16 4, count := pay p 20 4 }

/-- A DECODE under way: reads so far, what is to be written, and the first failure. -/
structure DecodeRun where
  reads  : ReadResult
  ws     : List (Nat × Bytes) := []
  failed : Option (Nat × Nat × Option Nat) := none   -- block, cause, address of a failed access

/-- Decode one block (R228, R244, R251): entry, table, data, bytes. -/
def DecodeRun.block (r : DecodeRun) (u die asid : Nat) (v : DecodePayload) (header : Bytes) (i : Nat) : DecodeRun :=
  if r.failed.isSome then r
  else
    let raw := fieldAt header 8 8
    let b := blockBytes raw i
    let e := IndexEntry.ofBytes (r.reads.state.spanBytes u die asid (v.tensor + 64 + 8 * i) 8)
    if !e.ok (b / 64) then { r with failed := some (i, 2, none) }
    else
      let va := v.tensor + e.at (fieldAt header 20 4) i
      let (reads, table) := if e.mode = 0 then State.fetchTable r.reads u (r.reads.state.paFor u die asid v.tensor 64) e.table
        else (r.reads, [])
      let r := { r with reads := reads }
      if let some pa := reads.failed then { r with failed := some (i, 9, some pa) }
      else if e.mode = 0 ∧ reads.pending = [] ∧ tableValid e.table table = false then { r with failed := some (i, 3, none) }
      else
        let reads := (accessesOf [⟨va, 64 * e.len, false⟩]).foldl (fun r a => State.readPiece r u die asid a) reads
        let r := { r with reads := reads }
        if let some pa := reads.failed then { r with failed := some (i, 9, some pa) }
        else if !reads.pending.isEmpty then r
        else
          let data := reads.state.spanBytes u die asid va (64 * e.len)
          let s := reads.state.bump F.CDC_BYTES_IN.VALUE (64 * e.len) die
          let r := { r with reads := { reads with state := s } }
          let out : Nat ⊕ Bytes := match e.mode with
            | 0 => decodeCoded (lengthsIn table) (symSize (fieldAt header 5 1)) b data
            | 1 => .inr data
            | _ => .inr (zeros b)
          match out with
          | .inl c => { r with failed := some (i, c, none) }
          | .inr d =>
            if crc32 d = e.crc then { r with ws := r.ws ++ [(v.dst + 4096 * (i - v.first), d)] }
            else { r with failed := some (i, 7, none) }

/-- The spans of the coded data of a DECODE, as far as its header and index entries are at hand. -/
def State.decodeSpans (s : State) (u die asid : Nat) (v : DecodePayload) (header : Bytes) : List Span :=
  if !headerOk header then []
  else (List.range v.count).filterMap fun k =>
    let i := v.first + k
    let e := IndexEntry.ofBytes (s.spanBytes u die asid (v.tensor + 64 + 8 * i) 8)
    if e.ok (blockBytes (fieldAt header 8 8) i / 64) && e.len != 0 then
      some ⟨v.tensor + e.at (fieldAt header 20 4) i, 64 * e.len, false⟩
    else none

/-- DECODE as an operation of its coder. -/
def decodeTask (u : Nat) (p : BitVec 448) : Task :=
  let v := decodePayload p
  let die := unitDie u
  let check : Option Nat :=
    if bits v.dst 57 7 = 0 ∧ bits v.tensor 57 7 = 0 ∧ 1 ≤ v.count ∧ v.count ≤ 16777215 then none else some 11
  { unit := u, cls := 0x31, payload := bytesOf p, check := fun _ => check, more := cdcMore u
    plan := fun s =>
    let asid := s.asidOf
    let head : Span := ⟨v.tensor, 64, false⟩
    let idx : Span := ⟨v.tensor + 64 + 8 * v.first, 8 * v.count, false⟩
    let header := s.spanBytes u die asid v.tensor 64
    let raw := fieldAt header 8 8
    let good := headerOk header && decide (v.first + v.count ≤ blocksOf raw)
    let dst : Span := ⟨v.dst, if good then min raw ((v.first + v.count) * 4096) - v.first * 4096 else 4096 * v.count, true⟩
    let whole : Span := if good then ⟨v.tensor, dataOff raw + raw, false⟩ else head
    { reads := if good then [head, idx] else [head]
      also := s.decodeSpans u die asid v header, writes := [dst], near := if good then [dst] else [], nearCause := 11
      accessCause := 9, more := cdcMore u
      place := fun s => s.codedPlace die asid whole
      body := fun s' =>
        let header := s'.spanBytes u die asid v.tensor 64
        if !headerOk header then (s', .error 1)
        else if blocksOf (fieldAt header 8 8) < v.first + v.count then (s', .error 11)
        else if !good then (s', .again)
        else
          let r := (List.range v.count).foldl (fun r k => r.block u die asid v header (v.first + k))
            ({ reads := { state := s' } } : DecodeRun)
          let s' := r.reads.state
          if r.failed.isNone && !r.reads.pending.isEmpty then (s', .again)
          else
            let s' := (s'.bump F.CDC_STALL.VALUE s'.free die).took 1
            let s' := s'.bump F.CDC_BYTES_OUT.VALUE ((r.ws.map (·.2.length)).foldl (· + ·) 0) die
            match r.failed with
            | none => (s', .writes r.ws)
            | some (i, c, pa) =>
              (s'.spoil die asid (v.dst + 4096 * (i - v.first)) (blockBytes raw i), .stopped r.ws c pa (cdcAt u i)) } }

/-- DECODE (R244 to R253, R255 to R257). Blocks are decoded in ascending order, and those after a failing block are not
written (log entry 25). The cycles spent waiting for input are a free value (log entry 7). -/
def execDecode (u : Nat) (p : BitVec 448) (s : State) : Host.Outcome State Fault Refusal :=
  act (.decode u p) s fun s =>
    s.runOp (decodeTask u p)

/-! ### HSTORE and BUILD -/

/-- The 1 KiB record of a histogram slot (R238). -/
def State.histRecord (s : State) (die x h : Nat) : Bytes :=
  (List.range 256).flatMap fun k =>
    toLE 4 (s.get (if k % 2 = 0 then F.CDC_HIST.EVEN else F.CDC_HIST.ODD) die ((x * 16 + h) * 128 + k / 2))

/-- Clear a histogram slot. -/
def State.clearHist (s : State) (die x h : Nat) : State :=
  { s with regs := s.regs.filter fun r =>
      !(r.1.reg == .CDC_HIST && r.1.die == die && r.1.idx / 128 == x * 16 + h) }

/-- Whether every earlier CODE of a stream that names a histogram slot has been performed (R238). -/
def State.codesDone (s : State) (u k h : Nat) : Bool :=
  ((s.unit u).ops.take k).all fun o =>
    !(o.opclass == 0x30 && bit (fieldAt o.payload 26 1) 0 && bits (fieldAt o.payload 26 1) 1 4 == h &&
      (o.state == .started || o.state == .waiting || o.state == .writing))

/-- HSTORE as an operation of its coder. -/
def hstoreTask (u : Nat) (p : BitVec 192) : Task :=
  let dst := pay p 0 8
  let h := payBits p 8 0 4
  let die := unitDie u
  let check : Option Nat := if bits dst 57 7 = 0 ∧ dst % 64 = 0 then none else some 11
  { unit := u, cls := 0x32, payload := bytesOf p, check := fun _ => check, more := cdcMore u
    order := fun s k => s.codesDone u k h
    plan := fun _ =>
    { writes := [⟨dst, 1024, true⟩], accessCause := 9, more := cdcMore u
      body := fun s' => (s'.clearHist die (coderNo u) h, .writes [(dst, s'.histRecord die (coderNo u) h)]) } }

/-- HSTORE (R238, R257). -/
def execHstore (u : Nat) (p : BitVec 192) (s : State) : Host.Outcome State Fault Refusal :=
  act (.hstore u p) s fun s =>
    s.runOp (hstoreTask u p)

/-- Merge two lists that ascend by weight; on equal weight the first list's item comes first (R239). -/
def mergeItems : Nat → List (Nat × List Nat) → List (Nat × List Nat) → List (Nat × List Nat)
  | 0, _, _ => []
  | _ + 1, [], ys => ys
  | _ + 1, xs, [] => xs
  | n + 1, x :: xs, y :: ys =>
    if x.1 ≤ y.1 then x :: mergeItems n xs (y :: ys) else y :: mergeItems n (x :: xs) ys

/-- Neighbours of a list paired: the weight is the sum, the symbols are joined with repetition (R239). -/
def pairItems : List (Nat × List Nat) → List (Nat × List Nat)
  | a :: b :: rest => (a.1 + b.1, a.2 ++ b.2) :: pairItems rest
  | _ => []

/-- The rounds of the package-merge. -/
def packageRounds (leaves : List (Nat × List Nat)) : Nat → List (Nat × List Nat) → List (Nat × List Nat)
  | 0, xs => xs
  | n + 1, xs => packageRounds leaves n (let ps := pairItems xs; mergeItems (leaves.length + ps.length) leaves ps)

/-- The code lengths that the table builder gives for 256 totals (R239). -/
def buildLengths (totals : List Nat) : List Nat :=
  let leaves := sortBy (·.1) ((totals.zipIdx).map fun x => (min x.1 (2 ^ 24 - 1) + 1, [x.2]))
  let chosen := ((packageRounds leaves 10 leaves).take 510).flatMap (·.2)
  (List.range 256).map fun s => chosen.count s

/-- CDC_PENDING follows the pending entries of a compressor. -/
def State.showPending (s : State) (die x : Nat) : State :=
  s.put (if x = 0 then F.CDC_PENDING.CX0 else F.CDC_PENDING.CX1) ((lookupKey (die, x) s.codec.pending).getD []).length die

/-- A table becomes pending at its compressor, in the stream order of the BUILDs (R239, R241); after an abort it is
discarded (R242). -/
def State.addPending (s : State) (die x : Nat) (cut : Bool) (t : CodeTable) : State :=
  if cut then s.flag F.CDC_EVENTS.PENDING_DISCARD die
  else
    let ts := insertBy (·.entry) t ((lookupKey (die, x) s.codec.pending).getD [])
    (s.onCodec fun c => { c with pending := setKey (die, x) ts c.pending }).showPending die x

/-- BUILD as an operation of its coder. -/
def buildTask (u : Nat) (p : BitVec 192) : Task :=
  let src := pay p 0 8
  let nrec := pay p 8 2
  let slot := pay p 10 2
  let die := unitDie u
  let x := unitInst u
  let check (s : State) : Option Nat :=
    if !(bits src 57 7 == 0 && decide (1 ≤ nrec) && decide (nrec ≤ 1024) && decide (slot ≤ 4095)) then some 11
    else if 16 ≤ ((lookupKey (die, x) s.codec.pending).getD []).length then some 12
    else none
  { unit := u, cls := 0x33, payload := bytesOf p, check := check, more := cdcMore u
    plan := fun s =>
    let op := s.opAt u ((s.findOp u 0x33 (bytesOf p)).getD 0)
    { reads := [⟨src, 1024 * nrec, false⟩], accessCause := 9, more := cdcMore u
      body := fun s' =>
        let recs := chunks 1024 (s'.spanBytes u die s.asidOf src (1024 * nrec))
        let totals := (List.range 256).map fun k => (recs.map fun b => fieldAt b (4 * k) 4).foldl (· + ·) 0
        (s'.addPending die x op.cut { slot := slot, words := tableBytes slot (buildLengths totals), entry := op.entry },
          .writes []) } }

/-- BUILD (R239, R242, R243, R257, R569). -/
def execBuild (u : Nat) (p : BitVec 192) (s : State) : Host.Outcome State Fault Refusal :=
  act (.build u p) s fun s =>
    s.runOp (buildTask u p)

/-! ### Input timeouts (R251, R252) -/

/-- The place of a DECODE of a unit that covers a block and still needs input. -/
def State.decodeOf (s : State) (u block : Nat) : Option Nat :=
  (s.unit u).ops.findIdx? fun o =>
    o.opclass == 0x31 && (o.state == .started || o.state == .waiting) &&
      decide (fieldAt o.payload 16 4 ≤ block) && decide (block < fieldAt o.payload 16 4 + fieldAt o.payload 20 4)

/-- The sectors an operation of a unit still awaits, which now come too late, and its remote reads forgotten: all those of
the unit, or with another operation in flight those of the operation's own spans. -/
def State.lateSectors (s : State) (u k : Nat) : State × Nat :=
  let o := s.opAt u k
  let v := decodePayload (BitVec.ofNat 448 (leN o.payload))
  let die := unitDie u
  let header := s.spanBytes u die s.asidOf v.tensor 64
  let spans := ([⟨v.tensor, 64, false⟩, ⟨v.tensor + 64 + 8 * v.first, 8 * v.count, false⟩] : List Span) ++
    s.decodeSpans u die s.asidOf v header
  let alone : Bool := (s.unit u).ops.length == 1
  let own := (accessesOf spans).map fun a => (s.paFor u die s.asidOf a.va a.len, a.len)
  let late (r : Remote) : Bool := r.unit == u && !r.write && (alone || own.contains (r.addr, r.len))
  let lens := ((s.rem.pending.filter late).map (·.len)) ++ ((s.rem.answers.filter fun r => late r.1).map (·.1.len))
  let n := (lens.map fun l => (l + 63) / 64).foldl (· + ·) 0
  let s := s.onRem fun r => { r with pending := r.pending.filter fun r => !late r
                                     answers := r.answers.filter fun r => !late r.1 }
  (if alone then s.dropArrived u else s.dropReads u die s.asidOf spans, max 1 n)

/-- An input sector of a block does not arrive in time (R251 cause 8): the operation ends with an error status, the failing
block's bytes hold no defined value, and the sectors still awaited are late. -/
def execCodecInputTimeout (u block : Nat) (s : State) : Host.Outcome State Fault Refusal :=
  act (.codecInputTimeout u block) s fun s =>
    match s.decodeOf u block with
    | none => s
    | some k =>
      let o := s.opAt u k
      let die := unitDie u
      let (s, n) := s.lateSectors u k
      let s := s.onCodec fun c => { c with late := setKey die ((lookupKey die c.late).getD 0 + n) c.late }
      let s := if o.ahead then s
        else s.spoil die s.asidOf (fieldAt o.payload 0 8 + 4096 * (block - fieldAt o.payload 16 4)) 4096
      s.failOp u k 8 .operation (cdcAt u block)

/-- A sector that arrives after its timeout is discarded and counted (R252). -/
def execCodecLateSector (die : Nat) (s : State) : Host.Outcome State Fault Refusal :=
  act (.codecLateSector die) s fun s =>
    match lookupKey die s.codec.late with
    | some (n + 1) =>
      (s.onCodec fun c => { c with late := if n = 0 then dropKey die c.late else setKey die n c.late }).bump
        F.CDC_LATE.VALUE 1 die
    | _ => s

/-! ### The start and the end of a step -/

/-- Every histogram slot is cleared (R237). -/
def State.clearHistograms (s : State) : State := { s with regs := s.regs.filter fun r => r.1.reg != .CDC_HIST }

/-- Pending tables are installed in the store, and every coder's cache is emptied (R241, R245). -/
def State.installTables (s : State) : State :=
  let base := s.get F.CDC_TABLE_BASE.BASE <<< 21
  let byDie := sortBy (fun p : (Nat × Nat) × List CodeTable => p.1.1 * 2 + p.1.2) s.codec.pending
  let s := byDie.foldl (fun s p => p.2.foldl (fun s t => s.writeSectors (base + 512 * t.slot) t.words) s) s
  let s := s.onCodec fun c => { c with pending := [], cached := [] }
  byDie.foldl (fun s p => s.showPending p.1.1 p.1.2) s

end Sys2Proof.Machine
end

