-- ==== Sys2Proof/Machine/Training.lean ====
section
/-! DEFINITION. The training data flow (R290 to R302, R315, R316): format selection and its application at a committed step
end, the caravan operations, and the arming of a bank switch. -/

namespace Sys2Proof.Machine

/-! ### The format table (R290 to R293) -/

/-- The header of a format table (R290). -/
structure FmtHeader where
  tensors  : Nat
  folds    : Nat
  histBase : Nat
  vecBase  : Nat
  ok       : Bool

/-- The header read from its 64 bytes. -/
def fmtHeader (h : Bytes) : FmtHeader :=
  { tensors := fieldAt h 4 2, folds := fieldAt h 6 2, histBase := fieldAt h 8 8, vecBase := fieldAt h 16 8
    ok := fieldAt h 0 4 == 0x54464B4F && crcHolds 64 h }

/-- A tensor entry (R291). -/
structure TensorEntry where
  fmt    : Nat
  exp    : Int
  hbase  : Int
  wide   : Bool
  fixed  : Bool
  nrec   : Nat
  follow : Nat
  recs   : Nat
  patch  : Nat
  npatch : Nat

/-- A tensor entry read from its 32 bytes. -/
def tensorEntry (b : Bytes) : TensorEntry :=
  { fmt := fieldAt b 0 1, exp := signed 8 (fieldAt b 1 1), hbase := signed 8 (fieldAt b 2 1), wide := bit (fieldAt b 3 1) 0
    fixed := bit (fieldAt b 3 1) 1, nrec := fieldAt b 4 2, follow := fieldAt b 6 2, recs := fieldAt b 8 8
    patch := fieldAt b 16 8, npatch := fieldAt b 24 4 }

/-! ### Selection (R294, R295) -/

/-- A statistics record as the selector reads it (R174): HBASE, AMAX, COUNT, bins. -/
structure StatRec where
  hbase : Int
  amax  : Nat
  count : Nat
  bins  : List Nat

/-- A record read from its 256 bytes; a record of a ring holds true units (log entry 26). -/
def statRec (b : Bytes) : StatRec :=
  { hbase := signed 8 (fieldAt b 2 1), amax := fieldAt b 8 4, count := fieldAt b 12 4
    bins := (List.range 40).map fun i => fieldAt b (16 + 4 * i) 4 }

/-- Counts of two records added, saturating at 32 bits, and the larger AMAX (R174). -/
def StatRec.merge (a b : StatRec) : StatRec :=
  let add (x y : Nat) : Nat := min (x + y) 0xFFFFFFFF
  { a with amax := max a.amax b.amax, count := add a.count b.count, bins := List.zipWith add a.bins b.bins }

/-- The merged record in true units (R294): EXP added to HBASE, AMAX times 2^EXP. -/
def StatRec.trueUnits (r : StatRec) (exp : Int) : StatRec :=
  { r with hbase := r.hbase + exp
           amax := if r.amax = 0x7F800000 then r.amax else
             match of32 r.amax with
             | .fin n m e => (fp32.round .rne false false (.fin n m (e + exp))).code
             | _ => r.amax }

/-- The 256 bytes of a merged record; `free` is what HBASE reads as where true units do not fit its byte, and the UNIT
of a merged record, which the spec does not state (log entry 26). -/
def StatRec.bytes (r : StatRec) (tensor free : Nat) : Bytes :=
  withCrc (toLE 2 free ++ toLE 1 (if -128 ≤ r.hbase ∧ r.hbase ≤ 127 then unsigned 8 r.hbase else free / 65536) ++ [0] ++
    toLE 4 tensor ++ toLE 4 r.amax ++ toLE 4 r.count ++ r.bins.flatMap (toLE 4) ++ zeros 76)

/-- The smallest s with a ≤ 1.75 * 2^(k + s), for a positive finite FP32 code (R295: k is 8 for 448 and 15 for 57,344). -/
def scaleFor (a : Nat) (k : Int) : Int :=
  match of32 a with
  | .fin _ m e =>
    let l := log2Floor m e
    if (Fp.fin false 7 (l - 2)).lt (.fin false m e) then l - k + 1 else l - k
  | _ => 0

/-- The numbers of elements below 2^t over records (R295). -/
def belowCount (rs : List StatRec) (t : Int) : Nat :=
  (rs.map fun r =>
    r.bins.getD 1 0 + ((List.range 36).map fun (i : Nat) => if r.hbase + (i : Int) < t then r.bins.getD (2 + i) 0 else 0).foldl (· + ·) 0).foldl
    (· + ·) 0

/-- FMT, EXP, HBASE and NEEDS_WIDE selected from a history (R295). -/
def selectFormat (e : TensorEntry) (rs : List StatRec) : Nat × Int × Int × Bool :=
  let a := (rs.map (·.amax)).foldl max 0
  if e.fixed || rs.isEmpty then (e.fmt, e.exp, e.hbase, e.wide)
  else if a = 0x7F800000 then (e.fmt, e.exp, e.hbase, true)
  else if a = 0 then (0, e.exp, e.hbase, false)
  else
    let s4 := scaleFor a 8
    let s5 := scaleFor a 15
    let total := (rs.map fun r => r.count - r.bins.getD 0 0 - r.bins.getD 39 0).foldl (· + ·) 0
    let (fmt, exp, wide) :=
      if 1024 * belowCount rs (s4 - 9) ≤ total then (0, s4, false)
      else if 1024 * belowCount rs (s5 - 16) ≤ total then (1, s5, false)
      else (1, s5, true)
    let exp := min (max exp (-60)) 60
    let l : Int := match of32 a with | .fin _ m x => log2Floor m x | _ => 0
    (fmt, exp, l - 35 - exp, wide)

/-- Read `n` bytes at a local address of this module by an engine (for records and rings that entries name by local
address). -/
def State.readLocal (r : ReadResult) (u a n : Nat) : ReadResult :=
  (split256 a n).foldl (fun r p => State.readPhysical r u (r.state.fabricAddr p.1) p.2) r

/-- One tensor of an FSEL: its records merged, its ring read, its next values pending (R294, R295). The ring's slot of the
step itself is its oldest record, which the step's own replaces, so the history leaves it out (log entry 27). -/
def State.selectTensor (r : ReadResult) (u : Nat) (h : FmtHeader) (t : Nat) (e : TensorEntry) : ReadResult :=
  if e.nrec = 0 ∨ r.failed.isSome then r
  else
    let ring := h.histBase + 4096 * t
    let r := State.readLocal (State.readLocal r u e.recs (256 * e.nrec)) u ring 4096
    if r.failed.isSome then r
    else
      let s := r.state
      let recs := (List.range e.nrec).map fun i => statRec (s.bytes (e.recs + 256 * i) 256)
      match recs with
      | [] => r
      | first :: more =>
        let merged := (more.foldl StatRec.merge first).trueUnits e.exp
        let own := s.get F.SCH_STEP.STEP % 16
        let past := ((List.range 16).filter fun i => i != own && crcHolds 256 (s.bytes (ring + 256 * i) 256)).map fun i =>
          statRec (s.bytes (ring + 256 * i) 256)
        let (fmt, exp, hbase, wide) := selectFormat e (past ++ [merged])
        let sel : FormatSel :=
          { tensor := t, fmt := fmt, exp := unsigned 8 exp, hbase := unsigned 8 hbase, wide := wide
            record := merged.bytes t s.free }
        { r with state := (s.took 1).onFsel fun f =>
            { f with pending := insertBy (·.tensor) sel (f.pending.filter fun x => x.tensor != t) } }

/-- FSEL as an operation of the update unit. -/
def fselTask (die : Nat) (p : BitVec 192) : Task :=
  let u := unitId die 7 0
  let table := pay p 0 8
  let first := pay p 8 2
  let count := pay p 10 2
  let check : Option Nat := if bits table 57 7 = 0 ∧ payZero p 12 12 then none else some 1
  { unit := u, cls := 0x48, payload := bytesOf p, check := fun _ => check
    plan := fun s =>
    let asid := s.asidOf
    let entries : Span := ⟨table + 64 + 32 * first, 32 * count, false⟩
    { reads := [⟨table, 64, false⟩, entries], accessCause := 10
      body := fun s' =>
        let h := fmtHeader (s'.spanBytes u die asid table 64)
        let es := (chunks 32 (s'.spanBytes u die asid entries.va entries.len)).map tensorEntry
        let badFollow := (es.zipIdx).any fun x => x.1.follow != 0xFFFF && decide (first + x.2 ≤ x.1.follow)
        if !h.ok || decide (h.tensors < first + count) || badFollow then (s', .error 12)
        else
          let r := (es.zipIdx).foldl (fun r x => State.selectTensor r u h (first + x.2) x.1) ({ state := s' } : ReadResult)
          match r.failed with
          | some pa => (r.state, .access 10 pa)
          | none => (r.state, .writes []) } }

/-- FSEL (R294, R295, R298). -/
def execFsel (die : Nat) (p : BitVec 192) (s : State) : Host.Outcome State Fault Refusal :=
  act (.fsel die p) s fun s =>
    s.runOp (fselTask die p)

/-! ### Application at a committed step end (R296) -/

/-- A write of the update unit to local memory at a step end; one that fails leaves memory as the holder leaves it
(log entry 28). -/
def State.updWrite (s : State) (a : Nat) (data : Bytes) : State :=
  if s.backedSpan a data.length then (s.writeSpan a data).1 else s

/-- The local address of the format table. -/
def State.fmtTable (s : State) : Nat := s.get F.UPD_FMT_BASE.BASE <<< 6

/-- Tensor entry `t` of the format table as it stands. -/
def State.tensorAt (s : State) (t : Nat) : TensorEntry := tensorEntry (s.bytes (s.fmtTable + 64 + 32 * t) 32)

/-- The FP32 code of 2^e, for |e| ≤ 126. -/
def pow32 (e : Int) : Nat := (e + 127).toNat <<< 23

/-- Fold and plain vectors whose source or destination is a changed tensor are rewritten (R292, R296). -/
def State.applyFolds (s : State) (h : FmtHeader) (changed : List Nat) : State :=
  (List.range h.folds).foldl (fun s f =>
    let b := s.bytes (s.fmtTable + 64 + 32 * h.tensors + 16 * f) 16
    let src := fieldAt b 0 2
    let dst := fieldAt b 2 2
    let plain := fieldAt b 4 1 == 1
    if changed.contains src || (!plain && changed.contains dst) then
      let e := (s.tensorAt src).exp - (if plain then 0 else (s.tensorAt dst).exp)
      s.updWrite (h.vecBase + 4096 * f) ((List.replicate 1024 (toLE 4 (pow32 e))).flatten)
    else s) s

/-- The patch items of a tensor (R293), at offsets of the schedule image in force. -/
def State.applyPatches (s : State) (t : Nat) : State :=
  let e := s.tensorAt t
  let base := match s.sched.image with | none => 0 | some i => i.base
  (List.range e.npatch).foldl (fun s i =>
    let w := s.load (e.patch + 8 * i) 8
    let a := base + bits w 0 40
    let old := (s.byte a).toNat
    match bits w 40 2 with
    | 0 => s.updWrite a [BitVec.ofNat 8 (putBits old 0 4 e.fmt)]
    | 1 => s.updWrite a [BitVec.ofNat 8 (putBits old 4 4 e.fmt)]
    | 2 => s.updWrite a [BitVec.ofNat 8 (unsigned 8 e.hbase)]
    | _ => s.updWrite a (toLE 4 (pow32 (-e.exp)))) s

/-- FMT, EXP, HBASE and NEEDS_WIDE of an entry written. -/
def State.writeEntry (s : State) (t fmt exp hbase : Nat) (wide : Bool) : State :=
  let a := s.fmtTable + 64 + 32 * t
  let flags := putBits (s.byte (a + 3)).toNat 0 1 (b2n wide)
  s.updWrite a (toLE 1 fmt ++ toLE 1 exp ++ toLE 1 hbase ++ toLE 1 flags)

/-- One pending selection applied (R296): ring, entry, followers, vectors, patches. An entry that follows another takes
that entry's FMT and EXP (R291; log entry 29). -/
def State.applySelection (s : State) (h : FmtHeader) (x : FormatSel) : State :=
  let step := s.get F.SCH_STEP.STEP
  let old := s.tensorAt x.tensor
  let s := s.updWrite (h.histBase + 4096 * x.tensor + 256 * (step % 16)) x.record
  let lead := s.tensorAt old.follow
  let (fmt, exp) := if old.follow = 0xFFFF then (x.fmt, x.exp) else (lead.fmt, unsigned 8 lead.exp)
  let s := s.writeEntry x.tensor fmt exp x.hbase x.wide
  let followers := (List.range h.tensors).filter fun t => (s.tensorAt t).follow == x.tensor
  let changedF := followers.filter fun t => (s.tensorAt t).fmt != fmt || unsigned 8 (s.tensorAt t).exp != exp
  let s := followers.foldl (fun s t =>
    let e := s.tensorAt t
    s.writeEntry t fmt exp (unsigned 8 e.hbase) e.wide) s
  let now := s.tensorAt x.tensor
  let own : List Nat :=
    if now.fmt == old.fmt && now.exp == old.exp && now.hbase == old.hbase && now.wide == old.wide then [] else [x.tensor]
  let changed := own ++ changedF
  changed.foldl State.applyPatches (s.applyFolds h changed)

/-- Every pending selection is applied in ascending tensor number (R296). -/
def State.applyFormats (s : State) : State :=
  let h := fmtHeader (s.bytes s.fmtTable 64)
  let s' := s.fsel.pending.foldl (fun s x => s.applySelection h x) s
  s'.onFsel fun f => { f with pending := [] }

/-! ### Caravans (R299 to R302) -/

/-- Whether two spans of addresses overlap. -/
def spansMeet (a n b m : Nat) : Bool := decide (a < b + m) && decide (b < a + n)

/-- The bytes that a caravan had not yet written hold no defined value (R302): from the write that failed on. -/
def State.spoilRest (s : State) (die asid : Nat) (writes : List Span) (failed : Option Nat) : State :=
  let ps := accessesOf (writes.map fun w => { w with write := true })
  let rest := match failed with
    | none => ps
    | some pa => ps.dropWhile fun a => !(decide (s.paOf die asid a.va ≤ pa) && decide (pa < s.paOf die asid a.va + a.len))
  rest.foldl (fun s a => s.spoil die asid a.va a.len) s

/-- The parts of a coded tensor that a MOVE copies, as offsets and lengths (R300). -/
def codedParts (first count : Nat) (off : Nat) (entries : List IndexEntry) : List (Nat × Nat) :=
  (if first = 0 then [(0, 64)] else []) ++ [(64 + 8 * first, 8 * count)] ++
    (entries.zipIdx).filterMap fun x =>
      if x.1.len = 0 then none else some (x.1.at off (first + x.2), 64 * x.1.len)

/-- MOVE of LEN bytes (R300, R302). -/
def movePlainTask (u : Nat) (p : BitVec 192) : Task :=
  let src := pay p 0 8
  let dst := pay p 8 8
  let len := pay p 16 4
  let die := unitDie u
  let check : Option Nat :=
    if bits src 57 7 = 0 ∧ bits dst 57 7 = 0 ∧ payBits p 23 1 7 = 0 ∧ len ≠ 0 ∧ len % 64 = 0 ∧ ¬ spansMeet src len dst len then none
    else some 0
  { unit := u, cls := 0x40, payload := bytesOf p, check := fun _ => check
    plan := fun s =>
    let asid := s.asidOf
    { reads := [⟨src, len, false⟩], writes := [⟨dst, len, true⟩], accessCause := 0
      onError := fun s f => s.spoilRest die asid [⟨dst, len, true⟩] f
      body := fun s' => (s', .writes [(dst, s'.spanBytes u die asid src len)]) } }

/-- MOVE of coded blocks (R300, R302). The header is read for the figures that the copy needs. -/
def moveCodedTask (u : Nat) (p : BitVec 192) : Task :=
  let src := pay p 0 8
  let dst := pay p 8 8
  let first := pay p 16 4
  let count := pay p 20 3
  let die := unitDie u
  let check : Option Nat :=
    if bits src 57 7 = 0 ∧ bits dst 57 7 = 0 ∧ payBits p 23 1 7 = 0 ∧ count ≠ 0 then none else some 0
  { unit := u, cls := 0x40, payload := bytesOf p, check := fun _ => check
    plan := fun s =>
    let asid := s.asidOf
    let header := s.spanBytes u die asid src 64
    let blocks := fieldAt header 16 4
    let off := fieldAt header 20 4
    let size := off + fieldAt header 8 8
    let good := decide (first + count ≤ blocks) && wholeGroups first count blocks && !spansMeet src size dst size
    let idx : Span := ⟨src + 64 + 8 * first, 8 * count, false⟩
    let entries := (chunks 8 (s.spanBytes u die asid idx.va idx.len)).map IndexEntry.ofBytes
    let parts := if good then codedParts first count off entries else []
    let dsts := parts.map fun q => (⟨dst + q.1, q.2, true⟩ : Span)
    { reads := [⟨src, 64, false⟩] ++ (if good then [idx] else []) ++ parts.map fun q => ⟨src + q.1, q.2, false⟩
      writes := dsts, accessCause := 0
      onError := fun s f => s.spoilRest die asid dsts f
      body := fun s' =>
        let h' := s'.spanBytes u die asid src 64
        let es' := (chunks 8 (s'.spanBytes u die asid idx.va idx.len)).map IndexEntry.ofBytes
        if h' != header then (s', .again)
        else if !good then (s', .error 0)
        else if es' != entries then (s', .again)
        else (s', .writes (parts.map fun q => (dst + q.1, s'.spanBytes u die asid (src + q.1) q.2))) } }

/-- MOVE as an operation of its caravan engine: of bytes, or of coded blocks. -/
def moveTask (u : Nat) (p : BitVec 192) : Task := if payBits p 23 0 1 = 1 then moveCodedTask u p else movePlainTask u p

/-- MOVE (R299, R300, R302). A caravan engine has no error register, so its records carry 0 in DETAIL (log entry 30). -/
def execMove (u : Nat) (p : BitVec 192) (s : State) : Host.Outcome State Fault Refusal :=
  act (.move u p) s fun s => s.runOp (moveTask u p)

/-- XPOSE as an operation of its caravan engine. -/
def xposeTask (u : Nat) (p : BitVec 448) : Task :=
  let src := pay p 0 8
  let dst := pay p 8 8
  let ss := pay p 16 4
  let ds := pay p 20 4
  let rows := pay p 24 2
  let cols := pay p 26 2
  let esz := pay p 28 1
  let die := unitDie u
  let check : Option Nat :=
    if bits src 57 7 = 0 ∧ bits dst 57 7 = 0 ∧ payZero p 29 27 ∧ rows ≠ 0 ∧ cols ≠ 0 ∧ (esz = 1 ∨ esz = 2) ∧
      ¬ spansMeet src ((rows - 1) * ss + cols * esz) dst ((cols - 1) * ds + rows * esz) then none else some 0
  let reads := (List.range rows).map fun i => (⟨src + i * ss, cols * esz, false⟩ : Span)
  let writes := (List.range cols).map fun j => (⟨dst + j * ds, rows * esz, true⟩ : Span)
  { unit := u, cls := 0x41, payload := bytesOf p, check := fun _ => check
    plan := fun s =>
    let asid := s.asidOf
    { reads := reads, writes := writes, accessCause := 0
      onError := fun s f => s.spoilRest die asid writes f
      body := fun s' =>
        let data := reads.map fun r => chunks esz (s'.spanBytes u die asid r.va r.len)
        (s', .writes ((writes.zipIdx).map fun w =>
          (w.1.va, data.flatMap fun row => row.getD w.2 []))) } }

/-- XPOSE (R299, R301, R302). -/
def execXpose (u : Nat) (p : BitVec 448) (s : State) : Host.Outcome State Fault Refusal :=
  act (.xpose u p) s fun s =>
    s.runOp (xposeTask u p)

/-! ### The arming of a bank switch (R315, R316) -/

/-- RBANK as an operation of reduction engine 0. -/
def rbankTask (die : Nat) (p : BitVec 192) : Task :=
  let u := unitId die 2 0
  let bank := payBits p 8 0 2
  let delta := pay p 9 1
  let due (s : State) : Nat :=
    s.dueTick ((s.opAt u ((s.findOp u 0x44 (bytesOf p)).getD 0)).segment + delta)
  let check (s : State) : Option Nat :=
    if delta = 0 ∨ 15 < delta then some 1
    else if s.on F.VRT_BANK.ARMED die || tickReached (s.now die) (due s) then some 12
    else none
  let more (s : State) : State := (s.put F.RDX_ERROR.TAG s.free die 0).took 1
  { unit := u, cls := 0x44, payload := bytesOf p, check := check, more := more
    plan := fun s =>
    let at_ := due s
    { accessCause := 0, more := more
      body := fun s' =>
        (((s'.flag F.VRT_BANK.ARMED die).put F.VRT_BANK.ARM_BANK bank die).put F.VRT_ARM_TICK.TICK at_ die, .writes []) } }

/-- RBANK (R315, R316). RDX_ERROR.TAG of an RBANK, which has no tag, is a free value (log entry 21). -/
def execRbank (die : Nat) (p : BitVec 192) (s : State) : Host.Outcome State Fault Refusal :=
  act (.rbank die p) s fun s =>
    s.runOp (rbankTask die p)

end Sys2Proof.Machine
end

