-- ==== Sys2Proof/Machine/Cairn.lean ====
section
/-! DEFINITION. Cairns (R552 to R554, R558, R627 to R632): the shares a step start writes, the test of a slot, and what a
replay restores. -/

namespace Sys2Proof.Machine

/-- The address of a slot of a cairn ring (R627). -/
def cairnSlot (base step : Nat) : Nat := base <<< 26 + (step % 16) * 0x400000

/-- Index of a die's record: logical dies, then fabric dies (R627). -/
def cairnIndex (d : Nat) : Nat := if isCompute d then d else d - 8

/-- The generator states of a compute die, 16 B a generator (R627). -/
def State.genBytes (s : State) (d : Nat) : Bytes :=
  (List.range 2176).flatMap fun g => toLE 8 (s.genWords d g).1 ++ toLE 8 (s.genWords d g).2

/-- A die record (R629): `gens` are the die's generator states, none on a fabric die. -/
def State.dieRecord (s : State) (d step : Nat) (gens : Bytes) : Bytes :=
  let body := toLE 5 step ++ toLE 1 d ++ zeros 2 ++ toLE 4 (s.get F.SCH_EPOCH.VALUE d) ++
    toLE 1 (if isFabric d then s.bankOf d else 0) ++ zeros 47
  body ++ toLE 4 (crc32 (body ++ gens))

/-- The CRC fields of the table slots, as they stand in the store (R245, R627). -/
def State.tableCrcs (s : State) : Bytes :=
  let base := s.get F.CDC_TABLE_BASE.BASE <<< 21
  (List.range 4096).flatMap fun n => s.bytes (base + 512 * n + 508) 4

/-- The input descriptors at LDG_INPUT (R630). -/
def State.inputBytes (s : State) : Bytes := s.bytes (s.get F.LDG_INPUT.BASE <<< 5) (32 * min (s.get F.LDG_INPUT.COUNT) 256)

/-- The address of the format table's tensor entries. -/
def State.tensorsAt (s : State) : Nat := s.get F.UPD_FMT_BASE.BASE <<< 6 + 64

/-- The number of tensors of the format table: none where its header is not valid. -/
def State.tensorCount (s : State) : Nat :=
  let h := fmtHeader (s.bytes (s.get F.UPD_FMT_BASE.BASE <<< 6) 64)
  if h.ok then min h.tensors 8192 else 0

/-- The header of the cairn of the step that starts (R628). -/
def State.cairnHeader (s : State) (crcs inputs tensors : Bytes) : Bytes :=
  let body := toLE 4 0x4E524143 ++ toLE 2 1 ++ zeros 2 ++ toLE 5 (s.get F.SCH_STEP.STEP) ++ zeros 3 ++ toLE 8 (s.dueTick 0) ++
    toLE 8 (s.word .SCH_IMAGE_BASE).toNat ++ toLE 8 (s.word .SCH_BASE_TICK).toNat ++ toLE 8 (s.word .UPD_LOSS).toNat ++
    toLE 4 (s.get F.SCH_EPOCH.VALUE 72) ++ toLE 1 (s.bankOf 72) ++ [0] ++ toLE 2 (tensors.length / 32) ++
    toLE 2 (inputs.length / 32) ++ zeros 6 ++ s.capsDigest ++ zeros 156
  body ++ toLE 4 (crc32 (body ++ crcs ++ inputs ++ tensors))

/-- Bytes filled up to whole sectors. -/
def padSector (b : Bytes) : Bytes := b ++ zeros ((64 - b.length % 64) % 64)

/-- The shares of a cairn in the order they are written (R627, R631): offset in the slot and bytes; the header is last. -/
def State.cairnShares (s : State) : List (Nat × Bytes) :=
  let step := s.get F.SCH_STEP.STEP
  let crcs := s.tableCrcs
  let inputs := s.inputBytes
  let tensors := s.bytes s.tensorsAt (32 * s.tensorCount)
  let dies := (List.range 64).flatMap fun d =>
    let g := s.genBytes d
    [(0x1000 + 64 * d, s.dieRecord d step g), (0x9000 + d * 0x8800, g)]
  let fds := [72, 73, 74, 75].map fun d => (0x1000 + 64 * cairnIndex d, s.dieRecord d step [])
  dies ++ fds ++ [(0x3000, crcs), (0x7000, padSector inputs), (0x229000, padSector tensors),
    (0, s.cairnHeader crcs inputs tensors)]

/-- The copy of a cairn to the partner module of a mirrored job (R556, R558): whole-sector writes on TC2 into the slot of
the partner's mirrored ring, which has the address that LDG_MIRROR_BASE names on both (log entry 37). -/
def State.sendCairn (s : State) (shares : List (Nat × Bytes)) : State :=
  if s.on F.SYN_JOB.MIRROR && s.on F.LDG_MIRROR_BASE.VALID then
    let base := (1 - s.erg) <<< 59 + s.moduleNo <<< 47 +
      cairnSlot (s.get F.LDG_MIRROR_BASE.BASE) (s.get F.SCH_STEP.STEP)
    shares.foldl (fun s p => (split256 p.1 p.2.length).foldl (fun s q =>
      (s.sendRemote routerFd0 (base + q.1) q.2 2 ((p.2.drop (q.1 - p.1)).take q.2)).1) s) s
  else s

/-- Every die copies its share of the step's cairn (R552, R627 to R632). -/
def State.writeCairn (s : State) : State :=
  if s.on F.LDG_CAIRN_BASE.VALID then
    let step := s.get F.SCH_STEP.STEP
    let base := cairnSlot (s.get F.LDG_CAIRN_BASE.BASE) step
    let shares := s.cairnShares
    let s := shares.foldl (fun s p => s.writeSectors (base + p.1) p.2) s
    let s := s.put F.LDG_CAIRN_STATUS.SLOT_VALID (putBits (s.get F.LDG_CAIRN_STATUS.SLOT_VALID) (step % 16) 1 1)
    (s.put F.LDG_CAIRN_STATUS.LAST_STEP step).sendCairn shares
  else s

/-! ### Replay -/

/-- The header of the slot of a step. -/
def State.cairnHead (s : State) (step : Nat) : Bytes := s.bytes (cairnSlot (s.get F.LDG_CAIRN_BASE.BASE) step) 256

/-- Whether a slot is complete (R631). -/
def State.cairnComplete (s : State) (step : Nat) : Bool :=
  let base := cairnSlot (s.get F.LDG_CAIRN_BASE.BASE) step
  let h := s.bytes base 256
  let rec_ (d : Nat) : Bytes := s.bytes (base + 0x1000 + 64 * cairnIndex d) 64
  let gens (d : Nat) : Bytes := if isCompute d then s.bytes (base + 0x9000 + d * 0x8800) 34816 else []
  s.on F.LDG_CAIRN_BASE.VALID && fieldAt h 0 4 == 0x4E524143 && fieldAt h 4 2 == 1 &&
    fieldAt h 252 4 == crc32 (h.take 252 ++ s.bytes (base + 0x3000) 16384 ++ s.bytes (base + 0x7000) (32 * fieldAt h 56 2) ++
      s.bytes (base + 0x229000) (32 * fieldAt h 54 2)) &&
    (schedDies.all fun d => fieldAt (rec_ d) 60 4 == crc32 ((rec_ d).take 60 ++ gens d) &&
      fieldAt (rec_ d) 0 5 == fieldAt h 8 5) &&
    ((h.drop 64).take 32 == s.capsDigest)

/-- What stops a replay of a step (R553, R554): ITEM 2, an incomplete slot; ITEM 1, table CRCs that differ from the
store's. -/
def State.cairnRefused (s : State) (step : Nat) : Option Nat :=
  if !s.cairnComplete step then some 2
  else if s.bytes (cairnSlot (s.get F.LDG_CAIRN_BASE.BASE) step + 0x3000) 16384 ≠ s.tableCrcs then some 1
  else none

/-- What a replay restores from the slot of its step (R553, R630): image base, bank in force, loss scale, tensor entries,
generators, input descriptors. -/
def State.restoreCairn (s : State) (step : Nat) : State :=
  let base := cairnSlot (s.get F.LDG_CAIRN_BASE.BASE) step
  let h := s.bytes base 256
  let loss := fieldAt h 40 8
  let tensors := s.bytes (base + 0x229000) (32 * fieldAt h 54 2)
  let inputs := s.bytes (base + 0x7000) (32 * fieldAt h 56 2)
  let gens := (List.range 64).map fun d => (d, s.bytes (base + 0x9000 + d * 0x8800) 34816)
  let banks := [72, 73, 74, 75].map fun d => (d, fieldAt (s.bytes (base + 0x1000 + 64 * cairnIndex d) 64) 12 1 % 4)
  let s := s.setWord .SCH_IMAGE_BASE (BitVec.ofNat 64 (fieldAt h 24 8))
  let s := (banks.foldl (fun s b => s.put F.VRT_BANK.CURRENT b.2 b.1) s).showRouting
  let s := (s.put F.UPD_LOSS.EXP (bits loss F.UPD_LOSS.EXP.lo F.UPD_LOSS.EXP.len)).put F.UPD_LOSS.GOOD
    (bits loss F.UPD_LOSS.GOOD.lo F.UPD_LOSS.GOOD.len)
  let s := if tensors.isEmpty then s else (s.writeSpan s.tensorsAt tensors).1
  let s := if inputs.isEmpty then s else (s.writeSpan (s.get F.LDG_INPUT.BASE <<< 5) inputs).1
  gens.foldl (fun s g => (List.range 2176).foldl (fun s i =>
    s.setGen g.1 i (fieldAt g.2 (16 * i) 8, fieldAt g.2 (16 * i + 8) 8)) s) s

end Sys2Proof.Machine
end

