-- ==== Sys2Proof/Machine/Sync.lean ====
section
/-! DEFINITION. Synchronisation objects (R449 to R459), their packets and hold queues (R460, R461), and the packets of
the job abort (R463 to R465). Messages between dies of the module act in the command that sends them. -/

namespace Sys2Proof.Machine

/-- The dies that hold objects (R449). -/
def synDies : List Nat := List.range 64 ++ [64, 65]

/-- The unit that signs for an object: the SYN unit of its die (R12, R458; on a host die, which has none, the same type
and instance, log entry 35). -/
def synUnit (die : Nat) : Nat := unitId die 9 0

/-! ### Waiters -/

/-- The waiters of an object, in order of registration. -/
def State.waitersOf (s : State) (die obj : Nat) : List SynWaiter := (lookupKey (die, obj) s.syn.waiters).getD []

/-- Set the waiters of an object. -/
def State.setWaiters (s : State) (die obj : Nat) (ws : List SynWaiter) : State :=
  (s.onSyn fun x => { x with waiters := setKey (die, obj) ws x.waiters }).put F.SYN_OBJ_VALUE.WAITERS ws.length die obj

/-- The operation of a waiter in its unit's list. -/
def State.waiterOp (s : State) (w : SynWaiter) : Option Nat :=
  (s.unit w.unit).ops.findIdx? fun o =>
    o.entry == w.op && o.state == .waiting && (o.opclass == 0x59 || o.opclass == 0x5A)

/-- A waiter's operation completes. -/
def State.wakeWaiter (s : State) (w : SynWaiter) : State :=
  match s.waiterOp w with
  | some k => s.finishOp w.unit k [] 0
  | none => s

/-- Whether a WAIT's condition holds (R454). -/
def SynWaiter.holds (w : SynWaiter) (value : Nat) : Bool :=
  if w.kind = 0 then decide (w.target ≤ value) else if w.kind = 1 then value == w.target else false

/-- One pass over the waiters of a counter in order, each after the consumption of those before it (R456): what is left of
VALUE, those that stay and those that complete. -/
def testPass : List SynWaiter → Nat → Nat × List SynWaiter × List SynWaiter
  | [], v => (v, [], [])
  | w :: ws, v =>
    if w.holds v then
      let (v', stay, done) := testPass ws (if w.kind == 0 && w.consume then v - w.target else v)
      (v', stay, w :: done)
    else
      let (v', stay, done) := testPass ws v
      (v', w :: stay, done)

/-- Passes until none completes: a consumption is a change of VALUE (R454). -/
def testPasses : Nat → List SynWaiter → Nat → Nat × List SynWaiter × List SynWaiter
  | 0, ws, v => (v, ws, [])
  | n + 1, ws, v =>
    match testPass ws v with
    | (v', stay, []) => (v', stay, [])
    | (v', stay, done) =>
      let (v2, stay2, done2) := testPasses n stay v'
      (v2, stay2, done ++ done2)

/-- The waiters of a counter are tested (R454, R456). -/
def State.testWaiters (s : State) (die obj : Nat) : State :=
  let ws := s.waitersOf die obj
  let (v, stay, done) := testPasses ws.length ws (s.get F.SYN_OBJ_VALUE.VALUE die obj)
  if done.isEmpty then s
  else done.foldl State.wakeWaiter ((s.put F.SYN_OBJ_VALUE.VALUE v die obj).setWaiters die obj stay)

/-- The last signaller of an object (R450, R468). -/
def State.signedBy (s : State) (die obj org : Nat) : State :=
  ((s.flag F.SYN_OBJ_LAST.VALID die obj).put F.SYN_OBJ_LAST.ORIGINATOR org die obj).put F.SYN_OBJ_LAST_TICK.TICK
    (s.now die) die obj

/-- A signal is applied to a counter (R453): ADD modulo 2^32 or SET; then its waiters are tested. -/
def State.applySignal (s : State) (die obj org : Nat) (set : Bool) (value : Nat) : State :=
  let v := if set then value else s.get F.SYN_OBJ_VALUE.VALUE die obj + value
  ((s.put F.SYN_OBJ_VALUE.VALUE v die obj).signedBy die obj org).testWaiters die obj

/-! ### Barriers -/

/-- A barrier's round ends on an object (R458, R459): VALUE 0, GEN up by one, its waiters released; waiters that had timed
out are counted (R457). -/
def State.endRound (s : State) (die obj : Nat) : State :=
  let ws := s.waitersOf die obj
  let late := s.syn.timedOut.filter fun t => t.1 == die && t.2.1 == obj
  let s := ((s.put F.SYN_OBJ_VALUE.VALUE 0 die obj).addWrap F.SYN_OBJ_VALUE.GEN 1 die obj).put F.SYN_OBJ_VALUE.HELD 0 die obj
  let s := s.onSyn fun x => { x with timedOut := x.timedOut.filter fun t => !(t.1 == die && t.2.1 == obj) }
  let s := if late.isEmpty then s else s.bump F.SYN_LATE.VALUE late.length die
  ws.foldl State.wakeWaiter (s.setWaiters die obj [])

/-- The objects of a kind whose registers have been written. -/
def State.listedObjects (s : State) (r : Reg) : List (Nat × Nat) :=
  (s.regs.filter fun p => p.1.reg == r).map fun p => (p.1.die, p.1.idx)

/-- Whether an object is a barrier of a root whose round is complete in a generation (R459). -/
def State.heldFor (s : State) (o : Nat × Nat) (rdie ridx gen : Nat) : Bool :=
  s.get F.SYN_OBJ_CFG.KIND o.1 o.2 == 2 && s.on F.SYN_OBJ_VALUE.HELD o.1 o.2 &&
    s.get F.SYN_OBJ_VALUE.GEN o.1 o.2 == gen && s.get F.SYN_OBJ_LINK.ROOT_DIE o.1 o.2 == rdie &&
    s.get F.SYN_OBJ_LINK.ROOT_INDEX o.1 o.2 == ridx

/-- The objects that a RELEASE of a root and generation releases, in ascending die and index (R459). -/
def State.released (s : State) (rdie ridx gen : Nat) : List (Nat × Nat) :=
  sortBy (fun o : Nat × Nat => o.1 * 256 + o.2)
    ((s.listedObjects .SYN_OBJ_VALUE).filter fun o => s.heldFor o rdie ridx gen)

/-- A RELEASE reaches every die of the module. -/
def State.releaseAll (s : State) (rdie ridx gen : Nat) : State :=
  (s.released rdie ridx gen).foldl (fun s o => s.endRound o.1 o.2) s

/-- A packet or message that is discarded as a stray (R459, R461, R463). -/
def State.stray (s : State) (die : Nat) : State :=
  let d := if isCompute die || isHost die then die else 0
  (s.bump F.SYN_STRAY.VALUE 1 d).flag F.SYN_EVENTS.STRAY d

/-- A synchronisation packet's fields as an object of this module sends them. -/
def State.objPacket (s : State) (type die pdie pidx gen : Nat) : SynPacket :=
  { s.synPacket type (synUnit die) with index := pidx, die := pdie, gen := gen }

/-- Whether a die and index name an object (R449, R455). -/
def isObject (die obj : Nat) : Bool := (isCompute die || isHost die) && decide (obj < 48)

/-- An arrival at a barrier (R458): VALUE counts it; a complete round goes to the parent, or, at the root, ends and
releases. `fuel` bounds the depth of the tree; an object passes an arrival on once a round. -/
def State.arriveAt : Nat → State → (die obj org : Nat) → State
  | 0, s, _, _, _ => s
  | fuel + 1, s, die, obj, org =>
    let s := (s.addWrap F.SYN_OBJ_VALUE.VALUE 1 die obj).signedBy die obj org
    let gen := s.get F.SYN_OBJ_VALUE.GEN die obj
    if s.on F.SYN_OBJ_VALUE.HELD die obj || decide (s.get F.SYN_OBJ_VALUE.VALUE die obj < s.get F.SYN_OBJ_CFG.TARGET die obj) then s
    else if s.on F.SYN_OBJ_LINK.PARENT_VALID die obj then
      let s := s.flag F.SYN_OBJ_VALUE.HELD die obj
      let pm := s.get F.SYN_OBJ_LINK.PARENT_MODULE die obj
      let pd := s.get F.SYN_OBJ_LINK.PARENT_DIE die obj
      let pi := s.get F.SYN_OBJ_LINK.PARENT_INDEX die obj
      if pm = s.moduleNo then
        if isObject pd pi && s.get F.SYN_OBJ_CFG.KIND pd pi == 2 && s.get F.SYN_OBJ_VALUE.GEN pd pi == gen then
          State.arriveAt fuel s pd pi (s.originator (synUnit die))
        else s.stray pd
      else s.tc0To (s.sourceFd die) pm s.erg (s.objPacket 0x11 die pd pi gen).bytes
    else
      let rd := s.get F.SYN_OBJ_LINK.ROOT_DIE die obj
      let ri := s.get F.SYN_OBJ_LINK.ROOT_INDEX die obj
      let s := (s.endRound die obj).releaseAll rd ri gen
      if s.on F.SYN_OBJ_CFG.BCAST die obj then s.tc0Bcast (s.sourceFd die) (s.objPacket 0x12 die rd ri gen).bytes else s

/-- An arrival, with room for a tree over every object of the module. -/
def State.arrive (s : State) (die obj org : Nat) : State := State.arriveAt 3168 s die obj org

/-! ### Operations of the SYN unit -/

/-- The operation that a SYN command acts on: the first of its class and payload that has not begun. -/
def State.takeSyn (s : State) (u cls : Nat) (payload : Bytes) : State × Nat :=
  match (s.unit u).ops.findIdx? fun o => o.opclass == cls && o.payload == payload && o.state == .started with
  | some k => (s, k)
  | none =>
    let x := s.unit u
    (s.setUnit u { x with ops := x.ops ++ [{ opclass := cls, payload := payload, entry := 2 ^ 32
                                             segment := x.segment, tick := s.now (unitDie u) }] }, x.ops.length)

/-- A SYN operation ends with an error status of this cause, with the object it named (R468). -/
def State.failSyn (s : State) (u k cause index : Nat) : State :=
  s.failOp u k cause .operation fun s => s.put F.SYN_ERROR.INDEX index (unitDie u)

/-- R455: whether the object an operation names has the wrong kind, die or index. -/
def State.badObject (s : State) (die obj kind : Nat) : Bool :=
  !isObject die obj || s.get F.SYN_OBJ_CFG.KIND die obj != kind

/-- Whether a packet from a die to a module is refused at the source fabric die (R43, R44, R453). -/
def State.noRouteTo (s : State) (die module erg : Nat) : Bool :=
  s.refusesRemote (s.sourceFd die) (erg <<< 59 + module <<< 47)

/-- NO_ROUTE is set at the source fabric die for a packet it refuses, but for another erg that this module has not (R44,
R407). -/
def State.flagNoRoute (s : State) (die erg : Nat) : State :=
  if erg != s.erg && !s.on F.SEC_IDENTITY.MIRROR_VALID then s else s.flag F.VRT_EVENTS.NO_ROUTE (s.sourceFd die)

/-- A SIGNAL packet from a unit. -/
def State.signalPacket (s : State) (u die obj : Nat) (set : Bool) (value : Nat) : SynPacket :=
  { s.synPacket 0x10 u with mode := set, index := obj, die := die, value := value }

/-- SIGNAL (R452, R453, R455): local, or as a TC0 packet that leaves later. -/
def State.signalOp (s : State) (u : Nat) (p : BitVec 192) : State :=
  if !s.unitFree u then s
  else
    let (s, k) := s.takeSyn u 0x58 (bytesOf p)
    let obj := pay p 0 1
    let die := pay p 1 1
    let module := payBits p 2 0 12
    let erg := payBits p 2 12 1
    let remote := payBits p 2 15 1 == 1 && !(module == s.moduleNo && erg == s.erg)
    let set := pay p 8 1 == 1
    if pay p 8 1 > 1 ∨ payBits p 2 13 2 ≠ 0 ∨ !payZero p 9 15 then s.failSyn u k 1 obj
    else if remote then
      if !isObject die obj then s.failSyn u k 2 obj
      else if s.noRouteTo (unitDie u) module erg then (s.flagNoRoute (unitDie u) erg).failSyn u k 5 obj
      else
        (s.tc0To (s.sourceFd (unitDie u)) module erg (s.signalPacket u die obj set (pay p 4 4)).bytes).onOp u k fun o =>
          { o with state := .writing, tags := [0] }
    else if s.badObject die obj 1 then s.failSyn u k 2 obj
    else (s.applySignal die obj (s.originator u) set (pay p 4 4)).finishOp u k [] 0

/-- A remote SIGNAL of this module has left its source fabric die: its operation, or the queue command of its engine,
completes (R453). -/
def State.signalLeft (s : State) (body : Bytes) : State :=
  let q := SynPacket.ofBytes body
  let u := q.source % 65536
  let sent (c : Cmd) : Bool := c.started && c.status.isNone && c.engine == u && fieldAt c.entry 0 1 == 5
  if q.type = 0x10 ∧ q.source = s.originator u ∧ isFabric (unitDie u) = true then
    s.onQcx fun x => { x with cmds := updateFirst sent (fun c => { c with status := some 0 }) x.cmds }
  else if q.type = 0x10 ∧ q.source = s.originator u ∧ unitType u = 9 then
    s.onUnit u fun x =>
      { x with ops := updateFirst (fun o => o.opclass == 0x58 && o.state == .writing)
                        (fun o => { o with state := .done, tags := [] }) x.ops }
  else s

/-- An operation registers as a waiter of an object (R454, R458). -/
def State.register (s : State) (u k die obj kind target timeout : Nat) (consume : Bool) : State :=
  let w : SynWaiter := { unit := u, kind := kind, consume := consume, target := target, op := (s.opAt u k).entry
                         tick := s.now (unitDie u), timeout := timeout }
  (s.setWaiters die obj (s.waitersOf die obj ++ [w])).waitOp u k

/-- WAIT (R452, R454, R455). -/
def State.waitOpOf (s : State) (u : Nat) (p : BitVec 192) : State :=
  if !s.unitFree u then s
  else
    let (s, k) := s.takeSyn u 0x59 (bytesOf p)
    let obj := pay p 0 1
    let die := pay p 1 1
    if !payZero p 2 2 ∨ payBits p 8 2 14 ≠ 0 ∨ !payZero p 12 12 then s.failSyn u k 1 obj
    else if s.badObject die obj 1 then s.failSyn u k 2 obj
    else if 16 ≤ (s.waitersOf die obj).length then s.failSyn u k 3 obj
    else
      let cond := payBits p 8 0 1
      (s.register u k die obj cond (pay p 4 4) (pay p 10 2) (cond == 0 && payBits p 8 1 1 == 1)).testWaiters die obj

/-- BAR (R452, R455, R458): it registers, then its arrival counts. -/
def State.barOp (s : State) (u : Nat) (p : BitVec 192) : State :=
  if !s.unitFree u then s
  else
    let (s, k) := s.takeSyn u 0x5A (bytesOf p)
    let obj := pay p 0 1
    let die := pay p 1 1
    if !payZero p 2 8 ∨ !payZero p 12 12 then s.failSyn u k 1 obj
    else if s.badObject die obj 2 then s.failSyn u k 2 obj
    else if 16 ≤ (s.waitersOf die obj).length then s.failSyn u k 3 obj
    else (s.register u k die obj 2 0 (pay p 10 2) false).arrive die obj (s.originator u)

/-- A core's signal (R453, R468): an object that is no counter keeps its value (log entry 36). -/
def State.coreSignal (s : State) (die obj core v : Nat) : State :=
  if s.badObject die obj 1 then s else s.applySignal die obj core (bit v 32) (bits v 0 32)

/-- A waiter's time is over (R457): its operation ends with cause 4 and it leaves the waiters; a BAR's arrival stays, and
its release will be counted late. -/
def State.waitTimeout (s : State) (die obj w : Nat) : State :=
  let ws := s.waitersOf die obj
  match ws[w]? with
  | none => s
  | some x =>
    if x.timeout ≠ 0 ∧ x.timeout ≤ s.now (unitDie x.unit) - x.tick then
      let s := s.setWaiters die obj (ws.eraseIdx w)
      let s := if x.kind = 2 then s.onSyn fun y => { y with timedOut := y.timedOut ++ [(die, obj, x.unit)] } else s
      match s.waiterOp x with
      | some k => s.failSyn x.unit k 4 obj
      | none => s
    else s

/-! ### Packets -/

/-- A SIGNAL, ARRIVE or RELEASE packet acts (R453, R458, R459). -/
def State.applyPacket (s : State) (q : SynPacket) : State :=
  let kind := if isObject q.die q.index then s.get F.SYN_OBJ_CFG.KIND q.die q.index else 0
  match q.type with
  | 0x10 => if kind = 1 then s.applySignal q.die q.index q.source q.mode q.value else s.stray q.die
  | 0x11 =>
    if kind = 2 ∧ s.get F.SYN_OBJ_VALUE.GEN q.die q.index = q.gen then s.arrive q.die q.index q.source else s.stray q.die
  | _ => if (s.released q.die q.index q.gen).isEmpty then s.stray q.die else s.releaseAll q.die q.index q.gen

/-- Packets held at a die. -/
def State.heldAt (s : State) (die : Nat) : Nat := (s.syn.hold.filter fun h => h.1 == die).length

/-- A SIGNAL, ARRIVE or RELEASE packet arrives (R461): applied, held for the next step, or discarded. -/
def State.receiveSyn (s : State) (type : Nat) (pkt : Bytes) : State :=
  let q := SynPacket.ofBytes pkt
  if !crcHolds 64 pkt then s.stray 0
  else if q.type ≠ type ∨ !isObject q.die q.index then s.stray q.die
  else if !s.on F.SYN_OBJ_CFG.RESET q.die q.index then s.applyPacket q
  else
    let step := s.get F.SCH_STEP.STEP % 65536
    if q.step = step ∧ q.replay = s.get F.SCH_REPLAY.COUNT then s.applyPacket q
    else if q.step = (step + 1) % 65536 ∧ q.replay = 0 then
      if s.heldAt q.die < 16 then
        let s := s.onSyn fun x => { x with hold := x.hold ++ [(q.die, pkt)] }
        s.put F.SYN_STATUS.HELD (s.heldAt q.die) q.die
      else (s.flag F.SYN_EVENTS.HOLD_FULL q.die).stray q.die
    else s.stray q.die

/-! ### Step start -/

/-- Every object with RESET = 1 takes VALUE = INIT and GEN = 0 and loses its waiters (R451). -/
def State.resetObjects (s : State) : State :=
  let objs := distinct (s.listedObjects .SYN_OBJ_CFG ++ s.listedObjects .SYN_OBJ_VALUE)
  objs.foldl (fun s o =>
    if s.on F.SYN_OBJ_CFG.RESET o.1 o.2 then
      let s := (s.put F.SYN_OBJ_VALUE.VALUE (s.get F.SYN_OBJ_CFG.INIT o.1 o.2) o.1 o.2).put F.SYN_OBJ_VALUE.GEN 0 o.1 o.2
      let s := s.onSyn fun x => { x with timedOut := x.timedOut.filter fun t => !(t.1 == o.1 && t.2.1 == o.2) }
      (s.put F.SYN_OBJ_VALUE.HELD 0 o.1 o.2).setWaiters o.1 o.2 []
    else s) s

/-- Held packets act directly after the reset at their step's start (R461). -/
def State.applyHeld (s : State) : State :=
  let held := s.syn.hold
  held.foldl (fun s h =>
    let q := SynPacket.ofBytes h.2
    if q.step = s.get F.SCH_STEP.STEP % 65536 then s.applyPacket q else s.stray h.1) s.emptyHolds

/-! ### The job abort -/

/-- Whether this module broadcasts in its erg what comes from the other erg's root: it is the root's partner (R465). -/
def State.partnerRoot (s : State) (q : SynPacket) : Bool :=
  bits q.source 28 1 != s.erg && s.on F.SYN_JOB.VALID && s.get F.SYN_JOB.ROOT == s.moduleNo

/-- The root broadcasts an ABORT or ABORT_RELEASE unchanged, and sends it to its partner (R463, R465). -/
def State.rootBroadcast (s : State) (pkt : Bytes) : State :=
  let s := s.tc0Bcast 72 pkt
  if s.on F.SYN_JOB.MIRROR then s.tc0To 72 s.moduleNo (1 - s.erg) pkt else s

/-- Whether this module is the job root. -/
def State.isRoot (s : State) : Bool := s.on F.SYN_JOB.VALID && s.get F.SYN_JOB.ROOT == s.moduleNo

/-- A halt is recorded: the module aborts at the next tick it marks (R464). -/
def State.recordHaltPacket (s : State) : State := s.onSched fun c => { c with haltAt := some (s.now 72) }

/-- An ABORT for the current step is accepted (R103, R463, R464). The module's own one coming back is recorded already. -/
def State.acceptAbort (s : State) (pkt : Bytes) : State :=
  let q := SynPacket.ofBytes pkt
  let erg := bits q.source 28 1
  let module := bits q.source 16 12
  if erg = s.erg ∧ module = s.moduleNo then s
  else
    let s := if !s.active then s
      else if s.sched.broken then s.flag F.SCH_EVENTS.EXTRA_BREAK
      else
        let s := s.recordBreak q.segment q.cause q.unit erg module q.tick
        if q.halt then s else s.abortStep
    let s := if q.halt then s.recordHaltPacket else s
    if s.partnerRoot q then s.tc0Bcast 72 pkt
    else if s.isRoot then
      let s := s.rootBroadcast pkt
      if q.halt then s else s.onSched fun c => { c with release := true }
    else s

/-- Whether a packet names the module's current step (R463). -/
def State.thisStep (s : State) (q : SynPacket) : Bool := q.step == s.get F.SCH_STEP.STEP % 65536

/-- An ABORT packet arrives. -/
def State.receiveAbort (s : State) (pkt : Bytes) : State :=
  let q := SynPacket.ofBytes pkt
  if !crcHolds 64 pkt || q.type != 0x13 || !s.thisStep q then s.stray 0 else s.acceptAbort pkt

/-- The release aborts the step if nothing has, and fixes the replay tick (R103, R463). -/
def State.acceptRelease (s : State) (q : SynPacket) : State :=
  let s := if s.active && !s.sched.broken then
      (s.recordBreak s.lowestSegment 0 0 (bits q.source 28 1) (bits q.source 16 12) (s.now 72)).abortStep
    else s
  (s.flag F.SCH_EVENTS.BREAK_REMOTE).onSched fun c => { c with replayTick := some q.tick }

/-- An ABORT_RELEASE packet arrives. -/
def State.receiveRelease (s : State) (pkt : Bytes) : State :=
  let q := SynPacket.ofBytes pkt
  if !crcHolds 64 pkt || q.type != 0x14 || !s.thisStep q then s.stray 0
  else
    let s := s.acceptRelease q
    if s.partnerRoot q then s.tc0Bcast 72 pkt else s

/-! ### Commands -/

def execSignal (die : Nat) (p : BitVec 192) (s : State) : Host.Outcome State Fault Refusal :=
  act (.signal die p) s fun s => s.signalOp (synUnit die) p

def execWait (die : Nat) (p : BitVec 192) (s : State) : Host.Outcome State Fault Refusal :=
  act (.wait die p) s fun s => s.waitOpOf (synUnit die) p

def execBar (die : Nat) (p : BitVec 192) (s : State) : Host.Outcome State Fault Refusal :=
  act (.bar die p) s fun s => s.barOp (synUnit die) p

def execSynObjSignal (die obj core v : Nat) (s : State) : Host.Outcome State Fault Refusal :=
  act (.synObjSignal die obj core v) s fun s => s.coreSignal die obj core v

def execSynWaitTimeout (die obj w : Nat) (s : State) : Host.Outcome State Fault Refusal :=
  act (.synWaitTimeout die obj w) s fun s => s.waitTimeout die obj w

def execSignalPacket (pkt : Bytes) (s : State) : Host.Outcome State Fault Refusal :=
  act (.signalPacket pkt) s fun s => s.receiveSyn 0x10 pkt

def execArrive (pkt : Bytes) (s : State) : Host.Outcome State Fault Refusal :=
  act (.arrive pkt) s fun s => s.receiveSyn 0x11 pkt

def execRelease (pkt : Bytes) (s : State) : Host.Outcome State Fault Refusal :=
  act (.release pkt) s fun s => s.receiveSyn 0x12 pkt

def execAbort (pkt : Bytes) (s : State) : Host.Outcome State Fault Refusal :=
  act (.abort pkt) s fun s => s.receiveAbort pkt

def execAbortRelease (pkt : Bytes) (s : State) : Host.Outcome State Fault Refusal :=
  act (.abortRelease pkt) s fun s => s.receiveRelease pkt

end Sys2Proof.Machine
end

