-- ==== Sys2Proof/Machine/Update.lean ====
section
/-! DEFINITION. The update unit (R322 to R355): shard descriptors, update programs, phases A, B, M and Q of UPRUN, the norm
check, copy scales, digests, COMMIT and what ends it, verify and rewind, and what the end of a step does. -/

namespace Sys2Proof.Machine

/-! ### The state table (R326) -/

/-- A peer of a shard descriptor. -/
structure Peer where
  valid  : Bool
  erg    : Nat
  module : Nat
deriving DecidableEq, Repr

/-- A shard descriptor (R326). Its addresses are local addresses (log entry 31). -/
structure Shard where
  index   : Nat
  tensor  : Nat
  ktiles  : Nat
  ntiles  : Nat
  firstSq : Nat
  nsq     : Nat
  master  : Nat
  moments : Nat
  grad    : Nat
  ledger  : Nat
  program : Nat
  peers   : List Peer
  stage   : Nat
  amax    : Nat
  scalev  : Nat
  ok      : Bool

/-- A descriptor read from its 128 bytes. -/
def shardOf (index : Nat) (b : Bytes) : Shard :=
  let pe := fieldAt b 56 8
  let kt := fieldAt b 2 2
  let nt := fieldAt b 4 2
  { index := index, tensor := fieldAt b 0 2, ktiles := kt, ntiles := nt, firstSq := fieldAt b 8 4, nsq := fieldAt b 12 4
    master := fieldAt b 16 8, moments := fieldAt b 24 8, grad := fieldAt b 32 8, ledger := fieldAt b 40 8
    program := fieldAt b 48 8
    peers := (List.range 4).map fun h => ⟨bit pe (16 * h + 15), bits pe (16 * h + 12) 1, bits pe (16 * h) 12⟩
    stage := fieldAt b 64 8, amax := fieldAt b 72 8, scalev := fieldAt b 80 8
    ok := crcHolds 128 b && kt % 8 == 0 && nt % 8 == 0 &&
      decide (fieldAt b 8 4 + fieldAt b 12 4 ≤ (kt / 8) * (nt / 8)) }

/-- The local address of the state table. -/
def State.stateTable (s : State) : Nat := s.get F.UPD_STATE_BASE.BASE <<< 6

/-- The number of descriptors, if the header's MAGIC and CRC hold. -/
def State.shardCount (s : State) : Option Nat :=
  let h := s.bytes s.stateTable 64
  if fieldAt h 0 4 = 0x54535055 ∧ crcHolds 64 h = true then some (fieldAt h 4 2) else none

/-- Descriptor `d` as it stands in memory. -/
def State.shard (s : State) (d : Nat) : Shard := shardOf d (s.bytes (s.stateTable + 64 + 128 * d) 128)

/-- The shards of the state table. -/
def State.shards (s : State) : List Shard := (List.range (s.shardCount.getD 0)).map s.shard

/-- The shard of a tensor by TMAP. -/
def State.shardOfTensor (s : State) (t : Nat) : Option Shard :=
  match s.shardCount with
  | none => none
  | some n =>
    let e := s.load (fieldAt (s.bytes s.stateTable 64) 8 8 + 4 * t) 4
    if bit e 31 && decide (e % 65536 < n) then some (s.shard (e % 65536)) else none

/-- Blocks of a shard. -/
def Shard.blocks (d : Shard) : Nat := 64 * d.nsq

/-- The key of a block (R347). -/
def Shard.key (d : Shard) (j : Nat) : Nat := d.tensor * 2 ^ 32 + (d.firstSq * 64 + j)

/-! ### Ledger entries (R338) -/

/-- A ledger entry's figures. -/
structure LedgerEntry where
  mtag   : Nat
  wtag   : Nat
  digest : Nat
  peers  : List (Nat × Nat × Bool)       -- PEER_DIGEST, PEER_STEP, PEER_VALID

/-- A ledger entry read from its 64 bytes. -/
def ledgerEntry (b : Bytes) : LedgerEntry :=
  { mtag := fieldAt b 0 5, wtag := fieldAt b 5 5, digest := fieldAt b 16 8
    peers := (List.range 4).map fun h => (fieldAt b (24 + 8 * h) 8, fieldAt b (56 + h) 1, bit (fieldAt b 60 1) h) }

/-- The ledger entry of a block as it stands. -/
def State.ledgerAt (s : State) (d : Shard) (j : Nat) : LedgerEntry := ledgerEntry (s.bytes (d.ledger + 64 * j) 64)

/-- The update number before u (40 bits). -/
def before40 (u : Nat) : Nat := (u + 2 ^ 40 - 1) % 2 ^ 40

/-! ### Update programs (R327 to R330) -/

/-- An instruction (R328). -/
structure UpdInstr where
  op  : Nat
  dst : Nat
  a   : Nat
  b   : Nat
  c   : Nat

/-- An instruction read from its word. -/
def updInstr (w : Nat) : UpdInstr :=
  { op := bits w 26 6, dst := bits w 22 4, a := bits w 16 6, b := bits w 10 6, c := bits w 4 6 }

/-- The sources an operation reads (R329), none for a reserved one. -/
def UpdInstr.sources (i : UpdInstr) : Option (List Nat) :=
  match i.op with
  | 0x00 => some []
  | 0x01 => some [i.a, i.b]
  | 0x02 => some [i.a, i.b]
  | 0x03 => some [i.a, i.b]
  | 0x04 => some [i.a, i.b, i.c]
  | 0x05 => some [i.a, i.b]
  | 0x06 => some [i.a, i.b]
  | 0x09 => some [i.a, i.b, i.c]
  | 0x0A => some [i.a, i.b]
  | 0x07 => some [i.a]
  | 0x08 => some [i.a]
  | 0x0B => some [i.a]
  | 0x0C => some [i.a]
  | 0x0D => some [i.a]
  | 0x0E => some [i.a]
  | 0x0F => some [i.a]
  | 0x10 => some [i.a]
  | 0x20 => some [i.a]
  | 0x21 => some [i.a]
  | _ => none

/-- A program block (R327). -/
structure UpdProgram where
  nmom   : Nat
  bf16   : List Bool
  rsr    : Bool
  consts : List Nat
  phaseA : List UpdInstr
  phaseB : List UpdInstr

/-- Bytes of moment `i`. -/
def UpdProgram.momSize (p : UpdProgram) (i : Nat) : Nat := if p.bf16.getD i false then 2 else 4
/-- Offset of moment `i` within an element's moments: they stand in order (log entry 32). -/
def UpdProgram.momOff (p : UpdProgram) (i : Nat) : Nat := ((List.range i).map p.momSize).foldl (· + ·) 0
/-- MB, the bytes of one element's moments (R325). -/
def UpdProgram.mb (p : UpdProgram) : Nat := p.momOff p.nmom

/-- What R330 asks of the instructions of a phase. -/
def phaseOk (nmom : Nat) (isB : Bool) (is : List UpdInstr) : Bool :=
  let srcOk (s : Nat) : Bool := decide (s ≤ 40) && !(isB && s == 33) && !(decide (34 ≤ s) && decide (s ≤ 37) && decide (nmom ≤ s - 34))
  let stms := (is.filter fun i => i.op == 0x20).map (·.dst)
  let stws := (is.filter fun i => i.op == 0x21).length
  is.all (fun i => match i.sources with | some ss => ss.all srcOk | none => false) &&
    (if isB then stms.isEmpty && stws == 1
     else stws == 0 && stms.length == nmom && (List.range nmom).all fun m => stms.contains m)

/-- The program block's check (R330): the program, if it passes. -/
def updProgram (b : Bytes) : Option UpdProgram :=
  let na := fieldAt b 4 1
  let nb := fieldAt b 5 1
  let mom := fieldAt b 6 1
  let nmom := bits mom 0 3
  let is := (List.range (na + nb)).map fun i => updInstr (fieldAt b (128 + 4 * i) 4)
  if fieldAt b 0 4 = 0x47504455 ∧ crcHolds 448 b = true ∧ na ≤ 63 ∧ 1 ≤ nb ∧ na + nb ≤ 64 ∧ nmom ≤ 4 ∧
      phaseOk nmom false (is.take na) = true ∧ phaseOk nmom true (is.drop na) = true then
    some { nmom := nmom, bf16 := (List.range 4).map fun i => bit mom (3 + i), rsr := bit mom 7
           consts := (List.range 16).map fun i => fieldAt b (64 + 4 * i) 4, phaseA := is.take na, phaseB := is.drop na }
  else none

/-- The inputs of a lane (R328): W, G, M0 to M3, CLIP, STEP. -/
structure LaneIn where
  w    : Fp
  g    : Fp
  m    : List Fp
  clip : Fp
  step : Fp

/-- A source's value (R328). -/
def LaneIn.source (l : LaneIn) (consts f : List Nat) (s : Nat) : Fp :=
  if s < 16 then of32 (f.getD s 0)
  else if s < 32 then of32 (consts.getD (s - 16) 0)
  else if s = 32 then l.w
  else if s = 33 then l.g
  else if s < 38 then l.m.getD (s - 34) .zero
  else if s = 38 then l.clip
  else if s = 39 then l.step
  else .zero

/-- An FP32 code of a value, with subnormals kept. -/
def code32 (v : Fp) : Nat := (fp32.round .rne false false v).code

/-- The result of an operation (R329). -/
def updResult (op : Nat) (a b c : Fp) : Nat :=
  let fn (code : Nat) : Nat := (to32 (of32 code)).code
  match op with
  | 0x01 => (to32 (a.add b)).code
  | 0x02 => (to32 (a.add b.neg)).code
  | 0x03 => (to32 (a.mul b)).code
  | 0x04 => (to32 ((a.mul b).add c)).code
  | 0x05 => (to32 (a.min b)).code
  | 0x06 => (to32 (a.max b)).code
  | 0x07 => (to32 a.abs).code
  | 0x08 => (to32 a.neg).code
  | 0x09 => (to32 (if Fp.lt .zero c then a else b)).code
  | 0x0A => (to32 (a.div b)).code
  | 0x0B => (to32 a.sqrt).code
  | 0x0C => fn (vRsqrt (code32 a))
  | 0x0D => fn (vExp2 (code32 a))
  | 0x0E => fn (vLog2 (code32 a))
  | 0x0F => fn (vRecip (code32 a))
  | _ =>
    if a.isNan then fp32.nan
    else if a.isZero then 0
    else if a.isNeg then 0xBF800000 else 0x3F800000

/-- A lane's run over a phase: F registers, the moments stored and the new master weight. -/
structure LaneRun where
  f   : List Nat := List.replicate 16 0
  stm : List (Nat × Fp) := []
  stw : Fp := .zero

/-- One instruction of a lane. -/
def LaneRun.instr (r : LaneRun) (l : LaneIn) (consts : List Nat) (i : UpdInstr) : LaneRun :=
  let src (s : Nat) : Fp := l.source consts r.f s
  match i.op with
  | 0x00 => r
  | 0x20 => { r with stm := r.stm ++ [(i.dst, src i.a)] }
  | 0x21 => { r with stw := src i.a }
  | op => { r with f := r.f.set i.dst (updResult op (src i.a) (src i.b) (src i.c)) }

/-- A lane runs a phase. -/
def laneRun (l : LaneIn) (consts : List Nat) (is : List UpdInstr) : LaneRun :=
  is.foldl (fun r i => r.instr l consts i) {}

/-! ### Accesses of the unit -/

/-- A read of local memory by an engine: the state after it and the bytes, none where an access failed. -/
def State.engineRead (s : State) (a n : Nat) : State × Option Bytes :=
  if n = 0 then (s, some [])
  else if s.backedSpan a n then
    let (s, ok) := s.readSpan a n
    (s, if ok then some (s.bytes a n) else none)
  else (s, none)

/-- A write of local memory by an engine: whether it was performed. -/
def State.engineWrite (s : State) (a : Nat) (data : Bytes) : State × Bool :=
  if data.isEmpty then (s, true)
  else if s.backedSpan a data.length then s.writeSpan a data
  else (s, false)

/-- A run of UPRUN over blocks: the state, the first failure (cause, address of a failed access), and the digests to send. -/
structure UpRun where
  state : State
  stop  : Option (Nat × Option Nat) := none
  run   : List (Nat × Nat) := []         -- block, digest

/-- Read for a run. -/
def UpRun.read (r : UpRun) (a n : Nat) : UpRun × Bytes :=
  if r.stop.isSome then (r, [])
  else match r.state.engineRead a n with
    | (s, some b) => ({ r with state := s }, b)
    | (s, none) => ({ r with state := s, stop := some (10, some (s.fabricAddr a)) }, [])

/-- Write for a run. -/
def UpRun.write (r : UpRun) (a : Nat) (data : Bytes) : UpRun :=
  if r.stop.isSome then r
  else match r.state.engineWrite a data with
    | (s, true) => { r with state := s }
    | (s, false) => { r with state := s, stop := some (10, some (s.fabricAddr a)) }

/-- Master weights of a block in the slot of an update number (R325). -/
def Shard.masterAt (d : Shard) (u j : Nat) : Nat := d.master + u % 2 * d.nsq * 0x400000 + j * 0x10000
/-- Moments of a block in the slot of an update number (R325). -/
def Shard.momentsAt (d : Shard) (mb u j : Nat) : Nat := d.moments + u % 2 * d.nsq * 1048576 * mb + j * 16384 * mb

/-- LS of the step (R337). -/
def State.lossExp (s : State) : Int := signed 8 (s.get F.UPD_LOSS.EXP)

/-- The moments of an element. -/
def momentsOf (p : UpdProgram) (b : Bytes) (e : Nat) : List Fp :=
  (List.range p.nmom).map fun i =>
    let o := e * p.mb + p.momOff i
    if p.bf16.getD i false then bf16.decode (fieldAt b o 2) else of32 (fieldAt b o 4)

/-- Whether a program draws in phase A (R331). -/
def UpdProgram.draws (p : UpdProgram) : Bool := p.rsr && (List.range p.nmom).any fun i => p.bf16.getD i false

/-- The lane generators advance by the draws of a skipped block (R339). -/
def State.skipDraws (s : State) (die : Nat) (p : UpdProgram) : State :=
  if !p.draws then s
  else
    let n := ((List.range p.nmom).filter fun i => p.bf16.getD i false).length
    (List.range 16384).foldl (fun s e => (List.range n).foldl (fun s _ => (s.draw die (e % 1024)).1) s) s

/-- One STM of an element (R331): the bytes stored. -/
def State.storeMoment (s : State) (die e : Nat) (p : UpdProgram) (m : Nat × Fp) : State × Bytes :=
  if p.bf16.getD m.1 false then
    if p.rsr then
      let (s, r) := s.draw die (e % 1024)
      (s, toLE 2 (bf16.round (.rsr r) false false m.2).code)
    else (s, toLE 2 (bf16.round .rne false false m.2).code)
  else (s, toLE 4 (code32 m.2))

/-- The new moments of an element (R329, R331): those that phase A of the program stores. -/
def State.elementMoments (s : State) (die e : Nat) (p : UpdProgram) (l : LaneIn) : State × Bytes :=
  (laneRun l p.consts p.phaseA).stm.foldl (fun (q : State × Bytes) m =>
    let (s, x) := q.1.storeMoment die e p m
    (s, patch q.2 (p.momOff m.1) x)) (s, zeros p.mb)

/-- A gradient scaled by the loss exponent (R337). -/
def unscaled (ls : Int) (v : Fp) : Fp :=
  match v with
  | .fin n m e => .fin n m (e - ls)
  | x => x

/-- The new moments of a block, element by element (R325, R328), from its old moments, gradients and master weights. -/
def State.blockMoments (s : State) (die u : Nat) (p : UpdProgram) (mo gr wb : Bytes) : State × Bytes :=
  let ls := s.lossExp
  let clip := of32 (s.get F.UPD_NORM.CLIP)
  let step := of32 (code32 (.fin false u 0))
  (List.range 16384).foldl (fun (q : State × Bytes) e =>
    let (s, b) := q.1.elementMoments die e p
      { w := of32 (fieldAt wb (4 * e) 4), g := unscaled ls (fp16.decode (fieldAt gr (2 * e) 2)), m := momentsOf p mo e
        clip := clip, step := step }
    (s, q.2 ++ b)) (s, [])

/-- Phase A of a block (R325, R328 to R331). -/
def UpRun.phaseA (r : UpRun) (die : Nat) (d : Shard) (p : UpdProgram) (u j : Nat) : UpRun :=
  let u1 := before40 u
  let (r, mo) := r.read (d.momentsAt p.mb u1 j) (16384 * p.mb)
  let (r, gr) := r.read (d.grad + j * 32768) 32768
  let (r, wb) := r.read (d.masterAt u1 j) 65536
  if r.stop.isSome then r
  else
    let (s, data) := r.state.blockMoments die u p mo gr wb
    ({ r with state := s }).write (d.momentsAt p.mb u j) data

/-- The new master weights of a block (phase B): FP32 codes, from old weights and new moments. -/
def phaseBWeights (p : UpdProgram) (clip step : Fp) (wb mo : Bytes) : List Nat :=
  (List.range 16384).map fun e =>
    code32 (laneRun { w := of32 (fieldAt wb (4 * e) 4), g := .zero, m := momentsOf p mo e, clip := clip, step := step }
      p.consts p.phaseB).stw

/-- The digest of a block (R347). -/
def blockDigest (w : List Nat) (key : Nat) : Nat :=
  let d := ((chunks 2 w).zipIdx).foldl (fun d x =>
    let v := x.1.getD 0 0 + x.1.getD 1 0 <<< 32
    (rotl64 (d ^^^ v) 27 * 0x9E3779B97F4A7C15 + x.2) % 2 ^ 64) 0x243F6A8885A308D3
  mix64 (d ^^^ key)

/-- |w| of an FP32 code for the amax partials: a NaN counts as infinity (R342). -/
def absWeight (w : Nat) : Nat := min (w % 2 ^ 31) 0x7F800000

/-- The amax partials that a block gives (R342). The first block of a column of blocks in a square starts the column's
values, later ones take the maximum; likewise for rows (log entry 33). -/
def UpRun.amax (r : UpRun) (d : Shard) (j : Nat) (w : List Nat) : UpRun :=
  let i := j % 64 / 8
  let k := j % 8
  let a := w.map absWeight
  let rows := chunks 128 a
  let cols := (List.range 128).map fun c => (rows.map fun row => row.getD c 0).foldl max 0
  let base := d.amax + 8192 * (j / 64)
  let put (r : UpRun) (at_ : Nat) (vals : List Nat) (start : Bool) : UpRun :=
    let (r, old) := if start then (r, []) else r.read at_ 512
    r.write at_ ((vals.zipIdx).flatMap fun x => toLE 4 (max x.1 (if start then 0 else fieldAt old (4 * x.2) 4)))
  put (put r (base + 512 * k) cols (i == 0)) (base + 4096 + 512 * i) (rows.map fun row => row.foldl max 0) (k == 0)

/-- Phase B of a block (R325, R330, R342, R347): weights, partials, digest. -/
def UpRun.phaseB (r : UpRun) (d : Shard) (p : UpdProgram) (u j : Nat) : UpRun × Nat :=
  let (r, wb) := r.read (d.masterAt (before40 u) j) 65536
  let (r, mo) := r.read (d.momentsAt p.mb u j) (16384 * p.mb)
  if r.stop.isSome then (r, 0)
  else
    let w := phaseBWeights p (of32 (r.state.get F.UPD_NORM.CLIP)) (of32 (code32 (.fin false u 0))) wb mo
    let digest := blockDigest w (d.key j)
    let r := (r.write (d.masterAt u j) (w.flatMap (toLE 4))).amax d j w
    (r.write (d.ledger + 64 * j + 16) (toLE 8 digest), digest)

/-- A block's tags, written as one partial-sector write after everything else (R340). -/
def UpRun.tags (r : UpRun) (d : Shard) (j m w : Nat) : UpRun := r.write (d.ledger + 64 * j) (toLE 5 m ++ toLE 5 w)

/-- Digests of a run of consecutive blocks go to every peer (R348). -/
def State.sendDigests (s : State) (die : Nat) (d : Shard) (u : Nat) (run : List (Nat × Nat)) : State :=
  match run with
  | [] => s
  | (j, _) :: _ =>
    let body := withCrc (toLE 2 2 ++ toLE 4 (s.originator (unitId die 7 0)) ++ toLE 2 run.length ++ toLE 5 u ++ zeros 3 ++
      toLE 6 (d.key j) ++ zeros 2 ++ run.flatMap (fun x => toLE 8 x.2) ++ zeros (8 * (4 - run.length)) ++ zeros 4)
    (d.peers.filter (·.valid)).foldl (fun s h => s.tc0To (s.sourceFd die) h.module h.erg body) s

/-- A digest joins the run of blocks to send; a run of four is sent. -/
def UpRun.digest (r : UpRun) (die : Nat) (d : Shard) (u j x : Nat) : UpRun :=
  if r.stop.isSome then r
  else
    let run := r.run ++ [(j, x)]
    if run.length = 4 then { r with state := r.state.sendDigests die d u run, run := [] } else { r with run := run }

/-- Add 1 to a 64-bit count held as HIGH and LOW (R355). -/
def State.bumpWide (s : State) (hi lo : Fld) (die : Nat) : State :=
  let v := min (s.get hi die <<< 32 + s.get lo die + 1) (2 ^ 64 - 1)
  (s.put hi (v >>> 32) die).put lo v die

/-- A block of phase A or B (R339). -/
def UpRun.updateBlock (r : UpRun) (die : Nat) (d : Shard) (p : UpdProgram) (u : Nat) (isB : Bool) (j : Nat) : UpRun :=
  let (r, b) := r.read (d.ledger + 64 * j) 64
  if r.stop.isSome then r
  else
    let e := ledgerEntry b
    let u1 := before40 u
    let skipped : UpRun := { r with state := r.state.bump F.UPD_COUNTS.LOW 1 die }
    if !isB then
      if e.mtag = u1 ∧ e.wtag = u1 then (r.phaseA die d p u j).tags d j u u1
      else if e.mtag = u ∧ (e.wtag = u1 ∨ e.wtag = u) then { skipped with state := skipped.state.skipDraws die p }
      else { r with stop := some (5, none) }
    else if e.mtag = u ∧ e.wtag = u1 then
      let (r, x) := r.phaseB d p u j
      let r := r.tags d j u u
      let r := if r.stop.isSome then r
        else { r with state := r.state.bumpWide F.UPD_BLOCKS.HIGH F.UPD_BLOCKS.LOW die }
      r.digest die d u j x
    else if e.mtag = u ∧ e.wtag = u then skipped.digest die d u j e.digest
    else { r with stop := some (5, none) }

/-- The master weights of a block for phases M and Q: those of its WTAG (R339). -/
def UpRun.copyWeights (r : UpRun) (d : Shard) (j : Nat) : UpRun × List Nat :=
  let (r, b) := r.read (d.ledger + 64 * j) 64
  if r.stop.isSome then (r, [])
  else
    let e := ledgerEntry b
    if e.mtag = e.wtag ∨ e.mtag = (e.wtag + 1) % 2 ^ 40 then
      let (r, w) := r.read (d.masterAt e.wtag j) 65536
      (r, (chunks 4 w).map leN)
    else ({ r with stop := some (5, none) }, [])

/-- A block of phase M: amax partials. -/
def UpRun.amaxBlock (r : UpRun) (d : Shard) (j : Nat) : UpRun :=
  let (r, w) := r.copyWeights d j
  if r.stop.isSome then r else r.amax d j w

/-- An E4M3 code of w times 2^-E, E the exponent of a scale (R344). -/
def quantise (scale w : Nat) : Nat :=
  let e : Int := match of32 scale with | .fin _ m x => if m = 0 then 0 else log2Floor m x | _ => 0
  match of32 w with
  | .fin n m x => (e4m3.round .rne true false (.fin n m (x - e))).code
  | v => (e4m3.round .rne true false v).code

/-- Phase Q of one square of a shard (R344): windward groups 0 to 7, then lee groups 0 to 7, into staging. -/
def UpRun.quantSquare (r : UpRun) (d : Shard) (q : Nat) : UpRun :=
  let n' := d.ntiles * 128
  let sq := d.firstSq + q
  let a := sq / (d.ntiles / 8)
  let b := sq % (d.ntiles / 8)
  let (r, sw) := r.read (d.scalev + 4 * (1024 * b)) 4096
  let (r, sl) := r.read (d.scalev + 4 * n' + 4 * (1024 * a)) 4096
  let (r, ws) := (List.range 64).foldl (fun (p : UpRun × List (List Nat)) i =>
    let (r, w) := p.1.copyWeights d (64 * q + i)
    (r, p.2 ++ [w])) (r, [])
  if r.stop.isSome then r
  else
    let weight (k n : Nat) : Nat := (ws.getD (8 * (k / 128) + n / 128) []).getD (128 * (k % 128) + n % 128) 0
    let stage := d.stage + 0x200000 * q
    let windward (i : Nat) : Bytes := (List.range 1024).flatMap fun n => (List.range 128).map fun k =>
      BitVec.ofNat 8 (quantise (fieldAt sw (4 * n) 4) (weight (128 * i + k) n))
    let lee (j : Nat) : Bytes := (List.range 1024).flatMap fun k => (List.range 128).map fun n =>
      BitVec.ofNat 8 (quantise (fieldAt sl (4 * k) 4) (weight k (128 * j + n)))
    let r := (List.range 8).foldl (fun r i => UpRun.write r (stage + i * 0x20000) (windward i)) r
    (List.range 8).foldl (fun r j => UpRun.write r (stage + 0x100000 + j * 0x20000) (lee j)) r

/-! ### UPRUN -/

/-- UPD_STATUS.VERDICT: 0 NONE, 1 GO, 2 SKIP. -/
def State.verdict (s : State) : Nat := s.get F.UPD_STATUS.VERDICT

/-- The descriptor of an operation: it must stand in the table and be valid. -/
def State.shardFor (s : State) (n : Nat) : Option Shard :=
  match s.shardCount with
  | none => none
  | some k => if n < k ∧ (s.shard n).ok = true then some (s.shard n) else none

/-- UPD_ERROR.SHARD. -/
def updMore (die shard : Nat) (s : State) : State := s.put F.UPD_ERROR.SHARD shard die

/-- What R327 to R336 ask of an UPRUN before any block; SKIP is tested first, since the operation then completes at once. -/
def uprunCheck (s : State) (p : BitVec 192) : Option Nat :=
  let phase := pay p 18 1
  let first := pay p 10 4
  let count := pay p 14 4
  if ¬(payZero p 0 8 = true ∧ payZero p 19 5 = true ∧ phase ≤ 3) then some 1
  else if s.verdict = 2 ∧ phase ≠ 2 then none
  else if phase ≤ 1 ∧ s.verdict = 0 then some 4
  else match s.shardFor (pay p 8 2) with
    | none => some 2
    | some d =>
      if d.blocks < first + count ∨ (2 ≤ phase ∧ ¬(first % 64 = 0 ∧ count % 64 = 0)) then some 1 else none

/-- UPRUN's effect on its blocks, or on the first `most` of them (R339 to R344). -/
def State.uprun (s : State) (die : Nat) (p : BitVec 192) (most : Nat) : State × Computed :=
  let phase := pay p 18 1
  let first := pay p 10 4
  let count := pay p 14 4
  if s.verdict = 2 ∧ phase ≠ 2 then (s, .writes [])
  else match s.shardFor (pay p 8 2) with
    | none => (s, .error 2)
    | some d =>
      let (r, prog) := UpRun.read { state := s } d.program 448
      match r.stop, updProgram prog with
      | some (c, pa), _ => (r.state, .access c (pa.getD 0))
      | none, none => (r.state, .error 3)
      | none, some pr =>
        let u := s.get F.UPD_UNUM.VALUE
        let js := (List.range (min most count)).map (first + ·)
        let go (f : UpRun → Nat → UpRun) (xs : List Nat) : UpRun := xs.foldl (fun r j => if r.stop.isSome then r else f r j) r
        let r := match phase with
          | 0 => go (fun r j => r.updateBlock die d pr u false j) js
          | 1 => go (fun r j => r.updateBlock die d pr u true j) js
          | 2 => go (fun r j => r.amaxBlock d j) js
          | _ => go (fun r q => r.quantSquare d q) ((List.range (min most (count / 64))).map (first / 64 + ·))
        let s := r.state.sendDigests die d u r.run
        match r.stop with
        | none => (s, .writes [])
        | some (c, none) => (s, .error c)
        | some (c, some pa) => (s, .access c pa)

/-- Whether an UPRUN draws (R331): phase A under a verdict that runs it, with a program that draws. -/
def State.uprunDraws (s : State) (p : BitVec 192) : Bool :=
  pay p 18 1 == 0 && s.verdict == 1 &&
    (match s.shardFor (pay p 8 2) with
     | none => false
     | some d => match updProgram (s.bytes d.program 448) with | none => false | some pr => pr.draws)

/-- UPRUN as an operation of the update unit, over the first `most` of its blocks. -/
def uprunTask (die : Nat) (p : BitVec 192) (most : Nat) : Task :=
  { unit := unitId die 7 0, cls := 0x4A, payload := bytesOf p, draws := fun s => s.uprunDraws p, check := fun s => uprunCheck s p
    more := updMore die (pay p 8 2)
    plan := fun _ => { accessCause := 10, more := updMore die (pay p 8 2), body := fun s' => s'.uprun die p most } }

/-- UPRUN (R327 to R344, R348). One that an abort reaches before it is performed has done some of its blocks, starts no
further one, and is ended by the abort (R341, R104): how many it has done is a free value (log entry 7). -/
def execUprun (die : Nat) (p : BitVec 192) (s : State) : Host.Outcome State Fault Refusal :=
  act (.uprun die p) s fun s =>
    let u := unitId die 7 0
    match s.findOp u 0x4A (bytesOf p) with
    | some k =>
      if (s.opAt u k).cut then
        ((s.took 1).runOp (uprunTask die p (s.free % (pay p 14 4 + 1)))).onOp u k fun o =>
          if o.state == .done then { o with state := .ended } else o
      else s.runOp (uprunTask die p (pay p 14 4))
    | none => s.runOp (uprunTask die p (pay p 14 4))

/-! ### NCHK and CSCALE -/

/-- The norm of a sum of squares (R335): SQRT(S) * 2^-LS, correctly rounded. -/
def normOf (ls : Int) (x : Nat) : Nat :=
  code32 (match (of32 x).sqrt with | .fin n m e => .fin n m (e - ls) | v => v)

/-- The verdict of a sum of squares (R335): norm, verdict, CLIP. -/
def State.judge (s : State) (x : Nat) : State × Bool :=
  let norm := normOf s.lossExp x
  let ceil := s.get F.UPD_NORM_CEIL.VALUE
  let cn := s.get F.UPD_CLIP_NORM.VALUE
  let s := s.put F.UPD_NORM.NORM norm
  if !(of32 x).isFin || (of32 ceil).lt (of32 norm) then (s.put F.UPD_STATUS.VERDICT 2, true)
  else
    let clip := if (of32 cn).isZero || (of32 norm).isZero then 0x3F800000
      else code32 ((of32 0x3F800000).min (of32 (to32 ((of32 cn).div (of32 norm))).code))
    ((s.put F.UPD_NORM.CLIP clip).put F.UPD_STATUS.VERDICT 1, false)

/-- NCHK as an operation of the update unit. -/
def nchkTask (die : Nat) (p : BitVec 192) : Task :=
  let u := unitId die 7 0
  let norm := pay p 0 8
  let word := pay p 8 8
  let check : Option Nat := if bits norm 57 7 = 0 ∧ bits word 57 7 = 0 ∧ payZero p 16 8 = true then none else some 1
  { unit := u, cls := 0x49, payload := bytesOf p, check := fun _ => check
    plan := fun s =>
    { reads := [⟨word, 8, false⟩, ⟨norm, 4, false⟩], accessCause := 10
      body := fun s' =>
        let v := leN (s'.spanBytes u die s.asidOf word 8)
        let x := leN (s'.spanBytes u die s.asidOf norm 4)
        if v ≠ 0 then (s', .error 6)
        else
          let (s', skipped) := s'.judge x
          (if skipped then s'.flag F.UPD_EVENTS.SKIPPED die else s', .writes []) } }

/-- NCHK (R335). -/
def execNchk (die : Nat) (p : BitVec 192) (s : State) : Host.Outcome State Fault Refusal :=
  act (.nchk die p) s fun s =>
    s.runOp (nchkTask die p)

/-- The copy scale of an amax value (R343): the exponent, and whether the value was infinite. -/
def copyScale (a : Nat) : Int × Bool :=
  match of32 a with
  | .fin _ m _ => if m = 0 then (-60, false) else (min (max (scaleFor a 8) (-60)) 60, false)
  | _ => (60, true)

/-- CSCALE as an operation of the update unit. -/
def cscaleTask (die : Nat) (p : BitVec 192) : Task :=
  let u := unitId die 7 0
  let av := pay p 0 8
  let check (s : State) : Option Nat :=
    if bits av 57 7 ≠ 0 ∨ payZero p 10 14 = false then some 1
    else if (s.shardFor (pay p 8 2)).isNone then some 2 else none
  { unit := u, cls := 0x4B, payload := bytesOf p, check := check, more := updMore die (pay p 8 2)
    plan := fun s =>
    let d := s.shard (pay p 8 2)
    let n := (d.ntiles + d.ktiles) * 128
    { reads := [⟨av, 4 * n, false⟩], accessCause := 10, more := updMore die (pay p 8 2)
      body := fun s' =>
        let xs := (chunks 4 (s'.spanBytes u die s.asidOf av (4 * n))).map fun b => copyScale (leN b)
        let s' := if xs.any (·.2) then s'.flag F.UPD_EVENTS.SCALE_INF die else s'
        let r := UpRun.write { state := s' } d.scalev (xs.flatMap fun x => toLE 4 (pow32 x.1))
        match r.stop with
        | none => (r.state, .writes [])
        | some (c, pa) => (r.state, .access c (pa.getD 0)) } }

/-- CSCALE (R343). -/
def execCscale (die : Nat) (p : BitVec 192) (s : State) : Host.Outcome State Fault Refusal :=
  act (.cscale die p) s fun s =>
    s.runOp (cscaleTask die p)

/-! ### COMMIT (R350, R351) -/

/-- Whether COMMIT does not wait for a module (R350). -/
def State.ignoresPeer (s : State) (p : Peer) : Bool :=
  (List.range 8).any fun n =>
    s.on F.UPD_PEER_IGNORE.VALID 0 n && s.get F.UPD_PEER_IGNORE.ERG 0 n == p.erg && s.get F.UPD_PEER_IGNORE.MODULE 0 n == p.module

/-- The peers of a shard that COMMIT waits for, with their places. -/
def State.waitedPeers (s : State) (d : Shard) : List (Nat × Peer) :=
  ((d.peers.zipIdx).filter fun x => x.1.valid && !s.ignoresPeer x.1).map fun x => (x.2, x.1)

/-- What the ledger shows of the peers' digests of update u. -/
inductive Digests where
  | missing
  | equal
  | differ (key own peer : Nat) (from_ : Peer)

/-- The state of the digests that COMMIT waits for (R350): it acts on a difference once every digest has come. -/
def State.digests (s : State) : Digests :=
  let u := s.get F.UPD_UNUM.VALUE
  let all : List (Shard × Nat × Nat × Peer) := s.shards.flatMap fun d =>
    (List.range d.blocks).flatMap fun j => (s.waitedPeers d).map fun h => (d, j, h.1, h.2)
  let item (x : Shard × Nat × Nat × Peer) : Nat × Nat × Bool := (s.ledgerAt x.1 x.2.1).peers.getD x.2.2.1 (0, 0, false)
  if all.any fun x => !(item x).2.2 || (item x).2.1 != u % 256 then .missing
  else match all.find? fun x => (item x).1 != (s.ledgerAt x.1 x.2.1).digest with
    | none => .equal
    | some x => .differ (x.1.key x.2.1) (s.ledgerAt x.1 x.2.1).digest (item x).1 x.2.2.2

/-- The UPD of LD00. -/
def updLd00 : Nat := unitId 0 7 0

/-- COMMIT's wait ends. -/
def State.endWait (s : State) : State := (s.onUpd fun x => { x with commitTick := none }).put F.UPD_STATUS.COMMIT_WAIT 0

/-- The place of the waiting COMMIT. -/
def State.waitingCommit (s : State) : Option Nat :=
  if s.upd.commitTick.isNone then none
  else (s.unit updLd00).ops.findIdx? fun o => o.opclass == 0x4C && o.state == .waiting

/-- A divergence is recorded, the first since Starting, and the module aborts with a halt (R350, R355). -/
def State.diverge (s : State) (k key own peer : Nat) (p : Peer) : State :=
  let s := if s.on F.UPD_DIVERGE.VALID then s
    else
      let s := ((s.flag F.UPD_DIVERGE.VALID).put F.UPD_DIVERGE.PEER (p.erg <<< 12 + p.module)).put F.UPD_DIVERGE.KEY key
      ((s.put F.UPD_DIVERGE_OWN.DIGEST own).put F.UPD_DIVERGE_PEER.DIGEST peer).put F.UPD_DIVERGE_STEP.STEP
        (s.get F.SCH_STEP.STEP)
  let s := (s.flag F.UPD_EVENTS.DIVERGE).endWait
  let seg := (s.opAt updLd00 k).segment
  let s := s.failOp updLd00 k 8 .operation
  -- the break of this error is the halt itself, so the operation ends with it
  let s := s.onOp updLd00 k fun o => { o with state := .ended }
  (s.recordHalt 4 0).raiseBreak 7 updLd00 seg true

/-- A waiting COMMIT that finds a difference diverges. -/
def State.checkDigests (s : State) : State :=
  match s.waitingCommit with
  | none => s
  | some k => match s.digests with
    | .differ key own peer p => s.diverge k key own peer p
    | _ => s

/-- COMMIT (R333, R350). Under SKIP the step ends as skipped; what that changes follows at the step's end (R644). -/
def execCommit (die : Nat) (s : State) : Host.Outcome State Fault Refusal :=
  act (.commit die) s fun s =>
    let u := unitId die 7 0
    if !s.unitFree u then s
    else
      let (s, k) := s.takeClass u 0x4C
      let fail (c : Nat) : State := s.failOp u k c .operation
      if (s.opAt u k).cut then s.onOp u k fun o => { o with state := .ended }
      else if die ≠ 0 then fail 11
      else if s.verdict = 0 then fail 4
      else if s.verdict = 2 then (s.onSched fun c => { c with ending := .skipped }).finishOp u k [] 0
      else if s.shards.any fun d => !d.ok then fail 2
      else if s.shards.any fun d => (List.range d.blocks).any fun j => (s.ledgerAt d j).wtag != s.get F.UPD_UNUM.VALUE then fail 9
      else if s.upd.commitTick.isSome then s.checkDigests
      else
        let s := (s.onUpd fun x => { x with commitTick := some (s.now 0) }).put F.UPD_STATUS.COMMIT_WAIT 1
        (s.waitOp u k).checkDigests

/-- Every peer's digest equals the own one: the update commits (R350). The epoch, UPD_UNUM and the applications follow at
the step's end (R110, R324, R644; log entry 34). -/
def execUpdateCommit (s : State) : Host.Outcome State Fault Refusal :=
  act .updateCommit s fun s =>
    match s.waitingCommit with
    | none => s
    | some k => match s.digests with
      | .missing => s
      | .differ key own peer p => s.diverge k key own peer p
      | .equal => (s.endWait.onSched fun c => { c with ending := .committed }).finishOp updLd00 k [] 0

/-- A COMMIT that waits too long fails (R351). -/
def execDigestTimeout (s : State) : Host.Outcome State Fault Refusal :=
  act .digestTimeout s fun s =>
    match s.waitingCommit, s.upd.commitTick with
    | some k, some t =>
      if tickReached (s.now 0) (t + s.get F.UPD_DIGEST_TIMEOUT.TICKS) then s.endWait.failOp updLd00 k 7 .operation else s
    | _, _ => s

/-! ### Digest packets (R348, R349) -/

/-- A digest packet is discarded (R349). -/
def State.strayDigest (s : State) : State := (s.bumpWide F.UPD_STRAY.HIGH F.UPD_STRAY.LOW 0).flag F.UPD_EVENTS.DIGEST_STRAY

/-- The digest of a peer written into a ledger entry by one partial-sector write (R349). -/
def State.writePeer (s : State) (d : Shard) (j h digest step : Nat) : State :=
  let a := d.ledger + 64 * j
  let b := s.bytes (a + 24) 37
  let b := patch (patch b (8 * h) (toLE 8 digest)) (32 + h) (toLE 1 step)
  let b := patch b 36 (toLE 1 (putBits (fieldAt b 36 1) h 1 1))
  (s.engineWrite (a + 24) b).1

/-- A digest packet arrives (R349, R543). -/
def execDigestPacket (pkt : Bytes) (s : State) : Host.Outcome State Fault Refusal :=
  act (.digestPacket pkt) s fun s =>
    let source := fieldAt pkt 2 4
    let count := fieldAt pkt 6 2
    let key := fieldAt pkt 16 6
    match s.shardOfTensor (key / 2 ^ 32) with
    | none => s.strayDigest
    | some d =>
      let blk := key % 2 ^ 32
      let lo := d.firstSq * 64
      let peer := (d.peers.findIdx? fun p => p.valid && p.module == bits source 16 12 && p.erg == bits source 28 1)
      match peer with
      | none => s.strayDigest
      | some h =>
        if crcHolds 64 pkt && d.ok && decide (1 ≤ count) && decide (count ≤ 4) && decide (lo ≤ blk) &&
            decide (blk + count ≤ lo + d.blocks) then
          ((List.range count).foldl (fun s i =>
            s.writePeer d (blk - lo + i) h (fieldAt pkt (24 + 8 * i) 8) (fieldAt pkt 8 1)) s).checkDigests
        else s.strayDigest

/-! ### Verify and rewind (R352, R353) -/

/-- Whether the schedule is IDLE or HALTED. -/
def State.schedStill (s : State) : Bool := s.sched.st == .idle || s.sched.st == .halted

/-- A verify of one block: whether its digest differs, none where a slot could not be read or the program is not valid. -/
def State.verifyBlock (s : State) (d : Shard) (j : Nat) : State × Option Bool :=
  let e := s.ledgerAt d j
  let (r, prog) := UpRun.read { state := s } d.program 448
  match updProgram prog with
  | none => (r.state, none)
  | some p =>
    let (r, wb) := r.read (d.masterAt (before40 e.wtag) j) 65536
    let (r, mo) := r.read (d.momentsAt p.mb e.mtag j) (16384 * p.mb)
    if r.stop.isSome then (r.state, none)
    else
      let w := phaseBWeights p (of32 (s.get F.UPD_NORM.CLIP)) (of32 (code32 (.fin false e.wtag 0))) wb mo
      (r.state, some (blockDigest w (d.key j) != e.digest))

/-- A verify over blocks: the number that differ, none where it is refused. -/
def State.verifyBlocks (s : State) (key count : Nat) : State × Option Nat :=
  match s.shardOfTensor (key / 2 ^ 32) with
  | none => (s, none)
  | some d =>
    let j := key % 2 ^ 32 - d.firstSq * 64
    let same (i : Nat) : Bool := (s.ledgerAt d i).mtag == (s.ledgerAt d i).wtag
    if !(s.schedStill && d.ok && decide (d.firstSq * 64 ≤ key % 2 ^ 32) && decide (j + count ≤ d.blocks) &&
        (List.range count).all fun i => same (j + i)) then (s, none)
    else
      (List.range count).foldl (fun (q : State × Option Nat) i =>
        let (s, x) := q.1.verifyBlock d (j + i)
        (s, match q.2, x with | some n, some b => some (n + b2n b) | _, _ => none)) (s, some 0)

/-- A write to UPD_VERIFY_KEY (R352): with START the blocks are recomputed, and the result shows when it is done. -/
def State.verifyWrite (s : State) (key : Nat) : State :=
  let s := s.put F.UPD_VERIFY_KEY.VALUE key
  if bit key 63 = false ∨ s.on F.UPD_STATUS.VERIFY_BUSY = true then s
  else
    let (s, r) := s.verifyBlocks (bits key 0 48) (s.get F.UPD_VERIFY_COUNT.VALUE)
    match r with
    | none => s.flag F.UPD_VERIFY_RESULT.ERROR
    | some n =>
      let s := (s.put F.UPD_VERIFY_RESULT.DONE 0).put F.UPD_VERIFY_RESULT.ERROR 0
      (s.flag F.UPD_STATUS.VERIFY_BUSY).onUpd fun x => { x with verifying := some n }

def execUpdVerify (key : Nat) (s : State) : Host.Outcome State Fault Refusal :=
  act (.updVerify key) s fun s => s.verifyWrite key

/-- The verify has finished (R352). -/
def execUpdVerifyDone (s : State) : Host.Outcome State Fault Refusal :=
  act .updVerifyDone s fun s =>
    match s.upd.verifying with
    | some n =>
      let s := (s.put F.UPD_VERIFY_RESULT.MISMATCHES (min n (2 ^ 32 - 1))).flag F.UPD_VERIFY_RESULT.DONE
      (s.put F.UPD_STATUS.VERIFY_BUSY 0).onUpd fun x => { x with verifying := none }
    | _ => s

/-- The tags of update u moved back in every block of the state table (R353). -/
def State.rewindTags (s : State) (u : Nat) : State :=
  s.shards.foldl (fun s d => (List.range d.blocks).foldl (fun s j =>
    let e := s.ledgerAt d j
    let back (t : Nat) : Nat := if t = u then before40 u else t
    if e.mtag = u ∨ e.wtag = u then (s.engineWrite (d.ledger + 64 * j) (toLE 5 (back e.mtag) ++ toLE 5 (back e.wtag))).1
    else s) s) s

/-- A write to UPD_REWIND (R353): with START the update is rewound, or refused. -/
def State.rewindWrite (s : State) (unum : Nat) : State :=
  let s := s.put F.UPD_REWIND.UNUM unum
  let u := bits unum 0 40
  if bit unum 63 = false ∨ s.on F.UPD_STATUS.REWIND_BUSY = true then s
  else if !s.schedStill || s.shards.any fun d => (List.range d.blocks).any fun j =>
      (s.ledgerAt d j).mtag == (u + 1) % 2 ^ 40 then s.flag F.UPD_EVENTS.REWIND_REFUSED
  else
    let s := (s.rewindTags u).put F.UPD_UNUM.VALUE u
    (s.flag F.UPD_STATUS.REWIND_BUSY).onUpd fun x => { x with rewinding := true }

def execUpdRewind (unum : Nat) (s : State) : Host.Outcome State Fault Refusal :=
  act (.updRewind unum) s fun s => s.rewindWrite unum

/-- The rewind has finished (R353). -/
def execUpdRewindDone (s : State) : Host.Outcome State Fault Refusal :=
  act .updRewindDone s fun s =>
    if s.upd.rewinding then (s.put F.UPD_STATUS.REWIND_BUSY 0).onUpd fun x => { x with rewinding := false } else s

/-! ### The start and the end of a step -/

/-- The verdict is NONE at the start of every step (R335). -/
def State.resetVerdict (s : State) : State := s.put F.UPD_STATUS.VERDICT 0

/-- The loss-scale patch list (R337). -/
def State.patchLoss (s : State) : State :=
  let base := match s.sched.image with | none => 0 | some i => i.base
  let list := s.get F.UPD_LS_PATCH.BASE <<< 3
  let word := toLE 4 (code32 (.fin false 1 s.lossExp))
  (List.range (s.get F.UPD_LS_PATCH.COUNT)).foldl (fun s i =>
    s.updWrite (base + bits (s.load (list + 8 * i) 8) 0 40) word) s

/-- The loss scale at a committed step end (R337). -/
def State.lossUp (s : State) : State :=
  let good := s.get F.UPD_LOSS.GOOD + 1
  if good < s.get F.UPD_LOSS.INTERVAL then s.put F.UPD_LOSS.GOOD good
  else
    let s' := s.put F.UPD_LOSS.GOOD 0
    if signed 8 (s.get F.UPD_LOSS.MAX) < s.lossExp + 1 then
      (s'.put F.UPD_LOSS.EXP (s.get F.UPD_LOSS.MAX)).flag F.UPD_EVENTS.LS_CEIL
    else s'.put F.UPD_LOSS.EXP (unsigned 8 (s.lossExp + 1))

/-- The loss scale at a skipped step end (R337). -/
def State.lossDown (s : State) : State :=
  let s' := s.put F.UPD_LOSS.GOOD 0
  if s.lossExp - 1 < signed 8 (s.get F.UPD_LOSS.MIN) then
    (s'.put F.UPD_LOSS.EXP (s.get F.UPD_LOSS.MIN)).flag F.UPD_EVENTS.LS_FLOOR
  else s'.put F.UPD_LOSS.EXP (unsigned 8 (s.lossExp - 1))

/-- The commit, the skip, or neither, with its applications at the end of a step: the epoch increments for the first two
(R110, R296, R297, R324, R337, R646). -/
def State.endUpdate (s : State) : State :=
  match s.sched.ending with
  | .committed => (((s.bumpEpoch.addWrap F.UPD_UNUM.VALUE 1).applyFormats).lossUp).patchLoss
  | .skipped =>
    let s := (List.range 64).foldl (fun s d => s.bump F.UPD_COUNTS.HIGH 1 d) (s.bumpEpoch.onFsel fun f => { f with pending := [] })
    s.lossDown.patchLoss
  | .none => s.onFsel fun f => { f with pending := [] }

end Sys2Proof.Machine
end

