-- ==== Sys2Proof/Machine/Schedule.lean ====
section
/-! DEFINITION. The schedule: segments, slips and the step's end and start (R94 to R100, R117, R644), operations that start
and complete with their tokens and credits (R88, R91 to R93, R111, R112, R645), breaks that the schedule itself raises,
replays and halts (R106 to R108, R464, R553 to R555). -/

namespace Sys2Proof.Machine

/-! ### Channels (R89 to R92, R645) -/

/-- Tokens of a channel that operations in flight have reserved (R91). -/
def State.reserved (s : State) (u c : Nat) : Nat :=
  ((s.unit u).ops.filter fun o => !o.next).foldl (fun n o => n + (o.ins.filter fun i => i.1 == c).length) 0

/-- Whether a channel holds enough tokens for the references of an operation. -/
def State.tokensFor (s : State) (u : Nat) (ins : List Nat) : Bool :=
  ins.all fun c => decide (s.reserved u c + (ins.filter (· == c)).length ≤ s.get F.SCH_CHANNEL.TOKENS 0 c)

/-- Whether a channel holds enough credits for the references of an operation. -/
def State.creditsFor (s : State) (outs : List Nat) : Bool :=
  outs.all fun c => decide ((outs.filter (· == c)).length ≤ s.get F.SCH_CHANNEL.CREDITS 0 c)

/-- Take one credit of each output channel (R91). -/
def State.takeCredits (s : State) (outs : List Nat) : State :=
  outs.foldl (fun s c => s.put F.SCH_CHANNEL.CREDITS (s.get F.SCH_CHANNEL.CREDITS 0 c - 1) 0 c) s

/-- Whether a channel sits in a mirage buffer. -/
def State.isMirage (s : State) (c : Nat) : Bool := match s.chan c with | some x => x.mirage | none => false

/-- The item of a mirage channel that has arrived for a place (R645). -/
def State.itemOf (s : State) (c k : Nat) : Option Item := s.sched.items.find? fun i => i.chan == c && i.k == k

/-- Held tokens that are next in order cross the panel (R645); at most `fuel` of them. -/
def State.drainTokens (c : Nat) : Nat → State → State
  | 0, s => s
  | fuel + 1, s =>
    let n := (lookupKey c s.sched.posted).getD 0
    match s.sched.tokens.find? fun t => t.1 == c && t.2.1 == n with
    | none => s
    | some t =>
      State.drainTokens c fuel (s.onSched fun x =>
        { x with tokens := removeFirst (· == t) x.tokens, posted := setKey c (n + 1) x.posted
                 mesh := x.mesh ++ [⟨c, true, t.2.2⟩] })

/-- A token of item `k` is posted in the stream order of the productions; one of an item run again goes at once (R112,
R645). -/
def State.postToken (s : State) (c k : Nat) (item : Option Item) : State :=
  if k < (lookupKey c s.sched.posted).getD 0 then s.onSched fun x => { x with mesh := x.mesh ++ [⟨c, true, item⟩] }
  else
    let s := s.onSched fun x => { x with tokens := x.tokens ++ [(c, k, item)] }
    State.drainTokens c s.sched.tokens.length s

/-- A message of a channel is taken off the panel, oldest first. -/
def State.takeMesh (s : State) (c : Nat) (token : Bool) : Option (MeshMsg × State) :=
  match s.sched.mesh.find? fun m => m.chan == c && m.token == token with
  | none => none
  | some m => some (m, s.onSched fun x => { x with mesh := removeFirst (· == m) x.mesh })

/-- A token arrives at its consumer (R92). -/
def State.tokenArrives (s : State) (c : Nat) : State :=
  match s.takeMesh c true with
  | none => s
  | some (m, s) =>
    let s := s.put F.SCH_CHANNEL.TOKENS (s.get F.SCH_CHANNEL.TOKENS 0 c + 1) 0 c
    match m.item with | none => s | some i => s.onSched fun x => { x with items := x.items ++ [i] }

/-- A credit arrives at its producer (R92). -/
def State.creditArrives (s : State) (c : Nat) : State :=
  match s.takeMesh c false with
  | none => s
  | some (_, s) => s.put F.SCH_CHANNEL.CREDITS (s.get F.SCH_CHANNEL.CREDITS 0 c + 1) 0 c

/-- Counter values at the start of a step (R90): no tokens and DEPTH credits, but for what run-ahead entries of the step
have already taken and posted (R111). -/
def State.resetChannels (s : State) : State :=
  let chans := match s.sched.image with | none => [] | some i => i.channels
  let early := s.sched.units.flatMap fun p => (p.2.ops.filter (·.next)).flatMap fun o => o.outs.map (·.1)
  let carried := s.sched.carried
  let s := (chans.zipIdx).foldl (fun s x =>
    let taken := (early.filter (· == x.2)).length + (carried.filter fun t => t.1 == x.2).length
    (s.put F.SCH_CHANNEL.TOKENS 0 0 x.2).put F.SCH_CHANNEL.CREDITS (x.1.depth - taken) 0 x.2) s
  let s := s.onSched fun c => { c with tokens := [], posted := [], mesh := [], items := [], carried := [] }
  carried.foldl (fun s t => s.postToken t.1 t.2.1 t.2.2) s

/-- Messages of a kind that still cross the panel. -/
def State.inMesh (s : State) (c : Nat) (token : Bool) : Nat :=
  (s.sched.mesh.filter fun m => m.chan == c && m.token == token).length

/-- Whether a channel breaks R93 at the step's end. Messages still crossing the panel count as arrived, and the credits of
the next step's run-ahead entries as held (log entry 38). -/
def State.imbalanced (s : State) (c : Nat) (ch : Channel) : Bool :=
  let early := (s.sched.units.flatMap fun p => (p.2.ops.filter (·.next)).flatMap fun o => o.outs.map (·.1)).filter (· == c)
  let carried := s.sched.carried.filter fun t => t.1 == c
  s.get F.SCH_CHANNEL.TOKENS 0 c + s.inMesh c true != 0 ||
    s.get F.SCH_CHANNEL.CREDITS 0 c + s.inMesh c false + early.length + carried.length != ch.depth

/-- The lowest-numbered channel that breaks R93. -/
def State.firstImbalance (s : State) : Option Channel :=
  let chans := match s.sched.image with | none => [] | some i => i.channels
  ((chans.zipIdx).find? fun x => s.imbalanced x.2 x.1).map (·.1)

/-! ### Phases (R621, R622) -/

/-- The phases that LDG_PHASE names, if they are well formed (R621). -/
def State.phaseList (s : State) : List (Nat × Nat) :=
  let ps := ((List.range 8).filter fun k => s.on F.LDG_PHASE.VALID 0 k).map fun k => (k, s.get F.LDG_PHASE.FIRST 0 k)
  let rises : Bool := (ps.zip (ps.drop 1)).all fun x => decide (x.1.2 < x.2.2)
  match ps with
  | (0, 0) :: _ => if rises then ps else []
  | _ => []

/-- The phase of a segment: the last entry whose FIRST does not exceed it. -/
def State.phaseOf (s : State) (seg : Nat) : Nat :=
  s.ldg.phases.foldl (fun k p => if p.2 ≤ seg then p.1 else k) 0

/-- A unit enters the phase of a segment: the record of the phase before is written (R622). A segment without a slip starts
in the tick's own cycle. -/
def State.enterPhase (s : State) (u seg slip : Nat) : State :=
  let x := s.unit u
  let k := s.phaseOf seg
  if x.started ≠ 0 ∧ x.phase = k then s
  else
    let s := if x.started = 0 then s else s.phaseRecord u false
    let cycle := if slip = 0 then 0 else s.freeCycle 0
    (s.took 1).onUnit u fun x =>
      { x with phase := k, phaseSeg := seg, phaseTick := s.now (unitDie u), phaseCycle := cycle, busy := 0, starve := 0
               stalled := 0, waited := 0, opsDone := 0, slips := 0, remote := 0, opError := false }

/-! ### The end of a step (R644) -/

/-- Every stream of the module has finished its last segment. -/
def State.allFinished (s : State) : Bool := s.streams.all fun t => s.segments ≤ (s.unit t.unit).finished

/-- Tables that are installed after the due tick of the next step's segment 0 make that start late (R241). -/
def State.lateInstalls (s : State) : State :=
  let dies := distinct ((s.codec.pending.filter fun p => !p.2.isEmpty).map (·.1.1))
  dies.foldl (fun s d => if tickReached (s.now d) (s.dueTick s.segments) then s.flag F.CDC_EVENTS.INSTALL_LATE d else s) s

/-- The end-of-step actions (R644): the channel check; the tables; the commit's or the skip's applications; the step number
advances (R118); a stop asked for takes effect (R117, R573). -/
def State.endStep (s : State) : State :=
  match s.firstImbalance with
  | some ch => s.raiseBreak 2 ch.consumer (s.segments - 1)
  | none =>
    let s := (s.lateInstalls).installTables.endUpdate
    let next := (s.get F.SCH_STEP.STEP + 1) % 2 ^ 40
    let s := (s.put F.SCH_STEP.STEP next).put F.SCH_REPLAY.COUNT 0
    let s := s.onSched fun c =>
      { c with stepEnded := true, first := false, ending := .none, broken := c.abortNext, replaying := false, mesh := [] }
    if s.sched.stopReq ∨ next = 2 ^ 40 - 1 then (s.onSched fun c => { c with stopReq := false, stepEnded := false }).setSched .idle
    else s

/-! ### Segments (R95 to R98) -/

/-- Whether a unit's next entry is a marker, or its stream is at its end. -/
def State.atBoundary (s : State) (t : Stream) (x : UnitSt) : Bool :=
  decide (t.entries ≤ x.pos) || (s.ctrlAt t x.pos).opclass == 0x80

/-- Whether every operation of the segments a unit has started has completed (R95). -/
def UnitSt.quiet (x : UnitSt) : Bool := x.ops.all fun o => o.next || o.redo || o.entry == 2 ^ 32 || decide (x.started ≤ o.segment)

/-- A unit reaches its next entry (R88): entries already started as run-ahead are passed, and a malformed one raises a break
of cause IMAGE. At most `fuel` entries are passed. -/
def State.reach (u : Nat) (t : Stream) : Nat → State → State
  | 0, s => s
  | fuel + 1, s =>
    let x := s.unit u
    if t.entries ≤ x.pos then s
    else if s.entryBad u t x.pos x.started then s.raiseBreak 3 u x.segment
    else if x.ahead.contains x.pos then
      let c := s.ctrlAt t x.pos
      State.reach u t fuel (s.onUnit u fun x => { x with pos := x.pos + 1 + c.ext, ahead := x.ahead.filter (· != x.pos) })
    else s

/-- A unit passes its next entry and reaches the one after. -/
def State.passEntry (s : State) (u : Nat) (t : Stream) : State :=
  let c := s.ctrlAt t (s.unit u).pos
  State.reach u t t.entries (s.onUnit u fun x => { x with pos := x.pos + 1 + c.ext })

/-- A slip is counted and its overrun record written (R98). -/
def State.countSlip (s : State) (u seg slip : Nat) : State :=
  if slip = 0 then s
  else
    let d := unitDie u
    ((s.bump F.SCH_SLIP_COUNT.VALUE 1 d).ledger
      { kind := .overrun, unit := u, phase := min slip 255, replay := s.get F.SCH_REPLAY.COUNT, step := s.get F.SCH_STEP.STEP
        segment := seg, startTick := s.now d, startCycle := s.freeCycle 0 }).took 1

/-- A unit starts its next segment (R96, R97). A first entry that is not that segment's marker raises a break (R86, R88). -/
def State.startSegment (s : State) (u : Nat) (t : Stream) (slip : Nat) : State :=
  let x := s.unit u
  let j := x.started
  let s := (s.countSlip u j slip).enterPhase u j slip
  let s := s.onUnit u fun x => { x with slips := x.slips + b2n (slip != 0) }
  if t.entries ≤ x.pos || (s.ctrlAt t x.pos).opclass != 0x80 || s.entryBad u t x.pos j then s.raiseBreak 3 u j
  else (s.onUnit u fun x => { x with started := x.started + 1 }).passEntry u t

/-- A unit goes on: it finishes a segment whose operations have all completed, starts the next one that is due, and ends
the step when it is the last. `late` is 1 after the tick's own cycle (R98); at most `fuel` moves. -/
def State.advance (u : Nat) (late : Nat) : Nat → State → State
  | 0, s => s
  | fuel + 1, s =>
    match s.streamOfUnit u with
    | none => s
    | some t =>
      let x := s.unit u
      if s.sched.st != .running || s.sched.stepEnded || x.fenced || x.stopped then s
      else if x.finished < x.started then
        if s.atBoundary t x && x.quiet then
          let s := s.onUnit u fun x => { x with finished := x.started }
          if s.segments ≤ x.started then
            let s := s.phaseRecord u false
            if s.allFinished then s.endStep else s
          else if t.entries ≤ x.pos then s.raiseBreak 3 u x.segment
          else State.advance u late fuel s
        else s
      else if x.started < s.segments && tickReached (s.now (unitDie u)) (s.dueTick x.started) && s.unitFree u then
        let slip := (s.now (unitDie u) + 2 ^ 64 - s.dueTick x.started) % 2 ^ 64
        State.advance u late fuel (s.startSegment u t (if late = 0 then slip else slip + 1))
      else s

/-- A unit goes on as far as it can. -/
def State.goOn (s : State) (u late : Nat) : State := State.advance u late (2 * s.segments + 2) s

/-! ### Operations that start (R91, R111, R112) -/

/-- The OPCLASSes that a unit runs (R155, R188, R214, R226, R299, R315, R333, R358, R435, R452). -/
def unitClasses (u : Nat) : List Nat :=
  if isCompute (unitDie u) then
    (match unitType u with
     | 0 => [1, 2, 3, 4, 5, 6] | 1 => [1, 2, 3, 4, 5, 6] | 2 => [0x10, 0x11, 0x12, 0x13, 0x14, 0x15, 0x16, 0x17]
     | 3 => [0x17, 0x20] | 4 => [0x40, 0x41] | 5 => [0x30, 0x32, 0x33] | 6 => [0x31]
     | 7 => [0x48, 0x49, 0x4A, 0x4B, 0x4C] | 8 => [0x50] | 9 => [0x58, 0x59, 0x5A] | _ => [])
  else match unitType u, unitInst u with
    | 2, 0 => [0x44, 0x45, 0x46, 0x47]
    | 2, _ => [0x45, 0x46, 0x47]
    | 3, 0 => [0x30, 0x32]
    | 3, _ => [0x31]
    | _, _ => []

/-- The extension entries that an operation's payload takes. -/
def classExt (cls : Nat) : Nat :=
  if cls = 0x20 then 3
  else if [0x03, 0x10, 0x11, 0x12, 0x13, 0x14, 0x15, 0x16, 0x30, 0x31, 0x41].contains cls then 1 else 0

/-- The cause that a unit's error register gives an OPCLASS that it does not run (R251, R256: place or operation). -/
def badClassCause (u : Nat) : Nat :=
  if (isCompute (unitDie u) && (unitType u == 5 || unitType u == 6)) || (isFabric (unitDie u) && unitType u == 3) then 11
  else if isCompute (unitDie u) && (unitType u == 4 || unitType u == 8) then 0 else 1

/-- An operation of a stream starts: it takes its credits and joins the operations in flight. One whose OPCLASS the unit
does not run, or whose entries are not the number its payload takes, ends with an error status (log entry 39). -/
def State.beginOp (s : State) (u : Nat) (o : Op) (ext : Nat) (credits : List Nat) : State :=
  let k := (s.unit u).ops.length
  let s := (s.takeCredits credits).onUnit u fun x => { x with ops := x.ops ++ [o] }
  if (unitClasses u).contains o.opclass && classExt o.opclass == ext then s
  else s.failOp u k (badClassCause u) .operation

/-- The channel references of an operation with their item numbers (R645). -/
def State.refNos (s : State) (t : Stream) (entry : Nat) (cs : List Nat) (out : Bool) : List (Nat × Nat) :=
  cs.map fun c => (c, s.useNo t entry c out)

/-- The operation of an entry. -/
def State.opOf (s : State) (u : Nat) (t : Stream) (entry segment : Nat) (c : Ctrl) (ahead next : Bool) : Op :=
  { entry := entry, segment := segment, opclass := c.opclass, payload := s.payloadAt t entry c.ext
    ins := s.refNos t entry c.ins false, outs := s.refNos t entry c.outs true, ahead := ahead, next := next
    tag := s.get F.SCH_EPOCH.VALUE (unitDie u), tick := s.now (unitDie u) }

/-- Whether an item may be used: its tag is its consumer's epoch, and it is valid (R112). -/
def State.itemGood (s : State) (u : Nat) (i : Item) : Bool := i.valid && i.tag == s.get F.SCH_EPOCH.VALUE (unitDie u)

/-- A stale or invalid item is discarded with its token, and its entry is to run again (R112). -/
def State.discardItem (s : State) (u : Nat) (i : Item) : State :=
  let s := s.put F.SCH_CHANNEL.TOKENS (s.get F.SCH_CHANNEL.TOKENS 0 i.chan - 1) 0 i.chan
  let s := (s.onSched fun c => { c with items := removeFirst (· == i) c.items }).bump F.SCH_MIRAGE_DISCARDS.VALUE 1 (unitDie u)
  match s.chan i.chan with
  | none => s
  | some ch => s.onUnit ch.producer fun x => { x with redo := x.redo ++ [(i.entry, i.k, i.chan)] }

/-- The next entry of a stream starts if R91 holds; a mirage item that may not be used is discarded instead (R112). -/
def State.startNext (s : State) (u : Nat) (t : Stream) : Option State :=
  let x := s.unit u
  let c := s.ctrlAt t x.pos
  if x.started = 0 || decide (t.entries ≤ x.pos) || decide (0x80 ≤ c.opclass) then none
  else if !s.tokensFor u c.ins || !s.creditsFor c.outs then none
  else
    let o := s.opOf u t x.pos x.segment c false false
    let needs := o.ins.filter fun i => s.isMirage i.1
    let items := needs.filterMap fun i => s.itemOf i.1 i.2
    if items.length ≠ needs.length then none
    else
      let bad := items.filter fun i => !s.itemGood u i
      if bad.isEmpty then some ((s.beginOp u o c.ext c.outs).passEntry u t)
      else some (bad.foldl (fun s i => s.discardItem u i) s)

/-- An entry runs again as ordinary work for a discarded item, in its place (R112). Its credit is the one of the item. -/
def State.startRedo (s : State) (u : Nat) (t : Stream) : Option State :=
  match (s.unit u).redo with
  | [] => none
  | (entry, k, ch) :: rest =>
    let c := s.ctrlAt t entry
    let s := s.onUnit u fun x => { x with redo := rest }
    let o := { s.opOf u t entry (s.unit u).segment c false false with redo := true, ins := [], outs := [(ch, k)] }
    some (s.beginOp u o c.ext [])

/-- Whether an entry may run ahead (R111). -/
def State.mayRunAhead (s : State) (c : Ctrl) : Bool :=
  c.ahead && c.nin == 0 && c.nout == 1 && (c.outs.all fun n => s.isMirage n)

/-- The first entry of a unit that may start as run-ahead (R111), with its segment and whether it is the next step's. -/
def State.aheadEntry (s : State) (u : Nat) (t : Stream) : Option (Nat × Nat × Ctrl × Bool) :=
  let x := s.unit u
  let all := s.opsOf t
  let reachable (seg : Nat) : Bool := decide (seg + 1 ≤ x.started + s.sched.raDepth) && (decide (0 < x.started) || !s.sched.first)
  let here := all.find? fun o =>
    decide (x.pos ≤ o.1) && reachable o.2.1 && !x.ahead.contains o.1 && s.mayRunAhead o.2.2 && s.refsOk u o.2.2 &&
      s.creditsFor o.2.2.outs
  match here with
  | some o => some (o.1, o.2.1, o.2.2, false)
  | none =>
    if s.sched.stopReq || s.sched.newImage then none
    else
      (all.find? fun o =>
        reachable (s.segments + o.2.1) && !x.aheadNext.contains o.1 && s.mayRunAhead o.2.2 && s.refsOk u o.2.2 &&
          s.creditsFor o.2.2.outs).map fun o => (o.1, o.2.1, o.2.2, true)

/-- A run-ahead entry starts (R111). -/
def State.startAhead (s : State) (u : Nat) (t : Stream) : Option State :=
  let runs := isCompute (unitDie u) && [4, 6, 8].contains (unitType u) && s.on F.SCH_CTRL.RA_ENABLE
  if !runs then none
  else match s.aheadEntry u t with
    | none => none
    | some (entry, seg, c, next) =>
      let s := s.beginOp u (s.opOf u t entry seg c true next) c.ext c.outs
      some (s.onUnit u fun x =>
        if next then { x with aheadNext := x.aheadNext ++ [entry] } else { x with ahead := x.ahead ++ [entry] })

/-- One operation of a unit starts: an entry that is to run again, else the next in stream order, else one that may run
ahead. -/
def State.startOperation (s : State) (u : Nat) : State :=
  match s.streamOfUnit u with
  | none => s
  | some t =>
    if s.sched.st != .running || s.sched.stepEnded || !s.unitFree u || (s.unit u).stopped then s
    else ((s.startRedo u t).orElse fun _ => (s.startNext u t).orElse fun _ => s.startAhead u t).getD s

/-- A no-operation entry is passed (R87). -/
def State.passNop (s : State) (u : Nat) : State :=
  match s.streamOfUnit u with
  | none => s
  | some t =>
    let x := s.unit u
    if s.sched.st != .running || s.sched.stepEnded || !s.unitFree u || x.stopped || x.started == 0 ||
        decide (t.entries ≤ x.pos) || (s.ctrlAt t x.pos).opclass != 0x81 then s
    else (s.passEntry u t).goOn u 1

/-! ### Operations that complete (R92, R101, R104) -/

/-- Take an operation off its unit's list. -/
def State.dropOp (s : State) (u k : Nat) : State := s.onUnit u fun x => { x with ops := x.ops.eraseIdx k }

/-- The trace record of an operation (R624). -/
def State.traceOp (s : State) (u : Nat) (o : Op) (error : Bool) : State :=
  if s.on F.LDG_TRACE.VALID && s.get F.LDG_TRACE.UNIT == u then
    (s.ledger { kind := .trace, unit := u, phase := o.opclass, error := error, aborted := o.cut
                replay := s.get F.SCH_REPLAY.COUNT, step := s.get F.SCH_STEP.STEP, segment := o.segment, startTick := o.tick
                startCycle := s.freeCycle 0, ticks := s.now (unitDie u) - o.tick, endCycle := s.freeCycle 1, busy := s.freeAt 2
                remoteKib := (o.remote + 1023) / 1024, ops := 1 }).took 3
  else s

/-- The tokens and credits of an operation that has completed (R92, R112, R645). -/
def State.postOp (s : State) (u : Nat) (o : Op) : State :=
  let item (c k : Nat) : Option Item :=
    if s.isMirage c then some { chan := c, k := k, tag := o.tag, valid := !o.invalid, entry := o.entry } else none
  if o.next then s.onSched fun x => { x with carried := x.carried ++ o.outs.map fun p => (p.1, p.2, item p.1 p.2) }
  else
    let s := o.ins.foldl (fun s p =>
      let s := s.put F.SCH_CHANNEL.TOKENS (s.get F.SCH_CHANNEL.TOKENS 0 p.1 - 1) 0 p.1
      s.onSched fun x =>
        { x with items := removeFirst (fun i => i.chan == p.1 && i.k == p.2) x.items
                 mesh := x.mesh ++ [⟨p.1, false, none⟩] }) s
    let s := o.outs.foldl (fun s p => s.postToken p.1 p.2 (item p.1 p.2)) s
    s.onUnit u fun x => { x with opsDone := x.opsDone + 1, remote := x.remote + o.remote }

/-- An operation of a unit completes (R92, R101, R104, R538). -/
def State.completeOp (s : State) (u k : Nat) : State :=
  match (s.unit u).ops[k]? with
  | none => s
  | some o =>
    match o.state with
    | .done =>
      let s := (s.traceOp u o false).dropOp u k
      if o.cut || s.sched.st != .running then s else (s.postOp u o).goOn u 1
    | .failed => (((s.traceOp u o true).dropOp u k).raiseBreak 7 u o.segment)
    | .ended => (s.traceOp u o true).dropOp u k
    | _ => s

/-! ### The start of a step (R644, R552) -/

/-- The streams stand at their first entry, with the run-ahead of the step that begins. -/
def State.resetUnits (s : State) : State :=
  s.onSched fun c =>
    { c with units := c.units.map fun p =>
        (p.1, { p.2 with pos := 0, started := 0, finished := 0, stopped := false, redo := [], ahead := p.2.aheadNext
                         aheadNext := [], ops := p.2.ops.map fun o => { o with next := false } }) }

/-- The verdict word is 0 before segment 0 of every step (R379). -/
def State.zeroVerdict (s : State) : State :=
  let a := s.get F.RDX_VERDICT_ADDR.BASE <<< 3
  if s.backedSpan a 8 then (s.writeSpan a (zeros 8)).1 else s

/-- The input descriptors and phases that LDG registers name are read (R621, R630). -/
def State.readLedger (s : State) : State :=
  let ps := s.phaseList
  let ins := chunks 32 s.inputBytes
  s.onLdg fun l => { l with phases := ps, inputs := ins }

/-- The resets at the start of every step, replays included (R90, R161, R219, R237, R335, R379, R451, R461). -/
def State.stepResets (s : State) : State :=
  let s := ((s.resetArrays).resetVregs.clearHistograms.resetVerdict).zeroVerdict
  ((s.resetObjects).resetChannels.resetUnits).applyHeld

/-- Every unit whose segment 0 is due starts it. -/
def State.startDue (s : State) (late : Nat) : State := s.streams.foldl (fun s t => s.goOn t.unit late) s

/-- A step starts: new register values are read (R117), the cairn is copied unless it is a replay (R552), and everything of
a step is reset. -/
def State.beginStep (s : State) (replay : Bool) (late : Nat) : State :=
  let s := s.onSched fun c => { c with budget := s.get F.SCH_SLIP_BUDGET.BUDGET, raDepth := min (s.get F.SCH_CTRL.RA_DEPTH) 2
                                       stepEnded := false, replaying := replay, stepTick := s.dueTick 0 }
  let s := s.readLedger
  let s := if replay then s else s.writeCairn
  s.stepResets.startDue late

/-- STEP_START (R644): the next step, once the end of the one before is complete; an abort that came after that end aborts
it at its start (R351). -/
def State.startStep (s : State) : State :=
  if s.sched.st != .running || !s.sched.stepEnded then s
  else
    let s := if s.sched.newImage && !s.sched.first then s.takeUp else s
    if s.sched.abortNext then
      (((s.onSched fun c => { c with abortNext := false }).beginStep false 1)).abortStep
    else (s.onSched fun c => { c with broken := false }).beginStep false 1

/-! ### RUN, STOP, ABORT (R117, R118, R555, R573) -/

/-- Whether a due tick is at least 2 ticks after the current count (R117). -/
def State.dueSoon (s : State) : Bool := !tickReached (s.dueTick 0) (s.now 0 + 2)

/-- The state of a schedule that starts. -/
def State.armRun (s : State) (restored : Bool) : State :=
  let s := s.onSched fun c =>
    { c with first := true, stepEnded := true, stopReq := false, halt := false, haltAt := none, replayTick := none
             release := false, broken := false, abortNext := false, ending := .none, restored := restored
             units := c.units.map fun p => (p.1, { p.2 with aheadNext := [], ops := [], stall := none }), carried := []
             tokens := [], mesh := [], items := [] }
  ((s.put F.SCH_REPLAY.COUNT 0).put F.SCH_CTRL.RUN 1).setSched .running

/-- A replay that cannot run halts the module (R554). -/
def State.refuseReplay (s : State) (item : Nat) : State := (s.put F.FLT_RECOVERY.ARMED 0).haltModule 2 item

/-- A restoring start (R555): step SCH_STEP replays from its cairn slot. -/
def State.restoringRun (s : State) : State :=
  let step := s.get F.SCH_STEP.STEP
  match s.cairnRefused step with
  | some item => s.refuseReplay item
  | none =>
    let t := ((s.restoreCairn step).takeUp).put F.FLT_RECOVERY.ARMED 0
    if t.sched.image.isNone then s
    else if t.dueSoon then s.flag F.SCH_EVENTS.START_LATE
    else ((t.armRun true).beginStep true 0)

/-- A write of 1 to SCH_CTRL.RUN (R117). -/
def State.runSchedule (s : State) : State :=
  if s.on F.SCH_CTRL.RUN then s.onSched fun c => { c with stopReq := false }
  else if s.power.mode == .parked || s.get F.SCH_STEP.STEP == 2 ^ 40 - 1 || s.active then s
  else if s.on F.FLT_RECOVERY.ARMED then s.restoringRun
  else
    let t := s.takeUp
    if t.dueSoon then s.flag F.SCH_EVENTS.START_LATE
    else if t.sched.image.isNone then t
    else t.armRun false

/-- A write of 0 to SCH_CTRL.RUN (R117). -/
def State.stopSchedule (s : State) : State :=
  if s.on F.SCH_CTRL.RUN then s.onSched fun c => { c with stopReq := true } else s

/-- Whether a unit has missed its next segment's slip budget (R99). A unit that has started every segment waits for segment
0 of the next step. In a step that breaks in this very tick, a unit whose budget ends at this tick breaks too (R103). -/
def State.overBudget (s : State) (u : Nat) : Bool :=
  let now := s.now (unitDie u)
  let last := s.dueTick (s.unit u).started + s.sched.budget
  (s.streamOfUnit u).isSome &&
    ((s.sched.st == .running && tickReached now last) ||
      (s.sched.st == .aborting && now == last % 2 ^ 64 && now == s.get F.SCH_BREAK_TICK.TICK))

/-! ### Replays and halts (R106 to R108, R464) -/

/-- Whether every unit of the module has stopped: no operation is in flight. -/
def State.allStopped (s : State) : Bool := s.sched.units.all fun p => p.2.ops.isEmpty

/-- REPLAY_WAIT, or HALTED at the replay limit (R106, R108). -/
def State.awaitReplay (s : State) : State :=
  if s.sched.st != .aborting || !s.allStopped || s.sched.halt then s
  else if s.get F.SCH_REPLAY.LIMIT ≤ s.get F.SCH_REPLAY.COUNT then
    ((s.flag F.SCH_EVENTS.REPLAY_LIMIT).recordHalt 3 0).setSched .halted
  else s.setSched .replayWait

/-- The step replays from its cairn at the replay tick (R106, R553). -/
def State.replayAt (s : State) (t : Nat) : State :=
  let step := s.get F.SCH_STEP.STEP
  match s.cairnRefused step with
  | some item => s.haltModule 2 item
  | none =>
    let s := (s.restoreCairn step).takeUp
    let base := (t + 2 ^ 64 - step * s.segments % 2 ^ 64) % 2 ^ 64
    let s := (s.put F.SCH_BASE_TICK.BASE_TICK base).put F.SCH_REPLAY.COUNT (s.get F.SCH_REPLAY.COUNT + 1)
    let s := s.onSched fun c => { c with first := true, broken := false, ending := .none, replayTick := none, release := false
                                         carried := [], units := c.units.map fun p => (p.1, { p.2 with aheadNext := [] }) }
    (s.setSched .running).beginStep true 0

/-- REPLAY_START (R106, R107): at the replay tick; a module that is not in REPLAY_WAIT then halts. -/
def State.startReplay (s : State) : State :=
  match s.sched.replayTick with
  | none => s
  | some t =>
    if !s.active || s.sched.halt || !tickReached (s.now 72) t then s
    else if s.sched.st == .replayWait && s.now 72 == t % 2 ^ 64 then s.replayAt (t % 2 ^ 64)
    else (s.onSched fun c => { c with replayTick := none }).haltModule 6 0

/-- HALTED, once every unit has stopped after a halt (R464). -/
def State.enterHalted (s : State) : State :=
  if s.sched.halt && (s.sched.st == .aborting || s.sched.st == .replayWait) && s.allStopped then
    (s.onSched fun c => { c with halt := false, haltAt := none, replayTick := none, stopReq := false, release := false }).setSched
      .halted
  else s

/-! ### Commands -/

def execSchRun (s : State) : Host.Outcome State Fault Refusal := act .schRun s State.runSchedule

def execSchStop (s : State) : Host.Outcome State Fault Refusal := act .schStop s State.stopSchedule

def execSchAbort (s : State) : Host.Outcome State Fault Refusal := act .schAbort s fun s => s.raiseBreak 6 0 0

def execSlipBreak (u : Nat) (s : State) : Host.Outcome State Fault Refusal :=
  act (.slipBreak u) s fun s =>
    let j := (s.unit u).started
    if s.overBudget u then s.raiseBreak 1 u (if s.segments ≤ j then 0 else j) else s

def execOperationStart (u : Nat) (s : State) : Host.Outcome State Fault Refusal :=
  act (.operationStart u) s fun s => s.startOperation u

def execOperationComplete (u k : Nat) (s : State) : Host.Outcome State Fault Refusal :=
  act (.operationComplete u k) s fun s => s.completeOp u k

def execSynToken (ch : Nat) (s : State) : Host.Outcome State Fault Refusal :=
  act (.synToken ch) s fun s => s.tokenArrives ch

def execSynCredit (ch : Nat) (s : State) : Host.Outcome State Fault Refusal :=
  act (.synCredit ch) s fun s => s.creditArrives ch

def execNoOperation (u : Nat) (s : State) : Host.Outcome State Fault Refusal :=
  act (.noOperation u) s fun s => s.passNop u

def execStepStart (s : State) : Host.Outcome State Fault Refusal := act .stepStart s State.startStep

def execReplayWaitEntry (s : State) : Host.Outcome State Fault Refusal := act .replayWaitEntry s State.awaitReplay

def execReplayStart (s : State) : Host.Outcome State Fault Refusal := act .replayStart s State.startReplay

def execHaltEntry (s : State) : Host.Outcome State Fault Refusal := act .haltEntry s State.enterHalted

end Sys2Proof.Machine
end

