-- ==== Sys2Proof/Machine/RegView.lean ====
section
/-! DEFINITION. What a register reads (R15, R17, R639). Most registers hold their word; the others show other parts of the
state. -/

namespace Sys2Proof.Machine

/-- Whether a unit has an operation of one of the classes in flight. -/
def State.engineBusy (s : State) (u : Nat) (classes : List Nat) : Bool :=
  (s.unit u).ops.any fun o => classes.contains o.opclass

/-- MXA_STATUS and MXW_STATUS (R157, R160, R186, R187). -/
def State.arrayStatus (s : State) (u : Nat) : Nat :=
  let a := s.array u
  let loading := (s.unit u).ops.any fun o => o.opclass == 1 && (o.state == .started || o.state == .waiting)
  let shape := match a.active with | some t => t.shape | none => if isWide u then 7 else 0
  (shape <<< 8) ||| (b2n a.active.isSome <<< 7) ||| ((if loading then 1 else if a.shadow.isSome then 2 else 0) <<< 5) |||
    (b2n (s.engineBusy u [3, 4, 6]) <<< 4) ||| (b2n (s.engineBusy u [2, 5]) <<< 3) ||| (b2n (s.engineBusy u [1]) <<< 2)

/-- Word `i % 22` of the record that STF would write from slot `i / 22` now (R174, R186); its TENSOR, which only an STF names,
reads 0. -/
def State.statWord (s : State) (u i : Nat) : Nat :=
  let slot := (lookupKey (i / 22) (s.array u).stats).getD { hbase := 0 }
  fieldAt (statRecord u 0 slot) (8 * (i % 22)) 8

/-- VSC_STATUS (R224). A CHAIN takes effect in one step of the model, so PHASE shows its first. -/
def State.chainStatus (s : State) (die : Nat) : Nat :=
  match (s.unit (unitId die 3 0)).ops.find? fun o => o.opclass == 0x20 with
  | none => 0
  | some o => ((fieldAt o.payload 43 1 + 7) % 8 <<< 3) ||| 1

/-- SCH_STATUS (R118): the lowest segment not yet finished by any stream of the die, and the state. -/
def State.scheduleStatus (s : State) (die : Nat) : Nat :=
  let own := s.streams.filter fun t => unitDie t.unit == die
  (minList s.segments (own.map fun t => (s.unit t.unit).finished) % 2 ^ 24) <<< 8 ||| s.sched.st.code

/-- Whether a unit is stalled under R439 or R444. -/
def State.isStalled (s : State) (u : Nat) : Bool :=
  (s.unit u).stall.isSome || !(s.unit u).blocked.isEmpty || s.qcx.cmds.any fun c => c.engine == u && c.stall.isSome

/-- FLT_DIE_STALLED (R448): the stalled units of a die by the index of R443. -/
def State.stalledUnits (s : State) (die : Nat) : Nat :=
  let units := dieStreamUnits die ++ ((s.qcx.cmds.map (·.engine)).filter fun u => unitDie u == die) ++
    ((s.sched.units.map (·.1)).filter fun u => unitDie u == die)
  ((distinct units).filter fun u => isFaultCapable u && s.isStalled u).foldl (fun w u => w ||| 1 <<< unitIndex u) 0

/-- SYN_OBJ_WAITER (R468): waiter `i % 16` of object `i / 16`. -/
def State.waiterWord (s : State) (die i : Nat) : Nat :=
  match (s.waitersOf die (i / 16))[i % 16]? with
  | none => 0
  | some w => (1 <<< 63) ||| (w.kind <<< 61) ||| (b2n w.consume <<< 60) ||| (w.unit <<< 32) ||| (if w.kind = 2 then 0 else w.target)

/-- QCX_CACHE (R512). -/
def State.cacheWord (s : State) (die : Nat) : Nat :=
  let c := s.cachedOn die
  (c.length <<< 32) ||| (c.filter fun e => !evictable e.2).length

/-- LDG_UNIT (R623, R637): counter `i % 4` of the unit of index `i / 4`. -/
def State.unitCounter (s : State) (die i : Nat) : Nat :=
  match (dieStreamUnits die).find? fun u => unitIndex u == i / 4 with
  | none => 0
  | some u =>
    let x := s.unit u
    (match i % 4 with | 0 => x.busy | 1 => x.starve | 2 => x.stalled | _ => x.waited) % 2 ^ 32

/-- The 64 bits that a register reads in a die's window. -/
def State.readReg (s : State) (r : Reg) (die idx : Nat) : Nat :=
  match r with
  | .SCH_STATUS => s.scheduleStatus die
  | .MXA_STATUS => s.arrayStatus (unitId die 0 idx)
  | .MXA_STAT => s.statWord (unitId die 0 (idx / 176)) (idx % 176)
  | .MXW_STATUS => s.arrayStatus (unitId die 1 0)
  | .MXW_STAT => s.statWord (unitId die 1 0) idx
  | .VSE_GEN_STATE => (if idx % 2 = 0 then (s.genWords die (idx / 2)).1 else (s.genWords die (idx / 2)).2)
  | .VSC_STATUS => s.chainStatus die
  | .RDX_STATUS =>
    let u := unitId die 2 idx
    ((s.rdx.hold.filter fun p => p.1 == u).length <<< 16) ||| (s.rdx.tags.filter fun t => t.engine == u).length
  | .XLT_STATUS => ((s.xlt.entries.filter fun e => e.die == die).length <<< 16) ||| (s.xlt.slots.filter fun m => m.die == die).length
  | .FLT_DIE_STALLED => s.stalledUnits die
  | .SYN_OBJ_WAITER => s.waiterWord die idx
  | .HCX_STATUS => (s.word .HCX_STATUS die).toNat % 2 ^ 36 ||| (b2n (s.linkUp die 2) <<< 44)
  | .HCX_RWIN => if idx = 0 then 0 else (s.word .HCX_RWIN die idx).toNat
  | .QCX_CACHE => s.cacheWord die
  | .BDI_CAPS_OWN => fieldAt (s.descriptor die) (8 * idx) 8
  | .BDI_CAPS_PEER => fieldAt (s.bdiLink die (idx / 32)).seen (8 * (idx % 32)) 8
  | .LDG_UNIT => s.unitCounter die idx
  | r => (s.word r die idx).toNat

/-- The data that a control-space read of a half or of the whole of a register returns (R639). -/
def readHalf (w half : Nat) : Bytes :=
  match half with
  | 0 => toLE 4 w
  | 1 => toLE 4 (w >>> 32)
  | _ => toLE 8 w

end Sys2Proof.Machine
end

