-- ==== Sys2Proof/Machine/Vlk.lean ====
section
/-! DEFINITION. The Vemen ports (R384 to R398, R414, R417, R418, R422): flits, sequence numbers, replay, credits,
arbitration, protected flows, training. -/

namespace Sys2Proof.Machine

/-! ### Flits -/

/-- The header fields of a flit and its 240 bytes of payload (R388). -/
structure Flit where
  type    : Nat                          -- 0 idle, 1 head, 2 body, 3 tag
  tc      : Nat := 0
  vc      : Nat := 0
  secpath : Bool := false
  seq     : Nat := 0
  len     : Nat := 0
  ack     : Nat := 0
  nak     : Bool := false
  ctc     : Nat := 0
  cvc     : Nat := 0
  ccount  : Nat := 0
  dest    : Nat := 0
  destErg : Nat := 0
  bank    : Nat := 0
  bcast   : Bool := false
  src     : Nat := 0
  srcErg  : Nat := 0
  hops    : Nat := 0
  data    : Bytes := zeros 240
deriving DecidableEq, Repr

/-- Bytes [11:0] of a flit (R388). -/
def Flit.header (f : Flit) : Bytes :=
  toLE 1 (f.type + f.tc <<< 2 + f.vc <<< 4 + b2n f.secpath <<< 7) ++ toLE 2 (f.seq % 4096 + f.len <<< 12) ++
    toLE 2 (f.ack % 4096 + b2n f.nak <<< 12) ++ toLE 1 (f.ctc + f.cvc <<< 2) ++ toLE 1 f.ccount ++
    toLE 2 (f.dest + f.destErg <<< 12 + f.bank <<< 13 + b2n f.bcast <<< 15) ++ toLE 2 (f.src + f.srcErg <<< 12) ++
    toLE 1 f.hops

/-- The 256 bytes of a flit, with its CRC (R388). -/
def Flit.bytes (f : Flit) : Bytes := f.header ++ toLE 4 (crc32 (f.header ++ f.data)) ++ f.data

/-- A flit read from its bytes. -/
def Flit.ofBytes (b : Bytes) : Flit :=
  let kind := fieldAt b 0 1
  { type := bits kind 0 2, tc := bits kind 2 2, vc := bits kind 4 3, secpath := bit kind 7
    seq := bits (fieldAt b 1 2) 0 12, len := bits (fieldAt b 1 2) 12 4
    ack := bits (fieldAt b 3 2) 0 12, nak := bit (fieldAt b 3 2) 12
    ctc := bits (fieldAt b 5 1) 0 2, cvc := bits (fieldAt b 5 1) 2 3, ccount := fieldAt b 6 1
    dest := bits (fieldAt b 7 2) 0 12, destErg := bits (fieldAt b 7 2) 12 1, bank := bits (fieldAt b 7 2) 13 2
    bcast := bit (fieldAt b 7 2) 15, src := bits (fieldAt b 9 2) 0 12, srcErg := bits (fieldAt b 9 2) 12 1
    hops := bits (fieldAt b 11 1) 0 6, data := b.drop 16 }

/-- Whether a flit's CRC holds (R388). -/
def flitCrcOk (b : Bytes) : Bool := fieldAt b 12 4 == crc32 (b.take 12 ++ b.drop 16)

/-- Flits of a packet with `n` bytes of data: at least the head. -/
def flitCount (n : Nat) : Nat := max 1 ((n + 239) / 240)

/-- The flits of a packet (R388, R389): a head and body flits that repeat its DEST, SRC, TC and BANK; the last one's payload
is filled with zeros. -/
def Packet.flits (p : Packet) : List Flit :=
  let n := flitCount p.payload.length
  (List.range n).map fun i =>
    let d := (p.payload.drop (240 * i)).take 240
    { type := if i = 0 then 1 else 2, tc := p.tc, vc := p.vc, secpath := p.secpath, len := n - 1 - i, dest := p.dest
      destErg := p.destErg, bank := p.bank, bcast := p.bcast, src := p.src, srcErg := p.srcErg, hops := p.hops
      data := d ++ zeros (240 - d.length) }

/-! ### A port -/

/-- The state of a port. -/
def State.vlk (s : State) (die inst : Nat) : VlkPort := (lookupKey (die, inst) s.vrt.ports).getD {}

/-- Change the state of a port. -/
def State.onVlk (s : State) (die inst : Nat) (f : VlkPort → VlkPort) : State :=
  s.onVrt fun v => { v with ports := setKey (die, inst) (f ((lookupKey (die, inst) v.ports).getD {})) v.ports }

/-- Whether a port is UP. -/
def State.vlkUp (s : State) (die inst : Nat) : Bool := s.get F.VLK_STATUS.STATE die inst == 3

/-- Whether a port protects its flows (R417). -/
def State.vlkSec (s : State) (die inst : Nat) : Bool := s.on F.VLK_PORT_CFG.SEC die inst

/-- The link unit of a port (R35). -/
def vlkUnit (die inst : Nat) : Nat := unitId die 4 inst

/-- The session key of a port: from the link key, both session numbers and both module numbers, in ascending module order
(R417; modules of equal number by their erg). -/
def State.vlkKey (s : State) (die inst : Nat) : Bytes :=
  let p := s.vlk die inst
  let peer := p.partner.getD (0, 0, 0)
  let own := s.moduleNo * 2 + s.erg
  let other := peer.2.1 * 2 + peer.1
  let slot := s.get F.VLK_SEC.KEY
  if own ≤ other then Config.sessionKey slot p.session p.peerSession s.moduleNo peer.2.1
  else Config.sessionKey slot p.peerSession p.session peer.2.1 s.moduleNo

/-- The IV of a batch: the sender's session number and its count of batches (R417). -/
def batchIv (session batches : Nat) : Nat := session * 2 ^ 64 + batches

/-- An idle flit: ACK, NAK, credits (R390). -/
def State.sendIdle (s : State) (die inst : Nat) (nak : Bool) (ctc cvc ccount : Nat) : State :=
  let ack := ((s.vlk die inst).rxSeq + 4095) % 4096
  s.emit (.vlkFlit die inst { type := 0, ack := ack, nak := nak, ctc := ctc, cvc := cvc, ccount := ccount : Flit }.bytes)

/-- A head, body or tag flit is sent: it takes the next number, is kept in the retry buffer and counted (R391). On a
protected port the payload of TC1 to TC3 is encrypted as the next of its batch (R417). -/
def State.sendFlit (s : State) (die inst : Nat) (f : Flit) : State :=
  let p := s.vlk die inst
  let sec := s.vlkSec die inst
  let f := { f with seq := p.txSeq, ack := (p.rxSeq + 4095) % 4096, secpath := f.secpath && sec }
  let enc := sec && f.tc != 0 && f.type != 3
  let f := if enc then { f with data := Config.gcmEncrypt (s.vlkKey die inst) (batchIv p.session p.batches) p.batch.length f.data } else f
  let s := s.onVlk die inst fun p =>
    { p with txSeq := (p.txSeq + 1) % 4096, retry := p.retry ++ [f.bytes]
             batch := if enc then p.batch ++ [f.bytes] else p.batch }
  (s.bump F.VLK_TX_FLITS.VALUE 1 die inst).emit (.vlkFlit die inst f.bytes)

/-- The tag flit that closes the open batch (R417): the GCM tag over its flits and the SEQ of the first. -/
def State.sendTag (s : State) (die inst : Nat) : State :=
  let p := s.vlk die inst
  let tag := bytesOf (Config.gcmTag (s.vlkKey die inst) (batchIv p.session p.batches) (p.batch.map (·.take 12))
    (p.batch.map (·.drop 16)))
  let first := (Flit.ofBytes (p.batch.headD [])).seq
  let s := s.sendFlit die inst { type := 3, data := tag ++ toLE 2 first ++ zeros 222 }
  s.onVlk die inst fun p => { p with batch := [], batches := p.batches + 1 }

/-- Credits held for a class and channel. -/
def VlkPort.credit (p : VlkPort) (tc vc : Nat) : Nat := (lookupKey (tc * 8 + vc) p.credits).getD 0

/-- The first waiting flit of a class that holds a credit; within a channel the flits stand in order (R395, R398). -/
def VlkPort.ready (p : VlkPort) (tc : Nat) : Option Bytes :=
  p.queue.find? fun b => (Flit.ofBytes b).tc == tc && p.credit tc (Flit.ofBytes b).vc != 0

/-- What the next flit slot goes to (R397): the flit, and the round robin's turn and what is left of its quantum. -/
def State.nextFlit (s : State) (die inst : Nat) : Option (Bytes × Nat × Nat) :=
  let p := s.vlk die inst
  let w (c : Nat) : Nat := if c = 1 then s.get F.VLK_ARB.W1 else s.get F.VLK_ARB.W2
  let other := 3 - p.turn
  match p.ready 0, (if s.get F.VLK_ARB.TC3_GUARD ≤ p.guard then p.ready 3 else none) with
  | some b, _ => some (b, p.turn, p.left)
  | none, some b => some (b, p.turn, p.left)
  | none, none =>
    match (if p.left = 0 then none else p.ready p.turn), p.ready other, p.ready p.turn with
    | some b, _, _ => some (b, p.turn, p.left - 1)
    | none, some b, _ => some (b, other, w other - 1)
    | none, none, some b => some (b, p.turn, w p.turn - 1)
    | none, none, none => (p.ready 3).map fun b => (b, p.turn, p.left)

/-- One flit slot: a batch of 15 is closed first; else the next flit goes, when the retry buffer has room (R391, R397,
R417). `none` when nothing can be sent. -/
def State.sendNext (s : State) (die inst : Nat) : Option State :=
  let p := s.vlk die inst
  if !s.vlkUp die inst || decide (2048 ≤ p.retry.length) then none
  else if 15 ≤ p.batch.length then some (s.sendTag die inst)
  else match s.nextFlit die inst with
    | none => none
    | some (b, turn, left) =>
      let f := Flit.ofBytes b
      let key := f.tc * 8 + f.vc
      let s := s.onVlk die inst fun p =>
        let queue := removeFirst (· == b) p.queue
        { p with queue := queue, turn := turn, left := left
                 guard := if f.tc != 3 && queue.any (fun q => (Flit.ofBytes q).tc == 3) then p.guard + 1 else 0
                 credits := setKey key (p.credit f.tc f.vc - 1) p.credits }
      some (s.sendFlit die inst f)

/-- Flits go while they can. -/
def State.drainPort : Nat → State → (die inst : Nat) → State
  | 0, s, _, _ => s
  | n + 1, s, die, inst =>
    match s.sendNext die inst with
    | none => s
    | some s => State.drainPort n s die inst

/-- A port sends what it can. -/
def State.drain (s : State) (die inst : Nat) : State :=
  let n := (s.vlk die inst).queue.length
  State.drainPort (n + n / 15 + 2) s die inst

/-- A packet is given to a port. -/
def State.queuePacket (s : State) (die inst : Nat) (p : Packet) : State :=
  (s.onVlk die inst fun v => { v with queue := v.queue ++ p.flits.map Flit.bytes }).drain die inst

/-! ### Replay and leaving UP -/

/-- A port leaves UP for TRAINING (R393): its flits are held (R394) and a record of cause 10 is written. -/
def State.leaveUp (s : State) (die inst : Nat) : State :=
  if s.vlkUp die inst then
    let s := (s.put F.VLK_STATUS.STATE 1 die inst).flag F.VLK_EVENTS.RETRAIN die inst
    (s.onVlk die inst fun p => { p with held := true, replays := 0, replayed := 4096 }).faultOf (vlkUnit die inst) 10 id
  else s

/-- The sequence number of a retained flit. -/
def seqOf (b : Bytes) : Nat := (Flit.ofBytes b).seq

/-- Every retained flit is sent again, in order. -/
def State.resend (s : State) (die inst : Nat) : State :=
  (s.vlk die inst).retry.foldl (fun s b => (s.bump F.VLK_TX_FLITS.VALUE 1 die inst).emit (.vlkFlit die inst b)) s

/-- An ACK covers the retained flits up to its number, if it names one of them (R391). -/
def State.takeAck (s : State) (die inst ack : Nat) : State :=
  match (s.vlk die inst).retry.findIdx? fun b => seqOf b == ack with
  | none => s
  | some i => s.onVlk die inst fun p =>
      { p with retry := p.retry.drop (i + 1), txAck := ack, replays := 0, replayed := 4096 }

/-- A NAK (R392, R393): every flit after the acknowledged one is sent again and one replay counted; the fourth replay of
the same number takes the port out of UP. -/
def State.takeNak (s : State) (die inst : Nat) : State :=
  match (s.vlk die inst).retry with
  | [] => s
  | b :: _ =>
    let s := (s.bump F.VLK_REPLAY.LOW 1 die inst).flag F.VLK_EVENTS.REPLAY die inst
    let s := s.onVlk die inst fun p =>
      { p with replayed := seqOf b, replays := if p.replayed = seqOf b then p.replays + 1 else 1 }
    if 4 ≤ (s.vlk die inst).replays then s.leaveUp die inst else s.resend die inst

/-- A flit is not accepted: NAK with the last accepted flit's number (R392). A flit out of sequence after a NAK is sent
needs no second one. -/
def State.reject (s : State) (die inst : Nat) (again : Bool) : State :=
  if (s.vlk die inst).nakSent && !again then s
  else (s.onVlk die inst fun p => { p with nakSent := true }).sendIdle die inst true 0 0 0

/-- Credits come back, up to the depth of the pair (R395). -/
def State.portCredits (s : State) (die inst : Nat) (f : Flit) : State :=
  if f.ccount = 0 then s
  else
    let key := f.ctc * 8 + f.cvc
    let depth := s.get F.VLK_CREDIT.DEPTH die (inst * 32 + key)
    s.onVlk die inst fun p => { p with credits := setKey key (min depth (p.credit f.ctc f.cvc + f.ccount)) p.credits }

/-- A tag flit verifies the batch that waits, which then is in the input buffer in the clear, or it fails: a CRC failure of
the batch's first flit (R418). -/
def State.takeTag (s : State) (die inst : Nat) (f : Flit) : State :=
  let p := s.vlk die inst
  let key := s.vlkKey die inst
  let iv := batchIv p.peerSession p.rxBatches
  let tag := bytesOf (Config.gcmTag key iv (p.rxBatch.map (·.take 12)) (p.rxBatch.map (·.drop 16)))
  let first := seqOf (p.rxBatch.headD [])
  if !p.rxBatch.isEmpty && f.data.take 16 == tag && fieldAt f.data 16 2 == first then
    let plain := p.rxBatch.zipIdx.map fun q =>
      q.1.take 16 ++ Config.gcmDecrypt key iv q.2 (q.1.drop 16)
    s.onVlk die inst fun p =>
      { p with rx := p.rx ++ plain, rxBatch := [], rxBatches := p.rxBatches + 1, rxSeq := (f.seq + 1) % 4096, nakSent := false }
  else
    let s := s.flag F.VLK_EVENTS.GCM_FAIL die inst
    (s.onVlk die inst fun p =>
      { p with rxBatch := [], rxSeq := if p.rxBatch.isEmpty then p.rxSeq else first }).reject die inst true

/-- A flit in sequence is accepted (R392). A flit of a protected class waits for its batch's tag (R418). -/
def State.acceptFlit (s : State) (die inst : Nat) (b : Bytes) : State :=
  let f := Flit.ofBytes b
  let s := s.bump F.VLK_RX_FLITS.VALUE 1 die inst
  if f.type = 3 then s.takeTag die inst f
  else
    let wait := s.vlkSec die inst && f.tc != 0
    s.onVlk die inst fun p =>
      { p with rxSeq := (f.seq + 1) % 4096, nakSent := false
               rx := if wait then p.rx else p.rx ++ [b], rxBatch := if wait then p.rxBatch ++ [b] else p.rxBatch }

/-- Codewords are counted (R386); more than 64 uncorrectable ones within a tick window take the port out of UP (R393). -/
def State.countFec (s : State) (die inst corrected ue : Nat) : State :=
  let s := (s.bump F.VLK_FEC.LOW corrected die inst).bump F.VLK_FEC.HIGH ue die inst
  if ue = 0 then s
  else
    let s := (s.flag F.VLK_EVENTS.FEC_UE die inst).onVlk die inst fun p => { p with ueWindow := p.ueWindow + ue }
    if 64 < (s.vlk die inst).ueWindow then s.leaveUp die inst else s

/-- A flit arrives (R390 to R395, R418). -/
def State.receiveFlit (s : State) (die inst : Nat) (b : Bytes) (corrected ue : Nat) : State :=
  if !s.vlkUp die inst then s
  else
    let s := s.countFec die inst corrected ue
    if !s.vlkUp die inst then s
    else if ue != 0 || !flitCrcOk b then s.reject die inst true
    else
      let f := Flit.ofBytes b
      let s := (s.takeAck die inst f.ack).portCredits die inst f
      let s := if f.nak then s.takeNak die inst else s
      if !s.vlkUp die inst then s
      else if f.type = 0 then s.drain die inst
      else if f.seq ≠ (s.vlk die inst).rxSeq then (s.reject die inst false).drain die inst
      else
        let s := s.acceptFlit die inst b
        (if (s.vlk die inst).nakSent then s else s.sendIdle die inst false 0 0 0).drain die inst

/-! ### Training -/

/-- The widths a training finds (R387): `some false` full, `some true` half, `none` a failed lane in each half. -/
def trainedWidth (inst : Nat) (sound : List Nat) : Option Bool :=
  let n := if inst < 2 then 8 else 4
  let all (lo k : Nat) : Bool := (List.range k).all fun i => sound.contains (lo + i)
  if all 0 n then some false
  else if all 0 (n / 2) || all (n / 2) (n / 2) then some true
  else none

/-- Whether the partner found is not one that the port's role allows (R414). -/
def State.miscabled (s : State) (die inst : Nat) (x : VlkFacts) : Bool :=
  let role := s.get F.VLK_PORT_CFG.ROLE die inst
  x.role != role || (if role = 2 then x.erg == s.erg || x.module != s.moduleNo else x.erg != s.erg)

/-- The credits that the sender holds after training: the division of the buffer (R395). -/
def State.trainedCredits (s : State) (die inst : Nat) : List (Nat × Nat) :=
  (List.range 32).map fun k => (k, s.get F.VLK_CREDIT.DEPTH die (inst * 32 + k))

/-- The sequence state of a port begins anew. -/
def VlkPort.renew (p : VlkPort) : VlkPort :=
  { p with txSeq := 0, txAck := 4095, rxSeq := 0, retry := [], queue := [], replays := 0, replayed := 4096, rx := []
           nakSent := false, held := false, batch := [], rxBatch := [], guard := 0, left := 0, turn := 2 }

/-- The held flits of a port are discarded and counted (R394). -/
def State.discardHeld (s : State) (die inst : Nat) : State :=
  let p := s.vlk die inst
  let s := (s.bump F.VLK_REPLAY.HIGH (p.retry.length + p.queue.length) die inst).flag F.VLK_EVENTS.HOLD_EXPIRED die inst
  (s.onVlk die inst VlkPort.renew).faultOf (vlkUnit die inst) 10 id

/-- A port comes UP (R394, R395, R414, R417): with held flits and the same partner, sending resumes after the partner's last
accepted flit. -/
def State.comeUp (s : State) (die inst : Nat) (x : VlkFacts) : State :=
  let p := s.vlk die inst
  let who := (x.erg, x.module, x.port)
  let resume := p.held && p.partner == some who
  let s := if p.held && !resume then s.discardHeld die inst else s
  let s := s.put F.VLK_STATUS.STATE 3 die inst
  let session := s.free % 2 ^ 32
  let credits := s.trainedCredits die inst
  let s := (s.took 1).onVlk die inst fun p =>
    { (if resume then p else p.renew) with
        partner := some who, held := false, credits := credits, session := session, peerSession := x.session
        batches := 0, rxBatches := 0, nakSent := false }
  if resume then ((s.takeAck die inst x.lastSeq).resend die inst).drain die inst else s

/-- A training ends (R387, R394, R414, R422): the port comes UP, stays in IDENT, or stays DOWN. -/
def State.trained (s : State) (die inst : Nat) (x : VlkFacts) : State :=
  if s.vlkUp die inst || !s.on F.VLK_PORT_CFG.ENABLE die inst || s.get F.VLK_PORT_CFG.ROLE die inst == 3 then s
  else match trainedWidth inst x.sound with
    | none => s.put F.VLK_STATUS.STATE 0 die inst
    | some half =>
      let s := s.put F.VLK_STATUS.HALF (b2n half) die inst
      let s := if half then s.flag F.VLK_EVENTS.HALF_WIDTH die inst else s
      let s := (s.put F.VLK_STATUS.PEER_ERG x.erg die inst).put F.VLK_STATUS.PEER_MODULE x.module die inst
      let s := (s.put F.VLK_STATUS.PEER_PORT x.port die inst).put F.VLK_STATUS.PEER_ROUTING (b2n x.routing) die inst
      let s := s.put F.VLK_DELAY.DELAY_PS (x.roundTrip / 2) die inst
      if s.miscabled die inst x then (s.put F.VLK_STATUS.STATE 2 die inst).flag F.VLK_EVENTS.MISCABLED die inst
      else s.comeUp die inst x

/-! ### Commands -/

def execVlkFlitReceive (die inst : Nat) (flit : Bytes) (corrected ue : Nat) (s : State) : Host.Outcome State Fault Refusal :=
  act (.vlkFlitReceive die inst flit corrected ue) s fun s => s.receiveFlit die inst flit corrected ue

/-- 64 flit times without a further encrypted flit close the batch (R417). -/
def execGcmBatchClose (die inst : Nat) (s : State) : Host.Outcome State Fault Refusal :=
  act (.gcmBatchClose die inst) s fun s =>
    if s.vlkUp die inst && !(s.vlk die inst).batch.isEmpty && decide ((s.vlk die inst).retry.length < 2048) then
      s.sendTag die inst
    else s

/-- 10 µs with flits outstanding and no ACK that advances (R393). -/
def execVlkAckTimeout (die inst : Nat) (s : State) : Host.Outcome State Fault Refusal :=
  act (.vlkAckTimeout die inst) s fun s => if (s.vlk die inst).retry.isEmpty then s else s.leaveUp die inst

def execLaneLockLoss (die inst : Nat) (s : State) : Host.Outcome State Fault Refusal :=
  act (.laneLockLoss die inst) s fun s => s.leaveUp die inst

def execVlkRetrain (die inst : Nat) (s : State) : Host.Outcome State Fault Refusal :=
  act (.vlkRetrain die inst) s fun s => s.leaveUp die inst

def execVlkTrained (die inst : Nat) (facts : VlkFacts) (s : State) : Host.Outcome State Fault Refusal :=
  act (.vlkTrained die inst facts) s fun s => s.trained die inst facts

/-- VLK_HOLD expires on a port that has not come back (R394). -/
def execVlkHoldExpire (die inst : Nat) (s : State) : Host.Outcome State Fault Refusal :=
  act (.vlkHoldExpire die inst) s fun s => if (s.vlk die inst).held then s.discardHeld die inst else s

/-- The partner reports a change of its ROUTING flag (R419). -/
def execPeerRoutingUpdate (die inst : Nat) (flag : Bool) (s : State) : Host.Outcome State Fault Refusal :=
  act (.peerRoutingUpdate die inst flag) s fun s =>
    if s.vlkUp die inst then s.put F.VLK_STATUS.PEER_ROUTING (b2n flag) die inst else s

end Sys2Proof.Machine
end

