-- ==== Sys2Proof/Machine/Vemen.lean ====
section
/-! DEFINITION. The routers of the fabric dies (R397 to R424): forwarding, broadcasts, entry into the module, the TC0 queue,
remote accesses at their source fabric die, banks. -/

namespace Sys2Proof.Machine

/-! ### Ports and channels -/

/-- Whether a port takes a packet (R405, R420): usable, or UP toward a partner that does not route when a TC0 or TC3 packet
is addressed to it. -/
def State.portTakes (s : State) (p : Nat) (k : Packet) : Bool :=
  let d := portDie p
  let i := portInst p
  s.vlkUp d i && (s.on F.VLK_STATUS.PEER_ROUTING d i ||
    ((k.tc == 0 || k.tc == 3) && s.get F.VLK_STATUS.PEER_MODULE d i == k.dest && s.get F.VLK_STATUS.PEER_ERG d i == k.destErg))

/-- The role of a port. -/
def State.portRole (s : State) (p : Nat) : Nat := s.get F.VLK_PORT_CFG.ROLE (portDie p) (portInst p)

/-- The mirror port of a packet for the other erg (R407). -/
def State.mirrorFor (s : State) (k : Packet) : Option Nat :=
  let first := if k.dest % 2 = 0 then 6 else 7
  [first, 13 - first].find? fun p => s.portRole p == 2 && s.portTakes p k

/-- h of R401: the packet arrived on a global port, or on VC 2 or VC 3. -/
def State.afterGlobal (s : State) (die input : Nat) (k : Packet) : Bool :=
  (decide (input < 6) && s.get F.VLK_PORT_CFG.ROLE die input == 1) || k.vc == 2 || k.vc == 3

/-- The VC of a packet that leaves on an escape VC by a port (R401). -/
def State.escapeVc (s : State) (die input : Nat) (k : Packet) (p : Nat) : Nat :=
  let dim (d i : Nat) : Nat := s.get F.VLK_PORT_CFG.DIM d i
  let late := (k.vc == 1 || k.vc == 3) && decide (input < 6) && dim die input == dim (portDie p) (portInst p)
  match s.portRole p with
  | 1 => 2
  | 2 => 0
  | _ => 2 * b2n (s.afterGlobal die input k) + b2n (s.on F.VLK_PORT_CFG.DATELINE (portDie p) (portInst p) || late)

/-- A router discards a packet: its flits are counted and the event is set. -/
def State.discardPacket (s : State) (die : Nat) (k : Packet) (event : Fld) : State :=
  (s.bump F.VRT_COUNTS.HIGH (flitCount k.payload.length) die).flag event die

/-- A packet leaves by a port of the die, or over the ring toward the die that holds the port (R404, R40). On the ring it keeps
its channel of the side of the optical hop it is on, and the die that holds the port gives it its VC. -/
def State.leaveBy (s : State) (die input : Nat) (k : Packet) (p vc : Nat) : State :=
  if portDie p = die then s.queuePacket die (portInst p) { k with vc := vc }
  else
    let ring := if vc = 5 then 5 else if k.vc = 4 then 4 else 2 * b2n (s.afterGlobal die input k)
    s.emit (.packet die (if ringHop die (portDie p) = 1 then 6 else 7) { k with vc := ring })

/-! ### The module as destination -/

/-- Whether a packet carries a request to the module's memory (R389, R528). -/
def Packet.isRequest (k : Packet) : Bool := k.tc == 2 && decide (1 ≤ fieldAt k.payload 0 1) && decide (fieldAt k.payload 0 1 ≤ 4)

/-- The refusals that the die makes where a remote access enters (R45, R46, R274, R283): whether it is refused, and the event
that this sets at MS00. -/
def State.entryRefusal (s : State) (k : Packet) : Bool × Option Fld :=
  let op := fieldAt k.payload 0 1
  let a := localPart (fieldAt k.payload 8 8)
  match region a with
  | .control => (!(op == 1 && s.sec.image.dbgRemote), none)
  | .pcie => (true, none)
  | _ =>
    if (s.protectedRegion a).isSome && !k.secpath then (true, some F.HBC_EVENTS.PREG_DENIED)
    else if op = 4 then (true, some F.HBC_EVENTS.AW_REGION)
    else (false, none)

/-- A packet for this module: a request that is refused where it enters is answered with an error status, and every other
packet is delivered. -/
def State.deliverPacket (s : State) (die input : Nat) (k : Packet) : State :=
  if input < 6 ∧ k.isRequest = true ∧ (s.entryRefusal k).1 = true then
    let s := match (s.entryRefusal k).2 with | some e => s.flag e 80 | none => s
    s.emit (.response (k.srcErg <<< 28 + k.src <<< 16 + fieldAt k.payload 2 2) (fieldAt k.payload 8 8) 1 [])
  else s.emit (.packet die 8 k)

/-! ### Forwarding -/

/-- The ADAPT port with the most credits of VC 5, the lower on a tie (R404). -/
def State.adaptPort (s : State) (k : Packet) (adapt : Nat) : Option Nat :=
  let credit (p : Nat) : Nat := (s.vlk (portDie p) (portInst p)).credit 2 5
  ((List.range 24).filter fun p => bit adapt p && s.portTakes p k && credit p != 0).foldl (fun best p =>
    match best with
    | none => some p
    | some q => if credit q < credit p then some p else some q) none

/-- Whether a packet is on an escape VC: all but a TC2 packet on VC 5, of local injection, or fresh from the partner erg
(R404, R407). -/
def State.onEscape (s : State) (die input : Nat) (k : Packet) : Bool :=
  !(k.tc == 2 && (k.vc == 5 || input == 8 || (decide (input < 6) && s.get F.VLK_PORT_CFG.ROLE die input == 2)))

/-- A packet leaves by the port its route names, unless this would be a second global hop (R402). -/
def State.routeBy (s : State) (die input : Nat) (k : Packet) (p vc : Nat) : State :=
  if s.afterGlobal die input k && s.portRole p == 1 then s.discardPacket die k F.VRT_EVENTS.ROUTE_ERROR
  else s.leaveBy die input k p vc

/-- A packet on an escape VC (R404, R405). -/
def State.forwardEscape (s : State) (die input : Nat) (k : Packet) (primary alt : Nat) : State :=
  if k.vc = 4 then
    (if s.portTakes primary k then s.leaveBy die input k primary 4 else s.discardPacket die k F.VRT_EVENTS.DETOUR_DROP)
  else if s.portTakes primary k then s.routeBy die input k primary (s.escapeVc die input k primary)
  else if alt < 24 ∧ s.portTakes alt k = true then
    let s := if portDie alt = die then (s.bump F.VRT_COUNTS.LOW (flitCount k.payload.length) die).flag F.VRT_EVENTS.DETOUR die
      else s
    s.routeBy die input k alt 4
  else s.discardPacket die k F.VRT_EVENTS.DETOUR_DROP

/-- A packet for one module (R404 to R407). -/
def State.forwardOne (s : State) (die input : Nat) (k : Packet) : State :=
  if k.destErg ≠ s.erg then
    match s.mirrorFor k with
    | some p => s.leaveBy die input k p 0
    | none => s.discardPacket die k F.VRT_EVENTS.NO_ROUTE
  else if k.dest = s.moduleNo then s.deliverPacket die input k
  else if s.route die k.bank k.dest F.VRT_ROUTE.VALID = 0 then s.discardPacket die k F.VRT_EVENTS.NO_ROUTE
  else
    let primary := s.route die k.bank k.dest F.VRT_ROUTE.PRIMARY
    let alt := s.route die k.bank k.dest F.VRT_ROUTE.ALT
    match (if s.onEscape die input k then none else s.adaptPort k (s.route die k.bank k.dest F.VRT_ROUTE.ADAPT)) with
    | some p => s.routeBy die input k p 5
    | none => s.forwardEscape die input k primary alt

/-- The entry of a broadcast's root in its bank (R409). -/
def State.bcastEntry (s : State) (die : Nat) (k : Packet) : Option Nat :=
  ((List.range 16).map (16 * k.bank + ·)).find? fun e =>
    s.on F.VRT_BCAST.VALID die e && s.get F.VRT_BCAST.ROOT die e == k.dest && s.get F.VRT_BCAST.ERG die e == k.destErg

/-- A broadcast (R409, R420): a copy on every port of the mask that is UP, and one delivered locally when LOCAL is 1. The
copies for the other dies cross the ring in the same command (log entry 42); one that came over the ring goes out by the
die's own ports only. -/
def State.forwardBcast (s : State) (die input : Nat) (k : Packet) : State :=
  match s.bcastEntry die k with
  | none => s.discardPacket die k F.VRT_EVENTS.BCAST_NO_ENTRY
  | some e =>
    let mask := s.get F.VRT_BCAST.MASK die e
    let ring : Bool := input == 6 || input == 7
    let ports := (List.range 24).filter fun p =>
      bit mask p && s.vlkUp (portDie p) (portInst p) && (!ring || portDie p == die)
    let s := ports.foldl (fun s p => s.queuePacket (portDie p) (portInst p) { k with vc := s.escapeVc die input k p }) s
    if s.on F.VRT_BCAST.LOCAL die e && !ring then s.emit (.packet die 8 k) else s

/-- The delay of the link that a packet arrived on (R70). -/
def State.arrivalDelay (s : State) (die input : Nat) : Nat :=
  if input < 6 then s.get F.VLK_DELAY.DELAY_PS die input
  else if input = 6 then ((lookupKey (die, 2) s.bdi.links).getD {}).delay
  else if input = 7 then ((lookupKey (die, 1) s.bdi.links).getD {}).delay
  else 0

/-- A tick mark on its way (R69, R70): HOPS counts the router, and CORRECTION takes the residence time, which is a free value
(log entry 7), and the delay of the link it arrived on. -/
def State.passMark (s : State) (die input : Nat) (k : Packet) : State × Packet :=
  let b := k.payload.take 64
  if k.tc = 0 ∧ fieldAt b 0 2 = 1 ∧ crcHolds 64 b = true then
    let hops := (fieldAt b 6 2 + 1) % 65536
    let corr := (fieldAt b 16 8 + s.free + s.arrivalDelay die input) % 2 ^ 64
    let b := patch (patch (b.take 60) 6 (toLE 2 hops)) 16 (toLE 8 corr)
    (s.took 1, { k with payload := withCrc b ++ k.payload.drop 64 })
  else (s, k)

/-- A flit without what the link adds to it. -/
def plainFlit (b : Bytes) : Flit :=
  { Flit.ofBytes b with seq := 0, ack := 0, nak := false, ctc := 0, cvc := 0, ccount := 0 }

/-- A packet leaves the input buffer of a port, and its credits go back (R395). -/
def State.leaveBuffer (s : State) (die input : Nat) (k : Packet) : State :=
  let want := k.flits
  let rx := (s.vlk die input).rx
  if want.all fun f => rx.any fun b => plainFlit b == f then
    (s.onVlk die input fun p =>
      { p with rx := want.foldl (fun r f => removeFirst (fun b => plainFlit b == f) r) p.rx }).sendIdle die input false
        k.tc k.vc want.length
  else s

/-- The originator of a head that passes an input counts in the weight of the input (R399). -/
def State.countHead (s : State) (die input : Nat) (k : Packet) : State :=
  let h := (die, input, k.tc, k.srcErg * 4096 + k.src)
  if (k.tc = 1 ∨ k.tc = 2) ∧ ¬ s.vrt.heads.contains h then s.onVrt fun v => { v with heads := v.heads ++ [h] } else s

/-- What an input hands on: from a port, out of its buffer; at the local input, the packet is injected with SECPATH 1 and the
bank in force (R317, R389, R419). -/
def State.enterRouter (s : State) (die input : Nat) (k : Packet) : State × Packet :=
  if input < 6 then (s.leaveBuffer die input k, k)
  else if input = 8 then
    (s.onVrt fun v => { v with inject := removeFirst (· == (die, k)) v.inject }, { k with secpath := true, bank := s.bankOf die })
  else (s, k)

/-- A router forwards a packet (R397 to R409). -/
def State.forward (s : State) (die input : Nat) (k : Packet) : State :=
  let (s, k) := s.enterRouter die input k
  let s := s.countHead die input k
  let k := { k with hops := k.hops + 1 }
  if 32 ≤ k.hops then s.discardPacket die k F.VRT_EVENTS.HOP_LIMIT
  else
    let (s, k) := s.passMark die input k
    if k.bcast then s.forwardBcast die input k else s.forwardOne die input k

/-! ### The TC0 queue -/

/-- The place of a TC0 packet in the order of R581. -/
def tc0Rank (body : Bytes) : Nat :=
  match fieldAt body 0 2 with
  | 1 => 0
  | 0x13 => 1 | 0x14 => 1
  | 0x10 => 2 | 0x11 => 2 | 0x12 => 2
  | 2 => 3
  | _ => 4

/-- The TC0 packet of a die that goes next (R581). -/
def State.nextTc0 (s : State) (die : Nat) : Option Packet :=
  (sortBy (fun p : Nat × Packet => tc0Rank p.2.payload) (s.vrt.tc0.filter fun p => p.1 == die)).head?.map (·.2)

/-- The bucket admits a TC0 packet (R400, R581); a remote SIGNAL completes once it has left (R453). -/
def State.injectTc0 (s : State) (die : Nat) : State :=
  match s.nextTc0 die with
  | none => s
  | some k =>
    let s := s.onVrt fun v => { v with tc0 := removeFirst (· == (die, k)) v.tc0 }
    (s.forward die 8 k).signalLeft (k.payload.take 64)

/-! ### Remote accesses at their source fabric die -/

/-- The outstanding access of a die with a tag. -/
def State.outstanding (s : State) (die tag : Nat) : Option Remote := s.rem.pending.find? fun r => r.fd == die && r.tag == tag

/-- An outstanding access has its answer, which now crosses the panel to its unit (R412, R528). -/
def State.answer (s : State) (r : Remote) (status : Nat) (data : Bytes) : State :=
  s.onRem fun m => { m with pending := removeFirst (· == r) m.pending, answers := m.answers ++ [(r, status, data)] }

/-- A response arrives (R412). -/
def State.remoteAnswer (s : State) (die tag status : Nat) (data : Bytes) : State :=
  match s.outstanding die tag with
  | none => (s.bump F.VRT_LATE.LOW 1 die).flag F.VRT_EVENTS.REMOTE_LATE die
  | some r =>
    if status = 0 && !r.write && data.length != r.len then s
    else s.answer r status (if status = 0 && !r.write then data else [])

/-- VRT_TIMEOUT has passed without a response (R412). -/
def State.remoteTimedOut (s : State) (die tag : Nat) : State :=
  match s.outstanding die tag with
  | none => s
  | some r => (s.answer r 1 []).flag F.VRT_EVENTS.REMOTE_TIMEOUT die

/-! ### Joining, leaving, banks -/

/-- A write of 1 to LEAVE or JOIN (R419, R421, R424): FD0's window holds both. -/
def State.setLeft (s : State) (die : Nat) (left : Bool) : State :=
  if die = 72 then ((s.onVrt fun v => { v with left := left }).showRouting).checkJoined else s

/-- A write to VRT_BANK (R410, R424). -/
def State.bankWrite (s : State) (die half v : Nat) : State :=
  let cur := s.bankOf die
  let clears := bit (s.get F.VRT_BANK.VALID die) cur && !bit (s.written F.VRT_BANK.VALID die 0 half v) cur
  let moves := s.written F.VRT_BANK.CURRENT die 0 half v != cur
  let barred := s.on F.SCH_CTRL.RUN
  let s := if barred && moves then s.flag F.VRT_EVENTS.BANK_WRITE_DISCARD die else s
  let s := s.writeReg .VRT_BANK die 0 half v ((if clears then [8] else []) ++ (if barred then [0] else []))
  s.showRouting.checkJoined

/-- A write to a route or broadcast entry (R403, R409, R410). -/
def State.entryWrite (s : State) (die : Nat) (bcast : Bool) (idx half v : Nat) : State :=
  let bank := if bcast then idx / 16 else idx / 4096
  if bank = s.bankOf die ∨ (s.on F.VRT_BANK.ARMED die = true ∧ s.get F.VRT_BANK.ARM_BANK die = bank) then
    s.flag F.VRT_EVENTS.BANK_WRITE_DISCARD die
  else s.writeReg (if bcast then .VRT_BCAST else .VRT_ROUTE) die idx half v

/-- An armed switch takes effect at its tick (R315). -/
def State.switchBank (s : State) (die : Nat) : State :=
  if s.on F.VRT_BANK.ARMED die && tickReached (s.now die) (s.get F.VRT_ARM_TICK.TICK die) then
    (((s.put F.VRT_BANK.CURRENT (s.get F.VRT_BANK.ARM_BANK die) die).put F.VRT_BANK.ARMED 0 die).showRouting).checkJoined
  else s

/-! ### Commands -/

def execPacketForward (die input : Nat) (pkt : Packet) (s : State) : Host.Outcome State Fault Refusal :=
  act (.packetForward die input pkt) s fun s => s.forward die input pkt

def execTc0Inject (die : Nat) (s : State) : Host.Outcome State Fault Refusal :=
  act (.tc0Inject die) s fun s => s.injectTc0 die

def execRemoteTimeout (die tag : Nat) (s : State) : Host.Outcome State Fault Refusal :=
  act (.remoteTimeout die tag) s fun s => s.remoteTimedOut die tag

def execRemoteResponse (die tag status : Nat) (data : Bytes) (s : State) : Host.Outcome State Fault Refusal :=
  act (.remoteResponse die tag status data) s fun s => s.remoteAnswer die tag status data

def execLeave (die : Nat) (s : State) : Host.Outcome State Fault Refusal :=
  act (.leave die) s fun s => s.setLeft die true

def execJoin (die : Nat) (s : State) : Host.Outcome State Fault Refusal :=
  act (.join die) s fun s => s.setLeft die false

def execVrtBankWrite (die half v : Nat) (s : State) : Host.Outcome State Fault Refusal :=
  act (.vrtBankWrite die half v) s fun s => s.bankWrite die half v

def execRouteEntryWrite (die : Nat) (bcast : Bool) (idx half v : Nat) (s : State) : Host.Outcome State Fault Refusal :=
  act (.routeEntryWrite die bcast idx half v) s fun s => s.entryWrite die bcast idx half v

def execBankSwitch (die : Nat) (s : State) : Host.Outcome State Fault Refusal :=
  act (.bankSwitch die) s fun s => s.switchBank die

end Sys2Proof.Machine
end

