-- ==== Sys2Proof/Machine/RegRule.lean ====
section
/-! DEFINITION. What a write to each register does beside its access codes: the rules that discard it, the actions of its
fields, and the zeroing of counters. -/

namespace Sys2Proof.Machine

/-! ### Counters -/

/-- The registers whose counters a block's CLEAR_COUNTS zeroes. -/
def Blk.countRegs : Blk → List Reg
  | .MXA => [.MXA_COUNTS]
  | .MXW => [.MXW_EVENTS]
  | .VSE => [.VSE_EVENTS]
  | .VSC => [.VSC_EVENTS]
  | .CDC => [.CDC_BLOCKS, .CDC_BYTES_IN, .CDC_BYTES_OUT, .CDC_STALL, .CDC_LATE]
  | .UPD => [.UPD_COUNTS, .UPD_BLOCKS, .UPD_STRAY]
  | .XLT => [.XLT_COUNTS]
  | .SYN => [.SYN_STRAY, .SYN_LATE]
  | .OAS => [.OAS_COUNTS, .OAS_HITS, .OAS_MISSES, .OAS_WRITEBACKS]
  | .HBC => [.HBC_COUNTS, .HBC_RD_SECTORS, .HBC_WR_SECTORS, .HBC_AW_SECTORS]
  | .VLK => [.VLK_FEC, .VLK_REPLAY, .VLK_TX_FLITS, .VLK_RX_FLITS]
  | .VRT => [.VRT_COUNTS, .VRT_LATE]
  | .RDX => [.RDX_COUNTS, .RDX_SAMPLED, .RDX_STRAY, .RDX_LATE]
  | .QCX => [.QCX_COUNTS]
  | .HCX => [.HCX_COUNTS, .HCX_WB_CANCEL]
  | .PCI => [.PCI_COUNTS]
  | .BDI => [.BDI_COUNTS]
  | .LDG => [.LDG_DROPPED]
  | .TCK | .SCH | .SEC | .PWR | .FLT => []

/-- The counter fields of a register: those that software cannot write. -/
def Reg.counterFields (r : Reg) : List Fld :=
  (r.info.fields.filter fun f => f.acc == .ro).map fun f => ⟨r, f.lo, f.len⟩

/-- The counters that CLEAR_COUNTS zeroes in a window's block instance, in table order. The UPD block's are the module's: every
die's UPD_COUNTS and the two module-wide registers (R355). -/
def Blk.counters (b : Blk) (die inst : Nat) : List (Fld × Nat × Nat) :=
  if b == .UPD then
    (List.range 64).flatMap (fun d => (Reg.counterFields .UPD_COUNTS).map fun f => (f, d, 0)) ++
      ([Reg.UPD_BLOCKS, Reg.UPD_STRAY].flatMap Reg.counterFields).map fun f => (f, 0, 0)
  else (b.countRegs.flatMap Reg.counterFields).map fun f => (f, die, inst)

/-- The window whose CLEAR_COUNTS acts: any for a block that describes its die, the home window for a module-wide one. -/
def Blk.clearsIn (b : Blk) (die : Nat) : Bool :=
  match b with
  | .UPD => die == 0
  | .LDG => die == 72
  | _ => true

/-- A write of 1 to CLEAR_COUNTS (R185): every counter is left at the increment of the same cycle. -/
def State.clearBlock (s : State) (b : Blk) (die inst : Nat) (inc : List Nat) : State :=
  if b.present die && decide (inst < b.instances die) && b.clearsIn die then
    ((b.counters die inst).zipIdx).foldl (fun s x =>
      s.put x.1.1 (min (inc.getD x.2 0) (2 ^ x.1.1.len - 1)) x.1.2.1 x.1.2.2) s
  else s

/-! ### Writes that set fields -/

/-- The roles that R384 permits a port. -/
def roleAllowed (die inst role : Nat) : Bool :=
  if 2 ≤ inst then role == 1 || role == 3
  else if die = 75 then role == 2 || role == 0 || role == 3
  else role == 0 || role == 3

/-- The registers whose writes are discarded while SCH_CTRL.RUN is 1 (R117, R355, R637). -/
def Reg.heldByRun : Reg → Bool
  | .SCH_BASE_TICK | .SCH_STEP | .UPD_STATE_BASE | .UPD_FMT_BASE | .UPD_LOSS | .UPD_LS_PATCH | .UPD_NORM_CEIL | .UPD_CLIP_NORM
  | .UPD_UNUM | .LDG_CAIRN_BASE | .LDG_MIRROR_BASE | .LDG_INPUT | .LDG_PHASE => true
  | _ => false

/-- A write to a synchronisation register (R450). -/
def State.synWrite (s : State) (r : Reg) (die idx half v : Nat) : State :=
  if s.on F.SCH_CTRL.RUN then s.flag F.SYN_EVENTS.CFG_DISCARD die else s.writeReg r die idx half v

/-- A write to SCH_CTRL but for its actions: RA_DEPTH 3 reads back as 2 (R118). -/
def State.ctrlWrite (s : State) (half v : Nat) : State :=
  let s := s.writeReg .SCH_CTRL 0 0 half v [0]
  if s.get F.SCH_CTRL.RA_DEPTH = 3 then s.put F.SCH_CTRL.RA_DEPTH 2 else s

/-- A write to a register of a die's window that performs no action: the fields take their values under the rules of their
registers. `hw` are the events of the same cycle (R16). -/
def State.plainWrite (s : State) (r : Reg) (die idx half v : Nat) (hw : Nat := 0) : State :=
  if (r.info.home.getD die) ≠ die then s
  else if r.heldByRun && s.on F.SCH_CTRL.RUN then s
  else match r with
    | .SCH_CTRL => s.ctrlWrite half v
    | .SCH_IMAGE_BASE => (s.writeReg r die idx half v).onSched fun c => { c with newImage := true }
    | .SYN_OBJ_CFG | .SYN_OBJ_LINK | .SYN_JOB => s.synWrite r die idx half v
    | .VSE_GEN_STATE => s.genWrite die idx half v
    | .RDX_TAG_BASE =>
      let s := s.writeReg r die idx half v
      s.put F.RDX_TAG_BASE.BASE (s.get F.RDX_TAG_BASE.BASE / 2 ^ 19 * 2 ^ 19)
    | .FLT_QBASE =>
      let s := s.writeReg r die idx half v
      s.put F.FLT_QBASE.BASE (s.get F.FLT_QBASE.BASE / 2 * 2)
    | .VLK_PORT_CFG =>
      s.writeReg r die idx half v
        (if roleAllowed die idx (s.written F.VLK_PORT_CFG.ROLE die idx half v) then [] else [11])
    | .VRT_BANK => s.bankWrite die half v
    | .VRT_BCAST => s.entryWrite die true idx half v
    | .VRT_ROUTE => s.entryWrite die false idx half v
    | .HCX_RWIN => s.rwinWrite die idx half v
    | .LDG_BASE => if s.on F.LDG_CTRL.ENABLE then s else s.writeReg r die idx half v
    | r => s.writeReg r die idx half v [] hw

/-- A write to LDG_ATTACH (R633). -/
def State.attachWrite (s : State) (half v : Nat) : State :=
  let held := s.get F.LDG_ATTACH.GENERATION
  if s.written F.LDG_ATTACH.GENERATION 72 0 half v = held then
    (s.put F.LDG_ATTACH.ADDR (s.written F.LDG_ATTACH.ADDR 72 0 half v)).put F.LDG_ATTACH.GENERATION ((held + 1) % 2 ^ 16)
  else s.flag F.LDG_EVENTS.ATTACH_REFUSED

/-! ### Commands -/

/-- CLEAR_COUNTS: `blk` numbers the blocks as R56 places them; `inc` are the increments of the same cycle. -/
def execClearCounts (die blk inst : Nat) (inc : List Nat) (s : State) : Host.Outcome State Fault Refusal :=
  act (.clearCounts die blk inst inc) s fun s =>
    match Blk.ofIndex blk with
    | none => s
    | some b => s.clearBlock b die inst inc

end Sys2Proof.Machine
end

