-- ==== Sys2Proof/Machine/SecImage.lean ====
section
/-! DEFINITION. The configuration image (R583 to R587): its header, sections and trailer, its register items, and the nine
checks of R586. -/

namespace Sys2Proof.Machine

/-- The largest image (R583). -/
def imageMost : Nat := 96 * 1024 * 1024

/-- `len` bytes of a flash device from `off`; what was never programmed is erased. -/
def flashBytes (dev : Bytes) (off len : Nat) : Bytes :=
  let got := (dev.drop off).take len
  got ++ List.replicate (len - got.length) 0xFF

/-- LENGTH of an image's header (R583). -/
def imageLength (dev : Bytes) : Nat := leN (flashBytes dev 16 4)

/-- A section of an image: TYPE, OFFSET, LENGTH (R583). -/
structure Section where
  typ : Nat
  off : Nat
  len : Nat
deriving DecidableEq, Repr

/-- The section directory (R583). -/
def imageSections (dev : Bytes) : List Section :=
  (List.range (leN (flashBytes dev 6 2))).map fun i =>
    let b := flashBytes dev (256 + 16 * i) 16
    ⟨fieldAt b 0 2, fieldAt b 4 4, fieldAt b 8 4⟩

/-- The content of the section of a type; empty where there is none. -/
def sectionBytes (dev : Bytes) (typ : Nat) : Bytes :=
  match (imageSections dev).find? fun x => x.typ == typ with
  | some x => flashBytes dev x.off x.len
  | none => []

/-- The register items of an image, in image order: address and value (R585). -/
def imageItems (dev : Bytes) : List (Nat × Nat) :=
  (chunks 16 (sectionBytes dev 1)).map fun b => (fieldAt b 0 8, fieldAt b 8 8)

/-! ### Items -/

/-- The register that an item names: an 8 B-aligned register of a block present in the window, with a field whose access is
RW or RWL (R586). -/
def itemReg (addr : Nat) : Option (Reg × Nat × Nat) :=
  match accessReg addr 8 with
  | none => none
  | some (r, die, idx, _) =>
    if r.info.fields.any fun f => f.acc == .rw || f.acc == .rwl then some (r, die, idx) else none

/-- Whether a register discards a value under its own range rule (R588, R638). -/
def itemOutOfRange (r : Reg) (die idx v : Nat) : Bool :=
  (r.info.fields.any fun f => (f.acc == .rw || f.acc == .rwl) && !f.allows (bits v f.lo f.len)) ||
    (r == .VLK_PORT_CFG && !roleAllowed die idx (bits v 11 2))

/-- An item is written (R588). -/
def State.writeItem (s : State) (item : Nat × Nat) : State :=
  match itemReg item.1 with
  | none => s
  | some (r, die, idx) =>
    let s := if itemOutOfRange r die idx item.2 then s.flag F.SEC_EVENTS.ITEM_DISCARD else s
    s.plainWrite r die idx 2 item.2

/-- The items of an image are written in image order (R588). -/
def State.writeItems (s : State) (items : List (Nat × Nat)) : State := items.foldl State.writeItem s

/-! ### Checks -/

/-- Whether the sections of an image meet R585 and lie within it. -/
def sectionsHold (dev : Bytes) : Bool :=
  let ss := imageSections dev
  let count (t : Nat) : Nat := (ss.filter fun x => x.typ == t).length
  let identity := sectionBytes dev 3
  let boot := sectionBytes dev 6
  let policy := sectionBytes dev 8
  decide (1 ≤ ss.length ∧ ss.length ≤ 64) &&
    (ss.all fun x => decide (1 ≤ x.typ ∧ x.typ ≤ 8) && decide (x.off + x.len ≤ imageLength dev)) &&
    [1, 2, 3, 6, 7].all (fun t => count t == 1) && [4, 5, 8].all (fun t => decide (count t ≤ 1)) &&
    (sectionBytes dev 1).length % 16 == 0 &&
    (sectionBytes dev 2).length == 8 && (sectionBytes dev 2).all (fun b => decide (b.toNat ≤ 8)) &&
    identity.length == 8 && (identity.drop 3).all (· == 0) && decide (fieldAt identity 1 1 ≤ 1) &&
    (count 4 == 0 || (sectionBytes dev 4).length == 2560) && (sectionBytes dev 5).length % 8 == 0 &&
    decide (16 ≤ boot.length) && region (fieldAt boot 0 8) == .host &&
    decide (fieldAt boot 0 8 + (boot.length - 16) ≤ 0x18000000000) && (count 8 == 0 || decide (fieldAt policy 0 1 < 4))

/-- Check 2: MAGIC, FORMAT, LENGTH and the sections. -/
def formHolds (dev : Bytes) : Bool :=
  let n := imageLength dev
  leN (flashBytes dev 0 4) == 0x4746434F && leN (flashBytes dev 4 2) == 1 && n % 256 == 0 && decide (n ≤ imageMost) &&
    decide (256 + 4096 ≤ n) && sectionsHold dev

/-- The image digest (R584). -/
def imageDigest (dev : Bytes) : Bytes := sha3 (flashBytes dev 0 (imageLength dev - 4096))

/-- The trailer: the signer's public key and the signature (R583). -/
def imageKey (dev : Bytes) : Bytes := flashBytes dev (imageLength dev - 4096) 1312
def imageSignature (dev : Bytes) : Bytes := flashBytes dev (imageLength dev - 4096 + 1312) 2420

/-- KEY_SLOT and EPOCH of the header (R583). -/
def imageKeySlot (dev : Bytes) : Nat := leN (flashBytes dev 13 1)
def imageEpoch (dev : Bytes) : Nat := leN (flashBytes dev 12 1)
def imageSequence (dev : Bytes) : Nat := leN (flashBytes dev 8 4)

/-- The division of a port's buffer (R396). -/
def State.creditsHold (s : State) (die inst : Nat) : Bool :=
  let depth (k : Nat) : Nat := s.get F.VLK_CREDIT.DEPTH die (inst * 32 + k)
  ((List.range 32).all fun k =>
    if k % 8 < 5 then decide (2 ≤ depth k)
    else if k = 21 then decide (2 ≤ depth k)
    else depth k == 0) && ((List.range 32).map depth).foldl (· + ·) 0 == 2048

/-- The ports of the module: fabric die and instance. -/
def allPorts : List (Nat × Nat) := [72, 73, 74, 75].flatMap fun d => (List.range 6).map fun i => (d, i)

/-- The regions that the tables define: first and last 2 MiB unit (R281). -/
def State.definedRegions (s : State) : List (Nat × Nat) :=
  ((List.range 16).filter fun i => s.on F.HBC_PREG0.VALID 80 i).map (fun i =>
      (s.get F.HBC_PREG0.BASE 80 i, s.get F.HBC_PREG1.LIMIT 80 i)) ++
    ((List.range 16).filter fun i => s.on F.HBC_AWREG0.VALID 80 i).map fun i =>
      (s.get F.HBC_AWREG0.BASE 80 i, s.get F.HBC_AWREG1.LIMIT 80 i)

/-- Whether no two intervals of a list meet. -/
def regionsApart : List (Nat × Nat) → Bool
  | [] => true
  | x :: xs => xs.all (fun y => decide (x.2 < y.1 ∨ y.2 < x.1)) && regionsApart xs

/-- Check 7: the regions (R281); the backed HBM region has 442,368 units of 2 MiB. -/
def State.regionsHold (s : State) : Bool :=
  let rs := s.definedRegions
  rs.all (fun r => decide (r.1 ≤ r.2) && decide (r.2 < 442368)) && regionsApart rs

/-- A key entry of the KEYS section is VALID and unwraps (R585). -/
def keyHolds (keys : Bytes) (slot len : Nat) : Bool :=
  let e := (keys.drop (80 * slot)).take 80
  e.length == 80 && bit (fieldAt e 0 1) 0 && Config.unwraps ((e.drop 8).take len)

/-- Check 9: the keys that regions and ports name. -/
def State.keysHold (s : State) (keys : Bytes) : Bool :=
  ((List.range 16).all fun i => !s.on F.HBC_PREG0.VALID 80 i || keyHolds keys (s.get F.HBC_PREG0.KEY 80 i) 72) &&
    (allPorts.all fun p => !s.on F.VLK_PORT_CFG.SEC p.1 p.2 || keyHolds keys (16 + s.get F.VLK_SEC.KEY) 40)

/-- The number of the first check of R586 that an image fails, 0 for a valid image. `s` is the state whose registers hold
their Reset values, with the fuses. -/
def State.checkImage (s : State) (readFails : Bool) (dev : Bytes) : Nat :=
  let slot := imageKeySlot dev
  let applied := s.writeItems (imageItems dev)
  if readFails then 1
  else if !formHolds dev then 2
  else if decide (4 ≤ slot) || sha3 (imageKey dev) != Config.keyDigest slot || s.sec.revoke.contains slot then 3
  else if !Config.mldsaVerify (imageKey dev) (imageDigest dev) (imageSignature dev) then 4
  else if imageEpoch dev < s.sec.epoch then 5
  else if !((imageItems dev).all fun i => (itemReg i.1).isSome) || !(allPorts.all fun p => applied.creditsHold p.1 p.2) then 6
  else if !applied.regionsHold then 7
  else if 63 < fieldAt (sectionBytes dev 3) 0 1 then 8
  else if !applied.keysHold (sectionBytes dev 4) then 9
  else 0

/-- What the selected image fixes beside registers (R585). -/
def imageFacts (dev : Bytes) : ImageFacts :=
  { digest := imageDigest dev, dbgRemote := bit (fieldAt (sectionBytes dev 8) 0 1) 0
    mgmtFuse := bit (fieldAt (sectionBytes dev 8) 0 1) 1, spareRows := (sectionBytes dev 2).map (·.toNat)
    keys := chunks 80 (sectionBytes dev 4), boot := sectionBytes dev 6
    repair := (chunks 8 (sectionBytes dev 5)).map leN }

end Sys2Proof.Machine
end

