-- ==== Sys2Proof/Machine/Start.lean ====
section
/-! DEFINITION. The start sequence (R24 to R34, R582 to R593) and what the module is with its rails off (R601, R606). The
stages up to 8 are one step; stage 9 is START_COMPLETE, stage 10 SEC_READY, stage 11 follows from the tick and the route
banks. -/

namespace Sys2Proof.Machine

/-! ### Rails off -/

/-- What a module without power keeps: the fuses and the flash devices. The commands that wait, what has left the module and
the count of free values taken are the model's. A flash program that runs is cut short: the device is erased (R597). -/
def State.powerless (s : State) (mode : PowerMode) (restarting : Bool) : State :=
  let flash := match s.sec.flashing with
    | none => s.sec.flash
    | some _ => if s.get F.SEC_IMAGE.SLOT = 0 then (s.sec.flash.1, []) else ([], s.sec.flash.2)
  { pending := s.pending, fresh := s.fresh, out := s.out
    power := { mode := mode, restarting := restarting }
    sec := { revoke := s.sec.revoke, epoch := s.sec.epoch, retire := s.sec.retire, flash := flash } }

/-- The module is Off (R601, R606). -/
def State.goOff (s : State) : State := s.powerless .off false

/-! ### Modes -/

/-- PWR_STATUS.STATE of a state of R606 (R616). -/
def PowerMode.code : PowerMode → Nat
  | .off => 0 | .starting => 1 | .running => 2 | .parked => 3 | .draining => 4

/-- The module enters a state of R606. -/
def State.setMode (s : State) (m : PowerMode) : State :=
  (s.onPower fun p => { p with mode := m }).put F.PWR_STATUS.STATE m.code

/-- A removal request acts (R608): Draining, the event, the source, the MSI. -/
def State.beginDrain (s : State) (source : Nat) : State :=
  let s := (s.onPower fun p => { p with resume := p.mode }).setMode .draining
  let s := (s.flag F.PWR_EVENTS.DRAIN_REQ).put F.PWR_STATUS.DRAIN_SOURCE source
  if s.on F.PWR_IRQ.VALID then s.interruptTo (s.get F.PWR_IRQ.HART) (s.get F.PWR_IRQ.ID) else s

/-- A removal request (R608): sources 1 ATTN_N, 2 management, 3 PWR_CTRL. -/
def State.removalRequest (s : State) (source : Nat) : State :=
  let counted := s.onPower fun p => { p with counted := p.counted + 1 }
  match s.power.mode with
  | .off => s
  | .starting =>
    if s.on F.PWR_STATUS.DRAIN_HELD then counted
    else (s.flag F.PWR_STATUS.DRAIN_HELD).onPower fun p => { p with heldSource := source }
  | .draining => counted
  | .running | .parked => s.beginDrain source

/-! ### Fuses -/

/-- The fuse registers show the fuses (R582, R598). -/
def State.showFuses (s : State) : State :=
  let mask (xs : List Nat) : Nat := xs.foldl (fun m i => m ||| 1 <<< i) 0
  let sites := mask s.sec.retire
  let s := (s.put F.SEC_FUSE_STATUS.REVOKE (mask s.sec.revoke)).put F.SEC_FUSE_STATUS.EPOCH s.sec.epoch
  (s.put F.SEC_RETIRED0.SITES sites).put F.SEC_RETIRED1.SITES (sites >>> 64)

/-! ### Columns -/

/-- What a start finds of a compute die (R25): 0 in order, 1 self-test failed, 2 capability below the mandatory set, 3 retire
fuse blown (R30). -/
def stackFault (env : StartEnv) (retire : List Nat) (site : Nat) : Nat :=
  if env.failedSites.contains site then 1
  else if !stackMeets ((lookupKey site env.stackFacts).getD (standardDescriptor 0)) then 2
  else if retire.contains site then 3
  else 0

/-- The failed rows of a column. -/
def failedRows (env : StartEnv) (retire : List Nat) (c : Nat) : List Nat :=
  (List.range 9).filter fun r => stackFault env retire (8 * r + c) != 0

/-- The excluded row of a column (R26); of a column that cannot be formed the model shows the spare row. -/
def exclRow (spare : Nat) : List Nat → Nat
  | [r] => r
  | _ => spare

/-- The word of a column (R30 to R32), after the self-tests. -/
def columnWord (env : StartEnv) (retire : List Nat) (c spare : Nat) : Nat :=
  let bad := failedRows env retire c
  let cause := match bad with | [] => 0 | [r] => stackFault env retire (8 * r + c) | _ => 4
  let compute := ((List.range 9).filter fun r => !bad.contains r).foldl (fun m r => m + 1 <<< r) 0
  cause <<< 28 + spare <<< 24 + exclRow spare bad <<< 20 + 0x1FF <<< 9 + compute

/-- The word of a column when a base die is dark (R591). -/
def darkWord (env : StartEnv) (c spare : Nat) : Nat :=
  let dark := (List.range 9).filter fun r => env.darkSites.contains (8 * r + c)
  let base := ((List.range 9).filter fun r => !dark.contains r).foldl (fun m r => m + 1 <<< r) 0
  (if dark.isEmpty then 0 else 5) <<< 28 + spare <<< 24 + spare <<< 20 + base <<< 9

/-- The column words are written. -/
def State.writeMap (s : State) (word : Nat → Nat) : State :=
  (List.range 8).foldl (fun s c => s.put F.SEC_DIE_MAP.MAP (word c) 72 c) s

/-! ### Stages -/

/-- A stage is reached. -/
def State.stage (s : State) (n : Nat) : State := s.put F.SEC_START.STAGE n

/-- Start fails (R590). -/
def State.failStart (s : State) (stage cause : Nat) : State :=
  ((s.stage stage).flag F.SEC_START.FAILED).put F.SEC_START.FAIL_CAUSE cause

/-- Which image is selected (R587): 0 A, 1 B. -/
def selectImage (a b : Nat) (seqA seqB : Nat) : Option Nat :=
  if a = 0 ∧ b = 0 then some (if seqA < seqB then 1 else 0)
  else if a = 0 then some 0
  else if b = 0 then some 1
  else none

/-- Stages 1 and 2: fuses, straps, images, identity. -/
def State.readImages (s : State) (env : StartEnv) : State × Option Bytes :=
  let s := (s.showFuses).put F.SEC_IDENTITY.SLOT_ID env.slotId
  let a := s.checkImage env.flashError.1 s.sec.flash.1
  let b := s.checkImage env.flashError.2 s.sec.flash.2
  let s := ((s.put F.SEC_IMAGE.A_RESULT a).put F.SEC_IMAGE.B_RESULT b).stage 2
  match selectImage a b (imageSequence s.sec.flash.1) (imageSequence s.sec.flash.2) with
  | none => (s, none)
  | some slot =>
    let dev := if slot = 0 then s.sec.flash.1 else s.sec.flash.2
    let id := sectionBytes dev 3
    let s := ((s.put F.SEC_IMAGE.SLOT slot).put F.SEC_IMAGE.SEQUENCE (imageSequence dev)).put F.SEC_IMAGE.EPOCH (imageEpoch dev)
    let s := (s.put F.SEC_IMAGE.KEY_SLOT (imageKeySlot dev)).onSec fun x => { x with image := imageFacts dev }
    let s := (s.put F.SEC_IDENTITY.RACK (fieldAt id 0 1)).put F.SEC_IDENTITY.ERG (fieldAt id 1 1)
    let s := s.put F.SEC_IDENTITY.MIRROR_VALID (fieldAt id 2 1)
    (s.put F.SEC_IDENTITY.MODULE (fieldAt id 0 1 * 64 + env.slotId % 64), some dev)

/-- The descriptor at the other end of a die's link: its peer's, or that of the excluded site's stack there. -/
def State.neighbour (s : State) (env : StartEnv) (die link : Nat) : Bytes :=
  match s.bdiPeer die link with
  | some (d, _) => s.descriptor d
  | none =>
    let site : Option Nat := if isCompute die then
        let t := s.siteOf die
        (match link with | 0 => some (t - 8) | 1 => some (t + 1) | 2 => some (t + 8) | _ => some (t - 1))
      else ((attached die)[link]?).map (·.1)
    match site with
    | some t => (lookupKey t env.stackFacts).getD (standardDescriptor 0)
    | none => []

/-- A link end after the training of stage 3 (R518, R534, R536): UP on the common subset; DOWN when the peer's descriptor
fails its check. -/
def State.linkStart (s : State) (env : StartEnv) (die link : Nat) : State :=
  if s.unconnected die link then s
  else
    let d := s.neighbour env die link
    let own := s.descriptor die
    if peerMeets d then
      let word := bdiUp + 1 <<< 8 + (0x100 + min (fieldAt d 4 1) (fieldAt own 4 1)) <<< 32 + (fieldAt d 7 1 &&& fieldAt own 7 1) <<< 48
      (s.setWord .BDI_STATUS (BitVec.ofNat 64 word) die link).onLinkEnd die link fun l =>
        { l with peer := d, seen := d, credits := fullCredits (isPeerLink die link) }
    else (s.flag F.BDI_EVENTS.CAPS_FAIL die link).onLinkEnd die link fun l => { l with seen := d }

/-- Every link of the dies in service, and what the training of single links found (R516). -/
def State.linksStart (s : State) (env : StartEnv) : State :=
  let s := allDies.foldl (fun s d => (List.range (bdiLinks d)).foldl (fun s l => s.linkStart env d l) s) s
  env.links.foldl (fun s x =>
    if isDie x.1 && decide (x.2.1 < bdiLinks x.1) then
      (s.recordRepairs x.1 x.2.1 x.2.2).onLinkEnd x.1 x.2.1 fun l => { l with delay := x.2.2.roundTrip / 2 }
    else s) s

/-- Stage 5: the logical dies and their descriptors (R26, R27). -/
def State.numberDies (s : State) (env : StartEnv) (spare : Nat → Nat) : State :=
  let sites := (List.range 64).map fun d => siteInColumn (d / 8) (d % 8) (exclRow (spare (d / 8)) (failedRows env s.sec.retire (d / 8)))
  let own := (List.range 64).filterMap fun d => (lookupKey (sites.getD d 0) env.stackFacts).map fun x => (d, x)
  (s.onSec fun x => { x with siteOf := sites }).onBdi fun b => { b with caps := own ++ env.edges.filter fun e => !isCompute e.1 }

/-- VSE_CAPS of a die whose stack is not the standard one shows its descriptor's lanes and version (R223, R534). -/
def State.showLanes (s : State) : State :=
  (s.bdi.caps.filter fun e => isCompute e.1).foldl (fun s e =>
    (s.put F.VSE_CAPS.LANES (fieldAt e.2 20 2) e.1).put F.VSE_CAPS.VERSION (fieldAt e.2 22 1) e.1) s

/-- Stage 8: the enabled Vemen ports begin to train (R384, R387). -/
def State.trainPorts (s : State) : State :=
  allPorts.foldl (fun s p =>
    if s.on F.VLK_PORT_CFG.ENABLE p.1 p.2 && s.get F.VLK_PORT_CFG.ROLE p.1 p.2 != 3 then s.put F.VLK_STATUS.STATE 1 p.1 p.2
    else s) s

/-- The start sequence from stage 1 to stage 8, or to the stage at which it fails. -/
def State.startUp (s : State) (env : StartEnv) : State :=
  match s.readImages env with
  | (s, none) => s.failStart 2 1
  | (s, some dev) =>
    let spare (c : Nat) : Nat := s.sec.image.spareRows.getD c 8
    if env.darkSites.any fun t => decide (t < 72) then (s.writeMap fun c => darkWord env c (spare c)).failStart 3 2
    else if !env.deadEdges.isEmpty then s.failStart 3 3
    else if !env.failedEdges.isEmpty then s.failStart 4 4
    else
      let s := s.writeMap fun c => columnWord env s.sec.retire c (spare c)
      if (List.range 8).any fun c => decide (2 ≤ (failedRows env s.sec.retire c).length) then s.failStart 5 5
      else
        let s := s.numberDies env spare
        if env.memoryFails then s.failStart 6 6
        else ((((s.linksStart env).writeItems (imageItems dev)).showLanes).trainPorts).stage 8

/-- A start from no power (R606): registers at their Reset values, memory zero. -/
def State.startFresh (s : State) (env : StartEnv) : State :=
  State.startUp { s.powerless .starting false with power := { mode := .starting } } env

/-! ### Commands -/

/-- POWER_ON (R604, R606): PWR_EN rises with the input in range. -/
def State.powerOn (s : State) (mv : Nat) (env : StartEnv) : State :=
  let may : Bool := (s.power.mode == .off && !s.power.restarting) || (s.power.mode == .starting && s.get F.SEC_START.STAGE == 0)
  if may && decide (48000 ≤ mv) && decide (mv ≤ 58000) then (s.startFresh env).put F.PWR_SENSE.INPUT_MV mv else s

def execPowerOn (mv : Nat) (env : StartEnv) (s : State) : Host.Outcome State Fault Refusal :=
  act (.powerOn mv env) s fun s => s.powerOn mv env

/-- Stage 9 (R587, R606, R608): the boot code at its load address, core 0 of HD0 released, Running; a held request acts. -/
def State.completeStart (s : State) : State :=
  if s.power.mode == .starting && s.get F.SEC_START.STAGE == 8 && !s.on F.SEC_START.FAILED then
    let boot := s.sec.image.boot
    let s := (s.store (fieldAt boot 0 8) (boot.drop 16)).stage 9
    let s := (s.put F.HCX_STATUS.CORES_RUNNING 1 64).emit (.coreRelease 0 (fieldAt boot 8 8))
    let s := s.setMode .running
    if s.on F.PWR_STATUS.DRAIN_HELD then
      ((s.put F.PWR_STATUS.DRAIN_HELD 0).onPower fun p => { p with heldSource := 0 }).beginDrain s.power.heldSource
    else s
  else s

def execStartComplete (s : State) : Host.Outcome State Fault Refusal := act .startComplete s State.completeStart

/-- Stage 10 (R589, R598): a write of READY at stage 9. -/
def State.readyWrite (s : State) : State :=
  if s.get F.SEC_START.STAGE = 9 then (s.stage 10).checkJoined else s

def execSecReady (s : State) : Host.Outcome State Fault Refusal := act .secReady s State.readyWrite

end Sys2Proof.Machine
end

