-- ==== Sys2Proof/Machine/Power.lean ====
section
/-! DEFINITION. Power, cooling and hot plug (R599 to R618): parking, drained removal, restarts, faults of the input and the
rails, and the commands of the management endpoint. -/

namespace Sys2Proof.Machine

/-! ### Actions of PWR_CTRL -/

/-- PARK (R606): refused while the schedule runs. -/
def State.parkNow (s : State) : State :=
  if s.power.mode = .running then (if s.schedStill then s.setMode .parked else s.flag F.PWR_EVENTS.PARK_REFUSED) else s

/-- UNPARK (R606). -/
def State.unparkNow (s : State) : State := if s.power.mode = .parked then s.setMode .running else s

/-- DRAIN_CANCEL (R606): before POWER_OFF is accepted, back to the state that was left. -/
def State.cancelDrain (s : State) : State :=
  if s.power.mode = .draining ∧ s.power.leaving = false then (s.setMode s.power.resume).put F.PWR_STATUS.DRAIN_SOURCE 0 else s

/-- POWER_OFF (R609): accepted in Draining with the schedule still; the module leaves its erg. -/
def State.askOff (s : State) : State :=
  if s.power.mode = .draining ∧ s.schedStill = true then (s.onPower fun p => { p with leaving := true }).setLeft 72 true
  else s.flag F.PWR_EVENTS.POWER_OFF_REFUSED

/-- RESTART (R606, R618): every rail goes off for 20 ms. -/
def State.restartNow (s : State) : State :=
  let may : Bool := match s.power.mode with
    | .off => false
    | .starting => s.on F.SEC_START.FAILED
    | .running | .parked | .draining => s.schedStill
  if may then s.powerless .off true else s

/-- A write to PWR_CTRL (R617): of several bits only the highest-numbered one acts. -/
def State.powerCtrl (s : State) (v : Nat) : State :=
  if bit v 5 then s.restartNow
  else if bit v 4 then s.askOff
  else if bit v 3 then s.cancelDrain
  else if bit v 2 then s.removalRequest 3
  else if bit v 1 then s.unparkNow
  else if bit v 0 then s.parkNow
  else s

/-! ### Drain -/

/-- Whether a fabric die holds a flit (R609). -/
def State.fabricHolds (s : State) : Bool :=
  (s.vrt.ports.any fun p => !p.2.queue.isEmpty || !p.2.rx.isEmpty || !p.2.rxBatch.isEmpty || !p.2.retry.isEmpty) ||
    !s.vrt.tc0.isEmpty || !s.vrt.inject.isEmpty

/-- The drain is complete (R609): no fabric die holds a flit, or 1 ms has passed; the module is Off. -/
def State.drained (s : State) (timeout : Bool) : State :=
  if s.power.mode = .draining ∧ s.power.leaving = true ∧ (timeout = true ∨ s.fabricHolds = false) then s.goOff else s

/-! ### Input, temperature, rails -/

/-- The input leaves 48 V to 58 V but not 46 V to 60 V, or comes back (R600). -/
def State.inputAt (s : State) (mv : Nat) : State :=
  let s := s.put F.PWR_SENSE.INPUT_MV mv
  if 48000 ≤ mv ∧ mv ≤ 58000 then s.onPower fun p => { p with marginal := false }
  else if 46000 ≤ mv ∧ mv ≤ 60000 then (s.flag F.PWR_EVENTS.INPUT_RANGE).onPower fun p => { p with marginal := true }
  else s

/-- Temperatures (R613): of the hottest junction and of the outlet. -/
def State.warm (s : State) (tj outlet : Nat) : State :=
  let s := (s.put F.PWR_SENSE.TJ_MAX_C tj).put F.PWR_SENSE.OUTLET_C outlet
  if 95 ≤ tj ∨ 55 ≤ outlet then s.flag F.PWR_EVENTS.THERMAL_WARN else s

/-- A die's rail faults (R614). -/
def State.railFails (s : State) (die : Nat) : State :=
  ((s.flag F.PWR_RAIL.FAULT die).flag F.PWR_EVENTS.RAIL_FAULT).makeFatal die 4

/-! ### Management -/

/-- The management endpoint answers from stage 2 of start (R615). -/
def State.managed (s : State) (code : Nat) (f : State → State) : State :=
  if 2 ≤ s.get F.SEC_START.STAGE then (f s).emit (.mgmt code []) else s

/-- GET_STATUS (R615). -/
def State.mgmtStatus (s : State) : State :=
  if 2 ≤ s.get F.SEC_START.STAGE then
    s.emit (.mgmt 1 [(s.word .PWR_STATUS).toNat, (s.word .PWR_SENSE).toNat, (s.word .SEC_START).toNat])
  else s

/-! ### Commands -/

def execPark (s : State) : Host.Outcome State Fault Refusal := act .park s State.parkNow
def execUnpark (s : State) : Host.Outcome State Fault Refusal := act .unpark s State.unparkNow
def execDrain (s : State) : Host.Outcome State Fault Refusal := act .drain s fun s => s.removalRequest 3
def execDrainCancel (s : State) : Host.Outcome State Fault Refusal := act .drainCancel s State.cancelDrain
def execPowerOff (s : State) : Host.Outcome State Fault Refusal := act .powerOff s State.askOff
def execDrainComplete (timeout : Bool) (s : State) : Host.Outcome State Fault Refusal :=
  act (.drainComplete timeout) s fun s => s.drained timeout
def execRestart (s : State) : Host.Outcome State Fault Refusal := act .restart s State.restartNow

/-- RESTART_RAILS_ON (R606, R618): the 20 ms are over. -/
def execRestartRailsOn (env : StartEnv) (s : State) : Host.Outcome State Fault Refusal :=
  act (.restartRailsOn env) s fun s => if s.power.restarting then s.startFresh env else s

/-- ATTN_REQUEST (R608): ATTN_N has been low for 50 ms. -/
def execAttnRequest (s : State) : Host.Outcome State Fault Refusal := act .attnRequest s fun s => s.removalRequest 1

/-- POWER_EN_FALL (R592, R604). -/
def execPowerEnFall (s : State) : Host.Outcome State Fault Refusal := act .powerEnFall s State.goOff

def execInputRange (mv : Nat) (s : State) : Host.Outcome State Fault Refusal := act (.inputRange mv) s fun s => s.inputAt mv

/-- INPUT_RANGE_TIMEOUT (R600): 100 ms outside 48 V to 58 V. -/
def execInputRangeTimeout (s : State) : Host.Outcome State Fault Refusal :=
  act .inputRangeTimeout s fun s => if s.power.marginal then s.goOff else s

/-- POWER_FAULT (R600, R601): 10 µs below 46 V or above 60 V. -/
def execPowerFault (mv : Nat) (s : State) : Host.Outcome State Fault Refusal :=
  act (.powerFault mv) s fun s => if mv < 46000 ∨ 60000 < mv then s.goOff else s

def execThermalWarn (tj outlet : Nat) (s : State) : Host.Outcome State Fault Refusal :=
  act (.thermalWarn tj outlet) s fun s => s.warm tj outlet

/-- THERMAL_TRIP (R613): 1 ms at 110 °C. -/
def execThermalTrip (tj : Nat) (s : State) : Host.Outcome State Fault Refusal :=
  act (.thermalTrip tj) s fun s => if 110 ≤ tj then s.goOff else s

def execRailFault (dies : List Nat) (s : State) : Host.Outcome State Fault Refusal :=
  act (.railFault dies) s fun s => dies.foldl State.railFails s

def execMgmtGetStatus (s : State) : Host.Outcome State Fault Refusal := act .mgmtGetStatus s State.mgmtStatus
def execMgmtDrain (s : State) : Host.Outcome State Fault Refusal :=
  act .mgmtDrain s fun s => s.managed 2 fun s => s.removalRequest 2
def execMgmtDrainCancel (s : State) : Host.Outcome State Fault Refusal :=
  act .mgmtDrainCancel s fun s => s.managed 3 State.cancelDrain
def execMgmtRestart (s : State) : Host.Outcome State Fault Refusal :=
  act .mgmtRestart s fun s => s.managed 4 State.restartNow

end Sys2Proof.Machine
end

