-- ==== Sys2Proof/Machine/Secure.lean ====
section
/-! DEFINITION. Attestation reports, fuse commands and the programming of flash (R582, R594 to R598). -/

namespace Sys2Proof.Machine

/-! ### Reports -/

/-- SHA3-256 of every fuse field but WRAP_KEY and ID_SEED in the order of R582 (R594): the key digests, REVOKE in one byte,
the thermometer of EPOCH in eight, SERIAL in eight, RETIRE in nine. -/
def State.fuseDigest (s : State) : Bytes :=
  let mask (xs : List Nat) : Nat := xs.foldl (fun m i => m ||| 1 <<< i) 0
  sha3 ((List.range 4).flatMap Config.keyDigest ++ toLE 1 (mask s.sec.revoke) ++ toLE 8 (2 ^ s.sec.epoch - 1) ++
    toLE 8 (s.word .SEC_SERIAL).toNat ++ toLE 9 (mask s.sec.retire))

/-- SHA3-256 of the descriptors of the host, fabric and memory dies, in die number order (R594). -/
def State.edgeDigest (s : State) : Bytes :=
  sha3 ((allDies.filter fun d => !isCompute d).flatMap s.descriptor)

/-- Bytes 0 to 511 of a report (R594); a field whose stage has not run is 0 (R595). -/
def State.reportHead (s : State) (nonce : Bytes) : Bytes :=
  let stage := s.get F.SEC_START.STAGE
  toLE 4 0x54505452 ++ toLE 2 1 ++ zeros 2 ++ toLE 8 (s.word .SEC_SERIAL).toNat ++ nonce ++ toLE 8 (s.now 72) ++ zeros 8 ++
    (if s.sec.image.digest.isEmpty then zeros 32 else s.sec.image.digest) ++ toLE 4 (s.get F.SEC_IMAGE.SEQUENCE) ++
    toLE 1 (s.get F.SEC_IMAGE.SLOT) ++ toLE 1 (s.get F.SEC_IMAGE.KEY_SLOT) ++ zeros 2 ++ s.fuseDigest ++
    (if stage < 6 then zeros 32 else s.capsDigest) ++ (if stage < 4 then zeros 32 else s.edgeDigest) ++
    (List.range 8).flatMap (fun c => toLE 4 (s.get F.SEC_DIE_MAP.MAP 72 c)) ++ toLE 1 stage ++ toLE 1 s.erg ++
    toLE 2 s.moduleNo ++ zeros 4 ++ sha3 Config.identityKey ++ zeros 240

/-- The 4 KiB report (R594). -/
def State.report (s : State) (nonce : Bytes) : Bytes :=
  let head := s.reportHead nonce
  let sig := Config.mldsaSign (sha3 head)
  head ++ sig.take 2420 ++ zeros (2420 - sig.length) ++ zeros 1164

/-- A report begins. -/
def State.beginReport (s : State) (buffer : Nat) (mgmt : Bool) : State :=
  let s := ((s.flag F.SEC_ATTEST.BUSY).put F.SEC_ATTEST.DONE 0).put F.SEC_ATTEST.ERROR 0
  s.onSec fun x => { x with attest := some (buffer, mgmt) }

/-- A write of ADDR and START to SEC_ATTEST (R594, R595). -/
def State.attestWrite (s : State) : State :=
  if s.on F.SEC_ATTEST.BUSY then s.flag F.SEC_EVENTS.ATTEST_BUSY
  else s.beginReport (s.get F.SEC_ATTEST.ADDR <<< 12) false

/-- A management request for a report (R595): it waits while one is formed. -/
def State.attestAsked (s : State) (buffer : Nat) : State :=
  if s.on F.SEC_ATTEST.BUSY then s.onSec fun x => { x with waiting := x.waiting ++ [buffer] } else s.beginReport buffer true

/-- Whether a span is a buffer in backed host memory. -/
def State.hostSpan (s : State) (a n : Nat) : Bool := region a == .host && s.backedSpan a n

/-- The report is written to its buffer, or the buffer access ends with an error status (R594). -/
def State.writeReport (s : State) (buffer : Nat) : State :=
  let a := buffer / 4096 * 4096
  let (s, ok) := if s.hostSpan a 4096 then s.readSpan (a + 16) 32 else (s, false)
  let s := s.put F.SEC_ATTEST.BUSY 0
  if ok then (s.writeSectors a (s.report (s.bytes (a + 16) 32))).flag F.SEC_ATTEST.DONE else s.flag F.SEC_ATTEST.ERROR

/-- A report is done; the next request that waits is served (R595). -/
def State.endReport (s : State) : State :=
  match s.sec.attest with
  | none => s
  | some (buffer, _) =>
    let s := (s.writeReport buffer).onSec fun x => { x with attest := none }
    match s.sec.waiting with
    | [] => s
    | b :: rest => (s.onSec fun x => { x with waiting := rest }).beginReport b true

/-! ### Fuses -/

/-- Whether a fuse command's argument names a fuse (R598). -/
def fuseArgOk (cmd arg : Nat) : Bool :=
  match cmd with | 1 => decide (arg < 72) | 2 => decide (arg < 4) | _ => true

/-- A fuse command (R596, R598): 1 RETIRE, 2 REVOKE, 3 EPOCH. -/
def State.fuseCommand (s : State) (confirm cmd arg : Nat) : State :=
  if cmd = 0 ∨ 3 < cmd then s
  else if s.on F.SEC_FUSE_STATUS.BUSY then s.put F.SEC_FUSE_STATUS.RESULT 2
  else if confirm % 65536 ≠ (s.word .SEC_SERIAL).toNat % 65536 ∨ s.schedStill = false ∨ fuseArgOk cmd arg = false then
    s.put F.SEC_FUSE_STATUS.RESULT 1
  else (s.flag F.SEC_FUSE_STATUS.BUSY).onSec fun x => { x with fuse := some (cmd, arg) }

/-- A blown fuse (R582): it takes effect at the next start (R596). -/
def SecSt.blow (x : SecSt) (cmd arg : Nat) : SecSt :=
  match cmd with
  | 1 => { x with retire := insertNat arg x.retire }
  | 2 => { x with revoke := insertNat arg x.revoke }
  | _ => { x with epoch := min (x.epoch + 1) 64 }

/-- A fuse command has ended (R596, R598). -/
def State.endFuse (s : State) (failed : Bool) : State :=
  match s.sec.fuse with
  | none => s
  | some (cmd, arg) =>
    let s := (s.put F.SEC_FUSE_STATUS.BUSY 0).onSec fun x => { x with fuse := none }
    if failed then s.put F.SEC_FUSE_STATUS.RESULT 3
    else ((s.onSec fun x => x.blow cmd arg).showFuses).put F.SEC_FUSE_STATUS.RESULT 0

/-! ### Flash -/

/-- A write of ADDR and START to SEC_FLASH (R597, R598). -/
def State.flashWrite (s : State) : State :=
  if s.on F.SEC_FLASH.BUSY then s.put F.SEC_FLASH.RESULT 3
  else (s.flag F.SEC_FLASH.BUSY).onSec fun x => { x with flashing := some (s.get F.SEC_FLASH.ADDR <<< 12) }

/-- The content of the device of the image that was not selected (R597). -/
def State.setUnselected (s : State) (b : Bytes) : State :=
  s.onSec fun x => { x with flash := if s.get F.SEC_IMAGE.SLOT = 0 then (x.flash.1, b) else (b, x.flash.2) }

/-- A flash program has ended (R597, R598): done, the read-back differs, or the buffer cannot be read. A device whose
read-back differs holds free values. -/
def State.endFlash (s : State) (mismatch : Bool) : State :=
  match s.sec.flashing with
  | none => s
  | some a =>
    let s := (s.put F.SEC_FLASH.BUSY 0).onSec fun x => { x with flashing := none }
    let (s, ok) := if s.hostSpan a 256 then s.readSpan a 256 else (s, false)
    let n := s.load (a + 16) 4
    if ok = false ∨ imageMost < n then s.put F.SEC_FLASH.RESULT 2
    else
      let (s, ok) := if n = 0 then (s, true) else if s.hostSpan a n then s.readSpan a n else (s, false)
      if ok = false then (s.setUnselected []).put F.SEC_FLASH.RESULT 2
      else if mismatch then
        ((s.setUnselected ((List.range n).map fun i => BitVec.ofNat 8 (s.freeAt i))).took n).put F.SEC_FLASH.RESULT 1
      else (s.setUnselected (s.bytes a n)).put F.SEC_FLASH.RESULT 0

/-! ### Commands -/

def execRetire (confirm site : Nat) (s : State) : Host.Outcome State Fault Refusal :=
  act (.retire confirm site) s fun s => s.fuseCommand confirm 1 site
def execRevoke (confirm slot : Nat) (s : State) : Host.Outcome State Fault Refusal :=
  act (.revoke confirm slot) s fun s => s.fuseCommand confirm 2 slot
def execEpoch (confirm : Nat) (s : State) : Host.Outcome State Fault Refusal :=
  act (.epoch confirm) s fun s => s.fuseCommand confirm 3 0
def execFuseCommandDone (failed : Bool) (s : State) : Host.Outcome State Fault Refusal :=
  act (.fuseCommandDone failed) s fun s => s.endFuse failed

def execAttest (addr : Nat) (s : State) : Host.Outcome State Fault Refusal :=
  act (.attest addr) s fun s => (s.put F.SEC_ATTEST.ADDR (addr >>> 12)).attestWrite
def execAttestDone (s : State) : Host.Outcome State Fault Refusal := act .attestDone s State.endReport

def execFlashProgram (addr : Nat) (s : State) : Host.Outcome State Fault Refusal :=
  act (.flashProgram addr) s fun s => (s.put F.SEC_FLASH.ADDR (addr >>> 12)).flashWrite
def execFlashProgramDone (mismatch : Bool) (s : State) : Host.Outcome State Fault Refusal :=
  act (.flashProgramDone mismatch) s fun s => s.endFlash mismatch

/-- ATTEST over management (R595, R615). -/
def execMgmtAttest (addr : Nat) (s : State) : Host.Outcome State Fault Refusal :=
  act (.mgmtAttest addr) s fun s => s.managed 5 fun s => s.attestAsked addr

/-- FUSE over management (R596, R615): it needs MGMT_FUSE in the selected image. -/
def execMgmtFuse (confirm cmd arg : Nat) (s : State) : Host.Outcome State Fault Refusal :=
  act (.mgmtFuse confirm cmd arg) s fun s => s.managed 6 fun s =>
    if s.sec.image.mgmtFuse then s.fuseCommand confirm cmd arg else s

end Sys2Proof.Machine
end

