-- ==== Sys2Proof/Machine/RegWrite.lean ====
section
/-! DEFINITION. REGISTER_WRITE: a write to the control space by any requester, with the actions that its fields perform (R15 to
R18, R45, R55 to R58, R638, R639). -/

namespace Sys2Proof.Machine

/-- The CLEAR_COUNTS field of a register. -/
def Reg.clearField : Reg → Option Fld
  | .MXA_CTRL => some F.MXA_CTRL.CLEAR_COUNTS
  | .MXW_CTRL => some F.MXW_CTRL.CLEAR_COUNTS
  | .VSE_CTRL => some F.VSE_CTRL.CLEAR_COUNTS
  | .VSC_CTRL => some F.VSC_CTRL.CLEAR_COUNTS
  | .CDC_CTRL => some F.CDC_CTRL.CLEAR_COUNTS
  | .UPD_CTRL => some F.UPD_CTRL.CLEAR_COUNTS
  | .RDX_CTRL => some F.RDX_CTRL.CLEAR_COUNTS
  | .VLK_CTRL => some F.VLK_CTRL.CLEAR_COUNTS
  | .VRT_CTRL => some F.VRT_CTRL.CLEAR_COUNTS
  | .XLT_INVAL => some F.XLT_INVAL.CLEAR_COUNTS
  | .SYN_CTRL => some F.SYN_CTRL.CLEAR_COUNTS
  | .OAS_CTRL => some F.OAS_CTRL.CLEAR_COUNTS
  | .HBC_CTRL => some F.HBC_CTRL.CLEAR_COUNTS
  | .HCX_CTRL => some F.HCX_CTRL.CLEAR_COUNTS
  | .QCX_QCTL => some F.QCX_QCTL.CLEAR_COUNTS
  | .PCI_CTRL => some F.PCI_CTRL.CLEAR_COUNTS
  | .BDI_CTRL => some F.BDI_CTRL.CLEAR_COUNTS
  | .LDG_CTRL => some F.LDG_CTRL.CLEAR_COUNTS
  | _ => none

/-- The counters that a write of 1 to a register's CLEAR_COUNTS zeroes. -/
def State.clearBy (s : State) (r : Reg) (die idx half v : Nat) : State :=
  match r.clearField with
  | none => s
  | some f => if shows f half v then s.clearBlock r.info.blk die idx [] else s

/-- The actions of SCH_CTRL (R117, R118): RUN, where its half is written, then ABORT. -/
def State.ctrlActions (s : State) (half v : Nat) : State :=
  if half = 1 then s
  else
    let s := if bit v 0 then s.runSchedule else s.stopSchedule
    if bit v 1 then s.raiseBreak 6 0 0 else s

/-- What a write does beside setting fields. `w` is the register with the written half replaced, `shown` the written bits with
the other half 0 (R639). -/
def State.regAction (s : State) (r : Reg) (org die idx half v w shown : Nat) : State :=
  match r with
  | .SCH_CTRL => s.ctrlActions half v
  | .VLK_CTRL => if bit shown 0 then s.leaveUp die idx else s
  | .BDI_CTRL => if bit shown 0 && !s.unconnected die idx then s.linkRetrain die idx else s
  | .VRT_CTRL =>
    let s := if bit shown 1 then s.setLeft die false else s
    if bit shown 0 then s.setLeft die true else s
  | .XLT_RESP => s.respWrite die idx shown
  | .FLT_RESUME => if half = 1 then s else s.resumeWrite shown
  | .FLT_WADI_RELEASE => if half = 1 then s else s.releaseWadi (bits shown 0 16)
  | .FLT_RECOVERY => if bit shown 63 then s.armRestore else s
  | .SYN_OBJ_SIGNAL => s.coreSignal die idx org shown
  | .QCX_DOORBELL => s.doorbell (bits shown 32 20) (bits shown 63 1) (bits shown 0 16)
  | .QCX_QCTL => if bits shown 56 3 = 0 then s else s.qctl die (bits w 0 20) (bits shown 56 3)
  | .SEC_START => if bit shown 63 then s.readyWrite else s
  | .SEC_FUSE_CMD => s.fuseCommand (bits shown 48 16) (bits shown 8 2) (bits shown 0 8)
  | .SEC_ATTEST => if bit shown 63 then s.attestWrite else s
  | .SEC_FLASH => if bit shown 63 then s.flashWrite else s
  | .PWR_CTRL => s.powerCtrl shown
  | _ => s

/-- A write to a register in a die's window by an originator: half 0 the low word, 1 the high word, 2 both. -/
def State.regWrite (s : State) (r : Reg) (org die idx half v hw : Nat) : State :=
  let w := halfWrite (s.word r die idx).toNat half v
  let shown := halfWrite 0 half v
  if (r.info.home.getD die) ≠ die then s
  else match r with
    | .XLT_INVAL => s.invalWrite die w
    | .UPD_VERIFY_KEY => s.verifyWrite w
    | .UPD_REWIND => s.rewindWrite w
    | .LDG_ATTACH => s.attachWrite half v
    | r => ((s.plainWrite r die idx half v hw).clearBy r die idx half v).regAction r org die idx half v w shown

/-- An access of a requester ends with an error status: a core takes its access fault (R471); another unit of this module
writes a record (R540) and has its answer; a requester of another module has its answer. -/
def State.refuseAccess (s : State) (org addr : Nat) (write : Bool) : State :=
  match s.localUnit org with
  | some u =>
    if isCore u then s.coreError u (s.fabricAddr addr) write
    else (s.faultOf u 5 fun r => { r with paddr := s.fabricAddr addr, write := write, segment := 0 }).emit (.response org addr 1 [])
  | none => s.emit (.response org addr 1 [])

/-- A write to the control space (R18, R45, R55 to R58). -/
def State.controlWrite (s : State) (org addr size v hw : Nat) : State :=
  match s.localUnit org, accessReg addr size with
  | some _, some (r, die, idx, half) => (s.regWrite r org die idx half v hw).emit (.response org addr 0 [])
  | _, _ => s.refuseAccess org addr true

/-- REGISTER_WRITE. `hw` are the W1C bits that hardware sets in the same cycle (R16). -/
def execRegisterWrite (org addr size v hw : Nat) (s : State) : Host.Outcome State Fault Refusal :=
  act (.registerWrite org addr size v hw) s fun s => if inControl addr then s.controlWrite org addr size v hw else s

end Sys2Proof.Machine
end

