-- ==== Sys2Proof/Machine/Access.lean ====
section
/-! DEFINITION. Memory accesses of one requester at their holder: reads, writes, partial writes and accumulate-writes (R42 to
R49, R59 to R62, R263 to R267, R273, R274, R471, R483). The requester's answer leaves as a response. -/

namespace Sys2Proof.Machine

/-- Where a requester's address goes. -/
inductive Target where
  | window (pa : Nat)                    -- a core's remote window: a fabric physical address (R61)
  | fault                                -- a core's access fault (R61)
  | pcie (unit : Option Nat)             -- the PCIe windows, for a local requester (R59)
  | control                              -- control space
  | storage                              -- backed storage of this module
  | refused                              -- an address without storage, or not for this requester (R46, R48)
deriving DecidableEq, Repr

/-- The fabric physical address that a core's address names through HCX_RWIN (R61), absent when the entry is not valid or
names this module. -/
def State.coreWindow (s : State) (u addr : Nat) : Option Nat :=
  let i := addr / 2 ^ 47
  let die := unitDie u
  let erg := s.get F.HCX_RWIN.ERG die i
  let module := s.get F.HCX_RWIN.MODULE die i
  if s.on F.HCX_RWIN.VALID die i && !(erg == s.erg && module == s.moduleNo) then
    some (erg <<< 59 + module <<< 47 + addr % 2 ^ 47)
  else none

/-- Where an access goes. -/
def State.targetOf (s : State) (org addr len : Nat) : Target :=
  match s.localUnit org with
  | some u =>
    if isCore u && decide (2 ^ 47 ≤ addr) then (match s.coreWindow u addr with | some pa => .window pa | none => .fault)
    else if inControl addr then .control
    else if region addr = .pcie then .pcie (if isCore u then some u else none)
    else if s.backedSpan addr len then .storage else .refused
  | none => if inControl addr then .control else if s.backedSpan addr len then .storage else .refused

/-- A core's access through a remote window leaves for its module (R61, R62), or ends with an error status at once (R43,
R44). -/
def State.sendWindow (s : State) (org pa len opcode : Nat) (data : Bytes) : State :=
  let u := org % 65536
  match s.sendRemote u pa len opcode data with
  | (s, some _) => s
  | (s, none) => s.coreError u pa (opcode != 1)

/-- An access to the PCIe windows goes out, or ends with an error status (R59, R508). A posted write has its answer at once. -/
def State.sendPort (s : State) (unit : Option Nat) (org addr len : Nat) (write : Bool) (data : Bytes) : State :=
  match s.sendPci unit org addr write len data with
  | (s, none) => s.refuseAccess org addr write
  | (s, some (_, true)) => s
  | (s, some (_, false)) => s.emit (.response org addr 0 [])

/-- The answer of storage (R263, R471): data, or an error status. -/
def State.answerAccess (s : State) (org addr : Nat) (write ok : Bool) (data : Bytes) : State :=
  if ok then s.emit (.response org addr 0 data)
  else match s.localUnit org with
    | some u => if isCore u then s.coreError u (s.fabricAddr addr) write else s.emit (.response org addr 1 [])
    | none => s.emit (.response org addr 1 [])

/-- A core whose remote window is not open takes an access fault (R61). -/
def State.windowFault (s : State) (org : Nat) (write : Bool) : State := s.emit (.coreFault (coreOf (org % 65536)) write)

/-! ### Reads -/

/-- A read of the control space (R15, R18, R45, R58). -/
def State.controlRead (s : State) (org addr len : Nat) : State :=
  match accessReg addr len with
  | some (r, die, idx, half) =>
    if (s.localUnit org).isSome || s.sec.image.dbgRemote then s.emit (.response org addr 0 (readHalf (s.readReg r die idx) half))
    else s.refuseAccess org addr false
  | none => s.refuseAccess org addr false

/-- A read. `flips` are the errors that it finds in the stored sectors. -/
def State.memRead (s : State) (org addr len : Nat) (flips : List Flip) : State :=
  match s.targetOf org addr len with
  | .window pa => s.sendWindow org pa len 1 []
  | .fault => s.windowFault org false
  | .pcie u => s.sendPort u org addr len false []
  | .control => s.controlRead org addr len
  | .refused => s.refuseAccess org addr false
  | .storage =>
    let (s, ok) := (s.disturbAll addr len flips).readGranule addr len
    s.answerAccess org addr false ok (s.bytes addr len)

def execMemRead (org addr len : Nat) (flips : List Flip) (s : State) : Host.Outcome State Fault Refusal :=
  act (.memRead org addr len flips) s fun s => s.memRead org addr len flips

/-! ### Writes -/

/-- A write of whole sectors. -/
def State.memWrite (s : State) (org addr : Nat) (data : Bytes) : State :=
  match s.targetOf org addr data.length with
  | .window pa => s.sendWindow org pa data.length 2 data
  | .fault => s.windowFault org true
  | .pcie u => s.sendPort u org addr data.length true data
  | .control | .refused => s.refuseAccess org addr true
  | .storage => (s.writeGranule addr data).answerAccess org addr true true []

def execMemWrite (org addr : Nat) (data : Bytes) (s : State) : Host.Outcome State Fault Refusal :=
  act (.memWrite org addr data) s fun s => s.memWrite org addr data

/-- The pieces of a span that lie in one sector each. -/
def sectorPieces (a n : Nat) : List (Nat × Nat) :=
  (sectorsOf a n).map fun k =>
    let lo := max a (64 * k)
    (lo, min (a + n) (64 * (k + 1)) - lo)

/-- A masked write of storage, sector by sector: whether every sector was written (R267). -/
def State.writeMaskedSpan (s : State) (a : Nat) (data : Bytes) (mask : List Bool) : State × Bool :=
  (sectorPieces a data.length).foldl (fun (p : State × Bool) q =>
    let (s, ok) := p.1.writeMasked q.1 ((data.drop (q.1 - a)).take q.2) ((mask.drop (q.1 - a)).take q.2)
    (s, p.2 && ok)) (s, true)

/-- The runs of bytes that a mask enables, each with its first byte and length: a PCIe write carries one run. -/
def maskRuns (i : Nat) : List Bool → List (Nat × Nat)
  | [] => []
  | false :: rest => maskRuns (i + 1) rest
  | true :: rest =>
    match maskRuns (i + 1) rest with
    | (j, n) :: more => if j = i + 1 then (i, n + 1) :: more else (i, 1) :: (j, n) :: more
    | [] => [(i, 1)]

/-- A write of some bytes. In the control space it is a register write when it carries every byte of an aligned word (R18). -/
def State.memPartialWrite (s : State) (org addr : Nat) (data : Bytes) (mask : List Bool) (flips : List Flip) : State :=
  match s.targetOf org addr data.length with
  | .window pa =>
    let off := pa % 64
    let bitsOf := (mask.zipIdx.filter (·.1)).foldl (fun m x => m ||| 1 <<< (off + x.2)) 0
    let n := (off + data.length + 63) / 64 * 64
    s.sendWindow org pa data.length 3 (toLE (n / 8) bitsOf ++ zeros off ++ data ++ zeros (n - off - data.length))
  | .fault => s.windowFault org true
  | .pcie u => (maskRuns 0 mask).foldl (fun s r => s.sendPort u org (addr + r.1) r.2 true ((data.drop r.1).take r.2)) s
  | .control =>
    if mask.all id then s.controlWrite org addr data.length (leN data) 0 else s.refuseAccess org addr true
  | .refused => s.refuseAccess org addr true
  | .storage =>
    let (s, ok) := (s.disturbAll addr data.length flips).writeMaskedSpan addr data mask
    s.answerAccess org addr true ok []

def execMemPartialWrite (org addr : Nat) (data : Bytes) (mask : List Bool) (flips : List Flip) (s : State) :
    Host.Outcome State Fault Refusal :=
  act (.memPartialWrite org addr data mask flips) s fun s => s.memPartialWrite org addr data mask flips

/-! ### Accumulate-writes -/

/-- An accumulate-write at a fabric physical address (R273, R274). -/
def State.accWrite (s : State) (org pa mask : Nat) (addends : List (BitVec 32)) (flips : List Flip) : State :=
  let a := localPart pa
  let refused (s : State) : State :=
    match s.localUnit org with
    | some u => s.faultOf u 5 fun r => { r with paddr := pa, write := true, segment := 0 }
    | none => s
  if !s.isLocal pa then ((s.awRefuse 0x10000000000).emit (.response org pa 1 [])) |> refused
  else
    let (s, ok) := (if s.backed a && (s.awRegion a).isSome then s.disturbAll a 64 flips else s).accumulate a mask (addends.map (·.toNat))
    if ok then s.emit (.response org a 0 []) else refused (s.emit (.response org a 1 []))

def execAccumulateWrite (org addr mask : Nat) (addends : List (BitVec 32)) (flips : List Flip) (s : State) :
    Host.Outcome State Fault Refusal :=
  act (.accumulateWrite org addr mask addends flips) s fun s => s.accWrite org addr mask addends flips

end Sys2Proof.Machine
end

