-- ==== Sys2Proof/Machine/BdiCmd.lean ====
section
/-! DEFINITION. The commands of the BDI links (R514 to R530). -/

namespace Sys2Proof.Machine

def execBdiTraining (die link : Nat) (facts : BdiFacts) (s : State) : Host.Outcome State Fault Refusal :=
  act (.bdiTraining die link facts) s fun s => s.bdiTrained die link facts

def execBdiTrainTimeout (die link : Nat) (s : State) : Host.Outcome State Fault Refusal :=
  act (.bdiTrainTimeout die link) s fun s => s.bdiTrainLate die link

def execBdiDescriptor (die link : Nat) (desc : Bytes) (s : State) : Host.Outcome State Fault Refusal :=
  act (.bdiDescriptor die link desc) s fun s => s.bdiDescribed die link desc

def execBdiFlitReceive (die link : Nat) (flit : Bytes) (s : State) : Host.Outcome State Fault Refusal :=
  act (.bdiFlitReceive die link flit) s fun s => s.bdiReceive die link flit

/-- 2 µs with flits outstanding and no ACK that advances (R522). -/
def execBdiAckTimeout (die link : Nat) (s : State) : Host.Outcome State Fault Refusal :=
  act (.bdiAckTimeout die link) s fun s => if (s.bdiLink die link).replayBuf.isEmpty then s else s.linkRetrain die link

/-- The peer sends a retrain request (R522). -/
def execBdiRetrainRequest (die link : Nat) (s : State) : Host.Outcome State Fault Refusal :=
  act (.bdiRetrainRequest die link) s fun s => s.linkRetrain die link

/-- BDI_CTRL.RETRAIN is written with 1 (R522). -/
def execBdiRetrain (die link : Nat) (s : State) : Host.Outcome State Fault Refusal :=
  act (.bdiRetrain die link) s fun s => s.linkRetrain die link

/-- BDI_HOLD expires on a link that has not come back (R523). -/
def execBdiHoldExpire (die link : Nat) (s : State) : Host.Outcome State Fault Refusal :=
  act (.bdiHoldExpire die link) s fun s =>
    if (s.bdiLink die link).held && !s.linkUp die link then s.linkDown die link F.BDI_EVENTS.HOLD_EXPIRED else s

def execBdiTickFlit (die link : Nat) (flit : Bytes) (arrival : Nat) (s : State) : Host.Outcome State Fault Refusal :=
  act (.bdiTickFlit die link flit arrival) s fun s => s.tickFlit die link flit arrival

end Sys2Proof.Machine
end

