-- ==== Sys2Proof/Machine/Ledger.lean ====
section
/-! DEFINITION. The commands of the ledger block (R624 to R626, R633). -/

namespace Sys2Proof.Machine

/-- LEDGER_RECORD (R625, R626): records of one cycle stand in the queue in ascending unit identifier. -/
def execLedgerRecord (rec : LedgerRec) (s : State) : Host.Outcome State Fault Refusal :=
  act (.ledgerRecord rec) s fun s => s.ledger rec

/-- LDG_ATTACH_WRITE (R633): of two writes of one cycle the lower core's stands in front. -/
def execLdgAttachWrite (core v : Nat) (s : State) : Host.Outcome State Fault Refusal :=
  act (.ldgAttachWrite core v) s fun s => s.attachWrite 2 v

end Sys2Proof.Machine
end

