-- ==== Sys2Proof/Machine/Pcie.lean ====
section
/-! DEFINITION. The PCIe root ports (R507 to R511, R513): link changes, completions of outbound requests, inbound requests and
MSIs, AER reports; and interrupts of the module's own (R504, R528). -/

namespace Sys2Proof.Machine

/-- An outbound request has its completion (R508): the unit that issued it takes it as an answer, or the requester has its
response. -/
def State.pciAnswer (s : State) (p : PciOut) (status : Nat) (data : Bytes) : State :=
  let s := s.onPci fun x => { x with outstanding := removeFirst (· == p) x.outstanding }
  match p.unit with
  | some u => s.onRem fun m =>
      { m with answers := m.answers ++ [(⟨pciDie p.port, p.tag, u, s.fabricAddr p.addr, p.len, p.write⟩, status, data)] }
  | none => s.emit (.response p.org p.addr status data)

/-- A completion arrives on a port (R508). -/
def State.pciCompleted (s : State) (port tag status : Nat) (data : Bytes) : State :=
  match s.pci.outstanding.find? fun p => p.port == port && p.tag == tag with
  | none => s
  | some p =>
    if status = 0 then
      (if p.write then s.pciAnswer p 0 [] else if data.length = p.len then s.pciAnswer p 0 data else s)
    else s.pciAnswer p 1 []

/-- The link trains (R507, R513): with ENABLE, and at no more than MAX_RATE. -/
def State.pciUp (s : State) (port rate width : Nat) : State :=
  let d := pciDie port
  if s.on F.PCI_CTRL.ENABLE d && decide (rate ≤ s.get F.PCI_CTRL.MAX_RATE d) then
    ((s.flag F.PCI_STATUS.LINK_UP d).put F.PCI_STATUS.RATE rate d).put F.PCI_STATUS.WIDTH width d
  else s

/-- The link goes down (R508, R513): every outstanding access through the port ends with an error status. -/
def State.pciDown (s : State) (port : Nat) : State :=
  let d := pciDie port
  if s.on F.PCI_STATUS.LINK_UP d then
    let s := (s.setWord .PCI_STATUS 0 d).flag F.PCI_EVENTS.LINK_DOWN d
    (s.pci.outstanding.filter fun p => p.port == port).foldl (fun s p => s.pciAnswer p 1 []) s
  else s

/-- An inbound request is refused (R509, R510): a read is completed as Unsupported Request. -/
def State.inboundUr (s : State) (port : Nat) (r : PciRequest) : State :=
  let s := (s.bump F.PCI_COUNTS.INBOUND_UR 1 (pciDie port)).flag F.PCI_EVENTS.INBOUND_UR (pciDie port)
  if r.write then s else s.emit (.pciCompletion port r.tag 1 [])

/-- The first bus address of the MSI range of a port (R510, R513). -/
def State.msiBase (s : State) (port : Nat) : Nat := s.get F.PCI_MSI.BASE (pciDie port) <<< 19

/-- Whether a bus address lies in the open MSI range (R510). -/
def State.inMsi (s : State) (port addr len : Nat) : Bool :=
  s.on F.PCI_MSI.VALID (pciDie port) && decide (addr < s.msiBase port + 72 * 4096) && decide (s.msiBase port < addr + len)

/-- An inbound request (R509, R510). A read that meets an uncorrectable sector returns no data: its completion is an abort. -/
def State.pciInbound (s : State) (port : Nat) (r : PciRequest) : State :=
  let d := pciDie port
  let n := if r.write then r.data.length else r.len
  if !s.on F.PCI_STATUS.LINK_UP d then s
  else if s.inMsi port r.addr n then
    let h := (r.addr - s.msiBase port) / 4096
    if r.write && n == 4 && r.addr % 4096 == 0 && decide (s.msiBase port ≤ r.addr) then
      s.interruptTo h (bits (leN r.data) 0 11)
    else s.inboundUr port r
  else if n ≠ 0 ∧ s.get F.PCI_IN_BASE.ADDR d <<< 12 ≤ r.addr ∧ r.addr + n ≤ (s.get F.PCI_IN_LIMIT.ADDR d + 1) <<< 12 ∧
      region r.addr = .host ∧ s.backedSpan r.addr n = true then
    if r.write then (s.writeSpan r.addr r.data).1
    else
      let (s, ok) := s.readSpan r.addr n
      s.emit (if ok then .pciCompletion port r.tag 0 (s.bytes r.addr n) else .pciCompletion port r.tag 4 [])
  else s.inboundUr port r

/-- An AER report (R513). -/
def State.aerReport (s : State) (port : Nat) (ue : Bool) : State :=
  if ue then s.flag F.PCI_EVENTS.AER_UE (pciDie port)
  else (s.bump F.PCI_COUNTS.AER_CE 1 (pciDie port)).flag F.PCI_EVENTS.AER_CE (pciDie port)

/-! ### Commands -/

def execPcieInboundRequest (port : Nat) (req : PciRequest) (s : State) : Host.Outcome State Fault Refusal :=
  act (.pcieInboundRequest port req) s fun s => s.pciInbound port req

/-- PCIE_MSI_WRITE (R510): a memory write to the MSI range. -/
def execPcieMsiWrite (port addr : Nat) (data : Bytes) (s : State) : Host.Outcome State Fault Refusal :=
  act (.pcieMsiWrite port addr data) s fun s =>
    s.pciInbound port { write := true, addr := addr, len := data.length, data := data }

def execPcieLinkUp (port rate width : Nat) (s : State) : Host.Outcome State Fault Refusal :=
  act (.pcieLinkUp port rate width) s fun s => s.pciUp port rate width

def execPcieLinkDown (port : Nat) (s : State) : Host.Outcome State Fault Refusal :=
  act (.pcieLinkDown port) s fun s => s.pciDown port

def execAerErrorReport (port : Nat) (ue : Bool) (s : State) : Host.Outcome State Fault Refusal :=
  act (.aerErrorReport port ue) s fun s => s.aerReport port ue

def execPcieCompletion (port tag status : Nat) (data : Bytes) (s : State) : Host.Outcome State Fault Refusal :=
  act (.pcieCompletion port tag status data) s fun s => s.pciCompleted port tag status data

/-- INTERRUPT (R528): an identity becomes pending at a core. -/
def execInterrupt (hart id : Nat) (s : State) : Host.Outcome State Fault Refusal :=
  act (.interrupt hart id) s fun s => s.interruptTo hart id

end Sys2Proof.Machine
end

