-- ==== Sys2Proof/Machine/QueueCmd.lean ====
section
/-! DEFINITION. The commands of queues (R494 to R496, R501 to R506): their start on an engine, their accesses, their read-back
flush and completion records. -/

namespace Sys2Proof.Machine

/-! ### Fields of an entry -/

def Cmd.opcode (c : Cmd) : Nat := fieldAt c.entry 0 1
def Cmd.ordered (c : Cmd) : Bool := bit (fieldAt c.entry 1 1) 1
def Cmd.flagged (c : Cmd) : Bool := bit (fieldAt c.entry 1 1) 2
def Cmd.src (c : Cmd) : Nat := fieldAt c.entry 16 8
def Cmd.dst (c : Cmd) : Nat := fieldAt c.entry 24 8
def Cmd.len (c : Cmd) : Nat := fieldAt c.entry 32 8
def Cmd.flagAddr (c : Cmd) : Nat := fieldAt c.entry 40 8

/-- ENGINE, PRIO and MSI_EN of a queue's context (R488). -/
def State.qEngine (s : State) (q : Nat) : Nat := bits (s.ctxField q ctxCtl) 0 1
def State.qPrio (s : State) (q : Nat) : Nat := bits (s.ctxField q ctxCtl) 1 1
def State.qMsi (s : State) (q : Nat) : Bool := bit (s.ctxField q ctxCtl) 2

/-- Change a command. -/
def State.onCmd (s : State) (q c : Nat) (f : Cmd → Cmd) : State :=
  s.onQcx fun x => { x with cmds := updateFirst (fun d => d.q == q && d.c == c) f x.cmds }

/-- A command of a queue by its counter. -/
def State.cmdOf (s : State) (q c : Nat) : Option Cmd := s.qcx.cmds.find? fun d => d.q == q && d.c == c

/-! ### Start -/

/-- The engines that can serve a command (R495): none for NOP; a CE of the owning die; an HCE or HFE of HD(q mod 2). -/
def State.enginesFor (s : State) (c : Cmd) : List Nat :=
  let host := 64 + c.q % 2
  match c.opcode with
  | 4 => (List.range (unitCount host 4)).map (unitId host 4)
  | op =>
    if op = 2 ∧ s.qEngine c.q = 1 then (List.range (unitCount host 3)).map (unitId host 3)
    else (List.range 32).map fun i => unitId (queueDie c.q) (i / 16) (i % 16)

/-- The lowest free engine for a command; a NOP needs none and is named after the first CE. -/
def State.engineFor (s : State) (c : Cmd) : Option Nat :=
  if c.opcode = 1 then some (unitId (queueDie c.q) 0 0)
  else (s.enginesFor c).find? fun u => !(s.qcx.cmds.any fun d => d.started && !d.posted && d.opcode != 1 && d.engine == u)

/-- Whether a command's turn in its queue has come (R501): every earlier command has started, and has posted its record where
this one is ORDERED. -/
def State.turnInQueue (s : State) (c : Cmd) : Bool :=
  let earlier := (s.qcx.cmds.takeWhile fun d => !(d.q == c.q && d.c == c.c)).filter fun d => d.q == c.q && !d.posted
  if c.ordered then earlier.isEmpty else earlier.all fun d => d.started || d.status.isSome

/-- The commands of a die's queues that can start now. -/
def State.startable (s : State) (die : Nat) : List Cmd :=
  s.qcx.cmds.filter fun c => queueDie c.q == die && !c.started && c.status.isNone && s.turnInQueue c && (s.engineFor c).isSome

/-- The queue whose command starts next on a die (R501): PRIO 0 before PRIO 1, and round robin by queue number among queues of
one priority. -/
def State.nextQueue (s : State) (die : Nat) : Option Nat :=
  let cs := s.startable die
  let prio := minList 1 (cs.map fun c => s.qPrio c.q)
  let qs := sortBy id ((cs.filter fun c => s.qPrio c.q == prio).map (·.q))
  match lookupKey (die * 2 + prio) s.qcx.turn with
  | none => qs.head?
  | some last => (qs.find? fun q => decide (last < q)).or qs.head?

/-- A command starts on its engine when its turn has come. -/
def State.startCmd (s : State) (c : Cmd) : Option State :=
  let die := queueDie c.q
  if (s.startable die).contains c && s.nextQueue die == some c.q then
    match s.engineFor c with
    | none => none
    | some u =>
      some ((s.onCmd c.q c.c fun d => { d with engine := u, started := true }).onQcx fun x =>
        { x with turn := setKey (die * 2 + s.qPrio c.q) c.q x.turn })
  else none

/-! ### Accesses -/

/-- What the accesses of a command come to. -/
structure CmdRun where
  state   : State
  data    : Bytes := []
  failed  : Option Nat := none           -- fabric physical address of an access that ended with an error status
  waits   : Bool := false                -- a read is still under way elsewhere
  tags    : List Nat := []               -- writes still to be acknowledged
  wrote   : List Nat := []               -- last sector written at each holder

/-- One read of an engine: control space by its registers (R18), everything else as an operation reads. -/
def CmdRun.read (r : CmdRun) (u pa len : Nat) : CmdRun :=
  let s := r.state
  if s.isLocal pa && inControl (localPart pa) then
    match accessReg (localPart pa) len with
    | some (reg, die, idx, half) => { r with data := r.data ++ readHalf (s.readReg reg die idx) half }
    | none => { r with failed := r.failed.or (some pa) }
  else
    let x := State.readPhysical { state := s } u pa len
    if x.failed.isSome then { r with state := x.state, failed := r.failed.or x.failed }
    else if !x.pending.isEmpty then { r with state := x.state, waits := true }
    else { r with state := x.state, data := r.data ++ x.state.physicalBytes u pa len }

/-- The holder of a sector for the read-back flush (R502), by a number of its own: a unit of this module, a PCIe port, or a
remote module; none for the control space and the tile stores. -/
def State.flushHolder (s : State) (pa : Nat) : Option Nat :=
  let a := localPart pa
  if !s.isLocal pa then some (2 ^ 20 + bits pa 47 13)
  else match region a with
    | .hbm => some (unitId (s.stackDie a) 0 0)
    | .host => some (s.holder a)
    | .window => some (unitId (windowSlice a) 16 0)
    | .pcie => some (2 ^ 19 + pciPort a)
    | _ => none

/-- A write is noted for the flush. -/
def CmdRun.note (r : CmdRun) (pa len : Nat) : CmdRun :=
  match r.state.flushHolder pa with
  | none => r
  | some h => { r with wrote := r.wrote.filter (fun w => r.state.flushHolder w != some h) ++ [(pa + len - 1) / 64 * 64] }

/-- One write of an engine. -/
def CmdRun.write (r : CmdRun) (u pa : Nat) (data : Bytes) : CmdRun :=
  if r.failed.isSome then r
  else
    let s := r.state
    if s.isLocal pa && inControl (localPart pa) then
      match accessReg (localPart pa) data.length with
      | some (reg, die, idx, half) => { r with state := s.regWrite reg (s.originator u) die idx half (leN data) 0 }
      | none => { r with failed := some pa }
    else
      let x := State.writePhysical { state := s } u pa data
      if x.failed.isSome then { r with state := x.state, failed := x.failed }
      else CmdRun.note { r with state := x.state, tags := r.tags ++ x.pending } pa data.length

/-- Reads of a virtual span in order. -/
def CmdRun.readSpan (r : CmdRun) (u asid va len : Nat) : CmdRun :=
  (split256 va len).foldl (fun r p =>
    match lookupKey (u, p.1, p.2) r.state.rem.issued with
    | some pa => r.read u pa p.2
    | none =>
      let pa := r.state.paOf (unitDie u) asid p.1
      let x := CmdRun.read { r with state := r.state.xltUse (unitDie u) asid p.1, waits := false } u pa p.2
      { x with waits := r.waits || x.waits, state := if x.waits then x.state.noteIssued u p.1 p.2 pa else x.state }) r

/-- Writes of bytes at a virtual address in order. -/
def CmdRun.writeSpan (r : CmdRun) (u asid va : Nat) (data : Bytes) : CmdRun :=
  (writePieces va data.length).foldl (fun r p =>
    let r := { r with state := r.state.xltUse (unitDie u) asid p.1 }
    r.write u (r.state.paOf (unitDie u) asid p.1) ((data.drop (p.1 - va)).take p.2)) r

/-! ### Running a command -/

/-- The spans that a command accesses, its flag among them (R494 to R496, R504). -/
def Cmd.spans (c : Cmd) : List Span :=
  (match c.opcode with
   | 2 => [⟨c.src, c.len, false⟩, ⟨c.dst, c.len, true⟩]
   | 3 => [⟨c.dst, fieldAt c.entry 4 1, true⟩]
   | 4 => [⟨c.dst, c.len, true⟩]
   | _ => []) ++ (if c.flagged then [⟨c.flagAddr, 8, true⟩] else [])

/-- The pattern of a FILL over its length (R495). -/
def fillBytes (pattern : Bytes) (n : Nat) : Bytes := (List.range n).map fun j => pattern.getD (j % 8) 0

/-- The accesses of a COPY, WRITE_INLINE or FILL (R495); a NOP has none. -/
def Cmd.perform (c : Cmd) (s : State) (asid : Nat) : CmdRun :=
  let u := c.engine
  match c.opcode with
  | 2 =>
    let r := CmdRun.readSpan { state := s } u asid c.src c.len
    if r.waits || r.failed.isSome then r else r.writeSpan u asid c.dst r.data
  | 3 => CmdRun.writeSpan { state := s } u asid c.dst ((c.entry.drop 64).take (fieldAt c.entry 4 1))
  | 4 => CmdRun.writeSpan { state := s } u asid c.dst (fillBytes ((c.entry.drop 16).take 8) c.len)
  | _ => { state := s }

/-- A command ends with a STATUS. -/
def State.endCmd (s : State) (c : Cmd) (status : Nat) : State := s.onCmd c.q c.c fun d => { d with status := some status }

/-- The signal of a SIGNAL command (R453, R455, R495): payload bytes 8 to 0 are entry bytes 24 to 16. A remote one completes
when its packet has left. -/
def State.signalCmd (s : State) (c : Cmd) : State :=
  let p (off len : Nat) : Nat := fieldAt c.entry (16 + off) len
  let u := c.engine
  let obj := p 0 1
  let die := p 1 1
  let module := bits (p 2 2) 0 12
  let erg := bits (p 2 2) 12 1
  let remote : Bool := bit (p 2 2) 15 && !(module == s.moduleNo && erg == s.erg)
  let bad (s : State) : State := (s.faultOf u 8 fun r => { r with segment := 0 }).endCmd c 1
  if decide (1 < p 8 1) || bits (p 2 2) 13 2 != 0 then bad s
  else if remote then
    if !isObject die obj then bad s
    else if s.noRouteTo (unitDie u) module erg then bad (s.flagNoRoute (unitDie u) erg)
    else s.tc0To (s.sourceFd (unitDie u)) module erg (s.signalPacket u die obj (p 8 1 == 1) (p 4 4)).bytes
  else if s.badObject die obj 1 then bad s
  else (s.applySignal die obj (s.originator u) (p 8 1 == 1) (p 4 4)).endCmd c 0

/-- A started command whose translations stand runs (R495, R505). -/
def State.performCmd (s : State) (c : Cmd) (asid : Nat) : State :=
  let flagPa := if c.flagged then s.paOf (unitDie c.engine) asid c.flagAddr else 0
  let s := s.onCmd c.q c.c fun d => { d with flagPa := flagPa }
  if c.opcode = 5 then s.signalCmd c
  else
    let r := c.perform s asid
    if r.waits && r.failed.isNone then r.state
    else
      let s := (r.state.dropArrived c.engine).onCmd c.q c.c fun d => { d with wrote := r.wrote, tags := r.tags }
      match r.failed with
      | some pa => (s.faultOf c.engine 5 fun x => { x with paddr := pa, segment := 0 }).endCmd c 1
      | none => s.endCmd c 0

/-- Whether a remote SIGNAL of the command is on its way to its source fabric die. -/
def State.signalWaits (s : State) (c : Cmd) : Bool :=
  c.opcode == 5 && s.vrt.tc0.any fun p =>
    let k := SynPacket.ofBytes (p.2.payload.take 64)
    k.type == 0x10 && k.source == s.originator c.engine

/-- A command whose engine serves it goes on: translations first (R496, R439), then its accesses. -/
def State.runCmd (s : State) (c : Cmd) : State :=
  let asid := s.ctxField c.q ctxAsid % 4096
  let die := unitDie c.engine
  if c.stall.isSome || s.signalWaits c then s
  else match s.firstTrouble c.engine asid (accessesOf c.spans) with
    | some (a, .miss) => s.openMiss die asid ⟨c.engine, a.va, a.write, c.key⟩ false
    | some (a, .fault cause) => s.faultCommand c.key asid cause a.va a.write
    | _ => s.performCmd c asid

/-- A queue's command with this opcode starts, or goes on (R495, R501). -/
def State.serve (s : State) (q c opcode : Nat) : State :=
  match s.cmdOf q c with
  | none => s
  | some d =>
    if d.opcode ≠ opcode ∨ d.status.isSome = true ∨ d.posted = true then s
    else if d.started then s.runCmd d
    else match s.startCmd d with
      | none => s
      | some s => (match s.cmdOf q c with | some d => s.runCmd d | none => s)

def execNop (q c : Nat) (s : State) : Host.Outcome State Fault Refusal := act (.nop q c) s fun s => s.serve q c 1
def execCopy (q c : Nat) (s : State) : Host.Outcome State Fault Refusal := act (.copy q c) s fun s => s.serve q c 2
def execWriteInline (q c : Nat) (s : State) : Host.Outcome State Fault Refusal :=
  act (.writeInline q c) s fun s => s.serve q c 3
def execFill (q c : Nat) (s : State) : Host.Outcome State Fault Refusal := act (.fill q c) s fun s => s.serve q c 4
def execQueueSignal (q c : Nat) (s : State) : Host.Outcome State Fault Refusal :=
  act (.queueSignal q c) s fun s => s.serve q c 5

/-! ### Completion -/

/-- The read-back of the last sector written at each holder (R502). -/
def State.readBack (s : State) (c : Cmd) : CmdRun :=
  c.wrote.foldl (fun r pa => r.read c.engine pa 64) { state := s }

/-- The 32 bytes of a completion record (R503). -/
def recordBytes (c : Cmd) (status : Nat) (phase : Bool) : Bytes :=
  withCrc (toLE 2 c.c ++ toLE 1 status ++ toLE 1 (b2n phase) ++ zeros 4 ++ (c.entry.drop 8).take 8 ++ zeros 12)

/-- The queue's MSI (R504); the command has ended. -/
def State.dropCmd (s : State) (c : Cmd) : State :=
  let s := s.onQcx fun x => { x with cmds := removeFirst (fun d => d.q == c.q && d.c == c.c) x.cmds }
  let s := if s.qMsi c.q then s.interruptTo (s.ctxField c.q ctxMsiHart) (s.ctxField c.q ctxMsiId % 2048) else s
  s.settleQueue c.q

/-- The flag of a command that ended with STATUS 0, and its read-back (R504). -/
def State.writeFlag (s : State) (c : Cmd) : State :=
  let r := CmdRun.write { state := s } c.engine c.flagPa ((c.entry.drop 48).take 8)
  if r.tags.isEmpty then ((r.state.readBack { c with wrote := r.wrote }).state).dropCmd c
  else r.state.onCmd c.q c.c fun d => { d with tags := r.tags, wrote := r.wrote }

/-- The record is written (R503, R505): CQ_TAIL goes on; STATUS 3 moves the queue to ERROR. -/
def State.postRecord (s : State) (c : Cmd) (status : Nat) : State :=
  let t := s.ctxField c.q ctxCqTail
  let m := s.ctxField c.q ctxCqLog
  let a := s.ctxField c.q ctxCq + 32 * (t % 2 ^ m)
  let s := s.updWrite a (recordBytes c status (!bit t m))
  let s := (s.setCtx c.q ctxCqTail ((t + 1) % 65536)).onCmd c.q c.c fun d => { d with posted := true, status := some status }
  let s := if status = 3 then (s.setCtx c.q ctxErrSeq c.c).queueError c.q 2 else s
  if c.flagged && status == 0 then s.writeFlag c else s.dropCmd c

/-- A command whose accesses are done is flushed and posts its record (R502 to R505); a command of a bad entry writes its fault
record first. -/
def State.completeCmd (s : State) (c : Cmd) (status : Nat) : State :=
  let r := s.readBack c
  if r.waits && r.failed.isNone then r.state
  else
    let s := r.state.dropArrived c.engine
    let status' := if status = 0 ∧ r.failed.isSome = true then 1 else status
    let s := match r.failed with
      | some pa => if status = 0 then s.faultOf c.engine 5 fun x => { x with paddr := pa, segment := 0 } else s
      | none => s
    let full : Bool := (s.ctxField c.q ctxCqTail + 65536 - s.ctxField c.q ctxCqHead) % 65536 == 2 ^ s.ctxField c.q ctxCqLog
    if full then (s.flag F.QCX_EVENTS.CQ_FULL (queueDie c.q)).endCmd c status'
    else
      let s := if status = 3 then s.faultOf (unitId (queueDie c.q) 0 0) 8 fun x => { x with segment := 0 } else s
      s.postRecord c status'

/-- COMMAND_COMPLETE (R502 to R505): for a command whose record is written, its flag has been read back. -/
def State.finishCmd (s : State) (q c : Nat) : State :=
  match s.cmdOf q c with
  | none => s
  | some d =>
    if !d.tags.isEmpty then s
    else if d.posted then
      let r := s.readBack d
      if r.waits then r.state else (r.state.dropArrived d.engine).dropCmd d
    else match d.status with
      | none => s
      | some st => s.completeCmd d st

def execCommandComplete (q c : Nat) (s : State) : Host.Outcome State Fault Refusal :=
  act (.commandComplete q c) s fun s => s.finishCmd q c

end Sys2Proof.Machine
end

