-- ==== Sys2Proof/Machine/Tick.lean ====
section
/-! DEFINITION. The tick: timers and counts, tick marks and their steering, the tick states, master, backup and partner-erg
master, TICK_IO (R65 to R82, R559, R642), and what falls at a tick elsewhere on the module: due segments (R96), the coalesced
records and the record windows (R544 to R547), the release of an abort (R463), a halt received before it (R464), and the
router weights (R399). Local times are in picoseconds of FD0's oscillator. -/

namespace Sys2Proof.Machine

/-! ### Timer and roles -/

/-- The tick period in picoseconds. -/
def State.periodPs (s : State) : Nat := s.get F.TCK_PERIOD.PERIOD_US * 1000000

/-- Whether the module sends marks from its own timer with no mark to follow (R642). -/
def State.ownTimer (s : State) : Bool := s.get F.TCK_ROLE.ROLE == 1 || s.tick.sending

/-- Whether the module sends tick marks: the master, a backup or partner-erg master on its own timer, and the partner-erg
master at all times (R65, R76, R79). -/
def State.sendsMarks (s : State) : Bool := s.ownTimer || s.get F.TCK_ROLE.ROLE == 3

/-- Numbers of tick states (R116). -/
def tickFree : Nat := 0
def tickAcquire : Nat := 1
def tickLocked : Nat := 2
def tickHoldover : Nat := 3
def tickLost : Nat := 4

/-- The tick state. -/
def State.tickState (s : State) : Nat := s.get F.TCK_STATUS.STATE

/-- A change of tick state begins new runs (R74). -/
def State.enterTick (s : State) (st : Nat) : State :=
  (s.put F.TCK_STATUS.STATE st).onTick fun t => { t with goodRun := 0, badRun := 0, inHoldover := 0 }

/-- What a module on its own timer reads (R642). -/
def State.readsOwn (s : State) : State :=
  if s.ownTimer then
    let s := (s.put F.TCK_STATUS.SOURCE s.moduleNo).put F.TCK_STATUS.MISSED 0
    (s.put F.TCK_STATUS.OFFSET_PS 0).put F.TCK_STATUS.STATE tickLocked
  else s

/-- The local time of tick `n` of FD0's timer, from the last tick and the next one (R71). -/
def State.timeOfTick (s : State) (n : Nat) : Int :=
  let here : Nat := s.now 72
  if n = here + 1 then (s.tick.nextMark : Int)
  else (s.tick.lastMark : Int) + ((n : Int) - (here : Int)) * (s.periodPs : Int)

/-- The tick of FD0's timer nearest to a local time: marked already, or the next one due; the earlier of two at equal
distance (R71). -/
def State.nearestTick (s : State) (t : Int) : Nat :=
  let here := s.now 72
  let last : Int := s.tick.lastMark
  let next : Int := s.tick.nextMark
  if last ≤ t then (if t - last ≤ next - t then here else here + 1)
  else
    let p : Int := s.periodPs
    let back := last - t
    let k := (if (back % p) * 2 < p then back / p else back / p + 1).toNat
    here - k

/-- The correction of one tick's length (R73): towards zero offset, by at most 0.1% of the period; how much of that is not
stated (log entry 40). -/
def State.steerStep (s : State) : Int :=
  let most := min s.tick.offset.natAbs (s.periodPs / 1000)
  let k : Int := ((s.free % (most + 1) : Nat) : Int)
  if s.tick.offset < 0 then -k else k

/-- FD0's timer marks a tick: the next one is due after a steered period (R71, R73). -/
def State.timerAdvance (s : State) : State :=
  let k := s.steerStep
  let next := ((s.tick.nextMark : Int) + (s.periodPs : Int) + k).toNat
  (s.took 1).onTick fun t => { t with lastMark := t.nextMark, nextMark := next, offset := t.offset - k }

/-- Timer and TCK_COUNT are set directly from a mark for tick `c` at local time `t` (R73). -/
def State.setTimer (s : State) (c : Nat) (t : Int) : State :=
  let t := t.toNat
  let s := allDies.foldl (fun s d => s.put F.TCK_COUNT.COUNT c d) s
  s.onTick fun x => { x with lastMark := t, nextMark := t + s.periodPs, offset := 0 }

/-! ### Tick marks -/

/-- The 64 bytes of the mark that this module sends at a tick (R69). -/
def State.tickMark (s : State) : Bytes :=
  withCrc (toLE 2 1 ++ toLE 4 (s.originator routerFd0) ++ toLE 2 0 ++ toLE 8 (s.now 72) ++ toLE 8 0 ++
    toLE 2 (s.get F.TCK_PERIOD.PERIOD_US) ++ zeros 34)

/-- A mark is discarded and counted (R72). -/
def State.discardMark (s : State) (event : Bool) : State :=
  let s := s.onTick fun t => { t with discards := t.discards + 1 }
  if event then s.flag F.TCK_EVENTS.MARK_DISCARDED else s

/-- Whether a mark's SOURCE names the configured master (`false`) or backup (`true`); `none` for a foreign one (R72). -/
def State.markSource (s : State) (source : Nat) : Option Bool :=
  let erg := if s.get F.TCK_ROLE.ROLE = 3 then 1 - s.erg else s.erg
  let module := bits source 16 12
  if bits source 28 1 ≠ erg then none
  else if module = s.get F.TCK_ROLE.MASTER then some false
  else if s.on F.TCK_ROLE.BACKUP_VALID && module == s.get F.TCK_ROLE.BACKUP then some true
  else none

/-- The row of R74 that an accepted mark takes, by its state and offset in picoseconds: `twice` is true for a second mark of
one period, which does not lengthen a run. -/
def State.markRow (s : State) (off : Nat) (twice : Bool) : State :=
  let more (n : Nat) : Nat := if twice then n else n + 1
  let s := s.onTick fun t =>
    { t with goodRun := if s.tickState = tickAcquire ∧ off ≤ 10000 then more t.goodRun else 0
             badRun := if s.tickState = tickLocked ∧ 15000 < off then more t.badRun else 0 }
  match s.tickState with
  | 1 => if 16 ≤ s.tick.goodRun then s.enterTick tickLocked else s
  | 2 => if 25000 < off ∨ 4 ≤ s.tick.badRun then (s.flag F.TCK_EVENTS.LOCK_LOST).enterTick tickAcquire else s
  | 3 => s.enterTick tickAcquire
  | _ => s

/-- An accepted mark acts on the timer and the tick state (R71, R73, R74). -/
def State.followMark (s : State) (pkt : Bytes) (arrival : Nat) (backup : Bool) : State :=
  let c := fieldAt pkt 8 8
  let t : Int := (arrival : Int) - (fieldAt pkt 16 8 : Int)
  let n := s.nearestTick t
  let off := t - s.timeOfTick n
  let twice := s.tick.marked
  let s := ((s.put F.TCK_STATUS.OFFSET_PS (unsigned 32 off)).put F.TCK_STATUS.MISSED 0).put F.TCK_STATUS.SOURCE
    (bits (fieldAt pkt 2 4) 16 12)
  let s := s.onTick fun x =>
    { x with noMark := 0, marked := true, fromMaster := x.fromMaster || !backup
             masterMark := if backup then x.masterMark else some c }
  let st := s.tickState
  if st = tickFree then
    let s := if s.active then s.onTick fun x => { x with offset := off } else s.setTimer c t
    s.enterTick tickAcquire
  else if c ≠ n then
    let s := s.flag F.TCK_EVENTS.COUNT_MISMATCH
    if s.active then (s.onTick fun x => { x with offset := off }).raiseBreak 5 0 0
    else (s.setTimer c t).enterTick tickAcquire
  else if st = tickLost then (if s.active then s else (s.setTimer c t).enterTick tickAcquire)
  else (s.onTick fun x => { x with offset := off }).markRow off.natAbs twice

/-- A tick mark arrives (R71 to R74, R77, R78): discarded, or taken. The master follows no mark; a module that sends from its
own timer follows its master's only, and stops sending. -/
def State.receiveMark (s : State) (pkt : Bytes) (arrival : Nat) : State :=
  if !crcHolds 64 pkt then s.discardMark false
  else if fieldAt pkt 24 2 ≠ s.get F.TCK_PERIOD.PERIOD_US then s.discardMark true
  else match s.markSource (fieldAt pkt 2 4) with
    | none => s.discardMark true
    | some backup =>
      if s.get F.TCK_ROLE.ROLE = 1 || (backup && (s.tick.sending || s.tick.masterMark == some (fieldAt pkt 8 8))) then s
      else (((s.onTick fun t => { t with sending := false }).followMark pkt arrival backup).checkJoined)

/-! ### What falls at a tick -/

/-- Runs end, and the periods without a mark are counted (R74, R76, R559). -/
def State.countPeriod (s : State) : State :=
  let s := if s.tick.marked || s.ownTimer then s
    else s.put F.TCK_STATUS.MISSED (min (s.get F.TCK_STATUS.MISSED + 1) 255)
  let hold := s.tickState == tickHoldover
  s.onTick fun t =>
    { t with marked := false, fromMaster := false
             goodRun := if t.marked then t.goodRun else 0, badRun := if t.marked then t.badRun else 0
             noMark := if t.marked then 0 else t.noMark + 1, noMaster := if t.fromMaster then 0 else t.noMaster + 1
             inHoldover := if hold then t.inHoldover + 1 else 0 }

/-- The mark and the pulse of a tick (R65, R69, R81, R82). -/
def State.markOut (s : State) : State :=
  let s := if s.sendsMarks then s.tc0Bcast 72 s.tickMark else s
  match s.get F.TCK_ROLE.IO_MODE with
  | 1 => s.emit (.tickIo (s.now 72))
  | 3 => s.flag F.TCK_EVENTS.IO_CONFLICT
  | _ => s

/-- The windows of fault records roll over, and the coalesced records are written first (R544, R545, R547, R548). -/
def State.rollWindows (s : State) : State :=
  let s := s.flushCoalesced
  let quiet := s.on F.FLT_HABOOB.ACTIVE && decide (s.get F.FLT_RATE.CURRENT * 4 < s.get F.FLT_HABOOB.ENTER)
  let s := s.onFlt fun f => { f with quiet := if quiet then f.quiet + 1 else 0 }
  let s := (s.put F.FLT_RATE.LAST (s.get F.FLT_RATE.CURRENT)).put F.FLT_RATE.CURRENT 0
  let s := allDies.foldl (fun s d => s.put F.FLT_DIE_HEALTH.WINDOW 0 d) s
  s.onHbm fun h => { h with ceRows := [] }

/-- The router weights in force for the next tick are the originators seen in this window (R399), and the windows of link
errors begin again (R393, R522). -/
def State.rollFabric (s : State) : State :=
  let seen (d p c : Nat) : Nat :=
    max 1 (min 8192 (s.vrt.heads.filter fun h => h.1 == d && h.2.1 == p && h.2.2.1 == c).length)
  let s := [72, 73, 74, 75].foldl (fun s d => (List.range 9).foldl (fun s p =>
    (s.put F.VRT_POP.TC1 (seen d p 1) d p).put F.VRT_POP.TC2 (seen d p 2) d p) s) s
  let s := s.onVrt fun v => { v with heads := [], ports := v.ports.map fun p => (p.1, { p.2 with ueWindow := 0 }) }
  s.onBdi fun b => { b with links := b.links.map fun l => (l.1, { l.2 with crcWindow := 0 }) }

/-- The root sends the release of an abort at the first tick after it recorded it (R463). -/
def State.sendRelease (s : State) : State :=
  if s.sched.release && s.isRoot then
    let t := (s.now 72 + s.get F.SCH_REPLAY.DELAY) % 2 ^ 64
    let s := s.onSched fun c => { c with release := false, replayTick := some t }
    s.rootBroadcast { s.synPacket 0x14 routerFd0 with tick := t }.bytes
  else s.onSched fun c => { c with release := false }

/-- A halt that was received before this tick acts (R464). -/
def State.actOnHalt (s : State) : State :=
  match s.sched.haltAt with
  | none => s
  | some _ =>
    let s := s.onSched fun c => { c with haltAt := none }
    if s.active then s.abortStep.onSched fun c => { c with halt := true, release := false }
    else if s.sched.st = .halted then s
    else s.setSched .halted

/-- What the module as a whole does at a tick of FD0's timer. -/
def State.tickModule (s : State) : State :=
  let s := ((s.timerAdvance.countPeriod).readsOwn).checkJoined
  (((s.markOut.rollWindows).rollFabric).sendRelease).actOnHalt

/-- A die's timer marks a tick (R66, R68): the count advances and the due segments of the die's streams start (R96). -/
def State.tickDie (s : State) (die : Nat) : State :=
  let s := s.addWrap F.TCK_COUNT.COUNT 1 die
  let s := if die = 72 then s.tickModule else s
  (dieStreamUnits die).foldl (fun s u => (s.countTick u).goOn u 0) s

/-! ### Commands -/

def execTick (die : Nat) (s : State) : Host.Outcome State Fault Refusal := act (.tick die) s fun s => s.tickDie die

def execTickMark (mark : Bytes) (arrival : Nat) (s : State) : Host.Outcome State Fault Refusal :=
  act (.tickMark mark arrival) s fun s => s.receiveMark mark arrival

def execHoldover (s : State) : Host.Outcome State Fault Refusal :=
  act .holdover s fun s =>
    if !s.ownTimer && (s.tickState == tickLocked || s.tickState == tickAcquire) && decide (4 ≤ s.tick.noMark) then
      (s.flag F.TCK_EVENTS.HOLDOVER).enterTick tickHoldover
    else s

def execTickLost (s : State) : Host.Outcome State Fault Refusal :=
  act .tickLost s fun s =>
    if !s.ownTimer && s.tickState == tickHoldover && decide (s.get F.TCK_HOLDOVER_LIMIT.LIMIT ≤ s.tick.inHoldover) then
      let s := (s.flag F.TCK_EVENTS.LOST).enterTick tickLost
      if s.active then (s.recordHalt 5 0).raiseBreak 4 0 0 true else s
    else s

def execMasterSwitch (s : State) : Host.Outcome State Fault Refusal :=
  act .masterSwitch s fun s =>
    if s.get F.TCK_ROLE.ROLE == 2 && !s.tick.sending && decide (8 ≤ s.tick.noMaster) then
      ((s.flag F.TCK_EVENTS.MASTER_SWITCH).onTick fun t => { t with sending := true }).readsOwn.checkJoined
    else s

def execPartnerMasterSwitch (s : State) : Host.Outcome State Fault Refusal :=
  act .partnerMasterSwitch s fun s =>
    if s.get F.TCK_ROLE.ROLE == 3 && !s.tick.sending && decide (8 ≤ s.tick.noMaster) then
      ((s.flag F.TCK_EVENTS.MASTER_SWITCH).onTick fun t => { t with sending := true }).readsOwn.checkJoined
    else s

/-- A rising edge of TICK_IO steers the master's timer when IO_MODE selects input (R80, R82). -/
def execTickIoEdge (time : Nat) (s : State) : Host.Outcome State Fault Refusal :=
  act (.tickIoEdge time) s fun s =>
    if s.get F.TCK_ROLE.ROLE == 1 && decide (2 ≤ s.get F.TCK_ROLE.IO_MODE) then
      let off := (time : Int) - s.timeOfTick (s.nearestTick time)
      s.onTick fun t => { t with offset := off }
    else s

end Sys2Proof.Machine
end

