-- ==== Sys2Proof/Machine/Dispatch.lean ====
section
/-! DEFINITION. What each command does to everything but the queue: one arm for each constructor of `Instr`. -/

namespace Sys2Proof.Machine

/-- The effect of a command (the rows of the opcode table, in the table's order). -/
def exec (i : Instr) (s : State) : Host.Outcome State Fault Refusal :=
  match i with
  | .registerWrite org addr size v hw => Sys2Proof.Machine.execRegisterWrite org addr size v hw s
  | .clearCounts die blk inst inc => Sys2Proof.Machine.execClearCounts die blk inst inc s
  | .tick die => Sys2Proof.Machine.execTick die s
  | .tickMark mark arrival => Sys2Proof.Machine.execTickMark mark arrival s
  | .holdover => Sys2Proof.Machine.execHoldover s
  | .tickLost => Sys2Proof.Machine.execTickLost s
  | .masterSwitch => Sys2Proof.Machine.execMasterSwitch s
  | .partnerMasterSwitch => Sys2Proof.Machine.execPartnerMasterSwitch s
  | .tickIoEdge time => Sys2Proof.Machine.execTickIoEdge time s
  | .schRun => Sys2Proof.Machine.execSchRun s
  | .schStop => Sys2Proof.Machine.execSchStop s
  | .schAbort => Sys2Proof.Machine.execSchAbort s
  | .slipBreak u => Sys2Proof.Machine.execSlipBreak u s
  | .operationStart u => Sys2Proof.Machine.execOperationStart u s
  | .operationComplete u k => Sys2Proof.Machine.execOperationComplete u k s
  | .synToken ch => Sys2Proof.Machine.execSynToken ch s
  | .synCredit ch => Sys2Proof.Machine.execSynCredit ch s
  | .noOperation u => Sys2Proof.Machine.execNoOperation u s
  | .stepStart => Sys2Proof.Machine.execStepStart s
  | .replayWaitEntry => Sys2Proof.Machine.execReplayWaitEntry s
  | .replayStart => Sys2Proof.Machine.execReplayStart s
  | .haltEntry => Sys2Proof.Machine.execHaltEntry s
  | .ldx u p => Sys2Proof.Machine.execLdx u p s
  | .mma u p => Sys2Proof.Machine.execMma u p s
  | .out u p => Sys2Proof.Machine.execOut u p s
  | .psend u p => Sys2Proof.Machine.execPsend u p s
  | .padd u p => Sys2Proof.Machine.execPadd u p s
  | .stf u p => Sys2Proof.Machine.execStf u p s
  | .ew die p => Sys2Proof.Machine.execEw die p s
  | .cvt die p => Sys2Proof.Machine.execCvt die p s
  | .scan die p => Sys2Proof.Machine.execScan die p s
  | .reduce die p => Sys2Proof.Machine.execReduce die p s
  | .dgrad die p => Sys2Proof.Machine.execDgrad die p s
  | .rand die p => Sys2Proof.Machine.execRand die p s
  | .slice die p => Sys2Proof.Machine.execSlice die p s
  | .flush u => Sys2Proof.Machine.execFlush u s
  | .chain die p => Sys2Proof.Machine.execChain die p s
  | .genStateWrite die idx half v => Sys2Proof.Machine.execGenStateWrite die idx half v s
  | .code u p => Sys2Proof.Machine.execCode u p s
  | .decode u p => Sys2Proof.Machine.execDecode u p s
  | .hstore u p => Sys2Proof.Machine.execHstore u p s
  | .build u p => Sys2Proof.Machine.execBuild u p s
  | .codecInputTimeout u block => Sys2Proof.Machine.execCodecInputTimeout u block s
  | .codecLateSector die => Sys2Proof.Machine.execCodecLateSector die s
  | .memRead org addr len flips => Sys2Proof.Machine.execMemRead org addr len flips s
  | .memWrite org addr data => Sys2Proof.Machine.execMemWrite org addr data s
  | .memPartialWrite org addr data mask flips => Sys2Proof.Machine.execMemPartialWrite org addr data mask flips s
  | .accumulateWrite org addr mask addends flips => Sys2Proof.Machine.execAccumulateWrite org addr mask addends flips s
  | .partialSums addr data => Sys2Proof.Machine.execPartialSums addr data s
  | .readResponse u tag status data => Sys2Proof.Machine.execReadResponse u tag status data s
  | .writePerformed u tag status => Sys2Proof.Machine.execWritePerformed u tag status s
  | .patrolScrubStep ms flips => Sys2Proof.Machine.execPatrolScrubStep ms flips s
  | .fsel die p => Sys2Proof.Machine.execFsel die p s
  | .move u p => Sys2Proof.Machine.execMove u p s
  | .xpose u p => Sys2Proof.Machine.execXpose u p s
  | .rbank die p => Sys2Proof.Machine.execRbank die p s
  | .bankSwitch die => Sys2Proof.Machine.execBankSwitch die s
  | .nchk die p => Sys2Proof.Machine.execNchk die p s
  | .uprun die p => Sys2Proof.Machine.execUprun die p s
  | .cscale die p => Sys2Proof.Machine.execCscale die p s
  | .commit die => Sys2Proof.Machine.execCommit die s
  | .updateCommit => Sys2Proof.Machine.execUpdateCommit s
  | .digestTimeout => Sys2Proof.Machine.execDigestTimeout s
  | .digestPacket pkt => Sys2Proof.Machine.execDigestPacket pkt s
  | .updVerify key => Sys2Proof.Machine.execUpdVerify key s
  | .updVerifyDone => Sys2Proof.Machine.execUpdVerifyDone s
  | .updRewind unum => Sys2Proof.Machine.execUpdRewind unum s
  | .updRewindDone => Sys2Proof.Machine.execUpdRewindDone s
  | .ropen u p => Sys2Proof.Machine.execRopen u p s
  | .rsend u p => Sys2Proof.Machine.execRsend u p s
  | .allr u p => Sys2Proof.Machine.execAllr u p s
  | .reductionPacket u pkt crcOk => Sys2Proof.Machine.execReductionPacket u pkt crcOk s
  | .checkTimeout u tag element => Sys2Proof.Machine.execCheckTimeout u tag element s
  | .vlkFlitReceive die inst flit corrected ue => Sys2Proof.Machine.execVlkFlitReceive die inst flit corrected ue s
  | .gcmBatchClose die inst => Sys2Proof.Machine.execGcmBatchClose die inst s
  | .vlkAckTimeout die inst => Sys2Proof.Machine.execVlkAckTimeout die inst s
  | .laneLockLoss die inst => Sys2Proof.Machine.execLaneLockLoss die inst s
  | .vlkRetrain die inst => Sys2Proof.Machine.execVlkRetrain die inst s
  | .vlkTrained die inst facts => Sys2Proof.Machine.execVlkTrained die inst facts s
  | .vlkHoldExpire die inst => Sys2Proof.Machine.execVlkHoldExpire die inst s
  | .peerRoutingUpdate die inst flag => Sys2Proof.Machine.execPeerRoutingUpdate die inst flag s
  | .packetForward die input pkt => Sys2Proof.Machine.execPacketForward die input pkt s
  | .tc0Inject die => Sys2Proof.Machine.execTc0Inject die s
  | .remoteTimeout die tag => Sys2Proof.Machine.execRemoteTimeout die tag s
  | .remoteResponse die tag status data => Sys2Proof.Machine.execRemoteResponse die tag status data s
  | .leave die => Sys2Proof.Machine.execLeave die s
  | .join die => Sys2Proof.Machine.execJoin die s
  | .vrtBankWrite die half v => Sys2Proof.Machine.execVrtBankWrite die half v s
  | .routeEntryWrite die bcast idx half v => Sys2Proof.Machine.execRouteEntryWrite die bcast idx half v s
  | .missRecordWrite die slot => Sys2Proof.Machine.execMissRecordWrite die slot s
  | .xltRespFill die slot v => Sys2Proof.Machine.execXltRespFill die slot v s
  | .xltRespFault die slot => Sys2Proof.Machine.execXltRespFault die slot s
  | .xltMissTimeout die slot => Sys2Proof.Machine.execXltMissTimeout die slot s
  | .xpf die p => Sys2Proof.Machine.execXpf die p s
  | .xltInval die v => Sys2Proof.Machine.execXltInval die v s
  | .xltInvalDone die => Sys2Proof.Machine.execXltInvalDone die s
  | .faultRecord rec => Sys2Proof.Machine.execFaultRecord rec s
  | .fltResumeRetry target => Sys2Proof.Machine.execFltResumeRetry target s
  | .fltResumeAbort target => Sys2Proof.Machine.execFltResumeAbort target s
  | .fltWadiRelease slot => Sys2Proof.Machine.execFltWadiRelease slot s
  | .faultRecordCopy rec => Sys2Proof.Machine.execFaultRecordCopy rec s
  | .haboobExit => Sys2Proof.Machine.execHaboobExit s
  | .controlParityError die => Sys2Proof.Machine.execControlParityError die s
  | .signal die p => Sys2Proof.Machine.execSignal die p s
  | .wait die p => Sys2Proof.Machine.execWait die p s
  | .bar die p => Sys2Proof.Machine.execBar die p s
  | .synObjSignal die obj core v => Sys2Proof.Machine.execSynObjSignal die obj core v s
  | .synWaitTimeout die obj w => Sys2Proof.Machine.execSynWaitTimeout die obj w s
  | .signalPacket pkt => Sys2Proof.Machine.execSignalPacket pkt s
  | .arrive pkt => Sys2Proof.Machine.execArrive pkt s
  | .release pkt => Sys2Proof.Machine.execRelease pkt s
  | .abort pkt => Sys2Proof.Machine.execAbort pkt s
  | .abortRelease pkt => Sys2Proof.Machine.execAbortRelease pkt s
  | .readShared core line => Sys2Proof.Machine.execReadShared core line s
  | .readUnique core line => Sys2Proof.Machine.execReadUnique core line s
  | .upgrade core line => Sys2Proof.Machine.execUpgrade core line s
  | .writeBack core line data victim => Sys2Proof.Machine.execWriteBack core line data victim s
  | .clean core line => Sys2Proof.Machine.execClean core line s
  | .cohFlush core line => Sys2Proof.Machine.execCohFlush core line s
  | .invalidate core line flushMode => Sys2Proof.Machine.execInvalidate core line flushMode s
  | .snoop die line gone stored => Sys2Proof.Machine.execSnoop die line gone stored s
  | .cohFwd line => Sys2Proof.Machine.execCohFwd line s
  | .cohResponse core line => Sys2Proof.Machine.execCohResponse core line s
  | .cohData core line => Sys2Proof.Machine.execCohData core line s
  | .cohAck core line => Sys2Proof.Machine.execCohAck core line s
  | .hcxRwinWrite die idx half v => Sys2Proof.Machine.execHcxRwinWrite die idx half v s
  | .submissionDoorbell q value => Sys2Proof.Machine.execSubmissionDoorbell q value s
  | .completionDoorbell q value => Sys2Proof.Machine.execCompletionDoorbell q value s
  | .qctlEnable die q => Sys2Proof.Machine.execQctlEnable die q s
  | .qctlDisable die q => Sys2Proof.Machine.execQctlDisable die q s
  | .qctlDisableDone die => Sys2Proof.Machine.execQctlDisableDone die s
  | .qctlSync die q => Sys2Proof.Machine.execQctlSync die q s
  | .contextFetch q => Sys2Proof.Machine.execContextFetch q s
  | .entryFetchReturn q k => Sys2Proof.Machine.execEntryFetchReturn q k s
  | .refetchIssue q k => Sys2Proof.Machine.execRefetchIssue q k s
  | .nop q c => Sys2Proof.Machine.execNop q c s
  | .copy q c => Sys2Proof.Machine.execCopy q c s
  | .writeInline q c => Sys2Proof.Machine.execWriteInline q c s
  | .fill q c => Sys2Proof.Machine.execFill q c s
  | .queueSignal q c => Sys2Proof.Machine.execQueueSignal q c s
  | .commandComplete q c => Sys2Proof.Machine.execCommandComplete q c s
  | .pcieInboundRequest port req => Sys2Proof.Machine.execPcieInboundRequest port req s
  | .pcieMsiWrite port addr data => Sys2Proof.Machine.execPcieMsiWrite port addr data s
  | .pcieLinkUp port rate width => Sys2Proof.Machine.execPcieLinkUp port rate width s
  | .pcieLinkDown port => Sys2Proof.Machine.execPcieLinkDown port s
  | .bdiTraining die link facts => Sys2Proof.Machine.execBdiTraining die link facts s
  | .bdiTrainTimeout die link => Sys2Proof.Machine.execBdiTrainTimeout die link s
  | .bdiDescriptor die link desc => Sys2Proof.Machine.execBdiDescriptor die link desc s
  | .bdiFlitReceive die link flit => Sys2Proof.Machine.execBdiFlitReceive die link flit s
  | .bdiAckTimeout die link => Sys2Proof.Machine.execBdiAckTimeout die link s
  | .bdiRetrainRequest die link => Sys2Proof.Machine.execBdiRetrainRequest die link s
  | .bdiRetrain die link => Sys2Proof.Machine.execBdiRetrain die link s
  | .bdiHoldExpire die link => Sys2Proof.Machine.execBdiHoldExpire die link s
  | .bdiTickFlit die link flit arrival => Sys2Proof.Machine.execBdiTickFlit die link flit arrival s
  | .interrupt hart id => Sys2Proof.Machine.execInterrupt hart id s
  | .ledgerRecord rec => Sys2Proof.Machine.execLedgerRecord rec s
  | .fltRecoveryRestore => Sys2Proof.Machine.execFltRecoveryRestore s
  | .ldgAttachWrite core v => Sys2Proof.Machine.execLdgAttachWrite core v s
  | .powerOn mv env => Sys2Proof.Machine.execPowerOn mv env s
  | .startComplete => Sys2Proof.Machine.execStartComplete s
  | .secReady => Sys2Proof.Machine.execSecReady s
  | .retire confirm site => Sys2Proof.Machine.execRetire confirm site s
  | .revoke confirm slot => Sys2Proof.Machine.execRevoke confirm slot s
  | .epoch confirm => Sys2Proof.Machine.execEpoch confirm s
  | .attest addr => Sys2Proof.Machine.execAttest addr s
  | .attestDone => Sys2Proof.Machine.execAttestDone s
  | .flashProgram addr => Sys2Proof.Machine.execFlashProgram addr s
  | .flashProgramDone mismatch => Sys2Proof.Machine.execFlashProgramDone mismatch s
  | .mgmtGetStatus => Sys2Proof.Machine.execMgmtGetStatus s
  | .mgmtDrain => Sys2Proof.Machine.execMgmtDrain s
  | .mgmtDrainCancel => Sys2Proof.Machine.execMgmtDrainCancel s
  | .mgmtRestart => Sys2Proof.Machine.execMgmtRestart s
  | .mgmtAttest addr => Sys2Proof.Machine.execMgmtAttest addr s
  | .mgmtFuse confirm cmd arg => Sys2Proof.Machine.execMgmtFuse confirm cmd arg s
  | .park => Sys2Proof.Machine.execPark s
  | .unpark => Sys2Proof.Machine.execUnpark s
  | .drain => Sys2Proof.Machine.execDrain s
  | .drainCancel => Sys2Proof.Machine.execDrainCancel s
  | .powerOff => Sys2Proof.Machine.execPowerOff s
  | .drainComplete timeout => Sys2Proof.Machine.execDrainComplete timeout s
  | .restart => Sys2Proof.Machine.execRestart s
  | .restartRailsOn env => Sys2Proof.Machine.execRestartRailsOn env s
  | .attnRequest => Sys2Proof.Machine.execAttnRequest s
  | .powerEnFall => Sys2Proof.Machine.execPowerEnFall s
  | .inputRange mv => Sys2Proof.Machine.execInputRange mv s
  | .inputRangeTimeout => Sys2Proof.Machine.execInputRangeTimeout s
  | .powerFault mv => Sys2Proof.Machine.execPowerFault mv s
  | .thermalWarn tj outlet => Sys2Proof.Machine.execThermalWarn tj outlet s
  | .thermalTrip tj => Sys2Proof.Machine.execThermalTrip tj s
  | .railFault dies => Sys2Proof.Machine.execRailFault dies s
  | .fuseCommandDone failed => Sys2Proof.Machine.execFuseCommandDone failed s
  | .rowRemapDone ms => Sys2Proof.Machine.execRowRemapDone ms s
  | .hbmRefreshDouble ms hot => Sys2Proof.Machine.execHbmRefreshDouble ms hot s
  | .aerErrorReport port ue => Sys2Proof.Machine.execAerErrorReport port ue s
  | .pcieCompletion port tag status data => Sys2Proof.Machine.execPcieCompletion port tag status data s

end Sys2Proof.Machine
end

