-- ==== Sys2Proof/Safety.lean ====
section
/-! DEFINITION. What statements about the module speak of: the invariant of the state, a command that reaches its effect,
and the footprint outside which an effect leaves everything as it was. -/

namespace Sys2Proof.Machine

/-! ### The invariant -/

/-- The register file lists no place twice. -/
def Regs.distinct (rs : List (Loc × Word)) : Prop := (rs.map (·.1)).Nodup

/-- The invariant of the module: memory in its canonical form, a register file that lists no place twice, and no die whose
halt is owed (R550). -/
structure State.Inv (s : State) : Prop where
  mem   : Memory.wf s.mem = true
  regs  : Regs.distinct s.regs
  fatal : s.flt.fatal = []

/-! ### A command that reaches its effect -/

/-- The command names places of the module, the module's state admits it, and no die waits for its halt. -/
abbrev State.Reaches (s : State) (c : Instr) : Prop := c.wf = true ∧ s.admits c = true ∧ s.flt.fatal = []

/-! ### Footprints -/

/-- The parts of the state beside the command queue and the registers; `fatal` is the list of dies whose halt is still to be
sent, which stands within `flt`. -/
inductive Part where
  | fresh | out | mem | power | tick | sched | arrays | codec | hbm | oasis | fsel | upd | rdx | vrt | rem | xlt | flt | fatal | syn | coh | imsic | qcx | pci | bdi | sec | ldg
deriving DecidableEq, Repr

/-- A part is the same in both states. -/
def Part.same (s t : State) : Part → Prop
  | .fresh => t.fresh = s.fresh
  | .out => t.out = s.out
  | .mem => t.mem = s.mem
  | .power => t.power = s.power
  | .tick => t.tick = s.tick
  | .sched => t.sched = s.sched
  | .arrays => t.arrays = s.arrays
  | .codec => t.codec = s.codec
  | .hbm => t.hbm = s.hbm
  | .oasis => t.oasis = s.oasis
  | .fsel => t.fsel = s.fsel
  | .upd => t.upd = s.upd
  | .rdx => t.rdx = s.rdx
  | .vrt => t.vrt = s.vrt
  | .rem => t.rem = s.rem
  | .xlt => t.xlt = s.xlt
  | .flt => t.flt = s.flt
  | .fatal => t.flt.fatal = s.flt.fatal
  | .syn => t.syn = s.syn
  | .coh => t.coh = s.coh
  | .imsic => t.imsic = s.imsic
  | .qcx => t.qcx = s.qcx
  | .pci => t.pci = s.pci
  | .bdi => t.bdi = s.bdi
  | .sec => t.sec = s.sec
  | .ldg => t.ldg = s.ldg

/-- What an effect may change: parts of the state and registers, at every die and entry; with `any`, every register. -/
structure Touch where
  parts : List Part := []
  regs  : List Reg := []
  any   : Bool := false
deriving DecidableEq, Repr

/-- From `s` to `t` only the footprint changed. The queue never changes; free values are only taken and what has left the
module stays; memory keeps its canonical form, and the register file lists no place twice. -/
structure Frame (K : Touch) (s t : State) : Prop where
  pending  : t.pending = s.pending
  fresh    : s.fresh ≤ t.fresh
  out      : s.out <+: t.out
  wf       : Memory.wf s.mem = true → Memory.wf t.mem = true
  distinct : Regs.distinct s.regs → Regs.distinct t.regs
  parts    : ∀ p, p ∉ K.parts → p.same s t
  words    : K.any = false → ∀ r d i, r ∉ K.regs → t.word r d i = s.word r d i

/-! ### What a command completes with -/

/-- From `s` to `t` no register bit changed but those of the fields listed, each at a die and an entry. -/
def KeepsBut (fields : List (Fld × Nat × Nat)) (s t : State) : Prop :=
  ∀ (r : Reg) (die idx k : Nat),
    (∀ x ∈ fields, x.1.reg.place x.2.1 x.2.2 = r.place die idx → k < x.1.lo ∨ x.1.lo + x.1.len ≤ k) →
      (t.word r die idx).getLsbD k = (s.word r die idx).getLsbD k

/-- The command answers a next state that holds `post` and in which the queue, every part of the state but `parts`, and every
register bit but those of `fields` are as they were. -/
def Completes (c : Instr) (s : State) (parts : List Part) (fields : List (Fld × Nat × Nat)) (post : State → Prop) : Prop :=
  ∃ t, exec c s = .next t ∧ t.pending = s.pending ∧ (∀ p, p ∉ parts → p.same s t) ∧ KeepsBut fields s t ∧ post t

/-! ### Registers -/

/-- Registers whose writes follow rules beside the access codes of their fields: they perform an action, or their own rule says
when a write is discarded or what it leaves (R81, R117, R118, R212, R242, R353, R352, R384, R385, R410, R417, R419, R421, R440,
R442, R446, R450, R454, R459, R474, R491, R493, R522, R554, R582, R589, R594 to R597, R609, R625, R633). -/
def ruledRegs : List Reg :=
  [.SCH_CTRL, .SCH_IMAGE_BASE, .SYN_OBJ_CFG, .SYN_OBJ_LINK, .SYN_JOB, .VSE_GEN_STATE, .RDX_TAG_BASE, .FLT_QBASE, .VLK_PORT_CFG,
   .VRT_BANK, .VRT_BCAST, .VRT_ROUTE, .HCX_RWIN, .LDG_BASE, .XLT_INVAL, .UPD_VERIFY_KEY, .UPD_REWIND, .LDG_ATTACH, .VLK_CTRL,
   .BDI_CTRL, .VRT_CTRL, .XLT_RESP, .FLT_RESUME, .FLT_WADI_RELEASE, .FLT_RECOVERY, .SYN_OBJ_SIGNAL, .QCX_DOORBELL, .QCX_QCTL] ++
  [.SEC_START, .SEC_FUSE_CMD, .SEC_ATTEST, .SEC_FLASH, .PWR_CTRL]

/-- The offset of a register's entry in its block instance (R58 and the blocks' register tables). -/
def Reg.entryOffset (r : Reg) (e : Nat) : Nat :=
  match r with
  | .MXA_STAT | .MXW_STAT => 0x100 + e / 22 * 0x100 + e % 22 * 8
  | .SYN_OBJ_WAITER => 0x1000 + e / 16 * 0x100 + 0x40 + e % 16 * 8
  | r => r.info.off + e * r.info.stride

/-- Whether a die's window holds a register, and entry `idx` of it: the entries of all its block instances are numbered in
one row, but for BDI_CAPS_OWN, which every instance shows alike. -/
def Reg.standsAt (r : Reg) (die idx : Nat) : Bool :=
  let b := r.info.blk
  b.present die &&
    (if b.instanced && r != .BDI_CAPS_OWN then
       decide (idx / r.info.count < b.instances die) && (r.info.home.isNone || decide (idx < r.info.count))
     else decide (idx < r.info.count))

/-- The local address of a register's entry in a die's window (R55 to R58). -/
def Reg.address (r : Reg) (die idx : Nat) : Nat :=
  let b := r.info.blk
  let inst := if b.instanced && r != .BDI_CAPS_OWN then idx / r.info.count else 0
  0x0300_0000_0000 + die * 0x100_0000 + b.offset + inst * 0x1_0000 +
    r.entryOffset (if r == .BDI_CAPS_OWN then idx else if b.instanced then idx % r.info.count else idx)

/-! ### Footprints that many commands share -/

/-- Registers that count the writes of the memory system (R284, R285). -/
def storeRegs : List Reg := [.HBC_WR_SECTORS, .OAS_HITS, .OAS_MISSES, .OAS_WRITEBACKS]

/-- Parts that a write of memory touches. -/
def storeParts : List Part := [.fresh, .mem, .hbm, .oasis]

/-- Registers that the making and the collecting of a fault record touch (R442 to R446, R541 to R550). -/
def recordRegs : List Reg :=
  storeRegs ++ [.FLT_DIE_HEALTH, .FLT_EVENTS, .FLT_HABOOB, .FLT_QPTR, .FLT_RATE, .FLT_STATUS, .FLT_UNPLACED]

/-- Parts that a fault record touches: beside memory the units of a die that it fences, and the packets that tell of it. -/
def recordParts : List Part := storeParts ++ [.sched, .vrt, .flt, .fatal]

/-- Registers that a read of memory touches: sectors read, errors found, and their records (R263 to R266, R284). -/
def readRegs : List Reg := recordRegs ++ [.HBC_COUNTS, .HBC_EVENTS, .HBC_RD_SECTORS, .HBC_UE_ADDR]

/-- Registers that a unit's accesses touch. -/
def accessRegs : List Reg := readRegs ++ [.VRT_EVENTS]

/-- Parts that a unit's accesses touch. -/
def accessParts : List Part := recordParts ++ [.out, .rem, .xlt, .pci]

/-- The registers that error statuses of operations are recorded in. -/
def errorRegs : List Reg :=
  [.MXA_EVENTS, .MXA_ERROR, .MXW_EVENTS, .MXW_ERROR, .VSE_EVENTS, .VSE_ERROR, .VSC_EVENTS, .VSC_ERROR, .CDC_EVENTS,
   .CDC_ERROR, .UPD_EVENTS, .UPD_ERROR, .SYN_EVENTS, .SYN_ERROR, .RDX_EVENTS, .RDX_ERROR]

/-- Registers of the ledger's collector (R624). -/
def ledgerRegs : List Reg := storeRegs ++ [.LDG_DROPPED, .LDG_EVENTS, .LDG_PTR]

/-- Registers that a schedule break and its abort touch (R101 to R105, R462 to R465). -/
def abortRegs : List Reg :=
  recordRegs ++ ledgerRegs ++ [.SCH_BREAK, .SCH_BREAK_TICK, .SCH_CTRL, .SCH_EPOCH, .SCH_EVENTS, .SYN_OBJ_VALUE, .SYN_STATUS,
    .RDX_STRAY, .CDC_EVENTS, .CDC_PENDING, .UPD_STATUS, .VRT_BANK]

/-- Parts that an abort touches. -/
def abortParts : List Part := recordParts ++ [.ldg, .syn, .rdx, .codec, .fsel, .upd]

/-- Every part of the state. -/
def everyPart : List Part := [.fresh, .out, .mem, .power, .tick, .sched, .arrays, .codec, .hbm, .oasis, .fsel, .upd, .rdx, .vrt, .rem, .xlt, .flt,
   .fatal, .syn, .coh, .imsic, .qcx, .pci, .bdi, .sec, .ldg]

/-- Every part that goes with the module's power: all but what has left the module and the count of free values. -/
def powerParts : List Part := [.mem, .power, .tick, .sched, .arrays, .codec, .hbm, .oasis, .fsel, .upd, .rdx, .vrt, .rem, .xlt, .flt,
   .fatal, .syn, .coh, .imsic, .qcx, .pci, .bdi, .sec, .ldg]

/-- A footprint with that of the halt that a newly fatal die brings (R550, R107). -/
def Touch.halts (k : Touch) : Touch :=
  { k with parts := k.parts ++ abortParts, regs := k.regs ++ abortRegs ++ errorRegs ++ [Reg.FLT_RECOVERY] }

/-- What a command may change, by its rules: of the module's registers those it names, the status, event and error registers
its rules record in, and, where it reads or writes memory or makes a fault record, what these touch. -/
def commandTouch : Instr → Touch
  | .registerWrite .. | .memPartialWrite .. | .nop .. | .copy .. | .writeInline .. | .fill .. | .queueSignal .. |
  .commandComplete .. =>
    Touch.halts ⟨everyPart, [], true⟩
  | .clearCounts .. =>
    ⟨[], [], true⟩
  | .tick .. =>
    Touch.halts ⟨abortParts ++ [Part.out, Part.tick, Part.bdi], abortRegs ++ readRegs ++ [Reg.SCH_REPLAY,
      Reg.SCH_SLIP_COUNT, Reg.SCH_STEP, Reg.SEC_START, Reg.TCK_COUNT, Reg.TCK_EVENTS, Reg.TCK_STATUS, Reg.UPD_COUNTS,
      Reg.UPD_EVENTS, Reg.UPD_LOSS, Reg.UPD_UNUM, Reg.VRT_POP], false⟩
  | .tickMark .. =>
    Touch.halts ⟨abortParts ++ [Part.tick], abortRegs ++ [Reg.SEC_START, Reg.TCK_COUNT, Reg.TCK_EVENTS,
      Reg.TCK_STATUS], false⟩
  | .holdover =>
    ⟨[.tick], [.TCK_EVENTS, .TCK_STATUS], false⟩
  | .tickLost =>
    Touch.halts ⟨abortParts ++ [Part.tick], abortRegs ++ [Reg.FLT_RECOVERY, Reg.TCK_EVENTS, Reg.TCK_STATUS], false⟩
  | .masterSwitch | .partnerMasterSwitch =>
    ⟨[.tick], [.SEC_START, .TCK_EVENTS, .TCK_STATUS], false⟩
  | .tickIoEdge .. =>
    ⟨[.tick], [], false⟩
  | .schRun =>
    Touch.halts ⟨abortParts ++ [Part.arrays, Part.rem], abortRegs ++ accessRegs ++ [Reg.CDC_HIST, Reg.FLT_RECOVERY,
      Reg.LDG_CAIRN_STATUS, Reg.SCH_CHANNEL, Reg.SCH_IMAGE_BASE, Reg.SCH_IMAGE_ERROR, Reg.SCH_REPLAY,
      Reg.SCH_SLIP_COUNT, Reg.SCH_STEP, Reg.SYN_EVENTS, Reg.SYN_LATE, Reg.SYN_OBJ_LAST, Reg.SYN_OBJ_LAST_TICK,
      Reg.SYN_STRAY, Reg.UPD_COUNTS, Reg.UPD_EVENTS, Reg.UPD_LOSS, Reg.UPD_UNUM, Reg.VSC_VREG, Reg.VSE_GEN_STATE],
      false⟩
  | .schStop | .flush .. =>
    ⟨[.sched], [], false⟩
  | .schAbort | .slipBreak .. =>
    Touch.halts ⟨abortParts, abortRegs, false⟩
  | .operationStart .. =>
    Touch.halts ⟨abortParts, abortRegs ++ errorRegs ++ [Reg.SCH_CHANNEL, Reg.SCH_MIRAGE_DISCARDS], false⟩
  | .operationComplete .. =>
    Touch.halts ⟨abortParts, abortRegs ++ readRegs ++ [Reg.SCH_CHANNEL, Reg.SCH_REPLAY, Reg.SCH_SLIP_COUNT,
      Reg.SCH_STEP, Reg.UPD_COUNTS, Reg.UPD_EVENTS, Reg.UPD_LOSS, Reg.UPD_UNUM], false⟩
  | .synToken .. | .synCredit .. =>
    ⟨[.sched], [.SCH_CHANNEL], false⟩
  | .noOperation .. =>
    Touch.halts ⟨abortParts, abortRegs ++ readRegs ++ [Reg.SCH_REPLAY, Reg.SCH_SLIP_COUNT, Reg.SCH_STEP,
      Reg.UPD_COUNTS, Reg.UPD_EVENTS, Reg.UPD_LOSS, Reg.UPD_UNUM], false⟩
  | .stepStart =>
    Touch.halts ⟨abortParts ++ [Part.arrays, Part.rem], abortRegs ++ accessRegs ++ [Reg.CDC_HIST, Reg.LDG_CAIRN_STATUS,
      Reg.SCH_CHANNEL, Reg.SCH_IMAGE_ERROR, Reg.SCH_REPLAY, Reg.SCH_SLIP_COUNT, Reg.SCH_STEP, Reg.SYN_EVENTS,
      Reg.SYN_LATE, Reg.SYN_OBJ_LAST, Reg.SYN_OBJ_LAST_TICK, Reg.SYN_STRAY, Reg.UPD_COUNTS, Reg.UPD_EVENTS,
      Reg.UPD_LOSS, Reg.UPD_UNUM, Reg.VSC_VREG], false⟩
  | .replayWaitEntry =>
    ⟨[.sched], [.FLT_RECOVERY, .SCH_CTRL, .SCH_EVENTS], false⟩
  | .replayStart =>
    Touch.halts ⟨abortParts ++ [Part.arrays, Part.rem], abortRegs ++ accessRegs ++ [Reg.CDC_HIST, Reg.FLT_RECOVERY,
      Reg.LDG_CAIRN_STATUS, Reg.SCH_BASE_TICK, Reg.SCH_CHANNEL, Reg.SCH_IMAGE_BASE, Reg.SCH_IMAGE_ERROR,
      Reg.SCH_REPLAY, Reg.SCH_SLIP_COUNT, Reg.SCH_STEP, Reg.SYN_EVENTS, Reg.SYN_LATE, Reg.SYN_OBJ_LAST,
      Reg.SYN_OBJ_LAST_TICK, Reg.SYN_STRAY, Reg.UPD_COUNTS, Reg.UPD_EVENTS, Reg.UPD_LOSS, Reg.UPD_UNUM, Reg.VSC_VREG,
      Reg.VSE_GEN_STATE], false⟩
  | .haltEntry =>
    ⟨[.sched], [.SCH_CTRL], false⟩
  | .ldx .. | .stf .. =>
    Touch.halts ⟨accessParts ++ [Part.arrays], accessRegs ++ errorRegs ++ [Reg.XLT_COUNTS], false⟩
  | .mma .. =>
    Touch.halts ⟨accessParts ++ [Part.arrays], accessRegs ++ errorRegs ++ [Reg.MXA_BUSY, Reg.MXA_COUNTS, Reg.MXA_MACS,
      Reg.MXW_BUSY, Reg.MXW_MACS, Reg.XLT_COUNTS], false⟩
  | .out .. =>
    Touch.halts ⟨accessParts ++ [Part.arrays, Part.rdx], accessRegs ++ errorRegs ++ [Reg.HBC_AW_SECTORS,
      Reg.MXA_COUNTS, Reg.RDX_CHECK_FAIL, Reg.RDX_CHECK_VALUES, Reg.RDX_COUNTS, Reg.RDX_LATE, Reg.RDX_SAMPLED,
      Reg.VSE_GEN_STATE, Reg.XLT_COUNTS], false⟩
  | .psend .. | .slice .. | .move .. | .xpose .. | .cscale .. =>
    Touch.halts ⟨accessParts, accessRegs ++ errorRegs ++ [Reg.XLT_COUNTS], false⟩
  | .padd .. =>
    Touch.halts ⟨accessParts ++ [Part.arrays], accessRegs ++ errorRegs ++ [Reg.MXA_COUNTS, Reg.XLT_COUNTS], false⟩
  | .ew .. | .cvt .. | .scan .. | .reduce .. | .dgrad .. | .rand .. =>
    Touch.halts ⟨accessParts, accessRegs ++ errorRegs ++ [Reg.VSE_GEN_STATE, Reg.XLT_COUNTS], false⟩
  | .chain .. =>
    Touch.halts ⟨accessParts, accessRegs ++ errorRegs ++ [Reg.VSC_VREG, Reg.VSE_GEN_STATE, Reg.XLT_COUNTS], false⟩
  | .genStateWrite .. =>
    ⟨[], [.VSE_EVENTS, .VSE_GEN_STATE], false⟩
  | .code .. =>
    Touch.halts ⟨accessParts ++ [Part.codec], accessRegs ++ errorRegs ++ [Reg.CDC_BLOCKS, Reg.CDC_HIST,
      Reg.XLT_COUNTS], false⟩
  | .decode .. =>
    Touch.halts ⟨accessParts ++ [Part.codec], accessRegs ++ errorRegs ++ [Reg.CDC_BYTES_IN, Reg.CDC_BYTES_OUT,
      Reg.CDC_STALL, Reg.XLT_COUNTS], false⟩
  | .hstore .. =>
    Touch.halts ⟨accessParts, accessRegs ++ errorRegs ++ [Reg.CDC_HIST, Reg.XLT_COUNTS], false⟩
  | .build .. =>
    Touch.halts ⟨accessParts ++ [Part.codec], accessRegs ++ errorRegs ++ [Reg.CDC_PENDING, Reg.XLT_COUNTS], false⟩
  | .codecInputTimeout .. =>
    Touch.halts ⟨recordParts ++ [Part.codec, Part.rem], recordRegs ++ errorRegs, false⟩
  | .codecLateSector .. =>
    ⟨[.codec], [.CDC_LATE], false⟩
  | .memRead .. =>
    Touch.halts ⟨recordParts ++ [Part.out, Part.rem, Part.pci], accessRegs ++ [Reg.HCX_EVENTS, Reg.OAS_COUNTS,
      Reg.OAS_EVENTS], false⟩
  | .memWrite .. =>
    Touch.halts ⟨recordParts ++ [Part.out, Part.rem, Part.pci], recordRegs ++ [Reg.HCX_EVENTS, Reg.VRT_EVENTS], false⟩
  | .accumulateWrite .. =>
    Touch.halts ⟨recordParts ++ [Part.out], recordRegs ++ [Reg.HBC_AW_SECTORS, Reg.HBC_COUNTS, Reg.HBC_EVENTS,
      Reg.HBC_UE_ADDR, Reg.OAS_COUNTS, Reg.OAS_EVENTS], false⟩
  | .partialSums .. =>
    ⟨storeParts, storeRegs, false⟩
  | .readResponse .. =>
    Touch.halts ⟨recordParts ++ [Part.out, Part.rem], recordRegs ++ [Reg.HCX_EVENTS], false⟩
  | .writePerformed .. =>
    Touch.halts ⟨recordParts ++ [Part.out, Part.rem, Part.qcx], recordRegs ++ errorRegs ++ [Reg.HCX_EVENTS], false⟩
  | .patrolScrubStep .. =>
    Touch.halts ⟨recordParts, recordRegs ++ [Reg.HBC_COUNTS, Reg.HBC_EVENTS, Reg.HBC_UE_ADDR, Reg.OAS_COUNTS,
      Reg.OAS_EVENTS], false⟩
  | .fsel .. =>
    Touch.halts ⟨accessParts ++ [Part.fsel], accessRegs ++ errorRegs ++ [Reg.XLT_COUNTS], false⟩
  | .rbank .. =>
    Touch.halts ⟨accessParts, accessRegs ++ errorRegs ++ [Reg.VRT_ARM_TICK, Reg.VRT_BANK, Reg.XLT_COUNTS], false⟩
  | .bankSwitch .. =>
    ⟨[], [.SEC_START, .VRT_BANK], false⟩
  | .nchk .. =>
    Touch.halts ⟨accessParts, accessRegs ++ errorRegs ++ [Reg.UPD_NORM, Reg.UPD_STATUS, Reg.XLT_COUNTS], false⟩
  | .uprun .. =>
    Touch.halts ⟨accessParts, accessRegs ++ errorRegs ++ [Reg.UPD_BLOCKS, Reg.UPD_COUNTS, Reg.VSE_GEN_STATE,
      Reg.XLT_COUNTS], false⟩
  | .commit .. | .updateCommit =>
    Touch.halts ⟨abortParts, abortRegs ++ errorRegs ++ [Reg.FLT_RECOVERY, Reg.UPD_DIVERGE, Reg.UPD_DIVERGE_OWN,
      Reg.UPD_DIVERGE_PEER, Reg.UPD_DIVERGE_STEP], false⟩
  | .digestTimeout =>
    Touch.halts ⟨recordParts ++ [Part.upd], recordRegs ++ errorRegs ++ [Reg.UPD_STATUS], false⟩
  | .digestPacket .. =>
    Touch.halts ⟨abortParts, abortRegs ++ readRegs ++ errorRegs ++ [Reg.FLT_RECOVERY, Reg.UPD_DIVERGE,
      Reg.UPD_DIVERGE_OWN, Reg.UPD_DIVERGE_PEER, Reg.UPD_DIVERGE_STEP, Reg.UPD_STRAY], false⟩
  | .updVerify .. =>
    Touch.halts ⟨recordParts ++ [Part.upd], readRegs ++ [Reg.UPD_STATUS, Reg.UPD_VERIFY_KEY, Reg.UPD_VERIFY_RESULT],
      false⟩
  | .updVerifyDone =>
    ⟨[.upd], [.UPD_STATUS, .UPD_VERIFY_RESULT], false⟩
  | .updRewind .. =>
    Touch.halts ⟨recordParts ++ [Part.upd], readRegs ++ [Reg.UPD_EVENTS, Reg.UPD_REWIND, Reg.UPD_STATUS, Reg.UPD_UNUM],
      false⟩
  | .updRewindDone =>
    ⟨[.upd], [.UPD_STATUS], false⟩
  | .ropen .. | .rsend .. | .allr .. =>
    Touch.halts ⟨accessParts ++ [Part.rdx], accessRegs ++ errorRegs ++ [Reg.HBC_AW_SECTORS, Reg.RDX_CHECK_FAIL,
      Reg.RDX_CHECK_VALUES, Reg.RDX_COUNTS, Reg.RDX_LATE, Reg.RDX_SAMPLED, Reg.XLT_COUNTS], false⟩
  | .reductionPacket .. =>
    Touch.halts ⟨accessParts ++ [Part.rdx], accessRegs ++ errorRegs ++ [Reg.HBC_AW_SECTORS, Reg.RDX_CHECK_FAIL,
      Reg.RDX_CHECK_VALUES, Reg.RDX_COUNTS, Reg.RDX_LATE, Reg.RDX_SAMPLED, Reg.RDX_STRAY, Reg.XLT_COUNTS], false⟩
  | .checkTimeout .. =>
    Touch.halts ⟨recordParts ++ [Part.rdx], readRegs ++ [Reg.RDX_EVENTS], false⟩
  | .vlkFlitReceive .. =>
    Touch.halts ⟨recordParts ++ [Part.out], recordRegs ++ [Reg.VLK_EVENTS, Reg.VLK_FEC, Reg.VLK_REPLAY,
      Reg.VLK_RX_FLITS, Reg.VLK_STATUS, Reg.VLK_TX_FLITS], false⟩
  | .gcmBatchClose .. =>
    ⟨[.out, .vrt], [.VLK_TX_FLITS], false⟩
  | .vlkAckTimeout .. | .laneLockLoss .. | .vlkRetrain .. =>
    Touch.halts ⟨recordParts, recordRegs ++ [Reg.VLK_EVENTS, Reg.VLK_STATUS], false⟩
  | .vlkTrained .. =>
    Touch.halts ⟨recordParts ++ [Part.out], recordRegs ++ [Reg.VLK_DELAY, Reg.VLK_EVENTS, Reg.VLK_REPLAY,
      Reg.VLK_STATUS, Reg.VLK_TX_FLITS], false⟩
  | .vlkHoldExpire .. =>
    Touch.halts ⟨recordParts, recordRegs ++ [Reg.VLK_EVENTS, Reg.VLK_REPLAY], false⟩
  | .peerRoutingUpdate .. =>
    ⟨[], [.VLK_STATUS], false⟩
  | .packetForward .. =>
    ⟨[.fresh, .out, .vrt], [.HBC_EVENTS, .VLK_TX_FLITS, .VRT_COUNTS, .VRT_EVENTS], false⟩
  | .tc0Inject .. =>
    ⟨[.fresh, .out, .sched, .vrt, .qcx], [.HBC_EVENTS, .VLK_TX_FLITS, .VRT_COUNTS, .VRT_EVENTS], false⟩
  | .remoteTimeout .. =>
    ⟨[.rem], [.VRT_EVENTS], false⟩
  | .remoteResponse .. =>
    ⟨[.rem], [.VRT_EVENTS, .VRT_LATE], false⟩
  | .leave .. | .join .. =>
    ⟨[.vrt], [.SEC_START, .VRT_BANK], false⟩
  | .vrtBankWrite .. =>
    ⟨[], [.SEC_START, .VRT_BANK, .VRT_EVENTS], false⟩
  | .routeEntryWrite .. =>
    ⟨[], [.VRT_BCAST, .VRT_EVENTS, .VRT_ROUTE], false⟩
  | .missRecordWrite .. =>
    Touch.halts ⟨recordParts ++ [Part.xlt], readRegs ++ [Reg.XLT_EVENTS, Reg.XLT_MISSQ_PTR], false⟩
  | .xltRespFill .. | .xltRespFault .. | .xltMissTimeout .. =>
    Touch.halts ⟨recordParts ++ [Part.xlt, Part.qcx], recordRegs ++ [Reg.XLT_COUNTS, Reg.XLT_EVENTS], false⟩
  | .xpf .. =>
    Touch.halts ⟨recordParts ++ [Part.xlt], recordRegs ++ errorRegs ++ [Reg.XLT_COUNTS], false⟩
  | .xltInval .. =>
    ⟨[.xlt], [.XLT_COUNTS, .XLT_EVENTS, .XLT_INVAL], false⟩
  | .xltInvalDone .. =>
    ⟨[.xlt], [.XLT_INVAL], false⟩
  | .faultRecord .. =>
    Touch.halts ⟨recordParts, recordRegs, false⟩
  | .fltResumeRetry .. =>
    Touch.halts ⟨recordParts ++ [Part.xlt, Part.qcx], recordRegs ++ [Reg.XLT_COUNTS], false⟩
  | .fltResumeAbort .. =>
    ⟨[.sched, .qcx], errorRegs ++ [Reg.FLT_EVENTS], false⟩
  | .fltWadiRelease .. | .faultRecordCopy .. =>
    ⟨storeParts ++ [Part.sched, Part.flt], storeRegs ++ [Reg.FLT_EVENTS, Reg.FLT_QPTR, Reg.FLT_STATUS,
      Reg.FLT_UNPLACED], false⟩
  | .haboobExit =>
    ⟨storeParts ++ [Part.sched, Part.vrt, Part.flt], storeRegs ++ [Reg.FLT_EVENTS, Reg.FLT_HABOOB, Reg.FLT_QPTR,
      Reg.FLT_STATUS, Reg.FLT_UNPLACED], false⟩
  | .controlParityError .. =>
    Touch.halts ⟨[.flt, .fatal], [.FLT_DIE_HEALTH], false⟩
  | .signal .. =>
    Touch.halts ⟨recordParts ++ [Part.syn], recordRegs ++ errorRegs ++ [Reg.SYN_OBJ_LAST, Reg.SYN_OBJ_LAST_TICK,
      Reg.SYN_OBJ_VALUE, Reg.VRT_EVENTS], false⟩
  | .wait .. | .synWaitTimeout .. =>
    Touch.halts ⟨recordParts ++ [Part.syn], recordRegs ++ errorRegs ++ [Reg.SYN_OBJ_VALUE], false⟩
  | .bar .. =>
    Touch.halts ⟨recordParts ++ [Part.syn], recordRegs ++ errorRegs ++ [Reg.SYN_LATE, Reg.SYN_OBJ_LAST,
      Reg.SYN_OBJ_LAST_TICK, Reg.SYN_OBJ_VALUE, Reg.SYN_STRAY], false⟩
  | .synObjSignal .. =>
    ⟨[.sched, .syn], [.SYN_OBJ_LAST, .SYN_OBJ_LAST_TICK, .SYN_OBJ_VALUE], false⟩
  | .signalPacket .. | .arrive .. | .release .. =>
    ⟨[.sched, .vrt, .syn], [.SYN_EVENTS, .SYN_LATE, .SYN_OBJ_LAST, .SYN_OBJ_LAST_TICK, .SYN_OBJ_VALUE, .SYN_STATUS,
      .SYN_STRAY], false⟩
  | .abort .. | .abortRelease .. =>
    ⟨storeParts ++ [Part.sched, Part.codec, Part.fsel, Part.upd, Part.rdx, Part.vrt, Part.syn, Part.ldg], ledgerRegs ++
      [Reg.CDC_EVENTS, Reg.CDC_PENDING, Reg.RDX_STRAY, Reg.SCH_BREAK, Reg.SCH_BREAK_TICK, Reg.SCH_CTRL, Reg.SCH_EPOCH,
      Reg.SCH_EVENTS, Reg.SYN_EVENTS, Reg.SYN_OBJ_VALUE, Reg.SYN_STATUS, Reg.SYN_STRAY, Reg.UPD_STATUS, Reg.VRT_BANK],
      false⟩
  | .readShared .. | .readUnique .. | .upgrade .. | .clean .. | .cohFlush .. | .invalidate .. =>
    Touch.halts ⟨recordParts ++ [Part.out, Part.coh], recordRegs ++ [Reg.HCX_COUNTS, Reg.HCX_EVENTS,
      Reg.HCX_WB_CANCEL], false⟩
  | .writeBack .. | .snoop .. | .cohResponse .. | .cohData .. | .cohAck .. =>
    ⟨[.coh], [.HCX_COUNTS, .HCX_EVENTS, .HCX_WB_CANCEL], false⟩
  | .cohFwd .. =>
    Touch.halts ⟨recordParts ++ [Part.out, Part.coh], readRegs ++ [Reg.HCX_COUNTS, Reg.HCX_EVENTS, Reg.HCX_WB_CANCEL],
      false⟩
  | .hcxRwinWrite .. =>
    ⟨[], [.HCX_RWIN], false⟩
  | .submissionDoorbell .. | .completionDoorbell .. =>
    ⟨storeParts ++ [Part.qcx], storeRegs ++ [Reg.QCX_COUNTS, Reg.QCX_EVENTS], false⟩
  | .qctlEnable .. | .qctlDisable .. | .qctlSync .. =>
    Touch.halts ⟨recordParts ++ [Part.qcx], readRegs ++ [Reg.QCX_EVENTS, Reg.QCX_QCTL], false⟩
  | .qctlDisableDone .. =>
    ⟨storeParts ++ [Part.qcx], storeRegs ++ [Reg.QCX_QCTL], false⟩
  | .contextFetch .. | .entryFetchReturn .. =>
    Touch.halts ⟨recordParts ++ [Part.qcx], readRegs ++ [Reg.QCX_COUNTS, Reg.QCX_EVENTS], false⟩
  | .refetchIssue .. =>
    ⟨[.qcx], [], false⟩
  | .pcieInboundRequest .. | .pcieMsiWrite .. =>
    Touch.halts ⟨recordParts ++ [Part.out, Part.imsic], readRegs ++ [Reg.PCI_COUNTS, Reg.PCI_EVENTS], false⟩
  | .pcieLinkUp .. =>
    ⟨[], [.PCI_STATUS], false⟩
  | .pcieLinkDown .. =>
    ⟨[.out, .rem, .pci], [.PCI_EVENTS, .PCI_STATUS], false⟩
  | .bdiTraining .. =>
    Touch.halts ⟨recordParts ++ [Part.out, Part.bdi], recordRegs ++ [Reg.BDI_EVENTS, Reg.BDI_REPAIR, Reg.BDI_STATUS],
      false⟩
  | .bdiTrainTimeout .. | .bdiDescriptor .. | .bdiHoldExpire .. =>
    Touch.halts ⟨recordParts ++ [Part.out, Part.bdi], recordRegs ++ [Reg.BDI_EVENTS, Reg.BDI_STATUS], false⟩
  | .bdiFlitReceive .. =>
    Touch.halts ⟨recordParts ++ [Part.out, Part.bdi], recordRegs ++ [Reg.BDI_COUNTS, Reg.BDI_EVENTS, Reg.BDI_STATUS],
      false⟩
  | .bdiAckTimeout .. | .bdiRetrainRequest .. | .bdiRetrain .. =>
    Touch.halts ⟨recordParts ++ [Part.bdi], recordRegs ++ [Reg.BDI_EVENTS, Reg.BDI_STATUS], false⟩
  | .bdiTickFlit .. =>
    Touch.halts ⟨recordParts ++ [Part.tick, Part.bdi], recordRegs ++ [Reg.BDI_COUNTS, Reg.BDI_EVENTS, Reg.BDI_STATUS],
      false⟩
  | .interrupt .. =>
    ⟨[.imsic], [], false⟩
  | .ledgerRecord .. =>
    ⟨storeParts ++ [Part.ldg], ledgerRegs, false⟩
  | .fltRecoveryRestore =>
    ⟨[], [.FLT_RECOVERY], false⟩
  | .ldgAttachWrite .. =>
    ⟨[], [.LDG_ATTACH, .LDG_EVENTS], false⟩
  | .powerOn .. | .drainComplete .. | .restart | .restartRailsOn .. | .powerEnFall | .inputRangeTimeout |
  .powerFault .. | .thermalTrip .. =>
    Touch.halts ⟨powerParts, [], true⟩
  | .startComplete =>
    ⟨[.out, .mem, .power, .imsic], [.HCX_STATUS, .PWR_EVENTS, .PWR_STATUS, .SEC_START], false⟩
  | .secReady =>
    ⟨[], [.SEC_START], false⟩
  | .retire .. | .revoke .. | .epoch .. =>
    ⟨[.sec], [.SEC_FUSE_STATUS], false⟩
  | .attest .. =>
    ⟨[.sec], [.SEC_ATTEST, .SEC_EVENTS], false⟩
  | .attestDone =>
    Touch.halts ⟨recordParts ++ [Part.sec], readRegs ++ [Reg.SEC_ATTEST], false⟩
  | .flashProgram .. =>
    ⟨[.sec], [.SEC_FLASH], false⟩
  | .flashProgramDone .. =>
    Touch.halts ⟨recordParts ++ [Part.sec], readRegs ++ [Reg.SEC_FLASH], false⟩
  | .mgmtGetStatus =>
    ⟨[.out], [], false⟩
  | .mgmtDrain =>
    ⟨[.out, .power, .imsic], [.PWR_EVENTS, .PWR_STATUS], false⟩
  | .mgmtDrainCancel =>
    ⟨[.out, .power], [.PWR_STATUS], false⟩
  | .mgmtRestart =>
    Touch.halts ⟨powerParts ++ [Part.out], [], true⟩
  | .mgmtAttest .. =>
    ⟨[.out, .sec], [.SEC_ATTEST], false⟩
  | .mgmtFuse .. =>
    ⟨[.out, .sec], [.SEC_FUSE_STATUS], false⟩
  | .park =>
    ⟨[.power], [.PWR_EVENTS, .PWR_STATUS], false⟩
  | .unpark | .drainCancel =>
    ⟨[.power], [.PWR_STATUS], false⟩
  | .drain | .attnRequest =>
    ⟨[.power, .imsic], [.PWR_EVENTS, .PWR_STATUS], false⟩
  | .powerOff =>
    ⟨[.power, .vrt], [.PWR_EVENTS, .SEC_START, .VRT_BANK], false⟩
  | .inputRange .. =>
    ⟨[.power], [.PWR_EVENTS, .PWR_SENSE], false⟩
  | .thermalWarn .. =>
    ⟨[], [.PWR_EVENTS, .PWR_SENSE], false⟩
  | .railFault .. =>
    Touch.halts ⟨[.flt, .fatal], [.FLT_DIE_HEALTH, .PWR_EVENTS, .PWR_RAIL], false⟩
  | .fuseCommandDone .. =>
    ⟨[.sec], [.SEC_FUSE_STATUS, .SEC_RETIRED0, .SEC_RETIRED1], false⟩
  | .rowRemapDone .. =>
    Touch.halts ⟨recordParts, recordRegs ++ [Reg.HBC_COUNTS, Reg.HBC_EVENTS, Reg.HBC_REPAIR_LOG, Reg.HBC_SPARES,
      Reg.HBC_UE_ADDR], false⟩
  | .hbmRefreshDouble .. =>
    ⟨[.hbm], [], false⟩
  | .aerErrorReport .. =>
    ⟨[], [.PCI_COUNTS, .PCI_EVENTS], false⟩
  | .pcieCompletion .. =>
    ⟨[.out, .rem, .pci], [], false⟩

/-! ### Words of the statements -/

/-- Records that arise now fence no die: haboob mode is off and its threshold is more than eight records away (R544, R548). -/
abbrev State.calm (s : State) : Prop :=
  s.on F.FLT_HABOOB.ACTIVE = false ∧ s.get F.FLT_RATE.CURRENT + 8 ≤ s.get F.FLT_HABOOB.ENTER

/-- The stored sectors of the granules that a span touches hold no error: none in the HBM code, no host or SRAM sector that
reads uncorrectable. -/
def State.soundSpan (s : State) (a n : Nat) : Prop :=
  ∀ k, a / 256 * 4 ≤ k → k < (a + n + 255) / 256 * 4 →
    lookupKey k s.hbm.flips = none ∧ k ∉ s.hbm.hostBad ∧ k ∉ s.oasis.failed

/-- The schedule runs a step that has not ended and in which no break is recorded yet. -/
abbrev State.inStep (s : State) : Prop := s.sched.st = .running ∧ s.sched.stepEnded = false ∧ s.sched.broken = false

/-- From `s` to `t` the step was aborted (R102, R104, R105, R242, R318, R381, R456, R461): every die's epoch counts on, and
what the step had open is empty. -/
structure State.Aborted (s t : State) : Prop where
  state   : t.sched.st = .aborting
  epoch   : ∀ d ∈ schedDies, t.get F.SCH_EPOCH.VALUE d = min (s.get F.SCH_EPOCH.VALUE d + 1) (2 ^ 32 - 1)
  items   : t.sched.items = [] ∧ t.sched.mesh = [] ∧ t.sched.tokens = []
  waiters : t.syn.waiters = [] ∧ t.syn.hold = []
  tags    : t.rdx.tags = [] ∧ t.rdx.hold = []
  tables  : t.codec.pending = [] ∧ t.codec.cached = []
  formats : t.fsel.pending = []
  commit  : t.upd.commitTick = none ∧ t.on F.UPD_STATUS.COMMIT_WAIT = false
  armed   : ∀ d ∈ [72, 73, 74, 75], t.on F.VRT_BANK.ARMED d = false
  units   : ∀ p ∈ t.sched.units, p.2.stopped = true ∧ p.2.stall = none ∧ ∀ o ∈ p.2.ops, o.cut = true

/-- SCH_BREAK and SCH_BREAK_TICK hold a break of the module's own (R103). -/
structure State.BreakIs (s t : State) (cause unit segment tick : Nat) : Prop where
  cause   : t.get F.SCH_BREAK.CAUSE = cause
  unit    : t.get F.SCH_BREAK.UNIT = unit
  segment : t.get F.SCH_BREAK.SEGMENT = segment % 2 ^ 24
  erg     : t.get F.SCH_BREAK.ERG = s.erg
  module  : t.get F.SCH_BREAK.MODULE = s.moduleNo
  tick    : t.get F.SCH_BREAK_TICK.TICK = tick
  event   : t.on F.SCH_EVENTS.BREAK_LOCAL = true

/-- The operation that an engine command performs, and the state in which it starts: one that needs an unstated immediate has
taken a free value first (log entry 17). -/
def taskOf (s : State) : Instr → Option (State × Task)
  | .ldx u p => some (s, ldxTask u p)
  | .mma u p => some (s, mmaTask u p)
  | .out u p => some (s, outTask u p)
  | .psend u p => some (s, psendTask u p)
  | .padd u p => some (s, paddTask u p)
  | .stf u p => some (s, stfTask u p)
  | .ew die p => some (s, ewTask die p)
  | .cvt die p => some (s.took 1, cvtTask die p s.free)
  | .scan die p => some (s, scanTask die p)
  | .reduce die p => some (s, reduceTask die p)
  | .dgrad die p => some (s, dgradTask die p)
  | .rand die p => some (s, randTask die p)
  | .slice die p => some (s, sliceTask die p)
  | .chain die p => some (s, chainTask die p)
  | .code u p => some (s, codeTask u p)
  | .decode u p => some (s, decodeTask u p)
  | .hstore u p => some (s, hstoreTask u p)
  | .build u p => some (s, buildTask u p)
  | .fsel die p => some (s, fselTask die p)
  | .move u p => some (s, moveTask u p)
  | .xpose u p => some (s, xposeTask u p)
  | .rbank die p => some (s, rbankTask die p)
  | .nchk die p => some (s, nchkTask die p)
  | .uprun die p => some (s, uprunTask die p (pay p 14 4))
  | .cscale die p => some (s, cscaleTask die p)
  | .rsend u p => some (s, rsendTask u p)
  | _ => none

/-- An operation that stands ready in its unit is performed in one go: the unit is free and the operation is the next of its
kind, its payload is one the spec allows, every access is translated and allowed, and no access fails or waits. From `s` its
reads give `a`, its computation `b` and the writes `ws`, and the writes `e`. -/
structure State.Performs (s : State) (t : Task) (k : Nat) (a b : State) (ws : List (Nat × Bytes)) (e : State) : Prop where
  free       : s.unitFree t.unit = true
  found      : s.findOp t.unit t.cls t.payload = some k
  op         : (s.opAt t.unit k).state = .started ∧ (s.opAt t.unit k).ahead = false ∧ (s.opAt t.unit k).cut = false
  alone      : t.draws s = true → s.otherDraws t.unit = false
  order      : t.order s k = true
  check      : t.check s = none
  ready      : t.ready s = true
  translated : s.firstTrouble t.unit s.asidOf (accessesOf ((t.plan s).reads ++ (t.plan s).also ++
    (t.plan s).writes.map fun w => { w with write := true })) = none
  near       : (accessesOf (t.plan s).near).all (fun x => s.nearPiece (unitDie t.unit) s.asidOf (t.plan s).anyTile x) = true
  place      : (t.plan s).place s = none
  reads      : let tagged := s.onOp t.unit k fun o => { o with tag := s.get F.SCH_EPOCH.VALUE (unitDie t.unit) }
    let r := tagged.readAll t.unit (unitDie t.unit) s.asidOf (accessesOf (t.plan s).reads)
    r.failed = none ∧ r.pending = [] ∧ r.state = a
  body       : (t.plan s).body a = (b, .writes ws)
  writes     : let w := b.writeAll t.unit (unitDie t.unit) s.asidOf ws
    w.failed = none ∧ w.pending = [] ∧ w.state = e
  standing   : k < (e.unit t.unit).ops.length
  quiet      : e.flt.fatal = []

/-- The state of an operation that has been performed: it is done, and beside the operations in flight and the remote data
that its unit held the module stands as its writes left it. -/
structure State.Performed (e t : State) (u k : Nat) : Prop where
  done  : (t.opAt u k).state = .done
  regs  : t.regs = e.regs
  parts : ∀ p : Part, p ≠ .sched → p ≠ .rem → p.same e t
  queue : t.pending = e.pending

/-- The virtual span of a unit stands at one place of this module's HBM or host memory, whose sectors are sound: every
translation of an address of it gives that place. -/
structure State.SpanAt (s : State) (u asid va n a : Nat) : Prop where
  maps    : ∀ i, i < n → ∀ e ∈ s.xlt.entries, e.die = unitDie u → e.asid = asid → e.page = (va + i) >>> e.size →
    e.frame + (va + i) % 2 ^ e.size = s.fabricAddr a + i
  align   : va % 256 = a % 256
  storage : region a = .hbm ∨ region a = .host
  backed  : s.backedSpan a n = true
  sound   : s.soundSpan a n

/-- A queue command that its engine serves and whose translations stand: it has started, is not stalled and has no STATUS. -/
structure State.Serves (s : State) (d : Cmd) (q c opcode : Nat) : Prop where
  found   : s.cmdOf q c = some d
  op      : d.opcode = opcode
  started : d.started = true
  free    : d.status = none ∧ d.posted = false ∧ d.stall = none
  ready   : s.firstTrouble d.engine (s.ctxField q ctxAsid % 4096) (accessesOf d.spans) = none
  fresh   : ∀ x ∈ s.rem.issued, x.1.1 ≠ d.engine

end Sys2Proof.Machine
end

