-- ==== Sys2Proof/Certificates/Slice0/Obligations.lean ====
section
/-! DEFINITION. The statements about the module, for the provers. -/

open Sys2Proof Sys2Proof.Machine

/-! ### The block as a whole -/

/-- A step takes the command at the front of the queue and runs it with the rest of the queue; on an empty queue the module
idles (a choice of the model, log entry 5). -/
def Obligations.StepRunsTheFrontCommand : Prop :=
  ∀ (s : State) (c : Instr) (rest : List Instr),
    (s.pending = c :: rest → step s = exec c { s with pending := rest }) ∧ (s.pending = [] → step s = .next s)

/-- The state after reset holds the invariant: memory in its canonical form, no register place listed twice, no halt owed. -/
def Obligations.ResetHoldsTheInvariant : Prop :=
  State.reset.Inv

/-- Every step from a state that holds the invariant ends in one that holds it. -/
def Obligations.EveryStepKeepsTheInvariant : Prop :=
  ∀ s t : State, s.Inv → step s = .next t → t.Inv

/-- Every command changes its footprint alone: the queue, every part of the state and every register outside it are as they
were, what had left the module stands, and free values are only taken. -/
def Obligations.CommandsChangeOnlyTheirFootprint : Prop :=
  ∀ (c : Instr) (s t : State), s.flt.fatal = [] → exec c s = .next t → Frame (commandTouch c) s t

/-- A command that names places the module has answers a next state, in every state; one that does not is refused, and by that
name; no command faults. With every rail off only the edges of PWR_EN and the end of a restart act (R600, R606); after a
start that failed, only the input and the temperature, the security block, the management endpoint and the registers do
(R590). What else arrives changes nothing (the model's reading, log entry 44). -/
def Obligations.EveryCommandAnswers : Prop :=
  (∀ (c : Instr) (s : State),
     (c.wf = true → ∃ t, exec c s = .next t) ∧ (c.wf = false → exec c s = .refused .illFormed) ∧ ∀ f, exec c s ≠ .fault f) ∧
  (∀ (c : Instr) (s : State), c.wf = true →
     (s.power.mode = .off → wakes c = false → exec c s = .next s) ∧
     (s.power.mode ≠ .off → s.on F.SEC_START.FAILED = true → reachesFailed c = false → exec c s = .next s))

/-- Reset leaves every field of every register at the value of the Reset column, with bits in no field 0, the ports of the
fabric dies as R384 and R395 give them, memory all 0 and nothing in flight. (Reset values that the spec does not give are
the model's, log entry 2; an unlisted byte reads 0, log entry 3.) -/
def Obligations.ResetLeavesTheResetColumn : Prop :=
  (∀ (r : Reg) (die idx : Nat), r ≠ .VLK_PORT_CFG → r ≠ .VLK_CREDIT → r ≠ .SEC_SERIAL → r ≠ .SEC_CERT →
    (∀ f ∈ r.info.fields, State.reset.get ⟨r, f.lo, f.len⟩ die idx = f.reset % 2 ^ f.len) ∧
    ∀ k, (∀ f ∈ r.info.fields, k < f.lo ∨ f.lo + f.len ≤ k) → (State.reset.word r die idx).getLsbD k = false) ∧
  (∀ die inst, State.reset.on F.VLK_PORT_CFG.ENABLE die inst = true ∧
    State.reset.get F.VLK_PORT_CFG.ROLE die inst = (if 2 ≤ inst then 1 else if die = 75 then 2 else 0)) ∧
  (∀ die inst tc vc, tc < 4 → vc < 8 → (State.reset.word .VLK_CREDIT die (32 * inst + 8 * tc + vc)).toNat =
    (if vc < 5 then (match tc with | 0 => 16 | 1 => 128 | 2 => 64 | _ => 16) else if vc = 5 ∧ tc = 2 then 928 else 0)) ∧
  (∀ a, State.reset.byte a = 0) ∧ State.reset.pending = [] ∧ State.reset.out = [] ∧ State.reset.power.mode = .starting

/-! ### Registers -/

/-- A write to a register acts on each field by its access code (R15): RO and WO fields keep their values; an RW field takes the
written value where its range allows it (R638), an RWL field only before start completes; a W1C bit is cleared by a 1 unless
hardware sets it in the same cycle (R16). Bits in no field keep their value (R17), a half that is not written reads as
before and acts as written with 0 on W1C bits (R639), and no other register changes. Registers whose writes have rules of
their own are `ruledRegs`; a write in a window other than a module-wide register's home changes nothing. -/
def Obligations.RegisterWriteActsByAccessCode : Prop :=
  ∀ (s : State) (org addr size v hw : Nat) (r : Reg) (die idx half : Nat),
    s.Reaches (.registerWrite org addr size v hw) → (s.localUnit org).isSome = true →
    accessReg addr size = some (r, die, idx, half) → r ∉ ruledRegs → (r.heldByRun = true → s.on F.SCH_CTRL.RUN = false) →
    (∀ f, r.clearField = some f → shows f half v = false) →
    ∃ t, exec (.registerWrite org addr size v hw) s = .next t ∧
      (∀ p : Part, p ≠ .out → p.same s t) ∧ t.pending = s.pending ∧ t.out = s.out ++ [.response org addr 0 []] ∧
      KeepsBut (r.info.fields.map fun f => (⟨r, f.lo, f.len⟩, die, idx)) s t ∧
      (r.info.home.getD die ≠ die → t.regs = s.regs) ∧
      (r.info.home.getD die = die → ∀ f ∈ r.info.fields,
        let old := s.get ⟨r, f.lo, f.len⟩ die idx
        let new := bits (halfWrite (s.word r die idx).toNat half v) f.lo f.len
        let got := t.get ⟨r, f.lo, f.len⟩ die idx
        match f.acc with
        | .ro => got = old
        | .wo => got = old
        | .rw => got = if f.least ≤ new ∧ new ≤ f.most then new else old
        | .rwl => got = if s.started = false ∧ f.least ≤ new ∧ new ≤ f.most then new else old
        | .w1c => ∀ k, k < f.len → got.testBit k =
            ((old.testBit k && !(halfWrite 0 half v).testBit (f.lo + k)) || hw.testBit (f.lo + k)))

/-- Registers that a write finds held keep every field: those of R117, R355 and R637 while SCH_CTRL.RUN is 1, and the
synchronisation registers, which set CFG_DISCARD (R450). A write of 1 to CLEAR_COUNTS leaves every counter of the block
instance at the increment of the same cycle (R185), and changes no other bit of any register. -/
def Obligations.HeldWritesAndClearCounts : Prop :=
  (∀ (s : State) (org addr size v hw : Nat) (r : Reg) (die idx half : Nat),
     s.Reaches (.registerWrite org addr size v hw) → (s.localUnit org).isSome = true →
     accessReg addr size = some (r, die, idx, half) → r.info.home.getD die = die → s.on F.SCH_CTRL.RUN = true →
     (r.heldByRun = true → exec (.registerWrite org addr size v hw) s = .next (s.emit (.response org addr 0 []))) ∧
     (r = .SYN_OBJ_CFG ∨ r = .SYN_OBJ_LINK ∨ r = .SYN_JOB →
       exec (.registerWrite org addr size v hw) s = .next ((s.flag F.SYN_EVENTS.CFG_DISCARD die).emit (.response org addr 0 [])))) ∧
  (∀ (s : State) (die blk inst : Nat) (inc : List Nat) (b : Blk), s.Reaches (.clearCounts die blk inst inc) →
     Blk.ofIndex blk = some b →
     (b.present die = true → inst < b.instances die → b.clearsIn die = true →
       Completes (.clearCounts die blk inst inc) s [] (b.counters die inst) fun t =>
         ∀ k x, (b.counters die inst)[k]? = some x → t.get x.1 x.2.1 x.2.2 = min (inc.getD k 0) (2 ^ x.1.len - 1)) ∧
     (b.present die = false ∨ b.instances die ≤ inst ∨ b.clearsIn die = false → exec (.clearCounts die blk inst inc) s = .next s))

/-- A read of the control space returns the register, or the half of it that the access names (R15, R18, R639), to a unit of the
module, and to another module only under DBG_REMOTE (R45); it changes nothing. An access to the control space that is not an
aligned 64-bit or 32-bit access to a defined register ends with an error status and changes no register (R18, R58), and so
does every write of another module, and its reads without DBG_REMOTE (R45). A core takes its access fault; a unit's own
record is written (R540). -/
def Obligations.ControlSpaceAnswersItsAccesses : Prop :=
  (∀ (s : State) (org addr len : Nat) (flips : List Flip) (r : Reg) (die idx half : Nat),
     s.Reaches (.memRead org addr len flips) → accessReg addr len = some (r, die, idx, half) →
     (s.localUnit org).isSome = true ∨ s.sec.image.dbgRemote = true →
     exec (.memRead org addr len flips) s =
       .next (s.emit (.response org addr 0 (match half with
         | 0 => toLE 4 (s.readReg r die idx)
         | 1 => toLE 4 (s.readReg r die idx / 2 ^ 32)
         | _ => toLE 8 (s.readReg r die idx))))) ∧
  (∀ (s : State) (org addr size v hw : Nat) (flips : List Flip), inControl addr = true →
     (s.localUnit org = none → s.Reaches (.registerWrite org addr size v hw) →
       exec (.registerWrite org addr size v hw) s = .next (s.emit (.response org addr 1 []))) ∧
     (s.localUnit org = none → s.sec.image.dbgRemote = false ∨ accessReg addr size = none → s.Reaches (.memRead org addr size flips) →
       exec (.memRead org addr size flips) s = .next (s.emit (.response org addr 1 []))) ∧
     (∀ u, s.localUnit org = some u → accessReg addr size = none → s.Reaches (.registerWrite org addr size v hw) →
       ∃ t, exec (.registerWrite org addr size v hw) s = .next t ∧
         Frame (Touch.halts ⟨recordParts ++ [Part.out], recordRegs ++ [Reg.HCX_EVENTS], false⟩) s t ∧
         (isCore u = false → Out.response org addr 1 [] ∈ t.out) ∧ (isCore u = true → Out.coreFault (coreOf u) true ∈ t.out)))

/-- Every register of the spec's register maps stands at the address that R55 to R58 and its block's table give it, and at no
other: the decoder of the control space reads that address back as the register, its die window and its entry. -/
def Obligations.RegisterAddressesDecodeBack : Prop :=
  (∀ (r : Reg) (die idx : Nat), r.standsAt die idx = true → decodeAddr (r.address die idx) = some (r, die, idx)) ∧
  (∀ (addr : Nat) (r : Reg) (die idx : Nat), addr % 8 = 0 → inControl addr = true → addr < 0x0300_8000_0000 →
    decodeAddr addr = some (r, die, idx) →
      r.standsAt die idx = true ∧ (r = .BDI_CAPS_OWN ∨ r.address die idx = addr))

/-! ### Memory -/

/-- A write of whole sectors to backed storage stores its bytes and no other byte, marks its sectors good again (R267), and has
its answer. -/
def Obligations.MemoryWriteStoresItsBytes : Prop :=
  ∀ (s : State) (org addr : Nat) (data : Bytes), s.Inv → s.Reaches (.memWrite org addr data) →
    s.targetOf org addr data.length = .storage →
    ∃ t, exec (.memWrite org addr data) s = .next t ∧
      t.bytes addr data.length = data ∧ (∀ b, b < addr ∨ addr + data.length ≤ b → t.byte b = s.byte b) ∧
      (∀ n ∈ sectorsOf addr data.length, n ∉ t.oasis.failed ∧ n ∉ t.hbm.hostBad ∧
        (region addr = .hbm → s.cached addr = false → lookupKey n t.hbm.flips = none)) ∧
      t.out = s.out ++ [.response org addr 0 []] ∧ Frame ⟨storeParts ++ [Part.out], storeRegs, false⟩ s t

/-- A read of backed storage whose granules hold no error returns the bytes that stand there and changes no byte. -/
def Obligations.MemoryReadReturnsTheStoredBytes : Prop :=
  ∀ (s : State) (org addr len : Nat), s.Inv → s.Reaches (.memRead org addr len []) → s.targetOf org addr len = .storage →
    s.soundSpan addr len →
    ∃ t, exec (.memRead org addr len []) s = .next t ∧ t.mem = s.mem ∧
      t.out = s.out ++ [.response org addr 0 (s.bytes addr len)] ∧
      Frame ⟨storeParts ++ [Part.out], storeRegs ++ [Reg.HBC_RD_SECTORS], false⟩ s t

/-- A write of some bytes of backed storage whose granules hold no error reads the sectors, replaces the bytes that its mask
enables and no other (R267), and has its answer. -/
def Obligations.PartialWriteMergesItsBytes : Prop :=
  ∀ (s : State) (org addr : Nat) (data : Bytes) (mask : List Bool), s.Inv →
    s.Reaches (.memPartialWrite org addr data mask []) → s.targetOf org addr data.length = .storage →
    s.soundSpan addr data.length →
    ∃ t, exec (.memPartialWrite org addr data mask []) s = .next t ∧
      (∀ i, i < data.length →
        t.byte (addr + i) = if mask.getD i false = true then data.getD i 0 else s.byte (addr + i)) ∧
      (∀ b, b < addr ∨ addr + data.length ≤ b → t.byte b = s.byte b) ∧
      t.out = s.out ++ [.response org addr 0 []] ∧
      Frame ⟨storeParts ++ [Part.out], storeRegs ++ [Reg.HBC_RD_SECTORS], false⟩ s t

/-- A read or write outside the backed part of its region ends with an error status (R48): the answer of another module's
requester says so and nothing changes, a unit's answer says so and its record is written, a core takes an access fault
(R471). A core's remote window that is not open is an access fault, and nothing else (R61). -/
def Obligations.UnbackedAccessEndsWithAnError : Prop :=
  ∀ (s : State) (c : Instr) (org addr len : Nat) (write : Bool), s.Reaches c →
    (c = .memRead org addr len [] ∧ write = false ∨ (∃ data, c = .memWrite org addr data ∧ data.length = len ∧ write = true) ∨
      ∃ data mask, c = .memPartialWrite org addr data mask [] ∧ data.length = len ∧ write = true) →
    (s.targetOf org addr len = .fault → exec c s = .next (s.emit (.coreFault (coreOf (org % 65536)) write))) ∧
    (s.targetOf org addr len = .refused → s.localUnit org = none → exec c s = .next (s.emit (.response org addr 1 []))) ∧
    (s.targetOf org addr len = .refused → ∀ u, s.localUnit org = some u →
      ∃ t, exec c s = .next t ∧ Frame (Touch.halts ⟨recordParts ++ [Part.out], recordRegs ++ [Reg.HCX_EVENTS], false⟩) s t ∧
        t.out = s.out ++ [if isCore u then .coreFault (coreOf u) write else .response org addr 1 []])

/-- An accumulate-write replaces each FP16 cell whose mask bit is 1 with cell plus addend, rounded to nearest even, and leaves
every other cell and byte (R148, R273); one that is not of a sector of an accumulate-write region changes no byte and sets
AW_REGION (R274). -/
def Obligations.AccumulateWriteAddsItsAddends : Prop :=
  ∀ (s : State) (org pa mask : Nat) (addends : List (BitVec 32)), s.Inv →
    s.Reaches (.accumulateWrite org pa mask addends []) → s.isLocal pa = true →
    let a := localPart pa
    (a % 64 = 0 → s.backed a = true → (s.awRegion a).isSome = true → lookupKey (a / 64) s.hbm.flips = none →
      ∃ t, exec (.accumulateWrite org pa mask addends []) s = .next t ∧
        (∀ i, i < 32 → t.load (a + 2 * i) 2 =
          if mask.testBit i then
            (fp16.round .rne false false ((fp16.decode (s.load (a + 2 * i) 2)).add (of32 (addends.getD i 0).toNat))).code
          else s.load (a + 2 * i) 2) ∧
        (∀ b, b < a ∨ a + 64 ≤ b → t.byte b = s.byte b) ∧
        t.get F.HBC_AW_SECTORS.VALUE (s.stackDie a) = min (s.get F.HBC_AW_SECTORS.VALUE (s.stackDie a) + 1) (2 ^ 64 - 1) ∧
        t.out = s.out ++ [.response org a 0 []] ∧ Frame ⟨[.mem, .out], [.HBC_AW_SECTORS], false⟩ s t) ∧
    (a % 64 ≠ 0 ∨ s.backed a = false ∨ s.awRegion a = none → s.localUnit org = none →
      Completes (.accumulateWrite org pa mask addends []) s [.out]
        [(F.HBC_EVENTS.AW_REGION, if region a = .hbm ∧ s.backed a then s.stackDie a else 80, 0)] fun t =>
        t.on F.HBC_EVENTS.AW_REGION (if region a = .hbm ∧ s.backed a then s.stackDie a else 80) = true ∧
        t.out = s.out ++ [.response org a 1 []])

/-- A message of partial sums is written where it is addressed, where that is storage (R125, R176), and changes no other byte. A
stack above 85 °C doubles its refresh, and no other stack does (R613). An answer that crosses the panel reaches its
requester (R528): a core has its data or an access fault (R471); another unit's data stands ready for its operation, a write
that was performed leaves its operation, which is done with the last one. An answer that was not sent changes nothing. -/
def Obligations.PartialSumsRefreshAndAnswersArrive : Prop :=
  ((∀ (s : State) (addr : Nat) (data : Bytes), s.Inv → s.Reaches (.partialSums addr data) →
     (s.backedSpan addr data.length = true → ∃ t, exec (.partialSums addr data) s = .next t ∧
       t.bytes addr data.length = data ∧ (∀ b, b < addr ∨ addr + data.length ≤ b → t.byte b = s.byte b) ∧
       Frame ⟨storeParts, storeRegs, false⟩ s t) ∧
     (s.backedSpan addr data.length = false → exec (.partialSums addr data) s = .next s)) ∧
   (∀ (s : State) (ms : Nat) (hot : Bool), s.Reaches (.hbmRefreshDouble ms hot) →
     Completes (.hbmRefreshDouble ms hot) s [.hbm] [] fun t =>
       t.hbm = { s.hbm with hot := t.hbm.hot } ∧ ∀ m, m ∈ t.hbm.hot ↔ (if m = ms then hot = true else m ∈ s.hbm.hot))) ∧
  ((∀ (s : State) (u tag status : Nat) (data : Bytes), s.Reaches (.readResponse u tag status data) →
     (s.takeAnswer u tag status data false = none → exec (.readResponse u tag status data) s = .next s) ∧
     (∀ r s', s.takeAnswer u tag status data false = some (r, s') →
       ∃ t, exec (.readResponse u tag status data) s = .next t ∧
         (isCore u = true → status = 0 → t = s'.emit (.response (s.originator u) r.addr 0 data)) ∧
         (isCore u = true → status ≠ 0 → t.out = s.out ++ [.coreFault (coreOf u) false]) ∧
         (isCore u = false → status = 0 → t = { s' with rem := { s'.rem with arrived := s.rem.arrived ++ [((u, r.addr, r.len), data)] } }) ∧
         (isCore u = false → status ≠ 0 → t = { s' with rem := { s'.rem with failed := s.rem.failed ++ [(u, r.addr, r.len)] } }))) ∧
   (∀ (s : State) (u tag status : Nat), s.Reaches (.writePerformed u tag status) →
     (s.takeAnswer u tag status [] true = none → exec (.writePerformed u tag status) s = .next s) ∧
     (∀ r s', s.takeAnswer u tag status [] true = some (r, s') →
       ∃ t, exec (.writePerformed u tag status) s = .next t ∧
         (isCore u = true → status = 0 → t = s'.emit (.response (s.originator u) r.addr 0 [])) ∧
         (isCore u = true → status ≠ 0 → t.out = s.out ++ [.coreFault (coreOf u) true]) ∧
         (isCore u = false → status = 0 → ∀ k,
           (s.unit u).ops.findIdx? (fun o => o.state == .writing && o.tags.contains tag) = some k →
           (t.opAt u k).tags = removeFirst (· == tag) (s.opAt u k).tags ∧
           (t.opAt u k).state = if (removeFirst (· == tag) (s.opAt u k).tags).isEmpty then .done else .writing))))

/-- A scrub step reads the stack's next sector (R269): one without an error changes only the place the pass has come to; a
correctable one is counted and recorded as an event; an uncorrectable one sets SCRUB_UE and UE and its sector is noted. With
ENABLE 0 nothing is read. A row whose copy to a spare row is done is logged (R270, R284). -/
def Obligations.ScrubAndRepairFollowTheCode : Prop :=
  (∀ (s : State) (ms : Nat), s.Reaches (.patrolScrubStep ms []) →
    let n := (lookupKey (ms - 80) s.hbm.scrub).getD 0
    let sector := s.stackSector (ms - 80) n / 64
    (s.on F.HBC_SCRUB.ENABLE ms = false → exec (.patrolScrubStep ms []) s = .next s) ∧
    (s.on F.HBC_SCRUB.ENABLE ms = true → lookupKey sector s.hbm.flips = none →
      Completes (.patrolScrubStep ms []) s [.hbm] [] fun t =>
        t.hbm = { s.hbm with scrub := setKey (ms - 80) ((n + 1) % stackSectors) s.hbm.scrub }) ∧
    (∀ e pos val, s.on F.HBC_SCRUB.ENABLE ms = true → lookupKey sector s.hbm.flips = some e → checkSector e = .single pos val →
      ∃ t, exec (.patrolScrubStep ms []) s = .next t ∧ t.on F.HBC_EVENTS.CE (s.stackDie (sector * 64)) = true ∧
        t.get F.HBC_COUNTS.CE (s.stackDie (sector * 64)) =
          min (s.get F.HBC_COUNTS.CE (s.stackDie (sector * 64)) + 1) (2 ^ F.HBC_COUNTS.CE.len - 1)) ∧
    (∀ e, s.on F.HBC_SCRUB.ENABLE ms = true → lookupKey sector s.hbm.flips = some e →
      checkSector e = .bad ∨ checkSector e = .misaddress →
      ∃ t, exec (.patrolScrubStep ms []) s = .next t ∧ t.on F.HBC_EVENTS.SCRUB_UE ms = true ∧
        t.on F.HBC_EVENTS.UE (s.stackDie (sector * 64)) = true ∧ t.on F.HBC_UE_ADDR.VALID (s.stackDie (sector * 64)) = true ∧
        t.get F.HBC_UE_ADDR.SECTOR (s.stackDie (sector * 64)) = sector % 2 ^ F.HBC_UE_ADDR.SECTOR.len)) ∧
  (∀ (s : State) (ms : Nat), s.Reaches (.rowRemapDone ms) →
    (∀ stack row, s.hbm.copying.find? (fun r => r.1 == ms - 80) = some (stack, row) →
      let n := s.get F.HBC_SPARES.REMAPPED ms
      ∃ t, exec (.rowRemapDone ms) s = .next t ∧ t.on F.HBC_EVENTS.REPAIR_DONE ms = true ∧
        t.get F.HBC_SPARES.REMAPPED ms = (n + 1) % 2 ^ F.HBC_SPARES.REMAPPED.len ∧
        t.get F.HBC_SPARES.LEFT ms = s.get F.HBC_SPARES.LEFT ms - 1 ∧
        t.word .HBC_REPAIR_LOG ms n = BitVec.ofNat 64 (2 ^ 63 + row) ∧
        (s.hbm.flips = [] → t.hbm = { s.hbm with copying := removeFirst (· == (stack, row)) s.hbm.copying
                                                 remaps := s.hbm.remaps ++ [(stack, row)] })) ∧
    (s.hbm.copying.find? (fun r => r.1 == ms - 80) = none → exec (.rowRemapDone ms) s = .next s))

/-! ### The tick -/

/-- Each die's timer counts its ticks (R66, R68): a tick adds 1 to that die's TCK_COUNT, modulo 2^64, and to no other. A backup
master that has heard no mark of the master for eight periods sends marks from its own timer and reads LOCKED to itself
(R76, R642); so does a partner-erg master (R79). A master whose TICK_IO is an input steers to its edge (R80, R82). -/
def Obligations.TicksCountAndMastersSwitch : Prop :=
  (∀ (s : State) (die : Nat), s.Reaches (.tick die) →
     ∃ t, exec (.tick die) s = .next t ∧ (∀ d, t.now d = if d = die then (s.now d + 1) % 2 ^ 64 else s.now d)) ∧
  ((∀ (s : State) (c : Instr), s.Reaches c → c = .masterSwitch ∧ s.get F.TCK_ROLE.ROLE = 2 ∨
       c = .partnerMasterSwitch ∧ s.get F.TCK_ROLE.ROLE = 3 → s.tick.sending = false →
     (8 ≤ s.tick.noMaster →
       Completes c s [.tick] [(F.TCK_EVENTS.MASTER_SWITCH, 0, 0), (F.TCK_STATUS.SOURCE, 0, 0), (F.TCK_STATUS.MISSED, 0, 0),
           (F.TCK_STATUS.OFFSET_PS, 0, 0), (F.TCK_STATUS.STATE, 0, 0), (F.SEC_START.STAGE, 0, 0), (F.SEC_START.JOINED, 0, 0)] fun t =>
         t.on F.TCK_EVENTS.MASTER_SWITCH = true ∧ t.tick = { s.tick with sending := true } ∧ t.tickState = 2 ∧
         t.get F.TCK_STATUS.SOURCE = s.moduleNo ∧ t.get F.TCK_STATUS.OFFSET_PS = 0) ∧
     (s.tick.noMaster < 8 → exec c s = .next s)) ∧
   (∀ (s : State) (time : Nat), s.Reaches (.tickIoEdge time) →
     (s.get F.TCK_ROLE.ROLE = 1 → 2 ≤ s.get F.TCK_ROLE.IO_MODE →
       exec (.tickIoEdge time) s =
         .next { s with tick := { s.tick with offset := (time : Int) - s.timeOfTick (s.nearestTick time) } }) ∧
     (s.get F.TCK_ROLE.ROLE ≠ 1 ∨ s.get F.TCK_ROLE.IO_MODE < 2 → exec (.tickIoEdge time) s = .next s)))

/-- The tick state follows the marks that come (R72, R74, R76, R559): a mark that fails its CRC or names another period or
source is discarded and counted; in LOCKED an accepted mark within 15 ns keeps the state, one off by more than 25 ns loses
the lock; four periods without a mark begin HOLDOVER, and after HOLDOVER_LIMIT the tick is LOST. -/
def Obligations.TickStateFollowsTheMarks : Prop :=
  (∀ (s : State) (mark : Bytes) (arrival : Nat), s.Reaches (.tickMark mark arrival) →
    (crcHolds 64 mark = false →
      exec (.tickMark mark arrival) s = .next (s.onTick fun t => { t with discards := t.discards + 1 })) ∧
    (crcHolds 64 mark = true → fieldAt mark 24 2 ≠ s.get F.TCK_PERIOD.PERIOD_US ∨ s.markSource (fieldAt mark 2 4) = none →
      Completes (.tickMark mark arrival) s [.tick] [(F.TCK_EVENTS.MARK_DISCARDED, 0, 0)] fun t =>
        t.on F.TCK_EVENTS.MARK_DISCARDED = true ∧ t.tick = { s.tick with discards := s.tick.discards + 1 }) ∧
    (∀ backup, crcHolds 64 mark = true → fieldAt mark 24 2 = s.get F.TCK_PERIOD.PERIOD_US →
      s.markSource (fieldAt mark 2 4) = some backup → s.get F.TCK_ROLE.ROLE ≠ 1 →
      (backup = true → s.tick.sending = false ∧ s.tick.masterMark ≠ some (fieldAt mark 8 8)) → s.tickState = 2 →
      let time : Int := (arrival : Int) - (fieldAt mark 16 8 : Int)
      fieldAt mark 8 8 = s.nearestTick time →
      let off := time - s.timeOfTick (s.nearestTick time)
      ∃ t, exec (.tickMark mark arrival) s = .next t ∧ t.get F.TCK_STATUS.MISSED = 0 ∧
        t.get F.TCK_STATUS.SOURCE = bits (fieldAt mark 2 4) 16 12 ∧ t.tick.noMark = 0 ∧ t.tick.marked = true ∧
        (off.natAbs ≤ 15000 → t.tickState = 2 ∧ t.tick.offset = off ∧ t.tick.badRun = 0) ∧
        (25000 < off.natAbs → t.tickState = 1 ∧ t.on F.TCK_EVENTS.LOCK_LOST = true))) ∧
  (∀ s : State, s.Reaches .holdover →
    (s.ownTimer = false → s.tickState = 2 ∨ s.tickState = 1 → 4 ≤ s.tick.noMark →
      Completes .holdover s [.tick] [(F.TCK_EVENTS.HOLDOVER, 0, 0), (F.TCK_STATUS.STATE, 0, 0)] fun t =>
        t.tickState = 3 ∧ t.on F.TCK_EVENTS.HOLDOVER = true ∧ t.tick.inHoldover = 0) ∧
    (s.ownTimer = true ∨ s.tick.noMark < 4 ∨ (s.tickState ≠ 1 ∧ s.tickState ≠ 2) → exec .holdover s = .next s)) ∧
  (∀ s : State, s.Reaches .tickLost →
    let past := s.ownTimer = false ∧ s.tickState = 3 ∧ s.get F.TCK_HOLDOVER_LIMIT.LIMIT ≤ s.tick.inHoldover
    (¬past → exec .tickLost s = .next s) ∧
    (past → s.active = false → Completes .tickLost s [.tick] [(F.TCK_EVENTS.LOST, 0, 0), (F.TCK_STATUS.STATE, 0, 0)] fun t =>
      t.tickState = 4 ∧ t.on F.TCK_EVENTS.LOST = true) ∧
    (past → s.inStep → s.calm → ∃ t, exec .tickLost s = .next t ∧ t.tickState = 4 ∧ t.on F.TCK_EVENTS.LOST = true ∧
      t.sched.halt = true ∧ t.sched.st = .aborting ∧ t.get F.SCH_BREAK.CAUSE = 4 ∧
      (s.on F.FLT_RECOVERY.VALID = false → t.get F.FLT_RECOVERY.REASON = 5)))

/-! ### The schedule -/

/-- A write of 1 to SCH_CTRL.RUN while RUN reads 1 withdraws a stop; while it reads 0 it is discarded with START_LATE where the
next due tick is not at least 2 ticks away, takes up the image otherwise, and runs it if one is accepted (R117); a module
that is parked, has spent its step numbers or has an active schedule does not start (R117, R573, R607). A write of 0 waits
for the step's end. The start of a step, once the step before is complete (R644): every channel holds no token and DEPTH
credits (R90), and V0 to V31, every histogram and every array are clear (R161, R219, R237). Before that it does nothing. -/
def Obligations.RunStopAndStepStart : Prop :=
  ((∀ s : State, s.Reaches .schRun →
     (s.on F.SCH_CTRL.RUN = true → exec .schRun s = .next (s.onSched fun c => { c with stopReq := false })) ∧
     (s.on F.SCH_CTRL.RUN = false → s.power.mode = .parked ∨ s.get F.SCH_STEP.STEP = 2 ^ 40 - 1 ∨ s.active = true →
       exec .schRun s = .next s) ∧
     (s.on F.SCH_CTRL.RUN = false → s.power.mode ≠ .parked → s.get F.SCH_STEP.STEP ≠ 2 ^ 40 - 1 → s.active = false →
       s.on F.FLT_RECOVERY.ARMED = false →
       let t := s.takeUp
       let away := (t.dueTick 0 + 2 ^ 64 - (t.now 0 + 2) % 2 ^ 64) % 2 ^ 64
       (2 ^ 63 ≤ away → exec .schRun s = .next (s.flag F.SCH_EVENTS.START_LATE)) ∧
       (away < 2 ^ 63 → t.sched.image = none → exec .schRun s = .next t) ∧
       (away < 2 ^ 63 → t.sched.image ≠ none → ∃ t', exec .schRun s = .next t' ∧ t'.on F.SCH_CTRL.RUN = true ∧
         t'.sched.st = .running ∧ t'.get F.SCH_REPLAY.COUNT = 0 ∧ t'.sched.image = t.sched.image ∧ t'.sched.stopReq = false ∧
         t'.mem = s.mem))) ∧
   (∀ s : State, s.Reaches .schStop →
     (s.on F.SCH_CTRL.RUN = true → exec .schStop s = .next (s.onSched fun c => { c with stopReq := true })) ∧
     (s.on F.SCH_CTRL.RUN = false → exec .schStop s = .next s))) ∧
  (∀ s : State, s.Reaches .stepStart →
     (s.sched.st ≠ .running ∨ s.sched.stepEnded = false → exec .stepStart s = .next s) ∧
     (s.sched.st = .running → s.sched.stepEnded = true → s.sched.newImage = false ∨ s.sched.first = true →
       s.sched.carried = [] → (∀ p ∈ s.sched.units, ∀ o ∈ p.2.ops, o.next = false) →
       ∃ t, exec .stepStart s = .next t ∧
         (∀ im, s.sched.image = some im → ∀ c ch, im.channels[c]? = some ch →
           t.get F.SCH_CHANNEL.TOKENS 0 c = 0 ∧ t.get F.SCH_CHANNEL.CREDITS 0 c = ch.depth % 2 ^ F.SCH_CHANNEL.CREDITS.len) ∧
         (∀ die i, t.word .VSC_VREG die i = 0) ∧ (∀ die i, t.word .CDC_HIST die i = 0) ∧ t.arrays = [] ∧
         Frame (commandTouch .stepStart) s t))

/-- A schedule break aborts the step on the module (R101 to R105): SCH_ABORT is one of cause 6 with UNIT 0 and the lowest
segment not finished, a unit that misses the slip budget one of cause 1 with the segment it has not started (R99), an
operation that ended with an error status one of cause 7 with its segment. A further break of the step only sets
EXTRA_BREAK. With no schedule active, or within the budget, nothing happens. -/
def Obligations.BreaksAbortTheStep : Prop :=
  ∀ (s : State) (c : Instr) (cause unit segment tick : Nat), s.Reaches c →
    (c = .schAbort ∧ cause = 6 ∧ unit = 0 ∧ segment = s.lowestSegment ∧ tick = s.now 72) ∨
      (∃ u, c = .slipBreak u ∧ s.overBudget u = true ∧ cause = 1 ∧ unit = u ∧ tick = s.now (unitDie u) ∧
        segment = if s.segments ≤ (s.unit u).started then 0 else (s.unit u).started) ∨
      (∃ u k o, c = .operationComplete u k ∧ (s.unit u).ops[k]? = some o ∧ o.state = .failed ∧ s.on F.LDG_TRACE.VALID = false ∧
        cause = 7 ∧ unit = u ∧ segment = o.segment ∧ tick = s.now (unitDie u)) →
    (s.inStep → s.calm → ∃ t, exec c s = .next t ∧ s.Aborted t ∧ s.BreakIs t cause unit segment tick) ∧
    (s.active = true → s.sched.broken = true → ∃ t, exec c s = .next t ∧ t.on F.SCH_EVENTS.BREAK_LOCAL = true ∧
      t.on F.SCH_EVENTS.EXTRA_BREAK = true ∧ t.word .SCH_BREAK = s.word .SCH_BREAK ∧ t.sched.st = s.sched.st ∧ t.mem = s.mem) ∧
    (s.active = false → ∃ t, exec c s = .next t ∧ t.sched.st = s.sched.st ∧ t.regs = s.regs ∧ t.mem = s.mem)

/-- The next operation of a stream starts when its channels hold the tokens and credits it names (R91): it takes one credit of
each output and joins the operations in flight, with the payload that the image holds, the stream moving past its entries
(R85, R87). Otherwise, and with nothing to run ahead, nothing starts. -/
def Obligations.OperationsStartOnTheirTokens : Prop :=
  ∀ (s : State) (u : Nat) (t : Stream), s.Reaches (.operationStart u) → s.streamOfUnit u = some t →
    s.sched.st = .running → s.sched.stepEnded = false → s.unitFree u = true → (s.unit u).stopped = false →
    (s.unit u).redo = [] → (s.unit u).started ≠ 0 → (s.unit u).pos < t.entries →
    let pos := (s.unit u).pos
    let c := s.ctrlAt t pos
    c.opclass < 0x80 →
    (s.tokensFor u c.ins = true → s.creditsFor c.outs = true → (∀ i ∈ c.ins, s.isMirage i = false) →
      (unitClasses u).contains c.opclass = true → classExt c.opclass = c.ext →
      (t.entries ≤ pos + 1 + c.ext ∨
        (s.entryBad u t (pos + 1 + c.ext) (s.unit u).started = false ∧ pos + 1 + c.ext ∉ (s.unit u).ahead)) →
      ∃ s', exec (.operationStart u) s = .next s' ∧
        (s'.unit u).ops = (s.unit u).ops ++ [s.opOf u t pos (s.unit u).segment c false false] ∧
        (s'.unit u).pos = pos + 1 + c.ext ∧
        (∀ ch, s'.get F.SCH_CHANNEL.TOKENS 0 ch = s.get F.SCH_CHANNEL.TOKENS 0 ch ∧
          s'.get F.SCH_CHANNEL.CREDITS 0 ch = s.get F.SCH_CHANNEL.CREDITS 0 ch - c.outs.count ch) ∧
        (∀ p : Part, p ≠ .sched → p.same s s')) ∧
    (s.tokensFor u c.ins = false ∨ s.creditsFor c.outs = false → s.on F.SCH_CTRL.RA_ENABLE = false →
      exec (.operationStart u) s = .next s)

/-- An operation that has completed leaves its unit's list, takes one token of each input channel and returns a credit to each
(R92); its token goes out in the order of the productions, and waits for earlier ones (R645). One still at work stays. A
token or a credit that arrives adds 1 to its counter (R92); a no-operation entry is passed (R87). -/
def Obligations.OperationsPostTheirTokens : Prop :=
  (∀ (s : State) (u k : Nat) (o : Op), s.Reaches (.operationComplete u k) → (s.unit u).ops[k]? = some o →
    (o.state = .done → o.cut = false → o.next = false → s.sched.st = .running → s.sched.stepEnded = false →
      s.on F.LDG_TRACE.VALID = false → (o.ins.map (·.1)).Nodup → (∀ p ∈ o.ins, s.isMirage p.1 = false) →
      (s.unit u).finished < (s.unit u).started →
      (∃ t, s.streamOfUnit u = some t ∧ s.atBoundary t (s.unit u) = false) →
      ∃ t, exec (.operationComplete u k) s = .next t ∧
        (∀ ch, t.get F.SCH_CHANNEL.TOKENS 0 ch =
          s.get F.SCH_CHANNEL.TOKENS 0 ch - (if ch ∈ o.ins.map (·.1) then 1 else 0)) ∧
        (t.unit u).ops = (s.unit u).ops.eraseIdx k ∧ t.mem = s.mem ∧
        (o.outs = [] → t.sched.mesh = s.sched.mesh ++ o.ins.map fun p => ⟨p.1, false, none⟩) ∧
        (∀ ch n, o.outs = [(ch, n)] → s.isMirage ch = false → s.sched.tokens = [] →
          (n = (lookupKey ch s.sched.posted).getD 0 →
            t.sched.mesh = s.sched.mesh ++ (o.ins.map fun p => ⟨p.1, false, none⟩) ++ [⟨ch, true, none⟩] ∧
            lookupKey ch t.sched.posted = some (n + 1)) ∧
          ((lookupKey ch s.sched.posted).getD 0 < n →
            t.sched.mesh = s.sched.mesh ++ (o.ins.map fun p => ⟨p.1, false, none⟩) ∧ t.sched.tokens = [(ch, n, none)]))) ∧
    (o.state = .started ∨ o.state = .waiting ∨ o.state = .writing → exec (.operationComplete u k) s = .next s)) ∧
  (∀ (s : State) (ch : Nat) (c : Instr) (token : Bool) (f : Fld), s.Reaches c →
    (c = .synToken ch ∧ token = true ∧ f = F.SCH_CHANNEL.TOKENS) ∨ (c = .synCredit ch ∧ token = false ∧ f = F.SCH_CHANNEL.CREDITS) →
    (∀ m, s.sched.mesh.find? (fun m => m.chan == ch && m.token == token) = some m →
      Completes c s [.sched] [(f, 0, ch)] fun t => t.get f 0 ch = (s.get f 0 ch + 1) % 2 ^ f.len ∧
        t.sched.mesh = removeFirst (· == m) s.sched.mesh ∧
        t.sched.items = s.sched.items ++ (if token then m.item.toList else [])) ∧
    (s.sched.mesh.find? (fun m => m.chan == ch && m.token == token) = none → exec c s = .next s)) ∧
  (∀ (s : State) (u : Nat) (t : Stream), s.Reaches (.noOperation u) → s.streamOfUnit u = some t → s.sched.st = .running →
    s.sched.stepEnded = false → s.unitFree u = true → (s.unit u).stopped = false → (s.unit u).pos < t.entries →
    let c := s.ctrlAt t (s.unit u).pos
    let next := (s.unit u).pos + 1 + c.ext
    c.opclass = 0x81 → (s.unit u).finished < (s.unit u).started → next < t.entries → (s.ctrlAt t next).opclass ≠ 0x80 →
    s.entryBad u t next (s.unit u).started = false → next ∉ (s.unit u).ahead →
    exec (.noOperation u) s = .next (s.onUnit u fun x => { x with pos := next }))

/-- Once every unit has stopped, an aborted module waits for its replay, or, at the replay limit, halts with FLT_RECOVERY.REASON
3 (R106, R108); after a halt it enters HALTED, where RUN reads 0 (R464, R117). At the replay tick the step replays from its
cairn with SCH_BASE_TICK set so that segment 0 is due then (R106, R553); a module that does not wait for it then halts with
REASON 6 (R107). -/
def Obligations.AbortedStepsReplayOrHalt : Prop :=
  (∀ s : State, s.Reaches .replayWaitEntry →
    (s.sched.st = .aborting → s.allStopped = true → s.sched.halt = false →
      s.get F.SCH_REPLAY.COUNT < s.get F.SCH_REPLAY.LIMIT →
      exec .replayWaitEntry s = .next (s.onSched fun c => { c with st := .replayWait })) ∧
    (s.sched.st = .aborting → s.allStopped = true → s.sched.halt = false →
      s.get F.SCH_REPLAY.LIMIT ≤ s.get F.SCH_REPLAY.COUNT → s.on F.FLT_RECOVERY.VALID = false →
      ∃ t, exec .replayWaitEntry s = .next t ∧ t.sched.st = .halted ∧ t.on F.SCH_CTRL.RUN = false ∧
        t.on F.SCH_EVENTS.REPLAY_LIMIT = true ∧ t.get F.FLT_RECOVERY.REASON = 3 ∧
        t.get F.FLT_RECOVERY.STEP = s.get F.SCH_STEP.STEP ∧ t.mem = s.mem) ∧
    (s.sched.st ≠ .aborting ∨ s.allStopped = false ∨ s.sched.halt = true → exec .replayWaitEntry s = .next s)) ∧
  (∀ s : State, s.Reaches .haltEntry →
    (s.sched.halt = true → s.sched.st = .aborting ∨ s.sched.st = .replayWait → s.allStopped = true →
      Completes .haltEntry s [.sched] [(F.SCH_CTRL.RUN, 0, 0)] fun t =>
        t.sched.st = .halted ∧ t.sched.halt = false ∧ t.on F.SCH_CTRL.RUN = false) ∧
    (s.sched.halt = false ∨ s.allStopped = false → exec .haltEntry s = .next s)) ∧
  (∀ (s : State) (n : Nat), s.Reaches .replayStart → s.sched.replayTick = some n → s.sched.halt = false →
    (tickReached (s.now 72) n = false → exec .replayStart s = .next s) ∧
    (s.sched.st = .replayWait → s.now 72 = n % 2 ^ 64 → s.cairnRefused (s.get F.SCH_STEP.STEP) = none →
      ∃ t, exec .replayStart s = .next t ∧
        t.get F.SCH_BASE_TICK.BASE_TICK = (n % 2 ^ 64 + 2 ^ 64 -
          s.get F.SCH_STEP.STEP * ((s.restoreCairn (s.get F.SCH_STEP.STEP)).takeUp).segments % 2 ^ 64) % 2 ^ 64 ∧
        (t.word .SCH_IMAGE_BASE).toNat = fieldAt (s.cairnHead (s.get F.SCH_STEP.STEP)) 24 8 % 2 ^ 64) ∧
    (s.active = true → s.sched.st ≠ .replayWait → tickReached (s.now 72) n = true → s.calm → s.on F.FLT_RECOVERY.VALID = false →
      s.sched.stepEnded = false →
      ∃ t, exec .replayStart s = .next t ∧ t.sched.replayTick = none ∧ t.sched.halt = true ∧ t.sched.st = .aborting ∧
        t.get F.FLT_RECOVERY.REASON = 6))

/-! ### Operations of the engines -/

/-- An operation of an array, a vector engine, a codec, a caravan engine, an update unit or a reduction engine that stands ready
(`State.Performs`) is performed: it is done, and the module stands as its reads, its computation and its writes left it
(R91, R92, R538). -/
def Obligations.ReadyOperationsArePerformed : Prop :=
  ∀ (c : Instr) (s s' : State) (t : Task) (k : Nat) (a b e : State) (ws : List (Nat × Bytes)), s.Reaches c →
    taskOf s c = some (s', t) → s'.Performs t k a b ws e →
    ∃ t', exec c s = .next t' ∧ e.Performed t' t.unit k

/-- LDX makes the rows it reads the shadow tile (R153, R155, R180): element k of row r stands at SRC + r × STRIDE. An MMA on an
array without slices adds the exact sum of products of each row and column to the accumulator, or puts it there with CLR
(R121, R122, R161), where no operand is a NaN or an infinity and no addition saturates (R124); here one column of a shape
whose columns are not packed. -/
def Obligations.ArraysMultiplyExactly : Prop :=
  (∀ (u k : Nat) (p : BitVec 192) (s a b e : State) (ws : List (Nat × Bytes)), s.Reaches (.ldx u p) →
    s.Performs (ldxTask u p) k a b ws e →
    let size := if isWide u then 2 else 1
    let row (r : Nat) : Bytes := a.spanBytes u (unitDie u) s.asidOf (pay p 0 8 + r * pay p 8 4) (pay p 16 1 * size)
    ∃ t, exec (.ldx u p) s = .next t ∧ t.mem = a.mem ∧ (t.array u).acc = (s.array u).acc ∧
      (t.array u).active = (s.array u).active ∧
      (t.array u).shadow = some
        { shape := payBits p 14 0 4, format := payBits p 14 4 4, slice := pay p 15 1, klen := pay p 16 1
          rows := (List.range (pay p 12 2)).map fun r => (List.range (pay p 16 1)).map fun j => fieldAt (row r) (j * size) size }) ∧
  (∀ (u k : Nat) (p : BitVec 192) (s a b e : State) (ws : List (Nat × Bytes)) (tile : Tile), s.Reaches (.mma u p) →
    s.Performs (mmaTask u p) k a b ws e → mmaTile (s.array u) (payBits p 16 0 1 == 1) = some tile →
    isWide u = false → tile.shape = 0 ∨ tile.shape = 3 ∨ tile.shape = 4 → pay p 12 2 = 1 →
    let codes := (List.range (shapeOf tile.shape).k).map fun j =>
      (fieldAt (a.spanBytes u (unitDie u) s.asidOf (pay p 0 8) (shapeOf tile.shape).k) j 1)
    let old := (s.array u).column u tile.shape (pay p 14 2)
    ∃ t, exec (.mma u p) s = .next t ∧ t.mem = a.mem ∧ (t.array u).active = some tile ∧
      ∀ i, i < (shapeOf tile.shape).rows →
        let row := tile.rows.getD i []
        let start : Int := if payBits p 16 1 1 = 1 then 0 else (old.getD i none).getD 0
        let terms := (row.zip codes).map fun x => match decode8 tile.format x.1, decode8 (payBits p 17 0 4) x.2 with
          | some (m, q), some (m', q') => m * m' * 2 ^ (q + q')
          | _, _ => 0
        row.length ≤ codes.length → (∀ x ∈ row, (decode8 tile.format x).isSome = true) →
        (∀ x ∈ codes, (decode8 (payBits p 17 0 4) x).isSome = true) →
        ((start.natAbs + (terms.map Int.natAbs).sum : Nat) : Int) ≤ max80 →
        ((t.array u).column u tile.shape (pay p 14 2)).getD i none = some (start + terms.sum))

/-- The output operations of an array. PSEND writes the accumulators of its columns, row by row, as packed partials (R125,
R176). PADD adds a packed partial to its accumulator (R125, R176), here where it does not saturate. OUT writes, row by row,
the values of its columns rounded to the format (R126 to R131, R171), here with round to nearest even and no statistics. STF
writes the record of its statistics slot and clears the slot (R173, R174). -/
def Obligations.ArraysGiveTheirResults : Prop :=
  (∀ (u k : Nat) (p : BitVec 192) (s a b e : State) (ws : List (Nat × Bytes)), s.Reaches (.psend u p) →
    s.Performs (psendTask u p) k a b ws e →
    let size := if isWide u then 4 else 10
    ws = [(pay p 0 8, (List.range (pay p 16 2)).flatMap fun r => (List.range (pay p 12 2)).flatMap fun j =>
      toLE size (unsigned (8 * size) (a.readAcc u ((s.array u).shape u) (pay p 14 2 + j) r)))] ∧
    ∃ t, exec (.psend u p) s = .next t ∧ e.Performed t u k) ∧
  (∀ (u k : Nat) (p : BitVec 192) (s a b e : State) (ws : List (Nat × Bytes)), s.Reaches (.padd u p) →
    s.Performs (paddTask u p) k a b ws e → isWide u = false → pay p 12 2 = 1 →
    let shape := (s.array u).shape u
    shape ≠ 1 → shape ≠ 2 →
    let data := a.spanBytes u (unitDie u) s.asidOf (pay p 0 8) (pay p 16 2 * 10)
    ∃ t, exec (.padd u p) s = .next t ∧ t.mem = a.mem ∧
      ∀ i, i < pay p 16 2 → ∀ x y : Int, ((s.array u).column u shape (pay p 14 2)).getD i none = some x →
        y = signed 80 (fieldAt data (i * 10) 10) → x ≠ nan80 → y ≠ nan80 → (x + y).natAbs < 2 ^ 79 →
        ((t.array u).column u shape (pay p 14 2)).getD i none = some (x + y)) ∧
  (∀ (u k : Nat) (p : BitVec 448) (s a b e : State) (ws : List (Nat × Bytes)), s.Reaches (.out u p) →
    s.Performs (outTask u p) k a b ws e → payBits p 16 4 2 = 0 → payBits p 16 7 1 = 0 → payBits p 17 3 1 = 0 →
    (s.array u).shape u ≤ 4 →
    let fmt := payBits p 16 0 4
    let sx := a.spanBytes u (unitDie u) s.asidOf (pay p 24 8) (4 * pay p 18 2)
    let sw := a.spanBytes u (unitDie u) s.asidOf (pay p 32 8) (4 * pay p 12 2)
    let value (r j : Nat) : Fp :=
      match outValue a u ((s.array u).shape u) r (pay p 14 2 + j) j sx sw with
      | .fin n m x => if m = 0 then .zero else .fin n m x
      | v => v
    ws = (List.range (pay p 18 2)).map (fun r => (pay p 0 8 + r * pay p 8 4, (List.range (pay p 12 2)).flatMap fun j =>
      toLE (fmtSize fmt) ((fmtOf fmt).round .rne (payBits p 16 6 1 == 1) false (value r j)).code)) ∧
    ∃ t, exec (.out u p) s = .next t ∧ e.Performed t u k) ∧
  (∀ (u k : Nat) (p : BitVec 192) (s a b e : State) (ws : List (Nat × Bytes)), s.Reaches (.stf u p) →
    s.Performs (stfTask u p) k a b ws e →
    ws = [(pay p 0 8, statRecord u (pay p 8 4) ((lookupKey (payBits p 12 0 3) (a.array u).stats).getD { hbase := 0 }))] ∧
    ∃ t, exec (.stf u p) s = .next t ∧ e.Performed t u k ∧ lookupKey (payBits p 12 0 3) (t.array u).stats = none)

/-- MOVE copies LEN bytes from SRC to DST (R300); XPOSE writes element j of row i of its source as element i of row j (R301);
HSTORE writes its histogram slot as a record and clears it (R238). -/
def Obligations.CaravansAndHistogramsCopy : Prop :=
  (∀ (u k : Nat) (p : BitVec 192) (s a b e : State) (ws : List (Nat × Bytes)), s.Reaches (.move u p) → payBits p 23 0 1 = 0 →
    s.Performs (moveTask u p) k a b ws e →
    ws = [(pay p 8 8, a.spanBytes u (unitDie u) s.asidOf (pay p 0 8) (pay p 16 4))] ∧ b = a ∧
    ∃ t, exec (.move u p) s = .next t ∧ e.Performed t u k) ∧
  (∀ (u k : Nat) (p : BitVec 448) (s a b e : State) (ws : List (Nat × Bytes)), s.Reaches (.xpose u p) →
    s.Performs (xposeTask u p) k a b ws e →
    let row (i : Nat) : Bytes := a.spanBytes u (unitDie u) s.asidOf (pay p 0 8 + i * pay p 16 4) (pay p 26 2 * pay p 28 1)
    (∀ j, j < pay p 26 2 → ws[j]? = some (pay p 8 8 + j * pay p 20 4,
      (List.range (pay p 24 2)).flatMap fun i => ((row i).drop (j * pay p 28 1)).take (pay p 28 1))) ∧
    ws.length = pay p 26 2 ∧ ∃ t, exec (.xpose u p) s = .next t ∧ e.Performed t u k) ∧
  (∀ (u k : Nat) (p : BitVec 192) (s a b e : State) (ws : List (Nat × Bytes)), s.Reaches (.hstore u p) →
    s.Performs (hstoreTask u p) k a b ws e →
    ws = [(pay p 0 8, a.histRecord (unitDie u) (coderNo u) (payBits p 8 0 4))] ∧
    ∃ t, exec (.hstore u p) s = .next t ∧ e.Performed t u k ∧
      ∀ i, i < 128 → t.word .CDC_HIST (unitDie u) ((coderNo u * 16 + payBits p 8 0 4) * 128 + i) = 0)

/-- EW, here an unmasked one that draws nothing, writes for each element the function's result of the elements of its streams
(R192, R196); CVT the converted element (R205); and an operation with nothing to compute from, RAND, a value of the lane
generators (R210, R213), which step on once for each element. -/
def Obligations.VectorElementsAreComputed : Prop :=
  (∀ (die k : Nat) (p : BitVec 448) (s a b e : State) (ws : List (Nat × Bytes)), s.Reaches (.ew die p) →
    s.Performs (ewTask die p) k a b ws e →
    let v := vsePayload p
    v.masked = false → v.mode = 0 → v.fo ≠ 13 →
    let codes := (ewInputs v).map fun x => elementsOf x.fmt x.n (a.spanBytes (unitId die 2 0) die s.asidOf x.va (streamBytes x.fmt x.n))
    ws = [(v.dst, (List.range v.n).flatMap fun i => toLE (fmtSize v.fo) (ewElement v codes 0 i).code)] ∧
    ∃ t, exec (.ew die p) s = .next t ∧ e.Performed t (unitId die 2 0) k) ∧
  (∀ (die k : Nat) (p : BitVec 448) (s a b e : State) (ws : List (Nat × Bytes)), s.Reaches (.cvt die p) →
    (s.took 1).Performs (cvtTask die p s.free) k a b ws e →
    let v := vsePayload p
    v.masked = false → v.mode = 0 → v.fo ≠ 13 →
    let codes := elementsOf v.fa v.n (a.spanBytes (unitId die 2 0) die s.asidOf v.a (streamBytes v.fa v.n))
    ws = [(v.dst, (List.range v.n).flatMap fun i => toLE (fmtSize v.fo) (cvtElement v s.free (codes.getD i 0) 0).code)] ∧
    ∃ t, exec (.cvt die p) s = .next t ∧ e.Performed t (unitId die 2 0) k) ∧
  (∀ (die k : Nat) (p : BitVec 448) (s a b e : State) (ws : List (Nat × Bytes)), s.Reaches (.rand die p) →
    s.Performs (randTask die p) k a b ws e →
    let v := vsePayload p
    v.masked = false → v.func = 0 →
    ws = [(v.dst, ((a.drawVector die v.n).2).flatMap (toLE 4))] ∧
    (∃ t, exec (.rand die p) s = .next t ∧ e.Performed t (unitId die 2 0) k) ∧
    (∀ g, v.n ≤ 1024 → g < v.n → b.genWords die g = (drawWords (a.genWords die g)).2))

/-- An inclusive SCAN with ADD writes at each element the sum of the elements up to it, and a REDUCE with SUM at each group the
sum of its elements (R203, R204), on signed 32-bit integers modulo 2^32; here unmasked. -/
def Obligations.ScansAndReductionsSum : Prop :=
  (∀ (die k : Nat) (p : BitVec 448) (s a b e : State) (ws : List (Nat × Bytes)), s.Reaches (.scan die p) →
    s.Performs (scanTask die p) k a b ws e →
    let v := vsePayload p
    v.masked = false → v.func = 0 → v.fa = 9 → v.fo = 9 → v.sat = false →
    let x (i : Nat) : Int := signed 32 (fieldAt (a.spanBytes (unitId die 2 0) die s.asidOf v.a (4 * v.n)) (4 * i) 4)
    ws = [(v.dst, (List.range v.n).flatMap fun i => toLE 4 (unsigned 32 (((List.range (i + 1)).map x).sum)))] ∧
    ∃ t, exec (.scan die p) s = .next t ∧ e.Performed t (unitId die 2 0) k) ∧
  (∀ (die k : Nat) (p : BitVec 448) (s a b e : State) (ws : List (Nat × Bytes)), s.Reaches (.reduce die p) →
    s.Performs (reduceTask die p) k a b ws e →
    let v := vsePayload p
    v.masked = false → v.func = 0 → v.fa = 9 → v.fo = 9 → v.sat = false → v.mode = 0 → (∃ j, a.lanes die = 2 ^ j) →
    let x (i : Nat) : Int := signed 32 (fieldAt (a.spanBytes (unitId die 2 0) die s.asidOf v.a (4 * v.n)) (4 * i) 4)
    ws = [(v.dst, (List.range (v.n / v.glen)).flatMap fun g =>
      toLE 4 (unsigned 32 (((List.range v.glen).map fun i => x (g * v.glen + i)).sum)))] ∧
    ∃ t, exec (.reduce die p) s = .next t ∧ e.Performed t (unitId die 2 0) k)

/-- FLUSH completes when the writes of the operations before it have been performed (R221): at once where none is under way at
another module, and with their acknowledgements otherwise. A write to VSE_GEN_STATE acts outside RUNNING and ABORTING, and
never makes a generator all zero (R212). A sector that comes too late for a DECODE is counted (R252); a DECODE whose sector
does not come in time ends with cause 8 (R251). -/
def Obligations.FlushGeneratorsAndLateSectors : Prop :=
  (∀ (s : State) (u k : Nat), s.Reaches (.flush u) → s.unitFree u = true → s.findClass u 0x17 = some k →
    let before := [0x10, 0x11, 0x12, 0x13, 0x14, 0x15, 0x16, 0x20]
    (s.earlierDone u k before = true → (s.opAt u k).tags = [] → ∃ t, exec (.flush u) s = .next t ∧
      (t.opAt u k).state = (if s.writesUnderWay u = [] then .done else .writing) ∧
      (t.opAt u k).tags = s.writesUnderWay u ∧ ∀ p : Part, p ≠ .sched → p.same s t) ∧
    (s.earlierDone u k before = false → exec (.flush u) s = .next s)) ∧
  (∀ (s : State) (die idx half v : Nat), s.Reaches (.genStateWrite die idx half v) →
    let old := s.genWords die (idx / 2)
    let new := if idx % 2 = 0 then (halfWrite old.1 half v, old.2) else (old.1, halfWrite old.2 half v)
    (s.sched.st = .running ∨ s.sched.st = .aborting →
      exec (.genStateWrite die idx half v) s = .next (s.flag F.VSE_EVENTS.GEN_WRITE_DISCARD die)) ∧
    (s.sched.st ≠ .running → s.sched.st ≠ .aborting → new = (0, 0) →
      exec (.genStateWrite die idx half v) s = .next (s.flag F.VSE_EVENTS.GEN_ZERO die)) ∧
    (s.sched.st ≠ .running → s.sched.st ≠ .aborting → new ≠ (0, 0) →
      ∃ t, exec (.genStateWrite die idx half v) s = .next t ∧ t.genWords die (idx / 2) = new ∧
        (∀ d g, d ≠ die ∨ g ≠ idx / 2 → t.genWords d g = s.genWords d g) ∧ (∀ p : Part, p.same s t))) ∧
  (∀ (s : State) (die n : Nat), s.Reaches (.codecLateSector die) →
    (lookupKey die s.codec.late = some (n + 1) →
      Completes (.codecLateSector die) s [.codec] [(F.CDC_LATE.VALUE, die, 0)] fun t =>
        t.get F.CDC_LATE.VALUE die = min (s.get F.CDC_LATE.VALUE die + 1) (2 ^ 32 - 1)) ∧
    (lookupKey die s.codec.late = none → exec (.codecLateSector die) s = .next s)) ∧
  (∀ (s : State) (u block : Nat), s.Reaches (.codecInputTimeout u block) →
    (s.decodeOf u block = none → exec (.codecInputTimeout u block) s = .next s) ∧
    (∀ k, s.decodeOf u block = some k → (s.opAt u k).ahead = false → s.calm → s.on F.CDC_EVENTS.OP_ERROR (unitDie u) = false →
      ∃ t, exec (.codecInputTimeout u block) s = .next t ∧ (t.opAt u k).state = .failed ∧
        t.get F.CDC_ERROR.CAUSE (unitDie u) = 8 ∧ t.get F.CDC_ERROR.BLOCK (unitDie u) = block % 2 ^ F.CDC_ERROR.BLOCK.len))

/-- NCHK reads the sum of squares and gives the step its verdict (R335): with a verdict word of 0, a norm that is finite and not
above UPD_NORM_CEIL lets the update go on, any other skips it. RBANK arms its bank switch at the due tick of its segment
plus its delta (R315), and the switch takes effect when its die's timer marks that tick. -/
def Obligations.VerdictsAndBankSwitchesFollowTheirRules : Prop :=
  (∀ (die k : Nat) (p : BitVec 192) (s a b e : State) (ws : List (Nat × Bytes)), s.Reaches (.nchk die p) →
    s.Performs (nchkTask die p) k a b ws e →
    let x := leN (a.spanBytes (unitId die 7 0) die s.asidOf (pay p 0 8) 4)
    let norm := normOf a.lossExp x
    ∃ t, exec (.nchk die p) s = .next t ∧ (t.opAt (unitId die 7 0) k).state = .done ∧ t.get F.UPD_NORM.NORM = norm % 2 ^ 32 ∧
      t.verdict = if (of32 x).isFin = true ∧ (of32 (a.get F.UPD_NORM_CEIL.VALUE)).lt (of32 norm) = false then 1 else 2) ∧
  (∀ (die k : Nat) (p : BitVec 192) (s a b e : State) (ws : List (Nat × Bytes)), s.Reaches (.rbank die p) →
    s.Performs (rbankTask die p) k a b ws e →
    ∃ t, exec (.rbank die p) s = .next t ∧ (t.opAt (unitId die 2 0) k).state = .done ∧ t.on F.VRT_BANK.ARMED die = true ∧
      t.get F.VRT_BANK.ARM_BANK die = payBits p 8 0 2 ∧
      t.get F.VRT_ARM_TICK.TICK die = s.dueTick ((s.opAt (unitId die 2 0) k).segment + pay p 9 1)) ∧
  (∀ (s : State) (die : Nat), s.Reaches (.bankSwitch die) →
    (s.on F.VRT_BANK.ARMED die = true → tickReached (s.now die) (s.get F.VRT_ARM_TICK.TICK die) = true →
      ∃ t, exec (.bankSwitch die) s = .next t ∧ t.on F.VRT_BANK.ARMED die = false ∧
        t.get F.VRT_BANK.CURRENT die = s.get F.VRT_BANK.ARM_BANK die ∧
        (∀ d, d ≠ die → t.get F.VRT_BANK.CURRENT d = s.get F.VRT_BANK.CURRENT d) ∧
        ∀ d ∈ [72, 73, 74, 75], t.on F.VRT_BANK.ROUTING d =
          ((s.get F.VRT_BANK.VALID d).testBit (t.get F.VRT_BANK.CURRENT d) && !s.vrt.left)) ∧
    (s.on F.VRT_BANK.ARMED die = false ∨ tickReached (s.now die) (s.get F.VRT_ARM_TICK.TICK die) = false →
      exec (.bankSwitch die) s = .next s))

/-- COMMIT (R333, R350, R351): under SKIP the step ends as skipped; under GO, where every shard is valid and every block bears
the update's number, it waits for the digests of its peers. The update commits when every awaited digest equals the own one;
a difference raises the halt of R350 and is recorded; a wait longer than UPD_DIGEST_TIMEOUT fails. -/
def Obligations.CommitsWaitForEqualDigests : Prop :=
  (∀ (s : State) (die k : Nat), s.Reaches (.commit die) → s.unitFree (unitId die 7 0) = true →
    s.findClass (unitId die 7 0) 0x4C = some k → (s.opAt (unitId die 7 0) k).cut = false → (s.opAt (unitId die 7 0) k).ahead = false →
    (die = 0 → s.verdict = 2 → (s.opAt (unitId die 7 0) k).tags = [] → ∃ t, exec (.commit die) s = .next t ∧
      t.sched.ending = .skipped ∧ (t.opAt (unitId die 7 0) k).state = .done ∧ t.regs = s.regs ∧ t.mem = s.mem) ∧
    (die = 0 → s.verdict = 1 → (∀ d ∈ s.shards, d.ok = true ∧ ∀ j, j < d.blocks → (s.ledgerAt d j).wtag = s.get F.UPD_UNUM.VALUE) →
      s.upd.commitTick = none → (∀ key own peer p, s.digests ≠ .differ key own peer p) →
      ∃ t, exec (.commit die) s = .next t ∧ t.upd.commitTick = some (s.now 0) ∧ t.on F.UPD_STATUS.COMMIT_WAIT = true ∧
        (t.opAt (unitId die 7 0) k).state = .waiting ∧ t.sched.ending = s.sched.ending ∧ t.mem = s.mem) ∧
    (die ≠ 0 ∨ s.verdict = 0 → s.calm → s.on F.UPD_EVENTS.OP_ERROR die = false → ∃ t, exec (.commit die) s = .next t ∧
      (t.opAt (unitId die 7 0) k).state = .failed ∧ t.get F.UPD_ERROR.CAUSE die = if die ≠ 0 then 11 else 4)) ∧
  (∀ s : State, s.Reaches .updateCommit →
    (s.waitingCommit = none ∨ s.digests = .missing → exec .updateCommit s = .next s) ∧
    (∀ k, s.waitingCommit = some k → s.digests = .equal → (s.opAt updLd00 k).tags = [] →
      Completes .updateCommit s [.upd, .sched] [(F.UPD_STATUS.COMMIT_WAIT, 0, 0)] fun t =>
        t.sched.ending = .committed ∧ t.upd.commitTick = none ∧ t.on F.UPD_STATUS.COMMIT_WAIT = false ∧
        (t.opAt updLd00 k).state = .done) ∧
    (∀ k key own peer p, s.waitingCommit = some k → s.digests = .differ key own peer p → s.inStep → s.calm →
      (s.opAt updLd00 k).ahead = false → s.on F.UPD_DIVERGE.VALID = false → s.on F.FLT_RECOVERY.VALID = false →
      ∃ t, exec .updateCommit s = .next t ∧ t.on F.UPD_EVENTS.DIVERGE = true ∧ t.on F.UPD_DIVERGE.VALID = true ∧
        t.get F.UPD_DIVERGE.KEY = key % 2 ^ F.UPD_DIVERGE.KEY.len ∧ t.get F.FLT_RECOVERY.REASON = 4 ∧ t.sched.halt = true ∧
        t.sched.st = .aborting ∧ t.get F.SCH_BREAK.CAUSE = 7)) ∧
  (∀ (s : State) (k since : Nat), s.Reaches .digestTimeout → s.waitingCommit = some k → s.upd.commitTick = some since →
    (tickReached (s.now 0) (since + s.get F.UPD_DIGEST_TIMEOUT.TICKS) = false → exec .digestTimeout s = .next s) ∧
    (tickReached (s.now 0) (since + s.get F.UPD_DIGEST_TIMEOUT.TICKS) = true → s.calm → (s.opAt updLd00 k).ahead = false →
      s.on F.UPD_EVENTS.OP_ERROR = false →
      ∃ t, exec .digestTimeout s = .next t ∧ (t.opAt updLd00 k).state = .failed ∧ t.upd.commitTick = none ∧
        t.on F.UPD_STATUS.COMMIT_WAIT = false ∧ t.get F.UPD_ERROR.CAUSE = 7))

/-- A digest packet of a tensor that no shard holds, or that fails its checks, is counted as stray (R349); one of a peer is
written to its block's ledger entry. A write to UPD_VERIFY_KEY with START recomputes its blocks and shows, when it is done,
how many differ (R352). A rewind with START puts UPD_UNUM back, or is refused while the schedule is active (R353). -/
def Obligations.DigestsVerifyAndRewind : Prop :=
  (∀ (s : State) (pkt : Bytes), s.Reaches (.digestPacket pkt) →
    (s.shardOfTensor (fieldAt pkt 16 6 / 2 ^ 32) = none ∨ crcHolds 64 pkt = false →
      Completes (.digestPacket pkt) s [] [(F.UPD_STRAY.HIGH, 0, 0), (F.UPD_STRAY.LOW, 0, 0), (F.UPD_EVENTS.DIGEST_STRAY, 0, 0)]
        fun t => t.on F.UPD_EVENTS.DIGEST_STRAY = true ∧
          ((s.word .UPD_STRAY).toNat + 1 < 2 ^ 64 → (t.word .UPD_STRAY).toNat = (s.word .UPD_STRAY).toNat + 1)) ∧
    (∀ d h, s.Inv → s.upd.commitTick = none → s.shardOfTensor (fieldAt pkt 16 6 / 2 ^ 32) = some d → d.ok = true →
      (d.peers.findIdx? fun p => p.valid && p.module == bits (fieldAt pkt 2 4) 16 12 && p.erg == bits (fieldAt pkt 2 4) 28 1) = some h →
      h < 4 → crcHolds 64 pkt = true → fieldAt pkt 6 2 = 1 → d.firstSq * 64 ≤ fieldAt pkt 16 6 % 2 ^ 32 →
      fieldAt pkt 16 6 % 2 ^ 32 < d.firstSq * 64 + d.blocks →
      let a := d.ledger + 64 * (fieldAt pkt 16 6 % 2 ^ 32 - d.firstSq * 64)
      a % 64 = 0 → s.backedSpan a 64 = true → s.soundSpan a 64 →
      ∃ t, exec (.digestPacket pkt) s = .next t ∧ t.load (a + 24 + 8 * h) 8 = fieldAt pkt 24 8 ∧
        t.load (a + 56 + h) 1 = fieldAt pkt 8 1 ∧ (t.load (a + 60) 1).testBit h = true ∧
        ∀ x, x < a + 24 ∨ a + 61 ≤ x → t.byte x = s.byte x)) ∧
  (∀ (s : State) (key : Nat), s.Reaches (.updVerify key) →
    (key.testBit 63 = false ∨ s.on F.UPD_STATUS.VERIFY_BUSY = true →
      exec (.updVerify key) s = .next (s.put F.UPD_VERIFY_KEY.VALUE key)) ∧
    (key.testBit 63 = true → s.on F.UPD_STATUS.VERIFY_BUSY = false →
      (∀ r n, (s.put F.UPD_VERIFY_KEY.VALUE key).verifyBlocks (bits key 0 48) (s.get F.UPD_VERIFY_COUNT.VALUE) = (r, some n) →
        r.flt.fatal = [] → ∃ t, exec (.updVerify key) s = .next t ∧ t.on F.UPD_STATUS.VERIFY_BUSY = true ∧
          t.on F.UPD_VERIFY_RESULT.DONE = false ∧ t.upd.verifying = some n) ∧
      (∀ r, (s.put F.UPD_VERIFY_KEY.VALUE key).verifyBlocks (bits key 0 48) (s.get F.UPD_VERIFY_COUNT.VALUE) = (r, none) →
        r.flt.fatal = [] → exec (.updVerify key) s = .next (r.flag F.UPD_VERIFY_RESULT.ERROR)))) ∧
  (∀ (s : State) (n : Nat), s.Reaches .updVerifyDone → s.upd.verifying = some n →
    Completes .updVerifyDone s [.upd]
      [(F.UPD_VERIFY_RESULT.MISMATCHES, 0, 0), (F.UPD_VERIFY_RESULT.DONE, 0, 0), (F.UPD_STATUS.VERIFY_BUSY, 0, 0)] fun t =>
        t.get F.UPD_VERIFY_RESULT.MISMATCHES = min n (2 ^ 32 - 1) ∧ t.on F.UPD_VERIFY_RESULT.DONE = true ∧
        t.on F.UPD_STATUS.VERIFY_BUSY = false ∧ t.upd.verifying = none) ∧
  (∀ (s : State) (unum : Nat), s.Reaches (.updRewind unum) → unum.testBit 63 = true → s.on F.UPD_STATUS.REWIND_BUSY = false →
    (s.schedStill = false → Completes (.updRewind unum) s [] [(F.UPD_REWIND.UNUM, 0, 0), (F.UPD_EVENTS.REWIND_REFUSED, 0, 0)]
      fun t => t.on F.UPD_EVENTS.REWIND_REFUSED = true) ∧
    (s.schedStill = true → s.shardCount = none → ∃ t, exec (.updRewind unum) s = .next t ∧
      t.get F.UPD_UNUM.VALUE = unum % 2 ^ 40 ∧ t.on F.UPD_STATUS.REWIND_BUSY = true ∧ t.upd.rewinding = true ∧ t.mem = s.mem)) ∧
  (∀ s : State, s.Reaches .updRewindDone → s.upd.rewinding = true →
    Completes .updRewindDone s [.upd] [(F.UPD_STATUS.REWIND_BUSY, 0, 0)] fun t =>
      t.on F.UPD_STATUS.REWIND_BUSY = false ∧ t.upd.rewinding = false)

/-- ROPEN opens its tag, with what its entry says, and waits (R359, R360); ALLR writes its result once every element of it
stands, and its tag closes (R380). A reduction packet that fails its CRC, or is of another step or group, is stray; one
whose tag is not open is held (R365); a result packet of an FP32 destination is written there (R371). A sampled element
whose check result does not come is treated as compared, and the timeout is recorded (R378). -/
def Obligations.ReductionsOpenHoldAndDeliver : Prop :=
  (∀ (s s₁ : State) (u k : Nat) (p : BitVec 192) (tag : OpenTag), s.Reaches (.ropen u p) → s.unitFree u = true →
    s.findOp u 0x45 (bytesOf p) = some k → (s.opAt u k).state = .started → (s.opAt u k).ahead = false →
    payZero p 0 8 = true → payZero p 11 13 = true → s.openCount u < 16 → s.openTag u (pay p 8 2) = none → s.rdx.hold = [] →
    (s.onOp u k fun o => { o with tag := s.get F.SCH_EPOCH.VALUE (unitDie u) }).readTag u (pay p 8 2) (pay p 10 1) (bytesOf p) =
      (s₁, .inr tag) →
    tag.dkind ≠ 0 ∨ s₁.destInRegion tag = true → tag.complete = false → s₁.flt.fatal = [] →
    ∃ t, exec (.ropen u p) s = .next t ∧ t.openTag u (pay p 8 2) = some tag ∧ (t.opAt u k).state = .waiting ∧ t.mem = s₁.mem) ∧
  (∀ (s : State) (u k : Nat) (p : BitVec 192) (tag : OpenTag), s.Reaches (.allr u p) → s.unitFree u = true →
    s.openTag u (pay p 16 2) = some tag → tag.allr = true → tag.payload = bytesOf p → tag.delivered = tag.s →
    s.findOp u 0x47 (bytesOf p) = some k → (s.opAt u k).state = .waiting → (s.opAt u k).ahead = false → (s.opAt u k).tags = [] →
    s.firstTrouble u s.asidOf (accessesOf [⟨tag.dst, 4 * tag.s, true⟩]) = none →
    let result := (List.range tag.s).flatMap fun i => toLE 4 ((lookupKey i tag.results).getD 0)
    let w := (s.closeTag u (pay p 16 2)).writeAll u (unitDie u) s.asidOf [(tag.dst, result)]
    w.failed = none → w.pending = [] → w.state.flt.fatal = [] →
    ∃ t, exec (.allr u p) s = .next t ∧ t.openTag u (pay p 16 2) = none ∧ (t.opAt u k).state = .done ∧ t.mem = w.state.mem) ∧
  (∀ (s : State) (u : Nat) (pkt : Bytes) (crcOk : Bool), s.Reaches (.reductionPacket u pkt crcOk) →
    let h := redHeader pkt
    let q := tagEngine u h.kind
    (∀ x, s.openTag q h.tag = some x → x.allr = false) →
    (crcOk = false ∨ h.step ≠ s.get F.SCH_STEP.STEP % 65536 ∨ h.group ≠ s.ownGroup h.tag →
      Completes (.reductionPacket u pkt crcOk) s []
        [(F.RDX_STRAY.VALUE, unitDie u, unitInst u), (F.RDX_EVENTS.STRAY, unitDie u, unitInst u)] fun t =>
          t.on F.RDX_EVENTS.STRAY (unitDie u) (unitInst u) = true ∧
          t.get F.RDX_STRAY.VALUE (unitDie u) (unitInst u) =
            min (s.get F.RDX_STRAY.VALUE (unitDie u) (unitInst u) + 1) (2 ^ 32 - 1)) ∧
    (crcOk = true → h.step = s.get F.SCH_STEP.STEP % 65536 → h.group = s.ownGroup h.tag →
      (s.openTag q h.tag = none → (s.rdx.hold.filter fun p => p.1 == u).length < 255 →
        exec (.reductionPacket u pkt crcOk) s = .next (s.onRdx fun r => { r with hold := r.hold ++ [(u, pkt)] })) ∧
      (∀ x, s.openTag q h.tag = some x → x.round = h.round → h.kind = 2 → h.count = 1 → x.dkind = 1 → s.Inv →
        let a := x.dest + 4 * (h.offset % x.s)
        a % 4 = 0 → s.backedSpan a 4 = true → s.soundSpan a 4 →
        ∃ t, exec (.reductionPacket u pkt crcOk) s = .next t ∧ t.load a 4 = fieldAt pkt 16 4 ∧
          ∀ b, b < a ∨ a + 4 ≤ b → t.byte b = s.byte b))) ∧
  (∀ (s : State) (u tag element : Nat), s.Reaches (.checkTimeout u tag element) →
    ((∀ x, s.openTag u tag = some x → lookupKey element x.sums = none) → exec (.checkTimeout u tag element) s = .next s) ∧
    (∀ x, s.openTag u tag = some x → (lookupKey element x.sums).isSome = true →
      s.soundSpan (s.get F.RDX_VERDICT_ADDR.BASE 72 <<< 3) 8 → s.backedSpan (s.get F.RDX_VERDICT_ADDR.BASE 72 <<< 3) 8 = true →
      s.Inv → ∃ t, exec (.checkTimeout u tag element) s = .next t ∧
        t.on F.RDX_EVENTS.CHECK_TIMEOUT (unitDie u) (unitInst u) = true ∧
        (t.byte (s.get F.RDX_VERDICT_ADDR.BASE 72 <<< 3 + engineNo u)).getLsbD 2 = true))

/-! ### The Vemen fabric -/

/-- A Vemen port that is UP takes a flit by its code, CRC and sequence number (R386, R390 to R392): one that is whole and in
sequence is accepted and acknowledged, one that is not asks for a replay; idle flits only bring acknowledgements and
credits. A port that is not UP takes none. -/
def Obligations.PortsTakeFlitsInSequence : Prop :=
  ∀ (s : State) (die inst : Nat) (flit : Bytes) (corrected : Nat), s.Reaches (.vlkFlitReceive die inst flit corrected 0) →
    let c := Instr.vlkFlitReceive die inst flit corrected 0
    let f := Flit.ofBytes flit
    let p := s.vlk die inst
    (s.vlkUp die inst = false → exec c s = .next s) ∧
    (s.vlkUp die inst = true → flitCrcOk flit = false →
      Completes c s [.vrt, .out] [(F.VLK_FEC.LOW, die, inst), (F.VLK_FEC.HIGH, die, inst)] fun t =>
        (t.vlk die inst).rxSeq = p.rxSeq ∧ (t.vlk die inst).rx = p.rx ∧
        t.out = s.out ++ [.vlkFlit die inst { type := 0, ack := (p.rxSeq + 4095) % 4096, nak := true : Flit }.bytes]) ∧
    (s.vlkUp die inst = true → flitCrcOk flit = true → f.nak = false → f.ccount = 0 → p.queue = [] → p.batch = [] →
      p.retry = [] →
      (f.type = 0 → Completes c s [.vrt] [(F.VLK_FEC.LOW, die, inst), (F.VLK_FEC.HIGH, die, inst)] fun t =>
        (t.vlk die inst).rxSeq = p.rxSeq ∧ (t.vlk die inst).rx = p.rx) ∧
      (f.type ≠ 0 → f.seq ≠ p.rxSeq → p.nakSent = false →
        Completes c s [.vrt, .out] [(F.VLK_FEC.LOW, die, inst), (F.VLK_FEC.HIGH, die, inst)] fun t =>
          (t.vlk die inst).rx = p.rx ∧ (t.vlk die inst).nakSent = true ∧
          t.out = s.out ++ [.vlkFlit die inst { type := 0, ack := (p.rxSeq + 4095) % 4096, nak := true : Flit }.bytes]) ∧
      (f.type = 1 ∨ f.type = 2 → f.seq = p.rxSeq → s.vlkSec die inst = false ∨ f.tc = 0 →
        Completes c s [.vrt, .out]
          [(F.VLK_FEC.LOW, die, inst), (F.VLK_FEC.HIGH, die, inst), (F.VLK_RX_FLITS.VALUE, die, inst)] fun t =>
            (t.vlk die inst).rxSeq = (p.rxSeq + 1) % 4096 ∧ (t.vlk die inst).rx = p.rx ++ [flit] ∧
            t.out = s.out ++ [.vlkFlit die inst { type := 0, ack := f.seq : Flit }.bytes]))

/-- Outstanding flits without an acknowledgement, a lost lane lock and a write of RETRAIN take an UP port to TRAINING with its
flits held, and write a record of cause 10 (R393, R394, R422). Held flits whose port does not come back in time are
discarded and counted (R394). 64 flit times without a further one close a batch with its tag flit (R417). The partner's
ROUTING flag follows its report (R419). A training finds its width (R387), shows the partner it found, and brings the port
UP with the credits of its buffer's division (R395, R422): at full width when every lane is sound, at half when those of one
half are; a partner that the port's role does not allow leaves it in IDENT as miscabled (R414). -/
def Obligations.PortsRetrainHoldAndTrain : Prop :=
  ((∀ (s : State) (die inst : Nat) (c : Instr), s.Reaches c →
     (c = .vlkAckTimeout die inst ∧ (s.vlk die inst).retry ≠ []) ∨ c = .laneLockLoss die inst ∨ c = .vlkRetrain die inst →
     (s.vlkUp die inst = true → s.calm → ∃ t, exec c s = .next t ∧ t.get F.VLK_STATUS.STATE die inst = 1 ∧
       t.on F.VLK_EVENTS.RETRAIN die inst = true ∧ (t.vlk die inst).held = true ∧ (t.vlk die inst).retry = (s.vlk die inst).retry ∧
       (t.vlk die inst).txSeq = (s.vlk die inst).txSeq ∧ (t.vlk die inst).rxSeq = (s.vlk die inst).rxSeq) ∧
     (s.vlkUp die inst = false → exec c s = .next s)) ∧
   (∀ (s : State) (die inst : Nat), s.Reaches (.vlkHoldExpire die inst) →
     ((s.vlk die inst).held = true → s.calm → ∃ t, exec (.vlkHoldExpire die inst) s = .next t ∧
       t.on F.VLK_EVENTS.HOLD_EXPIRED die inst = true ∧
       t.get F.VLK_REPLAY.HIGH die inst =
         min (s.get F.VLK_REPLAY.HIGH die inst + ((s.vlk die inst).retry.length + (s.vlk die inst).queue.length)) (2 ^ 32 - 1) ∧
       (t.vlk die inst).retry = [] ∧ (t.vlk die inst).queue = [] ∧ (t.vlk die inst).held = false ∧
       (t.vlk die inst).txSeq = 0 ∧ (t.vlk die inst).rxSeq = 0) ∧
     ((s.vlk die inst).held = false → exec (.vlkHoldExpire die inst) s = .next s)) ∧
   (∀ (s : State) (die inst : Nat), s.Reaches (.gcmBatchClose die inst) →
     (s.vlkUp die inst = true → (s.vlk die inst).batch ≠ [] → (s.vlk die inst).retry.length < 2048 →
       Completes (.gcmBatchClose die inst) s [.vrt, .out] [(F.VLK_TX_FLITS.VALUE, die, inst)] fun t =>
         (t.vlk die inst).batch = [] ∧ (t.vlk die inst).batches = (s.vlk die inst).batches + 1 ∧
         (t.vlk die inst).txSeq = ((s.vlk die inst).txSeq + 1) % 4096 ∧
         ∃ b, t.out = s.out ++ [.vlkFlit die inst b] ∧ (t.vlk die inst).retry = (s.vlk die inst).retry ++ [b] ∧
           (Flit.ofBytes b).type = 3) ∧
     (s.vlkUp die inst = false ∨ (s.vlk die inst).batch = [] → exec (.gcmBatchClose die inst) s = .next s)) ∧
   (∀ (s : State) (die inst : Nat) (flag : Bool), s.Reaches (.peerRoutingUpdate die inst flag) →
     (s.vlkUp die inst = true → Completes (.peerRoutingUpdate die inst flag) s [] [(F.VLK_STATUS.PEER_ROUTING, die, inst)] fun t =>
       t.on F.VLK_STATUS.PEER_ROUTING die inst = flag) ∧
     (s.vlkUp die inst = false → exec (.peerRoutingUpdate die inst flag) s = .next s))) ∧
  (∀ (s : State) (die inst : Nat) (x : VlkFacts), s.Reaches (.vlkTrained die inst x) → s.vlkUp die inst = false →
     s.on F.VLK_PORT_CFG.ENABLE die inst = true → s.get F.VLK_PORT_CFG.ROLE die inst ≠ 3 →
     (trainedWidth inst x.sound = none →
       Completes (.vlkTrained die inst x) s [] [(F.VLK_STATUS.STATE, die, inst)] fun t => t.get F.VLK_STATUS.STATE die inst = 0) ∧
     (∀ half, trainedWidth inst x.sound = some half →
       (s.miscabled die inst x = true → ∃ t, exec (.vlkTrained die inst x) s = .next t ∧ t.get F.VLK_STATUS.STATE die inst = 2 ∧
         t.on F.VLK_EVENTS.MISCABLED die inst = true ∧ t.vrt = s.vrt ∧ t.mem = s.mem) ∧
       (s.miscabled die inst x = false → (s.vlk die inst).held = false →
         ∃ t, exec (.vlkTrained die inst x) s = .next t ∧ t.get F.VLK_STATUS.STATE die inst = 3 ∧
           t.on F.VLK_STATUS.HALF die inst = half ∧ t.get F.VLK_STATUS.PEER_MODULE die inst = x.module % 2 ^ F.VLK_STATUS.PEER_MODULE.len ∧
           t.on F.VLK_STATUS.PEER_ROUTING die inst = x.routing ∧
           (t.vlk die inst).partner = some (x.erg, x.module, x.port) ∧ (t.vlk die inst).txSeq = 0 ∧ (t.vlk die inst).rxSeq = 0 ∧
           (∀ tc vc, tc < 4 → vc < 8 → (t.vlk die inst).credit tc vc = s.get F.VLK_CREDIT.DEPTH die (inst * 32 + (tc * 8 + vc))) ∧
           t.out = s.out ∧ t.mem = s.mem)))

/-- A router passes a packet on (R397 to R409): one that has taken its 32nd hop is discarded and counted; one for this module is
handed to the die; one whose bank holds no valid route, or that no mirror port takes to the other erg, is discarded with
NO_ROUTE; a broadcast that the bank has no entry for is discarded with BCAST_NO_ENTRY. The bucket of a die admits its TC0
packets in the order of R581. A response to an outstanding remote access, or its timeout, ends it at its source fabric die,
and its answer goes on to the unit (R412); a response to none is counted as late. -/
def Obligations.RoutersForwardAndRemoteAccessesEnd : Prop :=
  ((∀ (s : State) (die input : Nat) (k : Packet), s.Reaches (.packetForward die input k) → input = 6 ∨ input = 7 →
     let gone := min (s.get F.VRT_COUNTS.HIGH die + flitCount k.payload.length) (2 ^ 32 - 1)
     (31 ≤ k.hops → ∃ t, exec (.packetForward die input k) s = .next t ∧ t.on F.VRT_EVENTS.HOP_LIMIT die = true ∧
       t.get F.VRT_COUNTS.HIGH die = gone ∧ t.out = s.out ∧ t.mem = s.mem) ∧
     (k.hops < 31 → k.tc ≠ 0 →
       (k.bcast = false → k.destErg = s.erg → k.dest = s.moduleNo → ∃ t, exec (.packetForward die input k) s = .next t ∧
         t.out = s.out ++ [.packet die 8 { k with hops := k.hops + 1 }] ∧ t.regs = s.regs ∧ t.mem = s.mem) ∧
       (k.bcast = false → k.destErg = s.erg → k.dest ≠ s.moduleNo → s.route die k.bank k.dest F.VRT_ROUTE.VALID = 0 →
         ∃ t, exec (.packetForward die input k) s = .next t ∧ t.on F.VRT_EVENTS.NO_ROUTE die = true ∧
           t.get F.VRT_COUNTS.HIGH die = gone ∧ t.out = s.out ∧ t.mem = s.mem) ∧
       (k.bcast = false → k.destErg ≠ s.erg → s.mirrorFor { k with hops := k.hops + 1 } = none →
         ∃ t, exec (.packetForward die input k) s = .next t ∧ t.on F.VRT_EVENTS.NO_ROUTE die = true ∧
           t.get F.VRT_COUNTS.HIGH die = gone ∧ t.out = s.out) ∧
       (k.bcast = true → s.bcastEntry die k = none →
         ∃ t, exec (.packetForward die input k) s = .next t ∧ t.on F.VRT_EVENTS.BCAST_NO_ENTRY die = true ∧
           t.get F.VRT_COUNTS.HIGH die = gone ∧ t.out = s.out) ∧
       (∀ p, k.bcast = false → k.destErg = s.erg → k.dest ≠ s.moduleNo → s.route die k.bank k.dest F.VRT_ROUTE.VALID ≠ 0 →
         p = s.route die k.bank k.dest F.VRT_ROUTE.PRIMARY → k.tc ≠ 2 → k.vc < 2 → s.portTakes p k = true → portDie p ≠ die →
         ∃ t, exec (.packetForward die input k) s = .next t ∧
           t.out = s.out ++ [.packet die (if ringHop die (portDie p) = 1 then 6 else 7) { k with hops := k.hops + 1, vc := 0 }]))) ∧
   (∀ (s : State) (die : Nat), s.Reaches (.tc0Inject die) →
     (s.nextTc0 die = none → exec (.tc0Inject die) s = .next s) ∧
     (∀ k, s.nextTc0 die = some k → ∃ t, exec (.tc0Inject die) s = .next t ∧
       t.vrt.tc0 = removeFirst (· == (die, k)) s.vrt.tc0 ∧ t.mem = s.mem ∧
       ∀ q ∈ s.vrt.tc0, q.1 = die → tc0Rank k.payload ≤ tc0Rank q.2.payload))) ∧
  ((∀ (s : State) (die tag status : Nat) (data : Bytes), s.Reaches (.remoteResponse die tag status data) →
     (s.outstanding die tag = none → Completes (.remoteResponse die tag status data) s []
       [(F.VRT_LATE.LOW, die, 0), (F.VRT_EVENTS.REMOTE_LATE, die, 0)] fun t =>
         t.on F.VRT_EVENTS.REMOTE_LATE die = true ∧ t.get F.VRT_LATE.LOW die = min (s.get F.VRT_LATE.LOW die + 1) (2 ^ 32 - 1)) ∧
     (∀ r, s.outstanding die tag = some r → r.write = true ∨ status ≠ 0 ∨ data.length = r.len →
       exec (.remoteResponse die tag status data) s = .next (s.onRem fun m =>
         { m with pending := removeFirst (· == r) m.pending
                  answers := m.answers ++ [(r, status, if status = 0 ∧ r.write = false then data else [])] }))) ∧
   (∀ (s : State) (die tag : Nat), s.Reaches (.remoteTimeout die tag) →
     (s.outstanding die tag = none → exec (.remoteTimeout die tag) s = .next s) ∧
     (∀ r, s.outstanding die tag = some r → Completes (.remoteTimeout die tag) s [.rem] [(F.VRT_EVENTS.REMOTE_TIMEOUT, die, 0)] fun t =>
       t.on F.VRT_EVENTS.REMOTE_TIMEOUT die = true ∧ t.rem.pending = removeFirst (· == r) s.rem.pending ∧
       t.rem.answers = s.rem.answers ++ [(r, 1, [])])))

/-- Each fabric die reads ROUTING where the bank in force is valid and the module has not left (R419 to R421): a write of LEAVE
or JOIN in FD0's window, and a write of VRT_BANK, act on it. While RUN is 1 a write does not move CURRENT, and neither a
bank in force nor an armed one takes a write of an entry: BANK_WRITE_DISCARD is set (R410). -/
def Obligations.BanksAndRoutingFollowTheirWrites : Prop :=
  (∀ (s : State) (c : Instr) (left : Bool), s.Reaches c → (c = .leave 72 ∧ left = true) ∨ (c = .join 72 ∧ left = false) →
    ∃ t, exec c s = .next t ∧ t.vrt = { s.vrt with left := left } ∧ t.mem = s.mem ∧
      ∀ d ∈ [72, 73, 74, 75], t.on F.VRT_BANK.ROUTING d =
        ((s.get F.VRT_BANK.VALID d).testBit (s.get F.VRT_BANK.CURRENT d) && !left)) ∧
  (∀ (s : State) (c : Instr) (die : Nat), s.Reaches c → die ≠ 72 → c = .leave die ∨ c = .join die → exec c s = .next s) ∧
  (∀ (s : State) (die v : Nat), s.Reaches (.vrtBankWrite die 2 v) →
    ∃ t, exec (.vrtBankWrite die 2 v) s = .next t ∧ t.mem = s.mem ∧
      (s.on F.SCH_CTRL.RUN = true → t.get F.VRT_BANK.CURRENT die = s.get F.VRT_BANK.CURRENT die ∧
        (bits v F.VRT_BANK.CURRENT.lo 2 ≠ s.get F.VRT_BANK.CURRENT die → t.on F.VRT_EVENTS.BANK_WRITE_DISCARD die = true)) ∧
      (s.on F.SCH_CTRL.RUN = false → t.get F.VRT_BANK.CURRENT die = bits v F.VRT_BANK.CURRENT.lo 2) ∧
      ∀ d ∈ [72, 73, 74, 75], t.on F.VRT_BANK.ROUTING d =
        ((t.get F.VRT_BANK.VALID d).testBit (t.get F.VRT_BANK.CURRENT d) && !s.vrt.left)) ∧
  (∀ (s : State) (die idx v : Nat) (bcast : Bool), s.Reaches (.routeEntryWrite die bcast idx 2 v) →
    let bank := if bcast then idx / 16 else idx / 4096
    (bank = s.get F.VRT_BANK.CURRENT die ∨ (s.on F.VRT_BANK.ARMED die = true ∧ s.get F.VRT_BANK.ARM_BANK die = bank) →
      exec (.routeEntryWrite die bcast idx 2 v) s = .next (s.flag F.VRT_EVENTS.BANK_WRITE_DISCARD die)) ∧
    (bank ≠ s.get F.VRT_BANK.CURRENT die → s.on F.VRT_BANK.ARMED die = false ∨ s.get F.VRT_BANK.ARM_BANK die ≠ bank →
      ∃ t, exec (.routeEntryWrite die bcast idx 2 v) s = .next t ∧ (∀ p : Part, p.same s t) ∧
        (∀ r d i, r ≠ (if bcast then Reg.VRT_BCAST else Reg.VRT_ROUTE) ∨ d ≠ die ∨ i ≠ idx → t.word r d i = s.word r d i) ∧
        (bcast = false → t.get F.VRT_ROUTE.VALID die idx = bits v F.VRT_ROUTE.VALID.lo 1 ∧
          t.get F.VRT_ROUTE.PRIMARY die idx = bits v F.VRT_ROUTE.PRIMARY.lo F.VRT_ROUTE.PRIMARY.len ∧
          t.get F.VRT_ROUTE.ALT die idx = bits v F.VRT_ROUTE.ALT.lo F.VRT_ROUTE.ALT.len ∧
          t.get F.VRT_ROUTE.ADAPT die idx = bits v F.VRT_ROUTE.ADAPT.lo F.VRT_ROUTE.ADAPT.len) ∧
        (bcast = true → t.get F.VRT_BCAST.MASK die idx = bits v F.VRT_BCAST.MASK.lo F.VRT_BCAST.MASK.len)))

/-! ### Translation -/

/-- A miss slot's record enters the miss queue, or the slot waits while the queue is full (R431, R432). A fill installs its
page, so that every address of it translates as the fill says (R430, R433); an answer to no slot is late, a covered slot's
accesses miss again, and ACTION 2, a bad fill and the timeout fault the accesses that wait: their unit stalls (R434, R437,
R439). XPF looks up its granules in order (R435): where all translate it writes its item, the granule count, and completes;
at a miss it opens a slot and waits; at a fault it stalls. A payload the spec does not allow ends with an error status. -/
def Obligations.MissesAndPrefetchesTranslate : Prop :=
  ((∀ (s : State) (die slot : Nat), s.Inv → s.Reaches (.missRecordWrite die slot) →
     let c := Instr.missRecordWrite die slot
     let tail := s.get F.XLT_MISSQ_PTR.TAIL
     let a := s.get F.XLT_MISSQ_BASE.BASE <<< 15 + 32 * (tail % 1024)
     (s.missSlot die slot = none → exec c s = .next s) ∧
     (∀ m, s.missSlot die slot = some m →
       (m.written = true → exec c s = .next s) ∧
       (m.written = false → s.missqFull = true → exec c s = .next (s.flag F.XLT_EVENTS.MISSQ_FULL die)) ∧
       (m.written = false → s.missqFull = false → s.backedSpan a 32 = true → s.soundSpan a 32 → ∃ t, exec c s = .next t ∧
         t.get F.XLT_MISSQ_PTR.TAIL = (tail + 1) % 2048 ∧ t.missSlot die slot = some { m with written := true } ∧
         t.bytes a 32 = m.bytes (!bit tail 10) ∧ ∀ b, b < a ∨ a + 32 ≤ b → t.byte b = s.byte b))) ∧
   (∀ (s : State) (die slot v : Nat) (c : Instr), s.Reaches c → c = .xltRespFill die slot v ∨ c = .xltRespFault die slot →
     (s.missSlot die slot = none → Completes c s [] [(F.XLT_COUNTS.LATE, die, 0), (F.XLT_EVENTS.RESP_LATE, die, 0)] fun t =>
       t.on F.XLT_EVENTS.RESP_LATE die = true ∧
       t.get F.XLT_COUNTS.LATE die = min (s.get F.XLT_COUNTS.LATE die + 1) (2 ^ F.XLT_COUNTS.LATE.len - 1)) ∧
     (∀ m, s.missSlot die slot = some m → m.stale = true → exec c s = .next
       (m.waiters.foldl (fun s w => s.openMiss die m.asid w m.ahead) (s.closeSlot die slot)))) ∧
   (∀ (s : State) (die slot v : Nat) (m : MissSlot), s.Reaches (.xltRespFill die slot v) → s.missSlot die slot = some m →
     m.stale = false → bits v 60 2 ≠ 3 → (bits v 16 44 <<< 16) % 2 ^ pageBits (bits v 60 2) = 0 →
     let z := pageBits (bits v 60 2)
     Completes (.xltRespFill die slot v) s [.xlt] [] fun t =>
       t.xlt.slots = removeFirst (fun n => n.die == die && n.slot == slot) s.xlt.slots ∧
       ∀ va write, va / 2 ^ z = m.vaddr / 2 ^ z → va < 2 ^ 56 → t.lookupVa die m.asid va write =
         if (if write then bit v 1 else bit v 0) then .hit ((bits v 16 44 <<< 16) + va % 2 ^ z) else .fault 2) ∧
   (∀ (s : State) (die slot v k : Nat) (m : MissSlot) (w : Waiter) (c : Instr), s.Reaches c → s.missSlot die slot = some m →
     (c = .xltRespFault die slot ∧ m.stale = false) ∨ (c = .xltMissTimeout die slot ∧ m.written = true) ∨
       (c = .xltRespFill die slot v ∧ m.stale = false ∧ bits v 60 2 = 3) →
     m.waiters = [w] → isStreamUnit w.unit = true → s.waitingOp w.unit w.op = some k → (s.opAt w.unit k).ahead = false →
     (s.opAt w.unit k).cut = false → s.calm → ∃ t, exec c s = .next t ∧
       t.xlt.slots = removeFirst (fun n => n.die == die && n.slot == slot) s.xlt.slots ∧ t.xlt.entries = s.xlt.entries ∧
       (t.unit w.unit).stall = some ⟨w.vaddr, w.write, m.asid, w.op⟩ ∧ (t.opAt w.unit k).state = .waiting ∧
       t.get F.XLT_COUNTS.FAULTS (unitDie w.unit) =
         min (s.get F.XLT_COUNTS.FAULTS (unitDie w.unit) + 1) (2 ^ F.XLT_COUNTS.FAULTS.len - 1)) ∧
   (∀ (s : State) (die slot : Nat), s.Reaches (.xltMissTimeout die slot) →
     (∀ m, s.missSlot die slot = some m → m.written = false) → exec (.xltMissTimeout die slot) s = .next s)) ∧
  (∀ (s : State) (die k : Nat) (p : BitVec 192), s.Inv → s.Reaches (.xpf die p) → s.unitFree (unitId die 8 0) = true →
     s.findOp (unitId die 8 0) 0x50 (bytesOf p) = some k →
     let u := unitId die 8 0
     let n := pay p 8 4
     let write := payBits p 12 0 1 == 1
     let va (i : Nat) := (pay p 0 8 / 65536 + i) * 65536
     (n ≠ 0 → payBits p 12 1 7 = 0 → payZero p 13 11 = true →
       ((∀ i, i < n → va i < 2 ^ 56 ∧
           (∃ e ∈ s.xlt.entries, e.die = die ∧ e.asid = s.asidOf ∧ e.page = va i >>> e.size) ∧
           ∀ e ∈ s.xlt.entries, e.die = die → e.asid = s.asidOf → e.page = va i >>> e.size → (if write then e.w else e.r) = true) →
         ∃ t, exec (.xpf die p) s = .next t ∧
         (t.opAt u k).state = .done ∧ (∀ e, e ∈ t.xlt.entries ↔ e ∈ s.xlt.entries) ∧
         ((s.opAt u k).outs = [] → t.mem = s.mem) ∧
         (∀ ch j im c, (s.opAt u k).outs = [(ch, j)] → s.sched.image = some im → im.channels[ch]? = some c →
           s.backedSpan (c.itemAt j) 64 = true → t.bytes (c.itemAt j) 64 = toLE 4 n ++ zeros 60)) ∧
       (n = 1 → s.lookupVa die s.asidOf (va 0) write = .miss → (s.opAt u k).ahead = false →
         exec (.xpf die p) s = .next ((s.openMiss die s.asidOf ⟨u, va 0, write, (s.opAt u k).entry⟩ true).waitOp u k)) ∧
       (∀ cause, s.lookupVa die s.asidOf (va 0) write = .fault cause → (s.opAt u k).ahead = false → (s.opAt u k).cut = false →
         s.calm → ∃ t, exec (.xpf die p) s = .next t ∧ (t.opAt u k).state = .waiting ∧
           (t.unit u).stall = some ⟨va 0, write, s.asidOf, (s.opAt u k).entry⟩)) ∧
     (n = 0 ∨ payBits p 12 1 7 ≠ 0 ∨ payZero p 13 11 = false → (s.opAt u k).ahead = false → s.calm →
       ∃ t, exec (.xpf die p) s = .next t ∧ (t.opAt u k).state = .failed))

/-- An invalidation removes every entry that its scope covers and marks the open misses it covers (R437); it is refused while
one is under way, and where its scope names nothing. It is done once the accesses translated by a removed entry are (R438).
A resumption names a stalled unit or is discarded (R440). RETRY translates the access again; ABORT ends its operation with
an error status and no further record, and a queue command with STATUS 2. -/
def Obligations.InvalidationsAndResumptions : Prop :=
  ((∀ (s : State) (die v : Nat), s.Reaches (.xltInval die v) →
     let scope := bits v 44 2
     let pages := bits v 28 16
     let asid := bits v 0 12
     let lo := s.get F.XLT_INVAL_VA.VA die <<< 16
     let c := Instr.xltInval die v
     (s.on F.XLT_INVAL.DONE die = false → ∃ t, exec c s = .next t ∧ t.xlt = s.xlt ∧ t.on F.XLT_EVENTS.INVAL_BUSY die = true) ∧
     (s.on F.XLT_INVAL.DONE die = true → scope = 3 ∨ (scope = 2 ∧ pages = 0) → ∃ t, exec c s = .next t ∧ t.xlt = s.xlt ∧
       t.on F.XLT_EVENTS.INVAL_BAD die = true ∧ t.on F.XLT_INVAL.DONE die = true) ∧
     (s.on F.XLT_INVAL.DONE die = true → scope ≠ 3 → scope ≠ 2 ∨ pages ≠ 0 → ∃ t, exec c s = .next t ∧
       t.on F.XLT_INVAL.DONE die = false ∧ (∀ p : Part, p ≠ .xlt → p.same s t) ∧
       (∀ e, e ∈ t.xlt.entries ↔ e ∈ s.xlt.entries ∧
         ¬(e.die = die ∧ covers scope asid lo (pages <<< 16) e.asid (e.page <<< e.size) (2 ^ e.size) = true)) ∧
       t.xlt.slots = s.xlt.slots.map fun m =>
         if m.die = die ∧ covers scope asid lo (pages <<< 16) m.asid (m.granule <<< 16) 65536 = true then { m with stale := true }
         else m)) ∧
   (∀ (s : State) (die : Nat), s.Reaches (.xltInvalDone die) →
     (lookupKey die s.xlt.inval = none → exec (.xltInvalDone die) s = .next s) ∧
     (∀ tags, lookupKey die s.xlt.inval = some tags →
       ((∃ t ∈ tags, t ∈ (s.waysOut die).map (·.1)) → exec (.xltInvalDone die) s = .next s) ∧
       ((∀ t ∈ tags, t ∉ (s.waysOut die).map (·.1)) →
         Completes (.xltInvalDone die) s [.xlt] [(F.XLT_INVAL.DONE, die, 0)] fun t =>
           t.on F.XLT_INVAL.DONE die = true ∧ t.xlt = { s.xlt with inval := dropKey die s.xlt.inval })))) ∧
  (∀ (s : State) (c : Instr) (target : Nat), s.Reaches c → c = .fltResumeRetry target ∨ c = .fltResumeAbort target →
     (s.stallOf target = none → exec c s = .next (s.flag F.FLT_EVENTS.RESUME_DISCARD)) ∧
     (∀ a, s.stallOf target = some a →
       (c = .fltResumeRetry target →
         (∀ pa, s.lookupVa (unitDie target) a.asid a.vaddr a.write = .hit pa → exec c s = .next (s.endStall target a)) ∧
         (s.lookupVa (unitDie target) a.asid a.vaddr a.write = .miss → exec c s = .next
           ((s.endStall target a).openMiss (unitDie target) a.asid ⟨target, a.vaddr, a.write, a.op⟩ false)) ∧
         (∀ cause k, s.lookupVa (unitDie target) a.asid a.vaddr a.write = .fault cause → isStreamUnit target = true →
           s.waitingOp target a.op = some k → (s.opAt target k).ahead = false → (s.opAt target k).cut = false → s.calm →
           ∃ t, exec c s = .next t ∧ (t.unit target).stall = some a)) ∧
       (c = .fltResumeAbort target →
         (∀ k, isStreamUnit target = true → s.waitingOp target a.op = some k → ∃ t, exec c s = .next t ∧
           (t.opAt target k).state = .failed ∧ (t.unit target).stall = none ∧ t.mem = s.mem ∧ t.flt = s.flt) ∧
         (isStreamUnit target = false → ∃ t, exec c s = .next t ∧ t.regs = s.regs ∧ t.mem = s.mem ∧
           ∀ q, s.qcx.cmds.find? (fun x => x.key == a.op) = some q →
             t.qcx.cmds.find? (fun x => x.key == a.op) = some { q with stall := none, status := some 2 }))))

/-! ### Faults -/

/-- A record of a unit enters the fault queue while it is enabled, has room and OVERFLOW is 0 (R442); otherwise it takes its
unit's wadi slot, and OVERFLOW is set (R443 to R445), or, with that slot occupied, stays with its unit. The module counts it
in its window, and haboob mode begins when the count exceeds ENTER (R544, R547). A forwarded copy is queued like a record
and not counted (R541). -/
def Obligations.RecordsFindTheirPlace : Prop :=
  (∀ (s : State) (r : FaultRec), s.Inv → s.Reaches (.faultRecord r) →
    let tail := s.get F.FLT_QPTR.TAIL
    let a := s.get F.FLT_QBASE.BASE <<< 17 + 64 * (tail % 4096)
    let slot := wadiSlot r.unit
    let w := s.get F.FLT_WADI_BASE.BASE <<< 17 + 64 * slot
    (s.calm → ¬(isMemory (unitDie r.unit) = true ∧ r.cause = 7) →
      (s.on F.FLT_QBASE.ENABLE = true → s.fltFull = false → s.on F.FLT_STATUS.OVERFLOW = false → s.backedSpan a 64 = true →
        ∃ t, exec (.faultRecord r) s = .next t ∧ t.get F.FLT_QPTR.TAIL = (tail + 1) % 8192 ∧
          t.bytes a 64 = r.bytes (!bit tail 12) false ∧ (∀ b, b < a ∨ a + 64 ≤ b → t.byte b = s.byte b) ∧
          t.get F.FLT_RATE.CURRENT = s.get F.FLT_RATE.CURRENT + 1 ∧
          t.get F.FLT_DIE_HEALTH.WINDOW (unitDie r.unit) =
            min (s.get F.FLT_DIE_HEALTH.WINDOW (unitDie r.unit) + 1) (2 ^ F.FLT_DIE_HEALTH.WINDOW.len - 1)) ∧
      (s.on F.FLT_QBASE.ENABLE = false ∨ s.fltFull = true ∨ s.on F.FLT_STATUS.OVERFLOW = true → isFaultCapable r.unit = true →
        (slot ∉ s.flt.wadi → s.backedSpan w 64 = true → ∃ t, exec (.faultRecord r) s = .next t ∧
          t.bytes w 64 = r.bytes false true ∧ slot ∈ t.flt.wadi ∧ t.on F.FLT_STATUS.OVERFLOW = true ∧
          t.get F.FLT_QPTR.TAIL = tail) ∧
        (slot ∈ s.flt.wadi → ∃ t, exec (.faultRecord r) s = .next t ∧ (t.unit r.unit).blocked = (s.unit r.unit).blocked ++ [r] ∧
          t.mem = s.mem))) ∧
    (s.on F.FLT_HABOOB.ACTIVE = false → s.get F.FLT_HABOOB.ENTER < s.get F.FLT_RATE.CURRENT + 1 →
      s.get F.FLT_RATE.CURRENT + 1 < 2 ^ F.FLT_RATE.CURRENT.len → ∃ t, exec (.faultRecord r) s = .next t ∧
        t.on F.FLT_HABOOB.ACTIVE = true ∧ t.on F.FLT_HABOOB.ENTERED = true)) ∧
  (∀ (s : State) (rec : Bytes), s.Inv → s.Reaches (.faultRecordCopy rec) →
    let tail := s.get F.FLT_QPTR.TAIL
    let a := s.get F.FLT_QBASE.BASE <<< 17 + 64 * (tail % 4096)
    (s.on F.FLT_FWD.VALID = false → exec (.faultRecordCopy rec) s = .next s) ∧
    (s.on F.FLT_FWD.VALID = true → s.on F.FLT_QBASE.ENABLE = true → s.fltFull = false → s.on F.FLT_STATUS.OVERFLOW = false →
      s.backedSpan a 64 = true → ∃ t, exec (.faultRecordCopy rec) s = .next t ∧ t.get F.FLT_QPTR.TAIL = (tail + 1) % 8192 ∧
        t.bytes a 64 = (FaultRec.ofBytes rec).bytes (!bit tail 12) false ∧ t.get F.FLT_RATE.CURRENT = s.get F.FLT_RATE.CURRENT))

/-- A released wadi slot is free, and with the last one OVERFLOW clears (R446). Haboob mode ends once its windows were quiet,
its table written (R546, R547). A control parity error makes its die fatal with CAUSE 1, the first cause standing (R549),
and its halt follows (R550). RESTORE arms a restoring start in IDLE or HALTED alone (R555). -/
def Obligations.FaultStateIsReleasedAndRaised : Prop :=
  (∀ (s : State) (slot : Nat), s.Reaches (.fltWadiRelease slot) →
    (slot ∉ s.flt.wadi → exec (.fltWadiRelease slot) s = .next s) ∧
    (slot ∈ s.flt.wadi → s.blockedOn slot = [] → Completes (.fltWadiRelease slot) s [.flt]
      [(F.FLT_STATUS.WADI_USED, 64, 0), (F.FLT_STATUS.OVERFLOW, 64, 0)] fun t =>
        t.flt = { s.flt with wadi := s.flt.wadi.filter (· != slot) } ∧
        t.get F.FLT_STATUS.WADI_USED = t.flt.wadi.length % 2 ^ F.FLT_STATUS.WADI_USED.len ∧
        t.on F.FLT_STATUS.OVERFLOW = (s.on F.FLT_STATUS.OVERFLOW && !t.flt.wadi.isEmpty))) ∧
  (∀ s : State, s.Reaches .haboobExit →
    let past := s.on F.FLT_HABOOB.ACTIVE = true ∧ s.get F.FLT_HABOOB.QUIET ≤ s.flt.quiet ∧
      s.get F.FLT_RATE.CURRENT ≤ s.get F.FLT_HABOOB.ENTER
    (past → ∃ t, exec .haboobExit s = .next t ∧ t.on F.FLT_HABOOB.ACTIVE = false ∧ t.flt.coalesce = [] ∧ t.flt.quiet = 0 ∧
      (s.flt.coalesce = [] → t.mem = s.mem)) ∧
    (¬past → exec .haboobExit s = .next s)) ∧
  (∀ (s : State) (die : Nat), s.Reaches (.controlParityError die) →
    (s.on F.FLT_DIE_HEALTH.FATAL die = true → exec (.controlParityError die) s = .next s) ∧
    (s.on F.FLT_DIE_HEALTH.FATAL die = false → ∃ t, exec (.controlParityError die) s = .next t ∧
      t.on F.FLT_DIE_HEALTH.FATAL die = true ∧ t.get F.FLT_DIE_HEALTH.CAUSE die = 1 ∧ t.flt.fatal = [] ∧ t.sched.halt = true ∧
      t.on F.FLT_RECOVERY.VALID = true ∧ (s.on F.FLT_RECOVERY.VALID = false → t.get F.FLT_RECOVERY.REASON = 1) ∧
      (s.active = false → t.sched.st = .halted))) ∧
  (∀ s : State, s.Reaches .fltRecoveryRestore →
    (s.sched.st = .idle ∨ s.sched.st = .halted → Completes .fltRecoveryRestore s [] [(F.FLT_RECOVERY.ARMED, 64, 0)] fun t =>
      t.on F.FLT_RECOVERY.ARMED = true) ∧
    (s.sched.st ≠ .idle → s.sched.st ≠ .halted → exec .fltRecoveryRestore s = .next s))

/-! ### Synchronisation -/

/-- A signal, from a core, a packet or an operation, adds to its counter modulo 2^32 or sets it, and leaves its signaller in the
LAST registers (R450, R453); a WAIT whose condition then holds completes, and one that consumes takes its target away (R454,
R456). An object that is no counter takes none. A remote SIGNAL leaves as a packet (R453). -/
def Obligations.SignalsReachTheirCounter : Prop :=
  (∀ (s : State) (c : Instr) (die obj org value : Nat) (set : Bool), s.Reaches c →
    ((∃ v, c = .synObjSignal die obj org v ∧ set = bit v 32 ∧ value = bits v 0 32) ∨
      ∃ pkt, c = .signalPacket pkt ∧ crcHolds 64 pkt = true ∧ SynPacket.ofBytes pkt =
          { SynPacket.ofBytes pkt with type := 0x10, die := die, index := obj, source := org, mode := set, value := value } ∧
        (s.on F.SYN_OBJ_CFG.RESET die obj = false ∨ ((SynPacket.ofBytes pkt).step = s.get F.SCH_STEP.STEP % 65536 ∧
          (SynPacket.ofBytes pkt).replay = s.get F.SCH_REPLAY.COUNT))) →
    isObject die obj = true → s.get F.SYN_OBJ_CFG.KIND die obj = 1 →
    let v := (if set then value else s.get F.SYN_OBJ_VALUE.VALUE die obj + value) % 2 ^ 32
    ((∀ w ∈ s.waitersOf die obj, w.holds v = false) → Completes c s [] [(F.SYN_OBJ_VALUE.VALUE, die, obj),
      (F.SYN_OBJ_LAST.VALID, die, obj), (F.SYN_OBJ_LAST.ORIGINATOR, die, obj), (F.SYN_OBJ_LAST_TICK.TICK, die, obj)] fun t =>
        t.get F.SYN_OBJ_VALUE.VALUE die obj = v ∧ t.on F.SYN_OBJ_LAST.VALID die obj = true ∧
        t.get F.SYN_OBJ_LAST.ORIGINATOR die obj = org % 2 ^ 29 ∧ t.get F.SYN_OBJ_LAST_TICK.TICK die obj = s.now die) ∧
    (∀ w k, s.waitersOf die obj = [w] → w.holds v = true → s.waiterOp w = some k → ∃ t, exec c s = .next t ∧
      t.get F.SYN_OBJ_VALUE.VALUE die obj = (if w.kind = 0 ∧ w.consume = true then v - w.target else v) ∧
      t.waitersOf die obj = [] ∧ t.get F.SYN_OBJ_VALUE.WAITERS die obj = 0 ∧ (t.opAt w.unit k).state = .done)) ∧
  (∀ (s : State) (die obj core v : Nat), s.Reaches (.synObjSignal die obj core v) → s.get F.SYN_OBJ_CFG.KIND die obj ≠ 1 →
    exec (.synObjSignal die obj core v) s = .next s) ∧
  (∀ (s : State) (die k : Nat) (p : BitVec 192), s.Reaches (.signal die p) → s.unitFree (synUnit die) = true →
    (s.unit (synUnit die)).ops.findIdx? (fun o => o.opclass == 0x58 && o.payload == bytesOf p && o.state == .started) = some k →
    pay p 8 1 ≤ 1 → payBits p 2 13 2 = 0 → payZero p 9 15 = true →
    let u := synUnit die
    let obj := pay p 0 1
    let od := pay p 1 1
    let module := payBits p 2 0 12
    let erg := payBits p 2 12 1
    let v := (if pay p 8 1 = 1 then pay p 4 4 else s.get F.SYN_OBJ_VALUE.VALUE od obj + pay p 4 4) % 2 ^ 32
    (payBits p 2 15 1 = 0 ∨ (module = s.moduleNo ∧ erg = s.erg) → s.badObject od obj 1 = false →
      (∀ w ∈ s.waitersOf od obj, w.holds v = false) → ∃ t, exec (.signal die p) s = .next t ∧
        t.get F.SYN_OBJ_VALUE.VALUE od obj = v ∧ t.get F.SYN_OBJ_LAST.ORIGINATOR od obj = s.originator u % 2 ^ 29 ∧
        (t.opAt u k).state = .done ∧ ∀ q : Part, q ≠ .sched → q.same s t) ∧
    (payBits p 2 15 1 = 1 → ¬(module = s.moduleNo ∧ erg = s.erg) → isObject od obj = true →
      s.noRouteTo (unitDie u) module erg = false → ∃ t, exec (.signal die p) s = .next t ∧ t.regs = s.regs ∧ t.mem = s.mem ∧
        t.vrt.tc0 = s.vrt.tc0 ++ [(s.sourceFd (unitDie u),
          s.tc0Packet module erg false (s.signalPacket u od obj (pay p 8 1 == 1) (pay p 4 4)).bytes)] ∧
        (t.opAt u k).state = .writing))

/-- WAIT and BAR register as waiters of their object (R452, R454, R458): a WAIT whose condition holds completes at once, one
whose condition does not waits; a BAR's arrival counts, and the arrival that completes the round of a root ends it. One that
names no object of its kind, or finds 16 waiters, ends with its cause (R455). A waiter whose time is over ends with cause 4
(R457). -/
def Obligations.WaitsAndBarriersHoldTheirOperation : Prop :=
  (∀ (s : State) (die k cls kind cause : Nat) (p : BitVec 192) (c : Instr), s.Reaches c → s.unitFree (synUnit die) = true →
    (c = .signal die p ∧ cls = 0x58 ∧ kind = 1) ∨ (c = .wait die p ∧ cls = 0x59 ∧ kind = 1) ∨
      (c = .bar die p ∧ cls = 0x5A ∧ kind = 2) →
    (s.unit (synUnit die)).ops.findIdx? (fun o => o.opclass == cls && o.payload == bytesOf p && o.state == .started) = some k →
    let bad := if cls = 0x58 then pay p 8 1 > 1 ∨ payBits p 2 13 2 ≠ 0 ∨ payZero p 9 15 = false
      else if cls = 0x59 then payZero p 2 2 = false ∨ payBits p 8 2 14 ≠ 0 ∨ payZero p 12 12 = false
      else payZero p 2 8 = false ∨ payZero p 12 12 = false
    (bad ∧ cause = 1) ∨ (¬bad ∧ (cls = 0x58 → payBits p 2 15 1 = 0) ∧ s.badObject (pay p 1 1) (pay p 0 1) kind = true ∧ cause = 2) ∨
      (¬bad ∧ cls ≠ 0x58 ∧ s.badObject (pay p 1 1) (pay p 0 1) kind = false ∧
        16 ≤ (s.waitersOf (pay p 1 1) (pay p 0 1)).length ∧ cause = 3) →
    (s.opAt (synUnit die) k).ahead = false → s.calm → s.on F.SYN_EVENTS.OP_ERROR die = false → ∃ t, exec c s = .next t ∧
      (t.opAt (synUnit die) k).state = .failed ∧ t.on F.SYN_EVENTS.OP_ERROR die = true ∧ t.get F.SYN_ERROR.CAUSE die = cause ∧
      t.get F.SYN_ERROR.INDEX die = pay p 0 1 % 64 ∧ t.syn = s.syn) ∧
  (∀ (s : State) (die k : Nat) (p : BitVec 192), s.Reaches (.wait die p) → s.unitFree (synUnit die) = true →
    (s.unit (synUnit die)).ops.findIdx? (fun o => o.opclass == 0x59 && o.payload == bytesOf p && o.state == .started) = some k →
    payZero p 2 2 = true → payBits p 8 2 14 = 0 → payZero p 12 12 = true → s.badObject (pay p 1 1) (pay p 0 1) 1 = false →
    let u := synUnit die
    let obj := pay p 0 1
    let od := pay p 1 1
    let v := s.get F.SYN_OBJ_VALUE.VALUE od obj
    let w : SynWaiter := { unit := u, kind := payBits p 8 0 1, consume := payBits p 8 0 1 == 0 && payBits p 8 1 1 == 1
                           target := pay p 4 4, op := (s.opAt u k).entry, tick := s.now (unitDie u), timeout := pay p 10 2 }
    ((s.waitersOf od obj).length < 16 → (∀ x ∈ s.waitersOf od obj ++ [w], x.holds v = false) → ∃ t, exec (.wait die p) s = .next t ∧
      t.waitersOf od obj = s.waitersOf od obj ++ [w] ∧ (t.opAt u k).state = .waiting ∧ t.get F.SYN_OBJ_VALUE.VALUE od obj = v ∧
      t.get F.SYN_OBJ_VALUE.WAITERS od obj = (s.waitersOf od obj).length + 1) ∧
    (s.waitersOf od obj = [] → w.holds v = true → (∀ o ∈ (s.unit u).ops, o.state ≠ .waiting) → ∃ t, exec (.wait die p) s = .next t ∧
      t.waitersOf od obj = [] ∧ (t.opAt u k).state = .done ∧
      t.get F.SYN_OBJ_VALUE.VALUE od obj = if w.consume = true then v - w.target else v)) ∧
  (∀ (s : State) (die k : Nat) (p : BitVec 192), s.Reaches (.bar die p) → s.unitFree (synUnit die) = true →
    (s.unit (synUnit die)).ops.findIdx? (fun o => o.opclass == 0x5A && o.payload == bytesOf p && o.state == .started) = some k →
    payZero p 2 8 = true → payZero p 12 12 = true → s.badObject (pay p 1 1) (pay p 0 1) 2 = false →
    (s.waitersOf (pay p 1 1) (pay p 0 1)).length < 16 →
    let u := synUnit die
    let obj := pay p 0 1
    let od := pay p 1 1
    let v := (s.get F.SYN_OBJ_VALUE.VALUE od obj + 1) % 2 ^ 32
    (s.on F.SYN_OBJ_VALUE.HELD od obj = true ∨ v < s.get F.SYN_OBJ_CFG.TARGET od obj → ∃ t, exec (.bar die p) s = .next t ∧
      t.get F.SYN_OBJ_VALUE.VALUE od obj = v ∧ (t.opAt u k).state = .waiting ∧
      t.get F.SYN_OBJ_VALUE.WAITERS od obj = (s.waitersOf od obj).length + 1 ∧
      t.get F.SYN_OBJ_VALUE.GEN od obj = s.get F.SYN_OBJ_VALUE.GEN od obj) ∧
    (s.on F.SYN_OBJ_VALUE.HELD od obj = false → s.get F.SYN_OBJ_CFG.TARGET od obj ≤ v →
      s.on F.SYN_OBJ_LINK.PARENT_VALID od obj = false → (∀ o ∈ (s.unit u).ops, o.state ≠ .waiting) →
      ∃ t, exec (.bar die p) s = .next t ∧ t.get F.SYN_OBJ_VALUE.VALUE od obj = 0 ∧ (t.opAt u k).state = .done ∧
        t.waitersOf od obj = [] ∧ t.get F.SYN_OBJ_VALUE.GEN od obj = (s.get F.SYN_OBJ_VALUE.GEN od obj + 1) % 256)) ∧
  (∀ (s : State) (die obj i : Nat), s.Reaches (.synWaitTimeout die obj i) →
    ((s.waitersOf die obj)[i]? = none → exec (.synWaitTimeout die obj i) s = .next s) ∧
    (∀ w, (s.waitersOf die obj)[i]? = some w →
      (w.timeout = 0 ∨ s.now (unitDie w.unit) - w.tick < w.timeout → exec (.synWaitTimeout die obj i) s = .next s) ∧
      (∀ k d, w.timeout ≠ 0 → w.timeout ≤ s.now (unitDie w.unit) - w.tick → w.unit = synUnit d → isCompute d = true →
        s.waiterOp w = some k → (s.opAt w.unit k).ahead = false → s.calm → s.on F.SYN_EVENTS.OP_ERROR d = false →
        ∃ t, exec (.synWaitTimeout die obj i) s = .next t ∧ t.waitersOf die obj = (s.waitersOf die obj).eraseIdx i ∧
          (t.opAt w.unit k).state = .failed ∧ t.get F.SYN_ERROR.CAUSE d = 4 ∧
          t.syn.timedOut = s.syn.timedOut ++ (if w.kind = 2 then [(die, obj, w.unit)] else []))))

/-- A SIGNAL, ARRIVE or RELEASE packet that names the module's step acts on its object (R458, R459, R461): an arrival counts, a
release ends the round of the objects it releases. One of the next step is held, up to 16 a die; any other, and one that is
not whole, is stray. An ABORT of another module's break, for the current step, aborts the step and leaves that break in
SCH_BREAK (R103, R463); one with HALT is recorded and acts at a tick (R464). An ABORT_RELEASE fixes the replay tick, and
aborts a step that nothing has. Either for another step, or not whole, is stray; the module's own ABORT coming back changes
nothing. -/
def Obligations.SynchronisationAndAbortPackets : Prop :=
  (∀ (s : State) (c : Instr) (type : Nat) (pkt : Bytes), s.Reaches c →
     (c = .signalPacket pkt ∧ type = 0x10) ∨ (c = .arrive pkt ∧ type = 0x11) ∨ (c = .release pkt ∧ type = 0x12) →
     let q := SynPacket.ofBytes pkt
     let step := s.get F.SCH_STEP.STEP % 65536
     let mine := s.on F.SYN_OBJ_CFG.RESET q.die q.index = false ∨ (q.step = step ∧ q.replay = s.get F.SCH_REPLAY.COUNT)
     let next := q.step = (step + 1) % 65536 ∧ q.replay = 0
     let strayAt (die : Nat) := Completes c s [] [(F.SYN_STRAY.VALUE, die, 0), (F.SYN_EVENTS.STRAY, die, 0)] fun t =>
       t.on F.SYN_EVENTS.STRAY die = true ∧ t.get F.SYN_STRAY.VALUE die = min (s.get F.SYN_STRAY.VALUE die + 1) (2 ^ 32 - 1)
     (crcHolds 64 pkt = false → strayAt 0) ∧
     (crcHolds 64 pkt = true → q.type = type → isObject q.die q.index = true →
       (¬mine → ¬next → strayAt q.die) ∧
       (¬mine → next → s.heldAt q.die < 16 → Completes c s [.syn] [(F.SYN_STATUS.HELD, q.die, 0)] fun t =>
         t.syn = { s.syn with hold := s.syn.hold ++ [(q.die, pkt)] } ∧ t.get F.SYN_STATUS.HELD q.die = s.heldAt q.die + 1) ∧
       (¬mine → next → 16 ≤ s.heldAt q.die → ∃ t, exec c s = .next t ∧ t.on F.SYN_EVENTS.HOLD_FULL q.die = true ∧
         t.on F.SYN_EVENTS.STRAY q.die = true ∧ t.syn = s.syn) ∧
       (mine → type = 0x10 → s.get F.SYN_OBJ_CFG.KIND q.die q.index ≠ 1 → strayAt q.die) ∧
       (mine → type = 0x11 →
         (s.get F.SYN_OBJ_CFG.KIND q.die q.index ≠ 2 ∨ s.get F.SYN_OBJ_VALUE.GEN q.die q.index ≠ q.gen → strayAt q.die) ∧
         (s.get F.SYN_OBJ_CFG.KIND q.die q.index = 2 → s.get F.SYN_OBJ_VALUE.GEN q.die q.index = q.gen →
           s.on F.SYN_OBJ_VALUE.HELD q.die q.index = true ∨
             (s.get F.SYN_OBJ_VALUE.VALUE q.die q.index + 1) % 2 ^ 32 < s.get F.SYN_OBJ_CFG.TARGET q.die q.index →
           Completes c s [] [(F.SYN_OBJ_VALUE.VALUE, q.die, q.index), (F.SYN_OBJ_LAST.VALID, q.die, q.index),
             (F.SYN_OBJ_LAST.ORIGINATOR, q.die, q.index), (F.SYN_OBJ_LAST_TICK.TICK, q.die, q.index)] fun t =>
             t.get F.SYN_OBJ_VALUE.VALUE q.die q.index = (s.get F.SYN_OBJ_VALUE.VALUE q.die q.index + 1) % 2 ^ 32 ∧
             t.get F.SYN_OBJ_LAST.ORIGINATOR q.die q.index = q.source)) ∧
       (mine → type = 0x12 →
         (s.released q.die q.index q.gen = [] → strayAt q.die) ∧
         (∀ o, s.released q.die q.index q.gen = [o] → ∃ t, exec c s = .next t ∧ t.get F.SYN_OBJ_VALUE.VALUE o.1 o.2 = 0 ∧
           t.on F.SYN_OBJ_VALUE.HELD o.1 o.2 = false ∧ t.waitersOf o.1 o.2 = [] ∧
           t.get F.SYN_OBJ_VALUE.GEN o.1 o.2 = (s.get F.SYN_OBJ_VALUE.GEN o.1 o.2 + 1) % 256)))) ∧
  (∀ (s : State) (pkt : Bytes), let q := SynPacket.ofBytes pkt
     let erg := bits q.source 28 1
     let module := bits q.source 16 12
     (∀ (c : Instr) (type : Nat), s.Reaches c → (c = .abort pkt ∧ type = 0x13) ∨ (c = .abortRelease pkt ∧ type = 0x14) →
       crcHolds 64 pkt = false ∨ q.type ≠ type ∨ s.thisStep q = false →
       Completes c s [] [(F.SYN_STRAY.VALUE, 0, 0), (F.SYN_EVENTS.STRAY, 0, 0)] fun t =>
         t.on F.SYN_EVENTS.STRAY = true ∧ t.get F.SYN_STRAY.VALUE = min (s.get F.SYN_STRAY.VALUE + 1) (2 ^ 32 - 1)) ∧
     (s.Reaches (.abort pkt) → crcHolds 64 pkt = true → q.type = 0x13 → s.thisStep q = true →
       (erg = s.erg → module = s.moduleNo → exec (.abort pkt) s = .next s) ∧
       (erg ≠ s.erg ∨ module ≠ s.moduleNo → s.isRoot = false →
         (q.halt = false → s.inStep → ∃ t, exec (.abort pkt) s = .next t ∧ s.Aborted t ∧
           t.get F.SCH_BREAK.CAUSE = q.cause % 16 ∧ t.get F.SCH_BREAK.UNIT = q.unit ∧ t.get F.SCH_BREAK.SEGMENT = q.segment ∧
           t.get F.SCH_BREAK.ERG = erg ∧ t.get F.SCH_BREAK.MODULE = module ∧ t.get F.SCH_BREAK_TICK.TICK = q.tick) ∧
         (q.halt = true → ∃ t, exec (.abort pkt) s = .next t ∧ t.sched.haltAt = some (s.now 72) ∧ t.sched.st = s.sched.st) ∧
         (q.halt = false → s.active = true → s.sched.broken = true →
           exec (.abort pkt) s = .next (s.flag F.SCH_EVENTS.EXTRA_BREAK)))) ∧
     (s.Reaches (.abortRelease pkt) → crcHolds 64 pkt = true → q.type = 0x14 → s.thisStep q = true → s.isRoot = false →
       (s.active = false ∨ s.sched.broken = true → Completes (.abortRelease pkt) s [.sched] [(F.SCH_EVENTS.BREAK_REMOTE, 0, 0)] fun t =>
         t.sched = { s.sched with replayTick := some q.tick } ∧ t.on F.SCH_EVENTS.BREAK_REMOTE = true) ∧
       (s.inStep → ∃ t, exec (.abortRelease pkt) s = .next t ∧ s.Aborted t ∧ t.sched.replayTick = some q.tick ∧
         t.get F.SCH_BREAK.CAUSE = 0 ∧ t.on F.SCH_EVENTS.BREAK_REMOTE = true)))

/-! ### The host complex -/

/-- A request for a line that storage backs is accepted at its home or waits while the line is blocked (R477); one for another
line is an access fault (R471). An accepted one snoops the dies that the filter marks (R478); with none it is answered from
L3, or the line's holder is read, or, for a maintenance request, modified data goes to the holder (R484). A WriteBack is
taken while the filter names its core as owner, and cancelled otherwise (R480). -/
def Obligations.RequestsAreTakenAtTheirHome : Prop :=
  ∀ (s : State) (core line : Nat) (r : CohReq) (c : Instr), s.Reaches c →
    ((c = .readShared core line ∧ r = .readShared) ∨ (c = .readUnique core line ∧ r = .readUnique) ∨
        (c = .upgrade core line ∧ r = .upgrade) ∨ (c = .clean core line ∧ r = .clean) ∨ (c = .cohFlush core line ∧ r = .flush) ∨
        (c = .invalidate core line true ∧ r = .flush) ∨ (c = .invalidate core line false ∧ r = .invalidate) →
      let x : CohTxn := { core := core, line := line, req := some r }
      let fills := r = .readShared ∨ r = .readUnique ∨ r = .upgrade
      (s.cacheable line = false → s.calm → ∃ t, exec c s = .next t ∧ t.coh = s.coh ∧
        t.out = s.out ++ [.coreFault (coreOf (coreUnit core)) (r != .readShared)]) ∧
      (s.cacheable line = true → s.txnOf line ≠ none → exec c s = .next (s.onCoh fun h => { h with waiting := h.waiting ++ [x] })) ∧
      (s.cacheable line = true → s.txnOf line = none →
        (∀ e, s.filterOf line = some e → e.dies ≠ [] → ∃ t, exec c s = .next t ∧ t.mem = s.mem ∧
          t.coh.txns = s.coh.txns ++ [{ x with snoops := e.dies }] ∧
          t.coh.msgs = s.coh.msgs ++ e.dies.map fun d => .snp d line (some r)) ∧
        (fills → s.filterOf line = none → s.fullSet line = none → Completes c s [.coh] [] fun t =>
          t.coh = { s.coh with
            txns := s.coh.txns ++ [x]
            filter := s.coh.filter ++ [{ line := line }]
            msgs := s.coh.msgs ++ [if r = .upgrade ∧ (s.l2Line core line).isSome = true then .rsp core line 0
              else match s.l3Line line with
                | some (d, _) => .dat core line (if r = .readShared then .e else .m) d
                | none => .fwd line false []] }) ∧
        (¬fills → s.filterOf line = none → Completes c s [.coh] [] fun t =>
          t.coh.txns = s.coh.txns ++ [x] ∧ t.coh.l2 = s.coh.l2 ∧ t.coh.filter = s.coh.filter ∧
          ((∀ d, s.l3Line line ≠ some (d, true)) ∨ r = .invalidate → t.coh.msgs = s.coh.msgs ++ [.rsp core line 0]) ∧
          (∀ d, s.l3Line line = some (d, true) → r ≠ .invalidate → t.coh.msgs = s.coh.msgs ++ [.fwd line true d]) ∧
          (r ≠ .clean → t.l3Line line = none) ∧ (r = .clean → ∀ d, s.l3Line line = some (d, true) → t.l3Line line = some (d, false))))) ∧
    (∀ data, c = .writeBack core line data none → s.cacheable line = true →
      let x : CohTxn := { core := core, line := line, req := some .writeBack }
      (s.txnOf line ≠ none → ∃ t, exec c s = .next t ∧ t.coh.waiting = s.coh.waiting ++ [x] ∧ t.regs = s.regs) ∧
      (s.txnOf line = none → (∃ e, s.filterOf line = some e ∧ e.owner = some core) → Completes c s [.coh] [] fun t =>
        t.coh.txns = s.coh.txns ++ [x] ∧ t.coh.msgs = s.coh.msgs ++ [.rsp core line 1] ∧
        t.coh.sent = s.coh.sent ++ [(core, line, data)]) ∧
      (s.txnOf line = none → (∀ e, s.filterOf line = some e → e.owner ≠ some core) →
        Completes c s [.coh] [(F.HCX_WB_CANCEL.VALUE, homeDie line, 0)] fun t =>
          t.coh.txns = s.coh.txns ++ [x] ∧ t.coh.msgs = s.coh.msgs ++ [.rsp core line 2] ∧
          t.get F.HCX_WB_CANCEL.VALUE (homeDie line) = min (s.get F.HCX_WB_CANCEL.VALUE (homeDie line) + 1) (2 ^ 32 - 1)))

/-- A snoop acts on the copy it meets: it leaves for ReadUnique, Upgrade, Flush and Invalidate and becomes S for ReadShared, its
data goes to the requester where it is not S (R476, R478); a snoop that meets none is counted as stale (R479). The other
messages of the protocol do what they carry (R478 to R484): a forwarded write reaches its holder and a forwarded read
returns the line; GO makes an upgraded line M, GO_WB sends the line's data home, WB_CANCEL ends the WriteBack; line data
fills the requester, home data L3; the ACK ends the transaction. One that is not in flight changes nothing. A write to
HCX_RWIN sets its window, but for slot 0 (R63). -/
def Obligations.SnoopsAndCoherenceMessagesAct : Prop :=
  (∀ (s : State) (die line : Nat), s.Reaches (.snoop die line [] none) →
     let c := Instr.snoop die line [] none
     let sent := s.coh.msgs.any fun m => match m with | .snp d l _ => d == die && l == line | _ => false
     (sent = false ∨ s.txnOf line = none → exec c s = .next s) ∧
     (∀ x r, sent = true → s.txnOf line = some x → x.req = some r → r ≠ .writeBack →
       (s.met x die = [] → ∃ t, exec c s = .next t ∧
         t.get F.HCX_COUNTS.STALE_SNOOP die = min (s.get F.HCX_COUNTS.STALE_SNOOP die + 1) (2 ^ F.HCX_COUNTS.STALE_SNOOP.len - 1) ∧
         t.coh.l2 = s.coh.l2 ∧ ∃ y, t.txnOf line = some y ∧ y.snoops = removeFirst (· == die) x.snoops) ∧
       (∀ l, s.met x die = [l] → (∀ w ∈ s.coh.sent, ¬(w.1 = l.core ∧ w.2.1 = line)) → ∃ t, exec c s = .next t ∧
         (∃ y, t.txnOf line = some y ∧ y.snoops = removeFirst (· == die) x.snoops ∧
           ((r = .clean ∨ r = .flush ∨ r = .invalidate) → l.state = .m → y.dirty = some l.data)) ∧
         (r = .readUnique ∨ r = .upgrade ∨ r = .flush ∨ r = .invalidate → t.l2Line l.core line = none) ∧
         (r = .readUnique ∨ r = .upgrade → l.state ≠ .s → CohMsg.dat x.core line .m l.data ∈ t.coh.msgs) ∧
         (r = .readShared → l.state ≠ .s → t.l2Line l.core line = some ⟨l.core, line, .s, l.data⟩ ∧
           CohMsg.dat x.core line .s l.data ∈ t.coh.msgs ∧ (l.state = .m → CohMsg.datHome l.core line l.data ∈ t.coh.msgs)) ∧
         (r = .clean → l.state = .m → t.l2Line l.core line = some ⟨l.core, line, .e, l.data⟩) ∧
         (r = .readShared → l.state = .s → t.coh.l2 = s.coh.l2)))) ∧
  ((∀ (s : State) (line : Nat), s.Inv → s.Reaches (.cohFwd line) →
     let found := s.coh.msgs.find? fun m => match m with | .fwd l _ _ => l == line | _ => false
     (found = none → exec (.cohFwd line) s = .next s) ∧
     (∀ data, found = some (.fwd line true data) → data.length = 64 → s.backedSpan (64 * line) 64 = true →
       ∃ t, exec (.cohFwd line) s = .next t ∧ t.bytes (64 * line) 64 = data ∧
         ∀ b, b < 64 * line ∨ 64 * line + 64 ≤ b → t.byte b = s.byte b) ∧
     (∀ data x, found = some (.fwd line false data) → s.txnOf line = some x → s.soundSpan (64 * line) 64 →
       ∃ t, exec (.cohFwd line) s = .next t ∧ t.mem = s.mem ∧
         CohMsg.dat x.core line x.grant (s.bytes (64 * line) 64) ∈ t.coh.msgs)) ∧
   (∀ (s : State) (core line : Nat), s.Reaches (.cohResponse core line) →
     let found := s.coh.msgs.find? fun m => match m with | .rsp c l _ => c == core && l == line | _ => false
     let mine (w : Nat × Nat × Bytes) := w.1 == core && w.2.1 == line
     (found = none → exec (.cohResponse core line) s = .next s) ∧
     (∀ l x, found = some (.rsp core line 0) → s.txnOf line = some x → x.req = some .upgrade → s.l2Line core line = some l →
       Completes (.cohResponse core line) s [.coh] [] fun t => t.l2Line core line = some ⟨core, line, .m, l.data⟩ ∧
         CohMsg.ack core line ∈ t.coh.msgs) ∧
     (∀ d, found = some (.rsp core line 1) → s.coh.sent.find? mine = some (core, line, d) →
       Completes (.cohResponse core line) s [.coh] [] fun t => t.l2Line core line = none ∧
         CohMsg.datHome core line d ∈ t.coh.msgs ∧ t.coh.sent = removeFirst mine s.coh.sent) ∧
     (found = some (.rsp core line 2) → (∀ w ∈ s.coh.waiting, w.line ≠ line) →
       Completes (.cohResponse core line) s [.coh] [] fun t => t.coh.sent = removeFirst mine s.coh.sent ∧
         t.coh.txns = removeFirst (fun x => x.line == line) s.coh.txns ∧ t.coh.l2 = s.coh.l2)) ∧
   (∀ (s : State) (core line : Nat), s.Reaches (.cohData core line) →
     let found := s.coh.msgs.find? fun m => match m with
       | .dat c l _ _ => c == core && l == line
       | .datHome c l _ => c == core && l == line
       | _ => false
     (found = none → exec (.cohData core line) s = .next s) ∧
     (∀ grant d, found = some (.dat core line grant d) → Completes (.cohData core line) s [.coh] [] fun t =>
       t.l2Line core line = some ⟨core, line, grant, d⟩ ∧ CohMsg.ack core line ∈ t.coh.msgs) ∧
     (∀ d, found = some (.datHome core line d) → (∀ w ∈ s.coh.waiting, w.line ≠ line) →
       Completes (.cohData core line) s [.coh] [] fun t => t.l3Line line = some (d, true))) ∧
   (∀ (s : State) (core line : Nat), s.Reaches (.cohAck core line) →
     (CohMsg.ack core line ∉ s.coh.msgs → exec (.cohAck core line) s = .next s) ∧
     (CohMsg.ack core line ∈ s.coh.msgs → (∀ w ∈ s.coh.waiting, w.line ≠ line) → ∀ l e, s.l2Line core line = some l →
       s.filterOf line = some e → Completes (.cohAck core line) s [.coh] [] fun t =>
         t.coh.txns = removeFirst (fun x => x.line == line) s.coh.txns ∧ t.coh.l2 = s.coh.l2 ∧
         t.filterOf line = some { e with dies := if l.state = .s then insertNat (coreDie core) e.dies else [coreDie core]
                                         owner := if l.state = .s then none else some core })) ∧
   (∀ (s : State) (die idx v : Nat), s.Reaches (.hcxRwinWrite die idx 2 v) →
     (idx = 0 → exec (.hcxRwinWrite die idx 2 v) s = .next s) ∧
     (idx ≠ 0 → Completes (.hcxRwinWrite die idx 2 v) s []
       [(F.HCX_RWIN.VALID, die, idx), (F.HCX_RWIN.ERG, die, idx), (F.HCX_RWIN.MODULE, die, idx)] fun t =>
         t.get F.HCX_RWIN.VALID die idx = bits v 63 1 ∧ t.get F.HCX_RWIN.ERG die idx = bits v 12 1 ∧
         t.get F.HCX_RWIN.MODULE die idx = bits v 0 12)))

/-! ### Queues -/

/-- A doorbell acts on its queue's cached context and waits for one that is not cached (R490, R497): a submission sets TAIL and
makes an IDLE queue ACTIVE, one that runs past the ring is an ERROR of cause 1, one on a disabled queue is discarded (R491,
R498, R500); a completion sets CQ_HEAD, or is an ERROR of cause 3. A fetched entry that is valid is taken: HEAD goes on and
its command is in flight (R493, R499); an invalid one is counted, and after the ninth the queue parks (R491, R499). A
re-fetch that is issued counts as issued. -/
def Obligations.DoorbellsAndFetchesFollowTheRing : Prop :=
  (∀ (s : State) (q v kind : Nat) (c : Instr), s.Reaches c →
     (c = .submissionDoorbell q v ∧ kind = 0) ∨ (c = .completionDoorbell q v ∧ kind = 1) →
     (s.ctx q = none → s.ctxRoom (queueDie q) ≠ none →
       exec c s = .next (s.onQcx fun x => { x with waiting := x.waiting ++ [(q, kind, v)] })) ∧
     (s.ctx q = none → s.ctxRoom (queueDie q) = none → Completes c s [.qcx] [(F.QCX_EVENTS.CACHE_FULL, queueDie q, 0)] fun t =>
       t.on F.QCX_EVENTS.CACHE_FULL (queueDie q) = true ∧ t.qcx = { s.qcx with waiting := s.qcx.waiting ++ [(q, kind, v)] }) ∧
     (∀ b, s.ctx q = some b → b.length = 64 →
       let head := s.ctxField q ctxHead
       let past := 2 ^ s.ctxField q ctxRingLog < (v + 65536 - head) % 65536
       let st := s.ctxField q ctxState
       (kind = 0 → st = qDisabled ∨ s.disabling q = true → ∃ t, exec c s = .next t ∧ t.ctx q = some b ∧
         t.on F.QCX_EVENTS.DB_DISCARD (queueDie q) = true ∧ t.get F.QCX_COUNTS.DB_DISCARDED (queueDie q) =
           min (s.get F.QCX_COUNTS.DB_DISCARDED (queueDie q) + 1) (2 ^ F.QCX_COUNTS.DB_DISCARDED.len - 1)) ∧
       (kind = 0 → st ≠ qDisabled → s.disabling q = false → past → ∃ t, exec c s = .next t ∧ t.ctxField q ctxState = qError ∧
         t.ctxField q ctxErrCause = 1 ∧ t.on F.QCX_EVENTS.QUEUE_ERROR (queueDie q) = true ∧ ∀ f ∈ t.qcx.fetches, f.q ≠ q) ∧
       (kind = 0 → st = qIdle ∨ st = qEarly → s.disabling q = false → ¬past → v ≠ head → (s.inFlight q).length < 8 →
         (∀ f ∈ s.qcx.fetches, f.q ≠ q) → Completes c s [.qcx] [] fun t =>
           t.ctxField q ctxState = qActive ∧ t.ctxField q ctxTail = v ∧ t.ctxField q ctxHead = head ∧
           t.qcx.fetches = s.qcx.fetches ++ [{ q := q, c := head }]) ∧
       (kind = 1 → (s.ctxField q ctxCqTail + 65536 - v) % 65536 ≤ 2 ^ s.ctxField q ctxCqLog → Completes c s [.qcx] [] fun t =>
         t.ctxField q ctxCqHead = v ∧ t.ctxField q ctxState = st) ∧
       (kind = 1 → st ≠ qDisabled → 2 ^ s.ctxField q ctxCqLog < (s.ctxField q ctxCqTail + 65536 - v) % 65536 →
         ∃ t, exec c s = .next t ∧ t.ctxField q ctxState = qError ∧ t.ctxField q ctxErrCause = 3))) ∧
  ((∀ (s : State) (q k : Nat), s.Inv → s.Reaches (.entryFetchReturn q k) →
     ((∀ f ∈ s.qcx.fetches, f.q ≠ q) → exec (.entryFetchReturn q k) s = .next s) ∧
     (∀ f b, s.qcx.fetches.find? (fun f => f.q == q) = some f → s.ctx q = some b → b.length = 64 →
       let n := s.ctxField q ctxRingLog
       let a := s.ctxField q ctxRing + 256 * (f.c % 2 ^ n)
       let e := s.bytes a 256
       let missed := min (s.get F.QCX_COUNTS.INVALID_FETCHES (queueDie q) + 1) (2 ^ F.QCX_COUNTS.INVALID_FETCHES.len - 1)
       (f.issued ≤ k ∨ k ∈ f.returned → exec (.entryFetchReturn q k) s = .next s) ∧
       (k < f.issued → k ∉ f.returned → f.valid = [] → s.backedSpan a 256 = true → s.soundSpan a 256 →
         s.ctxField q ctxHead ≠ s.ctxField q ctxTail →
         (entryValid e f.c n = true → (∀ j, j < k → j ∈ f.returned) → ∃ t, exec (.entryFetchReturn q k) s = .next t ∧
           t.qcx.cmds = s.qcx.cmds ++ [{ q := q, c := f.c, entry := e, status := if badCommand e then some 3 else none }] ∧
           t.ctxField q ctxHead = (f.c + 1) % 65536 ∧ t.mem = s.mem) ∧
         (entryValid e f.c n = false → f.returned.length + 1 ≠ 9 → ∃ t, exec (.entryFetchReturn q k) s = .next t ∧
           t.get F.QCX_COUNTS.INVALID_FETCHES (queueDie q) = missed ∧ t.qcx.cmds = s.qcx.cmds ∧
           t.qcx.fetches.find? (fun f => f.q == q) = some { f with returned := f.returned ++ [k] }) ∧
         (entryValid e f.c n = false → f.returned.length + 1 = 9 → ∃ t, exec (.entryFetchReturn q k) s = .next t ∧
           t.ctxField q ctxState = qEarly ∧ t.ctxField q ctxParks = min 255 (s.ctxField q ctxParks + 1) ∧
           t.on F.QCX_EVENTS.EARLY (queueDie q) = true ∧ t.qcx.cmds = s.qcx.cmds)))) ∧
   (∀ (s : State) (q k : Nat), s.Reaches (.refetchIssue q k) →
     ((∀ f ∈ s.qcx.fetches, f.q = q → f.issued ≠ k) → exec (.refetchIssue q k) s = .next s) ∧
     (∀ f, s.qcx.fetches.find? (fun f => f.q == q) = some f → f.issued = k → Completes (.refetchIssue q k) s [.qcx] [] fun t =>
       t.qcx.fetches.find? (fun f => f.q == q) = some { f with issued := k + 1 })))

/-- The actions of QCX_QCTL (R512): one on another die's queue, or while BUSY, is discarded; ENABLE checks the context in memory
and makes it IDLE (R489); DISABLE stops the queue and goes on until its commands have posted, its context then written back
DISABLED (R492); SYNC writes the context back (R490). A context whose doorbells wait is fetched into the cache. -/
def Obligations.QueueActionsFollowTheContext : Prop :=
  (∀ (s : State) (die q : Nat) (c : Instr), s.Reaches c → c = .qctlEnable die q ∨ c = .qctlDisable die q ∨ c = .qctlSync die q →
    queueDie q ≠ die ∨ s.on F.QCX_QCTL.BUSY die = true →
    Completes c s [] [(F.QCX_QCTL.QUEUE, die, 0), (F.QCX_EVENTS.QCTL_DISCARD, die, 0)] fun t =>
      t.on F.QCX_EVENTS.QCTL_DISCARD die = true) ∧
  (∀ (s : State) (die q : Nat), s.Inv → s.Reaches (.qctlEnable die q) → queueDie q = die → s.on F.QCX_QCTL.BUSY die = false →
    let a := s.ctxAddr q
    (s.ctxField q ctxState ≠ qDisabled → ∃ t, exec (.qctlEnable die q) s = .next t ∧ t.get F.QCX_QCTL.RESULT die = 2 ∧
      t.qcx = s.qcx ∧ t.mem = s.mem) ∧
    (s.ctxField q ctxState = qDisabled → s.backedSpan a 64 = true → s.soundSpan a 64 →
      (s.ctxPasses (s.bytes a 64) = false → ∃ t, exec (.qctlEnable die q) s = .next t ∧ t.get F.QCX_QCTL.RESULT die = 1 ∧
        t.qcx = s.qcx ∧ t.mem = s.mem) ∧
      (s.ctxPasses (s.bytes a 64) = true → (s.cachedOn die).length < 8192 → ∃ t, exec (.qctlEnable die q) s = .next t ∧
        t.get F.QCX_QCTL.RESULT die = 0 ∧ t.ctx q = some (ctxPut ctxState qIdle (s.bytes a 64)) ∧ t.mem = s.mem))) ∧
  (∀ (s : State) (die q : Nat), s.Reaches (.qctlDisable die q) → queueDie q = die → s.on F.QCX_QCTL.BUSY die = false →
    ∃ t, exec (.qctlDisable die q) s = .next t ∧ t.on F.QCX_QCTL.BUSY die = true ∧ t.mem = s.mem ∧
      t.qcx = { s.qcx with qctl := s.qcx.qctl ++ [(die, q)], fetches := s.qcx.fetches.filter fun f => f.q != q }) ∧
  (∀ (s : State) (die q : Nat), s.Inv → s.Reaches (.qctlSync die q) → queueDie q = die → s.on F.QCX_QCTL.BUSY die = false →
    let a := s.ctxAddr q
    (s.ctx q = none → ∃ t, exec (.qctlSync die q) s = .next t ∧ t.get F.QCX_QCTL.RESULT die = 0 ∧ t.mem = s.mem) ∧
    (∀ b, s.ctx q = some b → b.length = 64 → s.backedSpan a 64 = true → ∃ t, exec (.qctlSync die q) s = .next t ∧
      t.get F.QCX_QCTL.RESULT die = 0 ∧ t.bytes a 64 = withCrc (b.take 60) ∧ t.qcx = s.qcx ∧
      ∀ x, x < a ∨ a + 64 ≤ x → t.byte x = s.byte x)) ∧
  (∀ (s : State) (die : Nat), s.Inv → s.Reaches (.qctlDisableDone die) →
    ((∀ p ∈ s.qcx.qctl, p.1 ≠ die) → exec (.qctlDisableDone die) s = .next s) ∧
    (∀ q, s.qcx.qctl.find? (fun p => p.1 == die) = some (die, q) →
      (s.inFlight q ≠ [] → exec (.qctlDisableDone die) s = .next s) ∧
      (∀ b, s.inFlight q = [] → s.ctx q = some b → b.length = 64 → s.backedSpan (s.ctxAddr q) 64 = true →
        ∃ t, exec (.qctlDisableDone die) s = .next t ∧ t.on F.QCX_QCTL.BUSY die = false ∧ t.get F.QCX_QCTL.RESULT die = 0 ∧
          t.ctx q = none ∧ t.bytes (s.ctxAddr q) 64 = withCrc ((ctxPut ctxState qDisabled b).take 60)))) ∧
  (∀ (s : State) (q : Nat), s.Inv → s.Reaches (.contextFetch q) →
    let asked := s.qcx.waiting.any fun w => w.1 == q
    ((s.ctx q).isSome = true ∨ asked = false → exec (.contextFetch q) s = .next s) ∧
    (s.ctx q = none → asked = true → (s.cachedOn (queueDie q)).length < 8192 → s.backedSpan (s.ctxAddr q) 64 = true →
      s.soundSpan (s.ctxAddr q) 64 → ∃ t, exec (.contextFetch q) s = .next t ∧ (t.ctx q).isSome = true ∧
        (∀ w ∈ t.qcx.waiting, w.1 ≠ q) ∧ t.mem = s.mem))

/-- A command of a queue runs on the engine that serves it once its translations stand (R495, R496): NOP does nothing, COPY
moves its bytes, WRITE_INLINE writes the entry's and FILL its pattern, SIGNAL signals its counter; each then has STATUS 0.
An access that misses opens a slot. A command that is not in flight, of another kind, or ended changes nothing. A command
that has its STATUS, and whose writes are acknowledged, posts its completion record: 32 bytes at CQ_TAIL, with the phase of
that lap (R502, R503), and leaves the queue; a full completion ring holds it and sets CQ_FULL. One without a STATUS waits.
-/
def Obligations.QueueCommandsRunAndPost : Prop :=
  ((∀ (s : State) (i : Instr) (q c opcode : Nat), s.Reaches i →
     (i = .nop q c ∧ opcode = 1) ∨ (i = .copy q c ∧ opcode = 2) ∨ (i = .writeInline q c ∧ opcode = 3) ∨
       (i = .fill q c ∧ opcode = 4) ∨ (i = .queueSignal q c ∧ opcode = 5) →
     (s.cmdOf q c = none → exec i s = .next s) ∧
     (∀ d, s.cmdOf q c = some d →
       (d.opcode ≠ opcode ∨ d.status.isSome = true ∨ d.posted = true ∨ (d.started = true ∧ d.stall.isSome = true) ∨
         (d.started = false ∧ s.startCmd d = none) → exec i s = .next s) ∧
       (∀ x, d.opcode = opcode → d.status = none → d.posted = false → d.started = true → d.stall = none →
         s.signalWaits d = false →
         s.firstTrouble d.engine (s.ctxField q ctxAsid % 4096) (accessesOf d.spans) = some (x, .miss) →
         exec i s = .next (s.openMiss (unitDie d.engine) (s.ctxField q ctxAsid % 4096) ⟨d.engine, x.va, x.write, d.key⟩ false)))) ∧
   (∀ (s : State) (q c : Nat) (d : Cmd), s.Reaches (.nop q c) →
     (s.Serves d q c 1 → ∃ t, exec (.nop q c) s = .next t ∧ t.regs = s.regs ∧ t.mem = s.mem ∧
       (t.cmdOf q c).map (·.status) = some (some 0)) ∧
     (∀ u, s.cmdOf q c = some d → d.opcode = 1 → d.status = none → d.posted = false → d.started = false → d.flagged = false →
       d.stall = none → d ∈ s.startable (queueDie q) → s.nextQueue (queueDie q) = some q → s.engineFor d = some u →
       ∃ t, exec (.nop q c) s = .next t ∧ t.mem = s.mem ∧
         (t.cmdOf q c).map (fun e => (e.started, e.engine, e.status)) = some (true, u, some 0))) ∧
   (∀ (s : State) (i : Instr) (q c opcode n pl : Nat) (data : Bytes) (d : Cmd), s.Inv → s.Reaches i → s.Serves d q c opcode →
     (i = .writeInline q c ∧ opcode = 3 ∧ data = (d.entry.drop 64).take (fieldAt d.entry 4 1) ∧ n = data.length) ∨
       (i = .fill q c ∧ opcode = 4 ∧ data = fillBytes ((d.entry.drop 16).take 8) d.len ∧ n = d.len) ∨
       (∃ fr, i = .copy q c ∧ opcode = 2 ∧ data = s.bytes fr d.len ∧ n = d.len ∧
         s.SpanAt d.engine (s.ctxField q ctxAsid % 4096) d.src d.len fr) →
     0 < n → s.SpanAt d.engine (s.ctxField q ctxAsid % 4096) d.dst n pl →
     ∃ t, exec i s = .next t ∧ t.bytes pl n = data ∧ (∀ b, b < pl ∨ pl + n ≤ b → t.byte b = s.byte b) ∧
       (t.cmdOf q c).map (·.status) = some (some 0)) ∧
   (∀ (s : State) (q c : Nat) (d : Cmd), s.Reaches (.queueSignal q c) → s.Serves d q c 5 → s.signalWaits d = false →
     let obj := fieldAt d.entry 16 1
     let die := fieldAt d.entry 17 1
     let mode := fieldAt d.entry 24 1
     let v := fieldAt d.entry 20 4
     bit (fieldAt d.entry 18 2) 15 = false → bits (fieldAt d.entry 18 2) 13 2 = 0 → mode ≤ 1 → s.badObject die obj 1 = false →
     s.waitersOf die obj = [] → ∃ t, exec (.queueSignal q c) s = .next t ∧ t.mem = s.mem ∧
       t.get F.SYN_OBJ_VALUE.VALUE die obj = (if mode = 1 then v else s.get F.SYN_OBJ_VALUE.VALUE die obj + v) % 2 ^ 32 ∧
       t.get F.SYN_OBJ_LAST.ORIGINATOR die obj = s.originator d.engine % 2 ^ 29 ∧
       (t.cmdOf q c).map (·.status) = some (some 0))) ∧
  (∀ (s : State) (q c : Nat), s.Inv → s.Reaches (.commandComplete q c) →
     let tail := s.ctxField q ctxCqTail
     let m := s.ctxField q ctxCqLog
     let a := s.ctxField q ctxCq + 32 * (tail % 2 ^ m)
     let full := (tail + 65536 - s.ctxField q ctxCqHead) % 65536 = 2 ^ m
     (s.cmdOf q c = none → exec (.commandComplete q c) s = .next s) ∧
     (∀ d, s.cmdOf q c = some d →
       (d.tags ≠ [] ∨ (d.posted = false ∧ d.status = none) → exec (.commandComplete q c) s = .next s) ∧
       (∀ st b, d.tags = [] → d.posted = false → d.status = some st → st ≠ 3 → d.wrote = [] → d.entry.length = 256 → s.ctx q = some b → b.length = 64 →
         (full → ∃ t, exec (.commandComplete q c) s = .next t ∧ t.on F.QCX_EVENTS.CQ_FULL (queueDie q) = true ∧ t.mem = s.mem ∧
           t.cmdOf q c = some d) ∧
         (¬full → d.flagged = false ∨ st ≠ 0 → s.backedSpan a 32 = true → s.soundSpan a 32 → ∃ t,
           exec (.commandComplete q c) s = .next t ∧ t.bytes a 32 = recordBytes d st (!bit tail m) ∧
           (∀ x, x < a ∨ a + 32 ≤ x → t.byte x = s.byte x) ∧ t.ctxField q ctxCqTail = (tail + 1) % 65536 ∧
           t.qcx.cmds = removeFirst (fun e => e.q == q && e.c == c) s.qcx.cmds ∧
           (s.qMsi q = true → s.ctxField q ctxMsiHart < 72 →
             (s.ctxField q ctxMsiHart, s.ctxField q ctxMsiId % 2048) ∈ t.imsic)))))

/-! ### PCIe and interrupts -/

/-- An inbound request that its window admits reads or writes host memory, and one that none admits is refused as Unsupported
Request (R509); a 4 B write to the MSI range makes an identity pending at its core (R510, R528). A link comes up with ENABLE
at no more than MAX_RATE (R507); when it goes down every access through it ends (R508). A completion ends its request. -/
def Obligations.RootPortsCarryTheirRequests : Prop :=
  (∀ (s : State) (port : Nat) (r : PciRequest) (c : Instr), s.Inv → s.Reaches c →
    c = .pcieInboundRequest port r ∨ (c = .pcieMsiWrite port r.addr r.data ∧ r = { write := true, addr := r.addr, len := r.data.length, data := r.data }) →
    let d := pciDie port
    let n := if r.write = true then r.data.length else r.len
    let inside := n ≠ 0 ∧ s.get F.PCI_IN_BASE.ADDR d <<< 12 ≤ r.addr ∧ r.addr + n ≤ (s.get F.PCI_IN_LIMIT.ADDR d + 1) <<< 12 ∧
      region r.addr = .host ∧ s.backedSpan r.addr n = true
    (s.on F.PCI_STATUS.LINK_UP d = false → exec c s = .next s) ∧
    (s.on F.PCI_STATUS.LINK_UP d = true →
      (∀ h, h < 72 → r.write = true → r.data.length = 4 → s.on F.PCI_MSI.VALID d = true → r.addr = s.msiBase port + 4096 * h →
        exec c s = .next (s.interruptTo h (bits (leN r.data) 0 11))) ∧
      (s.inMsi port r.addr n = false → ¬inside → Completes c s [.out]
        [(F.PCI_COUNTS.INBOUND_UR, d, 0), (F.PCI_EVENTS.INBOUND_UR, d, 0)] fun t => t.on F.PCI_EVENTS.INBOUND_UR d = true ∧
          t.get F.PCI_COUNTS.INBOUND_UR d = min (s.get F.PCI_COUNTS.INBOUND_UR d + 1) (2 ^ 32 - 1) ∧
          t.out = s.out ++ if r.write then [] else [.pciCompletion port r.tag 1 []]) ∧
      (s.inMsi port r.addr n = false → inside → s.soundSpan r.addr n →
        (r.write = true → ∃ t, exec c s = .next t ∧ t.bytes r.addr n = r.data ∧ t.out = s.out ∧
          ∀ b, b < r.addr ∨ r.addr + n ≤ b → t.byte b = s.byte b) ∧
        (r.write = false → ∃ t, exec c s = .next t ∧ t.mem = s.mem ∧
          t.out = s.out ++ [.pciCompletion port r.tag 0 (s.bytes r.addr n)])))) ∧
  (∀ (s : State) (port rate width : Nat), s.Reaches (.pcieLinkUp port rate width) →
    let d := pciDie port
    (s.on F.PCI_CTRL.ENABLE d = true → rate ≤ s.get F.PCI_CTRL.MAX_RATE d → Completes (.pcieLinkUp port rate width) s []
      [(F.PCI_STATUS.LINK_UP, d, 0), (F.PCI_STATUS.RATE, d, 0), (F.PCI_STATUS.WIDTH, d, 0)] fun t =>
        t.on F.PCI_STATUS.LINK_UP d = true ∧ t.get F.PCI_STATUS.RATE d = rate ∧ t.get F.PCI_STATUS.WIDTH d = width) ∧
    (s.on F.PCI_CTRL.ENABLE d = false ∨ s.get F.PCI_CTRL.MAX_RATE d < rate → exec (.pcieLinkUp port rate width) s = .next s)) ∧
  (∀ (s : State) (port : Nat), s.Reaches (.pcieLinkDown port) →
    let d := pciDie port
    (s.on F.PCI_STATUS.LINK_UP d = true → ∃ t, exec (.pcieLinkDown port) s = .next t ∧ t.on F.PCI_STATUS.LINK_UP d = false ∧
      t.on F.PCI_EVENTS.LINK_DOWN d = true ∧ (∀ p ∈ t.pci.outstanding, p.port ≠ port) ∧ t.mem = s.mem) ∧
    (s.on F.PCI_STATUS.LINK_UP d = false → exec (.pcieLinkDown port) s = .next s)) ∧
  (∀ (s : State) (port : Nat) (ue : Bool), s.Reaches (.aerErrorReport port ue) → Completes (.aerErrorReport port ue) s []
    [(F.PCI_EVENTS.AER_UE, pciDie port, 0), (F.PCI_EVENTS.AER_CE, pciDie port, 0), (F.PCI_COUNTS.AER_CE, pciDie port, 0)] fun t =>
      (ue = true → t.on F.PCI_EVENTS.AER_UE (pciDie port) = true ∧ t.get F.PCI_COUNTS.AER_CE (pciDie port) = s.get F.PCI_COUNTS.AER_CE (pciDie port)) ∧
      (ue = false → t.on F.PCI_EVENTS.AER_CE (pciDie port) = true ∧
        t.get F.PCI_COUNTS.AER_CE (pciDie port) = min (s.get F.PCI_COUNTS.AER_CE (pciDie port) + 1) (2 ^ 32 - 1))) ∧
  (∀ (s : State) (port tag status : Nat) (data : Bytes), s.Reaches (.pcieCompletion port tag status data) →
    let found := s.pci.outstanding.find? fun p => p.port == port && p.tag == tag
    (found = none → exec (.pcieCompletion port tag status data) s = .next s) ∧
    (∀ p, found = some p → status ≠ 0 ∨ p.write = true ∨ data.length = p.len →
      let body := if status = 0 ∧ p.write = false then data else []
      let code := if status = 0 then 0 else 1
      ∃ t, exec (.pcieCompletion port tag status data) s = .next t ∧
        t.pci.outstanding = removeFirst (· == p) s.pci.outstanding ∧ t.regs = s.regs ∧ t.mem = s.mem ∧
        (p.unit = none → t.out = s.out ++ [.response p.org p.addr code body]) ∧
        (∀ u, p.unit = some u → t.out = s.out ∧
          t.rem.answers = s.rem.answers ++ [(⟨pciDie p.port, p.tag, u, s.fabricAddr p.addr, p.len, p.write⟩, code, body)]))) ∧
  (∀ (s : State) (hart id : Nat), s.Reaches (.interrupt hart id) → ∃ t, exec (.interrupt hart id) s = .next t ∧ (hart, id) ∈ t.imsic ∧
    (∀ x ∈ s.imsic, x ∈ t.imsic) ∧ t.regs = s.regs ∧ t.mem = s.mem)

/-! ### BDI links -/

/-- A BDI link trains (R515 to R518): one whose lanes fail, or that is not UP in time, goes DOWN with TRAIN_FAIL; a sound one
waits for the peer's descriptor, with credits in full (R525), and comes UP on the common subset of the two, or DOWN with
CAPS_FAIL when the peer's lacks the mandatory set (R518, R533). -/
def Obligations.BdiLinksTrain : Prop :=
  (∀ (s : State) (die link : Nat) (x : BdiFacts) (c : Instr), s.Reaches c →
    c = .bdiTraining die link x ∨ (c = .bdiTrainTimeout die link ∧ x.fails = true) →
    (s.linkUp die link = true ∨ s.unconnected die link = true → exec c s = .next s) ∧
    (s.linkUp die link = false → s.unconnected die link = false → x.fails = true → (s.bdiLink die link).held = false →
      Completes c s [] [(F.BDI_STATUS.STATE, die, link), (F.BDI_EVENTS.TRAIN_FAIL, die, link)] fun t =>
        t.get F.BDI_STATUS.STATE die link = 0 ∧ t.on F.BDI_EVENTS.TRAIN_FAIL die link = true) ∧
    (s.linkUp die link = false → s.unconnected die link = false → x.fails = false → ∃ t, exec c s = .next t ∧
      t.get F.BDI_STATUS.STATE die link = 2 ∧ (t.bdiLink die link).credits = fullCredits (isPeerLink die link) ∧
      (t.bdiLink die link).delay = x.roundTrip / 2 ∧
      (∀ k, k < 16 → t.word .BDI_REPAIR die (link * 16 + k) = BitVec.ofNat 64 (repairWord (x.wires k))) ∧
      ∀ p : Part, p ≠ .bdi → p.same s t)) ∧
  (∀ (s : State) (die link : Nat) (d : Bytes), s.Reaches (.bdiDescriptor die link d) →
    let c := Instr.bdiDescriptor die link d
    (s.get F.BDI_STATUS.STATE die link ≠ 2 → exec c s = .next s) ∧
    (s.get F.BDI_STATUS.STATE die link = 2 → (s.bdiLink die link).held = false →
      (peerMeets d = false → Completes c s [.bdi] [(F.BDI_STATUS.STATE, die, link), (F.BDI_STATUS.PEER_MEETS, die, link),
        (F.BDI_EVENTS.CAPS_FAIL, die, link)] fun t => t.get F.BDI_STATUS.STATE die link = 0 ∧
          t.on F.BDI_STATUS.PEER_MEETS die link = false ∧ t.on F.BDI_EVENTS.CAPS_FAIL die link = true ∧ (t.bdiLink die link).seen = d) ∧
      (peerMeets d = true → (s.bdiLink die link).queue = [] → Completes c s [.bdi] [(F.BDI_STATUS.STATE, die, link),
        (F.BDI_STATUS.PEER_MEETS, die, link), (F.BDI_STATUS.PROTOCOLS, die, link), (F.BDI_STATUS.VERSION, die, link)] fun t =>
          t.get F.BDI_STATUS.STATE die link = 3 ∧ t.on F.BDI_STATUS.PEER_MEETS die link = true ∧
          t.get F.BDI_STATUS.PROTOCOLS die link = (fieldAt d 7 1 &&& fieldAt (s.descriptor die) 7 1) % 2 ^ 6 ∧
          t.get F.BDI_STATUS.VERSION die link = 0x100 + min (fieldAt d 4 1) (fieldAt (s.descriptor die) 4 1) ∧
          (t.bdiLink die link).txSeq = 0 ∧ (t.bdiLink die link).rxSeq = 0 ∧ (t.bdiLink die link).replayBuf = [] ∧
          (t.bdiLink die link).credits = fullCredits (isPeerLink die link) ∧ (t.bdiLink die link).peer = d)))

/-- A link that is UP takes a flit whose CRC and number are right, acknowledges it and hands its message on; one with a bad CRC
is counted and, like one out of sequence, asks for a replay (R519 to R521, R527, R529). No ACK in time, a request of the
peer and a write of RETRAIN take the link to TRAINING with its flits held (R522); held too long, it goes DOWN and its die is
fatal (R523, R549). A TICK flit marks the die's tick (R530). -/
def Obligations.BdiLinksCarryFlits : Prop :=
  (∀ (s : State) (die link : Nat) (b : Bytes), s.Reaches (.bdiFlitReceive die link b) →
    let c := Instr.bdiFlitReceive die link b
    let f := BFlit.ofBytes b
    let l := s.bdiLink die link
    let nak := Out.bdiFlit die link { chan := 7, ack := (l.rxSeq + 1023) % 1024, nak := true : BFlit }.bytes
    (s.linkUp die link = false → exec c s = .next s) ∧
    (s.linkUp die link = true → crcHolds 64 b = false → l.crcWindow < 256 → Completes c s [.bdi, .out]
      [(F.BDI_COUNTS.CRC_FAILS, die, link), (F.BDI_EVENTS.CRC_FAIL, die, link)] fun t => t.out = s.out ++ [nak] ∧
        t.get F.BDI_COUNTS.CRC_FAILS die link = min (s.get F.BDI_COUNTS.CRC_FAILS die link + 1) (2 ^ 32 - 1) ∧
        (t.bdiLink die link).rxSeq = l.rxSeq ∧ (t.bdiLink die link).rx = l.rx) ∧
    (s.linkUp die link = true → crcHolds 64 b = true → f.nak = false → f.count = 0 → f.chan ≠ 7 → l.replayBuf = [] → l.queue = [] →
      (f.seq ≠ l.rxSeq → l.nakSent = false → Completes c s [.bdi, .out] [] fun t => t.out = s.out ++ [nak] ∧
        (t.bdiLink die link).rxSeq = l.rxSeq ∧ (t.bdiLink die link).rx = l.rx) ∧
      (f.seq = l.rxSeq → f.chan ≠ 6 → f.chan ≠ 1 → l.onChan f.chan = [] → f.head = true → f.more = 0 →
        opcodeKnown f.chan (fieldAt f.data 0 1) = true → fieldAt f.data 1 1 % 128 = die → Completes c s [.bdi, .out] [] fun t =>
          t.out = s.out ++ [.bdiFlit die link { chan := 7, ack := f.seq, cchan := f.chan, count := 1 : BFlit }.bytes,
            .message die f.chan f.data] ∧
          (t.bdiLink die link).rxSeq = (l.rxSeq + 1) % 1024 ∧ (t.bdiLink die link).rx = l.rx))) ∧
  (∀ (s : State) (die link : Nat) (c : Instr), s.Reaches c →
    (c = .bdiAckTimeout die link ∧ (s.bdiLink die link).replayBuf ≠ []) ∨ c = .bdiRetrainRequest die link ∨ c = .bdiRetrain die link →
    (s.linkUp die link = false → exec c s = .next s) ∧
    (s.linkUp die link = true → s.calm → ∃ t, exec c s = .next t ∧ t.get F.BDI_STATUS.STATE die link = 1 ∧
      t.on F.BDI_EVENTS.RETRAIN die link = true ∧ (t.bdiLink die link).held = true ∧
      (t.bdiLink die link).replayBuf = (s.bdiLink die link).replayBuf ∧ (t.bdiLink die link).txSeq = (s.bdiLink die link).txSeq ∧
      (t.bdiLink die link).rxSeq = (s.bdiLink die link).rxSeq)) ∧
  (∀ (s : State) (die link : Nat), s.Reaches (.bdiHoldExpire die link) →
    ((s.bdiLink die link).held = false ∨ s.linkUp die link = true → exec (.bdiHoldExpire die link) s = .next s) ∧
    ((s.bdiLink die link).held = true → s.linkUp die link = false → ∃ t, exec (.bdiHoldExpire die link) s = .next t ∧
      t.get F.BDI_STATUS.STATE die link = 0 ∧ t.on F.BDI_EVENTS.HOLD_EXPIRED die link = true ∧
      (t.bdiLink die link).held = false ∧ (t.bdiLink die link).replayBuf = [] ∧
      (s.power.mode ≠ .starting → t.on F.FLT_DIE_HEALTH.FATAL die = true ∧
        (s.calm → s.on F.FLT_DIE_HEALTH.FATAL die = false → t.get F.FLT_DIE_HEALTH.CAUSE die = 3)))) ∧
  (∀ (s : State) (die link arrival : Nat) (b : Bytes), s.Reaches (.bdiTickFlit die link b arrival) →
    let f := BFlit.ofBytes b
    (crcHolds 64 b = false → s.calm → ∃ t, exec (.bdiTickFlit die link b arrival) s = .next t ∧
      t.on F.BDI_EVENTS.TICK_MISS die link = true ∧ t.tick = s.tick) ∧
    (crcHolds 64 b = true → f.chan = 7 → fieldAt f.data 0 1 = 1 → Completes (.bdiTickFlit die link b arrival) s [.tick] [] fun t =>
      t.tick = { s.tick with dieMarks := setKey die (fieldAt f.data 3 8, 2 * (arrival : Int) - (fieldAt f.data 1 2 : Int) * 125 -
        2 * ((s.bdiLink die link).delay : Int)) s.tick.dieMarks }))

/-! ### The ledger -/

/-- A ledger record is placed at TAIL with the phase of its lap (R624, R625); in a full ring it takes the place of the oldest
unread trace record, and without one is dropped and counted, as is every trace record (R626). With ENABLE 0 nothing is
written. A write to LDG_ATTACH of the held generation sets ADDR and counts the generation on; another is refused (R633). -/
def Obligations.LedgerRecordsFillTheRing : Prop :=
  (∀ (s : State) (r : LedgerRec), s.Inv → s.Reaches (.ledgerRecord r) →
    let tail := s.get F.LDG_PTR.TAIL
    let a := s.get F.LDG_BASE.BASE <<< 22 + 64 * (tail % 65536)
    (s.on F.LDG_CTRL.ENABLE = false → exec (.ledgerRecord r) s = .next s) ∧
    (s.on F.LDG_CTRL.ENABLE = true → s.ledgerUnread < 65536 → s.backedSpan a 64 = true → ∃ t, exec (.ledgerRecord r) s = .next t ∧
      t.get F.LDG_PTR.TAIL = (tail + 1) % 131072 ∧ t.bytes a 64 = r.bytes (!bit tail 16) ∧
      ∀ b, b < a ∨ a + 64 ≤ b → t.byte b = s.byte b) ∧
    (s.on F.LDG_CTRL.ENABLE = true → 65536 ≤ s.ledgerUnread → r.kind = .trace → ∃ t, exec (.ledgerRecord r) s = .next t ∧
      t.on F.LDG_EVENTS.TRACE_DROP = true ∧ t.get F.LDG_DROPPED.TRACE = min (s.get F.LDG_DROPPED.TRACE + 1) (2 ^ 32 - 1) ∧
      t.mem = s.mem ∧ t.get F.LDG_PTR.TAIL = tail) ∧
    (s.on F.LDG_CTRL.ENABLE = true → 65536 ≤ s.ledgerUnread → r.kind ≠ .trace → LedgerKind.trace ∉ s.ldg.kinds →
      ∃ t, exec (.ledgerRecord r) s = .next t ∧ t.on F.LDG_EVENTS.FULL = true ∧
        t.get F.LDG_DROPPED.LEDGER = min (s.get F.LDG_DROPPED.LEDGER + 1) (2 ^ 32 - 1) ∧ t.mem = s.mem ∧ t.get F.LDG_PTR.TAIL = tail)) ∧
  (∀ (s : State) (core v : Nat), s.Reaches (.ldgAttachWrite core v) →
    let held := s.get F.LDG_ATTACH.GENERATION
    (bits v 48 16 = held → Completes (.ldgAttachWrite core v) s [] [(F.LDG_ATTACH.ADDR, 72, 0), (F.LDG_ATTACH.GENERATION, 72, 0)]
      fun t => t.get F.LDG_ATTACH.ADDR = bits v 12 35 ∧ t.get F.LDG_ATTACH.GENERATION = (held + 1) % 65536) ∧
    (bits v 48 16 ≠ held → exec (.ldgAttachWrite core v) s = .next (s.flag F.LDG_EVENTS.ATTACH_REFUSED)))

/-! ### Start and security -/

/-- Power on, with the input in range, and the end of a restart run the start sequence (R587, R590, R606): it stops at the stage
and with the cause of the first thing that fails, and otherwise reaches stage 8. Stage 9 places the boot code, releases core
0 of HD0 and enters Running, a held removal request acting at once; READY reaches stage 10 (R589). -/
def Obligations.StartReachesItsStage : Prop :=
  (∀ (s : State) (c : Instr) (env : StartEnv) (mv : Nat), s.Reaches c →
    (c = .powerOn mv env ∧ 48000 ≤ mv ∧ mv ≤ 58000 ∧
        ((s.power.mode = .off ∧ s.power.restarting = false) ∨ (s.power.mode = .starting ∧ s.get F.SEC_START.STAGE = 0))) ∨
      (c = .restartRailsOn env ∧ s.power.restarting = true) →
    let s0 : State := { s.powerless .starting false with power := { mode := .starting } }
    let bad (k : Nat) := 2 ≤ (failedRows env s.sec.retire k).length
    let ends (stage cause : Nat) := ∃ t, exec c s = .next t ∧ t.power.mode = .starting ∧ t.get F.SEC_START.STAGE = stage ∧
      t.on F.SEC_START.FAILED = true ∧ t.get F.SEC_START.FAIL_CAUSE = cause ∧ t.mem = []
    ((s0.readImages env).2 = none → ends 2 1) ∧
    ((s0.readImages env).2 ≠ none →
      ((∃ t ∈ env.darkSites, t < 72) → ends 3 2) ∧
      ((∀ t ∈ env.darkSites, 72 ≤ t) → env.deadEdges ≠ [] → ends 3 3) ∧
      ((∀ t ∈ env.darkSites, 72 ≤ t) → env.deadEdges = [] → env.failedEdges ≠ [] → ends 4 4) ∧
      ((∀ t ∈ env.darkSites, 72 ≤ t) → env.deadEdges = [] → env.failedEdges = [] → (∃ k, k < 8 ∧ bad k) → ends 5 5) ∧
      ((∀ t ∈ env.darkSites, 72 ≤ t) → env.deadEdges = [] → env.failedEdges = [] → (∀ k, k < 8 → ¬bad k) →
        (env.memoryFails = true → ends 6 6) ∧
        (env.memoryFails = false → ∃ t, exec c s = .next t ∧ t.power.mode = .starting ∧ t.get F.SEC_START.STAGE = 8 ∧ t.mem = [])))) ∧
  (∀ s : State, s.Inv → s.Reaches .startComplete →
    let boot := s.sec.image.boot
    (s.power.mode = .starting → s.get F.SEC_START.STAGE = 8 → s.on F.SEC_START.FAILED = false → ∃ t, exec .startComplete s = .next t ∧
      t.get F.SEC_START.STAGE = 9 ∧ t.out = s.out ++ [.coreRelease 0 (fieldAt boot 8 8)] ∧
      t.bytes (fieldAt boot 0 8) (boot.length - 16) = boot.drop 16 ∧
      (s.on F.PWR_STATUS.DRAIN_HELD = false → t.power.mode = .running ∧ t.get F.PWR_STATUS.STATE = 2) ∧
      (s.on F.PWR_STATUS.DRAIN_HELD = true → t.power.mode = .draining ∧ t.get F.PWR_STATUS.STATE = 4 ∧
        t.get F.PWR_STATUS.DRAIN_SOURCE = s.power.heldSource % 16 ∧ t.on F.PWR_STATUS.DRAIN_HELD = false)) ∧
    (s.power.mode ≠ .starting ∨ s.get F.SEC_START.STAGE ≠ 8 → exec .startComplete s = .next s)) ∧
  (∀ s : State, s.Reaches .secReady →
    (s.get F.SEC_START.STAGE = 9 → Completes .secReady s [] [(F.SEC_START.STAGE, 72, 0), (F.SEC_START.JOINED, 72, 0)] fun t =>
      t.get F.SEC_START.STAGE = if s.get F.TCK_STATUS.STATE = 2 ∧
        ([72, 73, 74, 75].all fun d => s.on F.VRT_BANK.ROUTING d) = true then 11 else 10) ∧
    (s.get F.SEC_START.STAGE ≠ 9 → exec .secReady s = .next s))

/-- A fuse command is refused while one runs (RESULT 2) and unless CONFIRM matches the serial number, the schedule is IDLE or
HALTED and the argument names a fuse (RESULT 1); its end blows the fuse, or reports that it failed (R582, R596, R598). An
attestation report is formed in its host buffer over the nonce there, one at a time (R594, R595); a flash program reads its
image from host memory into the device that was not selected (R597). A request while one runs is refused as its register
says, and a buffer that cannot be read ends it with an error. -/
def Obligations.FusesReportsAndFlash : Prop :=
  ((∀ (s : State) (c : Instr) (confirm cmd arg : Nat), s.Reaches c →
     (c = .retire confirm arg ∧ cmd = 1) ∨ (c = .revoke confirm arg ∧ cmd = 2) ∨ (c = .epoch confirm ∧ cmd = 3 ∧ arg = 0) →
     let takes := confirm % 65536 = (s.word .SEC_SERIAL).toNat % 65536 ∧ s.schedStill = true ∧ fuseArgOk cmd arg = true
     (s.on F.SEC_FUSE_STATUS.BUSY = true → Completes c s [] [(F.SEC_FUSE_STATUS.RESULT, 72, 0)] fun t => t.get F.SEC_FUSE_STATUS.RESULT = 2) ∧
     (s.on F.SEC_FUSE_STATUS.BUSY = false → ¬takes → Completes c s [] [(F.SEC_FUSE_STATUS.RESULT, 72, 0)] fun t =>
       t.get F.SEC_FUSE_STATUS.RESULT = 1) ∧
     (s.on F.SEC_FUSE_STATUS.BUSY = false → takes → Completes c s [.sec] [(F.SEC_FUSE_STATUS.BUSY, 72, 0)] fun t =>
       t.on F.SEC_FUSE_STATUS.BUSY = true ∧ t.sec = { s.sec with fuse := some (cmd, arg) })) ∧
   (∀ (s : State) (failed : Bool), s.Reaches (.fuseCommandDone failed) →
     (s.sec.fuse = none → exec (.fuseCommandDone failed) s = .next s) ∧
     (∀ cmd arg, s.sec.fuse = some (cmd, arg) → ∃ t, exec (.fuseCommandDone failed) s = .next t ∧
       t.on F.SEC_FUSE_STATUS.BUSY = false ∧ t.sec.fuse = none ∧ t.mem = s.mem ∧
       (failed = true → t.get F.SEC_FUSE_STATUS.RESULT = 3 ∧ t.sec.retire = s.sec.retire ∧ t.sec.revoke = s.sec.revoke ∧
         t.sec.epoch = s.sec.epoch) ∧
       (failed = false → t.get F.SEC_FUSE_STATUS.RESULT = 0 ∧
         (cmd = 1 → ∀ x, x ∈ t.sec.retire ↔ x = arg ∨ x ∈ s.sec.retire) ∧ (cmd = 2 → ∀ x, x ∈ t.sec.revoke ↔ x = arg ∨ x ∈ s.sec.revoke) ∧
         (cmd = 3 → t.sec.epoch = min (s.sec.epoch + 1) 64))))) ∧
  ((∀ (s : State) (addr : Nat), s.Reaches (.attest addr) → addr < 2 ^ 47 →
     (s.on F.SEC_ATTEST.BUSY = true → ∃ t, exec (.attest addr) s = .next t ∧ t.on F.SEC_EVENTS.ATTEST_BUSY = true ∧ t.sec = s.sec) ∧
     (s.on F.SEC_ATTEST.BUSY = false → Completes (.attest addr) s [.sec] [(F.SEC_ATTEST.ADDR, 72, 0), (F.SEC_ATTEST.BUSY, 72, 0),
       (F.SEC_ATTEST.DONE, 72, 0), (F.SEC_ATTEST.ERROR, 72, 0)] fun t => t.on F.SEC_ATTEST.BUSY = true ∧ t.on F.SEC_ATTEST.DONE = false ∧
         t.on F.SEC_ATTEST.ERROR = false ∧ t.sec = { s.sec with attest := some (addr / 4096 * 4096, false) })) ∧
   (∀ s : State, s.Inv → s.Reaches .attestDone →
     (s.sec.attest = none → exec .attestDone s = .next s) ∧
     (∀ buffer mgmt, s.sec.attest = some (buffer, mgmt) → s.sec.waiting = [] →
       let a := buffer / 4096 * 4096
       (s.hostSpan a 4096 = false → ∃ t, exec .attestDone s = .next t ∧ t.on F.SEC_ATTEST.BUSY = false ∧ t.on F.SEC_ATTEST.ERROR = true ∧
         t.sec.attest = none ∧ t.mem = s.mem) ∧
       (s.hostSpan a 4096 = true → s.soundSpan (a + 16) 32 → (s.report (s.bytes (a + 16) 32)).length = 4096 →
         ∃ t, exec .attestDone s = .next t ∧ t.on F.SEC_ATTEST.BUSY = false ∧ t.on F.SEC_ATTEST.DONE = true ∧ t.sec.attest = none ∧
           t.bytes a 4096 = s.report (s.bytes (a + 16) 32) ∧ ∀ b, b < a ∨ a + 4096 ≤ b → t.byte b = s.byte b))) ∧
   (∀ (s : State) (addr : Nat), s.Reaches (.flashProgram addr) → addr < 2 ^ 47 →
     (s.on F.SEC_FLASH.BUSY = true → ∃ t, exec (.flashProgram addr) s = .next t ∧ t.get F.SEC_FLASH.RESULT = 3 ∧ t.sec = s.sec) ∧
     (s.on F.SEC_FLASH.BUSY = false → Completes (.flashProgram addr) s [.sec] [(F.SEC_FLASH.ADDR, 72, 0), (F.SEC_FLASH.BUSY, 72, 0)] fun t =>
       t.on F.SEC_FLASH.BUSY = true ∧ t.sec = { s.sec with flashing := some (addr / 4096 * 4096) })) ∧
   (∀ (s : State) (mismatch : Bool), s.Reaches (.flashProgramDone mismatch) →
     (s.sec.flashing = none → exec (.flashProgramDone mismatch) s = .next s) ∧
     (∀ a, s.sec.flashing = some a →
       let n := s.load (a + 16) 4
       (s.hostSpan a 256 = false → ∃ t, exec (.flashProgramDone mismatch) s = .next t ∧ t.on F.SEC_FLASH.BUSY = false ∧
         t.get F.SEC_FLASH.RESULT = 2 ∧ t.sec = { s.sec with flashing := none }) ∧
       (s.hostSpan a 256 = true → s.soundSpan a 256 → 0 < n → n ≤ imageMost → s.hostSpan a n = true → s.soundSpan a n →
         ∃ t, exec (.flashProgramDone mismatch) s = .next t ∧ t.on F.SEC_FLASH.BUSY = false ∧ t.mem = s.mem ∧
           t.get F.SEC_FLASH.RESULT = (if mismatch then 1 else 0) ∧
           (mismatch = false → t.sec = { s.sec with flashing := none, flash := if s.get F.SEC_IMAGE.SLOT = 0
             then (s.sec.flash.1, s.bytes a n) else (s.bytes a n, s.sec.flash.2) })))))

/-! ### Power and management -/

/-- From stage 2 of start the management endpoint answers, and each of its requests acts as the rule it names (R615); before, it
does not answer. A fuse command over it needs the image's leave (R596). -/
def Obligations.ManagementAnswersAndActs : Prop :=
  ∀ (s : State) (c : Instr), s.Reaches c →
    (c = .mgmtGetStatus ∨ c = .mgmtDrain ∨ c = .mgmtDrainCancel ∨ c = .mgmtRestart ∨ (∃ a, c = .mgmtAttest a) ∨
        (∃ k cmd arg, c = .mgmtFuse k cmd arg) → s.get F.SEC_START.STAGE < 2 → exec c s = .next s) ∧
    (2 ≤ s.get F.SEC_START.STAGE →
      (c = .mgmtGetStatus → exec c s = .next
        (s.emit (.mgmt 1 [(s.word .PWR_STATUS).toNat, (s.word .PWR_SENSE).toNat, (s.word .SEC_START).toNat]))) ∧
      (c = .mgmtDrain → s.power.mode = .running ∨ s.power.mode = .parked → ∃ t, exec c s = .next t ∧ t.power.mode = .draining ∧
        t.power.resume = s.power.mode ∧ t.get F.PWR_STATUS.DRAIN_SOURCE = 2 ∧ t.out = s.out ++ [.mgmt 2 []]) ∧
      (c = .mgmtDrainCancel → s.power.mode = .draining → s.power.leaving = false → ∃ t, exec c s = .next t ∧
        t.power.mode = s.power.resume ∧ t.out = s.out ++ [.mgmt 3 []]) ∧
      (c = .mgmtRestart → s.power.mode = .running ∨ s.power.mode = .parked ∨ s.power.mode = .draining →
        (s.schedStill = true → exec c s = .next ((s.powerless .off true).emit (.mgmt 4 []))) ∧
        (s.schedStill = false → exec c s = .next (s.emit (.mgmt 4 [])))) ∧
      (∀ a, c = .mgmtAttest a →
        (s.on F.SEC_ATTEST.BUSY = true → exec c s = .next
          ((s.onSec fun x => { x with waiting := x.waiting ++ [a] }).emit (.mgmt 5 []))) ∧
        (s.on F.SEC_ATTEST.BUSY = false → ∃ t, exec c s = .next t ∧ t.on F.SEC_ATTEST.BUSY = true ∧ t.sec.attest = some (a, true) ∧
          t.out = s.out ++ [.mgmt 5 []])) ∧
      (∀ confirm cmd arg, c = .mgmtFuse confirm cmd arg →
        (s.sec.image.mgmtFuse = false → exec c s = .next (s.emit (.mgmt 6 []))) ∧
        (s.sec.image.mgmtFuse = true → 1 ≤ cmd → cmd ≤ 3 → s.on F.SEC_FUSE_STATUS.BUSY = false →
          confirm % 65536 = (s.word .SEC_SERIAL).toNat % 65536 → s.schedStill = true → fuseArgOk cmd arg = true →
          ∃ t, exec c s = .next t ∧ t.on F.SEC_FUSE_STATUS.BUSY = true ∧ t.sec.fuse = some (cmd, arg) ∧ t.out = s.out ++ [.mgmt 6 []])))

/-- Parking needs a still schedule and sets PARK_REFUSED without one; UNPARK returns to Running (R606). A removal request drains
the module, or is held during start (R608); DRAIN_CANCEL returns to the state that was left; POWER_OFF, with the schedule
still, leaves the erg (R609), and the end of the drain turns the module off. A restart takes every rail off (R606, R618).
With its rails off a module keeps its fuses and flash alone: registers at reset, memory 0, nothing in flight (R601, R606).
PWR_EN falling, the input out of range for its time, and a junction at 110 °C turn it off (R600, R604, R613); the input
within 46 V to 60 V and the temperatures set their sensors and events; a rail fault makes its die fatal (R614). -/
def Obligations.PowerStatesFollowTheirRequests : Prop :=
  (∀ (s : State) (c : Instr), s.Reaches c →
     (c = .park →
       (s.power.mode = .running → s.schedStill = true → ∃ t, exec c s = .next t ∧ t.power.mode = .parked ∧ t.get F.PWR_STATUS.STATE = 3 ∧
         ∀ p : Part, p ≠ .power → p.same s t) ∧
       (s.power.mode = .running → s.schedStill = false → exec c s = .next (s.flag F.PWR_EVENTS.PARK_REFUSED)) ∧
       (s.power.mode ≠ .running → exec c s = .next s)) ∧
     (c = .unpark →
       (s.power.mode = .parked → ∃ t, exec c s = .next t ∧ t.power.mode = .running ∧ t.get F.PWR_STATUS.STATE = 2 ∧
         ∀ p : Part, p ≠ .power → p.same s t) ∧
       (s.power.mode ≠ .parked → exec c s = .next s)) ∧
     (∀ source, (c = .drain ∧ source = 3) ∨ (c = .attnRequest ∧ source = 1) →
       (s.power.mode = .running ∨ s.power.mode = .parked → ∃ t, exec c s = .next t ∧ t.power.mode = .draining ∧
         t.power.resume = s.power.mode ∧ t.on F.PWR_EVENTS.DRAIN_REQ = true ∧ t.get F.PWR_STATUS.DRAIN_SOURCE = source ∧
         t.get F.PWR_STATUS.STATE = 4 ∧
         (s.on F.PWR_IRQ.VALID = true → s.get F.PWR_IRQ.HART < 72 → (s.get F.PWR_IRQ.HART, s.get F.PWR_IRQ.ID) ∈ t.imsic)) ∧
       (s.power.mode = .starting → s.on F.PWR_STATUS.DRAIN_HELD = false → ∃ t, exec c s = .next t ∧ t.power.mode = .starting ∧
         t.on F.PWR_STATUS.DRAIN_HELD = true ∧ t.power.heldSource = source) ∧
       (s.power.mode = .draining → ∃ t, exec c s = .next t ∧ t.power = { s.power with counted := s.power.counted + 1 } ∧ t.regs = s.regs)) ∧
     (c = .drainCancel →
       (s.power.mode = .draining → s.power.leaving = false → ∃ t, exec c s = .next t ∧ t.power.mode = s.power.resume ∧
         t.get F.PWR_STATUS.DRAIN_SOURCE = 0) ∧
       (s.power.mode ≠ .draining ∨ s.power.leaving = true → exec c s = .next s)) ∧
     (c = .powerOff →
       (s.power.mode = .draining → s.schedStill = true → ∃ t, exec c s = .next t ∧ t.power.leaving = true ∧ t.vrt.left = true ∧
         ∀ d ∈ [72, 73, 74, 75], t.on F.VRT_BANK.ROUTING d = false) ∧
       (s.power.mode ≠ .draining ∨ s.schedStill = false → exec c s = .next (s.flag F.PWR_EVENTS.POWER_OFF_REFUSED))) ∧
     (∀ timeout, c = .drainComplete timeout →
       (s.power.mode = .draining → s.power.leaving = true → timeout = true ∨ s.fabricHolds = false → exec c s = .next (s.powerless .off false)) ∧
       (s.power.mode ≠ .draining ∨ s.power.leaving = false ∨ (timeout = false ∧ s.fabricHolds = true) → exec c s = .next s)) ∧
     (c = .restart →
       (s.power.mode = .running ∨ s.power.mode = .parked ∨ s.power.mode = .draining → s.schedStill = true →
         exec c s = .next (s.powerless .off true)) ∧
       (s.power.mode = .running ∨ s.power.mode = .parked ∨ s.power.mode = .draining → s.schedStill = false → exec c s = .next s))) ∧
  (∀ (s : State) (c : Instr), s.Reaches c →
     ((c = .powerEnFall ∨ (c = .inputRangeTimeout ∧ s.power.marginal = true) ∨ (∃ mv, c = .powerFault mv ∧ (mv < 46000 ∨ 60000 < mv)) ∨
         (∃ tj, c = .thermalTrip tj ∧ 110 ≤ tj)) → ∃ t, exec c s = .next t ∧ t.power = { mode := .off } ∧ t.mem = [] ∧
         (∀ r d i, t.word r d i = r.resetWord (r.place d i).die i) ∧ t.sec.retire = s.sec.retire ∧ t.sec.revoke = s.sec.revoke ∧
         t.sec.epoch = s.sec.epoch ∧ (s.sec.flashing = none → t.sec.flash = s.sec.flash) ∧
         t = { t with sched := {}, xlt := {}, coh := {}, qcx := {}, vrt := {}, rem := {}, syn := {}, flt := {}, oasis := {}, hbm := {} } ∧
         t.pending = s.pending ∧ t.out = s.out) ∧
     ((c = .inputRangeTimeout ∧ s.power.marginal = false) ∨ (∃ mv, c = .powerFault mv ∧ 46000 ≤ mv ∧ mv ≤ 60000) ∨
         (∃ tj, c = .thermalTrip tj ∧ tj < 110) → exec c s = .next s) ∧
     (∀ mv, c = .inputRange mv → mv < 2 ^ 16 → Completes c s [.power]
       [(F.PWR_SENSE.INPUT_MV, 72, 0), (F.PWR_EVENTS.INPUT_RANGE, 72, 0)] fun t => t.get F.PWR_SENSE.INPUT_MV = mv ∧
         (48000 ≤ mv → mv ≤ 58000 → t.power.marginal = false ∧ t.on F.PWR_EVENTS.INPUT_RANGE = s.on F.PWR_EVENTS.INPUT_RANGE) ∧
         ((46000 ≤ mv ∧ mv < 48000) ∨ (58000 < mv ∧ mv ≤ 60000) → t.power.marginal = true ∧ t.on F.PWR_EVENTS.INPUT_RANGE = true)) ∧
     (∀ tj outlet, c = .thermalWarn tj outlet → Completes c s [] [(F.PWR_SENSE.TJ_MAX_C, 72, 0), (F.PWR_SENSE.OUTLET_C, 72, 0),
       (F.PWR_EVENTS.THERMAL_WARN, 72, 0)] fun t => t.get F.PWR_SENSE.TJ_MAX_C = tj % 256 ∧ t.get F.PWR_SENSE.OUTLET_C = outlet % 256 ∧
         (95 ≤ tj ∨ 55 ≤ outlet → t.on F.PWR_EVENTS.THERMAL_WARN = true)) ∧
     (∀ dies, c = .railFault dies → ∃ t, exec c s = .next t ∧ ∀ d ∈ dies, t.on F.PWR_RAIL.FAULT d = true ∧
       t.on F.FLT_DIE_HEALTH.FATAL d = true ∧ (s.on F.FLT_DIE_HEALTH.FATAL d = false → t.get F.FLT_DIE_HEALTH.CAUSE d = 4) ∧
       t.on F.PWR_EVENTS.RAIL_FAULT = true))
end

