-- ==== Sys2Proof/Laws/State.lean ====
section
/-! SUPPORT. What each update of the state leaves in each part of it. -/

namespace Sys2Proof.Machine

variable (s : State)

@[simp] theorem State.onPower_pending (f : PowerSt → PowerSt) : (s.onPower f).pending = s.pending := rfl
@[simp] theorem State.onPower_fresh (f : PowerSt → PowerSt) : (s.onPower f).fresh = s.fresh := rfl
@[simp] theorem State.onPower_out (f : PowerSt → PowerSt) : (s.onPower f).out = s.out := rfl
@[simp] theorem State.onPower_regs (f : PowerSt → PowerSt) : (s.onPower f).regs = s.regs := rfl
@[simp] theorem State.onPower_mem (f : PowerSt → PowerSt) : (s.onPower f).mem = s.mem := rfl
@[simp] theorem State.onPower_power (f : PowerSt → PowerSt) : (s.onPower f).power = f s.power := rfl
@[simp] theorem State.onPower_tick (f : PowerSt → PowerSt) : (s.onPower f).tick = s.tick := rfl
@[simp] theorem State.onPower_sched (f : PowerSt → PowerSt) : (s.onPower f).sched = s.sched := rfl
@[simp] theorem State.onPower_arrays (f : PowerSt → PowerSt) : (s.onPower f).arrays = s.arrays := rfl
@[simp] theorem State.onPower_codec (f : PowerSt → PowerSt) : (s.onPower f).codec = s.codec := rfl
@[simp] theorem State.onPower_hbm (f : PowerSt → PowerSt) : (s.onPower f).hbm = s.hbm := rfl
@[simp] theorem State.onPower_oasis (f : PowerSt → PowerSt) : (s.onPower f).oasis = s.oasis := rfl
@[simp] theorem State.onPower_fsel (f : PowerSt → PowerSt) : (s.onPower f).fsel = s.fsel := rfl
@[simp] theorem State.onPower_upd (f : PowerSt → PowerSt) : (s.onPower f).upd = s.upd := rfl
@[simp] theorem State.onPower_rdx (f : PowerSt → PowerSt) : (s.onPower f).rdx = s.rdx := rfl
@[simp] theorem State.onPower_vrt (f : PowerSt → PowerSt) : (s.onPower f).vrt = s.vrt := rfl
@[simp] theorem State.onPower_rem (f : PowerSt → PowerSt) : (s.onPower f).rem = s.rem := rfl
@[simp] theorem State.onPower_xlt (f : PowerSt → PowerSt) : (s.onPower f).xlt = s.xlt := rfl
@[simp] theorem State.onPower_flt (f : PowerSt → PowerSt) : (s.onPower f).flt = s.flt := rfl
@[simp] theorem State.onPower_syn (f : PowerSt → PowerSt) : (s.onPower f).syn = s.syn := rfl
@[simp] theorem State.onPower_coh (f : PowerSt → PowerSt) : (s.onPower f).coh = s.coh := rfl
@[simp] theorem State.onPower_imsic (f : PowerSt → PowerSt) : (s.onPower f).imsic = s.imsic := rfl
@[simp] theorem State.onPower_qcx (f : PowerSt → PowerSt) : (s.onPower f).qcx = s.qcx := rfl
@[simp] theorem State.onPower_pci (f : PowerSt → PowerSt) : (s.onPower f).pci = s.pci := rfl
@[simp] theorem State.onPower_bdi (f : PowerSt → PowerSt) : (s.onPower f).bdi = s.bdi := rfl
@[simp] theorem State.onPower_sec (f : PowerSt → PowerSt) : (s.onPower f).sec = s.sec := rfl
@[simp] theorem State.onPower_ldg (f : PowerSt → PowerSt) : (s.onPower f).ldg = s.ldg := rfl

@[simp] theorem State.onTick_pending (f : TickSt → TickSt) : (s.onTick f).pending = s.pending := rfl
@[simp] theorem State.onTick_fresh (f : TickSt → TickSt) : (s.onTick f).fresh = s.fresh := rfl
@[simp] theorem State.onTick_out (f : TickSt → TickSt) : (s.onTick f).out = s.out := rfl
@[simp] theorem State.onTick_regs (f : TickSt → TickSt) : (s.onTick f).regs = s.regs := rfl
@[simp] theorem State.onTick_mem (f : TickSt → TickSt) : (s.onTick f).mem = s.mem := rfl
@[simp] theorem State.onTick_power (f : TickSt → TickSt) : (s.onTick f).power = s.power := rfl
@[simp] theorem State.onTick_tick (f : TickSt → TickSt) : (s.onTick f).tick = f s.tick := rfl
@[simp] theorem State.onTick_sched (f : TickSt → TickSt) : (s.onTick f).sched = s.sched := rfl
@[simp] theorem State.onTick_arrays (f : TickSt → TickSt) : (s.onTick f).arrays = s.arrays := rfl
@[simp] theorem State.onTick_codec (f : TickSt → TickSt) : (s.onTick f).codec = s.codec := rfl
@[simp] theorem State.onTick_hbm (f : TickSt → TickSt) : (s.onTick f).hbm = s.hbm := rfl
@[simp] theorem State.onTick_oasis (f : TickSt → TickSt) : (s.onTick f).oasis = s.oasis := rfl
@[simp] theorem State.onTick_fsel (f : TickSt → TickSt) : (s.onTick f).fsel = s.fsel := rfl
@[simp] theorem State.onTick_upd (f : TickSt → TickSt) : (s.onTick f).upd = s.upd := rfl
@[simp] theorem State.onTick_rdx (f : TickSt → TickSt) : (s.onTick f).rdx = s.rdx := rfl
@[simp] theorem State.onTick_vrt (f : TickSt → TickSt) : (s.onTick f).vrt = s.vrt := rfl
@[simp] theorem State.onTick_rem (f : TickSt → TickSt) : (s.onTick f).rem = s.rem := rfl
@[simp] theorem State.onTick_xlt (f : TickSt → TickSt) : (s.onTick f).xlt = s.xlt := rfl
@[simp] theorem State.onTick_flt (f : TickSt → TickSt) : (s.onTick f).flt = s.flt := rfl
@[simp] theorem State.onTick_syn (f : TickSt → TickSt) : (s.onTick f).syn = s.syn := rfl
@[simp] theorem State.onTick_coh (f : TickSt → TickSt) : (s.onTick f).coh = s.coh := rfl
@[simp] theorem State.onTick_imsic (f : TickSt → TickSt) : (s.onTick f).imsic = s.imsic := rfl
@[simp] theorem State.onTick_qcx (f : TickSt → TickSt) : (s.onTick f).qcx = s.qcx := rfl
@[simp] theorem State.onTick_pci (f : TickSt → TickSt) : (s.onTick f).pci = s.pci := rfl
@[simp] theorem State.onTick_bdi (f : TickSt → TickSt) : (s.onTick f).bdi = s.bdi := rfl
@[simp] theorem State.onTick_sec (f : TickSt → TickSt) : (s.onTick f).sec = s.sec := rfl
@[simp] theorem State.onTick_ldg (f : TickSt → TickSt) : (s.onTick f).ldg = s.ldg := rfl

@[simp] theorem State.onSched_pending (f : SchedSt → SchedSt) : (s.onSched f).pending = s.pending := rfl
@[simp] theorem State.onSched_fresh (f : SchedSt → SchedSt) : (s.onSched f).fresh = s.fresh := rfl
@[simp] theorem State.onSched_out (f : SchedSt → SchedSt) : (s.onSched f).out = s.out := rfl
@[simp] theorem State.onSched_regs (f : SchedSt → SchedSt) : (s.onSched f).regs = s.regs := rfl
@[simp] theorem State.onSched_mem (f : SchedSt → SchedSt) : (s.onSched f).mem = s.mem := rfl
@[simp] theorem State.onSched_power (f : SchedSt → SchedSt) : (s.onSched f).power = s.power := rfl
@[simp] theorem State.onSched_tick (f : SchedSt → SchedSt) : (s.onSched f).tick = s.tick := rfl
@[simp] theorem State.onSched_sched (f : SchedSt → SchedSt) : (s.onSched f).sched = f s.sched := rfl
@[simp] theorem State.onSched_arrays (f : SchedSt → SchedSt) : (s.onSched f).arrays = s.arrays := rfl
@[simp] theorem State.onSched_codec (f : SchedSt → SchedSt) : (s.onSched f).codec = s.codec := rfl
@[simp] theorem State.onSched_hbm (f : SchedSt → SchedSt) : (s.onSched f).hbm = s.hbm := rfl
@[simp] theorem State.onSched_oasis (f : SchedSt → SchedSt) : (s.onSched f).oasis = s.oasis := rfl
@[simp] theorem State.onSched_fsel (f : SchedSt → SchedSt) : (s.onSched f).fsel = s.fsel := rfl
@[simp] theorem State.onSched_upd (f : SchedSt → SchedSt) : (s.onSched f).upd = s.upd := rfl
@[simp] theorem State.onSched_rdx (f : SchedSt → SchedSt) : (s.onSched f).rdx = s.rdx := rfl
@[simp] theorem State.onSched_vrt (f : SchedSt → SchedSt) : (s.onSched f).vrt = s.vrt := rfl
@[simp] theorem State.onSched_rem (f : SchedSt → SchedSt) : (s.onSched f).rem = s.rem := rfl
@[simp] theorem State.onSched_xlt (f : SchedSt → SchedSt) : (s.onSched f).xlt = s.xlt := rfl
@[simp] theorem State.onSched_flt (f : SchedSt → SchedSt) : (s.onSched f).flt = s.flt := rfl
@[simp] theorem State.onSched_syn (f : SchedSt → SchedSt) : (s.onSched f).syn = s.syn := rfl
@[simp] theorem State.onSched_coh (f : SchedSt → SchedSt) : (s.onSched f).coh = s.coh := rfl
@[simp] theorem State.onSched_imsic (f : SchedSt → SchedSt) : (s.onSched f).imsic = s.imsic := rfl
@[simp] theorem State.onSched_qcx (f : SchedSt → SchedSt) : (s.onSched f).qcx = s.qcx := rfl
@[simp] theorem State.onSched_pci (f : SchedSt → SchedSt) : (s.onSched f).pci = s.pci := rfl
@[simp] theorem State.onSched_bdi (f : SchedSt → SchedSt) : (s.onSched f).bdi = s.bdi := rfl
@[simp] theorem State.onSched_sec (f : SchedSt → SchedSt) : (s.onSched f).sec = s.sec := rfl
@[simp] theorem State.onSched_ldg (f : SchedSt → SchedSt) : (s.onSched f).ldg = s.ldg := rfl

@[simp] theorem State.onCodec_pending (f : CodecSt → CodecSt) : (s.onCodec f).pending = s.pending := rfl
@[simp] theorem State.onCodec_fresh (f : CodecSt → CodecSt) : (s.onCodec f).fresh = s.fresh := rfl
@[simp] theorem State.onCodec_out (f : CodecSt → CodecSt) : (s.onCodec f).out = s.out := rfl
@[simp] theorem State.onCodec_regs (f : CodecSt → CodecSt) : (s.onCodec f).regs = s.regs := rfl
@[simp] theorem State.onCodec_mem (f : CodecSt → CodecSt) : (s.onCodec f).mem = s.mem := rfl
@[simp] theorem State.onCodec_power (f : CodecSt → CodecSt) : (s.onCodec f).power = s.power := rfl
@[simp] theorem State.onCodec_tick (f : CodecSt → CodecSt) : (s.onCodec f).tick = s.tick := rfl
@[simp] theorem State.onCodec_sched (f : CodecSt → CodecSt) : (s.onCodec f).sched = s.sched := rfl
@[simp] theorem State.onCodec_arrays (f : CodecSt → CodecSt) : (s.onCodec f).arrays = s.arrays := rfl
@[simp] theorem State.onCodec_codec (f : CodecSt → CodecSt) : (s.onCodec f).codec = f s.codec := rfl
@[simp] theorem State.onCodec_hbm (f : CodecSt → CodecSt) : (s.onCodec f).hbm = s.hbm := rfl
@[simp] theorem State.onCodec_oasis (f : CodecSt → CodecSt) : (s.onCodec f).oasis = s.oasis := rfl
@[simp] theorem State.onCodec_fsel (f : CodecSt → CodecSt) : (s.onCodec f).fsel = s.fsel := rfl
@[simp] theorem State.onCodec_upd (f : CodecSt → CodecSt) : (s.onCodec f).upd = s.upd := rfl
@[simp] theorem State.onCodec_rdx (f : CodecSt → CodecSt) : (s.onCodec f).rdx = s.rdx := rfl
@[simp] theorem State.onCodec_vrt (f : CodecSt → CodecSt) : (s.onCodec f).vrt = s.vrt := rfl
@[simp] theorem State.onCodec_rem (f : CodecSt → CodecSt) : (s.onCodec f).rem = s.rem := rfl
@[simp] theorem State.onCodec_xlt (f : CodecSt → CodecSt) : (s.onCodec f).xlt = s.xlt := rfl
@[simp] theorem State.onCodec_flt (f : CodecSt → CodecSt) : (s.onCodec f).flt = s.flt := rfl
@[simp] theorem State.onCodec_syn (f : CodecSt → CodecSt) : (s.onCodec f).syn = s.syn := rfl
@[simp] theorem State.onCodec_coh (f : CodecSt → CodecSt) : (s.onCodec f).coh = s.coh := rfl
@[simp] theorem State.onCodec_imsic (f : CodecSt → CodecSt) : (s.onCodec f).imsic = s.imsic := rfl
@[simp] theorem State.onCodec_qcx (f : CodecSt → CodecSt) : (s.onCodec f).qcx = s.qcx := rfl
@[simp] theorem State.onCodec_pci (f : CodecSt → CodecSt) : (s.onCodec f).pci = s.pci := rfl
@[simp] theorem State.onCodec_bdi (f : CodecSt → CodecSt) : (s.onCodec f).bdi = s.bdi := rfl
@[simp] theorem State.onCodec_sec (f : CodecSt → CodecSt) : (s.onCodec f).sec = s.sec := rfl
@[simp] theorem State.onCodec_ldg (f : CodecSt → CodecSt) : (s.onCodec f).ldg = s.ldg := rfl

@[simp] theorem State.onHbm_pending (f : HbmSt → HbmSt) : (s.onHbm f).pending = s.pending := rfl
@[simp] theorem State.onHbm_fresh (f : HbmSt → HbmSt) : (s.onHbm f).fresh = s.fresh := rfl
@[simp] theorem State.onHbm_out (f : HbmSt → HbmSt) : (s.onHbm f).out = s.out := rfl
@[simp] theorem State.onHbm_regs (f : HbmSt → HbmSt) : (s.onHbm f).regs = s.regs := rfl
@[simp] theorem State.onHbm_mem (f : HbmSt → HbmSt) : (s.onHbm f).mem = s.mem := rfl
@[simp] theorem State.onHbm_power (f : HbmSt → HbmSt) : (s.onHbm f).power = s.power := rfl
@[simp] theorem State.onHbm_tick (f : HbmSt → HbmSt) : (s.onHbm f).tick = s.tick := rfl
@[simp] theorem State.onHbm_sched (f : HbmSt → HbmSt) : (s.onHbm f).sched = s.sched := rfl
@[simp] theorem State.onHbm_arrays (f : HbmSt → HbmSt) : (s.onHbm f).arrays = s.arrays := rfl
@[simp] theorem State.onHbm_codec (f : HbmSt → HbmSt) : (s.onHbm f).codec = s.codec := rfl
@[simp] theorem State.onHbm_hbm (f : HbmSt → HbmSt) : (s.onHbm f).hbm = f s.hbm := rfl
@[simp] theorem State.onHbm_oasis (f : HbmSt → HbmSt) : (s.onHbm f).oasis = s.oasis := rfl
@[simp] theorem State.onHbm_fsel (f : HbmSt → HbmSt) : (s.onHbm f).fsel = s.fsel := rfl
@[simp] theorem State.onHbm_upd (f : HbmSt → HbmSt) : (s.onHbm f).upd = s.upd := rfl
@[simp] theorem State.onHbm_rdx (f : HbmSt → HbmSt) : (s.onHbm f).rdx = s.rdx := rfl
@[simp] theorem State.onHbm_vrt (f : HbmSt → HbmSt) : (s.onHbm f).vrt = s.vrt := rfl
@[simp] theorem State.onHbm_rem (f : HbmSt → HbmSt) : (s.onHbm f).rem = s.rem := rfl
@[simp] theorem State.onHbm_xlt (f : HbmSt → HbmSt) : (s.onHbm f).xlt = s.xlt := rfl
@[simp] theorem State.onHbm_flt (f : HbmSt → HbmSt) : (s.onHbm f).flt = s.flt := rfl
@[simp] theorem State.onHbm_syn (f : HbmSt → HbmSt) : (s.onHbm f).syn = s.syn := rfl
@[simp] theorem State.onHbm_coh (f : HbmSt → HbmSt) : (s.onHbm f).coh = s.coh := rfl
@[simp] theorem State.onHbm_imsic (f : HbmSt → HbmSt) : (s.onHbm f).imsic = s.imsic := rfl
@[simp] theorem State.onHbm_qcx (f : HbmSt → HbmSt) : (s.onHbm f).qcx = s.qcx := rfl
@[simp] theorem State.onHbm_pci (f : HbmSt → HbmSt) : (s.onHbm f).pci = s.pci := rfl
@[simp] theorem State.onHbm_bdi (f : HbmSt → HbmSt) : (s.onHbm f).bdi = s.bdi := rfl
@[simp] theorem State.onHbm_sec (f : HbmSt → HbmSt) : (s.onHbm f).sec = s.sec := rfl
@[simp] theorem State.onHbm_ldg (f : HbmSt → HbmSt) : (s.onHbm f).ldg = s.ldg := rfl

@[simp] theorem State.onOasis_pending (f : OasisSt → OasisSt) : (s.onOasis f).pending = s.pending := rfl
@[simp] theorem State.onOasis_fresh (f : OasisSt → OasisSt) : (s.onOasis f).fresh = s.fresh := rfl
@[simp] theorem State.onOasis_out (f : OasisSt → OasisSt) : (s.onOasis f).out = s.out := rfl
@[simp] theorem State.onOasis_regs (f : OasisSt → OasisSt) : (s.onOasis f).regs = s.regs := rfl
@[simp] theorem State.onOasis_mem (f : OasisSt → OasisSt) : (s.onOasis f).mem = s.mem := rfl
@[simp] theorem State.onOasis_power (f : OasisSt → OasisSt) : (s.onOasis f).power = s.power := rfl
@[simp] theorem State.onOasis_tick (f : OasisSt → OasisSt) : (s.onOasis f).tick = s.tick := rfl
@[simp] theorem State.onOasis_sched (f : OasisSt → OasisSt) : (s.onOasis f).sched = s.sched := rfl
@[simp] theorem State.onOasis_arrays (f : OasisSt → OasisSt) : (s.onOasis f).arrays = s.arrays := rfl
@[simp] theorem State.onOasis_codec (f : OasisSt → OasisSt) : (s.onOasis f).codec = s.codec := rfl
@[simp] theorem State.onOasis_hbm (f : OasisSt → OasisSt) : (s.onOasis f).hbm = s.hbm := rfl
@[simp] theorem State.onOasis_oasis (f : OasisSt → OasisSt) : (s.onOasis f).oasis = f s.oasis := rfl
@[simp] theorem State.onOasis_fsel (f : OasisSt → OasisSt) : (s.onOasis f).fsel = s.fsel := rfl
@[simp] theorem State.onOasis_upd (f : OasisSt → OasisSt) : (s.onOasis f).upd = s.upd := rfl
@[simp] theorem State.onOasis_rdx (f : OasisSt → OasisSt) : (s.onOasis f).rdx = s.rdx := rfl
@[simp] theorem State.onOasis_vrt (f : OasisSt → OasisSt) : (s.onOasis f).vrt = s.vrt := rfl
@[simp] theorem State.onOasis_rem (f : OasisSt → OasisSt) : (s.onOasis f).rem = s.rem := rfl
@[simp] theorem State.onOasis_xlt (f : OasisSt → OasisSt) : (s.onOasis f).xlt = s.xlt := rfl
@[simp] theorem State.onOasis_flt (f : OasisSt → OasisSt) : (s.onOasis f).flt = s.flt := rfl
@[simp] theorem State.onOasis_syn (f : OasisSt → OasisSt) : (s.onOasis f).syn = s.syn := rfl
@[simp] theorem State.onOasis_coh (f : OasisSt → OasisSt) : (s.onOasis f).coh = s.coh := rfl
@[simp] theorem State.onOasis_imsic (f : OasisSt → OasisSt) : (s.onOasis f).imsic = s.imsic := rfl
@[simp] theorem State.onOasis_qcx (f : OasisSt → OasisSt) : (s.onOasis f).qcx = s.qcx := rfl
@[simp] theorem State.onOasis_pci (f : OasisSt → OasisSt) : (s.onOasis f).pci = s.pci := rfl
@[simp] theorem State.onOasis_bdi (f : OasisSt → OasisSt) : (s.onOasis f).bdi = s.bdi := rfl
@[simp] theorem State.onOasis_sec (f : OasisSt → OasisSt) : (s.onOasis f).sec = s.sec := rfl
@[simp] theorem State.onOasis_ldg (f : OasisSt → OasisSt) : (s.onOasis f).ldg = s.ldg := rfl

@[simp] theorem State.onFsel_pending (f : FselSt → FselSt) : (s.onFsel f).pending = s.pending := rfl
@[simp] theorem State.onFsel_fresh (f : FselSt → FselSt) : (s.onFsel f).fresh = s.fresh := rfl
@[simp] theorem State.onFsel_out (f : FselSt → FselSt) : (s.onFsel f).out = s.out := rfl
@[simp] theorem State.onFsel_regs (f : FselSt → FselSt) : (s.onFsel f).regs = s.regs := rfl
@[simp] theorem State.onFsel_mem (f : FselSt → FselSt) : (s.onFsel f).mem = s.mem := rfl
@[simp] theorem State.onFsel_power (f : FselSt → FselSt) : (s.onFsel f).power = s.power := rfl
@[simp] theorem State.onFsel_tick (f : FselSt → FselSt) : (s.onFsel f).tick = s.tick := rfl
@[simp] theorem State.onFsel_sched (f : FselSt → FselSt) : (s.onFsel f).sched = s.sched := rfl
@[simp] theorem State.onFsel_arrays (f : FselSt → FselSt) : (s.onFsel f).arrays = s.arrays := rfl
@[simp] theorem State.onFsel_codec (f : FselSt → FselSt) : (s.onFsel f).codec = s.codec := rfl
@[simp] theorem State.onFsel_hbm (f : FselSt → FselSt) : (s.onFsel f).hbm = s.hbm := rfl
@[simp] theorem State.onFsel_oasis (f : FselSt → FselSt) : (s.onFsel f).oasis = s.oasis := rfl
@[simp] theorem State.onFsel_fsel (f : FselSt → FselSt) : (s.onFsel f).fsel = f s.fsel := rfl
@[simp] theorem State.onFsel_upd (f : FselSt → FselSt) : (s.onFsel f).upd = s.upd := rfl
@[simp] theorem State.onFsel_rdx (f : FselSt → FselSt) : (s.onFsel f).rdx = s.rdx := rfl
@[simp] theorem State.onFsel_vrt (f : FselSt → FselSt) : (s.onFsel f).vrt = s.vrt := rfl
@[simp] theorem State.onFsel_rem (f : FselSt → FselSt) : (s.onFsel f).rem = s.rem := rfl
@[simp] theorem State.onFsel_xlt (f : FselSt → FselSt) : (s.onFsel f).xlt = s.xlt := rfl
@[simp] theorem State.onFsel_flt (f : FselSt → FselSt) : (s.onFsel f).flt = s.flt := rfl
@[simp] theorem State.onFsel_syn (f : FselSt → FselSt) : (s.onFsel f).syn = s.syn := rfl
@[simp] theorem State.onFsel_coh (f : FselSt → FselSt) : (s.onFsel f).coh = s.coh := rfl
@[simp] theorem State.onFsel_imsic (f : FselSt → FselSt) : (s.onFsel f).imsic = s.imsic := rfl
@[simp] theorem State.onFsel_qcx (f : FselSt → FselSt) : (s.onFsel f).qcx = s.qcx := rfl
@[simp] theorem State.onFsel_pci (f : FselSt → FselSt) : (s.onFsel f).pci = s.pci := rfl
@[simp] theorem State.onFsel_bdi (f : FselSt → FselSt) : (s.onFsel f).bdi = s.bdi := rfl
@[simp] theorem State.onFsel_sec (f : FselSt → FselSt) : (s.onFsel f).sec = s.sec := rfl
@[simp] theorem State.onFsel_ldg (f : FselSt → FselSt) : (s.onFsel f).ldg = s.ldg := rfl

@[simp] theorem State.onUpd_pending (f : UpdSt → UpdSt) : (s.onUpd f).pending = s.pending := rfl
@[simp] theorem State.onUpd_fresh (f : UpdSt → UpdSt) : (s.onUpd f).fresh = s.fresh := rfl
@[simp] theorem State.onUpd_out (f : UpdSt → UpdSt) : (s.onUpd f).out = s.out := rfl
@[simp] theorem State.onUpd_regs (f : UpdSt → UpdSt) : (s.onUpd f).regs = s.regs := rfl
@[simp] theorem State.onUpd_mem (f : UpdSt → UpdSt) : (s.onUpd f).mem = s.mem := rfl
@[simp] theorem State.onUpd_power (f : UpdSt → UpdSt) : (s.onUpd f).power = s.power := rfl
@[simp] theorem State.onUpd_tick (f : UpdSt → UpdSt) : (s.onUpd f).tick = s.tick := rfl
@[simp] theorem State.onUpd_sched (f : UpdSt → UpdSt) : (s.onUpd f).sched = s.sched := rfl
@[simp] theorem State.onUpd_arrays (f : UpdSt → UpdSt) : (s.onUpd f).arrays = s.arrays := rfl
@[simp] theorem State.onUpd_codec (f : UpdSt → UpdSt) : (s.onUpd f).codec = s.codec := rfl
@[simp] theorem State.onUpd_hbm (f : UpdSt → UpdSt) : (s.onUpd f).hbm = s.hbm := rfl
@[simp] theorem State.onUpd_oasis (f : UpdSt → UpdSt) : (s.onUpd f).oasis = s.oasis := rfl
@[simp] theorem State.onUpd_fsel (f : UpdSt → UpdSt) : (s.onUpd f).fsel = s.fsel := rfl
@[simp] theorem State.onUpd_upd (f : UpdSt → UpdSt) : (s.onUpd f).upd = f s.upd := rfl
@[simp] theorem State.onUpd_rdx (f : UpdSt → UpdSt) : (s.onUpd f).rdx = s.rdx := rfl
@[simp] theorem State.onUpd_vrt (f : UpdSt → UpdSt) : (s.onUpd f).vrt = s.vrt := rfl
@[simp] theorem State.onUpd_rem (f : UpdSt → UpdSt) : (s.onUpd f).rem = s.rem := rfl
@[simp] theorem State.onUpd_xlt (f : UpdSt → UpdSt) : (s.onUpd f).xlt = s.xlt := rfl
@[simp] theorem State.onUpd_flt (f : UpdSt → UpdSt) : (s.onUpd f).flt = s.flt := rfl
@[simp] theorem State.onUpd_syn (f : UpdSt → UpdSt) : (s.onUpd f).syn = s.syn := rfl
@[simp] theorem State.onUpd_coh (f : UpdSt → UpdSt) : (s.onUpd f).coh = s.coh := rfl
@[simp] theorem State.onUpd_imsic (f : UpdSt → UpdSt) : (s.onUpd f).imsic = s.imsic := rfl
@[simp] theorem State.onUpd_qcx (f : UpdSt → UpdSt) : (s.onUpd f).qcx = s.qcx := rfl
@[simp] theorem State.onUpd_pci (f : UpdSt → UpdSt) : (s.onUpd f).pci = s.pci := rfl
@[simp] theorem State.onUpd_bdi (f : UpdSt → UpdSt) : (s.onUpd f).bdi = s.bdi := rfl
@[simp] theorem State.onUpd_sec (f : UpdSt → UpdSt) : (s.onUpd f).sec = s.sec := rfl
@[simp] theorem State.onUpd_ldg (f : UpdSt → UpdSt) : (s.onUpd f).ldg = s.ldg := rfl

@[simp] theorem State.onRdx_pending (f : RdxSt → RdxSt) : (s.onRdx f).pending = s.pending := rfl
@[simp] theorem State.onRdx_fresh (f : RdxSt → RdxSt) : (s.onRdx f).fresh = s.fresh := rfl
@[simp] theorem State.onRdx_out (f : RdxSt → RdxSt) : (s.onRdx f).out = s.out := rfl
@[simp] theorem State.onRdx_regs (f : RdxSt → RdxSt) : (s.onRdx f).regs = s.regs := rfl
@[simp] theorem State.onRdx_mem (f : RdxSt → RdxSt) : (s.onRdx f).mem = s.mem := rfl
@[simp] theorem State.onRdx_power (f : RdxSt → RdxSt) : (s.onRdx f).power = s.power := rfl
@[simp] theorem State.onRdx_tick (f : RdxSt → RdxSt) : (s.onRdx f).tick = s.tick := rfl
@[simp] theorem State.onRdx_sched (f : RdxSt → RdxSt) : (s.onRdx f).sched = s.sched := rfl
@[simp] theorem State.onRdx_arrays (f : RdxSt → RdxSt) : (s.onRdx f).arrays = s.arrays := rfl
@[simp] theorem State.onRdx_codec (f : RdxSt → RdxSt) : (s.onRdx f).codec = s.codec := rfl
@[simp] theorem State.onRdx_hbm (f : RdxSt → RdxSt) : (s.onRdx f).hbm = s.hbm := rfl
@[simp] theorem State.onRdx_oasis (f : RdxSt → RdxSt) : (s.onRdx f).oasis = s.oasis := rfl
@[simp] theorem State.onRdx_fsel (f : RdxSt → RdxSt) : (s.onRdx f).fsel = s.fsel := rfl
@[simp] theorem State.onRdx_upd (f : RdxSt → RdxSt) : (s.onRdx f).upd = s.upd := rfl
@[simp] theorem State.onRdx_rdx (f : RdxSt → RdxSt) : (s.onRdx f).rdx = f s.rdx := rfl
@[simp] theorem State.onRdx_vrt (f : RdxSt → RdxSt) : (s.onRdx f).vrt = s.vrt := rfl
@[simp] theorem State.onRdx_rem (f : RdxSt → RdxSt) : (s.onRdx f).rem = s.rem := rfl
@[simp] theorem State.onRdx_xlt (f : RdxSt → RdxSt) : (s.onRdx f).xlt = s.xlt := rfl
@[simp] theorem State.onRdx_flt (f : RdxSt → RdxSt) : (s.onRdx f).flt = s.flt := rfl
@[simp] theorem State.onRdx_syn (f : RdxSt → RdxSt) : (s.onRdx f).syn = s.syn := rfl
@[simp] theorem State.onRdx_coh (f : RdxSt → RdxSt) : (s.onRdx f).coh = s.coh := rfl
@[simp] theorem State.onRdx_imsic (f : RdxSt → RdxSt) : (s.onRdx f).imsic = s.imsic := rfl
@[simp] theorem State.onRdx_qcx (f : RdxSt → RdxSt) : (s.onRdx f).qcx = s.qcx := rfl
@[simp] theorem State.onRdx_pci (f : RdxSt → RdxSt) : (s.onRdx f).pci = s.pci := rfl
@[simp] theorem State.onRdx_bdi (f : RdxSt → RdxSt) : (s.onRdx f).bdi = s.bdi := rfl
@[simp] theorem State.onRdx_sec (f : RdxSt → RdxSt) : (s.onRdx f).sec = s.sec := rfl
@[simp] theorem State.onRdx_ldg (f : RdxSt → RdxSt) : (s.onRdx f).ldg = s.ldg := rfl

@[simp] theorem State.onVrt_pending (f : VrtSt → VrtSt) : (s.onVrt f).pending = s.pending := rfl
@[simp] theorem State.onVrt_fresh (f : VrtSt → VrtSt) : (s.onVrt f).fresh = s.fresh := rfl
@[simp] theorem State.onVrt_out (f : VrtSt → VrtSt) : (s.onVrt f).out = s.out := rfl
@[simp] theorem State.onVrt_regs (f : VrtSt → VrtSt) : (s.onVrt f).regs = s.regs := rfl
@[simp] theorem State.onVrt_mem (f : VrtSt → VrtSt) : (s.onVrt f).mem = s.mem := rfl
@[simp] theorem State.onVrt_power (f : VrtSt → VrtSt) : (s.onVrt f).power = s.power := rfl
@[simp] theorem State.onVrt_tick (f : VrtSt → VrtSt) : (s.onVrt f).tick = s.tick := rfl
@[simp] theorem State.onVrt_sched (f : VrtSt → VrtSt) : (s.onVrt f).sched = s.sched := rfl
@[simp] theorem State.onVrt_arrays (f : VrtSt → VrtSt) : (s.onVrt f).arrays = s.arrays := rfl
@[simp] theorem State.onVrt_codec (f : VrtSt → VrtSt) : (s.onVrt f).codec = s.codec := rfl
@[simp] theorem State.onVrt_hbm (f : VrtSt → VrtSt) : (s.onVrt f).hbm = s.hbm := rfl
@[simp] theorem State.onVrt_oasis (f : VrtSt → VrtSt) : (s.onVrt f).oasis = s.oasis := rfl
@[simp] theorem State.onVrt_fsel (f : VrtSt → VrtSt) : (s.onVrt f).fsel = s.fsel := rfl
@[simp] theorem State.onVrt_upd (f : VrtSt → VrtSt) : (s.onVrt f).upd = s.upd := rfl
@[simp] theorem State.onVrt_rdx (f : VrtSt → VrtSt) : (s.onVrt f).rdx = s.rdx := rfl
@[simp] theorem State.onVrt_vrt (f : VrtSt → VrtSt) : (s.onVrt f).vrt = f s.vrt := rfl
@[simp] theorem State.onVrt_rem (f : VrtSt → VrtSt) : (s.onVrt f).rem = s.rem := rfl
@[simp] theorem State.onVrt_xlt (f : VrtSt → VrtSt) : (s.onVrt f).xlt = s.xlt := rfl
@[simp] theorem State.onVrt_flt (f : VrtSt → VrtSt) : (s.onVrt f).flt = s.flt := rfl
@[simp] theorem State.onVrt_syn (f : VrtSt → VrtSt) : (s.onVrt f).syn = s.syn := rfl
@[simp] theorem State.onVrt_coh (f : VrtSt → VrtSt) : (s.onVrt f).coh = s.coh := rfl
@[simp] theorem State.onVrt_imsic (f : VrtSt → VrtSt) : (s.onVrt f).imsic = s.imsic := rfl
@[simp] theorem State.onVrt_qcx (f : VrtSt → VrtSt) : (s.onVrt f).qcx = s.qcx := rfl
@[simp] theorem State.onVrt_pci (f : VrtSt → VrtSt) : (s.onVrt f).pci = s.pci := rfl
@[simp] theorem State.onVrt_bdi (f : VrtSt → VrtSt) : (s.onVrt f).bdi = s.bdi := rfl
@[simp] theorem State.onVrt_sec (f : VrtSt → VrtSt) : (s.onVrt f).sec = s.sec := rfl
@[simp] theorem State.onVrt_ldg (f : VrtSt → VrtSt) : (s.onVrt f).ldg = s.ldg := rfl

@[simp] theorem State.onRem_pending (f : RemoteSt → RemoteSt) : (s.onRem f).pending = s.pending := rfl
@[simp] theorem State.onRem_fresh (f : RemoteSt → RemoteSt) : (s.onRem f).fresh = s.fresh := rfl
@[simp] theorem State.onRem_out (f : RemoteSt → RemoteSt) : (s.onRem f).out = s.out := rfl
@[simp] theorem State.onRem_regs (f : RemoteSt → RemoteSt) : (s.onRem f).regs = s.regs := rfl
@[simp] theorem State.onRem_mem (f : RemoteSt → RemoteSt) : (s.onRem f).mem = s.mem := rfl
@[simp] theorem State.onRem_power (f : RemoteSt → RemoteSt) : (s.onRem f).power = s.power := rfl
@[simp] theorem State.onRem_tick (f : RemoteSt → RemoteSt) : (s.onRem f).tick = s.tick := rfl
@[simp] theorem State.onRem_sched (f : RemoteSt → RemoteSt) : (s.onRem f).sched = s.sched := rfl
@[simp] theorem State.onRem_arrays (f : RemoteSt → RemoteSt) : (s.onRem f).arrays = s.arrays := rfl
@[simp] theorem State.onRem_codec (f : RemoteSt → RemoteSt) : (s.onRem f).codec = s.codec := rfl
@[simp] theorem State.onRem_hbm (f : RemoteSt → RemoteSt) : (s.onRem f).hbm = s.hbm := rfl
@[simp] theorem State.onRem_oasis (f : RemoteSt → RemoteSt) : (s.onRem f).oasis = s.oasis := rfl
@[simp] theorem State.onRem_fsel (f : RemoteSt → RemoteSt) : (s.onRem f).fsel = s.fsel := rfl
@[simp] theorem State.onRem_upd (f : RemoteSt → RemoteSt) : (s.onRem f).upd = s.upd := rfl
@[simp] theorem State.onRem_rdx (f : RemoteSt → RemoteSt) : (s.onRem f).rdx = s.rdx := rfl
@[simp] theorem State.onRem_vrt (f : RemoteSt → RemoteSt) : (s.onRem f).vrt = s.vrt := rfl
@[simp] theorem State.onRem_rem (f : RemoteSt → RemoteSt) : (s.onRem f).rem = f s.rem := rfl
@[simp] theorem State.onRem_xlt (f : RemoteSt → RemoteSt) : (s.onRem f).xlt = s.xlt := rfl
@[simp] theorem State.onRem_flt (f : RemoteSt → RemoteSt) : (s.onRem f).flt = s.flt := rfl
@[simp] theorem State.onRem_syn (f : RemoteSt → RemoteSt) : (s.onRem f).syn = s.syn := rfl
@[simp] theorem State.onRem_coh (f : RemoteSt → RemoteSt) : (s.onRem f).coh = s.coh := rfl
@[simp] theorem State.onRem_imsic (f : RemoteSt → RemoteSt) : (s.onRem f).imsic = s.imsic := rfl
@[simp] theorem State.onRem_qcx (f : RemoteSt → RemoteSt) : (s.onRem f).qcx = s.qcx := rfl
@[simp] theorem State.onRem_pci (f : RemoteSt → RemoteSt) : (s.onRem f).pci = s.pci := rfl
@[simp] theorem State.onRem_bdi (f : RemoteSt → RemoteSt) : (s.onRem f).bdi = s.bdi := rfl
@[simp] theorem State.onRem_sec (f : RemoteSt → RemoteSt) : (s.onRem f).sec = s.sec := rfl
@[simp] theorem State.onRem_ldg (f : RemoteSt → RemoteSt) : (s.onRem f).ldg = s.ldg := rfl

@[simp] theorem State.onXlt_pending (f : XltSt → XltSt) : (s.onXlt f).pending = s.pending := rfl
@[simp] theorem State.onXlt_fresh (f : XltSt → XltSt) : (s.onXlt f).fresh = s.fresh := rfl
@[simp] theorem State.onXlt_out (f : XltSt → XltSt) : (s.onXlt f).out = s.out := rfl
@[simp] theorem State.onXlt_regs (f : XltSt → XltSt) : (s.onXlt f).regs = s.regs := rfl
@[simp] theorem State.onXlt_mem (f : XltSt → XltSt) : (s.onXlt f).mem = s.mem := rfl
@[simp] theorem State.onXlt_power (f : XltSt → XltSt) : (s.onXlt f).power = s.power := rfl
@[simp] theorem State.onXlt_tick (f : XltSt → XltSt) : (s.onXlt f).tick = s.tick := rfl
@[simp] theorem State.onXlt_sched (f : XltSt → XltSt) : (s.onXlt f).sched = s.sched := rfl
@[simp] theorem State.onXlt_arrays (f : XltSt → XltSt) : (s.onXlt f).arrays = s.arrays := rfl
@[simp] theorem State.onXlt_codec (f : XltSt → XltSt) : (s.onXlt f).codec = s.codec := rfl
@[simp] theorem State.onXlt_hbm (f : XltSt → XltSt) : (s.onXlt f).hbm = s.hbm := rfl
@[simp] theorem State.onXlt_oasis (f : XltSt → XltSt) : (s.onXlt f).oasis = s.oasis := rfl
@[simp] theorem State.onXlt_fsel (f : XltSt → XltSt) : (s.onXlt f).fsel = s.fsel := rfl
@[simp] theorem State.onXlt_upd (f : XltSt → XltSt) : (s.onXlt f).upd = s.upd := rfl
@[simp] theorem State.onXlt_rdx (f : XltSt → XltSt) : (s.onXlt f).rdx = s.rdx := rfl
@[simp] theorem State.onXlt_vrt (f : XltSt → XltSt) : (s.onXlt f).vrt = s.vrt := rfl
@[simp] theorem State.onXlt_rem (f : XltSt → XltSt) : (s.onXlt f).rem = s.rem := rfl
@[simp] theorem State.onXlt_xlt (f : XltSt → XltSt) : (s.onXlt f).xlt = f s.xlt := rfl
@[simp] theorem State.onXlt_flt (f : XltSt → XltSt) : (s.onXlt f).flt = s.flt := rfl
@[simp] theorem State.onXlt_syn (f : XltSt → XltSt) : (s.onXlt f).syn = s.syn := rfl
@[simp] theorem State.onXlt_coh (f : XltSt → XltSt) : (s.onXlt f).coh = s.coh := rfl
@[simp] theorem State.onXlt_imsic (f : XltSt → XltSt) : (s.onXlt f).imsic = s.imsic := rfl
@[simp] theorem State.onXlt_qcx (f : XltSt → XltSt) : (s.onXlt f).qcx = s.qcx := rfl
@[simp] theorem State.onXlt_pci (f : XltSt → XltSt) : (s.onXlt f).pci = s.pci := rfl
@[simp] theorem State.onXlt_bdi (f : XltSt → XltSt) : (s.onXlt f).bdi = s.bdi := rfl
@[simp] theorem State.onXlt_sec (f : XltSt → XltSt) : (s.onXlt f).sec = s.sec := rfl
@[simp] theorem State.onXlt_ldg (f : XltSt → XltSt) : (s.onXlt f).ldg = s.ldg := rfl

@[simp] theorem State.onFlt_pending (f : FltSt → FltSt) : (s.onFlt f).pending = s.pending := rfl
@[simp] theorem State.onFlt_fresh (f : FltSt → FltSt) : (s.onFlt f).fresh = s.fresh := rfl
@[simp] theorem State.onFlt_out (f : FltSt → FltSt) : (s.onFlt f).out = s.out := rfl
@[simp] theorem State.onFlt_regs (f : FltSt → FltSt) : (s.onFlt f).regs = s.regs := rfl
@[simp] theorem State.onFlt_mem (f : FltSt → FltSt) : (s.onFlt f).mem = s.mem := rfl
@[simp] theorem State.onFlt_power (f : FltSt → FltSt) : (s.onFlt f).power = s.power := rfl
@[simp] theorem State.onFlt_tick (f : FltSt → FltSt) : (s.onFlt f).tick = s.tick := rfl
@[simp] theorem State.onFlt_sched (f : FltSt → FltSt) : (s.onFlt f).sched = s.sched := rfl
@[simp] theorem State.onFlt_arrays (f : FltSt → FltSt) : (s.onFlt f).arrays = s.arrays := rfl
@[simp] theorem State.onFlt_codec (f : FltSt → FltSt) : (s.onFlt f).codec = s.codec := rfl
@[simp] theorem State.onFlt_hbm (f : FltSt → FltSt) : (s.onFlt f).hbm = s.hbm := rfl
@[simp] theorem State.onFlt_oasis (f : FltSt → FltSt) : (s.onFlt f).oasis = s.oasis := rfl
@[simp] theorem State.onFlt_fsel (f : FltSt → FltSt) : (s.onFlt f).fsel = s.fsel := rfl
@[simp] theorem State.onFlt_upd (f : FltSt → FltSt) : (s.onFlt f).upd = s.upd := rfl
@[simp] theorem State.onFlt_rdx (f : FltSt → FltSt) : (s.onFlt f).rdx = s.rdx := rfl
@[simp] theorem State.onFlt_vrt (f : FltSt → FltSt) : (s.onFlt f).vrt = s.vrt := rfl
@[simp] theorem State.onFlt_rem (f : FltSt → FltSt) : (s.onFlt f).rem = s.rem := rfl
@[simp] theorem State.onFlt_xlt (f : FltSt → FltSt) : (s.onFlt f).xlt = s.xlt := rfl
@[simp] theorem State.onFlt_flt (f : FltSt → FltSt) : (s.onFlt f).flt = f s.flt := rfl
@[simp] theorem State.onFlt_syn (f : FltSt → FltSt) : (s.onFlt f).syn = s.syn := rfl
@[simp] theorem State.onFlt_coh (f : FltSt → FltSt) : (s.onFlt f).coh = s.coh := rfl
@[simp] theorem State.onFlt_imsic (f : FltSt → FltSt) : (s.onFlt f).imsic = s.imsic := rfl
@[simp] theorem State.onFlt_qcx (f : FltSt → FltSt) : (s.onFlt f).qcx = s.qcx := rfl
@[simp] theorem State.onFlt_pci (f : FltSt → FltSt) : (s.onFlt f).pci = s.pci := rfl
@[simp] theorem State.onFlt_bdi (f : FltSt → FltSt) : (s.onFlt f).bdi = s.bdi := rfl
@[simp] theorem State.onFlt_sec (f : FltSt → FltSt) : (s.onFlt f).sec = s.sec := rfl
@[simp] theorem State.onFlt_ldg (f : FltSt → FltSt) : (s.onFlt f).ldg = s.ldg := rfl

@[simp] theorem State.onSyn_pending (f : SynSt → SynSt) : (s.onSyn f).pending = s.pending := rfl
@[simp] theorem State.onSyn_fresh (f : SynSt → SynSt) : (s.onSyn f).fresh = s.fresh := rfl
@[simp] theorem State.onSyn_out (f : SynSt → SynSt) : (s.onSyn f).out = s.out := rfl
@[simp] theorem State.onSyn_regs (f : SynSt → SynSt) : (s.onSyn f).regs = s.regs := rfl
@[simp] theorem State.onSyn_mem (f : SynSt → SynSt) : (s.onSyn f).mem = s.mem := rfl
@[simp] theorem State.onSyn_power (f : SynSt → SynSt) : (s.onSyn f).power = s.power := rfl
@[simp] theorem State.onSyn_tick (f : SynSt → SynSt) : (s.onSyn f).tick = s.tick := rfl
@[simp] theorem State.onSyn_sched (f : SynSt → SynSt) : (s.onSyn f).sched = s.sched := rfl
@[simp] theorem State.onSyn_arrays (f : SynSt → SynSt) : (s.onSyn f).arrays = s.arrays := rfl
@[simp] theorem State.onSyn_codec (f : SynSt → SynSt) : (s.onSyn f).codec = s.codec := rfl
@[simp] theorem State.onSyn_hbm (f : SynSt → SynSt) : (s.onSyn f).hbm = s.hbm := rfl
@[simp] theorem State.onSyn_oasis (f : SynSt → SynSt) : (s.onSyn f).oasis = s.oasis := rfl
@[simp] theorem State.onSyn_fsel (f : SynSt → SynSt) : (s.onSyn f).fsel = s.fsel := rfl
@[simp] theorem State.onSyn_upd (f : SynSt → SynSt) : (s.onSyn f).upd = s.upd := rfl
@[simp] theorem State.onSyn_rdx (f : SynSt → SynSt) : (s.onSyn f).rdx = s.rdx := rfl
@[simp] theorem State.onSyn_vrt (f : SynSt → SynSt) : (s.onSyn f).vrt = s.vrt := rfl
@[simp] theorem State.onSyn_rem (f : SynSt → SynSt) : (s.onSyn f).rem = s.rem := rfl
@[simp] theorem State.onSyn_xlt (f : SynSt → SynSt) : (s.onSyn f).xlt = s.xlt := rfl
@[simp] theorem State.onSyn_flt (f : SynSt → SynSt) : (s.onSyn f).flt = s.flt := rfl
@[simp] theorem State.onSyn_syn (f : SynSt → SynSt) : (s.onSyn f).syn = f s.syn := rfl
@[simp] theorem State.onSyn_coh (f : SynSt → SynSt) : (s.onSyn f).coh = s.coh := rfl
@[simp] theorem State.onSyn_imsic (f : SynSt → SynSt) : (s.onSyn f).imsic = s.imsic := rfl
@[simp] theorem State.onSyn_qcx (f : SynSt → SynSt) : (s.onSyn f).qcx = s.qcx := rfl
@[simp] theorem State.onSyn_pci (f : SynSt → SynSt) : (s.onSyn f).pci = s.pci := rfl
@[simp] theorem State.onSyn_bdi (f : SynSt → SynSt) : (s.onSyn f).bdi = s.bdi := rfl
@[simp] theorem State.onSyn_sec (f : SynSt → SynSt) : (s.onSyn f).sec = s.sec := rfl
@[simp] theorem State.onSyn_ldg (f : SynSt → SynSt) : (s.onSyn f).ldg = s.ldg := rfl

@[simp] theorem State.onCoh_pending (f : CohSt → CohSt) : (s.onCoh f).pending = s.pending := rfl
@[simp] theorem State.onCoh_fresh (f : CohSt → CohSt) : (s.onCoh f).fresh = s.fresh := rfl
@[simp] theorem State.onCoh_out (f : CohSt → CohSt) : (s.onCoh f).out = s.out := rfl
@[simp] theorem State.onCoh_regs (f : CohSt → CohSt) : (s.onCoh f).regs = s.regs := rfl
@[simp] theorem State.onCoh_mem (f : CohSt → CohSt) : (s.onCoh f).mem = s.mem := rfl
@[simp] theorem State.onCoh_power (f : CohSt → CohSt) : (s.onCoh f).power = s.power := rfl
@[simp] theorem State.onCoh_tick (f : CohSt → CohSt) : (s.onCoh f).tick = s.tick := rfl
@[simp] theorem State.onCoh_sched (f : CohSt → CohSt) : (s.onCoh f).sched = s.sched := rfl
@[simp] theorem State.onCoh_arrays (f : CohSt → CohSt) : (s.onCoh f).arrays = s.arrays := rfl
@[simp] theorem State.onCoh_codec (f : CohSt → CohSt) : (s.onCoh f).codec = s.codec := rfl
@[simp] theorem State.onCoh_hbm (f : CohSt → CohSt) : (s.onCoh f).hbm = s.hbm := rfl
@[simp] theorem State.onCoh_oasis (f : CohSt → CohSt) : (s.onCoh f).oasis = s.oasis := rfl
@[simp] theorem State.onCoh_fsel (f : CohSt → CohSt) : (s.onCoh f).fsel = s.fsel := rfl
@[simp] theorem State.onCoh_upd (f : CohSt → CohSt) : (s.onCoh f).upd = s.upd := rfl
@[simp] theorem State.onCoh_rdx (f : CohSt → CohSt) : (s.onCoh f).rdx = s.rdx := rfl
@[simp] theorem State.onCoh_vrt (f : CohSt → CohSt) : (s.onCoh f).vrt = s.vrt := rfl
@[simp] theorem State.onCoh_rem (f : CohSt → CohSt) : (s.onCoh f).rem = s.rem := rfl
@[simp] theorem State.onCoh_xlt (f : CohSt → CohSt) : (s.onCoh f).xlt = s.xlt := rfl
@[simp] theorem State.onCoh_flt (f : CohSt → CohSt) : (s.onCoh f).flt = s.flt := rfl
@[simp] theorem State.onCoh_syn (f : CohSt → CohSt) : (s.onCoh f).syn = s.syn := rfl
@[simp] theorem State.onCoh_coh (f : CohSt → CohSt) : (s.onCoh f).coh = f s.coh := rfl
@[simp] theorem State.onCoh_imsic (f : CohSt → CohSt) : (s.onCoh f).imsic = s.imsic := rfl
@[simp] theorem State.onCoh_qcx (f : CohSt → CohSt) : (s.onCoh f).qcx = s.qcx := rfl
@[simp] theorem State.onCoh_pci (f : CohSt → CohSt) : (s.onCoh f).pci = s.pci := rfl
@[simp] theorem State.onCoh_bdi (f : CohSt → CohSt) : (s.onCoh f).bdi = s.bdi := rfl
@[simp] theorem State.onCoh_sec (f : CohSt → CohSt) : (s.onCoh f).sec = s.sec := rfl
@[simp] theorem State.onCoh_ldg (f : CohSt → CohSt) : (s.onCoh f).ldg = s.ldg := rfl

@[simp] theorem State.onQcx_pending (f : QcxSt → QcxSt) : (s.onQcx f).pending = s.pending := rfl
@[simp] theorem State.onQcx_fresh (f : QcxSt → QcxSt) : (s.onQcx f).fresh = s.fresh := rfl
@[simp] theorem State.onQcx_out (f : QcxSt → QcxSt) : (s.onQcx f).out = s.out := rfl
@[simp] theorem State.onQcx_regs (f : QcxSt → QcxSt) : (s.onQcx f).regs = s.regs := rfl
@[simp] theorem State.onQcx_mem (f : QcxSt → QcxSt) : (s.onQcx f).mem = s.mem := rfl
@[simp] theorem State.onQcx_power (f : QcxSt → QcxSt) : (s.onQcx f).power = s.power := rfl
@[simp] theorem State.onQcx_tick (f : QcxSt → QcxSt) : (s.onQcx f).tick = s.tick := rfl
@[simp] theorem State.onQcx_sched (f : QcxSt → QcxSt) : (s.onQcx f).sched = s.sched := rfl
@[simp] theorem State.onQcx_arrays (f : QcxSt → QcxSt) : (s.onQcx f).arrays = s.arrays := rfl
@[simp] theorem State.onQcx_codec (f : QcxSt → QcxSt) : (s.onQcx f).codec = s.codec := rfl
@[simp] theorem State.onQcx_hbm (f : QcxSt → QcxSt) : (s.onQcx f).hbm = s.hbm := rfl
@[simp] theorem State.onQcx_oasis (f : QcxSt → QcxSt) : (s.onQcx f).oasis = s.oasis := rfl
@[simp] theorem State.onQcx_fsel (f : QcxSt → QcxSt) : (s.onQcx f).fsel = s.fsel := rfl
@[simp] theorem State.onQcx_upd (f : QcxSt → QcxSt) : (s.onQcx f).upd = s.upd := rfl
@[simp] theorem State.onQcx_rdx (f : QcxSt → QcxSt) : (s.onQcx f).rdx = s.rdx := rfl
@[simp] theorem State.onQcx_vrt (f : QcxSt → QcxSt) : (s.onQcx f).vrt = s.vrt := rfl
@[simp] theorem State.onQcx_rem (f : QcxSt → QcxSt) : (s.onQcx f).rem = s.rem := rfl
@[simp] theorem State.onQcx_xlt (f : QcxSt → QcxSt) : (s.onQcx f).xlt = s.xlt := rfl
@[simp] theorem State.onQcx_flt (f : QcxSt → QcxSt) : (s.onQcx f).flt = s.flt := rfl
@[simp] theorem State.onQcx_syn (f : QcxSt → QcxSt) : (s.onQcx f).syn = s.syn := rfl
@[simp] theorem State.onQcx_coh (f : QcxSt → QcxSt) : (s.onQcx f).coh = s.coh := rfl
@[simp] theorem State.onQcx_imsic (f : QcxSt → QcxSt) : (s.onQcx f).imsic = s.imsic := rfl
@[simp] theorem State.onQcx_qcx (f : QcxSt → QcxSt) : (s.onQcx f).qcx = f s.qcx := rfl
@[simp] theorem State.onQcx_pci (f : QcxSt → QcxSt) : (s.onQcx f).pci = s.pci := rfl
@[simp] theorem State.onQcx_bdi (f : QcxSt → QcxSt) : (s.onQcx f).bdi = s.bdi := rfl
@[simp] theorem State.onQcx_sec (f : QcxSt → QcxSt) : (s.onQcx f).sec = s.sec := rfl
@[simp] theorem State.onQcx_ldg (f : QcxSt → QcxSt) : (s.onQcx f).ldg = s.ldg := rfl

@[simp] theorem State.onPci_pending (f : PciSt → PciSt) : (s.onPci f).pending = s.pending := rfl
@[simp] theorem State.onPci_fresh (f : PciSt → PciSt) : (s.onPci f).fresh = s.fresh := rfl
@[simp] theorem State.onPci_out (f : PciSt → PciSt) : (s.onPci f).out = s.out := rfl
@[simp] theorem State.onPci_regs (f : PciSt → PciSt) : (s.onPci f).regs = s.regs := rfl
@[simp] theorem State.onPci_mem (f : PciSt → PciSt) : (s.onPci f).mem = s.mem := rfl
@[simp] theorem State.onPci_power (f : PciSt → PciSt) : (s.onPci f).power = s.power := rfl
@[simp] theorem State.onPci_tick (f : PciSt → PciSt) : (s.onPci f).tick = s.tick := rfl
@[simp] theorem State.onPci_sched (f : PciSt → PciSt) : (s.onPci f).sched = s.sched := rfl
@[simp] theorem State.onPci_arrays (f : PciSt → PciSt) : (s.onPci f).arrays = s.arrays := rfl
@[simp] theorem State.onPci_codec (f : PciSt → PciSt) : (s.onPci f).codec = s.codec := rfl
@[simp] theorem State.onPci_hbm (f : PciSt → PciSt) : (s.onPci f).hbm = s.hbm := rfl
@[simp] theorem State.onPci_oasis (f : PciSt → PciSt) : (s.onPci f).oasis = s.oasis := rfl
@[simp] theorem State.onPci_fsel (f : PciSt → PciSt) : (s.onPci f).fsel = s.fsel := rfl
@[simp] theorem State.onPci_upd (f : PciSt → PciSt) : (s.onPci f).upd = s.upd := rfl
@[simp] theorem State.onPci_rdx (f : PciSt → PciSt) : (s.onPci f).rdx = s.rdx := rfl
@[simp] theorem State.onPci_vrt (f : PciSt → PciSt) : (s.onPci f).vrt = s.vrt := rfl
@[simp] theorem State.onPci_rem (f : PciSt → PciSt) : (s.onPci f).rem = s.rem := rfl
@[simp] theorem State.onPci_xlt (f : PciSt → PciSt) : (s.onPci f).xlt = s.xlt := rfl
@[simp] theorem State.onPci_flt (f : PciSt → PciSt) : (s.onPci f).flt = s.flt := rfl
@[simp] theorem State.onPci_syn (f : PciSt → PciSt) : (s.onPci f).syn = s.syn := rfl
@[simp] theorem State.onPci_coh (f : PciSt → PciSt) : (s.onPci f).coh = s.coh := rfl
@[simp] theorem State.onPci_imsic (f : PciSt → PciSt) : (s.onPci f).imsic = s.imsic := rfl
@[simp] theorem State.onPci_qcx (f : PciSt → PciSt) : (s.onPci f).qcx = s.qcx := rfl
@[simp] theorem State.onPci_pci (f : PciSt → PciSt) : (s.onPci f).pci = f s.pci := rfl
@[simp] theorem State.onPci_bdi (f : PciSt → PciSt) : (s.onPci f).bdi = s.bdi := rfl
@[simp] theorem State.onPci_sec (f : PciSt → PciSt) : (s.onPci f).sec = s.sec := rfl
@[simp] theorem State.onPci_ldg (f : PciSt → PciSt) : (s.onPci f).ldg = s.ldg := rfl

@[simp] theorem State.onBdi_pending (f : BdiSt → BdiSt) : (s.onBdi f).pending = s.pending := rfl
@[simp] theorem State.onBdi_fresh (f : BdiSt → BdiSt) : (s.onBdi f).fresh = s.fresh := rfl
@[simp] theorem State.onBdi_out (f : BdiSt → BdiSt) : (s.onBdi f).out = s.out := rfl
@[simp] theorem State.onBdi_regs (f : BdiSt → BdiSt) : (s.onBdi f).regs = s.regs := rfl
@[simp] theorem State.onBdi_mem (f : BdiSt → BdiSt) : (s.onBdi f).mem = s.mem := rfl
@[simp] theorem State.onBdi_power (f : BdiSt → BdiSt) : (s.onBdi f).power = s.power := rfl
@[simp] theorem State.onBdi_tick (f : BdiSt → BdiSt) : (s.onBdi f).tick = s.tick := rfl
@[simp] theorem State.onBdi_sched (f : BdiSt → BdiSt) : (s.onBdi f).sched = s.sched := rfl
@[simp] theorem State.onBdi_arrays (f : BdiSt → BdiSt) : (s.onBdi f).arrays = s.arrays := rfl
@[simp] theorem State.onBdi_codec (f : BdiSt → BdiSt) : (s.onBdi f).codec = s.codec := rfl
@[simp] theorem State.onBdi_hbm (f : BdiSt → BdiSt) : (s.onBdi f).hbm = s.hbm := rfl
@[simp] theorem State.onBdi_oasis (f : BdiSt → BdiSt) : (s.onBdi f).oasis = s.oasis := rfl
@[simp] theorem State.onBdi_fsel (f : BdiSt → BdiSt) : (s.onBdi f).fsel = s.fsel := rfl
@[simp] theorem State.onBdi_upd (f : BdiSt → BdiSt) : (s.onBdi f).upd = s.upd := rfl
@[simp] theorem State.onBdi_rdx (f : BdiSt → BdiSt) : (s.onBdi f).rdx = s.rdx := rfl
@[simp] theorem State.onBdi_vrt (f : BdiSt → BdiSt) : (s.onBdi f).vrt = s.vrt := rfl
@[simp] theorem State.onBdi_rem (f : BdiSt → BdiSt) : (s.onBdi f).rem = s.rem := rfl
@[simp] theorem State.onBdi_xlt (f : BdiSt → BdiSt) : (s.onBdi f).xlt = s.xlt := rfl
@[simp] theorem State.onBdi_flt (f : BdiSt → BdiSt) : (s.onBdi f).flt = s.flt := rfl
@[simp] theorem State.onBdi_syn (f : BdiSt → BdiSt) : (s.onBdi f).syn = s.syn := rfl
@[simp] theorem State.onBdi_coh (f : BdiSt → BdiSt) : (s.onBdi f).coh = s.coh := rfl
@[simp] theorem State.onBdi_imsic (f : BdiSt → BdiSt) : (s.onBdi f).imsic = s.imsic := rfl
@[simp] theorem State.onBdi_qcx (f : BdiSt → BdiSt) : (s.onBdi f).qcx = s.qcx := rfl
@[simp] theorem State.onBdi_pci (f : BdiSt → BdiSt) : (s.onBdi f).pci = s.pci := rfl
@[simp] theorem State.onBdi_bdi (f : BdiSt → BdiSt) : (s.onBdi f).bdi = f s.bdi := rfl
@[simp] theorem State.onBdi_sec (f : BdiSt → BdiSt) : (s.onBdi f).sec = s.sec := rfl
@[simp] theorem State.onBdi_ldg (f : BdiSt → BdiSt) : (s.onBdi f).ldg = s.ldg := rfl

@[simp] theorem State.onSec_pending (f : SecSt → SecSt) : (s.onSec f).pending = s.pending := rfl
@[simp] theorem State.onSec_fresh (f : SecSt → SecSt) : (s.onSec f).fresh = s.fresh := rfl
@[simp] theorem State.onSec_out (f : SecSt → SecSt) : (s.onSec f).out = s.out := rfl
@[simp] theorem State.onSec_regs (f : SecSt → SecSt) : (s.onSec f).regs = s.regs := rfl
@[simp] theorem State.onSec_mem (f : SecSt → SecSt) : (s.onSec f).mem = s.mem := rfl
@[simp] theorem State.onSec_power (f : SecSt → SecSt) : (s.onSec f).power = s.power := rfl
@[simp] theorem State.onSec_tick (f : SecSt → SecSt) : (s.onSec f).tick = s.tick := rfl
@[simp] theorem State.onSec_sched (f : SecSt → SecSt) : (s.onSec f).sched = s.sched := rfl
@[simp] theorem State.onSec_arrays (f : SecSt → SecSt) : (s.onSec f).arrays = s.arrays := rfl
@[simp] theorem State.onSec_codec (f : SecSt → SecSt) : (s.onSec f).codec = s.codec := rfl
@[simp] theorem State.onSec_hbm (f : SecSt → SecSt) : (s.onSec f).hbm = s.hbm := rfl
@[simp] theorem State.onSec_oasis (f : SecSt → SecSt) : (s.onSec f).oasis = s.oasis := rfl
@[simp] theorem State.onSec_fsel (f : SecSt → SecSt) : (s.onSec f).fsel = s.fsel := rfl
@[simp] theorem State.onSec_upd (f : SecSt → SecSt) : (s.onSec f).upd = s.upd := rfl
@[simp] theorem State.onSec_rdx (f : SecSt → SecSt) : (s.onSec f).rdx = s.rdx := rfl
@[simp] theorem State.onSec_vrt (f : SecSt → SecSt) : (s.onSec f).vrt = s.vrt := rfl
@[simp] theorem State.onSec_rem (f : SecSt → SecSt) : (s.onSec f).rem = s.rem := rfl
@[simp] theorem State.onSec_xlt (f : SecSt → SecSt) : (s.onSec f).xlt = s.xlt := rfl
@[simp] theorem State.onSec_flt (f : SecSt → SecSt) : (s.onSec f).flt = s.flt := rfl
@[simp] theorem State.onSec_syn (f : SecSt → SecSt) : (s.onSec f).syn = s.syn := rfl
@[simp] theorem State.onSec_coh (f : SecSt → SecSt) : (s.onSec f).coh = s.coh := rfl
@[simp] theorem State.onSec_imsic (f : SecSt → SecSt) : (s.onSec f).imsic = s.imsic := rfl
@[simp] theorem State.onSec_qcx (f : SecSt → SecSt) : (s.onSec f).qcx = s.qcx := rfl
@[simp] theorem State.onSec_pci (f : SecSt → SecSt) : (s.onSec f).pci = s.pci := rfl
@[simp] theorem State.onSec_bdi (f : SecSt → SecSt) : (s.onSec f).bdi = s.bdi := rfl
@[simp] theorem State.onSec_sec (f : SecSt → SecSt) : (s.onSec f).sec = f s.sec := rfl
@[simp] theorem State.onSec_ldg (f : SecSt → SecSt) : (s.onSec f).ldg = s.ldg := rfl

@[simp] theorem State.onLdg_pending (f : LdgSt → LdgSt) : (s.onLdg f).pending = s.pending := rfl
@[simp] theorem State.onLdg_fresh (f : LdgSt → LdgSt) : (s.onLdg f).fresh = s.fresh := rfl
@[simp] theorem State.onLdg_out (f : LdgSt → LdgSt) : (s.onLdg f).out = s.out := rfl
@[simp] theorem State.onLdg_regs (f : LdgSt → LdgSt) : (s.onLdg f).regs = s.regs := rfl
@[simp] theorem State.onLdg_mem (f : LdgSt → LdgSt) : (s.onLdg f).mem = s.mem := rfl
@[simp] theorem State.onLdg_power (f : LdgSt → LdgSt) : (s.onLdg f).power = s.power := rfl
@[simp] theorem State.onLdg_tick (f : LdgSt → LdgSt) : (s.onLdg f).tick = s.tick := rfl
@[simp] theorem State.onLdg_sched (f : LdgSt → LdgSt) : (s.onLdg f).sched = s.sched := rfl
@[simp] theorem State.onLdg_arrays (f : LdgSt → LdgSt) : (s.onLdg f).arrays = s.arrays := rfl
@[simp] theorem State.onLdg_codec (f : LdgSt → LdgSt) : (s.onLdg f).codec = s.codec := rfl
@[simp] theorem State.onLdg_hbm (f : LdgSt → LdgSt) : (s.onLdg f).hbm = s.hbm := rfl
@[simp] theorem State.onLdg_oasis (f : LdgSt → LdgSt) : (s.onLdg f).oasis = s.oasis := rfl
@[simp] theorem State.onLdg_fsel (f : LdgSt → LdgSt) : (s.onLdg f).fsel = s.fsel := rfl
@[simp] theorem State.onLdg_upd (f : LdgSt → LdgSt) : (s.onLdg f).upd = s.upd := rfl
@[simp] theorem State.onLdg_rdx (f : LdgSt → LdgSt) : (s.onLdg f).rdx = s.rdx := rfl
@[simp] theorem State.onLdg_vrt (f : LdgSt → LdgSt) : (s.onLdg f).vrt = s.vrt := rfl
@[simp] theorem State.onLdg_rem (f : LdgSt → LdgSt) : (s.onLdg f).rem = s.rem := rfl
@[simp] theorem State.onLdg_xlt (f : LdgSt → LdgSt) : (s.onLdg f).xlt = s.xlt := rfl
@[simp] theorem State.onLdg_flt (f : LdgSt → LdgSt) : (s.onLdg f).flt = s.flt := rfl
@[simp] theorem State.onLdg_syn (f : LdgSt → LdgSt) : (s.onLdg f).syn = s.syn := rfl
@[simp] theorem State.onLdg_coh (f : LdgSt → LdgSt) : (s.onLdg f).coh = s.coh := rfl
@[simp] theorem State.onLdg_imsic (f : LdgSt → LdgSt) : (s.onLdg f).imsic = s.imsic := rfl
@[simp] theorem State.onLdg_qcx (f : LdgSt → LdgSt) : (s.onLdg f).qcx = s.qcx := rfl
@[simp] theorem State.onLdg_pci (f : LdgSt → LdgSt) : (s.onLdg f).pci = s.pci := rfl
@[simp] theorem State.onLdg_bdi (f : LdgSt → LdgSt) : (s.onLdg f).bdi = s.bdi := rfl
@[simp] theorem State.onLdg_sec (f : LdgSt → LdgSt) : (s.onLdg f).sec = s.sec := rfl
@[simp] theorem State.onLdg_ldg (f : LdgSt → LdgSt) : (s.onLdg f).ldg = f s.ldg := rfl

@[simp] theorem State.emit_pending (o : Out) : (s.emit o).pending = s.pending := rfl
@[simp] theorem State.emit_fresh (o : Out) : (s.emit o).fresh = s.fresh := rfl
@[simp] theorem State.emit_out (o : Out) : (s.emit o).out = s.out ++ [o] := rfl
@[simp] theorem State.emit_regs (o : Out) : (s.emit o).regs = s.regs := rfl
@[simp] theorem State.emit_mem (o : Out) : (s.emit o).mem = s.mem := rfl
@[simp] theorem State.emit_power (o : Out) : (s.emit o).power = s.power := rfl
@[simp] theorem State.emit_tick (o : Out) : (s.emit o).tick = s.tick := rfl
@[simp] theorem State.emit_sched (o : Out) : (s.emit o).sched = s.sched := rfl
@[simp] theorem State.emit_arrays (o : Out) : (s.emit o).arrays = s.arrays := rfl
@[simp] theorem State.emit_codec (o : Out) : (s.emit o).codec = s.codec := rfl
@[simp] theorem State.emit_hbm (o : Out) : (s.emit o).hbm = s.hbm := rfl
@[simp] theorem State.emit_oasis (o : Out) : (s.emit o).oasis = s.oasis := rfl
@[simp] theorem State.emit_fsel (o : Out) : (s.emit o).fsel = s.fsel := rfl
@[simp] theorem State.emit_upd (o : Out) : (s.emit o).upd = s.upd := rfl
@[simp] theorem State.emit_rdx (o : Out) : (s.emit o).rdx = s.rdx := rfl
@[simp] theorem State.emit_vrt (o : Out) : (s.emit o).vrt = s.vrt := rfl
@[simp] theorem State.emit_rem (o : Out) : (s.emit o).rem = s.rem := rfl
@[simp] theorem State.emit_xlt (o : Out) : (s.emit o).xlt = s.xlt := rfl
@[simp] theorem State.emit_flt (o : Out) : (s.emit o).flt = s.flt := rfl
@[simp] theorem State.emit_syn (o : Out) : (s.emit o).syn = s.syn := rfl
@[simp] theorem State.emit_coh (o : Out) : (s.emit o).coh = s.coh := rfl
@[simp] theorem State.emit_imsic (o : Out) : (s.emit o).imsic = s.imsic := rfl
@[simp] theorem State.emit_qcx (o : Out) : (s.emit o).qcx = s.qcx := rfl
@[simp] theorem State.emit_pci (o : Out) : (s.emit o).pci = s.pci := rfl
@[simp] theorem State.emit_bdi (o : Out) : (s.emit o).bdi = s.bdi := rfl
@[simp] theorem State.emit_sec (o : Out) : (s.emit o).sec = s.sec := rfl
@[simp] theorem State.emit_ldg (o : Out) : (s.emit o).ldg = s.ldg := rfl

@[simp] theorem State.took_pending (n : Nat) : (s.took n).pending = s.pending := rfl
@[simp] theorem State.took_fresh (n : Nat) : (s.took n).fresh = s.fresh + n := rfl
@[simp] theorem State.took_out (n : Nat) : (s.took n).out = s.out := rfl
@[simp] theorem State.took_regs (n : Nat) : (s.took n).regs = s.regs := rfl
@[simp] theorem State.took_mem (n : Nat) : (s.took n).mem = s.mem := rfl
@[simp] theorem State.took_power (n : Nat) : (s.took n).power = s.power := rfl
@[simp] theorem State.took_tick (n : Nat) : (s.took n).tick = s.tick := rfl
@[simp] theorem State.took_sched (n : Nat) : (s.took n).sched = s.sched := rfl
@[simp] theorem State.took_arrays (n : Nat) : (s.took n).arrays = s.arrays := rfl
@[simp] theorem State.took_codec (n : Nat) : (s.took n).codec = s.codec := rfl
@[simp] theorem State.took_hbm (n : Nat) : (s.took n).hbm = s.hbm := rfl
@[simp] theorem State.took_oasis (n : Nat) : (s.took n).oasis = s.oasis := rfl
@[simp] theorem State.took_fsel (n : Nat) : (s.took n).fsel = s.fsel := rfl
@[simp] theorem State.took_upd (n : Nat) : (s.took n).upd = s.upd := rfl
@[simp] theorem State.took_rdx (n : Nat) : (s.took n).rdx = s.rdx := rfl
@[simp] theorem State.took_vrt (n : Nat) : (s.took n).vrt = s.vrt := rfl
@[simp] theorem State.took_rem (n : Nat) : (s.took n).rem = s.rem := rfl
@[simp] theorem State.took_xlt (n : Nat) : (s.took n).xlt = s.xlt := rfl
@[simp] theorem State.took_flt (n : Nat) : (s.took n).flt = s.flt := rfl
@[simp] theorem State.took_syn (n : Nat) : (s.took n).syn = s.syn := rfl
@[simp] theorem State.took_coh (n : Nat) : (s.took n).coh = s.coh := rfl
@[simp] theorem State.took_imsic (n : Nat) : (s.took n).imsic = s.imsic := rfl
@[simp] theorem State.took_qcx (n : Nat) : (s.took n).qcx = s.qcx := rfl
@[simp] theorem State.took_pci (n : Nat) : (s.took n).pci = s.pci := rfl
@[simp] theorem State.took_bdi (n : Nat) : (s.took n).bdi = s.bdi := rfl
@[simp] theorem State.took_sec (n : Nat) : (s.took n).sec = s.sec := rfl
@[simp] theorem State.took_ldg (n : Nat) : (s.took n).ldg = s.ldg := rfl

@[simp] theorem State.setWord_pending (r : Reg) (v : Word) (d i : Nat) : (s.setWord r v d i).pending = s.pending := rfl
@[simp] theorem State.setWord_fresh (r : Reg) (v : Word) (d i : Nat) : (s.setWord r v d i).fresh = s.fresh := rfl
@[simp] theorem State.setWord_out (r : Reg) (v : Word) (d i : Nat) : (s.setWord r v d i).out = s.out := rfl
@[simp] theorem State.setWord_regs (r : Reg) (v : Word) (d i : Nat) : (s.setWord r v d i).regs = storeWord (r.place d i) v s.regs := rfl
@[simp] theorem State.setWord_mem (r : Reg) (v : Word) (d i : Nat) : (s.setWord r v d i).mem = s.mem := rfl
@[simp] theorem State.setWord_power (r : Reg) (v : Word) (d i : Nat) : (s.setWord r v d i).power = s.power := rfl
@[simp] theorem State.setWord_tick (r : Reg) (v : Word) (d i : Nat) : (s.setWord r v d i).tick = s.tick := rfl
@[simp] theorem State.setWord_sched (r : Reg) (v : Word) (d i : Nat) : (s.setWord r v d i).sched = s.sched := rfl
@[simp] theorem State.setWord_arrays (r : Reg) (v : Word) (d i : Nat) : (s.setWord r v d i).arrays = s.arrays := rfl
@[simp] theorem State.setWord_codec (r : Reg) (v : Word) (d i : Nat) : (s.setWord r v d i).codec = s.codec := rfl
@[simp] theorem State.setWord_hbm (r : Reg) (v : Word) (d i : Nat) : (s.setWord r v d i).hbm = s.hbm := rfl
@[simp] theorem State.setWord_oasis (r : Reg) (v : Word) (d i : Nat) : (s.setWord r v d i).oasis = s.oasis := rfl
@[simp] theorem State.setWord_fsel (r : Reg) (v : Word) (d i : Nat) : (s.setWord r v d i).fsel = s.fsel := rfl
@[simp] theorem State.setWord_upd (r : Reg) (v : Word) (d i : Nat) : (s.setWord r v d i).upd = s.upd := rfl
@[simp] theorem State.setWord_rdx (r : Reg) (v : Word) (d i : Nat) : (s.setWord r v d i).rdx = s.rdx := rfl
@[simp] theorem State.setWord_vrt (r : Reg) (v : Word) (d i : Nat) : (s.setWord r v d i).vrt = s.vrt := rfl
@[simp] theorem State.setWord_rem (r : Reg) (v : Word) (d i : Nat) : (s.setWord r v d i).rem = s.rem := rfl
@[simp] theorem State.setWord_xlt (r : Reg) (v : Word) (d i : Nat) : (s.setWord r v d i).xlt = s.xlt := rfl
@[simp] theorem State.setWord_flt (r : Reg) (v : Word) (d i : Nat) : (s.setWord r v d i).flt = s.flt := rfl
@[simp] theorem State.setWord_syn (r : Reg) (v : Word) (d i : Nat) : (s.setWord r v d i).syn = s.syn := rfl
@[simp] theorem State.setWord_coh (r : Reg) (v : Word) (d i : Nat) : (s.setWord r v d i).coh = s.coh := rfl
@[simp] theorem State.setWord_imsic (r : Reg) (v : Word) (d i : Nat) : (s.setWord r v d i).imsic = s.imsic := rfl
@[simp] theorem State.setWord_qcx (r : Reg) (v : Word) (d i : Nat) : (s.setWord r v d i).qcx = s.qcx := rfl
@[simp] theorem State.setWord_pci (r : Reg) (v : Word) (d i : Nat) : (s.setWord r v d i).pci = s.pci := rfl
@[simp] theorem State.setWord_bdi (r : Reg) (v : Word) (d i : Nat) : (s.setWord r v d i).bdi = s.bdi := rfl
@[simp] theorem State.setWord_sec (r : Reg) (v : Word) (d i : Nat) : (s.setWord r v d i).sec = s.sec := rfl
@[simp] theorem State.setWord_ldg (r : Reg) (v : Word) (d i : Nat) : (s.setWord r v d i).ldg = s.ldg := rfl

@[simp] theorem State.store_pending (a : Nat) (bs : Bytes) : (s.store a bs).pending = s.pending := rfl
@[simp] theorem State.store_fresh (a : Nat) (bs : Bytes) : (s.store a bs).fresh = s.fresh := rfl
@[simp] theorem State.store_out (a : Nat) (bs : Bytes) : (s.store a bs).out = s.out := rfl
@[simp] theorem State.store_regs (a : Nat) (bs : Bytes) : (s.store a bs).regs = s.regs := rfl
@[simp] theorem State.store_mem (a : Nat) (bs : Bytes) : (s.store a bs).mem = setCells a bs s.mem := rfl
@[simp] theorem State.store_power (a : Nat) (bs : Bytes) : (s.store a bs).power = s.power := rfl
@[simp] theorem State.store_tick (a : Nat) (bs : Bytes) : (s.store a bs).tick = s.tick := rfl
@[simp] theorem State.store_sched (a : Nat) (bs : Bytes) : (s.store a bs).sched = s.sched := rfl
@[simp] theorem State.store_arrays (a : Nat) (bs : Bytes) : (s.store a bs).arrays = s.arrays := rfl
@[simp] theorem State.store_codec (a : Nat) (bs : Bytes) : (s.store a bs).codec = s.codec := rfl
@[simp] theorem State.store_hbm (a : Nat) (bs : Bytes) : (s.store a bs).hbm = s.hbm := rfl
@[simp] theorem State.store_oasis (a : Nat) (bs : Bytes) : (s.store a bs).oasis = s.oasis := rfl
@[simp] theorem State.store_fsel (a : Nat) (bs : Bytes) : (s.store a bs).fsel = s.fsel := rfl
@[simp] theorem State.store_upd (a : Nat) (bs : Bytes) : (s.store a bs).upd = s.upd := rfl
@[simp] theorem State.store_rdx (a : Nat) (bs : Bytes) : (s.store a bs).rdx = s.rdx := rfl
@[simp] theorem State.store_vrt (a : Nat) (bs : Bytes) : (s.store a bs).vrt = s.vrt := rfl
@[simp] theorem State.store_rem (a : Nat) (bs : Bytes) : (s.store a bs).rem = s.rem := rfl
@[simp] theorem State.store_xlt (a : Nat) (bs : Bytes) : (s.store a bs).xlt = s.xlt := rfl
@[simp] theorem State.store_flt (a : Nat) (bs : Bytes) : (s.store a bs).flt = s.flt := rfl
@[simp] theorem State.store_syn (a : Nat) (bs : Bytes) : (s.store a bs).syn = s.syn := rfl
@[simp] theorem State.store_coh (a : Nat) (bs : Bytes) : (s.store a bs).coh = s.coh := rfl
@[simp] theorem State.store_imsic (a : Nat) (bs : Bytes) : (s.store a bs).imsic = s.imsic := rfl
@[simp] theorem State.store_qcx (a : Nat) (bs : Bytes) : (s.store a bs).qcx = s.qcx := rfl
@[simp] theorem State.store_pci (a : Nat) (bs : Bytes) : (s.store a bs).pci = s.pci := rfl
@[simp] theorem State.store_bdi (a : Nat) (bs : Bytes) : (s.store a bs).bdi = s.bdi := rfl
@[simp] theorem State.store_sec (a : Nat) (bs : Bytes) : (s.store a bs).sec = s.sec := rfl
@[simp] theorem State.store_ldg (a : Nat) (bs : Bytes) : (s.store a bs).ldg = s.ldg := rfl

@[simp] theorem State.put_pending (f : Fld) (v d i : Nat) : (s.put f v d i).pending = s.pending := rfl
@[simp] theorem State.put_fresh (f : Fld) (v d i : Nat) : (s.put f v d i).fresh = s.fresh := rfl
@[simp] theorem State.put_out (f : Fld) (v d i : Nat) : (s.put f v d i).out = s.out := rfl
@[simp] theorem State.put_mem (f : Fld) (v d i : Nat) : (s.put f v d i).mem = s.mem := rfl
@[simp] theorem State.put_power (f : Fld) (v d i : Nat) : (s.put f v d i).power = s.power := rfl
@[simp] theorem State.put_tick (f : Fld) (v d i : Nat) : (s.put f v d i).tick = s.tick := rfl
@[simp] theorem State.put_sched (f : Fld) (v d i : Nat) : (s.put f v d i).sched = s.sched := rfl
@[simp] theorem State.put_arrays (f : Fld) (v d i : Nat) : (s.put f v d i).arrays = s.arrays := rfl
@[simp] theorem State.put_codec (f : Fld) (v d i : Nat) : (s.put f v d i).codec = s.codec := rfl
@[simp] theorem State.put_hbm (f : Fld) (v d i : Nat) : (s.put f v d i).hbm = s.hbm := rfl
@[simp] theorem State.put_oasis (f : Fld) (v d i : Nat) : (s.put f v d i).oasis = s.oasis := rfl
@[simp] theorem State.put_fsel (f : Fld) (v d i : Nat) : (s.put f v d i).fsel = s.fsel := rfl
@[simp] theorem State.put_upd (f : Fld) (v d i : Nat) : (s.put f v d i).upd = s.upd := rfl
@[simp] theorem State.put_rdx (f : Fld) (v d i : Nat) : (s.put f v d i).rdx = s.rdx := rfl
@[simp] theorem State.put_vrt (f : Fld) (v d i : Nat) : (s.put f v d i).vrt = s.vrt := rfl
@[simp] theorem State.put_rem (f : Fld) (v d i : Nat) : (s.put f v d i).rem = s.rem := rfl
@[simp] theorem State.put_xlt (f : Fld) (v d i : Nat) : (s.put f v d i).xlt = s.xlt := rfl
@[simp] theorem State.put_flt (f : Fld) (v d i : Nat) : (s.put f v d i).flt = s.flt := rfl
@[simp] theorem State.put_syn (f : Fld) (v d i : Nat) : (s.put f v d i).syn = s.syn := rfl
@[simp] theorem State.put_coh (f : Fld) (v d i : Nat) : (s.put f v d i).coh = s.coh := rfl
@[simp] theorem State.put_imsic (f : Fld) (v d i : Nat) : (s.put f v d i).imsic = s.imsic := rfl
@[simp] theorem State.put_qcx (f : Fld) (v d i : Nat) : (s.put f v d i).qcx = s.qcx := rfl
@[simp] theorem State.put_pci (f : Fld) (v d i : Nat) : (s.put f v d i).pci = s.pci := rfl
@[simp] theorem State.put_bdi (f : Fld) (v d i : Nat) : (s.put f v d i).bdi = s.bdi := rfl
@[simp] theorem State.put_sec (f : Fld) (v d i : Nat) : (s.put f v d i).sec = s.sec := rfl
@[simp] theorem State.put_ldg (f : Fld) (v d i : Nat) : (s.put f v d i).ldg = s.ldg := rfl

@[simp] theorem State.bump_pending (f : Fld) (v d i : Nat) : (s.bump f v d i).pending = s.pending := rfl
@[simp] theorem State.bump_fresh (f : Fld) (v d i : Nat) : (s.bump f v d i).fresh = s.fresh := rfl
@[simp] theorem State.bump_out (f : Fld) (v d i : Nat) : (s.bump f v d i).out = s.out := rfl
@[simp] theorem State.bump_mem (f : Fld) (v d i : Nat) : (s.bump f v d i).mem = s.mem := rfl
@[simp] theorem State.bump_power (f : Fld) (v d i : Nat) : (s.bump f v d i).power = s.power := rfl
@[simp] theorem State.bump_tick (f : Fld) (v d i : Nat) : (s.bump f v d i).tick = s.tick := rfl
@[simp] theorem State.bump_sched (f : Fld) (v d i : Nat) : (s.bump f v d i).sched = s.sched := rfl
@[simp] theorem State.bump_arrays (f : Fld) (v d i : Nat) : (s.bump f v d i).arrays = s.arrays := rfl
@[simp] theorem State.bump_codec (f : Fld) (v d i : Nat) : (s.bump f v d i).codec = s.codec := rfl
@[simp] theorem State.bump_hbm (f : Fld) (v d i : Nat) : (s.bump f v d i).hbm = s.hbm := rfl
@[simp] theorem State.bump_oasis (f : Fld) (v d i : Nat) : (s.bump f v d i).oasis = s.oasis := rfl
@[simp] theorem State.bump_fsel (f : Fld) (v d i : Nat) : (s.bump f v d i).fsel = s.fsel := rfl
@[simp] theorem State.bump_upd (f : Fld) (v d i : Nat) : (s.bump f v d i).upd = s.upd := rfl
@[simp] theorem State.bump_rdx (f : Fld) (v d i : Nat) : (s.bump f v d i).rdx = s.rdx := rfl
@[simp] theorem State.bump_vrt (f : Fld) (v d i : Nat) : (s.bump f v d i).vrt = s.vrt := rfl
@[simp] theorem State.bump_rem (f : Fld) (v d i : Nat) : (s.bump f v d i).rem = s.rem := rfl
@[simp] theorem State.bump_xlt (f : Fld) (v d i : Nat) : (s.bump f v d i).xlt = s.xlt := rfl
@[simp] theorem State.bump_flt (f : Fld) (v d i : Nat) : (s.bump f v d i).flt = s.flt := rfl
@[simp] theorem State.bump_syn (f : Fld) (v d i : Nat) : (s.bump f v d i).syn = s.syn := rfl
@[simp] theorem State.bump_coh (f : Fld) (v d i : Nat) : (s.bump f v d i).coh = s.coh := rfl
@[simp] theorem State.bump_imsic (f : Fld) (v d i : Nat) : (s.bump f v d i).imsic = s.imsic := rfl
@[simp] theorem State.bump_qcx (f : Fld) (v d i : Nat) : (s.bump f v d i).qcx = s.qcx := rfl
@[simp] theorem State.bump_pci (f : Fld) (v d i : Nat) : (s.bump f v d i).pci = s.pci := rfl
@[simp] theorem State.bump_bdi (f : Fld) (v d i : Nat) : (s.bump f v d i).bdi = s.bdi := rfl
@[simp] theorem State.bump_sec (f : Fld) (v d i : Nat) : (s.bump f v d i).sec = s.sec := rfl
@[simp] theorem State.bump_ldg (f : Fld) (v d i : Nat) : (s.bump f v d i).ldg = s.ldg := rfl

@[simp] theorem State.addWrap_pending (f : Fld) (v d i : Nat) : (s.addWrap f v d i).pending = s.pending := rfl
@[simp] theorem State.addWrap_fresh (f : Fld) (v d i : Nat) : (s.addWrap f v d i).fresh = s.fresh := rfl
@[simp] theorem State.addWrap_out (f : Fld) (v d i : Nat) : (s.addWrap f v d i).out = s.out := rfl
@[simp] theorem State.addWrap_mem (f : Fld) (v d i : Nat) : (s.addWrap f v d i).mem = s.mem := rfl
@[simp] theorem State.addWrap_power (f : Fld) (v d i : Nat) : (s.addWrap f v d i).power = s.power := rfl
@[simp] theorem State.addWrap_tick (f : Fld) (v d i : Nat) : (s.addWrap f v d i).tick = s.tick := rfl
@[simp] theorem State.addWrap_sched (f : Fld) (v d i : Nat) : (s.addWrap f v d i).sched = s.sched := rfl
@[simp] theorem State.addWrap_arrays (f : Fld) (v d i : Nat) : (s.addWrap f v d i).arrays = s.arrays := rfl
@[simp] theorem State.addWrap_codec (f : Fld) (v d i : Nat) : (s.addWrap f v d i).codec = s.codec := rfl
@[simp] theorem State.addWrap_hbm (f : Fld) (v d i : Nat) : (s.addWrap f v d i).hbm = s.hbm := rfl
@[simp] theorem State.addWrap_oasis (f : Fld) (v d i : Nat) : (s.addWrap f v d i).oasis = s.oasis := rfl
@[simp] theorem State.addWrap_fsel (f : Fld) (v d i : Nat) : (s.addWrap f v d i).fsel = s.fsel := rfl
@[simp] theorem State.addWrap_upd (f : Fld) (v d i : Nat) : (s.addWrap f v d i).upd = s.upd := rfl
@[simp] theorem State.addWrap_rdx (f : Fld) (v d i : Nat) : (s.addWrap f v d i).rdx = s.rdx := rfl
@[simp] theorem State.addWrap_vrt (f : Fld) (v d i : Nat) : (s.addWrap f v d i).vrt = s.vrt := rfl
@[simp] theorem State.addWrap_rem (f : Fld) (v d i : Nat) : (s.addWrap f v d i).rem = s.rem := rfl
@[simp] theorem State.addWrap_xlt (f : Fld) (v d i : Nat) : (s.addWrap f v d i).xlt = s.xlt := rfl
@[simp] theorem State.addWrap_flt (f : Fld) (v d i : Nat) : (s.addWrap f v d i).flt = s.flt := rfl
@[simp] theorem State.addWrap_syn (f : Fld) (v d i : Nat) : (s.addWrap f v d i).syn = s.syn := rfl
@[simp] theorem State.addWrap_coh (f : Fld) (v d i : Nat) : (s.addWrap f v d i).coh = s.coh := rfl
@[simp] theorem State.addWrap_imsic (f : Fld) (v d i : Nat) : (s.addWrap f v d i).imsic = s.imsic := rfl
@[simp] theorem State.addWrap_qcx (f : Fld) (v d i : Nat) : (s.addWrap f v d i).qcx = s.qcx := rfl
@[simp] theorem State.addWrap_pci (f : Fld) (v d i : Nat) : (s.addWrap f v d i).pci = s.pci := rfl
@[simp] theorem State.addWrap_bdi (f : Fld) (v d i : Nat) : (s.addWrap f v d i).bdi = s.bdi := rfl
@[simp] theorem State.addWrap_sec (f : Fld) (v d i : Nat) : (s.addWrap f v d i).sec = s.sec := rfl
@[simp] theorem State.addWrap_ldg (f : Fld) (v d i : Nat) : (s.addWrap f v d i).ldg = s.ldg := rfl

@[simp] theorem State.flag_pending (f : Fld) (d i : Nat) : (s.flag f d i).pending = s.pending := rfl
@[simp] theorem State.flag_fresh (f : Fld) (d i : Nat) : (s.flag f d i).fresh = s.fresh := rfl
@[simp] theorem State.flag_out (f : Fld) (d i : Nat) : (s.flag f d i).out = s.out := rfl
@[simp] theorem State.flag_mem (f : Fld) (d i : Nat) : (s.flag f d i).mem = s.mem := rfl
@[simp] theorem State.flag_power (f : Fld) (d i : Nat) : (s.flag f d i).power = s.power := rfl
@[simp] theorem State.flag_tick (f : Fld) (d i : Nat) : (s.flag f d i).tick = s.tick := rfl
@[simp] theorem State.flag_sched (f : Fld) (d i : Nat) : (s.flag f d i).sched = s.sched := rfl
@[simp] theorem State.flag_arrays (f : Fld) (d i : Nat) : (s.flag f d i).arrays = s.arrays := rfl
@[simp] theorem State.flag_codec (f : Fld) (d i : Nat) : (s.flag f d i).codec = s.codec := rfl
@[simp] theorem State.flag_hbm (f : Fld) (d i : Nat) : (s.flag f d i).hbm = s.hbm := rfl
@[simp] theorem State.flag_oasis (f : Fld) (d i : Nat) : (s.flag f d i).oasis = s.oasis := rfl
@[simp] theorem State.flag_fsel (f : Fld) (d i : Nat) : (s.flag f d i).fsel = s.fsel := rfl
@[simp] theorem State.flag_upd (f : Fld) (d i : Nat) : (s.flag f d i).upd = s.upd := rfl
@[simp] theorem State.flag_rdx (f : Fld) (d i : Nat) : (s.flag f d i).rdx = s.rdx := rfl
@[simp] theorem State.flag_vrt (f : Fld) (d i : Nat) : (s.flag f d i).vrt = s.vrt := rfl
@[simp] theorem State.flag_rem (f : Fld) (d i : Nat) : (s.flag f d i).rem = s.rem := rfl
@[simp] theorem State.flag_xlt (f : Fld) (d i : Nat) : (s.flag f d i).xlt = s.xlt := rfl
@[simp] theorem State.flag_flt (f : Fld) (d i : Nat) : (s.flag f d i).flt = s.flt := rfl
@[simp] theorem State.flag_syn (f : Fld) (d i : Nat) : (s.flag f d i).syn = s.syn := rfl
@[simp] theorem State.flag_coh (f : Fld) (d i : Nat) : (s.flag f d i).coh = s.coh := rfl
@[simp] theorem State.flag_imsic (f : Fld) (d i : Nat) : (s.flag f d i).imsic = s.imsic := rfl
@[simp] theorem State.flag_qcx (f : Fld) (d i : Nat) : (s.flag f d i).qcx = s.qcx := rfl
@[simp] theorem State.flag_pci (f : Fld) (d i : Nat) : (s.flag f d i).pci = s.pci := rfl
@[simp] theorem State.flag_bdi (f : Fld) (d i : Nat) : (s.flag f d i).bdi = s.bdi := rfl
@[simp] theorem State.flag_sec (f : Fld) (d i : Nat) : (s.flag f d i).sec = s.sec := rfl
@[simp] theorem State.flag_ldg (f : Fld) (d i : Nat) : (s.flag f d i).ldg = s.ldg := rfl

end Sys2Proof.Machine
end

