-- ==== Sys2Proof/Laws/Memory.lean ====
section
/-! SUPPORT. Memory: its canonical form is kept by every write, a byte that was written reads back, and every other byte reads
as before. -/

namespace Sys2Proof.Machine

theorem Memory.above_mono {a b : Nat} (h : a ≤ b) : ∀ {m : List Host.Cell}, Memory.above b m = true → Memory.above a m = true
  | [], _ => rfl
  | (k, _) :: _, hb => by
    simp only [Memory.above, decide_eq_true_eq] at *
    omega

theorem Memory.above_setCell {a b : Nat} (v : Byte) (h : b < a) :
    ∀ {m : List Host.Cell}, Memory.above b m = true → Memory.wf m = true → Memory.above b (setCell a v m) = true
  | [], _, _ => by simp only [setCell]; split <;> simp [Memory.above, h]
  | (k, w) :: rest, hb, hw => by
    simp only [Memory.above, decide_eq_true_eq] at hb
    simp only [Memory.wf, Bool.and_eq_true] at hw
    simp only [setCell]
    split
    · split <;> simp [Memory.above, hb, h]
    · split
      · split
        · exact Memory.above_mono (le_of_lt hb) hw.1.2
        · simp [Memory.above, h]
      · simp [Memory.above, hb]

/-- Writing a byte keeps memory in its canonical form. -/
theorem Memory.wf_setCell (a : Nat) (v : Byte) : ∀ {m : List Host.Cell}, Memory.wf m = true → Memory.wf (setCell a v m) = true
  | [], _ => by simp only [setCell]; split <;> simp [Memory.wf, Memory.above, *]
  | (k, w) :: rest, h => by
    have h' := h
    simp only [Memory.wf, Bool.and_eq_true, decide_eq_true_eq] at h'
    obtain ⟨⟨hw, hk⟩, hr⟩ := h'
    simp only [setCell]
    split
    · rename_i hlt
      split
      · exact h
      · rename_i hv
        show (decide (v ≠ unlisted) && Memory.above a ((k, w) :: rest) && Memory.wf ((k, w) :: rest)) = true
        rw [h]
        simp [Memory.above, hv, hlt]
    · split
      · split
        · exact hr
        · rename_i hv; subst_vars; simp [Memory.wf, hv, hk, hr]
      · rename_i h1 h2
        have : k < a := by omega
        simp [Memory.wf, hw, Memory.above_setCell v this hk hr, Memory.wf_setCell a v hr]

/-- Writing consecutive bytes keeps memory in its canonical form. -/
theorem Memory.wf_setCells : ∀ (bs : Bytes) (a : Nat) {m : List Host.Cell}, Memory.wf m = true → Memory.wf (setCells a bs m) = true
  | [], _, _, h => h
  | _ :: bs, a, _, h => Memory.wf_setCells bs (a + 1) (Memory.wf_setCell a _ h)

theorem cellAt_above {a : Nat} : ∀ {m : List Host.Cell}, Memory.above a m = true → cellAt a m = unlisted
  | [], _ => rfl
  | (k, _) :: _, h => by
    simp only [Memory.above, decide_eq_true_eq] at h
    simp only [cellAt]
    rw [if_neg (by omega), if_pos h]

/-- A byte that was written reads back. -/
theorem cellAt_setCell_same (a : Nat) (v : Byte) : ∀ {m : List Host.Cell}, Memory.wf m = true → cellAt a (setCell a v m) = v
  | [], _ => by simp only [setCell]; split <;> simp [cellAt, *]
  | (k, w) :: rest, h => by
    simp only [Memory.wf, Bool.and_eq_true, decide_eq_true_eq] at h
    obtain ⟨⟨hw, hk⟩, hr⟩ := h
    simp only [setCell]
    split
    · rename_i hlt
      split
      · rename_i hv; simp only [cellAt]; rw [if_neg (by omega), if_pos hlt, hv]
      · simp [cellAt]
    · split
      · split
        · rename_i hka hv; subst hka; rw [cellAt_above hk, hv]
        · simp [cellAt]
      · rename_i h1 h2
        simp only [cellAt]
        rw [if_neg h2, if_neg h1, cellAt_setCell_same a v hr]

/-- Every other byte reads as before. -/
theorem cellAt_setCell_ne {a b : Nat} (hab : b ≠ a) (v : Byte) :
    ∀ {m : List Host.Cell}, Memory.wf m = true → cellAt b (setCell a v m) = cellAt b m
  | [], _ => by simp only [setCell]; split <;> simp [cellAt, Ne.symm hab]
  | (k, w) :: rest, h => by
    simp only [Memory.wf, Bool.and_eq_true, decide_eq_true_eq] at h
    obtain ⟨⟨hw, hk⟩, hr⟩ := h
    simp only [setCell]
    split
    · rename_i hlt
      split
      · rfl
      · simp only [cellAt]
        rw [if_neg (Ne.symm hab)]
        by_cases hb : b < a
        · rw [if_pos hb, if_neg (by omega), if_pos (by omega)]
        · rw [if_neg hb]
    · split
      · rename_i h1 hka
        subst hka
        split
        · simp only [cellAt]
          rw [if_neg (Ne.symm hab)]
          by_cases hb : b < k
          · rw [if_pos hb, cellAt_above (Memory.above_mono (le_of_lt hb) hk)]
          · rw [if_neg hb]
        · simp only [cellAt]; rw [if_neg (Ne.symm hab), if_neg (Ne.symm hab)]
      · simp only [cellAt, cellAt_setCell_ne hab v hr]

theorem cellAt_setCells_out {b : Nat} : ∀ (bs : Bytes) {a : Nat} {m : List Host.Cell}, Memory.wf m = true →
    (b < a ∨ a + bs.length ≤ b) → cellAt b (setCells a bs m) = cellAt b m
  | [], _, _, _, _ => rfl
  | v :: bs, a, m, h, hb => by
    simp only [List.length_cons] at hb
    simp only [setCells]
    rw [cellAt_setCells_out bs (Memory.wf_setCell a v h) (by omega), cellAt_setCell_ne (by omega) v h]

theorem cellAt_setCells_in : ∀ (bs : Bytes) {a i : Nat} {m : List Host.Cell}, Memory.wf m = true → (hi : i < bs.length) →
    cellAt (a + i) (setCells a bs m) = bs[i]
  | [], _, _, _, _, hi => by simp at hi
  | v :: bs, a, 0, m, h, _ => by
    simp only [setCells, Nat.add_zero, List.getElem_cons_zero]
    rw [cellAt_setCells_out bs (Memory.wf_setCell a v h) (by omega), cellAt_setCell_same a v h]
  | v :: bs, a, i + 1, m, h, hi => by
    simp only [setCells, List.getElem_cons_succ]
    rw [show a + (i + 1) = a + 1 + i by ring, cellAt_setCells_in bs (Memory.wf_setCell a v h) (by simpa using hi)]

/-- A byte depends on memory alone. -/
theorem State.byte_congr {s t : State} (h : t.mem = s.mem) (a : Nat) : t.byte a = s.byte a := by simp [State.byte, h]

theorem State.bytes_congr {s t : State} (h : t.mem = s.mem) (a n : Nat) : t.bytes a n = s.bytes a n := by
  simp [State.bytes, State.byte_congr h]

@[simp] theorem State.bytes_length (s : State) (a n : Nat) : (s.bytes a n).length = n := by simp [State.bytes]

/-- A byte outside the bytes stored reads as before. -/
theorem State.byte_store_out {s : State} (h : Memory.wf s.mem = true) {a b : Nat} {bs : Bytes} (hb : b < a ∨ a + bs.length ≤ b) :
    (s.store a bs).byte b = s.byte b := cellAt_setCells_out bs h hb

/-- The bytes stored read back. -/
theorem State.bytes_store_same {s : State} (h : Memory.wf s.mem = true) (a : Nat) (bs : Bytes) :
    (s.store a bs).bytes a bs.length = bs := by
  apply List.ext_getElem
  · simp
  · intro i h1 h2
    simp only [State.bytes, List.getElem_map, List.getElem_range, State.byte, State.store_mem]
    exact cellAt_setCells_in bs h h2

/-- A store keeps the canonical form. -/
theorem State.wf_store {s : State} (h : Memory.wf s.mem = true) (a : Nat) (bs : Bytes) : Memory.wf (s.store a bs).mem = true :=
  Memory.wf_setCells bs a h

end Sys2Proof.Machine
end

