-- ==== Sys2Proof/Laws/Regs.lean ====
section
/-! SUPPORT. Bit fields, register words and their fields: what a write leaves and what it does not touch. -/

namespace Sys2Proof.Machine

/-! ### Bit fields -/

theorem bits_eq (x lo len : Nat) : bits x lo len = x / 2 ^ lo % 2 ^ len := by
  simp [bits, Nat.shiftRight_eq_div_pow]

theorem bits_lt (x lo len : Nat) : bits x lo len < 2 ^ len := Nat.mod_lt _ (Nat.two_pow_pos _)

/-- A field write keeps what lies above and below the field. -/
theorem putBits_eq (x lo len v : Nat) :
    putBits x lo len v = x / 2 ^ (lo + len) * 2 ^ (lo + len) + v % 2 ^ len * 2 ^ lo + x % 2 ^ lo := by
  have h1 := Nat.div_add_mod x (2 ^ lo)
  have h2 := Nat.div_add_mod (x / 2 ^ lo) (2 ^ len)
  have h3 : x / 2 ^ lo / 2 ^ len = x / 2 ^ (lo + len) := by rw [Nat.div_div_eq_div_mul, ← pow_add]
  simp only [putBits, bits_eq, Nat.shiftLeft_eq]
  rw [h3] at h2
  have h4 : x = x / 2 ^ (lo + len) * 2 ^ (lo + len) + x / 2 ^ lo % 2 ^ len * 2 ^ lo + x % 2 ^ lo := by
    conv_lhs => rw [← h1, ← h2]
    ring
  generalize x / 2 ^ (lo + len) * 2 ^ (lo + len) = a at *
  generalize x / 2 ^ lo % 2 ^ len * 2 ^ lo = b at *
  generalize v % 2 ^ len * 2 ^ lo = c at *
  omega

theorem putBits_lt {x lo len v : Nat} (hx : x < 2 ^ 64) (h : lo + len ≤ 64) : putBits x lo len v < 2 ^ 64 := by
  rw [putBits_eq]
  have h1 : x / 2 ^ (lo + len) < 2 ^ (64 - (lo + len)) := by
    rw [Nat.div_lt_iff_lt_mul (Nat.two_pow_pos _), ← pow_add]
    convert hx using 2; omega
  have h2 : v % 2 ^ len < 2 ^ len := Nat.mod_lt _ (Nat.two_pow_pos _)
  have h3 : x % 2 ^ lo < 2 ^ lo := Nat.mod_lt _ (Nat.two_pow_pos _)
  have h4 : (2 : Nat) ^ 64 = 2 ^ (64 - (lo + len)) * 2 ^ (lo + len) := by rw [← pow_add]; congr 1; omega
  have h5 : (2 : Nat) ^ (lo + len) = 2 ^ len * 2 ^ lo := by rw [pow_add]; ring
  rw [h4]
  calc x / 2 ^ (lo + len) * 2 ^ (lo + len) + v % 2 ^ len * 2 ^ lo + x % 2 ^ lo
      < x / 2 ^ (lo + len) * 2 ^ (lo + len) + 2 ^ (lo + len) := by
        have h6 := Nat.mul_le_mul_right (2 ^ lo) h2
        rw [Nat.succ_mul, ← h5] at h6
        omega
    _ = (x / 2 ^ (lo + len) + 1) * 2 ^ (lo + len) := by ring
    _ ≤ _ := Nat.mul_le_mul_right _ h1

/-- A field reads back what was put into it, cut to its width. -/
@[simp] theorem bits_putBits_same (x lo len v : Nat) : bits (putBits x lo len v) lo len = v % 2 ^ len := by
  rw [putBits_eq, bits_eq, pow_add]
  have h3 : x % 2 ^ lo < 2 ^ lo := Nat.mod_lt _ (Nat.two_pow_pos _)
  have : x / (2 ^ lo * 2 ^ len) * (2 ^ lo * 2 ^ len) + v % 2 ^ len * 2 ^ lo + x % 2 ^ lo =
      2 ^ lo * (x / (2 ^ lo * 2 ^ len) * 2 ^ len + v % 2 ^ len) + x % 2 ^ lo := by ring
  rw [this, Nat.mul_add_div (Nat.two_pow_pos _), Nat.div_eq_of_lt h3, Nat.add_zero, Nat.mul_comm, Nat.mul_add_mod,
    Nat.mod_mod]

/-- A field write leaves a field below it as it was. -/
theorem bits_putBits_below {x lo len v lo' len' : Nat} (h : lo' + len' ≤ lo) :
    bits (putBits x lo len v) lo' len' = bits x lo' len' := by
  have hs : ∀ y : Nat, bits (y * 2 ^ lo + x % 2 ^ lo) lo' len' = bits x lo' len' := by
    intro y
    rw [bits_eq, bits_eq]
    obtain ⟨k, rfl⟩ := Nat.exists_eq_add_of_le h
    have e1 : x / 2 ^ lo' % 2 ^ len' = x % 2 ^ (lo' + len' + k) / 2 ^ lo' % 2 ^ len' := by
      rw [show lo' + len' + k = lo' + (len' + k) by ring, pow_add 2 lo' (len' + k), Nat.mod_mul_right_div_self, pow_add 2 len' k,
        Nat.mod_mul_right_mod]
    rw [e1]
    rw [show y * 2 ^ (lo' + len' + k) + x % 2 ^ (lo' + len' + k) =
      2 ^ lo' * (y * 2 ^ k * 2 ^ len') + x % 2 ^ (lo' + len' + k) by rw [pow_add, pow_add]; ring,
      Nat.mul_add_div (Nat.two_pow_pos _), Nat.mul_comm _ (2 ^ len'), Nat.mul_add_mod]
  rw [putBits_eq]
  have : x / 2 ^ (lo + len) * 2 ^ (lo + len) + v % 2 ^ len * 2 ^ lo + x % 2 ^ lo =
      (x / 2 ^ (lo + len) * 2 ^ len + v % 2 ^ len) * 2 ^ lo + x % 2 ^ lo := by rw [pow_add]; ring
  rw [this, hs]

/-- A field write leaves a field above it as it was. -/
theorem bits_putBits_above {x lo len v lo' len' : Nat} (h : lo + len ≤ lo') :
    bits (putBits x lo len v) lo' len' = bits x lo' len' := by
  obtain ⟨k, rfl⟩ := Nat.exists_eq_add_of_le h
  have h2 : v % 2 ^ len * 2 ^ lo + x % 2 ^ lo < 2 ^ (lo + len) := by
    have a : v % 2 ^ len < 2 ^ len := Nat.mod_lt _ (Nat.two_pow_pos _)
    have b : x % 2 ^ lo < 2 ^ lo := Nat.mod_lt _ (Nat.two_pow_pos _)
    have c := Nat.mul_le_mul_right (2 ^ lo) a
    rw [Nat.succ_mul, Nat.mul_comm (2 ^ len), ← pow_add] at c
    omega
  have h3 : putBits x lo len v / 2 ^ (lo + len) = x / 2 ^ (lo + len) := by
    rw [putBits_eq, Nat.add_assoc, Nat.mul_comm, Nat.mul_add_div (Nat.two_pow_pos _), Nat.div_eq_of_lt h2, Nat.add_zero]
  rw [bits_eq, bits_eq, pow_add 2 (lo + len) k, ← Nat.div_div_eq_div_mul, ← Nat.div_div_eq_div_mul, h3]

/-! ### Register words -/

@[simp] theorem findWord_storeWord_same (l : Loc) (v : Word) (rs : List (Loc × Word)) :
    findWord l (storeWord l v rs) = some v := by
  induction rs with
  | nil => simp [storeWord, findWord]
  | cons p rest ih =>
    obtain ⟨k, w⟩ := p
    by_cases h : k = l <;> simp [storeWord, findWord, h, ih]

theorem findWord_storeWord_ne {l m : Loc} (h : l ≠ m) (v : Word) (rs : List (Loc × Word)) :
    findWord m (storeWord l v rs) = findWord m rs := by
  induction rs with
  | nil => simp [storeWord, findWord, h]
  | cons p rest ih =>
    obtain ⟨k, w⟩ := p
    by_cases hk : k = l
    · subst hk; simp [storeWord, findWord, h]
    · by_cases hm : k = m
      · subst hm; simp [storeWord, findWord, hk]
      · simp [storeWord, findWord, hk, hm, ih]

/-- Register words depend on the register file alone. -/
theorem State.word_congr {s t : State} (h : t.regs = s.regs) (r : Reg) (d i : Nat) : t.word r d i = s.word r d i := by
  simp [State.word, h]

theorem State.get_congr {s t : State} (h : t.regs = s.regs) (f : Fld) (d i : Nat) : t.get f d i = s.get f d i := by
  simp [State.get, State.word_congr h]

theorem Reg.place_reg (r : Reg) (d i : Nat) : (r.place d i).reg = r := rfl

/-- A register word that was set. -/
@[simp] theorem State.word_setWord_same (s : State) (r : Reg) (v : Word) (d i : Nat) : (s.setWord r v d i).word r d i = v := by
  simp [State.word, State.setWord]

/-- A register at another place is not touched. -/
theorem State.word_setWord_ne {s : State} {r r' : Reg} {v : Word} {d i d' i' : Nat} (h : r.place d i ≠ r'.place d' i') :
    (s.setWord r v d i).word r' d' i' = s.word r' d' i' := by
  simp [State.word, State.setWord, findWord_storeWord_ne h]

theorem Reg.place_ne {r r' : Reg} (h : r ≠ r') (d i d' i' : Nat) : r.place d i ≠ r'.place d' i' :=
  fun e => h (congrArg Loc.reg e)

theorem Reg.place_ne_idx {r r' : Reg} {i i' : Nat} (h : i ≠ i') (d d' : Nat) : r.place d i ≠ r'.place d' i' :=
  fun e => h (congrArg Loc.idx e)

/-- Another register is not touched. -/
theorem State.word_setWord_reg {s : State} {r r' : Reg} (h : r ≠ r') {v : Word} {d i d' i' : Nat} :
    (s.setWord r v d i).word r' d' i' = s.word r' d' i' := State.word_setWord_ne (Reg.place_ne h d i d' i')

/-- A field of another register is not touched. -/
theorem State.get_setWord_reg {s : State} {r : Reg} {f : Fld} (h : r ≠ f.reg) {v : Word} {d i d' i' : Nat} :
    (s.setWord r v d i).get f d' i' = s.get f d' i' := by
  simp [State.get, State.word_setWord_reg h]

/-! ### Fields -/

/-- A field that was put reads as the value, cut to its width. -/
theorem State.get_put_same (s : State) (f : Fld) (v d i : Nat) (h : f.lo + f.len ≤ 64) :
    (s.put f v d i).get f d i = v % 2 ^ f.len := by
  simp only [State.get, State.put, State.word_setWord_same, BitVec.toNat_ofNat]
  rw [Nat.mod_eq_of_lt (putBits_lt (BitVec.isLt _) h), bits_putBits_same]

/-- A field at another place, or of another register, is not touched. -/
theorem State.get_put_place {s : State} {f g : Fld} {v d i d' i' : Nat} (h : f.reg.place d i ≠ g.reg.place d' i') :
    (s.put f v d i).get g d' i' = s.get g d' i' := by
  simp [State.get, State.put, State.word_setWord_ne h]

theorem State.get_put_reg {s : State} {f g : Fld} {v d i d' i' : Nat} (h : f.reg ≠ g.reg) :
    (s.put f v d i).get g d' i' = s.get g d' i' := State.get_put_place (Reg.place_ne h d i d' i')

theorem State.word_put_reg {s : State} {f : Fld} {r : Reg} {v d i d' i' : Nat} (h : f.reg ≠ r) :
    (s.put f v d i).word r d' i' = s.word r d' i' := State.word_setWord_reg h

theorem State.word_put_place {s : State} {f : Fld} {r : Reg} {v d i d' i' : Nat} (h : f.reg.place d i ≠ r.place d' i') :
    (s.put f v d i).word r d' i' = s.word r d' i' := State.word_setWord_ne h

/-- A field of the same register that does not meet the one put is not touched. -/
theorem State.get_put_apart {s : State} {f g : Fld} {v d i d' i' : Nat} (h : f.lo + f.len ≤ g.lo ∨ g.lo + g.len ≤ f.lo)
    (hf : f.lo + f.len ≤ 64) : (s.put f v d i).get g d' i' = s.get g d' i' := by
  by_cases hp : f.reg.place d i = g.reg.place d' i'
  · have hr : f.reg = g.reg := congrArg Loc.reg hp
    have hi : i = i' := congrArg Loc.idx hp
    have hw : ∀ t : State, t.word g.reg d' i' = t.word f.reg d i := by
      intro t; simp only [State.word]; rw [hp]; subst hi; rw [hr]
    simp only [State.get, hw, State.put, State.word_setWord_same, BitVec.toNat_ofNat]
    rw [Nat.mod_eq_of_lt (putBits_lt (BitVec.isLt _) hf)]
    rcases h with h | h
    · exact bits_putBits_above h
    · exact bits_putBits_below h
  · exact State.get_put_place hp

theorem State.get_lt (s : State) (f : Fld) (d i : Nat) : s.get f d i < 2 ^ f.len := bits_lt _ _ _

/-- A flag that was set reads 1. -/
theorem State.get_flag_same (s : State) (f : Fld) (d i : Nat) (h : f.lo + f.len ≤ 64) (h1 : f.len ≠ 0) :
    (s.flag f d i).get f d i = 1 := by
  rw [State.flag, State.get_put_same _ _ _ _ _ h, Nat.mod_eq_of_lt (Nat.one_lt_two_pow h1)]

theorem State.on_flag_same (s : State) (f : Fld) (d i : Nat) (h : f.lo + f.len ≤ 64) (h1 : f.len ≠ 0) :
    (s.flag f d i).on f d i = true := by
  simp [State.on, State.get_flag_same s f d i h h1]

/-- A counter that is bumped: its sum, or its largest value. -/
theorem State.get_bump_same (s : State) (f : Fld) (n d i : Nat) (h : f.lo + f.len ≤ 64) :
    (s.bump f n d i).get f d i = min (s.get f d i + n) (2 ^ f.len - 1) := by
  rw [State.bump, State.get_put_same _ _ _ _ _ h, Nat.mod_eq_of_lt]
  have := Nat.two_pow_pos f.len
  omega

/-- A counter that wraps. -/
theorem State.get_addWrap_same (s : State) (f : Fld) (n d i : Nat) (h : f.lo + f.len ≤ 64) :
    (s.addWrap f n d i).get f d i = (s.get f d i + n) % 2 ^ f.len := by
  rw [State.addWrap, State.get_put_same _ _ _ _ _ h]

theorem map_storeWord (l : Loc) (v : Word) (rs : List (Loc × Word)) :
    (storeWord l v rs).map (·.1) = if l ∈ rs.map (·.1) then rs.map (·.1) else rs.map (·.1) ++ [l] := by
  induction rs with
  | nil => simp [storeWord]
  | cons p rest ih =>
    obtain ⟨k, w⟩ := p
    by_cases h : k = l
    · subst h; simp [storeWord]
    · simp only [storeWord, h, if_false, List.map_cons, ih, List.mem_cons, Ne.symm h, false_or]
      split <;> simp

/-- Setting a word lists no place twice. -/
theorem Regs.distinct_storeWord {rs : List (Loc × Word)} (h : Regs.distinct rs) (l : Loc) (v : Word) :
    Regs.distinct (storeWord l v rs) := by
  unfold Regs.distinct at *
  rw [map_storeWord]
  split
  · exact h
  · rename_i hl; exact List.nodup_append.2 ⟨h, by simp, by simpa using fun a b hb => by intro e; exact hl (List.mem_map.2 ⟨_, hb, e⟩)⟩

end Sys2Proof.Machine
end

