-- ==== Sys2Proof/Laws/Frame.lean ====
section
/-! SUPPORT. Footprints: how they compose, and the footprint of each primitive update. -/

namespace Sys2Proof.Machine

/-! ### Inclusion -/

/-- The set of the numbers as a bit mask. -/
def maskOf (l : List Nat) : Nat := l.foldr (fun i m => m ||| 1 <<< i) 0

theorem testBit_maskOf (l : List Nat) (i : Nat) : (maskOf l).testBit i = true ↔ i ∈ l := by
  induction l with
  | nil => simp [maskOf]
  | cons a l ih =>
    simp only [maskOf, List.foldr_cons, Nat.testBit_or, Bool.or_eq_true, List.mem_cons] at *
    rw [ih, Nat.shiftLeft_eq, one_mul, Nat.testBit_two_pow, decide_eq_true_eq]
    tauto

theorem mem_of_mask {a b : List Nat} (h : maskOf a &&& maskOf b = maskOf a) {i : Nat} (hi : i ∈ a) : i ∈ b := by
  rw [← testBit_maskOf] at *
  rw [← h, Nat.testBit_and, Bool.and_eq_true] at hi
  exact hi.2

/-- Every part and register of the first footprint is in the second. -/
def Touch.sub (a b : Touch) : Bool :=
  let p (t : Touch) := maskOf (t.parts.map Part.ctorIdx)
  let r (t : Touch) := maskOf (t.regs.map Reg.ctorIdx)
  (p a &&& p b).beq (p a) && (b.any || !a.any && (r a &&& r b).beq (r a))

theorem Part.ctorIdx_inj {p q : Part} (h : p.ctorIdx = q.ctorIdx) : p = q := by
  rw [← Part.ofNat_ctorIdx p, ← Part.ofNat_ctorIdx q, h]

theorem Reg.ctorIdx_inj {p q : Reg} (h : p.ctorIdx = q.ctorIdx) : p = q := by
  rw [← Reg.ofNat_ctorIdx p, ← Reg.ofNat_ctorIdx q, h]

theorem Touch.sub_parts {a b : Touch} (h : a.sub b = true) {p : Part} (hp : p ∈ a.parts) : p ∈ b.parts := by
  simp only [Touch.sub, Bool.and_eq_true] at h
  obtain ⟨q, hq, e⟩ := List.mem_map.1 (mem_of_mask (Nat.eq_of_beq_eq_true h.1) (List.mem_map_of_mem hp))
  exact Part.ctorIdx_inj e ▸ hq

theorem Touch.sub_regs {a b : Touch} (h : a.sub b = true) (hb : b.any = false) :
    a.any = false ∧ ∀ r, r ∈ a.regs → r ∈ b.regs := by
  simp only [Touch.sub, Bool.and_eq_true, Bool.or_eq_true, hb, Bool.false_eq_true, false_or,
    Bool.not_eq_true'] at h
  refine ⟨h.2.1, fun r hr => ?_⟩
  obtain ⟨q, hq, e⟩ := List.mem_map.1 (mem_of_mask (Nat.eq_of_beq_eq_true h.2.2) (List.mem_map_of_mem hr))
  exact Reg.ctorIdx_inj e ▸ hq

theorem beq_of_eq {a b : Nat} (h : a = b) : a.beq b = true := by subst h; exact Nat.beq_refl a

theorem Touch.sub_trans {a b c : Touch} (h : a.sub b = true) (g : b.sub c = true) : a.sub c = true := by
  have m : ∀ {x y z : Nat}, x &&& y = x → y &&& z = y → x &&& z = x := by
    intro x y z hx hy
    rw [← hx, Nat.land_assoc, hy]
  simp only [Touch.sub, Bool.and_eq_true, Bool.or_eq_true, Bool.not_eq_true'] at *
  refine ⟨beq_of_eq (m (Nat.eq_of_beq_eq_true h.1) (Nat.eq_of_beq_eq_true g.1)), ?_⟩
  rcases g.2 with hc | hg
  · exact .inl hc
  · rcases h.2 with hb | hh
    · rw [hg.1] at hb; cases hb
    · exact .inr ⟨hh.1, beq_of_eq (m (Nat.eq_of_beq_eq_true hh.2) (Nat.eq_of_beq_eq_true hg.2))⟩

/-- A register of a footprint that is included. -/
theorem Touch.sub_has {a b : Touch} (h : a.sub b = true) {r : Reg} (hr : a.any = true ∨ r ∈ a.regs) :
    b.any = true ∨ r ∈ b.regs := by
  cases hb : b.any with
  | true => exact .inl rfl
  | false =>
    have := Touch.sub_regs h hb
    exact .inr (this.2 r (hr.resolve_left (by simp [this.1])))

/-! ### Composition -/

theorem Part.same_refl (s : State) (p : Part) : p.same s s := by cases p <;> rfl

theorem Part.same_trans {s t u : State} {p : Part} (h : p.same s t) (g : p.same t u) : p.same s u := by
  cases p <;> exact Eq.trans g h

theorem Frame.refl {K : Touch} (s : State) : Frame K s s where
  pending := rfl
  fresh := le_rfl
  out := List.prefix_rfl
  wf := id
  distinct := id
  parts p _ := p.same_refl s
  words _ _ _ _ _ := rfl

theorem Frame.trans {K : Touch} {s t u : State} (h : Frame K s t) (g : Frame K t u) : Frame K s u where
  pending := g.pending.trans h.pending
  fresh := h.fresh.trans g.fresh
  out := h.out.trans g.out
  wf x := g.wf (h.wf x)
  distinct x := g.distinct (h.distinct x)
  parts p hp := Part.same_trans (h.parts p hp) (g.parts p hp)
  words a r d i hr := (g.words a r d i hr).trans (h.words a r d i hr)

theorem Frame.mono {K L : Touch} {s t : State} (h : Frame K s t) (hs : K.sub L = true) : Frame L s t where
  pending := h.pending
  fresh := h.fresh
  out := h.out
  wf := h.wf
  distinct := h.distinct
  parts p hp := h.parts p fun hk => hp (Touch.sub_parts hs hk)
  words a r d i hr := h.words (Touch.sub_regs hs a).1 r d i fun hk => hr ((Touch.sub_regs hs a).2 r hk)

/-- One more effect, whose footprint is included. -/
theorem Frame.step {K L : Touch} {s t u : State} (h : Frame K s t) (g : Frame L t u)
    (hs : L.sub K = true := by decide +kernel) : Frame K s u := h.trans (g.mono hs)

theorem Frame.ite {K : Touch} {c : Prop} [Decidable c] {s a b : State} (ha : Frame K s a) (hb : Frame K s b) :
    Frame K s (if c then a else b) := by split <;> assumption

/-- A state named on the way. -/
theorem Frame.via {K : Touch} {s t u : State} (h : Frame K s t) (g : Frame K s t → Frame K s u) : Frame K s u := g h

theorem Frame.foldl {K : Touch} {α : Type} {f : State → α → State} {l : List α} {s : State} (hf : ∀ t x, Frame K t (f t x)) :
    Frame K s (l.foldl f s) := by
  induction l generalizing s with
  | nil => exact .refl s
  | cons a l ih => exact (hf s a).trans ih

/-- A fold over something that holds a state. -/
theorem Frame.foldl_of {K : Touch} {α β : Type} (π : β → State) {f : β → α → β} {l : List α} {b : β}
    (hf : ∀ t x, Frame K (π t) (π (f t x))) : Frame K (π b) (π (l.foldl f b)) := by
  induction l generalizing b with
  | nil => exact .refl _
  | cons a l ih => exact (hf b a).trans ih

theorem Frame.foldl_fst {K : Touch} {α β : Type} {f : State × β → α → State × β} {l : List α} {b : State × β}
    (hf : ∀ t x, Frame K t.1 (f t x).1) : Frame K b.1 (l.foldl f b).1 := Frame.foldl_of Prod.fst hf

theorem Frame.fst {K : Touch} {α : Type} {s t : State} {x : α} {p : State × α} (h : p = (t, x)) (hp : Frame K s p.1) :
    Frame K s t := by rw [h] at hp; exact hp

/-- The state beside another answer. -/
def Frame.Fst {α : Type} (K : Touch) (s : State) (p : State × α) : Prop := Frame K s p.1

section
variable {K L : Touch} {α β : Type} {s t u : State}

theorem Frame.Fst.mk {x : α} (h : Frame K s t) : Frame.Fst K s (t, x) := h

theorem Frame.Fst.step {p : State × α} (h : Frame K s t) (g : Frame L t p.1)
    (hs : L.sub K = true := by decide +kernel) : Frame.Fst K s p := Frame.step h g hs

theorem Frame.Fst.trans {p : State × α} (h : Frame K s t) (g : Frame K t p.1) : Frame.Fst K s p := Frame.trans h g

theorem Frame.Fst.ite {c : Prop} [Decidable c] {a b : State × α} (ha : Frame.Fst K s a) (hb : Frame.Fst K s b) :
    Frame.Fst K s (if c then a else b) := by split <;> assumption

theorem Frame.Fst.foldl {f : State × β → α → State × β} {l : List α} {b : State × β} (hb : Frame.Fst K s b)
    (hf : ∀ t x y, Frame.Fst K t (f (t, x) y)) : Frame.Fst K s (l.foldl f b) :=
  Frame.trans hb (Frame.foldl_fst fun t y => hf t.1 t.2 y)

/-- The state that an optional effect answers. -/
def Frame.Opt (K : Touch) (s : State) (o : Option State) : Prop := ∀ t, o = some t → Frame K s t

theorem Frame.opt {o : Option State} (e : o = .some t) (h : Frame.Opt K s o) : Frame K s t := h t e

theorem Frame.Opt.none : Frame.Opt K s .none := fun _ h => by cases h

theorem Frame.Opt.some (h : Frame K s t) : Frame.Opt K s (.some t) := fun _ e => by cases e; exact h

theorem Frame.Opt.step {o : Option State} (h : Frame K s t) (g : Frame.Opt L t o) (hs : L.sub K = true := by decide +kernel) :
    Frame.Opt K s o := fun u e => h.step (g u e) hs

theorem Frame.Opt.trans {o : Option State} (h : Frame K s t) (g : Frame.Opt K t o) : Frame.Opt K s o :=
  fun u e => Frame.trans h (g u e)

theorem Frame.Fst.via {p : State × α} (h : Frame K s t) (g : Frame K s t → Frame.Fst K s p) : Frame.Fst K s p := g h

theorem Frame.Opt.via {o : Option State} (h : Frame K s t) (g : Frame K s t → Frame.Opt K s o) : Frame.Opt K s o := g h

theorem Frame.viaFst {t : State × α} (h : Frame.Fst K s t) (g : Frame.Fst K s t → Frame K s u) : Frame K s u := g h

theorem Frame.Fst.viaFst {t : State × β} {p : State × α} (h : Frame.Fst K s t) (g : Frame.Fst K s t → Frame.Fst K s p) :
    Frame.Fst K s p := g h

theorem Frame.viaOpt {t : Option State} (h : Frame.Opt K s t) (g : Frame.Opt K s t → Frame K s u) : Frame K s u := g h

theorem Frame.viaF {f : State → State} (h : ∀ t, Frame K t (f t)) (g : (∀ t, Frame K t (f t)) → Frame K s u) : Frame K s u := g h

theorem Frame.Opt.ite {c : Prop} [Decidable c] {a b : Option State} (ha : Frame.Opt K s a) (hb : Frame.Opt K s b) :
    Frame.Opt K s (if c then a else b) := by split <;> assumption

theorem Frame.getD {o : Option State} (h : Frame.Opt K s o) (g : Frame K s t) : Frame K s (o.getD t) := by
  cases o with
  | none => exact g
  | some u => exact h u rfl

/-- The state of an optional pair. -/
def Frame.OptFst {α : Type} (K : Touch) (s : State) (o : Option (State × α)) : Prop := ∀ p, o = some p → Frame K s p.1

theorem Frame.optFst {x : α} {o : Option (State × α)} (e : o = .some (t, x)) (h : Frame.OptFst K s o) : Frame K s t := h _ e

theorem Frame.OptFst.none : Frame.OptFst (α := α) K s .none := fun _ h => by cases h

theorem Frame.OptFst.some {x : α} (h : Frame K s t) : Frame.OptFst K s (.some (t, x)) := fun _ e => by cases e; exact h

theorem Frame.OptFst.step {o : Option (State × α)} (h : Frame K s t) (g : Frame.OptFst L t o)
    (hs : L.sub K = true := by decide +kernel) : Frame.OptFst K s o := fun p e => h.step (g p e) hs

theorem Frame.OptFst.ite {c : Prop} [Decidable c] {a b : Option (State × α)} (ha : Frame.OptFst K s a) (hb : Frame.OptFst K s b) :
    Frame.OptFst K s (if c then a else b) := by split <;> assumption

theorem Frame.OptFst.via {o : Option (State × α)} (h : Frame K s t) (g : Frame K s t → Frame.OptFst K s o) :
    Frame.OptFst K s o := g h

theorem Frame.viaOptFst {o : Option (State × α)} (h : Frame.OptFst K s o) (g : Frame.OptFst K s o → Frame K s u) :
    Frame K s u := g h

/-- The state of an optional pair with the state second. -/
def Frame.OptSnd {α : Type} (K : Touch) (s : State) (o : Option (α × State)) : Prop := ∀ p, o = some p → Frame K s p.2

theorem Frame.optSnd {x : α} {o : Option (α × State)} (e : o = .some (x, t)) (h : Frame.OptSnd K s o) : Frame K s t := h _ e

theorem Frame.OptSnd.none : Frame.OptSnd (α := α) K s .none := fun _ h => by cases h

theorem Frame.OptSnd.some {x : α} (h : Frame K s t) : Frame.OptSnd K s (.some (x, t)) := fun _ e => by cases e; exact h

theorem Frame.OptSnd.step {o : Option (α × State)} (h : Frame K s t) (g : Frame.OptSnd L t o)
    (hs : L.sub K = true := by decide +kernel) : Frame.OptSnd K s o := fun p e => h.step (g p e) hs

theorem Frame.OptSnd.ite {c : Prop} [Decidable c] {a b : Option (α × State)} (ha : Frame.OptSnd K s a) (hb : Frame.OptSnd K s b) :
    Frame.OptSnd K s (if c then a else b) := by split <;> assumption

/-- The state within something that holds one. -/
def Frame.At {β : Type} (π : β → State) (K : Touch) (s : State) (b : β) : Prop := Frame K s (π b)

variable {π : β → State}

theorem Frame.At.step {b : β} (h : Frame K s t) (g : Frame L t (π b)) (hs : L.sub K = true := by decide +kernel) :
    Frame.At π K s b := Frame.step h g hs

theorem Frame.At.trans {b : β} (h : Frame K s t) (g : Frame K t (π b)) : Frame.At π K s b := Frame.trans h g

theorem Frame.At.ite {c : Prop} [Decidable c] {a b : β} (ha : Frame.At π K s a) (hb : Frame.At π K s b) :
    Frame.At π K s (if c then a else b) := by split <;> assumption

theorem Frame.At.via {b : β} (h : Frame K s t) (g : Frame K s t → Frame.At π K s b) : Frame.At π K s b := g h

theorem Frame.At.viaFst {p : State × α} {b : β} (h : Frame.Fst K s p) (g : Frame.Fst K s p → Frame.At π K s b) :
    Frame.At π K s b := g h

theorem Frame.At.foldl {f : β → α → β} {l : List α} {b : β} (hb : Frame.At π K s b)
    (hf : ∀ b x, Frame.At π K (π b) (f b x)) : Frame.At π K s (l.foldl f b) := Frame.trans hb (Frame.foldl_of π hf)

theorem Frame.atFst {b : β} {x : α} {p : β × α} (e : p = (b, x)) (h : Frame.At (fun q => π q.1) K s p) : Frame.At π K s b := by
  rw [e] at h; exact h

theorem Frame.viaAt (π : β → State) {b : β} (h : Frame.At π K s b) (g : Frame.At π K s b → Frame K s u) : Frame K s u := g h

theorem Frame.Fst.viaAt (π : β → State) {b : β} {p : State × α} (h : Frame.At π K s b)
    (g : Frame.At π K s b → Frame.Fst K s p) : Frame.Fst K s p := g h

theorem Frame.At.viaAt (π' : α → State) {b : α} {c : β} (h : Frame.At π' K s b)
    (g : Frame.At π' K s b → Frame.At π K s c) : Frame.At π K s c := g h

end

/-! ### Primitive updates -/

/-- An update of parts beside the registers and memory. -/
theorem Frame.local {K : Touch} {s t : State} (hq : t.pending = s.pending) (hf : t.fresh = s.fresh) (ho : t.out = s.out)
    (hr : t.regs = s.regs) (hm : t.mem = s.mem) (hp : ∀ p, p ∉ K.parts → p.same s t) : Frame K s t where
  pending := hq
  fresh := hf.ge
  out := ho ▸ List.prefix_rfl
  wf h := hm ▸ h
  distinct h := hr ▸ h
  parts := hp
  words _ r d i _ := State.word_congr hr r d i

/-- A part that is not in a footprint of one part is another part. -/
theorem not_mem_one {α : Type} {a b : α} (h : a ∉ [b]) : a ≠ b := fun e => h (e ▸ List.mem_singleton_self _)

theorem State.power_frame (s : State) (v : PowerSt) : Frame ⟨[.power], [], false⟩ s { s with power := v } :=
  .local rfl rfl rfl rfl rfl fun p h => by cases p <;> first | rfl | exact absurd rfl (not_mem_one h)

theorem State.onPower_frame (s : State) (f : PowerSt → PowerSt) : Frame ⟨[.power], [], false⟩ s (s.onPower f) := s.power_frame _

theorem State.tick_frame (s : State) (v : TickSt) : Frame ⟨[.tick], [], false⟩ s { s with tick := v } :=
  .local rfl rfl rfl rfl rfl fun p h => by cases p <;> first | rfl | exact absurd rfl (not_mem_one h)

theorem State.onTick_frame (s : State) (f : TickSt → TickSt) : Frame ⟨[.tick], [], false⟩ s (s.onTick f) := s.tick_frame _

theorem State.sched_frame (s : State) (v : SchedSt) : Frame ⟨[.sched], [], false⟩ s { s with sched := v } :=
  .local rfl rfl rfl rfl rfl fun p h => by cases p <;> first | rfl | exact absurd rfl (not_mem_one h)

theorem State.onSched_frame (s : State) (f : SchedSt → SchedSt) : Frame ⟨[.sched], [], false⟩ s (s.onSched f) := s.sched_frame _

theorem State.arrays_frame (s : State) (v : List (Nat × ArraySt)) : Frame ⟨[.arrays], [], false⟩ s { s with arrays := v } :=
  .local rfl rfl rfl rfl rfl fun p h => by cases p <;> first | rfl | exact absurd rfl (not_mem_one h)

theorem State.codec_frame (s : State) (v : CodecSt) : Frame ⟨[.codec], [], false⟩ s { s with codec := v } :=
  .local rfl rfl rfl rfl rfl fun p h => by cases p <;> first | rfl | exact absurd rfl (not_mem_one h)

theorem State.onCodec_frame (s : State) (f : CodecSt → CodecSt) : Frame ⟨[.codec], [], false⟩ s (s.onCodec f) := s.codec_frame _

theorem State.hbm_frame (s : State) (v : HbmSt) : Frame ⟨[.hbm], [], false⟩ s { s with hbm := v } :=
  .local rfl rfl rfl rfl rfl fun p h => by cases p <;> first | rfl | exact absurd rfl (not_mem_one h)

theorem State.onHbm_frame (s : State) (f : HbmSt → HbmSt) : Frame ⟨[.hbm], [], false⟩ s (s.onHbm f) := s.hbm_frame _

theorem State.oasis_frame (s : State) (v : OasisSt) : Frame ⟨[.oasis], [], false⟩ s { s with oasis := v } :=
  .local rfl rfl rfl rfl rfl fun p h => by cases p <;> first | rfl | exact absurd rfl (not_mem_one h)

theorem State.onOasis_frame (s : State) (f : OasisSt → OasisSt) : Frame ⟨[.oasis], [], false⟩ s (s.onOasis f) := s.oasis_frame _

theorem State.fsel_frame (s : State) (v : FselSt) : Frame ⟨[.fsel], [], false⟩ s { s with fsel := v } :=
  .local rfl rfl rfl rfl rfl fun p h => by cases p <;> first | rfl | exact absurd rfl (not_mem_one h)

theorem State.onFsel_frame (s : State) (f : FselSt → FselSt) : Frame ⟨[.fsel], [], false⟩ s (s.onFsel f) := s.fsel_frame _

theorem State.upd_frame (s : State) (v : UpdSt) : Frame ⟨[.upd], [], false⟩ s { s with upd := v } :=
  .local rfl rfl rfl rfl rfl fun p h => by cases p <;> first | rfl | exact absurd rfl (not_mem_one h)

theorem State.onUpd_frame (s : State) (f : UpdSt → UpdSt) : Frame ⟨[.upd], [], false⟩ s (s.onUpd f) := s.upd_frame _

theorem State.rdx_frame (s : State) (v : RdxSt) : Frame ⟨[.rdx], [], false⟩ s { s with rdx := v } :=
  .local rfl rfl rfl rfl rfl fun p h => by cases p <;> first | rfl | exact absurd rfl (not_mem_one h)

theorem State.onRdx_frame (s : State) (f : RdxSt → RdxSt) : Frame ⟨[.rdx], [], false⟩ s (s.onRdx f) := s.rdx_frame _

theorem State.vrt_frame (s : State) (v : VrtSt) : Frame ⟨[.vrt], [], false⟩ s { s with vrt := v } :=
  .local rfl rfl rfl rfl rfl fun p h => by cases p <;> first | rfl | exact absurd rfl (not_mem_one h)

theorem State.onVrt_frame (s : State) (f : VrtSt → VrtSt) : Frame ⟨[.vrt], [], false⟩ s (s.onVrt f) := s.vrt_frame _

theorem State.rem_frame (s : State) (v : RemoteSt) : Frame ⟨[.rem], [], false⟩ s { s with rem := v } :=
  .local rfl rfl rfl rfl rfl fun p h => by cases p <;> first | rfl | exact absurd rfl (not_mem_one h)

theorem State.onRem_frame (s : State) (f : RemoteSt → RemoteSt) : Frame ⟨[.rem], [], false⟩ s (s.onRem f) := s.rem_frame _

theorem State.xlt_frame (s : State) (v : XltSt) : Frame ⟨[.xlt], [], false⟩ s { s with xlt := v } :=
  .local rfl rfl rfl rfl rfl fun p h => by cases p <;> first | rfl | exact absurd rfl (not_mem_one h)

theorem State.onXlt_frame (s : State) (f : XltSt → XltSt) : Frame ⟨[.xlt], [], false⟩ s (s.onXlt f) := s.xlt_frame _

theorem State.syn_frame (s : State) (v : SynSt) : Frame ⟨[.syn], [], false⟩ s { s with syn := v } :=
  .local rfl rfl rfl rfl rfl fun p h => by cases p <;> first | rfl | exact absurd rfl (not_mem_one h)

theorem State.onSyn_frame (s : State) (f : SynSt → SynSt) : Frame ⟨[.syn], [], false⟩ s (s.onSyn f) := s.syn_frame _

theorem State.coh_frame (s : State) (v : CohSt) : Frame ⟨[.coh], [], false⟩ s { s with coh := v } :=
  .local rfl rfl rfl rfl rfl fun p h => by cases p <;> first | rfl | exact absurd rfl (not_mem_one h)

theorem State.onCoh_frame (s : State) (f : CohSt → CohSt) : Frame ⟨[.coh], [], false⟩ s (s.onCoh f) := s.coh_frame _

theorem State.imsic_frame (s : State) (v : List (Nat × Nat)) : Frame ⟨[.imsic], [], false⟩ s { s with imsic := v } :=
  .local rfl rfl rfl rfl rfl fun p h => by cases p <;> first | rfl | exact absurd rfl (not_mem_one h)

theorem State.qcx_frame (s : State) (v : QcxSt) : Frame ⟨[.qcx], [], false⟩ s { s with qcx := v } :=
  .local rfl rfl rfl rfl rfl fun p h => by cases p <;> first | rfl | exact absurd rfl (not_mem_one h)

theorem State.onQcx_frame (s : State) (f : QcxSt → QcxSt) : Frame ⟨[.qcx], [], false⟩ s (s.onQcx f) := s.qcx_frame _

theorem State.pci_frame (s : State) (v : PciSt) : Frame ⟨[.pci], [], false⟩ s { s with pci := v } :=
  .local rfl rfl rfl rfl rfl fun p h => by cases p <;> first | rfl | exact absurd rfl (not_mem_one h)

theorem State.onPci_frame (s : State) (f : PciSt → PciSt) : Frame ⟨[.pci], [], false⟩ s (s.onPci f) := s.pci_frame _

theorem State.bdi_frame (s : State) (v : BdiSt) : Frame ⟨[.bdi], [], false⟩ s { s with bdi := v } :=
  .local rfl rfl rfl rfl rfl fun p h => by cases p <;> first | rfl | exact absurd rfl (not_mem_one h)

theorem State.onBdi_frame (s : State) (f : BdiSt → BdiSt) : Frame ⟨[.bdi], [], false⟩ s (s.onBdi f) := s.bdi_frame _

theorem State.sec_frame (s : State) (v : SecSt) : Frame ⟨[.sec], [], false⟩ s { s with sec := v } :=
  .local rfl rfl rfl rfl rfl fun p h => by cases p <;> first | rfl | exact absurd rfl (not_mem_one h)

theorem State.onSec_frame (s : State) (f : SecSt → SecSt) : Frame ⟨[.sec], [], false⟩ s (s.onSec f) := s.sec_frame _

theorem State.ldg_frame (s : State) (v : LdgSt) : Frame ⟨[.ldg], [], false⟩ s { s with ldg := v } :=
  .local rfl rfl rfl rfl rfl fun p h => by cases p <;> first | rfl | exact absurd rfl (not_mem_one h)

theorem State.onLdg_frame (s : State) (f : LdgSt → LdgSt) : Frame ⟨[.ldg], [], false⟩ s (s.onLdg f) := s.ldg_frame _

/-- An update of the collector's part that leaves the dies whose halt is owed. -/
theorem State.onFlt_frame (s : State) (f : FltSt → FltSt) (hf : (f s.flt).fatal = s.flt.fatal) :
    Frame ⟨[.flt], [], false⟩ s (s.onFlt f) :=
  .local rfl rfl rfl rfl rfl fun p h => by cases p <;> first | rfl | exact absurd rfl (not_mem_one h) | exact hf

theorem State.onFlt_fatal_frame (s : State) (f : FltSt → FltSt) : Frame ⟨[.flt, .fatal], [], false⟩ s (s.onFlt f) :=
  .local rfl rfl rfl rfl rfl fun p h => by cases p <;> first | rfl | simp at h

theorem State.took_frame (s : State) (n : Nat) : Frame ⟨[.fresh], [], false⟩ s (s.took n) where
  pending := rfl
  fresh := Nat.le_add_right _ _
  out := List.prefix_rfl
  wf := id
  distinct := id
  parts p h := by cases p <;> first | rfl | exact absurd rfl (not_mem_one h)
  words _ _ _ _ _ := rfl

theorem State.emit_frame (s : State) (o : Out) : Frame ⟨[.out], [], false⟩ s (s.emit o) where
  pending := rfl
  fresh := le_rfl
  out := List.prefix_append _ _
  wf := id
  distinct := id
  parts p h := by cases p <;> first | rfl | exact absurd rfl (not_mem_one h)
  words _ _ _ _ _ := rfl

theorem State.store_frame (s : State) (a : Nat) (bs : Bytes) : Frame ⟨[.mem], [], false⟩ s (s.store a bs) where
  pending := rfl
  fresh := le_rfl
  out := List.prefix_rfl
  wf h := State.wf_store h a bs
  distinct := id
  parts p h := by cases p <;> first | rfl | exact absurd rfl (not_mem_one h)
  words _ _ _ _ _ := rfl

theorem State.setWord_frame {K : Touch} (s : State) (r : Reg) (v : Word) (d i : Nat) (h : K.any = true ∨ r ∈ K.regs) :
    Frame K s (s.setWord r v d i) where
  pending := rfl
  fresh := le_rfl
  out := List.prefix_rfl
  wf := id
  distinct h := Regs.distinct_storeWord h _ _
  parts p _ := by cases p <;> rfl
  words a r' _ _ h' := State.word_setWord_reg fun e : r = r' => h' (e ▸ h.resolve_left (by simp [a]))

theorem State.put_frame {K : Touch} (s : State) (f : Fld) (v d i : Nat) (h : K.any = true ∨ f.reg ∈ K.regs) : Frame K s (s.put f v d i) :=
  s.setWord_frame _ _ _ _ h

theorem State.flag_frame {K : Touch} (s : State) (f : Fld) (d i : Nat) (h : K.any = true ∨ f.reg ∈ K.regs) : Frame K s (s.flag f d i) :=
  s.put_frame _ _ _ _ h

theorem State.bump_frame {K : Touch} (s : State) (f : Fld) (n d i : Nat) (h : K.any = true ∨ f.reg ∈ K.regs) : Frame K s (s.bump f n d i) :=
  s.put_frame _ _ _ _ h

theorem State.addWrap_frame {K : Touch} (s : State) (f : Fld) (n d i : Nat) (h : K.any = true ∨ f.reg ∈ K.regs) :
    Frame K s (s.addWrap f n d i) := s.put_frame _ _ _ _ h

/-- Registers that are set back to their reset values. -/
theorem State.filter_frame {K : Touch} (s : State) (keep : Loc × Word → Bool) (h : ∀ p, keep p = false → p.1.reg ∈ K.regs) :
    Frame K s { s with regs := s.regs.filter keep } where
  pending := rfl
  fresh := le_rfl
  out := List.prefix_rfl
  wf := id
  distinct hd := List.Nodup.sublist ((List.filter_sublist ..).map _) hd
  parts p _ := by cases p <;> rfl
  words _ r d i hr := by
    have : ∀ (rs : List (Loc × Word)) (l : Loc), l.reg ∉ K.regs → findWord l (rs.filter keep) = findWord l rs := by
      intro rs l hl
      induction rs with
      | nil => rfl
      | cons p rest ih =>
        obtain ⟨k, v⟩ := p
        by_cases hk : k = l
        · have : keep (k, v) = true := by
            by_contra hc
            exact hl (hk ▸ h (k, v) (by simpa using hc))
          subst hk
          simp [this, findWord]
        · cases hkp : keep (k, v) <;> simp [hkp, findWord, hk, ih]
    simp only [State.word]
    rw [this s.regs _ hr]

end Sys2Proof.Machine
end

