-- ==== Sys2Proof/Laws/FrameOps.lean ====
section
/-! SUPPORT. The footprints of the functions of Machine/Ops.lean. -/

namespace Sys2Proof.Machine

set_option Elab.async false

theorem State.checkJoined_frame (s : State) :
    Frame ⟨[], [.SEC_START], false⟩ s (State.checkJoined s) := by
  unfold State.checkJoined
  refine Frame.ite ?_ ?_
  · refine Frame.trans ?_ (State.flag_frame (h := ?_) _ _ _ _)
    · refine Frame.trans ?_ (State.put_frame (h := ?_) _ _ _ _ _)
      · exact Frame.refl _
      · decide +kernel
    · decide +kernel
  · exact Frame.refl _

theorem State.showRouting_frame (s : State) :
    Frame ⟨[], [.VRT_BANK], false⟩ s (State.showRouting s) := by
  unfold State.showRouting
  refine Frame.foldl fun t0 x0 => ?_
  refine Frame.trans ?_ (State.put_frame (h := ?_) _ _ _ _ _)
  · exact Frame.refl _
  · decide +kernel

end Sys2Proof.Machine
end

