-- ==== Sys2Proof/Laws/FrameOasis.lean ====
section
/-! SUPPORT. The footprints of the functions of Machine/Oasis.lean. -/

namespace Sys2Proof.Machine

set_option Elab.async false

theorem State.mendSectors_frame (s : State) (secs : List Nat) :
    Frame ⟨[.hbm, .oasis], [], false⟩ s (State.mendSectors s secs) := by
  unfold State.mendSectors
  refine Frame.step ?_ (State.onHbm_frame _ _)
  refine Frame.step ?_ (State.onOasis_frame _ _)
  exact Frame.refl _

theorem State.onLine_frame (s : State) (g : Nat) (f : OasisLine → OasisLine) :
    Frame ⟨[.oasis], [], false⟩ s (State.onLine s g f) := by
  unfold State.onLine
  refine Frame.step ?_ (State.onOasis_frame _ _)
  exact Frame.refl _

theorem State.useLine_frame (s : State) (g : Nat) :
    Frame ⟨[.oasis], [], false⟩ s (State.useLine s g) := by
  unfold State.useLine
  split
  · exact Frame.refl _
  · refine Frame.step ?_ (State.onOasis_frame _ _)
    exact Frame.refl _

theorem State.countAccess_frame (s : State) (g : Nat) (hit : Bool) :
    Frame ⟨[], [.OAS_HITS, .OAS_MISSES], false⟩ s (State.countAccess s g hit) := by
  unfold State.countAccess
  refine Frame.ite ?_ ?_
  · refine Frame.trans ?_ (State.bump_frame (h := ?_) _ _ _ _ _)
    · exact Frame.refl _
    · decide +kernel
  · refine Frame.trans ?_ (State.bump_frame (h := ?_) _ _ _ _ _)
    · exact Frame.refl _
    · decide +kernel

theorem State.controllerWrites_frame (s : State) (sectors : List Nat) :
    Frame ⟨[.hbm], [.HBC_WR_SECTORS], false⟩ s (State.controllerWrites s sectors) := by
  unfold State.controllerWrites
  refine Frame.foldl fun t0 x0 => ?_
  refine Frame.trans ?_ (State.bump_frame (h := ?_) _ _ _ _ _)
  · refine Frame.step ?_ (State.onHbm_frame _ _)
    exact Frame.refl _
  · decide +kernel

theorem State.evict_frame (s : State) (l : OasisLine) :
    Frame ⟨[.hbm, .oasis], [.HBC_WR_SECTORS, .OAS_WRITEBACKS], false⟩ s (State.evict s l) := by
  unfold State.evict
  (extract_lets +onlyGivenNames t0; refine Frame.via (t := t0) ?_ fun h0 => ?_; rotate_left; clear_value t0; rotate_left)
  · unfold t0
    refine Frame.step ?_ (State.onOasis_frame _ _)
    exact Frame.refl _
  · refine Frame.trans ?_ (State.bump_frame (h := ?_) _ _ _ _ _)
    · refine Frame.step ?_ (State.controllerWrites_frame _ _)
      exact h0
    · decide +kernel

theorem State.makeRoom_frame (s : State) (g : Nat) :
    Frame.OptFst ⟨[.fresh, .hbm, .oasis], [.HBC_WR_SECTORS, .OAS_WRITEBACKS], false⟩ s (State.makeRoom s g) := by
  unfold State.makeRoom
  extract_lets +onlyGivenNames t0
  extract_lets +onlyGivenNames t1
  extract_lets +onlyGivenNames t2
  extract_lets +onlyGivenNames t3
  split
  · refine Frame.OptFst.some ?_
    exact Frame.refl _
  · extract_lets +onlyGivenNames t4
    extract_lets +onlyGivenNames t5
    split
    · exact Frame.OptFst.none
    · refine Frame.OptFst.some ?_
      refine Frame.step ?_ (State.evict_frame _ _)
      refine Frame.step ?_ (State.took_frame _ _)
      exact Frame.refl _

theorem State.allocate_frame (s : State) (g : Nat) (valid : List Nat) (dirty : List Nat) :
    Frame ⟨[.fresh, .hbm, .oasis], [.HBC_WR_SECTORS, .OAS_WRITEBACKS], false⟩ s (State.allocate s g valid dirty) := by
  unfold State.allocate
  split
  · refine Frame.step ?_ (State.controllerWrites_frame _ _)
    exact Frame.refl _
  · refine Frame.step ?_ (State.onOasis_frame _ _)
    refine Frame.optFst (by assumption) ?_
    refine Frame.OptFst.step ?_ (State.makeRoom_frame _ _)
    exact Frame.refl _

theorem State.oasisWrite_frame (s : State) (g : Nat) (secs : List Nat) :
    Frame ⟨[.fresh, .hbm, .oasis], storeRegs, false⟩ s (State.oasisWrite s g secs) := by
  unfold State.oasisWrite
  split
  · extract_lets +onlyGivenNames t0
    refine Frame.step ?_ (State.onLine_frame _ _ _)
    refine Frame.step ?_ (State.useLine_frame _ _)
    refine Frame.step ?_ (State.countAccess_frame _ _ _)
    exact Frame.refl _
  · refine Frame.step ?_ (State.allocate_frame _ _ _ _)
    refine Frame.step ?_ (State.countAccess_frame _ _ _)
    exact Frame.refl _

theorem State.writeGranule_frame (s : State) (a : Nat) (data : Bytes) :
    Frame ⟨storeParts, storeRegs, false⟩ s (State.writeGranule s a data) := by
  unfold State.writeGranule
  extract_lets +onlyGivenNames t0
  (extract_lets +onlyGivenNames t1; refine Frame.via (t := t1) ?_ fun h1 => ?_; rotate_left; clear_value t1; rotate_left)
  · unfold t1
    refine Frame.step ?_ (State.store_frame _ _ _)
    refine Frame.step ?_ (State.mendSectors_frame _ _)
    exact Frame.refl _
  · refine Frame.ite ?_ ?_
    · refine Frame.step ?_ (State.oasisWrite_frame _ _ _)
      exact h1
    · refine Frame.ite ?_ ?_
      · refine Frame.step ?_ (State.controllerWrites_frame _ _)
        exact h1
      · exact h1

theorem State.writeSectors_frame (s : State) (a : Nat) (data : Bytes) :
    Frame ⟨storeParts, storeRegs, false⟩ s (State.writeSectors s a data) := by
  unfold State.writeSectors
  refine Frame.ite ?_ ?_
  · refine Frame.foldl fun t0 x0 => ?_
    refine Frame.step ?_ (State.writeGranule_frame _ _ _)
    exact Frame.refl _
  · exact Frame.refl _

theorem State.clearOasis_frame (s : State) :
    Frame ⟨[.oasis], [], false⟩ s (State.clearOasis s) := by
  unfold State.clearOasis
  refine Frame.step ?_ (State.onOasis_frame _ _)
  exact Frame.refl _

end Sys2Proof.Machine
end

