-- ==== Sys2Proof/Laws/FrameRecord.lean ====
section
/-! SUPPORT. The footprints of the functions of Machine/Record.lean. -/

namespace Sys2Proof.Machine

set_option Elab.async false

theorem State.setUnit_frame (s : State) (u : Nat) (x : UnitSt) :
    Frame ⟨[.sched], [], false⟩ s (State.setUnit s u x) := by
  unfold State.setUnit
  refine Frame.step ?_ (State.onSched_frame _ _)
  exact Frame.refl _

theorem State.onUnit_frame (s : State) (u : Nat) (f : UnitSt → UnitSt) :
    Frame ⟨[.sched], [], false⟩ s (State.onUnit s u f) := by
  unfold State.onUnit
  refine Frame.step ?_ (State.setUnit_frame _ _ _)
  exact Frame.refl _

theorem State.sendTc0_frame (s : State) (fd : Nat) (p : Packet) :
    Frame ⟨[.vrt], [], false⟩ s (State.sendTc0 s fd p) := by
  unfold State.sendTc0
  refine Frame.step ?_ (State.onVrt_frame _ _)
  exact Frame.refl _

theorem State.tc0To_frame (s : State) (fd : Nat) (dest : Nat) (destErg : Nat) (body : Bytes) :
    Frame ⟨[.vrt], [], false⟩ s (State.tc0To s fd dest destErg body) := by
  unfold State.tc0To
  refine Frame.step ?_ (State.sendTc0_frame _ _ _)
  exact Frame.refl _

theorem State.tc0Bcast_frame (s : State) (fd : Nat) (body : Bytes) :
    Frame ⟨[.vrt], [], false⟩ s (State.tc0Bcast s fd body) := by
  unfold State.tc0Bcast
  refine Frame.step ?_ (State.sendTc0_frame _ _ _)
  exact Frame.refl _

theorem State.queueRecord_frame (s : State) (r : FaultRec) :
    Frame ⟨storeParts, storeRegs ++ [Reg.FLT_QPTR], false⟩ s (State.queueRecord s r) := by
  unfold State.queueRecord
  extract_lets +onlyGivenNames t0
  extract_lets +onlyGivenNames t1
  refine Frame.trans ?_ (State.addWrap_frame (h := ?_) _ _ _ _ _)
  · refine Frame.step ?_ (State.writeSectors_frame _ _ _)
    exact Frame.refl _
  · decide +kernel

theorem State.wadiRecord_frame (s : State) (slot : Nat) (r : FaultRec) :
    Frame ⟨storeParts ++ [Part.flt], storeRegs ++ [Reg.FLT_STATUS], false⟩ s (State.wadiRecord s slot r) := by
  unfold State.wadiRecord
  extract_lets +onlyGivenNames t0
  (extract_lets +onlyGivenNames t1; refine Frame.via (t := t1) ?_ fun h1 => ?_; rotate_left; clear_value t1; rotate_left)
  · unfold t1
    refine Frame.step ?_ (State.onFlt_frame _ _ rfl)
    refine Frame.step ?_ (State.writeSectors_frame _ _ _)
    exact Frame.refl _
  · refine Frame.trans ?_ (State.flag_frame (h := ?_) _ _ _ _)
    · refine Frame.trans ?_ (State.put_frame (h := ?_) _ _ _ _ _)
      · exact h1
      · decide +kernel
    · decide +kernel

theorem State.placeRecord_frame (s : State) (r : FaultRec) (own : Bool) :
    Frame ⟨storeParts ++ [Part.sched, Part.flt], storeRegs ++ [Reg.FLT_EVENTS, Reg.FLT_QPTR, Reg.FLT_STATUS, Reg.FLT_UNPLACED], false⟩ s
    (State.placeRecord s r own) := by
  unfold State.placeRecord
  extract_lets +onlyGivenNames t0
  extract_lets +onlyGivenNames t1
  (extract_lets +onlyGivenNames t2; refine Frame.via (t := t2) ?_ fun h2 => ?_; rotate_left; clear_value t2; rotate_left)
  · unfold t2
    refine Frame.ite ?_ ?_
    · refine Frame.trans ?_ (State.flag_frame (h := ?_) _ _ _ _)
      · exact Frame.refl _
      · decide +kernel
    · exact Frame.refl _
  · refine Frame.ite ?_ ?_
    · refine Frame.step ?_ (State.queueRecord_frame _ _)
      exact h2
    · refine Frame.ite ?_ ?_
      · refine Frame.ite ?_ ?_
        · refine Frame.step ?_ (State.onUnit_frame _ _ _)
          exact h2
        · refine Frame.step ?_ (State.wadiRecord_frame _ _ _)
          exact h2
      · split
        · refine Frame.step ?_ (State.wadiRecord_frame _ _ _)
          exact h2
        · refine Frame.trans ?_ (State.flag_frame (h := ?_) _ _ _ _)
          · refine Frame.trans ?_ (State.bump_frame (h := ?_) _ _ _ _ _)
            · exact h2
            · decide +kernel
          · decide +kernel

theorem State.forwardRecord_frame (s : State) (r : FaultRec) :
    Frame ⟨[.vrt], [], false⟩ s (State.forwardRecord s r) := by
  unfold State.forwardRecord
  refine Frame.ite ?_ ?_
  · refine Frame.step ?_ (State.tc0To_frame _ _ _ _ _)
    exact Frame.refl _
  · exact Frame.refl _

theorem State.writeRecord_frame (s : State) (r : FaultRec) :
    Frame ⟨storeParts ++ [Part.sched, Part.vrt, Part.flt], storeRegs ++ [Reg.FLT_EVENTS, Reg.FLT_QPTR, Reg.FLT_STATUS, Reg.FLT_UNPLACED], false⟩ s
    (State.writeRecord s r) := by
  unfold State.writeRecord
  refine Frame.step ?_ (State.placeRecord_frame _ _ _)
  refine Frame.step ?_ (State.forwardRecord_frame _ _)
  exact Frame.refl _

theorem State.makeFatal_frame (s : State) (die : Nat) (cause : Nat) :
    Frame ⟨[.flt, .fatal], [.FLT_DIE_HEALTH], false⟩ s (State.makeFatal s die cause) := by
  unfold State.makeFatal
  refine Frame.ite ?_ ?_
  · exact Frame.refl _
  · refine Frame.step ?_ (State.onFlt_fatal_frame _ _)
    refine Frame.trans ?_ (State.put_frame (h := ?_) _ _ _ _ _)
    · refine Frame.trans ?_ (State.flag_frame (h := ?_) _ _ _ _)
      · exact Frame.refl _
      · decide +kernel
    · decide +kernel

theorem State.fence_frame (s : State) (die : Nat) :
    Frame ⟨[.flt, .fatal], [.FLT_DIE_HEALTH, .FLT_HABOOB], false⟩ s (State.fence s die) := by
  unfold State.fence
  (extract_lets +onlyGivenNames t0; refine Frame.via (t := t0) ?_ fun h0 => ?_; rotate_left; clear_value t0; rotate_left)
  · unfold t0
    refine Frame.trans ?_ (State.flag_frame (h := ?_) _ _ _ _)
    · refine Frame.trans ?_ (State.flag_frame (h := ?_) _ _ _ _)
      · exact Frame.refl _
      · decide +kernel
    · decide +kernel
  · refine Frame.ite ?_ ?_
    · exact h0
    · refine Frame.step ?_ (State.makeFatal_frame _ _ _)
      exact h0

theorem State.coalesceRecord_frame (s : State) (r : FaultRec) :
    Frame ⟨[.flt], [.FLT_HABOOB], false⟩ s (State.coalesceRecord s r) := by
  unfold State.coalesceRecord
  extract_lets +onlyGivenNames t0
  extract_lets +onlyGivenNames t1
  extract_lets +onlyGivenNames t2
  extract_lets +onlyGivenNames t3
  refine Frame.ite ?_ ?_
  · refine Frame.step ?_ (State.onFlt_frame _ _ rfl)
    exact Frame.refl _
  · refine Frame.ite ?_ ?_
    · refine Frame.step ?_ (State.onFlt_frame _ _ rfl)
      exact Frame.refl _
    · (extract_lets +onlyGivenNames t4; refine Frame.via (t := t4) ?_ fun h4 => ?_; rotate_left; clear_value t4; rotate_left)
      · unfold t4
        refine Frame.trans ?_ (State.flag_frame (h := ?_) _ _ _ _)
        · exact Frame.refl _
        · decide +kernel
      · refine Frame.ite ?_ ?_
        · refine Frame.step ?_ (State.onFlt_frame _ _ rfl)
          exact h4
        · refine Frame.step ?_ (State.onFlt_frame _ _ rfl)
          exact h4

theorem State.collect_frame (s : State) (r : FaultRec) :
    Frame ⟨recordParts, recordRegs, false⟩ s (State.collect s r) := by
  unfold State.collect
  extract_lets +onlyGivenNames t0
  (extract_lets +onlyGivenNames t1; refine Frame.via (t := t1) ?_ fun h1 => ?_; rotate_left; clear_value t1; rotate_left)
  · unfold t1
    refine Frame.trans ?_ (State.bump_frame (h := ?_) _ _ _ _ _)
    · refine Frame.trans ?_ (State.bump_frame (h := ?_) _ _ _ _ _)
      · exact Frame.refl _
      · decide +kernel
    · decide +kernel
  · (extract_lets +onlyGivenNames t2; refine Frame.via (t := t2) ?_ fun h2 => ?_; rotate_left; clear_value t2; rotate_left)
    · unfold t2
      refine Frame.trans ?_ (State.put_frame (h := ?_) _ _ _ _ _)
      · exact h1
      · decide +kernel
    · (extract_lets +onlyGivenNames t3; refine Frame.via (t := t3) ?_ fun h3 => ?_; rotate_left; clear_value t3; rotate_left)
      · unfold t3
        refine Frame.ite ?_ ?_
        · refine Frame.trans ?_ (State.flag_frame (h := ?_) _ _ _ _)
          · refine Frame.trans ?_ (State.flag_frame (h := ?_) _ _ _ _)
            · exact h2
            · decide +kernel
          · decide +kernel
        · exact h2
      · (extract_lets +onlyGivenNames t4; refine Frame.via (t := t4) ?_ fun h4 => ?_; rotate_left; clear_value t4; rotate_left)
        · unfold t4
          refine Frame.ite ?_ ?_
          · refine Frame.step ?_ (State.fence_frame _ _)
            exact h3
          · exact h3
        · refine Frame.ite ?_ ?_
          · exact h4
          · refine Frame.ite ?_ ?_
            · refine Frame.step ?_ (State.coalesceRecord_frame _ _)
              exact h4
            · refine Frame.step ?_ (State.writeRecord_frame _ _)
              exact h4

theorem State.faultOf_frame (s : State) (u : Nat) (cause : Nat) (f : optParam (FaultRec → FaultRec) id) :
    Frame ⟨recordParts, recordRegs, false⟩ s (State.faultOf s u cause f) := by
  unfold State.faultOf
  refine Frame.step ?_ (State.collect_frame _ _)
  exact Frame.refl _

theorem State.interruptTo_frame (s : State) (hart : Nat) (id : Nat) :
    Frame ⟨[.imsic], [], false⟩ s (State.interruptTo s hart id) := by
  unfold State.interruptTo
  refine Frame.ite ?_ ?_
  · refine Frame.step ?_ (State.imsic_frame _ _)
    exact Frame.refl _
  · exact Frame.refl _

theorem State.ledgerSlot_frame (s : State) (slot : Nat) (phase : Bool) (r : LedgerRec) :
    Frame ⟨storeParts, storeRegs, false⟩ s (State.ledgerSlot s slot phase r) := by
  unfold State.ledgerSlot
  refine Frame.step ?_ (State.writeSectors_frame _ _ _)
  exact Frame.refl _

theorem State.ledger_frame (s : State) (r : LedgerRec) :
    Frame ⟨storeParts ++ [Part.ldg], ledgerRegs, false⟩ s (State.ledger s r) := by
  unfold State.ledger
  refine Frame.ite ?_ ?_
  · exact Frame.refl _
  · extract_lets +onlyGivenNames t0
    (extract_lets +onlyGivenNames t1; refine Frame.via (t := t1) ?_ fun h1 => ?_; rotate_left; clear_value t1; rotate_left)
    · unfold t1
      refine Frame.step ?_ (State.onLdg_frame _ _)
      exact Frame.refl _
    · refine Frame.ite ?_ ?_
      · extract_lets +onlyGivenNames t2
        refine Frame.step ?_ (State.onLdg_frame _ _)
        refine Frame.trans ?_ (State.addWrap_frame (h := ?_) _ _ _ _ _)
        · refine Frame.step ?_ (State.ledgerSlot_frame _ _ _ _)
          exact h1
        · decide +kernel
      · refine Frame.ite ?_ ?_
        · refine Frame.trans ?_ (State.flag_frame (h := ?_) _ _ _ _)
          · refine Frame.trans ?_ (State.bump_frame (h := ?_) _ _ _ _ _)
            · exact h1
            · decide +kernel
          · decide +kernel
        · split
          · extract_lets +onlyGivenNames t3
            refine Frame.step ?_ (State.onLdg_frame _ _)
            refine Frame.trans ?_ (State.flag_frame (h := ?_) _ _ _ _)
            · refine Frame.step ?_ (State.ledgerSlot_frame _ _ _ _)
              exact h1
            · decide +kernel
          · refine Frame.trans ?_ (State.flag_frame (h := ?_) _ _ _ _)
            · refine Frame.trans ?_ (State.bump_frame (h := ?_) _ _ _ _ _)
              · exact h1
              · decide +kernel
            · decide +kernel

theorem State.flushCoalesced_frame (s : State) :
    Frame ⟨storeParts ++ [Part.sched, Part.vrt, Part.flt], storeRegs ++ [Reg.FLT_EVENTS, Reg.FLT_QPTR, Reg.FLT_STATUS, Reg.FLT_UNPLACED], false⟩ s
    (State.flushCoalesced s) := by
  unfold State.flushCoalesced
  extract_lets +onlyGivenNames t0
  refine Frame.trans ?_ (Frame.foldl fun t1 x1 => ?_)
  · refine Frame.step ?_ (State.onFlt_frame _ _ rfl)
    exact Frame.refl _
  · refine Frame.step ?_ (State.writeRecord_frame _ _)
    exact Frame.refl _

end Sys2Proof.Machine
end

