-- ==== Sys2Proof/Laws/FrameMem.lean ====
section
/-! SUPPORT. The footprints of the functions of Machine/Mem.lean. -/

namespace Sys2Proof.Machine

set_option Elab.async false

theorem State.residue_frame (s : State) (sector : Nat) (e : Nat) :
    Frame ⟨[.mem, .hbm], [], false⟩ s (State.residue s sector e) := by
  unfold State.residue
  (extract_lets +onlyGivenNames t0; refine Frame.via (t := t0) ?_ fun h0 => ?_; rotate_left; clear_value t0; rotate_left)
  · unfold t0
    refine Frame.step ?_ (State.onHbm_frame _ _)
    exact Frame.refl _
  · extract_lets +onlyGivenNames t1
    refine Frame.ite ?_ ?_
    · exact h0
    · extract_lets +onlyGivenNames t2
      extract_lets +onlyGivenNames t3
      split
      · refine Frame.step ?_ (State.store_frame _ _ _)
        exact h0
      · extract_lets +onlyGivenNames t4
        refine Frame.step ?_ (State.store_frame _ _ _)
        exact h0

theorem State.holderRecord_frame (s : State) (u : Nat) (cause : Nat) (sector : Nat) (write : Bool) :
    Frame ⟨recordParts, recordRegs, false⟩ s (State.holderRecord s u cause sector write) := by
  unfold State.holderRecord
  refine Frame.step ?_ (State.faultOf_frame _ _ _ _)
  exact Frame.refl _

theorem State.rowRoom_frame (s : State) (stack : Nat) :
    Frame ⟨[.hbm], [], false⟩ s (State.rowRoom s stack) := by
  unfold State.rowRoom
  extract_lets +onlyGivenNames t0
  refine Frame.ite ?_ ?_
  · exact Frame.refl _
  · split
    · exact Frame.refl _
    · refine Frame.step ?_ (State.onHbm_frame _ _)
      exact Frame.refl _

theorem State.startRemap_frame (s : State) (stack : Nat) (row : Nat) :
    Frame ⟨[.hbm], [.HBC_EVENTS], false⟩ s (State.startRemap s stack row) := by
  unfold State.startRemap
  refine Frame.ite ?_ ?_
  · refine Frame.step ?_ (State.onHbm_frame _ _)
    exact Frame.refl _
  · refine Frame.trans ?_ (State.flag_frame (h := ?_) _ _ _ _)
    · exact Frame.refl _
    · decide +kernel

theorem State.countRow_frame (s : State) (stack : Nat) (row : Nat) :
    Frame ⟨[.hbm], [.HBC_EVENTS], false⟩ s (State.countRow s stack row) := by
  unfold State.countRow
  extract_lets +onlyGivenNames t0
  (extract_lets +onlyGivenNames t1; refine Frame.via (t := t1) ?_ fun h1 => ?_)
  · unfold t1
    split
    · refine Frame.step ?_ (State.onHbm_frame _ _)
      exact Frame.refl _
    · refine Frame.step ?_ (State.onHbm_frame _ _)
      refine Frame.step ?_ (State.rowRoom_frame _ _)
      exact Frame.refl _
  · extract_lets +onlyGivenNames t2
    refine Frame.ite ?_ ?_
    · refine Frame.step ?_ (State.startRemap_frame _ _ _)
      unfold t1
      split
      · refine Frame.step ?_ (State.onHbm_frame _ _)
        exact Frame.refl _
      · refine Frame.step ?_ (State.onHbm_frame _ _)
        refine Frame.step ?_ (State.rowRoom_frame _ _)
        exact Frame.refl _
    · unfold t1
      split
      · refine Frame.step ?_ (State.onHbm_frame _ _)
        exact Frame.refl _
      · refine Frame.step ?_ (State.onHbm_frame _ _)
        refine Frame.step ?_ (State.rowRoom_frame _ _)
        exact Frame.refl _

theorem State.corrected_frame (s : State) (sector : Nat) (rest : Nat) :
    Frame ⟨recordParts, recordRegs ++ [Reg.HBC_COUNTS, Reg.HBC_EVENTS], false⟩ s (State.corrected s sector rest) := by
  unfold State.corrected
  extract_lets +onlyGivenNames t0
  extract_lets +onlyGivenNames t1
  (extract_lets +onlyGivenNames t2; refine Frame.via (t := t2) ?_ fun h2 => ?_; rotate_left; clear_value t2; rotate_left)
  · unfold t2
    refine Frame.trans ?_ (State.flag_frame (h := ?_) _ _ _ _)
    · refine Frame.trans ?_ (State.bump_frame (h := ?_) _ _ _ _ _)
      · refine Frame.step ?_ (State.residue_frame _ _ _)
        exact Frame.refl _
      · decide +kernel
    · decide +kernel
  · (extract_lets +onlyGivenNames t3; refine Frame.via (t := t3) ?_ fun h3 => ?_; rotate_left; clear_value t3; rotate_left)
    · unfold t3
      refine Frame.ite ?_ ?_
      · exact h2
      · refine Frame.step ?_ (State.holderRecord_frame _ _ _ _ _)
        refine Frame.step ?_ (State.onHbm_frame _ _)
        exact h2
    · refine Frame.step ?_ (State.countRow_frame _ _ _)
      exact h3

theorem State.uncorrectable_frame (s : State) (sector : Nat) (misaddress : Bool) (write : Bool) :
    Frame ⟨recordParts, recordRegs ++ [Reg.HBC_COUNTS, Reg.HBC_EVENTS, Reg.HBC_UE_ADDR], false⟩ s (State.uncorrectable s sector
    misaddress write) := by
  unfold State.uncorrectable
  extract_lets +onlyGivenNames t0
  (extract_lets +onlyGivenNames t1; refine Frame.via (t := t1) ?_ fun h1 => ?_; rotate_left; clear_value t1; rotate_left)
  · unfold t1
    refine Frame.trans ?_ (State.flag_frame (h := ?_) _ _ _ _)
    · refine Frame.trans ?_ (State.flag_frame (h := ?_) _ _ _ _)
      · refine Frame.trans ?_ (State.bump_frame (h := ?_) _ _ _ _ _)
        · exact Frame.refl _
        · decide +kernel
      · decide +kernel
    · decide +kernel
  · (extract_lets +onlyGivenNames t2; refine Frame.via (t := t2) ?_ fun h2 => ?_; rotate_left; clear_value t2; rotate_left)
    · unfold t2
      refine Frame.trans ?_ (State.put_frame (h := ?_) _ _ _ _ _)
      · exact h1
      · decide +kernel
    · (extract_lets +onlyGivenNames t3; refine Frame.via (t := t3) ?_ fun h3 => ?_; rotate_left; clear_value t3; rotate_left)
      · unfold t3
        refine Frame.ite ?_ ?_
        · refine Frame.trans ?_ (State.flag_frame (h := ?_) _ _ _ _)
          · exact h2
          · decide +kernel
        · exact h2
      · refine Frame.step ?_ (State.holderRecord_frame _ _ _ _ _)
        exact h3

theorem State.checkHbm_frame (s : State) (sector : Nat) (write : optParam Bool false) :
    Frame ⟨recordParts, recordRegs ++ [Reg.HBC_COUNTS, Reg.HBC_EVENTS, Reg.HBC_UE_ADDR], false⟩ s (State.checkHbm s sector write).1
    := by
  show Frame.Fst _ _ _
  unfold State.checkHbm
  split
  · refine Frame.Fst.mk ?_
    exact Frame.refl _
  · split
    · refine Frame.Fst.mk ?_
      refine Frame.step ?_ (State.residue_frame _ _ _)
      exact Frame.refl _
    · refine Frame.Fst.mk ?_
      refine Frame.step ?_ (State.corrected_frame _ _ _)
      exact Frame.refl _
    · refine Frame.Fst.mk ?_
      refine Frame.step ?_ (State.uncorrectable_frame _ _ _ _)
      exact Frame.refl _
    · refine Frame.Fst.mk ?_
      refine Frame.step ?_ (State.uncorrectable_frame _ _ _ _)
      exact Frame.refl _

theorem State.readHbm_frame (s : State) (sector : Nat) (write : optParam Bool false) :
    Frame ⟨recordParts, readRegs, false⟩ s (State.readHbm s sector write).1 := by
  show Frame.Fst _ _ _
  unfold State.readHbm
  refine Frame.Fst.step ?_ (State.checkHbm_frame _ _ _)
  refine Frame.trans ?_ (State.bump_frame (h := ?_) _ _ _ _ _)
  · exact Frame.refl _
  · decide +kernel

theorem State.readHbmAll_frame (s : State) (sectors : List Nat) (write : optParam Bool false) :
    Frame ⟨recordParts, readRegs, false⟩ s (State.readHbmAll s sectors write).1 := by
  show Frame.Fst _ _ _
  unfold State.readHbmAll
  refine Frame.Fst.foldl ?_ fun t0 x0 y0 => ?_
  · refine Frame.Fst.mk ?_
    exact Frame.refl _
  · split
    refine Frame.Fst.mk ?_
    refine Frame.fst (by assumption) ?_
    change Frame.Fst _ _ _
    refine Frame.Fst.step ?_ (State.readHbm_frame _ _ _)
    change Frame.Fst _ _ _
    refine Frame.Fst.mk ?_
    exact Frame.refl _

theorem State.fetchLine_frame (s : State) (g : Nat) (write : Bool) :
    Frame ⟨recordParts, readRegs, false⟩ s (State.fetchLine s g write) := by
  unfold State.fetchLine
  split
  · extract_lets +onlyGivenNames t0
    split
    extract_lets +onlyGivenNames t1
    refine Frame.step ?_ (State.onLine_frame _ _ _)
    refine Frame.fst (by assumption) ?_
    change Frame.Fst _ _ _
    refine Frame.Fst.step ?_ (State.readHbmAll_frame _ _ _)
    exact Frame.refl _
  · split
    refine Frame.step ?_ (State.allocate_frame _ _ _ _)
    refine Frame.fst (by assumption) ?_
    change Frame.Fst _ _ _
    refine Frame.Fst.step ?_ (State.readHbmAll_frame _ _ _)
    exact Frame.refl _

theorem State.readCached_frame (s : State) (g : Nat) (secs : List Nat) (write : optParam Bool false) :
    Frame ⟨recordParts, readRegs, false⟩ s (State.readCached s g secs write).1 := by
  show Frame.Fst _ _ _
  unfold State.readCached
  extract_lets +onlyGivenNames t0
  extract_lets +onlyGivenNames t1
  (extract_lets +onlyGivenNames t2; refine Frame.Fst.via (t := t2) ?_ fun h2 => ?_; rotate_left; clear_value t2; rotate_left)
  · unfold t2
    refine Frame.step ?_ (State.countAccess_frame _ _ _)
    exact Frame.refl _
  · (extract_lets +onlyGivenNames t3; refine Frame.Fst.via (t := t3) ?_ fun h3 => ?_; rotate_left; clear_value t3; rotate_left)
    · unfold t3
      refine Frame.ite ?_ ?_
      · refine Frame.step ?_ (State.useLine_frame _ _)
        exact h2
      · refine Frame.step ?_ (State.fetchLine_frame _ _ _)
        exact h2
    · extract_lets +onlyGivenNames t4
      extract_lets +onlyGivenNames t5
      refine Frame.Fst.ite ?_ ?_
      · split
        refine Frame.Fst.mk ?_
        refine Frame.fst (by assumption) ?_
        change Frame.Fst _ _ _
        refine Frame.Fst.step ?_ (State.readHbmAll_frame _ _ _)
        exact h3
      · (clear_value t4; split)
        · refine Frame.Fst.mk ?_
          refine Frame.step ?_ (State.holderRecord_frame _ _ _ _ _)
          exact h3
        · refine Frame.Fst.mk ?_
          exact h3

theorem State.readGranule_frame (s : State) (a : Nat) (n : Nat) (write : optParam Bool false) :
    Frame ⟨recordParts, readRegs, false⟩ s (State.readGranule s a n write).1 := by
  show Frame.Fst _ _ _
  unfold State.readGranule
  extract_lets +onlyGivenNames t0
  split
  · refine Frame.Fst.ite ?_ ?_
    · refine Frame.Fst.step ?_ (State.readCached_frame _ _ _ _)
      exact Frame.refl _
    · split
      refine Frame.Fst.mk ?_
      refine Frame.fst (by assumption) ?_
      change Frame.Fst _ _ _
      refine Frame.Fst.step ?_ (State.readHbmAll_frame _ _ _)
      exact Frame.refl _
  · split
    · refine Frame.Fst.mk ?_
      refine Frame.step ?_ (State.holderRecord_frame _ _ _ _ _)
      exact Frame.refl _
    · refine Frame.Fst.mk ?_
      exact Frame.refl _
  · split
    · refine Frame.Fst.mk ?_
      refine Frame.step ?_ (State.holderRecord_frame _ _ _ _ _)
      exact Frame.refl _
    · refine Frame.Fst.mk ?_
      exact Frame.refl _
  · refine Frame.Fst.mk ?_
    exact Frame.refl _

theorem State.writeMasked_frame (s : State) (a : Nat) (data : Bytes) (mask : List Bool) :
    Frame ⟨recordParts, readRegs, false⟩ s (State.writeMasked s a data mask).1 := by
  show Frame.Fst _ _ _
  unfold State.writeMasked
  split
  refine Frame.Fst.ite ?_ ?_
  · refine Frame.Fst.mk ?_
    refine Frame.fst (by assumption) ?_
    change Frame.Fst _ _ _
    refine Frame.Fst.step ?_ (State.readGranule_frame _ _ _ _)
    exact Frame.refl _
  · (extract_lets +onlyGivenNames t0; refine Frame.Fst.via (t := t0) ?_ fun h0 => ?_; rotate_left; clear_value t0; rotate_left)
    · unfold t0
      refine Frame.step ?_ (State.store_frame _ _ _)
      refine Frame.fst (by assumption) ?_
      change Frame.Fst _ _ _
      refine Frame.Fst.step ?_ (State.readGranule_frame _ _ _ _)
      exact Frame.refl _
    · refine Frame.Fst.ite ?_ ?_
      · split
        · refine Frame.Fst.mk ?_
          refine Frame.step ?_ (State.onLine_frame _ _ _)
          exact h0
        · refine Frame.Fst.mk ?_
          refine Frame.step ?_ (State.controllerWrites_frame _ _)
          exact h0
      · refine Frame.Fst.ite ?_ ?_
        · refine Frame.Fst.mk ?_
          refine Frame.step ?_ (State.controllerWrites_frame _ _)
          exact h0
        · refine Frame.Fst.mk ?_
          exact h0

theorem State.writePart_frame (s : State) (a : Nat) (data : Bytes) :
    Frame ⟨recordParts, readRegs, false⟩ s (State.writePart s a data).1 := by
  show Frame.Fst _ _ _
  unfold State.writePart
  refine Frame.Fst.step ?_ (State.writeMasked_frame _ _ _ _)
  exact Frame.refl _

theorem State.writeSpan_frame (s : State) (a : Nat) (data : Bytes) :
    Frame ⟨recordParts, readRegs, false⟩ s (State.writeSpan s a data).1 := by
  show Frame.Fst _ _ _
  unfold State.writeSpan
  refine Frame.Fst.foldl ?_ fun t0 x0 y0 => ?_
  · refine Frame.Fst.mk ?_
    exact Frame.refl _
  · extract_lets +onlyGivenNames t1
    refine Frame.Fst.ite ?_ ?_
    · refine Frame.Fst.mk ?_
      refine Frame.step ?_ (State.writeGranule_frame _ _ _)
      change Frame.Fst _ _ _
      refine Frame.Fst.mk ?_
      exact Frame.refl _
    · split
      refine Frame.Fst.mk ?_
      refine Frame.fst (by assumption) ?_
      change Frame.Fst _ _ _
      refine Frame.Fst.step ?_ (State.writePart_frame _ _ _)
      change Frame.Fst _ _ _
      refine Frame.Fst.mk ?_
      exact Frame.refl _

theorem State.disturb_frame (s : State) (f : Flip) :
    Frame ⟨recordParts, recordRegs ++ [Reg.OAS_COUNTS, Reg.OAS_EVENTS], false⟩ s (State.disturb s f) := by
  unfold State.disturb
  extract_lets +onlyGivenNames t0
  (extract_lets +onlyGivenNames t1; refine Frame.via (t := t1) ?_ fun h1 => ?_; rotate_left; clear_value t1; rotate_left)
  · unfold t1
    refine Frame.ite ?_ ?_
    · refine Frame.step ?_ (State.onHbm_frame _ _)
      exact Frame.refl _
    · exact Frame.refl _
  · extract_lets +onlyGivenNames t2
    extract_lets +onlyGivenNames t3
    extract_lets +onlyGivenNames t4
    split
    · exact h1
    · refine Frame.step ?_ (State.holderRecord_frame _ _ _ _ _)
      exact h1
    · refine Frame.step ?_ (State.onHbm_frame _ _)
      exact h1
    · exact h1
    · refine Frame.step ?_ (State.onOasis_frame _ _)
      exact h1
    · refine Frame.ite ?_ ?_
      · refine Frame.ite ?_ ?_
        · refine Frame.trans ?_ (State.flag_frame (h := ?_) _ _ _ _)
          · refine Frame.trans ?_ (State.bump_frame (h := ?_) _ _ _ _ _)
            · exact h1
            · decide +kernel
          · decide +kernel
        · (extract_lets +onlyGivenNames t5; refine Frame.via (t := t5) ?_ fun h5 => ?_; rotate_left; clear_value t5; rotate_left)
          · unfold t5
            refine Frame.trans ?_ (State.bump_frame (h := ?_) _ _ _ _ _)
            · exact h1
            · decide +kernel
          · refine Frame.ite ?_ ?_
            · refine Frame.step ?_ (State.onLine_frame _ _ _)
              refine Frame.trans ?_ (State.flag_frame (h := ?_) _ _ _ _)
              · exact h5
              · decide +kernel
            · refine Frame.step ?_ (State.onOasis_frame _ _)
              refine Frame.trans ?_ (State.flag_frame (h := ?_) _ _ _ _)
              · exact h5
              · decide +kernel
      · exact h1

theorem State.disturbAll_frame (s : State) (a : Nat) (n : Nat) (flips : List Flip) :
    Frame ⟨recordParts, recordRegs ++ [Reg.OAS_COUNTS, Reg.OAS_EVENTS], false⟩ s (State.disturbAll s a n flips) := by
  unfold State.disturbAll
  refine Frame.foldl fun t0 x0 => ?_
  refine Frame.step ?_ (State.disturb_frame _ _)
  exact Frame.refl _

theorem State.readSpan_frame (s : State) (a : Nat) (n : Nat) :
    Frame ⟨recordParts, readRegs, false⟩ s (State.readSpan s a n).1 := by
  show Frame.Fst _ _ _
  unfold State.readSpan
  refine Frame.Fst.foldl ?_ fun t0 x0 y0 => ?_
  · refine Frame.Fst.mk ?_
    exact Frame.refl _
  · split
    refine Frame.Fst.mk ?_
    refine Frame.fst (by assumption) ?_
    change Frame.Fst _ _ _
    refine Frame.Fst.step ?_ (State.readGranule_frame _ _ _ _)
    change Frame.Fst _ _ _
    refine Frame.Fst.mk ?_
    exact Frame.refl _

end Sys2Proof.Machine
end

