-- ==== Sys2Proof/Laws/FramePci.lean ====
section
/-! SUPPORT. The footprints of the functions of Machine/Pci.lean. -/

namespace Sys2Proof.Machine

set_option Elab.async false

theorem State.sendPci_frame (s : State) (unit : Option Nat) (org : Nat) (a : Nat) (write : Bool) (len : Nat) (data : Bytes) :
    Frame ⟨[.out, .rem, .pci], [], false⟩ s (State.sendPci s unit org a write len data).1 := by
  show Frame.Fst _ _ _
  unfold State.sendPci
  extract_lets +onlyGivenNames t0
  split
  · refine Frame.Fst.mk ?_
    exact Frame.refl _
  · refine Frame.Fst.ite ?_ ?_
    · refine Frame.Fst.mk ?_
      exact Frame.refl _
    · extract_lets +onlyGivenNames t1
      (extract_lets +onlyGivenNames t2; refine Frame.Fst.via (t := t2) ?_ fun h2 => ?_; rotate_left; clear_value t2; rotate_left)
      · unfold t2
        refine Frame.step ?_ (State.onRem_frame _ _)
        refine Frame.step ?_ (State.emit_frame _ _)
        exact Frame.refl _
      · refine Frame.Fst.ite ?_ ?_
        · refine Frame.Fst.mk ?_
          exact h2
        · refine Frame.Fst.mk ?_
          refine Frame.step ?_ (State.onPci_frame _ _)
          exact h2

end Sys2Proof.Machine
end

