-- ==== Sys2Proof/Laws/FrameXlate.lean ====
section
/-! SUPPORT. The footprints of the functions of Machine/Xlate.lean. -/

namespace Sys2Proof.Machine

set_option Elab.async false

theorem State.sendRemote_frame (s : State) (u : Nat) (pa : Nat) (len : Nat) (opcode : Nat) (data : Bytes) :
    Frame ⟨[.vrt, .rem], [.VRT_EVENTS], false⟩ s (State.sendRemote s u pa len opcode data).1 := by
  show Frame.Fst _ _ _
  unfold State.sendRemote
  extract_lets +onlyGivenNames t0
  refine Frame.Fst.ite ?_ ?_
  · refine Frame.Fst.mk ?_
    refine Frame.ite ?_ ?_
    · exact Frame.refl _
    · refine Frame.trans ?_ (State.flag_frame (h := ?_) _ _ _ _)
      · exact Frame.refl _
      · decide +kernel
  · extract_lets +onlyGivenNames t1
    extract_lets +onlyGivenNames t2
    refine Frame.Fst.mk ?_
    refine Frame.step ?_ (State.onVrt_frame _ _)
    refine Frame.step ?_ (State.onRem_frame _ _)
    exact Frame.refl _

theorem State.writePhysical_frame (r : ReadResult) (u : Nat) (pa : Nat) (data : Bytes) :
    Frame ⟨recordParts ++ [Part.out, Part.rem, Part.pci], accessRegs, false⟩ r.state (State.writePhysical r u pa data).state := by
  change Frame.At ReadResult.state _ _ _
  unfold State.writePhysical
  split
  · exact Frame.refl _
  · (extract_lets +onlyGivenNames t0; refine Frame.At.via (t := t0) ?_ fun h0 => ?_; rotate_left; clear_value t0; rotate_left)
    · unfold t0
      exact Frame.refl _
    · extract_lets +onlyGivenNames t1
      refine Frame.At.ite ?_ ?_
      · refine Frame.At.ite ?_ ?_
        · split
          · (change Frame _ _ _; dsimp only)
            refine Frame.fst (by assumption) ?_
            change Frame.Fst _ _ _
            refine Frame.Fst.step ?_ (State.sendPci_frame _ _ _ _ _ _ _)
            exact h0
          · (change Frame _ _ _; dsimp only)
            refine Frame.fst (by assumption) ?_
            change Frame.Fst _ _ _
            refine Frame.Fst.step ?_ (State.sendPci_frame _ _ _ _ _ _ _)
            exact h0
        · refine Frame.At.ite ?_ ?_
          · split
            (change Frame _ _ _; dsimp only)
            refine Frame.fst (by assumption) ?_
            change Frame.Fst _ _ _
            refine Frame.Fst.step ?_ (State.writeSpan_frame _ _ _)
            exact h0
          · (change Frame _ _ _; dsimp only)
            exact Frame.refl _
      · extract_lets +onlyGivenNames t2
        extract_lets +onlyGivenNames t3
        extract_lets +onlyGivenNames t4
        split
        · (change Frame _ _ _; dsimp only)
          refine Frame.fst (by assumption) ?_
          change Frame.Fst _ _ _
          refine Frame.Fst.step ?_ (State.sendRemote_frame _ _ _ _ _ _)
          exact h0
        · (change Frame _ _ _; dsimp only)
          refine Frame.fst (by assumption) ?_
          change Frame.Fst _ _ _
          refine Frame.Fst.step ?_ (State.sendRemote_frame _ _ _ _ _ _)
          exact h0

theorem State.xltUse_frame (s : State) (die : Nat) (asid : Nat) (va : Nat) :
    Frame ⟨[.xlt], [], false⟩ s (State.xltUse s die asid va) := by
  unfold State.xltUse
  split
  · exact Frame.refl _
  · refine Frame.step ?_ (State.onXlt_frame _ _)
    exact Frame.refl _

theorem State.writePiece_frame (r : ReadResult) (u : Nat) (die : Nat) (asid : Nat) (va : Nat) (data : Bytes) :
    Frame ⟨accessParts, accessRegs, false⟩ r.state (State.writePiece r u die asid va data).state := by
  change Frame.At ReadResult.state _ _ _
  unfold State.writePiece
  split
  · exact Frame.refl _
  · (extract_lets +onlyGivenNames t0; refine Frame.At.via (t := t0) ?_ fun h0 => ?_; rotate_left; clear_value t0; rotate_left)
    · unfold t0
      refine Frame.step ?_ (State.xltUse_frame _ _ _ _)
      exact Frame.refl _
    · refine Frame.At.step ?_ (State.writePhysical_frame _ _ _ _)
      dsimp only
      exact h0

theorem State.issueRead_frame (s : State) (u : Nat) (pa : Nat) (len : Nat) :
    Frame ⟨[.out, .vrt, .rem, .pci], [.VRT_EVENTS], false⟩ s (State.issueRead s u pa len).1 := by
  show Frame.Fst _ _ _
  unfold State.issueRead
  refine Frame.Fst.ite ?_ ?_
  · split
    · refine Frame.Fst.mk ?_
      refine Frame.fst (by assumption) ?_
      change Frame.Fst _ _ _
      refine Frame.Fst.step ?_ (State.sendPci_frame _ _ _ _ _ _ _)
      exact Frame.refl _
    · refine Frame.Fst.mk ?_
      refine Frame.fst (by assumption) ?_
      change Frame.Fst _ _ _
      refine Frame.Fst.step ?_ (State.sendPci_frame _ _ _ _ _ _ _)
      exact Frame.refl _
  · refine Frame.Fst.step ?_ (State.sendRemote_frame _ _ _ _ _ _)
    exact Frame.refl _

theorem State.readPhysical_frame (r : ReadResult) (u : Nat) (pa : Nat) (len : Nat) :
    Frame ⟨recordParts ++ [Part.out, Part.rem, Part.pci], accessRegs, false⟩ r.state (State.readPhysical r u pa len).state := by
  change Frame.At ReadResult.state _ _ _
  unfold State.readPhysical
  (extract_lets +onlyGivenNames t0; refine Frame.At.via (t := t0) ?_ fun h0 => ?_; rotate_left; clear_value t0; rotate_left)
  · unfold t0
    exact Frame.refl _
  · extract_lets +onlyGivenNames t1
    refine Frame.At.ite ?_ ?_
    · refine Frame.At.ite ?_ ?_
      · split
        (change Frame _ _ _; dsimp only)
        refine Frame.fst (by assumption) ?_
        change Frame.Fst _ _ _
        refine Frame.Fst.step ?_ (State.readGranule_frame _ _ _ _)
        exact h0
      · (change Frame _ _ _; dsimp only)
        exact Frame.refl _
    · refine Frame.At.ite ?_ ?_
      · (change Frame _ _ _; dsimp only)
        refine Frame.step ?_ (State.onRem_frame _ _)
        exact h0
      · refine Frame.At.ite ?_ ?_
        · (change Frame _ _ _; dsimp only)
          exact Frame.refl _
        · refine Frame.At.ite ?_ ?_
          · (change Frame _ _ _; dsimp only)
            exact Frame.refl _
          · split
            · (change Frame _ _ _; dsimp only)
              refine Frame.fst (by assumption) ?_
              change Frame.Fst _ _ _
              refine Frame.Fst.step ?_ (State.issueRead_frame _ _ _ _)
              exact h0
            · (change Frame _ _ _; dsimp only)
              refine Frame.fst (by assumption) ?_
              change Frame.Fst _ _ _
              refine Frame.Fst.step ?_ (State.issueRead_frame _ _ _ _)
              exact h0

theorem State.noteIssued_frame (s : State) (u : Nat) (va : Nat) (len : Nat) (pa : Nat) :
    Frame ⟨[.rem], [], false⟩ s (State.noteIssued s u va len pa) := by
  unfold State.noteIssued
  refine Frame.step ?_ (State.onRem_frame _ _)
  exact Frame.refl _

theorem State.readPiece_frame (r : ReadResult) (u : Nat) (die : Nat) (asid : Nat) (a : Span) :
    Frame ⟨accessParts, accessRegs, false⟩ r.state (State.readPiece r u die asid a).state := by
  change Frame.At ReadResult.state _ _ _
  unfold State.readPiece
  split
  · refine Frame.At.step ?_ (State.readPhysical_frame _ _ _ _)
    exact Frame.refl _
  · extract_lets +onlyGivenNames t0
    (extract_lets +onlyGivenNames t1; refine Frame.At.viaAt ReadResult.state (b := t1) ?_ fun h1 => ?_; rotate_left; clear_value t1; rotate_left)
    · unfold t1
      refine Frame.At.step ?_ (State.readPhysical_frame _ _ _ _)
      dsimp only
      refine Frame.step ?_ (State.xltUse_frame _ _ _ _)
      exact Frame.refl _
    · refine Frame.At.ite ?_ ?_
      · exact h1
      · (change Frame _ _ _; dsimp only)
        refine Frame.step ?_ (State.noteIssued_frame _ _ _ _ _)
        exact h1

theorem State.writeData_frame (r : ReadResult) (u : Nat) (die : Nat) (asid : Nat) (va : Nat) (data : Bytes) :
    Frame ⟨accessParts, accessRegs, false⟩ r.state (State.writeData r u die asid va data).state := by
  change Frame.At ReadResult.state _ _ _
  unfold State.writeData
  refine Frame.At.foldl ?_ fun t0 x0 => ?_
  · exact Frame.refl _
  · refine Frame.At.step ?_ (State.writePiece_frame _ _ _ _ _ _)
    exact Frame.refl _

theorem State.dropArrived_frame (s : State) (u : Nat) :
    Frame ⟨[.rem], [], false⟩ s (State.dropArrived s u) := by
  unfold State.dropArrived
  refine Frame.step ?_ (State.onRem_frame _ _)
  exact Frame.refl _

theorem State.writeAll_frame (s : State) (u : Nat) (die : Nat) (asid : Nat) (writes : List (Nat × Bytes)) :
    Frame ⟨accessParts, accessRegs, false⟩ s (State.writeAll s u die asid writes).state := by
  change Frame.At ReadResult.state _ _ _
  unfold State.writeAll
  refine Frame.At.foldl ?_ fun t0 x0 => ?_
  · (change Frame _ _ _; dsimp only)
    exact Frame.refl _
  · refine Frame.At.step ?_ (State.writeData_frame _ _ _ _ _ _)
    exact Frame.refl _

theorem State.readAll_frame (s : State) (u : Nat) (die : Nat) (asid : Nat) (reads : List Span) :
    Frame ⟨accessParts, accessRegs, false⟩ s (State.readAll s u die asid reads).state := by
  change Frame.At ReadResult.state _ _ _
  unfold State.readAll
  refine Frame.At.foldl ?_ fun t0 x0 => ?_
  · (change Frame _ _ _; dsimp only)
    exact Frame.refl _
  · refine Frame.At.step ?_ (State.readPiece_frame _ _ _ _ _)
    exact Frame.refl _

theorem State.xltInstall_frame (s : State) (e : XltEntry) :
    Frame ⟨[.xlt], [], false⟩ s (State.xltInstall s e) := by
  unfold State.xltInstall
  refine Frame.step ?_ (State.onXlt_frame _ _)
  exact Frame.refl _

theorem State.dropReads_frame (s : State) (u : Nat) (die : Nat) (asid : Nat) (reads : List Span) :
    Frame ⟨[.rem], [], false⟩ s (State.dropReads s u die asid reads) := by
  unfold State.dropReads
  refine Frame.foldl fun t0 x0 => ?_
  extract_lets +onlyGivenNames t1
  refine Frame.step ?_ (State.onRem_frame _ _)
  exact Frame.refl _

theorem State.openMiss_frame (s : State) (die : Nat) (asid : Nat) (w : Waiter) (ahead : Bool) :
    Frame ⟨[.xlt], [.XLT_COUNTS], false⟩ s (State.openMiss s die asid w ahead) := by
  unfold State.openMiss
  extract_lets +onlyGivenNames t0
  refine Frame.ite ?_ ?_
  · refine Frame.step ?_ (State.onXlt_frame _ _)
    exact Frame.refl _
  · split
    · exact Frame.refl _
    · extract_lets +onlyGivenNames t1
      refine Frame.trans ?_ (State.bump_frame (h := ?_) _ _ _ _ _)
      · refine Frame.step ?_ (State.onXlt_frame _ _)
        exact Frame.refl _
      · decide +kernel

end Sys2Proof.Machine
end

