-- ==== Sys2Proof/Laws/FrameOperands.lean ====
section
/-! SUPPORT. The footprints of the functions of Machine/Operands.lean. -/

namespace Sys2Proof.Machine

set_option Elab.async false

theorem errRegs_mem {u : Nat} {e : ErrRegs} (h : errRegs u = some e) :
    e.event.reg ∈ errorRegs ∧ e.segment.reg ∈ errorRegs ∧ e.opclass.reg ∈ errorRegs ∧ e.cause.reg ∈ errorRegs := by
  unfold errRegs at h
  split at h
  · split at h <;> cases h <;> (dsimp only; decide +kernel)
  · split at h
    · split at h <;> cases h <;> (dsimp only; decide +kernel)
    · cases h

theorem contendEvent_mem (u : Nat) : (contendEvent u).reg ∈ [Reg.VSE_EVENTS, .VSC_EVENTS, .UPD_EVENTS] := by
  unfold contendEvent
  split <;> decide +kernel

/-- What the error register takes beside, where part of an operation's writes stands. -/
def Computed.Framed (K : Touch) : Computed → Prop
  | .stopped _ _ _ more => ∀ s, Frame K s (more s)
  | _ => True

/-- What an operation's computation changes. -/
def Frame.Body (K : Touch) (s : State) (p : State × Computed) : Prop := Frame K s p.1 ∧ p.2.Framed K

section
variable {K L : Touch} {α : Type} {s t : State} {p : State × Computed}

theorem Computed.Framed.mono {c : Computed} (h : c.Framed L) (hs : L.sub K = true) : c.Framed K := by
  cases c <;> first | trivial | exact fun s => (h s).mono hs

theorem Frame.Body.mk {c : Computed} (h : Frame K s t) (g : c.Framed K) : Frame.Body K s (t, c) := ⟨h, g⟩

theorem Frame.Body.step (h : Frame K s t) (g : Frame.Body L t p) (hs : L.sub K = true := by decide +kernel) :
    Frame.Body K s p := ⟨h.step g.1 hs, g.2.mono hs⟩

theorem Frame.Body.ite {c : Prop} [Decidable c] {a b : State × Computed} (ha : Frame.Body K s a) (hb : Frame.Body K s b) :
    Frame.Body K s (if c then a else b) := by split <;> assumption

theorem Frame.Body.via (h : Frame K s t) (g : Frame K s t → Frame.Body K s p) : Frame.Body K s p := g h

theorem Frame.Body.viaFst {q : State × α} (h : Frame.Fst K s q) (g : Frame.Fst K s q → Frame.Body K s p) :
    Frame.Body K s p := g h

theorem Frame.Body.viaAt (π : α → State) {b : α} (h : Frame.At π K s b) (g : Frame.At π K s b → Frame.Body K s p) :
    Frame.Body K s p := g h

end

/-- What a plan's own functions may change. -/
structure Plan.Framed (K : Touch) (p : Plan) : Prop where
  more    : ∀ t, Frame K t (p.more t)
  onError : ∀ t a, Frame K t (p.onError t a)
  body    : ∀ t, Frame.Body K t (p.body t)

/-- What a task's own functions may change. -/
structure Task.Framed (K : Touch) (t : Task) : Prop where
  more : ∀ s, Frame K s (t.more s)
  plan : ∀ s, (t.plan s).Framed K

theorem Plan.Framed.mono {K L : Touch} {p : Plan} (h : p.Framed L) (hs : L.sub K = true) : p.Framed K where
  more t := (h.more t).mono hs
  onError t a := (h.onError t a).mono hs
  body t := ⟨(h.body t).1.mono hs, (h.body t).2.mono hs⟩

theorem Task.Framed.mono {K L : Touch} {t : Task} (h : t.Framed L) (hs : L.sub K = true) : t.Framed K where
  more s := (h.more s).mono hs
  plan s := (h.plan s).mono hs

theorem State.drawing_frame {K : Touch} (s : State) (u cls : Nat) (payload : Bytes) (draws : Bool) (run : State → State)
    (hK : Touch.sub ⟨[.sched], [.VSE_EVENTS, .VSC_EVENTS, .UPD_EVENTS], false⟩ K = true := by decide +kernel)
    (g0 : ∀ t, Frame K t (run t)) : Frame K s (State.drawing s u cls payload draws run) := by
  unfold State.drawing
  refine .ite (g0 s) (.ite (s.flag_frame _ _ _ (Touch.sub_has hK (.inr (contendEvent_mem u)))) ?_)
  exact (g0 s).step (State.onUnit_frame _ _ _) (Touch.sub_trans (by decide +kernel) hK)

theorem State.takeOp_frame (s : State) (u : Nat) (cls : Nat) (payload : Bytes) :
    Frame ⟨[.sched], [], false⟩ s (State.takeOp s u cls payload).1 := by
  show Frame.Fst _ _ _
  unfold State.takeOp
  split
  · refine Frame.Fst.mk ?_
    exact Frame.refl _
  · extract_lets +onlyGivenNames t0
    refine Frame.Fst.mk ?_
    refine Frame.step ?_ (State.setUnit_frame _ _ _)
    exact Frame.refl _

theorem State.onOp_frame (s : State) (u : Nat) (k : Nat) (f : Op → Op) :
    Frame ⟨[.sched], [], false⟩ s (State.onOp s u k f) := by
  unfold State.onOp
  refine Frame.step ?_ (State.onUnit_frame _ _ _)
  exact Frame.refl _

theorem State.recordError_frame {K : Touch} (s : State) (u segment opclass cause : Nat) (more : State → State)
    (hK : Touch.sub ⟨[], errorRegs, false⟩ K = true := by decide +kernel) (g0 : ∀ t, Frame K t (more t)) :
    Frame K s (State.recordError s u segment opclass cause more) := by
  unfold State.recordError
  split
  · exact .refl _
  · rename_i e he
    obtain ⟨h1, h2, h3, h4⟩ := errRegs_mem he
    refine .ite (.refl _) (.trans ?_ (g0 _))
    exact ((s.flag_frame _ _ _ (Touch.sub_has hK (.inr h1))).trans (State.put_frame _ _ _ _ _ (Touch.sub_has hK (.inr h2)))).trans
      ((State.put_frame _ _ _ _ _ (Touch.sub_has hK (.inr h3))).trans (State.put_frame _ _ _ _ _ (Touch.sub_has hK (.inr h4))))

theorem State.failOp_frame {K : Touch} (s : State) (u : Nat) (k : Nat) (cause : Nat) (kind : ErrorKind) (more : optParam
    (State → State) id) (hK : Touch.sub ⟨recordParts, recordRegs ++ errorRegs, false⟩ K = true := by decide +kernel)  (g0 :
    ∀ t, Frame K t (more t)) :
    Frame K s (State.failOp s u k cause kind more) := by
  unfold State.failOp
  extract_lets +onlyGivenNames t0
  refine Frame.ite ?_ ?_
  · refine Frame.step ?_ (State.onOp_frame _ _ _ _) (Touch.sub_trans (by decide +kernel) hK)
    exact Frame.refl _
  · (extract_lets +onlyGivenNames t1; refine Frame.via (t := t1) ?_ fun h1 => ?_; rotate_left; clear_value t1; rotate_left)
    · unfold t1
      refine Frame.trans ?_ (State.recordError_frame (hK := Touch.sub_trans (by decide +kernel) hK) (g0 := ?_) _ _ _ _ _ _)
      · exact Frame.refl _
      · intro t2
        refine Frame.trans ?_ (g0 ..)
        exact Frame.refl _
    · (extract_lets +onlyGivenNames t3; refine Frame.via (t := t3) ?_ fun h3 => ?_; rotate_left; clear_value t3; rotate_left)
      · unfold t3
        refine Frame.step ?_ (State.onUnit_frame _ _ _) (Touch.sub_trans (by decide +kernel) hK)
        refine Frame.step ?_ (State.onOp_frame _ _ _ _) (Touch.sub_trans (by decide +kernel) hK)
        exact h1
      · split
        · refine Frame.step ?_ (State.faultOf_frame _ _ _ _) (Touch.sub_trans (by decide +kernel) hK)
          exact h3
        · refine Frame.step ?_ (State.faultOf_frame _ _ _ _) (Touch.sub_trans (by decide +kernel) hK)
          exact h3

theorem State.faultAccess_frame (s : State) (u : Nat) (k : Nat) (asid : Nat) (cause : Nat) (va : Nat) (write : Bool) :
    Frame ⟨recordParts, recordRegs ++ [Reg.XLT_COUNTS], false⟩ s (State.faultAccess s u k asid cause va write) := by
  unfold State.faultAccess
  extract_lets +onlyGivenNames t0
  refine Frame.ite ?_ ?_
  · refine Frame.step ?_ (State.onOp_frame _ _ _ _)
    exact Frame.refl _
  · (extract_lets +onlyGivenNames t1; refine Frame.via (t := t1) ?_ fun h1 => ?_; rotate_left; clear_value t1; rotate_left)
    · unfold t1
      refine Frame.trans ?_ (State.bump_frame (h := ?_) _ _ _ _ _)
      · exact Frame.refl _
      · decide +kernel
    · extract_lets +onlyGivenNames t2
      (extract_lets +onlyGivenNames t3; refine Frame.via (t := t3) ?_ fun h3 => ?_; rotate_left; clear_value t3; rotate_left)
      · unfold t3
        refine Frame.step ?_ (State.faultOf_frame _ _ _ _)
        exact h1
      · refine Frame.ite ?_ ?_
        · refine Frame.step ?_ (State.onOp_frame _ _ _ _)
          refine Frame.step ?_ (State.onUnit_frame _ _ _)
          exact h3
        · refine Frame.step ?_ (State.onOp_frame _ _ _ _)
          exact h3

theorem State.waitOp_frame (s : State) (u : Nat) (k : Nat) :
    Frame ⟨[.sched], [], false⟩ s (State.waitOp s u k) := by
  unfold State.waitOp
  refine Frame.step ?_ (State.onOp_frame _ _ _ _)
  exact Frame.refl _

theorem State.finishOp_frame (s : State) (u : Nat) (k : Nat) (tags : List Nat) (remote : Nat) :
    Frame ⟨[.sched], [], false⟩ s (State.finishOp s u k tags remote) := by
  unfold State.finishOp
  refine Frame.step ?_ (State.onOp_frame _ _ _ _)
  exact Frame.refl _

/-- The footprint of performing an operation, beside that of its plan. -/
def opTouch : Touch := ⟨accessParts, accessRegs ++ errorRegs ++ [Reg.XLT_COUNTS], false⟩

theorem State.performOp_frame {K : Touch} (s : State) (u k : Nat) (p : Plan)
    (hK : opTouch.sub K = true := by decide +kernel) (hp : p.Framed K) : Frame K s (State.performOp s u k p) := by
  have sub : ∀ {L : Touch}, L.sub opTouch = true → L.sub K = true := fun h => Touch.sub_trans h hK
  have hd : ∀ t, Frame K t (t.dropReads u (unitDie u) s.asidOf (p.reads ++ p.also)) := fun t =>
    (State.dropReads_frame t u (unitDie u) s.asidOf (p.reads ++ p.also)).mono (sub (by decide +kernel))
  have hf : ∀ t c kind, Frame K t (t.failOp u k c kind p.more) := fun t c kind =>
    State.failOp_frame t u k c kind p.more (sub (by decide +kernel)) hp.more
  have hw : ∀ t ws, Frame K t (t.writeAll u (unitDie u) s.asidOf ws).state := fun t ws =>
    (State.writeAll_frame t u (unitDie u) s.asidOf ws).mono (sub (by decide +kernel))
  have hwait : ∀ t, Frame K t (t.waitOp u k) := fun t => (State.waitOp_frame t u k).mono (sub (by decide +kernel))
  unfold State.performOp
  extract_lets +onlyGivenNames die asid o acc
  have hdone : Frame K s (s.onOp u k fun o => { o with state := .done, invalid := true }) :=
    (State.onOp_frame ..).mono (sub (by decide +kernel))
  split
  · exact (State.faultAccess_frame ..).mono (sub (by decide +kernel))
  · refine .ite hdone (.trans ?_ (hwait _))
    exact (State.openMiss_frame ..).mono (sub (by decide +kernel))
  · refine .ite (hf _ _ _) (.ite hdone ?_)
    split
    · exact hf _ _ _
    · extract_lets +onlyGivenNames s1 r used
      have h1 : Frame K s s1 := .ite ((State.onOp_frame ..).mono (sub (by decide +kernel))) (.refl _)
      have hr : Frame K s r.state := h1.trans ((State.readAll_frame ..).mono (sub (by decide +kernel)))
      split
      · exact ((hr.trans (hd _)).trans (hf _ _ _)).trans (hp.onError _ _)
      · refine .ite (hr.trans (hwait _)) ?_
        have hb : Frame K s (p.body r.state).1 := hr.trans (hp.body _).1
        have hm := (hp.body r.state).2
        split <;> rename_i t x hx <;> rw [hx] at hb hm
        · exact (hb.trans (hd _)).trans (hf _ _ _)
        · exact (hb.trans (hd _)).trans (hf _ _ _)
        · exact hb.trans (hwait _)
        · exact hb.trans (hwait _)
        · refine Frame.trans ?_ (State.failOp_frame _ _ _ _ _ _ (sub (by decide +kernel)) hm)
          exact (hb.trans (hw _ _)).trans (hd _)
        · extract_lets w
          have hw' : Frame K s w.state := hb.trans (hw _ _)
          split
          · exact ((hw'.trans (hd _)).trans (hf _ _ _)).trans (hp.onError _ _)
          · exact (hw'.trans (hd _)).trans ((State.finishOp_frame ..).mono (sub (by decide +kernel)))

theorem State.runTask_frame {K : Touch} (s : State) (t : Task) (hK : opTouch.sub K = true := by decide +kernel)
    (ht : t.Framed K) : Frame K s (State.runTask s t) := by
  unfold State.runTask
  refine .ite (.refl _) ?_
  have h : Frame K s (s.takeOp t.unit t.cls t.payload).1 :=
    (State.takeOp_frame s t.unit t.cls t.payload).mono (Touch.sub_trans (by decide +kernel) hK)
  split
  rename_i s1 k hk
  rw [hk] at h
  refine .ite h ?_
  split
  · exact h.trans (State.failOp_frame _ _ _ _ _ _ (Touch.sub_trans (by decide +kernel) hK) ht.more)
  · exact .ite (h.trans (State.performOp_frame _ _ _ _ hK (ht.plan _))) h

theorem State.runOp_frame {K : Touch} (s : State) (t : Task) (hK : opTouch.sub K = true := by decide +kernel)
    (ht : t.Framed K) : Frame K s (State.runOp s t) := by
  unfold State.runOp
  exact State.drawing_frame _ _ _ _ _ _ (Touch.sub_trans (by decide +kernel) hK) fun x => x.runTask_frame t hK ht

end Sys2Proof.Machine
end

