-- ==== Sys2Proof/Laws/FrameBreak.lean ====
section
/-! SUPPORT. The footprints of the functions of Machine/Break.lean. -/

namespace Sys2Proof.Machine

set_option Elab.async false

theorem State.bumpEpoch_frame (s : State) :
    Frame ⟨[], [.SCH_EPOCH], false⟩ s (State.bumpEpoch s) := by
  unfold State.bumpEpoch
  refine Frame.foldl fun t0 x0 => ?_
  refine Frame.trans ?_ (State.bump_frame (h := ?_) _ _ _ _ _)
  · exact Frame.refl _
  · decide +kernel

theorem State.countCycles_frame (s : State) (u : Nat) (n : Nat) :
    Frame ⟨[.fresh, .sched], [], false⟩ s (State.countCycles s u n) := by
  unfold State.countCycles
  extract_lets +onlyGivenNames t0
  extract_lets +onlyGivenNames t1
  extract_lets +onlyGivenNames t2
  refine Frame.step ?_ (State.onUnit_frame _ _ _)
  refine Frame.step ?_ (State.took_frame _ _)
  exact Frame.refl _

theorem State.phaseRecord_frame (s : State) (u : Nat) (aborted : Bool) :
    Frame ⟨storeParts ++ [Part.sched, Part.ldg], ledgerRegs, false⟩ s (State.phaseRecord s u aborted) := by
  unfold State.phaseRecord
  extract_lets +onlyGivenNames t0
  refine Frame.ite ?_ ?_
  · exact Frame.refl _
  · extract_lets +onlyGivenNames t1
    extract_lets +onlyGivenNames t2
    (extract_lets +onlyGivenNames t3; refine Frame.via (t := t3) ?_ fun h3 => ?_; rotate_left; clear_value t3; rotate_left)
    · unfold t3
      refine Frame.step ?_ (State.countCycles_frame _ _ _)
      refine Frame.step ?_ (State.took_frame _ _)
      exact Frame.refl _
    · extract_lets +onlyGivenNames t4
      refine Frame.step ?_ (State.ledger_frame _ _)
      exact h3

theorem State.cancelSwitches_frame (s : State) :
    Frame ⟨[], [.VRT_BANK], false⟩ s (State.cancelSwitches s) := by
  unfold State.cancelSwitches
  refine Frame.foldl fun t0 x0 => ?_
  refine Frame.trans ?_ (State.put_frame (h := ?_) _ _ _ _ _)
  · exact Frame.refl _
  · decide +kernel

theorem State.abortTables_frame (s : State) :
    Frame ⟨[.codec], [.CDC_EVENTS, .CDC_PENDING], false⟩ s (State.abortTables s) := by
  unfold State.abortTables
  (extract_lets +onlyGivenNames t0; refine Frame.via (t := t0) ?_ fun h0 => ?_; rotate_left; clear_value t0; rotate_left)
  · unfold t0
    refine Frame.foldl fun t1 x1 => ?_
    refine Frame.ite ?_ ?_
    · exact Frame.refl _
    · refine Frame.trans ?_ (State.flag_frame (h := ?_) _ _ _ _)
      · exact Frame.refl _
      · decide +kernel
  · (extract_lets +onlyGivenNames t2; refine Frame.via (t := t2) ?_ fun h2 => ?_; rotate_left; clear_value t2; rotate_left)
    · unfold t2
      refine Frame.trans ?_ (Frame.foldl fun t3 x3 => ?_)
      · exact h0
      · refine Frame.trans ?_ (State.put_frame (h := ?_) _ _ _ _ _)
        · exact Frame.refl _
        · split <;> decide +kernel
    · refine Frame.step ?_ (State.onCodec_frame _ _)
      exact h2

theorem State.abortReductions_frame (s : State) :
    Frame ⟨[.rdx], [.RDX_STRAY], false⟩ s (State.abortReductions s) := by
  unfold State.abortReductions
  (extract_lets +onlyGivenNames t0; refine Frame.via (t := t0) ?_ fun h0 => ?_; rotate_left; clear_value t0; rotate_left)
  · unfold t0
    refine Frame.foldl fun t1 x1 => ?_
    refine Frame.trans ?_ (State.bump_frame (h := ?_) _ _ _ _ _)
    · exact Frame.refl _
    · decide +kernel
  · refine Frame.step ?_ (State.onRdx_frame _ _)
    exact h0

theorem State.emptyHolds_frame (s : State) :
    Frame ⟨[.syn], [.SYN_STATUS], false⟩ s (State.emptyHolds s) := by
  unfold State.emptyHolds
  refine Frame.trans ?_ (Frame.foldl fun t0 x0 => ?_)
  · refine Frame.step ?_ (State.onSyn_frame _ _)
    exact Frame.refl _
  · refine Frame.trans ?_ (State.put_frame (h := ?_) _ _ _ _ _)
    · exact Frame.refl _
    · decide +kernel

theorem State.cancelWaiters_frame (s : State) :
    Frame ⟨[.syn], [.SYN_OBJ_VALUE], false⟩ s (State.cancelWaiters s) := by
  unfold State.cancelWaiters
  refine Frame.trans ?_ (Frame.foldl fun t0 x0 => ?_)
  · refine Frame.step ?_ (State.onSyn_frame _ _)
    exact Frame.refl _
  · refine Frame.trans ?_ (State.put_frame (h := ?_) _ _ _ _ _)
    · exact Frame.refl _
    · decide +kernel

theorem State.setSched_frame (s : State) (st : SchedState) :
    Frame ⟨[.sched], [.SCH_CTRL], false⟩ s (State.setSched s st) := by
  unfold State.setSched
  (extract_lets +onlyGivenNames t0; refine Frame.via (t := t0) ?_ fun h0 => ?_; rotate_left; clear_value t0; rotate_left)
  · unfold t0
    refine Frame.step ?_ (State.onSched_frame _ _)
    exact Frame.refl _
  · refine Frame.ite ?_ ?_
    · refine Frame.trans ?_ (State.put_frame (h := ?_) _ _ _ _ _)
      · exact h0
      · decide +kernel
    · exact h0

theorem State.abortStep_frame (s : State) :
    Frame ⟨storeParts ++ [Part.sched, Part.codec, Part.fsel, Part.upd, Part.rdx, Part.syn, Part.ldg], ledgerRegs ++
    [Reg.CDC_EVENTS, Reg.CDC_PENDING, Reg.RDX_STRAY, Reg.SCH_CTRL, Reg.SCH_EPOCH, Reg.SYN_OBJ_VALUE, Reg.SYN_STATUS,
    Reg.UPD_STATUS, Reg.VRT_BANK], false⟩ s (State.abortStep s) := by
  unfold State.abortStep
  refine Frame.ite ?_ ?_
  · exact Frame.refl _
  · refine Frame.ite ?_ ?_
    · refine Frame.step ?_ (State.onSched_frame _ _)
      exact Frame.refl _
    · (extract_lets +onlyGivenNames t0; refine Frame.via (t := t0) ?_ fun h0 => ?_; rotate_left; clear_value t0; rotate_left)
      · unfold t0
        refine Frame.foldl fun t1 x1 => ?_
        refine Frame.step ?_ (State.phaseRecord_frame _ _ _)
        exact Frame.refl _
      · (extract_lets +onlyGivenNames t2; refine Frame.via (t := t2) ?_ fun h2 => ?_; rotate_left; clear_value t2; rotate_left)
        · unfold t2
          refine Frame.step ?_ (State.onSched_frame _ _)
          exact h0
        · (extract_lets +onlyGivenNames t3; refine Frame.via (t := t3) ?_ fun h3 => ?_; rotate_left; clear_value t3; rotate_left)
          · unfold t3
            refine Frame.step ?_ (State.cancelSwitches_frame _)
            refine Frame.step ?_ (State.abortTables_frame _)
            refine Frame.step ?_ (State.abortReductions_frame _)
            refine Frame.step ?_ (State.emptyHolds_frame _)
            refine Frame.step ?_ (State.cancelWaiters_frame _)
            refine Frame.step ?_ (State.bumpEpoch_frame _)
            exact h2
          · (extract_lets +onlyGivenNames t4; refine Frame.via (t := t4) ?_ fun h4 => ?_; rotate_left; clear_value t4; rotate_left)
            · unfold t4
              refine Frame.step ?_ (State.onUpd_frame _ _)
              refine Frame.step ?_ (State.onFsel_frame _ _)
              exact h3
            · refine Frame.step ?_ (State.setSched_frame _ _)
              refine Frame.trans ?_ (State.put_frame (h := ?_) _ _ _ _ _)
              · exact h4
              · decide +kernel

theorem State.stopDie_frame (s : State) (die : Nat) :
    Frame ⟨recordParts, recordRegs ++ errorRegs, false⟩ s (State.stopDie s die) := by
  unfold State.stopDie
  extract_lets +onlyGivenNames t0
  refine Frame.foldl fun t1 x1 => ?_
  (extract_lets +onlyGivenNames t2; refine Frame.via (t := t2) ?_ fun h2 => ?_; rotate_left; clear_value t2; rotate_left)
  · unfold t2
    refine Frame.step ?_ (State.onUnit_frame _ _ _)
    exact Frame.refl _
  · refine Frame.trans ?_ (Frame.foldl fun t3 x3 => ?_)
    · exact h2
    · extract_lets +onlyGivenNames t4
      refine Frame.ite ?_ ?_
      · refine Frame.trans ?_ (State.failOp_frame (g0 := ?_) _ _ _ _ _ _)
        · exact Frame.refl _
        · intro t5
          dsimp only [id]
          exact Frame.refl _
      · exact Frame.refl _

theorem State.recordHalt_frame (s : State) (reason : Nat) (item : Nat) :
    Frame ⟨[], [.FLT_RECOVERY], false⟩ s (State.recordHalt s reason item) := by
  unfold State.recordHalt
  refine Frame.ite ?_ ?_
  · exact Frame.refl _
  · refine Frame.trans ?_ (State.put_frame (h := ?_) _ _ _ _ _)
    · refine Frame.trans ?_ (State.put_frame (h := ?_) _ _ _ _ _)
      · refine Frame.trans ?_ (State.put_frame (h := ?_) _ _ _ _ _)
        · refine Frame.trans ?_ (State.flag_frame (h := ?_) _ _ _ _)
          · exact Frame.refl _
          · decide +kernel
        · decide +kernel
      · decide +kernel
    · decide +kernel

theorem State.sendAbort_frame (s : State) (tick : Nat) (segment : Nat) (cause : Nat) (unit : Nat) (halt : Bool) :
    Frame ⟨[.sched, .vrt], [], false⟩ s (State.sendAbort s tick segment cause unit halt) := by
  unfold State.sendAbort
  extract_lets +onlyGivenNames t0
  extract_lets +onlyGivenNames t1
  refine Frame.ite ?_ ?_
  · exact Frame.refl _
  · refine Frame.ite ?_ ?_
    · (extract_lets +onlyGivenNames t2; refine Frame.via (t := t2) ?_ fun h2 => ?_; rotate_left; clear_value t2; rotate_left)
      · unfold t2
        refine Frame.step ?_ (State.tc0Bcast_frame _ _ _)
        exact Frame.refl _
      · (extract_lets +onlyGivenNames t3; refine Frame.via (t := t3) ?_ fun h3 => ?_; rotate_left; clear_value t3; rotate_left)
        · unfold t3
          refine Frame.ite ?_ ?_
          · refine Frame.step ?_ (State.tc0To_frame _ _ _ _ _)
            exact h2
          · exact h2
        · refine Frame.ite ?_ ?_
          · exact h3
          · refine Frame.step ?_ (State.onSched_frame _ _)
            exact h3
    · refine Frame.step ?_ (State.tc0To_frame _ _ _ _ _)
      exact Frame.refl _

theorem State.recordBreak_frame (s : State) (segment : Nat) (cause : Nat) (unit : Nat) (erg : Nat) (module : Nat) (tick :
    Nat) :
    Frame ⟨[.sched], [.SCH_BREAK, .SCH_BREAK_TICK], false⟩ s (State.recordBreak s segment cause unit erg module tick) := by
  unfold State.recordBreak
  (extract_lets +onlyGivenNames t0; refine Frame.via (t := t0) ?_ fun h0 => ?_; rotate_left; clear_value t0; rotate_left)
  · unfold t0
    refine Frame.trans ?_ (State.put_frame (h := ?_) _ _ _ _ _)
    · refine Frame.trans ?_ (State.put_frame (h := ?_) _ _ _ _ _)
      · exact Frame.refl _
      · decide +kernel
    · decide +kernel
  · (extract_lets +onlyGivenNames t1; refine Frame.via (t := t1) ?_ fun h1 => ?_; rotate_left; clear_value t1; rotate_left)
    · unfold t1
      refine Frame.trans ?_ (State.put_frame (h := ?_) _ _ _ _ _)
      · refine Frame.trans ?_ (State.put_frame (h := ?_) _ _ _ _ _)
        · exact h0
        · decide +kernel
      · decide +kernel
    · (extract_lets +onlyGivenNames t2; refine Frame.via (t := t2) ?_ fun h2 => ?_; rotate_left; clear_value t2; rotate_left)
      · unfold t2
        refine Frame.trans ?_ (State.put_frame (h := ?_) _ _ _ _ _)
        · refine Frame.trans ?_ (State.put_frame (h := ?_) _ _ _ _ _)
          · exact h1
          · decide +kernel
        · decide +kernel
      · refine Frame.step ?_ (State.onSched_frame _ _)
        exact h2

theorem State.raiseBreak_frame (s : State) (cause : Nat) (unit : Nat) (segment : Nat) (halt : optParam Bool false) :
    Frame ⟨abortParts, abortRegs, false⟩ s (State.raiseBreak s cause unit segment halt) := by
  unfold State.raiseBreak
  refine Frame.ite ?_ ?_
  · exact Frame.refl _
  · extract_lets +onlyGivenNames t0
    extract_lets +onlyGivenNames t1
    extract_lets +onlyGivenNames t2
    extract_lets +onlyGivenNames t3
    (extract_lets +onlyGivenNames t4; refine Frame.via (t := t4) ?_ fun h4 => ?_; rotate_left; clear_value t4; rotate_left)
    · unfold t4
      refine Frame.trans ?_ (State.flag_frame (h := ?_) _ _ _ _)
      · exact Frame.refl _
      · decide +kernel
    · (extract_lets +onlyGivenNames t5; refine Frame.via (t := t5) ?_ fun h5 => ?_; rotate_left; clear_value t5; rotate_left)
      · unfold t5
        refine Frame.ite ?_ ?_
        · refine Frame.step ?_ (State.onSched_frame _ _)
          exact h4
        · exact h4
      · refine Frame.ite ?_ ?_
        · (extract_lets +onlyGivenNames t6; refine Frame.via (t := t6) ?_ fun h6 => ?_; rotate_left; clear_value t6; rotate_left)
          · unfold t6
            refine Frame.trans ?_ (State.flag_frame (h := ?_) _ _ _ _)
            · exact h5
            · decide +kernel
          · refine Frame.ite ?_ ?_
            · refine Frame.step ?_ (State.sendAbort_frame _ _ _ _ _ _)
              exact h6
            · exact h6
        · (extract_lets +onlyGivenNames t7; refine Frame.via (t := t7) ?_ fun h7 => ?_; rotate_left; clear_value t7; rotate_left)
          · unfold t7
            refine Frame.step ?_ (State.recordBreak_frame _ _ _ _ _ _ _)
            exact h5
          · (extract_lets +onlyGivenNames t8; refine Frame.via (t := t8) ?_ fun h8 => ?_; rotate_left; clear_value t8; rotate_left)
            · unfold t8
              refine Frame.step ?_ (State.faultOf_frame _ _ _ _)
              exact h7
            · refine Frame.step ?_ (State.sendAbort_frame _ _ _ _ _ _)
              refine Frame.step ?_ (State.abortStep_frame _)
              exact h8

theorem State.haltFatal_frame (s : State) :
    Frame ⟨abortParts, abortRegs ++ errorRegs ++ [Reg.FLT_RECOVERY], false⟩ s (State.haltFatal s) := by
  unfold State.haltFatal
  split
  · exact Frame.refl _
  · extract_lets +onlyGivenNames t0
    (extract_lets +onlyGivenNames t1; refine Frame.via (t := t1) ?_ fun h1 => ?_; rotate_left; clear_value t1; rotate_left)
    · unfold t1
      refine Frame.trans ?_ (Frame.foldl fun t2 x2 => ?_)
      · refine Frame.step ?_ (State.onFlt_fatal_frame _ _)
        exact Frame.refl _
      · refine Frame.step ?_ (State.stopDie_frame _ _)
        exact Frame.refl _
    · extract_lets +onlyGivenNames t3
      (extract_lets +onlyGivenNames t4; refine Frame.via (t := t4) ?_ fun h4 => ?_; rotate_left; clear_value t4; rotate_left)
      · unfold t4
        refine Frame.step ?_ (State.recordHalt_frame _ _ _)
        exact h1
      · refine Frame.ite ?_ ?_
        · refine Frame.step ?_ (State.raiseBreak_frame _ _ _ _ _)
          exact h4
        · (extract_lets +onlyGivenNames t5; refine Frame.via (t := t5) ?_ fun h5 => ?_; rotate_left; clear_value t5; rotate_left)
          · unfold t5
            refine Frame.step ?_ (State.onSched_frame _ _)
            refine Frame.step ?_ (State.sendAbort_frame _ _ _ _ _ _)
            exact h4
          · refine Frame.ite ?_ ?_
            · exact h5
            · refine Frame.step ?_ (State.setSched_frame _ _)
              exact h5

theorem State.settle_frame (s : State) :
    Frame ⟨abortParts, abortRegs ++ errorRegs ++ [Reg.FLT_RECOVERY], false⟩ s (State.settle s) := by
  unfold State.settle
  refine Frame.ite ?_ ?_
  · exact Frame.refl _
  · refine Frame.step ?_ (State.onFlt_fatal_frame _ _)
    refine Frame.step ?_ (State.haltFatal_frame _)
    refine Frame.step ?_ (State.haltFatal_frame _)
    exact Frame.refl _

theorem State.countTick_frame (s : State) (u : Nat) :
    Frame ⟨[.fresh, .sched], [], false⟩ s (State.countTick s u) := by
  unfold State.countTick
  extract_lets +onlyGivenNames t0
  refine Frame.ite ?_ ?_
  · exact Frame.refl _
  · extract_lets +onlyGivenNames t1
    refine Frame.step ?_ (State.countCycles_frame _ _ _)
    exact Frame.refl _

theorem State.haltModule_frame (s : State) (reason : Nat) (item : Nat) :
    Frame ⟨abortParts, recordRegs ++ ledgerRegs ++ [Reg.CDC_EVENTS, Reg.CDC_PENDING, Reg.FLT_RECOVERY, Reg.RDX_STRAY,
    Reg.SCH_CTRL, Reg.SCH_EPOCH, Reg.SYN_OBJ_VALUE, Reg.SYN_STATUS, Reg.UPD_STATUS, Reg.VRT_BANK], false⟩ s
    (State.haltModule s reason item) := by
  unfold State.haltModule
  extract_lets +onlyGivenNames t0
  (extract_lets +onlyGivenNames t1; refine Frame.via (t := t1) ?_ fun h1 => ?_; rotate_left; clear_value t1; rotate_left)
  · unfold t1
    refine Frame.step ?_ (State.faultOf_frame _ _ _ _)
    refine Frame.step ?_ (State.recordHalt_frame _ _ _)
    exact Frame.refl _
  · (extract_lets +onlyGivenNames t2; refine Frame.via (t := t2) ?_ fun h2 => ?_; rotate_left; clear_value t2; rotate_left)
    · unfold t2
      refine Frame.step ?_ (State.sendAbort_frame _ _ _ _ _ _)
      exact h1
    · (extract_lets +onlyGivenNames t3; refine Frame.via (t := t3) ?_ fun h3 => ?_; rotate_left; clear_value t3; rotate_left)
      · unfold t3
        refine Frame.step ?_ (State.onSched_frame _ _)
        refine Frame.step ?_ (State.abortStep_frame _)
        exact h2
      · refine Frame.ite ?_ ?_
        · exact h3
        · refine Frame.step ?_ (State.setSched_frame _ _)
          exact h3

end Sys2Proof.Machine
end

