-- ==== Sys2Proof/Laws/Act.lean ====
section
/-! SUPPORT. The frame that every command's meaning stands in. -/

namespace Sys2Proof.Machine

/-- With no halt owed, a command ends as its effect left the module. -/
theorem State.settle_eq {s : State} (h : s.flt.fatal = []) : s.settle = s := by
  simp [State.settle, h]

/-- After a command no halt is owed. -/
theorem State.settle_fatal (s : State) : s.settle.flt.fatal = [] := by
  unfold State.settle
  split
  · rename_i h; simpa using h
  · rfl

/-- What an admitted command answers. -/
theorem act_admitted {c : Instr} {s : State} {effect : State → State} (h : s.Reaches c) :
    act c s effect = .next (effect s).settle := by
  simp [act, h.1, h.2.1]

/-- What an admitted command answers where its effect makes no die fatal. -/
theorem act_effect {c : Instr} {s : State} {effect : State → State} (h : s.Reaches c)
    (hf : (effect s).flt.fatal = s.flt.fatal) : act c s effect = .next (effect s) := by
  rw [act_admitted h, State.settle_eq (hf.trans h.2.2)]

/-- A command of places the module has that its state does not admit changes nothing. -/
theorem act_not_admitted {c : Instr} {s : State} {effect : State → State} (h : c.wf = true) (ha : s.admits c = false) :
    act c s effect = .next s := by
  simp [act, h, ha]

/-- A command that names no place of the module is refused. -/
theorem act_ill_formed {c : Instr} {s : State} {effect : State → State} (h : c.wf = false) :
    act c s effect = .refused .illFormed := by
  simp [act, h]

/-- After a command no halt is owed, whatever its effect. -/
theorem act_fatal {c : Instr} {s t : State} {effect : State → State} (hs : s.flt.fatal = [])
    (h : act c s effect = .next t) : t.flt.fatal = [] := by
  unfold act at h
  split at h
  · split at h <;> cases h
    · exact State.settle_fatal _
    · exact hs
  · cases h

/-- The footprint of a command whose effect makes no die fatal is its effect's. -/
theorem act_frame {c : Instr} {s t : State} {effect : State → State} {K : Touch} (hs : s.flt.fatal = [])
    (h : act c s effect = .next t) (hk : Part.fatal ∉ K.parts) (he : Frame K s (effect s)) : Frame K s t := by
  unfold act at h
  split at h
  · split at h <;> cases h
    · rw [State.settle_eq ((he.parts .fatal hk).trans hs)]; exact he
    · exact .refl _
  · cases h

/-- The footprint of a command: its effect's, and a halt's. -/
theorem act_frame_halts {c : Instr} {s t : State} {effect : State → State} {K : Touch}
    (h : act c s effect = .next t) (he : Frame K s (effect s)) : Frame K.halts s t := by
  have hK : ∀ {p q : State}, Frame K p q → Frame K.halts p q := fun g =>
    { g with
      parts := fun p hp => g.parts p fun hm => hp (List.mem_append_left _ hm)
      words := fun ha r d i hr => g.words ha r d i fun hm =>
        hr (List.mem_append_left _ (List.mem_append_left _ (List.mem_append_left _ hm))) }
  unfold act at h
  split at h
  · split at h <;> cases h
    · refine (hK he).trans ?_
      have g := State.settle_frame (effect s)
      exact
        { g with
          parts := fun p hp => g.parts p fun hm => hp (List.mem_append_right _ hm)
          words := fun ha r d i hr => g.words rfl r d i fun hm => hr (by
            simp only [Touch.halts, List.append_assoc, List.mem_append] at hm ⊢
            exact .inr hm) }
    · exact .refl _
  · cases h

end Sys2Proof.Machine
end

