-- ==== Sys2Proof/Laws/Completes.lean ====
section
/-! SUPPORT. Register bits outside a list of fields, and what a command completes with. -/

namespace Sys2Proof.Machine

variable {fs gs : List (Fld × Nat × Nat)} {s t u : State}

theorem KeepsBut.refl (fs : List (Fld × Nat × Nat)) (s : State) : KeepsBut fs s s := fun _ _ _ _ _ => rfl

theorem KeepsBut.trans (h : KeepsBut fs s t) (g : KeepsBut fs t u) : KeepsBut fs s u := fun r d i k hk =>
  (g r d i k hk).trans (h r d i k hk)

theorem KeepsBut.mono (h : KeepsBut fs s t) (hs : ∀ x ∈ fs, x ∈ gs) : KeepsBut gs s t := fun r d i k hk =>
  h r d i k fun x hx => hk x (hs x hx)

/-- A state with the same register file. -/
theorem KeepsBut.of_regs (h : t.regs = s.regs) : KeepsBut fs s t := fun r d i k _ => by
  rw [State.word_congr h]

theorem getLsbD_ofNat_putBits {w : Word} {lo len v k : Nat} (h : k < lo ∨ lo + len ≤ k) :
    (BitVec.ofNat 64 (putBits w.toNat lo len v)).getLsbD k = w.getLsbD k := by
  by_cases hk : k < 64
  · have e : bits (putBits w.toNat lo len v) k 1 = bits w.toNat k 1 := by
      rcases h with h | h
      · exact bits_putBits_below (by omega)
      · exact bits_putBits_above h
    rw [bits_eq, bits_eq] at e
    have e' : (putBits w.toNat lo len v).testBit k = w.toNat.testBit k := by
      simp only [Nat.testBit_eq_decide_div_mod_eq]
      rw [pow_one] at e
      rw [e]
    rw [BitVec.getLsbD_ofNat, e']
    simp [hk, BitVec.getLsbD]
  · rw [BitVec.getLsbD_of_ge _ _ (by omega), BitVec.getLsbD_of_ge _ _ (by omega)]

/-- Putting a field changes no bit outside it. -/
theorem KeepsBut.put (h : KeepsBut fs s t) {f : Fld} {v d i : Nat} (hf : (f, d, i) ∈ fs) : KeepsBut fs s (t.put f v d i) := by
  refine h.trans fun r d' i' k hk => ?_
  by_cases hp : f.reg.place d i = r.place d' i'
  · have hr : f.reg = r := congrArg Loc.reg hp
    have hi : i = i' := congrArg Loc.idx hp
    subst hr
    subst hi
    have hw : ∀ u : State, u.word f.reg d' i = u.word f.reg d i := fun u => by simp only [State.word]; rw [hp]
    rw [hw, hw, State.put, State.word_setWord_same]
    exact getLsbD_ofNat_putBits (hk _ hf hp)
  · rw [State.word_put_place hp]

theorem KeepsBut.flag (h : KeepsBut fs s t) {f : Fld} {d i : Nat} (hf : (f, d, i) ∈ fs) : KeepsBut fs s (t.flag f d i) :=
  h.put hf

theorem KeepsBut.bump (h : KeepsBut fs s t) {f : Fld} {n d i : Nat} (hf : (f, d, i) ∈ fs) : KeepsBut fs s (t.bump f n d i) :=
  h.put hf

theorem KeepsBut.addWrap (h : KeepsBut fs s t) {f : Fld} {n d i : Nat} (hf : (f, d, i) ∈ fs) :
    KeepsBut fs s (t.addWrap f n d i) := h.put hf

/-- A change that leaves the register file. -/
theorem KeepsBut.step (h : KeepsBut fs s t) (e : u.regs = t.regs) : KeepsBut fs s u := h.trans (.of_regs e)

/-- A field outside those listed reads as before. -/
theorem KeepsBut.get (h : KeepsBut fs s t) {f : Fld} {d i : Nat}
    (hf : ∀ x ∈ fs, x.1.reg.place x.2.1 x.2.2 = f.reg.place d i → f.lo + f.len ≤ x.1.lo ∨ x.1.lo + x.1.len ≤ f.lo) :
    t.get f d i = s.get f d i := by
  refine Nat.eq_of_testBit_eq fun k => ?_
  simp only [State.get, bits, Nat.testBit_mod_two_pow, Nat.testBit_shiftRight]
  by_cases hk : k < f.len
  · have := h f.reg d i (f.lo + k) fun x hx e => by have := hf x hx e; omega
    simpa [hk, BitVec.getLsbD] using this
  · simp [hk]

/-- A command whose effect makes no die fatal completes with its effect. -/
theorem Completes.of_effect {c : Instr} {parts : List Part} {post : State → Prop} {effect : State → State}
    (h : s.Reaches c) (e : exec c s = act c s effect) (hf : (effect s).flt.fatal = s.flt.fatal)
    (hq : (effect s).pending = s.pending) (hp : ∀ p, p ∉ parts → p.same s (effect s))
    (hk : KeepsBut fs s (effect s)) (hpost : post (effect s)) : Completes c s parts fs post :=
  ⟨effect s, e.trans (act_effect h hf), hq, hp, hk, hpost⟩

end Sys2Proof.Machine
end

