-- ==== Sys2Proof/Laws/FrameAccum.lean ====
section
/-! SUPPORT. The footprints of the functions of Machine/Accum.lean. -/

namespace Sys2Proof.Machine

set_option Elab.async false

theorem State.awRefuse_frame (s : State) (a : Nat) :
    Frame ⟨[], [.HBC_EVENTS], false⟩ s (State.awRefuse s a) := by
  unfold State.awRefuse
  extract_lets +onlyGivenNames t0
  refine Frame.trans ?_ (State.flag_frame (h := ?_) _ _ _ _)
  · exact Frame.refl _
  · decide +kernel

theorem State.accumulate_frame (s : State) (a : Nat) (mask : Nat) (addends : List Nat) :
    Frame ⟨recordParts, recordRegs ++ [Reg.HBC_AW_SECTORS, Reg.HBC_COUNTS, Reg.HBC_EVENTS, Reg.HBC_UE_ADDR], false⟩ s (State.accumulate
    s a mask addends).1 := by
  show Frame.Fst _ _ _
  unfold State.accumulate
  refine Frame.Fst.ite ?_ ?_
  · refine Frame.Fst.mk ?_
    refine Frame.step ?_ (State.awRefuse_frame _ _)
    exact Frame.refl _
  · split
    refine Frame.Fst.ite ?_ ?_
    · refine Frame.Fst.mk ?_
      refine Frame.trans ?_ (State.bump_frame (h := ?_) _ _ _ _ _)
      · refine Frame.step ?_ (State.store_frame _ _ _)
        refine Frame.fst (by assumption) ?_
        change Frame.Fst _ _ _
        refine Frame.Fst.step ?_ (State.checkHbm_frame _ _ _)
        exact Frame.refl _
      · decide +kernel
    · refine Frame.Fst.mk ?_
      refine Frame.fst (by assumption) ?_
      change Frame.Fst _ _ _
      refine Frame.Fst.step ?_ (State.checkHbm_frame _ _ _)
      exact Frame.refl _

end Sys2Proof.Machine
end

