-- ==== Sys2Proof/Laws/FrameHolder.lean ====
section
/-! SUPPORT. The footprints of the functions of Machine/Holder.lean. -/

namespace Sys2Proof.Machine

set_option Elab.async false

theorem State.takeAnswer_frame (s : State) (u : Nat) (tag : Nat) (status : Nat) (data : Bytes) (write : Bool) :
    Frame.OptSnd ⟨[.rem], [], false⟩ s (State.takeAnswer s u tag status data write) := by
  unfold State.takeAnswer
  extract_lets +onlyGivenNames t0
  split
  · exact Frame.OptSnd.none
  · refine Frame.OptSnd.some ?_
    refine Frame.step ?_ (State.onRem_frame _ _)
    exact Frame.refl _

theorem State.opAcknowledged_frame (s : State) (u : Nat) (tag : Nat) (addr : Nat) (status : Nat) :
    Frame ⟨recordParts, recordRegs ++ errorRegs, false⟩ s (State.opAcknowledged s u tag addr status) := by
  unfold State.opAcknowledged
  split
  · exact Frame.refl _
  · (extract_lets +onlyGivenNames t0; refine Frame.via (t := t0) ?_ fun h0 => ?_; rotate_left; clear_value t0; rotate_left)
    · unfold t0
      refine Frame.step ?_ (State.onOp_frame _ _ _ _)
      exact Frame.refl _
    · refine Frame.ite ?_ ?_
      · refine Frame.trans ?_ (State.failOp_frame (g0 := ?_) _ _ _ _ _ _)
        · exact h0
        · intro t1
          dsimp only [id]
          exact Frame.refl _
      · refine Frame.step ?_ (State.onOp_frame _ _ _ _)
        exact h0

theorem State.coreError_frame (s : State) (u : Nat) (addr : Nat) (write : Bool) :
    Frame ⟨recordParts ++ [Part.out], recordRegs ++ [Reg.HCX_EVENTS], false⟩ s (State.coreError s u addr write) := by
  unfold State.coreError
  (extract_lets +onlyGivenNames t0; refine Frame.via (t := t0) ?_ fun h0 => ?_; rotate_left; clear_value t0; rotate_left)
  · unfold t0
    refine Frame.step ?_ (State.faultOf_frame _ _ _ _)
    exact Frame.refl _
  · refine Frame.step ?_ (State.emit_frame _ _)
    refine Frame.trans ?_ (State.flag_frame (h := ?_) _ _ _ _)
    · exact h0
    · decide +kernel

theorem State.readArrived_frame (s : State) (u : Nat) (addr : Nat) (len : Nat) (status : Nat) (data : Bytes) :
    Frame ⟨recordParts ++ [Part.out, Part.rem], recordRegs ++ [Reg.HCX_EVENTS], false⟩ s (State.readArrived s u addr len status data)
    := by
  unfold State.readArrived
  refine Frame.ite ?_ ?_
  · refine Frame.ite ?_ ?_
    · refine Frame.step ?_ (State.emit_frame _ _)
      exact Frame.refl _
    · refine Frame.step ?_ (State.coreError_frame _ _ _ _)
      exact Frame.refl _
  · refine Frame.ite ?_ ?_
    · refine Frame.step ?_ (State.onRem_frame _ _)
      exact Frame.refl _
    · refine Frame.step ?_ (State.onRem_frame _ _)
      exact Frame.refl _

theorem State.cmdAcknowledged_frame (s : State) (u : Nat) (tag : Nat) (addr : Nat) (status : Nat) :
    Frame ⟨recordParts ++ [Part.qcx], recordRegs, false⟩ s (State.cmdAcknowledged s u tag addr status) := by
  unfold State.cmdAcknowledged
  refine Frame.ite ?_ ?_
  · (extract_lets +onlyGivenNames t0; refine Frame.via (t := t0) ?_ fun h0 => ?_; rotate_left; clear_value t0; rotate_left)
    · unfold t0
      refine Frame.step ?_ (State.onQcx_frame _ _)
      exact Frame.refl _
    · refine Frame.ite ?_ ?_
      · exact h0
      · refine Frame.step ?_ (State.faultOf_frame _ _ _ _)
        exact h0
  · exact Frame.refl _

theorem State.writeArrived_frame (s : State) (u : Nat) (tag : Nat) (addr : Nat) (status : Nat) :
    Frame ⟨recordParts ++ [Part.out, Part.qcx], recordRegs ++ errorRegs ++ [Reg.HCX_EVENTS], false⟩ s (State.writeArrived s u tag addr
    status) := by
  unfold State.writeArrived
  refine Frame.ite ?_ ?_
  · refine Frame.ite ?_ ?_
    · refine Frame.step ?_ (State.emit_frame _ _)
      exact Frame.refl _
    · refine Frame.step ?_ (State.coreError_frame _ _ _ _)
      exact Frame.refl _
  · refine Frame.step ?_ (State.cmdAcknowledged_frame _ _ _ _ _)
    refine Frame.step ?_ (State.opAcknowledged_frame _ _ _ _ _)
    exact Frame.refl _

end Sys2Proof.Machine
end

