-- ==== Sys2Proof/Laws/FrameImage.lean ====
section
/-! SUPPORT. The footprints of the functions of Machine/Image.lean. -/

namespace Sys2Proof.Machine

set_option Elab.async false

theorem State.takeUp_frame (s : State) :
    Frame ⟨[.sched], [.SCH_EVENTS, .SCH_IMAGE_ERROR], false⟩ s (State.takeUp s) := by
  unfold State.takeUp
  (extract_lets +onlyGivenNames t0; refine Frame.via (t := t0) ?_ fun h0 => ?_; rotate_left; clear_value t0; rotate_left)
  · unfold t0
    refine Frame.step ?_ (State.onSched_frame _ _)
    exact Frame.refl _
  · split
    · refine Frame.trans ?_ (State.flag_frame (h := ?_) _ _ _ _)
      · refine Frame.trans ?_ (State.put_frame (h := ?_) _ _ _ _ _)
        · exact h0
        · decide +kernel
      · decide +kernel
    · refine Frame.step ?_ (State.onSched_frame _ _)
      exact h0

end Sys2Proof.Machine
end

