-- ==== Sys2Proof/Laws/FrameBdi.lean ====
section
/-! SUPPORT. The footprints of the functions of Machine/Bdi.lean. -/

namespace Sys2Proof.Machine

set_option Elab.async false

theorem State.refuseMessage_frame (s : State) (chan : Nat) (msg : Bytes) :
    Frame ⟨[.out], [], false⟩ s (State.refuseMessage s chan msg) := by
  unfold State.refuseMessage
  refine Frame.ite ?_ ?_
  · refine Frame.step ?_ (State.emit_frame _ _)
    exact Frame.refl _
  · exact Frame.refl _

theorem State.onLinkEnd_frame (s : State) (die : Nat) (link : Nat) (f : BdiLink → BdiLink) :
    Frame ⟨[.bdi], [], false⟩ s (State.onLinkEnd s die link f) := by
  unfold State.onLinkEnd
  refine Frame.step ?_ (State.onBdi_frame _ _)
  exact Frame.refl _

theorem State.recordRepairs_frame (s : State) (die : Nat) (link : Nat) (x : BdiFacts) :
    Frame ⟨[], [.BDI_EVENTS, .BDI_REPAIR], false⟩ s (State.recordRepairs s die link x) := by
  unfold State.recordRepairs
  refine Frame.foldl fun t0 x0 => ?_
  extract_lets +onlyGivenNames t1
  extract_lets +onlyGivenNames t2
  (extract_lets +onlyGivenNames t3; refine Frame.via (t := t3) ?_ fun h3 => ?_; rotate_left; clear_value t3; rotate_left)
  · unfold t3
    refine Frame.ite ?_ ?_
    · refine Frame.trans ?_ (State.flag_frame (h := ?_) _ _ _ _)
      · exact Frame.refl _
      · decide +kernel
    · exact Frame.refl _
  · refine Frame.trans ?_ (State.setWord_frame (h := ?_) _ _ _ _ _)
    · exact h3
    · decide +kernel

theorem State.sendControl_frame (s : State) (die : Nat) (link : Nat) (nak : Bool) (cchan : Nat) (count : Nat) :
    Frame ⟨[.out], [], false⟩ s (State.sendControl s die link nak cchan count) := by
  unfold State.sendControl
  extract_lets +onlyGivenNames t0
  refine Frame.step ?_ (State.emit_frame _ _)
  exact Frame.refl _

theorem State.linkRecord_frame (s : State) (die : Nat) (link : Nat) :
    Frame ⟨recordParts, recordRegs, false⟩ s (State.linkRecord s die link) := by
  unfold State.linkRecord
  refine Frame.step ?_ (State.faultOf_frame _ _ _ _)
  exact Frame.refl _

theorem State.sendSlot_frame (s : State) (die : Nat) (link : Nat) :
    Frame.Opt ⟨[.out, .bdi], [], false⟩ s (State.sendSlot s die link) := by
  unfold State.sendSlot
  extract_lets +onlyGivenNames t0
  refine Frame.Opt.ite ?_ ?_
  · exact Frame.Opt.none
  · split
    · exact Frame.Opt.none
    · extract_lets +onlyGivenNames t1
      extract_lets +onlyGivenNames t2
      extract_lets +onlyGivenNames t3
      (extract_lets +onlyGivenNames t4; refine Frame.Opt.via (t := t4) ?_ fun h4 => ?_; rotate_left; clear_value t4; rotate_left)
      · unfold t4
        refine Frame.step ?_ (State.onLinkEnd_frame _ _ _ _)
        exact Frame.refl _
      · refine Frame.Opt.some ?_
        refine Frame.step ?_ (State.emit_frame _ _)
        exact h4

theorem State.drainLink_frame (n1 : Nat) (s : State) (die : Nat) (link : Nat) :
    Frame ⟨[.out, .bdi], [], false⟩ s (State.drainLink n1 s die link) := by
  induction n1 generalizing s with
  | zero =>
    unfold State.drainLink
    exact Frame.refl _
  | succ n1 ih =>
    unfold State.drainLink
    split
    · exact Frame.refl _
    · refine Frame.trans ?_ (ih _)
      refine Frame.opt (by assumption) ?_
      refine Frame.Opt.step ?_ (State.sendSlot_frame _ _ _)
      exact Frame.refl _

theorem State.drainBdi_frame (s : State) (die : Nat) (link : Nat) :
    Frame ⟨[.out, .bdi], [], false⟩ s (State.drainBdi s die link) := by
  unfold State.drainBdi
  refine Frame.step ?_ (State.drainLink_frame _ _ _ _)
  exact Frame.refl _

theorem State.sendMessage_frame (s : State) (die : Nat) (link : Nat) (chan : Nat) (msg : Bytes) :
    Frame ⟨[.out, .bdi], [], false⟩ s (State.sendMessage s die link chan msg) := by
  unfold State.sendMessage
  refine Frame.step ?_ (State.drainBdi_frame _ _ _)
  refine Frame.step ?_ (State.onLinkEnd_frame _ _ _ _)
  exact Frame.refl _

theorem State.routeMessage_frame (s : State) (die : Nat) (link : Nat) (chan : Nat) (msg : Bytes) :
    Frame ⟨recordParts ++ [Part.out, Part.bdi], recordRegs ++ [Reg.BDI_EVENTS], false⟩ s (State.routeMessage s die link chan msg) := by
  unfold State.routeMessage
  extract_lets +onlyGivenNames t0
  refine Frame.ite ?_ ?_
  · refine Frame.trans ?_ (State.flag_frame (h := ?_) _ _ _ _)
    · exact Frame.refl _
    · decide +kernel
  · refine Frame.ite ?_ ?_
    · refine Frame.step ?_ (State.emit_frame _ _)
      exact Frame.refl _
    · split
      · refine Frame.step ?_ (State.refuseMessage_frame _ _ _)
        exact Frame.refl _
      · refine Frame.ite ?_ ?_
        · refine Frame.step ?_ (State.linkRecord_frame _ _ _)
          refine Frame.step ?_ (State.refuseMessage_frame _ _ _)
          exact Frame.refl _
        · refine Frame.step ?_ (State.sendMessage_frame _ _ _ _ _)
          exact Frame.refl _

theorem State.bdiAccept_frame (s : State) (die : Nat) (link : Nat) (b : Bytes) :
    Frame ⟨recordParts ++ [Part.out, Part.bdi], recordRegs ++ [Reg.BDI_EVENTS], false⟩ s (State.bdiAccept s die link b) := by
  unfold State.bdiAccept
  extract_lets +onlyGivenNames t0
  (extract_lets +onlyGivenNames t1; refine Frame.via (t := t1) ?_ fun h1 => ?_; rotate_left; clear_value t1; rotate_left)
  · unfold t1
    refine Frame.step ?_ (State.onLinkEnd_frame _ _ _ _)
    exact Frame.refl _
  · extract_lets +onlyGivenNames t2
    refine Frame.ite ?_ ?_
    · refine Frame.step ?_ (State.sendControl_frame _ _ _ _ _ _)
      refine Frame.trans ?_ (State.flag_frame (h := ?_) _ _ _ _)
      · exact h1
      · decide +kernel
    · (extract_lets +onlyGivenNames t3; refine Frame.via (t := t3) ?_ fun h3 => ?_; rotate_left; clear_value t3; rotate_left)
      · unfold t3
        refine Frame.step ?_ (State.onLinkEnd_frame _ _ _ _)
        exact h1
      · refine Frame.ite ?_ ?_
        · refine Frame.step ?_ (State.sendControl_frame _ _ _ _ _ _)
          exact h3
        · extract_lets +onlyGivenNames t4
          extract_lets +onlyGivenNames t5
          (extract_lets +onlyGivenNames t6; refine Frame.via (t := t6) ?_ fun h6 => ?_; rotate_left; clear_value t6; rotate_left)
          · unfold t6
            refine Frame.step ?_ (State.onLinkEnd_frame _ _ _ _)
            exact h3
          · refine Frame.step ?_ (State.routeMessage_frame _ _ _ _ _)
            refine Frame.step ?_ (State.sendControl_frame _ _ _ _ _ _)
            exact h6

theorem State.linkRetrain_frame (s : State) (die : Nat) (link : Nat) :
    Frame ⟨recordParts ++ [Part.bdi], recordRegs ++ [Reg.BDI_EVENTS, Reg.BDI_STATUS], false⟩ s (State.linkRetrain s die link) := by
  unfold State.linkRetrain
  refine Frame.ite ?_ ?_
  · (extract_lets +onlyGivenNames t0; refine Frame.via (t := t0) ?_ fun h0 => ?_; rotate_left; clear_value t0; rotate_left)
    · unfold t0
      refine Frame.trans ?_ (State.flag_frame (h := ?_) _ _ _ _)
      · refine Frame.trans ?_ (State.put_frame (h := ?_) _ _ _ _ _)
        · exact Frame.refl _
        · decide +kernel
      · decide +kernel
    · refine Frame.step ?_ (State.linkRecord_frame _ _ _)
      refine Frame.step ?_ (State.onLinkEnd_frame _ _ _ _)
      exact h0
  · exact Frame.refl _

theorem State.bdiAck_frame (s : State) (die : Nat) (link : Nat) (ack : Nat) :
    Frame ⟨[.bdi], [], false⟩ s (State.bdiAck s die link ack) := by
  unfold State.bdiAck
  split
  · exact Frame.refl _
  · refine Frame.step ?_ (State.onLinkEnd_frame _ _ _ _)
    exact Frame.refl _

theorem State.discardLink_frame (s : State) (die : Nat) (link : Nat) :
    Frame ⟨[.out, .bdi], [], false⟩ s (State.discardLink s die link) := by
  unfold State.discardLink
  extract_lets +onlyGivenNames t0
  (extract_lets +onlyGivenNames t1; refine Frame.via (t := t1) ?_ fun h1 => ?_; rotate_left; clear_value t1; rotate_left)
  · unfold t1
    refine Frame.foldl fun t2 x2 => ?_
    refine Frame.step ?_ (State.refuseMessage_frame _ _ _)
    exact Frame.refl _
  · refine Frame.step ?_ (State.onLinkEnd_frame _ _ _ _)
    exact h1

theorem State.linkDown_frame {K : Touch} (s : State) (die : Nat) (link : Nat) (event : Fld) (hK : Touch.sub ⟨recordParts ++ [Part.out, Part.bdi], recordRegs ++ [Reg.BDI_EVENTS, Reg.BDI_STATUS], false⟩ K = true := by decide +kernel) (h0 : K.any = true ∨
    event.reg ∈ K.regs)  :
    Frame K s (State.linkDown s die link event) := by
  unfold State.linkDown
  extract_lets +onlyGivenNames t0
  (extract_lets +onlyGivenNames t1; refine Frame.via (t := t1) ?_ fun h1 => ?_; rotate_left; clear_value t1; rotate_left)
  · unfold t1
    refine Frame.trans ?_ (State.flag_frame (h := ?_) _ _ _ _)
    · refine Frame.trans ?_ (State.put_frame (h := ?_) _ _ _ _ _)
      · exact Frame.refl _
      · exact Touch.sub_has hK (by decide +kernel)
    · assumption
  · refine Frame.ite ?_ ?_
    · (extract_lets +onlyGivenNames t2; refine Frame.via (t := t2) ?_ fun h2 => ?_; rotate_left; clear_value t2; rotate_left)
      · unfold t2
        refine Frame.step ?_ (State.linkRecord_frame _ _ _) (Touch.sub_trans (by decide +kernel) hK)
        refine Frame.trans ?_ (State.flag_frame (h := ?_) _ _ _ _)
        · refine Frame.step ?_ (State.discardLink_frame _ _ _) (Touch.sub_trans (by decide +kernel) hK)
          exact h1
        · exact Touch.sub_has hK (by decide +kernel)
      · refine Frame.ite ?_ ?_
        · exact h2
        · (extract_lets +onlyGivenNames t3; refine Frame.via (t := t3) ?_ fun h3 => ?_; rotate_left; clear_value t3; rotate_left)
          · unfold t3
            refine Frame.step ?_ (State.makeFatal_frame _ _ _) (Touch.sub_trans (by decide +kernel) hK)
            exact h2
          · split
            · refine Frame.step ?_ (State.makeFatal_frame _ _ _) (Touch.sub_trans (by decide +kernel) hK)
              exact h3
            · exact h3
    · exact h1

theorem State.resendBdi_frame (s : State) (die : Nat) (link : Nat) :
    Frame ⟨[.out], [], false⟩ s (State.resendBdi s die link) := by
  unfold State.resendBdi
  refine Frame.foldl fun t0 x0 => ?_
  refine Frame.step ?_ (State.emit_frame _ _)
  exact Frame.refl _

theorem State.bdiDescribed_frame (s : State) (die : Nat) (link : Nat) (d : Bytes) :
    Frame ⟨recordParts ++ [Part.out, Part.bdi], recordRegs ++ [Reg.BDI_EVENTS, Reg.BDI_STATUS], false⟩ s (State.bdiDescribed s die link d)
    := by
  unfold State.bdiDescribed
  refine Frame.ite ?_ ?_
  · exact Frame.refl _
  · extract_lets +onlyGivenNames t0
    extract_lets +onlyGivenNames t1
    (extract_lets +onlyGivenNames t2; refine Frame.via (t := t2) ?_ fun h2 => ?_; rotate_left; clear_value t2; rotate_left)
    · unfold t2
      refine Frame.step ?_ (State.onLinkEnd_frame _ _ _ _)
      exact Frame.refl _
    · refine Frame.ite ?_ ?_
      · refine Frame.trans ?_ (State.linkDown_frame (h0 := ?_) _ _ _ _)
        · refine Frame.trans ?_ (State.put_frame (h := ?_) _ _ _ _ _)
          · exact h2
          · decide +kernel
        · decide +kernel
      · extract_lets +onlyGivenNames t3
        (extract_lets +onlyGivenNames t4; refine Frame.via (t := t4) ?_ fun h4 => ?_; rotate_left; clear_value t4; rotate_left)
        · unfold t4
          refine Frame.ite ?_ ?_
          · refine Frame.trans ?_ (State.flag_frame (h := ?_) _ _ _ _)
            · refine Frame.step ?_ (State.discardLink_frame _ _ _)
              exact h2
            · decide +kernel
          · exact h2
        · (extract_lets +onlyGivenNames t5; refine Frame.via (t := t5) ?_ fun h5 => ?_; rotate_left; clear_value t5; rotate_left)
          · unfold t5
            refine Frame.trans ?_ (State.put_frame (h := ?_) _ _ _ _ _)
            · refine Frame.trans ?_ (State.flag_frame (h := ?_) _ _ _ _)
              · exact h4
              · decide +kernel
            · decide +kernel
          · (extract_lets +onlyGivenNames t6; refine Frame.via (t := t6) ?_ fun h6 => ?_; rotate_left; clear_value t6; rotate_left)
            · unfold t6
              refine Frame.trans ?_ (State.put_frame (h := ?_) _ _ _ _ _)
              · exact h5
              · decide +kernel
            · (extract_lets +onlyGivenNames t7; refine Frame.via (t := t7) ?_ fun h7 => ?_; rotate_left; clear_value t7; rotate_left)
              · unfold t7
                refine Frame.trans ?_ (State.put_frame (h := ?_) _ _ _ _ _)
                · exact h6
                · decide +kernel
              · (extract_lets +onlyGivenNames t8; refine Frame.via (t := t8) ?_ fun h8 => ?_; rotate_left; clear_value t8; rotate_left)
                · unfold t8
                  refine Frame.step ?_ (State.onLinkEnd_frame _ _ _ _)
                  exact h7
                · refine Frame.ite ?_ ?_
                  · refine Frame.step ?_ (State.drainBdi_frame _ _ _)
                    refine Frame.step ?_ (State.resendBdi_frame _ _ _)
                    refine Frame.step ?_ (State.bdiAck_frame _ _ _ _)
                    exact h8
                  · refine Frame.step ?_ (State.drainBdi_frame _ _ _)
                    exact h8

theorem State.bdiTrained_frame (s : State) (die : Nat) (link : Nat) (x : BdiFacts) :
    Frame ⟨recordParts ++ [Part.out, Part.bdi], recordRegs ++ [Reg.BDI_EVENTS, Reg.BDI_REPAIR, Reg.BDI_STATUS], false⟩ s (State.bdiTrained s
    die link x) := by
  unfold State.bdiTrained
  refine Frame.ite ?_ ?_
  · exact Frame.refl _
  · refine Frame.ite ?_ ?_
    · refine Frame.trans ?_ (State.linkDown_frame (h0 := ?_) _ _ _ _)
      · exact Frame.refl _
      · decide +kernel
    · (extract_lets +onlyGivenNames t0; refine Frame.via (t := t0) ?_ fun h0 => ?_; rotate_left; clear_value t0; rotate_left)
      · unfold t0
        refine Frame.trans ?_ (State.put_frame (h := ?_) _ _ _ _ _)
        · refine Frame.step ?_ (State.recordRepairs_frame _ _ _ _)
          exact Frame.refl _
        · decide +kernel
      · refine Frame.step ?_ (State.onLinkEnd_frame _ _ _ _)
        exact h0

theorem State.bdiReject_frame (s : State) (die : Nat) (link : Nat) (again : Bool) :
    Frame ⟨[.out, .bdi], [], false⟩ s (State.bdiReject s die link again) := by
  unfold State.bdiReject
  refine Frame.ite ?_ ?_
  · exact Frame.refl _
  · refine Frame.step ?_ (State.sendControl_frame _ _ _ _ _ _)
    refine Frame.step ?_ (State.onLinkEnd_frame _ _ _ _)
    exact Frame.refl _

theorem State.bdiCrcFail_frame (s : State) (die : Nat) (link : Nat) :
    Frame ⟨recordParts ++ [Part.bdi], recordRegs ++ [Reg.BDI_COUNTS, Reg.BDI_EVENTS, Reg.BDI_STATUS], false⟩ s (State.bdiCrcFail s die
    link) := by
  unfold State.bdiCrcFail
  (extract_lets +onlyGivenNames t0; refine Frame.via (t := t0) ?_ fun h0 => ?_; rotate_left; clear_value t0; rotate_left)
  · unfold t0
    refine Frame.step ?_ (State.onLinkEnd_frame _ _ _ _)
    refine Frame.trans ?_ (State.flag_frame (h := ?_) _ _ _ _)
    · refine Frame.trans ?_ (State.bump_frame (h := ?_) _ _ _ _ _)
      · exact Frame.refl _
      · decide +kernel
    · decide +kernel
  · refine Frame.ite ?_ ?_
    · refine Frame.step ?_ (State.linkRetrain_frame _ _ _)
      exact h0
    · exact h0

theorem State.tickFlit_frame (s : State) (die : Nat) (link : Nat) (b : Bytes) (arrival : Nat) :
    Frame ⟨recordParts ++ [Part.tick, Part.bdi], recordRegs ++ [Reg.BDI_COUNTS, Reg.BDI_EVENTS, Reg.BDI_STATUS], false⟩ s (State.tickFlit s
    die link b arrival) := by
  unfold State.tickFlit
  refine Frame.ite ?_ ?_
  · refine Frame.trans ?_ (State.flag_frame (h := ?_) _ _ _ _)
    · refine Frame.step ?_ (State.bdiCrcFail_frame _ _ _)
      exact Frame.refl _
    · decide +kernel
  · extract_lets +onlyGivenNames t0
    refine Frame.ite ?_ ?_
    · extract_lets +onlyGivenNames t1
      extract_lets +onlyGivenNames t2
      refine Frame.step ?_ (State.onTick_frame _ _)
      exact Frame.refl _
    · exact Frame.refl _

theorem State.bdiNak_frame (s : State) (die : Nat) (link : Nat) :
    Frame ⟨recordParts ++ [Part.out, Part.bdi], recordRegs ++ [Reg.BDI_COUNTS, Reg.BDI_EVENTS, Reg.BDI_STATUS], false⟩ s (State.bdiNak s die
    link) := by
  unfold State.bdiNak
  split
  · exact Frame.refl _
  · (extract_lets +onlyGivenNames t0; refine Frame.via (t := t0) ?_ fun h0 => ?_; rotate_left; clear_value t0; rotate_left)
    · unfold t0
      refine Frame.trans ?_ (State.bump_frame (h := ?_) _ _ _ _ _)
      · exact Frame.refl _
      · decide +kernel
    · (extract_lets +onlyGivenNames t1; refine Frame.via (t := t1) ?_ fun h1 => ?_; rotate_left; clear_value t1; rotate_left)
      · unfold t1
        refine Frame.step ?_ (State.onLinkEnd_frame _ _ _ _)
        exact h0
      · refine Frame.ite ?_ ?_
        · refine Frame.step ?_ (State.linkRetrain_frame _ _ _)
          exact h1
        · refine Frame.step ?_ (State.resendBdi_frame _ _ _)
          exact h1

theorem State.bdiCredits_frame (s : State) (die : Nat) (link : Nat) (f : BFlit) :
    Frame ⟨[.bdi], [], false⟩ s (State.bdiCredits s die link f) := by
  unfold State.bdiCredits
  refine Frame.ite ?_ ?_
  · exact Frame.refl _
  · extract_lets +onlyGivenNames t0
    extract_lets +onlyGivenNames t1
    refine Frame.step ?_ (State.onLinkEnd_frame _ _ _ _)
    exact Frame.refl _

theorem State.bdiReceive_frame (s : State) (die : Nat) (link : Nat) (b : Bytes) :
    Frame ⟨recordParts ++ [Part.out, Part.bdi], recordRegs ++ [Reg.BDI_COUNTS, Reg.BDI_EVENTS, Reg.BDI_STATUS], false⟩ s (State.bdiReceive s
    die link b) := by
  unfold State.bdiReceive
  refine Frame.ite ?_ ?_
  · exact Frame.refl _
  · refine Frame.ite ?_ ?_
    · (extract_lets +onlyGivenNames t0; refine Frame.via (t := t0) ?_ fun h0 => ?_; rotate_left; clear_value t0; rotate_left)
      · unfold t0
        refine Frame.step ?_ (State.bdiCrcFail_frame _ _ _)
        exact Frame.refl _
      · refine Frame.ite ?_ ?_
        · refine Frame.step ?_ (State.bdiReject_frame _ _ _ _)
          exact h0
        · exact h0
    · extract_lets +onlyGivenNames t1
      (extract_lets +onlyGivenNames t2; refine Frame.via (t := t2) ?_ fun h2 => ?_; rotate_left; clear_value t2; rotate_left)
      · unfold t2
        refine Frame.step ?_ (State.bdiCredits_frame _ _ _ _)
        refine Frame.step ?_ (State.bdiAck_frame _ _ _ _)
        exact Frame.refl _
      · (extract_lets +onlyGivenNames t3; refine Frame.via (t := t3) ?_ fun h3 => ?_; rotate_left; clear_value t3; rotate_left)
        · unfold t3
          refine Frame.ite ?_ ?_
          · refine Frame.step ?_ (State.bdiNak_frame _ _ _)
            exact h2
          · exact h2
        · refine Frame.ite ?_ ?_
          · exact h3
          · refine Frame.ite ?_ ?_
            · refine Frame.ite ?_ ?_
              · refine Frame.step ?_ (State.linkRetrain_frame _ _ _)
                exact h3
              · refine Frame.step ?_ (State.drainBdi_frame _ _ _)
                exact h3
            · refine Frame.ite ?_ ?_
              · refine Frame.step ?_ (State.drainBdi_frame _ _ _)
                refine Frame.step ?_ (State.bdiReject_frame _ _ _ _)
                exact h3
              · refine Frame.step ?_ (State.drainBdi_frame _ _ _)
                refine Frame.step ?_ (State.bdiAccept_frame _ _ _ _)
                exact h3

theorem State.bdiTrainLate_frame (s : State) (die : Nat) (link : Nat) :
    Frame ⟨recordParts ++ [Part.out, Part.bdi], recordRegs ++ [Reg.BDI_EVENTS, Reg.BDI_STATUS], false⟩ s (State.bdiTrainLate s die link)
    := by
  unfold State.bdiTrainLate
  refine Frame.ite ?_ ?_
  · exact Frame.refl _
  · refine Frame.trans ?_ (State.linkDown_frame (h0 := ?_) _ _ _ _)
    · exact Frame.refl _
    · decide +kernel

end Sys2Proof.Machine
end

