-- ==== Sys2Proof/Laws/FrameField.lean ====
section
/-! SUPPORT. The footprints of the functions of Machine/Field.lean. -/

namespace Sys2Proof.Machine

set_option Elab.async false

theorem State.writeReg_frame {K : Touch} (s : State) (r : Reg) (die : Nat) (idx : Nat) (half : Nat) (v : Nat) (keep :
    optParam (List Nat) []) (hw : optParam Nat 0) (hK : Touch.sub ⟨[], [], false⟩ K = true := by decide +kernel) (h0 : K.any
    = true ∨ r ∈ K.regs)  :
    Frame K s (State.writeReg s r die idx half v keep hw) := by
  unfold State.writeReg
  extract_lets +onlyGivenNames t0
  refine Frame.trans ?_ (State.setWord_frame (h := ?_) _ _ _ _ _)
  · exact Frame.refl _
  · assumption

end Sys2Proof.Machine
end

