-- ==== Sys2Proof/Laws/FrameGen.lean ====
section
/-! SUPPORT. The footprints of the functions of Machine/Gen.lean. -/

namespace Sys2Proof.Machine

set_option Elab.async false

theorem State.setGen_frame (s : State) (die : Nat) (g : Nat) (w : Nat × Nat) :
    Frame ⟨[], [.VSE_GEN_STATE], false⟩ s (State.setGen s die g w) := by
  unfold State.setGen
  refine Frame.trans ?_ (State.setWord_frame (h := ?_) _ _ _ _ _)
  · refine Frame.trans ?_ (State.setWord_frame (h := ?_) _ _ _ _ _)
    · exact Frame.refl _
    · decide +kernel
  · decide +kernel

theorem State.draw_frame (s : State) (die : Nat) (g : Nat) :
    Frame ⟨[], [.VSE_GEN_STATE], false⟩ s (State.draw s die g).1 := by
  show Frame.Fst _ _ _
  unfold State.draw
  split
  refine Frame.Fst.mk ?_
  refine Frame.step ?_ (State.setGen_frame _ _ _ _)
  exact Frame.refl _

theorem State.drawVector_frame (s : State) (die : Nat) (n : Nat) :
    Frame ⟨[], [.VSE_GEN_STATE], false⟩ s (State.drawVector s die n).1 := by
  show Frame.Fst _ _ _
  unfold State.drawVector
  refine Frame.Fst.foldl ?_ fun t0 x0 y0 => ?_
  · refine Frame.Fst.mk ?_
    exact Frame.refl _
  · split
    refine Frame.Fst.mk ?_
    refine Frame.fst (by assumption) ?_
    change Frame.Fst _ _ _
    refine Frame.Fst.step ?_ (State.draw_frame _ _ _)
    change Frame.Fst _ _ _
    refine Frame.Fst.mk ?_
    exact Frame.refl _

end Sys2Proof.Machine
end

