-- ==== Sys2Proof/Laws/FrameReduce.lean ====
section
/-! SUPPORT. The footprints of the functions of Machine/Reduce.lean. -/

namespace Sys2Proof.Machine

set_option Elab.async false

theorem redMore_frame (u : Nat) (tag : Nat) (s : State) :
    Frame ⟨[], [.RDX_ERROR], false⟩ s (redMore u tag s) := by
  unfold redMore
  refine Frame.trans ?_ (State.put_frame (h := ?_) _ _ _ _ _)
  · exact Frame.refl _
  · decide +kernel

theorem State.readTag_frame (s : State) (u : Nat) (tag : Nat) (round : Nat) (payload : Bytes) :
    Frame ⟨recordParts, readRegs, false⟩ s (State.readTag s u tag round payload).1 := by
  show Frame.Fst _ _ _
  unfold State.readTag
  extract_lets +onlyGivenNames t0
  split
  extract_lets +onlyGivenNames t1
  extract_lets +onlyGivenNames t2
  extract_lets +onlyGivenNames t3
  split
  extract_lets +onlyGivenNames t4
  extract_lets +onlyGivenNames t5
  extract_lets +onlyGivenNames t6
  extract_lets +onlyGivenNames t7
  extract_lets +onlyGivenNames t8
  extract_lets +onlyGivenNames t9
  extract_lets +onlyGivenNames t10
  extract_lets +onlyGivenNames t11
  extract_lets +onlyGivenNames t12
  refine Frame.Fst.ite ?_ ?_
  · refine Frame.Fst.mk ?_
    refine Frame.fst (by assumption) ?_
    change Frame.Fst _ _ _
    refine Frame.Fst.ite ?_ ?_
    · refine Frame.Fst.mk ?_
      refine Frame.fst (by assumption) ?_
      change Frame.Fst _ _ _
      refine Frame.Fst.step ?_ (State.readSpan_frame _ _ _)
      exact Frame.refl _
    · refine Frame.Fst.step ?_ (State.readSpan_frame _ _ _)
      refine Frame.fst (by assumption) ?_
      change Frame.Fst _ _ _
      refine Frame.Fst.step ?_ (State.readSpan_frame _ _ _)
      exact Frame.refl _
  · refine Frame.Fst.ite ?_ ?_
    · refine Frame.Fst.mk ?_
      refine Frame.fst (by assumption) ?_
      change Frame.Fst _ _ _
      refine Frame.Fst.ite ?_ ?_
      · refine Frame.Fst.mk ?_
        refine Frame.fst (by assumption) ?_
        change Frame.Fst _ _ _
        refine Frame.Fst.step ?_ (State.readSpan_frame _ _ _)
        exact Frame.refl _
      · refine Frame.Fst.step ?_ (State.readSpan_frame _ _ _)
        refine Frame.fst (by assumption) ?_
        change Frame.Fst _ _ _
        refine Frame.Fst.step ?_ (State.readSpan_frame _ _ _)
        exact Frame.refl _
    · refine Frame.Fst.ite ?_ ?_
      · refine Frame.Fst.mk ?_
        refine Frame.fst (by assumption) ?_
        change Frame.Fst _ _ _
        refine Frame.Fst.ite ?_ ?_
        · refine Frame.Fst.mk ?_
          refine Frame.fst (by assumption) ?_
          change Frame.Fst _ _ _
          refine Frame.Fst.step ?_ (State.readSpan_frame _ _ _)
          exact Frame.refl _
        · refine Frame.Fst.step ?_ (State.readSpan_frame _ _ _)
          refine Frame.fst (by assumption) ?_
          change Frame.Fst _ _ _
          refine Frame.Fst.step ?_ (State.readSpan_frame _ _ _)
          exact Frame.refl _
      · refine Frame.Fst.ite ?_ ?_
        · refine Frame.Fst.mk ?_
          refine Frame.fst (by assumption) ?_
          change Frame.Fst _ _ _
          refine Frame.Fst.ite ?_ ?_
          · refine Frame.Fst.mk ?_
            refine Frame.fst (by assumption) ?_
            change Frame.Fst _ _ _
            refine Frame.Fst.step ?_ (State.readSpan_frame _ _ _)
            exact Frame.refl _
          · refine Frame.Fst.step ?_ (State.readSpan_frame _ _ _)
            refine Frame.fst (by assumption) ?_
            change Frame.Fst _ _ _
            refine Frame.Fst.step ?_ (State.readSpan_frame _ _ _)
            exact Frame.refl _
        · refine Frame.Fst.ite ?_ ?_
          · refine Frame.Fst.mk ?_
            refine Frame.fst (by assumption) ?_
            change Frame.Fst _ _ _
            refine Frame.Fst.ite ?_ ?_
            · refine Frame.Fst.mk ?_
              refine Frame.fst (by assumption) ?_
              change Frame.Fst _ _ _
              refine Frame.Fst.step ?_ (State.readSpan_frame _ _ _)
              exact Frame.refl _
            · refine Frame.Fst.step ?_ (State.readSpan_frame _ _ _)
              refine Frame.fst (by assumption) ?_
              change Frame.Fst _ _ _
              refine Frame.Fst.step ?_ (State.readSpan_frame _ _ _)
              exact Frame.refl _
          · refine Frame.Fst.ite ?_ ?_
            · refine Frame.Fst.mk ?_
              refine Frame.fst (by assumption) ?_
              change Frame.Fst _ _ _
              refine Frame.Fst.ite ?_ ?_
              · refine Frame.Fst.mk ?_
                refine Frame.fst (by assumption) ?_
                change Frame.Fst _ _ _
                refine Frame.Fst.step ?_ (State.readSpan_frame _ _ _)
                exact Frame.refl _
              · refine Frame.Fst.step ?_ (State.readSpan_frame _ _ _)
                refine Frame.fst (by assumption) ?_
                change Frame.Fst _ _ _
                refine Frame.Fst.step ?_ (State.readSpan_frame _ _ _)
                exact Frame.refl _
            · refine Frame.Fst.ite ?_ ?_
              · refine Frame.Fst.mk ?_
                refine Frame.fst (by assumption) ?_
                change Frame.Fst _ _ _
                refine Frame.Fst.ite ?_ ?_
                · refine Frame.Fst.mk ?_
                  refine Frame.fst (by assumption) ?_
                  change Frame.Fst _ _ _
                  refine Frame.Fst.step ?_ (State.readSpan_frame _ _ _)
                  exact Frame.refl _
                · refine Frame.Fst.step ?_ (State.readSpan_frame _ _ _)
                  refine Frame.fst (by assumption) ?_
                  change Frame.Fst _ _ _
                  refine Frame.Fst.step ?_ (State.readSpan_frame _ _ _)
                  exact Frame.refl _
              · refine Frame.Fst.ite ?_ ?_
                · refine Frame.Fst.mk ?_
                  refine Frame.fst (by assumption) ?_
                  change Frame.Fst _ _ _
                  refine Frame.Fst.ite ?_ ?_
                  · refine Frame.Fst.mk ?_
                    refine Frame.fst (by assumption) ?_
                    change Frame.Fst _ _ _
                    refine Frame.Fst.step ?_ (State.readSpan_frame _ _ _)
                    exact Frame.refl _
                  · refine Frame.Fst.step ?_ (State.readSpan_frame _ _ _)
                    refine Frame.fst (by assumption) ?_
                    change Frame.Fst _ _ _
                    refine Frame.Fst.step ?_ (State.readSpan_frame _ _ _)
                    exact Frame.refl _
                · refine Frame.Fst.mk ?_
                  refine Frame.fst (by assumption) ?_
                  change Frame.Fst _ _ _
                  refine Frame.Fst.ite ?_ ?_
                  · refine Frame.Fst.mk ?_
                    refine Frame.fst (by assumption) ?_
                    change Frame.Fst _ _ _
                    refine Frame.Fst.step ?_ (State.readSpan_frame _ _ _)
                    exact Frame.refl _
                  · refine Frame.Fst.step ?_ (State.readSpan_frame _ _ _)
                    refine Frame.fst (by assumption) ?_
                    change Frame.Fst _ _ _
                    refine Frame.Fst.step ?_ (State.readSpan_frame _ _ _)
                    exact Frame.refl _

theorem ropenTask_frame (u : Nat) (p : BitVec 192) :
    Task.Framed ⟨accessParts ++ [Part.rdx], accessRegs ++ errorRegs ++ [Reg.XLT_COUNTS], false⟩ (ropenTask u p) := by
  unfold ropenTask
  extract_lets +onlyGivenNames t0
  extract_lets +onlyGivenNames t1
  extract_lets +onlyGivenNames t2
  (refine Task.Framed.mk (fun s => ?_) fun s => ?_ <;> dsimp only)
  · unfold t2
    refine Frame.step ?_ (redMore_frame _ _ _)
    exact Frame.refl _
  · (refine Plan.Framed.mk (fun t => ?_) (fun t a => ?_) fun t => ?_ <;> dsimp only)
    · unfold t2
      refine Frame.step ?_ (redMore_frame _ _ _)
      exact Frame.refl _
    · exact Frame.refl _
    · split
      · refine Frame.Body.mk ?_ ?_
        · refine Frame.fst (by assumption) ?_
          change Frame.Fst _ _ _
          refine Frame.Fst.step ?_ (State.readTag_frame _ _ _ _ _)
          exact Frame.refl _
        · trivial
      · refine Frame.Body.mk ?_ ?_
        · refine Frame.fst (by assumption) ?_
          change Frame.Fst _ _ _
          refine Frame.Fst.step ?_ (State.readTag_frame _ _ _ _ _)
          exact Frame.refl _
        · trivial
      · refine Frame.Body.ite ?_ ?_
        · refine Frame.Body.mk ?_ ?_
          · refine Frame.fst (by assumption) ?_
            change Frame.Fst _ _ _
            refine Frame.Fst.step ?_ (State.readTag_frame _ _ _ _ _)
            exact Frame.refl _
          · trivial
        · refine Frame.Body.ite ?_ ?_
          · refine Frame.Body.mk ?_ ?_
            · refine Frame.fst (by assumption) ?_
              change Frame.Fst _ _ _
              refine Frame.Fst.step ?_ (State.readTag_frame _ _ _ _ _)
              exact Frame.refl _
            · trivial
          · refine Frame.Body.mk ?_ ?_
            · refine Frame.step ?_ (State.onRdx_frame _ _)
              refine Frame.fst (by assumption) ?_
              change Frame.Fst _ _ _
              refine Frame.Fst.step ?_ (State.readTag_frame _ _ _ _ _)
              exact Frame.refl _
            · trivial

theorem State.redPacket_frame (s : State) (u : Nat) (dest : Nat) (destErg : Nat) (payload : Bytes) :
    Frame ⟨[.vrt], [], false⟩ s (State.redPacket s u dest destErg payload) := by
  unfold State.redPacket
  extract_lets +onlyGivenNames t0
  extract_lets +onlyGivenNames t1
  refine Frame.step ?_ (State.onVrt_frame _ _)
  exact Frame.refl _

theorem State.redSends_frame (s : State) (t : OpenTag) (sends : List RedSend) :
    Frame ⟨[.vrt], [], false⟩ s (State.redSends s t sends) := by
  unfold State.redSends
  refine Frame.foldl fun t0 x0 => ?_
  split
  · exact Frame.refl _
  · refine Frame.step ?_ (State.redPacket_frame _ _ _ _ _)
    exact Frame.refl _

theorem State.onTag_frame (s : State) (u : Nat) (tag : Nat) (f : OpenTag → OpenTag) :
    Frame ⟨[.rdx], [], false⟩ s (State.onTag s u tag f) := by
  unfold State.onTag
  refine Frame.step ?_ (State.onRdx_frame _ _)
  exact Frame.refl _

theorem State.closeTag_frame (s : State) (u : Nat) (tag : Nat) :
    Frame ⟨[.rdx], [], false⟩ s (State.closeTag s u tag) := by
  unfold State.closeTag
  refine Frame.step ?_ (State.onRdx_frame _ _)
  exact Frame.refl _

theorem State.tagProgress_frame (s : State) (u : Nat) (tag : Nat) :
    Frame ⟨[.sched, .rdx], [], false⟩ s (State.tagProgress s u tag) := by
  unfold State.tagProgress
  split
  · exact Frame.refl _
  · refine Frame.ite ?_ ?_
    · (extract_lets +onlyGivenNames t0; refine Frame.via (t := t0) ?_ fun h0 => ?_; rotate_left; clear_value t0; rotate_left)
      · unfold t0
        refine Frame.step ?_ (State.closeTag_frame _ _ _)
        exact Frame.refl _
      · split
        · refine Frame.step ?_ (State.finishOp_frame _ _ _ _ _)
          exact h0
        · exact h0
    · exact Frame.refl _

theorem State.setVerdict_frame (s : State) (u : Nat) (n : Nat) :
    Frame ⟨recordParts, readRegs, false⟩ s (State.setVerdict s u n) := by
  unfold State.setVerdict
  extract_lets +onlyGivenNames t0
  change Frame.Fst _ _ _
  refine Frame.Fst.step ?_ (State.writeSpan_frame _ _ _)
  exact Frame.refl _

theorem State.allrResult_frame (s : State) (u : Nat) (tag : Nat) :
    Frame ⟨[.rdx, .vrt], [], false⟩ s (State.allrResult s u tag) := by
  unfold State.allrResult
  split
  · exact Frame.refl _
  · refine Frame.ite ?_ ?_
    · extract_lets +onlyGivenNames t0
      extract_lets +onlyGivenNames t1
      (extract_lets +onlyGivenNames t2; refine Frame.via (t := t2) ?_ fun h2 => ?_; rotate_left; clear_value t2; rotate_left)
      · unfold t2
        refine Frame.foldl fun t3 x3 => ?_
        refine Frame.step ?_ (State.redPacket_frame _ _ _ _ _)
        exact Frame.refl _
      · (extract_lets +onlyGivenNames t4; refine Frame.via (t := t4) ?_ fun h4 => ?_; rotate_left; clear_value t4; rotate_left)
        · unfold t4
          refine Frame.ite ?_ ?_
          · refine Frame.step ?_ (State.redPacket_frame _ _ _ _ _)
            exact h2
          · exact h2
        · refine Frame.step ?_ (State.onTag_frame _ _ _ _)
          exact h4
    · exact Frame.refl _

theorem State.failTag_frame (s : State) (t : OpenTag) (cause : Nat) (kind : ErrorKind) :
    Frame ⟨recordParts ++ [Part.rdx], recordRegs ++ errorRegs, false⟩ s (State.failTag s t cause kind) := by
  unfold State.failTag
  (extract_lets +onlyGivenNames t0; refine Frame.via (t := t0) ?_ fun h0 => ?_; rotate_left; clear_value t0; rotate_left)
  · unfold t0
    refine Frame.step ?_ (State.closeTag_frame _ _ _)
    exact Frame.refl _
  · split
    · refine Frame.trans ?_ (State.failOp_frame (g0 := ?_) _ _ _ _ _ _)
      · exact h0
      · intro t1
        refine Frame.step ?_ (redMore_frame _ _ _)
        exact Frame.refl _
    · exact h0

theorem State.compareElement_frame (s : State) (u : Nat) (tag : Nat) (i : Nat) (p : Nat) (c : Nat) (a : Nat) :
    Frame ⟨recordParts ++ [Part.rdx], readRegs ++ [Reg.RDX_CHECK_FAIL, Reg.RDX_CHECK_VALUES, Reg.RDX_EVENTS, Reg.RDX_SAMPLED], false⟩ s
    (State.compareElement s u tag i p c a) := by
  unfold State.compareElement
  split
  · exact Frame.refl _
  · extract_lets +onlyGivenNames t0
    extract_lets +onlyGivenNames t1
    (extract_lets +onlyGivenNames t2; refine Frame.via (t := t2) ?_ fun h2 => ?_; rotate_left; clear_value t2; rotate_left)
    · unfold t2
      refine Frame.step ?_ (State.onTag_frame _ _ _ _)
      refine Frame.trans ?_ (State.bump_frame (h := ?_) _ _ _ _ _)
      · exact Frame.refl _
      · decide +kernel
    · refine Frame.ite ?_ ?_
      · exact h2
      · (extract_lets +onlyGivenNames t3; refine Frame.via (t := t3) ?_ fun h3 => ?_; rotate_left; clear_value t3; rotate_left)
        · unfold t3
          refine Frame.trans ?_ (State.put_frame (h := ?_) _ _ _ _ _)
          · refine Frame.trans ?_ (State.put_frame (h := ?_) _ _ _ _ _)
            · refine Frame.trans ?_ (State.flag_frame (h := ?_) _ _ _ _)
              · exact h2
              · decide +kernel
            · decide +kernel
          · decide +kernel
        · (extract_lets +onlyGivenNames t4; refine Frame.via (t := t4) ?_ fun h4 => ?_; rotate_left; clear_value t4; rotate_left)
          · unfold t4
            refine Frame.ite ?_ ?_
            · exact h2
            · refine Frame.trans ?_ (State.setWord_frame (h := ?_) _ _ _ _ _)
              · exact h3
              · decide +kernel
          · refine Frame.step ?_ (State.setVerdict_frame _ _ _)
            refine Frame.trans ?_ (State.flag_frame (h := ?_) _ _ _ _)
            · exact h4
            · decide +kernel

theorem State.deliverSectors_frame (s : State) (u : Nat) (tag : Nat) (n1 : Nat) :
    Frame ⟨recordParts ++ [Part.rdx], recordRegs ++ errorRegs ++ [Reg.HBC_AW_SECTORS, Reg.HBC_COUNTS, Reg.HBC_EVENTS, Reg.HBC_UE_ADDR],
    false⟩ s (State.deliverSectors s u tag n1) := by
  induction n1 generalizing s with
  | zero =>
    unfold State.deliverSectors
    exact Frame.refl _
  | succ n1 ih =>
    unfold State.deliverSectors
    split
    · exact Frame.refl _
    · extract_lets +onlyGivenNames t0
      extract_lets +onlyGivenNames t1
      refine Frame.ite ?_ ?_
      · exact Frame.refl _
      · split
        · refine Frame.step ?_ (State.failTag_frame _ _ _ _)
          refine Frame.fst (by assumption) ?_
          change Frame.Fst _ _ _
          refine Frame.Fst.step ?_ (State.accumulate_frame _ _ _ _)
          exact Frame.refl _
        · refine Frame.trans ?_ (ih _)
          refine Frame.step ?_ (State.onTag_frame _ _ _ _)
          refine Frame.fst (by assumption) ?_
          change Frame.Fst _ _ _
          refine Frame.Fst.step ?_ (State.accumulate_frame _ _ _ _)
          exact Frame.refl _

theorem State.deliver_frame (s : State) (u : Nat) (tag : Nat) (i : Nat) (v : Nat) :
    Frame ⟨recordParts ++ [Part.rdx], readRegs ++ errorRegs ++ [Reg.HBC_AW_SECTORS], false⟩ s (State.deliver s u tag i v) := by
  unfold State.deliver
  split
  · exact Frame.refl _
  · extract_lets +onlyGivenNames t0
    refine Frame.ite ?_ ?_
    · split
      · refine Frame.step ?_ (State.onTag_frame _ _ _ _)
        refine Frame.fst (by assumption) ?_
        change Frame.Fst _ _ _
        refine Frame.Fst.step ?_ (State.writeSpan_frame _ _ _)
        exact Frame.refl _
      · refine Frame.step ?_ (State.failTag_frame _ _ _ _)
        refine Frame.fst (by assumption) ?_
        change Frame.Fst _ _ _
        refine Frame.Fst.step ?_ (State.writeSpan_frame _ _ _)
        exact Frame.refl _
    · refine Frame.step ?_ (State.deliverSectors_frame _ _ _ _)
      refine Frame.step ?_ (State.onTag_frame _ _ _ _)
      exact Frame.refl _

theorem State.resultFound_frame (s : State) (u : Nat) (tag : Nat) (i : Nat) (v : Nat) :
    Frame ⟨recordParts ++ [Part.rdx], readRegs ++ errorRegs ++ [Reg.HBC_AW_SECTORS, Reg.RDX_CHECK_FAIL, Reg.RDX_CHECK_VALUES,
    Reg.RDX_SAMPLED], false⟩ s (State.resultFound s u tag i v) := by
  unfold State.resultFound
  split
  · exact Frame.refl _
  · extract_lets +onlyGivenNames t0
    extract_lets +onlyGivenNames t1
    extract_lets +onlyGivenNames t2
    (extract_lets +onlyGivenNames t3; refine Frame.via (t := t3) ?_ fun h3 => ?_; rotate_left; clear_value t3; rotate_left)
    · unfold t3
      refine Frame.foldl fun t4 x4 => ?_
      refine Frame.step ?_ (State.redPacket_frame _ _ _ _ _)
      exact Frame.refl _
    · (extract_lets +onlyGivenNames t5; refine Frame.via (t := t5) ?_ fun h5 => ?_; rotate_left; clear_value t5; rotate_left)
      · unfold t5
        refine Frame.ite ?_ ?_
        · refine Frame.step ?_ (State.redPacket_frame _ _ _ _ _)
          exact h3
        · exact h3
      · (extract_lets +onlyGivenNames t6; refine Frame.via (t := t6) ?_ fun h6 => ?_; rotate_left; clear_value t6; rotate_left)
        · unfold t6
          refine Frame.ite ?_ ?_
          · split
            · refine Frame.step ?_ (State.compareElement_frame _ _ _ _ _ _ _)
              refine Frame.step ?_ (State.onTag_frame _ _ _ _)
              exact h5
            · refine Frame.step ?_ (State.onTag_frame _ _ _ _)
              exact h5
          · exact h5
        · refine Frame.step ?_ (State.deliver_frame _ _ _ _ _)
          exact h6

theorem State.checkArrives_frame (s : State) (u : Nat) (tag : Nat) (c : RedPart) :
    Frame ⟨recordParts ++ [Part.rdx], readRegs ++ [Reg.RDX_CHECK_FAIL, Reg.RDX_CHECK_VALUES, Reg.RDX_EVENTS, Reg.RDX_LATE, Reg.RDX_SAMPLED],
    false⟩ s (State.checkArrives s u tag c) := by
  unfold State.checkArrives
  split
  · exact Frame.refl _
  · refine Frame.ite ?_ ?_
    · refine Frame.trans ?_ (State.bump_frame (h := ?_) _ _ _ _ _)
      · exact Frame.refl _
      · decide +kernel
    · split
      · refine Frame.step ?_ (State.compareElement_frame _ _ _ _ _ _ _)
        refine Frame.step ?_ (State.onTag_frame _ _ _ _)
        exact Frame.refl _
      · refine Frame.step ?_ (State.onTag_frame _ _ _ _)
        exact Frame.refl _

theorem State.applyWork_frame (s : State) (w : RedWork) :
    Frame ⟨recordParts ++ [Part.rdx], readRegs ++ errorRegs ++ [Reg.HBC_AW_SECTORS, Reg.RDX_CHECK_FAIL, Reg.RDX_CHECK_VALUES,
    Reg.RDX_COUNTS, Reg.RDX_LATE, Reg.RDX_SAMPLED], false⟩ s (State.applyWork s w) := by
  unfold State.applyWork
  extract_lets +onlyGivenNames t0
  extract_lets +onlyGivenNames t1
  (extract_lets +onlyGivenNames t2; refine Frame.via (t := t2) ?_ fun h2 => ?_; rotate_left; clear_value t2; rotate_left)
  · unfold t2
    refine Frame.trans ?_ (State.bump_frame (h := ?_) _ _ _ _ _)
    · refine Frame.step ?_ (State.onTag_frame _ _ _ _)
      exact Frame.refl _
    · decide +kernel
  · (extract_lets +onlyGivenNames t3; refine Frame.via (t := t3) ?_ fun h3 => ?_; rotate_left; clear_value t3; rotate_left)
    · unfold t3
      refine Frame.step ?_ (State.redSends_frame _ _ _)
      exact h2
    · (extract_lets +onlyGivenNames t4; refine Frame.via (t := t4) ?_ fun h4 => ?_; rotate_left; clear_value t4; rotate_left)
      · unfold t4
        refine Frame.ite ?_ ?_
        · refine Frame.step ?_ (State.onTag_frame _ _ _ _)
          exact h3
        · refine Frame.trans ?_ (Frame.foldl fun t5 x5 => ?_)
          · exact h3
          · refine Frame.step ?_ (State.resultFound_frame _ _ _ _ _)
            exact Frame.refl _
      · (extract_lets +onlyGivenNames t6; refine Frame.via (t := t6) ?_ fun h6 => ?_; rotate_left; clear_value t6; rotate_left)
        · unfold t6
          refine Frame.trans ?_ (Frame.foldl fun t7 x7 => ?_)
          · exact h4
          · refine Frame.step ?_ (State.checkArrives_frame _ _ _ _)
            exact Frame.refl _
        · refine Frame.step ?_ (State.tagProgress_frame _ _ _)
          refine Frame.step ?_ (State.allrResult_frame _ _ _)
          exact h6

theorem State.contribute_frame (s : State) (u : Nat) (tag : Nat) (vals : List (Nat × Nat)) :
    Frame ⟨recordParts ++ [Part.rdx], readRegs ++ errorRegs ++ [Reg.HBC_AW_SECTORS, Reg.RDX_CHECK_FAIL, Reg.RDX_CHECK_VALUES,
    Reg.RDX_COUNTS, Reg.RDX_LATE, Reg.RDX_SAMPLED], false⟩ s (State.contribute s u tag vals) := by
  unfold State.contribute
  split
  · exact Frame.refl _
  · refine Frame.ite ?_ ?_
    · refine Frame.step ?_ (State.failTag_frame _ _ _ _)
      exact Frame.refl _
    · refine Frame.step ?_ (State.applyWork_frame _ _)
      exact Frame.refl _

theorem State.usePacket_frame (s : State) (b : Bytes) (u : Nat) :
    Frame ⟨recordParts ++ [Part.rdx], readRegs ++ errorRegs ++ [Reg.HBC_AW_SECTORS, Reg.RDX_CHECK_FAIL, Reg.RDX_CHECK_VALUES,
    Reg.RDX_COUNTS, Reg.RDX_LATE, Reg.RDX_SAMPLED], false⟩ s (State.usePacket s b u) := by
  unfold State.usePacket
  extract_lets +onlyGivenNames t0
  split
  · exact Frame.refl _
  · extract_lets +onlyGivenNames t1
    split
    · refine Frame.step ?_ (State.tagProgress_frame _ _ _)
      refine Frame.foldl fun t2 x2 => ?_
      refine Frame.step ?_ (State.deliver_frame _ _ _ _ _)
      exact Frame.refl _
    · refine Frame.ite ?_ ?_
      · extract_lets +onlyGivenNames t3
        (extract_lets +onlyGivenNames t4; refine Frame.via (t := t4) ?_ fun h4 => ?_; rotate_left; clear_value t4; rotate_left)
        · unfold t4
          refine Frame.ite ?_ ?_
          · refine Frame.step ?_ (State.redPacket_frame _ _ _ _ _)
            exact Frame.refl _
          · exact Frame.refl _
        · refine Frame.step ?_ (State.onTag_frame _ _ _ _)
          exact h4
      · exact Frame.refl _
    · extract_lets +onlyGivenNames t5
      refine Frame.step ?_ (State.applyWork_frame _ _)
      exact Frame.refl _

theorem State.useHeld_frame (s : State) (u : Nat) (tag : Nat) (round : Nat) :
    Frame ⟨recordParts ++ [Part.rdx], readRegs ++ errorRegs ++ [Reg.HBC_AW_SECTORS, Reg.RDX_CHECK_FAIL, Reg.RDX_CHECK_VALUES,
    Reg.RDX_COUNTS, Reg.RDX_LATE, Reg.RDX_SAMPLED], false⟩ s (State.useHeld s u tag round) := by
  unfold State.useHeld
  extract_lets +onlyGivenNames t0
  extract_lets +onlyGivenNames t1
  refine Frame.trans ?_ (Frame.foldl fun t2 x2 => ?_)
  · refine Frame.step ?_ (State.onRdx_frame _ _)
    exact Frame.refl _
  · refine Frame.step ?_ (State.usePacket_frame _ _ _)
    exact Frame.refl _

theorem State.afterOpen_frame (s : State) (u : Nat) (p : BitVec 192) :
    Frame ⟨recordParts ++ [Part.rdx], readRegs ++ errorRegs ++ [Reg.HBC_AW_SECTORS, Reg.RDX_CHECK_FAIL, Reg.RDX_CHECK_VALUES,
    Reg.RDX_COUNTS, Reg.RDX_LATE, Reg.RDX_SAMPLED], false⟩ s (State.afterOpen s u p) := by
  unfold State.afterOpen
  refine Frame.step ?_ (State.tagProgress_frame _ _ _)
  refine Frame.step ?_ (State.useHeld_frame _ _ _ _)
  exact Frame.refl _

theorem State.allrClose_frame (s : State) (u : Nat) (p : BitVec 192) :
    Frame ⟨accessParts ++ [Part.rdx], accessRegs ++ errorRegs ++ [Reg.XLT_COUNTS], false⟩ s (State.allrClose s u p) := by
  unfold State.allrClose
  extract_lets +onlyGivenNames t0
  split
  · exact Frame.refl _
  · refine Frame.ite ?_ ?_
    · split
      · refine Frame.step ?_ (State.closeTag_frame _ _ _)
        exact Frame.refl _
      · refine Frame.trans ?_ (State.performOp_frame (hp := ?_) _ _ _ _)
        · exact Frame.refl _
        · (refine Plan.Framed.mk (fun t => ?_) (fun t a => ?_) fun t => ?_ <;> dsimp only)
          · refine Frame.step ?_ (redMore_frame _ _ _)
            exact Frame.refl _
          · exact Frame.refl _
          · refine Frame.Body.mk ?_ ?_
            · refine Frame.step ?_ (State.closeTag_frame _ _ _)
              exact Frame.refl _
            · trivial
    · exact Frame.refl _

theorem allrTask_frame (u : Nat) (p : BitVec 192) :
    Task.Framed ⟨accessParts ++ [Part.rdx], accessRegs ++ errorRegs ++ [Reg.HBC_AW_SECTORS, Reg.RDX_CHECK_FAIL, Reg.RDX_CHECK_VALUES,
    Reg.RDX_COUNTS, Reg.RDX_LATE, Reg.RDX_SAMPLED, Reg.XLT_COUNTS], false⟩ (allrTask u p) := by
  unfold allrTask
  extract_lets +onlyGivenNames t0
  extract_lets +onlyGivenNames t1
  extract_lets +onlyGivenNames t2
  extract_lets +onlyGivenNames t3
  (refine Task.Framed.mk (fun s => ?_) fun s => ?_ <;> dsimp only)
  · refine Frame.step ?_ (redMore_frame _ _ _)
    exact Frame.refl _
  · (refine Plan.Framed.mk (fun t => ?_) (fun t a => ?_) fun t => ?_ <;> dsimp only)
    · refine Frame.step ?_ (redMore_frame _ _ _)
      exact Frame.refl _
    · exact Frame.refl _
    · split
      · refine Frame.Body.mk ?_ ?_
        · refine Frame.fst (by assumption) ?_
          change Frame.Fst _ _ _
          refine Frame.Fst.step ?_ (State.readTag_frame _ _ _ _ _)
          exact Frame.refl _
        · trivial
      · refine Frame.Body.mk ?_ ?_
        · refine Frame.fst (by assumption) ?_
          change Frame.Fst _ _ _
          refine Frame.Fst.step ?_ (State.readTag_frame _ _ _ _ _)
          exact Frame.refl _
        · trivial
      · refine Frame.Body.ite ?_ ?_
        · refine Frame.Body.mk ?_ ?_
          · refine Frame.fst (by assumption) ?_
            change Frame.Fst _ _ _
            refine Frame.Fst.step ?_ (State.readTag_frame _ _ _ _ _)
            exact Frame.refl _
          · trivial
        · refine Frame.Body.mk ?_ ?_
          · refine Frame.ite ?_ ?_
            · refine Frame.step ?_ (State.onRdx_frame _ _)
              refine Frame.fst (by assumption) ?_
              change Frame.Fst _ _ _
              refine Frame.Fst.step ?_ (State.readTag_frame _ _ _ _ _)
              exact Frame.refl _
            · refine Frame.step ?_ (State.contribute_frame _ _ _ _)
              refine Frame.step ?_ (State.onRdx_frame _ _)
              refine Frame.fst (by assumption) ?_
              change Frame.Fst _ _ _
              refine Frame.Fst.step ?_ (State.readTag_frame _ _ _ _ _)
              exact Frame.refl _
          · trivial

theorem State.allr_frame (s : State) (u : Nat) (p : BitVec 192) :
    Frame ⟨accessParts ++ [Part.rdx], accessRegs ++ errorRegs ++ [Reg.HBC_AW_SECTORS, Reg.RDX_CHECK_FAIL, Reg.RDX_CHECK_VALUES,
    Reg.RDX_COUNTS, Reg.RDX_LATE, Reg.RDX_SAMPLED, Reg.XLT_COUNTS], false⟩ s (State.allr s u p) := by
  unfold State.allr
  extract_lets +onlyGivenNames t0
  refine Frame.ite ?_ ?_
  · refine Frame.step ?_ (State.allrClose_frame _ _ _)
    exact Frame.refl _
  · (extract_lets +onlyGivenNames t1; refine Frame.via (t := t1) ?_ fun h1 => ?_; rotate_left; clear_value t1; rotate_left)
    · unfold t1
      refine Frame.trans ?_ (State.runOp_frame (ht := ?_) _ _)
      · exact Frame.refl _
      · exact Task.Framed.mono (allrTask_frame _ _) (by decide +kernel)
    · refine Frame.step ?_ (State.allrClose_frame _ _ _)
      refine Frame.step ?_ (State.useHeld_frame _ _ _ _)
      exact h1

theorem State.ropen_frame (s : State) (u : Nat) (p : BitVec 192) :
    Frame ⟨accessParts ++ [Part.rdx], accessRegs ++ errorRegs ++ [Reg.XLT_COUNTS], false⟩ s (State.ropen s u p) := by
  unfold State.ropen
  extract_lets +onlyGivenNames t0
  extract_lets +onlyGivenNames t1
  refine Frame.ite ?_ ?_
  · exact Frame.refl _
  · refine Frame.trans ?_ (State.runOp_frame (ht := ?_) _ _)
    · exact Frame.refl _
    · exact Task.Framed.mono (ropenTask_frame _ _) (by decide +kernel)

theorem State.allrArrived_frame (s : State) (u : Nat) (tag : Nat) :
    Frame ⟨accessParts ++ [Part.rdx], accessRegs ++ errorRegs ++ [Reg.XLT_COUNTS], false⟩ s (State.allrArrived s u tag) := by
  unfold State.allrArrived
  split
  · refine Frame.ite ?_ ?_
    · refine Frame.step ?_ (State.allrClose_frame _ _ _)
      exact Frame.refl _
    · exact Frame.refl _
  · exact Frame.refl _

theorem State.redArrive_frame (s : State) (u : Nat) (b : Bytes) (crcOk : Bool) :
    Frame ⟨recordParts ++ [Part.rdx], readRegs ++ errorRegs ++ [Reg.HBC_AW_SECTORS, Reg.RDX_CHECK_FAIL, Reg.RDX_CHECK_VALUES,
    Reg.RDX_COUNTS, Reg.RDX_LATE, Reg.RDX_SAMPLED, Reg.RDX_STRAY], false⟩ s (State.redArrive s u b crcOk) := by
  unfold State.redArrive
  extract_lets +onlyGivenNames t0
  extract_lets +onlyGivenNames t1
  extract_lets +onlyGivenNames t2
  extract_lets +onlyGivenNames t3
  refine Frame.ite ?_ ?_
  · refine Frame.trans ?_ (State.flag_frame (h := ?_) _ _ _ _)
    · refine Frame.trans ?_ (State.bump_frame (h := ?_) _ _ _ _ _)
      · exact Frame.refl _
      · decide +kernel
    · decide +kernel
  · extract_lets +onlyGivenNames t4
    refine Frame.ite ?_ ?_
    · refine Frame.step ?_ (State.usePacket_frame _ _ _)
      exact Frame.refl _
    · extract_lets +onlyGivenNames t5
      refine Frame.ite ?_ ?_
      · (extract_lets +onlyGivenNames t6; refine Frame.via (t := t6) ?_ fun h6 => ?_; rotate_left; clear_value t6; rotate_left)
        · unfold t6
          refine Frame.step ?_ (State.onRdx_frame _ _)
          exact Frame.refl _
        · refine Frame.ite ?_ ?_
          · refine Frame.trans ?_ (State.flag_frame (h := ?_) _ _ _ _)
            · exact h6
            · decide +kernel
          · exact h6
      · exact Frame.refl _

theorem rsendTask_frame (u : Nat) (p : BitVec 192) :
    Task.Framed ⟨accessParts ++ [Part.rdx], accessRegs ++ errorRegs ++ [Reg.HBC_AW_SECTORS, Reg.RDX_CHECK_FAIL, Reg.RDX_CHECK_VALUES,
    Reg.RDX_COUNTS, Reg.RDX_LATE, Reg.RDX_SAMPLED, Reg.XLT_COUNTS], false⟩ (rsendTask u p) := by
  unfold rsendTask
  extract_lets +onlyGivenNames t0
  extract_lets +onlyGivenNames t1
  extract_lets +onlyGivenNames t2
  (refine Task.Framed.mk (fun s => ?_) fun s => ?_ <;> dsimp only)
  · refine Frame.step ?_ (redMore_frame _ _ _)
    exact Frame.refl _
  · (refine Plan.Framed.mk (fun t => ?_) (fun t a => ?_) fun t => ?_ <;> dsimp only)
    · refine Frame.step ?_ (redMore_frame _ _ _)
      exact Frame.refl _
    · exact Frame.refl _
    · refine Frame.Body.mk ?_ ?_
      · refine Frame.step ?_ (State.contribute_frame _ _ _ _)
        exact Frame.refl _
      · trivial

end Sys2Proof.Machine
end

