-- ==== Sys2Proof/Laws/FrameArrays.lean ====
section
/-! SUPPORT. The footprints of the functions of Machine/Arrays.lean. -/

namespace Sys2Proof.Machine

set_option Elab.async false

theorem State.onArray_frame (s : State) (u : Nat) (f : ArraySt → ArraySt) :
    Frame ⟨[.arrays], [], false⟩ s (State.onArray s u f) := by
  unfold State.onArray
  refine Frame.step ?_ (State.arrays_frame _ _)
  exact Frame.refl _

theorem State.spoilColumns_frame (s : State) (u : Nat) (shape : Nat) (acc : Nat) (n : Nat) :
    Frame ⟨[.fresh, .arrays], [], false⟩ s (State.spoilColumns s u shape acc n) := by
  unfold State.spoilColumns
  extract_lets +onlyGivenNames t0
  extract_lets +onlyGivenNames t1
  refine Frame.step ?_ (State.took_frame _ _)
  refine Frame.step ?_ (State.onArray_frame _ _ _)
  exact Frame.refl _

theorem State.swapTile_frame (s : State) (u : Nat) (swap : Bool) :
    Frame ⟨[.arrays], [], false⟩ s (State.swapTile s u swap) := by
  unfold State.swapTile
  refine Frame.ite ?_ ?_
  · refine Frame.step ?_ (State.onArray_frame _ _ _)
    exact Frame.refl _
  · exact Frame.refl _

theorem State.arrayEvents_frame (s : State) (u : Nat) (sats : Nat) (marks : Nat) (w : WideRun) :
    Frame ⟨[], [.MXA_COUNTS, .MXA_EVENTS, .MXW_EVENTS], false⟩ s (State.arrayEvents s u sats marks w) := by
  unfold State.arrayEvents
  extract_lets +onlyGivenNames t0
  extract_lets +onlyGivenNames t1
  refine Frame.ite ?_ ?_
  · refine Frame.trans ?_ (State.bump_frame (h := ?_) _ _ _ _ _)
    · refine Frame.trans ?_ (State.bump_frame (h := ?_) _ _ _ _ _)
      · refine Frame.trans ?_ (State.bump_frame (h := ?_) _ _ _ _ _)
        · exact Frame.refl _
        · decide +kernel
      · decide +kernel
    · decide +kernel
  · (extract_lets +onlyGivenNames t2; refine Frame.via (t := t2) ?_ fun h2 => ?_; rotate_left; clear_value t2; rotate_left)
    · unfold t2
      refine Frame.trans ?_ (State.bump_frame (h := ?_) _ _ _ _ _)
      · exact Frame.refl _
      · decide +kernel
    · (extract_lets +onlyGivenNames t3; refine Frame.via (t := t3) ?_ fun h3 => ?_; rotate_left; clear_value t3; rotate_left)
      · unfold t3
        refine Frame.ite ?_ ?_
        · exact h2
        · refine Frame.trans ?_ (State.flag_frame (h := ?_) _ _ _ _)
          · exact h2
          · decide +kernel
      · refine Frame.ite ?_ ?_
        · exact h3
        · refine Frame.trans ?_ (State.flag_frame (h := ?_) _ _ _ _)
          · exact h3
          · decide +kernel

theorem mmaTask_frame (u : Nat) (p : BitVec 192) :
    Task.Framed ⟨accessParts ++ [Part.arrays], accessRegs ++ errorRegs ++ [Reg.MXA_BUSY, Reg.MXA_COUNTS, Reg.MXA_MACS, Reg.MXW_BUSY,
    Reg.MXW_MACS, Reg.XLT_COUNTS], false⟩ (mmaTask u p) := by
  unfold mmaTask
  extract_lets +onlyGivenNames t0
  extract_lets +onlyGivenNames t1
  extract_lets +onlyGivenNames t2
  extract_lets +onlyGivenNames t3
  extract_lets +onlyGivenNames t4
  extract_lets +onlyGivenNames t5
  (refine Task.Framed.mk (fun s => ?_) fun s => ?_ <;> dsimp only)
  · dsimp only [id]
    exact Frame.refl _
  · (refine Plan.Framed.mk (fun t => ?_) (fun t a => ?_) fun t => ?_ <;> dsimp only)
    · dsimp only [id]
      exact Frame.refl _
    · refine Frame.step ?_ (State.spoilColumns_frame _ _ _ _ _)
      refine Frame.step ?_ (State.swapTile_frame _ _ _)
      exact Frame.refl _
    · refine Frame.Body.ite ?_ ?_
      · refine Frame.Body.mk ?_ ?_
        · refine Frame.ite ?_ ?_
          · refine Frame.trans ?_ (State.addWrap_frame (h := ?_) _ _ _ _ _)
            · refine Frame.trans ?_ (State.addWrap_frame (h := ?_) _ _ _ _ _)
              · refine Frame.step ?_ (State.arrayEvents_frame _ _ _ _ _)
                refine Frame.step ?_ (State.onArray_frame _ _ _)
                refine Frame.step ?_ (State.swapTile_frame _ _ _)
                exact Frame.refl _
              · decide +kernel
            · decide +kernel
          · refine Frame.trans ?_ (State.addWrap_frame (h := ?_) _ _ _ _ _)
            · refine Frame.trans ?_ (State.addWrap_frame (h := ?_) _ _ _ _ _)
              · refine Frame.step ?_ (State.arrayEvents_frame _ _ _ _ _)
                refine Frame.step ?_ (State.onArray_frame _ _ _)
                refine Frame.step ?_ (State.swapTile_frame _ _ _)
                exact Frame.refl _
              · decide +kernel
            · decide +kernel
        · trivial
      · refine Frame.Body.mk ?_ ?_
        · refine Frame.ite ?_ ?_
          · refine Frame.trans ?_ (State.addWrap_frame (h := ?_) _ _ _ _ _)
            · refine Frame.trans ?_ (State.addWrap_frame (h := ?_) _ _ _ _ _)
              · refine Frame.step ?_ (State.arrayEvents_frame _ _ _ _ _)
                refine Frame.step ?_ (State.onArray_frame _ _ _)
                refine Frame.step ?_ (State.swapTile_frame _ _ _)
                exact Frame.refl _
              · decide +kernel
            · decide +kernel
          · refine Frame.trans ?_ (State.addWrap_frame (h := ?_) _ _ _ _ _)
            · refine Frame.trans ?_ (State.addWrap_frame (h := ?_) _ _ _ _ _)
              · refine Frame.step ?_ (State.arrayEvents_frame _ _ _ _ _)
                refine Frame.step ?_ (State.onArray_frame _ _ _)
                refine Frame.step ?_ (State.swapTile_frame _ _ _)
                exact Frame.refl _
              · decide +kernel
            · decide +kernel
        · trivial

theorem OutRun.element_frame (r : OutRun) (u : Nat) (shape : Nat) (fmt : Nat) (mode : Nat) (sat : Bool) (row : Nat) (c :
    Nat) (v : Fp) :
    Frame ⟨[], [.VSE_GEN_STATE], false⟩ r.s (OutRun.element r u shape fmt mode sat row c v).1.s := by
  change Frame.At (fun p : OutRun × Nat => p.1.s) _ _ _
  unfold OutRun.element
  extract_lets +onlyGivenNames t0
  extract_lets +onlyGivenNames t1
  split
  extract_lets +onlyGivenNames t2
  extract_lets +onlyGivenNames t3
  extract_lets +onlyGivenNames t4
  extract_lets +onlyGivenNames t5
  (change Frame.At OutRun.s _ _ _; try dsimp only)
  (change Frame _ _ _; dsimp only)
  refine Frame.fst (by assumption) ?_
  change Frame.Fst _ _ _
  refine Frame.Fst.ite ?_ ?_
  · refine Frame.Fst.step ?_ (State.draw_frame _ _ _)
    exact Frame.refl _
  · refine Frame.Fst.mk ?_
    exact Frame.refl _

theorem stfTask_frame (u : Nat) (p : BitVec 192) :
    Task.Framed ⟨accessParts ++ [Part.arrays], accessRegs ++ errorRegs ++ [Reg.XLT_COUNTS], false⟩ (stfTask u p) := by
  unfold stfTask
  extract_lets +onlyGivenNames t0
  extract_lets +onlyGivenNames t1
  (refine Task.Framed.mk (fun s => ?_) fun s => ?_ <;> dsimp only)
  · dsimp only [id]
    exact Frame.refl _
  · (refine Plan.Framed.mk (fun t => ?_) (fun t a => ?_) fun t => ?_ <;> dsimp only)
    · dsimp only [id]
      exact Frame.refl _
    · exact Frame.refl _
    · refine Frame.Body.mk ?_ ?_
      · refine Frame.step ?_ (State.onArray_frame _ _ _)
        exact Frame.refl _
      · trivial

theorem paddTask_frame (u : Nat) (p : BitVec 192) :
    Task.Framed ⟨accessParts ++ [Part.arrays], accessRegs ++ errorRegs ++ [Reg.MXA_COUNTS, Reg.XLT_COUNTS], false⟩ (paddTask u p) := by
  unfold paddTask
  extract_lets +onlyGivenNames t0
  extract_lets +onlyGivenNames t1
  extract_lets +onlyGivenNames t2
  extract_lets +onlyGivenNames t3
  (refine Task.Framed.mk (fun s => ?_) fun s => ?_ <;> dsimp only)
  · dsimp only [id]
    exact Frame.refl _
  · (refine Plan.Framed.mk (fun t => ?_) (fun t a => ?_) fun t => ?_ <;> dsimp only)
    · dsimp only [id]
      exact Frame.refl _
    · refine Frame.step ?_ (State.spoilColumns_frame _ _ _ _ _)
      exact Frame.refl _
    · refine Frame.Body.ite ?_ ?_
      · refine Frame.Body.mk ?_ ?_
        · refine Frame.step ?_ (State.arrayEvents_frame _ _ _ _ _)
          refine Frame.step ?_ (State.onArray_frame _ _ _)
          exact Frame.refl _
        · trivial
      · refine Frame.Body.mk ?_ ?_
        · refine Frame.step ?_ (State.arrayEvents_frame _ _ _ _ _)
          refine Frame.step ?_ (State.onArray_frame _ _ _)
          exact Frame.refl _
        · trivial

theorem OutRun.column_frame (r : OutRun) (u : Nat) (shape : Nat) (fmt : Nat) (mode : Nat) (sat : Bool) (rows : Nat) (acc :
    Nat) (n : Nat) (sx : Bytes) (sw : Bytes) :
    Frame ⟨[], [.VSE_GEN_STATE], false⟩ r.s (OutRun.column r u shape fmt mode sat rows acc n sx sw).s := by
  change Frame.At OutRun.s _ _ _
  unfold OutRun.column
  split
  (change Frame _ _ _; dsimp only)
  change Frame.At OutRun.s _ _ _
  refine Frame.atFst (by assumption) ?_
  refine Frame.At.foldl ?_ fun t0 x0 => ?_
  · (change Frame.At OutRun.s _ _ _; try dsimp only)
    exact Frame.refl _
  · split
    (change Frame.At OutRun.s _ _ _; try dsimp only)
    refine Frame.atFst (by assumption) ?_
    refine Frame.At.step ?_ (OutRun.element_frame _ _ _ _ _ _ _ _ _)
    exact Frame.refl _

theorem outTask_frame (u : Nat) (p : BitVec 448) :
    Task.Framed ⟨accessParts ++ [Part.arrays, Part.rdx], accessRegs ++ errorRegs ++ [Reg.HBC_AW_SECTORS, Reg.MXA_COUNTS, Reg.RDX_CHECK_FAIL,
    Reg.RDX_CHECK_VALUES, Reg.RDX_COUNTS, Reg.RDX_LATE, Reg.RDX_SAMPLED, Reg.VSE_GEN_STATE, Reg.XLT_COUNTS], false⟩ (outTask u p) := by
  unfold outTask
  extract_lets +onlyGivenNames t0
  extract_lets +onlyGivenNames t1
  extract_lets +onlyGivenNames t2
  extract_lets +onlyGivenNames t3
  extract_lets +onlyGivenNames t4
  extract_lets +onlyGivenNames t5
  extract_lets +onlyGivenNames t6
  extract_lets +onlyGivenNames t7
  extract_lets +onlyGivenNames t8
  extract_lets +onlyGivenNames t9
  extract_lets +onlyGivenNames t10
  extract_lets +onlyGivenNames t11
  (refine Task.Framed.mk (fun s => ?_) fun s => ?_ <;> dsimp only)
  · dsimp only [id]
    exact Frame.refl _
  · (refine Plan.Framed.mk (fun t => ?_) (fun t a => ?_) fun t => ?_ <;> dsimp only)
    · dsimp only [id]
      exact Frame.refl _
    · exact Frame.refl _
    · refine Frame.Body.ite ?_ ?_
      · refine Frame.Body.mk ?_ ?_
        · exact Frame.refl _
        · trivial
      · refine Frame.Body.ite ?_ ?_
        · split
          · refine Frame.Body.mk ?_ ?_
            · refine Frame.step ?_ (State.contribute_frame _ _ _ _)
              refine Frame.ite ?_ ?_
              · refine Frame.ite ?_ ?_
                · refine Frame.trans ?_ (State.flag_frame (h := ?_) _ _ _ _)
                  · split
                    · refine Frame.step ?_ (State.onArray_frame _ _ _)
                      refine Frame.step ?_ (State.took_frame _ _)
                      change Frame.At OutRun.s _ _ _
                      refine Frame.At.foldl ?_ fun t14 x14 => ?_
                      · (change Frame _ _ _; dsimp only)
                        exact Frame.refl _
                      · refine Frame.At.step ?_ (OutRun.column_frame _ _ _ _ _ _ _ _ _ _ _)
                        exact Frame.refl _
                    · refine Frame.step ?_ (State.took_frame _ _)
                      change Frame.At OutRun.s _ _ _
                      refine Frame.At.foldl ?_ fun t15 x15 => ?_
                      · (change Frame _ _ _; dsimp only)
                        exact Frame.refl _
                      · refine Frame.At.step ?_ (OutRun.column_frame _ _ _ _ _ _ _ _ _ _ _)
                        exact Frame.refl _
                  · decide +kernel
                · split
                  · refine Frame.step ?_ (State.onArray_frame _ _ _)
                    refine Frame.step ?_ (State.took_frame _ _)
                    change Frame.At OutRun.s _ _ _
                    refine Frame.At.foldl ?_ fun t16 x16 => ?_
                    · (change Frame _ _ _; dsimp only)
                      exact Frame.refl _
                    · refine Frame.At.step ?_ (OutRun.column_frame _ _ _ _ _ _ _ _ _ _ _)
                      exact Frame.refl _
                  · refine Frame.step ?_ (State.took_frame _ _)
                    change Frame.At OutRun.s _ _ _
                    refine Frame.At.foldl ?_ fun t17 x17 => ?_
                    · (change Frame _ _ _; dsimp only)
                      exact Frame.refl _
                    · refine Frame.At.step ?_ (OutRun.column_frame _ _ _ _ _ _ _ _ _ _ _)
                      exact Frame.refl _
              · refine Frame.ite ?_ ?_
                · refine Frame.trans ?_ (State.flag_frame (h := ?_) _ _ _ _)
                  · refine Frame.trans ?_ (State.bump_frame (h := ?_) _ _ _ _ _)
                    · split
                      · refine Frame.step ?_ (State.onArray_frame _ _ _)
                        refine Frame.step ?_ (State.took_frame _ _)
                        change Frame.At OutRun.s _ _ _
                        refine Frame.At.foldl ?_ fun t18 x18 => ?_
                        · (change Frame _ _ _; dsimp only)
                          exact Frame.refl _
                        · refine Frame.At.step ?_ (OutRun.column_frame _ _ _ _ _ _ _ _ _ _ _)
                          exact Frame.refl _
                      · refine Frame.step ?_ (State.took_frame _ _)
                        change Frame.At OutRun.s _ _ _
                        refine Frame.At.foldl ?_ fun t19 x19 => ?_
                        · (change Frame _ _ _; dsimp only)
                          exact Frame.refl _
                        · refine Frame.At.step ?_ (OutRun.column_frame _ _ _ _ _ _ _ _ _ _ _)
                          exact Frame.refl _
                    · decide +kernel
                  · decide +kernel
                · refine Frame.trans ?_ (State.bump_frame (h := ?_) _ _ _ _ _)
                  · split
                    · refine Frame.step ?_ (State.onArray_frame _ _ _)
                      refine Frame.step ?_ (State.took_frame _ _)
                      change Frame.At OutRun.s _ _ _
                      refine Frame.At.foldl ?_ fun t20 x20 => ?_
                      · (change Frame _ _ _; dsimp only)
                        exact Frame.refl _
                      · refine Frame.At.step ?_ (OutRun.column_frame _ _ _ _ _ _ _ _ _ _ _)
                        exact Frame.refl _
                    · refine Frame.step ?_ (State.took_frame _ _)
                      change Frame.At OutRun.s _ _ _
                      refine Frame.At.foldl ?_ fun t21 x21 => ?_
                      · (change Frame _ _ _; dsimp only)
                        exact Frame.refl _
                      · refine Frame.At.step ?_ (OutRun.column_frame _ _ _ _ _ _ _ _ _ _ _)
                        exact Frame.refl _
                  · decide +kernel
            · trivial
          · refine Frame.Body.mk ?_ ?_
            · refine Frame.ite ?_ ?_
              · refine Frame.ite ?_ ?_
                · refine Frame.trans ?_ (State.flag_frame (h := ?_) _ _ _ _)
                  · split
                    · refine Frame.step ?_ (State.onArray_frame _ _ _)
                      refine Frame.step ?_ (State.took_frame _ _)
                      change Frame.At OutRun.s _ _ _
                      refine Frame.At.foldl ?_ fun t22 x22 => ?_
                      · (change Frame _ _ _; dsimp only)
                        exact Frame.refl _
                      · refine Frame.At.step ?_ (OutRun.column_frame _ _ _ _ _ _ _ _ _ _ _)
                        exact Frame.refl _
                    · refine Frame.step ?_ (State.took_frame _ _)
                      change Frame.At OutRun.s _ _ _
                      refine Frame.At.foldl ?_ fun t23 x23 => ?_
                      · (change Frame _ _ _; dsimp only)
                        exact Frame.refl _
                      · refine Frame.At.step ?_ (OutRun.column_frame _ _ _ _ _ _ _ _ _ _ _)
                        exact Frame.refl _
                  · decide +kernel
                · split
                  · refine Frame.step ?_ (State.onArray_frame _ _ _)
                    refine Frame.step ?_ (State.took_frame _ _)
                    change Frame.At OutRun.s _ _ _
                    refine Frame.At.foldl ?_ fun t24 x24 => ?_
                    · (change Frame _ _ _; dsimp only)
                      exact Frame.refl _
                    · refine Frame.At.step ?_ (OutRun.column_frame _ _ _ _ _ _ _ _ _ _ _)
                      exact Frame.refl _
                  · refine Frame.step ?_ (State.took_frame _ _)
                    change Frame.At OutRun.s _ _ _
                    refine Frame.At.foldl ?_ fun t25 x25 => ?_
                    · (change Frame _ _ _; dsimp only)
                      exact Frame.refl _
                    · refine Frame.At.step ?_ (OutRun.column_frame _ _ _ _ _ _ _ _ _ _ _)
                      exact Frame.refl _
              · refine Frame.ite ?_ ?_
                · refine Frame.trans ?_ (State.flag_frame (h := ?_) _ _ _ _)
                  · refine Frame.trans ?_ (State.bump_frame (h := ?_) _ _ _ _ _)
                    · split
                      · refine Frame.step ?_ (State.onArray_frame _ _ _)
                        refine Frame.step ?_ (State.took_frame _ _)
                        change Frame.At OutRun.s _ _ _
                        refine Frame.At.foldl ?_ fun t26 x26 => ?_
                        · (change Frame _ _ _; dsimp only)
                          exact Frame.refl _
                        · refine Frame.At.step ?_ (OutRun.column_frame _ _ _ _ _ _ _ _ _ _ _)
                          exact Frame.refl _
                      · refine Frame.step ?_ (State.took_frame _ _)
                        change Frame.At OutRun.s _ _ _
                        refine Frame.At.foldl ?_ fun t27 x27 => ?_
                        · (change Frame _ _ _; dsimp only)
                          exact Frame.refl _
                        · refine Frame.At.step ?_ (OutRun.column_frame _ _ _ _ _ _ _ _ _ _ _)
                          exact Frame.refl _
                    · decide +kernel
                  · decide +kernel
                · refine Frame.trans ?_ (State.bump_frame (h := ?_) _ _ _ _ _)
                  · split
                    · refine Frame.step ?_ (State.onArray_frame _ _ _)
                      refine Frame.step ?_ (State.took_frame _ _)
                      change Frame.At OutRun.s _ _ _
                      refine Frame.At.foldl ?_ fun t28 x28 => ?_
                      · (change Frame _ _ _; dsimp only)
                        exact Frame.refl _
                      · refine Frame.At.step ?_ (OutRun.column_frame _ _ _ _ _ _ _ _ _ _ _)
                        exact Frame.refl _
                    · refine Frame.step ?_ (State.took_frame _ _)
                      change Frame.At OutRun.s _ _ _
                      refine Frame.At.foldl ?_ fun t29 x29 => ?_
                      · (change Frame _ _ _; dsimp only)
                        exact Frame.refl _
                      · refine Frame.At.step ?_ (OutRun.column_frame _ _ _ _ _ _ _ _ _ _ _)
                        exact Frame.refl _
                  · decide +kernel
            · trivial
        · refine Frame.Body.mk ?_ ?_
          · refine Frame.ite ?_ ?_
            · refine Frame.ite ?_ ?_
              · refine Frame.trans ?_ (State.flag_frame (h := ?_) _ _ _ _)
                · split
                  · refine Frame.step ?_ (State.onArray_frame _ _ _)
                    refine Frame.step ?_ (State.took_frame _ _)
                    change Frame.At OutRun.s _ _ _
                    refine Frame.At.foldl ?_ fun t30 x30 => ?_
                    · (change Frame _ _ _; dsimp only)
                      exact Frame.refl _
                    · refine Frame.At.step ?_ (OutRun.column_frame _ _ _ _ _ _ _ _ _ _ _)
                      exact Frame.refl _
                  · refine Frame.step ?_ (State.took_frame _ _)
                    change Frame.At OutRun.s _ _ _
                    refine Frame.At.foldl ?_ fun t31 x31 => ?_
                    · (change Frame _ _ _; dsimp only)
                      exact Frame.refl _
                    · refine Frame.At.step ?_ (OutRun.column_frame _ _ _ _ _ _ _ _ _ _ _)
                      exact Frame.refl _
                · decide +kernel
              · split
                · refine Frame.step ?_ (State.onArray_frame _ _ _)
                  refine Frame.step ?_ (State.took_frame _ _)
                  change Frame.At OutRun.s _ _ _
                  refine Frame.At.foldl ?_ fun t32 x32 => ?_
                  · (change Frame _ _ _; dsimp only)
                    exact Frame.refl _
                  · refine Frame.At.step ?_ (OutRun.column_frame _ _ _ _ _ _ _ _ _ _ _)
                    exact Frame.refl _
                · refine Frame.step ?_ (State.took_frame _ _)
                  change Frame.At OutRun.s _ _ _
                  refine Frame.At.foldl ?_ fun t33 x33 => ?_
                  · (change Frame _ _ _; dsimp only)
                    exact Frame.refl _
                  · refine Frame.At.step ?_ (OutRun.column_frame _ _ _ _ _ _ _ _ _ _ _)
                    exact Frame.refl _
            · refine Frame.ite ?_ ?_
              · refine Frame.trans ?_ (State.flag_frame (h := ?_) _ _ _ _)
                · refine Frame.trans ?_ (State.bump_frame (h := ?_) _ _ _ _ _)
                  · split
                    · refine Frame.step ?_ (State.onArray_frame _ _ _)
                      refine Frame.step ?_ (State.took_frame _ _)
                      change Frame.At OutRun.s _ _ _
                      refine Frame.At.foldl ?_ fun t34 x34 => ?_
                      · (change Frame _ _ _; dsimp only)
                        exact Frame.refl _
                      · refine Frame.At.step ?_ (OutRun.column_frame _ _ _ _ _ _ _ _ _ _ _)
                        exact Frame.refl _
                    · refine Frame.step ?_ (State.took_frame _ _)
                      change Frame.At OutRun.s _ _ _
                      refine Frame.At.foldl ?_ fun t35 x35 => ?_
                      · (change Frame _ _ _; dsimp only)
                        exact Frame.refl _
                      · refine Frame.At.step ?_ (OutRun.column_frame _ _ _ _ _ _ _ _ _ _ _)
                        exact Frame.refl _
                  · decide +kernel
                · decide +kernel
              · refine Frame.trans ?_ (State.bump_frame (h := ?_) _ _ _ _ _)
                · split
                  · refine Frame.step ?_ (State.onArray_frame _ _ _)
                    refine Frame.step ?_ (State.took_frame _ _)
                    change Frame.At OutRun.s _ _ _
                    refine Frame.At.foldl ?_ fun t36 x36 => ?_
                    · (change Frame _ _ _; dsimp only)
                      exact Frame.refl _
                    · refine Frame.At.step ?_ (OutRun.column_frame _ _ _ _ _ _ _ _ _ _ _)
                      exact Frame.refl _
                  · refine Frame.step ?_ (State.took_frame _ _)
                    change Frame.At OutRun.s _ _ _
                    refine Frame.At.foldl ?_ fun t37 x37 => ?_
                    · (change Frame _ _ _; dsimp only)
                      exact Frame.refl _
                    · refine Frame.At.step ?_ (OutRun.column_frame _ _ _ _ _ _ _ _ _ _ _)
                      exact Frame.refl _
                · decide +kernel
          · trivial

theorem ldxTask_frame (u : Nat) (p : BitVec 192) :
    Task.Framed ⟨accessParts ++ [Part.arrays], accessRegs ++ errorRegs ++ [Reg.XLT_COUNTS], false⟩ (ldxTask u p) := by
  unfold ldxTask
  extract_lets +onlyGivenNames t0
  extract_lets +onlyGivenNames t1
  extract_lets +onlyGivenNames t2
  extract_lets +onlyGivenNames t3
  extract_lets +onlyGivenNames t4
  (refine Task.Framed.mk (fun s => ?_) fun s => ?_ <;> dsimp only)
  · dsimp only [id]
    exact Frame.refl _
  · (refine Plan.Framed.mk (fun t => ?_) (fun t a => ?_) fun t => ?_ <;> dsimp only)
    · dsimp only [id]
      exact Frame.refl _
    · exact Frame.refl _
    · refine Frame.Body.mk ?_ ?_
      · refine Frame.step ?_ (State.onArray_frame _ _ _)
        exact Frame.refl _
      · trivial

theorem psendTask_frame (u : Nat) (p : BitVec 192) :
    Task.Framed ⟨accessParts, accessRegs ++ errorRegs ++ [Reg.XLT_COUNTS], false⟩ (psendTask u p) := by
  unfold psendTask
  extract_lets +onlyGivenNames t0
  extract_lets +onlyGivenNames t1
  extract_lets +onlyGivenNames t2
  (refine Task.Framed.mk (fun s => ?_) fun s => ?_ <;> dsimp only)
  · dsimp only [id]
    exact Frame.refl _
  · (refine Plan.Framed.mk (fun t => ?_) (fun t a => ?_) fun t => ?_ <;> dsimp only)
    · dsimp only [id]
      exact Frame.refl _
    · exact Frame.refl _
    · refine Frame.Body.mk ?_ ?_
      · refine Frame.step ?_ (State.took_frame _ _)
        exact Frame.refl _
      · trivial

theorem State.resetArrays_frame (s : State) :
    Frame ⟨[.arrays], [], false⟩ s (State.resetArrays s) := by
  unfold State.resetArrays
  refine Frame.step ?_ (State.arrays_frame _ _)
  exact Frame.refl _

end Sys2Proof.Machine
end

