-- ==== Sys2Proof/Laws/FrameVector.lean ====
section
/-! SUPPORT. The footprints of the functions of Machine/Vector.lean. -/

namespace Sys2Proof.Machine

set_option Elab.async false

theorem State.drawsFor_frame (s : State) (die : Nat) (n : Nat) (draws : Bool) :
    Frame ⟨[], [.VSE_GEN_STATE], false⟩ s (State.drawsFor s die n draws).1 := by
  show Frame.Fst _ _ _
  unfold State.drawsFor
  refine Frame.Fst.ite ?_ ?_
  · refine Frame.Fst.step ?_ (State.drawVector_frame _ _ _)
    exact Frame.refl _
  · refine Frame.Fst.mk ?_
    exact Frame.refl _

theorem State.takeClass_frame (s : State) (u : Nat) (cls : Nat) :
    Frame ⟨[.sched], [], false⟩ s (State.takeClass s u cls).1 := by
  show Frame.Fst _ _ _
  unfold State.takeClass
  split
  · refine Frame.Fst.mk ?_
    exact Frame.refl _
  · refine Frame.Fst.step ?_ (State.takeOp_frame _ _ _ _)
    exact Frame.refl _

theorem State.vseCount_frame (s : State) (u : Nat) (rs : List Rounded) :
    Frame ⟨[], [.VSC_EVENTS, .VSE_EVENTS], false⟩ s (State.vseCount s u rs) := by
  unfold State.vseCount
  extract_lets +onlyGivenNames t0
  extract_lets +onlyGivenNames t1
  refine Frame.ite ?_ ?_
  · refine Frame.trans ?_ (State.bump_frame (h := ?_) _ _ _ _ _)
    · refine Frame.trans ?_ (State.bump_frame (h := ?_) _ _ _ _ _)
      · refine Frame.trans ?_ (State.bump_frame (h := ?_) _ _ _ _ _)
        · exact Frame.refl _
        · decide +kernel
      · decide +kernel
    · decide +kernel
  · refine Frame.trans ?_ (State.bump_frame (h := ?_) _ _ _ _ _)
    · refine Frame.trans ?_ (State.bump_frame (h := ?_) _ _ _ _ _)
      · refine Frame.trans ?_ (State.bump_frame (h := ?_) _ _ _ _ _)
        · exact Frame.refl _
        · decide +kernel
      · decide +kernel
    · decide +kernel

theorem elementsTask_frame (die : Nat) (cls : Nat) (p : BitVec 448) (formats : Bool) (inputs : List Stream3) (fo : Nat)
    (purposes : Nat) (elems : List (List Nat) → List Bool → List Nat → List Rounded) :
    Task.Framed ⟨accessParts, accessRegs ++ errorRegs ++ [Reg.VSE_GEN_STATE, Reg.XLT_COUNTS], false⟩ (elementsTask die cls p
    formats inputs fo purposes elems) := by
  unfold elementsTask
  extract_lets +onlyGivenNames t0
  extract_lets +onlyGivenNames t1
  extract_lets +onlyGivenNames t2
  extract_lets +onlyGivenNames t3
  extract_lets +onlyGivenNames t4
  extract_lets +onlyGivenNames t5
  extract_lets +onlyGivenNames t6
  extract_lets +onlyGivenNames t7
  (refine Task.Framed.mk (fun s => ?_) fun s => ?_ <;> dsimp only)
  · dsimp only [id]
    exact Frame.refl _
  · (refine Plan.Framed.mk (fun t => ?_) (fun t a => ?_) fun t => ?_ <;> dsimp only)
    · dsimp only [id]
      exact Frame.refl _
    · exact Frame.refl _
    · refine Frame.Body.mk ?_ ?_
      · refine Frame.step ?_ (State.vseCount_frame _ _ _)
        change Frame.Fst _ _ _
        refine Frame.Fst.step ?_ (State.drawsFor_frame _ _ _ _)
        exact Frame.refl _
      · trivial

theorem cvtTask_frame (die : Nat) (p : BitVec 448) (imm : Nat) :
    Task.Framed ⟨accessParts, accessRegs ++ errorRegs ++ [Reg.VSE_GEN_STATE, Reg.XLT_COUNTS], false⟩ (cvtTask die p imm) :=
    by
  unfold cvtTask
  extract_lets +onlyGivenNames t0
  extract_lets +onlyGivenNames t1
  exact Task.Framed.mono (elementsTask_frame _ _ _ _ _ _ _ _) (by decide +kernel)

theorem scanTask_frame (die : Nat) (p : BitVec 448) :
    Task.Framed ⟨accessParts, accessRegs ++ errorRegs ++ [Reg.VSE_GEN_STATE, Reg.XLT_COUNTS], false⟩ (scanTask die p) := by
  unfold scanTask
  extract_lets +onlyGivenNames t0
  extract_lets +onlyGivenNames t1
  extract_lets +onlyGivenNames t2
  extract_lets +onlyGivenNames t3
  extract_lets +onlyGivenNames t4
  extract_lets +onlyGivenNames t5
  extract_lets +onlyGivenNames t6
  exact Task.Framed.mono (elementsTask_frame _ _ _ _ _ _ _ _) (by decide +kernel)

theorem randTask_frame (die : Nat) (p : BitVec 448) :
    Task.Framed ⟨accessParts, accessRegs ++ errorRegs ++ [Reg.VSE_GEN_STATE, Reg.XLT_COUNTS], false⟩ (randTask die p) := by
  unfold randTask
  extract_lets +onlyGivenNames t0
  extract_lets +onlyGivenNames t1
  exact Task.Framed.mono (elementsTask_frame _ _ _ _ _ _ _ _) (by decide +kernel)

theorem reduceTask_frame (die : Nat) (p : BitVec 448) :
    Task.Framed ⟨accessParts, accessRegs ++ errorRegs ++ [Reg.VSE_GEN_STATE, Reg.XLT_COUNTS], false⟩ (reduceTask die p) := by
  unfold reduceTask
  extract_lets +onlyGivenNames t0
  extract_lets +onlyGivenNames t1
  extract_lets +onlyGivenNames t2
  extract_lets +onlyGivenNames t3
  extract_lets +onlyGivenNames t4
  extract_lets +onlyGivenNames t5
  extract_lets +onlyGivenNames t6
  extract_lets +onlyGivenNames t7
  extract_lets +onlyGivenNames t8
  extract_lets +onlyGivenNames t9
  (refine Task.Framed.mk (fun s => ?_) fun s => ?_ <;> dsimp only)
  · dsimp only [id]
    exact Frame.refl _
  · (refine Plan.Framed.mk (fun t => ?_) (fun t a => ?_) fun t => ?_ <;> dsimp only)
    · dsimp only [id]
      exact Frame.refl _
    · exact Frame.refl _
    · refine Frame.Body.mk ?_ ?_
      · refine Frame.step ?_ (State.vseCount_frame _ _ _)
        change Frame.Fst _ _ _
        refine Frame.Fst.step ?_ (State.drawsFor_frame _ _ _ _)
        exact Frame.refl _
      · trivial

theorem ewTask_frame (die : Nat) (p : BitVec 448) :
    Task.Framed ⟨accessParts, accessRegs ++ errorRegs ++ [Reg.VSE_GEN_STATE, Reg.XLT_COUNTS], false⟩ (ewTask die p) := by
  unfold ewTask
  extract_lets +onlyGivenNames t0
  exact Task.Framed.mono (elementsTask_frame _ _ _ _ _ _ _ _) (by decide +kernel)

theorem dgradTask_frame (die : Nat) (p : BitVec 448) :
    Task.Framed ⟨accessParts, accessRegs ++ errorRegs ++ [Reg.VSE_GEN_STATE, Reg.XLT_COUNTS], false⟩ (dgradTask die p) := by
  unfold dgradTask
  extract_lets +onlyGivenNames t0
  extract_lets +onlyGivenNames t1
  extract_lets +onlyGivenNames t2
  extract_lets +onlyGivenNames t3
  exact Task.Framed.mono (elementsTask_frame _ _ _ _ _ _ _ _) (by decide +kernel)

theorem sliceTask_frame (die : Nat) (p : BitVec 448) : Task.Framed ⟨[], [], false⟩ (sliceTask die p) where
  more _ := .refl _
  plan _ := ⟨fun _ => .refl _, fun _ _ => .refl _, fun _ => ⟨.refl _, trivial⟩⟩

end Sys2Proof.Machine
end

