-- ==== Sys2Proof/Laws/FrameChain.lean ====
section
/-! SUPPORT. The footprints of the functions of Machine/Chain.lean. -/

namespace Sys2Proof.Machine

set_option Elab.async false

theorem State.setLanes_frame (s : State) (die : Nat) (regs : List (Nat × Int)) :
    Frame ⟨[], [.VSC_VREG], false⟩ s (State.setLanes s die regs) := by
  unfold State.setLanes
  refine Frame.foldl fun t0 x0 => ?_
  refine Frame.trans ?_ (State.put_frame (h := ?_) _ _ _ _ _)
  · exact Frame.refl _
  · split <;> decide +kernel

theorem chainTask_frame (die : Nat) (p : BitVec 960) :
    Task.Framed ⟨accessParts, accessRegs ++ errorRegs ++ [Reg.VSC_VREG, Reg.VSE_GEN_STATE, Reg.XLT_COUNTS], false⟩ (chainTask die p)
    := by
  unfold chainTask
  extract_lets +onlyGivenNames t0
  extract_lets +onlyGivenNames t1
  extract_lets +onlyGivenNames t2
  extract_lets +onlyGivenNames t3
  extract_lets +onlyGivenNames t4
  extract_lets +onlyGivenNames t5
  (refine Task.Framed.mk (fun s => ?_) fun s => ?_ <;> dsimp only)
  · dsimp only [id]
    exact Frame.refl _
  · (refine Plan.Framed.mk (fun t => ?_) (fun t a => ?_) fun t => ?_ <;> dsimp only)
    · dsimp only [id]
      exact Frame.refl _
    · exact Frame.refl _
    · refine Frame.Body.mk ?_ ?_
      · refine Frame.ite ?_ ?_
        · refine Frame.step ?_ (State.vseCount_frame _ _ _)
          refine Frame.step ?_ (State.vseCount_frame _ _ _)
          refine Frame.step ?_ (State.setLanes_frame _ _ _)
          refine Frame.step ?_ (State.took_frame _ _)
          change Frame.Fst _ _ _
          refine Frame.Fst.step ?_ (State.drawsFor_frame _ _ _ _)
          exact Frame.refl _
        · refine Frame.step ?_ (State.vseCount_frame _ _ _)
          refine Frame.step ?_ (State.setLanes_frame _ _ _)
          refine Frame.step ?_ (State.took_frame _ _)
          change Frame.Fst _ _ _
          refine Frame.Fst.step ?_ (State.drawsFor_frame _ _ _ _)
          exact Frame.refl _
      · trivial

theorem State.genWrite_frame (s : State) (die : Nat) (idx : Nat) (half : Nat) (v : Nat) :
    Frame ⟨[], [.VSE_EVENTS, .VSE_GEN_STATE], false⟩ s (State.genWrite s die idx half v) := by
  unfold State.genWrite
  extract_lets +onlyGivenNames t0
  refine Frame.ite ?_ ?_
  · refine Frame.trans ?_ (State.flag_frame (h := ?_) _ _ _ _)
    · exact Frame.refl _
    · decide +kernel
  · extract_lets +onlyGivenNames t1
    extract_lets +onlyGivenNames t2
    refine Frame.ite ?_ ?_
    · refine Frame.trans ?_ (State.flag_frame (h := ?_) _ _ _ _)
      · exact Frame.refl _
      · decide +kernel
    · refine Frame.step ?_ (State.setGen_frame _ _ _ _)
      exact Frame.refl _

theorem State.resetVregs_frame (s : State) : Frame ⟨[], [.VSC_VREG], false⟩ s (State.resetVregs s) :=
  s.filter_frame _ fun p h => by
    simp only [bne_eq_false_iff_eq] at h
    simp [h]

end Sys2Proof.Machine
end

