-- ==== Sys2Proof/Laws/FrameCoherence.lean ====
section
/-! SUPPORT. The footprints of the functions of Machine/Coherence.lean. -/

namespace Sys2Proof.Machine

set_option Elab.async false

theorem State.takeCoh_frame (s : State) (p : CohMsg → Bool) :
    Frame.OptSnd ⟨[.coh], [], false⟩ s (State.takeCoh s p) := by
  unfold State.takeCoh
  split
  · exact Frame.OptSnd.none
  · refine Frame.OptSnd.some ?_
    refine Frame.step ?_ (State.onCoh_frame _ _)
    exact Frame.refl _

theorem State.sendCoh_frame (s : State) (m : CohMsg) :
    Frame ⟨[.coh], [], false⟩ s (State.sendCoh s m) := by
  unfold State.sendCoh
  refine Frame.step ?_ (State.onCoh_frame _ _)
  exact Frame.refl _

theorem State.acceptWriteBack_frame (s : State) (t : CohTxn) :
    Frame ⟨[.coh], [.HCX_WB_CANCEL], false⟩ s (State.acceptWriteBack s t) := by
  unfold State.acceptWriteBack
  refine Frame.ite ?_ ?_
  · (extract_lets +onlyGivenNames t0; refine Frame.via (t := t0) ?_ fun h0 => ?_; rotate_left; clear_value t0; rotate_left)
    · unfold t0
      split
      · exact Frame.refl _
      · split
        · refine Frame.ite ?_ ?_
          · (extract_lets +onlyGivenNames t1; refine Frame.via (t := t1) ?_ fun h1 => ?_; rotate_left; clear_value t1; rotate_left)
            · unfold t1
              refine Frame.step ?_ (State.onCoh_frame _ _)
              exact Frame.refl _
            · refine Frame.ite ?_ ?_
              · refine Frame.step ?_ (State.sendCoh_frame _ _)
                exact h1
              · exact h1
          · exact Frame.refl _
        · exact Frame.refl _
    · refine Frame.step ?_ (State.sendCoh_frame _ _)
      exact h0
  · refine Frame.step ?_ (State.sendCoh_frame _ _)
    refine Frame.trans ?_ (State.bump_frame (h := ?_) _ _ _ _ _)
    · exact Frame.refl _
    · decide +kernel

theorem State.snoopDies_frame (s : State) (line : Nat) (req : Option CohReq) (dies : List Nat) :
    Frame ⟨[.coh], [.HCX_COUNTS], false⟩ s (State.snoopDies s line req dies) := by
  unfold State.snoopDies
  refine Frame.foldl fun t0 x0 => ?_
  refine Frame.step ?_ (State.sendCoh_frame _ _)
  refine Frame.trans ?_ (State.bump_frame (h := ?_) _ _ _ _ _)
  · exact Frame.refl _
  · decide +kernel

theorem State.needEntry_frame (s : State) (line : Nat) :
    Frame ⟨[.coh], [.HCX_COUNTS, .HCX_EVENTS], false⟩ s (State.needEntry s line) := by
  unfold State.needEntry
  split
  · refine Frame.step ?_ (State.onCoh_frame _ _)
    exact Frame.refl _
  · (extract_lets +onlyGivenNames t0; refine Frame.via (t := t0) ?_ fun h0 => ?_; rotate_left; clear_value t0; rotate_left)
    · unfold t0
      split
      · exact Frame.refl _
      · (extract_lets +onlyGivenNames t1; refine Frame.via (t := t1) ?_ fun h1 => ?_; rotate_left; clear_value t1; rotate_left)
        · unfold t1
          refine Frame.trans ?_ (State.flag_frame (h := ?_) _ _ _ _)
          · refine Frame.trans ?_ (State.bump_frame (h := ?_) _ _ _ _ _)
            · exact Frame.refl _
            · decide +kernel
          · decide +kernel
        · extract_lets +onlyGivenNames t2
          (extract_lets +onlyGivenNames t3; refine Frame.via (t := t3) ?_ fun h3 => ?_; rotate_left; clear_value t3; rotate_left)
          · unfold t3
            refine Frame.step ?_ (State.onCoh_frame _ _)
            exact h1
          · refine Frame.step ?_ (State.snoopDies_frame _ _ _ _)
            exact h3
    · refine Frame.step ?_ (State.onCoh_frame _ _)
      exact h0

theorem State.setL3_frame (s : State) (line : Nat) (data : Bytes) (dirty : Bool) :
    Frame ⟨[.coh], [], false⟩ s (State.setL3 s line data dirty) := by
  unfold State.setL3
  refine Frame.step ?_ (State.onCoh_frame _ _)
  exact Frame.refl _

theorem State.supply_frame (s : State) (t : CohTxn) (grant : LineState) :
    Frame ⟨[.coh], [], false⟩ s (State.supply s t grant) := by
  unfold State.supply
  split
  · refine Frame.step ?_ (State.sendCoh_frame _ _)
    exact Frame.refl _
  · refine Frame.step ?_ (State.sendCoh_frame _ _)
    exact Frame.refl _

theorem State.maintain_frame (s : State) (t : CohTxn) (req : CohReq) :
    Frame ⟨[.coh], [], false⟩ s (State.maintain s t req) := by
  unfold State.maintain
  extract_lets +onlyGivenNames t0
  extract_lets +onlyGivenNames t1
  (extract_lets +onlyGivenNames t2; refine Frame.via (t := t2) ?_ fun h2 => ?_; rotate_left; clear_value t2; rotate_left)
  · unfold t2
    refine Frame.step ?_ (State.onCoh_frame _ _)
    exact Frame.refl _
  · (clear_value t1; split)
    · refine Frame.step ?_ (State.sendCoh_frame _ _)
      exact h2
    · refine Frame.step ?_ (State.sendCoh_frame _ _)
      exact h2

theorem State.proceed_frame (s : State) (t : CohTxn) :
    Frame ⟨[.coh], [], false⟩ s (State.proceed s t) := by
  unfold State.proceed
  split
  · (extract_lets +onlyGivenNames t0; refine Frame.via (t := t0) ?_ fun h0 => ?_; rotate_left; clear_value t0; rotate_left)
    · unfold t0
      split
      · refine Frame.step ?_ (State.setL3_frame _ _ _ _)
        exact Frame.refl _
      · exact Frame.refl _
    · refine Frame.step ?_ (State.onCoh_frame _ _)
      exact h0
  · refine Frame.ite ?_ ?_
    · exact Frame.refl _
    · refine Frame.step ?_ (State.supply_frame _ _ _)
      exact Frame.refl _
  · refine Frame.ite ?_ ?_
    · exact Frame.refl _
    · refine Frame.step ?_ (State.supply_frame _ _ _)
      exact Frame.refl _
  · refine Frame.ite ?_ ?_
    · exact Frame.refl _
    · split
      · refine Frame.step ?_ (State.sendCoh_frame _ _)
        exact Frame.refl _
      · refine Frame.step ?_ (State.supply_frame _ _ _)
        exact Frame.refl _
  · exact Frame.refl _
  · refine Frame.step ?_ (State.maintain_frame _ _ _)
    exact Frame.refl _

theorem State.acceptCoh_frame (s : State) (t : CohTxn) :
    Frame ⟨[.coh], [.HCX_COUNTS, .HCX_EVENTS, .HCX_WB_CANCEL], false⟩ s (State.acceptCoh s t) := by
  unfold State.acceptCoh
  refine Frame.ite ?_ ?_
  · refine Frame.step ?_ (State.acceptWriteBack_frame _ _)
    refine Frame.step ?_ (State.onCoh_frame _ _)
    exact Frame.refl _
  · extract_lets +onlyGivenNames t0
    extract_lets +onlyGivenNames t1
    (extract_lets +onlyGivenNames t2; refine Frame.via (t := t2) ?_ fun h2 => ?_; rotate_left; clear_value t2; rotate_left)
    · unfold t2
      refine Frame.step ?_ (State.onCoh_frame _ _)
      exact Frame.refl _
    · (extract_lets +onlyGivenNames t3; refine Frame.via (t := t3) ?_ fun h3 => ?_; rotate_left; clear_value t3; rotate_left)
      · unfold t3
        refine Frame.ite ?_ ?_
        · refine Frame.step ?_ (State.needEntry_frame _ _)
          exact h2
        · exact h2
      · refine Frame.ite ?_ ?_
        · refine Frame.step ?_ (State.proceed_frame _ _)
          exact h3
        · refine Frame.step ?_ (State.snoopDies_frame _ _ _ _)
          exact h3

theorem State.nextCoh_frame (s : State) (line : Nat) :
    Frame ⟨[.coh], [.HCX_COUNTS, .HCX_EVENTS, .HCX_WB_CANCEL], false⟩ s (State.nextCoh s line) := by
  unfold State.nextCoh
  split
  · exact Frame.refl _
  · refine Frame.step ?_ (State.acceptCoh_frame _ _)
    refine Frame.step ?_ (State.onCoh_frame _ _)
    exact Frame.refl _

theorem State.endTxn_frame (s : State) (line : Nat) :
    Frame ⟨[.coh], [.HCX_COUNTS, .HCX_EVENTS, .HCX_WB_CANCEL], false⟩ s (State.endTxn s line) := by
  unfold State.endTxn
  refine Frame.step ?_ (State.nextCoh_frame _ _)
  refine Frame.step ?_ (State.onCoh_frame _ _)
  exact Frame.refl _

theorem State.tidyFilter_frame (s : State) (line : Nat) :
    Frame ⟨[.coh], [], false⟩ s (State.tidyFilter s line) := by
  unfold State.tidyFilter
  refine Frame.step ?_ (State.onCoh_frame _ _)
  exact Frame.refl _

theorem State.fwdArrives_frame (s : State) (line : Nat) :
    Frame ⟨recordParts ++ [Part.out, Part.coh], readRegs ++ [Reg.HCX_COUNTS, Reg.HCX_EVENTS, Reg.HCX_WB_CANCEL], false⟩ s (State.fwdArrives s
    line) := by
  unfold State.fwdArrives
  split
  · (extract_lets +onlyGivenNames t0; refine Frame.via (t := t0) ?_ fun h0 => ?_; rotate_left; clear_value t0; rotate_left)
    · unfold t0
      refine Frame.step ?_ (State.writeSectors_frame _ _ _)
      refine Frame.optSnd (by assumption) ?_
      refine Frame.OptSnd.step ?_ (State.takeCoh_frame _ _)
      exact Frame.refl _
    · split
      · extract_lets +onlyGivenNames t1
        refine Frame.ite ?_ ?_
        · refine Frame.step ?_ (State.sendCoh_frame _ _)
          exact h0
        · exact h0
      · exact h0
  · split
    split
    · refine Frame.ite ?_ ?_
      · refine Frame.step ?_ (State.sendCoh_frame _ _)
        refine Frame.fst (by assumption) ?_
        change Frame.Fst _ _ _
        refine Frame.Fst.step ?_ (State.readSpan_frame _ _ _)
        refine Frame.optSnd (by assumption) ?_
        refine Frame.OptSnd.step ?_ (State.takeCoh_frame _ _)
        exact Frame.refl _
      · refine Frame.step ?_ (State.endTxn_frame _ _)
        refine Frame.step ?_ (State.tidyFilter_frame _ _)
        refine Frame.step ?_ (State.coreError_frame _ _ _ _)
        refine Frame.fst (by assumption) ?_
        change Frame.Fst _ _ _
        refine Frame.Fst.step ?_ (State.readSpan_frame _ _ _)
        refine Frame.optSnd (by assumption) ?_
        refine Frame.OptSnd.step ?_ (State.takeCoh_frame _ _)
        exact Frame.refl _
    · refine Frame.fst (by assumption) ?_
      change Frame.Fst _ _ _
      refine Frame.Fst.step ?_ (State.readSpan_frame _ _ _)
      refine Frame.optSnd (by assumption) ?_
      refine Frame.OptSnd.step ?_ (State.takeCoh_frame _ _)
      exact Frame.refl _
  · exact Frame.refl _

theorem State.onFilter_frame (s : State) (line : Nat) (f : FilterEntry → FilterEntry) :
    Frame ⟨[.coh], [], false⟩ s (State.onFilter s line f) := by
  unfold State.onFilter
  refine Frame.step ?_ (State.onCoh_frame _ _)
  exact Frame.refl _

theorem State.filterAnswer_frame (s : State) (die : Nat) (line : Nat) :
    Frame ⟨[.coh], [], false⟩ s (State.filterAnswer s die line) := by
  unfold State.filterAnswer
  extract_lets +onlyGivenNames t0
  refine Frame.step ?_ (State.onFilter_frame _ _ _)
  exact Frame.refl _

theorem State.filterDone_frame (s : State) (core : Nat) (line : Nat) :
    Frame ⟨[.coh], [], false⟩ s (State.filterDone s core line) := by
  unfold State.filterDone
  split
  · refine Frame.step ?_ (State.tidyFilter_frame _ _)
    exact Frame.refl _
  · extract_lets +onlyGivenNames t0
    refine Frame.step ?_ (State.onFilter_frame _ _ _)
    exact Frame.refl _

theorem State.requestCoh_frame (s : State) (t : CohTxn) :
    Frame ⟨[.coh], [.HCX_COUNTS, .HCX_EVENTS, .HCX_WB_CANCEL], false⟩ s (State.requestCoh s t) := by
  unfold State.requestCoh
  refine Frame.ite ?_ ?_
  · refine Frame.step ?_ (State.onCoh_frame _ _)
    exact Frame.refl _
  · refine Frame.step ?_ (State.acceptCoh_frame _ _)
    exact Frame.refl _

theorem State.coreRequest_frame (s : State) (core : Nat) (line : Nat) (req : CohReq) :
    Frame ⟨recordParts ++ [Part.out, Part.coh], recordRegs ++ [Reg.HCX_COUNTS, Reg.HCX_EVENTS, Reg.HCX_WB_CANCEL], false⟩ s
    (State.coreRequest s core line req) := by
  unfold State.coreRequest
  refine Frame.ite ?_ ?_
  · refine Frame.step ?_ (State.requestCoh_frame _ _)
    exact Frame.refl _
  · refine Frame.step ?_ (State.coreError_frame _ _ _ _)
    exact Frame.refl _

theorem State.setL2_frame (s : State) (core : Nat) (line : Nat) (st : LineState) (data : Bytes) :
    Frame ⟨[.coh], [], false⟩ s (State.setL2 s core line st data) := by
  unfold State.setL2
  refine Frame.step ?_ (State.onCoh_frame _ _)
  exact Frame.refl _

theorem State.rwinWrite_frame (s : State) (die : Nat) (idx : Nat) (half : Nat) (v : Nat) :
    Frame ⟨[], [.HCX_RWIN], false⟩ s (State.rwinWrite s die idx half v) := by
  unfold State.rwinWrite
  refine Frame.ite ?_ ?_
  · exact Frame.refl _
  · refine Frame.trans ?_ (State.writeReg_frame (h0 := ?_) _ _ _ _ _ _ _ _)
    · exact Frame.refl _
    · decide +kernel

theorem State.dropL2_frame (s : State) (core : Nat) (line : Nat) :
    Frame ⟨[.coh], [], false⟩ s (State.dropL2 s core line) := by
  unfold State.dropL2
  refine Frame.step ?_ (State.onCoh_frame _ _)
  exact Frame.refl _

theorem State.rspArrives_frame (s : State) (core : Nat) (line : Nat) :
    Frame ⟨[.coh], [.HCX_COUNTS, .HCX_EVENTS, .HCX_WB_CANCEL], false⟩ s (State.rspArrives s core line) := by
  unfold State.rspArrives
  split
  · extract_lets +onlyGivenNames t0
    (extract_lets +onlyGivenNames t1; refine Frame.viaF (f := t1) (fun t => ?_) fun h1 => ?_; rotate_left; clear_value t1; rotate_left)
    · unfold t1
      refine Frame.step ?_ (State.onCoh_frame _ _)
      exact Frame.refl _
    · split
      · refine Frame.step ?_ (State.sendCoh_frame _ _)
        refine Frame.step ?_ (State.dropL2_frame _ _ _)
        refine Frame.trans ?_ (h1 ..)
        refine Frame.optSnd (by assumption) ?_
        refine Frame.OptSnd.step ?_ (State.takeCoh_frame _ _)
        exact Frame.refl _
      · refine Frame.step ?_ (State.endTxn_frame _ _)
        refine Frame.trans ?_ (h1 ..)
        refine Frame.optSnd (by assumption) ?_
        refine Frame.OptSnd.step ?_ (State.takeCoh_frame _ _)
        exact Frame.refl _
      · split
        · refine Frame.step ?_ (State.sendCoh_frame _ _)
          refine Frame.step ?_ (State.setL2_frame _ _ _ _ _)
          refine Frame.optSnd (by assumption) ?_
          refine Frame.OptSnd.step ?_ (State.takeCoh_frame _ _)
          exact Frame.refl _
        · refine Frame.step ?_ (State.sendCoh_frame _ _)
          refine Frame.optSnd (by assumption) ?_
          refine Frame.OptSnd.step ?_ (State.takeCoh_frame _ _)
          exact Frame.refl _
      · refine Frame.step ?_ (State.endTxn_frame _ _)
        refine Frame.step ?_ (State.tidyFilter_frame _ _)
        refine Frame.optSnd (by assumption) ?_
        refine Frame.OptSnd.step ?_ (State.takeCoh_frame _ _)
        exact Frame.refl _
  · exact Frame.refl _

theorem State.coresActed_frame (s : State) (die : Nat) (line : Nat) (gone : List Nat) (stored : Option Bytes) :
    Frame ⟨[.coh], [], false⟩ s (State.coresActed s die line gone stored) := by
  unfold State.coresActed
  extract_lets +onlyGivenNames t0
  refine Frame.step ?_ (State.onCoh_frame _ _)
  exact Frame.refl _

theorem State.onTxn_frame (s : State) (line : Nat) (f : CohTxn → CohTxn) :
    Frame ⟨[.coh], [], false⟩ s (State.onTxn s line f) := by
  unfold State.onTxn
  refine Frame.step ?_ (State.onCoh_frame _ _)
  exact Frame.refl _

theorem State.snoopCopy_frame (s : State) (t : CohTxn) (l : L2Line) :
    Frame ⟨[.coh], [], false⟩ s (State.snoopCopy s t l) := by
  unfold State.snoopCopy
  extract_lets +onlyGivenNames t0
  extract_lets +onlyGivenNames t1
  split
  · unfold t1
    refine Frame.step ?_ (State.onTxn_frame _ _ _)
    exact Frame.refl _
  · (extract_lets +onlyGivenNames t2; refine Frame.via (t := t2) ?_ fun h2 => ?_; rotate_left; clear_value t2; rotate_left)
    · unfold t2
      refine Frame.step ?_ (State.sendCoh_frame _ _)
      exact Frame.refl _
    · (extract_lets +onlyGivenNames t3; refine Frame.via (t := t3) ?_ fun h3 => ?_; rotate_left; clear_value t3; rotate_left)
      · unfold t3
        refine Frame.ite ?_ ?_
        · refine Frame.step ?_ (State.sendCoh_frame _ _)
          exact h2
        · exact h2
      · (extract_lets +onlyGivenNames t4; refine Frame.via (t := t4) ?_ fun h4 => ?_; rotate_left; clear_value t4; rotate_left)
        · unfold t4
          unfold t1
          refine Frame.step ?_ (State.onTxn_frame _ _ _)
          exact h3
        · refine Frame.ite ?_ ?_
          · refine Frame.step ?_ (State.dropL2_frame _ _ _)
            exact h4
          · refine Frame.step ?_ (State.setL2_frame _ _ _ _ _)
            exact h4
  · refine Frame.step ?_ (State.dropL2_frame _ _ _)
    exact Frame.refl _
  · refine Frame.step ?_ (State.dropL2_frame _ _ _)
    exact Frame.refl _
  · unfold t1
    refine Frame.step ?_ (State.onTxn_frame _ _ _)
    refine Frame.step ?_ (State.dropL2_frame _ _ _)
    refine Frame.step ?_ (State.sendCoh_frame _ _)
    exact Frame.refl _
  · unfold t1
    refine Frame.step ?_ (State.onTxn_frame _ _ _)
    refine Frame.step ?_ (State.dropL2_frame _ _ _)
    refine Frame.step ?_ (State.sendCoh_frame _ _)
    exact Frame.refl _
  · (extract_lets +onlyGivenNames t5; refine Frame.via (t := t5) ?_ fun h5 => ?_; rotate_left; clear_value t5; rotate_left)
    · unfold t5
      unfold t1
      refine Frame.step ?_ (State.onTxn_frame _ _ _)
      exact Frame.refl _
    · refine Frame.ite ?_ ?_
      · refine Frame.step ?_ (State.dropL2_frame _ _ _)
        exact h5
      · refine Frame.step ?_ (State.setL2_frame _ _ _ _ _)
        exact h5
  · unfold t1
    refine Frame.step ?_ (State.onTxn_frame _ _ _)
    exact Frame.refl _
  · unfold t1
    refine Frame.step ?_ (State.onTxn_frame _ _ _)
    refine Frame.step ?_ (State.dropL2_frame _ _ _)
    exact Frame.refl _
  · refine Frame.step ?_ (State.dropL2_frame _ _ _)
    exact Frame.refl _

theorem State.snoopArrives_frame (s : State) (die : Nat) (line : Nat) (gone : List Nat) (stored : Option Bytes) :
    Frame ⟨[.coh], [.HCX_COUNTS, .HCX_EVENTS, .HCX_WB_CANCEL], false⟩ s (State.snoopArrives s die line gone stored) := by
  unfold State.snoopArrives
  split
  · (extract_lets +onlyGivenNames t0; refine Frame.via (t := t0) ?_ fun h0 => ?_; rotate_left; clear_value t0; rotate_left)
    · unfold t0
      refine Frame.step ?_ (State.coresActed_frame _ _ _ _ _)
      refine Frame.optSnd (by assumption) ?_
      refine Frame.OptSnd.step ?_ (State.takeCoh_frame _ _)
      exact Frame.refl _
    · extract_lets +onlyGivenNames t1
      (extract_lets +onlyGivenNames t2; refine Frame.via (t := t2) ?_ fun h2 => ?_; rotate_left; clear_value t2; rotate_left)
      · unfold t2
        refine Frame.ite ?_ ?_
        · refine Frame.trans ?_ (State.bump_frame (h := ?_) _ _ _ _ _)
          · exact h0
          · decide +kernel
        · exact h0
      · (extract_lets +onlyGivenNames t3; refine Frame.via (t := t3) ?_ fun h3 => ?_; rotate_left; clear_value t3; rotate_left)
        · unfold t3
          refine Frame.step ?_ (State.filterAnswer_frame _ _ _)
          refine Frame.trans ?_ (Frame.foldl fun t4 x4 => ?_)
          · exact h2
          · refine Frame.step ?_ (State.snoopCopy_frame _ _ _)
            exact Frame.refl _
        · (extract_lets +onlyGivenNames t5; refine Frame.via (t := t5) ?_ fun h5 => ?_; rotate_left; clear_value t5; rotate_left)
          · unfold t5
            refine Frame.step ?_ (State.onTxn_frame _ _ _)
            exact h3
          · split
            · refine Frame.ite ?_ ?_
              · (extract_lets +onlyGivenNames t6; refine Frame.via (t := t6) ?_ fun h6 => ?_; rotate_left; clear_value t6; rotate_left)
                · unfold t6
                  refine Frame.step ?_ (State.proceed_frame _ _)
                  exact h5
                · refine Frame.ite ?_ ?_
                  · refine Frame.step ?_ (State.nextCoh_frame _ _)
                    exact h6
                  · exact h6
              · exact h5
            · exact h5
  · exact Frame.refl _

theorem State.ackArrives_frame (s : State) (core : Nat) (line : Nat) :
    Frame ⟨[.coh], [.HCX_COUNTS, .HCX_EVENTS, .HCX_WB_CANCEL], false⟩ s (State.ackArrives s core line) := by
  unfold State.ackArrives
  split
  · (extract_lets +onlyGivenNames t0; refine Frame.via (t := t0) ?_ fun h0 => ?_; rotate_left; clear_value t0; rotate_left)
    · unfold t0
      split
      · refine Frame.step ?_ (State.setL3_frame _ _ _ _)
        refine Frame.optSnd (by assumption) ?_
        refine Frame.OptSnd.step ?_ (State.takeCoh_frame _ _)
        refine Frame.optSnd (by assumption) ?_
        refine Frame.OptSnd.step ?_ (State.takeCoh_frame _ _)
        exact Frame.refl _
      · refine Frame.optSnd (by assumption) ?_
        refine Frame.OptSnd.step ?_ (State.takeCoh_frame _ _)
        exact Frame.refl _
    · refine Frame.step ?_ (State.endTxn_frame _ _)
      refine Frame.step ?_ (State.filterDone_frame _ _ _)
      exact h0
  · exact Frame.refl _

theorem State.homeData_frame (s : State) (line : Nat) (data : Bytes) :
    Frame ⟨[.coh], [.HCX_COUNTS, .HCX_EVENTS, .HCX_WB_CANCEL], false⟩ s (State.homeData s line data) := by
  unfold State.homeData
  (extract_lets +onlyGivenNames t0; refine Frame.via (t := t0) ?_ fun h0 => ?_; rotate_left; clear_value t0; rotate_left)
  · unfold t0
    refine Frame.step ?_ (State.setL3_frame _ _ _ _)
    exact Frame.refl _
  · split
    · refine Frame.step ?_ (State.endTxn_frame _ _)
      refine Frame.step ?_ (State.onCoh_frame _ _)
      exact h0
    · exact h0

theorem State.datArrives_frame (s : State) (core : Nat) (line : Nat) :
    Frame ⟨[.coh], [.HCX_COUNTS, .HCX_EVENTS, .HCX_WB_CANCEL], false⟩ s (State.datArrives s core line) := by
  unfold State.datArrives
  split
  · refine Frame.step ?_ (State.sendCoh_frame _ _)
    refine Frame.step ?_ (State.setL2_frame _ _ _ _ _)
    refine Frame.optSnd (by assumption) ?_
    refine Frame.OptSnd.step ?_ (State.takeCoh_frame _ _)
    exact Frame.refl _
  · refine Frame.step ?_ (State.homeData_frame _ _ _)
    refine Frame.optSnd (by assumption) ?_
    refine Frame.OptSnd.step ?_ (State.takeCoh_frame _ _)
    exact Frame.refl _
  · exact Frame.refl _

end Sys2Proof.Machine
end

