-- ==== Sys2Proof/Laws/FrameFaults.lean ====
section
/-! SUPPORT. The footprints of the functions of Machine/Faults.lean. -/

namespace Sys2Proof.Machine

set_option Elab.async false

theorem State.endHaboob_frame (s : State) :
    Frame ⟨storeParts ++ [Part.sched, Part.vrt, Part.flt], storeRegs ++ [Reg.FLT_EVENTS, Reg.FLT_HABOOB, Reg.FLT_QPTR, Reg.FLT_STATUS,
    Reg.FLT_UNPLACED], false⟩ s (State.endHaboob s) := by
  unfold State.endHaboob
  refine Frame.ite ?_ ?_
  · refine Frame.step ?_ (State.onFlt_frame _ _ rfl)
    refine Frame.trans ?_ (State.put_frame (h := ?_) _ _ _ _ _)
    · refine Frame.step ?_ (State.flushCoalesced_frame _)
      exact Frame.refl _
    · decide +kernel
  · exact Frame.refl _

theorem State.armRestore_frame (s : State) :
    Frame ⟨[], [.FLT_RECOVERY], false⟩ s (State.armRestore s) := by
  unfold State.armRestore
  refine Frame.ite ?_ ?_
  · refine Frame.trans ?_ (State.flag_frame (h := ?_) _ _ _ _)
    · exact Frame.refl _
    · decide +kernel
  · exact Frame.refl _

theorem State.acceptCopy_frame (s : State) (rec : Bytes) :
    Frame ⟨storeParts ++ [Part.sched, Part.flt], storeRegs ++ [Reg.FLT_EVENTS, Reg.FLT_QPTR, Reg.FLT_STATUS, Reg.FLT_UNPLACED], false⟩ s
    (State.acceptCopy s rec) := by
  unfold State.acceptCopy
  refine Frame.ite ?_ ?_
  · refine Frame.step ?_ (State.placeRecord_frame _ _ _)
    exact Frame.refl _
  · exact Frame.refl _

theorem State.placeBlocked_frame (s : State) (u : Nat) :
    Frame ⟨storeParts ++ [Part.sched, Part.flt], storeRegs ++ [Reg.FLT_EVENTS, Reg.FLT_QPTR, Reg.FLT_STATUS, Reg.FLT_UNPLACED], false⟩ s
    (State.placeBlocked s u) := by
  unfold State.placeBlocked
  refine Frame.trans ?_ (Frame.foldl fun t0 x0 => ?_)
  · refine Frame.step ?_ (State.onUnit_frame _ _ _)
    exact Frame.refl _
  · refine Frame.step ?_ (State.placeRecord_frame _ _ _)
    exact Frame.refl _

theorem State.releaseWadi_frame (s : State) (slot : Nat) :
    Frame ⟨storeParts ++ [Part.sched, Part.flt], storeRegs ++ [Reg.FLT_EVENTS, Reg.FLT_QPTR, Reg.FLT_STATUS, Reg.FLT_UNPLACED], false⟩ s
    (State.releaseWadi s slot) := by
  unfold State.releaseWadi
  refine Frame.ite ?_ ?_
  · (extract_lets +onlyGivenNames t0; refine Frame.via (t := t0) ?_ fun h0 => ?_; rotate_left; clear_value t0; rotate_left)
    · unfold t0
      refine Frame.step ?_ (State.onFlt_frame _ _ rfl)
      exact Frame.refl _
    · (extract_lets +onlyGivenNames t1; refine Frame.via (t := t1) ?_ fun h1 => ?_; rotate_left; clear_value t1; rotate_left)
      · unfold t1
        refine Frame.trans ?_ (State.put_frame (h := ?_) _ _ _ _ _)
        · exact h0
        · decide +kernel
      · (extract_lets +onlyGivenNames t2; refine Frame.via (t := t2) ?_ fun h2 => ?_; rotate_left; clear_value t2; rotate_left)
        · unfold t2
          refine Frame.ite ?_ ?_
          · refine Frame.trans ?_ (State.put_frame (h := ?_) _ _ _ _ _)
            · exact h1
            · decide +kernel
          · exact h1
        · refine Frame.trans ?_ (Frame.foldl fun t3 x3 => ?_)
          · exact h2
          · refine Frame.step ?_ (State.placeBlocked_frame _ _)
            exact Frame.refl _
  · exact Frame.refl _

end Sys2Proof.Machine
end

