-- ==== Sys2Proof/Laws/FrameTranslate.lean ====
section
/-! SUPPORT. The footprints of the functions of Machine/Translate.lean. -/

namespace Sys2Proof.Machine

set_option Elab.async false

theorem State.prefetch_frame (s : State) (u : Nat) (o : Op) (write : Bool) (gs : List Nat) :
    Frame ⟨[.xlt], [.XLT_COUNTS], false⟩ s (State.prefetch s u o write gs).1 := by
  induction gs generalizing s with
  | nil =>
    unfold State.prefetch
    show Frame.Fst _ _ _
    extract_lets +onlyGivenNames t0
    dsimp only
    refine Frame.Fst.mk ?_
    exact Frame.refl _
  | cons va rest ih =>
    unfold State.prefetch
    show Frame.Fst _ _ _
    extract_lets +onlyGivenNames t0
    dsimp only
    split
    · refine Frame.Fst.mk ?_
      exact Frame.refl _
    · refine Frame.Fst.trans ?_ (ih _)
      refine Frame.step ?_ (State.xltUse_frame _ _ _ _)
      exact Frame.refl _
    · refine Frame.Fst.ite ?_ ?_
      · refine Frame.Fst.mk ?_
        exact Frame.refl _
      · refine Frame.Fst.mk ?_
        change Frame.Fst _ _ _
        refine Frame.Fst.trans ?_ (ih _)
        refine Frame.step ?_ (State.openMiss_frame _ _ _ _ _)
        exact Frame.refl _

theorem State.prefetchItem_frame (s : State) (k : Nat) (u : Nat) (count : Nat) :
    Frame ⟨storeParts ++ [Part.sched], storeRegs, false⟩ s (State.prefetchItem s k u count) := by
  unfold State.prefetchItem
  extract_lets +onlyGivenNames t0
  (extract_lets +onlyGivenNames t1; refine Frame.via (t := t1) ?_ fun h1 => ?_; rotate_left; clear_value t1; rotate_left)
  · unfold t1
    split
    · split
      · split
        · refine Frame.step ?_ (State.writeSectors_frame _ _ _)
          exact Frame.refl _
        · exact Frame.refl _
      · exact Frame.refl _
    · exact Frame.refl _
  · refine Frame.step ?_ (State.finishOp_frame _ _ _ _ _)
    exact h1

theorem State.prefetchOp_frame (s : State) (die : Nat) (p : BitVec 192) :
    Frame ⟨recordParts ++ [Part.xlt], recordRegs ++ errorRegs ++ [Reg.XLT_COUNTS], false⟩ s (State.prefetchOp s die p) := by
  unfold State.prefetchOp
  extract_lets +onlyGivenNames t0
  refine Frame.ite ?_ ?_
  · exact Frame.refl _
  · dsimp only
    refine Frame.ite ?_ ?_
    · refine Frame.trans ?_ (State.failOp_frame (g0 := ?_) _ _ _ _ _ _)
      · change Frame.Fst _ _ _
        refine Frame.Fst.step ?_ (State.takeOp_frame _ _ _ _)
        exact Frame.refl _
      · intro t1
        dsimp only [id]
        exact Frame.refl _
    · split
      · refine Frame.step ?_ (State.faultAccess_frame _ _ _ _ _ _ _)
        refine Frame.fst (by assumption) ?_
        change Frame.Fst _ _ _
        refine Frame.Fst.step ?_ (State.prefetch_frame _ _ _ _ _)
        change Frame.Fst _ _ _
        refine Frame.Fst.step ?_ (State.takeOp_frame _ _ _ _)
        exact Frame.refl _
      · refine Frame.step ?_ (State.prefetchItem_frame _ _ _ _)
        refine Frame.fst (by assumption) ?_
        change Frame.Fst _ _ _
        refine Frame.Fst.step ?_ (State.prefetch_frame _ _ _ _ _)
        change Frame.Fst _ _ _
        refine Frame.Fst.step ?_ (State.takeOp_frame _ _ _ _)
        exact Frame.refl _
      · refine Frame.step ?_ (State.waitOp_frame _ _ _)
        refine Frame.fst (by assumption) ?_
        change Frame.Fst _ _ _
        refine Frame.Fst.step ?_ (State.prefetch_frame _ _ _ _ _)
        change Frame.Fst _ _ _
        refine Frame.Fst.step ?_ (State.takeOp_frame _ _ _ _)
        exact Frame.refl _

theorem State.lateAnswer_frame (s : State) (die : Nat) :
    Frame ⟨[], [.XLT_COUNTS, .XLT_EVENTS], false⟩ s (State.lateAnswer s die) := by
  unfold State.lateAnswer
  refine Frame.trans ?_ (State.flag_frame (h := ?_) _ _ _ _)
  · refine Frame.trans ?_ (State.bump_frame (h := ?_) _ _ _ _ _)
    · exact Frame.refl _
    · decide +kernel
  · decide +kernel

theorem State.closeSlot_frame (s : State) (die : Nat) (slot : Nat) :
    Frame ⟨[.xlt], [], false⟩ s (State.closeSlot s die slot) := by
  unfold State.closeSlot
  refine Frame.step ?_ (State.onXlt_frame _ _)
  exact Frame.refl _

theorem State.missAgain_frame (s : State) (m : MissSlot) :
    Frame ⟨[.xlt], [.XLT_COUNTS], false⟩ s (State.missAgain s m) := by
  unfold State.missAgain
  refine Frame.trans ?_ (Frame.foldl fun t0 x0 => ?_)
  · refine Frame.step ?_ (State.closeSlot_frame _ _ _)
    exact Frame.refl _
  · refine Frame.step ?_ (State.openMiss_frame _ _ _ _ _)
    exact Frame.refl _

theorem State.faultCommand_frame (s : State) (key : Nat) (asid : Nat) (cause : Nat) (va : Nat) (write : Bool) :
    Frame ⟨recordParts ++ [Part.qcx], recordRegs ++ [Reg.XLT_COUNTS], false⟩ s (State.faultCommand s key asid cause va write) := by
  unfold State.faultCommand
  split
  · exact Frame.refl _
  · (extract_lets +onlyGivenNames t0; refine Frame.via (t := t0) ?_ fun h0 => ?_; rotate_left; clear_value t0; rotate_left)
    · unfold t0
      refine Frame.trans ?_ (State.bump_frame (h := ?_) _ _ _ _ _)
      · exact Frame.refl _
      · decide +kernel
    · (extract_lets +onlyGivenNames t1; refine Frame.via (t := t1) ?_ fun h1 => ?_; rotate_left; clear_value t1; rotate_left)
      · unfold t1
        refine Frame.step ?_ (State.faultOf_frame _ _ _ _)
        exact h0
      · refine Frame.step ?_ (State.onQcx_frame _ _)
        exact h1

theorem State.faultWaiter_frame (s : State) (asid : Nat) (cause : Nat) (w : Waiter) :
    Frame ⟨recordParts ++ [Part.qcx], recordRegs ++ [Reg.XLT_COUNTS], false⟩ s (State.faultWaiter s asid cause w) := by
  unfold State.faultWaiter
  refine Frame.ite ?_ ?_
  · split
    · refine Frame.step ?_ (State.faultAccess_frame _ _ _ _ _ _ _)
      exact Frame.refl _
    · exact Frame.refl _
  · refine Frame.step ?_ (State.faultCommand_frame _ _ _ _ _ _)
    exact Frame.refl _

theorem State.faultSlot_frame (s : State) (m : MissSlot) (cause : Nat) :
    Frame ⟨recordParts ++ [Part.xlt, Part.qcx], recordRegs ++ [Reg.XLT_COUNTS], false⟩ s (State.faultSlot s m cause) := by
  unfold State.faultSlot
  refine Frame.trans ?_ (Frame.foldl fun t0 x0 => ?_)
  · refine Frame.step ?_ (State.closeSlot_frame _ _ _)
    exact Frame.refl _
  · refine Frame.step ?_ (State.faultWaiter_frame _ _ _ _)
    exact Frame.refl _

theorem State.fillSlot_frame (s : State) (m : MissSlot) (size : Nat) (frame : Nat) (w : Bool) (r : Bool) :
    Frame ⟨recordParts ++ [Part.xlt, Part.qcx], recordRegs ++ [Reg.XLT_COUNTS, Reg.XLT_EVENTS], false⟩ s (State.fillSlot s m size frame w
    r) := by
  unfold State.fillSlot
  extract_lets +onlyGivenNames t0
  extract_lets +onlyGivenNames t1
  refine Frame.ite ?_ ?_
  · refine Frame.step ?_ (State.faultSlot_frame _ _ _)
    refine Frame.trans ?_ (State.flag_frame (h := ?_) _ _ _ _)
    · exact Frame.refl _
    · decide +kernel
  · refine Frame.step ?_ (State.xltInstall_frame _ _)
    refine Frame.step ?_ (State.closeSlot_frame _ _ _)
    exact Frame.refl _

theorem State.answerMiss_frame (s : State) (die : Nat) (slot : Nat) (fill : Option Nat) :
    Frame ⟨recordParts ++ [Part.xlt, Part.qcx], recordRegs ++ [Reg.XLT_COUNTS, Reg.XLT_EVENTS], false⟩ s (State.answerMiss s die slot
    fill) := by
  unfold State.answerMiss
  split
  · refine Frame.step ?_ (State.lateAnswer_frame _ _)
    exact Frame.refl _
  · refine Frame.ite ?_ ?_
    · refine Frame.step ?_ (State.missAgain_frame _ _)
      exact Frame.refl _
    · split
      · refine Frame.step ?_ (State.faultSlot_frame _ _ _)
        exact Frame.refl _
      · refine Frame.step ?_ (State.fillSlot_frame _ _ _ _ _ _)
        exact Frame.refl _

theorem State.writeMiss_frame (s : State) (m : MissSlot) :
    Frame ⟨recordParts ++ [Part.xlt], readRegs ++ [Reg.XLT_EVENTS, Reg.XLT_MISSQ_PTR], false⟩ s (State.writeMiss s m) := by
  unfold State.writeMiss
  refine Frame.ite ?_ ?_
  · refine Frame.trans ?_ (State.flag_frame (h := ?_) _ _ _ _)
    · exact Frame.refl _
    · decide +kernel
  · extract_lets +onlyGivenNames t0
    extract_lets +onlyGivenNames t1
    (extract_lets +onlyGivenNames t2; refine Frame.via (t := t2) ?_ fun h2 => ?_; rotate_left; clear_value t2; rotate_left)
    · unfold t2
      refine Frame.ite ?_ ?_
      · change Frame.Fst _ _ _
        refine Frame.Fst.step ?_ (State.writeSpan_frame _ _ _)
        exact Frame.refl _
      · exact Frame.refl _
    · refine Frame.step ?_ (State.onXlt_frame _ _)
      refine Frame.trans ?_ (State.addWrap_frame (h := ?_) _ _ _ _ _)
      · exact h2
      · decide +kernel

theorem State.resumeDiscard_frame (s : State) :
    Frame ⟨[], [.FLT_EVENTS], false⟩ s (State.resumeDiscard s) := by
  unfold State.resumeDiscard
  refine Frame.trans ?_ (State.flag_frame (h := ?_) _ _ _ _)
  · exact Frame.refl _
  · decide +kernel

theorem State.endStall_frame (s : State) (u : Nat) (t : Stall) :
    Frame ⟨[.sched, .qcx], [], false⟩ s (State.endStall s u t) := by
  unfold State.endStall
  refine Frame.ite ?_ ?_
  · refine Frame.step ?_ (State.onUnit_frame _ _ _)
    exact Frame.refl _
  · refine Frame.step ?_ (State.onQcx_frame _ _)
    exact Frame.refl _

theorem State.resumeAbort_frame (s : State) (u : Nat) :
    Frame ⟨[.sched, .qcx], errorRegs ++ [Reg.FLT_EVENTS], false⟩ s (State.resumeAbort s u) := by
  unfold State.resumeAbort
  split
  · refine Frame.step ?_ (State.resumeDiscard_frame _)
    exact Frame.refl _
  · (extract_lets +onlyGivenNames t0; refine Frame.via (t := t0) ?_ fun h0 => ?_; rotate_left; clear_value t0; rotate_left)
    · unfold t0
      refine Frame.step ?_ (State.endStall_frame _ _ _)
      exact Frame.refl _
    · refine Frame.ite ?_ ?_
      · split
        · exact h0
        · extract_lets +onlyGivenNames t1
          refine Frame.step ?_ (State.onUnit_frame _ _ _)
          refine Frame.step ?_ (State.onOp_frame _ _ _ _)
          refine Frame.trans ?_ (State.recordError_frame (g0 := ?_) _ _ _ _ _ _)
          · exact h0
          · intro t2
            dsimp only [id]
            exact Frame.refl _
      · refine Frame.step ?_ (State.onQcx_frame _ _)
        exact h0

theorem State.timeoutMiss_frame (s : State) (die : Nat) (slot : Nat) :
    Frame ⟨recordParts ++ [Part.xlt, Part.qcx], recordRegs ++ [Reg.XLT_COUNTS, Reg.XLT_EVENTS], false⟩ s (State.timeoutMiss s die slot) :=
    by
  unfold State.timeoutMiss
  split
  · exact Frame.refl _
  · refine Frame.ite ?_ ?_
    · refine Frame.step ?_ (State.faultSlot_frame _ _ _)
      refine Frame.trans ?_ (State.flag_frame (h := ?_) _ _ _ _)
      · exact Frame.refl _
      · decide +kernel
    · exact Frame.refl _

theorem State.invalidateXlt_frame (s : State) (die : Nat) :
    Frame ⟨[.xlt], [.XLT_EVENTS, .XLT_INVAL], false⟩ s (State.invalidateXlt s die) := by
  unfold State.invalidateXlt
  extract_lets +onlyGivenNames t0
  extract_lets +onlyGivenNames t1
  extract_lets +onlyGivenNames t2
  extract_lets +onlyGivenNames t3
  extract_lets +onlyGivenNames t4
  refine Frame.ite ?_ ?_
  · refine Frame.ite ?_ ?_
    · refine Frame.trans ?_ (State.flag_frame (h := ?_) _ _ _ _)
      · exact Frame.refl _
      · decide +kernel
    · extract_lets +onlyGivenNames t5
      extract_lets +onlyGivenNames t6
      refine Frame.step ?_ (State.onXlt_frame _ _)
      refine Frame.trans ?_ (State.put_frame (h := ?_) _ _ _ _ _)
      · exact Frame.refl _
      · decide +kernel
  · refine Frame.trans ?_ (State.flag_frame (h := ?_) _ _ _ _)
    · exact Frame.refl _
    · decide +kernel

theorem State.invalWrite_frame (s : State) (die : Nat) (v : Nat) :
    Frame ⟨[.xlt], [.XLT_COUNTS, .XLT_EVENTS, .XLT_INVAL], false⟩ s (State.invalWrite s die v) := by
  unfold State.invalWrite
  (extract_lets +onlyGivenNames t0; refine Frame.via (t := t0) ?_ fun h0 => ?_; rotate_left; clear_value t0; rotate_left)
  · unfold t0
    refine Frame.trans ?_ (State.put_frame (h := ?_) _ _ _ _ _)
    · refine Frame.trans ?_ (State.put_frame (h := ?_) _ _ _ _ _)
      · exact Frame.refl _
      · decide +kernel
    · decide +kernel
  · (extract_lets +onlyGivenNames t1; refine Frame.via (t := t1) ?_ fun h1 => ?_; rotate_left; clear_value t1; rotate_left)
    · unfold t1
      refine Frame.trans ?_ (State.put_frame (h := ?_) _ _ _ _ _)
      · exact h0
      · decide +kernel
    · (extract_lets +onlyGivenNames t2; refine Frame.via (t := t2) ?_ fun h2 => ?_; rotate_left; clear_value t2; rotate_left)
      · unfold t2
        refine Frame.ite ?_ ?_
        · refine Frame.trans ?_ (State.setWord_frame (h := ?_) _ _ _ _ _)
          · exact h1
          · decide +kernel
        · exact h1
      · refine Frame.ite ?_ ?_
        · refine Frame.step ?_ (State.invalidateXlt_frame _ _)
          exact h2
        · exact h2

theorem State.invalDone_frame (s : State) (die : Nat) :
    Frame ⟨[.xlt], [.XLT_INVAL], false⟩ s (State.invalDone s die) := by
  unfold State.invalDone
  split
  · exact Frame.refl _
  · refine Frame.ite ?_ ?_
    · exact Frame.refl _
    · refine Frame.step ?_ (State.onXlt_frame _ _)
      refine Frame.trans ?_ (State.flag_frame (h := ?_) _ _ _ _)
      · exact Frame.refl _
      · decide +kernel

theorem State.retryAccess_frame (s : State) (w : Waiter) (asid : Nat) :
    Frame ⟨recordParts ++ [Part.xlt, Part.qcx], recordRegs ++ [Reg.XLT_COUNTS], false⟩ s (State.retryAccess s w asid) := by
  unfold State.retryAccess
  split
  · exact Frame.refl _
  · refine Frame.step ?_ (State.openMiss_frame _ _ _ _ _)
    exact Frame.refl _
  · refine Frame.step ?_ (State.faultWaiter_frame _ _ _ _)
    exact Frame.refl _

theorem State.resumeRetry_frame (s : State) (u : Nat) :
    Frame ⟨recordParts ++ [Part.xlt, Part.qcx], recordRegs ++ [Reg.XLT_COUNTS], false⟩ s (State.resumeRetry s u) := by
  unfold State.resumeRetry
  split
  · refine Frame.step ?_ (State.resumeDiscard_frame _)
    exact Frame.refl _
  · refine Frame.step ?_ (State.retryAccess_frame _ _ _)
    refine Frame.step ?_ (State.endStall_frame _ _ _)
    exact Frame.refl _

theorem State.resumeWrite_frame (s : State) (v : Nat) :
    Frame ⟨recordParts ++ [Part.xlt, Part.qcx], recordRegs ++ errorRegs ++ [Reg.XLT_COUNTS], false⟩ s (State.resumeWrite s v) := by
  unfold State.resumeWrite
  split
  · refine Frame.step ?_ (State.resumeRetry_frame _ _)
    exact Frame.refl _
  · refine Frame.step ?_ (State.resumeAbort_frame _ _)
    exact Frame.refl _
  · refine Frame.step ?_ (State.resumeDiscard_frame _)
    exact Frame.refl _

theorem State.respWrite_frame (s : State) (die : Nat) (slot : Nat) (v : Nat) :
    Frame ⟨recordParts ++ [Part.xlt, Part.qcx], recordRegs ++ [Reg.XLT_COUNTS, Reg.XLT_EVENTS], false⟩ s (State.respWrite s die slot v) :=
    by
  unfold State.respWrite
  split
  · refine Frame.step ?_ (State.answerMiss_frame _ _ _ _)
    exact Frame.refl _
  · refine Frame.step ?_ (State.answerMiss_frame _ _ _ _)
    exact Frame.refl _
  · exact Frame.refl _

end Sys2Proof.Machine
end

