-- ==== Sys2Proof/Laws/FrameQueue.lean ====
section
/-! SUPPORT. The footprints of the functions of Machine/Queue.lean. -/

namespace Sys2Proof.Machine

set_option Elab.async false

theorem State.qctlResult_frame (s : State) (die : Nat) (r : Nat) :
    Frame ⟨[], [.QCX_QCTL], false⟩ s (State.qctlResult s die r) := by
  unfold State.qctlResult
  refine Frame.trans ?_ (State.put_frame (h := ?_) _ _ _ _ _)
  · exact Frame.refl _
  · decide +kernel

theorem State.writeCtx_frame (s : State) (q : Nat) (b : Bytes) :
    Frame ⟨storeParts, storeRegs, false⟩ s (State.writeCtx s q b) := by
  unfold State.writeCtx
  refine Frame.step ?_ (State.writeSectors_frame _ _ _)
  exact Frame.refl _

theorem State.ctxRoom_frame (s : State) (die : Nat) :
    Frame.Opt ⟨storeParts ++ [Part.qcx], storeRegs, false⟩ s (State.ctxRoom s die) := by
  unfold State.ctxRoom
  refine Frame.Opt.ite ?_ ?_
  · refine Frame.Opt.some ?_
    exact Frame.refl _
  · split
    · exact Frame.Opt.none
    · refine Frame.Opt.some ?_
      refine Frame.step ?_ (State.onQcx_frame _ _)
      refine Frame.step ?_ (State.writeCtx_frame _ _ _)
      exact Frame.refl _

theorem State.cacheCtx_frame (s : State) (q : Nat) (b : Bytes) :
    Frame ⟨[.qcx], [], false⟩ s (State.cacheCtx s q b) := by
  unfold State.cacheCtx
  refine Frame.step ?_ (State.onQcx_frame _ _)
  exact Frame.refl _

theorem State.enableQueue_frame (s : State) (die : Nat) (q : Nat) :
    Frame ⟨recordParts ++ [Part.qcx], readRegs ++ [Reg.QCX_QCTL], false⟩ s (State.enableQueue s die q) := by
  unfold State.enableQueue
  refine Frame.ite ?_ ?_
  · refine Frame.step ?_ (State.qctlResult_frame _ _ _)
    exact Frame.refl _
  · extract_lets +onlyGivenNames t0
    split
    extract_lets +onlyGivenNames t1
    refine Frame.ite ?_ ?_
    · extract_lets +onlyGivenNames t2
      (extract_lets +onlyGivenNames t3; refine Frame.via (t := t3) ?_ fun h3 => ?_; rotate_left; clear_value t3; rotate_left)
      · unfold t3
        refine Frame.step ?_ (State.onQcx_frame _ _)
        refine Frame.fst (by assumption) ?_
        change Frame.Fst _ _ _
        refine Frame.Fst.ite ?_ ?_
        · refine Frame.Fst.step ?_ (State.readSpan_frame _ _ _)
          exact Frame.refl _
        · refine Frame.Fst.mk ?_
          exact Frame.refl _
      · (extract_lets +onlyGivenNames t4; refine Frame.via (t := t4) ?_ fun h4 => ?_; rotate_left; clear_value t4; rotate_left)
        · unfold t4
          split
          · refine Frame.step ?_ (State.cacheCtx_frame _ _ _)
            refine Frame.opt (by assumption) ?_
            refine Frame.Opt.step ?_ (State.ctxRoom_frame _ _)
            exact h3
          · refine Frame.step ?_ (State.writeCtx_frame _ _ _)
            exact h3
        · refine Frame.step ?_ (State.qctlResult_frame _ _ _)
          exact h4
    · refine Frame.step ?_ (State.qctlResult_frame _ _ _)
      refine Frame.fst (by assumption) ?_
      change Frame.Fst _ _ _
      refine Frame.Fst.ite ?_ ?_
      · refine Frame.Fst.step ?_ (State.readSpan_frame _ _ _)
        exact Frame.refl _
      · refine Frame.Fst.mk ?_
        exact Frame.refl _

theorem State.disableQueue_frame (s : State) (die : Nat) (q : Nat) :
    Frame ⟨[.qcx], [.QCX_QCTL], false⟩ s (State.disableQueue s die q) := by
  unfold State.disableQueue
  refine Frame.step ?_ (State.onQcx_frame _ _)
  refine Frame.trans ?_ (State.flag_frame (h := ?_) _ _ _ _)
  · exact Frame.refl _
  · decide +kernel

theorem State.syncQueue_frame (s : State) (die : Nat) (q : Nat) :
    Frame ⟨storeParts, storeRegs ++ [Reg.QCX_QCTL], false⟩ s (State.syncQueue s die q) := by
  unfold State.syncQueue
  refine Frame.step ?_ (State.qctlResult_frame _ _ _)
  split
  · refine Frame.step ?_ (State.writeCtx_frame _ _ _)
    exact Frame.refl _
  · exact Frame.refl _

theorem State.qctl_frame (s : State) (die : Nat) (q : Nat) (action : Nat) :
    Frame ⟨recordParts ++ [Part.qcx], readRegs ++ [Reg.QCX_EVENTS, Reg.QCX_QCTL], false⟩ s (State.qctl s die q action) := by
  unfold State.qctl
  (extract_lets +onlyGivenNames t0; refine Frame.via (t := t0) ?_ fun h0 => ?_; rotate_left; clear_value t0; rotate_left)
  · unfold t0
    refine Frame.trans ?_ (State.put_frame (h := ?_) _ _ _ _ _)
    · exact Frame.refl _
    · decide +kernel
  · refine Frame.ite ?_ ?_
    · refine Frame.trans ?_ (State.flag_frame (h := ?_) _ _ _ _)
      · exact h0
      · decide +kernel
    · split
      · refine Frame.step ?_ (State.enableQueue_frame _ _ _)
        exact h0
      · refine Frame.step ?_ (State.disableQueue_frame _ _ _)
        exact h0
      · refine Frame.step ?_ (State.syncQueue_frame _ _ _)
        exact h0
      · refine Frame.trans ?_ (State.flag_frame (h := ?_) _ _ _ _)
        · exact h0
        · decide +kernel

theorem State.onCtx_frame (s : State) (q : Nat) (f : Bytes → Bytes) :
    Frame ⟨[.qcx], [], false⟩ s (State.onCtx s q f) := by
  unfold State.onCtx
  split
  · refine Frame.step ?_ (State.onQcx_frame _ _)
    exact Frame.refl _
  · exact Frame.refl _

theorem State.setCtx_frame (s : State) (q : Nat) (f : CtxFld) (v : Nat) :
    Frame ⟨[.qcx], [], false⟩ s (State.setCtx s q f v) := by
  unfold State.setCtx
  refine Frame.step ?_ (State.onCtx_frame _ _ _)
  exact Frame.refl _

theorem State.park_frame (s : State) (q : Nat) :
    Frame ⟨[.qcx], [.QCX_COUNTS, .QCX_EVENTS], false⟩ s (State.park s q) := by
  unfold State.park
  extract_lets +onlyGivenNames t0
  (extract_lets +onlyGivenNames t1; refine Frame.via (t := t1) ?_ fun h1 => ?_; rotate_left; clear_value t1; rotate_left)
  · unfold t1
    refine Frame.step ?_ (State.onQcx_frame _ _)
    exact Frame.refl _
  · (extract_lets +onlyGivenNames t2; refine Frame.via (t := t2) ?_ fun h2 => ?_; rotate_left; clear_value t2; rotate_left)
    · unfold t2
      refine Frame.step ?_ (State.setCtx_frame _ _ _ _)
      refine Frame.step ?_ (State.setCtx_frame _ _ _ _)
      exact h1
    · refine Frame.trans ?_ (State.flag_frame (h := ?_) _ _ _ _)
      · refine Frame.trans ?_ (State.bump_frame (h := ?_) _ _ _ _ _)
        · exact h2
        · decide +kernel
      · decide +kernel

theorem State.startFetch_frame (s : State) (q : Nat) :
    Frame ⟨[.qcx], [], false⟩ s (State.startFetch s q) := by
  unfold State.startFetch
  refine Frame.ite ?_ ?_
  · refine Frame.step ?_ (State.onQcx_frame _ _)
    exact Frame.refl _
  · exact Frame.refl _

theorem State.takeEntry_frame (s : State) (q : Nat) (c : Nat) (b : Bytes) :
    Frame ⟨[.qcx], [], false⟩ s (State.takeEntry s q c b) := by
  unfold State.takeEntry
  (extract_lets +onlyGivenNames t0; refine Frame.via (t := t0) ?_ fun h0 => ?_; rotate_left; clear_value t0; rotate_left)
  · unfold t0
    refine Frame.step ?_ (State.onQcx_frame _ _)
    refine Frame.step ?_ (State.setCtx_frame _ _ _ _)
    exact Frame.refl _
  · refine Frame.step ?_ (State.startFetch_frame _ _)
    exact h0

theorem State.disableDone_frame (s : State) (die : Nat) :
    Frame ⟨storeParts ++ [Part.qcx], storeRegs ++ [Reg.QCX_QCTL], false⟩ s (State.disableDone s die) := by
  unfold State.disableDone
  split
  · exact Frame.refl _
  · refine Frame.ite ?_ ?_
    · (extract_lets +onlyGivenNames z0 t0; refine Frame.via (t := t0) ?_ fun h0 => ?_; rotate_left; clear_value t0; rotate_left)
      · unfold t0
        split
        · refine Frame.step ?_ (State.onQcx_frame _ _)
          refine Frame.step ?_ (State.writeCtx_frame _ _ _)
          exact Frame.refl _
        · refine Frame.ite ?_ ?_
          · refine Frame.step ?_ (State.writeCtx_frame _ _ _)
            exact Frame.refl _
          · exact Frame.refl _
      · (extract_lets +onlyGivenNames t1; refine Frame.via (t := t1) ?_ fun h1 => ?_; rotate_left; clear_value t1; rotate_left)
        · unfold t1
          refine Frame.step ?_ (State.onQcx_frame _ _)
          exact h0
        · refine Frame.step ?_ (State.qctlResult_frame _ _ _)
          refine Frame.trans ?_ (State.put_frame (h := ?_) _ _ _ _ _)
          · exact h1
          · decide +kernel
    · exact Frame.refl _

theorem State.discardDoorbell_frame (s : State) (q : Nat) :
    Frame ⟨[], [.QCX_COUNTS, .QCX_EVENTS], false⟩ s (State.discardDoorbell s q) := by
  unfold State.discardDoorbell
  refine Frame.trans ?_ (State.flag_frame (h := ?_) _ _ _ _)
  · refine Frame.trans ?_ (State.bump_frame (h := ?_) _ _ _ _ _)
    · exact Frame.refl _
    · decide +kernel
  · decide +kernel

theorem State.touchCtx_frame (s : State) (q : Nat) :
    Frame ⟨[.qcx], [], false⟩ s (State.touchCtx s q) := by
  unfold State.touchCtx
  split
  · refine Frame.step ?_ (State.onQcx_frame _ _)
    exact Frame.refl _
  · exact Frame.refl _

theorem State.queueError_frame (s : State) (q : Nat) (cause : Nat) :
    Frame ⟨[.qcx], [.QCX_EVENTS], false⟩ s (State.queueError s q cause) := by
  unfold State.queueError
  refine Frame.ite ?_ ?_
  · exact Frame.refl _
  · (extract_lets +onlyGivenNames t0; refine Frame.via (t := t0) ?_ fun h0 => ?_; rotate_left; clear_value t0; rotate_left)
    · unfold t0
      refine Frame.trans ?_ (State.flag_frame (h := ?_) _ _ _ _)
      · refine Frame.step ?_ (State.setCtx_frame _ _ _ _)
        refine Frame.step ?_ (State.setCtx_frame _ _ _ _)
        exact Frame.refl _
      · decide +kernel
    · refine Frame.step ?_ (State.onQcx_frame _ _)
      exact h0

theorem State.settleQueue_frame (s : State) (q : Nat) :
    Frame ⟨[.qcx], [], false⟩ s (State.settleQueue s q) := by
  unfold State.settleQueue
  refine Frame.ite ?_ ?_
  · refine Frame.step ?_ (State.setCtx_frame _ _ _ _)
    refine Frame.step ?_ (State.onQcx_frame _ _)
    exact Frame.refl _
  · refine Frame.step ?_ (State.startFetch_frame _ _)
    exact Frame.refl _

theorem State.submitted_frame (s : State) (q : Nat) (value : Nat) :
    Frame ⟨[.qcx], [.QCX_COUNTS, .QCX_EVENTS], false⟩ s (State.submitted s q value) := by
  unfold State.submitted
  extract_lets +onlyGivenNames t0
  refine Frame.ite ?_ ?_
  · refine Frame.step ?_ (State.discardDoorbell_frame _ _)
    exact Frame.refl _
  · refine Frame.ite ?_ ?_
    · refine Frame.step ?_ (State.queueError_frame _ _ _)
      exact Frame.refl _
    · (extract_lets +onlyGivenNames t1; refine Frame.via (t := t1) ?_ fun h1 => ?_; rotate_left; clear_value t1; rotate_left)
      · unfold t1
        refine Frame.step ?_ (State.setCtx_frame _ _ _ _)
        exact Frame.refl _
      · (extract_lets +onlyGivenNames t2; refine Frame.via (t := t2) ?_ fun h2 => ?_; rotate_left; clear_value t2; rotate_left)
        · unfold t2
          refine Frame.ite ?_ ?_
          · refine Frame.step ?_ (State.setCtx_frame _ _ _ _)
            exact h1
          · exact h1
        · refine Frame.step ?_ (State.settleQueue_frame _ _)
          exact h2

theorem State.consumed_frame (s : State) (q : Nat) (value : Nat) :
    Frame ⟨[.qcx], [.QCX_EVENTS], false⟩ s (State.consumed s q value) := by
  unfold State.consumed
  refine Frame.ite ?_ ?_
  · refine Frame.step ?_ (State.queueError_frame _ _ _)
    exact Frame.refl _
  · refine Frame.step ?_ (State.setCtx_frame _ _ _ _)
    exact Frame.refl _

theorem State.ringCached_frame (s : State) (q : Nat) (kind : Nat) (value : Nat) :
    Frame ⟨[.qcx], [.QCX_COUNTS, .QCX_EVENTS], false⟩ s (State.ringCached s q kind value) := by
  unfold State.ringCached
  (extract_lets +onlyGivenNames t0; refine Frame.via (t := t0) ?_ fun h0 => ?_; rotate_left; clear_value t0; rotate_left)
  · unfold t0
    refine Frame.step ?_ (State.touchCtx_frame _ _)
    exact Frame.refl _
  · refine Frame.ite ?_ ?_
    · refine Frame.step ?_ (State.submitted_frame _ _ _)
      exact h0
    · refine Frame.step ?_ (State.consumed_frame _ _ _)
      exact h0

theorem State.ringWaiting_frame (s : State) (q : Nat) :
    Frame ⟨[.qcx], [.QCX_COUNTS, .QCX_EVENTS], false⟩ s (State.ringWaiting s q) := by
  unfold State.ringWaiting
  extract_lets +onlyGivenNames t0
  refine Frame.trans ?_ (Frame.foldl fun t1 x1 => ?_)
  · refine Frame.step ?_ (State.onQcx_frame _ _)
    exact Frame.refl _
  · refine Frame.step ?_ (State.ringCached_frame _ _ _ _)
    exact Frame.refl _

theorem State.fetchCtx_frame (s : State) (q : Nat) :
    Frame ⟨recordParts ++ [Part.qcx], readRegs ++ [Reg.QCX_COUNTS, Reg.QCX_EVENTS], false⟩ s (State.fetchCtx s q) := by
  unfold State.fetchCtx
  refine Frame.ite ?_ ?_
  · exact Frame.refl _
  · split
    · exact Frame.refl _
    · extract_lets +onlyGivenNames t0
      split
      refine Frame.ite ?_ ?_
      · refine Frame.step ?_ (State.ringWaiting_frame _ _)
        refine Frame.step ?_ (State.cacheCtx_frame _ _ _)
        refine Frame.fst (by assumption) ?_
        change Frame.Fst _ _ _
        refine Frame.Fst.ite ?_ ?_
        · refine Frame.Fst.step ?_ (State.readSpan_frame _ _ _)
          refine Frame.opt (by assumption) ?_
          refine Frame.Opt.step ?_ (State.ctxRoom_frame _ _)
          exact Frame.refl _
        · refine Frame.Fst.mk ?_
          refine Frame.opt (by assumption) ?_
          refine Frame.Opt.step ?_ (State.ctxRoom_frame _ _)
          exact Frame.refl _
      · extract_lets +onlyGivenNames t1
        refine Frame.trans ?_ (Frame.foldl fun t2 x2 => ?_)
        · refine Frame.step ?_ (State.onQcx_frame _ _)
          refine Frame.fst (by assumption) ?_
          change Frame.Fst _ _ _
          refine Frame.Fst.ite ?_ ?_
          · refine Frame.Fst.step ?_ (State.readSpan_frame _ _ _)
            refine Frame.opt (by assumption) ?_
            refine Frame.Opt.step ?_ (State.ctxRoom_frame _ _)
            exact Frame.refl _
          · refine Frame.Fst.mk ?_
            refine Frame.opt (by assumption) ?_
            refine Frame.Opt.step ?_ (State.ctxRoom_frame _ _)
            exact Frame.refl _
        · refine Frame.step ?_ (State.discardDoorbell_frame _ _)
          exact Frame.refl _

theorem State.refetch_frame (s : State) (q : Nat) (k : Nat) :
    Frame ⟨[.qcx], [], false⟩ s (State.refetch s q k) := by
  unfold State.refetch
  refine Frame.step ?_ (State.onQcx_frame _ _)
  exact Frame.refl _

theorem State.entryReturns_frame (s : State) (q : Nat) (k : Nat) :
    Frame ⟨recordParts ++ [Part.qcx], readRegs ++ [Reg.QCX_COUNTS, Reg.QCX_EVENTS], false⟩ s (State.entryReturns s q k) := by
  unfold State.entryReturns
  split
  · exact Frame.refl _
  · refine Frame.ite ?_ ?_
    · exact Frame.refl _
    · extract_lets +onlyGivenNames t0
      extract_lets +onlyGivenNames t1
      split
      extract_lets +onlyGivenNames t2
      extract_lets +onlyGivenNames t3
      extract_lets +onlyGivenNames t4
      (extract_lets +onlyGivenNames t5; refine Frame.via (t := t5) ?_ fun h5 => ?_; rotate_left; clear_value t5; rotate_left)
      · unfold t5
        refine Frame.ite ?_ ?_
        · refine Frame.fst (by assumption) ?_
          change Frame.Fst _ _ _
          refine Frame.Fst.ite ?_ ?_
          · refine Frame.Fst.step ?_ (State.readSpan_frame _ _ _)
            exact Frame.refl _
          · refine Frame.Fst.mk ?_
            exact Frame.refl _
        · refine Frame.trans ?_ (State.bump_frame (h := ?_) _ _ _ _ _)
          · refine Frame.fst (by assumption) ?_
            change Frame.Fst _ _ _
            refine Frame.Fst.ite ?_ ?_
            · refine Frame.Fst.step ?_ (State.readSpan_frame _ _ _)
              exact Frame.refl _
            · refine Frame.Fst.mk ?_
              exact Frame.refl _
          · decide +kernel
      · (extract_lets +onlyGivenNames t6; refine Frame.via (t := t6) ?_ fun h6 => ?_; rotate_left; clear_value t6; rotate_left)
        · unfold t6
          refine Frame.step ?_ (State.onQcx_frame _ _)
          exact h5
        · refine Frame.ite ?_ ?_
          · refine Frame.step ?_ (State.settleQueue_frame _ _)
            exact h6
          · split
            · refine Frame.step ?_ (State.takeEntry_frame _ _ _ _)
              exact h6
            · refine Frame.ite ?_ ?_
              · refine Frame.step ?_ (State.park_frame _ _)
                exact h6
              · exact h6

theorem State.doorbell_frame (s : State) (q : Nat) (kind : Nat) (value : Nat) :
    Frame ⟨storeParts ++ [Part.qcx], storeRegs ++ [Reg.QCX_COUNTS, Reg.QCX_EVENTS], false⟩ s (State.doorbell s q kind value) := by
  unfold State.doorbell
  split
  · refine Frame.step ?_ (State.ringCached_frame _ _ _ _)
    exact Frame.refl _
  · (extract_lets +onlyGivenNames t0; refine Frame.via (t := t0) ?_ fun h0 => ?_; rotate_left; clear_value t0; rotate_left)
    · unfold t0
      refine Frame.ite ?_ ?_
      · refine Frame.trans ?_ (State.flag_frame (h := ?_) _ _ _ _)
        · exact Frame.refl _
        · decide +kernel
      · exact Frame.refl _
    · refine Frame.step ?_ (State.onQcx_frame _ _)
      exact h0

end Sys2Proof.Machine
end

