-- ==== Sys2Proof/Laws/FrameCodec.lean ====
section
/-! SUPPORT. The footprints of the functions of Machine/Codec.lean. -/

namespace Sys2Proof.Machine

set_option Elab.async false

theorem cdcAt_frame (u : Nat) (block : Nat) (s : State) :
    Frame ⟨[], [.CDC_ERROR], false⟩ s (cdcAt u block s) := by
  unfold cdcAt
  refine Frame.trans ?_ (State.put_frame (h := ?_) _ _ _ _ _)
  · refine Frame.trans ?_ (State.put_frame (h := ?_) _ _ _ _ _)
    · exact Frame.refl _
    · decide +kernel
  · decide +kernel

theorem cdcMore_frame (u : Nat) (s : State) :
    Frame ⟨[.fresh], [.CDC_ERROR], false⟩ s (cdcMore u s) := by
  unfold cdcMore
  refine Frame.step ?_ (State.took_frame _ _)
  refine Frame.step ?_ (cdcAt_frame _ _ _)
  exact Frame.refl _

theorem State.clearHist_frame (s : State) (die x h : Nat) : Frame ⟨[], [.CDC_HIST], false⟩ s (State.clearHist s die x h) :=
  s.filter_frame _ fun p hp => by
    simp only [Bool.not_eq_false', Bool.and_eq_true, beq_iff_eq] at hp
    simp [hp.1.1]

theorem hstoreTask_frame (u : Nat) (p : BitVec 192) :
    Task.Framed ⟨accessParts, accessRegs ++ errorRegs ++ [Reg.CDC_HIST, Reg.XLT_COUNTS], false⟩ (hstoreTask u p) := by
  unfold hstoreTask
  extract_lets +onlyGivenNames t0
  extract_lets +onlyGivenNames t1
  extract_lets +onlyGivenNames t2
  extract_lets +onlyGivenNames t3
  (refine Task.Framed.mk (fun s => ?_) fun s => ?_ <;> dsimp only)
  · refine Frame.step ?_ (cdcMore_frame _ _)
    exact Frame.refl _
  · (refine Plan.Framed.mk (fun t => ?_) (fun t a => ?_) fun t => ?_ <;> dsimp only)
    · refine Frame.step ?_ (cdcMore_frame _ _)
      exact Frame.refl _
    · exact Frame.refl _
    · refine Frame.Body.mk ?_ ?_
      · refine Frame.step ?_ (State.clearHist_frame _ _ _ _)
        exact Frame.refl _
      · trivial

theorem State.cacheTable_frame (s : State) (u : Nat) (t : CodeTable) :
    Frame ⟨[.fresh, .codec], [], false⟩ s (State.cacheTable s u t) := by
  unfold State.cacheTable
  extract_lets +onlyGivenNames t0
  refine Frame.ite ?_ ?_
  · refine Frame.step ?_ (State.onCodec_frame _ _)
    exact Frame.refl _
  · split
    · exact Frame.refl _
    · refine Frame.step ?_ (State.onCodec_frame _ _)
      refine Frame.step ?_ (State.took_frame _ _)
      exact Frame.refl _

theorem State.fetchTable_frame (r : ReadResult) (u : Nat) (pa : Nat) (slot : Nat) :
    Frame ⟨recordParts ++ [Part.out, Part.codec, Part.rem, Part.pci], accessRegs, false⟩ r.state (State.fetchTable r u pa slot).1.state := by
  change Frame.At (fun p : ReadResult × Bytes => p.1.state) _ _ _
  unfold State.fetchTable
  split
  · (change Frame.At ReadResult.state _ _ _; try dsimp only)
    exact Frame.refl _
  · extract_lets +onlyGivenNames t0
    (extract_lets +onlyGivenNames t1; refine Frame.At.viaAt ReadResult.state (b := t1) ?_ fun h1 => ?_; rotate_left; clear_value t1; rotate_left)
    · unfold t1
      refine Frame.At.step ?_ (State.readPhysical_frame _ _ _ _)
      change Frame.At ReadResult.state _ _ _
      refine Frame.At.step ?_ (State.readPhysical_frame _ _ _ _)
      exact Frame.refl _
    · extract_lets +onlyGivenNames t2
      refine Frame.At.ite ?_ ?_
      · (change Frame.At ReadResult.state _ _ _; try dsimp only)
        exact h1
      · (extract_lets +onlyGivenNames t3; refine Frame.At.via (t := t3) ?_ fun h3 => ?_; rotate_left; clear_value t3; rotate_left)
        · unfold t3
          refine Frame.step ?_ (State.onRem_frame _ _)
          exact h1
        · (change Frame.At ReadResult.state _ _ _; try dsimp only)
          (change Frame _ _ _; dsimp only)
          refine Frame.step ?_ (State.cacheTable_frame _ _ _)
          exact h3

theorem DecodeRun.block_frame (r : DecodeRun) (u : Nat) (die : Nat) (asid : Nat) (v : DecodePayload) (header : Bytes) (i :
    Nat) :
    Frame ⟨accessParts ++ [Part.codec], accessRegs ++ [Reg.CDC_BYTES_IN], false⟩ r.reads.state (DecodeRun.block r u die asid v
    header i).reads.state := by
  change Frame.At (fun r : DecodeRun => r.reads.state) _ _ _
  unfold DecodeRun.block
  refine Frame.At.ite ?_ ?_
  · exact Frame.refl _
  · extract_lets +onlyGivenNames t0
    extract_lets +onlyGivenNames t1
    extract_lets +onlyGivenNames t2
    refine Frame.At.ite ?_ ?_
    · (change Frame _ _ _; dsimp only)
      exact Frame.refl _
    · extract_lets +onlyGivenNames t3
      dsimp only
      split
      · (change Frame _ _ _; dsimp only)
        change Frame.At ReadResult.state _ _ _
        change Frame.At (fun q : ReadResult × _ => q.1.state) _ _ _
        refine Frame.At.ite ?_ ?_
        · refine Frame.At.step ?_ (State.fetchTable_frame _ _ _ _)
          exact Frame.refl _
        · (change Frame.At ReadResult.state _ _ _; try dsimp only)
          change Frame.At (fun r : DecodeRun => r.reads.state) _ _ _
          exact Frame.refl _
      · refine Frame.At.ite ?_ ?_
        · (change Frame _ _ _; dsimp only)
          change Frame.At ReadResult.state _ _ _
          change Frame.At (fun q : ReadResult × _ => q.1.state) _ _ _
          refine Frame.At.ite ?_ ?_
          · refine Frame.At.step ?_ (State.fetchTable_frame _ _ _ _)
            exact Frame.refl _
          · (change Frame.At ReadResult.state _ _ _; try dsimp only)
            change Frame.At (fun r : DecodeRun => r.reads.state) _ _ _
            exact Frame.refl _
        · split
          · (change Frame _ _ _; dsimp only)
            change Frame.At ReadResult.state _ _ _
            refine Frame.At.foldl ?_ fun t4 x4 => ?_
            · change Frame.At (fun q : ReadResult × _ => q.1.state) _ _ _
              refine Frame.At.ite ?_ ?_
              · refine Frame.At.step ?_ (State.fetchTable_frame _ _ _ _)
                exact Frame.refl _
              · (change Frame.At ReadResult.state _ _ _; try dsimp only)
                change Frame.At (fun r : DecodeRun => r.reads.state) _ _ _
                exact Frame.refl _
            · refine Frame.At.step ?_ (State.readPiece_frame _ _ _ _ _)
              exact Frame.refl _
          · refine Frame.At.ite ?_ ?_
            · (change Frame _ _ _; dsimp only)
              change Frame.At ReadResult.state _ _ _
              refine Frame.At.foldl ?_ fun t5 x5 => ?_
              · change Frame.At (fun q : ReadResult × _ => q.1.state) _ _ _
                refine Frame.At.ite ?_ ?_
                · refine Frame.At.step ?_ (State.fetchTable_frame _ _ _ _)
                  exact Frame.refl _
                · (change Frame.At ReadResult.state _ _ _; try dsimp only)
                  change Frame.At (fun r : DecodeRun => r.reads.state) _ _ _
                  exact Frame.refl _
              · refine Frame.At.step ?_ (State.readPiece_frame _ _ _ _ _)
                exact Frame.refl _
            · split
              · (change Frame _ _ _; dsimp only)
                refine Frame.trans ?_ (State.bump_frame (h := ?_) _ _ _ _ _)
                · change Frame.At ReadResult.state _ _ _
                  refine Frame.At.foldl ?_ fun t6 x6 => ?_
                  · change Frame.At (fun q : ReadResult × _ => q.1.state) _ _ _
                    refine Frame.At.ite ?_ ?_
                    · refine Frame.At.step ?_ (State.fetchTable_frame _ _ _ _)
                      exact Frame.refl _
                    · (change Frame.At ReadResult.state _ _ _; try dsimp only)
                      change Frame.At (fun r : DecodeRun => r.reads.state) _ _ _
                      exact Frame.refl _
                  · refine Frame.At.step ?_ (State.readPiece_frame _ _ _ _ _)
                    exact Frame.refl _
                · decide +kernel
              · refine Frame.At.ite ?_ ?_
                · (change Frame _ _ _; dsimp only)
                  refine Frame.trans ?_ (State.bump_frame (h := ?_) _ _ _ _ _)
                  · change Frame.At ReadResult.state _ _ _
                    refine Frame.At.foldl ?_ fun t7 x7 => ?_
                    · change Frame.At (fun q : ReadResult × _ => q.1.state) _ _ _
                      refine Frame.At.ite ?_ ?_
                      · refine Frame.At.step ?_ (State.fetchTable_frame _ _ _ _)
                        exact Frame.refl _
                      · (change Frame.At ReadResult.state _ _ _; try dsimp only)
                        change Frame.At (fun r : DecodeRun => r.reads.state) _ _ _
                        exact Frame.refl _
                    · refine Frame.At.step ?_ (State.readPiece_frame _ _ _ _ _)
                      exact Frame.refl _
                  · decide +kernel
                · (change Frame _ _ _; dsimp only)
                  refine Frame.trans ?_ (State.bump_frame (h := ?_) _ _ _ _ _)
                  · change Frame.At ReadResult.state _ _ _
                    refine Frame.At.foldl ?_ fun t8 x8 => ?_
                    · change Frame.At (fun q : ReadResult × _ => q.1.state) _ _ _
                      refine Frame.At.ite ?_ ?_
                      · refine Frame.At.step ?_ (State.fetchTable_frame _ _ _ _)
                        exact Frame.refl _
                      · (change Frame.At ReadResult.state _ _ _; try dsimp only)
                        change Frame.At (fun r : DecodeRun => r.reads.state) _ _ _
                        exact Frame.refl _
                    · refine Frame.At.step ?_ (State.readPiece_frame _ _ _ _ _)
                      exact Frame.refl _
                  · decide +kernel

theorem State.spoil_frame (s : State) (die : Nat) (asid : Nat) (va : Nat) (n : Nat) :
    Frame ⟨[.fresh, .mem], [], false⟩ s (State.spoil s die asid va n) := by
  unfold State.spoil
  refine Frame.step ?_ (State.took_frame _ _)
  change Frame.Fst _ _ _
  refine Frame.Fst.foldl ?_ fun t0 x0 y0 => ?_
  · refine Frame.Fst.mk ?_
    exact Frame.refl _
  · extract_lets +onlyGivenNames t1
    extract_lets +onlyGivenNames t2
    refine Frame.Fst.ite ?_ ?_
    · refine Frame.Fst.mk ?_
      refine Frame.step ?_ (State.store_frame _ _ _)
      change Frame.Fst _ _ _
      refine Frame.Fst.mk ?_
      exact Frame.refl _
    · refine Frame.Fst.mk ?_
      change Frame.Fst _ _ _
      refine Frame.Fst.mk ?_
      exact Frame.refl _

theorem decodeTask_frame (u : Nat) (p : BitVec 448) :
    Task.Framed ⟨accessParts ++ [Part.codec], accessRegs ++ errorRegs ++ [Reg.CDC_BYTES_IN, Reg.CDC_BYTES_OUT, Reg.CDC_STALL,
    Reg.XLT_COUNTS], false⟩ (decodeTask u p) := by
  unfold decodeTask
  extract_lets +onlyGivenNames t0
  extract_lets +onlyGivenNames t1
  extract_lets +onlyGivenNames t2
  (refine Task.Framed.mk (fun s => ?_) fun s => ?_ <;> dsimp only)
  · refine Frame.step ?_ (cdcMore_frame _ _)
    exact Frame.refl _
  · (refine Plan.Framed.mk (fun t => ?_) (fun t a => ?_) fun t => ?_ <;> dsimp only)
    · refine Frame.step ?_ (cdcMore_frame _ _)
      exact Frame.refl _
    · exact Frame.refl _
    · refine Frame.Body.ite ?_ ?_
      · refine Frame.Body.mk ?_ ?_
        · exact Frame.refl _
        · trivial
      · refine Frame.Body.ite ?_ ?_
        · refine Frame.Body.mk ?_ ?_
          · exact Frame.refl _
          · trivial
        · refine Frame.Body.ite ?_ ?_
          · refine Frame.Body.mk ?_ ?_
            · exact Frame.refl _
            · trivial
          · refine Frame.Body.ite ?_ ?_
            · refine Frame.Body.mk ?_ ?_
              · change Frame.At ReadResult.state _ _ _
                change Frame.At (fun r : DecodeRun => r.reads.state) _ _ _
                refine Frame.At.foldl ?_ fun t5 x5 => ?_
                · (change Frame _ _ _; dsimp only)
                  exact Frame.refl _
                · refine Frame.At.step ?_ (DecodeRun.block_frame _ _ _ _ _ _ _)
                  exact Frame.refl _
              · trivial
            · split
              · refine Frame.Body.mk ?_ ?_
                · refine Frame.trans ?_ (State.bump_frame (h := ?_) _ _ _ _ _)
                  · refine Frame.step ?_ (State.took_frame _ _)
                    refine Frame.trans ?_ (State.bump_frame (h := ?_) _ _ _ _ _)
                    · change Frame.At ReadResult.state _ _ _
                      change Frame.At (fun r : DecodeRun => r.reads.state) _ _ _
                      refine Frame.At.foldl ?_ fun t6 x6 => ?_
                      · (change Frame _ _ _; dsimp only)
                        exact Frame.refl _
                      · refine Frame.At.step ?_ (DecodeRun.block_frame _ _ _ _ _ _ _)
                        exact Frame.refl _
                    · decide +kernel
                  · decide +kernel
                · trivial
              · refine Frame.Body.mk ?_ ?_
                · refine Frame.step ?_ (State.spoil_frame _ _ _ _ _)
                  refine Frame.trans ?_ (State.bump_frame (h := ?_) _ _ _ _ _)
                  · refine Frame.step ?_ (State.took_frame _ _)
                    refine Frame.trans ?_ (State.bump_frame (h := ?_) _ _ _ _ _)
                    · change Frame.At ReadResult.state _ _ _
                      change Frame.At (fun r : DecodeRun => r.reads.state) _ _ _
                      refine Frame.At.foldl ?_ fun t7 x7 => ?_
                      · (change Frame _ _ _; dsimp only)
                        exact Frame.refl _
                      · refine Frame.At.step ?_ (DecodeRun.block_frame _ _ _ _ _ _ _)
                        exact Frame.refl _
                    · decide +kernel
                  · decide +kernel
                · intro t0
                  refine Frame.step ?_ (cdcAt_frame _ _ _)
                  exact Frame.refl _

theorem State.showPending_frame (s : State) (die : Nat) (x : Nat) :
    Frame ⟨[], [.CDC_PENDING], false⟩ s (State.showPending s die x) := by
  unfold State.showPending
  refine Frame.trans ?_ (State.put_frame (h := ?_) _ _ _ _ _)
  · exact Frame.refl _
  · split <;> decide +kernel

theorem State.addPending_frame (s : State) (die : Nat) (x : Nat) (cut : Bool) (t : CodeTable) :
    Frame ⟨[.codec], [.CDC_EVENTS, .CDC_PENDING], false⟩ s (State.addPending s die x cut t) := by
  unfold State.addPending
  refine Frame.ite ?_ ?_
  · refine Frame.trans ?_ (State.flag_frame (h := ?_) _ _ _ _)
    · exact Frame.refl _
    · decide +kernel
  · extract_lets +onlyGivenNames t0
    refine Frame.step ?_ (State.showPending_frame _ _ _)
    refine Frame.step ?_ (State.onCodec_frame _ _)
    exact Frame.refl _

theorem buildTask_frame (u : Nat) (p : BitVec 192) :
    Task.Framed ⟨accessParts ++ [Part.codec], accessRegs ++ errorRegs ++ [Reg.CDC_PENDING, Reg.XLT_COUNTS], false⟩ (buildTask u p) :=
    by
  unfold buildTask
  extract_lets +onlyGivenNames t0
  extract_lets +onlyGivenNames t1
  extract_lets +onlyGivenNames t2
  extract_lets +onlyGivenNames t3
  extract_lets +onlyGivenNames t4
  extract_lets +onlyGivenNames t5
  (refine Task.Framed.mk (fun s => ?_) fun s => ?_ <;> dsimp only)
  · refine Frame.step ?_ (cdcMore_frame _ _)
    exact Frame.refl _
  · (refine Plan.Framed.mk (fun t => ?_) (fun t a => ?_) fun t => ?_ <;> dsimp only)
    · refine Frame.step ?_ (cdcMore_frame _ _)
      exact Frame.refl _
    · exact Frame.refl _
    · refine Frame.Body.mk ?_ ?_
      · refine Frame.step ?_ (State.addPending_frame _ _ _ _ _)
        exact Frame.refl _
      · trivial

theorem State.lateSectors_frame (s : State) (u : Nat) (k : Nat) :
    Frame ⟨[.rem], [], false⟩ s (State.lateSectors s u k).1 := by
  show Frame.Fst _ _ _
  unfold State.lateSectors
  extract_lets +onlyGivenNames t0
  extract_lets +onlyGivenNames t1
  extract_lets +onlyGivenNames t2
  extract_lets +onlyGivenNames t3
  extract_lets +onlyGivenNames t4
  extract_lets +onlyGivenNames t5
  extract_lets +onlyGivenNames t6
  extract_lets +onlyGivenNames t7
  extract_lets +onlyGivenNames t8
  extract_lets +onlyGivenNames t9
  (extract_lets +onlyGivenNames t10; refine Frame.Fst.via (t := t10) ?_ fun h10 => ?_; rotate_left; clear_value t10; rotate_left)
  · unfold t10
    refine Frame.step ?_ (State.onRem_frame _ _)
    exact Frame.refl _
  · refine Frame.Fst.mk ?_
    refine Frame.ite ?_ ?_
    · refine Frame.step ?_ (State.dropArrived_frame _ _)
      exact h10
    · refine Frame.step ?_ (State.dropReads_frame _ _ _ _ _)
      exact h10

theorem State.clearHistograms_frame (s : State) : Frame ⟨[], [.CDC_HIST], false⟩ s (State.clearHistograms s) :=
  s.filter_frame _ fun p h => by
    simp only [bne_eq_false_iff_eq] at h
    simp [h]

theorem State.installTables_frame (s : State) :
    Frame ⟨storeParts ++ [Part.codec], storeRegs ++ [Reg.CDC_PENDING], false⟩ s (State.installTables s) := by
  unfold State.installTables
  extract_lets +onlyGivenNames t0
  extract_lets +onlyGivenNames t1
  (extract_lets +onlyGivenNames t2; refine Frame.via (t := t2) ?_ fun h2 => ?_; rotate_left; clear_value t2; rotate_left)
  · unfold t2
    refine Frame.foldl fun t3 x3 => ?_
    refine Frame.foldl fun t4 x4 => ?_
    refine Frame.step ?_ (State.writeSectors_frame _ _ _)
    exact Frame.refl _
  · (extract_lets +onlyGivenNames t5; refine Frame.via (t := t5) ?_ fun h5 => ?_; rotate_left; clear_value t5; rotate_left)
    · unfold t5
      refine Frame.step ?_ (State.onCodec_frame _ _)
      exact h2
    · refine Frame.trans ?_ (Frame.foldl fun t6 x6 => ?_)
      · exact h5
      · refine Frame.step ?_ (State.showPending_frame _ _ _)
        exact Frame.refl _

theorem State.histogram_frame (s : State) (die : Nat) (x : Nat) (h : Nat) (syms : List Nat) :
    Frame ⟨[], [.CDC_EVENTS, .CDC_HIST], false⟩ s (State.histogram s die x h syms) := by
  unfold State.histogram
  refine Frame.foldl fun t0 x0 => ?_
  extract_lets +onlyGivenNames t1
  refine Frame.ite ?_ ?_
  · exact Frame.refl _
  · extract_lets +onlyGivenNames t2
    extract_lets +onlyGivenNames t3
    (extract_lets +onlyGivenNames t4; refine Frame.via (t := t4) ?_ fun h4 => ?_; rotate_left; clear_value t4; rotate_left)
    · unfold t4
      refine Frame.ite ?_ ?_
      · refine Frame.trans ?_ (State.flag_frame (h := ?_) _ _ _ _)
        · exact Frame.refl _
        · decide +kernel
      · exact Frame.refl _
    · refine Frame.trans ?_ (State.bump_frame (h := ?_) _ _ _ _ _)
      · exact h4
      · (unfold t3; split <;> decide +kernel)

theorem codeTask_frame (u : Nat) (p : BitVec 448) :
    Task.Framed ⟨accessParts ++ [Part.codec], accessRegs ++ errorRegs ++ [Reg.CDC_BLOCKS, Reg.CDC_HIST, Reg.XLT_COUNTS], false⟩ (codeTask
    u p) := by
  unfold codeTask
  extract_lets +onlyGivenNames t0
  extract_lets +onlyGivenNames t1
  extract_lets +onlyGivenNames t2
  extract_lets +onlyGivenNames t3
  extract_lets +onlyGivenNames t4
  extract_lets +onlyGivenNames t5
  (refine Task.Framed.mk (fun s => ?_) fun s => ?_ <;> dsimp only)
  · refine Frame.step ?_ (cdcMore_frame _ _)
    exact Frame.refl _
  · (refine Plan.Framed.mk (fun t => ?_) (fun t a => ?_) fun t => ?_ <;> dsimp only)
    · refine Frame.step ?_ (cdcMore_frame _ _)
      exact Frame.refl _
    · refine Frame.step ?_ (State.spoil_frame _ _ _ _ _)
      exact Frame.refl _
    · split
      · refine Frame.Body.mk ?_ ?_
        · refine Frame.step ?_ (State.spoil_frame _ _ _ _ _)
          change Frame.At ReadResult.state _ _ _
          change Frame.At (fun q : ReadResult × _ => q.1.state) _ _ _
          refine Frame.At.step ?_ (State.fetchTable_frame _ _ _ _)
          dsimp only
          exact Frame.refl _
        · trivial
      · refine Frame.Body.ite ?_ ?_
        · refine Frame.Body.mk ?_ ?_
          · change Frame.At ReadResult.state _ _ _
            change Frame.At (fun q : ReadResult × _ => q.1.state) _ _ _
            refine Frame.At.step ?_ (State.fetchTable_frame _ _ _ _)
            dsimp only
            exact Frame.refl _
          · trivial
        · refine Frame.Body.ite ?_ ?_
          · refine Frame.Body.mk ?_ ?_
            · refine Frame.step ?_ (State.spoil_frame _ _ _ _ _)
              change Frame.At ReadResult.state _ _ _
              change Frame.At (fun q : ReadResult × _ => q.1.state) _ _ _
              refine Frame.At.step ?_ (State.fetchTable_frame _ _ _ _)
              dsimp only
              exact Frame.refl _
            · trivial
          · refine Frame.Body.mk ?_ ?_
            · refine Frame.trans ?_ (State.bump_frame (h := ?_) _ _ _ _ _)
              · refine Frame.trans ?_ (State.bump_frame (h := ?_) _ _ _ _ _)
                · refine Frame.ite ?_ ?_
                  · refine Frame.trans ?_ (Frame.foldl fun t8 x8 => ?_)
                    · change Frame.At ReadResult.state _ _ _
                      change Frame.At (fun q : ReadResult × _ => q.1.state) _ _ _
                      refine Frame.At.step ?_ (State.fetchTable_frame _ _ _ _)
                      dsimp only
                      exact Frame.refl _
                    · refine Frame.step ?_ (State.histogram_frame _ _ _ _ _)
                      exact Frame.refl _
                  · change Frame.At ReadResult.state _ _ _
                    change Frame.At (fun q : ReadResult × _ => q.1.state) _ _ _
                    refine Frame.At.step ?_ (State.fetchTable_frame _ _ _ _)
                    dsimp only
                    exact Frame.refl _
                · decide +kernel
              · decide +kernel
            · trivial

end Sys2Proof.Machine
end

