-- ==== Sys2Proof/Laws/FrameTraining.lean ====
section
/-! SUPPORT. The footprints of the functions of Machine/Training.lean. -/

namespace Sys2Proof.Machine

set_option Elab.async false

theorem State.readLocal_frame (r : ReadResult) (u : Nat) (a : Nat) (n : Nat) :
    Frame ⟨recordParts ++ [Part.out, Part.rem, Part.pci], accessRegs, false⟩ r.state (State.readLocal r u a n).state := by
  change Frame.At ReadResult.state _ _ _
  unfold State.readLocal
  refine Frame.At.foldl ?_ fun t0 x0 => ?_
  · exact Frame.refl _
  · refine Frame.At.step ?_ (State.readPhysical_frame _ _ _ _)
    exact Frame.refl _

theorem State.updWrite_frame (s : State) (a : Nat) (data : Bytes) :
    Frame ⟨recordParts, readRegs, false⟩ s (State.updWrite s a data) := by
  unfold State.updWrite
  refine Frame.ite ?_ ?_
  · change Frame.Fst _ _ _
    refine Frame.Fst.step ?_ (State.writeSpan_frame _ _ _)
    exact Frame.refl _
  · exact Frame.refl _

theorem State.writeEntry_frame (s : State) (t : Nat) (fmt : Nat) (exp : Nat) (hbase : Nat) (wide : Bool) :
    Frame ⟨recordParts, readRegs, false⟩ s (State.writeEntry s t fmt exp hbase wide) := by
  unfold State.writeEntry
  extract_lets +onlyGivenNames t0
  extract_lets +onlyGivenNames t1
  refine Frame.step ?_ (State.updWrite_frame _ _ _)
  exact Frame.refl _

theorem State.applyPatches_frame (s : State) (t : Nat) :
    Frame ⟨recordParts, readRegs, false⟩ s (State.applyPatches s t) := by
  unfold State.applyPatches
  extract_lets +onlyGivenNames t0
  extract_lets +onlyGivenNames t1
  refine Frame.foldl fun t2 x2 => ?_
  extract_lets +onlyGivenNames t3
  extract_lets +onlyGivenNames t4
  extract_lets +onlyGivenNames t5
  split
  · refine Frame.step ?_ (State.updWrite_frame _ _ _)
    exact Frame.refl _
  · refine Frame.step ?_ (State.updWrite_frame _ _ _)
    exact Frame.refl _
  · refine Frame.step ?_ (State.updWrite_frame _ _ _)
    exact Frame.refl _
  · refine Frame.step ?_ (State.updWrite_frame _ _ _)
    exact Frame.refl _

theorem State.applyFolds_frame (s : State) (h : FmtHeader) (changed : List Nat) :
    Frame ⟨recordParts, readRegs, false⟩ s (State.applyFolds s h changed) := by
  unfold State.applyFolds
  refine Frame.foldl fun t0 x0 => ?_
  extract_lets +onlyGivenNames t1
  extract_lets +onlyGivenNames t2
  extract_lets +onlyGivenNames t3
  extract_lets +onlyGivenNames t4
  refine Frame.ite ?_ ?_
  · extract_lets +onlyGivenNames t5
    refine Frame.step ?_ (State.updWrite_frame _ _ _)
    exact Frame.refl _
  · exact Frame.refl _

theorem State.applySelection_frame (s : State) (h : FmtHeader) (x : FormatSel) :
    Frame ⟨recordParts, readRegs, false⟩ s (State.applySelection s h x) := by
  unfold State.applySelection
  extract_lets +onlyGivenNames t0
  extract_lets +onlyGivenNames t1
  (extract_lets +onlyGivenNames t2; refine Frame.via (t := t2) ?_ fun h2 => ?_; rotate_left; clear_value t2; rotate_left)
  · unfold t2
    refine Frame.step ?_ (State.updWrite_frame _ _ _)
    exact Frame.refl _
  · extract_lets +onlyGivenNames t3
    dsimp only
    refine Frame.trans ?_ (Frame.foldl fun t4 x4 => ?_)
    · refine Frame.step ?_ (State.applyFolds_frame _ _ _)
      refine Frame.trans ?_ (Frame.foldl fun t5 x5 => ?_)
      · refine Frame.step ?_ (State.writeEntry_frame _ _ _ _ _ _)
        exact h2
      · refine Frame.step ?_ (State.writeEntry_frame _ _ _ _ _ _)
        exact Frame.refl _
    · refine Frame.step ?_ (State.applyPatches_frame _ _)
      exact Frame.refl _

theorem State.spoilRest_frame (s : State) (die : Nat) (asid : Nat) (writes : List Span) (failed : Option Nat) :
    Frame ⟨[.fresh, .mem], [], false⟩ s (State.spoilRest s die asid writes failed) := by
  unfold State.spoilRest
  extract_lets +onlyGivenNames t0
  extract_lets +onlyGivenNames t1
  refine Frame.foldl fun t2 x2 => ?_
  refine Frame.step ?_ (State.spoil_frame _ _ _ _ _)
  exact Frame.refl _

theorem moveCodedTask_frame (u : Nat) (p : BitVec 192) :
    Task.Framed ⟨accessParts, accessRegs ++ errorRegs ++ [Reg.XLT_COUNTS], false⟩ (moveCodedTask u p) := by
  unfold moveCodedTask
  extract_lets +onlyGivenNames t0
  extract_lets +onlyGivenNames t1
  extract_lets +onlyGivenNames t2
  extract_lets +onlyGivenNames t3
  extract_lets +onlyGivenNames t4
  extract_lets +onlyGivenNames t5
  (refine Task.Framed.mk (fun s => ?_) fun s => ?_ <;> dsimp only)
  · dsimp only [id]
    exact Frame.refl _
  · (refine Plan.Framed.mk (fun t => ?_) (fun t a => ?_) fun t => ?_ <;> dsimp only)
    · dsimp only [id]
      exact Frame.refl _
    · refine Frame.step ?_ (State.spoilRest_frame _ _ _ _ _)
      exact Frame.refl _
    · refine Frame.Body.ite ?_ ?_
      · refine Frame.Body.mk ?_ ?_
        · exact Frame.refl _
        · trivial
      · refine Frame.Body.ite ?_ ?_
        · refine Frame.Body.mk ?_ ?_
          · exact Frame.refl _
          · trivial
        · refine Frame.Body.ite ?_ ?_
          · refine Frame.Body.mk ?_ ?_
            · exact Frame.refl _
            · trivial
          · refine Frame.Body.mk ?_ ?_
            · exact Frame.refl _
            · trivial

theorem movePlainTask_frame (u : Nat) (p : BitVec 192) :
    Task.Framed ⟨accessParts, accessRegs ++ errorRegs ++ [Reg.XLT_COUNTS], false⟩ (movePlainTask u p) := by
  unfold movePlainTask
  extract_lets +onlyGivenNames t0
  extract_lets +onlyGivenNames t1
  extract_lets +onlyGivenNames t2
  extract_lets +onlyGivenNames t3
  extract_lets +onlyGivenNames t4
  (refine Task.Framed.mk (fun s => ?_) fun s => ?_ <;> dsimp only)
  · dsimp only [id]
    exact Frame.refl _
  · (refine Plan.Framed.mk (fun t => ?_) (fun t a => ?_) fun t => ?_ <;> dsimp only)
    · dsimp only [id]
      exact Frame.refl _
    · refine Frame.step ?_ (State.spoilRest_frame _ _ _ _ _)
      exact Frame.refl _
    · refine Frame.Body.mk ?_ ?_
      · exact Frame.refl _
      · trivial

theorem moveTask_frame (u : Nat) (p : BitVec 192) :
    Task.Framed ⟨accessParts, accessRegs ++ errorRegs ++ [Reg.XLT_COUNTS], false⟩ (moveTask u p) := by
  unfold moveTask
  split
  · exact Task.Framed.mono (moveCodedTask_frame _ _) (by decide +kernel)
  · exact Task.Framed.mono (movePlainTask_frame _ _) (by decide +kernel)

theorem State.selectTensor_frame (r : ReadResult) (u : Nat) (h : FmtHeader) (t : Nat) (e : TensorEntry) :
    Frame ⟨recordParts ++ [Part.out, Part.fsel, Part.rem, Part.pci], accessRegs, false⟩ r.state (State.selectTensor r u h t e).state := by
  change Frame.At ReadResult.state _ _ _
  unfold State.selectTensor
  refine Frame.At.ite ?_ ?_
  · exact Frame.refl _
  · extract_lets +onlyGivenNames t0
    (extract_lets +onlyGivenNames t1; refine Frame.At.viaAt ReadResult.state (b := t1) ?_ fun h1 => ?_; rotate_left; clear_value t1; rotate_left)
    · unfold t1
      refine Frame.At.step ?_ (State.readLocal_frame _ _ _ _)
      change Frame.At ReadResult.state _ _ _
      refine Frame.At.step ?_ (State.readLocal_frame _ _ _ _)
      exact Frame.refl _
    · refine Frame.At.ite ?_ ?_
      · exact h1
      · (extract_lets +onlyGivenNames t2; refine Frame.At.via (t := t2) ?_ fun h2 => ?_; rotate_left; clear_value t2; rotate_left)
        · unfold t2
          exact h1
        · extract_lets +onlyGivenNames t3
          (clear_value t3; split)
          · exact h1
          · extract_lets +onlyGivenNames t4
            extract_lets +onlyGivenNames t5
            extract_lets +onlyGivenNames t6
            dsimp only
            (change Frame _ _ _; dsimp only)
            refine Frame.step ?_ (State.onFsel_frame _ _)
            refine Frame.step ?_ (State.took_frame _ _)
            exact h2

theorem fselTask_frame (die : Nat) (p : BitVec 192) :
    Task.Framed ⟨accessParts ++ [Part.fsel], accessRegs ++ errorRegs ++ [Reg.XLT_COUNTS], false⟩ (fselTask die p) := by
  unfold fselTask
  extract_lets +onlyGivenNames t0
  extract_lets +onlyGivenNames t1
  extract_lets +onlyGivenNames t2
  extract_lets +onlyGivenNames t3
  extract_lets +onlyGivenNames t4
  (refine Task.Framed.mk (fun s => ?_) fun s => ?_ <;> dsimp only)
  · dsimp only [id]
    exact Frame.refl _
  · (refine Plan.Framed.mk (fun t => ?_) (fun t a => ?_) fun t => ?_ <;> dsimp only)
    · dsimp only [id]
      exact Frame.refl _
    · exact Frame.refl _
    · refine Frame.Body.ite ?_ ?_
      · refine Frame.Body.mk ?_ ?_
        · exact Frame.refl _
        · trivial
      · split
        · refine Frame.Body.mk ?_ ?_
          · change Frame.At ReadResult.state _ _ _
            refine Frame.At.foldl ?_ fun t7 x7 => ?_
            · (change Frame _ _ _; dsimp only)
              exact Frame.refl _
            · refine Frame.At.step ?_ (State.selectTensor_frame _ _ _ _ _)
              exact Frame.refl _
          · trivial
        · refine Frame.Body.mk ?_ ?_
          · change Frame.At ReadResult.state _ _ _
            refine Frame.At.foldl ?_ fun t8 x8 => ?_
            · (change Frame _ _ _; dsimp only)
              exact Frame.refl _
            · refine Frame.At.step ?_ (State.selectTensor_frame _ _ _ _ _)
              exact Frame.refl _
          · trivial

theorem xposeTask_frame (u : Nat) (p : BitVec 448) :
    Task.Framed ⟨accessParts, accessRegs ++ errorRegs ++ [Reg.XLT_COUNTS], false⟩ (xposeTask u p) := by
  unfold xposeTask
  extract_lets +onlyGivenNames t0
  extract_lets +onlyGivenNames t1
  extract_lets +onlyGivenNames t2
  extract_lets +onlyGivenNames t3
  extract_lets +onlyGivenNames t4
  extract_lets +onlyGivenNames t5
  extract_lets +onlyGivenNames t6
  extract_lets +onlyGivenNames t7
  extract_lets +onlyGivenNames t8
  extract_lets +onlyGivenNames t9
  extract_lets +onlyGivenNames t10
  (refine Task.Framed.mk (fun s => ?_) fun s => ?_ <;> dsimp only)
  · dsimp only [id]
    exact Frame.refl _
  · (refine Plan.Framed.mk (fun t => ?_) (fun t a => ?_) fun t => ?_ <;> dsimp only)
    · dsimp only [id]
      exact Frame.refl _
    · refine Frame.step ?_ (State.spoilRest_frame _ _ _ _ _)
      exact Frame.refl _
    · refine Frame.Body.mk ?_ ?_
      · exact Frame.refl _
      · trivial

theorem State.applyFormats_frame (s : State) :
    Frame ⟨recordParts ++ [Part.fsel], readRegs, false⟩ s (State.applyFormats s) := by
  unfold State.applyFormats
  extract_lets +onlyGivenNames t0
  (extract_lets +onlyGivenNames t1; refine Frame.via (t := t1) ?_ fun h1 => ?_; rotate_left; clear_value t1; rotate_left)
  · unfold t1
    refine Frame.foldl fun t2 x2 => ?_
    refine Frame.step ?_ (State.applySelection_frame _ _ _)
    exact Frame.refl _
  · refine Frame.step ?_ (State.onFsel_frame _ _)
    exact h1

theorem rbankTask_frame (die : Nat) (p : BitVec 192) :
    Task.Framed ⟨accessParts, accessRegs ++ errorRegs ++ [Reg.VRT_ARM_TICK, Reg.VRT_BANK, Reg.XLT_COUNTS], false⟩ (rbankTask die p)
    := by
  unfold rbankTask
  extract_lets +onlyGivenNames t0
  extract_lets +onlyGivenNames t1
  extract_lets +onlyGivenNames t2
  extract_lets +onlyGivenNames t3
  extract_lets +onlyGivenNames t4
  extract_lets +onlyGivenNames t5
  (refine Task.Framed.mk (fun s => ?_) fun s => ?_ <;> dsimp only)
  · unfold t5
    refine Frame.step ?_ (State.took_frame _ _)
    refine Frame.trans ?_ (State.put_frame (h := ?_) _ _ _ _ _)
    · exact Frame.refl _
    · decide +kernel
  · (refine Plan.Framed.mk (fun t => ?_) (fun t a => ?_) fun t => ?_ <;> dsimp only)
    · unfold t5
      refine Frame.step ?_ (State.took_frame _ _)
      refine Frame.trans ?_ (State.put_frame (h := ?_) _ _ _ _ _)
      · exact Frame.refl _
      · decide +kernel
    · exact Frame.refl _
    · refine Frame.Body.mk ?_ ?_
      · refine Frame.trans ?_ (State.put_frame (h := ?_) _ _ _ _ _)
        · refine Frame.trans ?_ (State.put_frame (h := ?_) _ _ _ _ _)
          · refine Frame.trans ?_ (State.flag_frame (h := ?_) _ _ _ _)
            · exact Frame.refl _
            · decide +kernel
          · decide +kernel
        · decide +kernel
      · trivial

end Sys2Proof.Machine
end

