-- ==== Sys2Proof/Laws/FrameCairn.lean ====
section
/-! SUPPORT. The footprints of the functions of Machine/Cairn.lean. -/

namespace Sys2Proof.Machine

set_option Elab.async false

theorem State.restoreCairn_frame (s : State) (step : Nat) :
    Frame ⟨recordParts, readRegs ++ [Reg.SCH_IMAGE_BASE, Reg.UPD_LOSS, Reg.VRT_BANK, Reg.VSE_GEN_STATE], false⟩ s (State.restoreCairn s
    step) := by
  unfold State.restoreCairn
  extract_lets +onlyGivenNames t0
  extract_lets +onlyGivenNames t1
  extract_lets +onlyGivenNames t2
  extract_lets +onlyGivenNames t3
  extract_lets +onlyGivenNames t4
  extract_lets +onlyGivenNames t5
  extract_lets +onlyGivenNames t6
  (extract_lets +onlyGivenNames t7; refine Frame.via (t := t7) ?_ fun h7 => ?_; rotate_left; clear_value t7; rotate_left)
  · unfold t7
    refine Frame.trans ?_ (State.setWord_frame (h := ?_) _ _ _ _ _)
    · exact Frame.refl _
    · decide +kernel
  · (extract_lets +onlyGivenNames t8; refine Frame.via (t := t8) ?_ fun h8 => ?_; rotate_left; clear_value t8; rotate_left)
    · unfold t8
      refine Frame.step ?_ (State.showRouting_frame _)
      refine Frame.trans ?_ (Frame.foldl fun t9 x9 => ?_)
      · exact h7
      · refine Frame.trans ?_ (State.put_frame (h := ?_) _ _ _ _ _)
        · exact Frame.refl _
        · decide +kernel
    · (extract_lets +onlyGivenNames t10; refine Frame.via (t := t10) ?_ fun h10 => ?_; rotate_left; clear_value t10; rotate_left)
      · unfold t10
        refine Frame.trans ?_ (State.put_frame (h := ?_) _ _ _ _ _)
        · refine Frame.trans ?_ (State.put_frame (h := ?_) _ _ _ _ _)
          · exact h8
          · decide +kernel
        · decide +kernel
      · (extract_lets +onlyGivenNames t11; refine Frame.via (t := t11) ?_ fun h11 => ?_; rotate_left; clear_value t11; rotate_left)
        · unfold t11
          refine Frame.ite ?_ ?_
          · exact h10
          · change Frame.Fst _ _ _
            refine Frame.Fst.step ?_ (State.writeSpan_frame _ _ _)
            exact h10
        · (extract_lets +onlyGivenNames t12; refine Frame.via (t := t12) ?_ fun h12 => ?_; rotate_left; clear_value t12; rotate_left)
          · unfold t12
            refine Frame.ite ?_ ?_
            · exact h11
            · change Frame.Fst _ _ _
              refine Frame.Fst.step ?_ (State.writeSpan_frame _ _ _)
              exact h11
          · refine Frame.trans ?_ (Frame.foldl fun t13 x13 => ?_)
            · exact h12
            · refine Frame.foldl fun t14 x14 => ?_
              refine Frame.step ?_ (State.setGen_frame _ _ _ _)
              exact Frame.refl _

theorem State.sendCairn_frame (s : State) (shares : List (Nat × Bytes)) :
    Frame ⟨[.vrt, .rem], [.VRT_EVENTS], false⟩ s (State.sendCairn s shares) := by
  unfold State.sendCairn
  refine Frame.ite ?_ ?_
  · extract_lets +onlyGivenNames t0
    refine Frame.foldl fun t1 x1 => ?_
    refine Frame.foldl fun t2 x2 => ?_
    change Frame.Fst _ _ _
    refine Frame.Fst.step ?_ (State.sendRemote_frame _ _ _ _ _ _)
    exact Frame.refl _
  · exact Frame.refl _

theorem State.writeCairn_frame (s : State) :
    Frame ⟨storeParts ++ [Part.vrt, Part.rem], storeRegs ++ [Reg.LDG_CAIRN_STATUS, Reg.VRT_EVENTS], false⟩ s (State.writeCairn s) := by
  unfold State.writeCairn
  refine Frame.ite ?_ ?_
  · extract_lets +onlyGivenNames t0
    extract_lets +onlyGivenNames t1
    extract_lets +onlyGivenNames t2
    (extract_lets +onlyGivenNames t3; refine Frame.via (t := t3) ?_ fun h3 => ?_; rotate_left; clear_value t3; rotate_left)
    · unfold t3
      refine Frame.foldl fun t4 x4 => ?_
      refine Frame.step ?_ (State.writeSectors_frame _ _ _)
      exact Frame.refl _
    · (extract_lets +onlyGivenNames t5; refine Frame.via (t := t5) ?_ fun h5 => ?_; rotate_left; clear_value t5; rotate_left)
      · unfold t5
        refine Frame.trans ?_ (State.put_frame (h := ?_) _ _ _ _ _)
        · exact h3
        · decide +kernel
      · refine Frame.step ?_ (State.sendCairn_frame _ _)
        refine Frame.trans ?_ (State.put_frame (h := ?_) _ _ _ _ _)
        · exact h5
        · decide +kernel
  · exact Frame.refl _

end Sys2Proof.Machine
end

