-- ==== Sys2Proof/Laws/FrameSync.lean ====
section
/-! SUPPORT. The footprints of the functions of Machine/Sync.lean. -/

namespace Sys2Proof.Machine

set_option Elab.async false

theorem State.recordHaltPacket_frame (s : State) :
    Frame ⟨[.sched], [], false⟩ s (State.recordHaltPacket s) := by
  unfold State.recordHaltPacket
  refine Frame.step ?_ (State.onSched_frame _ _)
  exact Frame.refl _

theorem State.acceptRelease_frame (s : State) (q : SynPacket) :
    Frame ⟨storeParts ++ [Part.sched, Part.codec, Part.fsel, Part.upd, Part.rdx, Part.syn, Part.ldg], ledgerRegs ++ [Reg.CDC_EVENTS, Reg.CDC_PENDING,
    Reg.RDX_STRAY, Reg.SCH_BREAK, Reg.SCH_BREAK_TICK, Reg.SCH_CTRL, Reg.SCH_EPOCH, Reg.SCH_EVENTS, Reg.SYN_OBJ_VALUE, Reg.SYN_STATUS, Reg.UPD_STATUS,
    Reg.VRT_BANK], false⟩ s (State.acceptRelease s q) := by
  unfold State.acceptRelease
  (extract_lets +onlyGivenNames t0; refine Frame.via (t := t0) ?_ fun h0 => ?_; rotate_left; clear_value t0; rotate_left)
  · unfold t0
    refine Frame.ite ?_ ?_
    · refine Frame.step ?_ (State.abortStep_frame _)
      refine Frame.step ?_ (State.recordBreak_frame _ _ _ _ _ _ _)
      exact Frame.refl _
    · exact Frame.refl _
  · refine Frame.step ?_ (State.onSched_frame _ _)
    refine Frame.trans ?_ (State.flag_frame (h := ?_) _ _ _ _)
    · exact h0
    · decide +kernel

theorem State.rootBroadcast_frame (s : State) (pkt : Bytes) :
    Frame ⟨[.vrt], [], false⟩ s (State.rootBroadcast s pkt) := by
  unfold State.rootBroadcast
  (extract_lets +onlyGivenNames t0; refine Frame.via (t := t0) ?_ fun h0 => ?_; rotate_left; clear_value t0; rotate_left)
  · unfold t0
    refine Frame.step ?_ (State.tc0Bcast_frame _ _ _)
    exact Frame.refl _
  · refine Frame.ite ?_ ?_
    · refine Frame.step ?_ (State.tc0To_frame _ _ _ _ _)
      exact h0
    · exact h0

theorem State.acceptAbort_frame (s : State) (pkt : Bytes) :
    Frame ⟨storeParts ++ [Part.sched, Part.codec, Part.fsel, Part.upd, Part.rdx, Part.vrt, Part.syn, Part.ldg], ledgerRegs ++ [Reg.CDC_EVENTS, Reg.CDC_PENDING,
    Reg.RDX_STRAY, Reg.SCH_BREAK, Reg.SCH_BREAK_TICK, Reg.SCH_CTRL, Reg.SCH_EPOCH, Reg.SCH_EVENTS, Reg.SYN_OBJ_VALUE, Reg.SYN_STATUS, Reg.UPD_STATUS,
    Reg.VRT_BANK], false⟩ s (State.acceptAbort s pkt) := by
  unfold State.acceptAbort
  extract_lets +onlyGivenNames t0
  extract_lets +onlyGivenNames t1
  extract_lets +onlyGivenNames t2
  refine Frame.ite ?_ ?_
  · exact Frame.refl _
  · (extract_lets +onlyGivenNames t3; refine Frame.via (t := t3) ?_ fun h3 => ?_; rotate_left; clear_value t3; rotate_left)
    · unfold t3
      refine Frame.step ?_ (State.recordBreak_frame _ _ _ _ _ _ _)
      exact Frame.refl _
    · (extract_lets +onlyGivenNames t4; refine Frame.via (t := t4) ?_ fun h4 => ?_; rotate_left; clear_value t4; rotate_left)
      · unfold t4
        refine Frame.ite ?_ ?_
        · exact Frame.refl _
        · refine Frame.ite ?_ ?_
          · refine Frame.trans ?_ (State.flag_frame (h := ?_) _ _ _ _)
            · exact Frame.refl _
            · decide +kernel
          · refine Frame.ite ?_ ?_
            · exact h3
            · refine Frame.step ?_ (State.abortStep_frame _)
              exact h3
      · (extract_lets +onlyGivenNames t5; refine Frame.via (t := t5) ?_ fun h5 => ?_; rotate_left; clear_value t5; rotate_left)
        · unfold t5
          refine Frame.ite ?_ ?_
          · refine Frame.step ?_ (State.recordHaltPacket_frame _)
            exact h4
          · exact h4
        · refine Frame.ite ?_ ?_
          · refine Frame.step ?_ (State.tc0Bcast_frame _ _ _)
            exact h5
          · refine Frame.ite ?_ ?_
            · (extract_lets +onlyGivenNames t6; refine Frame.via (t := t6) ?_ fun h6 => ?_; rotate_left; clear_value t6; rotate_left)
              · unfold t6
                refine Frame.step ?_ (State.rootBroadcast_frame _ _)
                exact h5
              · refine Frame.ite ?_ ?_
                · exact h6
                · refine Frame.step ?_ (State.onSched_frame _ _)
                  exact h6
            · exact h5

theorem State.stray_frame (s : State) (die : Nat) :
    Frame ⟨[], [.SYN_EVENTS, .SYN_STRAY], false⟩ s (State.stray s die) := by
  unfold State.stray
  extract_lets +onlyGivenNames t0
  refine Frame.trans ?_ (State.flag_frame (h := ?_) _ _ _ _)
  · refine Frame.trans ?_ (State.bump_frame (h := ?_) _ _ _ _ _)
    · exact Frame.refl _
    · decide +kernel
  · decide +kernel

theorem State.receiveAbort_frame (s : State) (pkt : Bytes) :
    Frame ⟨storeParts ++ [Part.sched, Part.codec, Part.fsel, Part.upd, Part.rdx, Part.vrt, Part.syn, Part.ldg], ledgerRegs ++ [Reg.CDC_EVENTS, Reg.CDC_PENDING,
    Reg.RDX_STRAY, Reg.SCH_BREAK, Reg.SCH_BREAK_TICK, Reg.SCH_CTRL, Reg.SCH_EPOCH, Reg.SCH_EVENTS, Reg.SYN_EVENTS, Reg.SYN_OBJ_VALUE, Reg.SYN_STATUS,
    Reg.SYN_STRAY, Reg.UPD_STATUS, Reg.VRT_BANK], false⟩ s (State.receiveAbort s pkt) := by
  unfold State.receiveAbort
  extract_lets +onlyGivenNames t0
  refine Frame.ite ?_ ?_
  · refine Frame.step ?_ (State.stray_frame _ _)
    exact Frame.refl _
  · refine Frame.step ?_ (State.acceptAbort_frame _ _)
    exact Frame.refl _

theorem State.takeSyn_frame (s : State) (u : Nat) (cls : Nat) (payload : Bytes) :
    Frame ⟨[.sched], [], false⟩ s (State.takeSyn s u cls payload).1 := by
  show Frame.Fst _ _ _
  unfold State.takeSyn
  split
  · refine Frame.Fst.mk ?_
    exact Frame.refl _
  · extract_lets +onlyGivenNames t0
    refine Frame.Fst.mk ?_
    refine Frame.step ?_ (State.setUnit_frame _ _ _)
    exact Frame.refl _

theorem State.failSyn_frame (s : State) (u : Nat) (k : Nat) (cause : Nat) (index : Nat) :
    Frame ⟨recordParts, recordRegs ++ errorRegs, false⟩ s (State.failSyn s u k cause index) := by
  unfold State.failSyn
  refine Frame.trans ?_ (State.failOp_frame (g0 := ?_) _ _ _ _ _ _)
  · exact Frame.refl _
  · intro t0
    refine Frame.trans ?_ (State.put_frame (h := ?_) _ _ _ _ _)
    · exact Frame.refl _
    · decide +kernel

theorem State.signedBy_frame (s : State) (die : Nat) (obj : Nat) (org : Nat) :
    Frame ⟨[], [.SYN_OBJ_LAST, .SYN_OBJ_LAST_TICK], false⟩ s (State.signedBy s die obj org) := by
  unfold State.signedBy
  refine Frame.trans ?_ (State.put_frame (h := ?_) _ _ _ _ _)
  · refine Frame.trans ?_ (State.put_frame (h := ?_) _ _ _ _ _)
    · refine Frame.trans ?_ (State.flag_frame (h := ?_) _ _ _ _)
      · exact Frame.refl _
      · decide +kernel
    · decide +kernel
  · decide +kernel

theorem State.wakeWaiter_frame (s : State) (w : SynWaiter) :
    Frame ⟨[.sched], [], false⟩ s (State.wakeWaiter s w) := by
  unfold State.wakeWaiter
  split
  · refine Frame.step ?_ (State.finishOp_frame _ _ _ _ _)
    exact Frame.refl _
  · exact Frame.refl _

theorem State.setWaiters_frame (s : State) (die : Nat) (obj : Nat) (ws : List SynWaiter) :
    Frame ⟨[.syn], [.SYN_OBJ_VALUE], false⟩ s (State.setWaiters s die obj ws) := by
  unfold State.setWaiters
  refine Frame.trans ?_ (State.put_frame (h := ?_) _ _ _ _ _)
  · refine Frame.step ?_ (State.onSyn_frame _ _)
    exact Frame.refl _
  · decide +kernel

theorem State.endRound_frame (s : State) (die : Nat) (obj : Nat) :
    Frame ⟨[.sched, .syn], [.SYN_LATE, .SYN_OBJ_VALUE], false⟩ s (State.endRound s die obj) := by
  unfold State.endRound
  extract_lets +onlyGivenNames t0
  extract_lets +onlyGivenNames t1
  (extract_lets +onlyGivenNames t2; refine Frame.via (t := t2) ?_ fun h2 => ?_; rotate_left; clear_value t2; rotate_left)
  · unfold t2
    refine Frame.trans ?_ (State.put_frame (h := ?_) _ _ _ _ _)
    · refine Frame.trans ?_ (State.addWrap_frame (h := ?_) _ _ _ _ _)
      · refine Frame.trans ?_ (State.put_frame (h := ?_) _ _ _ _ _)
        · exact Frame.refl _
        · decide +kernel
      · decide +kernel
    · decide +kernel
  · (extract_lets +onlyGivenNames t3; refine Frame.via (t := t3) ?_ fun h3 => ?_; rotate_left; clear_value t3; rotate_left)
    · unfold t3
      refine Frame.step ?_ (State.onSyn_frame _ _)
      exact h2
    · (extract_lets +onlyGivenNames t4; refine Frame.via (t := t4) ?_ fun h4 => ?_; rotate_left; clear_value t4; rotate_left)
      · unfold t4
        refine Frame.ite ?_ ?_
        · exact h3
        · refine Frame.trans ?_ (State.bump_frame (h := ?_) _ _ _ _ _)
          · exact h3
          · decide +kernel
      · refine Frame.trans ?_ (Frame.foldl fun t5 x5 => ?_)
        · refine Frame.step ?_ (State.setWaiters_frame _ _ _ _)
          exact h4
        · refine Frame.step ?_ (State.wakeWaiter_frame _ _)
          exact Frame.refl _

theorem State.releaseAll_frame (s : State) (rdie : Nat) (ridx : Nat) (gen : Nat) :
    Frame ⟨[.sched, .syn], [.SYN_LATE, .SYN_OBJ_VALUE], false⟩ s (State.releaseAll s rdie ridx gen) := by
  unfold State.releaseAll
  refine Frame.foldl fun t0 x0 => ?_
  refine Frame.step ?_ (State.endRound_frame _ _ _)
  exact Frame.refl _

theorem State.arriveAt_frame (n1 : Nat) (s : State) (die : Nat) (obj : Nat) (org : Nat) :
    Frame ⟨[.sched, .vrt, .syn], [.SYN_EVENTS, .SYN_LATE, .SYN_OBJ_LAST, .SYN_OBJ_LAST_TICK, .SYN_OBJ_VALUE, .SYN_STRAY],
    false⟩ s (State.arriveAt n1 s die obj org) := by
  induction n1 generalizing s die obj org with
  | zero =>
    unfold State.arriveAt
    exact Frame.refl _
  | succ n1 ih =>
    unfold State.arriveAt
    (extract_lets +onlyGivenNames t0; refine Frame.via (t := t0) ?_ fun h0 => ?_; rotate_left; clear_value t0; rotate_left)
    · unfold t0
      refine Frame.step ?_ (State.signedBy_frame _ _ _ _)
      refine Frame.trans ?_ (State.addWrap_frame (h := ?_) _ _ _ _ _)
      · exact Frame.refl _
      · decide +kernel
    · extract_lets +onlyGivenNames t1
      refine Frame.ite ?_ ?_
      · exact h0
      · refine Frame.ite ?_ ?_
        · (extract_lets +onlyGivenNames t2; refine Frame.via (t := t2) ?_ fun h2 => ?_; rotate_left; clear_value t2; rotate_left)
          · unfold t2
            refine Frame.trans ?_ (State.flag_frame (h := ?_) _ _ _ _)
            · exact h0
            · decide +kernel
          · extract_lets +onlyGivenNames t3
            extract_lets +onlyGivenNames t4
            extract_lets +onlyGivenNames t5
            refine Frame.ite ?_ ?_
            · refine Frame.ite ?_ ?_
              · refine Frame.trans ?_ (ih _ _ _ _)
                exact h2
              · refine Frame.step ?_ (State.stray_frame _ _)
                exact h2
            · refine Frame.step ?_ (State.tc0To_frame _ _ _ _ _)
              exact h2
        · extract_lets +onlyGivenNames t6
          extract_lets +onlyGivenNames t7
          (extract_lets +onlyGivenNames t8; refine Frame.via (t := t8) ?_ fun h8 => ?_; rotate_left; clear_value t8; rotate_left)
          · unfold t8
            refine Frame.step ?_ (State.releaseAll_frame _ _ _ _)
            refine Frame.step ?_ (State.endRound_frame _ _ _)
            exact h0
          · refine Frame.ite ?_ ?_
            · refine Frame.step ?_ (State.tc0Bcast_frame _ _ _)
              exact h8
            · exact h8

theorem State.arrive_frame (s : State) (die : Nat) (obj : Nat) (org : Nat) :
    Frame ⟨[.sched, .vrt, .syn], [.SYN_EVENTS, .SYN_LATE, .SYN_OBJ_LAST, .SYN_OBJ_LAST_TICK, .SYN_OBJ_VALUE, .SYN_STRAY],
    false⟩ s (State.arrive s die obj org) := by
  unfold State.arrive
  refine Frame.step ?_ (State.arriveAt_frame _ _ _ _ _)
  exact Frame.refl _

theorem State.register_frame (s : State) (u : Nat) (k : Nat) (die : Nat) (obj : Nat) (kind : Nat) (target : Nat) (timeout :
    Nat) (consume : Bool) :
    Frame ⟨[.sched, .syn], [.SYN_OBJ_VALUE], false⟩ s (State.register s u k die obj kind target timeout consume) := by
  unfold State.register
  extract_lets +onlyGivenNames t0
  refine Frame.step ?_ (State.waitOp_frame _ _ _)
  refine Frame.step ?_ (State.setWaiters_frame _ _ _ _)
  exact Frame.refl _

theorem State.barOp_frame (s : State) (u : Nat) (p : BitVec 192) :
    Frame ⟨recordParts ++ [Part.syn], recordRegs ++ errorRegs ++ [Reg.SYN_LATE, Reg.SYN_OBJ_LAST, Reg.SYN_OBJ_LAST_TICK, Reg.SYN_OBJ_VALUE,
    Reg.SYN_STRAY], false⟩ s (State.barOp s u p) := by
  unfold State.barOp
  refine Frame.ite ?_ ?_
  · exact Frame.refl _
  · split
    extract_lets +onlyGivenNames t0
    extract_lets +onlyGivenNames t1
    refine Frame.ite ?_ ?_
    · refine Frame.step ?_ (State.failSyn_frame _ _ _ _ _)
      refine Frame.fst (by assumption) ?_
      change Frame.Fst _ _ _
      refine Frame.Fst.step ?_ (State.takeSyn_frame _ _ _ _)
      exact Frame.refl _
    · refine Frame.ite ?_ ?_
      · refine Frame.step ?_ (State.failSyn_frame _ _ _ _ _)
        refine Frame.fst (by assumption) ?_
        change Frame.Fst _ _ _
        refine Frame.Fst.step ?_ (State.takeSyn_frame _ _ _ _)
        exact Frame.refl _
      · refine Frame.ite ?_ ?_
        · refine Frame.step ?_ (State.failSyn_frame _ _ _ _ _)
          refine Frame.fst (by assumption) ?_
          change Frame.Fst _ _ _
          refine Frame.Fst.step ?_ (State.takeSyn_frame _ _ _ _)
          exact Frame.refl _
        · refine Frame.step ?_ (State.arrive_frame _ _ _ _)
          refine Frame.step ?_ (State.register_frame _ _ _ _ _ _ _ _ _)
          refine Frame.fst (by assumption) ?_
          change Frame.Fst _ _ _
          refine Frame.Fst.step ?_ (State.takeSyn_frame _ _ _ _)
          exact Frame.refl _

theorem State.flagNoRoute_frame (s : State) (die : Nat) (erg : Nat) :
    Frame ⟨[], [.VRT_EVENTS], false⟩ s (State.flagNoRoute s die erg) := by
  unfold State.flagNoRoute
  refine Frame.ite ?_ ?_
  · exact Frame.refl _
  · refine Frame.trans ?_ (State.flag_frame (h := ?_) _ _ _ _)
    · exact Frame.refl _
    · decide +kernel

theorem State.testWaiters_frame (s : State) (die : Nat) (obj : Nat) :
    Frame ⟨[.sched, .syn], [.SYN_OBJ_VALUE], false⟩ s (State.testWaiters s die obj) := by
  unfold State.testWaiters
  extract_lets +onlyGivenNames t0
  split
  refine Frame.ite ?_ ?_
  · exact Frame.refl _
  · refine Frame.trans ?_ (Frame.foldl fun t1 x1 => ?_)
    · refine Frame.step ?_ (State.setWaiters_frame _ _ _ _)
      refine Frame.trans ?_ (State.put_frame (h := ?_) _ _ _ _ _)
      · exact Frame.refl _
      · decide +kernel
    · refine Frame.step ?_ (State.wakeWaiter_frame _ _)
      exact Frame.refl _

theorem State.applySignal_frame (s : State) (die : Nat) (obj : Nat) (org : Nat) (set : Bool) (value : Nat) :
    Frame ⟨[.sched, .syn], [.SYN_OBJ_LAST, .SYN_OBJ_LAST_TICK, .SYN_OBJ_VALUE], false⟩ s (State.applySignal s die obj org
    set value) := by
  unfold State.applySignal
  extract_lets +onlyGivenNames t0
  refine Frame.step ?_ (State.testWaiters_frame _ _ _)
  refine Frame.step ?_ (State.signedBy_frame _ _ _ _)
  refine Frame.trans ?_ (State.put_frame (h := ?_) _ _ _ _ _)
  · exact Frame.refl _
  · decide +kernel

theorem State.signalOp_frame (s : State) (u : Nat) (p : BitVec 192) :
    Frame ⟨recordParts ++ [Part.syn], recordRegs ++ errorRegs ++ [Reg.SYN_OBJ_LAST, Reg.SYN_OBJ_LAST_TICK, Reg.SYN_OBJ_VALUE,
    Reg.VRT_EVENTS], false⟩ s (State.signalOp s u p) := by
  unfold State.signalOp
  refine Frame.ite ?_ ?_
  · exact Frame.refl _
  · split
    extract_lets +onlyGivenNames t0
    extract_lets +onlyGivenNames t1
    extract_lets +onlyGivenNames t2
    extract_lets +onlyGivenNames t3
    extract_lets +onlyGivenNames t4
    extract_lets +onlyGivenNames t5
    refine Frame.ite ?_ ?_
    · refine Frame.step ?_ (State.failSyn_frame _ _ _ _ _)
      refine Frame.fst (by assumption) ?_
      change Frame.Fst _ _ _
      refine Frame.Fst.step ?_ (State.takeSyn_frame _ _ _ _)
      exact Frame.refl _
    · refine Frame.ite ?_ ?_
      · refine Frame.ite ?_ ?_
        · refine Frame.step ?_ (State.failSyn_frame _ _ _ _ _)
          refine Frame.fst (by assumption) ?_
          change Frame.Fst _ _ _
          refine Frame.Fst.step ?_ (State.takeSyn_frame _ _ _ _)
          exact Frame.refl _
        · refine Frame.ite ?_ ?_
          · refine Frame.step ?_ (State.failSyn_frame _ _ _ _ _)
            refine Frame.step ?_ (State.flagNoRoute_frame _ _ _)
            refine Frame.fst (by assumption) ?_
            change Frame.Fst _ _ _
            refine Frame.Fst.step ?_ (State.takeSyn_frame _ _ _ _)
            exact Frame.refl _
          · refine Frame.step ?_ (State.onOp_frame _ _ _ _)
            refine Frame.step ?_ (State.tc0To_frame _ _ _ _ _)
            refine Frame.fst (by assumption) ?_
            change Frame.Fst _ _ _
            refine Frame.Fst.step ?_ (State.takeSyn_frame _ _ _ _)
            exact Frame.refl _
      · refine Frame.ite ?_ ?_
        · refine Frame.step ?_ (State.failSyn_frame _ _ _ _ _)
          refine Frame.fst (by assumption) ?_
          change Frame.Fst _ _ _
          refine Frame.Fst.step ?_ (State.takeSyn_frame _ _ _ _)
          exact Frame.refl _
        · refine Frame.step ?_ (State.finishOp_frame _ _ _ _ _)
          refine Frame.step ?_ (State.applySignal_frame _ _ _ _ _ _)
          refine Frame.fst (by assumption) ?_
          change Frame.Fst _ _ _
          refine Frame.Fst.step ?_ (State.takeSyn_frame _ _ _ _)
          exact Frame.refl _

theorem State.waitOpOf_frame (s : State) (u : Nat) (p : BitVec 192) :
    Frame ⟨recordParts ++ [Part.syn], recordRegs ++ errorRegs ++ [Reg.SYN_OBJ_VALUE], false⟩ s (State.waitOpOf s u p) := by
  unfold State.waitOpOf
  refine Frame.ite ?_ ?_
  · exact Frame.refl _
  · split
    extract_lets +onlyGivenNames t0
    extract_lets +onlyGivenNames t1
    refine Frame.ite ?_ ?_
    · refine Frame.step ?_ (State.failSyn_frame _ _ _ _ _)
      refine Frame.fst (by assumption) ?_
      change Frame.Fst _ _ _
      refine Frame.Fst.step ?_ (State.takeSyn_frame _ _ _ _)
      exact Frame.refl _
    · refine Frame.ite ?_ ?_
      · refine Frame.step ?_ (State.failSyn_frame _ _ _ _ _)
        refine Frame.fst (by assumption) ?_
        change Frame.Fst _ _ _
        refine Frame.Fst.step ?_ (State.takeSyn_frame _ _ _ _)
        exact Frame.refl _
      · refine Frame.ite ?_ ?_
        · refine Frame.step ?_ (State.failSyn_frame _ _ _ _ _)
          refine Frame.fst (by assumption) ?_
          change Frame.Fst _ _ _
          refine Frame.Fst.step ?_ (State.takeSyn_frame _ _ _ _)
          exact Frame.refl _
        · extract_lets +onlyGivenNames t2
          refine Frame.step ?_ (State.testWaiters_frame _ _ _)
          refine Frame.step ?_ (State.register_frame _ _ _ _ _ _ _ _ _)
          refine Frame.fst (by assumption) ?_
          change Frame.Fst _ _ _
          refine Frame.Fst.step ?_ (State.takeSyn_frame _ _ _ _)
          exact Frame.refl _

theorem State.receiveRelease_frame (s : State) (pkt : Bytes) :
    Frame ⟨storeParts ++ [Part.sched, Part.codec, Part.fsel, Part.upd, Part.rdx, Part.vrt, Part.syn, Part.ldg], ledgerRegs ++ [Reg.CDC_EVENTS, Reg.CDC_PENDING,
    Reg.RDX_STRAY, Reg.SCH_BREAK, Reg.SCH_BREAK_TICK, Reg.SCH_CTRL, Reg.SCH_EPOCH, Reg.SCH_EVENTS, Reg.SYN_EVENTS, Reg.SYN_OBJ_VALUE, Reg.SYN_STATUS,
    Reg.SYN_STRAY, Reg.UPD_STATUS, Reg.VRT_BANK], false⟩ s (State.receiveRelease s pkt) := by
  unfold State.receiveRelease
  extract_lets +onlyGivenNames t0
  refine Frame.ite ?_ ?_
  · refine Frame.step ?_ (State.stray_frame _ _)
    exact Frame.refl _
  · (extract_lets +onlyGivenNames t1; refine Frame.via (t := t1) ?_ fun h1 => ?_; rotate_left; clear_value t1; rotate_left)
    · unfold t1
      refine Frame.step ?_ (State.acceptRelease_frame _ _)
      exact Frame.refl _
    · refine Frame.ite ?_ ?_
      · refine Frame.step ?_ (State.tc0Bcast_frame _ _ _)
        exact h1
      · exact h1

theorem State.coreSignal_frame (s : State) (die : Nat) (obj : Nat) (core : Nat) (v : Nat) :
    Frame ⟨[.sched, .syn], [.SYN_OBJ_LAST, .SYN_OBJ_LAST_TICK, .SYN_OBJ_VALUE], false⟩ s (State.coreSignal s die obj core v)
    := by
  unfold State.coreSignal
  refine Frame.ite ?_ ?_
  · exact Frame.refl _
  · refine Frame.step ?_ (State.applySignal_frame _ _ _ _ _ _)
    exact Frame.refl _

theorem State.applyPacket_frame (s : State) (q : SynPacket) :
    Frame ⟨[.sched, .vrt, .syn], [.SYN_EVENTS, .SYN_LATE, .SYN_OBJ_LAST, .SYN_OBJ_LAST_TICK, .SYN_OBJ_VALUE, .SYN_STRAY],
    false⟩ s (State.applyPacket s q) := by
  unfold State.applyPacket
  extract_lets +onlyGivenNames t0
  split
  · refine Frame.ite ?_ ?_
    · refine Frame.step ?_ (State.applySignal_frame _ _ _ _ _ _)
      exact Frame.refl _
    · refine Frame.step ?_ (State.stray_frame _ _)
      exact Frame.refl _
  · refine Frame.ite ?_ ?_
    · refine Frame.step ?_ (State.arrive_frame _ _ _ _)
      exact Frame.refl _
    · refine Frame.step ?_ (State.stray_frame _ _)
      exact Frame.refl _
  · refine Frame.ite ?_ ?_
    · refine Frame.step ?_ (State.stray_frame _ _)
      exact Frame.refl _
    · refine Frame.step ?_ (State.releaseAll_frame _ _ _ _)
      exact Frame.refl _

theorem State.receiveSyn_frame (s : State) (type : Nat) (pkt : Bytes) :
    Frame ⟨[.sched, .vrt, .syn], [.SYN_EVENTS, .SYN_LATE, .SYN_OBJ_LAST, .SYN_OBJ_LAST_TICK, .SYN_OBJ_VALUE, .SYN_STATUS,
    .SYN_STRAY], false⟩ s (State.receiveSyn s type pkt) := by
  unfold State.receiveSyn
  extract_lets +onlyGivenNames t0
  refine Frame.ite ?_ ?_
  · refine Frame.step ?_ (State.stray_frame _ _)
    exact Frame.refl _
  · refine Frame.ite ?_ ?_
    · refine Frame.step ?_ (State.stray_frame _ _)
      exact Frame.refl _
    · refine Frame.ite ?_ ?_
      · refine Frame.step ?_ (State.applyPacket_frame _ _)
        exact Frame.refl _
      · extract_lets +onlyGivenNames t1
        refine Frame.ite ?_ ?_
        · refine Frame.step ?_ (State.applyPacket_frame _ _)
          exact Frame.refl _
        · refine Frame.ite ?_ ?_
          · refine Frame.ite ?_ ?_
            · (extract_lets +onlyGivenNames t2; refine Frame.via (t := t2) ?_ fun h2 => ?_; rotate_left; clear_value t2; rotate_left)
              · unfold t2
                refine Frame.step ?_ (State.onSyn_frame _ _)
                exact Frame.refl _
              · refine Frame.trans ?_ (State.put_frame (h := ?_) _ _ _ _ _)
                · exact h2
                · decide +kernel
            · refine Frame.step ?_ (State.stray_frame _ _)
              refine Frame.trans ?_ (State.flag_frame (h := ?_) _ _ _ _)
              · exact Frame.refl _
              · decide +kernel
          · refine Frame.step ?_ (State.stray_frame _ _)
            exact Frame.refl _

theorem State.resetObjects_frame (s : State) :
    Frame ⟨[.syn], [.SYN_OBJ_VALUE], false⟩ s (State.resetObjects s) := by
  unfold State.resetObjects
  extract_lets +onlyGivenNames t0
  refine Frame.foldl fun t1 x1 => ?_
  refine Frame.ite ?_ ?_
  · (extract_lets +onlyGivenNames t2; refine Frame.via (t := t2) ?_ fun h2 => ?_; rotate_left; clear_value t2; rotate_left)
    · unfold t2
      refine Frame.trans ?_ (State.put_frame (h := ?_) _ _ _ _ _)
      · refine Frame.trans ?_ (State.put_frame (h := ?_) _ _ _ _ _)
        · exact Frame.refl _
        · decide +kernel
      · decide +kernel
    · (extract_lets +onlyGivenNames t3; refine Frame.via (t := t3) ?_ fun h3 => ?_; rotate_left; clear_value t3; rotate_left)
      · unfold t3
        refine Frame.step ?_ (State.onSyn_frame _ _)
        exact h2
      · refine Frame.step ?_ (State.setWaiters_frame _ _ _ _)
        refine Frame.trans ?_ (State.put_frame (h := ?_) _ _ _ _ _)
        · exact h3
        · decide +kernel
  · exact Frame.refl _

theorem State.waitTimeout_frame (s : State) (die : Nat) (obj : Nat) (w : Nat) :
    Frame ⟨recordParts ++ [Part.syn], recordRegs ++ errorRegs ++ [Reg.SYN_OBJ_VALUE], false⟩ s (State.waitTimeout s die obj w) := by
  unfold State.waitTimeout
  extract_lets +onlyGivenNames t0
  split
  · exact Frame.refl _
  · refine Frame.ite ?_ ?_
    · (extract_lets +onlyGivenNames t1; refine Frame.via (t := t1) ?_ fun h1 => ?_; rotate_left; clear_value t1; rotate_left)
      · unfold t1
        refine Frame.step ?_ (State.setWaiters_frame _ _ _ _)
        exact Frame.refl _
      · (extract_lets +onlyGivenNames t2; refine Frame.via (t := t2) ?_ fun h2 => ?_; rotate_left; clear_value t2; rotate_left)
        · unfold t2
          refine Frame.ite ?_ ?_
          · refine Frame.step ?_ (State.onSyn_frame _ _)
            exact h1
          · exact h1
        · split
          · refine Frame.step ?_ (State.failSyn_frame _ _ _ _ _)
            exact h2
          · exact h2
    · exact Frame.refl _

theorem State.signalLeft_frame (s : State) (body : Bytes) :
    Frame ⟨[.sched, .qcx], [], false⟩ s (State.signalLeft s body) := by
  unfold State.signalLeft
  extract_lets +onlyGivenNames t0
  extract_lets +onlyGivenNames t1
  extract_lets +onlyGivenNames t2
  refine Frame.ite ?_ ?_
  · refine Frame.step ?_ (State.onQcx_frame _ _)
    exact Frame.refl _
  · refine Frame.ite ?_ ?_
    · refine Frame.step ?_ (State.onUnit_frame _ _ _)
      exact Frame.refl _
    · exact Frame.refl _

theorem State.applyHeld_frame (s : State) :
    Frame ⟨[.sched, .vrt, .syn], [.SYN_EVENTS, .SYN_LATE, .SYN_OBJ_LAST, .SYN_OBJ_LAST_TICK, .SYN_OBJ_VALUE, .SYN_STATUS,
    .SYN_STRAY], false⟩ s (State.applyHeld s) := by
  unfold State.applyHeld
  extract_lets +onlyGivenNames t0
  refine Frame.trans ?_ (Frame.foldl fun t1 x1 => ?_)
  · refine Frame.step ?_ (State.emptyHolds_frame _)
    exact Frame.refl _
  · extract_lets +onlyGivenNames t2
    refine Frame.ite ?_ ?_
    · refine Frame.step ?_ (State.applyPacket_frame _ _)
      exact Frame.refl _
    · refine Frame.step ?_ (State.stray_frame _ _)
      exact Frame.refl _

end Sys2Proof.Machine
end

