-- ==== Sys2Proof/Laws/FrameUpdate.lean ====
section
/-! SUPPORT. The footprints of the functions of Machine/Update.lean. -/

namespace Sys2Proof.Machine

set_option Elab.async false

theorem State.engineWrite_frame (s : State) (a : Nat) (data : Bytes) :
    Frame ⟨recordParts, readRegs, false⟩ s (State.engineWrite s a data).1 := by
  show Frame.Fst _ _ _
  unfold State.engineWrite
  refine Frame.Fst.ite ?_ ?_
  · refine Frame.Fst.mk ?_
    exact Frame.refl _
  · refine Frame.Fst.ite ?_ ?_
    · refine Frame.Fst.step ?_ (State.writeSpan_frame _ _ _)
      exact Frame.refl _
    · refine Frame.Fst.mk ?_
      exact Frame.refl _

theorem State.writePeer_frame (s : State) (d : Shard) (j : Nat) (h : Nat) (digest : Nat) (step : Nat) :
    Frame ⟨recordParts, readRegs, false⟩ s (State.writePeer s d j h digest step) := by
  unfold State.writePeer
  extract_lets +onlyGivenNames t0
  extract_lets +onlyGivenNames t1
  extract_lets +onlyGivenNames t2
  extract_lets +onlyGivenNames t3
  change Frame.Fst _ _ _
  refine Frame.Fst.step ?_ (State.engineWrite_frame _ _ _)
  exact Frame.refl _

theorem State.endWait_frame (s : State) :
    Frame ⟨[.upd], [.UPD_STATUS], false⟩ s (State.endWait s) := by
  unfold State.endWait
  refine Frame.trans ?_ (State.put_frame (h := ?_) _ _ _ _ _)
  · refine Frame.step ?_ (State.onUpd_frame _ _)
    exact Frame.refl _
  · decide +kernel

theorem State.diverge_frame (s : State) (k : Nat) (key : Nat) (own : Nat) (peer : Nat) (p : Peer) :
    Frame ⟨abortParts, abortRegs ++ errorRegs ++ [Reg.FLT_RECOVERY, Reg.UPD_DIVERGE, Reg.UPD_DIVERGE_OWN, Reg.UPD_DIVERGE_PEER,
    Reg.UPD_DIVERGE_STEP], false⟩ s (State.diverge s k key own peer p) := by
  unfold State.diverge
  (extract_lets +onlyGivenNames t0; refine Frame.via (t := t0) ?_ fun h0 => ?_; rotate_left; clear_value t0; rotate_left)
  · unfold t0
    refine Frame.trans ?_ (State.put_frame (h := ?_) _ _ _ _ _)
    · refine Frame.trans ?_ (State.put_frame (h := ?_) _ _ _ _ _)
      · refine Frame.trans ?_ (State.flag_frame (h := ?_) _ _ _ _)
        · exact Frame.refl _
        · decide +kernel
      · decide +kernel
    · decide +kernel
  · (extract_lets +onlyGivenNames t1; refine Frame.via (t := t1) ?_ fun h1 => ?_; rotate_left; clear_value t1; rotate_left)
    · unfold t1
      refine Frame.ite ?_ ?_
      · exact Frame.refl _
      · refine Frame.trans ?_ (State.put_frame (h := ?_) _ _ _ _ _)
        · refine Frame.trans ?_ (State.put_frame (h := ?_) _ _ _ _ _)
          · refine Frame.trans ?_ (State.put_frame (h := ?_) _ _ _ _ _)
            · exact h0
            · decide +kernel
          · decide +kernel
        · decide +kernel
    · (extract_lets +onlyGivenNames t2; refine Frame.via (t := t2) ?_ fun h2 => ?_; rotate_left; clear_value t2; rotate_left)
      · unfold t2
        refine Frame.step ?_ (State.endWait_frame _)
        refine Frame.trans ?_ (State.flag_frame (h := ?_) _ _ _ _)
        · exact h1
        · decide +kernel
      · extract_lets +onlyGivenNames t3
        (extract_lets +onlyGivenNames t4; refine Frame.via (t := t4) ?_ fun h4 => ?_; rotate_left; clear_value t4; rotate_left)
        · unfold t4
          refine Frame.trans ?_ (State.failOp_frame (g0 := ?_) _ _ _ _ _ _)
          · exact h2
          · intro t5
            dsimp only [id]
            exact Frame.refl _
        · (extract_lets +onlyGivenNames t6; refine Frame.via (t := t6) ?_ fun h6 => ?_; rotate_left; clear_value t6; rotate_left)
          · unfold t6
            refine Frame.step ?_ (State.onOp_frame _ _ _ _)
            exact h4
          · refine Frame.step ?_ (State.raiseBreak_frame _ _ _ _ _)
            refine Frame.step ?_ (State.recordHalt_frame _ _ _)
            exact h6

theorem State.engineRead_frame (s : State) (a : Nat) (n : Nat) :
    Frame ⟨recordParts, readRegs, false⟩ s (State.engineRead s a n).1 := by
  show Frame.Fst _ _ _
  unfold State.engineRead
  refine Frame.Fst.ite ?_ ?_
  · refine Frame.Fst.mk ?_
    exact Frame.refl _
  · refine Frame.Fst.ite ?_ ?_
    · split
      refine Frame.Fst.mk ?_
      refine Frame.fst (by assumption) ?_
      change Frame.Fst _ _ _
      refine Frame.Fst.step ?_ (State.readSpan_frame _ _ _)
      exact Frame.refl _
    · refine Frame.Fst.mk ?_
      exact Frame.refl _

theorem State.skipDraws_frame (s : State) (die : Nat) (p : UpdProgram) :
    Frame ⟨[], [.VSE_GEN_STATE], false⟩ s (State.skipDraws s die p) := by
  unfold State.skipDraws
  refine Frame.ite ?_ ?_
  · exact Frame.refl _
  · extract_lets +onlyGivenNames t0
    refine Frame.foldl fun t1 x1 => ?_
    refine Frame.foldl fun t2 x2 => ?_
    change Frame.Fst _ _ _
    refine Frame.Fst.step ?_ (State.draw_frame _ _ _)
    exact Frame.refl _

theorem State.resetVerdict_frame (s : State) :
    Frame ⟨[], [.UPD_STATUS], false⟩ s (State.resetVerdict s) := by
  unfold State.resetVerdict
  refine Frame.trans ?_ (State.put_frame (h := ?_) _ _ _ _ _)
  · exact Frame.refl _
  · decide +kernel

theorem UpRun.read_frame (r : UpRun) (a : Nat) (n : Nat) :
    Frame ⟨recordParts, readRegs, false⟩ r.state (UpRun.read r a n).1.state := by
  change Frame.At (fun p : UpRun × Bytes => p.1.state) _ _ _
  unfold UpRun.read
  refine Frame.At.ite ?_ ?_
  · (change Frame.At UpRun.state _ _ _; try dsimp only)
    exact Frame.refl _
  · (generalize h0 : State.engineRead _ _ _ = q0; obtain ⟨r0, b0⟩ := q0; split)
    · (change Frame.At UpRun.state _ _ _; try dsimp only)
      (change Frame _ _ _; dsimp only)
      refine Frame.fst (by assumption) ?_
      change Frame.Fst _ _ _
      refine Frame.Fst.mk ?_
      refine Frame.fst (by assumption) ?_
      change Frame.Fst _ _ _
      refine Frame.Fst.step ?_ (State.engineRead_frame _ _ _)
      exact Frame.refl _
    · (change Frame.At UpRun.state _ _ _; try dsimp only)
      (change Frame _ _ _; dsimp only)
      refine Frame.fst (by assumption) ?_
      change Frame.Fst _ _ _
      refine Frame.Fst.mk ?_
      refine Frame.fst (by assumption) ?_
      change Frame.Fst _ _ _
      refine Frame.Fst.step ?_ (State.engineRead_frame _ _ _)
      exact Frame.refl _

theorem UpRun.write_frame (r : UpRun) (a : Nat) (data : Bytes) :
    Frame ⟨recordParts, readRegs, false⟩ r.state (UpRun.write r a data).state := by
  change Frame.At UpRun.state _ _ _
  unfold UpRun.write
  refine Frame.At.ite ?_ ?_
  · exact Frame.refl _
  · (generalize h0 : State.engineWrite _ _ _ = q0; obtain ⟨r0, b0⟩ := q0; split)
    · (change Frame _ _ _; dsimp only)
      refine Frame.fst (by assumption) ?_
      change Frame.Fst _ _ _
      refine Frame.Fst.mk ?_
      refine Frame.fst (by assumption) ?_
      change Frame.Fst _ _ _
      refine Frame.Fst.step ?_ (State.engineWrite_frame _ _ _)
      exact Frame.refl _
    · (change Frame _ _ _; dsimp only)
      refine Frame.fst (by assumption) ?_
      change Frame.Fst _ _ _
      refine Frame.Fst.mk ?_
      refine Frame.fst (by assumption) ?_
      change Frame.Fst _ _ _
      refine Frame.Fst.step ?_ (State.engineWrite_frame _ _ _)
      exact Frame.refl _

theorem UpRun.amax_frame (r : UpRun) (d : Shard) (j : Nat) (w : List Nat) :
    Frame ⟨recordParts, readRegs, false⟩ r.state (UpRun.amax r d j w).state := by
  change Frame.At UpRun.state _ _ _
  unfold UpRun.amax
  extract_lets +onlyGivenNames t0
  extract_lets +onlyGivenNames t1
  extract_lets +onlyGivenNames t2
  extract_lets +onlyGivenNames t3
  extract_lets +onlyGivenNames t4
  extract_lets +onlyGivenNames t5
  extract_lets +onlyGivenNames t6
  (unfold t6; dsimp only)
  refine Frame.At.step ?_ (UpRun.write_frame _ _ _)
  change Frame.At UpRun.state _ _ _
  change Frame.At (fun q : UpRun × _ => q.1.state) _ _ _
  refine Frame.At.ite ?_ ?_
  · (change Frame.At UpRun.state _ _ _; try dsimp only)
    refine Frame.At.step ?_ (UpRun.write_frame _ _ _)
    change Frame.At UpRun.state _ _ _
    change Frame.At (fun q : UpRun × _ => q.1.state) _ _ _
    refine Frame.At.ite ?_ ?_
    · (change Frame.At UpRun.state _ _ _; try dsimp only)
      exact Frame.refl _
    · refine Frame.At.step ?_ (UpRun.read_frame _ _ _)
      exact Frame.refl _
  · refine Frame.At.step ?_ (UpRun.read_frame _ _ _)
    change Frame.At UpRun.state _ _ _
    refine Frame.At.step ?_ (UpRun.write_frame _ _ _)
    change Frame.At UpRun.state _ _ _
    change Frame.At (fun q : UpRun × _ => q.1.state) _ _ _
    refine Frame.At.ite ?_ ?_
    · (change Frame.At UpRun.state _ _ _; try dsimp only)
      exact Frame.refl _
    · refine Frame.At.step ?_ (UpRun.read_frame _ _ _)
      exact Frame.refl _

theorem UpRun.phaseB_frame (r : UpRun) (d : Shard) (p : UpdProgram) (u : Nat) (j : Nat) :
    Frame ⟨recordParts, readRegs, false⟩ r.state (UpRun.phaseB r d p u j).1.state := by
  change Frame.At (fun p : UpRun × Nat => p.1.state) _ _ _
  unfold UpRun.phaseB
  (generalize h0 : UpRun.read _ _ _ = q0; obtain ⟨r0, b0⟩ := q0; split)
  (generalize h1 : UpRun.read _ _ _ = q1; obtain ⟨r1, b1⟩ := q1; split)
  refine Frame.At.ite ?_ ?_
  · (change Frame.At UpRun.state _ _ _; try dsimp only)
    refine Frame.atFst (by assumption) ?_
    (change Frame.At UpRun.state _ _ _; try dsimp only)
    refine Frame.atFst (by assumption) ?_
    refine Frame.At.step ?_ (UpRun.read_frame _ _ _)
    change Frame.At UpRun.state _ _ _
    refine Frame.atFst (by assumption) ?_
    (change Frame.At UpRun.state _ _ _; try dsimp only)
    refine Frame.atFst (by assumption) ?_
    refine Frame.At.step ?_ (UpRun.read_frame _ _ _)
    exact Frame.refl _
  · extract_lets +onlyGivenNames t2
    extract_lets +onlyGivenNames t3
    (extract_lets +onlyGivenNames t4; refine Frame.At.viaAt UpRun.state (b := t4) ?_ fun h4 => ?_; rotate_left; clear_value t4; rotate_left)
    · unfold t4
      refine Frame.At.step ?_ (UpRun.amax_frame _ _ _ _)
      change Frame.At UpRun.state _ _ _
      refine Frame.At.step ?_ (UpRun.write_frame _ _ _)
      change Frame.At UpRun.state _ _ _
      refine Frame.atFst (by assumption) ?_
      (change Frame.At UpRun.state _ _ _; try dsimp only)
      refine Frame.atFst (by assumption) ?_
      refine Frame.At.step ?_ (UpRun.read_frame _ _ _)
      change Frame.At UpRun.state _ _ _
      refine Frame.atFst (by assumption) ?_
      (change Frame.At UpRun.state _ _ _; try dsimp only)
      refine Frame.atFst (by assumption) ?_
      refine Frame.At.step ?_ (UpRun.read_frame _ _ _)
      exact Frame.refl _
    · (change Frame.At UpRun.state _ _ _; try dsimp only)
      refine Frame.At.step ?_ (UpRun.write_frame _ _ _)
      exact h4

theorem State.storeMoment_frame (s : State) (die : Nat) (e : Nat) (p : UpdProgram) (m : Nat × Fp) :
    Frame ⟨[], [.VSE_GEN_STATE], false⟩ s (State.storeMoment s die e p m).1 := by
  show Frame.Fst _ _ _
  unfold State.storeMoment
  refine Frame.Fst.ite ?_ ?_
  · refine Frame.Fst.ite ?_ ?_
    · split
      refine Frame.Fst.mk ?_
      refine Frame.fst (by assumption) ?_
      change Frame.Fst _ _ _
      refine Frame.Fst.step ?_ (State.draw_frame _ _ _)
      exact Frame.refl _
    · refine Frame.Fst.mk ?_
      exact Frame.refl _
  · refine Frame.Fst.mk ?_
    exact Frame.refl _

theorem State.elementMoments_frame (s : State) (die : Nat) (e : Nat) (p : UpdProgram) (l : LaneIn) :
    Frame ⟨[], [.VSE_GEN_STATE], false⟩ s (State.elementMoments s die e p l).1 := by
  show Frame.Fst _ _ _
  unfold State.elementMoments
  refine Frame.Fst.foldl ?_ fun t0 x0 y0 => ?_
  · refine Frame.Fst.mk ?_
    exact Frame.refl _
  · (generalize h1 : State.storeMoment _ _ _ _ _ = q1; obtain ⟨r1, b1⟩ := q1; split)
    refine Frame.Fst.mk ?_
    refine Frame.fst (by assumption) ?_
    change Frame.Fst _ _ _
    refine Frame.Fst.mk ?_
    refine Frame.fst (by assumption) ?_
    change Frame.Fst _ _ _
    refine Frame.Fst.step ?_ (State.storeMoment_frame _ _ _ _ _)
    change Frame.Fst _ _ _
    refine Frame.Fst.mk ?_
    exact Frame.refl _

theorem State.blockMoments_frame (s : State) (die : Nat) (u : Nat) (p : UpdProgram) (mo : Bytes) (gr : Bytes) (wb : Bytes) :
    Frame ⟨[], [.VSE_GEN_STATE], false⟩ s (State.blockMoments s die u p mo gr wb).1 := by
  show Frame.Fst _ _ _
  unfold State.blockMoments
  extract_lets +onlyGivenNames t0
  extract_lets +onlyGivenNames t1
  extract_lets +onlyGivenNames t2
  refine Frame.Fst.foldl ?_ fun t3 x3 y3 => ?_
  · refine Frame.Fst.mk ?_
    exact Frame.refl _
  · split
    refine Frame.Fst.mk ?_
    refine Frame.fst (by assumption) ?_
    change Frame.Fst _ _ _
    refine Frame.Fst.step ?_ (State.elementMoments_frame _ _ _ _ _)
    change Frame.Fst _ _ _
    refine Frame.Fst.mk ?_
    exact Frame.refl _

theorem UpRun.phaseA_frame (r : UpRun) (die : Nat) (d : Shard) (p : UpdProgram) (u j : Nat) :
    Frame ⟨recordParts, readRegs ++ [Reg.VSE_GEN_STATE], false⟩ r.state (UpRun.phaseA r die d p u j).state := by
  unfold UpRun.phaseA
  extract_lets u1
  split
  rename_i r1 mo h1
  split
  rename_i r2 gr h2
  split
  rename_i r3 wb h3
  have e : Frame ⟨recordParts, readRegs ++ [Reg.VSE_GEN_STATE], false⟩ r.state r3.state := by
    have a1 := UpRun.read_frame r (d.momentsAt p.mb u1 j) (16384 * p.mb)
    have a2 := UpRun.read_frame r1 (d.grad + j * 32768) 32768
    have a3 := UpRun.read_frame r2 (d.masterAt u1 j) 65536
    rw [h1] at a1
    rw [h2] at a2
    rw [h3] at a3
    exact ((a1.trans a2).trans a3).mono (by decide +kernel)
  clear h1 h2 h3
  split
  · exact e
  · have b := State.blockMoments_frame r3.state die u p mo gr wb
    generalize r3.state.blockMoments die u p mo gr wb = q at b
    obtain ⟨s, data⟩ := q
    dsimp only at b ⊢
    exact (e.step b).step (UpRun.write_frame { r3 with state := s } (d.momentsAt p.mb u j) data)

theorem UpRun.copyWeights_frame (r : UpRun) (d : Shard) (j : Nat) :
    Frame ⟨recordParts, readRegs, false⟩ r.state (UpRun.copyWeights r d j).1.state := by
  change Frame.At (fun p : UpRun × List Nat => p.1.state) _ _ _
  unfold UpRun.copyWeights
  (generalize h0 : UpRun.read _ _ _ = q0; obtain ⟨r0, b0⟩ := q0; split)
  refine Frame.At.ite ?_ ?_
  · (change Frame.At UpRun.state _ _ _; try dsimp only)
    refine Frame.atFst (by assumption) ?_
    (change Frame.At UpRun.state _ _ _; try dsimp only)
    refine Frame.atFst (by assumption) ?_
    refine Frame.At.step ?_ (UpRun.read_frame _ _ _)
    exact Frame.refl _
  · extract_lets +onlyGivenNames t1
    refine Frame.At.ite ?_ ?_
    · (generalize h2 : UpRun.read _ _ _ = q2; obtain ⟨r2, b2⟩ := q2; split)
      (change Frame.At UpRun.state _ _ _; try dsimp only)
      refine Frame.atFst (by assumption) ?_
      (change Frame.At UpRun.state _ _ _; try dsimp only)
      refine Frame.atFst (by assumption) ?_
      refine Frame.At.step ?_ (UpRun.read_frame _ _ _)
      change Frame.At UpRun.state _ _ _
      refine Frame.atFst (by assumption) ?_
      (change Frame.At UpRun.state _ _ _; try dsimp only)
      refine Frame.atFst (by assumption) ?_
      refine Frame.At.step ?_ (UpRun.read_frame _ _ _)
      exact Frame.refl _
    · (change Frame.At UpRun.state _ _ _; try dsimp only)
      (change Frame _ _ _; dsimp only)
      change Frame.At UpRun.state _ _ _
      refine Frame.atFst (by assumption) ?_
      (change Frame.At UpRun.state _ _ _; try dsimp only)
      refine Frame.atFst (by assumption) ?_
      refine Frame.At.step ?_ (UpRun.read_frame _ _ _)
      exact Frame.refl _

theorem State.verifyBlock_frame (s : State) (d : Shard) (j : Nat) :
    Frame ⟨recordParts, readRegs, false⟩ s (State.verifyBlock s d j).1 := by
  show Frame.Fst _ _ _
  unfold State.verifyBlock
  extract_lets +onlyGivenNames t0
  (generalize h1 : UpRun.read _ _ _ = q1; obtain ⟨r1, b1⟩ := q1; split)
  split
  · refine Frame.Fst.mk ?_
    change Frame.At UpRun.state _ _ _
    refine Frame.atFst (by assumption) ?_
    (change Frame.At UpRun.state _ _ _; try dsimp only)
    refine Frame.atFst (by assumption) ?_
    refine Frame.At.step ?_ (UpRun.read_frame _ _ _)
    dsimp only
    exact Frame.refl _
  · (generalize h2 : UpRun.read _ _ _ = q2; obtain ⟨r2, b2⟩ := q2; split)
    (generalize h3 : UpRun.read _ _ _ = q3; obtain ⟨r3, b3⟩ := q3; split)
    refine Frame.Fst.ite ?_ ?_
    · refine Frame.Fst.mk ?_
      change Frame.At UpRun.state _ _ _
      refine Frame.atFst (by assumption) ?_
      (change Frame.At UpRun.state _ _ _; try dsimp only)
      refine Frame.atFst (by assumption) ?_
      refine Frame.At.step ?_ (UpRun.read_frame _ _ _)
      change Frame.At UpRun.state _ _ _
      refine Frame.atFst (by assumption) ?_
      (change Frame.At UpRun.state _ _ _; try dsimp only)
      refine Frame.atFst (by assumption) ?_
      refine Frame.At.step ?_ (UpRun.read_frame _ _ _)
      change Frame.At UpRun.state _ _ _
      refine Frame.atFst (by assumption) ?_
      (change Frame.At UpRun.state _ _ _; try dsimp only)
      refine Frame.atFst (by assumption) ?_
      refine Frame.At.step ?_ (UpRun.read_frame _ _ _)
      dsimp only
      exact Frame.refl _
    · extract_lets +onlyGivenNames t4
      refine Frame.Fst.mk ?_
      change Frame.At UpRun.state _ _ _
      refine Frame.atFst (by assumption) ?_
      (change Frame.At UpRun.state _ _ _; try dsimp only)
      refine Frame.atFst (by assumption) ?_
      refine Frame.At.step ?_ (UpRun.read_frame _ _ _)
      change Frame.At UpRun.state _ _ _
      refine Frame.atFst (by assumption) ?_
      (change Frame.At UpRun.state _ _ _; try dsimp only)
      refine Frame.atFst (by assumption) ?_
      refine Frame.At.step ?_ (UpRun.read_frame _ _ _)
      change Frame.At UpRun.state _ _ _
      refine Frame.atFst (by assumption) ?_
      (change Frame.At UpRun.state _ _ _; try dsimp only)
      refine Frame.atFst (by assumption) ?_
      refine Frame.At.step ?_ (UpRun.read_frame _ _ _)
      dsimp only
      exact Frame.refl _

theorem State.verifyBlocks_frame (s : State) (key : Nat) (count : Nat) :
    Frame ⟨recordParts, readRegs, false⟩ s (State.verifyBlocks s key count).1 := by
  show Frame.Fst _ _ _
  unfold State.verifyBlocks
  split
  · refine Frame.Fst.mk ?_
    exact Frame.refl _
  · extract_lets +onlyGivenNames t0
    extract_lets +onlyGivenNames t1
    refine Frame.Fst.ite ?_ ?_
    · refine Frame.Fst.mk ?_
      exact Frame.refl _
    · refine Frame.Fst.foldl ?_ fun t2 x2 y2 => ?_
      · refine Frame.Fst.mk ?_
        exact Frame.refl _
      · (generalize h3 : State.verifyBlock _ _ _ = q3; obtain ⟨r3, b3⟩ := q3; split)
        refine Frame.Fst.mk ?_
        refine Frame.fst (by assumption) ?_
        change Frame.Fst _ _ _
        refine Frame.Fst.mk ?_
        refine Frame.fst (by assumption) ?_
        change Frame.Fst _ _ _
        refine Frame.Fst.step ?_ (State.verifyBlock_frame _ _ _)
        change Frame.Fst _ _ _
        refine Frame.Fst.mk ?_
        exact Frame.refl _

theorem State.verifyWrite_frame (s : State) (key : Nat) :
    Frame ⟨recordParts ++ [Part.upd], readRegs ++ [Reg.UPD_STATUS, Reg.UPD_VERIFY_KEY, Reg.UPD_VERIFY_RESULT], false⟩ s
    (State.verifyWrite s key) := by
  unfold State.verifyWrite
  (extract_lets +onlyGivenNames t0; refine Frame.via (t := t0) ?_ fun h0 => ?_; rotate_left; clear_value t0; rotate_left)
  · unfold t0
    refine Frame.trans ?_ (State.put_frame (h := ?_) _ _ _ _ _)
    · exact Frame.refl _
    · decide +kernel
  · refine Frame.ite ?_ ?_
    · exact h0
    · (generalize h1 : State.verifyBlocks _ _ _ = q1; obtain ⟨r1, b1⟩ := q1; split)
      split
      · refine Frame.trans ?_ (State.flag_frame (h := ?_) _ _ _ _)
        · refine Frame.fst (by assumption) ?_
          change Frame.Fst _ _ _
          refine Frame.Fst.mk ?_
          refine Frame.fst (by assumption) ?_
          change Frame.Fst _ _ _
          refine Frame.Fst.step ?_ (State.verifyBlocks_frame _ _ _)
          exact h0
        · decide +kernel
      · (extract_lets +onlyGivenNames t2; refine Frame.via (t := t2) ?_ fun h2 => ?_; rotate_left; clear_value t2; rotate_left)
        · unfold t2
          refine Frame.trans ?_ (State.put_frame (h := ?_) _ _ _ _ _)
          · refine Frame.trans ?_ (State.put_frame (h := ?_) _ _ _ _ _)
            · refine Frame.fst (by assumption) ?_
              change Frame.Fst _ _ _
              refine Frame.Fst.mk ?_
              refine Frame.fst (by assumption) ?_
              change Frame.Fst _ _ _
              refine Frame.Fst.step ?_ (State.verifyBlocks_frame _ _ _)
              exact h0
            · decide +kernel
          · decide +kernel
        · refine Frame.step ?_ (State.onUpd_frame _ _)
          refine Frame.trans ?_ (State.flag_frame (h := ?_) _ _ _ _)
          · exact h2
          · decide +kernel

theorem State.bumpWide_frame {K : Touch} (s : State) (hi : Fld) (lo : Fld) (die : Nat) (hK : Touch.sub ⟨[], [], false⟩ K =
    true := by decide +kernel) (h0 : K.any = true ∨ hi.reg ∈ K.regs) (h1 : K.any = true ∨ lo.reg ∈ K.regs)  :
    Frame K s (State.bumpWide s hi lo die) := by
  unfold State.bumpWide
  extract_lets +onlyGivenNames t0
  refine Frame.trans ?_ (State.put_frame (h := ?_) _ _ _ _ _)
  · refine Frame.trans ?_ (State.put_frame (h := ?_) _ _ _ _ _)
    · exact Frame.refl _
    · assumption
  · assumption

theorem State.strayDigest_frame (s : State) :
    Frame ⟨[], [.UPD_EVENTS, .UPD_STRAY], false⟩ s (State.strayDigest s) := by
  unfold State.strayDigest
  refine Frame.trans ?_ (State.flag_frame (h := ?_) _ _ _ _)
  · refine Frame.trans ?_ (State.bumpWide_frame (h0 := ?_) (h1 := ?_) _ _ _ _)
    · exact Frame.refl _
    · decide +kernel
    · decide +kernel
  · decide +kernel

theorem State.checkDigests_frame (s : State) :
    Frame ⟨abortParts, abortRegs ++ errorRegs ++ [Reg.FLT_RECOVERY, Reg.UPD_DIVERGE, Reg.UPD_DIVERGE_OWN, Reg.UPD_DIVERGE_PEER,
    Reg.UPD_DIVERGE_STEP], false⟩ s (State.checkDigests s) := by
  unfold State.checkDigests
  split
  · exact Frame.refl _
  · split
    · refine Frame.step ?_ (State.diverge_frame _ _ _ _ _ _)
      exact Frame.refl _
    · exact Frame.refl _

theorem UpRun.quantSquare_frame (r : UpRun) (d : Shard) (q : Nat) :
    Frame ⟨recordParts, readRegs, false⟩ r.state (UpRun.quantSquare r d q).state := by
  change Frame.At UpRun.state _ _ _
  unfold UpRun.quantSquare
  extract_lets +onlyGivenNames t0
  extract_lets +onlyGivenNames t1
  extract_lets +onlyGivenNames t2
  extract_lets +onlyGivenNames t3
  (generalize h4 : UpRun.read _ _ _ = q4; obtain ⟨r4, b4⟩ := q4; split)
  (generalize h5 : UpRun.read _ _ _ = q5; obtain ⟨r5, b5⟩ := q5; split)
  split
  refine Frame.At.ite ?_ ?_
  · refine Frame.atFst (by assumption) ?_
    refine Frame.At.foldl ?_ fun t6 x6 => ?_
    · (change Frame.At UpRun.state _ _ _; try dsimp only)
      refine Frame.atFst (by assumption) ?_
      (change Frame.At UpRun.state _ _ _; try dsimp only)
      refine Frame.atFst (by assumption) ?_
      refine Frame.At.step ?_ (UpRun.read_frame _ _ _)
      change Frame.At UpRun.state _ _ _
      refine Frame.atFst (by assumption) ?_
      (change Frame.At UpRun.state _ _ _; try dsimp only)
      refine Frame.atFst (by assumption) ?_
      refine Frame.At.step ?_ (UpRun.read_frame _ _ _)
      exact Frame.refl _
    · (generalize h7 : UpRun.copyWeights _ _ _ = q7; obtain ⟨r7, b7⟩ := q7; split)
      (change Frame.At UpRun.state _ _ _; try dsimp only)
      refine Frame.atFst (by assumption) ?_
      (change Frame.At UpRun.state _ _ _; try dsimp only)
      refine Frame.atFst (by assumption) ?_
      refine Frame.At.step ?_ (UpRun.copyWeights_frame _ _ _)
      exact Frame.refl _
  · extract_lets +onlyGivenNames t8
    extract_lets +onlyGivenNames t9
    extract_lets +onlyGivenNames t10
    extract_lets +onlyGivenNames t11
    (extract_lets +onlyGivenNames t12; refine Frame.At.viaAt UpRun.state (b := t12) ?_ fun h12 => ?_; rotate_left; clear_value t12; rotate_left)
    · unfold t12
      refine Frame.At.foldl ?_ fun t13 x13 => ?_
      · refine Frame.atFst (by assumption) ?_
        refine Frame.At.foldl ?_ fun t14 x14 => ?_
        · (change Frame.At UpRun.state _ _ _; try dsimp only)
          refine Frame.atFst (by assumption) ?_
          (change Frame.At UpRun.state _ _ _; try dsimp only)
          refine Frame.atFst (by assumption) ?_
          refine Frame.At.step ?_ (UpRun.read_frame _ _ _)
          change Frame.At UpRun.state _ _ _
          refine Frame.atFst (by assumption) ?_
          (change Frame.At UpRun.state _ _ _; try dsimp only)
          refine Frame.atFst (by assumption) ?_
          refine Frame.At.step ?_ (UpRun.read_frame _ _ _)
          exact Frame.refl _
        · (generalize h15 : UpRun.copyWeights _ _ _ = q15; obtain ⟨r15, b15⟩ := q15; split)
          (change Frame.At UpRun.state _ _ _; try dsimp only)
          refine Frame.atFst (by assumption) ?_
          (change Frame.At UpRun.state _ _ _; try dsimp only)
          refine Frame.atFst (by assumption) ?_
          refine Frame.At.step ?_ (UpRun.copyWeights_frame _ _ _)
          exact Frame.refl _
      · refine Frame.At.step ?_ (UpRun.write_frame _ _ _)
        exact Frame.refl _
    · refine Frame.At.foldl ?_ fun t16 x16 => ?_
      · exact h12
      · refine Frame.At.step ?_ (UpRun.write_frame _ _ _)
        exact Frame.refl _

theorem State.patchLoss_frame (s : State) :
    Frame ⟨recordParts, readRegs, false⟩ s (State.patchLoss s) := by
  unfold State.patchLoss
  extract_lets +onlyGivenNames t0
  extract_lets +onlyGivenNames t1
  extract_lets +onlyGivenNames t2
  refine Frame.foldl fun t3 x3 => ?_
  refine Frame.step ?_ (State.updWrite_frame _ _ _)
  exact Frame.refl _

theorem updMore_frame (die : Nat) (shard : Nat) (s : State) :
    Frame ⟨[], [.UPD_ERROR], false⟩ s (updMore die shard s) := by
  unfold updMore
  refine Frame.trans ?_ (State.put_frame (h := ?_) _ _ _ _ _)
  · exact Frame.refl _
  · decide +kernel

theorem cscaleTask_frame (die : Nat) (p : BitVec 192) :
    Task.Framed ⟨accessParts, accessRegs ++ errorRegs ++ [Reg.XLT_COUNTS], false⟩ (cscaleTask die p) := by
  unfold cscaleTask
  extract_lets +onlyGivenNames t0
  extract_lets +onlyGivenNames t1
  extract_lets +onlyGivenNames t2
  (refine Task.Framed.mk (fun s => ?_) fun s => ?_ <;> dsimp only)
  · refine Frame.step ?_ (updMore_frame _ _ _)
    exact Frame.refl _
  · (refine Plan.Framed.mk (fun t => ?_) (fun t a => ?_) fun t => ?_ <;> dsimp only)
    · refine Frame.step ?_ (updMore_frame _ _ _)
      exact Frame.refl _
    · exact Frame.refl _
    · split
      · refine Frame.Body.mk ?_ ?_
        · change Frame.At UpRun.state _ _ _
          refine Frame.At.step ?_ (UpRun.write_frame _ _ _)
          dsimp only
          refine Frame.ite ?_ ?_
          · refine Frame.trans ?_ (State.flag_frame (h := ?_) _ _ _ _)
            · exact Frame.refl _
            · decide +kernel
          · exact Frame.refl _
        · trivial
      · refine Frame.Body.mk ?_ ?_
        · change Frame.At UpRun.state _ _ _
          refine Frame.At.step ?_ (UpRun.write_frame _ _ _)
          dsimp only
          refine Frame.ite ?_ ?_
          · refine Frame.trans ?_ (State.flag_frame (h := ?_) _ _ _ _)
            · exact Frame.refl _
            · decide +kernel
          · exact Frame.refl _
        · trivial

theorem State.sendDigests_frame (s : State) (die : Nat) (d : Shard) (u : Nat) (run : List (Nat × Nat)) :
    Frame ⟨[.vrt], [], false⟩ s (State.sendDigests s die d u run) := by
  unfold State.sendDigests
  split
  · exact Frame.refl _
  · extract_lets +onlyGivenNames t0
    refine Frame.foldl fun t1 x1 => ?_
    refine Frame.step ?_ (State.tc0To_frame _ _ _ _ _)
    exact Frame.refl _

theorem UpRun.digest_frame (r : UpRun) (die : Nat) (d : Shard) (u : Nat) (j : Nat) (x : Nat) :
    Frame ⟨[.vrt], [], false⟩ r.state (UpRun.digest r die d u j x).state := by
  change Frame.At UpRun.state _ _ _
  unfold UpRun.digest
  refine Frame.At.ite ?_ ?_
  · exact Frame.refl _
  · extract_lets +onlyGivenNames t0
    refine Frame.At.ite ?_ ?_
    · (change Frame _ _ _; dsimp only)
      refine Frame.step ?_ (State.sendDigests_frame _ _ _ _ _)
      exact Frame.refl _
    · (change Frame _ _ _; dsimp only)
      exact Frame.refl _

theorem State.rewindTags_frame (s : State) (u : Nat) :
    Frame ⟨recordParts, readRegs, false⟩ s (State.rewindTags s u) := by
  unfold State.rewindTags
  refine Frame.foldl fun t0 x0 => ?_
  refine Frame.foldl fun t1 x1 => ?_
  extract_lets +onlyGivenNames t2
  extract_lets +onlyGivenNames t3
  refine Frame.ite ?_ ?_
  · change Frame.Fst _ _ _
    refine Frame.Fst.step ?_ (State.engineWrite_frame _ _ _)
    exact Frame.refl _
  · exact Frame.refl _

theorem State.rewindWrite_frame (s : State) (unum : Nat) :
    Frame ⟨recordParts ++ [Part.upd], readRegs ++ [Reg.UPD_EVENTS, Reg.UPD_REWIND, Reg.UPD_STATUS, Reg.UPD_UNUM], false⟩ s
    (State.rewindWrite s unum) := by
  unfold State.rewindWrite
  (extract_lets +onlyGivenNames t0; refine Frame.via (t := t0) ?_ fun h0 => ?_; rotate_left; clear_value t0; rotate_left)
  · unfold t0
    refine Frame.trans ?_ (State.put_frame (h := ?_) _ _ _ _ _)
    · exact Frame.refl _
    · decide +kernel
  · extract_lets +onlyGivenNames t1
    refine Frame.ite ?_ ?_
    · exact h0
    · refine Frame.ite ?_ ?_
      · refine Frame.trans ?_ (State.flag_frame (h := ?_) _ _ _ _)
        · exact h0
        · decide +kernel
      · (extract_lets +onlyGivenNames t2; refine Frame.via (t := t2) ?_ fun h2 => ?_; rotate_left; clear_value t2; rotate_left)
        · unfold t2
          refine Frame.trans ?_ (State.put_frame (h := ?_) _ _ _ _ _)
          · refine Frame.step ?_ (State.rewindTags_frame _ _)
            exact h0
          · decide +kernel
        · refine Frame.step ?_ (State.onUpd_frame _ _)
          refine Frame.trans ?_ (State.flag_frame (h := ?_) _ _ _ _)
          · exact h2
          · decide +kernel

theorem State.judge_frame (s : State) (x : Nat) :
    Frame ⟨[], [.UPD_NORM, .UPD_STATUS], false⟩ s (State.judge s x).1 := by
  show Frame.Fst _ _ _
  unfold State.judge
  extract_lets +onlyGivenNames t0
  extract_lets +onlyGivenNames t1
  extract_lets +onlyGivenNames t2
  (extract_lets +onlyGivenNames t3; refine Frame.Fst.via (t := t3) ?_ fun h3 => ?_; rotate_left; clear_value t3; rotate_left)
  · unfold t3
    refine Frame.trans ?_ (State.put_frame (h := ?_) _ _ _ _ _)
    · exact Frame.refl _
    · decide +kernel
  · refine Frame.Fst.ite ?_ ?_
    · refine Frame.Fst.mk ?_
      refine Frame.trans ?_ (State.put_frame (h := ?_) _ _ _ _ _)
      · exact h3
      · decide +kernel
    · extract_lets +onlyGivenNames t4
      refine Frame.Fst.mk ?_
      refine Frame.trans ?_ (State.put_frame (h := ?_) _ _ _ _ _)
      · refine Frame.trans ?_ (State.put_frame (h := ?_) _ _ _ _ _)
        · exact h3
        · decide +kernel
      · decide +kernel

theorem nchkTask_frame (die : Nat) (p : BitVec 192) :
    Task.Framed ⟨accessParts, accessRegs ++ errorRegs ++ [Reg.UPD_NORM, Reg.UPD_STATUS, Reg.XLT_COUNTS], false⟩ (nchkTask die p) := by
  unfold nchkTask
  extract_lets +onlyGivenNames t0
  extract_lets +onlyGivenNames t1
  extract_lets +onlyGivenNames t2
  extract_lets +onlyGivenNames t3
  (refine Task.Framed.mk (fun s => ?_) fun s => ?_ <;> dsimp only)
  · dsimp only [id]
    exact Frame.refl _
  · (refine Plan.Framed.mk (fun t => ?_) (fun t a => ?_) fun t => ?_ <;> dsimp only)
    · dsimp only [id]
      exact Frame.refl _
    · exact Frame.refl _
    · refine Frame.Body.ite ?_ ?_
      · refine Frame.Body.mk ?_ ?_
        · exact Frame.refl _
        · trivial
      · refine Frame.Body.mk ?_ ?_
        · refine Frame.ite ?_ ?_
          · refine Frame.trans ?_ (State.flag_frame (h := ?_) _ _ _ _)
            · change Frame.Fst _ _ _
              refine Frame.Fst.step ?_ (State.judge_frame _ _)
              exact Frame.refl _
            · decide +kernel
          · change Frame.Fst _ _ _
            refine Frame.Fst.step ?_ (State.judge_frame _ _)
            exact Frame.refl _
        · trivial

theorem UpRun.tags_frame (r : UpRun) (d : Shard) (j : Nat) (m : Nat) (w : Nat) :
    Frame ⟨recordParts, readRegs, false⟩ r.state (UpRun.tags r d j m w).state := by
  change Frame.At UpRun.state _ _ _
  unfold UpRun.tags
  refine Frame.At.step ?_ (UpRun.write_frame _ _ _)
  exact Frame.refl _

theorem UpRun.updateBlock_frame (r : UpRun) (die : Nat) (d : Shard) (p : UpdProgram) (u : Nat) (isB : Bool) (j : Nat) :
    Frame ⟨recordParts, readRegs ++ [Reg.UPD_BLOCKS, Reg.UPD_COUNTS, Reg.VSE_GEN_STATE], false⟩ r.state (UpRun.updateBlock r die d p
    u isB j).state := by
  change Frame.At UpRun.state _ _ _
  unfold UpRun.updateBlock
  (generalize h0 : UpRun.read _ _ _ = q0; obtain ⟨r0, b0⟩ := q0; split)
  refine Frame.At.ite ?_ ?_
  · refine Frame.atFst (by assumption) ?_
    (change Frame.At UpRun.state _ _ _; try dsimp only)
    refine Frame.atFst (by assumption) ?_
    refine Frame.At.step ?_ (UpRun.read_frame _ _ _)
    exact Frame.refl _
  · extract_lets +onlyGivenNames t1
    extract_lets +onlyGivenNames t2
    (extract_lets +onlyGivenNames t3; refine Frame.At.viaAt UpRun.state (b := t3) ?_ fun h3 => ?_; rotate_left; clear_value t3; rotate_left)
    · unfold t3
      (change Frame _ _ _; dsimp only)
      refine Frame.trans ?_ (State.bump_frame (h := ?_) _ _ _ _ _)
      · change Frame.At UpRun.state _ _ _
        refine Frame.atFst (by assumption) ?_
        (change Frame.At UpRun.state _ _ _; try dsimp only)
        refine Frame.atFst (by assumption) ?_
        refine Frame.At.step ?_ (UpRun.read_frame _ _ _)
        exact Frame.refl _
      · decide +kernel
    · refine Frame.At.ite ?_ ?_
      · refine Frame.At.ite ?_ ?_
        · refine Frame.At.step ?_ (UpRun.tags_frame _ _ _ _ _)
          change Frame.At UpRun.state _ _ _
          refine Frame.At.step ?_ (UpRun.phaseA_frame _ _ _ _ _ _)
          change Frame.At UpRun.state _ _ _
          refine Frame.atFst (by assumption) ?_
          (change Frame.At UpRun.state _ _ _; try dsimp only)
          refine Frame.atFst (by assumption) ?_
          refine Frame.At.step ?_ (UpRun.read_frame _ _ _)
          exact Frame.refl _
        · refine Frame.At.ite ?_ ?_
          · (change Frame _ _ _; dsimp only)
            refine Frame.step ?_ (State.skipDraws_frame _ _ _)
            exact h3
          · (change Frame _ _ _; dsimp only)
            change Frame.At UpRun.state _ _ _
            refine Frame.atFst (by assumption) ?_
            (change Frame.At UpRun.state _ _ _; try dsimp only)
            refine Frame.atFst (by assumption) ?_
            refine Frame.At.step ?_ (UpRun.read_frame _ _ _)
            exact Frame.refl _
      · refine Frame.At.ite ?_ ?_
        · (generalize h4 : UpRun.phaseB _ _ _ _ _ = q4; obtain ⟨r4, b4⟩ := q4; split)
          (extract_lets +onlyGivenNames t5; refine Frame.At.viaAt UpRun.state (b := t5) ?_ fun h5 => ?_; rotate_left; clear_value t5; rotate_left)
          · unfold t5
            refine Frame.At.step ?_ (UpRun.tags_frame _ _ _ _ _)
            change Frame.At UpRun.state _ _ _
            refine Frame.atFst (by assumption) ?_
            (change Frame.At UpRun.state _ _ _; try dsimp only)
            refine Frame.atFst (by assumption) ?_
            refine Frame.At.step ?_ (UpRun.phaseB_frame _ _ _ _ _)
            change Frame.At UpRun.state _ _ _
            refine Frame.atFst (by assumption) ?_
            (change Frame.At UpRun.state _ _ _; try dsimp only)
            refine Frame.atFst (by assumption) ?_
            refine Frame.At.step ?_ (UpRun.read_frame _ _ _)
            exact Frame.refl _
          · (extract_lets +onlyGivenNames t6; refine Frame.At.viaAt UpRun.state (b := t6) ?_ fun h6 => ?_; rotate_left; clear_value t6; rotate_left)
            · unfold t6
              refine Frame.At.ite ?_ ?_
              · exact h5
              · (change Frame _ _ _; dsimp only)
                refine Frame.trans ?_ (State.bumpWide_frame (h0 := ?_) (h1 := ?_) _ _ _ _)
                · exact h5
                · decide +kernel
                · decide +kernel
            · refine Frame.At.step ?_ (UpRun.digest_frame _ _ _ _ _ _)
              exact h6
        · refine Frame.At.ite ?_ ?_
          · refine Frame.At.step ?_ (UpRun.digest_frame _ _ _ _ _ _)
            exact h3
          · (change Frame _ _ _; dsimp only)
            change Frame.At UpRun.state _ _ _
            refine Frame.atFst (by assumption) ?_
            (change Frame.At UpRun.state _ _ _; try dsimp only)
            refine Frame.atFst (by assumption) ?_
            refine Frame.At.step ?_ (UpRun.read_frame _ _ _)
            exact Frame.refl _

theorem UpRun.amaxBlock_frame (r : UpRun) (d : Shard) (j : Nat) :
    Frame ⟨recordParts, readRegs, false⟩ r.state (UpRun.amaxBlock r d j).state := by
  change Frame.At UpRun.state _ _ _
  unfold UpRun.amaxBlock
  (generalize h0 : UpRun.copyWeights _ _ _ = q0; obtain ⟨r0, b0⟩ := q0; split)
  refine Frame.At.ite ?_ ?_
  · refine Frame.atFst (by assumption) ?_
    (change Frame.At UpRun.state _ _ _; try dsimp only)
    refine Frame.atFst (by assumption) ?_
    refine Frame.At.step ?_ (UpRun.copyWeights_frame _ _ _)
    exact Frame.refl _
  · refine Frame.At.step ?_ (UpRun.amax_frame _ _ _ _)
    change Frame.At UpRun.state _ _ _
    refine Frame.atFst (by assumption) ?_
    (change Frame.At UpRun.state _ _ _; try dsimp only)
    refine Frame.atFst (by assumption) ?_
    refine Frame.At.step ?_ (UpRun.copyWeights_frame _ _ _)
    exact Frame.refl _

theorem State.uprun_frame (s : State) (die : Nat) (p : BitVec 192) (most : Nat) :
    Frame.Body ⟨recordParts, readRegs ++ [Reg.UPD_BLOCKS, Reg.UPD_COUNTS, Reg.VSE_GEN_STATE], false⟩ s (State.uprun s die p most) :=
    by
  unfold State.uprun
  extract_lets +onlyGivenNames t0
  extract_lets +onlyGivenNames t1
  extract_lets +onlyGivenNames t2
  refine Frame.Body.ite ?_ ?_
  · refine Frame.Body.mk ?_ ?_
    · exact Frame.refl _
    · trivial
  · split
    · refine Frame.Body.mk ?_ ?_
      · exact Frame.refl _
      · trivial
    · (generalize h3 : UpRun.read _ _ _ = q3; obtain ⟨r3, b3⟩ := q3; split)
      split
      · refine Frame.Body.mk ?_ ?_
        · change Frame.At UpRun.state _ _ _
          refine Frame.atFst (by assumption) ?_
          (change Frame.At UpRun.state _ _ _; try dsimp only)
          refine Frame.atFst (by assumption) ?_
          refine Frame.At.step ?_ (UpRun.read_frame _ _ _)
          dsimp only
          exact Frame.refl _
        · trivial
      · refine Frame.Body.mk ?_ ?_
        · change Frame.At UpRun.state _ _ _
          refine Frame.atFst (by assumption) ?_
          (change Frame.At UpRun.state _ _ _; try dsimp only)
          refine Frame.atFst (by assumption) ?_
          refine Frame.At.step ?_ (UpRun.read_frame _ _ _)
          dsimp only
          exact Frame.refl _
        · trivial
      · extract_lets +onlyGivenNames t4
        extract_lets +onlyGivenNames t5
        extract_lets +onlyGivenNames t6
        (extract_lets +onlyGivenNames t7; refine Frame.Body.viaAt UpRun.state (b := t7) ?_ fun h7 => ?_; rotate_left; clear_value t7; rotate_left)
        · unfold t7
          (clear_value t0; split)
          · (unfold t6; dsimp only)
            refine Frame.At.foldl ?_ fun t8 x8 => ?_
            · refine Frame.atFst (by assumption) ?_
              (change Frame.At UpRun.state _ _ _; try dsimp only)
              refine Frame.atFst (by assumption) ?_
              refine Frame.At.step ?_ (UpRun.read_frame _ _ _)
              dsimp only
              exact Frame.refl _
            · refine Frame.At.ite ?_ ?_
              · exact Frame.refl _
              · refine Frame.At.step ?_ (UpRun.updateBlock_frame _ _ _ _ _ _ _)
                exact Frame.refl _
          · (unfold t6; dsimp only)
            refine Frame.At.foldl ?_ fun t9 x9 => ?_
            · refine Frame.atFst (by assumption) ?_
              (change Frame.At UpRun.state _ _ _; try dsimp only)
              refine Frame.atFst (by assumption) ?_
              refine Frame.At.step ?_ (UpRun.read_frame _ _ _)
              dsimp only
              exact Frame.refl _
            · refine Frame.At.ite ?_ ?_
              · exact Frame.refl _
              · refine Frame.At.step ?_ (UpRun.updateBlock_frame _ _ _ _ _ _ _)
                exact Frame.refl _
          · (unfold t6; dsimp only)
            refine Frame.At.foldl ?_ fun t10 x10 => ?_
            · refine Frame.atFst (by assumption) ?_
              (change Frame.At UpRun.state _ _ _; try dsimp only)
              refine Frame.atFst (by assumption) ?_
              refine Frame.At.step ?_ (UpRun.read_frame _ _ _)
              dsimp only
              exact Frame.refl _
            · refine Frame.At.ite ?_ ?_
              · exact Frame.refl _
              · refine Frame.At.step ?_ (UpRun.amaxBlock_frame _ _ _)
                exact Frame.refl _
          · (unfold t6; dsimp only)
            refine Frame.At.foldl ?_ fun t11 x11 => ?_
            · refine Frame.atFst (by assumption) ?_
              (change Frame.At UpRun.state _ _ _; try dsimp only)
              refine Frame.atFst (by assumption) ?_
              refine Frame.At.step ?_ (UpRun.read_frame _ _ _)
              dsimp only
              exact Frame.refl _
            · refine Frame.At.ite ?_ ?_
              · exact Frame.refl _
              · refine Frame.At.step ?_ (UpRun.quantSquare_frame _ _ _)
                exact Frame.refl _
        · (extract_lets +onlyGivenNames t12; refine Frame.Body.via (t := t12) ?_ fun h12 => ?_; rotate_left; clear_value t12; rotate_left)
          · unfold t12
            refine Frame.step ?_ (State.sendDigests_frame _ _ _ _ _)
            exact h7
          · split
            · refine Frame.Body.mk ?_ ?_
              · exact h12
              · trivial
            · refine Frame.Body.mk ?_ ?_
              · exact h12
              · trivial
            · refine Frame.Body.mk ?_ ?_
              · exact h12
              · trivial

theorem State.lossUp_frame (s : State) :
    Frame ⟨[], [.UPD_EVENTS, .UPD_LOSS], false⟩ s (State.lossUp s) := by
  unfold State.lossUp
  extract_lets +onlyGivenNames t0
  refine Frame.ite ?_ ?_
  · refine Frame.trans ?_ (State.put_frame (h := ?_) _ _ _ _ _)
    · exact Frame.refl _
    · decide +kernel
  · (extract_lets +onlyGivenNames t1; refine Frame.via (t := t1) ?_ fun h1 => ?_; rotate_left; clear_value t1; rotate_left)
    · unfold t1
      refine Frame.trans ?_ (State.put_frame (h := ?_) _ _ _ _ _)
      · exact Frame.refl _
      · decide +kernel
    · refine Frame.ite ?_ ?_
      · refine Frame.trans ?_ (State.flag_frame (h := ?_) _ _ _ _)
        · refine Frame.trans ?_ (State.put_frame (h := ?_) _ _ _ _ _)
          · exact h1
          · decide +kernel
        · decide +kernel
      · refine Frame.trans ?_ (State.put_frame (h := ?_) _ _ _ _ _)
        · exact h1
        · decide +kernel

theorem State.lossDown_frame (s : State) :
    Frame ⟨[], [.UPD_EVENTS, .UPD_LOSS], false⟩ s (State.lossDown s) := by
  unfold State.lossDown
  (extract_lets +onlyGivenNames t0; refine Frame.via (t := t0) ?_ fun h0 => ?_; rotate_left; clear_value t0; rotate_left)
  · unfold t0
    refine Frame.trans ?_ (State.put_frame (h := ?_) _ _ _ _ _)
    · exact Frame.refl _
    · decide +kernel
  · refine Frame.ite ?_ ?_
    · refine Frame.trans ?_ (State.flag_frame (h := ?_) _ _ _ _)
      · refine Frame.trans ?_ (State.put_frame (h := ?_) _ _ _ _ _)
        · exact h0
        · decide +kernel
      · decide +kernel
    · refine Frame.trans ?_ (State.put_frame (h := ?_) _ _ _ _ _)
      · exact h0
      · decide +kernel

theorem uprunTask_frame (die : Nat) (p : BitVec 192) (most : Nat) :
    Task.Framed ⟨accessParts, accessRegs ++ errorRegs ++ [Reg.UPD_BLOCKS, Reg.UPD_COUNTS, Reg.VSE_GEN_STATE, Reg.XLT_COUNTS], false⟩
    (uprunTask die p most) := by
  unfold uprunTask
  (refine Task.Framed.mk (fun s => ?_) fun s => ?_ <;> dsimp only)
  · refine Frame.step ?_ (updMore_frame _ _ _)
    exact Frame.refl _
  · (refine Plan.Framed.mk (fun t => ?_) (fun t a => ?_) fun t => ?_ <;> dsimp only)
    · refine Frame.step ?_ (updMore_frame _ _ _)
      exact Frame.refl _
    · exact Frame.refl _
    · refine Frame.Body.step ?_ (State.uprun_frame _ _ _ _)
      exact Frame.refl _

theorem State.endUpdate_frame (s : State) :
    Frame ⟨recordParts ++ [Part.fsel], readRegs ++ [Reg.SCH_EPOCH, Reg.UPD_COUNTS, Reg.UPD_EVENTS, Reg.UPD_LOSS, Reg.UPD_UNUM], false⟩ s
    (State.endUpdate s) := by
  unfold State.endUpdate
  split
  · refine Frame.step ?_ (State.patchLoss_frame _)
    refine Frame.step ?_ (State.lossUp_frame _)
    refine Frame.step ?_ (State.applyFormats_frame _)
    refine Frame.trans ?_ (State.addWrap_frame (h := ?_) _ _ _ _ _)
    · refine Frame.step ?_ (State.bumpEpoch_frame _)
      exact Frame.refl _
    · decide +kernel
  · (extract_lets +onlyGivenNames t0; refine Frame.via (t := t0) ?_ fun h0 => ?_; rotate_left; clear_value t0; rotate_left)
    · unfold t0
      refine Frame.trans ?_ (Frame.foldl fun t1 x1 => ?_)
      · refine Frame.step ?_ (State.onFsel_frame _ _)
        refine Frame.step ?_ (State.bumpEpoch_frame _)
        exact Frame.refl _
      · refine Frame.trans ?_ (State.bump_frame (h := ?_) _ _ _ _ _)
        · exact Frame.refl _
        · decide +kernel
    · refine Frame.step ?_ (State.patchLoss_frame _)
      refine Frame.step ?_ (State.lossDown_frame _)
      exact h0
  · refine Frame.step ?_ (State.onFsel_frame _ _)
    exact Frame.refl _

end Sys2Proof.Machine
end

