-- ==== Sys2Proof/Laws/FrameSchedule.lean ====
section
/-! SUPPORT. The footprints of the functions of Machine/Schedule.lean. -/

namespace Sys2Proof.Machine

set_option Elab.async false

theorem Frame.Opt.orElse {K : Touch} {s : State} {a : Option State} {b : Unit → Option State} (ha : Frame.Opt K s a)
    (hb : ∀ x, Frame.Opt K s (b x)) : Frame.Opt K s (a.orElse b) := by
  cases a with
  | none => exact hb ()
  | some t => exact ha

theorem State.refuseReplay_frame (s : State) (item : Nat) :
    Frame ⟨abortParts, recordRegs ++ ledgerRegs ++ [Reg.CDC_EVENTS, Reg.CDC_PENDING, Reg.FLT_RECOVERY, Reg.RDX_STRAY, Reg.SCH_CTRL,
    Reg.SCH_EPOCH, Reg.SYN_OBJ_VALUE, Reg.SYN_STATUS, Reg.UPD_STATUS, Reg.VRT_BANK], false⟩ s (State.refuseReplay s item) := by
  unfold State.refuseReplay
  refine Frame.step ?_ (State.haltModule_frame _ _ _)
  refine Frame.trans ?_ (State.put_frame (h := ?_) _ _ _ _ _)
  · exact Frame.refl _
  · decide +kernel

theorem State.readLedger_frame (s : State) :
    Frame ⟨[.ldg], [], false⟩ s (State.readLedger s) := by
  unfold State.readLedger
  extract_lets +onlyGivenNames t0
  extract_lets +onlyGivenNames t1
  refine Frame.step ?_ (State.onLdg_frame _ _)
  exact Frame.refl _

theorem State.lateInstalls_frame (s : State) :
    Frame ⟨[], [.CDC_EVENTS], false⟩ s (State.lateInstalls s) := by
  unfold State.lateInstalls
  extract_lets +onlyGivenNames t0
  refine Frame.foldl fun t1 x1 => ?_
  refine Frame.ite ?_ ?_
  · refine Frame.trans ?_ (State.flag_frame (h := ?_) _ _ _ _)
    · exact Frame.refl _
    · decide +kernel
  · exact Frame.refl _

theorem State.endStep_frame (s : State) :
    Frame ⟨abortParts, abortRegs ++ readRegs ++ [Reg.SCH_REPLAY, Reg.SCH_STEP, Reg.UPD_COUNTS, Reg.UPD_EVENTS, Reg.UPD_LOSS, Reg.UPD_UNUM],
    false⟩ s (State.endStep s) := by
  unfold State.endStep
  split
  · refine Frame.step ?_ (State.raiseBreak_frame _ _ _ _ _)
    exact Frame.refl _
  · (extract_lets +onlyGivenNames t0; refine Frame.via (t := t0) ?_ fun h0 => ?_; rotate_left; clear_value t0; rotate_left)
    · unfold t0
      refine Frame.step ?_ (State.endUpdate_frame _)
      refine Frame.step ?_ (State.installTables_frame _)
      refine Frame.step ?_ (State.lateInstalls_frame _)
      exact Frame.refl _
    · extract_lets +onlyGivenNames t1
      (extract_lets +onlyGivenNames t2; refine Frame.via (t := t2) ?_ fun h2 => ?_; rotate_left; clear_value t2; rotate_left)
      · unfold t2
        refine Frame.trans ?_ (State.put_frame (h := ?_) _ _ _ _ _)
        · refine Frame.trans ?_ (State.put_frame (h := ?_) _ _ _ _ _)
          · exact h0
          · decide +kernel
        · decide +kernel
      · (extract_lets +onlyGivenNames t3; refine Frame.via (t := t3) ?_ fun h3 => ?_; rotate_left; clear_value t3; rotate_left)
        · unfold t3
          refine Frame.step ?_ (State.onSched_frame _ _)
          exact h2
        · refine Frame.ite ?_ ?_
          · refine Frame.step ?_ (State.setSched_frame _ _)
            refine Frame.step ?_ (State.onSched_frame _ _)
            exact h3
          · exact h3

theorem State.enterPhase_frame (s : State) (u : Nat) (seg : Nat) (slip : Nat) :
    Frame ⟨storeParts ++ [Part.sched, Part.ldg], ledgerRegs, false⟩ s (State.enterPhase s u seg slip) := by
  unfold State.enterPhase
  extract_lets +onlyGivenNames t0
  extract_lets +onlyGivenNames t1
  refine Frame.ite ?_ ?_
  · exact Frame.refl _
  · (extract_lets +onlyGivenNames t2; refine Frame.via (t := t2) ?_ fun h2 => ?_; rotate_left; clear_value t2; rotate_left)
    · unfold t2
      refine Frame.ite ?_ ?_
      · exact Frame.refl _
      · refine Frame.step ?_ (State.phaseRecord_frame _ _ _)
        exact Frame.refl _
    · extract_lets +onlyGivenNames t3
      refine Frame.step ?_ (State.onUnit_frame _ _ _)
      refine Frame.step ?_ (State.took_frame _ _)
      exact h2

theorem State.countSlip_frame (s : State) (u : Nat) (seg : Nat) (slip : Nat) :
    Frame ⟨storeParts ++ [Part.ldg], ledgerRegs ++ [Reg.SCH_SLIP_COUNT], false⟩ s (State.countSlip s u seg slip) := by
  unfold State.countSlip
  refine Frame.ite ?_ ?_
  · exact Frame.refl _
  · extract_lets +onlyGivenNames t0
    refine Frame.step ?_ (State.took_frame _ _)
    refine Frame.step ?_ (State.ledger_frame _ _)
    refine Frame.trans ?_ (State.bump_frame (h := ?_) _ _ _ _ _)
    · exact Frame.refl _
    · decide +kernel

theorem State.reach_frame (u : Nat) (t : Stream) (n1 : Nat) (s : State) :
    Frame ⟨abortParts, abortRegs, false⟩ s (State.reach u t n1 s) := by
  induction n1 generalizing s with
  | zero =>
    unfold State.reach
    exact Frame.refl _
  | succ n1 ih =>
    unfold State.reach
    extract_lets +onlyGivenNames t0
    refine Frame.ite ?_ ?_
    · exact Frame.refl _
    · refine Frame.ite ?_ ?_
      · refine Frame.step ?_ (State.raiseBreak_frame _ _ _ _ _)
        exact Frame.refl _
      · refine Frame.ite ?_ ?_
        · extract_lets +onlyGivenNames t1
          refine Frame.trans ?_ (ih _)
          refine Frame.step ?_ (State.onUnit_frame _ _ _)
          exact Frame.refl _
        · exact Frame.refl _

theorem State.passEntry_frame (s : State) (u : Nat) (t : Stream) :
    Frame ⟨abortParts, abortRegs, false⟩ s (State.passEntry s u t) := by
  unfold State.passEntry
  extract_lets +onlyGivenNames t0
  refine Frame.step ?_ (State.reach_frame _ _ _ _)
  refine Frame.step ?_ (State.onUnit_frame _ _ _)
  exact Frame.refl _

theorem State.startSegment_frame (s : State) (u : Nat) (t : Stream) (slip : Nat) :
    Frame ⟨abortParts, abortRegs ++ [Reg.SCH_SLIP_COUNT], false⟩ s (State.startSegment s u t slip) := by
  unfold State.startSegment
  extract_lets +onlyGivenNames t0
  extract_lets +onlyGivenNames t1
  (extract_lets +onlyGivenNames t2; refine Frame.via (t := t2) ?_ fun h2 => ?_; rotate_left; clear_value t2; rotate_left)
  · unfold t2
    refine Frame.step ?_ (State.enterPhase_frame _ _ _ _)
    refine Frame.step ?_ (State.countSlip_frame _ _ _ _)
    exact Frame.refl _
  · (extract_lets +onlyGivenNames t3; refine Frame.via (t := t3) ?_ fun h3 => ?_; rotate_left; clear_value t3; rotate_left)
    · unfold t3
      refine Frame.step ?_ (State.onUnit_frame _ _ _)
      exact h2
    · refine Frame.ite ?_ ?_
      · refine Frame.step ?_ (State.raiseBreak_frame _ _ _ _ _)
        exact h3
      · refine Frame.step ?_ (State.passEntry_frame _ _ _)
        refine Frame.step ?_ (State.onUnit_frame _ _ _)
        exact h3

theorem State.advance_frame (u : Nat) (late : Nat) (n1 : Nat) (s : State) :
    Frame ⟨abortParts, abortRegs ++ readRegs ++ [Reg.SCH_REPLAY, Reg.SCH_SLIP_COUNT, Reg.SCH_STEP, Reg.UPD_COUNTS, Reg.UPD_EVENTS,
    Reg.UPD_LOSS, Reg.UPD_UNUM], false⟩ s (State.advance u late n1 s) := by
  induction n1 generalizing s with
  | zero =>
    unfold State.advance
    exact Frame.refl _
  | succ n1 ih =>
    unfold State.advance
    split
    · exact Frame.refl _
    · extract_lets +onlyGivenNames t0
      refine Frame.ite ?_ ?_
      · exact Frame.refl _
      · refine Frame.ite ?_ ?_
        · refine Frame.ite ?_ ?_
          · (extract_lets +onlyGivenNames t1; refine Frame.via (t := t1) ?_ fun h1 => ?_; rotate_left; clear_value t1; rotate_left)
            · unfold t1
              refine Frame.step ?_ (State.onUnit_frame _ _ _)
              exact Frame.refl _
            · refine Frame.ite ?_ ?_
              · (extract_lets +onlyGivenNames t2; refine Frame.via (t := t2) ?_ fun h2 => ?_; rotate_left; clear_value t2; rotate_left)
                · unfold t2
                  refine Frame.step ?_ (State.phaseRecord_frame _ _ _)
                  exact h1
                · refine Frame.ite ?_ ?_
                  · refine Frame.step ?_ (State.endStep_frame _)
                    exact h2
                  · exact h2
              · refine Frame.ite ?_ ?_
                · refine Frame.step ?_ (State.raiseBreak_frame _ _ _ _ _)
                  exact h1
                · refine Frame.trans ?_ (ih _)
                  exact h1
          · exact Frame.refl _
        · refine Frame.ite ?_ ?_
          · extract_lets +onlyGivenNames t3
            refine Frame.trans ?_ (ih _)
            refine Frame.step ?_ (State.startSegment_frame _ _ _ _)
            exact Frame.refl _
          · exact Frame.refl _

theorem State.goOn_frame (s : State) (u : Nat) (late : Nat) :
    Frame ⟨abortParts, abortRegs ++ readRegs ++ [Reg.SCH_REPLAY, Reg.SCH_SLIP_COUNT, Reg.SCH_STEP, Reg.UPD_COUNTS, Reg.UPD_EVENTS,
    Reg.UPD_LOSS, Reg.UPD_UNUM], false⟩ s (State.goOn s u late) := by
  unfold State.goOn
  refine Frame.step ?_ (State.advance_frame _ _ _ _)
  exact Frame.refl _

theorem State.startDue_frame (s : State) (late : Nat) :
    Frame ⟨abortParts, abortRegs ++ readRegs ++ [Reg.SCH_REPLAY, Reg.SCH_SLIP_COUNT, Reg.SCH_STEP, Reg.UPD_COUNTS, Reg.UPD_EVENTS,
    Reg.UPD_LOSS, Reg.UPD_UNUM], false⟩ s (State.startDue s late) := by
  unfold State.startDue
  refine Frame.foldl fun t0 x0 => ?_
  refine Frame.step ?_ (State.goOn_frame _ _ _)
  exact Frame.refl _

theorem State.zeroVerdict_frame (s : State) :
    Frame ⟨recordParts, readRegs, false⟩ s (State.zeroVerdict s) := by
  unfold State.zeroVerdict
  extract_lets +onlyGivenNames t0
  refine Frame.ite ?_ ?_
  · change Frame.Fst _ _ _
    refine Frame.Fst.step ?_ (State.writeSpan_frame _ _ _)
    exact Frame.refl _
  · exact Frame.refl _

theorem State.resetUnits_frame (s : State) :
    Frame ⟨[.sched], [], false⟩ s (State.resetUnits s) := by
  unfold State.resetUnits
  refine Frame.step ?_ (State.onSched_frame _ _)
  exact Frame.refl _

theorem State.drainTokens_frame (c : Nat) (n1 : Nat) (s : State) :
    Frame ⟨[.sched], [], false⟩ s (State.drainTokens c n1 s) := by
  induction n1 generalizing s with
  | zero =>
    unfold State.drainTokens
    exact Frame.refl _
  | succ n1 ih =>
    unfold State.drainTokens
    extract_lets +onlyGivenNames t0
    split
    · exact Frame.refl _
    · refine Frame.trans ?_ (ih _)
      refine Frame.step ?_ (State.onSched_frame _ _)
      exact Frame.refl _

theorem State.postToken_frame (s : State) (c : Nat) (k : Nat) (item : Option Item) :
    Frame ⟨[.sched], [], false⟩ s (State.postToken s c k item) := by
  unfold State.postToken
  refine Frame.ite ?_ ?_
  · refine Frame.step ?_ (State.onSched_frame _ _)
    exact Frame.refl _
  · (extract_lets +onlyGivenNames t0; refine Frame.via (t := t0) ?_ fun h0 => ?_; rotate_left; clear_value t0; rotate_left)
    · unfold t0
      refine Frame.step ?_ (State.onSched_frame _ _)
      exact Frame.refl _
    · refine Frame.step ?_ (State.drainTokens_frame _ _ _)
      exact h0

theorem State.resetChannels_frame (s : State) :
    Frame ⟨[.sched], [.SCH_CHANNEL], false⟩ s (State.resetChannels s) := by
  unfold State.resetChannels
  extract_lets +onlyGivenNames t0
  extract_lets +onlyGivenNames t1
  extract_lets +onlyGivenNames t2
  (extract_lets +onlyGivenNames t3; refine Frame.via (t := t3) ?_ fun h3 => ?_; rotate_left; clear_value t3; rotate_left)
  · unfold t3
    refine Frame.foldl fun t4 x4 => ?_
    extract_lets +onlyGivenNames t5
    refine Frame.trans ?_ (State.put_frame (h := ?_) _ _ _ _ _)
    · refine Frame.trans ?_ (State.put_frame (h := ?_) _ _ _ _ _)
      · exact Frame.refl _
      · decide +kernel
    · decide +kernel
  · (extract_lets +onlyGivenNames t6; refine Frame.via (t := t6) ?_ fun h6 => ?_; rotate_left; clear_value t6; rotate_left)
    · unfold t6
      refine Frame.step ?_ (State.onSched_frame _ _)
      exact h3
    · refine Frame.trans ?_ (Frame.foldl fun t7 x7 => ?_)
      · exact h6
      · refine Frame.step ?_ (State.postToken_frame _ _ _ _)
        exact Frame.refl _

theorem State.stepResets_frame (s : State) :
    Frame ⟨recordParts ++ [Part.arrays, Part.syn], readRegs ++ [Reg.CDC_HIST, Reg.SCH_CHANNEL, Reg.SYN_EVENTS, Reg.SYN_LATE, Reg.SYN_OBJ_LAST,
    Reg.SYN_OBJ_LAST_TICK, Reg.SYN_OBJ_VALUE, Reg.SYN_STATUS, Reg.SYN_STRAY, Reg.UPD_STATUS, Reg.VSC_VREG], false⟩ s (State.stepResets s) := by
  unfold State.stepResets
  (extract_lets +onlyGivenNames t0; refine Frame.via (t := t0) ?_ fun h0 => ?_; rotate_left; clear_value t0; rotate_left)
  · unfold t0
    refine Frame.step ?_ (State.zeroVerdict_frame _)
    refine Frame.step ?_ (State.resetVerdict_frame _)
    refine Frame.step ?_ (State.clearHistograms_frame _)
    refine Frame.step ?_ (State.resetVregs_frame _)
    refine Frame.step ?_ (State.resetArrays_frame _)
    exact Frame.refl _
  · refine Frame.step ?_ (State.applyHeld_frame _)
    refine Frame.step ?_ (State.resetUnits_frame _)
    refine Frame.step ?_ (State.resetChannels_frame _)
    refine Frame.step ?_ (State.resetObjects_frame _)
    exact h0

theorem State.beginStep_frame (s : State) (replay : Bool) (late : Nat) :
    Frame ⟨abortParts ++ [Part.arrays, Part.rem], abortRegs ++ accessRegs ++ [Reg.CDC_HIST, Reg.LDG_CAIRN_STATUS, Reg.SCH_CHANNEL,
    Reg.SCH_REPLAY, Reg.SCH_SLIP_COUNT, Reg.SCH_STEP, Reg.SYN_EVENTS, Reg.SYN_LATE, Reg.SYN_OBJ_LAST, Reg.SYN_OBJ_LAST_TICK, Reg.SYN_STRAY,
    Reg.UPD_COUNTS, Reg.UPD_EVENTS, Reg.UPD_LOSS, Reg.UPD_UNUM, Reg.VSC_VREG], false⟩ s (State.beginStep s replay late) := by
  unfold State.beginStep
  (extract_lets +onlyGivenNames t0; refine Frame.via (t := t0) ?_ fun h0 => ?_; rotate_left; clear_value t0; rotate_left)
  · unfold t0
    refine Frame.step ?_ (State.onSched_frame _ _)
    exact Frame.refl _
  · (extract_lets +onlyGivenNames t1; refine Frame.via (t := t1) ?_ fun h1 => ?_; rotate_left; clear_value t1; rotate_left)
    · unfold t1
      refine Frame.step ?_ (State.readLedger_frame _)
      exact h0
    · (extract_lets +onlyGivenNames t2; refine Frame.via (t := t2) ?_ fun h2 => ?_; rotate_left; clear_value t2; rotate_left)
      · unfold t2
        refine Frame.ite ?_ ?_
        · exact h1
        · refine Frame.step ?_ (State.writeCairn_frame _)
          exact h1
      · refine Frame.step ?_ (State.startDue_frame _ _)
        refine Frame.step ?_ (State.stepResets_frame _)
        exact h2

theorem State.armRun_frame (s : State) (restored : Bool) :
    Frame ⟨[.sched], [.SCH_CTRL, .SCH_REPLAY], false⟩ s (State.armRun s restored) := by
  unfold State.armRun
  (extract_lets +onlyGivenNames t0; refine Frame.via (t := t0) ?_ fun h0 => ?_; rotate_left; clear_value t0; rotate_left)
  · unfold t0
    refine Frame.step ?_ (State.onSched_frame _ _)
    exact Frame.refl _
  · refine Frame.step ?_ (State.setSched_frame _ _)
    refine Frame.trans ?_ (State.put_frame (h := ?_) _ _ _ _ _)
    · refine Frame.trans ?_ (State.put_frame (h := ?_) _ _ _ _ _)
      · exact h0
      · decide +kernel
    · decide +kernel

theorem State.restoringRun_frame (s : State) :
    Frame ⟨abortParts ++ [Part.arrays, Part.rem], abortRegs ++ accessRegs ++ [Reg.CDC_HIST, Reg.FLT_RECOVERY, Reg.LDG_CAIRN_STATUS,
    Reg.SCH_CHANNEL, Reg.SCH_IMAGE_BASE, Reg.SCH_IMAGE_ERROR, Reg.SCH_REPLAY, Reg.SCH_SLIP_COUNT, Reg.SCH_STEP, Reg.SYN_EVENTS, Reg.SYN_LATE,
    Reg.SYN_OBJ_LAST, Reg.SYN_OBJ_LAST_TICK, Reg.SYN_STRAY, Reg.UPD_COUNTS, Reg.UPD_EVENTS, Reg.UPD_LOSS, Reg.UPD_UNUM, Reg.VSC_VREG,
    Reg.VSE_GEN_STATE], false⟩ s (State.restoringRun s) := by
  unfold State.restoringRun
  extract_lets +onlyGivenNames t0
  split
  · refine Frame.step ?_ (State.refuseReplay_frame _ _)
    exact Frame.refl _
  · (extract_lets +onlyGivenNames t1; refine Frame.via (t := t1) ?_ fun h1 => ?_; rotate_left; clear_value t1; rotate_left)
    · unfold t1
      refine Frame.trans ?_ (State.put_frame (h := ?_) _ _ _ _ _)
      · refine Frame.step ?_ (State.takeUp_frame _)
        refine Frame.step ?_ (State.restoreCairn_frame _ _)
        exact Frame.refl _
      · decide +kernel
    · refine Frame.ite ?_ ?_
      · exact Frame.refl _
      · refine Frame.ite ?_ ?_
        · refine Frame.trans ?_ (State.flag_frame (h := ?_) _ _ _ _)
          · exact Frame.refl _
          · decide +kernel
        · refine Frame.step ?_ (State.beginStep_frame _ _ _)
          refine Frame.step ?_ (State.armRun_frame _ _)
          exact h1

theorem State.runSchedule_frame (s : State) :
    Frame ⟨abortParts ++ [Part.arrays, Part.rem], abortRegs ++ accessRegs ++ [Reg.CDC_HIST, Reg.FLT_RECOVERY, Reg.LDG_CAIRN_STATUS,
    Reg.SCH_CHANNEL, Reg.SCH_IMAGE_BASE, Reg.SCH_IMAGE_ERROR, Reg.SCH_REPLAY, Reg.SCH_SLIP_COUNT, Reg.SCH_STEP, Reg.SYN_EVENTS, Reg.SYN_LATE,
    Reg.SYN_OBJ_LAST, Reg.SYN_OBJ_LAST_TICK, Reg.SYN_STRAY, Reg.UPD_COUNTS, Reg.UPD_EVENTS, Reg.UPD_LOSS, Reg.UPD_UNUM, Reg.VSC_VREG,
    Reg.VSE_GEN_STATE], false⟩ s (State.runSchedule s) := by
  unfold State.runSchedule
  refine Frame.ite ?_ ?_
  · refine Frame.step ?_ (State.onSched_frame _ _)
    exact Frame.refl _
  · refine Frame.ite ?_ ?_
    · exact Frame.refl _
    · refine Frame.ite ?_ ?_
      · refine Frame.step ?_ (State.restoringRun_frame _)
        exact Frame.refl _
      · (extract_lets +onlyGivenNames t0; refine Frame.via (t := t0) ?_ fun h0 => ?_; rotate_left; clear_value t0; rotate_left)
        · unfold t0
          refine Frame.step ?_ (State.takeUp_frame _)
          exact Frame.refl _
        · refine Frame.ite ?_ ?_
          · refine Frame.trans ?_ (State.flag_frame (h := ?_) _ _ _ _)
            · exact Frame.refl _
            · decide +kernel
          · refine Frame.ite ?_ ?_
            · exact h0
            · refine Frame.step ?_ (State.armRun_frame _ _)
              exact h0

theorem State.replayAt_frame (s : State) (t : Nat) :
    Frame ⟨abortParts ++ [Part.arrays, Part.rem], abortRegs ++ accessRegs ++ [Reg.CDC_HIST, Reg.FLT_RECOVERY, Reg.LDG_CAIRN_STATUS,
    Reg.SCH_BASE_TICK, Reg.SCH_CHANNEL, Reg.SCH_IMAGE_BASE, Reg.SCH_IMAGE_ERROR, Reg.SCH_REPLAY, Reg.SCH_SLIP_COUNT, Reg.SCH_STEP, Reg.SYN_EVENTS,
    Reg.SYN_LATE, Reg.SYN_OBJ_LAST, Reg.SYN_OBJ_LAST_TICK, Reg.SYN_STRAY, Reg.UPD_COUNTS, Reg.UPD_EVENTS, Reg.UPD_LOSS, Reg.UPD_UNUM, Reg.VSC_VREG,
    Reg.VSE_GEN_STATE], false⟩ s (State.replayAt s t) := by
  unfold State.replayAt
  extract_lets +onlyGivenNames t0
  split
  · refine Frame.step ?_ (State.haltModule_frame _ _ _)
    exact Frame.refl _
  · (extract_lets +onlyGivenNames t1; refine Frame.via (t := t1) ?_ fun h1 => ?_; rotate_left; clear_value t1; rotate_left)
    · unfold t1
      refine Frame.step ?_ (State.takeUp_frame _)
      refine Frame.step ?_ (State.restoreCairn_frame _ _)
      exact Frame.refl _
    · extract_lets +onlyGivenNames t2
      (extract_lets +onlyGivenNames t3; refine Frame.via (t := t3) ?_ fun h3 => ?_; rotate_left; clear_value t3; rotate_left)
      · unfold t3
        refine Frame.trans ?_ (State.put_frame (h := ?_) _ _ _ _ _)
        · refine Frame.trans ?_ (State.put_frame (h := ?_) _ _ _ _ _)
          · exact h1
          · decide +kernel
        · decide +kernel
      · (extract_lets +onlyGivenNames t4; refine Frame.via (t := t4) ?_ fun h4 => ?_; rotate_left; clear_value t4; rotate_left)
        · unfold t4
          refine Frame.step ?_ (State.onSched_frame _ _)
          exact h3
        · refine Frame.step ?_ (State.beginStep_frame _ _ _)
          refine Frame.step ?_ (State.setSched_frame _ _)
          exact h4

theorem State.passNop_frame (s : State) (u : Nat) :
    Frame ⟨abortParts, abortRegs ++ readRegs ++ [Reg.SCH_REPLAY, Reg.SCH_SLIP_COUNT, Reg.SCH_STEP, Reg.UPD_COUNTS, Reg.UPD_EVENTS,
    Reg.UPD_LOSS, Reg.UPD_UNUM], false⟩ s (State.passNop s u) := by
  unfold State.passNop
  split
  · exact Frame.refl _
  · extract_lets +onlyGivenNames t0
    refine Frame.ite ?_ ?_
    · exact Frame.refl _
    · refine Frame.step ?_ (State.goOn_frame _ _ _)
      refine Frame.step ?_ (State.passEntry_frame _ _ _)
      exact Frame.refl _

theorem State.dropOp_frame (s : State) (u : Nat) (k : Nat) :
    Frame ⟨[.sched], [], false⟩ s (State.dropOp s u k) := by
  unfold State.dropOp
  refine Frame.step ?_ (State.onUnit_frame _ _ _)
  exact Frame.refl _

theorem State.stopSchedule_frame (s : State) :
    Frame ⟨[.sched], [], false⟩ s (State.stopSchedule s) := by
  unfold State.stopSchedule
  refine Frame.ite ?_ ?_
  · refine Frame.step ?_ (State.onSched_frame _ _)
    exact Frame.refl _
  · exact Frame.refl _

theorem State.takeCredits_frame (s : State) (outs : List Nat) :
    Frame ⟨[], [.SCH_CHANNEL], false⟩ s (State.takeCredits s outs) := by
  unfold State.takeCredits
  refine Frame.foldl fun t0 x0 => ?_
  refine Frame.trans ?_ (State.put_frame (h := ?_) _ _ _ _ _)
  · exact Frame.refl _
  · decide +kernel

theorem State.beginOp_frame (s : State) (u : Nat) (o : Op) (ext : Nat) (credits : List Nat) :
    Frame ⟨recordParts, recordRegs ++ errorRegs ++ [Reg.SCH_CHANNEL], false⟩ s (State.beginOp s u o ext credits) := by
  unfold State.beginOp
  extract_lets +onlyGivenNames t0
  (extract_lets +onlyGivenNames t1; refine Frame.via (t := t1) ?_ fun h1 => ?_; rotate_left; clear_value t1; rotate_left)
  · unfold t1
    refine Frame.step ?_ (State.onUnit_frame _ _ _)
    refine Frame.step ?_ (State.takeCredits_frame _ _)
    exact Frame.refl _
  · refine Frame.ite ?_ ?_
    · exact h1
    · refine Frame.trans ?_ (State.failOp_frame (g0 := ?_) _ _ _ _ _ _)
      · exact h1
      · intro t2
        dsimp only [id]
        exact Frame.refl _

theorem State.enterHalted_frame (s : State) :
    Frame ⟨[.sched], [.SCH_CTRL], false⟩ s (State.enterHalted s) := by
  unfold State.enterHalted
  refine Frame.ite ?_ ?_
  · refine Frame.step ?_ (State.setSched_frame _ _)
    refine Frame.step ?_ (State.onSched_frame _ _)
    exact Frame.refl _
  · exact Frame.refl _

theorem State.startReplay_frame (s : State) :
    Frame ⟨abortParts ++ [Part.arrays, Part.rem], abortRegs ++ accessRegs ++ [Reg.CDC_HIST, Reg.FLT_RECOVERY, Reg.LDG_CAIRN_STATUS,
    Reg.SCH_BASE_TICK, Reg.SCH_CHANNEL, Reg.SCH_IMAGE_BASE, Reg.SCH_IMAGE_ERROR, Reg.SCH_REPLAY, Reg.SCH_SLIP_COUNT, Reg.SCH_STEP, Reg.SYN_EVENTS,
    Reg.SYN_LATE, Reg.SYN_OBJ_LAST, Reg.SYN_OBJ_LAST_TICK, Reg.SYN_STRAY, Reg.UPD_COUNTS, Reg.UPD_EVENTS, Reg.UPD_LOSS, Reg.UPD_UNUM, Reg.VSC_VREG,
    Reg.VSE_GEN_STATE], false⟩ s (State.startReplay s) := by
  unfold State.startReplay
  split
  · exact Frame.refl _
  · refine Frame.ite ?_ ?_
    · exact Frame.refl _
    · refine Frame.ite ?_ ?_
      · refine Frame.step ?_ (State.replayAt_frame _ _)
        exact Frame.refl _
      · refine Frame.step ?_ (State.haltModule_frame _ _ _)
        refine Frame.step ?_ (State.onSched_frame _ _)
        exact Frame.refl _

theorem State.startRedo_frame (s : State) (u : Nat) (t : Stream) :
    Frame.Opt ⟨recordParts, recordRegs ++ errorRegs ++ [Reg.SCH_CHANNEL], false⟩ s (State.startRedo s u t) := by
  unfold State.startRedo
  split
  · exact Frame.Opt.none
  · extract_lets +onlyGivenNames t0
    (extract_lets +onlyGivenNames t1; refine Frame.Opt.via (t := t1) ?_ fun h1 => ?_; rotate_left; clear_value t1; rotate_left)
    · unfold t1
      refine Frame.step ?_ (State.onUnit_frame _ _ _)
      exact Frame.refl _
    · extract_lets +onlyGivenNames t2
      extract_lets +onlyGivenNames t3
      refine Frame.Opt.some ?_
      refine Frame.step ?_ (State.beginOp_frame _ _ _ _ _)
      exact h1

theorem State.awaitReplay_frame (s : State) :
    Frame ⟨[.sched], [.FLT_RECOVERY, .SCH_CTRL, .SCH_EVENTS], false⟩ s (State.awaitReplay s) := by
  unfold State.awaitReplay
  refine Frame.ite ?_ ?_
  · exact Frame.refl _
  · refine Frame.ite ?_ ?_
    · refine Frame.step ?_ (State.setSched_frame _ _)
      refine Frame.step ?_ (State.recordHalt_frame _ _ _)
      refine Frame.trans ?_ (State.flag_frame (h := ?_) _ _ _ _)
      · exact Frame.refl _
      · decide +kernel
    · refine Frame.step ?_ (State.setSched_frame _ _)
      exact Frame.refl _

theorem State.discardItem_frame (s : State) (u : Nat) (i : Item) :
    Frame ⟨[.sched], [.SCH_CHANNEL, .SCH_MIRAGE_DISCARDS], false⟩ s (State.discardItem s u i) := by
  unfold State.discardItem
  (extract_lets +onlyGivenNames t0; refine Frame.via (t := t0) ?_ fun h0 => ?_; rotate_left; clear_value t0; rotate_left)
  · unfold t0
    refine Frame.trans ?_ (State.put_frame (h := ?_) _ _ _ _ _)
    · exact Frame.refl _
    · decide +kernel
  · (extract_lets +onlyGivenNames t1; refine Frame.via (t := t1) ?_ fun h1 => ?_; rotate_left; clear_value t1; rotate_left)
    · unfold t1
      refine Frame.trans ?_ (State.bump_frame (h := ?_) _ _ _ _ _)
      · refine Frame.step ?_ (State.onSched_frame _ _)
        exact h0
      · decide +kernel
    · split
      · exact h1
      · refine Frame.step ?_ (State.onUnit_frame _ _ _)
        exact h1

theorem State.startNext_frame (s : State) (u : Nat) (t : Stream) :
    Frame.Opt ⟨abortParts, abortRegs ++ errorRegs ++ [Reg.SCH_CHANNEL, Reg.SCH_MIRAGE_DISCARDS], false⟩ s (State.startNext s u t)
    := by
  unfold State.startNext
  extract_lets +onlyGivenNames t0
  extract_lets +onlyGivenNames t1
  refine Frame.Opt.ite ?_ ?_
  · exact Frame.Opt.none
  · refine Frame.Opt.ite ?_ ?_
    · exact Frame.Opt.none
    · extract_lets +onlyGivenNames t2
      extract_lets +onlyGivenNames t3
      extract_lets +onlyGivenNames t4
      refine Frame.Opt.ite ?_ ?_
      · exact Frame.Opt.none
      · extract_lets +onlyGivenNames t5
        refine Frame.Opt.ite ?_ ?_
        · refine Frame.Opt.some ?_
          refine Frame.step ?_ (State.passEntry_frame _ _ _)
          refine Frame.step ?_ (State.beginOp_frame _ _ _ _ _)
          exact Frame.refl _
        · refine Frame.Opt.some ?_
          refine Frame.foldl fun t6 x6 => ?_
          refine Frame.step ?_ (State.discardItem_frame _ _ _)
          exact Frame.refl _

theorem State.startAhead_frame (s : State) (u : Nat) (t : Stream) :
    Frame.Opt ⟨recordParts, recordRegs ++ errorRegs ++ [Reg.SCH_CHANNEL], false⟩ s (State.startAhead s u t) := by
  unfold State.startAhead
  extract_lets +onlyGivenNames t0
  refine Frame.Opt.ite ?_ ?_
  · exact Frame.Opt.none
  · split
    · exact Frame.Opt.none
    · (extract_lets +onlyGivenNames t1; refine Frame.Opt.via (t := t1) ?_ fun h1 => ?_; rotate_left; clear_value t1; rotate_left)
      · unfold t1
        refine Frame.step ?_ (State.beginOp_frame _ _ _ _ _)
        exact Frame.refl _
      · refine Frame.Opt.some ?_
        refine Frame.step ?_ (State.onUnit_frame _ _ _)
        exact h1

theorem State.startOperation_frame (s : State) (u : Nat) :
    Frame ⟨abortParts, abortRegs ++ errorRegs ++ [Reg.SCH_CHANNEL, Reg.SCH_MIRAGE_DISCARDS], false⟩ s (State.startOperation s u)
    := by
  unfold State.startOperation
  split
  · exact Frame.refl _
  · refine Frame.ite ?_ ?_
    · exact Frame.refl _
    · refine Frame.getD ?_ ?_
      · refine Frame.Opt.orElse ?_ fun _ => ?_
        · refine Frame.Opt.step ?_ (State.startRedo_frame _ _ _)
          exact Frame.refl _
        · refine Frame.Opt.orElse ?_ fun _ => ?_
          · refine Frame.Opt.step ?_ (State.startNext_frame _ _ _)
            exact Frame.refl _
          · refine Frame.Opt.step ?_ (State.startAhead_frame _ _ _)
            exact Frame.refl _
      · exact Frame.refl _

theorem State.postOp_frame (s : State) (u : Nat) (o : Op) :
    Frame ⟨[.sched], [.SCH_CHANNEL], false⟩ s (State.postOp s u o) := by
  unfold State.postOp
  extract_lets +onlyGivenNames t0
  refine Frame.ite ?_ ?_
  · refine Frame.step ?_ (State.onSched_frame _ _)
    exact Frame.refl _
  · (extract_lets +onlyGivenNames t1; refine Frame.via (t := t1) ?_ fun h1 => ?_; rotate_left; clear_value t1; rotate_left)
    · unfold t1
      refine Frame.foldl fun t2 x2 => ?_
      (extract_lets +onlyGivenNames t3; refine Frame.via (t := t3) ?_ fun h3 => ?_; rotate_left; clear_value t3; rotate_left)
      · unfold t3
        refine Frame.trans ?_ (State.put_frame (h := ?_) _ _ _ _ _)
        · exact Frame.refl _
        · decide +kernel
      · refine Frame.step ?_ (State.onSched_frame _ _)
        exact h3
    · (extract_lets +onlyGivenNames t4; refine Frame.via (t := t4) ?_ fun h4 => ?_; rotate_left; clear_value t4; rotate_left)
      · unfold t4
        refine Frame.trans ?_ (Frame.foldl fun t5 x5 => ?_)
        · exact h1
        · refine Frame.step ?_ (State.postToken_frame _ _ _ _)
          exact Frame.refl _
      · refine Frame.step ?_ (State.onUnit_frame _ _ _)
        exact h4

theorem State.traceOp_frame (s : State) (u : Nat) (o : Op) (error : Bool) :
    Frame ⟨storeParts ++ [Part.ldg], ledgerRegs, false⟩ s (State.traceOp s u o error) := by
  unfold State.traceOp
  refine Frame.ite ?_ ?_
  · refine Frame.step ?_ (State.took_frame _ _)
    refine Frame.step ?_ (State.ledger_frame _ _)
    exact Frame.refl _
  · exact Frame.refl _

theorem State.completeOp_frame (s : State) (u : Nat) (k : Nat) :
    Frame ⟨abortParts, abortRegs ++ readRegs ++ [Reg.SCH_CHANNEL, Reg.SCH_REPLAY, Reg.SCH_SLIP_COUNT, Reg.SCH_STEP, Reg.UPD_COUNTS,
    Reg.UPD_EVENTS, Reg.UPD_LOSS, Reg.UPD_UNUM], false⟩ s (State.completeOp s u k) := by
  unfold State.completeOp
  split
  · exact Frame.refl _
  · split
    · (extract_lets +onlyGivenNames t0; refine Frame.via (t := t0) ?_ fun h0 => ?_; rotate_left; clear_value t0; rotate_left)
      · unfold t0
        refine Frame.step ?_ (State.dropOp_frame _ _ _)
        refine Frame.step ?_ (State.traceOp_frame _ _ _ _)
        exact Frame.refl _
      · refine Frame.ite ?_ ?_
        · exact h0
        · refine Frame.step ?_ (State.goOn_frame _ _ _)
          refine Frame.step ?_ (State.postOp_frame _ _ _)
          exact h0
    · refine Frame.step ?_ (State.raiseBreak_frame _ _ _ _ _)
      refine Frame.step ?_ (State.dropOp_frame _ _ _)
      refine Frame.step ?_ (State.traceOp_frame _ _ _ _)
      exact Frame.refl _
    · refine Frame.step ?_ (State.dropOp_frame _ _ _)
      refine Frame.step ?_ (State.traceOp_frame _ _ _ _)
      exact Frame.refl _
    · exact Frame.refl _

theorem State.takeMesh_frame (s : State) (c : Nat) (token : Bool) :
    Frame.OptSnd ⟨[.sched], [], false⟩ s (State.takeMesh s c token) := by
  unfold State.takeMesh
  split
  · exact Frame.OptSnd.none
  · refine Frame.OptSnd.some ?_
    refine Frame.step ?_ (State.onSched_frame _ _)
    exact Frame.refl _

theorem State.tokenArrives_frame (s : State) (c : Nat) :
    Frame ⟨[.sched], [.SCH_CHANNEL], false⟩ s (State.tokenArrives s c) := by
  unfold State.tokenArrives
  split
  · exact Frame.refl _
  · (extract_lets +onlyGivenNames t0; refine Frame.via (t := t0) ?_ fun h0 => ?_; rotate_left; clear_value t0; rotate_left)
    · unfold t0
      refine Frame.trans ?_ (State.put_frame (h := ?_) _ _ _ _ _)
      · refine Frame.optSnd (by assumption) ?_
        refine Frame.OptSnd.step ?_ (State.takeMesh_frame _ _ _)
        exact Frame.refl _
      · decide +kernel
    · split
      · exact h0
      · refine Frame.step ?_ (State.onSched_frame _ _)
        exact h0

theorem State.creditArrives_frame (s : State) (c : Nat) :
    Frame ⟨[.sched], [.SCH_CHANNEL], false⟩ s (State.creditArrives s c) := by
  unfold State.creditArrives
  split
  · exact Frame.refl _
  · refine Frame.trans ?_ (State.put_frame (h := ?_) _ _ _ _ _)
    · refine Frame.optSnd (by assumption) ?_
      refine Frame.OptSnd.step ?_ (State.takeMesh_frame _ _ _)
      exact Frame.refl _
    · decide +kernel

theorem State.startStep_frame (s : State) :
    Frame ⟨abortParts ++ [Part.arrays, Part.rem], abortRegs ++ accessRegs ++ [Reg.CDC_HIST, Reg.LDG_CAIRN_STATUS, Reg.SCH_CHANNEL,
    Reg.SCH_IMAGE_ERROR, Reg.SCH_REPLAY, Reg.SCH_SLIP_COUNT, Reg.SCH_STEP, Reg.SYN_EVENTS, Reg.SYN_LATE, Reg.SYN_OBJ_LAST, Reg.SYN_OBJ_LAST_TICK,
    Reg.SYN_STRAY, Reg.UPD_COUNTS, Reg.UPD_EVENTS, Reg.UPD_LOSS, Reg.UPD_UNUM, Reg.VSC_VREG], false⟩ s (State.startStep s) := by
  unfold State.startStep
  refine Frame.ite ?_ ?_
  · exact Frame.refl _
  · (extract_lets +onlyGivenNames t0; refine Frame.via (t := t0) ?_ fun h0 => ?_; rotate_left; clear_value t0; rotate_left)
    · unfold t0
      refine Frame.ite ?_ ?_
      · refine Frame.step ?_ (State.takeUp_frame _)
        exact Frame.refl _
      · exact Frame.refl _
    · refine Frame.ite ?_ ?_
      · refine Frame.step ?_ (State.abortStep_frame _)
        refine Frame.step ?_ (State.beginStep_frame _ _ _)
        refine Frame.step ?_ (State.onSched_frame _ _)
        exact h0
      · refine Frame.step ?_ (State.beginStep_frame _ _ _)
        refine Frame.step ?_ (State.onSched_frame _ _)
        exact h0

end Sys2Proof.Machine
end

