-- ==== Sys2Proof/Laws/FrameVlk.lean ====
section
/-! SUPPORT. The footprints of the functions of Machine/Vlk.lean. -/

namespace Sys2Proof.Machine

set_option Elab.async false

theorem State.onVlk_frame (s : State) (die : Nat) (inst : Nat) (f : VlkPort → VlkPort) :
    Frame ⟨[.vrt], [], false⟩ s (State.onVlk s die inst f) := by
  unfold State.onVlk
  refine Frame.step ?_ (State.onVrt_frame _ _)
  exact Frame.refl _

theorem State.discardHeld_frame (s : State) (die : Nat) (inst : Nat) :
    Frame ⟨recordParts, recordRegs ++ [Reg.VLK_EVENTS, Reg.VLK_REPLAY], false⟩ s (State.discardHeld s die inst) := by
  unfold State.discardHeld
  extract_lets +onlyGivenNames t0
  (extract_lets +onlyGivenNames t1; refine Frame.via (t := t1) ?_ fun h1 => ?_; rotate_left; clear_value t1; rotate_left)
  · unfold t1
    refine Frame.trans ?_ (State.flag_frame (h := ?_) _ _ _ _)
    · refine Frame.trans ?_ (State.bump_frame (h := ?_) _ _ _ _ _)
      · exact Frame.refl _
      · decide +kernel
    · decide +kernel
  · refine Frame.step ?_ (State.faultOf_frame _ _ _ _)
    refine Frame.step ?_ (State.onVlk_frame _ _ _ _)
    exact h1

theorem State.leaveUp_frame (s : State) (die : Nat) (inst : Nat) :
    Frame ⟨recordParts, recordRegs ++ [Reg.VLK_EVENTS, Reg.VLK_STATUS], false⟩ s (State.leaveUp s die inst) := by
  unfold State.leaveUp
  refine Frame.ite ?_ ?_
  · (extract_lets +onlyGivenNames t0; refine Frame.via (t := t0) ?_ fun h0 => ?_; rotate_left; clear_value t0; rotate_left)
    · unfold t0
      refine Frame.trans ?_ (State.flag_frame (h := ?_) _ _ _ _)
      · refine Frame.trans ?_ (State.put_frame (h := ?_) _ _ _ _ _)
        · exact Frame.refl _
        · decide +kernel
      · decide +kernel
    · refine Frame.step ?_ (State.faultOf_frame _ _ _ _)
      refine Frame.step ?_ (State.onVlk_frame _ _ _ _)
      exact h0
  · exact Frame.refl _

theorem State.countFec_frame (s : State) (die : Nat) (inst : Nat) (corrected : Nat) (ue : Nat) :
    Frame ⟨recordParts, recordRegs ++ [Reg.VLK_EVENTS, Reg.VLK_FEC, Reg.VLK_STATUS], false⟩ s (State.countFec s die inst corrected
    ue) := by
  unfold State.countFec
  (extract_lets +onlyGivenNames t0; refine Frame.via (t := t0) ?_ fun h0 => ?_; rotate_left; clear_value t0; rotate_left)
  · unfold t0
    refine Frame.trans ?_ (State.bump_frame (h := ?_) _ _ _ _ _)
    · refine Frame.trans ?_ (State.bump_frame (h := ?_) _ _ _ _ _)
      · exact Frame.refl _
      · decide +kernel
    · decide +kernel
  · refine Frame.ite ?_ ?_
    · exact h0
    · (extract_lets +onlyGivenNames t1; refine Frame.via (t := t1) ?_ fun h1 => ?_; rotate_left; clear_value t1; rotate_left)
      · unfold t1
        refine Frame.step ?_ (State.onVlk_frame _ _ _ _)
        refine Frame.trans ?_ (State.flag_frame (h := ?_) _ _ _ _)
        · exact h0
        · decide +kernel
      · refine Frame.ite ?_ ?_
        · refine Frame.step ?_ (State.leaveUp_frame _ _ _)
          exact h1
        · exact h1

theorem State.sendIdle_frame (s : State) (die : Nat) (inst : Nat) (nak : Bool) (ctc : Nat) (cvc : Nat) (ccount : Nat) :
    Frame ⟨[.out], [], false⟩ s (State.sendIdle s die inst nak ctc cvc ccount) := by
  unfold State.sendIdle
  extract_lets +onlyGivenNames t0
  refine Frame.step ?_ (State.emit_frame _ _)
  exact Frame.refl _

theorem State.reject_frame (s : State) (die : Nat) (inst : Nat) (again : Bool) :
    Frame ⟨[.out, .vrt], [], false⟩ s (State.reject s die inst again) := by
  unfold State.reject
  refine Frame.ite ?_ ?_
  · exact Frame.refl _
  · refine Frame.step ?_ (State.sendIdle_frame _ _ _ _ _ _ _)
    refine Frame.step ?_ (State.onVlk_frame _ _ _ _)
    exact Frame.refl _

theorem State.portCredits_frame (s : State) (die : Nat) (inst : Nat) (f : Flit) :
    Frame ⟨[.vrt], [], false⟩ s (State.portCredits s die inst f) := by
  unfold State.portCredits
  refine Frame.ite ?_ ?_
  · exact Frame.refl _
  · extract_lets +onlyGivenNames t0
    extract_lets +onlyGivenNames t1
    refine Frame.step ?_ (State.onVlk_frame _ _ _ _)
    exact Frame.refl _

theorem State.takeAck_frame (s : State) (die : Nat) (inst : Nat) (ack : Nat) :
    Frame ⟨[.vrt], [], false⟩ s (State.takeAck s die inst ack) := by
  unfold State.takeAck
  split
  · exact Frame.refl _
  · refine Frame.step ?_ (State.onVlk_frame _ _ _ _)
    exact Frame.refl _

theorem State.resend_frame (s : State) (die : Nat) (inst : Nat) :
    Frame ⟨[.out], [.VLK_TX_FLITS], false⟩ s (State.resend s die inst) := by
  unfold State.resend
  refine Frame.foldl fun t0 x0 => ?_
  refine Frame.step ?_ (State.emit_frame _ _)
  refine Frame.trans ?_ (State.bump_frame (h := ?_) _ _ _ _ _)
  · exact Frame.refl _
  · decide +kernel

theorem State.takeNak_frame (s : State) (die : Nat) (inst : Nat) :
    Frame ⟨recordParts ++ [Part.out], recordRegs ++ [Reg.VLK_EVENTS, Reg.VLK_REPLAY, Reg.VLK_STATUS, Reg.VLK_TX_FLITS], false⟩ s
    (State.takeNak s die inst) := by
  unfold State.takeNak
  split
  · exact Frame.refl _
  · (extract_lets +onlyGivenNames t0; refine Frame.via (t := t0) ?_ fun h0 => ?_; rotate_left; clear_value t0; rotate_left)
    · unfold t0
      refine Frame.trans ?_ (State.flag_frame (h := ?_) _ _ _ _)
      · refine Frame.trans ?_ (State.bump_frame (h := ?_) _ _ _ _ _)
        · exact Frame.refl _
        · decide +kernel
      · decide +kernel
    · (extract_lets +onlyGivenNames t1; refine Frame.via (t := t1) ?_ fun h1 => ?_; rotate_left; clear_value t1; rotate_left)
      · unfold t1
        refine Frame.step ?_ (State.onVlk_frame _ _ _ _)
        exact h0
      · refine Frame.ite ?_ ?_
        · refine Frame.step ?_ (State.leaveUp_frame _ _ _)
          exact h1
        · refine Frame.step ?_ (State.resend_frame _ _ _)
          exact h1

theorem State.sendFlit_frame (s : State) (die : Nat) (inst : Nat) (f : Flit) :
    Frame ⟨[.out, .vrt], [.VLK_TX_FLITS], false⟩ s (State.sendFlit s die inst f) := by
  unfold State.sendFlit
  extract_lets +onlyGivenNames t0
  extract_lets +onlyGivenNames t1
  extract_lets +onlyGivenNames t2
  extract_lets +onlyGivenNames t3
  extract_lets +onlyGivenNames t4
  (extract_lets +onlyGivenNames t5; refine Frame.via (t := t5) ?_ fun h5 => ?_; rotate_left; clear_value t5; rotate_left)
  · unfold t5
    refine Frame.step ?_ (State.onVlk_frame _ _ _ _)
    exact Frame.refl _
  · refine Frame.step ?_ (State.emit_frame _ _)
    refine Frame.trans ?_ (State.bump_frame (h := ?_) _ _ _ _ _)
    · exact h5
    · decide +kernel

theorem State.sendTag_frame (s : State) (die : Nat) (inst : Nat) :
    Frame ⟨[.out, .vrt], [.VLK_TX_FLITS], false⟩ s (State.sendTag s die inst) := by
  unfold State.sendTag
  extract_lets +onlyGivenNames t0
  extract_lets +onlyGivenNames t1
  extract_lets +onlyGivenNames t2
  (extract_lets +onlyGivenNames t3; refine Frame.via (t := t3) ?_ fun h3 => ?_; rotate_left; clear_value t3; rotate_left)
  · unfold t3
    refine Frame.step ?_ (State.sendFlit_frame _ _ _ _)
    exact Frame.refl _
  · refine Frame.step ?_ (State.onVlk_frame _ _ _ _)
    exact h3

theorem State.sendNext_frame (s : State) (die : Nat) (inst : Nat) :
    Frame.Opt ⟨[.out, .vrt], [.VLK_TX_FLITS], false⟩ s (State.sendNext s die inst) := by
  unfold State.sendNext
  extract_lets +onlyGivenNames t0
  refine Frame.Opt.ite ?_ ?_
  · exact Frame.Opt.none
  · refine Frame.Opt.ite ?_ ?_
    · refine Frame.Opt.some ?_
      refine Frame.step ?_ (State.sendTag_frame _ _ _)
      exact Frame.refl _
    · split
      · exact Frame.Opt.none
      · extract_lets +onlyGivenNames t1
        extract_lets +onlyGivenNames t2
        (extract_lets +onlyGivenNames t3; refine Frame.Opt.via (t := t3) ?_ fun h3 => ?_; rotate_left; clear_value t3; rotate_left)
        · unfold t3
          refine Frame.step ?_ (State.onVlk_frame _ _ _ _)
          exact Frame.refl _
        · refine Frame.Opt.some ?_
          refine Frame.step ?_ (State.sendFlit_frame _ _ _ _)
          exact h3

theorem State.drainPort_frame (n1 : Nat) (s : State) (die : Nat) (inst : Nat) :
    Frame ⟨[.out, .vrt], [.VLK_TX_FLITS], false⟩ s (State.drainPort n1 s die inst) := by
  induction n1 generalizing s with
  | zero =>
    unfold State.drainPort
    exact Frame.refl _
  | succ n1 ih =>
    unfold State.drainPort
    split
    · exact Frame.refl _
    · refine Frame.trans ?_ (ih _)
      refine Frame.opt (by assumption) ?_
      refine Frame.Opt.step ?_ (State.sendNext_frame _ _ _)
      exact Frame.refl _

theorem State.drain_frame (s : State) (die : Nat) (inst : Nat) :
    Frame ⟨[.out, .vrt], [.VLK_TX_FLITS], false⟩ s (State.drain s die inst) := by
  unfold State.drain
  extract_lets +onlyGivenNames t0
  refine Frame.step ?_ (State.drainPort_frame _ _ _ _)
  exact Frame.refl _

theorem State.takeTag_frame (s : State) (die : Nat) (inst : Nat) (f : Flit) :
    Frame ⟨[.out, .vrt], [.VLK_EVENTS], false⟩ s (State.takeTag s die inst f) := by
  unfold State.takeTag
  extract_lets +onlyGivenNames t0
  extract_lets +onlyGivenNames t1
  extract_lets +onlyGivenNames t2
  extract_lets +onlyGivenNames t3
  extract_lets +onlyGivenNames t4
  refine Frame.ite ?_ ?_
  · extract_lets +onlyGivenNames t5
    refine Frame.step ?_ (State.onVlk_frame _ _ _ _)
    exact Frame.refl _
  · (extract_lets +onlyGivenNames t6; refine Frame.via (t := t6) ?_ fun h6 => ?_; rotate_left; clear_value t6; rotate_left)
    · unfold t6
      refine Frame.trans ?_ (State.flag_frame (h := ?_) _ _ _ _)
      · exact Frame.refl _
      · decide +kernel
    · refine Frame.step ?_ (State.reject_frame _ _ _ _)
      refine Frame.step ?_ (State.onVlk_frame _ _ _ _)
      exact h6

theorem State.acceptFlit_frame (s : State) (die : Nat) (inst : Nat) (b : Bytes) :
    Frame ⟨[.out, .vrt], [.VLK_EVENTS, .VLK_RX_FLITS], false⟩ s (State.acceptFlit s die inst b) := by
  unfold State.acceptFlit
  extract_lets +onlyGivenNames t0
  (extract_lets +onlyGivenNames t1; refine Frame.via (t := t1) ?_ fun h1 => ?_; rotate_left; clear_value t1; rotate_left)
  · unfold t1
    refine Frame.trans ?_ (State.bump_frame (h := ?_) _ _ _ _ _)
    · exact Frame.refl _
    · decide +kernel
  · refine Frame.ite ?_ ?_
    · refine Frame.step ?_ (State.takeTag_frame _ _ _ _)
      exact h1
    · extract_lets +onlyGivenNames t2
      refine Frame.step ?_ (State.onVlk_frame _ _ _ _)
      exact h1

theorem State.receiveFlit_frame (s : State) (die : Nat) (inst : Nat) (b : Bytes) (corrected : Nat) (ue : Nat) :
    Frame ⟨recordParts ++ [Part.out], recordRegs ++ [Reg.VLK_EVENTS, Reg.VLK_FEC, Reg.VLK_REPLAY, Reg.VLK_RX_FLITS, Reg.VLK_STATUS,
    Reg.VLK_TX_FLITS], false⟩ s (State.receiveFlit s die inst b corrected ue) := by
  unfold State.receiveFlit
  refine Frame.ite ?_ ?_
  · exact Frame.refl _
  · (extract_lets +onlyGivenNames t0; refine Frame.via (t := t0) ?_ fun h0 => ?_; rotate_left; clear_value t0; rotate_left)
    · unfold t0
      refine Frame.step ?_ (State.countFec_frame _ _ _ _ _)
      exact Frame.refl _
    · refine Frame.ite ?_ ?_
      · exact h0
      · refine Frame.ite ?_ ?_
        · refine Frame.step ?_ (State.reject_frame _ _ _ _)
          exact h0
        · extract_lets +onlyGivenNames t1
          (extract_lets +onlyGivenNames t2; refine Frame.via (t := t2) ?_ fun h2 => ?_; rotate_left; clear_value t2; rotate_left)
          · unfold t2
            refine Frame.step ?_ (State.portCredits_frame _ _ _ _)
            refine Frame.step ?_ (State.takeAck_frame _ _ _ _)
            exact h0
          · (extract_lets +onlyGivenNames t3; refine Frame.via (t := t3) ?_ fun h3 => ?_; rotate_left; clear_value t3; rotate_left)
            · unfold t3
              refine Frame.ite ?_ ?_
              · refine Frame.step ?_ (State.takeNak_frame _ _ _)
                exact h2
              · exact h2
            · refine Frame.ite ?_ ?_
              · exact h3
              · refine Frame.ite ?_ ?_
                · refine Frame.step ?_ (State.drain_frame _ _ _)
                  exact h3
                · refine Frame.ite ?_ ?_
                  · refine Frame.step ?_ (State.drain_frame _ _ _)
                    refine Frame.step ?_ (State.reject_frame _ _ _ _)
                    exact h3
                  · (extract_lets +onlyGivenNames t4; refine Frame.via (t := t4) ?_ fun h4 => ?_; rotate_left; clear_value t4; rotate_left)
                    · unfold t4
                      refine Frame.step ?_ (State.acceptFlit_frame _ _ _ _)
                      exact h3
                    · refine Frame.step ?_ (State.drain_frame _ _ _)
                      refine Frame.ite ?_ ?_
                      · exact h4
                      · refine Frame.step ?_ (State.sendIdle_frame _ _ _ _ _ _ _)
                        exact h4

theorem State.comeUp_frame (s : State) (die : Nat) (inst : Nat) (x : VlkFacts) :
    Frame ⟨recordParts ++ [Part.out], recordRegs ++ [Reg.VLK_EVENTS, Reg.VLK_REPLAY, Reg.VLK_STATUS, Reg.VLK_TX_FLITS], false⟩ s
    (State.comeUp s die inst x) := by
  unfold State.comeUp
  extract_lets +onlyGivenNames t0
  extract_lets +onlyGivenNames t1
  extract_lets +onlyGivenNames t2
  (extract_lets +onlyGivenNames t3; refine Frame.via (t := t3) ?_ fun h3 => ?_; rotate_left; clear_value t3; rotate_left)
  · unfold t3
    refine Frame.ite ?_ ?_
    · refine Frame.step ?_ (State.discardHeld_frame _ _ _)
      exact Frame.refl _
    · exact Frame.refl _
  · (extract_lets +onlyGivenNames t4; refine Frame.via (t := t4) ?_ fun h4 => ?_; rotate_left; clear_value t4; rotate_left)
    · unfold t4
      refine Frame.trans ?_ (State.put_frame (h := ?_) _ _ _ _ _)
      · exact h3
      · decide +kernel
    · extract_lets +onlyGivenNames t5
      extract_lets +onlyGivenNames t6
      (extract_lets +onlyGivenNames t7; refine Frame.via (t := t7) ?_ fun h7 => ?_; rotate_left; clear_value t7; rotate_left)
      · unfold t7
        refine Frame.step ?_ (State.onVlk_frame _ _ _ _)
        refine Frame.step ?_ (State.took_frame _ _)
        exact h4
      · refine Frame.ite ?_ ?_
        · refine Frame.step ?_ (State.drain_frame _ _ _)
          refine Frame.step ?_ (State.resend_frame _ _ _)
          refine Frame.step ?_ (State.takeAck_frame _ _ _ _)
          exact h7
        · exact h7

theorem State.trained_frame (s : State) (die : Nat) (inst : Nat) (x : VlkFacts) :
    Frame ⟨recordParts ++ [Part.out], recordRegs ++ [Reg.VLK_DELAY, Reg.VLK_EVENTS, Reg.VLK_REPLAY, Reg.VLK_STATUS, Reg.VLK_TX_FLITS], false⟩ s
    (State.trained s die inst x) := by
  unfold State.trained
  refine Frame.ite ?_ ?_
  · exact Frame.refl _
  · split
    · refine Frame.trans ?_ (State.put_frame (h := ?_) _ _ _ _ _)
      · exact Frame.refl _
      · decide +kernel
    · (extract_lets +onlyGivenNames t0; refine Frame.via (t := t0) ?_ fun h0 => ?_; rotate_left; clear_value t0; rotate_left)
      · unfold t0
        refine Frame.trans ?_ (State.put_frame (h := ?_) _ _ _ _ _)
        · exact Frame.refl _
        · decide +kernel
      · (extract_lets +onlyGivenNames t1; refine Frame.via (t := t1) ?_ fun h1 => ?_; rotate_left; clear_value t1; rotate_left)
        · unfold t1
          refine Frame.ite ?_ ?_
          · refine Frame.trans ?_ (State.flag_frame (h := ?_) _ _ _ _)
            · exact h0
            · decide +kernel
          · exact h0
        · (extract_lets +onlyGivenNames t2; refine Frame.via (t := t2) ?_ fun h2 => ?_; rotate_left; clear_value t2; rotate_left)
          · unfold t2
            refine Frame.trans ?_ (State.put_frame (h := ?_) _ _ _ _ _)
            · refine Frame.trans ?_ (State.put_frame (h := ?_) _ _ _ _ _)
              · exact h1
              · decide +kernel
            · decide +kernel
          · (extract_lets +onlyGivenNames t3; refine Frame.via (t := t3) ?_ fun h3 => ?_; rotate_left; clear_value t3; rotate_left)
            · unfold t3
              refine Frame.trans ?_ (State.put_frame (h := ?_) _ _ _ _ _)
              · refine Frame.trans ?_ (State.put_frame (h := ?_) _ _ _ _ _)
                · exact h2
                · decide +kernel
              · decide +kernel
            · (extract_lets +onlyGivenNames t4; refine Frame.via (t := t4) ?_ fun h4 => ?_; rotate_left; clear_value t4; rotate_left)
              · unfold t4
                refine Frame.trans ?_ (State.put_frame (h := ?_) _ _ _ _ _)
                · exact h3
                · decide +kernel
              · refine Frame.ite ?_ ?_
                · refine Frame.trans ?_ (State.flag_frame (h := ?_) _ _ _ _)
                  · refine Frame.trans ?_ (State.put_frame (h := ?_) _ _ _ _ _)
                    · exact h4
                    · decide +kernel
                  · decide +kernel
                · refine Frame.step ?_ (State.comeUp_frame _ _ _ _)
                  exact h4

theorem State.queuePacket_frame (s : State) (die : Nat) (inst : Nat) (p : Packet) :
    Frame ⟨[.out, .vrt], [.VLK_TX_FLITS], false⟩ s (State.queuePacket s die inst p) := by
  unfold State.queuePacket
  refine Frame.step ?_ (State.drain_frame _ _ _)
  refine Frame.step ?_ (State.onVlk_frame _ _ _ _)
  exact Frame.refl _

end Sys2Proof.Machine
end

