-- ==== Sys2Proof/Laws/FrameVemen.lean ====
section
/-! SUPPORT. The footprints of the functions of Machine/Vemen.lean. -/

namespace Sys2Proof.Machine

set_option Elab.async false

theorem entryRefusal_mem {s : State} {k : Packet} {e : Fld} (h : (s.entryRefusal k).2 = some e) : e.reg ∈ [Reg.HBC_EVENTS] := by
  unfold State.entryRefusal at h
  dsimp only at h
  split at h
  · cases h
  · cases h
  · split at h
    · cases h; decide
    · split at h
      · cases h; decide
      · cases h

theorem State.entryWrite_frame (s : State) (die : Nat) (bcast : Bool) (idx : Nat) (half : Nat) (v : Nat) :
    Frame ⟨[], [.VRT_BCAST, .VRT_EVENTS, .VRT_ROUTE], false⟩ s (State.entryWrite s die bcast idx half v) := by
  unfold State.entryWrite
  extract_lets +onlyGivenNames t0
  refine Frame.ite ?_ ?_
  · refine Frame.trans ?_ (State.flag_frame (h := ?_) _ _ _ _)
    · exact Frame.refl _
    · decide +kernel
  · refine Frame.trans ?_ (State.writeReg_frame (h0 := ?_) _ _ _ _ _ _ _ _)
    · exact Frame.refl _
    · split <;> decide +kernel

theorem State.leaveBuffer_frame (s : State) (die : Nat) (input : Nat) (k : Packet) :
    Frame ⟨[.out, .vrt], [], false⟩ s (State.leaveBuffer s die input k) := by
  unfold State.leaveBuffer
  extract_lets +onlyGivenNames t0
  extract_lets +onlyGivenNames t1
  refine Frame.ite ?_ ?_
  · refine Frame.step ?_ (State.sendIdle_frame _ _ _ _ _ _ _)
    refine Frame.step ?_ (State.onVlk_frame _ _ _ _)
    exact Frame.refl _
  · exact Frame.refl _

theorem State.enterRouter_frame (s : State) (die : Nat) (input : Nat) (k : Packet) :
    Frame ⟨[.out, .vrt], [], false⟩ s (State.enterRouter s die input k).1 := by
  show Frame.Fst _ _ _
  unfold State.enterRouter
  refine Frame.Fst.ite ?_ ?_
  · refine Frame.Fst.mk ?_
    refine Frame.step ?_ (State.leaveBuffer_frame _ _ _ _)
    exact Frame.refl _
  · refine Frame.Fst.ite ?_ ?_
    · refine Frame.Fst.mk ?_
      refine Frame.step ?_ (State.onVrt_frame _ _)
      exact Frame.refl _
    · refine Frame.Fst.mk ?_
      exact Frame.refl _

theorem State.setLeft_frame (s : State) (die : Nat) (left : Bool) :
    Frame ⟨[.vrt], [.SEC_START, .VRT_BANK], false⟩ s (State.setLeft s die left) := by
  unfold State.setLeft
  refine Frame.ite ?_ ?_
  · refine Frame.step ?_ (State.checkJoined_frame _)
    refine Frame.step ?_ (State.showRouting_frame _)
    refine Frame.step ?_ (State.onVrt_frame _ _)
    exact Frame.refl _
  · exact Frame.refl _

theorem State.leaveBy_frame (s : State) (die : Nat) (input : Nat) (k : Packet) (p : Nat) (vc : Nat) :
    Frame ⟨[.out, .vrt], [.VLK_TX_FLITS], false⟩ s (State.leaveBy s die input k p vc) := by
  unfold State.leaveBy
  refine Frame.ite ?_ ?_
  · refine Frame.step ?_ (State.queuePacket_frame _ _ _ _)
    exact Frame.refl _
  · extract_lets +onlyGivenNames t0
    refine Frame.step ?_ (State.emit_frame _ _)
    exact Frame.refl _

theorem State.discardPacket_frame {K : Touch} (s : State) (die : Nat) (k : Packet) (event : Fld) (hK : Touch.sub ⟨[],
    [.VRT_COUNTS], false⟩ K = true := by decide +kernel) (h0 : K.any = true ∨ event.reg ∈ K.regs)  :
    Frame K s (State.discardPacket s die k event) := by
  unfold State.discardPacket
  refine Frame.trans ?_ (State.flag_frame (h := ?_) _ _ _ _)
  · refine Frame.trans ?_ (State.bump_frame (h := ?_) _ _ _ _ _)
    · exact Frame.refl _
    · exact Touch.sub_has hK (by decide +kernel)
  · assumption

theorem State.deliverPacket_frame (s : State) (die : Nat) (input : Nat) (k : Packet) :
    Frame ⟨[.out], [.HBC_EVENTS], false⟩ s (State.deliverPacket s die input k) := by
  unfold State.deliverPacket
  refine Frame.ite ?_ ?_
  · (extract_lets +onlyGivenNames t0; refine Frame.via (t := t0) ?_ fun h0 => ?_; rotate_left; clear_value t0; rotate_left)
    · unfold t0
      split
      · refine Frame.trans ?_ (State.flag_frame (h := ?_) _ _ _ _)
        · exact Frame.refl _
        · exact .inr (entryRefusal_mem (by assumption))
      · exact Frame.refl _
    · refine Frame.step ?_ (State.emit_frame _ _)
      exact h0
  · refine Frame.step ?_ (State.emit_frame _ _)
    exact Frame.refl _

theorem State.routeBy_frame (s : State) (die : Nat) (input : Nat) (k : Packet) (p : Nat) (vc : Nat) :
    Frame ⟨[.out, .vrt], [.VLK_TX_FLITS, .VRT_COUNTS, .VRT_EVENTS], false⟩ s (State.routeBy s die input k p vc) := by
  unfold State.routeBy
  refine Frame.ite ?_ ?_
  · refine Frame.trans ?_ (State.discardPacket_frame (h0 := ?_) _ _ _ _)
    · exact Frame.refl _
    · decide +kernel
  · refine Frame.step ?_ (State.leaveBy_frame _ _ _ _ _ _)
    exact Frame.refl _

theorem State.forwardEscape_frame (s : State) (die : Nat) (input : Nat) (k : Packet) (primary : Nat) (alt : Nat) :
    Frame ⟨[.out, .vrt], [.VLK_TX_FLITS, .VRT_COUNTS, .VRT_EVENTS], false⟩ s (State.forwardEscape s die input k primary alt)
    := by
  unfold State.forwardEscape
  refine Frame.ite ?_ ?_
  · refine Frame.ite ?_ ?_
    · refine Frame.step ?_ (State.leaveBy_frame _ _ _ _ _ _)
      exact Frame.refl _
    · refine Frame.trans ?_ (State.discardPacket_frame (h0 := ?_) _ _ _ _)
      · exact Frame.refl _
      · decide +kernel
  · refine Frame.ite ?_ ?_
    · refine Frame.step ?_ (State.routeBy_frame _ _ _ _ _ _)
      exact Frame.refl _
    · refine Frame.ite ?_ ?_
      · (extract_lets +onlyGivenNames t0; refine Frame.via (t := t0) ?_ fun h0 => ?_; rotate_left; clear_value t0; rotate_left)
        · unfold t0
          refine Frame.ite ?_ ?_
          · refine Frame.trans ?_ (State.flag_frame (h := ?_) _ _ _ _)
            · refine Frame.trans ?_ (State.bump_frame (h := ?_) _ _ _ _ _)
              · exact Frame.refl _
              · decide +kernel
            · decide +kernel
          · exact Frame.refl _
        · refine Frame.step ?_ (State.routeBy_frame _ _ _ _ _ _)
          exact h0
      · refine Frame.trans ?_ (State.discardPacket_frame (h0 := ?_) _ _ _ _)
        · exact Frame.refl _
        · decide +kernel

theorem State.forwardOne_frame (s : State) (die : Nat) (input : Nat) (k : Packet) :
    Frame ⟨[.out, .vrt], [.HBC_EVENTS, .VLK_TX_FLITS, .VRT_COUNTS, .VRT_EVENTS], false⟩ s (State.forwardOne s die input k)
    := by
  unfold State.forwardOne
  refine Frame.ite ?_ ?_
  · split
    · refine Frame.step ?_ (State.leaveBy_frame _ _ _ _ _ _)
      exact Frame.refl _
    · refine Frame.trans ?_ (State.discardPacket_frame (h0 := ?_) _ _ _ _)
      · exact Frame.refl _
      · decide +kernel
  · refine Frame.ite ?_ ?_
    · refine Frame.step ?_ (State.deliverPacket_frame _ _ _ _)
      exact Frame.refl _
    · refine Frame.ite ?_ ?_
      · refine Frame.trans ?_ (State.discardPacket_frame (h0 := ?_) _ _ _ _)
        · exact Frame.refl _
        · decide +kernel
      · extract_lets +onlyGivenNames t0
        extract_lets +onlyGivenNames t1
        split
        · refine Frame.step ?_ (State.routeBy_frame _ _ _ _ _ _)
          exact Frame.refl _
        · refine Frame.step ?_ (State.forwardEscape_frame _ _ _ _ _ _)
          exact Frame.refl _

theorem State.countHead_frame (s : State) (die : Nat) (input : Nat) (k : Packet) :
    Frame ⟨[.vrt], [], false⟩ s (State.countHead s die input k) := by
  unfold State.countHead
  extract_lets +onlyGivenNames t0
  refine Frame.ite ?_ ?_
  · refine Frame.step ?_ (State.onVrt_frame _ _)
    exact Frame.refl _
  · exact Frame.refl _

theorem State.passMark_frame (s : State) (die : Nat) (input : Nat) (k : Packet) :
    Frame ⟨[.fresh], [], false⟩ s (State.passMark s die input k).1 := by
  show Frame.Fst _ _ _
  unfold State.passMark
  extract_lets +onlyGivenNames t0
  refine Frame.Fst.ite ?_ ?_
  · extract_lets +onlyGivenNames t1
    extract_lets +onlyGivenNames t2
    extract_lets +onlyGivenNames t3
    refine Frame.Fst.mk ?_
    refine Frame.step ?_ (State.took_frame _ _)
    exact Frame.refl _
  · refine Frame.Fst.mk ?_
    exact Frame.refl _

theorem State.forwardBcast_frame (s : State) (die : Nat) (input : Nat) (k : Packet) :
    Frame ⟨[.out, .vrt], [.VLK_TX_FLITS, .VRT_COUNTS, .VRT_EVENTS], false⟩ s (State.forwardBcast s die input k) := by
  unfold State.forwardBcast
  split
  · refine Frame.trans ?_ (State.discardPacket_frame (h0 := ?_) _ _ _ _)
    · exact Frame.refl _
    · decide +kernel
  · extract_lets +onlyGivenNames t0
    extract_lets +onlyGivenNames t1
    extract_lets +onlyGivenNames t2
    (extract_lets +onlyGivenNames t3; refine Frame.via (t := t3) ?_ fun h3 => ?_; rotate_left; clear_value t3; rotate_left)
    · unfold t3
      refine Frame.foldl fun t4 x4 => ?_
      refine Frame.step ?_ (State.queuePacket_frame _ _ _ _)
      exact Frame.refl _
    · refine Frame.ite ?_ ?_
      · refine Frame.step ?_ (State.emit_frame _ _)
        exact h3
      · exact h3

theorem State.forward_frame (s : State) (die : Nat) (input : Nat) (k : Packet) :
    Frame ⟨[.fresh, .out, .vrt], [.HBC_EVENTS, .VLK_TX_FLITS, .VRT_COUNTS, .VRT_EVENTS], false⟩ s (State.forward s die input
    k) := by
  unfold State.forward
  split
  (extract_lets +onlyGivenNames t0; refine Frame.via (t := t0) ?_ fun h0 => ?_; rotate_left; clear_value t0; rotate_left)
  · unfold t0
    refine Frame.step ?_ (State.countHead_frame _ _ _ _)
    refine Frame.fst (by assumption) ?_
    change Frame.Fst _ _ _
    refine Frame.Fst.step ?_ (State.enterRouter_frame _ _ _ _)
    exact Frame.refl _
  · extract_lets +onlyGivenNames t1
    refine Frame.ite ?_ ?_
    · refine Frame.trans ?_ (State.discardPacket_frame (h0 := ?_) _ _ _ _)
      · exact h0
      · decide +kernel
    · split
      refine Frame.ite ?_ ?_
      · refine Frame.step ?_ (State.forwardBcast_frame _ _ _ _)
        refine Frame.fst (by assumption) ?_
        change Frame.Fst _ _ _
        refine Frame.Fst.step ?_ (State.passMark_frame _ _ _ _)
        exact h0
      · refine Frame.step ?_ (State.forwardOne_frame _ _ _ _)
        refine Frame.fst (by assumption) ?_
        change Frame.Fst _ _ _
        refine Frame.Fst.step ?_ (State.passMark_frame _ _ _ _)
        exact h0

theorem State.answer_frame (s : State) (r : Remote) (status : Nat) (data : Bytes) :
    Frame ⟨[.rem], [], false⟩ s (State.answer s r status data) := by
  unfold State.answer
  refine Frame.step ?_ (State.onRem_frame _ _)
  exact Frame.refl _

theorem State.remoteAnswer_frame (s : State) (die : Nat) (tag : Nat) (status : Nat) (data : Bytes) :
    Frame ⟨[.rem], [.VRT_EVENTS, .VRT_LATE], false⟩ s (State.remoteAnswer s die tag status data) := by
  unfold State.remoteAnswer
  split
  · refine Frame.trans ?_ (State.flag_frame (h := ?_) _ _ _ _)
    · refine Frame.trans ?_ (State.bump_frame (h := ?_) _ _ _ _ _)
      · exact Frame.refl _
      · decide +kernel
    · decide +kernel
  · refine Frame.ite ?_ ?_
    · exact Frame.refl _
    · refine Frame.step ?_ (State.answer_frame _ _ _ _)
      exact Frame.refl _

theorem State.bankWrite_frame (s : State) (die : Nat) (half : Nat) (v : Nat) :
    Frame ⟨[], [.SEC_START, .VRT_BANK, .VRT_EVENTS], false⟩ s (State.bankWrite s die half v) := by
  unfold State.bankWrite
  extract_lets +onlyGivenNames t0
  extract_lets +onlyGivenNames t1
  extract_lets +onlyGivenNames t2
  extract_lets +onlyGivenNames t3
  (extract_lets +onlyGivenNames t4; refine Frame.via (t := t4) ?_ fun h4 => ?_; rotate_left; clear_value t4; rotate_left)
  · unfold t4
    refine Frame.ite ?_ ?_
    · refine Frame.trans ?_ (State.flag_frame (h := ?_) _ _ _ _)
      · exact Frame.refl _
      · decide +kernel
    · exact Frame.refl _
  · (extract_lets +onlyGivenNames t5; refine Frame.via (t := t5) ?_ fun h5 => ?_; rotate_left; clear_value t5; rotate_left)
    · unfold t5
      refine Frame.trans ?_ (State.writeReg_frame (h0 := ?_) _ _ _ _ _ _ _ _)
      · exact h4
      · decide +kernel
    · refine Frame.step ?_ (State.checkJoined_frame _)
      refine Frame.step ?_ (State.showRouting_frame _)
      exact h5

theorem State.remoteTimedOut_frame (s : State) (die : Nat) (tag : Nat) :
    Frame ⟨[.rem], [.VRT_EVENTS], false⟩ s (State.remoteTimedOut s die tag) := by
  unfold State.remoteTimedOut
  split
  · exact Frame.refl _
  · refine Frame.trans ?_ (State.flag_frame (h := ?_) _ _ _ _)
    · refine Frame.step ?_ (State.answer_frame _ _ _ _)
      exact Frame.refl _
    · decide +kernel

theorem State.injectTc0_frame (s : State) (die : Nat) :
    Frame ⟨[.fresh, .out, .sched, .vrt, .qcx], [.HBC_EVENTS, .VLK_TX_FLITS, .VRT_COUNTS, .VRT_EVENTS], false⟩ s
    (State.injectTc0 s die) := by
  unfold State.injectTc0
  split
  · exact Frame.refl _
  · (extract_lets +onlyGivenNames t0; refine Frame.via (t := t0) ?_ fun h0 => ?_; rotate_left; clear_value t0; rotate_left)
    · unfold t0
      refine Frame.step ?_ (State.onVrt_frame _ _)
      exact Frame.refl _
    · refine Frame.step ?_ (State.signalLeft_frame _ _)
      refine Frame.step ?_ (State.forward_frame _ _ _ _)
      exact h0

theorem State.switchBank_frame (s : State) (die : Nat) :
    Frame ⟨[], [.SEC_START, .VRT_BANK], false⟩ s (State.switchBank s die) := by
  unfold State.switchBank
  refine Frame.ite ?_ ?_
  · refine Frame.step ?_ (State.checkJoined_frame _)
    refine Frame.step ?_ (State.showRouting_frame _)
    refine Frame.trans ?_ (State.put_frame (h := ?_) _ _ _ _ _)
    · refine Frame.trans ?_ (State.put_frame (h := ?_) _ _ _ _ _)
      · exact Frame.refl _
      · decide +kernel
    · decide +kernel
  · exact Frame.refl _

end Sys2Proof.Machine
end

