-- ==== Sys2Proof/Laws/FrameRegRule.lean ====
section
/-! SUPPORT. The footprints of the functions of Machine/RegRule.lean. -/

namespace Sys2Proof.Machine

set_option Elab.async false

theorem State.clearBlock_frame (s : State) (b : Blk) (die : Nat) (inst : Nat) (inc : List Nat) :
    Frame ⟨[], [], true⟩ s (State.clearBlock s b die inst inc) := by
  unfold State.clearBlock
  refine Frame.ite ?_ ?_
  · refine Frame.foldl fun t0 x0 => ?_
    refine Frame.trans ?_ (State.put_frame (h := ?_) _ _ _ _ _)
    · exact Frame.refl _
    · exact .inl rfl
  · exact Frame.refl _

theorem State.attachWrite_frame (s : State) (half : Nat) (v : Nat) :
    Frame ⟨[], [.LDG_ATTACH, .LDG_EVENTS], false⟩ s (State.attachWrite s half v) := by
  unfold State.attachWrite
  extract_lets +onlyGivenNames t0
  refine Frame.ite ?_ ?_
  · refine Frame.trans ?_ (State.put_frame (h := ?_) _ _ _ _ _)
    · refine Frame.trans ?_ (State.put_frame (h := ?_) _ _ _ _ _)
      · exact Frame.refl _
      · decide +kernel
    · decide +kernel
  · refine Frame.trans ?_ (State.flag_frame (h := ?_) _ _ _ _)
    · exact Frame.refl _
    · decide +kernel

theorem State.ctrlWrite_frame (s : State) (half : Nat) (v : Nat) :
    Frame ⟨[], [.SCH_CTRL], false⟩ s (State.ctrlWrite s half v) := by
  unfold State.ctrlWrite
  (extract_lets +onlyGivenNames t0; refine Frame.via (t := t0) ?_ fun h0 => ?_; rotate_left; clear_value t0; rotate_left)
  · unfold t0
    refine Frame.trans ?_ (State.writeReg_frame (h0 := ?_) _ _ _ _ _ _ _ _)
    · exact Frame.refl _
    · decide +kernel
  · refine Frame.ite ?_ ?_
    · refine Frame.trans ?_ (State.put_frame (h := ?_) _ _ _ _ _)
      · exact h0
      · decide +kernel
    · exact h0

theorem State.synWrite_frame {K : Touch} (s : State) (r : Reg) (die : Nat) (idx : Nat) (half : Nat) (v : Nat) (hK :
    Touch.sub ⟨[], [.SYN_EVENTS], false⟩ K = true := by decide +kernel) (h0 : K.any = true ∨ r ∈ K.regs)  :
    Frame K s (State.synWrite s r die idx half v) := by
  unfold State.synWrite
  refine Frame.ite ?_ ?_
  · refine Frame.trans ?_ (State.flag_frame (h := ?_) _ _ _ _)
    · exact Frame.refl _
    · exact Touch.sub_has hK (by decide +kernel)
  · refine Frame.trans ?_ (State.writeReg_frame (hK := Touch.sub_trans (by decide +kernel) hK) (h0 := ?_) _ _ _ _ _ _ _ _)
    · exact Frame.refl _
    · assumption

theorem State.plainWrite_frame {K : Touch} (s : State) (r : Reg) (die : Nat) (idx : Nat) (half : Nat) (v : Nat) (hw :
    optParam Nat 0) (hK : Touch.sub ⟨[.sched], [], true⟩ K = true := by decide +kernel) (h0 : K.any = true ∨ r ∈ K.regs)  :
    Frame K s (State.plainWrite s r die idx half v hw) := by
  unfold State.plainWrite
  refine Frame.ite ?_ ?_
  · exact Frame.refl _
  · refine Frame.ite ?_ ?_
    · exact Frame.refl _
    · split
      · refine Frame.step ?_ (State.ctrlWrite_frame _ _ _) (Touch.sub_trans (by decide +kernel) hK)
        exact Frame.refl _
      · refine Frame.step ?_ (State.onSched_frame _ _) (Touch.sub_trans (by decide +kernel) hK)
        refine Frame.trans ?_ (State.writeReg_frame (hK := Touch.sub_trans (by decide +kernel) hK) (h0 := ?_) _ _ _ _ _ _ _ _)
        · exact Frame.refl _
        · assumption
      · refine Frame.trans ?_ (State.synWrite_frame (hK := Touch.sub_trans (by decide +kernel) hK) (h0 := ?_) _ _ _ _ _ _)
        · exact Frame.refl _
        · assumption
      · refine Frame.trans ?_ (State.synWrite_frame (hK := Touch.sub_trans (by decide +kernel) hK) (h0 := ?_) _ _ _ _ _ _)
        · exact Frame.refl _
        · assumption
      · refine Frame.trans ?_ (State.synWrite_frame (hK := Touch.sub_trans (by decide +kernel) hK) (h0 := ?_) _ _ _ _ _ _)
        · exact Frame.refl _
        · assumption
      · refine Frame.step ?_ (State.genWrite_frame _ _ _ _ _) (Touch.sub_trans (by decide +kernel) hK)
        exact Frame.refl _
      · (extract_lets +onlyGivenNames t0; refine Frame.via (t := t0) ?_ fun h0 => ?_; rotate_left; clear_value t0; rotate_left)
        · unfold t0
          refine Frame.trans ?_ (State.writeReg_frame (hK := Touch.sub_trans (by decide +kernel) hK) (h0 := ?_) _ _ _ _ _ _ _ _)
          · exact Frame.refl _
          · assumption
        · refine Frame.trans ?_ (State.put_frame (h := ?_) _ _ _ _ _)
          · exact h0
          · assumption
      · (extract_lets +onlyGivenNames t1; refine Frame.via (t := t1) ?_ fun h1 => ?_; rotate_left; clear_value t1; rotate_left)
        · unfold t1
          refine Frame.trans ?_ (State.writeReg_frame (hK := Touch.sub_trans (by decide +kernel) hK) (h0 := ?_) _ _ _ _ _ _ _ _)
          · exact Frame.refl _
          · assumption
        · refine Frame.trans ?_ (State.put_frame (h := ?_) _ _ _ _ _)
          · exact h1
          · assumption
      · refine Frame.trans ?_ (State.writeReg_frame (hK := Touch.sub_trans (by decide +kernel) hK) (h0 := ?_) _ _ _ _ _ _ _ _)
        · exact Frame.refl _
        · assumption
      · refine Frame.step ?_ (State.bankWrite_frame _ _ _ _) (Touch.sub_trans (by decide +kernel) hK)
        exact Frame.refl _
      · refine Frame.step ?_ (State.entryWrite_frame _ _ _ _ _ _) (Touch.sub_trans (by decide +kernel) hK)
        exact Frame.refl _
      · refine Frame.step ?_ (State.entryWrite_frame _ _ _ _ _ _) (Touch.sub_trans (by decide +kernel) hK)
        exact Frame.refl _
      · refine Frame.step ?_ (State.rwinWrite_frame _ _ _ _ _) (Touch.sub_trans (by decide +kernel) hK)
        exact Frame.refl _
      · refine Frame.ite ?_ ?_
        · exact Frame.refl _
        · refine Frame.trans ?_ (State.writeReg_frame (hK := Touch.sub_trans (by decide +kernel) hK) (h0 := ?_) _ _ _ _ _ _ _ _)
          · exact Frame.refl _
          · assumption
      · refine Frame.trans ?_ (State.writeReg_frame (hK := Touch.sub_trans (by decide +kernel) hK) (h0 := ?_) _ _ _ _ _ _ _ _)
        · exact Frame.refl _
        · assumption

end Sys2Proof.Machine
end

