-- ==== Sys2Proof/Laws/FrameSecImage.lean ====
section
/-! SUPPORT. The footprints of the functions of Machine/SecImage.lean. -/

namespace Sys2Proof.Machine

set_option Elab.async false

theorem State.writeItem_frame (s : State) (item : Nat × Nat) :
    Frame ⟨[.sched], [], true⟩ s (State.writeItem s item) := by
  unfold State.writeItem
  split
  · exact Frame.refl _
  · (extract_lets +onlyGivenNames t0; refine Frame.via (t := t0) ?_ fun h0 => ?_; rotate_left; clear_value t0; rotate_left)
    · unfold t0
      refine Frame.ite ?_ ?_
      · refine Frame.trans ?_ (State.flag_frame (h := ?_) _ _ _ _)
        · exact Frame.refl _
        · decide +kernel
      · exact Frame.refl _
    · refine Frame.trans ?_ (State.plainWrite_frame (h0 := ?_) _ _ _ _ _ _ _)
      · exact h0
      · exact .inl rfl

theorem State.writeItems_frame (s : State) (items : List (Nat × Nat)) :
    Frame ⟨[.sched], [], true⟩ s (State.writeItems s items) := by
  unfold State.writeItems
  refine Frame.foldl fun t0 x0 => ?_
  refine Frame.step ?_ (State.writeItem_frame _ _)
  exact Frame.refl _

end Sys2Proof.Machine
end

