-- ==== Sys2Proof/Laws/FrameStart.lean ====
section
/-! SUPPORT. The footprints of the functions of Machine/Start.lean. -/

namespace Sys2Proof.Machine

set_option Elab.async false

theorem State.setMode_frame (s : State) (m : PowerMode) :
    Frame ⟨[.power], [.PWR_STATUS], false⟩ s (State.setMode s m) := by
  unfold State.setMode
  refine Frame.trans ?_ (State.put_frame (h := ?_) _ _ _ _ _)
  · refine Frame.step ?_ (State.onPower_frame _ _)
    exact Frame.refl _
  · decide +kernel

theorem State.beginDrain_frame (s : State) (source : Nat) :
    Frame ⟨[.power, .imsic], [.PWR_EVENTS, .PWR_STATUS], false⟩ s (State.beginDrain s source) := by
  unfold State.beginDrain
  (extract_lets +onlyGivenNames t0; refine Frame.via (t := t0) ?_ fun h0 => ?_; rotate_left; clear_value t0; rotate_left)
  · unfold t0
    refine Frame.step ?_ (State.setMode_frame _ _)
    refine Frame.step ?_ (State.onPower_frame _ _)
    exact Frame.refl _
  · (extract_lets +onlyGivenNames t1; refine Frame.via (t := t1) ?_ fun h1 => ?_; rotate_left; clear_value t1; rotate_left)
    · unfold t1
      refine Frame.trans ?_ (State.put_frame (h := ?_) _ _ _ _ _)
      · refine Frame.trans ?_ (State.flag_frame (h := ?_) _ _ _ _)
        · exact h0
        · decide +kernel
      · decide +kernel
    · refine Frame.ite ?_ ?_
      · refine Frame.step ?_ (State.interruptTo_frame _ _ _)
        exact h1
      · exact h1

theorem State.showFuses_frame (s : State) :
    Frame ⟨[], [.SEC_FUSE_STATUS, .SEC_RETIRED0, .SEC_RETIRED1], false⟩ s (State.showFuses s) := by
  unfold State.showFuses
  extract_lets +onlyGivenNames t0
  extract_lets +onlyGivenNames t1
  (extract_lets +onlyGivenNames t2; refine Frame.via (t := t2) ?_ fun h2 => ?_; rotate_left; clear_value t2; rotate_left)
  · unfold t2
    refine Frame.trans ?_ (State.put_frame (h := ?_) _ _ _ _ _)
    · refine Frame.trans ?_ (State.put_frame (h := ?_) _ _ _ _ _)
      · exact Frame.refl _
      · decide +kernel
    · decide +kernel
  · refine Frame.trans ?_ (State.put_frame (h := ?_) _ _ _ _ _)
    · refine Frame.trans ?_ (State.put_frame (h := ?_) _ _ _ _ _)
      · exact h2
      · decide +kernel
    · decide +kernel

theorem State.stage_frame (s : State) (n : Nat) :
    Frame ⟨[], [.SEC_START], false⟩ s (State.stage s n) := by
  unfold State.stage
  refine Frame.trans ?_ (State.put_frame (h := ?_) _ _ _ _ _)
  · exact Frame.refl _
  · decide +kernel

theorem State.readImages_frame (s : State) (env : StartEnv) :
    Frame ⟨[.sched, .sec], [], true⟩ s (State.readImages s env).1 := by
  show Frame.Fst _ _ _
  unfold State.readImages
  (extract_lets +onlyGivenNames t0; refine Frame.Fst.via (t := t0) ?_ fun h0 => ?_; rotate_left; clear_value t0; rotate_left)
  · unfold t0
    refine Frame.trans ?_ (State.put_frame (h := ?_) _ _ _ _ _)
    · refine Frame.step ?_ (State.showFuses_frame _)
      exact Frame.refl _
    · decide +kernel
  · extract_lets +onlyGivenNames t1
    extract_lets +onlyGivenNames t2
    (extract_lets +onlyGivenNames t3; refine Frame.Fst.via (t := t3) ?_ fun h3 => ?_; rotate_left; clear_value t3; rotate_left)
    · unfold t3
      refine Frame.step ?_ (State.stage_frame _ _)
      refine Frame.trans ?_ (State.put_frame (h := ?_) _ _ _ _ _)
      · refine Frame.trans ?_ (State.put_frame (h := ?_) _ _ _ _ _)
        · exact h0
        · decide +kernel
      · decide +kernel
    · split
      · refine Frame.Fst.mk ?_
        exact h3
      · extract_lets +onlyGivenNames t4
        extract_lets +onlyGivenNames t5
        (extract_lets +onlyGivenNames t6; refine Frame.Fst.via (t := t6) ?_ fun h6 => ?_; rotate_left; clear_value t6; rotate_left)
        · unfold t6
          refine Frame.trans ?_ (State.put_frame (h := ?_) _ _ _ _ _)
          · refine Frame.trans ?_ (State.put_frame (h := ?_) _ _ _ _ _)
            · refine Frame.trans ?_ (State.put_frame (h := ?_) _ _ _ _ _)
              · exact h3
              · decide +kernel
            · decide +kernel
          · decide +kernel
        · (extract_lets +onlyGivenNames t7; refine Frame.Fst.via (t := t7) ?_ fun h7 => ?_; rotate_left; clear_value t7; rotate_left)
          · unfold t7
            refine Frame.step ?_ (State.onSec_frame _ _)
            refine Frame.trans ?_ (State.put_frame (h := ?_) _ _ _ _ _)
            · exact h6
            · decide +kernel
          · (extract_lets +onlyGivenNames t8; refine Frame.Fst.via (t := t8) ?_ fun h8 => ?_; rotate_left; clear_value t8; rotate_left)
            · unfold t8
              refine Frame.trans ?_ (State.put_frame (h := ?_) _ _ _ _ _)
              · refine Frame.trans ?_ (State.put_frame (h := ?_) _ _ _ _ _)
                · exact h7
                · decide +kernel
              · decide +kernel
            · (extract_lets +onlyGivenNames t9; refine Frame.Fst.via (t := t9) ?_ fun h9 => ?_; rotate_left; clear_value t9; rotate_left)
              · unfold t9
                refine Frame.trans ?_ (State.put_frame (h := ?_) _ _ _ _ _)
                · exact h8
                · decide +kernel
              · refine Frame.Fst.mk ?_
                refine Frame.trans ?_ (State.put_frame (h := ?_) _ _ _ _ _)
                · exact h9
                · decide +kernel

theorem State.failStart_frame (s : State) (stage : Nat) (cause : Nat) :
    Frame ⟨[], [.SEC_START], false⟩ s (State.failStart s stage cause) := by
  unfold State.failStart
  refine Frame.trans ?_ (State.put_frame (h := ?_) _ _ _ _ _)
  · refine Frame.trans ?_ (State.flag_frame (h := ?_) _ _ _ _)
    · refine Frame.step ?_ (State.stage_frame _ _)
      exact Frame.refl _
    · decide +kernel
  · decide +kernel

theorem State.writeMap_frame (s : State) (word : Nat → Nat) :
    Frame ⟨[], [.SEC_DIE_MAP], false⟩ s (State.writeMap s word) := by
  unfold State.writeMap
  refine Frame.foldl fun t0 x0 => ?_
  refine Frame.trans ?_ (State.put_frame (h := ?_) _ _ _ _ _)
  · exact Frame.refl _
  · decide +kernel

theorem State.numberDies_frame (s : State) (env : StartEnv) (spare : Nat → Nat) :
    Frame ⟨[.bdi, .sec], [], false⟩ s (State.numberDies s env spare) := by
  unfold State.numberDies
  extract_lets +onlyGivenNames t0
  extract_lets +onlyGivenNames t1
  refine Frame.step ?_ (State.onBdi_frame _ _)
  refine Frame.step ?_ (State.onSec_frame _ _)
  exact Frame.refl _

theorem State.trainPorts_frame (s : State) :
    Frame ⟨[], [.VLK_STATUS], false⟩ s (State.trainPorts s) := by
  unfold State.trainPorts
  refine Frame.foldl fun t0 x0 => ?_
  refine Frame.ite ?_ ?_
  · refine Frame.trans ?_ (State.put_frame (h := ?_) _ _ _ _ _)
    · exact Frame.refl _
    · decide +kernel
  · exact Frame.refl _

theorem State.showLanes_frame (s : State) :
    Frame ⟨[], [.VSE_CAPS], false⟩ s (State.showLanes s) := by
  unfold State.showLanes
  refine Frame.foldl fun t0 x0 => ?_
  refine Frame.trans ?_ (State.put_frame (h := ?_) _ _ _ _ _)
  · refine Frame.trans ?_ (State.put_frame (h := ?_) _ _ _ _ _)
    · exact Frame.refl _
    · decide +kernel
  · decide +kernel

theorem State.linkStart_frame (s : State) (env : StartEnv) (die : Nat) (link : Nat) :
    Frame ⟨[.bdi], [.BDI_EVENTS, .BDI_STATUS], false⟩ s (State.linkStart s env die link) := by
  unfold State.linkStart
  refine Frame.ite ?_ ?_
  · exact Frame.refl _
  · extract_lets +onlyGivenNames t0
    extract_lets +onlyGivenNames t1
    refine Frame.ite ?_ ?_
    · extract_lets +onlyGivenNames t2
      refine Frame.step ?_ (State.onLinkEnd_frame _ _ _ _)
      refine Frame.trans ?_ (State.setWord_frame (h := ?_) _ _ _ _ _)
      · exact Frame.refl _
      · decide +kernel
    · refine Frame.step ?_ (State.onLinkEnd_frame _ _ _ _)
      refine Frame.trans ?_ (State.flag_frame (h := ?_) _ _ _ _)
      · exact Frame.refl _
      · decide +kernel

theorem State.linksStart_frame (s : State) (env : StartEnv) :
    Frame ⟨[.bdi], [.BDI_EVENTS, .BDI_REPAIR, .BDI_STATUS], false⟩ s (State.linksStart s env) := by
  unfold State.linksStart
  (extract_lets +onlyGivenNames t0; refine Frame.via (t := t0) ?_ fun h0 => ?_; rotate_left; clear_value t0; rotate_left)
  · unfold t0
    refine Frame.foldl fun t1 x1 => ?_
    refine Frame.foldl fun t2 x2 => ?_
    refine Frame.step ?_ (State.linkStart_frame _ _ _ _)
    exact Frame.refl _
  · refine Frame.trans ?_ (Frame.foldl fun t3 x3 => ?_)
    · exact h0
    · refine Frame.ite ?_ ?_
      · refine Frame.step ?_ (State.onLinkEnd_frame _ _ _ _)
        refine Frame.step ?_ (State.recordRepairs_frame _ _ _ _)
        exact Frame.refl _
      · exact Frame.refl _

theorem State.startUp_frame (s : State) (env : StartEnv) :
    Frame ⟨[.sched, .bdi, .sec], [], true⟩ s (State.startUp s env) := by
  unfold State.startUp
  split
  · refine Frame.step ?_ (State.failStart_frame _ _ _)
    refine Frame.fst (by assumption) ?_
    change Frame.Fst _ _ _
    refine Frame.Fst.step ?_ (State.readImages_frame _ _)
    exact Frame.refl _
  · extract_lets +onlyGivenNames t0
    refine Frame.ite ?_ ?_
    · refine Frame.step ?_ (State.failStart_frame _ _ _)
      refine Frame.step ?_ (State.writeMap_frame _ _)
      refine Frame.fst (by assumption) ?_
      change Frame.Fst _ _ _
      refine Frame.Fst.step ?_ (State.readImages_frame _ _)
      exact Frame.refl _
    · refine Frame.ite ?_ ?_
      · refine Frame.step ?_ (State.failStart_frame _ _ _)
        refine Frame.fst (by assumption) ?_
        change Frame.Fst _ _ _
        refine Frame.Fst.step ?_ (State.readImages_frame _ _)
        exact Frame.refl _
      · refine Frame.ite ?_ ?_
        · refine Frame.step ?_ (State.failStart_frame _ _ _)
          refine Frame.fst (by assumption) ?_
          change Frame.Fst _ _ _
          refine Frame.Fst.step ?_ (State.readImages_frame _ _)
          exact Frame.refl _
        · (extract_lets +onlyGivenNames t1; refine Frame.via (t := t1) ?_ fun h1 => ?_; rotate_left; clear_value t1; rotate_left)
          · unfold t1
            refine Frame.step ?_ (State.writeMap_frame _ _)
            refine Frame.fst (by assumption) ?_
            change Frame.Fst _ _ _
            refine Frame.Fst.step ?_ (State.readImages_frame _ _)
            exact Frame.refl _
          · refine Frame.ite ?_ ?_
            · refine Frame.step ?_ (State.failStart_frame _ _ _)
              exact h1
            · (extract_lets +onlyGivenNames t2; refine Frame.via (t := t2) ?_ fun h2 => ?_; rotate_left; clear_value t2; rotate_left)
              · unfold t2
                refine Frame.step ?_ (State.numberDies_frame _ _ _)
                exact h1
              · refine Frame.ite ?_ ?_
                · refine Frame.step ?_ (State.failStart_frame _ _ _)
                  exact h2
                · refine Frame.step ?_ (State.stage_frame _ _)
                  refine Frame.step ?_ (State.trainPorts_frame _)
                  refine Frame.step ?_ (State.showLanes_frame _)
                  refine Frame.step ?_ (State.writeItems_frame _ _)
                  refine Frame.step ?_ (State.linksStart_frame _ _)
                  exact h2

theorem State.powerless_frame (s : State) (mode : PowerMode) (restarting : Bool) :
    Frame ⟨[.mem, .power, .tick, .sched, .arrays, .codec, .hbm, .oasis, .fsel, .upd, .rdx, .vrt, .rem, .xlt, .flt, .syn, .coh,
      .imsic, .qcx, .pci, .bdi, .sec, .ldg, .fatal], [], true⟩ s (State.powerless s mode restarting) where
  pending := rfl
  fresh := Nat.le_refl _
  out := List.prefix_rfl
  wf _ := rfl
  distinct _ := List.nodup_nil
  parts p hp := by cases p <;> first | rfl | exact absurd (by decide) hp
  words h := by cases h

theorem State.startFresh_frame (s : State) (env : StartEnv) :
    Frame ⟨[.mem, .power, .tick, .sched, .arrays, .codec, .hbm, .oasis, .fsel, .upd, .rdx, .vrt, .rem, .xlt, .flt, .fatal,
    .syn, .coh, .imsic, .qcx, .pci, .bdi, .sec, .ldg], [], true⟩ s (State.startFresh s env) := by
  unfold State.startFresh
  refine Frame.step ?_ (State.startUp_frame _ _)
  (extract_lets +onlyGivenNames t0; refine Frame.via (t := t0) ?_ fun h0 => ?_; rotate_left; clear_value t0; rotate_left)
  · unfold t0
    refine Frame.step ?_ (State.powerless_frame _ _ _)
    exact Frame.refl _
  · refine Frame.step ?_ (State.power_frame _ _)
    exact h0

theorem State.powerOn_frame (s : State) (mv : Nat) (env : StartEnv) :
    Frame ⟨[.mem, .power, .tick, .sched, .arrays, .codec, .hbm, .oasis, .fsel, .upd, .rdx, .vrt, .rem, .xlt, .flt, .fatal,
    .syn, .coh, .imsic, .qcx, .pci, .bdi, .sec, .ldg], [], true⟩ s (State.powerOn s mv env) := by
  unfold State.powerOn
  extract_lets +onlyGivenNames t0
  refine Frame.ite ?_ ?_
  · refine Frame.trans ?_ (State.put_frame (h := ?_) _ _ _ _ _)
    · refine Frame.step ?_ (State.startFresh_frame _ _)
      exact Frame.refl _
    · decide +kernel
  · exact Frame.refl _

theorem State.goOff_frame (s : State) :
    Frame ⟨[.mem, .power, .tick, .sched, .arrays, .codec, .hbm, .oasis, .fsel, .upd, .rdx, .vrt, .rem, .xlt, .flt, .fatal,
    .syn, .coh, .imsic, .qcx, .pci, .bdi, .sec, .ldg], [], true⟩ s (State.goOff s) := by
  unfold State.goOff
  refine Frame.step ?_ (State.powerless_frame _ _ _)
  exact Frame.refl _

theorem State.completeStart_frame (s : State) :
    Frame ⟨[.out, .mem, .power, .imsic], [.HCX_STATUS, .PWR_EVENTS, .PWR_STATUS, .SEC_START], false⟩ s (State.completeStart
    s) := by
  unfold State.completeStart
  refine Frame.ite ?_ ?_
  · extract_lets +onlyGivenNames t0
    (extract_lets +onlyGivenNames t1; refine Frame.via (t := t1) ?_ fun h1 => ?_; rotate_left; clear_value t1; rotate_left)
    · unfold t1
      refine Frame.step ?_ (State.stage_frame _ _)
      refine Frame.step ?_ (State.store_frame _ _ _)
      exact Frame.refl _
    · (extract_lets +onlyGivenNames t2; refine Frame.via (t := t2) ?_ fun h2 => ?_; rotate_left; clear_value t2; rotate_left)
      · unfold t2
        refine Frame.step ?_ (State.emit_frame _ _)
        refine Frame.trans ?_ (State.put_frame (h := ?_) _ _ _ _ _)
        · exact h1
        · decide +kernel
      · (extract_lets +onlyGivenNames t3; refine Frame.via (t := t3) ?_ fun h3 => ?_; rotate_left; clear_value t3; rotate_left)
        · unfold t3
          refine Frame.step ?_ (State.setMode_frame _ _)
          exact h2
        · refine Frame.ite ?_ ?_
          · refine Frame.step ?_ (State.beginDrain_frame _ _)
            refine Frame.step ?_ (State.onPower_frame _ _)
            refine Frame.trans ?_ (State.put_frame (h := ?_) _ _ _ _ _)
            · exact h3
            · decide +kernel
          · exact h3
  · exact Frame.refl _

theorem State.readyWrite_frame (s : State) :
    Frame ⟨[], [.SEC_START], false⟩ s (State.readyWrite s) := by
  unfold State.readyWrite
  refine Frame.ite ?_ ?_
  · refine Frame.step ?_ (State.checkJoined_frame _)
    refine Frame.step ?_ (State.stage_frame _ _)
    exact Frame.refl _
  · exact Frame.refl _

theorem State.removalRequest_frame (s : State) (source : Nat) :
    Frame ⟨[.power, .imsic], [.PWR_EVENTS, .PWR_STATUS], false⟩ s (State.removalRequest s source) := by
  unfold State.removalRequest
  (extract_lets +onlyGivenNames t0; refine Frame.via (t := t0) ?_ fun h0 => ?_; rotate_left; clear_value t0; rotate_left)
  · unfold t0
    refine Frame.step ?_ (State.onPower_frame _ _)
    exact Frame.refl _
  · split
    · exact Frame.refl _
    · refine Frame.ite ?_ ?_
      · exact h0
      · refine Frame.step ?_ (State.onPower_frame _ _)
        refine Frame.trans ?_ (State.flag_frame (h := ?_) _ _ _ _)
        · exact Frame.refl _
        · decide +kernel
    · exact h0
    · refine Frame.step ?_ (State.beginDrain_frame _ _)
      exact Frame.refl _
    · refine Frame.step ?_ (State.beginDrain_frame _ _)
      exact Frame.refl _

end Sys2Proof.Machine
end

