-- ==== Sys2Proof/Laws/FramePower.lean ====
section
/-! SUPPORT. The footprints of the functions of Machine/Power.lean. -/

namespace Sys2Proof.Machine

set_option Elab.async false

theorem State.restartNow_frame (s : State) :
    Frame ⟨[.mem, .power, .tick, .sched, .arrays, .codec, .hbm, .oasis, .fsel, .upd, .rdx, .vrt, .rem, .xlt, .flt, .fatal,
    .syn, .coh, .imsic, .qcx, .pci, .bdi, .sec, .ldg], [], true⟩ s (State.restartNow s) := by
  unfold State.restartNow
  extract_lets +onlyGivenNames t0
  refine Frame.ite ?_ ?_
  · refine Frame.step ?_ (State.powerless_frame _ _ _)
    exact Frame.refl _
  · exact Frame.refl _

theorem State.cancelDrain_frame (s : State) :
    Frame ⟨[.power], [.PWR_STATUS], false⟩ s (State.cancelDrain s) := by
  unfold State.cancelDrain
  refine Frame.ite ?_ ?_
  · refine Frame.trans ?_ (State.put_frame (h := ?_) _ _ _ _ _)
    · refine Frame.step ?_ (State.setMode_frame _ _)
      exact Frame.refl _
    · decide +kernel
  · exact Frame.refl _

theorem State.railFails_frame (s : State) (die : Nat) :
    Frame ⟨[.flt, .fatal], [.FLT_DIE_HEALTH, .PWR_EVENTS, .PWR_RAIL], false⟩ s (State.railFails s die) := by
  unfold State.railFails
  refine Frame.step ?_ (State.makeFatal_frame _ _ _)
  refine Frame.trans ?_ (State.flag_frame (h := ?_) _ _ _ _)
  · refine Frame.trans ?_ (State.flag_frame (h := ?_) _ _ _ _)
    · exact Frame.refl _
    · decide +kernel
  · decide +kernel

theorem State.parkNow_frame (s : State) :
    Frame ⟨[.power], [.PWR_EVENTS, .PWR_STATUS], false⟩ s (State.parkNow s) := by
  unfold State.parkNow
  refine Frame.ite ?_ ?_
  · refine Frame.ite ?_ ?_
    · refine Frame.step ?_ (State.setMode_frame _ _)
      exact Frame.refl _
    · refine Frame.trans ?_ (State.flag_frame (h := ?_) _ _ _ _)
      · exact Frame.refl _
      · decide +kernel
  · exact Frame.refl _

theorem State.askOff_frame (s : State) :
    Frame ⟨[.power, .vrt], [.PWR_EVENTS, .SEC_START, .VRT_BANK], false⟩ s (State.askOff s) := by
  unfold State.askOff
  refine Frame.ite ?_ ?_
  · refine Frame.step ?_ (State.setLeft_frame _ _ _)
    refine Frame.step ?_ (State.onPower_frame _ _)
    exact Frame.refl _
  · refine Frame.trans ?_ (State.flag_frame (h := ?_) _ _ _ _)
    · exact Frame.refl _
    · decide +kernel

theorem State.unparkNow_frame (s : State) :
    Frame ⟨[.power], [.PWR_STATUS], false⟩ s (State.unparkNow s) := by
  unfold State.unparkNow
  refine Frame.ite ?_ ?_
  · refine Frame.step ?_ (State.setMode_frame _ _)
    exact Frame.refl _
  · exact Frame.refl _

theorem State.powerCtrl_frame (s : State) (v : Nat) :
    Frame ⟨[.mem, .power, .tick, .sched, .arrays, .codec, .hbm, .oasis, .fsel, .upd, .rdx, .vrt, .rem, .xlt, .flt, .fatal,
    .syn, .coh, .imsic, .qcx, .pci, .bdi, .sec, .ldg], [], true⟩ s (State.powerCtrl s v) := by
  unfold State.powerCtrl
  refine Frame.ite ?_ ?_
  · refine Frame.step ?_ (State.restartNow_frame _)
    exact Frame.refl _
  · refine Frame.ite ?_ ?_
    · refine Frame.step ?_ (State.askOff_frame _)
      exact Frame.refl _
    · refine Frame.ite ?_ ?_
      · refine Frame.step ?_ (State.cancelDrain_frame _)
        exact Frame.refl _
      · refine Frame.ite ?_ ?_
        · refine Frame.step ?_ (State.removalRequest_frame _ _)
          exact Frame.refl _
        · refine Frame.ite ?_ ?_
          · refine Frame.step ?_ (State.unparkNow_frame _)
            exact Frame.refl _
          · refine Frame.ite ?_ ?_
            · refine Frame.step ?_ (State.parkNow_frame _)
              exact Frame.refl _
            · exact Frame.refl _

theorem State.inputAt_frame (s : State) (mv : Nat) :
    Frame ⟨[.power], [.PWR_EVENTS, .PWR_SENSE], false⟩ s (State.inputAt s mv) := by
  unfold State.inputAt
  (extract_lets +onlyGivenNames t0; refine Frame.via (t := t0) ?_ fun h0 => ?_; rotate_left; clear_value t0; rotate_left)
  · unfold t0
    refine Frame.trans ?_ (State.put_frame (h := ?_) _ _ _ _ _)
    · exact Frame.refl _
    · decide +kernel
  · refine Frame.ite ?_ ?_
    · refine Frame.step ?_ (State.onPower_frame _ _)
      exact h0
    · refine Frame.ite ?_ ?_
      · refine Frame.step ?_ (State.onPower_frame _ _)
        refine Frame.trans ?_ (State.flag_frame (h := ?_) _ _ _ _)
        · exact h0
        · decide +kernel
      · exact h0

theorem State.managed_frame {K : Touch} (s : State) (code : Nat) (f : State → State) (hK : Touch.sub ⟨[.out], [], false⟩ K =
    true := by decide +kernel)  (g0 : ∀ t, Frame K t (f t)) :
    Frame K s (State.managed s code f) := by
  unfold State.managed
  refine Frame.ite ?_ ?_
  · refine Frame.step ?_ (State.emit_frame _ _) (Touch.sub_trans (by decide +kernel) hK)
    refine Frame.trans ?_ (g0 ..)
    exact Frame.refl _
  · exact Frame.refl _

theorem State.mgmtStatus_frame (s : State) :
    Frame ⟨[.out], [], false⟩ s (State.mgmtStatus s) := by
  unfold State.mgmtStatus
  refine Frame.ite ?_ ?_
  · refine Frame.step ?_ (State.emit_frame _ _)
    exact Frame.refl _
  · exact Frame.refl _

theorem State.warm_frame (s : State) (tj : Nat) (outlet : Nat) :
    Frame ⟨[], [.PWR_EVENTS, .PWR_SENSE], false⟩ s (State.warm s tj outlet) := by
  unfold State.warm
  (extract_lets +onlyGivenNames t0; refine Frame.via (t := t0) ?_ fun h0 => ?_; rotate_left; clear_value t0; rotate_left)
  · unfold t0
    refine Frame.trans ?_ (State.put_frame (h := ?_) _ _ _ _ _)
    · refine Frame.trans ?_ (State.put_frame (h := ?_) _ _ _ _ _)
      · exact Frame.refl _
      · decide +kernel
    · decide +kernel
  · refine Frame.ite ?_ ?_
    · refine Frame.trans ?_ (State.flag_frame (h := ?_) _ _ _ _)
      · exact h0
      · decide +kernel
    · exact h0

theorem State.drained_frame (s : State) (timeout : Bool) :
    Frame ⟨[.mem, .power, .tick, .sched, .arrays, .codec, .hbm, .oasis, .fsel, .upd, .rdx, .vrt, .rem, .xlt, .flt, .fatal,
    .syn, .coh, .imsic, .qcx, .pci, .bdi, .sec, .ldg], [], true⟩ s (State.drained s timeout) := by
  unfold State.drained
  refine Frame.ite ?_ ?_
  · refine Frame.step ?_ (State.goOff_frame _)
    exact Frame.refl _
  · exact Frame.refl _

end Sys2Proof.Machine
end

