-- ==== Sys2Proof/Laws/FrameSecure.lean ====
section
/-! SUPPORT. The footprints of the functions of Machine/Secure.lean. -/

namespace Sys2Proof.Machine

set_option Elab.async false

theorem State.writeReport_frame (s : State) (buffer : Nat) :
    Frame ⟨recordParts, readRegs ++ [Reg.SEC_ATTEST], false⟩ s (State.writeReport s buffer) := by
  unfold State.writeReport
  extract_lets +onlyGivenNames t0
  split
  (extract_lets +onlyGivenNames t1; refine Frame.via (t := t1) ?_ fun h1 => ?_; rotate_left; clear_value t1; rotate_left)
  · unfold t1
    refine Frame.trans ?_ (State.put_frame (h := ?_) _ _ _ _ _)
    · refine Frame.fst (by assumption) ?_
      change Frame.Fst _ _ _
      refine Frame.Fst.ite ?_ ?_
      · refine Frame.Fst.step ?_ (State.readSpan_frame _ _ _)
        exact Frame.refl _
      · refine Frame.Fst.mk ?_
        exact Frame.refl _
    · decide +kernel
  · refine Frame.ite ?_ ?_
    · refine Frame.trans ?_ (State.flag_frame (h := ?_) _ _ _ _)
      · refine Frame.step ?_ (State.writeSectors_frame _ _ _)
        exact h1
      · decide +kernel
    · refine Frame.trans ?_ (State.flag_frame (h := ?_) _ _ _ _)
      · exact h1
      · decide +kernel

theorem State.beginReport_frame (s : State) (buffer : Nat) (mgmt : Bool) :
    Frame ⟨[.sec], [.SEC_ATTEST], false⟩ s (State.beginReport s buffer mgmt) := by
  unfold State.beginReport
  (extract_lets +onlyGivenNames t0; refine Frame.via (t := t0) ?_ fun h0 => ?_; rotate_left; clear_value t0; rotate_left)
  · unfold t0
    refine Frame.trans ?_ (State.put_frame (h := ?_) _ _ _ _ _)
    · refine Frame.trans ?_ (State.put_frame (h := ?_) _ _ _ _ _)
      · refine Frame.trans ?_ (State.flag_frame (h := ?_) _ _ _ _)
        · exact Frame.refl _
        · decide +kernel
      · decide +kernel
    · decide +kernel
  · refine Frame.step ?_ (State.onSec_frame _ _)
    exact h0

theorem State.endReport_frame (s : State) :
    Frame ⟨recordParts ++ [Part.sec], readRegs ++ [Reg.SEC_ATTEST], false⟩ s (State.endReport s) := by
  unfold State.endReport
  split
  · exact Frame.refl _
  · (extract_lets +onlyGivenNames t0; refine Frame.via (t := t0) ?_ fun h0 => ?_; rotate_left; clear_value t0; rotate_left)
    · unfold t0
      refine Frame.step ?_ (State.onSec_frame _ _)
      refine Frame.step ?_ (State.writeReport_frame _ _)
      exact Frame.refl _
    · split
      · exact h0
      · refine Frame.step ?_ (State.beginReport_frame _ _ _)
        refine Frame.step ?_ (State.onSec_frame _ _)
        exact h0

theorem State.fuseCommand_frame (s : State) (confirm : Nat) (cmd : Nat) (arg : Nat) :
    Frame ⟨[.sec], [.SEC_FUSE_STATUS], false⟩ s (State.fuseCommand s confirm cmd arg) := by
  unfold State.fuseCommand
  refine Frame.ite ?_ ?_
  · exact Frame.refl _
  · refine Frame.ite ?_ ?_
    · refine Frame.trans ?_ (State.put_frame (h := ?_) _ _ _ _ _)
      · exact Frame.refl _
      · decide +kernel
    · refine Frame.ite ?_ ?_
      · refine Frame.trans ?_ (State.put_frame (h := ?_) _ _ _ _ _)
        · exact Frame.refl _
        · decide +kernel
      · refine Frame.step ?_ (State.onSec_frame _ _)
        refine Frame.trans ?_ (State.flag_frame (h := ?_) _ _ _ _)
        · exact Frame.refl _
        · decide +kernel

theorem State.setUnselected_frame (s : State) (b : Bytes) :
    Frame ⟨[.sec], [], false⟩ s (State.setUnselected s b) := by
  unfold State.setUnselected
  refine Frame.step ?_ (State.onSec_frame _ _)
  exact Frame.refl _

theorem State.endFlash_frame (s : State) (mismatch : Bool) :
    Frame ⟨recordParts ++ [Part.sec], readRegs ++ [Reg.SEC_FLASH], false⟩ s (State.endFlash s mismatch) := by
  unfold State.endFlash
  split
  · exact Frame.refl _
  · (extract_lets +onlyGivenNames t0; refine Frame.via (t := t0) ?_ fun h0 => ?_; rotate_left; clear_value t0; rotate_left)
    · unfold t0
      refine Frame.step ?_ (State.onSec_frame _ _)
      refine Frame.trans ?_ (State.put_frame (h := ?_) _ _ _ _ _)
      · exact Frame.refl _
      · decide +kernel
    · split
      extract_lets +onlyGivenNames t1
      refine Frame.ite ?_ ?_
      · refine Frame.trans ?_ (State.put_frame (h := ?_) _ _ _ _ _)
        · refine Frame.fst (by assumption) ?_
          change Frame.Fst _ _ _
          refine Frame.Fst.ite ?_ ?_
          · refine Frame.Fst.step ?_ (State.readSpan_frame _ _ _)
            exact h0
          · refine Frame.Fst.mk ?_
            exact h0
        · decide +kernel
      · split
        refine Frame.ite ?_ ?_
        · refine Frame.trans ?_ (State.put_frame (h := ?_) _ _ _ _ _)
          · refine Frame.step ?_ (State.setUnselected_frame _ _)
            refine Frame.fst (by assumption) ?_
            change Frame.Fst _ _ _
            refine Frame.Fst.ite ?_ ?_
            · refine Frame.Fst.mk ?_
              refine Frame.fst (by assumption) ?_
              change Frame.Fst _ _ _
              refine Frame.Fst.ite ?_ ?_
              · refine Frame.Fst.step ?_ (State.readSpan_frame _ _ _)
                exact h0
              · refine Frame.Fst.mk ?_
                exact h0
            · refine Frame.Fst.ite ?_ ?_
              · refine Frame.Fst.step ?_ (State.readSpan_frame _ _ _)
                refine Frame.fst (by assumption) ?_
                change Frame.Fst _ _ _
                refine Frame.Fst.ite ?_ ?_
                · refine Frame.Fst.step ?_ (State.readSpan_frame _ _ _)
                  exact h0
                · refine Frame.Fst.mk ?_
                  exact h0
              · refine Frame.Fst.mk ?_
                refine Frame.fst (by assumption) ?_
                change Frame.Fst _ _ _
                refine Frame.Fst.ite ?_ ?_
                · refine Frame.Fst.step ?_ (State.readSpan_frame _ _ _)
                  exact h0
                · refine Frame.Fst.mk ?_
                  exact h0
          · decide +kernel
        · refine Frame.ite ?_ ?_
          · refine Frame.trans ?_ (State.put_frame (h := ?_) _ _ _ _ _)
            · refine Frame.step ?_ (State.took_frame _ _)
              refine Frame.step ?_ (State.setUnselected_frame _ _)
              refine Frame.fst (by assumption) ?_
              change Frame.Fst _ _ _
              refine Frame.Fst.ite ?_ ?_
              · refine Frame.Fst.mk ?_
                refine Frame.fst (by assumption) ?_
                change Frame.Fst _ _ _
                refine Frame.Fst.ite ?_ ?_
                · refine Frame.Fst.step ?_ (State.readSpan_frame _ _ _)
                  exact h0
                · refine Frame.Fst.mk ?_
                  exact h0
              · refine Frame.Fst.ite ?_ ?_
                · refine Frame.Fst.step ?_ (State.readSpan_frame _ _ _)
                  refine Frame.fst (by assumption) ?_
                  change Frame.Fst _ _ _
                  refine Frame.Fst.ite ?_ ?_
                  · refine Frame.Fst.step ?_ (State.readSpan_frame _ _ _)
                    exact h0
                  · refine Frame.Fst.mk ?_
                    exact h0
                · refine Frame.Fst.mk ?_
                  refine Frame.fst (by assumption) ?_
                  change Frame.Fst _ _ _
                  refine Frame.Fst.ite ?_ ?_
                  · refine Frame.Fst.step ?_ (State.readSpan_frame _ _ _)
                    exact h0
                  · refine Frame.Fst.mk ?_
                    exact h0
            · decide +kernel
          · refine Frame.trans ?_ (State.put_frame (h := ?_) _ _ _ _ _)
            · refine Frame.step ?_ (State.setUnselected_frame _ _)
              refine Frame.fst (by assumption) ?_
              change Frame.Fst _ _ _
              refine Frame.Fst.ite ?_ ?_
              · refine Frame.Fst.mk ?_
                refine Frame.fst (by assumption) ?_
                change Frame.Fst _ _ _
                refine Frame.Fst.ite ?_ ?_
                · refine Frame.Fst.step ?_ (State.readSpan_frame _ _ _)
                  exact h0
                · refine Frame.Fst.mk ?_
                  exact h0
              · refine Frame.Fst.ite ?_ ?_
                · refine Frame.Fst.step ?_ (State.readSpan_frame _ _ _)
                  refine Frame.fst (by assumption) ?_
                  change Frame.Fst _ _ _
                  refine Frame.Fst.ite ?_ ?_
                  · refine Frame.Fst.step ?_ (State.readSpan_frame _ _ _)
                    exact h0
                  · refine Frame.Fst.mk ?_
                    exact h0
                · refine Frame.Fst.mk ?_
                  refine Frame.fst (by assumption) ?_
                  change Frame.Fst _ _ _
                  refine Frame.Fst.ite ?_ ?_
                  · refine Frame.Fst.step ?_ (State.readSpan_frame _ _ _)
                    exact h0
                  · refine Frame.Fst.mk ?_
                    exact h0
            · decide +kernel

theorem State.attestWrite_frame (s : State) :
    Frame ⟨[.sec], [.SEC_ATTEST, .SEC_EVENTS], false⟩ s (State.attestWrite s) := by
  unfold State.attestWrite
  refine Frame.ite ?_ ?_
  · refine Frame.trans ?_ (State.flag_frame (h := ?_) _ _ _ _)
    · exact Frame.refl _
    · decide +kernel
  · refine Frame.step ?_ (State.beginReport_frame _ _ _)
    exact Frame.refl _

theorem State.endFuse_frame (s : State) (failed : Bool) :
    Frame ⟨[.sec], [.SEC_FUSE_STATUS, .SEC_RETIRED0, .SEC_RETIRED1], false⟩ s (State.endFuse s failed) := by
  unfold State.endFuse
  split
  · exact Frame.refl _
  · (extract_lets +onlyGivenNames t0; refine Frame.via (t := t0) ?_ fun h0 => ?_; rotate_left; clear_value t0; rotate_left)
    · unfold t0
      refine Frame.step ?_ (State.onSec_frame _ _)
      refine Frame.trans ?_ (State.put_frame (h := ?_) _ _ _ _ _)
      · exact Frame.refl _
      · decide +kernel
    · refine Frame.ite ?_ ?_
      · refine Frame.trans ?_ (State.put_frame (h := ?_) _ _ _ _ _)
        · exact h0
        · decide +kernel
      · refine Frame.trans ?_ (State.put_frame (h := ?_) _ _ _ _ _)
        · refine Frame.step ?_ (State.showFuses_frame _)
          refine Frame.step ?_ (State.onSec_frame _ _)
          exact h0
        · decide +kernel

theorem State.attestAsked_frame (s : State) (buffer : Nat) :
    Frame ⟨[.sec], [.SEC_ATTEST], false⟩ s (State.attestAsked s buffer) := by
  unfold State.attestAsked
  refine Frame.ite ?_ ?_
  · refine Frame.step ?_ (State.onSec_frame _ _)
    exact Frame.refl _
  · refine Frame.step ?_ (State.beginReport_frame _ _ _)
    exact Frame.refl _

theorem State.flashWrite_frame (s : State) :
    Frame ⟨[.sec], [.SEC_FLASH], false⟩ s (State.flashWrite s) := by
  unfold State.flashWrite
  refine Frame.ite ?_ ?_
  · refine Frame.trans ?_ (State.put_frame (h := ?_) _ _ _ _ _)
    · exact Frame.refl _
    · decide +kernel
  · refine Frame.step ?_ (State.onSec_frame _ _)
    refine Frame.trans ?_ (State.flag_frame (h := ?_) _ _ _ _)
    · exact Frame.refl _
    · decide +kernel

end Sys2Proof.Machine
end

