-- ==== Sys2Proof/Laws/FrameRegWrite.lean ====
section
/-! SUPPORT. The footprints of the functions of Machine/RegWrite.lean. -/

namespace Sys2Proof.Machine

set_option Elab.async false

theorem State.ctrlActions_frame (s : State) (half : Nat) (v : Nat) :
    Frame ⟨abortParts ++ [Part.arrays, Part.rem], abortRegs ++ accessRegs ++ [Reg.CDC_HIST, Reg.FLT_RECOVERY, Reg.LDG_CAIRN_STATUS,
    Reg.SCH_CHANNEL, Reg.SCH_IMAGE_BASE, Reg.SCH_IMAGE_ERROR, Reg.SCH_REPLAY, Reg.SCH_SLIP_COUNT, Reg.SCH_STEP, Reg.SYN_EVENTS, Reg.SYN_LATE,
    Reg.SYN_OBJ_LAST, Reg.SYN_OBJ_LAST_TICK, Reg.SYN_STRAY, Reg.UPD_COUNTS, Reg.UPD_EVENTS, Reg.UPD_LOSS, Reg.UPD_UNUM, Reg.VSC_VREG,
    Reg.VSE_GEN_STATE], false⟩ s (State.ctrlActions s half v) := by
  unfold State.ctrlActions
  refine Frame.ite ?_ ?_
  · exact Frame.refl _
  · (extract_lets +onlyGivenNames t0; refine Frame.via (t := t0) ?_ fun h0 => ?_; rotate_left; clear_value t0; rotate_left)
    · unfold t0
      refine Frame.ite ?_ ?_
      · refine Frame.step ?_ (State.runSchedule_frame _)
        exact Frame.refl _
      · refine Frame.step ?_ (State.stopSchedule_frame _)
        exact Frame.refl _
    · refine Frame.ite ?_ ?_
      · refine Frame.step ?_ (State.raiseBreak_frame _ _ _ _ _)
        exact h0
      · exact h0

theorem State.regAction_frame (s : State) (r : Reg) (org : Nat) (die : Nat) (idx : Nat) (half : Nat) (v : Nat) (w : Nat)
    (shown : Nat) :
    Frame ⟨abortParts ++ [Part.power, Part.tick, Part.arrays, Part.rem, Part.xlt, Part.coh, Part.imsic, Part.qcx, Part.pci, Part.bdi, Part.sec], [], true⟩ s
    (State.regAction s r org die idx half v w shown) := by
  unfold State.regAction
  split
  · refine Frame.step ?_ (State.ctrlActions_frame _ _ _)
    exact Frame.refl _
  · refine Frame.ite ?_ ?_
    · refine Frame.step ?_ (State.leaveUp_frame _ _ _)
      exact Frame.refl _
    · exact Frame.refl _
  · refine Frame.ite ?_ ?_
    · refine Frame.step ?_ (State.linkRetrain_frame _ _ _)
      exact Frame.refl _
    · exact Frame.refl _
  · (extract_lets +onlyGivenNames t0; refine Frame.via (t := t0) ?_ fun h0 => ?_; rotate_left; clear_value t0; rotate_left)
    · unfold t0
      refine Frame.ite ?_ ?_
      · refine Frame.step ?_ (State.setLeft_frame _ _ _)
        exact Frame.refl _
      · exact Frame.refl _
    · refine Frame.ite ?_ ?_
      · refine Frame.step ?_ (State.setLeft_frame _ _ _)
        exact h0
      · exact h0
  · refine Frame.step ?_ (State.respWrite_frame _ _ _ _)
    exact Frame.refl _
  · refine Frame.ite ?_ ?_
    · exact Frame.refl _
    · refine Frame.step ?_ (State.resumeWrite_frame _ _)
      exact Frame.refl _
  · refine Frame.ite ?_ ?_
    · exact Frame.refl _
    · refine Frame.step ?_ (State.releaseWadi_frame _ _)
      exact Frame.refl _
  · refine Frame.ite ?_ ?_
    · refine Frame.step ?_ (State.armRestore_frame _)
      exact Frame.refl _
    · exact Frame.refl _
  · refine Frame.step ?_ (State.coreSignal_frame _ _ _ _ _)
    exact Frame.refl _
  · refine Frame.step ?_ (State.doorbell_frame _ _ _ _)
    exact Frame.refl _
  · refine Frame.ite ?_ ?_
    · exact Frame.refl _
    · refine Frame.step ?_ (State.qctl_frame _ _ _ _)
      exact Frame.refl _
  · refine Frame.ite ?_ ?_
    · refine Frame.step ?_ (State.readyWrite_frame _)
      exact Frame.refl _
    · exact Frame.refl _
  · refine Frame.step ?_ (State.fuseCommand_frame _ _ _ _)
    exact Frame.refl _
  · refine Frame.ite ?_ ?_
    · refine Frame.step ?_ (State.attestWrite_frame _)
      exact Frame.refl _
    · exact Frame.refl _
  · refine Frame.ite ?_ ?_
    · refine Frame.step ?_ (State.flashWrite_frame _)
      exact Frame.refl _
    · exact Frame.refl _
  · refine Frame.step ?_ (State.powerCtrl_frame _ _)
    exact Frame.refl _
  · exact Frame.refl _

theorem State.clearBy_frame (s : State) (r : Reg) (die : Nat) (idx : Nat) (half : Nat) (v : Nat) :
    Frame ⟨[], [], true⟩ s (State.clearBy s r die idx half v) := by
  unfold State.clearBy
  split
  · exact Frame.refl _
  · refine Frame.ite ?_ ?_
    · refine Frame.step ?_ (State.clearBlock_frame _ _ _ _ _)
      exact Frame.refl _
    · exact Frame.refl _

theorem State.regWrite_frame (s : State) (r : Reg) (org : Nat) (die : Nat) (idx : Nat) (half : Nat) (v : Nat) (hw : Nat) :
    Frame ⟨abortParts ++ [Part.power, Part.tick, Part.arrays, Part.rem, Part.xlt, Part.coh, Part.imsic, Part.qcx, Part.pci, Part.bdi, Part.sec], [], true⟩ s
    (State.regWrite s r org die idx half v hw) := by
  unfold State.regWrite
  extract_lets +onlyGivenNames t0
  extract_lets +onlyGivenNames t1
  refine Frame.ite ?_ ?_
  · exact Frame.refl _
  · split
    · refine Frame.step ?_ (State.invalWrite_frame _ _ _)
      exact Frame.refl _
    · refine Frame.step ?_ (State.verifyWrite_frame _ _)
      exact Frame.refl _
    · refine Frame.step ?_ (State.rewindWrite_frame _ _)
      exact Frame.refl _
    · refine Frame.step ?_ (State.attachWrite_frame _ _ _)
      exact Frame.refl _
    · refine Frame.step ?_ (State.regAction_frame _ _ _ _ _ _ _ _ _)
      refine Frame.step ?_ (State.clearBy_frame _ _ _ _ _ _)
      refine Frame.trans ?_ (State.plainWrite_frame (h0 := ?_) _ _ _ _ _ _ _)
      · exact Frame.refl _
      · exact .inl rfl

theorem State.refuseAccess_frame (s : State) (org : Nat) (addr : Nat) (write : Bool) :
    Frame ⟨recordParts ++ [Part.out], recordRegs ++ [Reg.HCX_EVENTS], false⟩ s (State.refuseAccess s org addr write) := by
  unfold State.refuseAccess
  split
  · refine Frame.ite ?_ ?_
    · refine Frame.step ?_ (State.coreError_frame _ _ _ _)
      exact Frame.refl _
    · refine Frame.step ?_ (State.emit_frame _ _)
      refine Frame.step ?_ (State.faultOf_frame _ _ _ _)
      exact Frame.refl _
  · refine Frame.step ?_ (State.emit_frame _ _)
    exact Frame.refl _

theorem State.controlWrite_frame (s : State) (org : Nat) (addr : Nat) (size : Nat) (v : Nat) (hw : Nat) :
    Frame ⟨abortParts ++ accessParts ++ [Part.power, Part.tick, Part.arrays, Part.coh, Part.imsic, Part.qcx, Part.bdi, Part.sec], [], true⟩ s
    (State.controlWrite s org addr size v hw) := by
  unfold State.controlWrite
  split
  · refine Frame.step ?_ (State.emit_frame _ _)
    refine Frame.step ?_ (State.regWrite_frame _ _ _ _ _ _ _ _)
    exact Frame.refl _
  · refine Frame.step ?_ (State.refuseAccess_frame _ _ _ _)
    exact Frame.refl _

end Sys2Proof.Machine
end

