-- ==== Sys2Proof/Laws/FrameAccess.lean ====
section
/-! SUPPORT. The footprints of the functions of Machine/Access.lean. -/

namespace Sys2Proof.Machine

set_option Elab.async false

theorem State.sendWindow_frame (s : State) (org : Nat) (pa : Nat) (len : Nat) (opcode : Nat) (data : Bytes) :
    Frame ⟨recordParts ++ [Part.out, Part.rem], recordRegs ++ [Reg.HCX_EVENTS, Reg.VRT_EVENTS], false⟩ s (State.sendWindow s org pa len
    opcode data) := by
  unfold State.sendWindow
  extract_lets +onlyGivenNames t0
  split
  · refine Frame.fst (by assumption) ?_
    change Frame.Fst _ _ _
    refine Frame.Fst.step ?_ (State.sendRemote_frame _ _ _ _ _ _)
    exact Frame.refl _
  · refine Frame.step ?_ (State.coreError_frame _ _ _ _)
    refine Frame.fst (by assumption) ?_
    change Frame.Fst _ _ _
    refine Frame.Fst.step ?_ (State.sendRemote_frame _ _ _ _ _ _)
    exact Frame.refl _

theorem State.windowFault_frame (s : State) (org : Nat) (write : Bool) :
    Frame ⟨[.out], [], false⟩ s (State.windowFault s org write) := by
  unfold State.windowFault
  refine Frame.step ?_ (State.emit_frame _ _)
  exact Frame.refl _

theorem State.sendPort_frame (s : State) (unit : Option Nat) (org : Nat) (addr : Nat) (len : Nat) (write : Bool) (data :
    Bytes) :
    Frame ⟨recordParts ++ [Part.out, Part.rem, Part.pci], recordRegs ++ [Reg.HCX_EVENTS], false⟩ s (State.sendPort s unit org addr len
    write data) := by
  unfold State.sendPort
  split
  · refine Frame.step ?_ (State.refuseAccess_frame _ _ _ _)
    refine Frame.fst (by assumption) ?_
    change Frame.Fst _ _ _
    refine Frame.Fst.step ?_ (State.sendPci_frame _ _ _ _ _ _ _)
    exact Frame.refl _
  · refine Frame.fst (by assumption) ?_
    change Frame.Fst _ _ _
    refine Frame.Fst.step ?_ (State.sendPci_frame _ _ _ _ _ _ _)
    exact Frame.refl _
  · refine Frame.step ?_ (State.emit_frame _ _)
    refine Frame.fst (by assumption) ?_
    change Frame.Fst _ _ _
    refine Frame.Fst.step ?_ (State.sendPci_frame _ _ _ _ _ _ _)
    exact Frame.refl _

theorem State.writeMaskedSpan_frame (s : State) (a : Nat) (data : Bytes) (mask : List Bool) :
    Frame ⟨recordParts, readRegs, false⟩ s (State.writeMaskedSpan s a data mask).1 := by
  show Frame.Fst _ _ _
  unfold State.writeMaskedSpan
  refine Frame.Fst.foldl ?_ fun t0 x0 y0 => ?_
  · refine Frame.Fst.mk ?_
    exact Frame.refl _
  · split
    refine Frame.Fst.mk ?_
    refine Frame.fst (by assumption) ?_
    change Frame.Fst _ _ _
    refine Frame.Fst.step ?_ (State.writeMasked_frame _ _ _ _)
    change Frame.Fst _ _ _
    refine Frame.Fst.mk ?_
    exact Frame.refl _

theorem State.answerAccess_frame (s : State) (org : Nat) (addr : Nat) (write : Bool) (ok : Bool) (data : Bytes) :
    Frame ⟨recordParts ++ [Part.out], recordRegs ++ [Reg.HCX_EVENTS], false⟩ s (State.answerAccess s org addr write ok data) := by
  unfold State.answerAccess
  refine Frame.ite ?_ ?_
  · refine Frame.step ?_ (State.emit_frame _ _)
    exact Frame.refl _
  · split
    · refine Frame.ite ?_ ?_
      · refine Frame.step ?_ (State.coreError_frame _ _ _ _)
        exact Frame.refl _
      · refine Frame.step ?_ (State.emit_frame _ _)
        exact Frame.refl _
    · refine Frame.step ?_ (State.emit_frame _ _)
      exact Frame.refl _

theorem State.memPartialWrite_frame (s : State) (org : Nat) (addr : Nat) (data : Bytes) (mask : List Bool) (flips : List
    Flip) :
    Frame ⟨abortParts ++ accessParts ++ [Part.power, Part.tick, Part.arrays, Part.coh, Part.imsic, Part.qcx, Part.bdi, Part.sec], [], true⟩ s
    (State.memPartialWrite s org addr data mask flips) := by
  unfold State.memPartialWrite
  split
  · extract_lets +onlyGivenNames t0
    extract_lets +onlyGivenNames t1
    extract_lets +onlyGivenNames t2
    refine Frame.step ?_ (State.sendWindow_frame _ _ _ _ _ _)
    exact Frame.refl _
  · refine Frame.step ?_ (State.windowFault_frame _ _ _)
    exact Frame.refl _
  · refine Frame.foldl fun t3 x3 => ?_
    refine Frame.step ?_ (State.sendPort_frame _ _ _ _ _ _ _)
    exact Frame.refl _
  · refine Frame.ite ?_ ?_
    · refine Frame.step ?_ (State.controlWrite_frame _ _ _ _ _ _)
      exact Frame.refl _
    · refine Frame.step ?_ (State.refuseAccess_frame _ _ _ _)
      exact Frame.refl _
  · refine Frame.step ?_ (State.refuseAccess_frame _ _ _ _)
    exact Frame.refl _
  · split
    refine Frame.step ?_ (State.answerAccess_frame _ _ _ _ _ _)
    refine Frame.fst (by assumption) ?_
    change Frame.Fst _ _ _
    refine Frame.Fst.step ?_ (State.writeMaskedSpan_frame _ _ _ _)
    refine Frame.step ?_ (State.disturbAll_frame _ _ _ _)
    exact Frame.refl _

theorem State.memWrite_frame (s : State) (org : Nat) (addr : Nat) (data : Bytes) :
    Frame ⟨recordParts ++ [Part.out, Part.rem, Part.pci], recordRegs ++ [Reg.HCX_EVENTS, Reg.VRT_EVENTS], false⟩ s (State.memWrite s org addr
    data) := by
  unfold State.memWrite
  split
  · refine Frame.step ?_ (State.sendWindow_frame _ _ _ _ _ _)
    exact Frame.refl _
  · refine Frame.step ?_ (State.windowFault_frame _ _ _)
    exact Frame.refl _
  · refine Frame.step ?_ (State.sendPort_frame _ _ _ _ _ _ _)
    exact Frame.refl _
  · refine Frame.step ?_ (State.refuseAccess_frame _ _ _ _)
    exact Frame.refl _
  · refine Frame.step ?_ (State.refuseAccess_frame _ _ _ _)
    exact Frame.refl _
  · refine Frame.step ?_ (State.answerAccess_frame _ _ _ _ _ _)
    refine Frame.step ?_ (State.writeGranule_frame _ _ _)
    exact Frame.refl _

theorem State.accWrite_frame (s : State) (org : Nat) (pa : Nat) (mask : Nat) (addends : List (BitVec 32)) (flips : List
    Flip) :
    Frame ⟨recordParts ++ [Part.out], recordRegs ++ [Reg.HBC_AW_SECTORS, Reg.HBC_COUNTS, Reg.HBC_EVENTS, Reg.HBC_UE_ADDR, Reg.OAS_COUNTS,
    Reg.OAS_EVENTS], false⟩ s (State.accWrite s org pa mask addends flips) := by
  unfold State.accWrite
  extract_lets +onlyGivenNames t0
  (extract_lets +onlyGivenNames t1; refine Frame.viaF (f := t1) (fun t => ?_) fun h1 => ?_; rotate_left; clear_value t1; rotate_left)
  · unfold t1
    split
    · refine Frame.step ?_ (State.faultOf_frame _ _ _ _)
      exact Frame.refl _
    · exact Frame.refl _
  · refine Frame.ite ?_ ?_
    · refine Frame.trans ?_ (h1 ..)
      refine Frame.step ?_ (State.emit_frame _ _)
      refine Frame.step ?_ (State.awRefuse_frame _ _)
      exact Frame.refl _
    · split
      refine Frame.ite ?_ ?_
      · refine Frame.step ?_ (State.emit_frame _ _)
        refine Frame.fst (by assumption) ?_
        change Frame.Fst _ _ _
        refine Frame.Fst.step ?_ (State.accumulate_frame _ _ _ _)
        refine Frame.ite ?_ ?_
        · refine Frame.step ?_ (State.disturbAll_frame _ _ _ _)
          exact Frame.refl _
        · exact Frame.refl _
      · refine Frame.trans ?_ (h1 ..)
        refine Frame.step ?_ (State.emit_frame _ _)
        refine Frame.fst (by assumption) ?_
        change Frame.Fst _ _ _
        refine Frame.Fst.step ?_ (State.accumulate_frame _ _ _ _)
        refine Frame.ite ?_ ?_
        · refine Frame.step ?_ (State.disturbAll_frame _ _ _ _)
          exact Frame.refl _
        · exact Frame.refl _

theorem State.controlRead_frame (s : State) (org : Nat) (addr : Nat) (len : Nat) :
    Frame ⟨recordParts ++ [Part.out], recordRegs ++ [Reg.HCX_EVENTS], false⟩ s (State.controlRead s org addr len) := by
  unfold State.controlRead
  split
  · refine Frame.ite ?_ ?_
    · refine Frame.step ?_ (State.emit_frame _ _)
      exact Frame.refl _
    · refine Frame.step ?_ (State.refuseAccess_frame _ _ _ _)
      exact Frame.refl _
  · refine Frame.step ?_ (State.refuseAccess_frame _ _ _ _)
    exact Frame.refl _

theorem State.memRead_frame (s : State) (org : Nat) (addr : Nat) (len : Nat) (flips : List Flip) :
    Frame ⟨recordParts ++ [Part.out, Part.rem, Part.pci], accessRegs ++ [Reg.HCX_EVENTS, Reg.OAS_COUNTS, Reg.OAS_EVENTS], false⟩ s (State.memRead
    s org addr len flips) := by
  unfold State.memRead
  split
  · refine Frame.step ?_ (State.sendWindow_frame _ _ _ _ _ _)
    exact Frame.refl _
  · refine Frame.step ?_ (State.windowFault_frame _ _ _)
    exact Frame.refl _
  · refine Frame.step ?_ (State.sendPort_frame _ _ _ _ _ _ _)
    exact Frame.refl _
  · refine Frame.step ?_ (State.controlRead_frame _ _ _ _)
    exact Frame.refl _
  · refine Frame.step ?_ (State.refuseAccess_frame _ _ _ _)
    exact Frame.refl _
  · split
    refine Frame.step ?_ (State.answerAccess_frame _ _ _ _ _ _)
    refine Frame.fst (by assumption) ?_
    change Frame.Fst _ _ _
    refine Frame.Fst.step ?_ (State.readGranule_frame _ _ _ _)
    refine Frame.step ?_ (State.disturbAll_frame _ _ _ _)
    exact Frame.refl _

end Sys2Proof.Machine
end

