-- ==== Sys2Proof/Laws/FramePcie.lean ====
section
/-! SUPPORT. The footprints of the functions of Machine/Pcie.lean. -/

namespace Sys2Proof.Machine

set_option Elab.async false

theorem State.pciAnswer_frame (s : State) (p : PciOut) (status : Nat) (data : Bytes) :
    Frame ⟨[.out, .rem, .pci], [], false⟩ s (State.pciAnswer s p status data) := by
  unfold State.pciAnswer
  (extract_lets +onlyGivenNames t0; refine Frame.via (t := t0) ?_ fun h0 => ?_; rotate_left; clear_value t0; rotate_left)
  · unfold t0
    refine Frame.step ?_ (State.onPci_frame _ _)
    exact Frame.refl _
  · split
    · refine Frame.step ?_ (State.onRem_frame _ _)
      exact h0
    · refine Frame.step ?_ (State.emit_frame _ _)
      exact h0

theorem State.pciCompleted_frame (s : State) (port : Nat) (tag : Nat) (status : Nat) (data : Bytes) :
    Frame ⟨[.out, .rem, .pci], [], false⟩ s (State.pciCompleted s port tag status data) := by
  unfold State.pciCompleted
  split
  · exact Frame.refl _
  · refine Frame.ite ?_ ?_
    · refine Frame.ite ?_ ?_
      · refine Frame.step ?_ (State.pciAnswer_frame _ _ _ _)
        exact Frame.refl _
      · refine Frame.ite ?_ ?_
        · refine Frame.step ?_ (State.pciAnswer_frame _ _ _ _)
          exact Frame.refl _
        · exact Frame.refl _
    · refine Frame.step ?_ (State.pciAnswer_frame _ _ _ _)
      exact Frame.refl _

theorem State.inboundUr_frame (s : State) (port : Nat) (r : PciRequest) :
    Frame ⟨[.out], [.PCI_COUNTS, .PCI_EVENTS], false⟩ s (State.inboundUr s port r) := by
  unfold State.inboundUr
  (extract_lets +onlyGivenNames t0; refine Frame.via (t := t0) ?_ fun h0 => ?_; rotate_left; clear_value t0; rotate_left)
  · unfold t0
    refine Frame.trans ?_ (State.flag_frame (h := ?_) _ _ _ _)
    · refine Frame.trans ?_ (State.bump_frame (h := ?_) _ _ _ _ _)
      · exact Frame.refl _
      · decide +kernel
    · decide +kernel
  · refine Frame.ite ?_ ?_
    · exact h0
    · refine Frame.step ?_ (State.emit_frame _ _)
      exact h0

theorem State.pciInbound_frame (s : State) (port : Nat) (r : PciRequest) :
    Frame ⟨recordParts ++ [Part.out, Part.imsic], readRegs ++ [Reg.PCI_COUNTS, Reg.PCI_EVENTS], false⟩ s (State.pciInbound s port r) := by
  unfold State.pciInbound
  extract_lets +onlyGivenNames t0
  extract_lets +onlyGivenNames t1
  refine Frame.ite ?_ ?_
  · exact Frame.refl _
  · refine Frame.ite ?_ ?_
    · extract_lets +onlyGivenNames t2
      refine Frame.ite ?_ ?_
      · refine Frame.step ?_ (State.interruptTo_frame _ _ _)
        exact Frame.refl _
      · refine Frame.step ?_ (State.inboundUr_frame _ _ _)
        exact Frame.refl _
    · refine Frame.ite ?_ ?_
      · refine Frame.ite ?_ ?_
        · change Frame.Fst _ _ _
          refine Frame.Fst.step ?_ (State.writeSpan_frame _ _ _)
          exact Frame.refl _
        · split
          refine Frame.step ?_ (State.emit_frame _ _)
          refine Frame.fst (by assumption) ?_
          change Frame.Fst _ _ _
          refine Frame.Fst.step ?_ (State.readSpan_frame _ _ _)
          exact Frame.refl _
      · refine Frame.step ?_ (State.inboundUr_frame _ _ _)
        exact Frame.refl _

theorem State.pciDown_frame (s : State) (port : Nat) :
    Frame ⟨[.out, .rem, .pci], [.PCI_EVENTS, .PCI_STATUS], false⟩ s (State.pciDown s port) := by
  unfold State.pciDown
  extract_lets +onlyGivenNames t0
  refine Frame.ite ?_ ?_
  · (extract_lets +onlyGivenNames t1; refine Frame.via (t := t1) ?_ fun h1 => ?_; rotate_left; clear_value t1; rotate_left)
    · unfold t1
      refine Frame.trans ?_ (State.flag_frame (h := ?_) _ _ _ _)
      · refine Frame.trans ?_ (State.setWord_frame (h := ?_) _ _ _ _ _)
        · exact Frame.refl _
        · decide +kernel
      · decide +kernel
    · refine Frame.trans ?_ (Frame.foldl fun t2 x2 => ?_)
      · exact h1
      · refine Frame.step ?_ (State.pciAnswer_frame _ _ _ _)
        exact Frame.refl _
  · exact Frame.refl _

theorem State.aerReport_frame (s : State) (port : Nat) (ue : Bool) :
    Frame ⟨[], [.PCI_COUNTS, .PCI_EVENTS], false⟩ s (State.aerReport s port ue) := by
  unfold State.aerReport
  refine Frame.ite ?_ ?_
  · refine Frame.trans ?_ (State.flag_frame (h := ?_) _ _ _ _)
    · exact Frame.refl _
    · decide +kernel
  · refine Frame.trans ?_ (State.flag_frame (h := ?_) _ _ _ _)
    · refine Frame.trans ?_ (State.bump_frame (h := ?_) _ _ _ _ _)
      · exact Frame.refl _
      · decide +kernel
    · decide +kernel

theorem State.pciUp_frame (s : State) (port : Nat) (rate : Nat) (width : Nat) :
    Frame ⟨[], [.PCI_STATUS], false⟩ s (State.pciUp s port rate width) := by
  unfold State.pciUp
  extract_lets +onlyGivenNames t0
  refine Frame.ite ?_ ?_
  · refine Frame.trans ?_ (State.put_frame (h := ?_) _ _ _ _ _)
    · refine Frame.trans ?_ (State.put_frame (h := ?_) _ _ _ _ _)
      · refine Frame.trans ?_ (State.flag_frame (h := ?_) _ _ _ _)
        · exact Frame.refl _
        · decide +kernel
      · decide +kernel
    · decide +kernel
  · exact Frame.refl _

end Sys2Proof.Machine
end

