-- ==== Sys2Proof/Laws/FrameQueueCmd.lean ====
section
/-! SUPPORT. The footprints of the functions of Machine/QueueCmd.lean. -/

namespace Sys2Proof.Machine

set_option Elab.async false

theorem CmdRun.note_frame (r : CmdRun) (pa len : Nat) : Frame ⟨[], [], false⟩ r.state (CmdRun.note r pa len).state := by
  unfold CmdRun.note
  split <;> exact .refl _

theorem CmdRun.write_frame (r : CmdRun) (u : Nat) (pa : Nat) (data : Bytes) :
    Frame ⟨abortParts ++ accessParts ++ [Part.power, Part.tick, Part.arrays, Part.coh, Part.imsic, Part.qcx, Part.bdi, Part.sec], [], true⟩ r.state
    (CmdRun.write r u pa data).state := by
  change Frame.At CmdRun.state _ _ _
  unfold CmdRun.write
  refine Frame.At.ite ?_ ?_
  · exact Frame.refl _
  · (extract_lets +onlyGivenNames t0; refine Frame.At.via (t := t0) ?_ fun h0 => ?_; rotate_left; clear_value t0; rotate_left)
    · unfold t0
      exact Frame.refl _
    · refine Frame.At.ite ?_ ?_
      · split
        · (change Frame _ _ _; dsimp only)
          refine Frame.step ?_ (State.regWrite_frame _ _ _ _ _ _ _ _)
          exact h0
        · (change Frame _ _ _; dsimp only)
          exact Frame.refl _
      · (extract_lets +onlyGivenNames t1; refine Frame.At.viaAt ReadResult.state (b := t1) ?_ fun h1 => ?_; rotate_left; clear_value t1; rotate_left)
        · unfold t1
          refine Frame.At.step ?_ (State.writePhysical_frame _ _ _ _)
          dsimp only
          exact h0
        · refine Frame.At.ite ?_ ?_
          · (change Frame _ _ _; dsimp only)
            exact h1
          · refine Frame.At.step ?_ (CmdRun.note_frame _ _ _)
            dsimp only
            exact h1

theorem State.dropCmd_frame (s : State) (c : Cmd) :
    Frame ⟨[.imsic, .qcx], [], false⟩ s (State.dropCmd s c) := by
  unfold State.dropCmd
  (extract_lets +onlyGivenNames t0; refine Frame.via (t := t0) ?_ fun h0 => ?_; rotate_left; clear_value t0; rotate_left)
  · unfold t0
    refine Frame.step ?_ (State.onQcx_frame _ _)
    exact Frame.refl _
  · (extract_lets +onlyGivenNames t1; refine Frame.via (t := t1) ?_ fun h1 => ?_; rotate_left; clear_value t1; rotate_left)
    · unfold t1
      refine Frame.ite ?_ ?_
      · refine Frame.step ?_ (State.interruptTo_frame _ _ _)
        exact h0
      · exact h0
    · refine Frame.step ?_ (State.settleQueue_frame _ _)
      exact h1

theorem CmdRun.read_frame (r : CmdRun) (u : Nat) (pa : Nat) (len : Nat) :
    Frame ⟨recordParts ++ [Part.out, Part.rem, Part.pci], accessRegs, false⟩ r.state (CmdRun.read r u pa len).state := by
  change Frame.At CmdRun.state _ _ _
  unfold CmdRun.read
  (extract_lets +onlyGivenNames t0; refine Frame.At.via (t := t0) ?_ fun h0 => ?_; rotate_left; clear_value t0; rotate_left)
  · unfold t0
    exact Frame.refl _
  · refine Frame.At.ite ?_ ?_
    · split
      · (change Frame _ _ _; dsimp only)
        exact Frame.refl _
      · (change Frame _ _ _; dsimp only)
        exact Frame.refl _
    · (extract_lets +onlyGivenNames t1; refine Frame.At.viaAt ReadResult.state (b := t1) ?_ fun h1 => ?_; rotate_left; clear_value t1; rotate_left)
      · unfold t1
        refine Frame.At.step ?_ (State.readPhysical_frame _ _ _ _)
        dsimp only
        exact h0
      · refine Frame.At.ite ?_ ?_
        · (change Frame _ _ _; dsimp only)
          exact h1
        · refine Frame.At.ite ?_ ?_
          · (change Frame _ _ _; dsimp only)
            exact h1
          · (change Frame _ _ _; dsimp only)
            exact h1

theorem State.readBack_frame (s : State) (c : Cmd) :
    Frame ⟨recordParts ++ [Part.out, Part.rem, Part.pci], accessRegs, false⟩ s (State.readBack s c).state := by
  change Frame.At CmdRun.state _ _ _
  unfold State.readBack
  refine Frame.At.foldl ?_ fun t0 x0 => ?_
  · (change Frame _ _ _; dsimp only)
    exact Frame.refl _
  · refine Frame.At.step ?_ (CmdRun.read_frame _ _ _ _)
    exact Frame.refl _

theorem State.onCmd_frame (s : State) (q : Nat) (c : Nat) (f : Cmd → Cmd) :
    Frame ⟨[.qcx], [], false⟩ s (State.onCmd s q c f) := by
  unfold State.onCmd
  refine Frame.step ?_ (State.onQcx_frame _ _)
  exact Frame.refl _

theorem State.writeFlag_frame (s : State) (c : Cmd) :
    Frame ⟨abortParts ++ accessParts ++ [Part.power, Part.tick, Part.arrays, Part.coh, Part.imsic, Part.qcx, Part.bdi, Part.sec], [], true⟩ s
    (State.writeFlag s c) := by
  unfold State.writeFlag
  (extract_lets +onlyGivenNames t0; refine Frame.viaAt CmdRun.state (b := t0) ?_ fun h0 => ?_; rotate_left; clear_value t0; rotate_left)
  · unfold t0
    refine Frame.At.step ?_ (CmdRun.write_frame _ _ _ _)
    dsimp only
    exact Frame.refl _
  · refine Frame.ite ?_ ?_
    · refine Frame.step ?_ (State.dropCmd_frame _ _)
      change Frame.At CmdRun.state _ _ _
      refine Frame.At.step ?_ (State.readBack_frame _ _)
      exact h0
    · refine Frame.step ?_ (State.onCmd_frame _ _ _ _)
      exact h0

theorem State.endCmd_frame (s : State) (c : Cmd) (status : Nat) :
    Frame ⟨[.qcx], [], false⟩ s (State.endCmd s c status) := by
  unfold State.endCmd
  refine Frame.step ?_ (State.onCmd_frame _ _ _ _)
  exact Frame.refl _

theorem State.postRecord_frame (s : State) (c : Cmd) (status : Nat) :
    Frame ⟨abortParts ++ accessParts ++ [Part.power, Part.tick, Part.arrays, Part.coh, Part.imsic, Part.qcx, Part.bdi, Part.sec], [], true⟩ s
    (State.postRecord s c status) := by
  unfold State.postRecord
  extract_lets +onlyGivenNames t0
  extract_lets +onlyGivenNames t1
  extract_lets +onlyGivenNames t2
  (extract_lets +onlyGivenNames t3; refine Frame.via (t := t3) ?_ fun h3 => ?_; rotate_left; clear_value t3; rotate_left)
  · unfold t3
    refine Frame.step ?_ (State.updWrite_frame _ _ _)
    exact Frame.refl _
  · (extract_lets +onlyGivenNames t4; refine Frame.via (t := t4) ?_ fun h4 => ?_; rotate_left; clear_value t4; rotate_left)
    · unfold t4
      refine Frame.step ?_ (State.onCmd_frame _ _ _ _)
      refine Frame.step ?_ (State.setCtx_frame _ _ _ _)
      exact h3
    · (extract_lets +onlyGivenNames t5; refine Frame.via (t := t5) ?_ fun h5 => ?_; rotate_left; clear_value t5; rotate_left)
      · unfold t5
        refine Frame.ite ?_ ?_
        · refine Frame.step ?_ (State.queueError_frame _ _ _)
          refine Frame.step ?_ (State.setCtx_frame _ _ _ _)
          exact h4
        · exact h4
      · refine Frame.ite ?_ ?_
        · refine Frame.step ?_ (State.writeFlag_frame _ _)
          exact h5
        · refine Frame.step ?_ (State.dropCmd_frame _ _)
          exact h5

theorem State.completeCmd_frame (s : State) (c : Cmd) (status : Nat) :
    Frame ⟨abortParts ++ accessParts ++ [Part.power, Part.tick, Part.arrays, Part.coh, Part.imsic, Part.qcx, Part.bdi, Part.sec], [], true⟩ s
    (State.completeCmd s c status) := by
  unfold State.completeCmd
  (extract_lets +onlyGivenNames t0; refine Frame.viaAt CmdRun.state (b := t0) ?_ fun h0 => ?_; rotate_left; clear_value t0; rotate_left)
  · unfold t0
    refine Frame.At.step ?_ (State.readBack_frame _ _)
    exact Frame.refl _
  · refine Frame.ite ?_ ?_
    · exact h0
    · (extract_lets +onlyGivenNames t1; refine Frame.via (t := t1) ?_ fun h1 => ?_; rotate_left; clear_value t1; rotate_left)
      · unfold t1
        refine Frame.step ?_ (State.dropArrived_frame _ _)
        exact h0
      · extract_lets +onlyGivenNames t2
        (extract_lets +onlyGivenNames t3; refine Frame.via (t := t3) ?_ fun h3 => ?_; rotate_left; clear_value t3; rotate_left)
        · unfold t3
          split
          · refine Frame.ite ?_ ?_
            · refine Frame.step ?_ (State.faultOf_frame _ _ _ _)
              exact h1
            · exact h1
          · exact h1
        · extract_lets +onlyGivenNames t4
          refine Frame.ite ?_ ?_
          · refine Frame.step ?_ (State.endCmd_frame _ _ _)
            refine Frame.trans ?_ (State.flag_frame (h := ?_) _ _ _ _)
            · exact h3
            · decide +kernel
          · (extract_lets +onlyGivenNames t5; refine Frame.via (t := t5) ?_ fun h5 => ?_; rotate_left; clear_value t5; rotate_left)
            · unfold t5
              refine Frame.ite ?_ ?_
              · refine Frame.step ?_ (State.faultOf_frame _ _ _ _)
                exact h3
              · exact h3
            · refine Frame.step ?_ (State.postRecord_frame _ _ _)
              exact h5

theorem State.finishCmd_frame (s : State) (q : Nat) (c : Nat) :
    Frame ⟨abortParts ++ accessParts ++ [Part.power, Part.tick, Part.arrays, Part.coh, Part.imsic, Part.qcx, Part.bdi, Part.sec], [], true⟩ s
    (State.finishCmd s q c) := by
  unfold State.finishCmd
  split
  · exact Frame.refl _
  · refine Frame.ite ?_ ?_
    · exact Frame.refl _
    · refine Frame.ite ?_ ?_
      · (extract_lets +onlyGivenNames t0; refine Frame.viaAt CmdRun.state (b := t0) ?_ fun h0 => ?_; rotate_left; clear_value t0; rotate_left)
        · unfold t0
          refine Frame.At.step ?_ (State.readBack_frame _ _)
          exact Frame.refl _
        · refine Frame.ite ?_ ?_
          · exact h0
          · refine Frame.step ?_ (State.dropCmd_frame _ _)
            refine Frame.step ?_ (State.dropArrived_frame _ _)
            exact h0
      · split
        · exact Frame.refl _
        · refine Frame.step ?_ (State.completeCmd_frame _ _ _)
          exact Frame.refl _

theorem State.signalCmd_frame (s : State) (c : Cmd) :
    Frame ⟨recordParts ++ [Part.syn, Part.qcx], recordRegs ++ [Reg.SYN_OBJ_LAST, Reg.SYN_OBJ_LAST_TICK, Reg.SYN_OBJ_VALUE, Reg.VRT_EVENTS],
    false⟩ s (State.signalCmd s c) := by
  unfold State.signalCmd
  extract_lets +onlyGivenNames t0
  extract_lets +onlyGivenNames t1
  extract_lets +onlyGivenNames t2
  extract_lets +onlyGivenNames t3
  extract_lets +onlyGivenNames t4
  extract_lets +onlyGivenNames t5
  extract_lets +onlyGivenNames t6
  (extract_lets +onlyGivenNames t7; refine Frame.viaF (f := t7) (fun t => ?_) fun h7 => ?_; rotate_left; clear_value t7; rotate_left)
  · unfold t7
    refine Frame.step ?_ (State.endCmd_frame _ _ _)
    refine Frame.step ?_ (State.faultOf_frame _ _ _ _)
    exact Frame.refl _
  · refine Frame.ite ?_ ?_
    · refine Frame.trans ?_ (h7 ..)
      exact Frame.refl _
    · refine Frame.ite ?_ ?_
      · refine Frame.ite ?_ ?_
        · refine Frame.trans ?_ (h7 ..)
          exact Frame.refl _
        · refine Frame.ite ?_ ?_
          · refine Frame.trans ?_ (h7 ..)
            refine Frame.step ?_ (State.flagNoRoute_frame _ _ _)
            exact Frame.refl _
          · refine Frame.step ?_ (State.tc0To_frame _ _ _ _ _)
            exact Frame.refl _
      · refine Frame.ite ?_ ?_
        · refine Frame.trans ?_ (h7 ..)
          exact Frame.refl _
        · refine Frame.step ?_ (State.endCmd_frame _ _ _)
          refine Frame.step ?_ (State.applySignal_frame _ _ _ _ _ _)
          exact Frame.refl _

theorem CmdRun.readSpan_frame (r : CmdRun) (u : Nat) (asid : Nat) (va : Nat) (len : Nat) :
    Frame ⟨accessParts, accessRegs, false⟩ r.state (CmdRun.readSpan r u asid va len).state := by
  change Frame.At CmdRun.state _ _ _
  unfold CmdRun.readSpan
  refine Frame.At.foldl ?_ fun t0 x0 => ?_
  · exact Frame.refl _
  · split
    · refine Frame.At.step ?_ (CmdRun.read_frame _ _ _ _)
      exact Frame.refl _
    · extract_lets +onlyGivenNames t1
      (extract_lets +onlyGivenNames t2; refine Frame.At.viaAt CmdRun.state (b := t2) ?_ fun h2 => ?_; rotate_left; clear_value t2; rotate_left)
      · unfold t2
        refine Frame.At.step ?_ (CmdRun.read_frame _ _ _ _)
        dsimp only
        refine Frame.step ?_ (State.xltUse_frame _ _ _ _)
        exact Frame.refl _
      · (change Frame _ _ _; dsimp only)
        refine Frame.ite ?_ ?_
        · refine Frame.step ?_ (State.noteIssued_frame _ _ _ _ _)
          exact h2
        · exact h2

theorem CmdRun.writeSpan_frame (r : CmdRun) (u : Nat) (asid : Nat) (va : Nat) (data : Bytes) :
    Frame ⟨abortParts ++ accessParts ++ [Part.power, Part.tick, Part.arrays, Part.coh, Part.imsic, Part.qcx, Part.bdi, Part.sec], [], true⟩ r.state
    (CmdRun.writeSpan r u asid va data).state := by
  change Frame.At CmdRun.state _ _ _
  unfold CmdRun.writeSpan
  refine Frame.At.foldl ?_ fun t0 x0 => ?_
  · exact Frame.refl _
  · (extract_lets +onlyGivenNames t1; refine Frame.At.viaAt CmdRun.state (b := t1) ?_ fun h1 => ?_; rotate_left; clear_value t1; rotate_left)
    · unfold t1
      (change Frame _ _ _; dsimp only)
      refine Frame.step ?_ (State.xltUse_frame _ _ _ _)
      exact Frame.refl _
    · refine Frame.At.step ?_ (CmdRun.write_frame _ _ _ _)
      exact h1

theorem Cmd.perform_frame (c : Cmd) (s : State) (asid : Nat) :
    Frame ⟨abortParts ++ accessParts ++ [Part.power, Part.tick, Part.arrays, Part.coh, Part.imsic, Part.qcx, Part.bdi, Part.sec], [], true⟩ s (Cmd.perform c
    s asid).state := by
  change Frame.At CmdRun.state _ _ _
  unfold Cmd.perform
  extract_lets +onlyGivenNames t0
  split
  · (extract_lets +onlyGivenNames t1; refine Frame.At.viaAt CmdRun.state (b := t1) ?_ fun h1 => ?_; rotate_left; clear_value t1; rotate_left)
    · unfold t1
      refine Frame.At.step ?_ (CmdRun.readSpan_frame _ _ _ _ _)
      dsimp only
      exact Frame.refl _
    · refine Frame.At.ite ?_ ?_
      · exact h1
      · refine Frame.At.step ?_ (CmdRun.writeSpan_frame _ _ _ _ _)
        exact h1
  · refine Frame.At.step ?_ (CmdRun.writeSpan_frame _ _ _ _ _)
    dsimp only
    exact Frame.refl _
  · refine Frame.At.step ?_ (CmdRun.writeSpan_frame _ _ _ _ _)
    dsimp only
    exact Frame.refl _
  · (change Frame _ _ _; dsimp only)
    exact Frame.refl _

theorem State.performCmd_frame (s : State) (c : Cmd) (asid : Nat) :
    Frame ⟨abortParts ++ accessParts ++ [Part.power, Part.tick, Part.arrays, Part.coh, Part.imsic, Part.qcx, Part.bdi, Part.sec], [], true⟩ s
    (State.performCmd s c asid) := by
  unfold State.performCmd
  extract_lets +onlyGivenNames t0
  (extract_lets +onlyGivenNames t1; refine Frame.via (t := t1) ?_ fun h1 => ?_; rotate_left; clear_value t1; rotate_left)
  · unfold t1
    refine Frame.step ?_ (State.onCmd_frame _ _ _ _)
    exact Frame.refl _
  · refine Frame.ite ?_ ?_
    · refine Frame.step ?_ (State.signalCmd_frame _ _)
      exact h1
    · (extract_lets +onlyGivenNames t2; refine Frame.viaAt CmdRun.state (b := t2) ?_ fun h2 => ?_; rotate_left; clear_value t2; rotate_left)
      · unfold t2
        refine Frame.At.step ?_ (Cmd.perform_frame _ _ _)
        exact h1
      · refine Frame.ite ?_ ?_
        · exact h2
        · (extract_lets +onlyGivenNames t3; refine Frame.via (t := t3) ?_ fun h3 => ?_; rotate_left; clear_value t3; rotate_left)
          · unfold t3
            refine Frame.step ?_ (State.onCmd_frame _ _ _ _)
            refine Frame.step ?_ (State.dropArrived_frame _ _)
            exact h2
          · split
            · refine Frame.step ?_ (State.endCmd_frame _ _ _)
              refine Frame.step ?_ (State.faultOf_frame _ _ _ _)
              exact h3
            · refine Frame.step ?_ (State.endCmd_frame _ _ _)
              exact h3

theorem State.runCmd_frame (s : State) (c : Cmd) :
    Frame ⟨abortParts ++ accessParts ++ [Part.power, Part.tick, Part.arrays, Part.coh, Part.imsic, Part.qcx, Part.bdi, Part.sec], [], true⟩ s (State.runCmd
    s c) := by
  unfold State.runCmd
  extract_lets +onlyGivenNames t0
  extract_lets +onlyGivenNames t1
  refine Frame.ite ?_ ?_
  · exact Frame.refl _
  · split
    · refine Frame.step ?_ (State.openMiss_frame _ _ _ _ _)
      exact Frame.refl _
    · refine Frame.step ?_ (State.faultCommand_frame _ _ _ _ _ _)
      exact Frame.refl _
    · refine Frame.step ?_ (State.performCmd_frame _ _ _)
      exact Frame.refl _

theorem State.startCmd_frame (s : State) (c : Cmd) :
    Frame.Opt ⟨[.qcx], [], false⟩ s (State.startCmd s c) := by
  unfold State.startCmd
  extract_lets +onlyGivenNames t0
  refine Frame.Opt.ite ?_ ?_
  · split
    · exact Frame.Opt.none
    · refine Frame.Opt.some ?_
      refine Frame.step ?_ (State.onQcx_frame _ _)
      refine Frame.step ?_ (State.onCmd_frame _ _ _ _)
      exact Frame.refl _
  · exact Frame.Opt.none

theorem State.serve_frame (s : State) (q : Nat) (c : Nat) (opcode : Nat) :
    Frame ⟨abortParts ++ accessParts ++ [Part.power, Part.tick, Part.arrays, Part.coh, Part.imsic, Part.qcx, Part.bdi, Part.sec], [], true⟩ s (State.serve s
    q c opcode) := by
  unfold State.serve
  split
  · exact Frame.refl _
  · refine Frame.ite ?_ ?_
    · exact Frame.refl _
    · refine Frame.ite ?_ ?_
      · refine Frame.step ?_ (State.runCmd_frame _ _)
        exact Frame.refl _
      · split
        · exact Frame.refl _
        · split
          · refine Frame.step ?_ (State.runCmd_frame _ _)
            refine Frame.opt (by assumption) ?_
            refine Frame.Opt.step ?_ (State.startCmd_frame _ _)
            exact Frame.refl _
          · refine Frame.opt (by assumption) ?_
            refine Frame.Opt.step ?_ (State.startCmd_frame _ _)
            exact Frame.refl _

end Sys2Proof.Machine
end

