-- ==== Sys2Proof/Laws/FrameTick.lean ====
section
/-! SUPPORT. The footprints of the functions of Machine/Tick.lean. -/

namespace Sys2Proof.Machine

set_option Elab.async false

theorem State.readsOwn_frame (s : State) :
    Frame ⟨[], [.TCK_STATUS], false⟩ s (State.readsOwn s) := by
  unfold State.readsOwn
  refine Frame.ite ?_ ?_
  · (extract_lets +onlyGivenNames t0; refine Frame.via (t := t0) ?_ fun h0 => ?_; rotate_left; clear_value t0; rotate_left)
    · unfold t0
      refine Frame.trans ?_ (State.put_frame (h := ?_) _ _ _ _ _)
      · refine Frame.trans ?_ (State.put_frame (h := ?_) _ _ _ _ _)
        · exact Frame.refl _
        · decide +kernel
      · decide +kernel
    · refine Frame.trans ?_ (State.put_frame (h := ?_) _ _ _ _ _)
      · refine Frame.trans ?_ (State.put_frame (h := ?_) _ _ _ _ _)
        · exact h0
        · decide +kernel
      · decide +kernel
  · exact Frame.refl _

theorem State.countPeriod_frame (s : State) :
    Frame ⟨[.tick], [.TCK_STATUS], false⟩ s (State.countPeriod s) := by
  unfold State.countPeriod
  (extract_lets +onlyGivenNames t0; refine Frame.via (t := t0) ?_ fun h0 => ?_; rotate_left; clear_value t0; rotate_left)
  · unfold t0
    refine Frame.ite ?_ ?_
    · exact Frame.refl _
    · refine Frame.trans ?_ (State.put_frame (h := ?_) _ _ _ _ _)
      · exact Frame.refl _
      · decide +kernel
  · extract_lets +onlyGivenNames t1
    refine Frame.step ?_ (State.onTick_frame _ _)
    exact h0

theorem State.timerAdvance_frame (s : State) :
    Frame ⟨[.fresh, .tick], [], false⟩ s (State.timerAdvance s) := by
  unfold State.timerAdvance
  extract_lets +onlyGivenNames t0
  extract_lets +onlyGivenNames t1
  refine Frame.step ?_ (State.onTick_frame _ _)
  refine Frame.step ?_ (State.took_frame _ _)
  exact Frame.refl _

theorem State.actOnHalt_frame (s : State) :
    Frame ⟨storeParts ++ [Part.sched, Part.codec, Part.fsel, Part.upd, Part.rdx, Part.syn, Part.ldg], ledgerRegs ++ [Reg.CDC_EVENTS, Reg.CDC_PENDING,
    Reg.RDX_STRAY, Reg.SCH_CTRL, Reg.SCH_EPOCH, Reg.SYN_OBJ_VALUE, Reg.SYN_STATUS, Reg.UPD_STATUS, Reg.VRT_BANK], false⟩ s (State.actOnHalt s) :=
    by
  unfold State.actOnHalt
  split
  · exact Frame.refl _
  · (extract_lets +onlyGivenNames t0; refine Frame.via (t := t0) ?_ fun h0 => ?_; rotate_left; clear_value t0; rotate_left)
    · unfold t0
      refine Frame.step ?_ (State.onSched_frame _ _)
      exact Frame.refl _
    · refine Frame.ite ?_ ?_
      · refine Frame.step ?_ (State.onSched_frame _ _)
        refine Frame.step ?_ (State.abortStep_frame _)
        exact h0
      · refine Frame.ite ?_ ?_
        · exact h0
        · refine Frame.step ?_ (State.setSched_frame _ _)
          exact h0

theorem State.sendRelease_frame (s : State) :
    Frame ⟨[.sched, .vrt], [], false⟩ s (State.sendRelease s) := by
  unfold State.sendRelease
  refine Frame.ite ?_ ?_
  · extract_lets +onlyGivenNames t0
    (extract_lets +onlyGivenNames t1; refine Frame.via (t := t1) ?_ fun h1 => ?_; rotate_left; clear_value t1; rotate_left)
    · unfold t1
      refine Frame.step ?_ (State.onSched_frame _ _)
      exact Frame.refl _
    · refine Frame.step ?_ (State.rootBroadcast_frame _ _)
      exact h1
  · refine Frame.step ?_ (State.onSched_frame _ _)
    exact Frame.refl _

theorem State.rollFabric_frame (s : State) :
    Frame ⟨[.vrt, .bdi], [.VRT_POP], false⟩ s (State.rollFabric s) := by
  unfold State.rollFabric
  extract_lets +onlyGivenNames t0
  (extract_lets +onlyGivenNames t1; refine Frame.via (t := t1) ?_ fun h1 => ?_; rotate_left; clear_value t1; rotate_left)
  · unfold t1
    refine Frame.foldl fun t2 x2 => ?_
    refine Frame.foldl fun t3 x3 => ?_
    refine Frame.trans ?_ (State.put_frame (h := ?_) _ _ _ _ _)
    · refine Frame.trans ?_ (State.put_frame (h := ?_) _ _ _ _ _)
      · exact Frame.refl _
      · decide +kernel
    · decide +kernel
  · (extract_lets +onlyGivenNames t4; refine Frame.via (t := t4) ?_ fun h4 => ?_; rotate_left; clear_value t4; rotate_left)
    · unfold t4
      refine Frame.step ?_ (State.onVrt_frame _ _)
      exact h1
    · refine Frame.step ?_ (State.onBdi_frame _ _)
      exact h4

theorem State.rollWindows_frame (s : State) :
    Frame ⟨storeParts ++ [Part.sched, Part.vrt, Part.flt], storeRegs ++ [Reg.FLT_DIE_HEALTH, Reg.FLT_EVENTS, Reg.FLT_QPTR, Reg.FLT_RATE,
    Reg.FLT_STATUS, Reg.FLT_UNPLACED], false⟩ s (State.rollWindows s) := by
  unfold State.rollWindows
  (extract_lets +onlyGivenNames t0; refine Frame.via (t := t0) ?_ fun h0 => ?_; rotate_left; clear_value t0; rotate_left)
  · unfold t0
    refine Frame.step ?_ (State.flushCoalesced_frame _)
    exact Frame.refl _
  · extract_lets +onlyGivenNames t1
    (extract_lets +onlyGivenNames t2; refine Frame.via (t := t2) ?_ fun h2 => ?_; rotate_left; clear_value t2; rotate_left)
    · unfold t2
      refine Frame.step ?_ (State.onFlt_frame _ _ rfl)
      exact h0
    · (extract_lets +onlyGivenNames t3; refine Frame.via (t := t3) ?_ fun h3 => ?_; rotate_left; clear_value t3; rotate_left)
      · unfold t3
        refine Frame.trans ?_ (State.put_frame (h := ?_) _ _ _ _ _)
        · refine Frame.trans ?_ (State.put_frame (h := ?_) _ _ _ _ _)
          · exact h2
          · decide +kernel
        · decide +kernel
      · (extract_lets +onlyGivenNames t4; refine Frame.via (t := t4) ?_ fun h4 => ?_; rotate_left; clear_value t4; rotate_left)
        · unfold t4
          refine Frame.trans ?_ (Frame.foldl fun t5 x5 => ?_)
          · exact h3
          · refine Frame.trans ?_ (State.put_frame (h := ?_) _ _ _ _ _)
            · exact Frame.refl _
            · decide +kernel
        · refine Frame.step ?_ (State.onHbm_frame _ _)
          exact h4

theorem State.markOut_frame (s : State) :
    Frame ⟨[.out, .vrt], [.TCK_EVENTS], false⟩ s (State.markOut s) := by
  unfold State.markOut
  (extract_lets +onlyGivenNames t0; refine Frame.via (t := t0) ?_ fun h0 => ?_; rotate_left; clear_value t0; rotate_left)
  · unfold t0
    refine Frame.ite ?_ ?_
    · refine Frame.step ?_ (State.tc0Bcast_frame _ _ _)
      exact Frame.refl _
    · exact Frame.refl _
  · split
    · refine Frame.step ?_ (State.emit_frame _ _)
      exact h0
    · refine Frame.trans ?_ (State.flag_frame (h := ?_) _ _ _ _)
      · exact h0
      · decide +kernel
    · exact h0

theorem State.tickModule_frame (s : State) :
    Frame ⟨storeParts ++ [Part.out, Part.tick, Part.sched, Part.codec, Part.fsel, Part.upd, Part.rdx, Part.vrt, Part.flt, Part.syn, Part.bdi, Part.ldg], ledgerRegs ++ [Reg.CDC_EVENTS, Reg.CDC_PENDING, Reg.FLT_DIE_HEALTH, Reg.FLT_EVENTS, Reg.FLT_QPTR, Reg.FLT_RATE, Reg.FLT_STATUS, Reg.FLT_UNPLACED, Reg.RDX_STRAY,
    Reg.SCH_CTRL, Reg.SCH_EPOCH, Reg.SEC_START, Reg.SYN_OBJ_VALUE, Reg.SYN_STATUS, Reg.TCK_EVENTS, Reg.TCK_STATUS, Reg.UPD_STATUS, Reg.VRT_BANK,
    Reg.VRT_POP], false⟩ s (State.tickModule s) := by
  unfold State.tickModule
  (extract_lets +onlyGivenNames t0; refine Frame.via (t := t0) ?_ fun h0 => ?_; rotate_left; clear_value t0; rotate_left)
  · unfold t0
    refine Frame.step ?_ (State.checkJoined_frame _)
    refine Frame.step ?_ (State.readsOwn_frame _)
    refine Frame.step ?_ (State.countPeriod_frame _)
    refine Frame.step ?_ (State.timerAdvance_frame _)
    exact Frame.refl _
  · refine Frame.step ?_ (State.actOnHalt_frame _)
    refine Frame.step ?_ (State.sendRelease_frame _)
    refine Frame.step ?_ (State.rollFabric_frame _)
    refine Frame.step ?_ (State.rollWindows_frame _)
    refine Frame.step ?_ (State.markOut_frame _)
    exact h0

theorem State.enterTick_frame (s : State) (st : Nat) :
    Frame ⟨[.tick], [.TCK_STATUS], false⟩ s (State.enterTick s st) := by
  unfold State.enterTick
  refine Frame.step ?_ (State.onTick_frame _ _)
  refine Frame.trans ?_ (State.put_frame (h := ?_) _ _ _ _ _)
  · exact Frame.refl _
  · decide +kernel

theorem State.markRow_frame (s : State) (off : Nat) (twice : Bool) :
    Frame ⟨[.tick], [.TCK_EVENTS, .TCK_STATUS], false⟩ s (State.markRow s off twice) := by
  unfold State.markRow
  extract_lets +onlyGivenNames t0
  (extract_lets +onlyGivenNames t1; refine Frame.via (t := t1) ?_ fun h1 => ?_; rotate_left; clear_value t1; rotate_left)
  · unfold t1
    refine Frame.step ?_ (State.onTick_frame _ _)
    exact Frame.refl _
  · split
    · refine Frame.ite ?_ ?_
      · refine Frame.step ?_ (State.enterTick_frame _ _)
        exact h1
      · exact h1
    · refine Frame.ite ?_ ?_
      · refine Frame.step ?_ (State.enterTick_frame _ _)
        refine Frame.trans ?_ (State.flag_frame (h := ?_) _ _ _ _)
        · exact h1
        · decide +kernel
      · exact h1
    · refine Frame.step ?_ (State.enterTick_frame _ _)
      exact h1
    · exact h1

theorem State.tickDie_frame (s : State) (die : Nat) :
    Frame ⟨abortParts ++ [Part.out, Part.tick, Part.bdi], abortRegs ++ readRegs ++ [Reg.SCH_REPLAY, Reg.SCH_SLIP_COUNT, Reg.SCH_STEP, Reg.SEC_START,
    Reg.TCK_COUNT, Reg.TCK_EVENTS, Reg.TCK_STATUS, Reg.UPD_COUNTS, Reg.UPD_EVENTS, Reg.UPD_LOSS, Reg.UPD_UNUM, Reg.VRT_POP], false⟩ s (State.tickDie
    s die) := by
  unfold State.tickDie
  (extract_lets +onlyGivenNames t0; refine Frame.via (t := t0) ?_ fun h0 => ?_; rotate_left; clear_value t0; rotate_left)
  · unfold t0
    refine Frame.trans ?_ (State.addWrap_frame (h := ?_) _ _ _ _ _)
    · exact Frame.refl _
    · decide +kernel
  · (extract_lets +onlyGivenNames t1; refine Frame.via (t := t1) ?_ fun h1 => ?_; rotate_left; clear_value t1; rotate_left)
    · unfold t1
      refine Frame.ite ?_ ?_
      · refine Frame.step ?_ (State.tickModule_frame _)
        exact h0
      · exact h0
    · refine Frame.trans ?_ (Frame.foldl fun t2 x2 => ?_)
      · exact h1
      · refine Frame.step ?_ (State.goOn_frame _ _ _)
        refine Frame.step ?_ (State.countTick_frame _ _)
        exact Frame.refl _

theorem State.setTimer_frame (s : State) (c : Nat) (t : Int) :
    Frame ⟨[.tick], [.TCK_COUNT], false⟩ s (State.setTimer s c t) := by
  unfold State.setTimer
  extract_lets +onlyGivenNames t0
  (extract_lets +onlyGivenNames t1; refine Frame.via (t := t1) ?_ fun h1 => ?_; rotate_left; clear_value t1; rotate_left)
  · unfold t1
    refine Frame.foldl fun t2 x2 => ?_
    refine Frame.trans ?_ (State.put_frame (h := ?_) _ _ _ _ _)
    · exact Frame.refl _
    · decide +kernel
  · refine Frame.step ?_ (State.onTick_frame _ _)
    exact h1

theorem State.discardMark_frame (s : State) (event : Bool) :
    Frame ⟨[.tick], [.TCK_EVENTS], false⟩ s (State.discardMark s event) := by
  unfold State.discardMark
  (extract_lets +onlyGivenNames t0; refine Frame.via (t := t0) ?_ fun h0 => ?_; rotate_left; clear_value t0; rotate_left)
  · unfold t0
    refine Frame.step ?_ (State.onTick_frame _ _)
    exact Frame.refl _
  · refine Frame.ite ?_ ?_
    · refine Frame.trans ?_ (State.flag_frame (h := ?_) _ _ _ _)
      · exact h0
      · decide +kernel
    · exact h0

theorem State.followMark_frame (s : State) (pkt : Bytes) (arrival : Nat) (backup : Bool) :
    Frame ⟨abortParts ++ [Part.tick], abortRegs ++ [Reg.TCK_COUNT, Reg.TCK_EVENTS, Reg.TCK_STATUS], false⟩ s (State.followMark s pkt
    arrival backup) := by
  unfold State.followMark
  extract_lets +onlyGivenNames t0
  extract_lets +onlyGivenNames t1
  extract_lets +onlyGivenNames t2
  extract_lets +onlyGivenNames t3
  extract_lets +onlyGivenNames t4
  (extract_lets +onlyGivenNames t5; refine Frame.via (t := t5) ?_ fun h5 => ?_; rotate_left; clear_value t5; rotate_left)
  · unfold t5
    refine Frame.trans ?_ (State.put_frame (h := ?_) _ _ _ _ _)
    · refine Frame.trans ?_ (State.put_frame (h := ?_) _ _ _ _ _)
      · refine Frame.trans ?_ (State.put_frame (h := ?_) _ _ _ _ _)
        · exact Frame.refl _
        · decide +kernel
      · decide +kernel
    · decide +kernel
  · (extract_lets +onlyGivenNames t6; refine Frame.via (t := t6) ?_ fun h6 => ?_; rotate_left; clear_value t6; rotate_left)
    · unfold t6
      refine Frame.step ?_ (State.onTick_frame _ _)
      exact h5
    · extract_lets +onlyGivenNames t7
      refine Frame.ite ?_ ?_
      · (extract_lets +onlyGivenNames t8; refine Frame.via (t := t8) ?_ fun h8 => ?_; rotate_left; clear_value t8; rotate_left)
        · unfold t8
          refine Frame.ite ?_ ?_
          · refine Frame.step ?_ (State.onTick_frame _ _)
            exact h6
          · refine Frame.step ?_ (State.setTimer_frame _ _ _)
            exact h6
        · refine Frame.step ?_ (State.enterTick_frame _ _)
          exact h8
      · refine Frame.ite ?_ ?_
        · (extract_lets +onlyGivenNames t9; refine Frame.via (t := t9) ?_ fun h9 => ?_; rotate_left; clear_value t9; rotate_left)
          · unfold t9
            refine Frame.trans ?_ (State.flag_frame (h := ?_) _ _ _ _)
            · exact h6
            · decide +kernel
          · refine Frame.ite ?_ ?_
            · refine Frame.step ?_ (State.raiseBreak_frame _ _ _ _ _)
              refine Frame.step ?_ (State.onTick_frame _ _)
              exact h9
            · refine Frame.step ?_ (State.enterTick_frame _ _)
              refine Frame.step ?_ (State.setTimer_frame _ _ _)
              exact h9
        · refine Frame.ite ?_ ?_
          · refine Frame.ite ?_ ?_
            · exact h6
            · refine Frame.step ?_ (State.enterTick_frame _ _)
              refine Frame.step ?_ (State.setTimer_frame _ _ _)
              exact h6
          · refine Frame.step ?_ (State.markRow_frame _ _ _)
            refine Frame.step ?_ (State.onTick_frame _ _)
            exact h6

theorem State.receiveMark_frame (s : State) (pkt : Bytes) (arrival : Nat) :
    Frame ⟨abortParts ++ [Part.tick], abortRegs ++ [Reg.SEC_START, Reg.TCK_COUNT, Reg.TCK_EVENTS, Reg.TCK_STATUS], false⟩ s
    (State.receiveMark s pkt arrival) := by
  unfold State.receiveMark
  refine Frame.ite ?_ ?_
  · refine Frame.step ?_ (State.discardMark_frame _ _)
    exact Frame.refl _
  · refine Frame.ite ?_ ?_
    · refine Frame.step ?_ (State.discardMark_frame _ _)
      exact Frame.refl _
    · split
      · refine Frame.step ?_ (State.discardMark_frame _ _)
        exact Frame.refl _
      · refine Frame.ite ?_ ?_
        · exact Frame.refl _
        · refine Frame.step ?_ (State.checkJoined_frame _)
          refine Frame.step ?_ (State.followMark_frame _ _ _ _)
          refine Frame.step ?_ (State.onTick_frame _ _)
          exact Frame.refl _

end Sys2Proof.Machine
end

