-- ==== Sys2Proof/Laws/FrameCommands.lean ====
section
/-! SUPPORT. Every command changes only its footprint. -/

namespace Sys2Proof.Machine

set_option Elab.async false

theorem execRegisterWrite_frame (org : Nat) (addr : Nat) (size : Nat) (v : Nat) (hw : Nat) {s t : State} (h :
    execRegisterWrite org addr size v hw s = .next t) :
  Frame (commandTouch (.registerWrite org addr size v hw)) s t := by
  unfold execRegisterWrite at h
  refine act_frame_halts (K := ⟨everyPart, [], true⟩) h ?_
  refine Frame.ite ?_ ?_
  · refine Frame.step ?_ (State.controlWrite_frame _ _ _ _ _ _)
    exact Frame.refl _
  · exact Frame.refl _

theorem execClearCounts_frame (die : Nat) (blk : Nat) (inst : Nat) (inc : List Nat) {s t : State} (hs : s.flt.fatal = []) (h
    : execClearCounts die blk inst inc s = .next t) :
  Frame (commandTouch (.clearCounts die blk inst inc)) s t := by
  unfold execClearCounts at h
  refine act_frame (K := ⟨[], [], true⟩) hs h (by decide) ?_
  split
  · exact Frame.refl _
  · refine Frame.step ?_ (State.clearBlock_frame _ _ _ _ _)
    exact Frame.refl _

theorem execTick_frame (die : Nat) {s t : State} (h : execTick die s = .next t) :
  Frame (commandTouch (.tick die)) s t := by
  unfold execTick at h
  refine act_frame_halts (K := ⟨abortParts ++ [Part.out, Part.tick, Part.bdi], abortRegs ++ readRegs ++ [Reg.SCH_REPLAY,
    Reg.SCH_SLIP_COUNT, Reg.SCH_STEP, Reg.SEC_START, Reg.TCK_COUNT, Reg.TCK_EVENTS, Reg.TCK_STATUS, Reg.UPD_COUNTS,
    Reg.UPD_EVENTS, Reg.UPD_LOSS, Reg.UPD_UNUM, Reg.VRT_POP], false⟩) h ?_
  refine Frame.step ?_ (State.tickDie_frame _ _)
  exact Frame.refl _

theorem execTickMark_frame (mark : Bytes) (arrival : Nat) {s t : State} (h : execTickMark mark arrival s = .next t) :
  Frame (commandTouch (.tickMark mark arrival)) s t := by
  unfold execTickMark at h
  refine act_frame_halts (K := ⟨abortParts ++ [Part.tick], abortRegs ++ [Reg.SEC_START, Reg.TCK_COUNT, Reg.TCK_EVENTS,
    Reg.TCK_STATUS], false⟩) h ?_
  refine Frame.step ?_ (State.receiveMark_frame _ _ _)
  exact Frame.refl _

theorem execHoldover_frame {s t : State} (hs : s.flt.fatal = []) (h : execHoldover s = .next t) :
  Frame (commandTouch (.holdover)) s t := by
  unfold execHoldover at h
  refine act_frame (K := ⟨[.tick], [.TCK_EVENTS, .TCK_STATUS], false⟩) hs h (by decide) ?_
  refine Frame.ite ?_ ?_
  · refine Frame.step ?_ (State.enterTick_frame _ _)
    refine Frame.trans ?_ (State.flag_frame (h := ?_) _ _ _ _)
    · exact Frame.refl _
    · decide +kernel
  · exact Frame.refl _

theorem execTickLost_frame {s t : State} (h : execTickLost s = .next t) :
  Frame (commandTouch (.tickLost)) s t := by
  unfold execTickLost at h
  refine act_frame_halts (K := ⟨abortParts ++ [Part.tick], abortRegs ++ [Reg.FLT_RECOVERY, Reg.TCK_EVENTS, Reg.TCK_STATUS],
    false⟩) h ?_
  refine Frame.ite ?_ ?_
  · (extract_lets +onlyGivenNames t0; refine Frame.via (t := t0) ?_ fun h0 => ?_; rotate_left; clear_value t0; rotate_left)
    · unfold t0
      refine Frame.step ?_ (State.enterTick_frame _ _)
      refine Frame.trans ?_ (State.flag_frame (h := ?_) _ _ _ _)
      · exact Frame.refl _
      · decide +kernel
    · refine Frame.ite ?_ ?_
      · refine Frame.step ?_ (State.raiseBreak_frame _ _ _ _ _)
        refine Frame.step ?_ (State.recordHalt_frame _ _ _)
        exact h0
      · exact h0
  · exact Frame.refl _

theorem execMasterSwitch_frame {s t : State} (hs : s.flt.fatal = []) (h : execMasterSwitch s = .next t) :
  Frame (commandTouch (.masterSwitch)) s t := by
  unfold execMasterSwitch at h
  refine act_frame (K := ⟨[.tick], [.SEC_START, .TCK_EVENTS, .TCK_STATUS], false⟩) hs h (by decide) ?_
  refine Frame.ite ?_ ?_
  · refine Frame.step ?_ (State.checkJoined_frame _)
    refine Frame.step ?_ (State.readsOwn_frame _)
    refine Frame.step ?_ (State.onTick_frame _ _)
    refine Frame.trans ?_ (State.flag_frame (h := ?_) _ _ _ _)
    · exact Frame.refl _
    · decide +kernel
  · exact Frame.refl _

theorem execPartnerMasterSwitch_frame {s t : State} (hs : s.flt.fatal = []) (h : execPartnerMasterSwitch s = .next t) :
  Frame (commandTouch (.partnerMasterSwitch)) s t := by
  unfold execPartnerMasterSwitch at h
  refine act_frame (K := ⟨[.tick], [.SEC_START, .TCK_EVENTS, .TCK_STATUS], false⟩) hs h (by decide) ?_
  refine Frame.ite ?_ ?_
  · refine Frame.step ?_ (State.checkJoined_frame _)
    refine Frame.step ?_ (State.readsOwn_frame _)
    refine Frame.step ?_ (State.onTick_frame _ _)
    refine Frame.trans ?_ (State.flag_frame (h := ?_) _ _ _ _)
    · exact Frame.refl _
    · decide +kernel
  · exact Frame.refl _

theorem execTickIoEdge_frame (time : Nat) {s t : State} (hs : s.flt.fatal = []) (h : execTickIoEdge time s = .next t) :
  Frame (commandTouch (.tickIoEdge time)) s t := by
  unfold execTickIoEdge at h
  refine act_frame (K := ⟨[.tick], [], false⟩) hs h (by decide) ?_
  refine Frame.ite ?_ ?_
  · extract_lets +onlyGivenNames t0
    refine Frame.step ?_ (State.onTick_frame _ _)
    exact Frame.refl _
  · exact Frame.refl _

theorem execSchRun_frame {s t : State} (h : execSchRun s = .next t) :
  Frame (commandTouch (.schRun)) s t := by
  unfold execSchRun at h
  refine act_frame_halts (K := ⟨abortParts ++ [Part.arrays, Part.rem], abortRegs ++ accessRegs ++ [Reg.CDC_HIST,
    Reg.FLT_RECOVERY, Reg.LDG_CAIRN_STATUS, Reg.SCH_CHANNEL, Reg.SCH_IMAGE_BASE, Reg.SCH_IMAGE_ERROR, Reg.SCH_REPLAY,
    Reg.SCH_SLIP_COUNT, Reg.SCH_STEP, Reg.SYN_EVENTS, Reg.SYN_LATE, Reg.SYN_OBJ_LAST, Reg.SYN_OBJ_LAST_TICK, Reg.SYN_STRAY,
    Reg.UPD_COUNTS, Reg.UPD_EVENTS, Reg.UPD_LOSS, Reg.UPD_UNUM, Reg.VSC_VREG, Reg.VSE_GEN_STATE], false⟩) h ?_
  refine Frame.step ?_ (State.runSchedule_frame _)
  exact Frame.refl _

theorem execSchStop_frame {s t : State} (hs : s.flt.fatal = []) (h : execSchStop s = .next t) :
  Frame (commandTouch (.schStop)) s t := by
  unfold execSchStop at h
  refine act_frame (K := ⟨[.sched], [], false⟩) hs h (by decide) ?_
  refine Frame.step ?_ (State.stopSchedule_frame _)
  exact Frame.refl _

theorem execSchAbort_frame {s t : State} (h : execSchAbort s = .next t) :
  Frame (commandTouch (.schAbort)) s t := by
  unfold execSchAbort at h
  refine act_frame_halts (K := ⟨abortParts, abortRegs, false⟩) h ?_
  refine Frame.step ?_ (State.raiseBreak_frame _ _ _ _ _)
  exact Frame.refl _

theorem execSlipBreak_frame (u : Nat) {s t : State} (h : execSlipBreak u s = .next t) :
  Frame (commandTouch (.slipBreak u)) s t := by
  unfold execSlipBreak at h
  refine act_frame_halts (K := ⟨abortParts, abortRegs, false⟩) h ?_
  extract_lets +onlyGivenNames t0
  refine Frame.ite ?_ ?_
  · refine Frame.step ?_ (State.raiseBreak_frame _ _ _ _ _)
    exact Frame.refl _
  · exact Frame.refl _

theorem execOperationStart_frame (u : Nat) {s t : State} (h : execOperationStart u s = .next t) :
  Frame (commandTouch (.operationStart u)) s t := by
  unfold execOperationStart at h
  refine act_frame_halts (K := ⟨abortParts, abortRegs ++ errorRegs ++ [Reg.SCH_CHANNEL, Reg.SCH_MIRAGE_DISCARDS], false⟩) h
    ?_
  refine Frame.step ?_ (State.startOperation_frame _ _)
  exact Frame.refl _

theorem execOperationComplete_frame (u : Nat) (k : Nat) {s t : State} (h : execOperationComplete u k s = .next t) :
  Frame (commandTouch (.operationComplete u k)) s t := by
  unfold execOperationComplete at h
  refine act_frame_halts (K := ⟨abortParts, abortRegs ++ readRegs ++ [Reg.SCH_CHANNEL, Reg.SCH_REPLAY, Reg.SCH_SLIP_COUNT,
    Reg.SCH_STEP, Reg.UPD_COUNTS, Reg.UPD_EVENTS, Reg.UPD_LOSS, Reg.UPD_UNUM], false⟩) h ?_
  refine Frame.step ?_ (State.completeOp_frame _ _ _)
  exact Frame.refl _

theorem execSynToken_frame (ch : Nat) {s t : State} (hs : s.flt.fatal = []) (h : execSynToken ch s = .next t) :
  Frame (commandTouch (.synToken ch)) s t := by
  unfold execSynToken at h
  refine act_frame (K := ⟨[.sched], [.SCH_CHANNEL], false⟩) hs h (by decide) ?_
  refine Frame.step ?_ (State.tokenArrives_frame _ _)
  exact Frame.refl _

theorem execSynCredit_frame (ch : Nat) {s t : State} (hs : s.flt.fatal = []) (h : execSynCredit ch s = .next t) :
  Frame (commandTouch (.synCredit ch)) s t := by
  unfold execSynCredit at h
  refine act_frame (K := ⟨[.sched], [.SCH_CHANNEL], false⟩) hs h (by decide) ?_
  refine Frame.step ?_ (State.creditArrives_frame _ _)
  exact Frame.refl _

theorem execNoOperation_frame (u : Nat) {s t : State} (h : execNoOperation u s = .next t) :
  Frame (commandTouch (.noOperation u)) s t := by
  unfold execNoOperation at h
  refine act_frame_halts (K := ⟨abortParts, abortRegs ++ readRegs ++ [Reg.SCH_REPLAY, Reg.SCH_SLIP_COUNT, Reg.SCH_STEP,
    Reg.UPD_COUNTS, Reg.UPD_EVENTS, Reg.UPD_LOSS, Reg.UPD_UNUM], false⟩) h ?_
  refine Frame.step ?_ (State.passNop_frame _ _)
  exact Frame.refl _

theorem execStepStart_frame {s t : State} (h : execStepStart s = .next t) :
  Frame (commandTouch (.stepStart)) s t := by
  unfold execStepStart at h
  refine act_frame_halts (K := ⟨abortParts ++ [Part.arrays, Part.rem], abortRegs ++ accessRegs ++ [Reg.CDC_HIST,
    Reg.LDG_CAIRN_STATUS, Reg.SCH_CHANNEL, Reg.SCH_IMAGE_ERROR, Reg.SCH_REPLAY, Reg.SCH_SLIP_COUNT, Reg.SCH_STEP,
    Reg.SYN_EVENTS, Reg.SYN_LATE, Reg.SYN_OBJ_LAST, Reg.SYN_OBJ_LAST_TICK, Reg.SYN_STRAY, Reg.UPD_COUNTS, Reg.UPD_EVENTS,
    Reg.UPD_LOSS, Reg.UPD_UNUM, Reg.VSC_VREG], false⟩) h ?_
  refine Frame.step ?_ (State.startStep_frame _)
  exact Frame.refl _

theorem execReplayWaitEntry_frame {s t : State} (hs : s.flt.fatal = []) (h : execReplayWaitEntry s = .next t) :
  Frame (commandTouch (.replayWaitEntry)) s t := by
  unfold execReplayWaitEntry at h
  refine act_frame (K := ⟨[.sched], [.FLT_RECOVERY, .SCH_CTRL, .SCH_EVENTS], false⟩) hs h (by decide) ?_
  refine Frame.step ?_ (State.awaitReplay_frame _)
  exact Frame.refl _

theorem execReplayStart_frame {s t : State} (h : execReplayStart s = .next t) :
  Frame (commandTouch (.replayStart)) s t := by
  unfold execReplayStart at h
  refine act_frame_halts (K := ⟨abortParts ++ [Part.arrays, Part.rem], abortRegs ++ accessRegs ++ [Reg.CDC_HIST,
    Reg.FLT_RECOVERY, Reg.LDG_CAIRN_STATUS, Reg.SCH_BASE_TICK, Reg.SCH_CHANNEL, Reg.SCH_IMAGE_BASE, Reg.SCH_IMAGE_ERROR,
    Reg.SCH_REPLAY, Reg.SCH_SLIP_COUNT, Reg.SCH_STEP, Reg.SYN_EVENTS, Reg.SYN_LATE, Reg.SYN_OBJ_LAST, Reg.SYN_OBJ_LAST_TICK,
    Reg.SYN_STRAY, Reg.UPD_COUNTS, Reg.UPD_EVENTS, Reg.UPD_LOSS, Reg.UPD_UNUM, Reg.VSC_VREG, Reg.VSE_GEN_STATE], false⟩) h ?_
  refine Frame.step ?_ (State.startReplay_frame _)
  exact Frame.refl _

theorem execHaltEntry_frame {s t : State} (hs : s.flt.fatal = []) (h : execHaltEntry s = .next t) :
  Frame (commandTouch (.haltEntry)) s t := by
  unfold execHaltEntry at h
  refine act_frame (K := ⟨[.sched], [.SCH_CTRL], false⟩) hs h (by decide) ?_
  refine Frame.step ?_ (State.enterHalted_frame _)
  exact Frame.refl _

theorem execLdx_frame (u : Nat) (p : BitVec 192) {s t : State} (h : execLdx u p s = .next t) :
  Frame (commandTouch (.ldx u p)) s t := by
  unfold execLdx at h
  refine act_frame_halts (K := ⟨accessParts ++ [Part.arrays], accessRegs ++ errorRegs ++ [Reg.XLT_COUNTS], false⟩) h ?_
  refine Frame.trans ?_ (State.runOp_frame (ht := ?_) _ _)
  · exact Frame.refl _
  · exact Task.Framed.mono (ldxTask_frame _ _) (by decide +kernel)

theorem execMma_frame (u : Nat) (p : BitVec 192) {s t : State} (h : execMma u p s = .next t) :
  Frame (commandTouch (.mma u p)) s t := by
  unfold execMma at h
  refine act_frame_halts (K := ⟨accessParts ++ [Part.arrays], accessRegs ++ errorRegs ++ [Reg.MXA_BUSY, Reg.MXA_COUNTS,
    Reg.MXA_MACS, Reg.MXW_BUSY, Reg.MXW_MACS, Reg.XLT_COUNTS], false⟩) h ?_
  refine Frame.trans ?_ (State.runOp_frame (ht := ?_) _ _)
  · exact Frame.refl _
  · exact Task.Framed.mono (mmaTask_frame _ _) (by decide +kernel)

theorem execOut_frame (u : Nat) (p : BitVec 448) {s t : State} (h : execOut u p s = .next t) :
  Frame (commandTouch (.out u p)) s t := by
  unfold execOut at h
  refine act_frame_halts (K := ⟨accessParts ++ [Part.arrays, Part.rdx], accessRegs ++ errorRegs ++ [Reg.HBC_AW_SECTORS,
    Reg.MXA_COUNTS, Reg.RDX_CHECK_FAIL, Reg.RDX_CHECK_VALUES, Reg.RDX_COUNTS, Reg.RDX_LATE, Reg.RDX_SAMPLED,
    Reg.VSE_GEN_STATE, Reg.XLT_COUNTS], false⟩) h ?_
  refine Frame.trans ?_ (State.runOp_frame (ht := ?_) _ _)
  · exact Frame.refl _
  · exact Task.Framed.mono (outTask_frame _ _) (by decide +kernel)

theorem execPsend_frame (u : Nat) (p : BitVec 192) {s t : State} (h : execPsend u p s = .next t) :
  Frame (commandTouch (.psend u p)) s t := by
  unfold execPsend at h
  refine act_frame_halts (K := ⟨accessParts, accessRegs ++ errorRegs ++ [Reg.XLT_COUNTS], false⟩) h ?_
  refine Frame.trans ?_ (State.runOp_frame (ht := ?_) _ _)
  · exact Frame.refl _
  · exact Task.Framed.mono (psendTask_frame _ _) (by decide +kernel)

theorem execPadd_frame (u : Nat) (p : BitVec 192) {s t : State} (h : execPadd u p s = .next t) :
  Frame (commandTouch (.padd u p)) s t := by
  unfold execPadd at h
  refine act_frame_halts (K := ⟨accessParts ++ [Part.arrays], accessRegs ++ errorRegs ++ [Reg.MXA_COUNTS, Reg.XLT_COUNTS],
    false⟩) h ?_
  refine Frame.trans ?_ (State.runOp_frame (ht := ?_) _ _)
  · exact Frame.refl _
  · exact Task.Framed.mono (paddTask_frame _ _) (by decide +kernel)

theorem execStf_frame (u : Nat) (p : BitVec 192) {s t : State} (h : execStf u p s = .next t) :
  Frame (commandTouch (.stf u p)) s t := by
  unfold execStf at h
  refine act_frame_halts (K := ⟨accessParts ++ [Part.arrays], accessRegs ++ errorRegs ++ [Reg.XLT_COUNTS], false⟩) h ?_
  refine Frame.trans ?_ (State.runOp_frame (ht := ?_) _ _)
  · exact Frame.refl _
  · exact Task.Framed.mono (stfTask_frame _ _) (by decide +kernel)

theorem execEw_frame (die : Nat) (p : BitVec 448) {s t : State} (h : execEw die p s = .next t) :
  Frame (commandTouch (.ew die p)) s t := by
  unfold execEw at h
  refine act_frame_halts (K := ⟨accessParts, accessRegs ++ errorRegs ++ [Reg.VSE_GEN_STATE, Reg.XLT_COUNTS], false⟩) h ?_
  refine Frame.trans ?_ (State.runOp_frame (ht := ?_) _ _)
  · exact Frame.refl _
  · exact Task.Framed.mono (ewTask_frame _ _) (by decide +kernel)

theorem execCvt_frame (die : Nat) (p : BitVec 448) {s t : State} (h : execCvt die p s = .next t) :
  Frame (commandTouch (.cvt die p)) s t := by
  unfold execCvt at h
  refine act_frame_halts (K := ⟨accessParts, accessRegs ++ errorRegs ++ [Reg.VSE_GEN_STATE, Reg.XLT_COUNTS], false⟩) h ?_
  refine Frame.trans ?_ (State.runOp_frame (ht := ?_) _ _)
  · refine Frame.step ?_ (State.took_frame _ _)
    exact Frame.refl _
  · exact Task.Framed.mono (cvtTask_frame _ _ _) (by decide +kernel)

theorem execScan_frame (die : Nat) (p : BitVec 448) {s t : State} (h : execScan die p s = .next t) :
  Frame (commandTouch (.scan die p)) s t := by
  unfold execScan at h
  refine act_frame_halts (K := ⟨accessParts, accessRegs ++ errorRegs ++ [Reg.VSE_GEN_STATE, Reg.XLT_COUNTS], false⟩) h ?_
  refine Frame.trans ?_ (State.runOp_frame (ht := ?_) _ _)
  · exact Frame.refl _
  · exact Task.Framed.mono (scanTask_frame _ _) (by decide +kernel)

theorem execReduce_frame (die : Nat) (p : BitVec 448) {s t : State} (h : execReduce die p s = .next t) :
  Frame (commandTouch (.reduce die p)) s t := by
  unfold execReduce at h
  refine act_frame_halts (K := ⟨accessParts, accessRegs ++ errorRegs ++ [Reg.VSE_GEN_STATE, Reg.XLT_COUNTS], false⟩) h ?_
  refine Frame.trans ?_ (State.runOp_frame (ht := ?_) _ _)
  · exact Frame.refl _
  · exact Task.Framed.mono (reduceTask_frame _ _) (by decide +kernel)

theorem execDgrad_frame (die : Nat) (p : BitVec 448) {s t : State} (h : execDgrad die p s = .next t) :
  Frame (commandTouch (.dgrad die p)) s t := by
  unfold execDgrad at h
  refine act_frame_halts (K := ⟨accessParts, accessRegs ++ errorRegs ++ [Reg.VSE_GEN_STATE, Reg.XLT_COUNTS], false⟩) h ?_
  refine Frame.trans ?_ (State.runOp_frame (ht := ?_) _ _)
  · exact Frame.refl _
  · exact Task.Framed.mono (dgradTask_frame _ _) (by decide +kernel)

theorem execRand_frame (die : Nat) (p : BitVec 448) {s t : State} (h : execRand die p s = .next t) :
  Frame (commandTouch (.rand die p)) s t := by
  unfold execRand at h
  refine act_frame_halts (K := ⟨accessParts, accessRegs ++ errorRegs ++ [Reg.VSE_GEN_STATE, Reg.XLT_COUNTS], false⟩) h ?_
  refine Frame.trans ?_ (State.runOp_frame (ht := ?_) _ _)
  · exact Frame.refl _
  · exact Task.Framed.mono (randTask_frame _ _) (by decide +kernel)

theorem execSlice_frame (die : Nat) (p : BitVec 448) {s t : State} (h : execSlice die p s = .next t) :
  Frame (commandTouch (.slice die p)) s t := by
  unfold execSlice at h
  refine act_frame_halts (K := ⟨accessParts, accessRegs ++ errorRegs ++ [Reg.XLT_COUNTS], false⟩) h ?_
  refine Frame.trans ?_ (State.runOp_frame (ht := ?_) _ _)
  · exact Frame.refl _
  · exact Task.Framed.mono (sliceTask_frame _ _) (by decide +kernel)

theorem execFlush_frame (u : Nat) {s t : State} (hs : s.flt.fatal = []) (h : execFlush u s = .next t) :
  Frame (commandTouch (.flush u)) s t := by
  unfold execFlush at h
  refine act_frame (K := ⟨[.sched], [], false⟩) hs h (by decide) ?_
  refine Frame.ite ?_ ?_
  · exact Frame.refl _
  · split
    refine Frame.ite ?_ ?_
    · refine Frame.step ?_ (State.finishOp_frame _ _ _ _ _)
      refine Frame.fst (by assumption) ?_
      change Frame.Fst _ _ _
      refine Frame.Fst.step ?_ (State.takeClass_frame _ _ _)
      exact Frame.refl _
    · refine Frame.fst (by assumption) ?_
      change Frame.Fst _ _ _
      refine Frame.Fst.step ?_ (State.takeClass_frame _ _ _)
      exact Frame.refl _

theorem execChain_frame (die : Nat) (p : BitVec 960) {s t : State} (h : execChain die p s = .next t) :
  Frame (commandTouch (.chain die p)) s t := by
  unfold execChain at h
  refine act_frame_halts (K := ⟨accessParts, accessRegs ++ errorRegs ++ [Reg.VSC_VREG, Reg.VSE_GEN_STATE, Reg.XLT_COUNTS],
    false⟩) h ?_
  refine Frame.trans ?_ (State.runOp_frame (ht := ?_) _ _)
  · exact Frame.refl _
  · exact Task.Framed.mono (chainTask_frame _ _) (by decide +kernel)

theorem execGenStateWrite_frame (die : Nat) (idx : Nat) (half : Nat) (v : Nat) {s t : State} (hs : s.flt.fatal = []) (h :
    execGenStateWrite die idx half v s = .next t) :
  Frame (commandTouch (.genStateWrite die idx half v)) s t := by
  unfold execGenStateWrite at h
  refine act_frame (K := ⟨[], [.VSE_EVENTS, .VSE_GEN_STATE], false⟩) hs h (by decide) ?_
  refine Frame.step ?_ (State.genWrite_frame _ _ _ _ _)
  exact Frame.refl _

theorem execCode_frame (u : Nat) (p : BitVec 448) {s t : State} (h : execCode u p s = .next t) :
  Frame (commandTouch (.code u p)) s t := by
  unfold execCode at h
  refine act_frame_halts (K := ⟨accessParts ++ [Part.codec], accessRegs ++ errorRegs ++ [Reg.CDC_BLOCKS, Reg.CDC_HIST,
    Reg.XLT_COUNTS], false⟩) h ?_
  refine Frame.trans ?_ (State.runOp_frame (ht := ?_) _ _)
  · exact Frame.refl _
  · exact Task.Framed.mono (codeTask_frame _ _) (by decide +kernel)

theorem execDecode_frame (u : Nat) (p : BitVec 448) {s t : State} (h : execDecode u p s = .next t) :
  Frame (commandTouch (.decode u p)) s t := by
  unfold execDecode at h
  refine act_frame_halts (K := ⟨accessParts ++ [Part.codec], accessRegs ++ errorRegs ++ [Reg.CDC_BYTES_IN,
    Reg.CDC_BYTES_OUT, Reg.CDC_STALL, Reg.XLT_COUNTS], false⟩) h ?_
  refine Frame.trans ?_ (State.runOp_frame (ht := ?_) _ _)
  · exact Frame.refl _
  · exact Task.Framed.mono (decodeTask_frame _ _) (by decide +kernel)

theorem execHstore_frame (u : Nat) (p : BitVec 192) {s t : State} (h : execHstore u p s = .next t) :
  Frame (commandTouch (.hstore u p)) s t := by
  unfold execHstore at h
  refine act_frame_halts (K := ⟨accessParts, accessRegs ++ errorRegs ++ [Reg.CDC_HIST, Reg.XLT_COUNTS], false⟩) h ?_
  refine Frame.trans ?_ (State.runOp_frame (ht := ?_) _ _)
  · exact Frame.refl _
  · exact Task.Framed.mono (hstoreTask_frame _ _) (by decide +kernel)

theorem execBuild_frame (u : Nat) (p : BitVec 192) {s t : State} (h : execBuild u p s = .next t) :
  Frame (commandTouch (.build u p)) s t := by
  unfold execBuild at h
  refine act_frame_halts (K := ⟨accessParts ++ [Part.codec], accessRegs ++ errorRegs ++ [Reg.CDC_PENDING, Reg.XLT_COUNTS],
    false⟩) h ?_
  refine Frame.trans ?_ (State.runOp_frame (ht := ?_) _ _)
  · exact Frame.refl _
  · exact Task.Framed.mono (buildTask_frame _ _) (by decide +kernel)

theorem execCodecInputTimeout_frame (u : Nat) (block : Nat) {s t : State} (h : execCodecInputTimeout u block s = .next t) :
  Frame (commandTouch (.codecInputTimeout u block)) s t := by
  unfold execCodecInputTimeout at h
  refine act_frame_halts (K := ⟨recordParts ++ [Part.codec, Part.rem], recordRegs ++ errorRegs, false⟩) h ?_
  split
  · exact Frame.refl _
  · extract_lets +onlyGivenNames t0
    extract_lets +onlyGivenNames t1
    split
    (extract_lets +onlyGivenNames t2; refine Frame.via (t := t2) ?_ fun h2 => ?_; rotate_left; clear_value t2; rotate_left)
    · unfold t2
      refine Frame.step ?_ (State.onCodec_frame _ _)
      refine Frame.fst (by assumption) ?_
      change Frame.Fst _ _ _
      refine Frame.Fst.step ?_ (State.lateSectors_frame _ _ _)
      exact Frame.refl _
    · (extract_lets +onlyGivenNames t3; refine Frame.via (t := t3) ?_ fun h3 => ?_; rotate_left; clear_value t3; rotate_left)
      · unfold t3
        refine Frame.ite ?_ ?_
        · exact h2
        · refine Frame.step ?_ (State.spoil_frame _ _ _ _ _)
          exact h2
      · refine Frame.trans ?_ (State.failOp_frame (g0 := ?_) _ _ _ _ _ _)
        · exact h3
        · intro t4
          refine Frame.step ?_ (cdcAt_frame _ _ _)
          exact Frame.refl _

theorem execCodecLateSector_frame (die : Nat) {s t : State} (hs : s.flt.fatal = []) (h : execCodecLateSector die s = .next
    t) :
  Frame (commandTouch (.codecLateSector die)) s t := by
  unfold execCodecLateSector at h
  refine act_frame (K := ⟨[.codec], [.CDC_LATE], false⟩) hs h (by decide) ?_
  split
  · refine Frame.trans ?_ (State.bump_frame (h := ?_) _ _ _ _ _)
    · refine Frame.step ?_ (State.onCodec_frame _ _)
      exact Frame.refl _
    · decide +kernel
  · exact Frame.refl _

theorem execMemRead_frame (org : Nat) (addr : Nat) (len : Nat) (flips : List Flip) {s t : State} (h : execMemRead org addr
    len flips s = .next t) :
  Frame (commandTouch (.memRead org addr len flips)) s t := by
  unfold execMemRead at h
  refine act_frame_halts (K := ⟨recordParts ++ [Part.out, Part.rem, Part.pci], accessRegs ++ [Reg.HCX_EVENTS,
    Reg.OAS_COUNTS, Reg.OAS_EVENTS], false⟩) h ?_
  refine Frame.step ?_ (State.memRead_frame _ _ _ _ _)
  exact Frame.refl _

theorem execMemWrite_frame (org : Nat) (addr : Nat) (data : Bytes) {s t : State} (h : execMemWrite org addr data s = .next
    t) :
  Frame (commandTouch (.memWrite org addr data)) s t := by
  unfold execMemWrite at h
  refine act_frame_halts (K := ⟨recordParts ++ [Part.out, Part.rem, Part.pci], recordRegs ++ [Reg.HCX_EVENTS,
    Reg.VRT_EVENTS], false⟩) h ?_
  refine Frame.step ?_ (State.memWrite_frame _ _ _ _)
  exact Frame.refl _

theorem execMemPartialWrite_frame (org : Nat) (addr : Nat) (data : Bytes) (mask : List Bool) (flips : List Flip) {s t :
    State} (h : execMemPartialWrite org addr data mask flips s = .next t) :
  Frame (commandTouch (.memPartialWrite org addr data mask flips)) s t := by
  unfold execMemPartialWrite at h
  refine act_frame_halts (K := ⟨everyPart, [], true⟩) h ?_
  refine Frame.step ?_ (State.memPartialWrite_frame _ _ _ _ _ _)
  exact Frame.refl _

theorem execAccumulateWrite_frame (org : Nat) (addr : Nat) (mask : Nat) (addends : List (BitVec 32)) (flips : List Flip) {s
    t : State} (h : execAccumulateWrite org addr mask addends flips s = .next t) :
  Frame (commandTouch (.accumulateWrite org addr mask addends flips)) s t := by
  unfold execAccumulateWrite at h
  refine act_frame_halts (K := ⟨recordParts ++ [Part.out], recordRegs ++ [Reg.HBC_AW_SECTORS, Reg.HBC_COUNTS,
    Reg.HBC_EVENTS, Reg.HBC_UE_ADDR, Reg.OAS_COUNTS, Reg.OAS_EVENTS], false⟩) h ?_
  refine Frame.step ?_ (State.accWrite_frame _ _ _ _ _ _)
  exact Frame.refl _

theorem execPartialSums_frame (addr : Nat) (data : Bytes) {s t : State} (hs : s.flt.fatal = []) (h : execPartialSums addr
    data s = .next t) :
  Frame (commandTouch (.partialSums addr data)) s t := by
  unfold execPartialSums at h
  refine act_frame (K := ⟨storeParts, storeRegs, false⟩) hs h (by decide) ?_
  refine Frame.step ?_ (State.writeSectors_frame _ _ _)
  exact Frame.refl _

theorem execReadResponse_frame (u : Nat) (tag : Nat) (status : Nat) (data : Bytes) {s t : State} (h : execReadResponse u tag
    status data s = .next t) :
  Frame (commandTouch (.readResponse u tag status data)) s t := by
  unfold execReadResponse at h
  refine act_frame_halts (K := ⟨recordParts ++ [Part.out, Part.rem], recordRegs ++ [Reg.HCX_EVENTS], false⟩) h ?_
  split
  · exact Frame.refl _
  · refine Frame.step ?_ (State.readArrived_frame _ _ _ _ _ _)
    refine Frame.optSnd (by assumption) ?_
    refine Frame.OptSnd.step ?_ (State.takeAnswer_frame _ _ _ _ _ _)
    exact Frame.refl _

theorem execWritePerformed_frame (u : Nat) (tag : Nat) (status : Nat) {s t : State} (h : execWritePerformed u tag status s =
    .next t) :
  Frame (commandTouch (.writePerformed u tag status)) s t := by
  unfold execWritePerformed at h
  refine act_frame_halts (K := ⟨recordParts ++ [Part.out, Part.rem, Part.qcx], recordRegs ++ errorRegs ++ [Reg.HCX_EVENTS],
    false⟩) h ?_
  split
  · exact Frame.refl _
  · refine Frame.step ?_ (State.writeArrived_frame _ _ _ _ _)
    refine Frame.optSnd (by assumption) ?_
    refine Frame.OptSnd.step ?_ (State.takeAnswer_frame _ _ _ _ _ _)
    exact Frame.refl _

theorem execPatrolScrubStep_frame (ms : Nat) (flips : List Flip) {s t : State} (h : execPatrolScrubStep ms flips s = .next
    t) :
  Frame (commandTouch (.patrolScrubStep ms flips)) s t := by
  unfold execPatrolScrubStep at h
  refine act_frame_halts (K := ⟨recordParts, recordRegs ++ [Reg.HBC_COUNTS, Reg.HBC_EVENTS, Reg.HBC_UE_ADDR, Reg.OAS_COUNTS,
    Reg.OAS_EVENTS], false⟩) h ?_
  refine Frame.ite ?_ ?_
  · exact Frame.refl _
  · extract_lets +onlyGivenNames t0
    extract_lets +onlyGivenNames t1
    extract_lets +onlyGivenNames t2
    (extract_lets +onlyGivenNames t3; refine Frame.via (t := t3) ?_ fun h3 => ?_; rotate_left; clear_value t3; rotate_left)
    · unfold t3
      refine Frame.step ?_ (State.disturbAll_frame _ _ _ _)
      refine Frame.step ?_ (State.onHbm_frame _ _)
      exact Frame.refl _
    · split
      · refine Frame.fst (by assumption) ?_
        change Frame.Fst _ _ _
        refine Frame.Fst.step ?_ (State.checkHbm_frame _ _ _)
        exact h3
      · refine Frame.trans ?_ (State.flag_frame (h := ?_) _ _ _ _)
        · refine Frame.fst (by assumption) ?_
          change Frame.Fst _ _ _
          refine Frame.Fst.step ?_ (State.checkHbm_frame _ _ _)
          exact h3
        · decide +kernel

theorem execFsel_frame (die : Nat) (p : BitVec 192) {s t : State} (h : execFsel die p s = .next t) :
  Frame (commandTouch (.fsel die p)) s t := by
  unfold execFsel at h
  refine act_frame_halts (K := ⟨accessParts ++ [Part.fsel], accessRegs ++ errorRegs ++ [Reg.XLT_COUNTS], false⟩) h ?_
  refine Frame.trans ?_ (State.runOp_frame (ht := ?_) _ _)
  · exact Frame.refl _
  · exact Task.Framed.mono (fselTask_frame _ _) (by decide +kernel)

theorem execMove_frame (u : Nat) (p : BitVec 192) {s t : State} (h : execMove u p s = .next t) :
  Frame (commandTouch (.move u p)) s t := by
  unfold execMove at h
  refine act_frame_halts (K := ⟨accessParts, accessRegs ++ errorRegs ++ [Reg.XLT_COUNTS], false⟩) h ?_
  refine Frame.trans ?_ (State.runOp_frame (ht := ?_) _ _)
  · exact Frame.refl _
  · exact Task.Framed.mono (moveTask_frame _ _) (by decide +kernel)

theorem execXpose_frame (u : Nat) (p : BitVec 448) {s t : State} (h : execXpose u p s = .next t) :
  Frame (commandTouch (.xpose u p)) s t := by
  unfold execXpose at h
  refine act_frame_halts (K := ⟨accessParts, accessRegs ++ errorRegs ++ [Reg.XLT_COUNTS], false⟩) h ?_
  refine Frame.trans ?_ (State.runOp_frame (ht := ?_) _ _)
  · exact Frame.refl _
  · exact Task.Framed.mono (xposeTask_frame _ _) (by decide +kernel)

theorem execRbank_frame (die : Nat) (p : BitVec 192) {s t : State} (h : execRbank die p s = .next t) :
  Frame (commandTouch (.rbank die p)) s t := by
  unfold execRbank at h
  refine act_frame_halts (K := ⟨accessParts, accessRegs ++ errorRegs ++ [Reg.VRT_ARM_TICK, Reg.VRT_BANK, Reg.XLT_COUNTS],
    false⟩) h ?_
  refine Frame.trans ?_ (State.runOp_frame (ht := ?_) _ _)
  · exact Frame.refl _
  · exact Task.Framed.mono (rbankTask_frame _ _) (by decide +kernel)

theorem execBankSwitch_frame (die : Nat) {s t : State} (hs : s.flt.fatal = []) (h : execBankSwitch die s = .next t) :
  Frame (commandTouch (.bankSwitch die)) s t := by
  unfold execBankSwitch at h
  refine act_frame (K := ⟨[], [.SEC_START, .VRT_BANK], false⟩) hs h (by decide) ?_
  refine Frame.step ?_ (State.switchBank_frame _ _)
  exact Frame.refl _

theorem execNchk_frame (die : Nat) (p : BitVec 192) {s t : State} (h : execNchk die p s = .next t) :
  Frame (commandTouch (.nchk die p)) s t := by
  unfold execNchk at h
  refine act_frame_halts (K := ⟨accessParts, accessRegs ++ errorRegs ++ [Reg.UPD_NORM, Reg.UPD_STATUS, Reg.XLT_COUNTS],
    false⟩) h ?_
  refine Frame.trans ?_ (State.runOp_frame (ht := ?_) _ _)
  · exact Frame.refl _
  · exact Task.Framed.mono (nchkTask_frame _ _) (by decide +kernel)

theorem execUprun_frame (die : Nat) (p : BitVec 192) {s t : State} (h : execUprun die p s = .next t) :
  Frame (commandTouch (.uprun die p)) s t := by
  unfold execUprun at h
  refine act_frame_halts (K := ⟨accessParts, accessRegs ++ errorRegs ++ [Reg.UPD_BLOCKS, Reg.UPD_COUNTS, Reg.VSE_GEN_STATE,
    Reg.XLT_COUNTS], false⟩) h ?_
  extract_lets +onlyGivenNames t0
  split
  · refine Frame.ite ?_ ?_
    · refine Frame.step ?_ (State.onOp_frame _ _ _ _)
      refine Frame.trans ?_ (State.runOp_frame (ht := ?_) _ _)
      · refine Frame.step ?_ (State.took_frame _ _)
        exact Frame.refl _
      · exact Task.Framed.mono (uprunTask_frame _ _ _) (by decide +kernel)
    · refine Frame.trans ?_ (State.runOp_frame (ht := ?_) _ _)
      · exact Frame.refl _
      · exact Task.Framed.mono (uprunTask_frame _ _ _) (by decide +kernel)
  · refine Frame.trans ?_ (State.runOp_frame (ht := ?_) _ _)
    · exact Frame.refl _
    · exact Task.Framed.mono (uprunTask_frame _ _ _) (by decide +kernel)

theorem execCscale_frame (die : Nat) (p : BitVec 192) {s t : State} (h : execCscale die p s = .next t) :
  Frame (commandTouch (.cscale die p)) s t := by
  unfold execCscale at h
  refine act_frame_halts (K := ⟨accessParts, accessRegs ++ errorRegs ++ [Reg.XLT_COUNTS], false⟩) h ?_
  refine Frame.trans ?_ (State.runOp_frame (ht := ?_) _ _)
  · exact Frame.refl _
  · exact Task.Framed.mono (cscaleTask_frame _ _) (by decide +kernel)

theorem execCommit_frame (die : Nat) {s t : State} (h : execCommit die s = .next t) :
  Frame (commandTouch (.commit die)) s t := by
  unfold execCommit at h
  refine act_frame_halts (K := ⟨abortParts, abortRegs ++ errorRegs ++ [Reg.FLT_RECOVERY, Reg.UPD_DIVERGE,
    Reg.UPD_DIVERGE_OWN, Reg.UPD_DIVERGE_PEER, Reg.UPD_DIVERGE_STEP], false⟩) h ?_
  extract_lets +onlyGivenNames t0
  refine Frame.ite ?_ ?_
  · exact Frame.refl _
  · split
    extract_lets +onlyGivenNames t1
    refine Frame.ite ?_ ?_
    · refine Frame.step ?_ (State.onOp_frame _ _ _ _)
      refine Frame.fst (by assumption) ?_
      change Frame.Fst _ _ _
      refine Frame.Fst.step ?_ (State.takeClass_frame _ _ _)
      exact Frame.refl _
    · refine Frame.ite ?_ ?_
      · unfold t1
        refine Frame.trans ?_ (State.failOp_frame (g0 := ?_) _ _ _ _ _ _)
        · refine Frame.fst (by assumption) ?_
          change Frame.Fst _ _ _
          refine Frame.Fst.step ?_ (State.takeClass_frame _ _ _)
          exact Frame.refl _
        · intro t2
          dsimp only [id]
          exact Frame.refl _
      · refine Frame.ite ?_ ?_
        · unfold t1
          refine Frame.trans ?_ (State.failOp_frame (g0 := ?_) _ _ _ _ _ _)
          · refine Frame.fst (by assumption) ?_
            change Frame.Fst _ _ _
            refine Frame.Fst.step ?_ (State.takeClass_frame _ _ _)
            exact Frame.refl _
          · intro t3
            dsimp only [id]
            exact Frame.refl _
        · refine Frame.ite ?_ ?_
          · refine Frame.step ?_ (State.finishOp_frame _ _ _ _ _)
            refine Frame.step ?_ (State.onSched_frame _ _)
            refine Frame.fst (by assumption) ?_
            change Frame.Fst _ _ _
            refine Frame.Fst.step ?_ (State.takeClass_frame _ _ _)
            exact Frame.refl _
          · refine Frame.ite ?_ ?_
            · unfold t1
              refine Frame.trans ?_ (State.failOp_frame (g0 := ?_) _ _ _ _ _ _)
              · refine Frame.fst (by assumption) ?_
                change Frame.Fst _ _ _
                refine Frame.Fst.step ?_ (State.takeClass_frame _ _ _)
                exact Frame.refl _
              · intro t4
                dsimp only [id]
                exact Frame.refl _
            · refine Frame.ite ?_ ?_
              · unfold t1
                refine Frame.trans ?_ (State.failOp_frame (g0 := ?_) _ _ _ _ _ _)
                · refine Frame.fst (by assumption) ?_
                  change Frame.Fst _ _ _
                  refine Frame.Fst.step ?_ (State.takeClass_frame _ _ _)
                  exact Frame.refl _
                · intro t5
                  dsimp only [id]
                  exact Frame.refl _
              · refine Frame.ite ?_ ?_
                · refine Frame.step ?_ (State.checkDigests_frame _)
                  refine Frame.fst (by assumption) ?_
                  change Frame.Fst _ _ _
                  refine Frame.Fst.step ?_ (State.takeClass_frame _ _ _)
                  exact Frame.refl _
                · (extract_lets +onlyGivenNames t6; refine Frame.via (t := t6) ?_ fun h6 => ?_; rotate_left; clear_value t6; rotate_left)
                  · unfold t6
                    refine Frame.trans ?_ (State.put_frame (h := ?_) _ _ _ _ _)
                    · refine Frame.step ?_ (State.onUpd_frame _ _)
                      refine Frame.fst (by assumption) ?_
                      change Frame.Fst _ _ _
                      refine Frame.Fst.step ?_ (State.takeClass_frame _ _ _)
                      exact Frame.refl _
                    · decide +kernel
                  · refine Frame.step ?_ (State.checkDigests_frame _)
                    refine Frame.step ?_ (State.waitOp_frame _ _ _)
                    exact h6

theorem execUpdateCommit_frame {s t : State} (h : execUpdateCommit s = .next t) :
  Frame (commandTouch (.updateCommit)) s t := by
  unfold execUpdateCommit at h
  refine act_frame_halts (K := ⟨abortParts, abortRegs ++ errorRegs ++ [Reg.FLT_RECOVERY, Reg.UPD_DIVERGE,
    Reg.UPD_DIVERGE_OWN, Reg.UPD_DIVERGE_PEER, Reg.UPD_DIVERGE_STEP], false⟩) h ?_
  split
  · exact Frame.refl _
  · split
    · exact Frame.refl _
    · refine Frame.step ?_ (State.diverge_frame _ _ _ _ _ _)
      exact Frame.refl _
    · refine Frame.step ?_ (State.finishOp_frame _ _ _ _ _)
      refine Frame.step ?_ (State.onSched_frame _ _)
      refine Frame.step ?_ (State.endWait_frame _)
      exact Frame.refl _

theorem execDigestTimeout_frame {s t : State} (h : execDigestTimeout s = .next t) :
  Frame (commandTouch (.digestTimeout)) s t := by
  unfold execDigestTimeout at h
  refine act_frame_halts (K := ⟨recordParts ++ [Part.upd], recordRegs ++ errorRegs ++ [Reg.UPD_STATUS], false⟩) h ?_
  split
  · refine Frame.ite ?_ ?_
    · refine Frame.trans ?_ (State.failOp_frame (g0 := ?_) _ _ _ _ _ _)
      · refine Frame.step ?_ (State.endWait_frame _)
        exact Frame.refl _
      · intro t0
        dsimp only [id]
        exact Frame.refl _
    · exact Frame.refl _
  · exact Frame.refl _

theorem execDigestPacket_frame (pkt : Bytes) {s t : State} (h : execDigestPacket pkt s = .next t) :
  Frame (commandTouch (.digestPacket pkt)) s t := by
  unfold execDigestPacket at h
  refine act_frame_halts (K := ⟨abortParts, abortRegs ++ readRegs ++ errorRegs ++ [Reg.FLT_RECOVERY, Reg.UPD_DIVERGE,
    Reg.UPD_DIVERGE_OWN, Reg.UPD_DIVERGE_PEER, Reg.UPD_DIVERGE_STEP, Reg.UPD_STRAY], false⟩) h ?_
  extract_lets +onlyGivenNames t0
  extract_lets +onlyGivenNames t1
  extract_lets +onlyGivenNames t2
  split
  · refine Frame.step ?_ (State.strayDigest_frame _)
    exact Frame.refl _
  · extract_lets +onlyGivenNames t3
    extract_lets +onlyGivenNames t4
    extract_lets +onlyGivenNames t5
    (clear_value t5; split)
    · refine Frame.step ?_ (State.strayDigest_frame _)
      exact Frame.refl _
    · refine Frame.ite ?_ ?_
      · refine Frame.step ?_ (State.checkDigests_frame _)
        refine Frame.foldl fun t6 x6 => ?_
        refine Frame.step ?_ (State.writePeer_frame _ _ _ _ _ _)
        exact Frame.refl _
      · refine Frame.step ?_ (State.strayDigest_frame _)
        exact Frame.refl _

theorem execUpdVerify_frame (key : Nat) {s t : State} (h : execUpdVerify key s = .next t) :
  Frame (commandTouch (.updVerify key)) s t := by
  unfold execUpdVerify at h
  refine act_frame_halts (K := ⟨recordParts ++ [Part.upd], readRegs ++ [Reg.UPD_STATUS, Reg.UPD_VERIFY_KEY,
    Reg.UPD_VERIFY_RESULT], false⟩) h ?_
  refine Frame.step ?_ (State.verifyWrite_frame _ _)
  exact Frame.refl _

theorem execUpdVerifyDone_frame {s t : State} (hs : s.flt.fatal = []) (h : execUpdVerifyDone s = .next t) :
  Frame (commandTouch (.updVerifyDone)) s t := by
  unfold execUpdVerifyDone at h
  refine act_frame (K := ⟨[.upd], [.UPD_STATUS, .UPD_VERIFY_RESULT], false⟩) hs h (by decide) ?_
  split
  · (extract_lets +onlyGivenNames t0; refine Frame.via (t := t0) ?_ fun h0 => ?_; rotate_left; clear_value t0; rotate_left)
    · unfold t0
      refine Frame.trans ?_ (State.flag_frame (h := ?_) _ _ _ _)
      · refine Frame.trans ?_ (State.put_frame (h := ?_) _ _ _ _ _)
        · exact Frame.refl _
        · decide +kernel
      · decide +kernel
    · refine Frame.step ?_ (State.onUpd_frame _ _)
      refine Frame.trans ?_ (State.put_frame (h := ?_) _ _ _ _ _)
      · exact h0
      · decide +kernel
  · exact Frame.refl _

theorem execUpdRewind_frame (unum : Nat) {s t : State} (h : execUpdRewind unum s = .next t) :
  Frame (commandTouch (.updRewind unum)) s t := by
  unfold execUpdRewind at h
  refine act_frame_halts (K := ⟨recordParts ++ [Part.upd], readRegs ++ [Reg.UPD_EVENTS, Reg.UPD_REWIND, Reg.UPD_STATUS,
    Reg.UPD_UNUM], false⟩) h ?_
  refine Frame.step ?_ (State.rewindWrite_frame _ _)
  exact Frame.refl _

theorem execUpdRewindDone_frame {s t : State} (hs : s.flt.fatal = []) (h : execUpdRewindDone s = .next t) :
  Frame (commandTouch (.updRewindDone)) s t := by
  unfold execUpdRewindDone at h
  refine act_frame (K := ⟨[.upd], [.UPD_STATUS], false⟩) hs h (by decide) ?_
  refine Frame.ite ?_ ?_
  · refine Frame.step ?_ (State.onUpd_frame _ _)
    refine Frame.trans ?_ (State.put_frame (h := ?_) _ _ _ _ _)
    · exact Frame.refl _
    · decide +kernel
  · exact Frame.refl _

theorem execRopen_frame (u : Nat) (p : BitVec 192) {s t : State} (h : execRopen u p s = .next t) :
  Frame (commandTouch (.ropen u p)) s t := by
  unfold execRopen at h
  refine act_frame_halts (K := ⟨accessParts ++ [Part.rdx], accessRegs ++ errorRegs ++ [Reg.HBC_AW_SECTORS,
    Reg.RDX_CHECK_FAIL, Reg.RDX_CHECK_VALUES, Reg.RDX_COUNTS, Reg.RDX_LATE, Reg.RDX_SAMPLED, Reg.XLT_COUNTS], false⟩) h ?_
  refine Frame.step ?_ (State.afterOpen_frame _ _ _)
  refine Frame.step ?_ (State.ropen_frame _ _ _)
  exact Frame.refl _

theorem execRsend_frame (u : Nat) (p : BitVec 192) {s t : State} (h : execRsend u p s = .next t) :
  Frame (commandTouch (.rsend u p)) s t := by
  unfold execRsend at h
  refine act_frame_halts (K := ⟨accessParts ++ [Part.rdx], accessRegs ++ errorRegs ++ [Reg.HBC_AW_SECTORS,
    Reg.RDX_CHECK_FAIL, Reg.RDX_CHECK_VALUES, Reg.RDX_COUNTS, Reg.RDX_LATE, Reg.RDX_SAMPLED, Reg.XLT_COUNTS], false⟩) h ?_
  refine Frame.trans ?_ (State.runOp_frame (ht := ?_) _ _)
  · exact Frame.refl _
  · exact Task.Framed.mono (rsendTask_frame _ _) (by decide +kernel)

theorem execAllr_frame (u : Nat) (p : BitVec 192) {s t : State} (h : execAllr u p s = .next t) :
  Frame (commandTouch (.allr u p)) s t := by
  unfold execAllr at h
  refine act_frame_halts (K := ⟨accessParts ++ [Part.rdx], accessRegs ++ errorRegs ++ [Reg.HBC_AW_SECTORS,
    Reg.RDX_CHECK_FAIL, Reg.RDX_CHECK_VALUES, Reg.RDX_COUNTS, Reg.RDX_LATE, Reg.RDX_SAMPLED, Reg.XLT_COUNTS], false⟩) h ?_
  refine Frame.step ?_ (State.allr_frame _ _ _)
  exact Frame.refl _

theorem execReductionPacket_frame (u : Nat) (pkt : Bytes) (crcOk : Bool) {s t : State} (h : execReductionPacket u pkt crcOk
    s = .next t) :
  Frame (commandTouch (.reductionPacket u pkt crcOk)) s t := by
  unfold execReductionPacket at h
  refine act_frame_halts (K := ⟨accessParts ++ [Part.rdx], accessRegs ++ errorRegs ++ [Reg.HBC_AW_SECTORS,
    Reg.RDX_CHECK_FAIL, Reg.RDX_CHECK_VALUES, Reg.RDX_COUNTS, Reg.RDX_LATE, Reg.RDX_SAMPLED, Reg.RDX_STRAY, Reg.XLT_COUNTS],
    false⟩) h ?_
  extract_lets +onlyGivenNames t0
  refine Frame.step ?_ (State.allrArrived_frame _ _ _)
  refine Frame.step ?_ (State.redArrive_frame _ _ _ _)
  exact Frame.refl _

theorem execCheckTimeout_frame (u : Nat) (tag : Nat) (element : Nat) {s t : State} (h : execCheckTimeout u tag element s =
    .next t) :
  Frame (commandTouch (.checkTimeout u tag element)) s t := by
  unfold execCheckTimeout at h
  refine act_frame_halts (K := ⟨recordParts ++ [Part.rdx], readRegs ++ [Reg.RDX_EVENTS], false⟩) h ?_
  split
  · exact Frame.refl _
  · refine Frame.ite ?_ ?_
    · exact Frame.refl _
    · (extract_lets +onlyGivenNames t0; refine Frame.via (t := t0) ?_ fun h0 => ?_; rotate_left; clear_value t0; rotate_left)
      · unfold t0
        refine Frame.step ?_ (State.onTag_frame _ _ _ _)
        exact Frame.refl _
      · refine Frame.step ?_ (State.tagProgress_frame _ _ _)
        refine Frame.step ?_ (State.setVerdict_frame _ _ _)
        refine Frame.trans ?_ (State.flag_frame (h := ?_) _ _ _ _)
        · exact h0
        · decide +kernel

theorem execVlkFlitReceive_frame (die : Nat) (inst : Nat) (flit : Bytes) (corrected : Nat) (ue : Nat) {s t : State} (h :
    execVlkFlitReceive die inst flit corrected ue s = .next t) :
  Frame (commandTouch (.vlkFlitReceive die inst flit corrected ue)) s t := by
  unfold execVlkFlitReceive at h
  refine act_frame_halts (K := ⟨recordParts ++ [Part.out], recordRegs ++ [Reg.VLK_EVENTS, Reg.VLK_FEC, Reg.VLK_REPLAY,
    Reg.VLK_RX_FLITS, Reg.VLK_STATUS, Reg.VLK_TX_FLITS], false⟩) h ?_
  refine Frame.step ?_ (State.receiveFlit_frame _ _ _ _ _ _)
  exact Frame.refl _

theorem execGcmBatchClose_frame (die : Nat) (inst : Nat) {s t : State} (hs : s.flt.fatal = []) (h : execGcmBatchClose die
    inst s = .next t) :
  Frame (commandTouch (.gcmBatchClose die inst)) s t := by
  unfold execGcmBatchClose at h
  refine act_frame (K := ⟨[.out, .vrt], [.VLK_TX_FLITS], false⟩) hs h (by decide) ?_
  refine Frame.ite ?_ ?_
  · refine Frame.step ?_ (State.sendTag_frame _ _ _)
    exact Frame.refl _
  · exact Frame.refl _

theorem execVlkAckTimeout_frame (die : Nat) (inst : Nat) {s t : State} (h : execVlkAckTimeout die inst s = .next t) :
  Frame (commandTouch (.vlkAckTimeout die inst)) s t := by
  unfold execVlkAckTimeout at h
  refine act_frame_halts (K := ⟨recordParts, recordRegs ++ [Reg.VLK_EVENTS, Reg.VLK_STATUS], false⟩) h ?_
  refine Frame.ite ?_ ?_
  · exact Frame.refl _
  · refine Frame.step ?_ (State.leaveUp_frame _ _ _)
    exact Frame.refl _

theorem execLaneLockLoss_frame (die : Nat) (inst : Nat) {s t : State} (h : execLaneLockLoss die inst s = .next t) :
  Frame (commandTouch (.laneLockLoss die inst)) s t := by
  unfold execLaneLockLoss at h
  refine act_frame_halts (K := ⟨recordParts, recordRegs ++ [Reg.VLK_EVENTS, Reg.VLK_STATUS], false⟩) h ?_
  refine Frame.step ?_ (State.leaveUp_frame _ _ _)
  exact Frame.refl _

theorem execVlkRetrain_frame (die : Nat) (inst : Nat) {s t : State} (h : execVlkRetrain die inst s = .next t) :
  Frame (commandTouch (.vlkRetrain die inst)) s t := by
  unfold execVlkRetrain at h
  refine act_frame_halts (K := ⟨recordParts, recordRegs ++ [Reg.VLK_EVENTS, Reg.VLK_STATUS], false⟩) h ?_
  refine Frame.step ?_ (State.leaveUp_frame _ _ _)
  exact Frame.refl _

theorem execVlkTrained_frame (die : Nat) (inst : Nat) (facts : VlkFacts) {s t : State} (h : execVlkTrained die inst facts s
    = .next t) :
  Frame (commandTouch (.vlkTrained die inst facts)) s t := by
  unfold execVlkTrained at h
  refine act_frame_halts (K := ⟨recordParts ++ [Part.out], recordRegs ++ [Reg.VLK_DELAY, Reg.VLK_EVENTS, Reg.VLK_REPLAY,
    Reg.VLK_STATUS, Reg.VLK_TX_FLITS], false⟩) h ?_
  refine Frame.step ?_ (State.trained_frame _ _ _ _)
  exact Frame.refl _

theorem execVlkHoldExpire_frame (die : Nat) (inst : Nat) {s t : State} (h : execVlkHoldExpire die inst s = .next t) :
  Frame (commandTouch (.vlkHoldExpire die inst)) s t := by
  unfold execVlkHoldExpire at h
  refine act_frame_halts (K := ⟨recordParts, recordRegs ++ [Reg.VLK_EVENTS, Reg.VLK_REPLAY], false⟩) h ?_
  refine Frame.ite ?_ ?_
  · refine Frame.step ?_ (State.discardHeld_frame _ _ _)
    exact Frame.refl _
  · exact Frame.refl _

theorem execPeerRoutingUpdate_frame (die : Nat) (inst : Nat) (flag : Bool) {s t : State} (hs : s.flt.fatal = []) (h :
    execPeerRoutingUpdate die inst flag s = .next t) :
  Frame (commandTouch (.peerRoutingUpdate die inst flag)) s t := by
  unfold execPeerRoutingUpdate at h
  refine act_frame (K := ⟨[], [.VLK_STATUS], false⟩) hs h (by decide) ?_
  refine Frame.ite ?_ ?_
  · refine Frame.trans ?_ (State.put_frame (h := ?_) _ _ _ _ _)
    · exact Frame.refl _
    · decide +kernel
  · exact Frame.refl _

theorem execPacketForward_frame (die : Nat) (input : Nat) (pkt : Packet) {s t : State} (hs : s.flt.fatal = []) (h :
    execPacketForward die input pkt s = .next t) :
  Frame (commandTouch (.packetForward die input pkt)) s t := by
  unfold execPacketForward at h
  refine act_frame (K := ⟨[.fresh, .out, .vrt], [.HBC_EVENTS, .VLK_TX_FLITS, .VRT_COUNTS, .VRT_EVENTS], false⟩) hs h (by
    decide) ?_
  refine Frame.step ?_ (State.forward_frame _ _ _ _)
  exact Frame.refl _

theorem execTc0Inject_frame (die : Nat) {s t : State} (hs : s.flt.fatal = []) (h : execTc0Inject die s = .next t) :
  Frame (commandTouch (.tc0Inject die)) s t := by
  unfold execTc0Inject at h
  refine act_frame (K := ⟨[.fresh, .out, .sched, .vrt, .qcx], [.HBC_EVENTS, .VLK_TX_FLITS, .VRT_COUNTS, .VRT_EVENTS],
    false⟩) hs h (by decide) ?_
  refine Frame.step ?_ (State.injectTc0_frame _ _)
  exact Frame.refl _

theorem execRemoteTimeout_frame (die : Nat) (tag : Nat) {s t : State} (hs : s.flt.fatal = []) (h : execRemoteTimeout die tag
    s = .next t) :
  Frame (commandTouch (.remoteTimeout die tag)) s t := by
  unfold execRemoteTimeout at h
  refine act_frame (K := ⟨[.rem], [.VRT_EVENTS], false⟩) hs h (by decide) ?_
  refine Frame.step ?_ (State.remoteTimedOut_frame _ _ _)
  exact Frame.refl _

theorem execRemoteResponse_frame (die : Nat) (tag : Nat) (status : Nat) (data : Bytes) {s t : State} (hs : s.flt.fatal = [])
    (h : execRemoteResponse die tag status data s = .next t) :
  Frame (commandTouch (.remoteResponse die tag status data)) s t := by
  unfold execRemoteResponse at h
  refine act_frame (K := ⟨[.rem], [.VRT_EVENTS, .VRT_LATE], false⟩) hs h (by decide) ?_
  refine Frame.step ?_ (State.remoteAnswer_frame _ _ _ _ _)
  exact Frame.refl _

theorem execLeave_frame (die : Nat) {s t : State} (hs : s.flt.fatal = []) (h : execLeave die s = .next t) :
  Frame (commandTouch (.leave die)) s t := by
  unfold execLeave at h
  refine act_frame (K := ⟨[.vrt], [.SEC_START, .VRT_BANK], false⟩) hs h (by decide) ?_
  refine Frame.step ?_ (State.setLeft_frame _ _ _)
  exact Frame.refl _

theorem execJoin_frame (die : Nat) {s t : State} (hs : s.flt.fatal = []) (h : execJoin die s = .next t) :
  Frame (commandTouch (.join die)) s t := by
  unfold execJoin at h
  refine act_frame (K := ⟨[.vrt], [.SEC_START, .VRT_BANK], false⟩) hs h (by decide) ?_
  refine Frame.step ?_ (State.setLeft_frame _ _ _)
  exact Frame.refl _

theorem execVrtBankWrite_frame (die : Nat) (half : Nat) (v : Nat) {s t : State} (hs : s.flt.fatal = []) (h :
    execVrtBankWrite die half v s = .next t) :
  Frame (commandTouch (.vrtBankWrite die half v)) s t := by
  unfold execVrtBankWrite at h
  refine act_frame (K := ⟨[], [.SEC_START, .VRT_BANK, .VRT_EVENTS], false⟩) hs h (by decide) ?_
  refine Frame.step ?_ (State.bankWrite_frame _ _ _ _)
  exact Frame.refl _

theorem execRouteEntryWrite_frame (die : Nat) (bcast : Bool) (idx : Nat) (half : Nat) (v : Nat) {s t : State} (hs :
    s.flt.fatal = []) (h : execRouteEntryWrite die bcast idx half v s = .next t) :
  Frame (commandTouch (.routeEntryWrite die bcast idx half v)) s t := by
  unfold execRouteEntryWrite at h
  refine act_frame (K := ⟨[], [.VRT_BCAST, .VRT_EVENTS, .VRT_ROUTE], false⟩) hs h (by decide) ?_
  refine Frame.step ?_ (State.entryWrite_frame _ _ _ _ _ _)
  exact Frame.refl _

theorem execMissRecordWrite_frame (die : Nat) (slot : Nat) {s t : State} (h : execMissRecordWrite die slot s = .next t) :
  Frame (commandTouch (.missRecordWrite die slot)) s t := by
  unfold execMissRecordWrite at h
  refine act_frame_halts (K := ⟨recordParts ++ [Part.xlt], readRegs ++ [Reg.XLT_EVENTS, Reg.XLT_MISSQ_PTR], false⟩) h ?_
  split
  · exact Frame.refl _
  · refine Frame.ite ?_ ?_
    · exact Frame.refl _
    · refine Frame.step ?_ (State.writeMiss_frame _ _)
      exact Frame.refl _

theorem execXltRespFill_frame (die : Nat) (slot : Nat) (v : Nat) {s t : State} (h : execXltRespFill die slot v s = .next t) :
  Frame (commandTouch (.xltRespFill die slot v)) s t := by
  unfold execXltRespFill at h
  refine act_frame_halts (K := ⟨recordParts ++ [Part.xlt, Part.qcx], recordRegs ++ [Reg.XLT_COUNTS, Reg.XLT_EVENTS], false⟩)
    h ?_
  refine Frame.step ?_ (State.answerMiss_frame _ _ _ _)
  exact Frame.refl _

theorem execXltRespFault_frame (die : Nat) (slot : Nat) {s t : State} (h : execXltRespFault die slot s = .next t) :
  Frame (commandTouch (.xltRespFault die slot)) s t := by
  unfold execXltRespFault at h
  refine act_frame_halts (K := ⟨recordParts ++ [Part.xlt, Part.qcx], recordRegs ++ [Reg.XLT_COUNTS, Reg.XLT_EVENTS], false⟩)
    h ?_
  refine Frame.step ?_ (State.answerMiss_frame _ _ _ _)
  exact Frame.refl _

theorem execXltMissTimeout_frame (die : Nat) (slot : Nat) {s t : State} (h : execXltMissTimeout die slot s = .next t) :
  Frame (commandTouch (.xltMissTimeout die slot)) s t := by
  unfold execXltMissTimeout at h
  refine act_frame_halts (K := ⟨recordParts ++ [Part.xlt, Part.qcx], recordRegs ++ [Reg.XLT_COUNTS, Reg.XLT_EVENTS], false⟩)
    h ?_
  refine Frame.step ?_ (State.timeoutMiss_frame _ _ _)
  exact Frame.refl _

theorem execXpf_frame (die : Nat) (p : BitVec 192) {s t : State} (h : execXpf die p s = .next t) :
  Frame (commandTouch (.xpf die p)) s t := by
  unfold execXpf at h
  refine act_frame_halts (K := ⟨recordParts ++ [Part.xlt], recordRegs ++ errorRegs ++ [Reg.XLT_COUNTS], false⟩) h ?_
  refine Frame.step ?_ (State.prefetchOp_frame _ _ _)
  exact Frame.refl _

theorem execXltInval_frame (die : Nat) (v : Nat) {s t : State} (hs : s.flt.fatal = []) (h : execXltInval die v s = .next t) :
  Frame (commandTouch (.xltInval die v)) s t := by
  unfold execXltInval at h
  refine act_frame (K := ⟨[.xlt], [.XLT_COUNTS, .XLT_EVENTS, .XLT_INVAL], false⟩) hs h (by decide) ?_
  refine Frame.step ?_ (State.invalWrite_frame _ _ _)
  exact Frame.refl _

theorem execXltInvalDone_frame (die : Nat) {s t : State} (hs : s.flt.fatal = []) (h : execXltInvalDone die s = .next t) :
  Frame (commandTouch (.xltInvalDone die)) s t := by
  unfold execXltInvalDone at h
  refine act_frame (K := ⟨[.xlt], [.XLT_INVAL], false⟩) hs h (by decide) ?_
  refine Frame.step ?_ (State.invalDone_frame _ _)
  exact Frame.refl _

theorem execFaultRecord_frame (rec : FaultRec) {s t : State} (h : execFaultRecord rec s = .next t) :
  Frame (commandTouch (.faultRecord rec)) s t := by
  unfold execFaultRecord at h
  refine act_frame_halts (K := ⟨recordParts, recordRegs, false⟩) h ?_
  refine Frame.step ?_ (State.collect_frame _ _)
  exact Frame.refl _

theorem execFltResumeRetry_frame (target : Nat) {s t : State} (h : execFltResumeRetry target s = .next t) :
  Frame (commandTouch (.fltResumeRetry target)) s t := by
  unfold execFltResumeRetry at h
  refine act_frame_halts (K := ⟨recordParts ++ [Part.xlt, Part.qcx], recordRegs ++ [Reg.XLT_COUNTS], false⟩) h ?_
  refine Frame.step ?_ (State.resumeRetry_frame _ _)
  exact Frame.refl _

theorem execFltResumeAbort_frame (target : Nat) {s t : State} (hs : s.flt.fatal = []) (h : execFltResumeAbort target s =
    .next t) :
  Frame (commandTouch (.fltResumeAbort target)) s t := by
  unfold execFltResumeAbort at h
  refine act_frame (K := ⟨[.sched, .qcx], errorRegs ++ [Reg.FLT_EVENTS], false⟩) hs h (by decide) ?_
  refine Frame.step ?_ (State.resumeAbort_frame _ _)
  exact Frame.refl _

theorem execFltWadiRelease_frame (slot : Nat) {s t : State} (hs : s.flt.fatal = []) (h : execFltWadiRelease slot s = .next
    t) :
  Frame (commandTouch (.fltWadiRelease slot)) s t := by
  unfold execFltWadiRelease at h
  refine act_frame (K := ⟨storeParts ++ [Part.sched, Part.flt], storeRegs ++ [Reg.FLT_EVENTS, Reg.FLT_QPTR, Reg.FLT_STATUS,
    Reg.FLT_UNPLACED], false⟩) hs h (by decide) ?_
  refine Frame.step ?_ (State.releaseWadi_frame _ _)
  exact Frame.refl _

theorem execFaultRecordCopy_frame (rec : Bytes) {s t : State} (hs : s.flt.fatal = []) (h : execFaultRecordCopy rec s = .next
    t) :
  Frame (commandTouch (.faultRecordCopy rec)) s t := by
  unfold execFaultRecordCopy at h
  refine act_frame (K := ⟨storeParts ++ [Part.sched, Part.flt], storeRegs ++ [Reg.FLT_EVENTS, Reg.FLT_QPTR, Reg.FLT_STATUS,
    Reg.FLT_UNPLACED], false⟩) hs h (by decide) ?_
  refine Frame.step ?_ (State.acceptCopy_frame _ _)
  exact Frame.refl _

theorem execHaboobExit_frame {s t : State} (hs : s.flt.fatal = []) (h : execHaboobExit s = .next t) :
  Frame (commandTouch (.haboobExit)) s t := by
  unfold execHaboobExit at h
  refine act_frame (K := ⟨storeParts ++ [Part.sched, Part.vrt, Part.flt], storeRegs ++ [Reg.FLT_EVENTS, Reg.FLT_HABOOB,
    Reg.FLT_QPTR, Reg.FLT_STATUS, Reg.FLT_UNPLACED], false⟩) hs h (by decide) ?_
  refine Frame.step ?_ (State.endHaboob_frame _)
  exact Frame.refl _

theorem execControlParityError_frame (die : Nat) {s t : State} (h : execControlParityError die s = .next t) :
  Frame (commandTouch (.controlParityError die)) s t := by
  unfold execControlParityError at h
  refine act_frame_halts (K := ⟨[.flt, .fatal], [.FLT_DIE_HEALTH], false⟩) h ?_
  refine Frame.step ?_ (State.makeFatal_frame _ _ _)
  exact Frame.refl _

theorem execSignal_frame (die : Nat) (p : BitVec 192) {s t : State} (h : execSignal die p s = .next t) :
  Frame (commandTouch (.signal die p)) s t := by
  unfold execSignal at h
  refine act_frame_halts (K := ⟨recordParts ++ [Part.syn], recordRegs ++ errorRegs ++ [Reg.SYN_OBJ_LAST,
    Reg.SYN_OBJ_LAST_TICK, Reg.SYN_OBJ_VALUE, Reg.VRT_EVENTS], false⟩) h ?_
  refine Frame.step ?_ (State.signalOp_frame _ _ _)
  exact Frame.refl _

theorem execWait_frame (die : Nat) (p : BitVec 192) {s t : State} (h : execWait die p s = .next t) :
  Frame (commandTouch (.wait die p)) s t := by
  unfold execWait at h
  refine act_frame_halts (K := ⟨recordParts ++ [Part.syn], recordRegs ++ errorRegs ++ [Reg.SYN_OBJ_VALUE], false⟩) h ?_
  refine Frame.step ?_ (State.waitOpOf_frame _ _ _)
  exact Frame.refl _

theorem execBar_frame (die : Nat) (p : BitVec 192) {s t : State} (h : execBar die p s = .next t) :
  Frame (commandTouch (.bar die p)) s t := by
  unfold execBar at h
  refine act_frame_halts (K := ⟨recordParts ++ [Part.syn], recordRegs ++ errorRegs ++ [Reg.SYN_LATE, Reg.SYN_OBJ_LAST,
    Reg.SYN_OBJ_LAST_TICK, Reg.SYN_OBJ_VALUE, Reg.SYN_STRAY], false⟩) h ?_
  refine Frame.step ?_ (State.barOp_frame _ _ _)
  exact Frame.refl _

theorem execSynObjSignal_frame (die : Nat) (obj : Nat) (core : Nat) (v : Nat) {s t : State} (hs : s.flt.fatal = []) (h :
    execSynObjSignal die obj core v s = .next t) :
  Frame (commandTouch (.synObjSignal die obj core v)) s t := by
  unfold execSynObjSignal at h
  refine act_frame (K := ⟨[.sched, .syn], [.SYN_OBJ_LAST, .SYN_OBJ_LAST_TICK, .SYN_OBJ_VALUE], false⟩) hs h (by decide) ?_
  refine Frame.step ?_ (State.coreSignal_frame _ _ _ _ _)
  exact Frame.refl _

theorem execSynWaitTimeout_frame (die : Nat) (obj : Nat) (w : Nat) {s t : State} (h : execSynWaitTimeout die obj w s = .next
    t) :
  Frame (commandTouch (.synWaitTimeout die obj w)) s t := by
  unfold execSynWaitTimeout at h
  refine act_frame_halts (K := ⟨recordParts ++ [Part.syn], recordRegs ++ errorRegs ++ [Reg.SYN_OBJ_VALUE], false⟩) h ?_
  refine Frame.step ?_ (State.waitTimeout_frame _ _ _ _)
  exact Frame.refl _

theorem execSignalPacket_frame (pkt : Bytes) {s t : State} (hs : s.flt.fatal = []) (h : execSignalPacket pkt s = .next t) :
  Frame (commandTouch (.signalPacket pkt)) s t := by
  unfold execSignalPacket at h
  refine act_frame (K := ⟨[.sched, .vrt, .syn], [.SYN_EVENTS, .SYN_LATE, .SYN_OBJ_LAST, .SYN_OBJ_LAST_TICK, .SYN_OBJ_VALUE,
    .SYN_STATUS, .SYN_STRAY], false⟩) hs h (by decide) ?_
  refine Frame.step ?_ (State.receiveSyn_frame _ _ _)
  exact Frame.refl _

theorem execArrive_frame (pkt : Bytes) {s t : State} (hs : s.flt.fatal = []) (h : execArrive pkt s = .next t) :
  Frame (commandTouch (.arrive pkt)) s t := by
  unfold execArrive at h
  refine act_frame (K := ⟨[.sched, .vrt, .syn], [.SYN_EVENTS, .SYN_LATE, .SYN_OBJ_LAST, .SYN_OBJ_LAST_TICK, .SYN_OBJ_VALUE,
    .SYN_STATUS, .SYN_STRAY], false⟩) hs h (by decide) ?_
  refine Frame.step ?_ (State.receiveSyn_frame _ _ _)
  exact Frame.refl _

theorem execRelease_frame (pkt : Bytes) {s t : State} (hs : s.flt.fatal = []) (h : execRelease pkt s = .next t) :
  Frame (commandTouch (.release pkt)) s t := by
  unfold execRelease at h
  refine act_frame (K := ⟨[.sched, .vrt, .syn], [.SYN_EVENTS, .SYN_LATE, .SYN_OBJ_LAST, .SYN_OBJ_LAST_TICK, .SYN_OBJ_VALUE,
    .SYN_STATUS, .SYN_STRAY], false⟩) hs h (by decide) ?_
  refine Frame.step ?_ (State.receiveSyn_frame _ _ _)
  exact Frame.refl _

theorem execAbort_frame (pkt : Bytes) {s t : State} (hs : s.flt.fatal = []) (h : execAbort pkt s = .next t) :
  Frame (commandTouch (.abort pkt)) s t := by
  unfold execAbort at h
  refine act_frame (K := ⟨storeParts ++ [Part.sched, Part.codec, Part.fsel, Part.upd, Part.rdx, Part.vrt, Part.syn,
    Part.ldg], ledgerRegs ++ [Reg.CDC_EVENTS, Reg.CDC_PENDING, Reg.RDX_STRAY, Reg.SCH_BREAK, Reg.SCH_BREAK_TICK,
    Reg.SCH_CTRL, Reg.SCH_EPOCH, Reg.SCH_EVENTS, Reg.SYN_EVENTS, Reg.SYN_OBJ_VALUE, Reg.SYN_STATUS, Reg.SYN_STRAY,
    Reg.UPD_STATUS, Reg.VRT_BANK], false⟩) hs h (by decide) ?_
  refine Frame.step ?_ (State.receiveAbort_frame _ _)
  exact Frame.refl _

theorem execAbortRelease_frame (pkt : Bytes) {s t : State} (hs : s.flt.fatal = []) (h : execAbortRelease pkt s = .next t) :
  Frame (commandTouch (.abortRelease pkt)) s t := by
  unfold execAbortRelease at h
  refine act_frame (K := ⟨storeParts ++ [Part.sched, Part.codec, Part.fsel, Part.upd, Part.rdx, Part.vrt, Part.syn,
    Part.ldg], ledgerRegs ++ [Reg.CDC_EVENTS, Reg.CDC_PENDING, Reg.RDX_STRAY, Reg.SCH_BREAK, Reg.SCH_BREAK_TICK,
    Reg.SCH_CTRL, Reg.SCH_EPOCH, Reg.SCH_EVENTS, Reg.SYN_EVENTS, Reg.SYN_OBJ_VALUE, Reg.SYN_STATUS, Reg.SYN_STRAY,
    Reg.UPD_STATUS, Reg.VRT_BANK], false⟩) hs h (by decide) ?_
  refine Frame.step ?_ (State.receiveRelease_frame _ _)
  exact Frame.refl _

theorem execReadShared_frame (core : Nat) (line : Nat) {s t : State} (h : execReadShared core line s = .next t) :
  Frame (commandTouch (.readShared core line)) s t := by
  unfold execReadShared at h
  refine act_frame_halts (K := ⟨recordParts ++ [Part.out, Part.coh], recordRegs ++ [Reg.HCX_COUNTS, Reg.HCX_EVENTS,
    Reg.HCX_WB_CANCEL], false⟩) h ?_
  refine Frame.step ?_ (State.coreRequest_frame _ _ _ _)
  exact Frame.refl _

theorem execReadUnique_frame (core : Nat) (line : Nat) {s t : State} (h : execReadUnique core line s = .next t) :
  Frame (commandTouch (.readUnique core line)) s t := by
  unfold execReadUnique at h
  refine act_frame_halts (K := ⟨recordParts ++ [Part.out, Part.coh], recordRegs ++ [Reg.HCX_COUNTS, Reg.HCX_EVENTS,
    Reg.HCX_WB_CANCEL], false⟩) h ?_
  refine Frame.step ?_ (State.coreRequest_frame _ _ _ _)
  exact Frame.refl _

theorem execUpgrade_frame (core : Nat) (line : Nat) {s t : State} (h : execUpgrade core line s = .next t) :
  Frame (commandTouch (.upgrade core line)) s t := by
  unfold execUpgrade at h
  refine act_frame_halts (K := ⟨recordParts ++ [Part.out, Part.coh], recordRegs ++ [Reg.HCX_COUNTS, Reg.HCX_EVENTS,
    Reg.HCX_WB_CANCEL], false⟩) h ?_
  refine Frame.step ?_ (State.coreRequest_frame _ _ _ _)
  exact Frame.refl _

theorem execWriteBack_frame (core : Nat) (line : Nat) (data : Bytes) (victim : Option Nat) {s t : State} (hs : s.flt.fatal =
    []) (h : execWriteBack core line data victim s = .next t) :
  Frame (commandTouch (.writeBack core line data victim)) s t := by
  unfold execWriteBack at h
  refine act_frame (K := ⟨[.coh], [.HCX_COUNTS, .HCX_EVENTS, .HCX_WB_CANCEL], false⟩) hs h (by decide) ?_
  refine Frame.ite ?_ ?_
  · exact Frame.refl _
  · (extract_lets +onlyGivenNames t0; refine Frame.via (t := t0) ?_ fun h0 => ?_; rotate_left; clear_value t0; rotate_left)
    · unfold t0
      split
      · refine Frame.ite ?_ ?_
        · exact Frame.refl _
        · refine Frame.step ?_ (State.setL2_frame _ _ _ _ _)
          exact Frame.refl _
      · exact Frame.refl _
    · (extract_lets +onlyGivenNames t1; refine Frame.via (t := t1) ?_ fun h1 => ?_; rotate_left; clear_value t1; rotate_left)
      · unfold t1
        refine Frame.step ?_ (State.onCoh_frame _ _)
        exact h0
      · refine Frame.step ?_ (State.requestCoh_frame _ _)
        exact h1

theorem execClean_frame (core : Nat) (line : Nat) {s t : State} (h : execClean core line s = .next t) :
  Frame (commandTouch (.clean core line)) s t := by
  unfold execClean at h
  refine act_frame_halts (K := ⟨recordParts ++ [Part.out, Part.coh], recordRegs ++ [Reg.HCX_COUNTS, Reg.HCX_EVENTS,
    Reg.HCX_WB_CANCEL], false⟩) h ?_
  refine Frame.step ?_ (State.coreRequest_frame _ _ _ _)
  exact Frame.refl _

theorem execCohFlush_frame (core : Nat) (line : Nat) {s t : State} (h : execCohFlush core line s = .next t) :
  Frame (commandTouch (.cohFlush core line)) s t := by
  unfold execCohFlush at h
  refine act_frame_halts (K := ⟨recordParts ++ [Part.out, Part.coh], recordRegs ++ [Reg.HCX_COUNTS, Reg.HCX_EVENTS,
    Reg.HCX_WB_CANCEL], false⟩) h ?_
  refine Frame.step ?_ (State.coreRequest_frame _ _ _ _)
  exact Frame.refl _

theorem execInvalidate_frame (core : Nat) (line : Nat) (flushMode : Bool) {s t : State} (h : execInvalidate core line
    flushMode s = .next t) :
  Frame (commandTouch (.invalidate core line flushMode)) s t := by
  unfold execInvalidate at h
  refine act_frame_halts (K := ⟨recordParts ++ [Part.out, Part.coh], recordRegs ++ [Reg.HCX_COUNTS, Reg.HCX_EVENTS,
    Reg.HCX_WB_CANCEL], false⟩) h ?_
  refine Frame.step ?_ (State.coreRequest_frame _ _ _ _)
  exact Frame.refl _

theorem execSnoop_frame (die : Nat) (line : Nat) (gone : List Nat) (stored : Option Bytes) {s t : State} (hs : s.flt.fatal =
    []) (h : execSnoop die line gone stored s = .next t) :
  Frame (commandTouch (.snoop die line gone stored)) s t := by
  unfold execSnoop at h
  refine act_frame (K := ⟨[.coh], [.HCX_COUNTS, .HCX_EVENTS, .HCX_WB_CANCEL], false⟩) hs h (by decide) ?_
  refine Frame.step ?_ (State.snoopArrives_frame _ _ _ _ _)
  exact Frame.refl _

theorem execCohFwd_frame (line : Nat) {s t : State} (h : execCohFwd line s = .next t) :
  Frame (commandTouch (.cohFwd line)) s t := by
  unfold execCohFwd at h
  refine act_frame_halts (K := ⟨recordParts ++ [Part.out, Part.coh], readRegs ++ [Reg.HCX_COUNTS, Reg.HCX_EVENTS,
    Reg.HCX_WB_CANCEL], false⟩) h ?_
  refine Frame.step ?_ (State.fwdArrives_frame _ _)
  exact Frame.refl _

theorem execCohResponse_frame (core : Nat) (line : Nat) {s t : State} (hs : s.flt.fatal = []) (h : execCohResponse core line
    s = .next t) :
  Frame (commandTouch (.cohResponse core line)) s t := by
  unfold execCohResponse at h
  refine act_frame (K := ⟨[.coh], [.HCX_COUNTS, .HCX_EVENTS, .HCX_WB_CANCEL], false⟩) hs h (by decide) ?_
  refine Frame.step ?_ (State.rspArrives_frame _ _ _)
  exact Frame.refl _

theorem execCohData_frame (core : Nat) (line : Nat) {s t : State} (hs : s.flt.fatal = []) (h : execCohData core line s =
    .next t) :
  Frame (commandTouch (.cohData core line)) s t := by
  unfold execCohData at h
  refine act_frame (K := ⟨[.coh], [.HCX_COUNTS, .HCX_EVENTS, .HCX_WB_CANCEL], false⟩) hs h (by decide) ?_
  refine Frame.step ?_ (State.datArrives_frame _ _ _)
  exact Frame.refl _

theorem execCohAck_frame (core : Nat) (line : Nat) {s t : State} (hs : s.flt.fatal = []) (h : execCohAck core line s = .next
    t) :
  Frame (commandTouch (.cohAck core line)) s t := by
  unfold execCohAck at h
  refine act_frame (K := ⟨[.coh], [.HCX_COUNTS, .HCX_EVENTS, .HCX_WB_CANCEL], false⟩) hs h (by decide) ?_
  refine Frame.step ?_ (State.ackArrives_frame _ _ _)
  exact Frame.refl _

theorem execHcxRwinWrite_frame (die : Nat) (idx : Nat) (half : Nat) (v : Nat) {s t : State} (hs : s.flt.fatal = []) (h :
    execHcxRwinWrite die idx half v s = .next t) :
  Frame (commandTouch (.hcxRwinWrite die idx half v)) s t := by
  unfold execHcxRwinWrite at h
  refine act_frame (K := ⟨[], [.HCX_RWIN], false⟩) hs h (by decide) ?_
  refine Frame.step ?_ (State.rwinWrite_frame _ _ _ _ _)
  exact Frame.refl _

theorem execSubmissionDoorbell_frame (q : Nat) (value : Nat) {s t : State} (hs : s.flt.fatal = []) (h :
    execSubmissionDoorbell q value s = .next t) :
  Frame (commandTouch (.submissionDoorbell q value)) s t := by
  unfold execSubmissionDoorbell at h
  refine act_frame (K := ⟨storeParts ++ [Part.qcx], storeRegs ++ [Reg.QCX_COUNTS, Reg.QCX_EVENTS], false⟩) hs h (by decide)
    ?_
  refine Frame.step ?_ (State.doorbell_frame _ _ _ _)
  exact Frame.refl _

theorem execCompletionDoorbell_frame (q : Nat) (value : Nat) {s t : State} (hs : s.flt.fatal = []) (h :
    execCompletionDoorbell q value s = .next t) :
  Frame (commandTouch (.completionDoorbell q value)) s t := by
  unfold execCompletionDoorbell at h
  refine act_frame (K := ⟨storeParts ++ [Part.qcx], storeRegs ++ [Reg.QCX_COUNTS, Reg.QCX_EVENTS], false⟩) hs h (by decide)
    ?_
  refine Frame.step ?_ (State.doorbell_frame _ _ _ _)
  exact Frame.refl _

theorem execQctlEnable_frame (die : Nat) (q : Nat) {s t : State} (h : execQctlEnable die q s = .next t) :
  Frame (commandTouch (.qctlEnable die q)) s t := by
  unfold execQctlEnable at h
  refine act_frame_halts (K := ⟨recordParts ++ [Part.qcx], readRegs ++ [Reg.QCX_EVENTS, Reg.QCX_QCTL], false⟩) h ?_
  refine Frame.step ?_ (State.qctl_frame _ _ _ _)
  exact Frame.refl _

theorem execQctlDisable_frame (die : Nat) (q : Nat) {s t : State} (h : execQctlDisable die q s = .next t) :
  Frame (commandTouch (.qctlDisable die q)) s t := by
  unfold execQctlDisable at h
  refine act_frame_halts (K := ⟨recordParts ++ [Part.qcx], readRegs ++ [Reg.QCX_EVENTS, Reg.QCX_QCTL], false⟩) h ?_
  refine Frame.step ?_ (State.qctl_frame _ _ _ _)
  exact Frame.refl _

theorem execQctlDisableDone_frame (die : Nat) {s t : State} (hs : s.flt.fatal = []) (h : execQctlDisableDone die s = .next
    t) :
  Frame (commandTouch (.qctlDisableDone die)) s t := by
  unfold execQctlDisableDone at h
  refine act_frame (K := ⟨storeParts ++ [Part.qcx], storeRegs ++ [Reg.QCX_QCTL], false⟩) hs h (by decide) ?_
  refine Frame.step ?_ (State.disableDone_frame _ _)
  exact Frame.refl _

theorem execQctlSync_frame (die : Nat) (q : Nat) {s t : State} (h : execQctlSync die q s = .next t) :
  Frame (commandTouch (.qctlSync die q)) s t := by
  unfold execQctlSync at h
  refine act_frame_halts (K := ⟨recordParts ++ [Part.qcx], readRegs ++ [Reg.QCX_EVENTS, Reg.QCX_QCTL], false⟩) h ?_
  refine Frame.step ?_ (State.qctl_frame _ _ _ _)
  exact Frame.refl _

theorem execContextFetch_frame (q : Nat) {s t : State} (h : execContextFetch q s = .next t) :
  Frame (commandTouch (.contextFetch q)) s t := by
  unfold execContextFetch at h
  refine act_frame_halts (K := ⟨recordParts ++ [Part.qcx], readRegs ++ [Reg.QCX_COUNTS, Reg.QCX_EVENTS], false⟩) h ?_
  refine Frame.step ?_ (State.fetchCtx_frame _ _)
  exact Frame.refl _

theorem execEntryFetchReturn_frame (q : Nat) (k : Nat) {s t : State} (h : execEntryFetchReturn q k s = .next t) :
  Frame (commandTouch (.entryFetchReturn q k)) s t := by
  unfold execEntryFetchReturn at h
  refine act_frame_halts (K := ⟨recordParts ++ [Part.qcx], readRegs ++ [Reg.QCX_COUNTS, Reg.QCX_EVENTS], false⟩) h ?_
  refine Frame.step ?_ (State.entryReturns_frame _ _ _)
  exact Frame.refl _

theorem execRefetchIssue_frame (q : Nat) (k : Nat) {s t : State} (hs : s.flt.fatal = []) (h : execRefetchIssue q k s = .next
    t) :
  Frame (commandTouch (.refetchIssue q k)) s t := by
  unfold execRefetchIssue at h
  refine act_frame (K := ⟨[.qcx], [], false⟩) hs h (by decide) ?_
  refine Frame.step ?_ (State.refetch_frame _ _ _)
  exact Frame.refl _

theorem execNop_frame (q : Nat) (c : Nat) {s t : State} (h : execNop q c s = .next t) :
  Frame (commandTouch (.nop q c)) s t := by
  unfold execNop at h
  refine act_frame_halts (K := ⟨everyPart, [], true⟩) h ?_
  refine Frame.step ?_ (State.serve_frame _ _ _ _)
  exact Frame.refl _

theorem execCopy_frame (q : Nat) (c : Nat) {s t : State} (h : execCopy q c s = .next t) :
  Frame (commandTouch (.copy q c)) s t := by
  unfold execCopy at h
  refine act_frame_halts (K := ⟨everyPart, [], true⟩) h ?_
  refine Frame.step ?_ (State.serve_frame _ _ _ _)
  exact Frame.refl _

theorem execWriteInline_frame (q : Nat) (c : Nat) {s t : State} (h : execWriteInline q c s = .next t) :
  Frame (commandTouch (.writeInline q c)) s t := by
  unfold execWriteInline at h
  refine act_frame_halts (K := ⟨everyPart, [], true⟩) h ?_
  refine Frame.step ?_ (State.serve_frame _ _ _ _)
  exact Frame.refl _

theorem execFill_frame (q : Nat) (c : Nat) {s t : State} (h : execFill q c s = .next t) :
  Frame (commandTouch (.fill q c)) s t := by
  unfold execFill at h
  refine act_frame_halts (K := ⟨everyPart, [], true⟩) h ?_
  refine Frame.step ?_ (State.serve_frame _ _ _ _)
  exact Frame.refl _

theorem execQueueSignal_frame (q : Nat) (c : Nat) {s t : State} (h : execQueueSignal q c s = .next t) :
  Frame (commandTouch (.queueSignal q c)) s t := by
  unfold execQueueSignal at h
  refine act_frame_halts (K := ⟨everyPart, [], true⟩) h ?_
  refine Frame.step ?_ (State.serve_frame _ _ _ _)
  exact Frame.refl _

theorem execCommandComplete_frame (q : Nat) (c : Nat) {s t : State} (h : execCommandComplete q c s = .next t) :
  Frame (commandTouch (.commandComplete q c)) s t := by
  unfold execCommandComplete at h
  refine act_frame_halts (K := ⟨everyPart, [], true⟩) h ?_
  refine Frame.step ?_ (State.finishCmd_frame _ _ _)
  exact Frame.refl _

theorem execPcieInboundRequest_frame (port : Nat) (req : PciRequest) {s t : State} (h : execPcieInboundRequest port req s =
    .next t) :
  Frame (commandTouch (.pcieInboundRequest port req)) s t := by
  unfold execPcieInboundRequest at h
  refine act_frame_halts (K := ⟨recordParts ++ [Part.out, Part.imsic], readRegs ++ [Reg.PCI_COUNTS, Reg.PCI_EVENTS], false⟩)
    h ?_
  refine Frame.step ?_ (State.pciInbound_frame _ _ _)
  exact Frame.refl _

theorem execPcieMsiWrite_frame (port : Nat) (addr : Nat) (data : Bytes) {s t : State} (h : execPcieMsiWrite port addr data s
    = .next t) :
  Frame (commandTouch (.pcieMsiWrite port addr data)) s t := by
  unfold execPcieMsiWrite at h
  refine act_frame_halts (K := ⟨recordParts ++ [Part.out, Part.imsic], readRegs ++ [Reg.PCI_COUNTS, Reg.PCI_EVENTS], false⟩)
    h ?_
  refine Frame.step ?_ (State.pciInbound_frame _ _ _)
  exact Frame.refl _

theorem execPcieLinkUp_frame (port : Nat) (rate : Nat) (width : Nat) {s t : State} (hs : s.flt.fatal = []) (h :
    execPcieLinkUp port rate width s = .next t) :
  Frame (commandTouch (.pcieLinkUp port rate width)) s t := by
  unfold execPcieLinkUp at h
  refine act_frame (K := ⟨[], [.PCI_STATUS], false⟩) hs h (by decide) ?_
  refine Frame.step ?_ (State.pciUp_frame _ _ _ _)
  exact Frame.refl _

theorem execPcieLinkDown_frame (port : Nat) {s t : State} (hs : s.flt.fatal = []) (h : execPcieLinkDown port s = .next t) :
  Frame (commandTouch (.pcieLinkDown port)) s t := by
  unfold execPcieLinkDown at h
  refine act_frame (K := ⟨[.out, .rem, .pci], [.PCI_EVENTS, .PCI_STATUS], false⟩) hs h (by decide) ?_
  refine Frame.step ?_ (State.pciDown_frame _ _)
  exact Frame.refl _

theorem execBdiTraining_frame (die : Nat) (link : Nat) (facts : BdiFacts) {s t : State} (h : execBdiTraining die link facts
    s = .next t) :
  Frame (commandTouch (.bdiTraining die link facts)) s t := by
  unfold execBdiTraining at h
  refine act_frame_halts (K := ⟨recordParts ++ [Part.out, Part.bdi], recordRegs ++ [Reg.BDI_EVENTS, Reg.BDI_REPAIR,
    Reg.BDI_STATUS], false⟩) h ?_
  refine Frame.step ?_ (State.bdiTrained_frame _ _ _ _)
  exact Frame.refl _

theorem execBdiTrainTimeout_frame (die : Nat) (link : Nat) {s t : State} (h : execBdiTrainTimeout die link s = .next t) :
  Frame (commandTouch (.bdiTrainTimeout die link)) s t := by
  unfold execBdiTrainTimeout at h
  refine act_frame_halts (K := ⟨recordParts ++ [Part.out, Part.bdi], recordRegs ++ [Reg.BDI_EVENTS, Reg.BDI_STATUS], false⟩)
    h ?_
  refine Frame.step ?_ (State.bdiTrainLate_frame _ _ _)
  exact Frame.refl _

theorem execBdiDescriptor_frame (die : Nat) (link : Nat) (desc : Bytes) {s t : State} (h : execBdiDescriptor die link desc s
    = .next t) :
  Frame (commandTouch (.bdiDescriptor die link desc)) s t := by
  unfold execBdiDescriptor at h
  refine act_frame_halts (K := ⟨recordParts ++ [Part.out, Part.bdi], recordRegs ++ [Reg.BDI_EVENTS, Reg.BDI_STATUS], false⟩)
    h ?_
  refine Frame.step ?_ (State.bdiDescribed_frame _ _ _ _)
  exact Frame.refl _

theorem execBdiFlitReceive_frame (die : Nat) (link : Nat) (flit : Bytes) {s t : State} (h : execBdiFlitReceive die link flit
    s = .next t) :
  Frame (commandTouch (.bdiFlitReceive die link flit)) s t := by
  unfold execBdiFlitReceive at h
  refine act_frame_halts (K := ⟨recordParts ++ [Part.out, Part.bdi], recordRegs ++ [Reg.BDI_COUNTS, Reg.BDI_EVENTS,
    Reg.BDI_STATUS], false⟩) h ?_
  refine Frame.step ?_ (State.bdiReceive_frame _ _ _ _)
  exact Frame.refl _

theorem execBdiAckTimeout_frame (die : Nat) (link : Nat) {s t : State} (h : execBdiAckTimeout die link s = .next t) :
  Frame (commandTouch (.bdiAckTimeout die link)) s t := by
  unfold execBdiAckTimeout at h
  refine act_frame_halts (K := ⟨recordParts ++ [Part.bdi], recordRegs ++ [Reg.BDI_EVENTS, Reg.BDI_STATUS], false⟩) h ?_
  refine Frame.ite ?_ ?_
  · exact Frame.refl _
  · refine Frame.step ?_ (State.linkRetrain_frame _ _ _)
    exact Frame.refl _

theorem execBdiRetrainRequest_frame (die : Nat) (link : Nat) {s t : State} (h : execBdiRetrainRequest die link s = .next t) :
  Frame (commandTouch (.bdiRetrainRequest die link)) s t := by
  unfold execBdiRetrainRequest at h
  refine act_frame_halts (K := ⟨recordParts ++ [Part.bdi], recordRegs ++ [Reg.BDI_EVENTS, Reg.BDI_STATUS], false⟩) h ?_
  refine Frame.step ?_ (State.linkRetrain_frame _ _ _)
  exact Frame.refl _

theorem execBdiRetrain_frame (die : Nat) (link : Nat) {s t : State} (h : execBdiRetrain die link s = .next t) :
  Frame (commandTouch (.bdiRetrain die link)) s t := by
  unfold execBdiRetrain at h
  refine act_frame_halts (K := ⟨recordParts ++ [Part.bdi], recordRegs ++ [Reg.BDI_EVENTS, Reg.BDI_STATUS], false⟩) h ?_
  refine Frame.step ?_ (State.linkRetrain_frame _ _ _)
  exact Frame.refl _

theorem execBdiHoldExpire_frame (die : Nat) (link : Nat) {s t : State} (h : execBdiHoldExpire die link s = .next t) :
  Frame (commandTouch (.bdiHoldExpire die link)) s t := by
  unfold execBdiHoldExpire at h
  refine act_frame_halts (K := ⟨recordParts ++ [Part.out, Part.bdi], recordRegs ++ [Reg.BDI_EVENTS, Reg.BDI_STATUS], false⟩)
    h ?_
  refine Frame.ite ?_ ?_
  · refine Frame.trans ?_ (State.linkDown_frame (h0 := ?_) _ _ _ _)
    · exact Frame.refl _
    · decide +kernel
  · exact Frame.refl _

theorem execBdiTickFlit_frame (die : Nat) (link : Nat) (flit : Bytes) (arrival : Nat) {s t : State} (h : execBdiTickFlit die
    link flit arrival s = .next t) :
  Frame (commandTouch (.bdiTickFlit die link flit arrival)) s t := by
  unfold execBdiTickFlit at h
  refine act_frame_halts (K := ⟨recordParts ++ [Part.tick, Part.bdi], recordRegs ++ [Reg.BDI_COUNTS, Reg.BDI_EVENTS,
    Reg.BDI_STATUS], false⟩) h ?_
  refine Frame.step ?_ (State.tickFlit_frame _ _ _ _ _)
  exact Frame.refl _

theorem execInterrupt_frame (hart : Nat) (id : Nat) {s t : State} (hs : s.flt.fatal = []) (h : execInterrupt hart id s =
    .next t) :
  Frame (commandTouch (.interrupt hart id)) s t := by
  unfold execInterrupt at h
  refine act_frame (K := ⟨[.imsic], [], false⟩) hs h (by decide) ?_
  refine Frame.step ?_ (State.interruptTo_frame _ _ _)
  exact Frame.refl _

theorem execLedgerRecord_frame (rec : LedgerRec) {s t : State} (hs : s.flt.fatal = []) (h : execLedgerRecord rec s = .next
    t) :
  Frame (commandTouch (.ledgerRecord rec)) s t := by
  unfold execLedgerRecord at h
  refine act_frame (K := ⟨storeParts ++ [Part.ldg], ledgerRegs, false⟩) hs h (by decide) ?_
  refine Frame.step ?_ (State.ledger_frame _ _)
  exact Frame.refl _

theorem execFltRecoveryRestore_frame {s t : State} (hs : s.flt.fatal = []) (h : execFltRecoveryRestore s = .next t) :
  Frame (commandTouch (.fltRecoveryRestore)) s t := by
  unfold execFltRecoveryRestore at h
  refine act_frame (K := ⟨[], [.FLT_RECOVERY], false⟩) hs h (by decide) ?_
  refine Frame.step ?_ (State.armRestore_frame _)
  exact Frame.refl _

theorem execLdgAttachWrite_frame (core : Nat) (v : Nat) {s t : State} (hs : s.flt.fatal = []) (h : execLdgAttachWrite core v
    s = .next t) :
  Frame (commandTouch (.ldgAttachWrite core v)) s t := by
  unfold execLdgAttachWrite at h
  refine act_frame (K := ⟨[], [.LDG_ATTACH, .LDG_EVENTS], false⟩) hs h (by decide) ?_
  refine Frame.step ?_ (State.attachWrite_frame _ _ _)
  exact Frame.refl _

theorem execPowerOn_frame (mv : Nat) (env : StartEnv) {s t : State} (h : execPowerOn mv env s = .next t) :
  Frame (commandTouch (.powerOn mv env)) s t := by
  unfold execPowerOn at h
  refine act_frame_halts (K := ⟨powerParts, [], true⟩) h ?_
  refine Frame.step ?_ (State.powerOn_frame _ _ _)
  exact Frame.refl _

theorem execStartComplete_frame {s t : State} (hs : s.flt.fatal = []) (h : execStartComplete s = .next t) :
  Frame (commandTouch (.startComplete)) s t := by
  unfold execStartComplete at h
  refine act_frame (K := ⟨[.out, .mem, .power, .imsic], [.HCX_STATUS, .PWR_EVENTS, .PWR_STATUS, .SEC_START], false⟩) hs h
    (by decide) ?_
  refine Frame.step ?_ (State.completeStart_frame _)
  exact Frame.refl _

theorem execSecReady_frame {s t : State} (hs : s.flt.fatal = []) (h : execSecReady s = .next t) :
  Frame (commandTouch (.secReady)) s t := by
  unfold execSecReady at h
  refine act_frame (K := ⟨[], [.SEC_START], false⟩) hs h (by decide) ?_
  refine Frame.step ?_ (State.readyWrite_frame _)
  exact Frame.refl _

theorem execRetire_frame (confirm : Nat) (site : Nat) {s t : State} (hs : s.flt.fatal = []) (h : execRetire confirm site s =
    .next t) :
  Frame (commandTouch (.retire confirm site)) s t := by
  unfold execRetire at h
  refine act_frame (K := ⟨[.sec], [.SEC_FUSE_STATUS], false⟩) hs h (by decide) ?_
  refine Frame.step ?_ (State.fuseCommand_frame _ _ _ _)
  exact Frame.refl _

theorem execRevoke_frame (confirm : Nat) (slot : Nat) {s t : State} (hs : s.flt.fatal = []) (h : execRevoke confirm slot s =
    .next t) :
  Frame (commandTouch (.revoke confirm slot)) s t := by
  unfold execRevoke at h
  refine act_frame (K := ⟨[.sec], [.SEC_FUSE_STATUS], false⟩) hs h (by decide) ?_
  refine Frame.step ?_ (State.fuseCommand_frame _ _ _ _)
  exact Frame.refl _

theorem execEpoch_frame (confirm : Nat) {s t : State} (hs : s.flt.fatal = []) (h : execEpoch confirm s = .next t) :
  Frame (commandTouch (.epoch confirm)) s t := by
  unfold execEpoch at h
  refine act_frame (K := ⟨[.sec], [.SEC_FUSE_STATUS], false⟩) hs h (by decide) ?_
  refine Frame.step ?_ (State.fuseCommand_frame _ _ _ _)
  exact Frame.refl _

theorem execAttest_frame (addr : Nat) {s t : State} (hs : s.flt.fatal = []) (h : execAttest addr s = .next t) :
  Frame (commandTouch (.attest addr)) s t := by
  unfold execAttest at h
  refine act_frame (K := ⟨[.sec], [.SEC_ATTEST, .SEC_EVENTS], false⟩) hs h (by decide) ?_
  refine Frame.step ?_ (State.attestWrite_frame _)
  refine Frame.trans ?_ (State.put_frame (h := ?_) _ _ _ _ _)
  · exact Frame.refl _
  · decide +kernel

theorem execAttestDone_frame {s t : State} (h : execAttestDone s = .next t) :
  Frame (commandTouch (.attestDone)) s t := by
  unfold execAttestDone at h
  refine act_frame_halts (K := ⟨recordParts ++ [Part.sec], readRegs ++ [Reg.SEC_ATTEST], false⟩) h ?_
  refine Frame.step ?_ (State.endReport_frame _)
  exact Frame.refl _

theorem execFlashProgram_frame (addr : Nat) {s t : State} (hs : s.flt.fatal = []) (h : execFlashProgram addr s = .next t) :
  Frame (commandTouch (.flashProgram addr)) s t := by
  unfold execFlashProgram at h
  refine act_frame (K := ⟨[.sec], [.SEC_FLASH], false⟩) hs h (by decide) ?_
  refine Frame.step ?_ (State.flashWrite_frame _)
  refine Frame.trans ?_ (State.put_frame (h := ?_) _ _ _ _ _)
  · exact Frame.refl _
  · decide +kernel

theorem execFlashProgramDone_frame (mismatch : Bool) {s t : State} (h : execFlashProgramDone mismatch s = .next t) :
  Frame (commandTouch (.flashProgramDone mismatch)) s t := by
  unfold execFlashProgramDone at h
  refine act_frame_halts (K := ⟨recordParts ++ [Part.sec], readRegs ++ [Reg.SEC_FLASH], false⟩) h ?_
  refine Frame.step ?_ (State.endFlash_frame _ _)
  exact Frame.refl _

theorem execMgmtGetStatus_frame {s t : State} (hs : s.flt.fatal = []) (h : execMgmtGetStatus s = .next t) :
  Frame (commandTouch (.mgmtGetStatus)) s t := by
  unfold execMgmtGetStatus at h
  refine act_frame (K := ⟨[.out], [], false⟩) hs h (by decide) ?_
  refine Frame.step ?_ (State.mgmtStatus_frame _)
  exact Frame.refl _

theorem execMgmtDrain_frame {s t : State} (hs : s.flt.fatal = []) (h : execMgmtDrain s = .next t) :
  Frame (commandTouch (.mgmtDrain)) s t := by
  unfold execMgmtDrain at h
  refine act_frame (K := ⟨[.out, .power, .imsic], [.PWR_EVENTS, .PWR_STATUS], false⟩) hs h (by decide) ?_
  refine Frame.trans ?_ (State.managed_frame (g0 := ?_) _ _ _)
  · exact Frame.refl _
  · intro t0
    refine Frame.step ?_ (State.removalRequest_frame _ _)
    exact Frame.refl _

theorem execMgmtDrainCancel_frame {s t : State} (hs : s.flt.fatal = []) (h : execMgmtDrainCancel s = .next t) :
  Frame (commandTouch (.mgmtDrainCancel)) s t := by
  unfold execMgmtDrainCancel at h
  refine act_frame (K := ⟨[.out, .power], [.PWR_STATUS], false⟩) hs h (by decide) ?_
  refine Frame.trans ?_ (State.managed_frame (g0 := ?_) _ _ _)
  · exact Frame.refl _
  · intro t0
    refine Frame.step ?_ (State.cancelDrain_frame _)
    exact Frame.refl _

theorem execMgmtRestart_frame {s t : State} (h : execMgmtRestart s = .next t) :
  Frame (commandTouch (.mgmtRestart)) s t := by
  unfold execMgmtRestart at h
  refine act_frame_halts (K := ⟨powerParts ++ [Part.out], [], true⟩) h ?_
  refine Frame.trans ?_ (State.managed_frame (g0 := ?_) _ _ _)
  · exact Frame.refl _
  · intro t0
    refine Frame.step ?_ (State.restartNow_frame _)
    exact Frame.refl _

theorem execMgmtAttest_frame (addr : Nat) {s t : State} (hs : s.flt.fatal = []) (h : execMgmtAttest addr s = .next t) :
  Frame (commandTouch (.mgmtAttest addr)) s t := by
  unfold execMgmtAttest at h
  refine act_frame (K := ⟨[.out, .sec], [.SEC_ATTEST], false⟩) hs h (by decide) ?_
  refine Frame.trans ?_ (State.managed_frame (g0 := ?_) _ _ _)
  · exact Frame.refl _
  · intro t0
    refine Frame.step ?_ (State.attestAsked_frame _ _)
    exact Frame.refl _

theorem execMgmtFuse_frame (confirm : Nat) (cmd : Nat) (arg : Nat) {s t : State} (hs : s.flt.fatal = []) (h : execMgmtFuse
    confirm cmd arg s = .next t) :
  Frame (commandTouch (.mgmtFuse confirm cmd arg)) s t := by
  unfold execMgmtFuse at h
  refine act_frame (K := ⟨[.out, .sec], [.SEC_FUSE_STATUS], false⟩) hs h (by decide) ?_
  refine Frame.trans ?_ (State.managed_frame (g0 := ?_) _ _ _)
  · exact Frame.refl _
  · intro t0
    refine Frame.ite ?_ ?_
    · refine Frame.step ?_ (State.fuseCommand_frame _ _ _ _)
      exact Frame.refl _
    · exact Frame.refl _

theorem execPark_frame {s t : State} (hs : s.flt.fatal = []) (h : execPark s = .next t) :
  Frame (commandTouch (.park)) s t := by
  unfold execPark at h
  refine act_frame (K := ⟨[.power], [.PWR_EVENTS, .PWR_STATUS], false⟩) hs h (by decide) ?_
  refine Frame.step ?_ (State.parkNow_frame _)
  exact Frame.refl _

theorem execUnpark_frame {s t : State} (hs : s.flt.fatal = []) (h : execUnpark s = .next t) :
  Frame (commandTouch (.unpark)) s t := by
  unfold execUnpark at h
  refine act_frame (K := ⟨[.power], [.PWR_STATUS], false⟩) hs h (by decide) ?_
  refine Frame.step ?_ (State.unparkNow_frame _)
  exact Frame.refl _

theorem execDrain_frame {s t : State} (hs : s.flt.fatal = []) (h : execDrain s = .next t) :
  Frame (commandTouch (.drain)) s t := by
  unfold execDrain at h
  refine act_frame (K := ⟨[.power, .imsic], [.PWR_EVENTS, .PWR_STATUS], false⟩) hs h (by decide) ?_
  refine Frame.step ?_ (State.removalRequest_frame _ _)
  exact Frame.refl _

theorem execDrainCancel_frame {s t : State} (hs : s.flt.fatal = []) (h : execDrainCancel s = .next t) :
  Frame (commandTouch (.drainCancel)) s t := by
  unfold execDrainCancel at h
  refine act_frame (K := ⟨[.power], [.PWR_STATUS], false⟩) hs h (by decide) ?_
  refine Frame.step ?_ (State.cancelDrain_frame _)
  exact Frame.refl _

theorem execPowerOff_frame {s t : State} (hs : s.flt.fatal = []) (h : execPowerOff s = .next t) :
  Frame (commandTouch (.powerOff)) s t := by
  unfold execPowerOff at h
  refine act_frame (K := ⟨[.power, .vrt], [.PWR_EVENTS, .SEC_START, .VRT_BANK], false⟩) hs h (by decide) ?_
  refine Frame.step ?_ (State.askOff_frame _)
  exact Frame.refl _

theorem execDrainComplete_frame (timeout : Bool) {s t : State} (h : execDrainComplete timeout s = .next t) :
  Frame (commandTouch (.drainComplete timeout)) s t := by
  unfold execDrainComplete at h
  refine act_frame_halts (K := ⟨powerParts, [], true⟩) h ?_
  refine Frame.step ?_ (State.drained_frame _ _)
  exact Frame.refl _

theorem execRestart_frame {s t : State} (h : execRestart s = .next t) :
  Frame (commandTouch (.restart)) s t := by
  unfold execRestart at h
  refine act_frame_halts (K := ⟨powerParts, [], true⟩) h ?_
  refine Frame.step ?_ (State.restartNow_frame _)
  exact Frame.refl _

theorem execRestartRailsOn_frame (env : StartEnv) {s t : State} (h : execRestartRailsOn env s = .next t) :
  Frame (commandTouch (.restartRailsOn env)) s t := by
  unfold execRestartRailsOn at h
  refine act_frame_halts (K := ⟨powerParts, [], true⟩) h ?_
  refine Frame.ite ?_ ?_
  · refine Frame.step ?_ (State.startFresh_frame _ _)
    exact Frame.refl _
  · exact Frame.refl _

theorem execAttnRequest_frame {s t : State} (hs : s.flt.fatal = []) (h : execAttnRequest s = .next t) :
  Frame (commandTouch (.attnRequest)) s t := by
  unfold execAttnRequest at h
  refine act_frame (K := ⟨[.power, .imsic], [.PWR_EVENTS, .PWR_STATUS], false⟩) hs h (by decide) ?_
  refine Frame.step ?_ (State.removalRequest_frame _ _)
  exact Frame.refl _

theorem execPowerEnFall_frame {s t : State} (h : execPowerEnFall s = .next t) :
  Frame (commandTouch (.powerEnFall)) s t := by
  unfold execPowerEnFall at h
  refine act_frame_halts (K := ⟨powerParts, [], true⟩) h ?_
  refine Frame.step ?_ (State.goOff_frame _)
  exact Frame.refl _

theorem execInputRange_frame (mv : Nat) {s t : State} (hs : s.flt.fatal = []) (h : execInputRange mv s = .next t) :
  Frame (commandTouch (.inputRange mv)) s t := by
  unfold execInputRange at h
  refine act_frame (K := ⟨[.power], [.PWR_EVENTS, .PWR_SENSE], false⟩) hs h (by decide) ?_
  refine Frame.step ?_ (State.inputAt_frame _ _)
  exact Frame.refl _

theorem execInputRangeTimeout_frame {s t : State} (h : execInputRangeTimeout s = .next t) :
  Frame (commandTouch (.inputRangeTimeout)) s t := by
  unfold execInputRangeTimeout at h
  refine act_frame_halts (K := ⟨powerParts, [], true⟩) h ?_
  refine Frame.ite ?_ ?_
  · refine Frame.step ?_ (State.goOff_frame _)
    exact Frame.refl _
  · exact Frame.refl _

theorem execPowerFault_frame (mv : Nat) {s t : State} (h : execPowerFault mv s = .next t) :
  Frame (commandTouch (.powerFault mv)) s t := by
  unfold execPowerFault at h
  refine act_frame_halts (K := ⟨powerParts, [], true⟩) h ?_
  refine Frame.ite ?_ ?_
  · refine Frame.step ?_ (State.goOff_frame _)
    exact Frame.refl _
  · exact Frame.refl _

theorem execThermalWarn_frame (tj : Nat) (outlet : Nat) {s t : State} (hs : s.flt.fatal = []) (h : execThermalWarn tj outlet
    s = .next t) :
  Frame (commandTouch (.thermalWarn tj outlet)) s t := by
  unfold execThermalWarn at h
  refine act_frame (K := ⟨[], [.PWR_EVENTS, .PWR_SENSE], false⟩) hs h (by decide) ?_
  refine Frame.step ?_ (State.warm_frame _ _ _)
  exact Frame.refl _

theorem execThermalTrip_frame (tj : Nat) {s t : State} (h : execThermalTrip tj s = .next t) :
  Frame (commandTouch (.thermalTrip tj)) s t := by
  unfold execThermalTrip at h
  refine act_frame_halts (K := ⟨powerParts, [], true⟩) h ?_
  refine Frame.ite ?_ ?_
  · refine Frame.step ?_ (State.goOff_frame _)
    exact Frame.refl _
  · exact Frame.refl _

theorem execRailFault_frame (dies : List Nat) {s t : State} (h : execRailFault dies s = .next t) :
  Frame (commandTouch (.railFault dies)) s t := by
  unfold execRailFault at h
  refine act_frame_halts (K := ⟨[.flt, .fatal], [.FLT_DIE_HEALTH, .PWR_EVENTS, .PWR_RAIL], false⟩) h ?_
  refine Frame.foldl fun t0 x0 => ?_
  refine Frame.step ?_ (State.railFails_frame _ _)
  exact Frame.refl _

theorem execFuseCommandDone_frame (failed : Bool) {s t : State} (hs : s.flt.fatal = []) (h : execFuseCommandDone failed s =
    .next t) :
  Frame (commandTouch (.fuseCommandDone failed)) s t := by
  unfold execFuseCommandDone at h
  refine act_frame (K := ⟨[.sec], [.SEC_FUSE_STATUS, .SEC_RETIRED0, .SEC_RETIRED1], false⟩) hs h (by decide) ?_
  refine Frame.step ?_ (State.endFuse_frame _ _)
  exact Frame.refl _

theorem execRowRemapDone_frame (ms : Nat) {s t : State} (h : execRowRemapDone ms s = .next t) :
  Frame (commandTouch (.rowRemapDone ms)) s t := by
  unfold execRowRemapDone at h
  refine act_frame_halts (K := ⟨recordParts, recordRegs ++ [Reg.HBC_COUNTS, Reg.HBC_EVENTS, Reg.HBC_REPAIR_LOG,
    Reg.HBC_SPARES, Reg.HBC_UE_ADDR], false⟩) h ?_
  split
  · exact Frame.refl _
  · extract_lets +onlyGivenNames t0
    (extract_lets +onlyGivenNames t1; refine Frame.via (t := t1) ?_ fun h1 => ?_; rotate_left; clear_value t1; rotate_left)
    · unfold t1
      refine Frame.foldl fun t2 x2 => ?_
      change Frame.Fst _ _ _
      refine Frame.Fst.step ?_ (State.checkHbm_frame _ _ _)
      exact Frame.refl _
    · (extract_lets +onlyGivenNames t3; refine Frame.via (t := t3) ?_ fun h3 => ?_; rotate_left; clear_value t3; rotate_left)
      · unfold t3
        refine Frame.step ?_ (State.onHbm_frame _ _)
        exact h1
      · extract_lets +onlyGivenNames t4
        (extract_lets +onlyGivenNames t5; refine Frame.via (t := t5) ?_ fun h5 => ?_; rotate_left; clear_value t5; rotate_left)
        · unfold t5
          refine Frame.trans ?_ (State.setWord_frame (h := ?_) _ _ _ _ _)
          · exact h3
          · decide +kernel
        · refine Frame.trans ?_ (State.flag_frame (h := ?_) _ _ _ _)
          · refine Frame.trans ?_ (State.put_frame (h := ?_) _ _ _ _ _)
            · refine Frame.trans ?_ (State.put_frame (h := ?_) _ _ _ _ _)
              · exact h5
              · decide +kernel
            · decide +kernel
          · decide +kernel

theorem execHbmRefreshDouble_frame (ms : Nat) (hot : Bool) {s t : State} (hs : s.flt.fatal = []) (h : execHbmRefreshDouble
    ms hot s = .next t) :
  Frame (commandTouch (.hbmRefreshDouble ms hot)) s t := by
  unfold execHbmRefreshDouble at h
  refine act_frame (K := ⟨[.hbm], [], false⟩) hs h (by decide) ?_
  refine Frame.step ?_ (State.onHbm_frame _ _)
  exact Frame.refl _

theorem execAerErrorReport_frame (port : Nat) (ue : Bool) {s t : State} (hs : s.flt.fatal = []) (h : execAerErrorReport port
    ue s = .next t) :
  Frame (commandTouch (.aerErrorReport port ue)) s t := by
  unfold execAerErrorReport at h
  refine act_frame (K := ⟨[], [.PCI_COUNTS, .PCI_EVENTS], false⟩) hs h (by decide) ?_
  refine Frame.step ?_ (State.aerReport_frame _ _ _)
  exact Frame.refl _

theorem execPcieCompletion_frame (port : Nat) (tag : Nat) (status : Nat) (data : Bytes) {s t : State} (hs : s.flt.fatal =
    []) (h : execPcieCompletion port tag status data s = .next t) :
  Frame (commandTouch (.pcieCompletion port tag status data)) s t := by
  unfold execPcieCompletion at h
  refine act_frame (K := ⟨[.out, .rem, .pci], [], false⟩) hs h (by decide) ?_
  refine Frame.step ?_ (State.pciCompleted_frame _ _ _ _ _)
  exact Frame.refl _

end Sys2Proof.Machine
end

