-- ==== Sys2Proof/Tests/Slice0.lean ====
section
/-! SUPPORT. Tests of the model: what the check of commands refuses, states that meet the hypotheses of the statements, and
small runs of one command whose results stand in the spec. -/

namespace Sys2Proof.Tests

open Sys2Proof Sys2Proof.Machine

/-! ### Small states -/

/-- The state after reset with fields set: a field, its die, its entry, its value. -/
def withFields (fs : List (Fld × Nat × Nat × Nat)) (s : State := State.reset) : State :=
  fs.foldl (fun s x => s.put x.1 x.2.2.2 x.2.1 x.2.2.1) s

/-- The state that a command leads to. -/
def after (c : Instr) (s : State) : State := match exec c s with | .next t => t | _ => { s with out := [] }

/-- The module Running with its start done. -/
def running : State := { State.reset with power := { mode := .running } }

/-- A state meets the invariant when its three parts do. -/
theorem inv_of {s : State} (h : Memory.wf s.mem = true ∧ (s.regs.map (·.1)).Nodup ∧ s.flt.fatal = []) : s.Inv :=
  ⟨h.1, h.2.1, h.2.2⟩

/-- Where no error is stored, every span is sound. -/
theorem sound_of {s : State} (a n : Nat) (h : s.hbm.flips = [] ∧ s.hbm.hostBad = [] ∧ s.oasis.failed = []) : s.soundSpan a n := by
  intro k _ _; simp [h.1, h.2.1, h.2.2, lookupKey]

/-! ### States that meet the hypotheses of the statements -/

theorem wit_step : { running with pending := [.park] }.pending = Instr.park :: [] ∧ running.pending = [] := by decide +kernel

theorem wit_invariant : State.Inv { running with pending := [.park] } ∧ ∃ t, step { running with pending := [.park] } = .next t :=
  ⟨inv_of (by decide +kernel), _, rfl⟩

theorem wit_footprint : running.flt.fatal = [] ∧ ∃ t, exec .park running = .next t := ⟨rfl, _, rfl⟩

theorem wit_wellFormed : Instr.wf .park = true ∧ Instr.wf (.bankSwitch 3) = false := by decide +kernel

theorem wit_unpowered : ({ running with power := { mode := .off } } : State).power.mode = .off ∧ wakes .park = false ∧
    (withFields [(F.SEC_START.FAILED, 72, 0, 1)]).power.mode ≠ .off ∧
    (withFields [(F.SEC_START.FAILED, 72, 0, 1)]).on F.SEC_START.FAILED = true ∧ reachesFailed .park = false ∧ Instr.park.wf = true := by
  decide +kernel

theorem wit_registerWrite : let c := Instr.registerWrite (running.originator 0x8000) 0x03004800_0008 8 2 0
    running.Reaches c := by decide +kernel

end Sys2Proof.Tests
end

/-! # The control space's decoder reads register addresses back (R55 to R58)

A register's word is named by its die window, its place among the instances of its block, and its entry there (`Reg.HeldAt`).
The proof goes through these three: `Reg.standsAt` and `Reg.address` speak of them, and `decodeAddr` finds them. The one fact
about the tables is that no two registers of a block own the same offset, so the first register with an entry at an offset is
the only one. -/

section

namespace Sys2Proof.Machine

/-! ### Entries of one register -/

/-- The registers whose entries stand at a single stride: all but the two tables of tile statistics and the waiters. -/
def Reg.Strided (r : Reg) : Prop := r ≠ .MXA_STAT ∧ r ≠ .MXW_STAT ∧ r ≠ .SYN_OBJ_WAITER

theorem Reg.layout_cases (r : Reg) : (r = .MXA_STAT ∨ r = .MXW_STAT) ∨ r = .SYN_OBJ_WAITER ∨ r.Strided := by
  unfold Reg.Strided
  tauto

theorem Reg.stride_pos (r : Reg) : 0 < r.info.stride := by
  cases r <;> decide

theorem Reg.entryOffset_stat {r : Reg} (h : r = .MXA_STAT ∨ r = .MXW_STAT) (e : Nat) :
    r.entryOffset e = 0x100 + e / 22 * 0x100 + e % 22 * 8 := by
  obtain rfl | rfl := h <;> rfl

theorem Reg.entryOffset_strided {r : Reg} (h : r.Strided) (e : Nat) : r.entryOffset e = r.info.off + e * r.info.stride := by
  obtain ⟨h1, h2, h3⟩ := h
  unfold Reg.entryOffset
  split
  · contradiction
  · contradiction
  · contradiction
  · rfl

theorem Reg.entryAt_stat_iff {r : Reg} (h : r = .MXA_STAT ∨ r = .MXW_STAT) {off e : Nat} :
    r.entryAt off = some e ↔ e < 176 ∧ 0x100 + e / 22 * 0x100 + e % 22 * 8 = off := by
  obtain rfl | rfl := h <;>
  · simp only [Reg.entryAt, Option.ite_none_right_eq_some, Option.some.injEq]
    omega

theorem Reg.entryAt_waiter_iff {off e : Nat} :
    Reg.SYN_OBJ_WAITER.entryAt off = some e ↔ e < 768 ∧ 0x1000 + e / 16 * 0x100 + 0x40 + e % 16 * 8 = off := by
  simp only [Reg.entryAt, Option.ite_none_right_eq_some, Option.some.injEq]
  omega

theorem Reg.entryAt_strided_iff {r : Reg} (h : r.Strided) {off e : Nat} :
    r.entryAt off = some e ↔ e < r.info.count ∧ r.info.off + e * r.info.stride = off := by
  have hform : r.entryAt off =
      if r.info.off ≤ off ∧ (off - r.info.off) % r.info.stride = 0 ∧ (off - r.info.off) / r.info.stride < r.info.count
      then some ((off - r.info.off) / r.info.stride) else none := by
    obtain ⟨h1, h2, h3⟩ := h
    unfold Reg.entryAt
    split
    · contradiction
    · contradiction
    · contradiction
    · rfl
  rw [hform, Option.ite_none_right_eq_some, Option.some.injEq]
  constructor
  · rintro ⟨⟨hoff, hmod, hcount⟩, rfl⟩
    rw [Nat.div_mul_cancel (Nat.dvd_of_mod_eq_zero hmod)]
    omega
  · rintro ⟨hcount, rfl⟩
    simp [Nat.mul_div_cancel _ r.stride_pos, hcount]

/-- A register has an entry at the offsets of its entries and at no other. -/
theorem Reg.entryAt_eq_some_iff {r : Reg} {off e : Nat} :
    r.entryAt off = some e ↔ e < r.info.count ∧ r.entryOffset e = off := by
  obtain hr | rfl | hr := r.layout_cases
  · have hcount : r.info.count = 176 := by obtain rfl | rfl := hr <;> rfl
    rw [Reg.entryAt_stat_iff hr, Reg.entryOffset_stat hr, hcount]
  · exact Reg.entryAt_waiter_iff
  · rw [Reg.entryAt_strided_iff hr, Reg.entryOffset_strided hr]

/-! ### The offsets that a register owns -/

/-- The end of the offsets over which a register's entries spread. -/
def Reg.stop : Reg → Nat
  | .MXA_STAT | .MXW_STAT => 0x900
  | .SYN_OBJ_WAITER => 0x4000
  | r => r.info.off + r.info.count * r.info.stride

/-- The distance after which a register's entries, or its groups of entries, come again. -/
def Reg.period : Reg → Nat
  | .MXA_STAT | .MXW_STAT | .SYN_OBJ_WAITER => 0x100
  | r => r.info.stride

/-- The bytes that a register takes of each period. -/
def Reg.width : Reg → Nat
  | .MXA_STAT | .MXW_STAT => 22 * 8
  | .SYN_OBJ_WAITER => 16 * 8
  | _ => 8

/-- Where in each period a register's bytes begin. -/
def Reg.phase (r : Reg) : Nat := r.info.off % r.period

/-- An offset of a block lies in the span of a register and in its part of the period. -/
def Reg.Owns (r : Reg) (off : Nat) : Prop :=
  r.info.off ≤ off ∧ off < r.stop ∧ r.phase ≤ off % r.period ∧ off % r.period < r.phase + r.width

/-- Two registers whose spans do not meet, or that take different parts of one period. -/
def Reg.apart (r q : Reg) : Bool :=
  decide (r.stop ≤ q.info.off) || decide (q.stop ≤ r.info.off) ||
    (r.period == q.period && (decide (r.phase + r.width ≤ q.phase) || decide (q.phase + q.width ≤ r.phase)))

theorem Reg.owns_of_entryAt {r : Reg} {off e : Nat} (h : r.entryAt off = some e) : r.Owns off := by
  obtain hr | rfl | hr := r.layout_cases
  · rw [Reg.entryAt_stat_iff hr] at h
    have howns : r.Owns off = (0x100 ≤ off ∧ off < 0x900 ∧ 0 ≤ off % 0x100 ∧ off % 0x100 < 0 + 22 * 8) := by
      obtain rfl | rfl := hr <;> rfl
    rw [howns]
    omega
  · rw [Reg.entryAt_waiter_iff] at h
    show 0x1040 ≤ off ∧ off < 0x4000 ∧ 0x40 ≤ off % 0x100 ∧ off % 0x100 < 0x40 + 16 * 8
    omega
  · obtain ⟨hcount, rfl⟩ := (Reg.entryAt_strided_iff hr).1 h
    obtain ⟨hstop, hperiod, hwidth⟩ :
        r.stop = r.info.off + r.info.count * r.info.stride ∧ r.period = r.info.stride ∧ r.width = 8 := by
      obtain ⟨h1, h2, h3⟩ := hr
      simp [Reg.stop, Reg.period, Reg.width]
    have hspan : e * r.info.stride < r.info.count * r.info.stride := Nat.mul_lt_mul_of_pos_right hcount r.stride_pos
    simp only [Reg.Owns, Reg.phase, hstop, hperiod, hwidth, Nat.add_mul_mod_self_right]
    omega

theorem Reg.not_owns_of_apart {r q : Reg} (h : r.apart q = true) {off : Nat} (hr : r.Owns off) : ¬ q.Owns off := by
  rintro ⟨q1, q2, q3, q4⟩
  obtain ⟨r1, r2, r3, r4⟩ := hr
  simp only [Reg.apart, Bool.or_eq_true, Bool.and_eq_true, decide_eq_true_eq, beq_iff_eq] at h
  obtain (h | h) | ⟨hp, h⟩ := h
  · omega
  · omega
  · rw [hp] at r3 r4
    omega

/-! ### The first register at an offset -/

theorem of_firstAt {off e : Nat} {r : Reg} :
    ∀ {rs : List Reg}, firstAt off rs = some (r, e) → r ∈ rs ∧ r.entryAt off = some e
  | [], h => by simp [firstAt] at h
  | q :: rest, h => by
    simp only [firstAt] at h
    split at h
    · rename_i d hd
      obtain ⟨rfl, rfl⟩ := Prod.mk.inj (Option.some.inj h)
      exact ⟨List.mem_cons_self, hd⟩
    · obtain ⟨hmem, hentry⟩ := of_firstAt h
      exact ⟨List.mem_cons_of_mem _ hmem, hentry⟩

/-- Among registers apart from one another, the one that has an entry at an offset is the first that has one. -/
theorem firstAt_of_mem {off e : Nat} {r : Reg} (he : r.entryAt off = some e) :
    ∀ {rs : List Reg}, rs.Pairwise (fun a b => a.apart b = true) → r ∈ rs → firstAt off rs = some (r, e)
  | q :: rest, hrs, hmem => by
    obtain ⟨hq, hrest⟩ := List.pairwise_cons.1 hrs
    obtain rfl | hmem := List.mem_cons.1 hmem
    · simp [firstAt, he]
    · have hnone : q.entryAt off = none := by
        by_contra hne
        obtain ⟨d, hd⟩ := Option.ne_none_iff_exists'.1 hne
        exact Reg.not_owns_of_apart (hq r hmem) (Reg.owns_of_entryAt hd) (Reg.owns_of_entryAt he)
      simp [firstAt, hnone, firstAt_of_mem he hrest hmem]

theorem Blk.regs_pairwise_apart (b : Blk) : b.regs.Pairwise fun r q => r.apart q = true := by
  cases b <;> decide

theorem Reg.mem_regs (r : Reg) : r ∈ r.info.blk.regs := by
  cases r <;> decide

theorem Blk.info_blk_of_mem {b : Blk} : ∀ r ∈ b.regs, r.info.blk = b := by
  cases b <;> decide

/-- The decoder finds a register in a block at the offsets of the register's entries, and at no other. -/
theorem firstAt_regs_eq_some_iff {b : Blk} {off e : Nat} {r : Reg} :
    firstAt off b.regs = some (r, e) ↔ r.info.blk = b ∧ e < r.info.count ∧ r.entryOffset e = off := by
  constructor
  · intro h
    obtain ⟨hmem, hentry⟩ := of_firstAt h
    exact ⟨Blk.info_blk_of_mem r hmem, Reg.entryAt_eq_some_iff.1 hentry⟩
  · rintro ⟨rfl, hentry⟩
    exact firstAt_of_mem (Reg.entryAt_eq_some_iff.2 hentry) r.info.blk.regs_pairwise_apart r.mem_regs

/-! ### Blocks and their instances in a die window -/

/-- The bytes of one of a block's instances, or of a whole block where it has none (R56, R58). -/
def Blk.window (b : Blk) : Nat := if b.instanced then 0x1_0000 else 0x8_0000

theorem Blk.ofIndex_eq_some_iff {i : Nat} {b : Blk} : Blk.ofIndex i = some b ↔ b.offset = i * 0x8_0000 := by
  constructor
  · intro h
    unfold Blk.ofIndex at h
    split at h <;> cases h <;> rfl
  · intro h
    obtain rfl : i = b.offset / 0x8_0000 := by omega
    cases b <;> rfl

theorem Blk.offset_dvd (b : Blk) : 0x8_0000 ∣ b.offset := by
  cases b <;> decide

theorem Blk.offset_lt (b : Blk) : b.offset < 0x100_0000 := by
  cases b <;> decide

theorem bdiLinks_bounds (die : Nat) : 0 < bdiLinks die ∧ bdiLinks die ≤ 4 := by
  unfold bdiLinks
  split
  · decide
  · split <;> decide

theorem Blk.instances_bounds (b : Blk) (die : Nat) : 0 < b.instances die ∧ b.instances die ≤ 6 := by
  have := bdiLinks_bounds die
  unfold Blk.instances
  split <;> omega

theorem Blk.instances_of_not_instanced {b : Blk} (h : b.instanced = false) (die : Nat) : b.instances die = 1 := by
  cases b
  case MXA | RDX | VLK | BDI => cases h
  all_goals rfl

theorem Reg.stop_le_window (r : Reg) : r.stop ≤ r.info.blk.window := by
  cases r <;> decide

theorem Reg.entryOffset_lt_window {r : Reg} {e : Nat} (he : e < r.info.count) : r.entryOffset e < r.info.blk.window :=
  lt_of_lt_of_le (Reg.owns_of_entryAt (Reg.entryAt_eq_some_iff.2 ⟨he, rfl⟩)).2.1 r.stop_le_window

/-! ### A register's word by die window, number among the block's instances, and entry -/

/-- Die window `die` holds number `inst` of the instances of a register's block, and entry `e` of the register there; a
module-wide register stands in the first alone (R57, R58). -/
structure Reg.HeldAt (r : Reg) (die inst e : Nat) : Prop where
  present : r.info.blk.present die = true
  instance_lt : inst < r.info.blk.instances die
  entry_lt : e < r.info.count
  home : r.info.home.isSome = true → inst = 0

theorem Reg.heldAt_iff {r : Reg} {die inst e : Nat} :
    r.HeldAt die inst e ↔ r.info.blk.present die = true ∧ inst < r.info.blk.instances die ∧ e < r.info.count ∧
      (r.info.home.isSome = true → inst = 0) :=
  ⟨fun ⟨h1, h2, h3, h4⟩ => ⟨h1, h2, h3, h4⟩, fun ⟨h1, h2, h3, h4⟩ => ⟨h1, h2, h3, h4⟩⟩

/-- The number of an entry: a die's instances of a block are numbered in one row, but for BDI_CAPS_OWN, which all of them show
alike. -/
def Reg.entryNumber (r : Reg) (inst e : Nat) : Nat := if r == .BDI_CAPS_OWN then e else inst * r.info.count + e

/-- The local address of entry `e` of a register in number `inst` of its block's instances (R55 to R58). -/
def Reg.placeAt (r : Reg) (die inst e : Nat) : Nat :=
  0x0300_0000_0000 + die * 0x100_0000 + r.info.blk.offset + inst * 0x1_0000 + r.entryOffset e

theorem Reg.HeldAt.eq_zero_of_not_instanced {r : Reg} {die inst e : Nat} (h : r.HeldAt die inst e)
    (hb : r.info.blk.instanced = false) : inst = 0 := by
  have := h.instance_lt
  rw [Blk.instances_of_not_instanced hb] at this
  omega

theorem Reg.HeldAt.first {r : Reg} {die inst e : Nat} (h : r.HeldAt die inst e) : r.HeldAt die 0 e :=
  ⟨h.present, (Blk.instances_bounds _ die).1, h.entry_lt, fun _ => rfl⟩

/-! ### The numbering of entries -/

/-- Which of the block's instances holds the entry of a number. -/
def Reg.instanceOf (r : Reg) (idx : Nat) : Nat :=
  if r.info.blk.instanced && r != .BDI_CAPS_OWN then idx / r.info.count else 0

/-- The entry there that a number stands for. -/
def Reg.entryOf (r : Reg) (idx : Nat) : Nat :=
  if r == .BDI_CAPS_OWN then idx else if r.info.blk.instanced then idx % r.info.count else idx

theorem Reg.address_eq_placeAt (r : Reg) (die idx : Nat) : r.address die idx = r.placeAt die (r.instanceOf idx) (r.entryOf idx) :=
  rfl

theorem Reg.count_pos (r : Reg) : 0 < r.info.count := by
  cases r <;> decide

theorem Reg.entryNumber_instanceOf_entryOf (r : Reg) (idx : Nat) : r.entryNumber (r.instanceOf idx) (r.entryOf idx) = idx := by
  by_cases hr : r = .BDI_CAPS_OWN
  · simp [Reg.entryNumber, Reg.entryOf, hr]
  · cases hb : r.info.blk.instanced
    · simp [Reg.entryNumber, Reg.instanceOf, Reg.entryOf, hr, hb]
    · simp [Reg.entryNumber, Reg.instanceOf, Reg.entryOf, hr, hb, Nat.div_add_mod']

theorem Reg.standsAt_iff (r : Reg) (die idx : Nat) :
    r.standsAt die idx = true ↔ r.HeldAt die (r.instanceOf idx) (r.entryOf idx) := by
  have hpos := (Blk.instances_bounds r.info.blk die).1
  rw [Reg.heldAt_iff]
  by_cases hr : r = .BDI_CAPS_OWN
  · simp [Reg.standsAt, Reg.instanceOf, Reg.entryOf, hr, hr ▸ hpos]
  · cases hb : r.info.blk.instanced
    · simp [Reg.standsAt, Reg.instanceOf, Reg.entryOf, hr, hb, hpos]
    · have hhome : (r.info.home.isNone || decide (idx < r.info.count)) = true ↔
          (r.info.home.isSome = true → idx / r.info.count = 0) := by
        rw [Nat.div_eq_zero_iff_lt r.count_pos]
        cases r.info.home <;> simp
      simp only [Reg.standsAt, Reg.instanceOf, Reg.entryOf, hb, bne_iff_ne.2 hr, beq_eq_false_iff_ne.2 hr, Bool.true_and,
        Bool.and_eq_true, decide_eq_true_eq, hhome, if_true, if_false, Bool.false_eq_true, Nat.mod_lt idx r.count_pos, true_and]

/-- The place among a block's instances and the entry there come back from the entry's number. -/
theorem Reg.HeldAt.of_entryNumber {r : Reg} {die inst e : Nat} (h : r.HeldAt die inst e) (hr : r ≠ .BDI_CAPS_OWN) :
    r.instanceOf (r.entryNumber inst e) = inst ∧ r.entryOf (r.entryNumber inst e) = e := by
  cases hb : r.info.blk.instanced
  · simp [Reg.entryNumber, Reg.instanceOf, Reg.entryOf, hr, hb, h.eq_zero_of_not_instanced hb]
  · have hdiv : e / r.info.count = 0 := Nat.div_eq_of_lt h.entry_lt
    simp [Reg.entryNumber, Reg.instanceOf, Reg.entryOf, hr, hb, Nat.mul_comm inst, Nat.mul_add_div r.count_pos, hdiv,
      Nat.mod_eq_of_lt h.entry_lt]

/-! ### The decoder -/

/-- Which of a block's instances stands at an offset of the block. -/
def Blk.instanceAt (b : Blk) (o : Nat) : Nat := if b.instanced then o / 0x1_0000 else 0

/-- An offset of a block, counted from the start of the one of its instances that stands there. -/
def Blk.innerAt (b : Blk) (o : Nat) : Nat := if b.instanced then o % 0x1_0000 else o

theorem Blk.instanceAt_add_innerAt (b : Blk) (o : Nat) : b.instanceAt o * 0x1_0000 + b.innerAt o = o := by
  unfold Blk.instanceAt Blk.innerAt
  split <;> omega

theorem Reg.HeldAt.instanceAt_innerAt {r : Reg} {die inst e : Nat} (h : r.HeldAt die inst e) :
    r.info.blk.instanceAt (inst * 0x1_0000 + r.entryOffset e) = inst ∧
      r.info.blk.innerAt (inst * 0x1_0000 + r.entryOffset e) = r.entryOffset e := by
  have hlt := Reg.entryOffset_lt_window h.entry_lt
  cases hb : r.info.blk.instanced
  · simp [Blk.instanceAt, Blk.innerAt, hb, h.eq_zero_of_not_instanced hb]
  · simp only [Blk.window, hb, if_true] at hlt
    simp only [Blk.instanceAt, Blk.innerAt, hb, if_true]
    omega

/-- The instances of a block stand in its 512 KiB (R56). -/
theorem Reg.HeldAt.offset_lt {r : Reg} {die inst e : Nat} (h : r.HeldAt die inst e) :
    inst * 0x1_0000 + r.entryOffset e < 0x8_0000 := by
  have hlt := Reg.entryOffset_lt_window h.entry_lt
  cases hb : r.info.blk.instanced
  · simpa [Blk.window, hb, h.eq_zero_of_not_instanced hb] using hlt
  · have hinst := h.instance_lt.trans_le (Blk.instances_bounds _ die).2
    simp only [Blk.window, hb, if_true] at hlt
    omega

/-- What the decoder answers, by the offset in the control space. The definition is unfolded as a function and its offset
abstracted at once: the kernel would otherwise reduce the subtraction of the region's start step by step. -/
theorem decodeAddr_iff_of_offset {addr off : Nat} (hoff : addr - 0x0300_0000_0000 = off) {r : Reg} {die idx : Nat} :
    decodeAddr addr = some (r, die, idx) ↔
      Blk.ofIndex (off % 0x100_0000 / 0x8_0000) = some r.info.blk ∧ off / 0x100_0000 = die ∧
        ∃ e, r.HeldAt die (r.info.blk.instanceAt (off % 0x8_0000)) e ∧
          r.entryOffset e = r.info.blk.innerAt (off % 0x8_0000) ∧
          r.entryNumber (r.info.blk.instanceAt (off % 0x8_0000)) e = idx := by
  generalize hf : decodeAddr = f
  delta decodeAddr at hf
  subst hf
  have hinst (b : Blk) : (if b.instanced = true then off % 0x8_0000 / 0x1_0000 else 0) = b.instanceAt (off % 0x8_0000) := rfl
  have hin (b : Blk) : (if b.instanced = true then off % 0x8_0000 % 0x1_0000 else off % 0x8_0000) =
      b.innerAt (off % 0x8_0000) := rfl
  have hnum (q : Reg) (inst e : Nat) : (if (q == .BDI_CAPS_OWN) = true then e else inst * q.info.count + e) =
      q.entryNumber inst e := rfl
  simp only [hoff, hinst, hin, hnum]
  constructor
  · intro h
    split at h
    · simp only [reduceCtorEq] at h
    · rename_i b hb
      obtain ⟨hblock, h⟩ := Option.ite_none_right_eq_some.1 h
      rw [Bool.and_eq_true, decide_eq_true_eq] at hblock
      split at h
      · simp only [reduceCtorEq] at h
      · rename_i q e hfirst
        obtain ⟨hhome, h⟩ := Option.ite_none_left_eq_some.1 h
        simp only [Option.some.injEq, Prod.mk.injEq] at h
        obtain ⟨rfl, rfl, rfl⟩ := h
        obtain ⟨rfl, hlt, hinner⟩ := firstAt_regs_eq_some_iff.1 hfirst
        have hzero : q.info.home.isSome = true → q.info.blk.instanceAt (off % 0x8_0000) = 0 := by
          intro hsome
          simpa only [hsome, Bool.true_and, decide_eq_true_eq, Nat.pos_iff_ne_zero, not_not] using hhome
        exact ⟨hb, rfl, e, ⟨hblock.1, hblock.2, hlt, hzero⟩, hinner, rfl⟩
  · rintro ⟨hb, rfl, e, h, hinner, rfl⟩
    have hfirst := firstAt_regs_eq_some_iff.2 ⟨rfl, h.entry_lt, hinner⟩
    have hhome : (r.info.home.isSome && decide (0 < r.info.blk.instanceAt (off % 0x8_0000))) = false := by
      cases hsome : r.info.home.isSome
      · rfl
      · rw [h.home hsome]
        rfl
    simp only [hb, h.present, h.instance_lt, decide_true, Bool.and_self, if_true, hfirst, hhome, Bool.false_eq_true, if_false]

/-- The decoder reads an address of the control space as a register's word where the word stands there, and only there. -/
theorem decodeAddr_eq_some_iff {addr : Nat} (haddr : 0x0300_0000_0000 ≤ addr) {r : Reg} {die idx : Nat} :
    decodeAddr addr = some (r, die, idx) ↔
      ∃ inst e, r.HeldAt die inst e ∧ r.placeAt die inst e = addr ∧ r.entryNumber inst e = idx := by
  obtain ⟨off, rfl⟩ := Nat.exists_eq_add_of_le haddr
  rw [decodeAddr_iff_of_offset (Nat.add_sub_cancel_left _ off), Blk.ofIndex_eq_some_iff]
  constructor
  · rintro ⟨hblk, rfl, e, hheld, hinner, hidx⟩
    have hsum := r.info.blk.instanceAt_add_innerAt (off % 0x8_0000)
    refine ⟨_, e, hheld, ?_, hidx⟩
    simp only [Reg.placeAt, hinner]
    omega
  · rintro ⟨inst, e, h, hplace, rfl⟩
    have hlt := r.info.blk.offset_lt
    have hwin := h.offset_lt
    obtain ⟨k, hk⟩ := r.info.blk.offset_dvd
    simp only [Reg.placeAt] at hplace
    have hin : off % 0x8_0000 = inst * 0x1_0000 + r.entryOffset e := by omega
    obtain ⟨hinst, hinner⟩ := h.instanceAt_innerAt
    rw [hin, hinst, hinner]
    exact ⟨by omega, by omega, e, h, rfl, rfl⟩

end Sys2Proof.Machine

open Sys2Proof Sys2Proof.Machine

/-- Settles O10: by `decodeAddr_eq_some_iff`, the decoder answers exactly with the word that stands at the address, named by its
die window, its place among the block's instances and its entry. -/
theorem registerAddressesDecodeBack : Obligations.RegisterAddressesDecodeBack := by
  unfold Obligations.RegisterAddressesDecodeBack
  constructor
  · intro r die idx hstands
    rw [Reg.address_eq_placeAt, decodeAddr_eq_some_iff (by simp only [Reg.placeAt]; omega)]
    exact ⟨_, _, (Reg.standsAt_iff r die idx).1 hstands, rfl, r.entryNumber_instanceOf_entryOf idx⟩
  · intro addr r die idx _ hcontrol _ hdecode
    have haddr : 0x0300_0000_0000 ≤ addr := by
      simp only [inControl, Bool.and_eq_true, decide_eq_true_eq] at hcontrol
      exact hcontrol.1
    obtain ⟨inst, e, hheld, hplace, rfl⟩ := (decodeAddr_eq_some_iff haddr).1 hdecode
    by_cases hr : r = .BDI_CAPS_OWN
    · subst hr
      exact ⟨(Reg.standsAt_iff _ die _).2 hheld.first, .inl rfl⟩
    · obtain ⟨hinst, hentry⟩ := hheld.of_entryNumber hr
      rw [Reg.standsAt_iff, Reg.address_eq_placeAt, hinst, hentry]
      exact ⟨hheld, .inr hplace⟩

/-- The spec's worked example (02_address_space.md): the slip budget of LD37, register offset 0x20 of the block at
0x0300_2508_0000. -/
theorem decodeAddr_slipBudget_LD37 : decodeAddr 0x0300_2508_0020 = some (.SCH_SLIP_BUDGET, 37, 0) :=
  registerAddressesDecodeBack.1 .SCH_SLIP_BUDGET 37 0 rfl

end

/-! # RUN, STOP and the start of a step (R90, R117, R161, R219, R237, R573, R607, R644)

The start of a step clears the channels, V0 to V31, the histograms and the arrays among other effects. Those that come after the
clearing leave it alone by their footprints (`FreshStep.step`). Those that come before it may only leave no token carried and no
operation of the next step in flight, for the credits of such operations are taken already (R111): of the streams they change no
more than the records that wait for a wadi slot (`StreamsStand`). -/

section

namespace Sys2Proof.Machine

/-! ### What the effects before the clearing leave of the streams -/

/-- From `s` to `t` the image and the carried tokens are the same, and no operation is in flight that was not. -/
structure State.StreamsStand (s t : State) : Prop where
  image   : t.sched.image = s.sched.image
  carried : t.sched.carried = s.sched.carried
  ops     : ∀ p ∈ t.sched.units, ∀ o ∈ p.2.ops, ∃ q ∈ s.sched.units, o ∈ q.2.ops

theorem State.StreamsStand.of_sched {s t : State} (h : t.sched = s.sched) : s.StreamsStand t :=
  ⟨by rw [h], by rw [h], fun p hp _ ho => ⟨p, h ▸ hp, ho⟩⟩

theorem State.StreamsStand.refl (s : State) : s.StreamsStand s := .of_sched rfl

theorem State.StreamsStand.trans {s t u : State} (h : s.StreamsStand t) (g : t.StreamsStand u) : s.StreamsStand u where
  image := g.image.trans h.image
  carried := g.carried.trans h.carried
  ops p hp o ho := by
    obtain ⟨q, hq, hoq⟩ := g.ops p hp o ho
    exact h.ops q hq o hoq

/-- One more effect, whose footprint leaves the schedule out. -/
theorem State.StreamsStand.step {K : Touch} {s t u : State} (h : s.StreamsStand t) (g : Frame K t u)
    (hk : Part.sched ∉ K.parts := by decide) : s.StreamsStand u :=
  h.trans (.of_sched (g.parts .sched hk))

theorem State.StreamsStand.put {s t : State} (h : s.StreamsStand t) (f : Fld) (v d i : Nat) : s.StreamsStand (t.put f v d i) :=
  h.trans (.of_sched rfl)

theorem State.StreamsStand.ite {c : Prop} [Decidable c] {s t u : State} (h : s.StreamsStand t) (g : s.StreamsStand u) :
    s.StreamsStand (if c then t else u) := by split <;> assumption

/-- A fold over states that stand beside another value. -/
theorem State.StreamsStand.foldl_fst {α β : Type} {f : State × β → α → State × β} {s : State} {l : List α} {b : State × β}
    (hb : s.StreamsStand b.1) (hf : ∀ (p : State × β) x, p.1.StreamsStand (f p x).1) : s.StreamsStand (l.foldl f b).1 := by
  induction l generalizing b with
  | nil => exact hb
  | cons x l ih => exact ih (hb.trans (hf b x))

/-- The state of a pair that was taken apart. -/
theorem State.StreamsStand.of_eq {α : Type} {s t : State} {x : α} {p : State × α} (h : s.StreamsStand p.1) (e : p = (t, x)) :
    s.StreamsStand t := by rw [e] at h; exact h

theorem mem_setKey {κ α : Type} [DecidableEq κ] {k : κ} {v : α} {l : List (κ × α)} {p : κ × α} (h : p ∈ setKey k v l) :
    p = (k, v) ∨ p ∈ l := by
  induction l with
  | nil => simpa [setKey] using h
  | cons q l ih =>
    simp only [setKey] at h
    split at h
    · exact (List.mem_cons.1 h).imp_right (List.mem_cons_of_mem _)
    · rcases List.mem_cons.1 h with rfl | h
      · exact .inr (List.mem_cons_self ..)
      · exact (ih h).imp_right (List.mem_cons_of_mem _)

theorem mem_of_lookupKey {κ α : Type} [DecidableEq κ] {k : κ} {v : α} {l : List (κ × α)} (h : lookupKey k l = some v) :
    (k, v) ∈ l := by
  induction l with
  | nil => cases h
  | cons q l ih =>
    simp only [lookupKey] at h
    split at h
    · next hk => cases h; subst hk; exact List.mem_cons_self ..
    · exact List.mem_cons_of_mem _ (ih h)

/-- An operation of a unit stands in the list of units. -/
theorem State.exists_unit_of_op {s : State} {u : Nat} {o : Op} (h : o ∈ (s.unit u).ops) : ∃ q ∈ s.sched.units, o ∈ q.2.ops := by
  unfold State.unit at h
  cases hu : lookupKey u s.sched.units with
  | none => rw [hu] at h; cases h
  | some x => rw [hu] at h; exact ⟨(u, x), mem_of_lookupKey hu, h⟩

/-- A change of a unit that leaves its operations. -/
theorem State.onUnit_streamsStand (s : State) (u : Nat) {f : UnitSt → UnitSt} (hf : (f (s.unit u)).ops = (s.unit u).ops) :
    s.StreamsStand (s.onUnit u f) where
  image := rfl
  carried := rfl
  ops p hp o ho := by
    rcases mem_setKey hp with rfl | hp
    · exact exists_unit_of_op (hf ▸ ho)
    · exact ⟨p, hp, ho⟩

/-! ### Records and reads of memory -/

theorem State.placeRecord_streamsStand (s : State) (r : FaultRec) (own : Bool) : s.StreamsStand (s.placeRecord r own) := by
  unfold State.placeRecord
  extract_lets full enabled t
  have ht : s.StreamsStand t := (StreamsStand.refl s |>.put ..).ite (.refl s)
  refine .ite (ht.step (State.queueRecord_frame _ _)) (.ite (.ite ?_ (ht.step (State.wadiRecord_frame _ _ _))) ?_)
  · exact ht.trans (State.onUnit_streamsStand _ _ rfl)
  · split
    · exact ht.step (State.wadiRecord_frame _ _ _)
    · exact (ht.put ..).put ..

theorem State.writeRecord_streamsStand (s : State) (r : FaultRec) : s.StreamsStand (s.writeRecord r) :=
  ((StreamsStand.refl s).step (State.forwardRecord_frame _ _)).trans (State.placeRecord_streamsStand _ _ _)

theorem State.collect_streamsStand (s : State) (r : FaultRec) : s.StreamsStand (s.collect r) := by
  unfold State.collect
  extract_lets die counted peaked entered fenced
  have hpeaked : s.StreamsStand peaked := (((StreamsStand.refl s).put ..).put ..).put ..
  have hentered : s.StreamsStand entered := ((hpeaked.put ..).put ..).ite hpeaked
  have hfenced : s.StreamsStand fenced := (hentered.step (State.fence_frame _ _)).ite hentered
  exact .ite hfenced (.ite (hfenced.step (State.coalesceRecord_frame _ _)) (hfenced.trans (State.writeRecord_streamsStand _ _)))

theorem State.holderRecord_streamsStand (s : State) (u cause sector : Nat) (write : Bool) :
    s.StreamsStand (s.holderRecord u cause sector write) := State.collect_streamsStand _ _

theorem State.corrected_streamsStand (s : State) (sector rest : Nat) : s.StreamsStand (s.corrected sector rest) := by
  unfold State.corrected
  extract_lets die row counted recorded
  have hcounted : s.StreamsStand counted := (((StreamsStand.refl s).step (State.residue_frame _ _ _)).put ..).put ..
  have hrecorded : s.StreamsStand recorded :=
    hcounted.ite ((hcounted.step (State.onHbm_frame _ _)).trans (State.holderRecord_streamsStand _ _ _ _ _))
  exact hrecorded.step (State.countRow_frame _ _ _)

theorem State.uncorrectable_streamsStand (s : State) (sector : Nat) (misaddress write : Bool) :
    s.StreamsStand (s.uncorrectable sector misaddress write) := by
  unfold State.uncorrectable
  extract_lets die counted placed marked
  have hplaced : s.StreamsStand placed := ((((StreamsStand.refl s).put ..).put ..).put ..).put ..
  have hmarked : s.StreamsStand marked := (hplaced.put ..).ite hplaced
  exact hmarked.trans (State.holderRecord_streamsStand _ _ _ _ _)

theorem State.checkHbm_streamsStand (s : State) (sector : Nat) (write : Bool) : s.StreamsStand (s.checkHbm sector write).1 := by
  unfold State.checkHbm
  split
  · exact .refl s
  · split
    · exact (StreamsStand.refl s).step (State.residue_frame _ _ _)
    · exact State.corrected_streamsStand _ _ _
    · exact State.uncorrectable_streamsStand _ _ _ _
    · exact State.uncorrectable_streamsStand _ _ _ _

theorem State.readHbm_streamsStand (s : State) (sector : Nat) (write : Bool) : s.StreamsStand (s.readHbm sector write).1 :=
  ((StreamsStand.refl s).put ..).trans (State.checkHbm_streamsStand _ _ _)

theorem State.readHbmAll_streamsStand (s : State) (sectors : List Nat) (write : Bool) :
    s.StreamsStand (s.readHbmAll sectors write).1 :=
  .foldl_fst (.refl s) fun p n => State.readHbm_streamsStand p.1 n write

theorem State.fetchLine_streamsStand (s : State) (g : Nat) (write : Bool) : s.StreamsStand (s.fetchLine g write) := by
  unfold State.fetchLine
  split
  · extract_lets need
    split
    next read => exact ((State.readHbmAll_streamsStand _ _ _).of_eq read).step (State.onLine_frame _ _ _)
  · split
    next read => exact ((State.readHbmAll_streamsStand _ _ _).of_eq read).step (State.allocate_frame _ _ _ _)

theorem State.readCached_streamsStand (s : State) (g : Nat) (secs : List Nat) (write : Bool) :
    s.StreamsStand (s.readCached g secs write).1 := by
  unfold State.readCached
  extract_lets validIn hit counted fetched failed bypass
  have hcounted : s.StreamsStand counted := (StreamsStand.refl s).step (State.countAccess_frame _ _ _)
  have hfetched : s.StreamsStand fetched :=
    (hcounted.step (State.useLine_frame _ _)).ite (hcounted.trans (State.fetchLine_streamsStand _ _ _))
  split
  · exact hfetched.trans (State.readHbmAll_streamsStand _ _ _)
  · clear_value failed
    split
    · exact hfetched.trans (State.holderRecord_streamsStand _ _ _ _ _)
    · exact hfetched

theorem State.readGranule_streamsStand (s : State) (a n : Nat) (write : Bool) : s.StreamsStand (s.readGranule a n write).1 := by
  unfold State.readGranule
  extract_lets secs
  split
  · split
    · exact State.readCached_streamsStand _ _ _ _
    · exact State.readHbmAll_streamsStand _ _ _
  · split
    · exact State.holderRecord_streamsStand _ _ _ _ _
    · exact .refl s
  · split
    · exact State.holderRecord_streamsStand _ _ _ _ _
    · exact .refl s
  · exact .refl s

/-! ### Writes of memory -/

theorem State.writeMasked_streamsStand (s : State) (a : Nat) (data : Bytes) (mask : List Bool) :
    s.StreamsStand (s.writeMasked a data mask).1 := by
  unfold State.writeMasked
  split
  rename_i t ok read
  have hread : s.StreamsStand t := (State.readGranule_streamsStand _ _ _ _).of_eq read
  split
  · exact hread
  · extract_lets stored
    have hstored : s.StreamsStand stored := hread.step (State.store_frame _ _ _)
    split
    · split
      · exact hstored.step (State.onLine_frame _ _ _)
      · exact hstored.step (State.controllerWrites_frame _ _)
    · split
      · exact hstored.step (State.controllerWrites_frame _ _)
      · exact hstored

theorem State.writeSpan_streamsStand (s : State) (a : Nat) (data : Bytes) : s.StreamsStand (s.writeSpan a data).1 := by
  refine .foldl_fst (.refl s) fun p q => ?_
  extract_lets d
  split
  · exact (StreamsStand.refl p.1).step (State.writeGranule_frame _ _ _)
  · exact State.writeMasked_streamsStand _ _ _ _

theorem State.zeroVerdict_streamsStand (s : State) : s.StreamsStand s.zeroVerdict := by
  unfold State.zeroVerdict
  exact .ite (State.writeSpan_streamsStand _ _ _) (.refl s)

/-! ### What the start of a step clears -/

/-- The registers that a fresh step finds clear. -/
def freshRegs : List Reg := [.SCH_CHANNEL, .VSC_VREG, .CDC_HIST]

/-- The module is as a step with this image starts: each channel holds no token and DEPTH credits (R90), and V0 to V31, the
histograms and the arrays are clear (R161, R219, R237). -/
structure State.FreshStep (image : Option Image) (t : State) : Prop where
  channels   : ∀ im, image = some im → ∀ c ch, im.channels[c]? = some ch →
    t.get F.SCH_CHANNEL.TOKENS 0 c = 0 ∧ t.get F.SCH_CHANNEL.CREDITS 0 c = ch.depth % 2 ^ F.SCH_CHANNEL.CREDITS.len
  vregs      : ∀ die i, t.word .VSC_VREG die i = 0
  histograms : ∀ die i, t.word .CDC_HIST die i = 0
  arrays     : t.arrays = []

/-- One more effect, whose footprint leaves out what is clear. -/
theorem State.FreshStep.step {K : Touch} {image : Option Image} {t u : State} (h : t.FreshStep image) (g : Frame K t u)
    (hk : K.any = false ∧ Part.arrays ∉ K.parts ∧ ∀ r ∈ freshRegs, r ∉ K.regs := by decide) : u.FreshStep image := by
  obtain ⟨hany, harrays, hregs⟩ := hk
  have hword : ∀ r ∈ freshRegs, ∀ d i, u.word r d i = t.word r d i := fun r hr d i => g.words hany r d i (hregs r hr)
  have hchannel : ∀ c, u.word .SCH_CHANNEL 0 c = t.word .SCH_CHANNEL 0 c := hword _ (by decide) 0
  exact
    { channels := by simpa only [State.get, hchannel] using h.channels
      vregs := fun d i => (hword _ (by decide) d i).trans (h.vregs d i)
      histograms := fun d i => (hword _ (by decide) d i).trans (h.histograms d i)
      arrays := (g.parts .arrays harrays).trans h.arrays }

theorem findWord_filter_reg (l : Loc) (rs : List (Loc × Word)) : findWord l (rs.filter fun p => p.1.reg != l.reg) = none := by
  induction rs with
  | nil => rfl
  | cons p rs ih =>
    by_cases hp : p.1.reg = l.reg
    · simpa [hp] using ih
    · have hl : p.1 ≠ l := fun e => hp (e ▸ rfl)
      simpa [hp, findWord, hl] using ih

theorem State.word_resetVregs (s : State) (die i : Nat) : s.resetVregs.word .VSC_VREG die i = 0 := by
  have hnone : findWord (Reg.VSC_VREG.place die i) s.resetVregs.regs = none := findWord_filter_reg _ s.regs
  rw [State.word, hnone]
  rfl

theorem State.word_clearHistograms (s : State) (die i : Nat) : s.clearHistograms.word .CDC_HIST die i = 0 := by
  have hnone : findWord (Reg.CDC_HIST.place die i) s.clearHistograms.regs = none := findWord_filter_reg _ s.regs
  rw [State.word, hnone]
  rfl

/-! ### The counters of the channels (R90) -/

/-- A channel's counters at a step's start, where `taken` gives the credits of each channel that are taken already (R111). -/
def State.refillChannel (taken : Nat → Nat) (s : State) (x : Channel × Nat) : State :=
  (s.put F.SCH_CHANNEL.TOKENS 0 0 x.2).put F.SCH_CHANNEL.CREDITS (x.1.depth - taken x.2) 0 x.2

section
variable (taken : Nat → Nat) (s : State)

theorem State.word_refillChannel_ne {x : Channel × Nat} {c : Nat} (h : x.2 ≠ c) :
    (s.refillChannel taken x).word .SCH_CHANNEL 0 c = s.word .SCH_CHANNEL 0 c := by
  unfold State.refillChannel
  rw [State.word_put_place (Reg.place_ne_idx h 0 0), State.word_put_place (Reg.place_ne_idx h 0 0)]

theorem State.get_refillChannel (x : Channel × Nat) :
    (s.refillChannel taken x).get F.SCH_CHANNEL.TOKENS 0 x.2 = 0 ∧
      (s.refillChannel taken x).get F.SCH_CHANNEL.CREDITS 0 x.2 = (x.1.depth - taken x.2) % 2 ^ F.SCH_CHANNEL.CREDITS.len := by
  unfold State.refillChannel
  constructor
  · rw [State.get_put_apart (by decide) (by decide), State.get_put_same _ _ _ _ _ (by decide), Nat.zero_mod]
  · exact State.get_put_same _ _ _ _ _ (by decide)

/-- Channels from number `n` on leave those below it. -/
theorem State.word_foldl_refillChannel_lt (chans : List Channel) {n c : Nat} (h : c < n) :
    ((chans.zipIdx n).foldl (State.refillChannel taken) s).word .SCH_CHANNEL 0 c = s.word .SCH_CHANNEL 0 c := by
  induction chans generalizing n s with
  | nil => rfl
  | cons ch chans ih =>
    rw [List.zipIdx_cons, List.foldl_cons, ih _ (by omega), State.word_refillChannel_ne _ _ (by exact h.ne')]

theorem State.get_foldl_refillChannel {chans : List Channel} {k : Nat} {ch : Channel} (n : Nat) (h : chans[k]? = some ch) :
    let t := (chans.zipIdx n).foldl (State.refillChannel taken) s
    t.get F.SCH_CHANNEL.TOKENS 0 (n + k) = 0 ∧
      t.get F.SCH_CHANNEL.CREDITS 0 (n + k) = (ch.depth - taken (n + k)) % 2 ^ F.SCH_CHANNEL.CREDITS.len := by
  induction chans generalizing n k s with
  | nil => simp at h
  | cons ch' chans ih =>
    rw [List.zipIdx_cons, List.foldl_cons]
    cases k with
    | zero =>
      obtain rfl : ch' = ch := by simpa using h
      simpa only [Nat.add_zero, State.get, State.word_foldl_refillChannel_lt _ _ chans n.lt_succ_self] using
        State.get_refillChannel taken s (ch', n)
    | succ k =>
      simpa only [Nat.add_right_comm n 1 k, ← Nat.add_assoc] using ih (s.refillChannel taken (ch', n)) (n + 1) h

end

/-- With no token carried and no operation of the next step in flight, every channel starts with its DEPTH. -/
theorem State.get_resetChannels {s : State} {im : Image} {c : Nat} {ch : Channel} (himage : s.sched.image = some im)
    (hch : im.channels[c]? = some ch) (hcarried : s.sched.carried = [])
    (hops : ∀ p ∈ s.sched.units, ∀ o ∈ p.2.ops, o.next = false) :
    s.resetChannels.get F.SCH_CHANNEL.TOKENS 0 c = 0 ∧
      s.resetChannels.get F.SCH_CHANNEL.CREDITS 0 c = ch.depth % 2 ^ F.SCH_CHANNEL.CREDITS.len := by
  have hearly : (s.sched.units.flatMap fun p => (p.2.ops.filter (·.next)).flatMap fun o => o.outs.map (·.1)) = [] := by
    refine List.flatMap_eq_nil_iff.2 fun p hp => ?_
    rw [List.filter_eq_nil_iff.2 fun o ho => by simp [hops p hp o ho], List.flatMap_nil]
  have hfold : s.resetChannels.regs = ((im.channels.zipIdx).foldl (State.refillChannel fun _ => 0) s).regs := by
    unfold State.resetChannels
    rw [hearly, hcarried, himage]
    rfl
  rw [State.get_congr hfold, State.get_congr hfold]
  simpa only [Nat.zero_add, Nat.sub_zero] using State.get_foldl_refillChannel (fun _ => 0) s 0 hch

/-! ### The start of a step -/

theorem State.stepResets_fresh {s : State} (hcarried : s.sched.carried = [])
    (hops : ∀ p ∈ s.sched.units, ∀ o ∈ p.2.ops, o.next = false) : s.stepResets.FreshStep s.sched.image := by
  unfold State.stepResets
  extract_lets cleared
  have hstand : s.StreamsStand cleared.resetObjects :=
    ((((StreamsStand.refl s).step (State.resetArrays_frame _)).step (State.resetVregs_frame _)).step
      (State.clearHistograms_frame _)).step (State.resetVerdict_frame _) |>.trans (State.zeroVerdict_streamsStand _) |>.step
      (State.resetObjects_frame _)
  have hafter : Frame ⟨recordParts ++ [.syn], readRegs ++ [.UPD_STATUS, .SYN_OBJ_VALUE, .SCH_CHANNEL], false⟩
      s.resetArrays.resetVregs.clearHistograms cleared.resetObjects.resetChannels :=
    (Frame.refl _).step (State.resetVerdict_frame _) |>.step (State.zeroVerdict_frame _) |>.step (State.resetObjects_frame _)
      |>.step (State.resetChannels_frame _)
  have hreset : cleared.resetObjects.resetChannels.FreshStep s.sched.image :=
    { channels := fun im him c ch hch => State.get_resetChannels (hstand.image.trans him) hch (hstand.carried.trans hcarried)
        fun p hp o ho => by
          obtain ⟨q, hq, hoq⟩ := hstand.ops p hp o ho
          exact hops q hq o hoq
      vregs := fun die i => by
        rw [hafter.words rfl _ _ _ (by decide), (State.clearHistograms_frame _).words rfl _ _ _ (by decide),
          State.word_resetVregs]
      histograms := fun die i => by rw [hafter.words rfl _ _ _ (by decide), State.word_clearHistograms]
      arrays := hafter.parts .arrays (by decide) }
  exact (hreset.step (State.resetUnits_frame _)).step (State.applyHeld_frame _)

theorem State.beginStep_fresh {s : State} {image : Option Image} (late : Nat) (himage : s.sched.image = image)
    (hcarried : s.sched.carried = []) (hops : ∀ p ∈ s.sched.units, ∀ o ∈ p.2.ops, o.next = false) :
    (s.beginStep false late).FreshStep image := by
  unfold State.beginStep
  extract_lets read ledger cairn
  have hcairn : cairn.sched = read.sched :=
    ((State.writeCairn_frame ledger).parts .sched (by decide)).trans ((State.readLedger_frame read).parts .sched (by decide))
  rw [← himage, show s.sched.image = cairn.sched.image by rw [hcairn]; rfl]
  exact (State.stepResets_fresh (by rw [hcairn]; exact hcarried) (by rw [hcairn]; exact hops)).step (State.startDue_frame _ _)

/-- STEP_START before the end of the step before is complete. -/
theorem State.startStep_eq_self {s : State} (h : s.sched.st ≠ .running ∨ s.sched.stepEnded = false) : s.startStep = s := by
  refine if_pos ?_
  rcases h with h | h <;> simp [h]

/-- STEP_START with the image that is held: no new one is named, or a start took it up already. -/
theorem State.startStep_fresh {s : State} (hrunning : s.sched.st = .running) (hended : s.sched.stepEnded = true)
    (hheld : s.sched.newImage = false ∨ s.sched.first = true) (hcarried : s.sched.carried = [])
    (hops : ∀ p ∈ s.sched.units, ∀ o ∈ p.2.ops, o.next = false) : s.startStep.FreshStep s.sched.image := by
  have hkept : (if (s.sched.newImage && !s.sched.first) = true then s.takeUp else s) = s :=
    if_neg (by rcases hheld with h | h <;> simp [h])
  unfold State.startStep
  rw [if_neg (by simp [hrunning, hended]), hkept]
  dsimp only
  split
  · exact (State.beginStep_fresh 1 (by rfl) (by exact hcarried) (by exact hops)).step (State.abortStep_frame _)
  · exact State.beginStep_fresh 1 rfl hcarried hops

/-! ### RUN and STOP -/

/-- A due tick is soon enough to be late where the distance to it, modulo 2^64, is no advance (R94, R117). -/
theorem State.dueSoon_eq (s : State) :
    s.dueSoon = decide (2 ^ 63 ≤ (s.dueTick 0 + 2 ^ 64 - (s.now 0 + 2) % 2 ^ 64) % 2 ^ 64) := by
  simp only [State.dueSoon, tickReached, ← decide_not, Nat.not_lt]

theorem State.runSchedule_on {s : State} (h : s.on F.SCH_CTRL.RUN = true) :
    s.runSchedule = s.onSched fun c => { c with stopReq := false } := if_pos h

theorem State.runSchedule_barred {s : State} (hoff : s.on F.SCH_CTRL.RUN = false)
    (h : s.power.mode = .parked ∨ s.get F.SCH_STEP.STEP = 2 ^ 40 - 1 ∨ s.active = true) : s.runSchedule = s := by
  unfold State.runSchedule
  rw [if_neg (by simp [hoff]), if_pos (by simpa [or_assoc] using h)]

/-- A start that nothing bars and that restores nothing. -/
theorem State.runSchedule_start {s : State} (hoff : s.on F.SCH_CTRL.RUN = false) (hmode : s.power.mode ≠ .parked)
    (hstep : s.get F.SCH_STEP.STEP ≠ 2 ^ 40 - 1) (hidle : s.active = false) (harmed : s.on F.FLT_RECOVERY.ARMED = false) :
    s.runSchedule = if s.takeUp.dueSoon then s.flag F.SCH_EVENTS.START_LATE
      else if s.takeUp.sched.image.isNone then s.takeUp else s.takeUp.armRun false := by
  unfold State.runSchedule
  rw [if_neg (by simp [hoff]), if_neg (by simpa [hmode, hidle] using hstep), if_neg (by simp [harmed])]

theorem State.setSched_running (s : State) : s.setSched .running = s.onSched fun c => { c with st := .running } := by
  simp [State.setSched]

theorem State.armRun_on (s : State) (restored : Bool) : (s.armRun restored).on F.SCH_CTRL.RUN = true := by
  unfold State.armRun
  rw [State.setSched_running]
  exact State.on_flag_same _ _ _ _ (by decide) (by decide)

theorem State.armRun_count (s : State) (restored : Bool) : (s.armRun restored).get F.SCH_REPLAY.COUNT = 0 := by
  unfold State.armRun
  rw [State.setSched_running, State.get_congr (State.onSched_regs _ _), State.get_put_reg (by decide),
    State.get_put_same _ _ _ _ _ (by decide), Nat.zero_mod]

theorem State.armRun_sched (s : State) (restored : Bool) :
    (s.armRun restored).sched.st = .running ∧ (s.armRun restored).sched.image = s.sched.image ∧
      (s.armRun restored).sched.stopReq = false := by
  unfold State.armRun
  rw [State.setSched_running]
  exact ⟨rfl, rfl, rfl⟩

theorem State.stopSchedule_on {s : State} (h : s.on F.SCH_CTRL.RUN = true) :
    s.stopSchedule = s.onSched fun c => { c with stopReq := true } := if_pos h

theorem State.stopSchedule_off {s : State} (h : s.on F.SCH_CTRL.RUN = false) : s.stopSchedule = s := if_neg (by simp [h])

/-- What an admitted command answers where its effect, which makes no die fatal, is known to be `t`. -/
theorem act_eq_next {c : Instr} {s t : State} {effect : State → State} (h : s.Reaches c) (ht : effect s = t)
    (hfatal : t.flt.fatal = s.flt.fatal) : act c s effect = .next t := by
  subst ht
  exact act_effect h hfatal

/-- The start of a schedule that nothing bars: late, without an image, or taken. -/
theorem exec_schRun_start {s : State} (h : s.Reaches .schRun) (hoff : s.on F.SCH_CTRL.RUN = false)
    (hmode : s.power.mode ≠ .parked) (hstep : s.get F.SCH_STEP.STEP ≠ 2 ^ 40 - 1) (hidle : s.active = false)
    (harmed : s.on F.FLT_RECOVERY.ARMED = false) :
    (s.takeUp.dueSoon = true → exec .schRun s = .next (s.flag F.SCH_EVENTS.START_LATE)) ∧
      (s.takeUp.dueSoon = false → s.takeUp.sched.image = none → exec .schRun s = .next s.takeUp) ∧
      (s.takeUp.dueSoon = false → s.takeUp.sched.image ≠ none → exec .schRun s = .next (s.takeUp.armRun false)) := by
  have hstart := State.runSchedule_start hoff hmode hstep hidle harmed
  have htaken : s.takeUp.flt.fatal = s.flt.fatal := (State.takeUp_frame s).parts .fatal (by decide)
  refine ⟨fun hlate => ?_, fun hsoon hnone => ?_, fun hsoon himage => ?_⟩
  · exact act_eq_next h (by rw [hstart, if_pos hlate]) rfl
  · exact act_eq_next h (by rw [hstart, if_neg (by simp [hsoon]), if_pos (by simp [hnone])]) htaken
  · refine act_eq_next h (by rw [hstart, if_neg (by simp [hsoon]), if_neg (by simpa using himage)]) ?_
    exact ((State.armRun_frame _ _).parts .fatal (by decide)).trans htaken

end Sys2Proof.Machine

open Sys2Proof Sys2Proof.Machine

/-- Settles O20: RUN and STOP by the cases of their effects; a step's start by `State.startStep_fresh`, since the halt of a die
that its records made fatal leaves what it cleared. -/
theorem runStopAndStepStart : Obligations.RunStopAndStepStart := by
  unfold Obligations.RunStopAndStepStart
  refine ⟨⟨fun s h => ⟨fun hon => ?_, fun hoff hbarred => ?_, fun hoff hmode hstep hidle harmed => ?_⟩,
    fun s h => ⟨fun hon => ?_, fun hoff => ?_⟩⟩, fun s h => ⟨fun hwaits => ?_, fun hrunning hended hheld hcarried hops => ?_⟩⟩
  · exact act_eq_next h (State.runSchedule_on hon) rfl
  · exact act_eq_next h (State.runSchedule_barred hoff hbarred) rfl
  · obtain ⟨hlate, hnone, htaken⟩ := exec_schRun_start h hoff hmode hstep hidle harmed
    simp only [State.dueSoon_eq, decide_eq_true_eq, decide_eq_false_iff_not, Nat.not_le] at hlate hnone htaken
    refine ⟨hlate, hnone, fun haway himage => ?_⟩
    obtain ⟨hst, him, hstop⟩ := s.takeUp.armRun_sched false
    have hmem : (s.takeUp.armRun false).mem = s.mem :=
      ((State.armRun_frame _ _).parts .mem (by decide)).trans ((State.takeUp_frame s).parts .mem (by decide))
    exact ⟨_, htaken haway himage, State.armRun_on _ _, hst, State.armRun_count _ _, him, hstop, hmem⟩
  · exact act_eq_next h (State.stopSchedule_on hon) rfl
  · exact act_eq_next h (State.stopSchedule_off hoff) rfl
  · exact act_eq_next h (State.startStep_eq_self hwaits) rfl
  · have hexec : exec .stepStart s = .next s.startStep.settle := act_admitted h
    have hfresh := (State.startStep_fresh hrunning hended hheld hcarried hops).step (State.settle_frame _)
    exact ⟨_, hexec, hfresh.channels, hfresh.vregs, hfresh.histograms, hfresh.arrays, execStepStart_frame hexec⟩

/-! ### States that meet the hypotheses -/

/-- An image with one channel of DEPTH 3. -/
def oneChannelImage : Image :=
  { base := 0, segments := 1, channels := [⟨0, 0, 3, false, 0, 0, 0⟩], streams := [], mirage := [] }

/-- The module between two steps of that image. -/
def betweenSteps : State :=
  { Tests.running with sched := { st := .running, stepEnded := true, first := true, image := some oneChannelImage } }

/-- The module with that image at rest, segment 0 due at tick 5. -/
def readyToRun : State :=
  Tests.withFields [(F.SCH_BASE_TICK.BASE_TICK, 0, 0, 5)] { Tests.running with sched := { image := some oneChannelImage } }

/-- The step starts with three credits. -/
theorem credits_of_stepStart_betweenSteps :
    ∃ t, exec .stepStart betweenSteps = .next t ∧ t.get F.SCH_CHANNEL.CREDITS 0 0 = 3 := by
  obtain ⟨t, ht, hchannels, -⟩ :=
    (runStopAndStepStart.2 betweenSteps (by decide +kernel)).2 rfl rfl (.inr rfl) rfl (by decide)
  exact ⟨t, ht, (hchannels oneChannelImage rfl 0 _ rfl).2⟩

/-- RUN starts the schedule; the memory it names as an image holds none, so the one held before stays (R84). -/
theorem schRun_readyToRun_running : ∃ t, exec .schRun readyToRun = .next t ∧ t.sched.st = .running := by
  obtain ⟨t, ht, -, hst, -⟩ := ((runStopAndStepStart.1.1 readyToRun (by decide +kernel)).2.2 (by decide +kernel)
    (by decide +kernel) (by decide +kernel) (by decide +kernel) (by decide +kernel)).2.2 (by decide +kernel) (by decide +kernel)
  exact ⟨t, ht, hst⟩

end

/-! # MOVE, XPOSE and HSTORE (R238, R300, R301)

An operation that is performed in one go ends done, with the module as its writes left it (`State.Performs.performed`), whatever
it computes. What each of the three writes is then its task's computation. -/

section

namespace Sys2Proof.Machine

/-! ### Operations in flight -/

theorem lookupKey_setKey_same {κ α : Type} [DecidableEq κ] (k : κ) (v : α) (l : List (κ × α)) :
    lookupKey k (setKey k v l) = some v := by
  induction l with
  | nil => simp [setKey, lookupKey]
  | cons p l ih =>
    obtain ⟨k', v'⟩ := p
    by_cases h : k' = k <;> simp [setKey, lookupKey, h, ih]

theorem State.unit_onUnit (s : State) (u : Nat) (f : UnitSt → UnitSt) : (s.onUnit u f).unit u = f (s.unit u) := by
  simp [State.onUnit, State.setUnit, State.onSched, State.unit, lookupKey_setKey_same]

theorem State.unit_congr {s t : State} (h : t.sched = s.sched) (u : Nat) : t.unit u = s.unit u := by
  rw [State.unit, State.unit, h]

theorem State.opAt_onOp {s : State} {u k : Nat} (f : Op → Op) (h : k < (s.unit u).ops.length) :
    (s.onOp u k f).opAt u k = f (s.opAt u k) := by
  simp [State.opAt, State.onOp, State.unit_onUnit, updateAt, h]

theorem State.dropReads_regs (s : State) (u die asid : Nat) (reads : List Span) :
    (s.dropReads u die asid reads).regs = s.regs := by
  unfold State.dropReads
  generalize accessesOf reads = accesses
  induction accesses generalizing s with
  | nil => rfl
  | cons a accesses ih => exact ih _

/-! ### An operation that is performed in one go -/

/-- Its reads' remote data is used up, and it is done, since no write of it waits for an acknowledgement (R92). -/
theorem State.performed_finishOp {e : State} {u k : Nat} (h : k < (e.unit u).ops.length) (die asid remote : Nat)
    (reads : List Span) : e.Performed ((e.dropReads u die asid reads).finishOp u k [] remote) u k := by
  have hdrop := State.dropReads_frame e u die asid reads
  have hfinish := State.finishOp_frame (e.dropReads u die asid reads) u k [] remote
  have hlen : k < ((e.dropReads u die asid reads).unit u).ops.length := by
    rwa [State.unit_congr (hdrop.parts .sched (by decide))]
  exact
    { done := by rw [State.finishOp, State.opAt_onOp _ hlen]; rfl
      regs := State.dropReads_regs ..
      parts := fun p hs hr => Part.same_trans (hdrop.parts p (by simpa using hr)) (hfinish.parts p (by simpa using hs))
      queue := hfinish.pending.trans hdrop.pending }

/-- Marking operations of the unit does not take back that one of them is done. -/
theorem State.Performed.mark {e t : State} {u k : Nat} (h : e.Performed t u k) {g : Op → Op} (hg : ∀ o, (g o).state = o.state) :
    e.Performed (t.onUnit u fun x => { x with ops := x.ops.map g }) u k where
  done := by
    rw [← h.done, State.opAt, State.unit_onUnit, State.opAt, List.getElem?_map]
    cases (t.unit u).ops[k]? with
    | none => rfl
    | some o => exact hg o
  regs := h.regs
  parts p hs hr := Part.same_trans (h.parts p hs hr) ((State.onUnit_frame t u _).parts p (by simpa using hs))
  queue := h.queue

section
variable {s : State} {t : Task} {k : Nat} {a b e : State} {ws : List (Nat × Bytes)} (h : s.Performs t k a b ws e)
include h

theorem State.Performs.performOp_performed : e.Performed (s.performOp t.unit k (t.plan s)) t.unit k := by
  obtain ⟨hstarted, hahead, -⟩ := h.op
  obtain ⟨hread, hcome, rfl⟩ := h.reads
  obtain ⟨hwritten, hanswered, rfl⟩ := h.writes
  unfold State.performOp
  simp only [h.translated, h.near, hahead, h.place, hstarted, hread, hcome, h.body, hwritten, hanswered, ite_self,
    List.isEmpty_nil, Bool.not_true, Bool.false_and, Bool.false_eq_true, if_false, beq_self_eq_true, if_true]
  exact State.performed_finishOp h.standing ..

theorem State.Performs.runTask_eq : s.runTask t = s.performOp t.unit k (t.plan s) := by
  simp [State.runTask, State.takeOp, h.free, h.found, h.order, h.check, h.ready]

/-- An operation that draws is marked beside (R211). -/
theorem State.Performs.performed : e.Performed (s.runOp t) t.unit k := by
  have hrun : e.Performed (s.runTask t) t.unit k := h.runTask_eq ▸ h.performOp_performed
  unfold State.runOp State.drawing
  by_cases hdraws : t.draws s = true
  · simp only [hdraws, h.alone hdraws, Bool.not_true, Bool.false_eq_true, if_false]
    exact hrun.mark fun o => by split <;> rfl
  · simpa [hdraws] using hrun

/-- Neither the writes of an operation nor its end touch the registers but those of accesses. -/
theorem State.Performs.word_of_not_access {t' : State} (hdone : e.Performed t' t.unit k) {r : Reg} (hr : r ∉ accessRegs)
    (die i : Nat) : t'.word r die i = b.word r die i := by
  obtain ⟨-, -, rfl⟩ := h.writes
  rw [State.word_congr hdone.regs]
  exact (State.writeAll_frame ..).words rfl r die i hr

/-- A command whose effect is the operation answers the state in which it has been performed. -/
theorem State.Performs.act_performed {c : Instr} (hc : s.Reaches c) :
    ∃ t', act c s (fun s => s.runOp t) = .next t' ∧ e.Performed t' t.unit k := by
  have hdone := h.performed
  have hflt : (s.runOp t).flt = e.flt := hdone.parts .flt (by decide) (by decide)
  exact ⟨_, act_eq_next hc rfl (by rw [hflt, h.quiet, hc.2.2]), hdone⟩

end

/-! ### What the three operations write -/

theorem State.Performs.body_eq {s : State} {t : Task} {k : Nat} {a b e : State} {ws ws' : List (Nat × Bytes)} {b' : State}
    (h : s.Performs t k a b ws e) (hbody : (t.plan s).body a = (b', .writes ws')) : b = b' ∧ ws = ws' := by
  have heq := h.body.symm.trans hbody
  simpa using heq

/-- Piece `j` of a list that was cut. -/
theorem getD_getElem?_chunksFuel {α : Type} {n : Nat} (hn : 0 < n) {f : Nat} {xs : List α} (hf : xs.length ≤ f) (j : Nat) :
    (chunksFuel n f xs)[j]?.getD [] = (xs.drop (j * n)).take n := by
  induction f generalizing xs j with
  | zero => simp [chunksFuel, List.eq_nil_of_length_eq_zero (Nat.le_zero.1 hf)]
  | succ f ih =>
    cases xs with
    | nil => simp [chunksFuel]
    | cons x xs =>
      cases j with
      | zero => simp [chunksFuel]
      | succ j =>
        have hrest : ((x :: xs).drop n).length ≤ f := by
          simp only [List.length_drop, List.length_cons] at hf ⊢
          omega
        simp [chunksFuel, ih hrest, List.drop_drop, Nat.add_one_mul, Nat.add_comm]

theorem getD_getElem?_chunks {α : Type} {n : Nat} (hn : 0 < n) (xs : List α) (j : Nat) :
    (chunks n xs)[j]?.getD [] = (xs.drop (j * n)).take n := getD_getElem?_chunksFuel hn le_rfl j

/-- XPOSE accepts no element of size 0 (R302). -/
theorem size_pos_of_xposeTask_check {u : Nat} {p : BitVec 448} {s : State} (h : (xposeTask u p).check s = none) : 0 < pay p 28 1 := by
  simp only [xposeTask, ite_eq_left_iff, reduceCtorEq, imp_false, not_not] at h
  obtain ⟨-, -, -, -, -, hsize, -⟩ := h
  omega

theorem findWord_filter_of_dropped {l : Loc} {keep : Loc × Word → Bool} (h : ∀ w, keep (l, w) = false) (rs : List (Loc × Word)) :
    findWord l (rs.filter keep) = none := by
  induction rs with
  | nil => rfl
  | cons p rs ih =>
    obtain ⟨l', w⟩ := p
    by_cases hl : l' = l
    · subst hl
      rwa [List.filter_cons_of_neg (by simp [h])]
    · rw [List.filter_cons]
      split
      · simpa [findWord, hl] using ih
      · exact ih

/-- A histogram slot that was cleared reads 0. -/
theorem State.word_clearHist (s : State) (die x h : Nat) {i : Nat} (hi : i < 128) :
    (s.clearHist die x h).word .CDC_HIST die ((x * 16 + h) * 128 + i) = 0 := by
  have hslot : ((x * 16 + h) * 128 + i) / 128 = x * 16 + h := by omega
  have hnone : findWord (Reg.CDC_HIST.place die ((x * 16 + h) * 128 + i)) (s.clearHist die x h).regs = none :=
    findWord_filter_of_dropped (fun w => by simp [Reg.place, hslot, Reg.info, regCDC_HIST]) s.regs
  rw [State.word, hnone]
  rfl

end Sys2Proof.Machine

open Sys2Proof Sys2Proof.Machine

/-- Settles O28: each is performed as its task says (`State.Performs.act_performed`). The bytes of MOVE and the record of HSTORE
are its task's writes, element `j` of a row that XPOSE reads is piece `j` of its bytes (`getD_getElem?_chunks`), and the slot
that HSTORE clears stays so under the write of its record (`State.Performs.word_of_not_access`). -/
theorem caravansAndHistogramsCopy : Obligations.CaravansAndHistogramsCopy := by
  unfold Obligations.CaravansAndHistogramsCopy
  refine ⟨fun u k p s a b e ws hc hplain h => ?_, fun u k p s a b e ws hc h => ?_, fun u k p s a b e ws hc h => ?_⟩
  · have htask : moveTask u p = movePlainTask u p := if_neg (by simp [hplain])
    obtain ⟨t, ht, hdone⟩ := h.act_performed hc
    rw [htask] at h hdone
    obtain ⟨rfl, rfl⟩ := h.body_eq rfl
    exact ⟨rfl, rfl, t, ht, hdone⟩
  · intro row
    have hsize := size_pos_of_xposeTask_check h.check
    obtain ⟨-, rfl⟩ := h.body_eq rfl
    refine ⟨fun j hj => ?_, by simp, h.act_performed hc⟩
    simp [hj, List.flatMap_map, getD_getElem?_chunks hsize, row]
  · obtain ⟨rfl, rfl⟩ := h.body_eq rfl
    obtain ⟨t, ht, hdone⟩ := h.act_performed hc
    exact ⟨rfl, t, ht, hdone, fun i hi =>
      (h.word_of_not_access hdone (by decide) _ _).trans (State.word_clearHist _ _ _ _ hi)⟩

/-! ### States that meet the hypotheses -/

namespace Sys2Proof.Machine

/-- The reads of an operation that starts, performed. -/
def State.readOp (s : State) (t : Task) (k : Nat) : ReadResult :=
  (s.onOp t.unit k fun o => { o with tag := s.get F.SCH_EPOCH.VALUE (unitDie t.unit) }).readAll t.unit (unitDie t.unit) s.asidOf
    (accessesOf (t.plan s).reads)

/-- The writes of an operation, performed in state `b`. -/
def State.writeOp (s : State) (t : Task) (b : State) (ws : List (Nat × Bytes)) : ReadResult :=
  b.writeAll t.unit (unitDie t.unit) s.asidOf ws

/-- An operation of a given state is performed in one go where its accesses and its checks evaluate so. -/
theorem State.performs_of {s : State} {t : Task} {k : Nat} {b : State} {ws : List (Nat × Bytes)}
    (hop : s.unitFree t.unit = true ∧ s.findOp t.unit t.cls t.payload = some k ∧
      ((s.opAt t.unit k).state = .started ∧ (s.opAt t.unit k).ahead = false ∧ (s.opAt t.unit k).cut = false) ∧ t.draws s = false)
    (hchecks : t.order s k = true ∧ t.check s = none ∧ t.ready s = true)
    (haccesses : s.firstTrouble t.unit s.asidOf (accessesOf ((t.plan s).reads ++ (t.plan s).also ++
        (t.plan s).writes.map fun w => { w with write := true })) = none ∧
      (accessesOf (t.plan s).near).all (fun x => s.nearPiece (unitDie t.unit) s.asidOf (t.plan s).anyTile x) = true ∧
      (t.plan s).place s = none)
    (hreads : (s.readOp t k).failed = none ∧ (s.readOp t k).pending = [])
    (hbody : (t.plan s).body (s.readOp t k).state = (b, .writes ws))
    (hwrites : (s.writeOp t b ws).failed = none ∧ (s.writeOp t b ws).pending = [] ∧
      k < ((s.writeOp t b ws).state.unit t.unit).ops.length ∧ (s.writeOp t b ws).state.flt.fatal = []) :
    s.Performs t k (s.readOp t k).state b ws (s.writeOp t b ws).state := by
  obtain ⟨hfree, hfound, hstarted, hdraws⟩ := hop
  obtain ⟨horder, hcheck, hready⟩ := hchecks
  obtain ⟨htranslated, hnear, hplace⟩ := haccesses
  obtain ⟨hread, hcome⟩ := hreads
  obtain ⟨hwritten, hanswered, hstands, hquiet⟩ := hwrites
  exact ⟨hfree, hfound, hstarted, fun h => absurd h (by simp [hdraws]), horder, hcheck, hready, htranslated, hnear, hplace,
    ⟨hread, hcome, rfl⟩, hbody, ⟨hwritten, hanswered, rfl⟩, hstands, hquiet⟩

/-- The start of the host memory. -/
def hostBase : Nat := 0x100_0000_0000

/-- The module with one operation in flight in a unit of LD0; the first 64 KiB of virtual memory stand at the start of the host
memory, whose first bytes are 1 to 6. -/
def inFlight {w : Nat} (u cls : Nat) (p : BitVec w) : State :=
  { Tests.running.store hostBase [1, 2, 3, 4, 5, 6] with
    xlt := { entries := [⟨0, 0, 0, 16, hostBase, true, true⟩] }
    sched := { units := [(u, { ops := [{ opclass := cls, payload := bytesOf p }] })] } }

/-- MOVE of the first 64 bytes to virtual address 64. -/
def movePayload : BitVec 192 := BitVec.ofNat 192 (64 * 2 ^ 64 + 64 * 2 ^ 128)

/-- XPOSE of two rows of three bytes at 0 to three rows of two bytes at virtual address 64. -/
def xposePayload : BitVec 448 :=
  BitVec.ofNat 448 (64 * 2 ^ 64 + 3 * 2 ^ 128 + 2 * 2 ^ 160 + 2 * 2 ^ 192 + 3 * 2 ^ 208 + 1 * 2 ^ 224)

/-- HSTORE of slot 1 to virtual address 64. -/
def hstorePayload : BitVec 192 := BitVec.ofNat 192 (64 + 1 * 2 ^ 64)

end Sys2Proof.Machine

/-- MOVE copies the six bytes and the 58 that are 0. -/
theorem bytes_move_inFlight : ∃ t, exec (.move (unitId 0 4 0) movePayload) (inFlight (unitId 0 4 0) 0x40 movePayload) = .next t ∧
    t.bytes (hostBase + 64) 64 = [1, 2, 3, 4, 5, 6] ++ zeros 58 := by
  have hperforms := State.performs_of (s := inFlight (unitId 0 4 0) 0x40 movePayload) (t := moveTask (unitId 0 4 0) movePayload)
    (k := 0) (by decide +kernel) (by decide +kernel) (by decide +kernel) (by decide +kernel) rfl (by decide +kernel)
  obtain ⟨-, -, t, ht, hdone⟩ := caravansAndHistogramsCopy.1 _ _ _ _ _ _ _ _ (by decide +kernel) (by decide +kernel) hperforms
  refine ⟨t, ht, (State.bytes_congr (hdone.parts .mem (by decide) (by decide)) ..).trans ?_⟩
  decide +kernel

/-- XPOSE makes the columns 1 4, 2 5 and 3 6 of the source the rows of the destination. -/
theorem bytes_xpose_inFlight : ∃ t, exec (.xpose (unitId 0 4 0) xposePayload) (inFlight (unitId 0 4 0) 0x41 xposePayload) = .next t ∧
    t.bytes (hostBase + 64) 6 = [1, 4, 2, 5, 3, 6] := by
  have hperforms := State.performs_of (s := inFlight (unitId 0 4 0) 0x41 xposePayload) (t := xposeTask (unitId 0 4 0) xposePayload)
    (k := 0) (by decide +kernel) (by decide +kernel) (by decide +kernel) (by decide +kernel) rfl (by decide +kernel)
  obtain ⟨-, -, t, ht, hdone⟩ := caravansAndHistogramsCopy.2.1 _ _ _ _ _ _ _ _ (by decide +kernel) hperforms
  refine ⟨t, ht, (State.bytes_congr (hdone.parts .mem (by decide) (by decide)) ..).trans ?_⟩
  decide +kernel

/-- HSTORE writes the count of code 1 of coder 0's slot 1, here 9, and clears it. -/
theorem bytes_hstore_inFlight :
    let s := Tests.withFields [(F.CDC_HIST.ODD, 0, 128, 9)] (inFlight (unitId 0 5 0) 0x32 hstorePayload)
    ∃ t, exec (.hstore (unitId 0 5 0) hstorePayload) s = .next t ∧ t.bytes (hostBase + 64) 8 = zeros 4 ++ [9, 0, 0, 0] ∧
      t.word .CDC_HIST 0 128 = 0 := by
  intro s
  have hperforms := State.performs_of (s := s) (t := hstoreTask (unitId 0 5 0) hstorePayload)
    (k := 0) (by decide +kernel) (by decide +kernel) (by decide +kernel) (by decide +kernel) rfl (by decide +kernel)
  obtain ⟨-, t, ht, hdone, hzero⟩ := caravansAndHistogramsCopy.2.2 _ _ _ _ _ _ _ _ (by decide +kernel) hperforms
  refine ⟨t, ht, (State.bytes_congr (hdone.parts .mem (by decide) (by decide)) ..).trans ?_, hzero 0 (by decide)⟩
  decide +kernel

end

/-! # The statements of the family 'other'

The proofs are elaborated one after another: checked as one file, those that wait for another proof would each hold a thread. -/

section

set_option Elab.async false

/-! # Every command: its answer, its footprint, and the invariant

Every command stands in the frame of `act` (`exec_eq_act`), so what a command answers, and that no halt is owed after it, is said
once for all of them. Its footprint is that of its own lemma in the layer of frames. -/

section

namespace Sys2Proof.Machine

/-- Every command's meaning is an effect in the frame of `act`. -/
theorem exec_eq_act (c : Instr) (s : State) : ∃ effect : State → State, exec c s = act c s effect := by
  unfold exec
  cases c <;> exact ⟨_, rfl⟩

theorem exec_next_of_wf {c : Instr} (s : State) (h : c.wf = true) : ∃ t, exec c s = .next t := by
  obtain ⟨effect, he⟩ := exec_eq_act c s
  cases ha : s.admits c
  · exact ⟨s, he.trans (act_not_admitted h ha)⟩
  · exact ⟨(effect s).settle, by simp [he, act, h, ha]⟩

theorem exec_refused_of_not_wf {c : Instr} (s : State) (h : c.wf = false) : exec c s = .refused .illFormed := by
  obtain ⟨effect, he⟩ := exec_eq_act c s
  exact he.trans (act_ill_formed h)

theorem exec_of_not_admitted {c : Instr} {s : State} (h : c.wf = true) (ha : s.admits c = false) : exec c s = .next s := by
  obtain ⟨effect, he⟩ := exec_eq_act c s
  exact he.trans (act_not_admitted h ha)

theorem exec_ne_fault (c : Instr) (s : State) (f : Fault) : exec c s ≠ .fault f := by
  cases hwf : c.wf
  · simp [exec_refused_of_not_wf s hwf]
  · obtain ⟨t, ht⟩ := exec_next_of_wf s hwf
    simp [ht]

/-- After a command no halt is owed. -/
theorem exec_fatal {c : Instr} {s t : State} (hs : s.flt.fatal = []) (h : exec c s = .next t) : t.flt.fatal = [] := by
  obtain ⟨effect, he⟩ := exec_eq_act c s
  exact act_fatal hs (he.symm.trans h)

/-- The footprint of every command. -/
theorem exec_frame {s t : State} (hs : s.flt.fatal = []) : ∀ {c : Instr}, exec c s = .next t → Frame (commandTouch c) s t
  | .registerWrite .., h => execRegisterWrite_frame _ _ _ _ _ h
  | .clearCounts .., h => execClearCounts_frame _ _ _ _ hs h
  | .tick .., h => execTick_frame _ h
  | .tickMark .., h => execTickMark_frame _ _ h
  | .holdover, h => execHoldover_frame hs h
  | .tickLost, h => execTickLost_frame h
  | .masterSwitch, h => execMasterSwitch_frame hs h
  | .partnerMasterSwitch, h => execPartnerMasterSwitch_frame hs h
  | .tickIoEdge .., h => execTickIoEdge_frame _ hs h
  | .schRun, h => execSchRun_frame h
  | .schStop, h => execSchStop_frame hs h
  | .schAbort, h => execSchAbort_frame h
  | .slipBreak .., h => execSlipBreak_frame _ h
  | .operationStart .., h => execOperationStart_frame _ h
  | .operationComplete .., h => execOperationComplete_frame _ _ h
  | .synToken .., h => execSynToken_frame _ hs h
  | .synCredit .., h => execSynCredit_frame _ hs h
  | .noOperation .., h => execNoOperation_frame _ h
  | .stepStart, h => execStepStart_frame h
  | .replayWaitEntry, h => execReplayWaitEntry_frame hs h
  | .replayStart, h => execReplayStart_frame h
  | .haltEntry, h => execHaltEntry_frame hs h
  | .ldx .., h => execLdx_frame _ _ h
  | .mma .., h => execMma_frame _ _ h
  | .out .., h => execOut_frame _ _ h
  | .psend .., h => execPsend_frame _ _ h
  | .padd .., h => execPadd_frame _ _ h
  | .stf .., h => execStf_frame _ _ h
  | .ew .., h => execEw_frame _ _ h
  | .cvt .., h => execCvt_frame _ _ h
  | .scan .., h => execScan_frame _ _ h
  | .reduce .., h => execReduce_frame _ _ h
  | .dgrad .., h => execDgrad_frame _ _ h
  | .rand .., h => execRand_frame _ _ h
  | .slice .., h => execSlice_frame _ _ h
  | .flush .., h => execFlush_frame _ hs h
  | .chain .., h => execChain_frame _ _ h
  | .genStateWrite .., h => execGenStateWrite_frame _ _ _ _ hs h
  | .code .., h => execCode_frame _ _ h
  | .decode .., h => execDecode_frame _ _ h
  | .hstore .., h => execHstore_frame _ _ h
  | .build .., h => execBuild_frame _ _ h
  | .codecInputTimeout .., h => execCodecInputTimeout_frame _ _ h
  | .codecLateSector .., h => execCodecLateSector_frame _ hs h
  | .memRead .., h => execMemRead_frame _ _ _ _ h
  | .memWrite .., h => execMemWrite_frame _ _ _ h
  | .memPartialWrite .., h => execMemPartialWrite_frame _ _ _ _ _ h
  | .accumulateWrite .., h => execAccumulateWrite_frame _ _ _ _ _ h
  | .partialSums .., h => execPartialSums_frame _ _ hs h
  | .readResponse .., h => execReadResponse_frame _ _ _ _ h
  | .writePerformed .., h => execWritePerformed_frame _ _ _ h
  | .patrolScrubStep .., h => execPatrolScrubStep_frame _ _ h
  | .fsel .., h => execFsel_frame _ _ h
  | .move .., h => execMove_frame _ _ h
  | .xpose .., h => execXpose_frame _ _ h
  | .rbank .., h => execRbank_frame _ _ h
  | .bankSwitch .., h => execBankSwitch_frame _ hs h
  | .nchk .., h => execNchk_frame _ _ h
  | .uprun .., h => execUprun_frame _ _ h
  | .cscale .., h => execCscale_frame _ _ h
  | .commit .., h => execCommit_frame _ h
  | .updateCommit, h => execUpdateCommit_frame h
  | .digestTimeout, h => execDigestTimeout_frame h
  | .digestPacket .., h => execDigestPacket_frame _ h
  | .updVerify .., h => execUpdVerify_frame _ h
  | .updVerifyDone, h => execUpdVerifyDone_frame hs h
  | .updRewind .., h => execUpdRewind_frame _ h
  | .updRewindDone, h => execUpdRewindDone_frame hs h
  | .ropen .., h => execRopen_frame _ _ h
  | .rsend .., h => execRsend_frame _ _ h
  | .allr .., h => execAllr_frame _ _ h
  | .reductionPacket .., h => execReductionPacket_frame _ _ _ h
  | .checkTimeout .., h => execCheckTimeout_frame _ _ _ h
  | .vlkFlitReceive .., h => execVlkFlitReceive_frame _ _ _ _ _ h
  | .gcmBatchClose .., h => execGcmBatchClose_frame _ _ hs h
  | .vlkAckTimeout .., h => execVlkAckTimeout_frame _ _ h
  | .laneLockLoss .., h => execLaneLockLoss_frame _ _ h
  | .vlkRetrain .., h => execVlkRetrain_frame _ _ h
  | .vlkTrained .., h => execVlkTrained_frame _ _ _ h
  | .vlkHoldExpire .., h => execVlkHoldExpire_frame _ _ h
  | .peerRoutingUpdate .., h => execPeerRoutingUpdate_frame _ _ _ hs h
  | .packetForward .., h => execPacketForward_frame _ _ _ hs h
  | .tc0Inject .., h => execTc0Inject_frame _ hs h
  | .remoteTimeout .., h => execRemoteTimeout_frame _ _ hs h
  | .remoteResponse .., h => execRemoteResponse_frame _ _ _ _ hs h
  | .leave .., h => execLeave_frame _ hs h
  | .join .., h => execJoin_frame _ hs h
  | .vrtBankWrite .., h => execVrtBankWrite_frame _ _ _ hs h
  | .routeEntryWrite .., h => execRouteEntryWrite_frame _ _ _ _ _ hs h
  | .missRecordWrite .., h => execMissRecordWrite_frame _ _ h
  | .xltRespFill .., h => execXltRespFill_frame _ _ _ h
  | .xltRespFault .., h => execXltRespFault_frame _ _ h
  | .xltMissTimeout .., h => execXltMissTimeout_frame _ _ h
  | .xpf .., h => execXpf_frame _ _ h
  | .xltInval .., h => execXltInval_frame _ _ hs h
  | .xltInvalDone .., h => execXltInvalDone_frame _ hs h
  | .faultRecord .., h => execFaultRecord_frame _ h
  | .fltResumeRetry .., h => execFltResumeRetry_frame _ h
  | .fltResumeAbort .., h => execFltResumeAbort_frame _ hs h
  | .fltWadiRelease .., h => execFltWadiRelease_frame _ hs h
  | .faultRecordCopy .., h => execFaultRecordCopy_frame _ hs h
  | .haboobExit, h => execHaboobExit_frame hs h
  | .controlParityError .., h => execControlParityError_frame _ h
  | .signal .., h => execSignal_frame _ _ h
  | .wait .., h => execWait_frame _ _ h
  | .bar .., h => execBar_frame _ _ h
  | .synObjSignal .., h => execSynObjSignal_frame _ _ _ _ hs h
  | .synWaitTimeout .., h => execSynWaitTimeout_frame _ _ _ h
  | .signalPacket .., h => execSignalPacket_frame _ hs h
  | .arrive .., h => execArrive_frame _ hs h
  | .release .., h => execRelease_frame _ hs h
  | .abort .., h => execAbort_frame _ hs h
  | .abortRelease .., h => execAbortRelease_frame _ hs h
  | .readShared .., h => execReadShared_frame _ _ h
  | .readUnique .., h => execReadUnique_frame _ _ h
  | .upgrade .., h => execUpgrade_frame _ _ h
  | .writeBack .., h => execWriteBack_frame _ _ _ _ hs h
  | .clean .., h => execClean_frame _ _ h
  | .cohFlush .., h => execCohFlush_frame _ _ h
  | .invalidate .., h => execInvalidate_frame _ _ _ h
  | .snoop .., h => execSnoop_frame _ _ _ _ hs h
  | .cohFwd .., h => execCohFwd_frame _ h
  | .cohResponse .., h => execCohResponse_frame _ _ hs h
  | .cohData .., h => execCohData_frame _ _ hs h
  | .cohAck .., h => execCohAck_frame _ _ hs h
  | .hcxRwinWrite .., h => execHcxRwinWrite_frame _ _ _ _ hs h
  | .submissionDoorbell .., h => execSubmissionDoorbell_frame _ _ hs h
  | .completionDoorbell .., h => execCompletionDoorbell_frame _ _ hs h
  | .qctlEnable .., h => execQctlEnable_frame _ _ h
  | .qctlDisable .., h => execQctlDisable_frame _ _ h
  | .qctlDisableDone .., h => execQctlDisableDone_frame _ hs h
  | .qctlSync .., h => execQctlSync_frame _ _ h
  | .contextFetch .., h => execContextFetch_frame _ h
  | .entryFetchReturn .., h => execEntryFetchReturn_frame _ _ h
  | .refetchIssue .., h => execRefetchIssue_frame _ _ hs h
  | .nop .., h => execNop_frame _ _ h
  | .copy .., h => execCopy_frame _ _ h
  | .writeInline .., h => execWriteInline_frame _ _ h
  | .fill .., h => execFill_frame _ _ h
  | .queueSignal .., h => execQueueSignal_frame _ _ h
  | .commandComplete .., h => execCommandComplete_frame _ _ h
  | .pcieInboundRequest .., h => execPcieInboundRequest_frame _ _ h
  | .pcieMsiWrite .., h => execPcieMsiWrite_frame _ _ _ h
  | .pcieLinkUp .., h => execPcieLinkUp_frame _ _ _ hs h
  | .pcieLinkDown .., h => execPcieLinkDown_frame _ hs h
  | .bdiTraining .., h => execBdiTraining_frame _ _ _ h
  | .bdiTrainTimeout .., h => execBdiTrainTimeout_frame _ _ h
  | .bdiDescriptor .., h => execBdiDescriptor_frame _ _ _ h
  | .bdiFlitReceive .., h => execBdiFlitReceive_frame _ _ _ h
  | .bdiAckTimeout .., h => execBdiAckTimeout_frame _ _ h
  | .bdiRetrainRequest .., h => execBdiRetrainRequest_frame _ _ h
  | .bdiRetrain .., h => execBdiRetrain_frame _ _ h
  | .bdiHoldExpire .., h => execBdiHoldExpire_frame _ _ h
  | .bdiTickFlit .., h => execBdiTickFlit_frame _ _ _ _ h
  | .interrupt .., h => execInterrupt_frame _ _ hs h
  | .ledgerRecord .., h => execLedgerRecord_frame _ hs h
  | .fltRecoveryRestore, h => execFltRecoveryRestore_frame hs h
  | .ldgAttachWrite .., h => execLdgAttachWrite_frame _ _ hs h
  | .powerOn .., h => execPowerOn_frame _ _ h
  | .startComplete, h => execStartComplete_frame hs h
  | .secReady, h => execSecReady_frame hs h
  | .retire .., h => execRetire_frame _ _ hs h
  | .revoke .., h => execRevoke_frame _ _ hs h
  | .epoch .., h => execEpoch_frame _ hs h
  | .attest .., h => execAttest_frame _ hs h
  | .attestDone, h => execAttestDone_frame h
  | .flashProgram .., h => execFlashProgram_frame _ hs h
  | .flashProgramDone .., h => execFlashProgramDone_frame _ h
  | .mgmtGetStatus, h => execMgmtGetStatus_frame hs h
  | .mgmtDrain, h => execMgmtDrain_frame hs h
  | .mgmtDrainCancel, h => execMgmtDrainCancel_frame hs h
  | .mgmtRestart, h => execMgmtRestart_frame h
  | .mgmtAttest .., h => execMgmtAttest_frame _ hs h
  | .mgmtFuse .., h => execMgmtFuse_frame _ _ _ hs h
  | .park, h => execPark_frame hs h
  | .unpark, h => execUnpark_frame hs h
  | .drain, h => execDrain_frame hs h
  | .drainCancel, h => execDrainCancel_frame hs h
  | .powerOff, h => execPowerOff_frame hs h
  | .drainComplete .., h => execDrainComplete_frame _ h
  | .restart, h => execRestart_frame h
  | .restartRailsOn .., h => execRestartRailsOn_frame _ h
  | .attnRequest, h => execAttnRequest_frame hs h
  | .powerEnFall, h => execPowerEnFall_frame h
  | .inputRange .., h => execInputRange_frame _ hs h
  | .inputRangeTimeout, h => execInputRangeTimeout_frame h
  | .powerFault .., h => execPowerFault_frame _ h
  | .thermalWarn .., h => execThermalWarn_frame _ _ hs h
  | .thermalTrip .., h => execThermalTrip_frame _ h
  | .railFault .., h => execRailFault_frame _ h
  | .fuseCommandDone .., h => execFuseCommandDone_frame _ hs h
  | .rowRemapDone .., h => execRowRemapDone_frame _ h
  | .hbmRefreshDouble .., h => execHbmRefreshDouble_frame _ _ hs h
  | .aerErrorReport .., h => execAerErrorReport_frame _ _ hs h
  | .pcieCompletion .., h => execPcieCompletion_frame _ _ _ _ hs h
/-- A command that runs where the invariant holds leaves it holding. -/
theorem exec_inv {c : Instr} {s t : State} (hs : s.Inv) (h : exec c s = .next t) : t.Inv := by
  have hframe := exec_frame hs.fatal h
  exact ⟨hframe.wf hs.mem, hframe.distinct hs.regs, exec_fatal hs.fatal h⟩

end Sys2Proof.Machine

open Sys2Proof Sys2Proof.Machine

/-- Settles O4: each command's footprint is a lemma of its own (`exec_frame`). -/
theorem commandsChangeOnlyTheirFootprint : Obligations.CommandsChangeOnlyTheirFootprint :=
  fun _ _ _ hs h => exec_frame hs h

/-- Settles O1. -/
theorem stepRunsTheFrontCommand : Obligations.StepRunsTheFrontCommand := by
  intro s c rest
  constructor <;> intro h <;> simp [step, h]

/-- Settles O2: after reset the register file and memory list nothing. -/
theorem resetHoldsTheInvariant : Obligations.ResetHoldsTheInvariant :=
  ⟨rfl, List.nodup_nil, rfl⟩

/-- Settles O3: a step is idle or runs a command (`exec_inv`), and taking a command from the queue touches no part of the
invariant. -/
theorem everyStepKeepsTheInvariant : Obligations.EveryStepKeepsTheInvariant := by
  intro s t hs h
  cases hp : s.pending with
  | nil =>
    rw [(stepRunsTheFrontCommand s .holdover []).2 hp] at h
    cases h
    exact hs
  | cons c rest =>
    rw [(stepRunsTheFrontCommand s c rest).1 hp] at h
    have htaken : State.Inv { s with pending := rest } := ⟨hs.mem, hs.regs, hs.fatal⟩
    exact exec_inv htaken h

/-- Settles O5: by the three answers of `act`. -/
theorem everyCommandAnswers : Obligations.EveryCommandAnswers := by
  refine ⟨fun c s => ⟨exec_next_of_wf s, exec_refused_of_not_wf s, exec_ne_fault c s⟩, fun c s hwf => ⟨?_, ?_⟩⟩
  · intro hoff hsleeps
    exact exec_of_not_admitted hwf (by simp [State.admits, hoff, hsleeps])
  · intro hon hfailed hstopped
    exact exec_of_not_admitted hwf (by simp [State.admits, hon, hfailed, hstopped])

end

/-! # What a chain of updates leaves

An effect that writes some fields and some parts of the state leaves everything else (`State.Alters`): one rule for each update,
and one for a footprint without registers. A command whose effect alters so much completes so (`Completes.of_alters`). -/

section

namespace Sys2Proof.Machine

/-! ### Registers stand under the updates of every other part -/

section
variable (s : State) (r : Reg) (g : Fld) (d i : Nat)

@[simp] theorem State.word_onPower (f : PowerSt → PowerSt) : (s.onPower f).word r d i = s.word r d i := State.word_congr rfl r d i
@[simp] theorem State.word_onTick (f : TickSt → TickSt) : (s.onTick f).word r d i = s.word r d i := State.word_congr rfl r d i
@[simp] theorem State.word_onSched (f : SchedSt → SchedSt) : (s.onSched f).word r d i = s.word r d i := State.word_congr rfl r d i
@[simp] theorem State.word_onCodec (f : CodecSt → CodecSt) : (s.onCodec f).word r d i = s.word r d i := State.word_congr rfl r d i
@[simp] theorem State.word_onHbm (f : HbmSt → HbmSt) : (s.onHbm f).word r d i = s.word r d i := State.word_congr rfl r d i
@[simp] theorem State.word_onOasis (f : OasisSt → OasisSt) : (s.onOasis f).word r d i = s.word r d i := State.word_congr rfl r d i
@[simp] theorem State.word_onFsel (f : FselSt → FselSt) : (s.onFsel f).word r d i = s.word r d i := State.word_congr rfl r d i
@[simp] theorem State.word_onUpd (f : UpdSt → UpdSt) : (s.onUpd f).word r d i = s.word r d i := State.word_congr rfl r d i
@[simp] theorem State.word_onRdx (f : RdxSt → RdxSt) : (s.onRdx f).word r d i = s.word r d i := State.word_congr rfl r d i
@[simp] theorem State.word_onVrt (f : VrtSt → VrtSt) : (s.onVrt f).word r d i = s.word r d i := State.word_congr rfl r d i
@[simp] theorem State.word_onRem (f : RemoteSt → RemoteSt) : (s.onRem f).word r d i = s.word r d i := State.word_congr rfl r d i
@[simp] theorem State.word_onXlt (f : XltSt → XltSt) : (s.onXlt f).word r d i = s.word r d i := State.word_congr rfl r d i
@[simp] theorem State.word_onFlt (f : FltSt → FltSt) : (s.onFlt f).word r d i = s.word r d i := State.word_congr rfl r d i
@[simp] theorem State.word_onSyn (f : SynSt → SynSt) : (s.onSyn f).word r d i = s.word r d i := State.word_congr rfl r d i
@[simp] theorem State.word_onCoh (f : CohSt → CohSt) : (s.onCoh f).word r d i = s.word r d i := State.word_congr rfl r d i
@[simp] theorem State.word_onQcx (f : QcxSt → QcxSt) : (s.onQcx f).word r d i = s.word r d i := State.word_congr rfl r d i
@[simp] theorem State.word_onPci (f : PciSt → PciSt) : (s.onPci f).word r d i = s.word r d i := State.word_congr rfl r d i
@[simp] theorem State.word_onBdi (f : BdiSt → BdiSt) : (s.onBdi f).word r d i = s.word r d i := State.word_congr rfl r d i
@[simp] theorem State.word_onSec (f : SecSt → SecSt) : (s.onSec f).word r d i = s.word r d i := State.word_congr rfl r d i
@[simp] theorem State.word_onLdg (f : LdgSt → LdgSt) : (s.onLdg f).word r d i = s.word r d i := State.word_congr rfl r d i
@[simp] theorem State.get_onPower (f : PowerSt → PowerSt) : (s.onPower f).get g d i = s.get g d i := State.get_congr rfl g d i
@[simp] theorem State.get_onTick (f : TickSt → TickSt) : (s.onTick f).get g d i = s.get g d i := State.get_congr rfl g d i
@[simp] theorem State.get_onSched (f : SchedSt → SchedSt) : (s.onSched f).get g d i = s.get g d i := State.get_congr rfl g d i
@[simp] theorem State.get_onCodec (f : CodecSt → CodecSt) : (s.onCodec f).get g d i = s.get g d i := State.get_congr rfl g d i
@[simp] theorem State.get_onHbm (f : HbmSt → HbmSt) : (s.onHbm f).get g d i = s.get g d i := State.get_congr rfl g d i
@[simp] theorem State.get_onOasis (f : OasisSt → OasisSt) : (s.onOasis f).get g d i = s.get g d i := State.get_congr rfl g d i
@[simp] theorem State.get_onFsel (f : FselSt → FselSt) : (s.onFsel f).get g d i = s.get g d i := State.get_congr rfl g d i
@[simp] theorem State.get_onUpd (f : UpdSt → UpdSt) : (s.onUpd f).get g d i = s.get g d i := State.get_congr rfl g d i
@[simp] theorem State.get_onRdx (f : RdxSt → RdxSt) : (s.onRdx f).get g d i = s.get g d i := State.get_congr rfl g d i
@[simp] theorem State.get_onVrt (f : VrtSt → VrtSt) : (s.onVrt f).get g d i = s.get g d i := State.get_congr rfl g d i
@[simp] theorem State.get_onRem (f : RemoteSt → RemoteSt) : (s.onRem f).get g d i = s.get g d i := State.get_congr rfl g d i
@[simp] theorem State.get_onXlt (f : XltSt → XltSt) : (s.onXlt f).get g d i = s.get g d i := State.get_congr rfl g d i
@[simp] theorem State.get_onFlt (f : FltSt → FltSt) : (s.onFlt f).get g d i = s.get g d i := State.get_congr rfl g d i
@[simp] theorem State.get_onSyn (f : SynSt → SynSt) : (s.onSyn f).get g d i = s.get g d i := State.get_congr rfl g d i
@[simp] theorem State.get_onCoh (f : CohSt → CohSt) : (s.onCoh f).get g d i = s.get g d i := State.get_congr rfl g d i
@[simp] theorem State.get_onQcx (f : QcxSt → QcxSt) : (s.onQcx f).get g d i = s.get g d i := State.get_congr rfl g d i
@[simp] theorem State.get_onPci (f : PciSt → PciSt) : (s.onPci f).get g d i = s.get g d i := State.get_congr rfl g d i
@[simp] theorem State.get_onBdi (f : BdiSt → BdiSt) : (s.onBdi f).get g d i = s.get g d i := State.get_congr rfl g d i
@[simp] theorem State.get_onSec (f : SecSt → SecSt) : (s.onSec f).get g d i = s.get g d i := State.get_congr rfl g d i
@[simp] theorem State.get_onLdg (f : LdgSt → LdgSt) : (s.onLdg f).get g d i = s.get g d i := State.get_congr rfl g d i
@[simp] theorem State.word_emit (o : Out) : (s.emit o).word r d i = s.word r d i := State.word_congr rfl r d i
@[simp] theorem State.get_emit (o : Out) : (s.emit o).get g d i = s.get g d i := State.get_congr rfl g d i
@[simp] theorem State.word_took (n : Nat) : (s.took n).word r d i = s.word r d i := State.word_congr rfl r d i
@[simp] theorem State.get_took (n : Nat) : (s.took n).get g d i = s.get g d i := State.get_congr rfl g d i
@[simp] theorem State.word_store (a : Nat) (bs : Bytes) : (s.store a bs).word r d i = s.word r d i := State.word_congr rfl r d i
@[simp] theorem State.get_store (a : Nat) (bs : Bytes) : (s.store a bs).get g d i = s.get g d i := State.get_congr rfl g d i
@[simp] theorem State.word_onUnit (u : Nat) (f : UnitSt → UnitSt) : (s.onUnit u f).word r d i = s.word r d i := State.word_congr rfl r d i
@[simp] theorem State.get_onUnit (u : Nat) (f : UnitSt → UnitSt) : (s.onUnit u f).get g d i = s.get g d i := State.get_congr rfl g d i

end

/-! ### Places -/

theorem State.word_of_place (s : State) {r : Reg} {d d' i i' : Nat} (h : r.place d i = r.place d' i') :
    s.word r d i = s.word r d' i' := by
  have hi : i = i' := congrArg Loc.idx h
  subst hi
  simp only [State.word, h]

theorem State.get_of_place (s : State) {f : Fld} {d d' i i' : Nat} (h : f.reg.place d i = f.reg.place d' i') :
    s.get f d i = s.get f d' i' := by
  rw [State.get, State.get, s.word_of_place h]

/-- A register that every window has of its own: a field put in one window is not touched in another. -/
theorem State.get_put_die {s : State} {f g : Fld} {v d i d' i' : Nat} (h : f.reg.info.home = none) (hd : d ≠ d') :
    (s.put f v d i).get g d' i' = s.get g d' i' := by
  refine State.get_put_place fun e => hd ?_
  have hr : f.reg = g.reg := congrArg Loc.reg e
  have hdie : f.reg.info.home.getD d = g.reg.info.home.getD d' := congrArg Loc.die e
  rw [← hr, h] at hdie
  exact hdie

/-- Putting a field changes no bit outside it, at whatever window a module-wide register is named by. -/
theorem KeepsBut.put_place {fs : List (Fld × Nat × Nat)} {s t : State} (h : KeepsBut fs s t) {f : Fld} {v d d' i : Nat}
    (hf : (f, d', i) ∈ fs) (hd : f.reg.place d i = f.reg.place d' i) : KeepsBut fs s (t.put f v d i) := by
  have hsame : t.put f v d i = t.put f v d' i := by simp only [State.put, State.setWord, State.word, hd]
  exact hsame ▸ h.put hf

section
variable {K : Touch} {s t : State} (h : Frame K s t)
include h

theorem Frame.out_eq (hp : Part.out ∉ K.parts := by decide) : t.out = s.out := h.parts .out hp
theorem Frame.mem_eq (hp : Part.mem ∉ K.parts := by decide) : t.mem = s.mem := h.parts .mem hp
theorem Frame.hbm_eq (hp : Part.hbm ∉ K.parts := by decide) : t.hbm = s.hbm := h.parts .hbm hp
theorem Frame.sched_eq (hp : Part.sched ∉ K.parts := by decide) : t.sched = s.sched := h.parts .sched hp
theorem Frame.rem_eq (hp : Part.rem ∉ K.parts := by decide) : t.rem = s.rem := h.parts .rem hp
theorem Frame.vrt_eq (hp : Part.vrt ∉ K.parts := by decide) : t.vrt = s.vrt := h.parts .vrt hp
theorem Frame.flt_eq (hp : Part.flt ∉ K.parts := by decide) : t.flt = s.flt := h.parts .flt hp
theorem Frame.fatal_eq (hp : Part.fatal ∉ K.parts := by decide) : t.flt.fatal = s.flt.fatal := h.parts .fatal hp
theorem Frame.qcx_eq (hp : Part.qcx ∉ K.parts := by decide) : t.qcx = s.qcx := h.parts .qcx hp
theorem Frame.sec_eq (hp : Part.sec ∉ K.parts := by decide) : t.sec = s.sec := h.parts .sec hp

/-- A field of a register outside the footprint reads as before. -/
theorem Frame.get_eq (f : Fld) (d i : Nat) (hf : f.reg ∉ K.regs := by decide) (ha : K.any = false := by rfl) :
    t.get f d i = s.get f d i := by rw [State.get, State.get, h.words ha f.reg d i hf]

theorem Frame.on_eq (f : Fld) (d i : Nat) (hf : f.reg ∉ K.regs := by decide) (ha : K.any = false := by rfl) :
    t.on f d i = s.on f d i := by rw [State.on, State.on, h.get_eq f d i hf ha]

end

@[simp] theorem State.settle_out (s : State) : s.settle.out = s.out := s.settle_frame.parts .out (by decide)

/-- From `s` to `t` the queue stands, and of the parts and the register bits only those listed changed. -/
structure State.Alters (parts : List Part) (fs : List (Fld × Nat × Nat)) (s t : State) : Prop where
  pending : t.pending = s.pending
  parts   : ∀ p, p ∉ parts → p.same s t
  words   : KeepsBut fs s t

section
variable {parts : List Part} {fs : List (Fld × Nat × Nat)} {s t u : State}

theorem State.Alters.refl (s : State) : State.Alters parts fs s s := ⟨rfl, fun p _ => p.same_refl s, .refl fs s⟩

theorem State.Alters.trans (h : State.Alters parts fs s t) (g : State.Alters parts fs t u) : State.Alters parts fs s u :=
  ⟨g.pending.trans h.pending, fun p hp => Part.same_trans (h.parts p hp) (g.parts p hp), h.words.trans g.words⟩

theorem State.Alters.put (h : State.Alters parts fs s t) {f : Fld} {v d d' i : Nat} (hf : (f, d', i) ∈ fs)
    (hd : f.reg.place d i = f.reg.place d' i) : State.Alters parts fs s (t.put f v d i) :=
  ⟨h.pending, fun p hp => Part.same_trans (h.parts p hp) (by cases p <;> rfl), h.words.put_place hf hd⟩

/-- An effect whose footprint holds no register. -/
theorem State.Alters.frame (h : State.Alters parts fs s t) {K : Touch} (g : Frame K t u) (hr : K.any = false ∧ K.regs = [])
    (hp : ∀ p ∈ K.parts, p ∈ parts) : State.Alters parts fs s u :=
  ⟨g.pending.trans h.pending, fun p hq => Part.same_trans (h.parts p hq) (g.parts p fun hk => hq (hp p hk)),
    h.words.trans fun r d i _ _ => by rw [g.words hr.1 r d i (by simp [hr.2])]⟩

theorem State.Alters.ite {c : Prop} [Decidable c] (h : State.Alters parts fs s t) (g : State.Alters parts fs s u) :
    State.Alters parts fs s (if c then t else u) := by split <;> assumption

end

/-- A command whose effect alters the parts and the fields listed completes with it. -/
theorem Completes.of_alters {c : Instr} {s : State} {parts : List Part} {fs : List (Fld × Nat × Nat)} {post : State → Prop}
    {effect : State → State} (h : s.Reaches c) (e : exec c s = act c s effect) (ha : State.Alters parts fs s (effect s))
    (hpost : post (effect s)) (hf : Part.fatal ∉ parts := by decide) : Completes c s parts fs post :=
  .of_effect h e (ha.parts .fatal hf) ha.pending ha.parts ha.words hpost

/-- What a command of a given effect answers, where the effect is known and makes no die fatal. -/
theorem exec_eq_next {c : Instr} {s t : State} {effect : State → State} (h : s.Reaches c) (e : exec c s = act c s effect)
    (ht : effect s = t) (hf : t.flt.fatal = s.flt.fatal := by rfl) : exec c s = .next t :=
  e.trans (act_eq_next h ht hf)

/-- What a command answers in any case: its effect, and the halts of the dies that it made fatal. -/
theorem exec_settled {c : Instr} {s : State} {effect : State → State} (h : s.Reaches c) (e : exec c s = act c s effect) :
    exec c s = .next (effect s).settle := e.trans (act_admitted h)

end Sys2Proof.Machine

end

/-! # Fault records and fatal dies

Two facts about the effects that make fault records. While the module is calm a record is counted and written and makes no die
fatal; `State.Spares n` says so of an effect that makes at most `n` records. And whatever its records do, an effect leaves a
fatal die fatal, of its first cause (R549): `State.HealthStands`. -/

section

namespace Sys2Proof.Machine

/-! ### A calm module -/

/-- Haboob mode is off, and `n` records more do not begin it (R544). -/
structure State.Calm (s : State) (n : Nat) : Prop where
  quiet : s.on F.FLT_HABOOB.ACTIVE = false
  room  : s.get F.FLT_RATE.CURRENT + n ≤ s.get F.FLT_HABOOB.ENTER

theorem State.Calm.of_calm {s : State} (h : s.calm) : s.Calm 8 := ⟨h.1, h.2⟩

theorem State.Calm.mono {s : State} {m n : Nat} (h : s.Calm n) (hm : m ≤ n) : s.Calm m := ⟨h.quiet, by have := h.room; omega⟩

/-- A record is counted in its window and in its die's (R544). -/
def State.counted (s : State) (r : FaultRec) : State :=
  let s := (s.bump F.FLT_RATE.CURRENT 1).bump F.FLT_DIE_HEALTH.WINDOW 1 (unitDie r.unit)
  s.put F.FLT_DIE_HEALTH.PEAK (max (s.get F.FLT_DIE_HEALTH.PEAK (unitDie r.unit)) (s.get F.FLT_DIE_HEALTH.WINDOW (unitDie r.unit)))
    (unitDie r.unit)

theorem State.counted_frame (s : State) (r : FaultRec) : Frame ⟨[], [.FLT_RATE, .FLT_DIE_HEALTH], false⟩ s (s.counted r) :=
  ((State.bump_frame (h := by decide) ..).trans (State.bump_frame (h := by decide) ..)).trans (State.put_frame (h := by decide) ..)

theorem State.get_current_counted (s : State) (r : FaultRec) :
    (s.counted r).get F.FLT_RATE.CURRENT = min (s.get F.FLT_RATE.CURRENT + 1) (2 ^ F.FLT_RATE.CURRENT.len - 1) := by
  unfold State.counted State.bump
  rw [State.get_put_reg (by decide), State.get_put_reg (by decide), State.get_put_same _ _ _ _ _ (by decide)]
  exact Nat.mod_eq_of_lt (by have : 0 < 2 ^ F.FLT_RATE.CURRENT.len := Nat.two_pow_pos _; omega)

theorem State.word_habo_counted (s : State) (r : FaultRec) (d i : Nat) :
    (s.counted r).word .FLT_HABOOB d i = s.word .FLT_HABOOB d i := (s.counted_frame r).words rfl _ _ _ (by decide)

theorem State.Calm.counted {s : State} {n : Nat} (h : s.Calm (n + 1)) (r : FaultRec) : (s.counted r).Calm n := by
  have hcount := s.get_current_counted r
  have hword := s.word_habo_counted r
  have hget : ∀ lo len, (s.counted r).get ⟨.FLT_HABOOB, lo, len⟩ = s.get ⟨.FLT_HABOOB, lo, len⟩ := fun lo len => by
    simp only [State.get, hword]
  have hroom := h.room
  refine ⟨by simpa only [State.on, hget] using h.quiet, ?_⟩
  have henter : (s.counted r).get F.FLT_HABOOB.ENTER = s.get F.FLT_HABOOB.ENTER := hget 32 16
  rw [hcount, henter]
  omega

/-- In a calm module a record is counted, and written but for the memory stack's of a fenced die (R545, R548). -/
theorem State.collect_eq {s : State} {n : Nat} (h : s.Calm (n + 1)) (r : FaultRec) :
    s.collect r = if isMemory (unitDie r.unit) && (s.counted r).on F.FLT_DIE_HEALTH.FENCED (unitDie r.unit) && r.cause == 7
      then s.counted r else (s.counted r).writeRecord r := by
  have hc := h.counted r
  have hoff := hc.quiet
  have hlow : ¬ (s.counted r).get F.FLT_HABOOB.ENTER < (s.counted r).get F.FLT_RATE.CURRENT := by have := hc.room; omega
  unfold State.collect
  extract_lets die counted peaked entered fenced
  have hpeaked : peaked = s.counted r := rfl
  have hentered : entered = s.counted r := by
    simp only [entered, hpeaked, hoff, hlow, decide_false, Bool.not_false, Bool.and_false, Bool.false_eq_true, if_false]
  have hfenced : fenced = s.counted r := by
    simp only [fenced, hentered, hoff, Bool.false_and, Bool.false_eq_true, if_false]
  simp only [hfenced, hoff, Bool.false_and, Bool.false_eq_true, if_false]
  rfl

/-- From `s` to `t` at most `n` records arose: a module that is calm enough stays so, and no die becomes fatal. -/
def State.Spares (n : Nat) (s t : State) : Prop := ∀ m, s.Calm (m + n) → t.Calm m ∧ t.flt.fatal = s.flt.fatal

section
variable {K : Touch} {m n : Nat} {s t u : State}

theorem State.Spares.refl (s : State) : State.Spares n s s := fun _ h => ⟨h.mono (by omega), rfl⟩

theorem State.Spares.trans (h : State.Spares m s t) (g : State.Spares n t u) : State.Spares (m + n) s u := fun k hk => by
  obtain ⟨ht, hf⟩ := h (k + n) (hk.mono (by omega))
  obtain ⟨hu, hg⟩ := g k ht
  exact ⟨hu, hg.trans hf⟩

theorem State.Spares.mono (h : State.Spares m s t) (hn : m ≤ n) : State.Spares n s t := fun k hk => h k (hk.mono (by omega))

theorem State.Spares.of_frame (g : Frame K s t)
    (hk : K.any = false ∧ Part.fatal ∉ K.parts ∧ Reg.FLT_HABOOB ∉ K.regs ∧ Reg.FLT_RATE ∉ K.regs := by decide) :
    State.Spares n s t := fun m h => by
  obtain ⟨hany, hfatal, hhaboob, hrate⟩ := hk
  have hget : ∀ f : Fld, f.reg = .FLT_HABOOB ∨ f.reg = .FLT_RATE → t.get f = s.get f := fun f hf => by
    have hf : f.reg ∉ K.regs := by rcases hf with hf | hf <;> rwa [hf]
    simp only [State.get, g.words hany _ _ _ hf]
  refine ⟨⟨?_, ?_⟩, g.parts .fatal hfatal⟩
  · have := h.quiet
    rwa [State.on, hget _ (.inl rfl)]
  · have := h.room
    rw [hget _ (.inr rfl), hget _ (.inl rfl)]
    omega

/-- One more effect, whose footprint leaves the count of records and the fatal dies out. -/
theorem State.Spares.step (h : State.Spares n s t) (g : Frame K t u)
    (hk : K.any = false ∧ Part.fatal ∉ K.parts ∧ Reg.FLT_HABOOB ∉ K.regs ∧ Reg.FLT_RATE ∉ K.regs := by decide) :
    State.Spares n s u := h.trans (.of_frame (n := 0) g hk)

theorem State.Spares.ite {c : Prop} [Decidable c] (h : State.Spares n s t) (g : State.Spares n s u) :
    State.Spares n s (if c then t else u) := by split <;> assumption

end

theorem State.collect_spares (s : State) (r : FaultRec) : State.Spares 1 s (s.collect r) := fun m h => by
  have hc := h.counted r
  have hfatal : (s.counted r).flt.fatal = s.flt.fatal := rfl
  rw [State.collect_eq h]
  split
  · exact ⟨hc, hfatal⟩
  · exact State.Spares.of_frame (n := 0) ((s.counted r).writeRecord_frame r) (by decide) m hc

theorem State.faultOf_spares (s : State) (u cause : Nat) (f : FaultRec → FaultRec) : State.Spares 1 s (s.faultOf u cause f) :=
  State.collect_spares _ _

/-! ### A fatal die stays so -/

/-- From `s` to `t` every die that was fatal still is, of the same cause (R549). -/
def State.HealthStands (s t : State) : Prop :=
  ∀ d, s.on F.FLT_DIE_HEALTH.FATAL d = true →
    t.on F.FLT_DIE_HEALTH.FATAL d = true ∧ t.get F.FLT_DIE_HEALTH.CAUSE d = s.get F.FLT_DIE_HEALTH.CAUSE d

section
variable {K : Touch} {s t u : State}

theorem State.HealthStands.refl (s : State) : s.HealthStands s := fun _ h => ⟨h, rfl⟩

theorem State.HealthStands.trans (h : s.HealthStands t) (g : t.HealthStands u) : s.HealthStands u := fun d hd =>
  ⟨(g d (h d hd).1).1, (g d (h d hd).1).2.trans (h d hd).2⟩

theorem State.HealthStands.step (h : s.HealthStands t) (g : Frame K t u)
    (hk : K.any = false ∧ Reg.FLT_DIE_HEALTH ∉ K.regs := by decide) : s.HealthStands u := h.trans fun d hd => by
  simpa only [State.on, State.get, g.words hk.1 _ _ _ hk.2, and_true] using hd

/-- A field of a die's health other than the two. -/
theorem State.HealthStands.put (h : s.HealthStands t) {f : Fld} {v d i : Nat}
    (hf : f.reg ≠ .FLT_DIE_HEALTH ∨ f.lo + f.len ≤ 56 ∨ 59 ≤ f.lo ∧ f.lo + f.len ≤ 63) :
    s.HealthStands (t.put f v d i) := h.trans fun d' hd => by
  have hget : ∀ g : Fld, g = F.FLT_DIE_HEALTH.FATAL ∨ g = F.FLT_DIE_HEALTH.CAUSE → (t.put f v d i).get g d' = t.get g d' := by
    intro g hg
    rcases hf with hf | hf
    · exact State.get_put_reg (by rcases hg with rfl | rfl <;> exact hf)
    · exact State.get_put_apart (by rcases hg with rfl | rfl <;> simp only <;> omega) (by omega)
  simpa only [State.on, hget _ (.inl rfl), hget _ (.inr rfl), and_true] using hd

theorem State.HealthStands.ite {c : Prop} [Decidable c] (h : s.HealthStands t) (g : s.HealthStands u) :
    s.HealthStands (if c then t else u) := by split <;> assumption

theorem State.HealthStands.foldl {α : Type} {f : State → α → State} (hf : ∀ (s : State) x, s.HealthStands (f s x)) :
    ∀ (l : List α) (s : State), s.HealthStands (l.foldl f s)
  | [], s => .refl s
  | x :: l, s => (hf s x).trans (HealthStands.foldl hf l _)

end

theorem State.healthStands_of_frame {K : Touch} {s t : State} (g : Frame K s t)
    (hk : K.any = false ∧ Reg.FLT_DIE_HEALTH ∉ K.regs := by decide) : s.HealthStands t := (State.HealthStands.refl s).step g hk

/-- A die made fatal: it is so, of its first cause. -/
theorem State.makeFatal_fatal (s : State) (die cause : Nat) :
    (s.makeFatal die cause).on F.FLT_DIE_HEALTH.FATAL die = true ∧
      (s.on F.FLT_DIE_HEALTH.FATAL die = false →
        (s.makeFatal die cause).get F.FLT_DIE_HEALTH.CAUSE die = cause % 2 ^ F.FLT_DIE_HEALTH.CAUSE.len) := by
  unfold State.makeFatal
  split
  · next h => exact ⟨h, fun g => by simp [h] at g⟩
  · simp (disch := decide) [State.on, State.get_put_apart, State.get_flag_same, State.get_put_same]

theorem State.makeFatal_stands (s : State) (die cause : Nat) : s.HealthStands (s.makeFatal die cause) := fun d hd => by
  unfold State.makeFatal
  split
  · exact ⟨hd, rfl⟩
  · next h =>
    have hne : F.FLT_DIE_HEALTH.FATAL.reg.place die 0 ≠ F.FLT_DIE_HEALTH.FATAL.reg.place d 0 := fun e => by
      have : die = d := congrArg Loc.die e
      exact h (this ▸ hd)
    have hget : ∀ g : Fld, g.reg = .FLT_DIE_HEALTH → (((s.flag F.FLT_DIE_HEALTH.FATAL die).put F.FLT_DIE_HEALTH.CAUSE cause die).onFlt
        fun f => { f with fatal := insertNat die f.fatal }).get g d = s.get g d := fun g hg => by
      have hg : F.FLT_DIE_HEALTH.FATAL.reg.place die 0 ≠ g.reg.place d 0 := by rw [hg]; exact hne
      rw [State.get_onFlt, State.get_put_place (f := F.FLT_DIE_HEALTH.CAUSE) hg, State.flag, State.get_put_place hg]
    exact ⟨by rwa [State.on, hget _ rfl], hget _ rfl⟩

theorem State.fence_stands (s : State) (die : Nat) : s.HealthStands (s.fence die) := by
  unfold State.fence
  extract_lets marked
  have hmarked : s.HealthStands marked := ((HealthStands.refl s).put (.inr (by decide))).put (.inl (by decide))
  exact .ite hmarked (hmarked.trans (State.makeFatal_stands _ _ _))

theorem State.collect_stands (s : State) (r : FaultRec) : s.HealthStands (s.collect r) := by
  unfold State.collect
  extract_lets die counted peaked entered fenced
  have hpeaked : s.HealthStands peaked :=
    (((HealthStands.refl s).put (.inl (by decide))).put (.inr (by decide))).put (.inr (by decide))
  have hentered : s.HealthStands entered := .ite ((hpeaked.put (.inl (by decide))).put (.inl (by decide))) hpeaked
  have hfenced : s.HealthStands fenced := .ite (hentered.trans (State.fence_stands _ _)) hentered
  exact .ite hfenced (.ite (hfenced.step (State.coalesceRecord_frame _ _)) (hfenced.step (State.writeRecord_frame _ _)))

theorem State.failOp_stands (s : State) (u k cause : Nat) (kind : ErrorKind) : s.HealthStands (s.failOp u k cause kind) := by
  unfold State.failOp
  extract_lets o recorded failed
  have hrecorded : s.HealthStands recorded :=
    healthStands_of_frame (State.recordError_frame (K := ⟨[], errorRegs, false⟩) s u o.segment o.opclass cause id
      (by decide +kernel) fun t => .refl t)
  have hfailed : s.HealthStands failed := (hrecorded.step (State.onOp_frame ..)).step (State.onUnit_frame ..)
  refine .ite ((HealthStands.refl s).step (State.onOp_frame ..)) ?_
  cases kind with
  | access => exact hfailed.trans (State.collect_stands _ _)
  | operation => exact hfailed.trans (State.collect_stands _ _)

theorem State.stopDie_stands (s : State) (die : Nat) : s.HealthStands (s.stopDie die) := by
  unfold State.stopDie
  refine .foldl (fun s p => ?_) _ s
  refine HealthStands.trans ((HealthStands.refl s).step (State.onUnit_frame ..)) (.foldl (fun s k => ?_) _ _)
  extract_lets o
  exact .ite (State.failOp_stands _ _ _ _ _) (.refl s)

theorem State.raiseBreak_stands (s : State) (cause unit segment : Nat) (halt : Bool) :
    s.HealthStands (s.raiseBreak cause unit segment halt) := by
  unfold State.raiseBreak
  extract_lets noUnit u seg tick event halted extra recorded reported
  have hevent : s.HealthStands event := (HealthStands.refl s).put (.inl (by decide))
  have hhalted : s.HealthStands halted := .ite (hevent.step (State.onSched_frame ..)) hevent
  have hextra : s.HealthStands extra := hhalted.put (.inl (by decide))
  have hreported : s.HealthStands reported :=
    (hhalted.step (State.recordBreak_frame ..)).trans (State.collect_stands _ _)
  exact .ite (.refl s) (.ite (.ite (hextra.step (State.sendAbort_frame ..)) hextra)
    ((hreported.step (State.abortStep_frame _)).step (State.sendAbort_frame ..)))

theorem State.haltFatal_stands (s : State) : s.HealthStands s.haltFatal := by
  unfold State.haltFatal
  split
  · exact .refl s
  · next d rest _ =>
    extract_lets dies stopped seg recorded told
    have hstopped : s.HealthStands stopped :=
      ((HealthStands.refl s).step (State.onFlt_fatal_frame s _)).trans (.foldl State.stopDie_stands _ _)
    have hrecorded : s.HealthStands recorded := hstopped.step (State.recordHalt_frame ..)
    have htold : s.HealthStands told := (hrecorded.step (State.sendAbort_frame ..)).step (State.onSched_frame ..)
    exact .ite (hrecorded.trans (State.raiseBreak_stands _ _ _ _ _)) (.ite htold (htold.step (State.setSched_frame ..)))

/-- The halts that follow a command leave every fatal die so. -/
theorem State.settle_stands (s : State) : s.HealthStands s.settle := by
  unfold State.settle
  exact .ite (.refl s) (((State.haltFatal_stands s).trans (State.haltFatal_stands _)).step (State.onFlt_fatal_frame ..))

end Sys2Proof.Machine

end

/-! # Power states and management (R600 to R618) -/

section

namespace Sys2Proof.Machine

/-! ### ROUTING and stage 11 -/

theorem bit_eq_testBit (x i : Nat) : bit x i = x.testBit i := by
  simp only [bit, bits, Nat.testBit_eq_decide_div_mod_eq, Nat.shiftRight_eq_div_pow, pow_one]
  rfl

@[simp] theorem b2n_mod_two (b : Bool) : b2n b % 2 = b2n b := by cases b <;> rfl

@[simp] theorem b2n_bne_zero (b : Bool) : (b2n b != 0) = b := by cases b <;> rfl

@[simp] theorem b2n_beq_one (b : Bool) : (b2n b == 1) = b := by cases b <;> rfl

/-- ROUTING of one fabric die is shown (R419). -/
def State.showRoutingOf (s : State) (d : Nat) : State :=
  s.put F.VRT_BANK.ROUTING (b2n (bit (s.get F.VRT_BANK.VALID d) (s.get F.VRT_BANK.CURRENT d) && !s.vrt.left)) d

theorem State.showRouting_eq (s : State) : s.showRouting = [72, 73, 74, 75].foldl State.showRoutingOf s := rfl

theorem State.get_showRouting (s : State) {g : Fld} (h : g.reg ≠ .VRT_BANK ∨ g.lo + g.len ≤ 7 ∨ 8 ≤ g.lo) (d i : Nat) :
    s.showRouting.get g d i = s.get g d i := by
  have hone : ∀ (t : State) x, (t.showRoutingOf x).get g d i = t.get g d i := fun t x => by
    rcases h with h | h
    · exact State.get_put_reg (Ne.symm h)
    · exact State.get_put_apart h.symm (by decide)
  rw [State.showRouting_eq]
  simp only [List.foldl, hone]

theorem State.showRouting_vrt (s : State) : s.showRouting.vrt = s.vrt := rfl

theorem State.on_showRoutingOf_same (s : State) (d : Nat) : (s.showRoutingOf d).on F.VRT_BANK.ROUTING d =
    ((s.get F.VRT_BANK.VALID d).testBit (s.get F.VRT_BANK.CURRENT d) && !s.vrt.left) := by
  simp (disch := decide) [State.showRoutingOf, State.on, State.get_put_same, bit_eq_testBit]

/-- Each fabric die shows ROUTING where its bank in force is valid and the module has not left (R419). -/
theorem State.on_showRouting (s : State) {d : Nat} (hd : d ∈ [72, 73, 74, 75]) : s.showRouting.on F.VRT_BANK.ROUTING d =
    ((s.get F.VRT_BANK.VALID d).testBit (s.get F.VRT_BANK.CURRENT d) && !s.vrt.left) := by
  have hother : ∀ (t : State) {x y : Nat}, x ≠ y → (t.showRoutingOf x).on F.VRT_BANK.ROUTING y = t.on F.VRT_BANK.ROUTING y :=
    fun t x y hne => by
      rw [State.on, State.on, State.showRoutingOf, State.get_put_die rfl hne]
  have hfield : ∀ (t : State) (x : Nat) (g : Fld), g = F.VRT_BANK.VALID ∨ g = F.VRT_BANK.CURRENT →
      (t.showRoutingOf x).get g d = t.get g d := fun t x g hg =>
    State.get_put_apart (by rcases hg with rfl | rfl <;> decide) (by decide)
  have hleft : ∀ (t : State) (x : Nat), (t.showRoutingOf x).vrt = t.vrt := fun _ _ => rfl
  rw [State.showRouting_eq]
  simp only [List.mem_cons, List.not_mem_nil, or_false] at hd
  rcases hd with rfl | rfl | rfl | rfl <;>
    simp only [List.foldl, ne_eq, Nat.reduceEqDiff, not_false_eq_true, hother, on_showRoutingOf_same,
      hfield _ _ _ (.inl rfl), hfield _ _ _ (.inr rfl), hleft]

theorem State.get_checkJoined (s : State) {g : Fld} (h : g.reg ≠ .SEC_START) (d i : Nat) :
    s.checkJoined.get g d i = s.get g d i := by
  simp only [State.get, (State.checkJoined_frame s).words rfl _ _ _ (by simpa using h)]

theorem State.on_setLeft (s : State) (left : Bool) {d : Nat} (hd : d ∈ [72, 73, 74, 75]) :
    (s.setLeft 72 left).on F.VRT_BANK.ROUTING d =
      ((s.get F.VRT_BANK.VALID d).testBit (s.get F.VRT_BANK.CURRENT d) && !left) := by
  have hshown := State.on_showRouting (s.onVrt fun v => { v with left := left }) hd
  simpa only [State.setLeft, if_true, State.on, State.get_checkJoined _ (show F.VRT_BANK.ROUTING.reg ≠ .SEC_START by decide),
    State.get_onVrt, State.onVrt_vrt] using hshown

theorem State.setLeft_vrt (s : State) (left : Bool) : (s.setLeft 72 left).vrt = { s.vrt with left := left } :=
  (State.checkJoined_frame _).parts .vrt (by decide)

/-! ### Fields that only ever rise -/

/-- A flag that is set leaves every flag of its name that was set. -/
theorem State.on_flag_of_on {s : State} {f : Fld} {d i d' i' : Nat} (h : s.on f d' i' = true) (hw : f.lo + f.len ≤ 64)
    (hl : f.len ≠ 0) : (s.flag f d i).on f d' i' = true := by
  by_cases hp : f.reg.place d i = f.reg.place d' i'
  · rw [State.on, ← State.get_of_place _ hp]
    exact State.on_flag_same s f d i hw hl
  · rwa [State.on, State.flag, State.get_put_place hp]

/-! ### Rail faults (R614) -/

theorem State.railFails_stands (s : State) (die : Nat) : s.HealthStands (s.railFails die) :=
  (((HealthStands.refl s).put (.inl (by decide))).put (.inl (by decide))).trans (State.makeFatal_stands _ _ _)

/-- The registers of a die's rail and of the module's power events after rails failed. -/
theorem State.rails_railFails (s : State) (die : Nat) :
    (s.railFails die).on F.PWR_RAIL.FAULT die = true ∧ (s.railFails die).on F.PWR_EVENTS.RAIL_FAULT = true ∧
      ∀ d, s.on F.PWR_RAIL.FAULT d = true → (s.railFails die).on F.PWR_RAIL.FAULT d = true := by
  have hkeeps : ∀ (f : Fld) d i, f.reg ≠ .FLT_DIE_HEALTH → (s.railFails die).get f d i =
      ((s.flag F.PWR_RAIL.FAULT die).flag F.PWR_EVENTS.RAIL_FAULT).get f d i := fun f d i hf => by
    simp only [State.railFails, State.get, (State.makeFatal_frame _ _ _).words rfl f.reg d i (by simpa using hf)]
  have hrail : ∀ d, (s.railFails die).on F.PWR_RAIL.FAULT d = (s.flag F.PWR_RAIL.FAULT die).on F.PWR_RAIL.FAULT d := fun d => by
    rw [State.on, hkeeps _ _ _ (by decide), State.flag, State.get_put_reg (by decide)]
    rfl
  refine ⟨?_, ?_, fun d hd => ?_⟩
  · rw [hrail, State.on_flag_same _ _ _ _ (by decide) (by decide)]
  · rw [State.on, hkeeps _ _ _ (by decide), State.get_flag_same _ _ _ _ (by decide) (by decide)]
    rfl
  · rw [hrail]
    exact State.on_flag_of_on hd (by decide) (by decide)

theorem State.on_fatal_railFails_ne (s : State) {die d : Nat} (h : die ≠ d) :
    (s.railFails die).on F.FLT_DIE_HEALTH.FATAL d = s.on F.FLT_DIE_HEALTH.FATAL d := by
  unfold State.railFails State.makeFatal
  split
  · simp (disch := decide) [State.on, State.flag, State.get_put_reg]
  · rw [State.on, State.get_onFlt, State.get_put_die rfl h, State.flag, State.get_put_die rfl h, State.flag, State.get_put_reg (by decide),
      State.flag, State.get_put_reg (by decide), ← State.on]

theorem State.foldl_railFails_rails (dies : List Nat) (s : State) : ∀ d,
    (d ∈ dies → (dies.foldl State.railFails s).on F.PWR_RAIL.FAULT d = true ∧
      (dies.foldl State.railFails s).on F.PWR_EVENTS.RAIL_FAULT = true) ∧
    (s.on F.PWR_RAIL.FAULT d = true → (dies.foldl State.railFails s).on F.PWR_RAIL.FAULT d = true) ∧
    (s.on F.PWR_EVENTS.RAIL_FAULT = true → (dies.foldl State.railFails s).on F.PWR_EVENTS.RAIL_FAULT = true) := by
  induction dies generalizing s with
  | nil => exact fun d => ⟨fun h => absurd h List.not_mem_nil, id, id⟩
  | cons x dies ih =>
    intro d
    obtain ⟨hrail, hevent, hkeep⟩ := s.rails_railFails x
    obtain ⟨hmem, hstand, hevents⟩ := ih (s.railFails x) d
    refine ⟨fun hd => ?_, fun hd => hstand (hkeep d hd), fun _ => hevents hevent⟩
    rcases List.mem_cons.1 hd with rfl | hd
    · exact ⟨hstand hrail, hevents hevent⟩
    · exact hmem hd

/-- The dies whose rails failed are fatal; one that was not before is so of cause 4 (R549, R614). -/
theorem State.foldl_railFails_fatal (dies : List Nat) (s : State) : ∀ d ∈ dies,
    (dies.foldl State.railFails s).on F.FLT_DIE_HEALTH.FATAL d = true ∧
      (s.on F.FLT_DIE_HEALTH.FATAL d = false → (dies.foldl State.railFails s).get F.FLT_DIE_HEALTH.CAUSE d = 4) := by
  induction dies generalizing s with
  | nil => exact fun d h => absurd h List.not_mem_nil
  | cons x dies ih =>
    intro d hd
    by_cases hx : x = d
    · subst hx
      obtain ⟨hfatal, hcause⟩ := ((s.flag F.PWR_RAIL.FAULT x).flag F.PWR_EVENTS.RAIL_FAULT).makeFatal_fatal x 4
      obtain ⟨hstill, hsame⟩ := State.HealthStands.foldl State.railFails_stands dies (s.railFails x) x hfatal
      refine ⟨hstill, fun hs => hsame.trans (hcause ?_)⟩
      simpa (disch := decide) only [State.on, State.flag, State.get_put_reg] using hs
    · obtain ⟨hfatal, hcause⟩ := ih (s.railFails x) d ((List.mem_cons.1 hd).resolve_left (Ne.symm hx))
      exact ⟨hfatal, fun hs => hcause ((s.on_fatal_railFails_ne hx).trans hs)⟩

/-! ### States of R606 -/

theorem State.setMode_power (s : State) (m : PowerMode) : (s.setMode m).power = { s.power with mode := m } := rfl

theorem State.get_setMode_state (s : State) (m : PowerMode) : (s.setMode m).get F.PWR_STATUS.STATE = m.code := by
  rw [State.setMode, State.get_put_same _ _ _ _ _ (by decide)]
  cases m <;> rfl

theorem State.setMode_same (s : State) (m : PowerMode) (p : Part) (hp : p ≠ .power) : p.same s (s.setMode m) := by
  cases p with
  | power => exact absurd rfl hp
  | _ => rfl

theorem State.mem_imsic_interruptTo (s : State) {hart : Nat} (id : Nat) (h : hart < 72) : (hart, id) ∈ (s.interruptTo hart id).imsic := by
  unfold State.interruptTo
  split
  · exact List.mem_append_right _ (List.mem_singleton_self _)
  · next hc => simpa [h] using hc

theorem State.removalRequest_of_running {s : State} (source : Nat) (h : s.power.mode = .running ∨ s.power.mode = .parked) :
    s.removalRequest source = s.beginDrain source := by
  rcases h with h | h <;> simp [State.removalRequest, h]

theorem State.interruptTo_regs (s : State) (hart id : Nat) : (s.interruptTo hart id).regs = s.regs := by
  unfold State.interruptTo
  split <;> rfl

theorem State.interruptTo_power (s : State) (hart id : Nat) : (s.interruptTo hart id).power = s.power :=
  (State.interruptTo_frame s hart id).parts .power (by decide)

/-- The drain that a removal request begins, before its MSI (R608). -/
def State.drainOpened (s : State) (source : Nat) : State :=
  ((((s.onPower fun p => { p with resume := p.mode }).setMode .draining).flag F.PWR_EVENTS.DRAIN_REQ).put
    F.PWR_STATUS.DRAIN_SOURCE source)

theorem State.beginDrain_eq (s : State) (source : Nat) : s.beginDrain source =
    if (s.drainOpened source).on F.PWR_IRQ.VALID
    then (s.drainOpened source).interruptTo ((s.drainOpened source).get F.PWR_IRQ.HART) ((s.drainOpened source).get F.PWR_IRQ.ID)
    else s.drainOpened source := rfl

theorem State.beginDrain_regs (s : State) (source : Nat) : (s.beginDrain source).regs = (s.drainOpened source).regs := by
  rw [State.beginDrain_eq]
  split
  · exact State.interruptTo_regs _ _ _
  · rfl

/-- A removal request that acts: the module drains, with the event, the source and the MSI (R608). -/
theorem State.beginDrain_spec (s : State) {source : Nat} (hs : source < 16) :
    let t := s.beginDrain source
    t.power = { s.power with mode := .draining, resume := s.power.mode } ∧ t.on F.PWR_EVENTS.DRAIN_REQ = true ∧
      t.get F.PWR_STATUS.DRAIN_SOURCE = source ∧ t.get F.PWR_STATUS.STATE = 4 ∧ t.out = s.out ∧ t.flt = s.flt ∧
      (s.on F.PWR_IRQ.VALID = true → s.get F.PWR_IRQ.HART < 72 → (s.get F.PWR_IRQ.HART, s.get F.PWR_IRQ.ID) ∈ t.imsic) := by
  intro t
  have hregs : t.regs = (s.drainOpened source).regs := s.beginDrain_regs source
  have hframe : Frame ⟨[.imsic], [], false⟩ (s.drainOpened source) t := by
    simp only [t, State.beginDrain_eq]; split
    · exact State.interruptTo_frame _ _ _
    · exact .refl _
  have hirq : ∀ f : Fld, f.reg = .PWR_IRQ → (s.drainOpened source).get f = s.get f := fun f hf => by
    rw [State.drainOpened, State.get_put_reg (by rw [hf]; decide), State.flag, State.get_put_reg (by rw [hf]; decide), State.setMode,
      State.get_put_reg (by rw [hf]; decide), State.get_onPower, State.get_onPower]
  refine ⟨hframe.parts .power (by decide), ?_, ?_, ?_, hframe.parts .out (by decide), hframe.parts .flt (by decide), fun hv hh => ?_⟩
  · rw [State.on, State.get_congr hregs]
    simp (disch := decide) [State.drainOpened, State.get_put_reg, State.get_flag_same]
  · rw [State.get_congr hregs, State.drainOpened, State.get_put_same _ _ _ _ _ (by decide)]
    exact Nat.mod_eq_of_lt hs
  · rw [State.get_congr hregs]
    simp (disch := decide) only [State.drainOpened, State.flag, State.get_put_reg, State.get_put_apart, State.get_setMode_state]
    rfl
  · have hvalid : (s.drainOpened source).on F.PWR_IRQ.VALID = true := by rwa [State.on, hirq _ rfl]
    have hhart := hirq F.PWR_IRQ.HART rfl
    simp only [t, State.beginDrain_eq, hvalid, if_true, hhart, hirq F.PWR_IRQ.ID rfl]
    exact State.mem_imsic_interruptTo _ _ hh

/-- What is left of a module that goes off, beside its fuses and its flash (R601, R606). -/
theorem State.goOff_spec (s : State) : s.goOff.power = { mode := .off } ∧ s.goOff.mem = [] ∧
    (∀ r d i, s.goOff.word r d i = r.resetWord (r.place d i).die i) ∧ s.goOff.sec.retire = s.sec.retire ∧
    s.goOff.sec.revoke = s.sec.revoke ∧ s.goOff.sec.epoch = s.sec.epoch ∧
    (s.sec.flashing = none → s.goOff.sec.flash = s.sec.flash) ∧
    s.goOff = { s.goOff with sched := {}, xlt := {}, coh := {}, qcx := {}, vrt := {}, rem := {}, syn := {}, flt := {}, oasis := {}, hbm := {} } ∧
    s.goOff.pending = s.pending ∧ s.goOff.out = s.out :=
  ⟨rfl, rfl, fun _ _ _ => rfl, rfl, rfl, rfl, fun h => by simp [State.goOff, State.powerless, h], rfl, rfl, rfl⟩

end Sys2Proof.Machine

end

section

namespace Sys2Proof.Machine

/-! ### The requests of PWR_CTRL, of ATTN and of the management endpoint -/

theorem State.drained_eq (s : State) (timeout : Bool) : s.drained timeout =
    if s.power.mode = .draining ∧ s.power.leaving = true ∧ (timeout = true ∨ s.fabricHolds = false) then s.goOff else s := rfl

/-- DRAIN_CANCEL that acts (R606). -/
theorem State.cancelDrain_spec {s : State} (hm : s.power.mode = .draining) (hl : s.power.leaving = false) :
    s.cancelDrain.power = { s.power with mode := s.power.resume } ∧ s.cancelDrain.get F.PWR_STATUS.DRAIN_SOURCE = 0 ∧
      s.cancelDrain.out = s.out ∧ s.cancelDrain.flt = s.flt := by
  have hact : s.cancelDrain = (s.setMode s.power.resume).put F.PWR_STATUS.DRAIN_SOURCE 0 := if_pos ⟨hm, hl⟩
  rw [hact]
  exact ⟨rfl, by rw [State.get_put_same _ _ _ _ _ (by decide)]; rfl, rfl, rfl⟩

theorem State.cancelDrain_eq_self {s : State} (h : s.power.mode ≠ .draining ∨ s.power.leaving = true) : s.cancelDrain = s := by
  refine if_neg fun hc => ?_
  rcases h with h | h
  · exact h hc.1
  · simp [h] at hc

/-- RESTART of a module that is on (R606, R618). -/
theorem State.restartNow_of_on {s : State} (h : s.power.mode = .running ∨ s.power.mode = .parked ∨ s.power.mode = .draining) :
    s.restartNow = if s.schedStill then s.powerless .off true else s := by
  rcases h with h | h | h <;> simp [State.restartNow, h]

/-! ### Sensors (R600, R613) -/

theorem State.inputAt_alters (s : State) (mv : Nat) :
    State.Alters [.power] [(F.PWR_SENSE.INPUT_MV, 72, 0), (F.PWR_EVENTS.INPUT_RANGE, 72, 0)] s (s.inputAt mv) := by
  unfold State.inputAt
  extract_lets seen
  have hseen : State.Alters [.power] [(F.PWR_SENSE.INPUT_MV, 72, 0), (F.PWR_EVENTS.INPUT_RANGE, 72, 0)] s seen :=
    (State.Alters.refl s).put (d' := 72) (by simp) rfl
  exact .ite (hseen.frame (State.onPower_frame _ _) (by decide) (by simp))
    (.ite ((hseen.put (d' := 72) (by simp) rfl).frame (State.onPower_frame _ _) (by decide) (by simp)) hseen)

theorem State.inputAt_spec (s : State) {mv : Nat} (hmv : mv < 2 ^ 16) : (s.inputAt mv).get F.PWR_SENSE.INPUT_MV = mv ∧
    (48000 ≤ mv → mv ≤ 58000 → (s.inputAt mv).power.marginal = false ∧
      (s.inputAt mv).on F.PWR_EVENTS.INPUT_RANGE = s.on F.PWR_EVENTS.INPUT_RANGE) ∧
    ((46000 ≤ mv ∧ mv < 48000) ∨ (58000 < mv ∧ mv ≤ 60000) → (s.inputAt mv).power.marginal = true ∧
      (s.inputAt mv).on F.PWR_EVENTS.INPUT_RANGE = true) := by
  have hmod : mv % 65536 = mv := Nat.mod_eq_of_lt hmv
  unfold State.inputAt
  extract_lets seen
  split
  · simp (disch := decide) [seen, State.on, State.get_put_same, State.get_put_reg, hmod]
    omega
  · split
    · simp (disch := decide) [seen, State.on, State.flag, State.get_put_same, State.get_put_reg, hmod]
      omega
    · simp (disch := decide) [seen, State.on, State.get_put_same, State.get_put_reg, hmod]
      omega

theorem State.warm_alters (s : State) (tj outlet : Nat) :
    State.Alters [] [(F.PWR_SENSE.TJ_MAX_C, 72, 0), (F.PWR_SENSE.OUTLET_C, 72, 0), (F.PWR_EVENTS.THERMAL_WARN, 72, 0)] s
      (s.warm tj outlet) := by
  unfold State.warm
  extract_lets seen
  have hseen : State.Alters [] [(F.PWR_SENSE.TJ_MAX_C, 72, 0), (F.PWR_SENSE.OUTLET_C, 72, 0), (F.PWR_EVENTS.THERMAL_WARN, 72, 0)] s
      seen := ((State.Alters.refl s).put (d' := 72) (by simp) rfl).put (d' := 72) (by simp) rfl
  exact .ite (hseen.put (d' := 72) (by simp) rfl) hseen

theorem State.warm_spec (s : State) (tj outlet : Nat) : (s.warm tj outlet).get F.PWR_SENSE.TJ_MAX_C = tj % 256 ∧
    (s.warm tj outlet).get F.PWR_SENSE.OUTLET_C = outlet % 256 ∧
    (95 ≤ tj ∨ 55 ≤ outlet → (s.warm tj outlet).on F.PWR_EVENTS.THERMAL_WARN = true) := by
  unfold State.warm
  extract_lets seen
  split
  · simp (disch := decide) [seen, State.on, State.flag, State.get_put_same, State.get_put_reg, State.get_put_apart]
  · next hcool => simp (disch := decide) [seen, State.get_put_same, State.get_put_apart, hcool]

end Sys2Proof.Machine

open Sys2Proof Sys2Proof.Machine

theorem Sys2Proof.Machine.exec_park {s : State} (h : s.Reaches .park) :
    (s.power.mode = .running → s.schedStill = true → exec .park s = .next (s.setMode .parked)) ∧
      (s.power.mode = .running → s.schedStill = false → exec .park s = .next (s.flag F.PWR_EVENTS.PARK_REFUSED)) ∧
      (s.power.mode ≠ .running → exec .park s = .next s) :=
  ⟨fun hm hs => exec_eq_next h rfl (by simp [State.parkNow, hm, hs]), fun hm hs => exec_eq_next h rfl (by simp [State.parkNow, hm, hs]),
    fun hm => exec_eq_next h rfl (by simp [State.parkNow, hm])⟩

theorem Sys2Proof.Machine.exec_unpark {s : State} (h : s.Reaches .unpark) :
    (s.power.mode = .parked → exec .unpark s = .next (s.setMode .running)) ∧
      (s.power.mode ≠ .parked → exec .unpark s = .next s) :=
  ⟨fun hm => exec_eq_next h rfl (by simp [State.unparkNow, hm]), fun hm => exec_eq_next h rfl (by simp [State.unparkNow, hm])⟩

/-- A removal request of PWR_CTRL or of ATTN_N (R608). -/
theorem Sys2Proof.Machine.exec_removalRequest {s : State} {c : Instr} {source : Nat} (h : s.Reaches c)
    (hc : c = .drain ∧ source = 3 ∨ c = .attnRequest ∧ source = 1) (hf : (s.removalRequest source).flt.fatal = s.flt.fatal) :
    exec c s = .next (s.removalRequest source) := by
  rcases hc with ⟨rfl, rfl⟩ | ⟨rfl, rfl⟩
  · exact exec_eq_next (effect := fun s => s.removalRequest 3) h rfl rfl hf
  · exact exec_eq_next (effect := fun s => s.removalRequest 1) h rfl rfl hf

/-- Settles O59. The requests are the cases of their effects; what a module that goes off keeps is `State.goOff_spec`; the dies
whose rails fail are fatal (`State.foldl_railFails_fatal`), and stay so through the halt that follows
(`State.settle_stands`). -/
theorem powerStatesFollowTheirRequests : Obligations.PowerStatesFollowTheirRequests := by
  refine ⟨fun s c h => ⟨?_, ?_, ?_, ?_, ?_, ?_, ?_⟩, fun s c h => ⟨?_, ?_, ?_, ?_, ?_⟩⟩
  · rintro rfl
    obtain ⟨hpark, hrefused, hnot⟩ := exec_park h
    exact ⟨fun hm hs => ⟨_, hpark hm hs, rfl, State.get_setMode_state _ _, State.setMode_same _ _⟩, hrefused, hnot⟩
  · rintro rfl
    obtain ⟨hrun, hnot⟩ := exec_unpark h
    exact ⟨fun hm => ⟨_, hrun hm, rfl, State.get_setMode_state _ _, State.setMode_same _ _⟩, hnot⟩
  · intro source hc
    have hsource : source < 16 := by omega
    have hexec := exec_removalRequest h hc
    refine ⟨fun hm => ?_, fun hm hheld => ?_, fun hm => ?_⟩
    · obtain ⟨hpower, hevent, hsrc, hstate, -, hflt, hirq⟩ := s.beginDrain_spec hsource
      rw [State.removalRequest_of_running source hm, hflt] at hexec
      exact ⟨_, hexec rfl, by rw [hpower], by rw [hpower], hevent, hsrc, hstate, hirq⟩
    · have heq : s.removalRequest source =
          (s.flag F.PWR_STATUS.DRAIN_HELD).onPower fun p => { p with heldSource := source } := by
        simp [State.removalRequest, hm, hheld]
      rw [heq] at hexec
      refine ⟨_, hexec rfl, hm, ?_, rfl⟩
      simp (disch := decide) [State.on, State.get_flag_same]
    · have heq : s.removalRequest source = s.onPower fun p => { p with counted := p.counted + 1 } := by
        simp [State.removalRequest, hm]
      rw [heq] at hexec
      exact ⟨_, hexec rfl, rfl, rfl⟩
  · rintro rfl
    refine ⟨fun hm hl => ?_, fun hn => exec_eq_next h rfl (State.cancelDrain_eq_self hn)⟩
    obtain ⟨hpower, hsource, -, hflt⟩ := State.cancelDrain_spec hm hl
    exact ⟨_, exec_eq_next h rfl rfl (by rw [hflt]), by rw [hpower], hsource⟩
  · rintro rfl
    refine ⟨fun hm hs => ?_, fun hn => exec_eq_next h rfl (if_neg ?_)⟩
    · have hact : s.askOff = (s.onPower fun p => { p with leaving := true }).setLeft 72 true := if_pos ⟨hm, hs⟩
      have hframe := (s.onPower fun p => { p with leaving := true }).setLeft_frame 72 true
      refine ⟨_, exec_eq_next h rfl hact (hframe.parts .fatal (by decide)), ?_, ?_, fun d hd => ?_⟩
      · rw [show State.power _ = _ from hframe.parts .power (by decide)]
        rfl
      · rw [State.setLeft_vrt]
      · rw [State.on_setLeft _ _ hd, Bool.not_true, Bool.and_false]
    · rintro ⟨hm, hs⟩
      simp [hm, hs] at hn
  · rintro timeout rfl
    refine ⟨fun hm hl ht => exec_eq_next h rfl (if_pos ⟨hm, hl, ht⟩) h.2.2.symm, fun hn => exec_eq_next h rfl (if_neg ?_)⟩
    rintro ⟨hm, hl, ht⟩
    rcases hn with hn | hn | ⟨hn, hf⟩
    · exact hn hm
    · simp [hl] at hn
    · simp [hn, hf] at ht
  · rintro rfl
    exact ⟨fun hm hs => exec_eq_next h rfl (by rw [State.restartNow_of_on hm, if_pos hs]) h.2.2.symm,
      fun hm hs => exec_eq_next h rfl (by rw [State.restartNow_of_on hm, hs]; rfl)⟩
  · intro hc
    refine ⟨s.goOff, ?_, s.goOff_spec⟩
    rcases hc with rfl | ⟨rfl, hm⟩ | ⟨mv, rfl, hmv⟩ | ⟨tj, rfl, htj⟩
    · exact exec_eq_next h rfl rfl h.2.2.symm
    · exact exec_eq_next h rfl (if_pos hm) h.2.2.symm
    · exact exec_eq_next h rfl (if_pos hmv) h.2.2.symm
    · exact exec_eq_next h rfl (if_pos htj) h.2.2.symm
  · rintro (⟨rfl, hm⟩ | ⟨mv, rfl, hlo, hhi⟩ | ⟨tj, rfl, htj⟩)
    · exact exec_eq_next h rfl (if_neg (by simp [hm]))
    · exact exec_eq_next h rfl (if_neg (by omega))
    · exact exec_eq_next h rfl (if_neg (by omega))
  · rintro mv rfl hmv
    exact Completes.of_alters (effect := fun s => s.inputAt mv) h rfl (State.inputAt_alters s mv) (State.inputAt_spec s hmv)
  · rintro tj outlet rfl
    exact Completes.of_alters (effect := fun s => s.warm tj outlet) h rfl (State.warm_alters s tj outlet) (State.warm_spec s tj outlet)
  · rintro dies rfl
    refine ⟨_, exec_settled (effect := fun s => dies.foldl State.railFails s) h rfl, fun d hd => ?_⟩
    obtain ⟨hrail, hevent⟩ := ((State.foldl_railFails_rails dies s d).1 hd)
    obtain ⟨hfatal, hcause⟩ := State.foldl_railFails_fatal dies s d hd
    obtain ⟨hstill, hsame⟩ := State.settle_stands _ d hfatal
    have hframe := State.settle_frame (dies.foldl State.railFails s)
    refine ⟨?_, hstill, fun hs => hsame.trans (hcause hs), ?_⟩
    · rwa [State.on, State.get, hframe.words rfl _ _ _ (by decide)]
    · rwa [State.on, State.get, hframe.words rfl _ _ _ (by decide)]

end

section

namespace Sys2Proof.Machine

/-! ### Fuse commands, reports asked for and flash programs asked for (R594 to R598) -/

/-- What a fuse command must bring besides an idle fuse block (R596, R598). -/
def State.FuseTakes (s : State) (confirm cmd arg : Nat) : Prop :=
  confirm % 65536 = (s.word .SEC_SERIAL).toNat % 65536 ∧ s.schedStill = true ∧ fuseArgOk cmd arg = true

section
variable {s : State} {confirm cmd arg : Nat} (hlo : 1 ≤ cmd) (hhi : cmd ≤ 3)
include hlo hhi

theorem State.fuseCommand_busy (hb : s.on F.SEC_FUSE_STATUS.BUSY = true) :
    s.fuseCommand confirm cmd arg = s.put F.SEC_FUSE_STATUS.RESULT 2 := by
  rw [State.fuseCommand, if_neg (by omega), if_pos hb]

theorem State.fuseCommand_refused (hb : s.on F.SEC_FUSE_STATUS.BUSY = false) (ht : ¬s.FuseTakes confirm cmd arg) :
    s.fuseCommand confirm cmd arg = s.put F.SEC_FUSE_STATUS.RESULT 1 := by
  rw [State.fuseCommand, if_neg (by omega), if_neg (by simp [hb]), if_pos]
  simpa only [State.FuseTakes, not_and_or, Bool.not_eq_true] using ht

theorem State.fuseCommand_taken (hb : s.on F.SEC_FUSE_STATUS.BUSY = false) (ht : s.FuseTakes confirm cmd arg) :
    s.fuseCommand confirm cmd arg = (s.flag F.SEC_FUSE_STATUS.BUSY).onSec fun x => { x with fuse := some (cmd, arg) } := by
  obtain ⟨hconfirm, hstill, harg⟩ := ht
  rw [State.fuseCommand, if_neg (by omega), if_neg (by simp [hb]), if_neg (by simp [hconfirm, hstill, harg])]

end

theorem State.beginReport_alters (s : State) (buffer : Nat) (mgmt : Bool) :
    State.Alters [.sec] [(F.SEC_ATTEST.ADDR, 72, 0), (F.SEC_ATTEST.BUSY, 72, 0), (F.SEC_ATTEST.DONE, 72, 0), (F.SEC_ATTEST.ERROR, 72, 0)]
      s (s.beginReport buffer mgmt) := by
  unfold State.beginReport
  refine State.Alters.frame ?_ (State.onSec_frame _ _) (by decide) (by simp)
  exact (((State.Alters.refl s).put (d' := 72) (by simp) rfl).put (d' := 72) (by simp) rfl).put (d' := 72) (by simp) rfl

theorem State.beginReport_spec (s : State) (buffer : Nat) (mgmt : Bool) : (s.beginReport buffer mgmt).on F.SEC_ATTEST.BUSY = true ∧
    (s.beginReport buffer mgmt).on F.SEC_ATTEST.DONE = false ∧ (s.beginReport buffer mgmt).on F.SEC_ATTEST.ERROR = false ∧
    (s.beginReport buffer mgmt).sec = { s.sec with attest := some (buffer, mgmt) } := by
  simp (disch := decide) [State.beginReport, State.on, State.flag, State.get_put_same, State.get_put_apart]

/-! ### Management (R615) -/

/-- A request from stage 2 on: it acts, and is answered. -/
theorem exec_managed {s t : State} {c : Instr} {code : Nat} {f : State → State} (h : s.Reaches c) (hstage : 2 ≤ s.get F.SEC_START.STAGE)
    (e : exec c s = act c s fun s => s.managed code f) (ht : f s = t) (hf : t.flt.fatal = s.flt.fatal := by rfl) :
    exec c s = .next (t.emit (.mgmt code [])) :=
  exec_eq_next h e ((if_pos hstage).trans (by rw [ht])) hf

theorem exec_managed_before {s : State} {c : Instr} {code : Nat} {f : State → State} (h : s.Reaches c)
    (hstage : s.get F.SEC_START.STAGE < 2) (e : exec c s = act c s fun s => s.managed code f) : exec c s = .next s :=
  exec_eq_next h e (if_neg (by omega))

/-- Before stage 2 no request is answered. -/
theorem exec_managed_early {s : State} {c : Instr} (h : s.Reaches c) (hstage : s.get F.SEC_START.STAGE < 2)
    (hc : c = .mgmtGetStatus ∨ c = .mgmtDrain ∨ c = .mgmtDrainCancel ∨ c = .mgmtRestart ∨ (∃ a, c = .mgmtAttest a) ∨
      ∃ k cmd arg, c = .mgmtFuse k cmd arg) : exec c s = .next s := by
  rcases hc with rfl | rfl | rfl | rfl | ⟨a, rfl⟩ | ⟨k, cmd, arg, rfl⟩
  · exact exec_eq_next h rfl (if_neg (by omega))
  all_goals exact exec_managed_before h hstage rfl

end Sys2Proof.Machine

open Sys2Proof Sys2Proof.Machine

/-- Settles O58: each request by the rule it names, under `State.managed`. -/
theorem managementAnswersAndActs : Obligations.ManagementAnswersAndActs := by
  refine fun s c h => ⟨fun hc hstage => exec_managed_early h hstage hc, fun hstage => ⟨?_, ?_, ?_, ?_, ?_, ?_⟩⟩
  · rintro rfl
    exact exec_eq_next h rfl (if_pos hstage)
  · rintro rfl hm
    obtain ⟨hpower, -, hsource, -, hout, hflt, -⟩ := s.beginDrain_spec (source := 2) (by decide)
    refine ⟨_, exec_managed h hstage rfl (State.removalRequest_of_running 2 hm) (congrArg FltSt.fatal hflt), by simp [hpower],
      by simp [hpower], by simpa using hsource, by simp [hout]⟩
  · rintro rfl hm hl
    obtain ⟨hpower, -, hout, hflt⟩ := State.cancelDrain_spec hm hl
    exact ⟨_, exec_managed h hstage rfl rfl (congrArg FltSt.fatal hflt), by simp [hpower], by simp [hout]⟩
  · rintro rfl hm
    have hrestart := State.restartNow_of_on hm
    refine ⟨fun hs => exec_managed h hstage rfl (hrestart.trans (if_pos hs)) h.2.2.symm, fun hs => ?_⟩
    exact exec_managed h hstage rfl (hrestart.trans (if_neg (by simp [hs])))
  · rintro a rfl
    refine ⟨fun hb => exec_managed h hstage rfl (if_pos hb), fun hb => ?_⟩
    obtain ⟨hbusy, -, -, hsec⟩ := s.beginReport_spec a true
    have heffect : s.attestAsked a = s.beginReport a true := if_neg (by simp [hb])
    exact ⟨_, exec_managed h hstage rfl heffect, by simpa [State.on] using hbusy, by simp [hsec], rfl⟩
  · rintro confirm cmd arg rfl
    refine ⟨fun hno => exec_managed h hstage rfl (if_neg (by simp [hno])), fun hyes hlo hhi hb hconfirm hstill harg => ?_⟩
    have htaken := State.fuseCommand_taken hlo hhi hb ⟨hconfirm, hstill, harg⟩
    refine ⟨_, exec_managed h hstage rfl ((if_pos hyes).trans htaken), ?_, rfl, rfl⟩
    simp (disch := decide) [State.on, State.get_flag_same]

end

/-! # Memory: sound reads and the bytes that writes leave (R49, R263, R267, R279)

A read whose granules hold no stored error succeeds, and touches nothing but the counters and the lines of the Oasis
(`State.Quietly`); and errors never arise on the way (`State.Sounder`), so the next read of the span is sound again. What a write
leaves is `setCells` of its bytes: pieces that follow one another compose by `setCells_append`. -/

section

namespace Sys2Proof.Machine

/-! ### Lists of keys -/

theorem lookupKey_dropKey_same {κ α : Type} [DecidableEq κ] (k : κ) (l : List (κ × α)) : lookupKey k (dropKey k l) = none := by
  induction l with
  | nil => rfl
  | cons p l ih => by_cases h : p.1 = k <;> simp [dropKey, lookupKey, h, ih]

theorem lookupKey_dropKey_ne {κ α : Type} [DecidableEq κ] {k n : κ} (h : k ≠ n) (l : List (κ × α)) :
    lookupKey k (dropKey n l) = lookupKey k l := by
  induction l with
  | nil => rfl
  | cons p l ih =>
    by_cases hn : p.1 = n
    · have hk : p.1 ≠ k := fun e => h (e.symm.trans hn)
      simp [dropKey, lookupKey, hn, ih, Ne.symm h]
    · by_cases hk : p.1 = k <;> simp [dropKey, lookupKey, hn, hk, ih, h]

theorem lookupKey_dropKey_none {κ α : Type} [DecidableEq κ] {k : κ} (n : κ) {l : List (κ × α)} (h : lookupKey k l = none) :
    lookupKey k (dropKey n l) = none := by
  by_cases hk : k = n
  · rw [hk, lookupKey_dropKey_same]
  · rw [lookupKey_dropKey_ne hk, h]

/-! ### Errors never arise -/

/-- From `s` to `t` no stored sector came to hold an error. -/
structure State.Sounder (s t : State) : Prop where
  flips   : ∀ k, lookupKey k s.hbm.flips = none → lookupKey k t.hbm.flips = none
  hostBad : ∀ k, k ∉ s.hbm.hostBad → k ∉ t.hbm.hostBad
  failed  : ∀ k, k ∉ s.oasis.failed → k ∉ t.oasis.failed

theorem State.Sounder.refl (s : State) : s.Sounder s := ⟨fun _ => id, fun _ => id, fun _ => id⟩

theorem State.Sounder.trans {s t u : State} (h : s.Sounder t) (g : t.Sounder u) : s.Sounder u :=
  ⟨fun k hk => g.flips k (h.flips k hk), fun k hk => g.hostBad k (h.hostBad k hk), fun k hk => g.failed k (h.failed k hk)⟩

theorem State.Sounder.soundSpan {s t : State} (h : s.Sounder t) {a n : Nat} (hs : s.soundSpan a n) : t.soundSpan a n :=
  fun k hlo hhi => ⟨h.flips k (hs k hlo hhi).1, h.hostBad k (hs k hlo hhi).2.1, h.failed k (hs k hlo hhi).2.2⟩

/-- An effect with a footprint that adds no error. -/
structure State.Quietly (K : Touch) (s t : State) : Prop where
  frame   : Frame K s t
  sounder : s.Sounder t

/-- What a read that finds no error touches. -/
def soundReadTouch : Touch := ⟨[.fresh, .hbm, .oasis], storeRegs ++ [.HBC_RD_SECTORS], false⟩

/-- What a write that finds no error touches. -/
def soundWriteTouch : Touch := ⟨storeParts, storeRegs ++ [.HBC_RD_SECTORS], false⟩

section
variable {K L : Touch} {s t u : State}

theorem State.Quietly.refl (s : State) : State.Quietly K s s := ⟨.refl s, .refl s⟩

theorem State.Quietly.trans (h : State.Quietly K s t) (g : State.Quietly K t u) : State.Quietly K s u :=
  ⟨h.frame.trans g.frame, h.sounder.trans g.sounder⟩

theorem State.Quietly.step (h : State.Quietly K s t) (g : State.Quietly L t u) (hs : L.sub K = true := by decide +kernel) :
    State.Quietly K s u := ⟨h.frame.step g.frame hs, h.sounder.trans g.sounder⟩

/-- An effect that leaves the holders' marks alone. -/
theorem State.quietly_of_frame (g : Frame K s t) (hp : Part.hbm ∉ K.parts ∧ Part.oasis ∉ K.parts := by decide) :
    State.Quietly K s t := by
  have hh : t.hbm = s.hbm := g.parts .hbm hp.1
  have ho : t.oasis = s.oasis := g.parts .oasis hp.2
  exact ⟨g, fun k h => by rwa [hh], fun k h => by rwa [hh], fun k h => by rwa [ho]⟩

theorem State.Quietly.ite {c : Prop} [Decidable c] (h : State.Quietly K s t) (g : State.Quietly K s u) :
    State.Quietly K s (if c then t else u) := by split <;> assumption

theorem State.Quietly.mem (h : State.Quietly K s t) (hp : Part.mem ∉ K.parts := by decide) : t.mem = s.mem :=
  h.frame.parts .mem hp

end

theorem State.bump_quietly {s : State} {f : Fld} {n d i : Nat} {r : Reg} (h : f.reg = r) :
    State.Quietly ⟨[], [r], false⟩ s (s.bump f n d i) :=
  quietly_of_frame (s.bump_frame f n d i (.inr (h ▸ List.mem_singleton_self _))) (by simp)

theorem State.onOasis_quietly (s : State) {f : OasisSt → OasisSt} (hf : ∀ k, k ∉ s.oasis.failed → k ∉ (f s.oasis).failed) :
    State.Quietly ⟨[.oasis], [], false⟩ s (s.onOasis f) := ⟨s.onOasis_frame f, fun _ => id, fun _ => id, hf⟩

theorem State.onLine_quietly (s : State) (g : Nat) (f : OasisLine → OasisLine) :
    State.Quietly ⟨[.oasis], [], false⟩ s (s.onLine g f) := s.onOasis_quietly fun _ => id

theorem State.useLine_quietly (s : State) (g : Nat) : State.Quietly ⟨[.oasis], [], false⟩ s (s.useLine g) := by
  unfold State.useLine
  split
  · exact .refl s
  · exact s.onOasis_quietly fun _ => id

theorem State.dropFlip_quietly (s : State) (n : Nat) :
    State.Quietly ⟨[.hbm], [], false⟩ s (s.onHbm fun h => { h with flips := dropKey n h.flips }) :=
  ⟨s.onHbm_frame _, fun _ => lookupKey_dropKey_none n, fun _ => id, fun _ => id⟩

theorem State.controllerWrites_sounder (s : State) (sectors : List Nat) : s.Sounder (s.controllerWrites sectors) := by
  unfold State.controllerWrites
  induction sectors generalizing s with
  | nil => exact .refl s
  | cons n sectors ih =>
    exact ((s.dropFlip_quietly n).sounder.trans (State.bump_quietly rfl).sounder).trans (ih _)

theorem State.controllerWrites_quietly (s : State) (sectors : List Nat) :
    State.Quietly ⟨[.hbm], [.HBC_WR_SECTORS], false⟩ s (s.controllerWrites sectors) :=
  ⟨s.controllerWrites_frame sectors, s.controllerWrites_sounder sectors⟩

theorem State.evict_sounder (s : State) (l : OasisLine) : s.Sounder (s.evict l) :=
  ((s.onOasis_quietly fun _ => id).sounder.trans (State.controllerWrites_sounder _ _)).trans (State.bump_quietly rfl).sounder

theorem State.makeRoom_sounder {s t : State} {g w : Nat} (h : s.makeRoom g = some (t, w)) : s.Sounder t := by
  unfold State.makeRoom at h
  extract_lets slice set ways here cands most at h
  split at h
  · cases h
    exact .refl s
  · split at h
    · cases h
    · cases h
      exact (State.quietly_of_frame (s.took_frame 1)).sounder.trans (State.evict_sounder _ _)

theorem State.allocate_sounder (s : State) (g : Nat) (valid dirty : List Nat) : s.Sounder (s.allocate g valid dirty) := by
  unfold State.allocate
  split
  · exact State.controllerWrites_sounder _ _
  · next hroom => exact (State.makeRoom_sounder hroom).trans (State.onOasis_quietly _ fun _ => id).sounder

theorem State.allocate_quietly (s : State) (g : Nat) (valid dirty : List Nat) :
    State.Quietly ⟨[.fresh, .hbm, .oasis], [.HBC_WR_SECTORS, .OAS_WRITEBACKS], false⟩ s (s.allocate g valid dirty) :=
  ⟨s.allocate_frame g valid dirty, s.allocate_sounder g valid dirty⟩

theorem State.countAccess_quietly (s : State) (g : Nat) (hit : Bool) :
    State.Quietly ⟨[], [.OAS_HITS, .OAS_MISSES], false⟩ s (s.countAccess g hit) := quietly_of_frame (s.countAccess_frame g hit)

theorem State.oasisWrite_quietly (s : State) (g : Nat) (secs : List Nat) :
    State.Quietly ⟨[.fresh, .hbm, .oasis], storeRegs, false⟩ s (s.oasisWrite g secs) := by
  refine ⟨s.oasisWrite_frame g secs, ?_⟩
  unfold State.oasisWrite
  split
  · exact ((s.countAccess_quietly g _).sounder.trans (State.useLine_quietly _ g).sounder).trans (State.onLine_quietly _ g _).sounder
  · exact (s.countAccess_quietly g _).sounder.trans (State.allocate_sounder _ _ _ _)

/-! ### Sound reads -/

theorem State.readHbm_sound {s : State} {n : Nat} (h : lookupKey n s.hbm.flips = none) (write : Bool) :
    s.readHbm n write = (s.bump F.HBC_RD_SECTORS.VALUE 1 (s.stackDie (n * 64)), true) := by
  have hbumped : lookupKey n (s.bump F.HBC_RD_SECTORS.VALUE 1 (s.stackDie (n * 64))).hbm.flips = none := h
  rw [State.readHbm, State.checkHbm, hbumped]

theorem State.readHbmAll_sound {s : State} (sectors : List Nat) (h : ∀ n ∈ sectors, lookupKey n s.hbm.flips = none) (write : Bool) :
    (s.readHbmAll sectors write).2 = [] ∧ State.Quietly ⟨[], [.HBC_RD_SECTORS], false⟩ s (s.readHbmAll sectors write).1 := by
  unfold State.readHbmAll
  suffices hfold : ∀ (sectors : List Nat) (t : State), (∀ n ∈ sectors, lookupKey n t.hbm.flips = none) →
      State.Quietly ⟨[], [.HBC_RD_SECTORS], false⟩ s t →
      let r := sectors.foldl (fun (p : State × List Nat) n =>
        let (s, ok) := p.1.readHbm n write
        (s, if ok then p.2 else p.2 ++ [n])) (t, [])
      r.2 = [] ∧ State.Quietly ⟨[], [.HBC_RD_SECTORS], false⟩ s r.1 from hfold sectors s h (.refl s)
  intro sectors
  induction sectors with
  | nil => exact fun t _ hq => ⟨rfl, hq⟩
  | cons n sectors ih =>
    intro t ht hq
    simp only [List.foldl, State.readHbm_sound (ht n (List.mem_cons_self ..)), if_true]
    exact ih _ (fun k hk => ht k (List.mem_cons_of_mem _ hk)) (hq.step (State.bump_quietly rfl))

/-- Every sector of a line is valid. -/
def OasisLine.Full (l : OasisLine) : Prop := ∀ i, i < 4 → i ∈ l.valid

theorem State.oasisLine_onLine (s : State) (g : Nat) {f : OasisLine → OasisLine} (hf : ∀ l, (f l).granule = l.granule) :
    (s.onLine g f).oasisLine g = (s.oasisLine g).map f := by
  simp only [State.oasisLine, State.onLine, State.onOasis_oasis]
  induction s.oasis.lines with
  | nil => rfl
  | cons l lines ih => by_cases h : l.granule = g <;> simp [updateFirst, h, hf, ih]

theorem mem_insertNat {x y : Nat} {l : List Nat} : x ∈ insertNat y l ↔ x = y ∨ x ∈ l := by
  induction l with
  | nil => simp [insertNat]
  | cons z l ih =>
    simp only [insertNat]
    split
    · simp
    · split
      · next h => simp [h]
      · simp [ih, or_left_comm]

theorem mem_foldl_insertNat {x : Nat} {xs l : List Nat} : x ∈ xs.foldl (fun v i => insertNat i v) l ↔ x ∈ xs ∨ x ∈ l := by
  induction xs generalizing l with
  | nil => simp
  | cons y xs ih => simp [ih, mem_insertNat, or_assoc, or_left_comm]

/-- The Oasis fetches what a line lacks (R279): afterwards the granule's line, if it has one, is full. -/
theorem State.fetchLine_sound {s : State} {g : Nat} (h : ∀ i, i < 4 → lookupKey (g * 4 + i) s.hbm.flips = none) (write : Bool) :
    State.Quietly soundReadTouch s (s.fetchLine g write) ∧ ∀ l, (s.fetchLine g write).oasisLine g = some l → l.Full := by
  unfold State.fetchLine
  split
  · next line hline =>
    extract_lets need
    have hneed : ∀ i ∈ need, i < 4 := fun i hi => List.mem_range.1 (List.mem_filter.1 hi).1
    obtain ⟨hnone, hquiet⟩ := State.readHbmAll_sound (need.map (g * 4 + ·)) (s := s) (by
      intro n hn
      obtain ⟨i, hi, rfl⟩ := List.mem_map.1 hn
      exact h i (hneed i hi)) write
    split
    next t bad hread =>
    rw [hread] at hnone hquiet
    simp only at hnone hquiet
    subst hnone
    refine ⟨((State.Quietly.refl s).step hquiet).step (State.onLine_quietly _ _ _), fun l hl => ?_⟩
    have hsame : t.oasisLine g = some line := by
      rw [← hline, State.oasisLine, hquiet.frame.parts .oasis (by decide), State.oasisLine]
    have hlines := State.oasisLine_onLine t g (f := fun l => { l with valid :=
      (need.filter fun i => !([] : List Nat).contains (g * 4 + i)).foldl (fun v i => insertNat i v) l.valid }) fun _ => rfl
    rw [hsame] at hlines
    obtain rfl := Option.some.inj (hl.symm.trans hlines)
    intro i hi
    rw [mem_foldl_insertNat]
    by_cases hv : i ∈ line.valid
    · exact .inr hv
    · exact .inl (by simp [need, hi, hv])
  · next hline =>
    obtain ⟨hnone, hquiet⟩ := State.readHbmAll_sound ((List.range 4).map (g * 4 + ·)) (s := s) (by
      intro n hn
      obtain ⟨i, hi, rfl⟩ := List.mem_map.1 hn
      exact h i (List.mem_range.1 hi)) write
    split
    next t bad hread =>
    rw [hread] at hnone hquiet
    simp only at hnone hquiet
    subst hnone
    refine ⟨((State.Quietly.refl s).step hquiet).step (State.allocate_quietly _ _ _ _), fun l hl => ?_⟩
    have hsame : t.oasisLine g = none := by
      rw [← hline, State.oasisLine, hquiet.frame.parts .oasis (by decide), State.oasisLine]
    unfold State.allocate at hl
    split at hl
    · have hlines : (t.controllerWrites (([] : List Nat).map (g * 4 + ·))).oasisLine g = t.oasisLine g := rfl
      rw [hlines, hsame] at hl
      cases hl
    · simp only [State.oasisLine, State.onOasis_oasis, List.find?_cons, beq_self_eq_true, Option.some.injEq] at hl
      subst hl
      intro i hi
      simpa using hi

theorem State.countAccess_oasis (s : State) (g : Nat) (hit : Bool) : (s.countAccess g hit).oasis = s.oasis :=
  (s.countAccess_frame g hit).parts .oasis (by decide)

theorem State.oasisLine_useLine (s : State) (g : Nat) : (s.useLine g).oasisLine g = s.oasisLine g := by
  unfold State.useLine
  split
  · rfl
  · next l hl =>
    have hg : (l.granule == g) = true := by
      have := List.find?_some hl
      simpa using this
    unfold State.oasisLine at hl
    simp [State.oasisLine, hg, hl]

/-- A read of sound sectors through the Oasis returns data. -/
theorem State.readCached_sound {s : State} {g : Nat} (h : ∀ i, i < 4 → lookupKey (g * 4 + i) s.hbm.flips = none)
    (hf : ∀ i, i < 4 → g * 4 + i ∉ s.oasis.failed) {secs : List Nat} (hsecs : ∀ i ∈ secs, i < 4) (write : Bool) :
    (s.readCached g secs write).2 = true ∧ State.Quietly soundReadTouch s (s.readCached g secs write).1 := by
  unfold State.readCached
  extract_lets validIn hit counted fetched failed bypass
  have hcounted : State.Quietly soundReadTouch s counted := (State.Quietly.refl s).step (s.countAccess_quietly g hit)
  have hline : counted.oasisLine g = s.oasisLine g := by
    rw [State.oasisLine, State.countAccess_oasis, State.oasisLine]
  have hfetch := State.fetchLine_sound (s := counted) (fun i hi => hcounted.sounder.flips _ (h i hi)) write
  have hfetched : State.Quietly soundReadTouch s fetched ∧
      ∀ l, fetched.oasisLine g = some l → secs.all (fun i => l.valid.contains i) = true := by
    simp only [fetched]
    split
    · next hhit =>
      refine ⟨hcounted.step (State.useLine_quietly _ _), fun l hl => ?_⟩
      rw [State.oasisLine_useLine, hline] at hl
      simpa [hit, validIn, hl] using hhit
    · refine ⟨hcounted.trans hfetch.1, fun l hl => ?_⟩
      simpa using fun i hi => hfetch.2 l hl i (hsecs i hi)
  obtain ⟨hquiet, hvalid⟩ := hfetched
  have hfailed : failed = none := by
    simp only [failed, List.find?_eq_none, List.contains_iff_mem]
    exact fun i hi => hquiet.sounder.failed _ (hf i (hsecs i hi))
  by_cases hb : bypass = true
  · obtain ⟨hnone, hread⟩ := State.readHbmAll_sound (secs.map (g * 4 + ·)) (s := fetched) (by
      intro n hn
      obtain ⟨i, hi, rfl⟩ := List.mem_map.1 hn
      exact hquiet.sounder.flips _ (h i (hsecs i hi))) write
    simp only [hb, if_true, hnone, List.isEmpty_nil, true_and]
    exact hquiet.step hread
  · simp only [hb, Bool.false_eq_true, if_false, hfailed]
    refine ⟨?_, hquiet⟩
    cases hl : fetched.oasisLine g with
    | none => simp [bypass, hl] at hb
    | some l => simpa [validIn, hl] using hvalid l hl

theorem mem_sectorsOf {a n k : Nat} : k ∈ sectorsOf a n ↔ 0 < n ∧ a / 64 ≤ k ∧ k ≤ (a + n - 1) / 64 := by
  unfold sectorsOf
  split
  · next h => simp [h]
  · have : a / 64 ≤ (a + n - 1) / 64 := Nat.div_le_div_right (by omega)
    simp only [List.mem_map, List.mem_range]
    constructor
    · rintro ⟨i, hi, rfl⟩
      omega
    · rintro ⟨h0, h1, h2⟩
      exact ⟨k - a / 64, by omega, by omega⟩

/-- A read within one granule whose sectors hold no error returns data, and is quiet (R263, R279). -/
theorem State.readGranule_sound {s : State} {a n : Nat} (h : s.soundSpan a n) (hn : 0 < n) (hone : a % 256 + n ≤ 256) (write : Bool) :
    (s.readGranule a n write).2 = true ∧ State.Quietly soundReadTouch s (s.readGranule a n write).1 := by
  have hspan : ∀ k, a / 256 * 4 ≤ k → k < a / 256 * 4 + 4 →
      lookupKey k s.hbm.flips = none ∧ k ∉ s.hbm.hostBad ∧ k ∉ s.oasis.failed := fun k hlo hhi => h k hlo (by omega)
  have hsec : ∀ k ∈ sectorsOf a n, lookupKey k s.hbm.flips = none ∧ k ∉ s.hbm.hostBad ∧ k ∉ s.oasis.failed := fun k hk => by
    obtain ⟨-, hlo, hhi⟩ := mem_sectorsOf.1 hk
    exact hspan k (by omega) (by omega)
  unfold State.readGranule
  extract_lets secs
  split
  · split
    · exact State.readCached_sound (fun i hi => (hspan _ (by omega) (by omega)).1) (fun i hi => (hspan _ (by omega) (by omega)).2.2)
        (fun i hi => by obtain ⟨k, -, rfl⟩ := List.mem_map.1 hi; exact Nat.mod_lt _ (by decide)) write
    · obtain ⟨hnone, hquiet⟩ := State.readHbmAll_sound (s := s) secs (fun k hk => (hsec k hk).1) write
      simp only [hnone, List.isEmpty_nil, true_and]
      exact (State.Quietly.refl s).step hquiet
  · have hgood : secs.find? (fun k => s.hbm.hostBad.contains k) = none := by
      simpa [List.find?_eq_none] using fun k hk => (hsec k hk).2.1
    simp only [hgood, true_and]
    exact .refl s
  · have hgood : secs.find? (fun k => s.oasis.failed.contains k) = none := by
      simpa [List.find?_eq_none] using fun k hk => (hsec k hk).2.2
    simp only [hgood, true_and]
    exact .refl s
  · refine ⟨?_, .refl s⟩
    simpa using fun k hk => (hsec k hk).2.2

end Sys2Proof.Machine

end

section

namespace Sys2Proof.Machine

/-! ### Writes within a granule -/

theorem setCells_append (a : Nat) (x y : Bytes) (m : List Host.Cell) :
    setCells a (x ++ y) m = setCells (a + x.length) y (setCells a x m) := by
  induction x generalizing a m with
  | nil => rfl
  | cons v x ih =>
    simp only [List.cons_append, setCells, ih, List.length_cons]
    rw [Nat.add_assoc, Nat.add_comm 1]

theorem State.mendSectors_sounder (s : State) (secs : List Nat) : s.Sounder (s.mendSectors secs) :=
  ⟨fun _ => id, fun _ hk hc => hk (List.mem_filter.1 hc).1, fun _ hk hc => hk (List.mem_filter.1 hc).1⟩

theorem State.store_quietly (s : State) (a : Nat) (bs : Bytes) : State.Quietly ⟨[.mem], [], false⟩ s (s.store a bs) :=
  quietly_of_frame (s.store_frame a bs)

theorem State.mem_writeGranule (s : State) (a : Nat) (data : Bytes) : (s.writeGranule a data).mem = setCells a data s.mem := by
  unfold State.writeGranule
  extract_lets secs stored
  split
  · exact (State.oasisWrite_quietly _ _ _).mem
  · split
    · exact (State.controllerWrites_quietly _ _).mem
    · rfl

theorem State.writeGranule_quietly (s : State) (a : Nat) (data : Bytes) :
    State.Quietly ⟨storeParts, storeRegs, false⟩ s (s.writeGranule a data) := by
  refine ⟨s.writeGranule_frame a data, ?_⟩
  unfold State.writeGranule
  extract_lets secs stored
  have hstored : s.Sounder stored := (s.mendSectors_sounder secs).trans (State.store_quietly _ a data).sounder
  split
  · exact hstored.trans (State.oasisWrite_quietly _ _ _).sounder
  · split
    · exact hstored.trans (State.controllerWrites_sounder _ _)
    · exact hstored

theorem State.lookupKey_controllerWrites (s : State) {secs : List Nat} {n : Nat} (hn : n ∈ secs) :
    lookupKey n (s.controllerWrites secs).hbm.flips = none := by
  induction secs generalizing s with
  | nil => simp at hn
  | cons k secs ih =>
    rcases List.mem_cons.1 hn with rfl | hn
    · exact (State.controllerWrites_sounder _ secs).flips n (lookupKey_dropKey_same n s.hbm.flips)
    · exact ih _ hn

/-- The sectors of a whole-sector write are good again (R267). -/
theorem State.writeGranule_mends (s : State) (a : Nat) (data : Bytes) {n : Nat} (hn : n ∈ sectorsOf a data.length) :
    n ∉ (s.writeGranule a data).oasis.failed ∧ n ∉ (s.writeGranule a data).hbm.hostBad ∧
      (region a = .hbm → s.cached a = false → lookupKey n (s.writeGranule a data).hbm.flips = none) := by
  unfold State.writeGranule
  extract_lets secs stored
  have hfailed : n ∉ stored.oasis.failed := fun h => by simpa [secs, hn] using (List.mem_filter.1 h).2
  have hbad : n ∉ stored.hbm.hostBad := fun h => by simpa [secs, hn] using (List.mem_filter.1 h).2
  have hcached : stored.cached a = s.cached a := rfl
  rw [hcached]
  split
  · next hc =>
    have hquiet := stored.oasisWrite_quietly (a / 256) (secs.map (· % 4))
    exact ⟨hquiet.sounder.failed n hfailed, hquiet.sounder.hostBad n hbad, fun _ h => absurd hc (by simp [h])⟩
  · split
    · have hsound := stored.controllerWrites_sounder secs
      exact ⟨hsound.failed n hfailed, hsound.hostBad n hbad, fun _ _ => State.lookupKey_controllerWrites _ hn⟩
    · next hr => exact ⟨hfailed, hbad, fun h => absurd h hr⟩

/-! ### Masked writes -/

theorem length_mergeBytes {old data : Bytes} {mask : List Bool} (hd : data.length = old.length) (hm : mask.length = old.length) :
    (mergeBytes old data mask).length = old.length := by
  induction old generalizing data mask with
  | nil => cases data <;> cases mask <;> simp_all [mergeBytes]
  | cons o old ih =>
    obtain ⟨d, data, rfl⟩ := List.exists_cons_of_length_eq_add_one hd
    obtain ⟨m, mask, rfl⟩ := List.exists_cons_of_length_eq_add_one hm
    simp only [List.length_cons, Nat.add_right_cancel_iff] at hd hm
    simp [mergeBytes, ih hd hm]

theorem getElem_mergeBytes {old data : Bytes} {mask : List Bool} (hd : data.length = old.length) (hm : mask.length = old.length)
    {i : Nat} (hi : i < old.length) (h : i < (mergeBytes old data mask).length) :
    (mergeBytes old data mask)[i] = if mask[i] then data[i] else old[i] := by
  induction old generalizing data mask i with
  | nil => simp at hi
  | cons o old ih =>
    obtain ⟨d, data, rfl⟩ := List.exists_cons_of_length_eq_add_one hd
    obtain ⟨m, mask, rfl⟩ := List.exists_cons_of_length_eq_add_one hm
    simp only [List.length_cons, Nat.add_right_cancel_iff] at hd hm
    cases i with
    | zero => rfl
    | succ i => simpa [mergeBytes] using ih hd hm (by simpa using hi) _

theorem mergeBytes_true {old data : Bytes} (hd : data.length = old.length) :
    mergeBytes old data (List.replicate data.length true) = data := by
  have hm : (List.replicate data.length true).length = old.length := by simp [hd]
  refine List.ext_getElem (by rw [length_mergeBytes hd hm, hd]) fun i h1 h2 => ?_
  rw [getElem_mergeBytes hd hm (by omega)]
  simp

/-- The piece of a merge is the merge of the pieces. -/
theorem mergeBytes_piece {old data : Bytes} {mask : List Bool} (hd : data.length = old.length) (hm : mask.length = old.length)
    (i k : Nat) : mergeBytes ((old.drop i).take k) ((data.drop i).take k) ((mask.drop i).take k) =
      ((mergeBytes old data mask).drop i).take k := by
  have hlen := length_mergeBytes hd hm
  have hd' : ((data.drop i).take k).length = ((old.drop i).take k).length := by simp [hd]
  have hm' : ((mask.drop i).take k).length = ((old.drop i).take k).length := by simp [hm]
  refine List.ext_getElem (by rw [length_mergeBytes hd' hm']; simp [hlen]) fun j h1 h2 => ?_
  have hj : j < ((old.drop i).take k).length := by rwa [length_mergeBytes hd' hm'] at h1
  have hi : i + j < old.length := by simp at hj; omega
  rw [getElem_mergeBytes hd' hm' hj]
  simp only [List.getElem_take, List.getElem_drop]
  rw [getElem_mergeBytes hd hm hi]

/-- A write of sound sectors under a mask is performed (R267). -/
theorem State.writeMasked_sound {s : State} {a : Nat} {data : Bytes} (h : s.soundSpan a data.length) (hn : 0 < data.length)
    (hone : a % 256 + data.length ≤ 256) (mask : List Bool) :
    (s.writeMasked a data mask).2 = true ∧ State.Quietly soundWriteTouch s (s.writeMasked a data mask).1 ∧
      (s.writeMasked a data mask).1.mem = setCells a (mergeBytes (s.bytes a data.length) data mask) s.mem := by
  obtain ⟨hok, hread⟩ := State.readGranule_sound h hn hone true
  unfold State.writeMasked
  split
  next t ok hr =>
  rw [hr] at hok hread
  simp only at hok hread
  subst hok
  have hmem := hread.mem
  have hbytes : t.bytes a data.length = s.bytes a data.length := State.bytes_congr hmem _ _
  simp only [Bool.not_true, Bool.false_eq_true, if_false, hbytes]
  have hstored : State.Quietly soundWriteTouch s (t.store a (mergeBytes (s.bytes a data.length) data mask)) :=
    ((State.Quietly.refl s).step hread).step (State.store_quietly _ _ _)
  have hset : (t.store a (mergeBytes (s.bytes a data.length) data mask)).mem =
      setCells a (mergeBytes (s.bytes a data.length) data mask) s.mem := by rw [State.store_mem, hmem]
  generalize t.store a (mergeBytes (s.bytes a data.length) data mask) = stored at hstored hset ⊢
  split
  · split
    · exact ⟨rfl, hstored.step (State.onLine_quietly _ _ _), hset⟩
    · exact ⟨rfl, hstored.step (State.controllerWrites_quietly _ _), (State.controllerWrites_quietly _ _).mem.trans hset⟩
  · split
    · exact ⟨rfl, hstored.step (State.controllerWrites_quietly _ _), (State.controllerWrites_quietly _ _).mem.trans hset⟩
    · exact ⟨rfl, hstored, hset⟩

theorem State.writePart_sound {s : State} {a : Nat} {data : Bytes} (h : s.soundSpan a data.length) (hn : 0 < data.length)
    (hone : a % 256 + data.length ≤ 256) :
    (s.writePart a data).2 = true ∧ State.Quietly soundWriteTouch s (s.writePart a data).1 ∧
      (s.writePart a data).1.mem = setCells a data s.mem := by
  obtain ⟨hok, hquiet, hmem⟩ := State.writeMasked_sound h hn hone (List.replicate data.length true)
  exact ⟨hok, hquiet, hmem.trans (by rw [mergeBytes_true (by simp)])⟩

/-! ### The pieces of a span -/

/-- The pieces lie one after the other from `a`, `n` bytes in all, each of its kind. -/
def Tiles (P : Nat → Nat → Prop) : List (Nat × Nat) → Nat → Nat → Prop
  | [], _, n => n = 0
  | p :: ps, a, n => p.1 = a ∧ 0 < p.2 ∧ p.2 ≤ n ∧ P p.1 p.2 ∧ Tiles P ps (a + p.2) (n - p.2)

/-- What holds of the first `i` bytes of a span, piece by piece, holds of all. -/
theorem Tiles.foldl {β : Type} {P : Nat → Nat → Prop} {f : β → Nat × Nat → β} {I : β → Nat → Prop} {a n : Nat}
    (hf : ∀ b i k, I b i → 0 < k → i + k ≤ n → P (a + i) k → I (f b (a + i, k)) (i + k)) :
    ∀ {ps : List (Nat × Nat)} {b : β} {i : Nat}, Tiles P ps (a + i) (n - i) → i ≤ n → I b i → I (ps.foldl f b) n
  | [], b, i, ht, hi, hb => by
    have : i = n := by have h : n - i = 0 := ht; omega
    exact this ▸ hb
  | (c, k) :: ps, b, i, ht, hi, hb => by
    obtain ⟨rfl, hk, hle, hp, ht⟩ := ht
    simp only at hk hle hp ht
    have hrest : Tiles P ps (a + (i + k)) (n - (i + k)) := by rwa [← Nat.add_assoc, Nat.sub_add_eq]
    exact Tiles.foldl hf (b := f b (a + i, k)) hrest (by omega) (hf b i k hb hk (by omega) hp)

theorem Tiles.mono {P Q : Nat → Nat → Prop} (h : ∀ a n, P a n → Q a n) :
    ∀ {ps : List (Nat × Nat)} {a n : Nat}, Tiles P ps a n → Tiles Q ps a n
  | [], _, _, ht => ht
  | _ :: _, _, _, ⟨ha, h0, hn, hp, ht⟩ => ⟨ha, h0, hn, h _ _ hp, ht.mono h⟩

theorem Tiles.append {P : Nat → Nat → Prop} {qs : List (Nat × Nat)} {m : Nat} :
    ∀ {ps : List (Nat × Nat)} {a n : Nat}, Tiles P ps a n → Tiles P qs (a + n) m → Tiles P (ps ++ qs) a (n + m)
  | [], a, n, ht, hq => by
    have hn : n = 0 := ht
    subst hn
    simpa using hq
  | p :: ps, a, n, ⟨ha, h0, hn, hp, ht⟩, hq => by
    refine ⟨ha, h0, by omega, hp, ?_⟩
    rw [Nat.sub_add_comm hn]
    exact ht.append (by rwa [show a + p.2 + (n - p.2) = a + n by omega])

/-- One piece, where it is not empty. -/
theorem Tiles.filter_one {P : Nat → Nat → Prop} {a n : Nat} (h : 0 < n → P a n) : Tiles P ([(a, n)].filter fun q => q.2 != 0) a n := by
  by_cases hn : n = 0
  · simpa [hn] using show Tiles P [] a 0 from rfl
  · simpa [hn] using show Tiles P [(a, n)] a n from ⟨rfl, by omega, le_rfl, h (by omega), by simp [Tiles]⟩

/-- A span cut in three, of which the empty pieces are left out. -/
theorem Tiles.three {P : Nat → Nat → Prop} {a n x y z : Nat} (hn : n = x + (y + z))
    (h : ∀ i k, 0 < k → i + k ≤ n → P (a + i) k) :
    Tiles P ([(a, x), (a + x, y), (a + x + y, z)].filter fun q => q.2 != 0) a n := by
  subst hn
  rw [show ([(a, x), (a + x, y), (a + x + y, z)] : List (Nat × Nat)) = [(a, x)] ++ ([(a + x, y)] ++ [(a + x + y, z)]) from rfl,
    List.filter_append, List.filter_append]
  refine (Tiles.filter_one fun hx => h 0 x hx (by omega)).append ((Tiles.filter_one fun hy => h x y hy (by omega)).append
    (Tiles.filter_one fun hz => ?_))
  rw [Nat.add_assoc]
  exact h (x + y) z hz (by omega)

/-- The accesses of a span lie in one granule each (R49). -/
theorem split256_tiles (a n : Nat) : Tiles (fun b k => b % 256 + k ≤ 256) (split256 a n) a n := by
  unfold split256
  suffices h : ∀ f a n, n = 0 ∨ n + a % 256 ≤ 256 * f → Tiles (fun b k => b % 256 + k ≤ 256) (splitFuel f a n) a n from
    h _ _ _ (.inr (by omega))
  intro f
  induction f with
  | zero => intro a n h; exact show n = 0 by omega
  | succ f ih =>
    intro a n h
    rw [splitFuel]
    split
    · assumption
    · refine ⟨rfl, by simp only; omega, by simp only; omega, by simp only; omega, ih _ _ ?_⟩
      by_cases hn : n ≤ 256 - a % 256
      · exact .inl (by omega)
      · have haligned : (a + (256 - a % 256)) % 256 = 0 := by omega
        rw [min_eq_right (by omega), haligned]
        omega

/-- The pieces of a write: whole sectors together, and the partial sectors at the ends (R267). -/
theorem writePieces_tiles (a n : Nat) : Tiles (fun b k => b % 256 + k ≤ 256) (writePieces a n) a n := by
  unfold writePieces
  have hsplit := split256_tiles a n
  revert hsplit
  generalize split256 a n = ps
  induction ps generalizing a n with
  | nil => exact id
  | cons p ps ih =>
    rintro ⟨hp, h0, hle, hone, ht⟩
    simp only [List.flatMap_cons]
    rw [show n = p.2 + (n - p.2) by omega]
    refine Tiles.append ?_ (by simpa using ih _ _ ht)
    subst hp
    have hhead : (if p.1 % 64 = 0 then 0 else min p.2 (64 - p.1 % 64)) ≤ p.2 := by split <;> omega
    generalize (if p.1 % 64 = 0 then 0 else min p.2 (64 - p.1 % 64)) = head at hhead
    have hbody : head + (p.2 - head) / 64 * 64 ≤ p.2 := by omega
    generalize (p.2 - head) / 64 * 64 = body at hbody
    have hcut : p.2 = head + (body + (p.2 - head - body)) := by omega
    exact Tiles.three hcut fun i k hk hle => by omega

/-! ### Spans -/

theorem State.soundSpan.piece {s : State} {a n : Nat} (h : s.soundSpan a n) {i k : Nat} (hk : i + k ≤ n) : s.soundSpan (a + i) k :=
  fun j hlo hhi => h j (by omega) (by omega)

/-- A read of a span whose granules hold no error returns data (R49). -/
theorem State.readSpan_sound {s : State} {a n : Nat} (h : s.soundSpan a n) :
    (s.readSpan a n).2 = true ∧ State.Quietly soundReadTouch s (s.readSpan a n).1 := by
  unfold State.readSpan
  refine Tiles.foldl (I := fun (p : State × Bool) _ => p.2 = true ∧ State.Quietly soundReadTouch s p.1) (a := a)
    (fun p i k hp hk hle hone => ?_) (b := (s, true)) (i := 0) (split256_tiles a n) (Nat.zero_le n) ⟨rfl, .refl s⟩
  obtain ⟨hok, hquiet⟩ := hp
  obtain ⟨hread, hmore⟩ := State.readGranule_sound ((hquiet.sounder.soundSpan h).piece hle) hk hone false
  simp only [hok, hread, Bool.and_self, true_and]
  exact hquiet.trans hmore

/-- The bytes that a piece adds to those before it. -/
theorem setCells_piece {a : Nat} {data : Bytes} {m m' : List Host.Cell} {i k : Nat} (hi : i + k ≤ data.length)
    (hm : m' = setCells a (data.take i) m) : setCells (a + i) ((data.drop i).take k) m' = setCells a (data.take (i + k)) m := by
  rw [List.take_add, setCells_append, hm, List.length_take, min_eq_left (by omega)]

/-- A write of whole sectors to backed storage leaves its bytes (R49, R267). -/
theorem State.mem_writeSectors {s : State} {a : Nat} {data : Bytes} (h : s.backedSpan a data.length = true) :
    (s.writeSectors a data).mem = setCells a data s.mem := by
  unfold State.writeSectors
  rw [if_pos h]
  have hfold := Tiles.foldl (I := fun (t : State) i => t.mem = setCells a (data.take i) s.mem) (a := a) (n := data.length)
    (f := fun t p => t.writeGranule p.1 ((data.drop (p.1 - a)).take p.2)) (fun t i k ht hk hle hone => ?_)
    (b := s) (i := 0) (split256_tiles a data.length) (Nat.zero_le _) (show s.mem = _ by simp [setCells])
  · simpa using hfold
  · rw [State.mem_writeGranule, Nat.add_sub_cancel_left, setCells_piece hle ht]

theorem State.writeSectors_eq_self {s : State} {a : Nat} {data : Bytes} (h : s.backedSpan a data.length = false) :
    s.writeSectors a data = s := if_neg (by simp [h])

theorem State.writeSectors_quietly (s : State) (a : Nat) (data : Bytes) :
    State.Quietly ⟨storeParts, storeRegs, false⟩ s (s.writeSectors a data) := by
  refine ⟨s.writeSectors_frame a data, ?_⟩
  unfold State.writeSectors
  split
  · generalize split256 a data.length = ps
    suffices hfold : ∀ (ps : List (Nat × Nat)) (t : State), s.Sounder t →
        s.Sounder (ps.foldl (fun s p => s.writeGranule p.1 ((data.drop (p.1 - a)).take p.2)) t) from hfold ps s (.refl s)
    intro ps
    induction ps with
    | nil => exact fun _ => id
    | cons p ps ih => exact fun t ht => ih _ (ht.trans (State.writeGranule_quietly _ _ _).sounder)
  · exact .refl s

/-- A write of a sound span is performed, and leaves its bytes (R49, R267). -/
theorem State.writeSpan_sound {s : State} {a : Nat} {data : Bytes} (h : s.soundSpan a data.length) :
    (s.writeSpan a data).2 = true ∧ State.Quietly soundWriteTouch s (s.writeSpan a data).1 ∧
      (s.writeSpan a data).1.mem = setCells a data s.mem := by
  unfold State.writeSpan
  have hfold := Tiles.foldl (a := a) (n := data.length)
    (I := fun (p : State × Bool) i => p.2 = true ∧ State.Quietly soundWriteTouch s p.1 ∧ p.1.mem = setCells a (data.take i) s.mem)
    (f := fun (p : State × Bool) q =>
      let d := (data.drop (q.1 - a)).take q.2
      if q.1 % 64 = 0 ∧ q.2 % 64 = 0 then (p.1.writeGranule q.1 d, p.2)
      else let (s, ok) := p.1.writePart q.1 d; (s, p.2 && ok)) (fun p i k hp hk hle hone => ?_)
    (b := (s, true)) (i := 0) (writePieces_tiles a data.length) (Nat.zero_le _) ⟨rfl, .refl s, by simp [setCells]⟩
  · simpa using hfold
  · obtain ⟨hok, hquiet, hmem⟩ := hp
    have hlen : ((data.drop i).take k).length = k := by simp; omega
    simp only [Nat.add_sub_cancel_left]
    split
    · exact ⟨hok, hquiet.step (State.writeGranule_quietly _ _ _), (State.mem_writeGranule _ _ _).trans (setCells_piece hle hmem)⟩
    · obtain ⟨hwrite, hmore, hset⟩ := State.writePart_sound (s := p.1) (a := a + i) (data := (data.drop i).take k)
        (by rw [hlen]; exact (hquiet.sounder.soundSpan h).piece hle) (by omega) (by omega)
      simp only [hok, hwrite, Bool.and_self, true_and]
      exact ⟨hquiet.trans hmore, hset.trans (setCells_piece hle hmem)⟩

/-- The sectors of an access, each with the bytes that the access has of it. -/
theorem sectorPieces_tiles {a n : Nat} (hn : 0 < n) : Tiles (fun b k => b % 64 + k ≤ 64) (sectorPieces a n) a n := by
  unfold sectorPieces sectorsOf
  rw [if_neg (by omega), List.map_map]
  obtain ⟨c, hc⟩ : ∃ c, (a + n - 1) / 64 - a / 64 + 1 = c := ⟨_, rfl⟩
  rw [hc]
  suffices h : ∀ c j, j + c = (a + n - 1) / 64 - a / 64 + 1 → 0 < c → Tiles (fun b k => b % 64 + k ≤ 64)
      (((List.range' j c).map ((fun k => (max a (64 * k), min (a + n) (64 * (k + 1)) - max a (64 * k))) ∘ (· + a / 64))))
      (max a (64 * (j + a / 64))) (a + n - max a (64 * (j + a / 64))) by
    have h0 := h c 0 (by omega) (by omega)
    rw [← List.range_eq_range'] at h0
    rwa [show max a (64 * (0 + a / 64)) = a by omega, Nat.add_sub_cancel_left] at h0
  intro c
  induction c with
  | zero => intro j _ h; omega
  | succ c ih =>
    intro j hj _
    rw [List.range'_succ, List.map_cons]
    refine ⟨rfl, by simp only [Function.comp]; omega, by simp only [Function.comp]; omega, by simp only [Function.comp]; omega, ?_⟩
    by_cases hc : c = 0
    · subst hc
      simp only [List.range'_zero, List.map_nil, Function.comp]
      exact show _ = 0 by omega
    · have hnext := ih (j + 1) (by omega) (by omega)
      simp only [Function.comp] at hnext ⊢
      convert hnext using 1 <;> omega

/-- A masked write of sound storage merges its bytes (R267). -/
theorem State.writeMaskedSpan_sound {s : State} {a : Nat} {data : Bytes} {mask : List Bool} (hw : Memory.wf s.mem = true)
    (h : s.soundSpan a data.length) (hn : 0 < data.length) (hm : mask.length = data.length) :
    (s.writeMaskedSpan a data mask).2 = true ∧ State.Quietly soundWriteTouch s (s.writeMaskedSpan a data mask).1 ∧
      (s.writeMaskedSpan a data mask).1.mem = setCells a (mergeBytes (s.bytes a data.length) data mask) s.mem := by
  have hd : data.length = (s.bytes a data.length).length := by simp
  have hmask : mask.length = (s.bytes a data.length).length := by simp [hm]
  have hmerged : (mergeBytes (s.bytes a data.length) data mask).length = data.length := by rw [length_mergeBytes hd hmask, ← hd]
  unfold State.writeMaskedSpan
  have hfold := Tiles.foldl (a := a) (n := data.length)
    (I := fun (p : State × Bool) i => p.2 = true ∧ State.Quietly soundWriteTouch s p.1 ∧
      p.1.mem = setCells a ((mergeBytes (s.bytes a data.length) data mask).take i) s.mem)
    (f := fun (p : State × Bool) q =>
      let (s, ok) := p.1.writeMasked q.1 ((data.drop (q.1 - a)).take q.2) ((mask.drop (q.1 - a)).take q.2)
      (s, p.2 && ok)) (fun p i k hp hk hle hone => ?_)
    (b := (s, true)) (i := 0) (sectorPieces_tiles hn) (Nat.zero_le _) ⟨rfl, .refl s, by simp [setCells]⟩
  · rwa [List.take_of_length_le (le_of_eq hmerged)] at hfold
  · obtain ⟨hok, hquiet, hmem⟩ := hp
    have hlen : ((data.drop i).take k).length = k := by simp; omega
    obtain ⟨hwrite, hmore, hset⟩ := State.writeMasked_sound (s := p.1) (a := a + i) (data := (data.drop i).take k)
      (by rw [hlen]; exact (hquiet.sounder.soundSpan h).piece hle) (by omega) (by omega) ((mask.drop i).take k)
    have hold : p.1.bytes (a + i) k = ((s.bytes a data.length).drop i).take k := by
      refine List.ext_getElem (by simp; omega) fun j h1 h2 => ?_
      simp only [State.bytes_length] at h1
      simp only [State.bytes, List.getElem_map, List.getElem_range, List.getElem_take, List.getElem_drop, State.byte, hmem]
      rw [cellAt_setCells_out _ hw (by right; simp; omega), Nat.add_assoc]
    rw [hlen, hold, mergeBytes_piece hd hmask] at hset
    simp only [Nat.add_sub_cancel_left, hok, hwrite, Bool.and_self, true_and]
    exact ⟨hquiet.trans hmore, hset.trans (setCells_piece (by omega) hmem)⟩

/-! ### What a write leaves, byte by byte -/

theorem State.bytes_of_mem {s t : State} (hw : Memory.wf s.mem = true) {a : Nat} {data : Bytes} (h : t.mem = setCells a data s.mem) :
    t.bytes a data.length = data ∧ ∀ b, b < a ∨ a + data.length ≤ b → t.byte b = s.byte b :=
  ⟨(State.bytes_congr (t := t) (s := s.store a data) h _ _).trans (State.bytes_store_same hw a data), fun b hb =>
    (State.byte_congr (t := t) (s := s.store a data) h b).trans (State.byte_store_out hw hb)⟩

end Sys2Proof.Machine

end

/-! # Memory accesses, accumulate-writes and answers (R44 to R49, R148, R263, R267, R273, R274, R471, R528, R613)

An access that reaches storage is a write or a read of a granule, or a masked write of its sectors, and then the answer
(`State.answerAccess_ok`). An accumulate-write stores `addCells` of the sector: 32 codes of FP16, each of two bytes. -/

section

namespace Sys2Proof.Machine

/-! ### Numbers in bytes -/

@[simp] theorem toLE_length (n x : Nat) : (toLE n x).length = n := by induction n generalizing x with | zero => rfl | succ n ih => simp [toLE, ih]

theorem leN_toLE {n x : Nat} (h : x < 256 ^ n) : leN (toLE n x) = x := by
  induction n generalizing x with
  | zero => simp only [pow_zero, Nat.lt_one_iff] at h; exact h.symm
  | succ n ih =>
    rw [toLE, leN, ih (Nat.div_lt_of_lt_mul (by rwa [pow_succ, Nat.mul_comm] at h)), BitVec.toNat_ofNat]
    exact Nat.mod_add_div x 256

theorem leN_lt (bs : Bytes) : leN bs < 256 ^ bs.length := by
  induction bs with
  | nil => simp [leN]
  | cons b bs ih =>
    have hb : b.toNat < 256 := b.isLt
    simp only [leN, List.length_cons, pow_succ]
    omega

theorem length_flatMap_const {α β : Type} {f : α → List β} {k : Nat} (hf : ∀ x, (f x).length = k) (l : List α) :
    (l.flatMap f).length = l.length * k := by
  induction l with
  | nil => simp
  | cons x l ih => simp [hf, ih, Nat.add_mul, Nat.add_comm]

/-- Of a list of pieces of one length, the `i`-th piece. -/
theorem take_drop_flatMap {α β : Type} {f : α → List β} {k : Nat} (hf : ∀ x, (f x).length = k) {l : List α} {i : Nat}
    (hi : i < l.length) : ((l.flatMap f).drop (i * k)).take k = f l[i] := by
  induction l generalizing i with
  | nil => simp at hi
  | cons x l ih =>
    cases i with
    | zero => simp [hf]
    | succ i =>
      have hk : (i + 1) * k = (f x).length + i * k := by rw [hf, Nat.add_mul, Nat.one_mul, Nat.add_comm]
      rw [List.flatMap_cons, hk, List.drop_length_add_append, ih (by simpa using hi), List.getElem_cons_succ]

/-- A number within bytes that are known. -/
theorem State.load_of_bytes (s : State) {a n i k : Nat} (h : i + k ≤ n) : s.load (a + i) k = fieldAt (s.bytes a n) i k := by
  rw [State.load, fieldAt]
  congr 1
  refine List.ext_getElem (by simp; omega) fun j h1 h2 => ?_
  simp [State.bytes, Nat.add_assoc]

/-! ### Codes of FP16 -/

theorem overflow_code_lt {f : FpFmt} (hi : f.ieee = true) (neg : Bool) : (f.overflow neg false).code < 2 ^ f.width := by
  have hs : b2n neg <<< (f.ebits + f.fbits) ≤ 2 ^ (f.ebits + f.fbits) := by cases neg <;> simp [b2n, Nat.shiftLeft_eq]
  have htop : (2 ^ f.ebits - 1) <<< f.fbits < 2 ^ (f.ebits + f.fbits) := by
    rw [Nat.shiftLeft_eq, pow_add]
    exact Nat.mul_lt_mul_of_pos_right (Nat.sub_lt (Nat.two_pow_pos _) (by decide)) (Nat.two_pow_pos _)
  simp only [FpFmt.overflow, Bool.false_and, Bool.false_eq_true, if_false, hi, if_true, FpFmt.width, Nat.add_assoc, pow_add 2 1]
  omega

/-- A rounded value is a code of its format (R119). -/
theorem round_code_lt {f : FpFmt} (hi : f.ieee = true) (hn : f.nan < 2 ^ f.width) (mode : Rounding) (flush : Bool) (v : Fp) :
    (f.round mode false flush v).code < 2 ^ f.width := by
  cases v with
  | nan => exact hn
  | inf neg => exact overflow_code_lt hi neg
  | fin neg mag exp =>
    have hs : b2n neg <<< (f.ebits + f.fbits) ≤ 2 ^ (f.ebits + f.fbits) := by cases neg <;> simp [b2n, Nat.shiftLeft_eq]
    have hw : 2 ^ f.width = 2 * 2 ^ (f.ebits + f.fbits) := by rw [FpFmt.width, Nat.add_assoc, pow_add, pow_one]
    have hlargest : f.largest < 2 ^ (f.ebits + f.fbits) := by
      have : (2 ^ f.ebits - 1) <<< f.fbits ≤ 2 ^ (f.ebits + f.fbits) := by
        rw [Nat.shiftLeft_eq, pow_add]
        exact Nat.mul_le_mul_right _ (Nat.sub_le _ _)
      have := Nat.two_pow_pos (f.ebits + f.fbits)
      simp only [FpFmt.largest, hi, if_true]
      omega
    have hpos := Nat.two_pow_pos (f.ebits + f.fbits)
    simp only [FpFmt.round]
    split
    · simp only
      omega
    · split
      · split
        · simp only
          omega
        · exact overflow_code_lt hi neg
      · split
        · simp only
          omega
        · simp only
          omega

theorem addCells_length (old : Bytes) (mask : Nat) (addends : List Nat) : (addCells old mask addends).length = 64 := by
  simp [addCells, length_flatMap_const (k := 2)]

/-- A cell after an accumulate-write (R148). -/
theorem fieldAt_addCells (old : Bytes) (mask : Nat) (addends : List Nat) {i : Nat} (hi : i < 32) :
    fieldAt (addCells old mask addends) (2 * i) 2 =
      if bit mask i then addCell (fieldAt old (2 * i) 2) ((addends[i]?).getD 0) else fieldAt old (2 * i) 2 := by
  rw [fieldAt, addCells, Nat.mul_comm, take_drop_flatMap (k := 2) (fun _ => by simp) (by simpa using hi), leN_toLE]
  · simp [Nat.mul_comm]
  · split
    · exact round_code_lt (f := fp16) rfl (by decide) _ _ _
    · have hle := leN_lt ((old.drop (2 * (List.range 32)[i])).take 2)
      exact hle.trans_le (Nat.pow_le_pow_right (by decide) (by simp))

/-! ### Accesses of storage -/

theorem State.answerAccess_ok (s : State) (org addr : Nat) (write : Bool) (data : Bytes) :
    s.answerAccess org addr write true data = s.emit (.response org addr 0 data) := rfl

@[simp] theorem State.disturbAll_nil (s : State) (a n : Nat) : s.disturbAll a n [] = s := rfl

theorem State.memWrite_storage {s : State} {org addr : Nat} {data : Bytes} (h : s.targetOf org addr data.length = .storage) :
    s.memWrite org addr data = (s.writeGranule addr data).emit (.response org addr 0 []) := by
  rw [State.memWrite, h, State.answerAccess_ok]

theorem State.memRead_storage {s : State} {org addr len : Nat} (h : s.targetOf org addr len = .storage)
    (hok : (s.readGranule addr len).2 = true) : s.memRead org addr len [] =
      (s.readGranule addr len).1.emit (.response org addr 0 ((s.readGranule addr len).1.bytes addr len)) := by
  simp only [State.memRead, h, State.disturbAll_nil, hok, State.answerAccess_ok]

theorem State.memPartialWrite_storage {s : State} {org addr : Nat} {data : Bytes} {mask : List Bool}
    (h : s.targetOf org addr data.length = .storage) (hok : (s.writeMaskedSpan addr data mask).2 = true) :
    s.memPartialWrite org addr data mask [] = (s.writeMaskedSpan addr data mask).1.emit (.response org addr 0 []) := by
  simp only [State.memPartialWrite, h, State.disturbAll_nil, hok, State.answerAccess_ok]

/-- Settles O11: the write of a granule stores its bytes and mends its sectors. -/
theorem memoryWriteStoresItsBytes : Obligations.MemoryWriteStoresItsBytes := by
  unfold Obligations.MemoryWriteStoresItsBytes
  intro s org addr data hinv hr hstorage
  have hquiet := s.writeGranule_quietly addr data
  obtain ⟨hbytes, hother⟩ := State.bytes_of_mem hinv.mem (s.mem_writeGranule addr data)
  refine ⟨_, exec_eq_next (effect := fun s => s.memWrite org addr data) hr rfl (State.memWrite_storage hstorage)
    hquiet.frame.fatal_eq, hbytes, hother,
    fun n hn => s.writeGranule_mends addr data hn, ?_, ?_⟩
  · simp [hquiet.frame.out_eq]
  · exact ((Frame.refl s).step hquiet.frame).step (State.emit_frame _ _)

/-- Settles O12: a read that finds no stored error answers the bytes, and is quiet. -/
theorem memoryReadReturnsTheStoredBytes : Obligations.MemoryReadReturnsTheStoredBytes := by
  unfold Obligations.MemoryReadReturnsTheStoredBytes
  intro s org addr len hinv hr hstorage hsound
  have hone : 0 < len ∧ addr % 256 + len ≤ 256 := by
    obtain ⟨hwf, -⟩ := hr
    simp only [Instr.wf, oneAccess, Bool.and_eq_true, decide_eq_true_eq] at hwf
    exact hwf.2
  obtain ⟨hok, hquiet⟩ := State.readGranule_sound hsound hone.1 hone.2 false
  have hmem := hquiet.mem
  refine ⟨_, exec_eq_next (effect := fun s => s.memRead org addr len []) hr rfl (State.memRead_storage hstorage hok)
    hquiet.frame.fatal_eq, hmem, ?_, ?_⟩
  · simp [hquiet.frame.out_eq, State.bytes_congr hmem]
  · exact ((Frame.refl s).step hquiet.frame).step (State.emit_frame _ _)

/-- Settles O13: the pieces of the write merge their bytes sector by sector. -/
theorem partialWriteMergesItsBytes : Obligations.PartialWriteMergesItsBytes := by
  unfold Obligations.PartialWriteMergesItsBytes
  intro s org addr data mask hinv hr hstorage hsound
  obtain ⟨hlen, hmask⟩ : 0 < data.length ∧ mask.length = data.length := by
    obtain ⟨hwf, -⟩ := hr
    simp only [Instr.wf, oneAccess, Bool.and_eq_true, decide_eq_true_eq, beq_iff_eq] at hwf
    obtain ⟨⟨-, hlen, -⟩, hmask⟩ := hwf
    exact ⟨hlen, hmask⟩
  obtain ⟨hok, hquiet, hmem⟩ := State.writeMaskedSpan_sound hinv.mem hsound hlen hmask
  have hd : data.length = (s.bytes addr data.length).length := by simp
  have hm : mask.length = (s.bytes addr data.length).length := by simp [hmask]
  have hmerged := length_mergeBytes hd hm
  refine ⟨_, exec_eq_next (effect := fun s => s.memPartialWrite org addr data mask []) hr rfl
    (State.memPartialWrite_storage hstorage hok) hquiet.frame.fatal_eq, fun i hi => ?_, fun b hb => ?_, ?_, ?_⟩
  · have hbyte : (s.writeMaskedSpan addr data mask).1.byte (addr + i) = (mergeBytes (s.bytes addr data.length) data mask)[i]'(by
        rw [hmerged, ← hd]; exact hi) := by
      rw [State.byte, hmem, cellAt_setCells_in _ hinv.mem]
    rw [State.byte_congr (State.emit_mem ..), hbyte, getElem_mergeBytes hd hm (by rwa [← hd])]
    simp [State.bytes, hi, hmask]
  · rw [State.byte_congr (State.emit_mem ..), State.byte, hmem, cellAt_setCells_out _ hinv.mem (by rwa [hmerged, ← hd]), State.byte]
  · simp [hquiet.frame.out_eq]
  · exact ((Frame.refl s).step hquiet.frame).step (State.emit_frame _ _)

/-! ### Accumulate-writes -/

/-- The sector on which a sound accumulate-write acts (R273). -/
theorem State.accumulate_sound {s : State} {a : Nat} (ha : a % 64 = 0) (hb : s.backed a = true) (hw : (s.awRegion a).isSome = true)
    (hf : lookupKey (a / 64) s.hbm.flips = none) (mask : Nat) (addends : List Nat) : s.accumulate a mask addends =
      ((s.store a (addCells (s.bytes a 64) mask addends)).bump F.HBC_AW_SECTORS.VALUE 1 (s.stackDie a), true) := by
  have hgo : ¬ (a % 64 ≠ 0 ∨ ¬ s.backed a = true ∨ (s.awRegion a).isNone = true) := by simp [ha, hb, Option.isSome_iff_ne_none.1 hw]
  rw [State.accumulate, if_neg hgo, State.checkHbm, hf]
  rfl

theorem State.accumulate_refused {s : State} {a : Nat} (h : a % 64 ≠ 0 ∨ s.backed a = false ∨ s.awRegion a = none) (mask : Nat)
    (addends : List Nat) : s.accumulate a mask addends = (s.awRefuse a, false) := by
  rw [State.accumulate, if_pos]
  simpa using h

theorem State.localUnit_of_frame {K : Touch} {s t : State} (h : Frame K s t) (org : Nat) (hr : Reg.SEC_IDENTITY ∉ K.regs := by decide)
    (ha : K.any = false := by rfl) : t.localUnit org = s.localUnit org := by
  rw [State.localUnit, State.localUnit, State.erg, State.erg, State.moduleNo, State.moduleNo, h.get_eq _ _ _ hr ha, h.get_eq _ _ _ hr ha]

/-- Settles O15: the cells of the sector take their addends; a refused write sets its flag and answers. -/
theorem accumulateWriteAddsItsAddends : Obligations.AccumulateWriteAddsItsAddends := by
  unfold Obligations.AccumulateWriteAddsItsAddends
  intro s org pa mask addends hinv hr hlocal a
  constructor
  · intro halign hbacked hregion hflips
    have heffect : s.accWrite org pa mask addends [] = ((s.store a (addCells (s.bytes a 64) mask (addends.map (·.toNat)))).bump
        F.HBC_AW_SECTORS.VALUE 1 (s.stackDie a)).emit (.response org a 0 []) := by
      simp only [State.accWrite, hlocal, Bool.not_true, Bool.false_eq_true, if_false, State.disturbAll_nil, ite_self]
      rw [State.accumulate_sound halign hbacked hregion hflips]
      rfl
    obtain ⟨hbytes, hother⟩ := State.bytes_of_mem (a := a) (data := addCells (s.bytes a 64) mask (addends.map (·.toNat))) (t :=
        ((s.store a (addCells (s.bytes a 64) mask (addends.map (·.toNat)))).bump
        F.HBC_AW_SECTORS.VALUE 1 (s.stackDie a)).emit (.response org a 0 [])) hinv.mem (by simp)
    rw [addCells_length] at hbytes hother
    refine ⟨_, exec_eq_next (effect := fun s => s.accWrite org pa mask addends []) hr rfl heffect, fun i hi => ?_, hother, ?_,
      by simp, ?_⟩
    · rw [State.load_of_bytes (n := 64) _ (by omega), hbytes, fieldAt_addCells _ _ _ hi, State.load_of_bytes (n := 64) s (by omega),
        bit_eq_testBit]
      have hadd : ((addends.map (·.toNat))[i]?).getD 0 = (addends.getD i 0).toNat := by cases h : addends[i]? <;> simp [h]
      rw [hadd]
      rfl
    · simp [State.bump, State.get_put_same]
    · exact (((Frame.refl s).step (State.store_frame _ _ _)).step (State.bump_quietly rfl).frame).step (State.emit_frame _ _)
  · intro hbad hremote
    have heffect : s.accWrite org pa mask addends [] = (s.flag F.HBC_EVENTS.AW_REGION
        (if region a = .hbm ∧ s.backed a then s.stackDie a else 80)).emit (.response org a 1 []) := by
      simp only [State.accWrite, hlocal, Bool.not_true, Bool.false_eq_true, if_false, State.disturbAll_nil, ite_self]
      rw [State.accumulate_refused hbad]
      have hunit : ((s.awRefuse a).emit (.response org a 1 [])).localUnit org = none := by
        rw [State.localUnit_of_frame (State.emit_frame _ _) org, State.localUnit_of_frame (s.awRefuse_frame a) org, hremote]
      simp only [Bool.false_eq_true, if_false]
      change (match ((s.awRefuse a).emit (.response org a 1 [])).localUnit org with | some u => _ | none => _) = _
      rw [hunit]
      rfl
    refine .of_alters (effect := fun s => s.accWrite org pa mask addends []) hr rfl ?_ ?_
    · rw [heffect]
      exact ((State.Alters.refl s).put (by simp) rfl).frame (State.emit_frame _ _) (by decide) (by simp)
    · rw [heffect]
      exact ⟨by simp [State.on, State.flag, State.get_put_same], rfl⟩

/-! ### Partial sums, refresh and answers -/

theorem exec_partialSums {s : State} {addr : Nat} {data : Bytes} (hr : s.Reaches (.partialSums addr data)) :
    exec (.partialSums addr data) s = .next (s.writeSectors addr data) :=
  exec_eq_next (effect := fun s => s.writeSectors addr data) hr rfl rfl (State.writeSectors_frame s addr data).fatal_eq

theorem State.cmdAcknowledged_done_frame (s : State) (u tag addr : Nat) :
    Frame ⟨[.qcx], [], false⟩ s (s.cmdAcknowledged u tag addr 0) := by
  unfold State.cmdAcknowledged
  split
  · simp only [if_true]
    exact s.onQcx_frame _
  · exact .refl s

theorem State.coreError_out (s : State) (u addr : Nat) (write : Bool) :
    (s.coreError u addr write).settle.out = s.out ++ [.coreFault (coreOf u) write] := by
  rw [State.settle_out, State.coreError]
  exact congrArg (· ++ _) (s.faultOf_frame u 5 _).out_eq

theorem State.length_ops_onOp (s : State) (u k : Nat) (f : Op → Op) : ((s.onOp u k f).unit u).ops.length = (s.unit u).ops.length := by
  simp [State.onOp, State.unit_onUnit, updateAt]

/-- The write that was performed leaves its operation, which is done with the last one (R302, R528). -/
theorem State.opAcknowledged_performed {s : State} {u tag addr k : Nat}
    (hk : (s.unit u).ops.findIdx? (fun o => o.state == .writing && o.tags.contains tag) = some k) :
    ((s.opAcknowledged u tag addr 0).opAt u k).tags = removeFirst (· == tag) (s.opAt u k).tags ∧
      ((s.opAcknowledged u tag addr 0).opAt u k).state =
        (if (removeFirst (· == tag) (s.opAt u k).tags).isEmpty then .done else .writing) ∧
      (s.opAcknowledged u tag addr 0).flt = s.flt := by
  have hlt : k < (s.unit u).ops.length := (List.findIdx?_eq_some_iff_getElem.1 hk).1
  simp only [State.opAcknowledged, hk, ne_eq, not_true_eq_false, if_false]
  rw [State.opAt_onOp _ (by rwa [State.length_ops_onOp]), State.opAt_onOp _ hlt]
  exact ⟨rfl, rfl, rfl⟩

/-- An answer that is taken leaves the list of answers, and nothing else. -/
theorem State.takeAnswer_some {s s' : State} {u tag status : Nat} {data : Bytes} {write : Bool} {r : Remote}
    (h : s.takeAnswer u tag status data write = some (r, s')) : ∃ l, s' = s.onRem fun m => { m with answers := l } := by
  unfold State.takeAnswer at h
  extract_lets mine at h
  split at h
  · cases h
  · cases h
    exact ⟨_, rfl⟩

section
variable {s s' : State} {u tag status : Nat} {data : Bytes} {r : Remote}

theorem exec_readResponse_none (hr : s.Reaches (.readResponse u tag status data))
    (h : s.takeAnswer u tag status data false = none) : exec (.readResponse u tag status data) s = .next s := by
  change execReadResponse u tag status data s = _
  unfold execReadResponse
  exact act_eq_next hr (by simp only [h]) rfl

theorem exec_readResponse_taken (hr : s.Reaches (.readResponse u tag status data))
    (h : s.takeAnswer u tag status data false = some (r, s')) :
    exec (.readResponse u tag status data) s = .next (s'.readArrived u r.addr r.len status data).settle := by
  change execReadResponse u tag status data s = _
  unfold execReadResponse
  exact (act_admitted hr).trans (by simp only [h])

theorem exec_writePerformed_none (hr : s.Reaches (.writePerformed u tag status))
    (h : s.takeAnswer u tag status [] true = none) : exec (.writePerformed u tag status) s = .next s := by
  change execWritePerformed u tag status s = _
  unfold execWritePerformed
  exact act_eq_next hr (by simp only [h]) rfl

theorem exec_writePerformed_taken (hr : s.Reaches (.writePerformed u tag status))
    (h : s.takeAnswer u tag status [] true = some (r, s')) :
    exec (.writePerformed u tag status) s = .next (s'.writeArrived u tag r.addr status).settle := by
  change execWritePerformed u tag status s = _
  unfold execWritePerformed
  exact (act_admitted hr).trans (by simp only [h])

end

theorem State.settle_of_frame {K : Touch} {s t : State} (hf : s.flt.fatal = []) (h : Frame K s t)
    (hp : Part.fatal ∉ K.parts := by decide) : t.settle = t := State.settle_eq ((h.fatal_eq hp).trans hf)

/-- Settles O16: a sum is a write of sectors, the refresh marks one stack, and an answer that was sent is handled by the kind of
its unit. -/
theorem partialSumsRefreshAndAnswersArrive : Obligations.PartialSumsRefreshAndAnswersArrive := by
  unfold Obligations.PartialSumsRefreshAndAnswersArrive
  refine ⟨⟨fun s addr data hinv hr => ⟨fun hb => ?_, fun hb => ?_⟩, fun s ms hot hr => ?_⟩, fun s u tag status data hr => ?_,
    fun s u tag status hr => ?_⟩
  · obtain ⟨hbytes, hother⟩ := State.bytes_of_mem hinv.mem (State.mem_writeSectors hb)
    exact ⟨_, exec_partialSums hr, hbytes, hother, State.writeSectors_frame s addr data⟩
  · rw [exec_partialSums hr, State.writeSectors_eq_self hb]
  · refine .of_alters (effect := fun s => s.onHbm fun h => { h with hot := if hot then insertNat ms h.hot else h.hot.filter (· != ms) })
      hr rfl ((State.Alters.refl s).frame (s.onHbm_frame _) (by decide) (by simp)) ⟨rfl, fun m => ?_⟩
    cases hot
    · by_cases hm : m = ms <;> simp [hm]
    · by_cases hm : m = ms <;> simp [hm, mem_insertNat]
  · refine ⟨exec_readResponse_none hr, fun r s' hsome => ⟨_, exec_readResponse_taken hr hsome, ?_⟩⟩
    obtain ⟨l, rfl⟩ := State.takeAnswer_some hsome
    have hfatal : (s.onRem fun m => { m with answers := l }).flt.fatal = [] := hr.2.2
    rw [State.readArrived]
    refine ⟨fun hc h0 => ?_, fun hc h0 => ?_, fun hc h0 => ?_, fun hc h0 => ?_⟩
    · rw [if_pos hc, if_pos h0, State.settle_of_frame hfatal (State.emit_frame _ _)]
      rfl
    · rw [if_pos hc, if_neg h0, State.coreError_out]
      rfl
    · rw [if_neg (by simp [hc]), if_pos h0, State.settle_of_frame hfatal (State.onRem_frame _ _)]
      rfl
    · rw [if_neg (by simp [hc]), if_neg h0, State.settle_of_frame hfatal (State.onRem_frame _ _)]
      rfl
  · refine ⟨exec_writePerformed_none hr, fun r s' hsome => ⟨_, exec_writePerformed_taken hr hsome, ?_⟩⟩
    obtain ⟨l, rfl⟩ := State.takeAnswer_some hsome
    have hfatal : (s.onRem fun m => { m with answers := l }).flt.fatal = [] := hr.2.2
    rw [State.writeArrived]
    refine ⟨fun hc h0 => ?_, fun hc h0 => ?_, fun hc h0 k hk => ?_⟩
    · rw [if_pos hc, if_pos h0, State.settle_of_frame hfatal (State.emit_frame _ _)]
      rfl
    · rw [if_pos hc, if_neg h0, State.coreError_out]
      rfl
    · subst h0
      obtain ⟨htags, hstate, hflt⟩ := State.opAcknowledged_performed (s := s.onRem fun m => { m with answers := l }) (addr := r.addr) hk
      rw [if_neg (by simp [hc])]
      generalize (s.onRem fun m => { m with answers := l }).opAcknowledged u tag r.addr 0 = acked at htags hstate hflt
      have hframe := acked.cmdAcknowledged_done_frame u tag r.addr
      rw [State.settle_of_frame ((congrArg FltSt.fatal hflt).trans hfatal) hframe, State.opAt, State.unit_congr hframe.sched_eq]
      exact ⟨htags, hstate⟩

end Sys2Proof.Machine

end

/-! # Fuses, reports and flash (R582, R594 to R598)

The buffers of a report and of an image are read by `State.readSpan`, which finds no error in a sound span and is quiet
(`State.readSpan_sound`): the registers and the secrets that the report is made of stand under it (`State.report_congr`). -/

section

namespace Sys2Proof.Machine

theorem State.put_touch (s : State) (f : Fld) (v d i : Nat) : Frame ⟨[], [f.reg], false⟩ s (s.put f v d i) :=
  s.put_frame f v d i (.inr (List.mem_singleton_self _))

/-! ### What decides of a span -/

section
variable {s t : State}

theorem State.backedSpan_congr (h : t.get F.OAS_SPLIT.SCRATCH_WAYS = s.get F.OAS_SPLIT.SCRATCH_WAYS) (a n : Nat) :
    t.backedSpan a n = s.backedSpan a n := by
  have hbacked : ∀ b, t.backed b = s.backed b := fun b => by unfold State.backed State.scratchWays; rw [h]
  rw [State.backedSpan, State.backedSpan, hbacked, hbacked]

theorem State.hostSpan_congr (h : t.get F.OAS_SPLIT.SCRATCH_WAYS = s.get F.OAS_SPLIT.SCRATCH_WAYS) (a n : Nat) :
    t.hostSpan a n = s.hostSpan a n := by rw [State.hostSpan, State.hostSpan, State.backedSpan_congr h]

theorem State.backedSpan_of_hostSpan {a n : Nat} (h : s.hostSpan a n = true) : s.backedSpan a n = true := by
  simp only [State.hostSpan, Bool.and_eq_true] at h
  exact h.2

theorem State.soundSpan_congr (hh : t.hbm = s.hbm) (ho : t.oasis = s.oasis) {a n : Nat} (h : s.soundSpan a n) : t.soundSpan a n := by
  simp only [State.soundSpan, hh, ho]
  exact h

/-- A report depends on the registers of the start, the fuses, the tick and the descriptors. -/
theorem State.report_congr {K : Touch} (hf : Frame K s t) (nonce : Bytes) (ha : K.any = false := by rfl)
    (hp : Part.sec ∉ K.parts ∧ Part.bdi ∉ K.parts := by decide)
    (hr : ∀ r ∈ [Reg.SEC_START, .SEC_SERIAL, .TCK_COUNT, .SEC_IMAGE, .SEC_DIE_MAP, .SEC_IDENTITY], r ∉ K.regs := by decide) :
    t.report nonce = s.report nonce := by
  have hsec : t.sec = s.sec := hf.parts .sec hp.1
  have hbdi : t.bdi = s.bdi := hf.parts .bdi hp.2
  have hword : ∀ r ∈ [Reg.SEC_START, .SEC_SERIAL, .TCK_COUNT, .SEC_IMAGE, .SEC_DIE_MAP, .SEC_IDENTITY], ∀ d i,
      t.word r d i = s.word r d i := fun r hm d i => hf.words ha r d i (hr r hm)
  have hdesc : t.descriptor = s.descriptor := funext fun d => by rw [State.descriptor, State.descriptor, hbdi]
  have hget : ∀ f : Fld, f.reg ∈ [Reg.SEC_START, .SEC_SERIAL, .TCK_COUNT, .SEC_IMAGE, .SEC_DIE_MAP, .SEC_IDENTITY] → ∀ d i,
      t.get f d i = s.get f d i := fun f hm d i => by rw [State.get, State.get, hword f.reg hm]
  have hserial : t.word .SEC_SERIAL = s.word .SEC_SERIAL := hword .SEC_SERIAL (by decide) _ _
  have hfuse : t.fuseDigest = s.fuseDigest := by rw [State.fuseDigest, State.fuseDigest, hsec, hserial]
  have hcaps : t.capsDigest = s.capsDigest := by rw [State.capsDigest, State.capsDigest, hdesc]
  have hedge : t.edgeDigest = s.edgeDigest := by rw [State.edgeDigest, State.edgeDigest, hdesc]
  have herg : t.erg = s.erg := hget F.SEC_IDENTITY.ERG (by decide) _ _
  have hmodule : t.moduleNo = s.moduleNo := hget F.SEC_IDENTITY.MODULE (by decide) _ _
  have hnow : t.now 72 = s.now 72 := hget F.TCK_COUNT.COUNT (by decide) _ _
  have hhead : t.reportHead nonce = s.reportHead nonce := by
    have hstage : t.get F.SEC_START.STAGE = s.get F.SEC_START.STAGE := hget F.SEC_START.STAGE (by decide) _ _
    have hmap : (fun c => toLE 4 (t.get F.SEC_DIE_MAP.MAP 72 c)) = fun c => toLE 4 (s.get F.SEC_DIE_MAP.MAP 72 c) :=
      funext fun c => by rw [hget F.SEC_DIE_MAP.MAP (by decide)]
    unfold State.reportHead
    rw [hserial, hnow, hsec, hstage, hget F.SEC_IMAGE.SEQUENCE (by decide), hget F.SEC_IMAGE.SLOT (by decide),
      hget F.SEC_IMAGE.KEY_SLOT (by decide), hfuse, hcaps, hedge, hmap, herg, hmodule]
  rw [State.report, State.report, hhead]

end

/-! ### Reports -/

theorem State.writeReport_missing {s : State} {buffer : Nat} (h : s.hostSpan (buffer / 4096 * 4096) 4096 = false) :
    s.writeReport buffer = (s.put F.SEC_ATTEST.BUSY 0).flag F.SEC_ATTEST.ERROR := by simp [State.writeReport, h]

/-- The report over the nonce of a sound buffer stands in the buffer (R594). -/
theorem State.writeReport_formed {s : State} {a : Nat} (hhost : s.hostSpan (a / 4096 * 4096) 4096 = true)
    (hsound : s.soundSpan (a / 4096 * 4096 + 16) 32) (hlen : (s.report (s.bytes (a / 4096 * 4096 + 16) 32)).length = 4096) :
    (s.writeReport a).mem = setCells (a / 4096 * 4096) (s.report (s.bytes (a / 4096 * 4096 + 16) 32)) s.mem ∧
      (s.writeReport a).on F.SEC_ATTEST.BUSY = false ∧ (s.writeReport a).on F.SEC_ATTEST.DONE = true ∧ (s.writeReport a).flt = s.flt := by
  obtain ⟨hok, hquiet⟩ := State.readSpan_sound hsound
  simp only [State.writeReport, hhost, if_true]
  generalize a / 4096 * 4096 = b at *
  generalize hread : s.readSpan (b + 16) 32 = p at *
  simp only [hok, if_true]
  have hframe : Frame ⟨[.fresh, .hbm, .oasis], storeRegs ++ [.HBC_RD_SECTORS, .SEC_ATTEST], false⟩ s (p.1.put F.SEC_ATTEST.BUSY 0) :=
    ((Frame.refl s).step hquiet.frame).step (State.put_touch _ _ _ _ _)
  have hreport : (p.1.put F.SEC_ATTEST.BUSY 0).report ((p.1.put F.SEC_ATTEST.BUSY 0).bytes (b + 16) 32) = s.report (s.bytes (b + 16) 32) := by
    rw [State.report_congr hframe, State.bytes_congr hframe.mem_eq]
  have hbusy : (p.1.put F.SEC_ATTEST.BUSY 0).on F.SEC_ATTEST.BUSY = false := by simp [State.on, State.get_put_same]
  generalize p.1.put F.SEC_ATTEST.BUSY 0 = q at *
  have hbacked : q.backedSpan b (s.report (s.bytes (b + 16) 32)).length = true := by
    rw [hlen, State.backedSpan_congr (hframe.get_eq _ _ _), State.backedSpan_of_hostSpan hhost]
  refine ⟨?_, ?_, by simp [State.on, State.flag, State.get_put_same], ?_⟩
  · simp [hreport, State.mem_writeSectors hbacked, hframe.mem_eq]
  · rw [State.on, State.flag, State.get_put_apart (by decide) (by decide), ← State.on, (State.writeSectors_frame q b _).on_eq _ _ _, hbusy]
  · exact (State.writeSectors_frame q b _).flt_eq.trans hframe.flt_eq

theorem State.endReport_of_last {s : State} {buffer : Nat} {mgmt : Bool} (h : s.sec.attest = some (buffer, mgmt))
    (hw : s.sec.waiting = []) : s.endReport = (s.writeReport buffer).onSec fun x => { x with attest := none } := by
  have hsec : (s.writeReport buffer).sec = s.sec := (s.writeReport_frame buffer).sec_eq
  simp [State.endReport, h, hw, hsec]

/-! ### The end of a fuse command -/

/-- The end of a fuse command blows its fuse, or reports that it failed (R596, R598). -/
theorem State.endFuse_spec {s : State} {cmd arg : Nat} (h : s.sec.fuse = some (cmd, arg)) (failed : Bool) :
    (s.endFuse failed).on F.SEC_FUSE_STATUS.BUSY = false ∧ (s.endFuse failed).sec.fuse = none ∧ (s.endFuse failed).mem = s.mem ∧
    (failed = true → (s.endFuse failed).get F.SEC_FUSE_STATUS.RESULT = 3 ∧ (s.endFuse failed).sec = { s.sec with fuse := none }) ∧
    (failed = false → (s.endFuse failed).get F.SEC_FUSE_STATUS.RESULT = 0 ∧
      (s.endFuse failed).sec = { s.sec with fuse := none }.blow cmd arg) := by
  have hblow : ∀ x : SecSt, (x.blow cmd arg).fuse = x.fuse := fun x => by unfold SecSt.blow; split <;> rfl
  refine ⟨?_, ?_, (s.endFuse_frame failed).mem_eq, ?_, ?_⟩
  · cases failed <;> simp (disch := decide) [State.endFuse, h, State.on, State.showFuses, State.get_put_same, State.get_put_apart,
      State.get_put_reg]
  · cases failed <;> simp [State.endFuse, h, State.showFuses, hblow]
  · rintro rfl
    simp [State.endFuse, h, State.get_put_same]
  · rintro rfl
    simp [State.endFuse, h, State.showFuses, State.get_put_same]

/-! ### Flash -/

/-- A buffer that cannot be read ends the program (R597). -/
theorem State.endFlash_unread {s : State} {a : Nat} (h : s.sec.flashing = some a) (hh : s.hostSpan a 256 = false) (mismatch : Bool) :
    s.endFlash mismatch = ((s.put F.SEC_FLASH.BUSY 0).onSec fun x => { x with flashing := none }).put F.SEC_FLASH.RESULT 2 := by
  have hspan : ((s.put F.SEC_FLASH.BUSY 0).onSec fun x => { x with flashing := none }).hostSpan a 256 = false := by
    rw [State.hostSpan_congr (s := s) (by simp (disch := decide) [State.get_put_reg]), hh]
  simp [State.endFlash, h, hspan]

/-- An image whose buffer holds no error is programmed (R597). -/
theorem State.endFlash_read {s : State} {a : Nat} (h : s.sec.flashing = some a) (hh : s.hostSpan a 256 = true)
    (hs : s.soundSpan a 256) (hpos : 0 < s.load (a + 16) 4) (hmost : s.load (a + 16) 4 ≤ imageMost)
    (hhost : s.hostSpan a (s.load (a + 16) 4) = true) (hsound : s.soundSpan a (s.load (a + 16) 4)) :
    ∃ q, Frame ⟨[.fresh, .hbm, .oasis, .sec], storeRegs ++ [.HBC_RD_SECTORS, .SEC_FLASH], false⟩ s q ∧
      q.on F.SEC_FLASH.BUSY = false ∧ q.sec = { s.sec with flashing := none } ∧ ∀ mismatch, s.endFlash mismatch =
        if mismatch then ((q.setUnselected ((List.range (s.load (a + 16) 4)).map fun i => BitVec.ofNat 8 (q.freeAt i))).took
          (s.load (a + 16) 4)).put F.SEC_FLASH.RESULT 1
        else (q.setUnselected (s.bytes a (s.load (a + 16) 4))).put F.SEC_FLASH.RESULT 0 := by
  generalize hstart : ((s.put F.SEC_FLASH.BUSY 0).onSec fun x => { x with flashing := none }) = b
  have hb : Frame ⟨[.sec], [.SEC_FLASH], false⟩ s b ∧ b.on F.SEC_FLASH.BUSY = false ∧ b.sec = { s.sec with flashing := none } ∧
      b.mem = s.mem ∧ b.hbm = s.hbm ∧ b.oasis = s.oasis := by
    subst hstart
    exact ⟨((Frame.refl s).step (s.put_touch _ _ _ _)).step (State.onSec_frame _ _), by simp [State.on, State.get_put_same], by simp,
      by simp, by simp, by simp⟩
  obtain ⟨hframe, hbusy, hsec, hmem, hhbm, hoasis⟩ := hb
  obtain ⟨hok, hquiet⟩ := State.readSpan_sound (State.soundSpan_congr hhbm hoasis hs)
  have hmore := hquiet.sounder.soundSpan (State.soundSpan_congr hhbm hoasis hsound)
  obtain ⟨hok', hquiet'⟩ := State.readSpan_sound hmore
  have hspan : ∀ n, b.hostSpan a n = s.hostSpan a n := State.hostSpan_congr (hframe.get_eq _ _ _) a
  have hspan' : ∀ n, (b.readSpan a 256).1.hostSpan a n = b.hostSpan a n := State.hostSpan_congr (hquiet.frame.get_eq _ _ _) a
  have hload : (b.readSpan a 256).1.load (a + 16) 4 = s.load (a + 16) 4 := by
    rw [State.load, State.bytes_congr hquiet.mem, State.bytes_congr hmem, State.load]
  refine ⟨((b.readSpan a 256).1.readSpan a (s.load (a + 16) 4)).1, ?_, ?_, ?_, fun mismatch => ?_⟩
  · exact (((Frame.refl s).step hframe).step hquiet.frame).step hquiet'.frame
  · rw [hquiet'.frame.on_eq _ _ _, hquiet.frame.on_eq _ _ _, hbusy]
  · rw [hquiet'.frame.sec_eq, hquiet.frame.sec_eq, hsec]
  · have hbytes : ((b.readSpan a 256).1.readSpan a (s.load (a + 16) 4)).1.bytes a (s.load (a + 16) 4) =
        s.bytes a (s.load (a + 16) 4) := by rw [State.bytes_congr hquiet'.mem, State.bytes_congr hquiet.mem, State.bytes_congr hmem]
    simp only [State.endFlash, h, hstart, hspan, hh, if_true, hok, hload, Bool.true_eq_false, false_or, if_neg (Nat.not_lt.2 hmost),
      if_neg (Nat.pos_iff_ne_zero.1 hpos), hspan', hhost, hok', hbytes, if_false]

/-- Settles O57: what each of the three blocks does when asked, and what the end of its work leaves. -/
theorem fusesReportsAndFlash : Obligations.FusesReportsAndFlash := by
  unfold Obligations.FusesReportsAndFlash
  refine ⟨⟨fun s c confirm cmd arg hr hc => ?_, fun s failed hr => ?_⟩, fun s addr hr haddr => ?_, fun s hinv hr => ?_, fun s addr hr haddr => ?_,
    fun s mismatch hr => ?_⟩
  · have he : exec c s = act c s fun s => s.fuseCommand confirm cmd arg := by
      rcases hc with ⟨rfl, rfl⟩ | ⟨rfl, rfl⟩ | ⟨rfl, rfl, rfl⟩ <;> rfl
    obtain ⟨hlo, hhi⟩ : 1 ≤ cmd ∧ cmd ≤ 3 := by omega
    refine ⟨fun hb => ?_, fun hb ht => ?_, fun hb ht => ?_⟩
    · refine .of_alters hr he ?_ ?_
      all_goals rw [State.fuseCommand_busy hlo hhi hb]
      · exact (State.Alters.refl s).put (d' := 72) (by simp) rfl
      · simp [State.get_put_same]
    · refine .of_alters hr he ?_ ?_
      all_goals rw [State.fuseCommand_refused hlo hhi hb ht]
      · exact (State.Alters.refl s).put (d' := 72) (by simp) rfl
      · simp [State.get_put_same]
    · refine .of_alters hr he ?_ ?_
      all_goals rw [State.fuseCommand_taken hlo hhi hb ht]
      · exact ((State.Alters.refl s).put (d' := 72) (by simp) rfl).frame (State.onSec_frame _ _) (by decide) (by simp)
      · simp [State.on, State.flag, State.get_put_same]
  · refine ⟨fun hnone => ?_, fun cmd arg hsome => ?_⟩
    · exact exec_eq_next (effect := fun s => s.endFuse failed) hr rfl (by simp only [State.endFuse, hnone])
    · refine ⟨_, exec_eq_next (effect := fun s => s.endFuse failed) hr rfl rfl (s.endFuse_frame failed).fatal_eq, ?_⟩
      obtain ⟨hbusy, hfuse, hmem, hfails, hdone⟩ := State.endFuse_spec hsome failed
      refine ⟨hbusy, hfuse, hmem, fun h => ?_, fun h => ?_⟩
      · obtain ⟨hresult, hsec⟩ := hfails h
        exact ⟨hresult, by rw [hsec], by rw [hsec], by rw [hsec]⟩
      · obtain ⟨hresult, hsec⟩ := hdone h
        refine ⟨hresult, ?_, ?_, ?_⟩
        all_goals rintro rfl; rw [hsec]
        · simp [SecSt.blow, mem_insertNat]
        · simp [SecSt.blow, mem_insertNat]
        · rfl
  · have haddr' : (s.put F.SEC_ATTEST.ADDR (addr >>> 12)).get F.SEC_ATTEST.ADDR <<< 12 = addr / 4096 * 4096 := by
      rw [State.get_put_same _ _ _ _ _ (by decide), Nat.shiftLeft_eq, Nat.shiftRight_eq_div_pow, Nat.mod_eq_of_lt (by
        show addr / 4096 < 2 ^ 35
        omega)]
    have hbusy : (s.put F.SEC_ATTEST.ADDR (addr >>> 12)).on F.SEC_ATTEST.BUSY = s.on F.SEC_ATTEST.BUSY := by
      simp (disch := decide) [State.on, State.get_put_apart]
    refine ⟨fun hb => ?_, fun hb => ?_⟩
    · refine ⟨_, exec_eq_next (effect := fun s => (s.put F.SEC_ATTEST.ADDR (addr >>> 12)).attestWrite) hr rfl
        (if_pos (hbusy.trans hb)), by simp [State.on, State.flag, State.get_put_same], rfl⟩
    · have heffect : (s.put F.SEC_ATTEST.ADDR (addr >>> 12)).attestWrite =
          (s.put F.SEC_ATTEST.ADDR (addr >>> 12)).beginReport (addr / 4096 * 4096) false := by
        rw [State.attestWrite, hbusy, hb, haddr']
        rfl
      obtain ⟨hon, hdone, herror, hsec⟩ := (s.put F.SEC_ATTEST.ADDR (addr >>> 12)).beginReport_spec (addr / 4096 * 4096) false
      refine .of_alters (effect := fun s => (s.put F.SEC_ATTEST.ADDR (addr >>> 12)).attestWrite) hr rfl ?_ ?_
      all_goals simp only [heffect]
      · exact ((State.Alters.refl s).put (d' := 72) (by simp) rfl).trans (State.beginReport_alters _ _ _)
      · exact ⟨hon, hdone, herror, by simp [hsec]⟩
  · refine ⟨fun hnone => ?_, fun buffer mgmt hsome hwait => ?_⟩
    · exact exec_eq_next (effect := State.endReport) hr rfl (by simp only [State.endReport, hnone])
    · have hlast := State.endReport_of_last hsome hwait
      refine ⟨fun hmissing => ?_, fun hhost hsound hlen => ?_⟩
      · rw [State.writeReport_missing hmissing] at hlast
        refine ⟨_, exec_eq_next (effect := State.endReport) hr rfl hlast, ?_, ?_, rfl, rfl⟩
        · simp (disch := decide) [State.on, State.flag, State.get_put_same, State.get_put_apart]
        · simp [State.on, State.flag, State.get_put_same]
      · obtain ⟨hmem, hbusy, hdone, hflt⟩ := State.writeReport_formed hhost hsound hlen
        obtain ⟨hbytes, hother⟩ := State.bytes_of_mem hinv.mem hmem
        rw [hlen] at hbytes hother
        exact ⟨_, exec_eq_next (effect := State.endReport) hr rfl hlast (congrArg FltSt.fatal hflt),
          by simpa [State.on] using hbusy, by simpa [State.on] using hdone, rfl, hbytes, hother⟩
  · have haddr' : (s.put F.SEC_FLASH.ADDR (addr >>> 12)).get F.SEC_FLASH.ADDR <<< 12 = addr / 4096 * 4096 := by
      rw [State.get_put_same _ _ _ _ _ (by decide), Nat.shiftLeft_eq, Nat.shiftRight_eq_div_pow, Nat.mod_eq_of_lt (by
        show addr / 4096 < 2 ^ 35
        omega)]
    have hbusy : (s.put F.SEC_FLASH.ADDR (addr >>> 12)).on F.SEC_FLASH.BUSY = s.on F.SEC_FLASH.BUSY := by
      simp (disch := decide) [State.on, State.get_put_apart]
    refine ⟨fun hb => ?_, fun hb => ?_⟩
    · refine ⟨_, exec_eq_next (effect := fun s => (s.put F.SEC_FLASH.ADDR (addr >>> 12)).flashWrite) hr rfl
        (if_pos (hbusy.trans hb)), by simp [State.get_put_same], rfl⟩
    · have heffect : (s.put F.SEC_FLASH.ADDR (addr >>> 12)).flashWrite =
          ((s.put F.SEC_FLASH.ADDR (addr >>> 12)).flag F.SEC_FLASH.BUSY).onSec fun x => { x with flashing := some (addr / 4096 * 4096) } := by
        rw [State.flashWrite, hbusy, hb, haddr']
        rfl
      refine .of_alters (effect := fun s => (s.put F.SEC_FLASH.ADDR (addr >>> 12)).flashWrite) hr rfl ?_ ?_
      all_goals simp only [heffect]
      · exact (((State.Alters.refl s).put (d' := 72) (by simp) rfl).put (d' := 72) (by simp) rfl).frame (State.onSec_frame _ _)
          (by decide) (by simp)
      · simp [State.on, State.flag, State.get_put_same]
  · refine ⟨fun hnone => ?_, fun a hsome => ⟨fun hmissing => ?_, fun hhost hsound hpos hmost hhost' hsound' => ?_⟩⟩
    · exact exec_eq_next (effect := fun s => s.endFlash mismatch) hr rfl (by simp only [State.endFlash, hnone])
    · refine ⟨_, exec_eq_next (effect := fun s => s.endFlash mismatch) hr rfl (State.endFlash_unread hsome hmissing mismatch), ?_, ?_, rfl⟩
      · simp (disch := decide) [State.on, State.get_put_same, State.get_put_apart]
      · simp [State.get_put_same]
    · obtain ⟨q, hframe, hbusy, hsec, hend⟩ := State.endFlash_read hsome hhost hsound hpos hmost hhost' hsound'
      have hslot : q.get F.SEC_IMAGE.SLOT = s.get F.SEC_IMAGE.SLOT := hframe.get_eq _ _ _
      refine ⟨_, exec_eq_next (effect := fun s => s.endFlash mismatch) hr rfl (hend mismatch) ?_, ?_, ?_, ?_, ?_⟩
      · cases mismatch <;> exact hframe.fatal_eq
      · cases mismatch <;> simpa (disch := decide) [State.on, State.get_put_apart, State.setUnselected] using hbusy
      · cases mismatch <;> exact hframe.mem_eq
      · cases mismatch <;> simp [State.get_put_same]
      · rintro rfl
        simp [State.setUnselected, hsec, hslot]

end Sys2Proof.Machine

end

/-! # The start sequence (R587 to R590, R606, R608)

What a start from no power leaves is `State.startFresh`; the stage at which it stops and the cause are read off its branches
(`State.startUp_of_none`, `State.startUp_of_some`), and neither memory nor the power state is touched on the way. -/

section

namespace Sys2Proof.Machine

/-! ### Stages -/

/-- The start stands still at a stage, for a cause (R590). -/
def State.StartFailed (t : State) (stage cause : Nat) : Prop :=
  t.get F.SEC_START.STAGE = stage ∧ t.on F.SEC_START.FAILED = true ∧ t.get F.SEC_START.FAIL_CAUSE = cause

theorem State.startFailed_failStart (s : State) {stage cause : Nat} (hs : stage < 16) (hc : cause < 16) :
    (s.failStart stage cause).StartFailed stage cause := by
  refine ⟨?_, ?_, ?_⟩
  all_goals simp (disch := decide) [State.failStart, State.stage, State.on, State.flag, State.get_put_same, State.get_put_apart]
  all_goals omega

/-- The module before the first stage (R606). -/
def State.unstarted (s : State) : State := { s.powerless .starting false with power := { mode := .starting } }

theorem State.readImages_retire (s : State) (env : StartEnv) : (s.readImages env).1.sec.retire = s.sec.retire := by
  unfold State.readImages
  extract_lets t a b u
  have hu : u.sec = s.sec := by simp [u, t, State.stage, State.showFuses]
  split
  · rw [hu]
  · simp [hu]

section
variable {s : State} {env : StartEnv}

theorem State.startUp_of_none (h : (s.readImages env).2 = none) : s.startUp env = (s.readImages env).1.failStart 2 1 := by
  unfold State.startUp
  split
  · next hr => rw [hr]
  · next hr => rw [hr] at h; cases h

/-- The stages from 3 on, once an image is selected. -/
theorem State.startUp_of_some (h : (s.readImages env).2 ≠ none) :
    ((∃ t ∈ env.darkSites, t < 72) → (s.startUp env).StartFailed 3 2) ∧
    ((∀ t ∈ env.darkSites, 72 ≤ t) → env.deadEdges ≠ [] → (s.startUp env).StartFailed 3 3) ∧
    ((∀ t ∈ env.darkSites, 72 ≤ t) → env.deadEdges = [] → env.failedEdges ≠ [] → (s.startUp env).StartFailed 4 4) ∧
    ((∀ t ∈ env.darkSites, 72 ≤ t) → env.deadEdges = [] → env.failedEdges = [] →
      (∃ k, k < 8 ∧ 2 ≤ (failedRows env s.sec.retire k).length) → (s.startUp env).StartFailed 5 5) ∧
    ((∀ t ∈ env.darkSites, 72 ≤ t) → env.deadEdges = [] → env.failedEdges = [] →
      (∀ k, k < 8 → ¬2 ≤ (failedRows env s.sec.retire k).length) →
      (env.memoryFails = true → (s.startUp env).StartFailed 6 6) ∧
      (env.memoryFails = false → (s.startUp env).get F.SEC_START.STAGE = 8)) := by
  have hretire := s.readImages_retire env
  unfold State.startUp
  split
  · next hr => rw [hr] at h; exact absurd rfl h
  · next t dev hr =>
    rw [hr] at hretire
    simp only at hretire
    have hdark : (env.darkSites.any fun t => decide (t < 72)) = true ↔ ∃ t ∈ env.darkSites, t < 72 := by simp
    have hbad : ((List.range 8).any fun c => decide (2 ≤ (failedRows env s.sec.retire c).length)) = true ↔
        ∃ k, k < 8 ∧ 2 ≤ (failedRows env s.sec.retire k).length := by simp
    have hw : ∀ f, (t.writeMap f).sec.retire = s.sec.retire := fun f => by
      rw [(State.writeMap_frame t f).sec_eq, hretire]
    simp only [hw]
    refine ⟨fun hd => ?_, fun hd he => ?_, fun hd he hf => ?_, fun hd he hf hb => ?_, fun hd he hf hb => ⟨fun hm => ?_, fun hm => ?_⟩⟩
    · rw [if_pos (hdark.2 hd)]
      exact State.startFailed_failStart _ (by decide) (by decide)
    all_goals rw [if_neg (by rw [hdark]; push Not; exact hd)]
    · rw [if_pos (by simpa using he)]
      exact State.startFailed_failStart _ (by decide) (by decide)
    all_goals rw [if_neg (by simp [he])]
    · rw [if_pos (by simpa using hf)]
      exact State.startFailed_failStart _ (by decide) (by decide)
    all_goals rw [if_neg (by simp [hf])]
    · rw [if_pos (hbad.2 hb)]
      exact State.startFailed_failStart _ (by decide) (by decide)
    all_goals rw [if_neg (by rw [hbad]; push Not; exact fun k hk => Nat.lt_of_not_le (hb k hk))]
    · rw [if_pos hm]
      exact State.startFailed_failStart _ (by decide) (by decide)
    · rw [if_neg (by simp [hm]), State.stage, State.get_put_same _ _ _ _ _ (by decide)]
      rfl

end

/-- Power on and the end of a restart begin the start sequence; the input sensor aside, they leave what it leaves. -/
theorem exec_start {s : State} {c : Instr} {env : StartEnv} {mv : Nat} (hr : s.Reaches c)
    (hc : (c = .powerOn mv env ∧ 48000 ≤ mv ∧ mv ≤ 58000 ∧
        ((s.power.mode = .off ∧ s.power.restarting = false) ∨ (s.power.mode = .starting ∧ s.get F.SEC_START.STAGE = 0))) ∨
      (c = .restartRailsOn env ∧ s.power.restarting = true)) :
    ∃ t, exec c s = .next t ∧ t.power = { mode := .starting } ∧ t.mem = [] ∧
      ∀ g : Fld, g.reg = .SEC_START → ∀ d i, t.get g d i = (s.unstarted.startUp env).get g d i := by
  have hframe := s.unstarted.startUp_frame env
  have hfatal : (s.unstarted.startUp env).flt.fatal = s.flt.fatal := hframe.fatal_eq.trans hr.2.2.symm
  rcases hc with ⟨rfl, hlo, hhi, hmode⟩ | ⟨rfl, hrestart⟩
  · have heffect : s.powerOn mv env = (s.unstarted.startUp env).put F.PWR_SENSE.INPUT_MV mv := by
      have hmay : ((s.power.mode == .off && !s.power.restarting) || (s.power.mode == .starting && s.get F.SEC_START.STAGE == 0)) = true := by
        rcases hmode with ⟨h1, h2⟩ | ⟨h1, h2⟩ <;> simp [h1, h2]
      simp only [State.powerOn, hmay, hlo, hhi, decide_true, Bool.and_self, if_true]
      rfl
    refine ⟨_, exec_eq_next (effect := fun s => s.powerOn mv env) hr rfl heffect hfatal, hframe.parts .power (by decide), hframe.mem_eq,
      fun g hg d i => ?_⟩
    rw [State.get_put_reg]
    rw [hg]
    decide
  · refine ⟨_, exec_eq_next (effect := fun s => if s.power.restarting then s.startFresh env else s) hr rfl (if_pos hrestart) hfatal,
      hframe.parts .power (by decide), hframe.mem_eq, fun g hg d i => rfl⟩

/-! ### The later stages -/

theorem State.beginDrain_source (s : State) (source : Nat) : (s.beginDrain source).get F.PWR_STATUS.DRAIN_SOURCE = source % 16 := by
  rw [State.get_congr (s.beginDrain_regs source), State.drainOpened, State.get_put_same _ _ _ _ _ (by decide)]
  rfl

/-- A drain that begins leaves the held request's bit alone. -/
theorem State.beginDrain_held (s : State) (source : Nat) :
    (s.beginDrain source).on F.PWR_STATUS.DRAIN_HELD = s.on F.PWR_STATUS.DRAIN_HELD := by
  rw [State.on, State.on, State.get_congr (s.beginDrain_regs source)]
  simp (disch := decide) [State.drainOpened, State.setMode, State.flag, State.get_put_reg, State.get_put_apart]

theorem State.beginDrain_state (s : State) (source : Nat) : (s.beginDrain source).get F.PWR_STATUS.STATE = 4 := by
  rw [State.get_congr (s.beginDrain_regs source)]
  simp (disch := decide) only [State.drainOpened, State.flag, State.get_put_reg, State.get_put_apart, State.get_setMode_state]
  rfl

theorem State.beginDrain_mode (s : State) (source : Nat) : (s.beginDrain source).power.mode = .draining := by
  rw [State.beginDrain_eq]
  split
  · rw [State.interruptTo_power]
    rfl
  · rfl



/-- The module once its boot code runs, before a held request acts (R587). -/
def State.booted (s : State) : State :=
  ((((s.store (fieldAt s.sec.image.boot 0 8) (s.sec.image.boot.drop 16)).stage 9).put F.HCX_STATUS.CORES_RUNNING 1 64).emit
    (.coreRelease 0 (fieldAt s.sec.image.boot 8 8))).setMode .running

theorem State.completeStart_booted {s : State} (hm : s.power.mode = .starting) (hs : s.get F.SEC_START.STAGE = 8)
    (hf : s.on F.SEC_START.FAILED = false) : s.completeStart =
      if s.on F.PWR_STATUS.DRAIN_HELD then
        ((s.booted.put F.PWR_STATUS.DRAIN_HELD 0).onPower fun p => { p with heldSource := 0 }).beginDrain s.power.heldSource
      else s.booted := by
  have hheld : s.booted.on F.PWR_STATUS.DRAIN_HELD = s.on F.PWR_STATUS.DRAIN_HELD := by
    simp (disch := decide) [State.booted, State.setMode, State.stage, State.on, State.get_put_reg, State.get_put_apart]
  rw [← hheld]
  simp only [State.completeStart, hm, hs, hf, beq_self_eq_true, Bool.not_false, Bool.and_self, if_true]
  rfl

end Sys2Proof.Machine

open Sys2Proof Sys2Proof.Machine

/-- Settles O56: the start sequence branch by branch, and the stages after it. -/
theorem startReachesItsStage : Obligations.StartReachesItsStage := by
  unfold Obligations.StartReachesItsStage
  refine ⟨?_, ?_, fun s hr => ⟨fun h => ?_, fun h => exec_eq_next (effect := State.readyWrite) hr rfl (if_neg h)⟩⟩
  · intro s c env mv hr hc s0 bad ends
    obtain ⟨t, hexec, hpower, hmem, hget⟩ := exec_start hr hc
    have hends : ∀ {stage cause}, (s.unstarted.startUp env).StartFailed stage cause → ends stage cause :=
      fun {stage cause} ⟨hstage, hfailed, hcause⟩ => ⟨t, hexec, by rw [hpower], (hget _ rfl _ _).trans hstage,
        by rw [State.on, hget _ rfl]; exact hfailed, (hget _ rfl _ _).trans hcause, hmem⟩
    refine ⟨fun hnone => hends ?_, fun hsome => ?_⟩
    · rw [State.startUp_of_none (s := s.unstarted) hnone]
      exact State.startFailed_failStart _ (by decide) (by decide)
    · obtain ⟨h1, h2, h3, h4, h5⟩ := State.startUp_of_some hsome
      refine ⟨fun hd => hends (h1 hd), fun hd he => hends (h2 hd he), fun hd he hf => hends (h3 hd he hf),
        fun hd he hf hb => hends (h4 hd he hf hb), fun hd he hf hb => ⟨fun hm => hends ((h5 hd he hf hb).1 hm), fun hm => ?_⟩⟩
      exact ⟨t, hexec, by rw [hpower], (hget _ rfl _ _).trans ((h5 hd he hf hb).2 hm), hmem⟩
  · intro s hinv hr boot
    refine ⟨fun hm hs hf => ?_, fun h => exec_eq_next (effect := State.completeStart) hr rfl (if_neg (by
      rcases h with h | h <;> simp [h]))⟩
    have heffect := State.completeStart_booted hm hs hf
    have hlen : (boot.drop 16).length = boot.length - 16 := List.length_drop ..
    have hbytes : s.booted.bytes (fieldAt boot 0 8) (boot.length - 16) = boot.drop 16 := by
      rw [← hlen]
      exact State.bytes_store_same hinv.mem _ _
    have hstage : s.booted.get F.SEC_START.STAGE = 9 := by
      simp (disch := decide) [State.booted, State.setMode, State.stage, State.get_put_reg, State.get_put_same]
    have hout : s.booted.out = s.out ++ [.coreRelease 0 (fieldAt boot 8 8)] := rfl
    have hfatal : s.booted.flt.fatal = s.flt.fatal := rfl
    cases hheld : s.on F.PWR_STATUS.DRAIN_HELD
    · rw [hheld] at heffect
      exact ⟨_, exec_eq_next (effect := State.completeStart) hr rfl heffect hfatal, hstage, hout, hbytes,
        fun _ => ⟨rfl, State.get_setMode_state _ _⟩, (nomatch ·)⟩
    · rw [hheld] at heffect
      simp only [if_true] at heffect
      have hframe := State.beginDrain_frame ((s.booted.put F.PWR_STATUS.DRAIN_HELD 0).onPower fun p => { p with heldSource := 0 })
        s.power.heldSource
      have hclear : ((s.booted.put F.PWR_STATUS.DRAIN_HELD 0).onPower fun p => { p with heldSource := 0 }).on F.PWR_STATUS.DRAIN_HELD =
          false := by simp [State.on, State.get_put_same]
      have hsource := State.beginDrain_source ((s.booted.put F.PWR_STATUS.DRAIN_HELD 0).onPower fun p => { p with heldSource := 0 })
        s.power.heldSource
      have hkept := State.beginDrain_held ((s.booted.put F.PWR_STATUS.DRAIN_HELD 0).onPower fun p => { p with heldSource := 0 })
        s.power.heldSource
      refine ⟨_, exec_eq_next (effect := State.completeStart) hr rfl heffect (hframe.fatal_eq.trans hfatal), ?_, hframe.out_eq.trans hout,
        (State.bytes_congr hframe.mem_eq _ _).trans hbytes, (nomatch ·), fun _ => ⟨?_, ?_, hsource, hkept.trans hclear⟩⟩
      · refine (hframe.get_eq F.SEC_START.STAGE _ _).trans ?_
        simpa (disch := decide) [State.get_put_reg] using hstage
      · exact State.beginDrain_mode _ _
      · exact State.beginDrain_state _ _
  · have heffect : s.readyWrite = (s.stage 10).checkJoined := if_pos h
    have hten : (s.stage 10).get F.SEC_START.STAGE = 10 := by
      rw [State.stage, State.get_put_same _ _ _ _ _ (by decide)]
      rfl
    have hlocked : (s.stage 10).get F.TCK_STATUS.STATE = s.get F.TCK_STATUS.STATE := by
      simp (disch := decide) [State.stage, State.get_put_reg]
    have hrouting : ∀ d, (s.stage 10).on F.VRT_BANK.ROUTING d = s.on F.VRT_BANK.ROUTING d := fun d => by
      simp (disch := decide) [State.stage, State.on, State.get_put_reg]
    refine .of_alters (effect := State.readyWrite) hr rfl ?_ ?_
    all_goals rw [heffect, State.checkJoined]; simp only [hten, hlocked, hrouting, beq_self_eq_true, Bool.true_and]
    · refine .ite ?_ ?_
      · exact (((State.Alters.refl s).put (d' := 72) (by simp) rfl).put (d' := 72) (by simp) rfl).put (d' := 72) (by simp) rfl
      · exact (State.Alters.refl s).put (d' := 72) (by simp) rfl
    · by_cases hj : s.get F.TCK_STATUS.STATE = 2 ∧ ([72, 73, 74, 75].all fun d => s.on F.VRT_BANK.ROUTING d) = true
      · rw [if_pos hj, if_pos (by simpa using hj)]
        simp (disch := decide) [State.flag, State.get_put_apart, State.get_put_same]
      · rw [if_neg hj, if_neg (by simpa using hj), hten]

end

/-! # Breaks and aborts (R101 to R105, R462 to R464)

An abort of a step that runs empties what the step had open (`State.abortStep_aborted`); a break in a calm module records itself,
aborts the step and makes no die fatal (`State.raiseBreak_first`). -/

section

namespace Sys2Proof.Machine

/-! ### Registers written over a list of places -/

/-- Dies outside a list keep the field that is written for those in it. -/
theorem State.get_foldl_put_notMem {f : Fld} (hh : f.reg.info.home = none) (v : State → Nat → Nat) {d : Nat} {l : List Nat} (hd : d ∉ l)
    (s : State) : (l.foldl (fun s d => s.put f (v s d) d) s).get f d = s.get f d := by
  induction l generalizing s with
  | nil => rfl
  | cons x l ih =>
    obtain ⟨hne, hx⟩ := List.ne_and_not_mem_of_not_mem_cons hd
    exact (ih hx _).trans (State.get_put_die hh (Ne.symm hne))

/-- A counter of each die of a list without repeats counts on (R105). -/
theorem State.get_foldl_bump {f : Fld} (hw : f.lo + f.len ≤ 64) (hh : f.reg.info.home = none) (n : Nat) {l : List Nat} (hl : l.Nodup)
    {d : Nat} (hd : d ∈ l) (s : State) :
    (l.foldl (fun s d => s.bump f n d) s).get f d = min (s.get f d + n) (2 ^ f.len - 1) := by
  induction l generalizing s with
  | nil => simp at hd
  | cons x l ih =>
    obtain ⟨hnot, hl⟩ := List.nodup_cons.1 hl
    rw [List.foldl_cons]
    by_cases hx : x = d
    · subst hx
      have hlt : min (s.get f x + n) (2 ^ f.len - 1) < 2 ^ f.len := by have := Nat.two_pow_pos f.len; omega
      have hrest := State.get_foldl_put_notMem hh (fun s d => min (s.get f d + n) (2 ^ f.len - 1)) hnot (s.bump f n x)
      refine hrest.trans ?_
      rw [State.bump, State.get_put_same _ _ _ _ _ hw, Nat.mod_eq_of_lt hlt]
    · rw [ih hl ((List.mem_cons.1 hd).resolve_left (Ne.symm hx)), State.bump, State.get_put_die hh hx]

/-- A field that is cleared for each die of a list reads 0 there. -/
theorem State.get_foldl_put_zero {f : Fld} (hw : f.lo + f.len ≤ 64) (hh : f.reg.info.home = none) {l : List Nat} {d : Nat} (hd : d ∈ l)
    (s : State) : (l.foldl (fun s d => s.put f 0 d) s).get f d = 0 := by
  induction l generalizing s with
  | nil => simp at hd
  | cons x l ih =>
    by_cases hl : d ∈ l
    · exact ih hl _
    · obtain rfl := (List.mem_cons.1 hd).resolve_right hl
      rw [List.foldl_cons, State.get_foldl_put_notMem hh (fun _ _ => 0) hl, State.get_put_same _ _ _ _ _ hw, Nat.zero_mod]

/-! ### What an abort leaves (R102, R104, R105) -/

theorem State.bump_touch (s : State) (f : Fld) (n d i : Nat) : Frame ⟨[], [f.reg], false⟩ s (s.bump f n d i) :=
  s.put_touch f _ d i

theorem State.cancelWaiters_syn (s : State) : s.cancelWaiters.syn = { s.syn with waiters := [] } :=
  (Frame.foldl (K := ⟨[], [.SYN_OBJ_VALUE], false⟩) fun t (k : Nat × Nat) => t.put_touch F.SYN_OBJ_VALUE.WAITERS 0 k.1 k.2).parts .syn
    (by decide)

theorem State.emptyHolds_syn (s : State) : s.emptyHolds.syn = { s.syn with hold := [] } :=
  (Frame.foldl (K := ⟨[], [.SYN_STATUS], false⟩) fun t (d : Nat) => t.put_touch F.SYN_STATUS.HELD 0 d 0).parts .syn (by decide)

theorem State.abortReductions_rdx (s : State) : s.abortReductions.rdx = { s.rdx with tags := [], hold := [] } := rfl

theorem State.abortTables_codec (s : State) : s.abortTables.codec.pending = [] ∧ s.abortTables.codec.cached = [] := ⟨rfl, rfl⟩

theorem UnitSt.abort_spec (x : UnitSt) : x.abort.stopped = true ∧ x.abort.stall = none ∧ ∀ o ∈ x.abort.ops, o.cut = true := by
  refine ⟨rfl, rfl, fun o ho => ?_⟩
  obtain ⟨o', -, rfl⟩ := List.mem_map.1 ho
  rfl

theorem State.setSched_aborting (s : State) : s.setSched .aborting = s.onSched fun c => { c with st := .aborting } := rfl

theorem State.get_bumpEpoch (s : State) {d : Nat} (hd : d ∈ schedDies) :
    s.bumpEpoch.get F.SCH_EPOCH.VALUE d = min (s.get F.SCH_EPOCH.VALUE d + 1) (2 ^ 32 - 1) := by
  rw [State.bumpEpoch, State.get_foldl_bump (f := F.SCH_EPOCH.VALUE) (by decide) rfl 1 (by decide +kernel) hd s]

theorem State.on_cancelSwitches (s : State) {d : Nat} (hd : d ∈ [72, 73, 74, 75]) : s.cancelSwitches.on F.VRT_BANK.ARMED d = false := by
  rw [State.cancelSwitches, State.on, State.get_foldl_put_zero (f := F.VRT_BANK.ARMED) (by decide) rfl hd s, bne_self_eq_false]

/-- An abort of a step that runs. -/
theorem State.abortStep_aborted {s : State} (hs : s.sched.st = .running) (he : s.sched.stepEnded = false) :
    s.Aborted s.abortStep := by
  unfold State.abortStep
  extract_lets phases emptied cleared armed
  rw [if_neg (by simp [hs]), if_neg (by simp [he])]
  have hphases : Frame ⟨storeParts ++ [Part.sched, Part.ldg], ledgerRegs, false⟩ s phases :=
    Frame.foldl fun t x => State.phaseRecord_frame t _ _
  have hepochs : ∀ d, emptied.get F.SCH_EPOCH.VALUE d = s.get F.SCH_EPOCH.VALUE d := fun d =>
    (State.get_onSched ..).trans (hphases.get_eq _ _ _)
  have hitems : emptied.sched.items = [] ∧ emptied.sched.mesh = [] ∧ emptied.sched.tokens = [] := ⟨rfl, rfl, rfl⟩
  have hunits : ∀ p ∈ emptied.sched.units, ∃ x : UnitSt, p.2 = x.abort := fun p hp => by
    obtain ⟨q, -, rfl⟩ := List.mem_map.1 (show p ∈ phases.sched.units.map fun p => (p.1, p.2.abort) from hp)
    exact ⟨q.2, rfl⟩
  clear_value emptied
  have htail : Frame ⟨[.syn, .rdx, .codec], [.SYN_OBJ_VALUE, .SYN_STATUS, .RDX_STRAY, .CDC_EVENTS, .CDC_PENDING, .VRT_BANK], false⟩
      emptied.bumpEpoch cleared := by
    refine Frame.step ?_ (State.cancelSwitches_frame _)
    refine Frame.step ?_ (State.abortTables_frame _)
    refine Frame.step ?_ (State.abortReductions_frame _)
    exact ((Frame.refl _).step (State.cancelWaiters_frame _)).step (State.emptyHolds_frame _)
  have hsched : cleared.sched = emptied.sched := htail.sched_eq.trans emptied.bumpEpoch_frame.sched_eq
  have hepoch : ∀ d ∈ schedDies, cleared.get F.SCH_EPOCH.VALUE d = min (s.get F.SCH_EPOCH.VALUE d + 1) (2 ^ 32 - 1) := fun d hd => by
    rw [htail.get_eq _ _ _, State.get_bumpEpoch _ hd, hepochs]
  have harmed : ∀ d ∈ [72, 73, 74, 75], cleared.on F.VRT_BANK.ARMED d = false := fun d hd => State.on_cancelSwitches _ hd
  have hsyn : cleared.syn.waiters = [] ∧ cleared.syn.hold = [] := by
    have : cleared.syn = emptied.bumpEpoch.cancelWaiters.emptyHolds.syn := by
      rw [(State.cancelSwitches_frame _).parts .syn (by decide), (State.abortTables_frame _).parts .syn (by decide),
        (State.abortReductions_frame _).parts .syn (by decide)]
    rw [this, State.emptyHolds_syn, State.cancelWaiters_syn]
    exact ⟨rfl, rfl⟩
  have hrdx : cleared.rdx.tags = [] ∧ cleared.rdx.hold = [] := by
    have : cleared.rdx = emptied.bumpEpoch.cancelWaiters.emptyHolds.abortReductions.rdx := by
      rw [(State.cancelSwitches_frame _).parts .rdx (by decide), (State.abortTables_frame _).parts .rdx (by decide)]
    rw [this, State.abortReductions_rdx]
    exact ⟨rfl, rfl⟩
  have hcodec : cleared.codec.pending = [] ∧ cleared.codec.cached = [] := by
    have : cleared.codec = emptied.bumpEpoch.cancelWaiters.emptyHolds.abortReductions.abortTables.codec :=
      (State.cancelSwitches_frame _).parts .codec (by decide)
    rw [this]
    exact State.abortTables_codec _
  clear_value cleared
  rw [State.setSched_aborting]
  refine ⟨by simp, fun d hd => ?_, by simpa [armed, hsched] using hitems, by simpa [armed] using hsyn, by simpa [armed] using hrdx,
    by simpa [armed] using hcodec, by simp [armed], ⟨by simp [armed], by simp [State.on, State.get_put_same]⟩, fun d hd => ?_,
    fun p hp => ?_⟩
  · rw [State.get_onSched, State.get_put_reg (by decide), State.get_onUpd, State.get_onFsel, hepoch d hd]
  · rw [State.on, State.get_onSched, State.get_put_reg (by decide), State.get_onUpd, State.get_onFsel, ← State.on, harmed d hd]
  · obtain ⟨x, hx⟩ := hunits p (by simpa [armed, hsched] using hp)
    rw [hx]
    exact x.abort_spec

/-! ### Breaks -/

/-- Beside its packets an ABORT leaves only the release that the root owes (R463). -/
theorem State.sendAbort_sched (s : State) (tick segment cause unit : Nat) (halt : Bool) :
    ∃ b, (s.sendAbort tick segment cause unit halt).sched = { s.sched with release := b } := by
  have hbcast : ∀ (t : State) d p, (t.tc0Bcast d p).sched = t.sched := fun t d p => (t.tc0Bcast_frame d p).sched_eq
  have hto : ∀ (t : State) d m e p, (t.tc0To d m e p).sched = t.sched := fun t d m e p => (t.tc0To_frame d m e p).sched_eq
  unfold State.sendAbort
  extract_lets p packet bcast mirrored
  have hmirrored : mirrored.sched = s.sched := by
    simp only [mirrored]
    split
    · exact (hto _ _ _ _ _).trans (hbcast _ _ _)
    · exact hbcast _ _ _
  split
  · exact ⟨s.sched.release, rfl⟩
  · split
    · split
      · exact ⟨s.sched.release, hmirrored⟩
      · exact ⟨true, by rw [State.onSched_sched, hmirrored]⟩
    · exact ⟨s.sched.release, hto _ _ _ _ _⟩

/-- What an abort left stands when only the schedule's release and its halt change. -/
theorem State.Aborted.step {s t u : State} {K : Touch} (h : s.Aborted t) (g : Frame K t u)
    (hs : u.sched.st = t.sched.st ∧ u.sched.items = t.sched.items ∧ u.sched.mesh = t.sched.mesh ∧ u.sched.tokens = t.sched.tokens ∧
      u.sched.units = t.sched.units)
    (hk : K.any = false ∧ (∀ r ∈ [Reg.SCH_EPOCH, .UPD_STATUS, .VRT_BANK], r ∉ K.regs) ∧
      ∀ p ∈ [Part.syn, .rdx, .codec, .fsel, .upd], p ∉ K.parts := by decide) : s.Aborted u := by
  obtain ⟨hany, hregs, hparts⟩ := hk
  obtain ⟨hst, hitems, hmesh, htokens, hunits⟩ := hs
  have hget : ∀ f : Fld, f.reg ∈ [Reg.SCH_EPOCH, .UPD_STATUS, .VRT_BANK] → ∀ d i, u.get f d i = t.get f d i := fun f hf d i =>
    g.get_eq f d i (hregs _ hf) hany
  have hsyn : u.syn = t.syn := g.parts .syn (hparts _ (by decide))
  have hrdx : u.rdx = t.rdx := g.parts .rdx (hparts _ (by decide))
  have hcodec : u.codec = t.codec := g.parts .codec (hparts _ (by decide))
  have hfsel : u.fsel = t.fsel := g.parts .fsel (hparts _ (by decide))
  have hupd : u.upd = t.upd := g.parts .upd (hparts _ (by decide))
  exact ⟨hst.trans h.state, fun d hd => (hget F.SCH_EPOCH.VALUE (by decide) d 0).trans (h.epoch d hd),
    by rw [hitems, hmesh, htokens]; exact h.items, hsyn ▸ h.waiters, hrdx ▸ h.tags, hcodec ▸ h.tables, hfsel ▸ h.formats,
    ⟨hupd ▸ h.commit.1, (congrArg (· != 0) (hget F.UPD_STATUS.COMMIT_WAIT (by decide) _ _)).trans h.commit.2⟩,
    fun d hd => (congrArg (· != 0) (hget F.VRT_BANK.ARMED (by decide) d 0)).trans (h.armed d hd), fun p hp => h.units p (hunits ▸ hp)⟩

/-- An abort of a state that differs from another in no epoch aborts that one as well. -/
theorem State.Aborted.of_epoch {s s' t : State} (h : s'.Aborted t)
    (he : ∀ d, s'.get F.SCH_EPOCH.VALUE d = s.get F.SCH_EPOCH.VALUE d) : s.Aborted t :=
  ⟨h.state, fun d hd => by rw [h.epoch d hd, he], h.items, h.waiters, h.tags, h.tables, h.formats, h.commit, h.armed, h.units⟩

/-- From `s` to `t` nothing of the schedule changed but the units' own states. -/
def State.SchedStands (s t : State) : Prop := t.sched = { s.sched with units := t.sched.units }

section
variable {K : Touch} {s t u : State}

theorem State.SchedStands.of_sched (h : t.sched = s.sched) : s.SchedStands t := by rw [SchedStands, h]

theorem State.SchedStands.refl (s : State) : s.SchedStands s := rfl

theorem State.SchedStands.trans (h : s.SchedStands t) (g : t.SchedStands u) : s.SchedStands u := by
  rw [SchedStands, g, h]

theorem State.SchedStands.step (h : s.SchedStands t) (g : Frame K t u) (hk : Part.sched ∉ K.parts := by decide) : s.SchedStands u :=
  h.trans (.of_sched (g.sched_eq hk))

theorem State.SchedStands.onUnit (h : s.SchedStands t) (v : Nat) (f : UnitSt → UnitSt) : s.SchedStands (t.onUnit v f) :=
  h.trans rfl

theorem State.SchedStands.ite {c : Prop} [Decidable c] (h : s.SchedStands t) (g : s.SchedStands u) :
    s.SchedStands (if c then t else u) := by split <;> assumption

theorem State.SchedStands.foldl {α : Type} {f : State → α → State} (hf : ∀ (s : State) x, s.SchedStands (f s x)) (l : List α) (s : State) :
    s.SchedStands (l.foldl f s) := by
  induction l generalizing s with
  | nil => exact .refl s
  | cons x l ih => exact (hf s x).trans (ih _)

end

theorem State.placeRecord_schedStands (s : State) (r : FaultRec) (own : Bool) : s.SchedStands (s.placeRecord r own) := by
  unfold State.placeRecord
  extract_lets full enabled t
  have ht : s.SchedStands t := .ite (.of_sched rfl) (.refl s)
  refine .ite (ht.step (State.queueRecord_frame _ _)) (.ite (.ite (ht.onUnit _ _) (ht.step (State.wadiRecord_frame _ _ _))) ?_)
  split
  · exact ht.step (State.wadiRecord_frame _ _ _)
  · exact ht.trans (.of_sched rfl)

theorem State.collect_schedStands (s : State) (r : FaultRec) : s.SchedStands (s.collect r) := by
  unfold State.collect
  extract_lets die counted peaked entered fenced
  have hentered : s.SchedStands entered := .ite (.of_sched rfl) (.of_sched rfl)
  have hfenced : s.SchedStands fenced := .ite (hentered.step (State.fence_frame _ _)) hentered
  exact .ite hfenced (.ite (hfenced.step (State.coalesceRecord_frame _ _))
    ((hfenced.step (State.forwardRecord_frame _ _)).trans (State.placeRecord_schedStands _ _ _)))

theorem State.faultOf_schedStands (s : State) (u cause : Nat) (f : FaultRec → FaultRec) : s.SchedStands (s.faultOf u cause f) :=
  s.collect_schedStands _

theorem State.phaseRecord_schedStands (s : State) (u : Nat) (aborted : Bool) : s.SchedStands (s.phaseRecord u aborted) := by
  unfold State.phaseRecord
  extract_lets x here cycle counted y
  have hcounted : s.SchedStands counted := (SchedStands.of_sched (t := (s.took 1).took 3) rfl).onUnit _ _
  exact .ite (.refl s) (hcounted.step (State.ledger_frame _ _))

/-- What an abort leaves of the schedule beside the units. -/
theorem State.abortStep_sched {s : State} (hs : s.sched.st = .running) (he : s.sched.stepEnded = false) : ∃ us,
    s.abortStep.sched = { s.sched with st := .aborting, items := [], carried := [], tokens := [], mesh := [], units := us } := by
  unfold State.abortStep
  extract_lets phases emptied cleared armed
  rw [if_neg (by simp [hs]), if_neg (by simp [he])]
  have hphases : s.SchedStands phases := .foldl (fun t x => State.phaseRecord_schedStands t _ _) _ _
  have hcleared : cleared.sched = emptied.sched := by
    rw [(State.cancelSwitches_frame _).sched_eq, (State.abortTables_frame _).sched_eq, (State.abortReductions_frame _).sched_eq,
      (State.emptyHolds_frame _).sched_eq, (State.cancelWaiters_frame _).sched_eq, (State.bumpEpoch_frame _).sched_eq]
  refine ⟨emptied.sched.units, ?_⟩
  rw [State.setSched_aborting, State.onSched_sched, State.put_sched, State.onUpd_sched, State.onFsel_sched, hcleared, State.onSched_sched,
    hphases]

/-- The first break of a step in a calm module: it is recorded, the step aborts, and no die becomes fatal (R101 to R103). -/
theorem State.raiseBreak_first {s : State} (hin : s.inStep) (hc : s.Calm 1) (cause unit segment : Nat) (halt : Bool) :
    s.Aborted (s.raiseBreak cause unit segment halt) ∧
    (s.raiseBreak cause unit segment halt).get F.SCH_BREAK.CAUSE = cause % 16 ∧
    (s.raiseBreak cause unit segment halt).sched.halt = (halt || s.sched.halt) ∧
    (s.raiseBreak cause unit segment halt).flt.fatal = s.flt.fatal := by
  obtain ⟨hst, hended, hbroken⟩ := hin
  unfold State.raiseBreak
  extract_lets noUnit u seg tick event halted extra recorded reported
  have hhalted : halted.sched = { s.sched with halt := halt || s.sched.halt } := by
    simp only [halted]
    cases halt <;> rfl
  have hnew : halted.sched.broken = false := by rw [hhalted]; exact hbroken
  rw [if_neg (by simp [State.active, hst]), if_neg (by simp [hnew])]
  have hhframe : Frame ⟨[.sched], [.SCH_EVENTS], false⟩ s halted := by
    have hevent : Frame ⟨[.sched], [.SCH_EVENTS], false⟩ s event := (Frame.refl s).step (s.put_touch _ _ _ _)
    exact .ite (hevent.step (State.onSched_frame _ _)) hevent
  have hrframe : Frame ⟨[.sched], [.SCH_EVENTS, .SCH_BREAK, .SCH_BREAK_TICK], false⟩ s recorded :=
    ((Frame.refl s).step hhframe).step (State.recordBreak_frame ..)
  have hrecorded : recorded.sched = { s.sched with halt := halt || s.sched.halt, broken := true } := by
    simp only [recorded, State.recordBreak, State.onSched_sched, State.put_sched, hhalted]
  have hcause : recorded.get F.SCH_BREAK.CAUSE = cause % 16 := by
    simp (disch := decide) only [recorded, State.recordBreak, State.get_onSched, State.get_put_reg, State.get_put_apart]
    rw [State.get_put_same _ _ _ _ _ (by decide)]
    rfl
  have hstands : recorded.SchedStands reported := State.faultOf_schedStands _ _ _ _
  have hfault : Frame ⟨recordParts, recordRegs, false⟩ recorded reported := State.faultOf_frame _ _ _ _
  have hfatal : reported.flt.fatal = s.flt.fatal :=
    ((State.faultOf_spares _ _ _ _ 0 ((State.Spares.of_frame (n := 0) hrframe) 1 hc).1).2).trans hrframe.fatal_eq
  clear_value recorded reported halted
  have hrun : reported.sched.st = .running ∧ reported.sched.stepEnded = false := by
    rw [hstands, hrecorded]
    exact ⟨hst, hended⟩
  obtain ⟨us, hsched⟩ := State.abortStep_sched hrun.1 hrun.2
  have habort := (State.abortStep_aborted hrun.1 hrun.2).of_epoch (s := s) fun d =>
    (hfault.get_eq _ _ _).trans (hrframe.get_eq _ _ _)
  have haframe := reported.abortStep_frame
  generalize reported.abortStep = aborted at *
  have hsend := aborted.sendAbort_frame tick seg cause u halt
  obtain ⟨b, hb⟩ := aborted.sendAbort_sched tick seg cause u halt
  refine ⟨habort.step hsend (by simp [hb]), ?_, ?_, ?_⟩
  · rw [hsend.get_eq _ _ _, haframe.get_eq _ _ _, hfault.get_eq _ _ _, hcause]
  · rw [hb, hsched, hstands, hrecorded]
  · rw [hsend.fatal_eq, haframe.fatal_eq, hfatal]

end Sys2Proof.Machine

end

/-! # The tick (R66 to R82, R559, R642)

A tick counts on its die alone, since no effect that falls at a tick writes TCK_COUNT; a mark that is taken in LOCKED changes the
offset, the runs and the state as the row of R74 says. -/

section

namespace Sys2Proof.Machine

/-! ### Ticks -/

theorem State.now_addWrap (s : State) (die d : Nat) :
    (s.addWrap F.TCK_COUNT.COUNT 1 die).now d = if d = die then (s.now d + 1) % 2 ^ 64 else s.now d := by
  by_cases h : d = die
  · subst h
    rw [if_pos rfl, State.now, State.addWrap, State.get_put_same _ _ _ _ _ (by decide)]
    rfl
  · rw [if_neg h, State.now, State.addWrap, State.get_put_die rfl (Ne.symm h), State.now]

/-- What falls at a tick writes no tick count. -/
theorem State.now_tickDie (s : State) (die d : Nat) : (s.tickDie die).now d = (s.addWrap F.TCK_COUNT.COUNT 1 die).now d := by
  unfold State.tickDie
  extract_lets counted ticked
  have hticked : ticked.now d = counted.now d := by
    simp only [ticked]
    split
    · exact counted.tickModule_frame.get_eq F.TCK_COUNT.COUNT d 0
    · rfl
  rw [← hticked]
  generalize ticked = t
  have hunits : Frame ⟨abortParts, abortRegs ++ readRegs ++ [Reg.SCH_REPLAY, Reg.SCH_SLIP_COUNT, Reg.SCH_STEP, Reg.UPD_COUNTS,
      Reg.UPD_EVENTS, Reg.UPD_LOSS, Reg.UPD_UNUM], false⟩ t ((dieStreamUnits die).foldl (fun s u => (s.countTick u).goOn u 0) t) :=
    Frame.foldl fun t u => ((Frame.refl t).step (t.countTick_frame u)).step (State.goOn_frame _ _ _)
  exact hunits.get_eq F.TCK_COUNT.COUNT d 0

theorem State.now_settle (s : State) (d : Nat) : s.settle.now d = s.now d := s.settle_frame.get_eq F.TCK_COUNT.COUNT d 0

/-! ### Masters -/

theorem State.checkJoined_alters {s t : State} {parts : List Part} {fs : List (Fld × Nat × Nat)} (h : State.Alters parts fs s t)
    (h1 : (F.SEC_START.STAGE, 0, 0) ∈ fs) (h2 : (F.SEC_START.JOINED, 0, 0) ∈ fs) : State.Alters parts fs s t.checkJoined := by
  unfold State.checkJoined
  exact .ite ((h.put h1 rfl).put h2 rfl) h

/-- A module that begins to send marks from its own timer (R76, R79, R642). -/
def State.switchMaster (s : State) : State :=
  ((s.flag F.TCK_EVENTS.MASTER_SWITCH).onTick fun t => { t with sending := true }).readsOwn.checkJoined

theorem State.switchMaster_readsOwn (s : State) :
    ((s.flag F.TCK_EVENTS.MASTER_SWITCH).onTick fun t => { t with sending := true }).readsOwn =
      ((((s.flag F.TCK_EVENTS.MASTER_SWITCH).onTick fun t => { t with sending := true }).put F.TCK_STATUS.SOURCE s.moduleNo).put
        F.TCK_STATUS.MISSED 0 |>.put F.TCK_STATUS.OFFSET_PS 0).put F.TCK_STATUS.STATE tickLocked := by
  have hmodule : ((s.flag F.TCK_EVENTS.MASTER_SWITCH).onTick fun t => { t with sending := true }).moduleNo = s.moduleNo := by
    simp (disch := decide) [State.moduleNo, State.flag, State.get_put_reg]
  have hown : ((s.flag F.TCK_EVENTS.MASTER_SWITCH).onTick fun t => { t with sending := true }).ownTimer = true := by
    simp [State.ownTimer]
  rw [State.readsOwn, if_pos hown, hmodule]

theorem State.switchMaster_spec (s : State) : s.switchMaster.on F.TCK_EVENTS.MASTER_SWITCH = true ∧
    s.switchMaster.tick = { s.tick with sending := true } ∧ s.switchMaster.tickState = 2 ∧
    s.switchMaster.get F.TCK_STATUS.SOURCE = s.moduleNo ∧ s.switchMaster.get F.TCK_STATUS.OFFSET_PS = 0 := by
  have hmodule : s.moduleNo % 2 ^ F.TCK_STATUS.SOURCE.len = s.moduleNo := Nat.mod_eq_of_lt (s.get_lt F.SEC_IDENTITY.MODULE _ _)
  refine ⟨?_, ?_, ?_, ?_, ?_⟩
  · rw [State.on, State.switchMaster, State.get_checkJoined _ (by decide), State.switchMaster_readsOwn]
    simp (disch := decide) [State.flag, State.get_put_reg, State.get_put_same]
  · rw [State.switchMaster, (State.checkJoined_frame _).parts .tick (by decide), State.switchMaster_readsOwn]
    simp
  · rw [State.tickState, State.switchMaster, State.get_checkJoined _ (by decide), State.switchMaster_readsOwn,
      State.get_put_same _ _ _ _ _ (by decide)]
    rfl
  · rw [State.switchMaster, State.get_checkJoined _ (by decide), State.switchMaster_readsOwn]
    simp (disch := decide) only [State.get_put_apart]
    rw [State.get_put_same _ _ _ _ _ (by decide), hmodule]
  · rw [State.switchMaster, State.get_checkJoined _ (by decide), State.switchMaster_readsOwn]
    simp (disch := decide) [State.get_put_apart, State.get_put_same]

end Sys2Proof.Machine

open Sys2Proof Sys2Proof.Machine

/-- Settles O18: the count of a tick by the footprints of what falls at it, the switch of a master by its effect. -/
theorem ticksCountAndMastersSwitch : Obligations.TicksCountAndMastersSwitch := by
  unfold Obligations.TicksCountAndMastersSwitch
  refine ⟨fun s die hr => ⟨_, exec_settled (effect := fun s => s.tickDie die) hr rfl, fun d => ?_⟩, fun s c hr hc hsend => ?_, fun s time hr => ⟨fun h1 h2 => ?_, fun h => ?_⟩⟩
  · rw [State.now_settle, State.now_tickDie, State.now_addWrap]
  · have heffect : ∃ effect, exec c s = act c s effect ∧ (8 ≤ s.tick.noMaster → effect s = s.switchMaster) ∧
        (s.tick.noMaster < 8 → effect s = s) := by
      rcases hc with ⟨rfl, hrole⟩ | ⟨rfl, hrole⟩
      all_goals exact ⟨_, rfl, fun h => if_pos (by simp [hrole, hsend, h]), fun h => if_neg (by simp; omega)⟩
    obtain ⟨effect, hexec, hswitch, hstay⟩ := heffect
    refine ⟨fun h => ?_, fun h => exec_eq_next hr hexec (hstay h)⟩
    refine .of_alters hr hexec ?_ ?_
    all_goals rw [hswitch h]
    · refine State.checkJoined_alters ?_ (by simp) (by simp)
      rw [State.switchMaster_readsOwn]
      have hflagged := ((State.Alters.refl (parts := [.tick]) (fs := [(F.TCK_EVENTS.MASTER_SWITCH, 0, 0), (F.TCK_STATUS.SOURCE, 0, 0),
        (F.TCK_STATUS.MISSED, 0, 0), (F.TCK_STATUS.OFFSET_PS, 0, 0), (F.TCK_STATUS.STATE, 0, 0), (F.SEC_START.STAGE, 0, 0),
        (F.SEC_START.JOINED, 0, 0)]) s).put (f := F.TCK_EVENTS.MASTER_SWITCH) (v := 1) (d := 0) (d' := 0) (i := 0) (by simp) rfl)
      have htick := hflagged.frame (State.onTick_frame _ fun t => { t with sending := true }) (by decide) (by simp)
      exact (((htick.put (by simp) rfl).put (by simp) rfl).put (by simp) rfl).put (by simp) rfl
    · exact s.switchMaster_spec
  · exact exec_eq_next hr rfl (if_pos (by simp [h1, h2]))
  · refine exec_eq_next hr rfl (if_neg ?_)
    rcases h with h | h
    · simp [h]
    · simp only [Bool.and_eq_true, decide_eq_true_eq]
      omega

namespace Sys2Proof.Machine

/-! ### Marks -/

theorem State.nearestTick_onTick (s : State) {f : TickSt → TickSt} (hf : (f s.tick).lastMark = s.tick.lastMark ∧
    (f s.tick).nextMark = s.tick.nextMark) (t : Int) : (s.onTick f).nearestTick t = s.nearestTick t := by
  simp only [State.nearestTick, State.now, State.periodPs, State.get_onTick, State.onTick_tick, hf.1, hf.2]
  rfl

theorem State.timeOfTick_onTick (s : State) {f : TickSt → TickSt} (hf : (f s.tick).lastMark = s.tick.lastMark ∧
    (f s.tick).nextMark = s.tick.nextMark) (n : Nat) : (s.onTick f).timeOfTick n = s.timeOfTick n := by
  simp only [State.timeOfTick, State.now, State.periodPs, State.get_onTick, State.onTick_tick, hf.1, hf.2]
  rfl

/-- What an accepted mark for the tick that is nearest leaves in LOCKED (R74). -/
structure State.MarkTaken (s t : State) (source : Nat) (off : Int) : Prop where
  missed : t.get F.TCK_STATUS.MISSED = 0
  source : t.get F.TCK_STATUS.SOURCE = bits source 16 12
  marked : t.tick.noMark = 0 ∧ t.tick.marked = true
  near   : off.natAbs ≤ 15000 → t.tickState = 2 ∧ t.tick.offset = off ∧ t.tick.badRun = 0
  far    : 25000 < off.natAbs → t.tickState = 1 ∧ t.on F.TCK_EVENTS.LOCK_LOST = true
  fatal  : t.flt.fatal = s.flt.fatal

/-- The row of R74 in LOCKED. -/
theorem State.markRow_locked {s : State} (h : s.tickState = 2) (off : Nat) (twice : Bool) : s.markRow off twice =
    let t := s.onTick fun t => { t with goodRun := 0, badRun := if 15000 < off then (if twice then t.badRun else t.badRun + 1) else 0 }
    if 25000 < off ∨ 4 ≤ t.tick.badRun then (t.flag F.TCK_EVENTS.LOCK_LOST).enterTick tickAcquire else t := by
  have hstate : ∀ f, (s.onTick f).tickState = 2 := fun f => by rw [State.tickState, State.get_onTick]; exact h
  simp only [State.markRow, hstate, h, tickAcquire, tickLocked, OfNat.ofNat_ne_one, false_and, if_false, true_and]

/-- The registers and the timer once a mark is accepted (R71, R73). -/
def State.noteMark (s : State) (source c : Nat) (off : Int) (backup : Bool) : State :=
  (((s.put F.TCK_STATUS.OFFSET_PS (unsigned 32 off)).put F.TCK_STATUS.MISSED 0).put F.TCK_STATUS.SOURCE (bits source 16 12)).onTick fun x =>
    { x with noMark := 0, marked := true, fromMaster := x.fromMaster || !backup
             masterMark := if backup then x.masterMark else some c }

theorem State.noteMark_spec (s : State) (source c : Nat) (off : Int) (backup : Bool) :
    (s.noteMark source c off backup).tickState = s.tickState ∧ (s.noteMark source c off backup).get F.TCK_STATUS.MISSED = 0 ∧
    (s.noteMark source c off backup).get F.TCK_STATUS.SOURCE = bits source 16 12 := by
  refine ⟨?_, ?_, ?_⟩
  · simp (disch := decide) only [State.noteMark, State.tickState, State.get_onTick, State.get_put_apart]
  · simp (disch := decide) [State.noteMark, State.get_put_apart, State.get_put_same]
  · simp only [State.noteMark, State.get_onTick]
    rw [State.get_put_same _ _ _ _ _ (by decide)]
    exact Nat.mod_eq_of_lt (bits_lt _ _ _)

/-- The mark in LOCKED for the tick that is nearest: noted, and judged by its row. -/
theorem State.followMark_eq {s : State} {mark : Bytes} {arrival : Nat} (backup : Bool) (hs : s.tickState = 2) {off : Int}
    (hc : fieldAt mark 8 8 = s.nearestTick ((arrival : Int) - (fieldAt mark 16 8 : Int)))
    (ho : off = ((arrival : Int) - (fieldAt mark 16 8 : Int)) - s.timeOfTick (s.nearestTick ((arrival : Int) - (fieldAt mark 16 8 : Int)))) :
    s.followMark mark arrival backup =
      ((s.noteMark (fieldAt mark 2 4) (fieldAt mark 8 8) off backup).onTick fun x => { x with offset := off }).markRow off.natAbs
        s.tick.marked := by
  have hst := (s.noteMark_spec (fieldAt mark 2 4) (fieldAt mark 8 8) off backup).1.trans hs
  subst ho
  unfold State.followMark
  extract_lets c time n off twice shown noted st
  have hstate : st = 2 := hst
  rw [hstate, if_neg (by decide), if_neg (not_not.2 hc), if_neg (by decide)]
  rfl

/-- A mark within 15 ns keeps LOCKED, one off by more than 25 ns loses it (R74). -/
theorem State.markRow_taken {s t : State} {source : Nat} {off : Int} (ht : t.tickState = 2) (hm : t.get F.TCK_STATUS.MISSED = 0)
    (hs : t.get F.TCK_STATUS.SOURCE = bits source 16 12) (hn : t.tick.noMark = 0 ∧ t.tick.marked = true) (ho : t.tick.offset = off)
    (hf : t.flt.fatal = s.flt.fatal) (twice : Bool) : s.MarkTaken (t.markRow off.natAbs twice).checkJoined source off := by
  have hget : ∀ (v : State) (g : Fld), g.reg ≠ .SEC_START → v.checkJoined.get g = v.get g := fun v g hg => v.get_checkJoined hg _ _
  have htick : ∀ v : State, v.checkJoined.tick = v.tick := fun v => v.checkJoined_frame.parts .tick (by decide)
  have hfatal : ∀ v : State, v.checkJoined.flt.fatal = v.flt.fatal := fun v => v.checkJoined_frame.fatal_eq
  rw [State.markRow_locked ht]
  extract_lets run
  have hrun : ∀ f d i, run.get f d i = t.get f d i := fun f d i => State.get_onTick ..
  have hbad : run.tick.badRun = if 15000 < off.natAbs then (if twice then t.tick.badRun else t.tick.badRun + 1) else 0 := rfl
  have hrunTick : run.tick.noMark = 0 ∧ run.tick.marked = true ∧ run.tick.offset = off := ⟨hn.1, hn.2, ho⟩
  have hrunFatal : run.flt.fatal = s.flt.fatal := hf
  clear_value run
  obtain ⟨hnoMark, hmarked, hoffset⟩ := hrunTick
  have hstate : run.tickState = 2 := (hrun _ _ _).trans ht
  split
  · next hlost =>
    have hfar : 15000 < off.natAbs := by
      by_contra h
      rw [if_neg h] at hbad
      omega
    refine ⟨?_, ?_, ?_, fun h => absurd hfar (by omega), fun _ => ⟨?_, ?_⟩, ?_⟩
    · rw [hget _ _ (by decide)]
      simp (disch := decide) [State.enterTick, State.flag, State.get_put_reg, State.get_put_apart, hrun, hm]
    · rw [hget _ _ (by decide)]
      simp (disch := decide) [State.enterTick, State.flag, State.get_put_reg, State.get_put_apart, hrun, hs]
    · rw [htick]
      exact ⟨hnoMark, hmarked⟩
    · rw [State.tickState, hget _ _ (by decide)]
      simp [State.enterTick, State.get_put_same, tickAcquire]
    · rw [State.on, hget _ _ (by decide)]
      simp (disch := decide) [State.enterTick, State.get_put_reg, State.get_flag_same]
    · rw [hfatal]
      exact hrunFatal
  · next hkept =>
    refine ⟨?_, ?_, ?_, fun h => ⟨?_, ?_, ?_⟩, fun h => absurd (.inl h) hkept, ?_⟩
    · rw [hget _ _ (by decide), hrun, hm]
    · rw [hget _ _ (by decide), hrun, hs]
    · rw [htick]
      exact ⟨hnoMark, hmarked⟩
    · rw [State.tickState, hget _ _ (by decide)]
      exact hstate
    · rw [htick, hoffset]
    · rw [htick, hbad, if_neg (by omega)]
    · rw [hfatal, hrunFatal]

end Sys2Proof.Machine

open Sys2Proof Sys2Proof.Machine

/-- Settles O19: a mark by the row of R74 that it takes, and the two ends of the holdover by their effects. -/
theorem tickStateFollowsTheMarks : Obligations.TickStateFollowsTheMarks := by
  unfold Obligations.TickStateFollowsTheMarks
  refine ⟨?_, ?_, ?_⟩
  · intro s mark arrival hr
    refine ⟨fun hbad => ?_, fun hgood hforeign => ?_, ?_⟩
    · exact exec_eq_next (effect := fun s => s.receiveMark mark arrival) hr rfl (if_pos (by simp [hbad]))
    · have heffect : s.receiveMark mark arrival = s.discardMark true := by
        simp only [State.receiveMark, hgood, Bool.not_true, Bool.false_eq_true, if_false]
        rcases hforeign with h | h
        · rw [if_pos h]
        · split
          · rfl
          · rw [h]
      refine .of_alters (effect := fun s => s.receiveMark mark arrival) hr rfl ?_ ?_
      all_goals simp only [heffect]
      · exact ((State.Alters.refl s).frame (s.onTick_frame _) (by decide) (by simp)).put (by simp) rfl
      · simp [State.discardMark, State.on, State.flag, State.get_put_same]
    · intro backup hgood hperiod hsource hrole hbackup hlocked time hc off
      have htaken : ¬ (s.get F.TCK_ROLE.ROLE = 1 || (backup && (s.tick.sending || s.tick.masterMark == some (fieldAt mark 8 8)))) = true := by
        cases backup with
        | false => simp [hrole]
        | true => simp [hrole, hbackup rfl]
      have heffect : s.receiveMark mark arrival =
          ((s.onTick fun t => { t with sending := false }).followMark mark arrival backup).checkJoined := by
        simp only [State.receiveMark, hgood, Bool.not_true, Bool.false_eq_true, if_false, hperiod, ne_eq, not_true_eq_false, hsource]
        rw [if_neg htaken]
      have hnear := s.nearestTick_onTick (f := fun t => { t with sending := false }) ⟨rfl, rfl⟩
      have htime := s.timeOfTick_onTick (f := fun t => { t with sending := false }) ⟨rfl, rfl⟩
      have hlocked' : (s.onTick fun t => { t with sending := false }).tickState = 2 := by
        rw [State.tickState, State.get_onTick]
        exact hlocked
      have hfollow := State.followMark_eq (s := s.onTick fun t => { t with sending := false }) backup hlocked' (off := off)
        (hc.trans (hnear _).symm) (by rw [hnear, htime])
      obtain ⟨hstate, hmissed, hshown⟩ := (s.onTick fun t => { t with sending := false }).noteMark_spec (fieldAt mark 2 4) (fieldAt mark 8 8)
        off backup
      obtain ⟨h1, h2, ⟨h3, h4⟩, h5, h6, h7⟩ := State.markRow_taken (s := s)
        (t := ((s.onTick fun t => { t with sending := false }).noteMark (fieldAt mark 2 4) (fieldAt mark 8 8) off backup).onTick fun x =>
          { x with offset := off }) (source := fieldAt mark 2 4) (off := off)
        ((State.get_onTick ..).trans (hstate.trans hlocked')) ((State.get_onTick ..).trans hmissed) ((State.get_onTick ..).trans hshown) ⟨rfl, rfl⟩ rfl rfl
        (s.onTick fun t => { t with sending := false }).tick.marked
      rw [← hfollow, ← heffect] at h1 h2 h3 h4 h5 h6 h7
      exact ⟨_, exec_eq_next (effect := fun s => s.receiveMark mark arrival) hr rfl rfl h7, h1, h2, h3, h4, h5, h6⟩
  · intro s hr
    refine ⟨fun ho hst hn => ?_, fun h => ?_⟩
    · refine .of_alters hr rfl ?_ ?_
      all_goals rw [if_pos (by rcases hst with h | h <;> simp [ho, h, hn, tickLocked, tickAcquire])]
      · exact (((State.Alters.refl s).put (by simp) rfl).put (by simp) rfl).frame (State.onTick_frame _ _) (by decide) (by simp)
      · refine ⟨?_, ?_, rfl⟩
        · simp [State.tickState, State.enterTick, State.get_put_same, tickHoldover]
        · simp (disch := decide) [State.enterTick, State.on, State.get_put_reg, State.get_flag_same]
    · refine exec_eq_next hr rfl (if_neg ?_)
      rcases h with h | h | ⟨h1, h2⟩
      · simp [h]
      · simp [Nat.not_le.2 h]
      · simp [h1, h2, tickLocked, tickAcquire]
  · intro s hr past
    have hpast : (!s.ownTimer && s.tickState == tickHoldover && decide (s.get F.TCK_HOLDOVER_LIMIT.LIMIT ≤ s.tick.inHoldover)) = true ↔ past := by
      simp [past, tickHoldover, and_assoc]
    have hlost : ((s.flag F.TCK_EVENTS.LOST).enterTick tickLost).tickState = 4 := by
      simp [State.tickState, State.enterTick, State.get_put_same, tickLost]
    have hevent : ((s.flag F.TCK_EVENTS.LOST).enterTick tickLost).on F.TCK_EVENTS.LOST = true := by
      simp (disch := decide) [State.enterTick, State.on, State.get_put_reg, State.get_flag_same]
    have halters : State.Alters [.tick] [(F.TCK_EVENTS.LOST, 0, 0), (F.TCK_STATUS.STATE, 0, 0)] s
        ((s.flag F.TCK_EVENTS.LOST).enterTick tickLost) :=
      (((State.Alters.refl s).put (by simp) rfl).put (by simp) rfl).frame (State.onTick_frame _ _) (by decide) (by simp)
    have hframe : Frame ⟨[.tick], [.TCK_EVENTS, .TCK_STATUS], false⟩ s ((s.flag F.TCK_EVENTS.LOST).enterTick tickLost) :=
      (((Frame.refl s).step (s.put_touch _ _ _ _)).step (State.put_touch _ _ _ _ _)).step (State.onTick_frame _ _)
    refine ⟨fun hno => exec_eq_next hr rfl (if_neg (mt hpast.1 hno)), fun hp hidle => ?_, fun hp hin hcalm => ?_⟩
    · have hactive : ((s.flag F.TCK_EVENTS.LOST).enterTick tickLost).active = false := hidle
      refine .of_alters hr rfl ?_ ?_
      all_goals rw [if_pos (hpast.2 hp)]; simp only [hactive, Bool.false_eq_true, if_false]
      · exact halters
      · exact ⟨hlost, hevent⟩
    · have hactive : ((s.flag F.TCK_EVENTS.LOST).enterTick tickLost).active = true := by
        simp only [State.active, hframe.sched_eq, hin.1, beq_self_eq_true, Bool.true_or]
      generalize hstart : (s.flag F.TCK_EVENTS.LOST).enterTick tickLost = lost at *
      have hrecord := State.recordHalt_frame lost 5 0
      have hin' : (lost.recordHalt 5 0).inStep := by rw [State.inStep, hrecord.sched_eq, hframe.sched_eq]; exact hin
      have hcalm' : (lost.recordHalt 5 0).Calm 1 := ((State.Spares.of_frame (n := 0) hrecord) 1
        ((State.Spares.of_frame (n := 0) hframe) 1 ((State.Calm.of_calm hcalm).mono (by decide))).1).1
      obtain ⟨haborted, hcause, hhalt, hfatal⟩ := State.raiseBreak_first hin' hcalm' 4 0 0 true
      have hbreak := (lost.recordHalt 5 0).raiseBreak_frame 4 0 0 true
      refine ⟨_, exec_eq_next hr rfl ((if_pos (hpast.2 hp)).trans ?_) ?_, ?_, ?_, ?_, haborted.state, ?_, fun hv => ?_⟩
      · simp only [hstart, hactive, if_true]
      · rw [hfatal, hrecord.fatal_eq, hframe.fatal_eq]
      · rw [State.tickState, hbreak.get_eq _ _ _, hrecord.get_eq _ _ _]
        exact hlost
      · rw [hbreak.on_eq _ _ _, hrecord.on_eq _ _ _, hevent]
      · rw [hhalt]
        rfl
      · exact hcause
      · have hvalid : lost.on F.FLT_RECOVERY.VALID = false := by rw [hframe.on_eq _ _ _, hv]
        rw [hbreak.get_eq _ _ _, State.recordHalt, hvalid]
        simp (disch := decide) [State.get_put_apart, State.get_put_same]

end

/-! # Operations in flight under the module's own records

What a change of one operation leaves of the others, what of the units a fault record leaves (`State.OpsStand`), and how an operation
ends with an error status in a calm module (`State.failOp_spec`). -/

section

namespace Sys2Proof.Machine

/-! ### Operations of other units and other places -/

theorem lookupKey_setKey_ne {κ α : Type} [DecidableEq κ] {k k' : κ} (h : k ≠ k') (v : α) (l : List (κ × α)) :
    lookupKey k' (setKey k v l) = lookupKey k' l := by
  induction l with
  | nil => simp [setKey, lookupKey, h]
  | cons p l ih =>
    obtain ⟨i, w⟩ := p
    by_cases hi : i = k
    · subst hi
      simp [setKey, lookupKey, h]
    · simp only [setKey, if_neg hi, lookupKey, ih]

theorem State.unit_onUnit_ne {u u' : Nat} (h : u ≠ u') (s : State) (f : UnitSt → UnitSt) : (s.onUnit u f).unit u' = s.unit u' := by
  simp [State.onUnit, State.setUnit, State.onSched, State.unit, lookupKey_setKey_ne h]

theorem State.opAt_congr {s t : State} (h : t.sched = s.sched) (u k : Nat) : t.opAt u k = s.opAt u k := by
  rw [State.opAt, State.opAt, State.unit_congr h]

theorem State.opAt_onOp_ne {u u' k k' : Nat} (h : u ≠ u' ∨ k ≠ k') (s : State) (f : Op → Op) :
    (s.onOp u k f).opAt u' k' = s.opAt u' k' := by
  by_cases hu : u = u'
  · have hk : k ≠ k' := h.resolve_left (not_not_intro hu)
    subst hu
    simp [State.opAt, State.onOp, State.unit_onUnit, updateAt, hk]
  · rw [State.opAt, State.onOp, State.unit_onUnit_ne hu, ← State.opAt]

/-- A place that a search for an operation answers holds one. -/
theorem length_of_findIdx {α : Type} {p : α → Bool} {l : List α} {k : Nat} (h : l.findIdx? p = some k) : k < l.length :=
  (List.findIdx?_eq_some_iff_getElem.1 h).1

theorem State.opAt_of_findIdx {s : State} {u k : Nat} {p : Op → Bool} (h : (s.unit u).ops.findIdx? p = some k) :
    p (s.opAt u k) = true := by
  obtain ⟨hk, hp, -⟩ := List.findIdx?_eq_some_iff_getElem.1 h
  simpa [State.opAt, hk] using hp

/-! ### What a record leaves of the units -/

/-- From `s` to `t` every unit's operations stand. -/
def State.OpsStand (s t : State) : Prop := ∀ u, (t.unit u).ops = (s.unit u).ops

section
variable {K : Touch} {s t u : State}

theorem State.OpsStand.refl (s : State) : s.OpsStand s := fun _ => rfl

theorem State.OpsStand.trans (h : s.OpsStand t) (g : t.OpsStand u) : s.OpsStand u := fun v => (g v).trans (h v)

theorem State.OpsStand.of_sched (h : t.sched = s.sched) : s.OpsStand t := fun u => by rw [State.unit_congr h]

theorem State.OpsStand.step (h : s.OpsStand t) (g : Frame K t u) (hk : Part.sched ∉ K.parts := by decide) : s.OpsStand u :=
  h.trans (.of_sched (g.sched_eq hk))

theorem State.OpsStand.ite {c : Prop} [Decidable c] (h : s.OpsStand t) (g : s.OpsStand u) : s.OpsStand (if c then t else u) := by
  split <;> assumption

theorem State.OpsStand.opAt (h : s.OpsStand t) (v k : Nat) : t.opAt v k = s.opAt v k := by rw [State.opAt, State.opAt, h v]

theorem State.onUnit_opsStand (s : State) (u : Nat) {f : UnitSt → UnitSt} (hf : (f (s.unit u)).ops = (s.unit u).ops) :
    s.OpsStand (s.onUnit u f) := fun v => by
  by_cases hv : u = v
  · subst hv
    rw [State.unit_onUnit, hf]
  · rw [State.unit_onUnit_ne hv]

end

theorem State.placeRecord_opsStand (s : State) (r : FaultRec) (own : Bool) : s.OpsStand (s.placeRecord r own) := by
  unfold State.placeRecord
  extract_lets full enabled t
  have ht : s.OpsStand t := .ite (.of_sched rfl) (.refl s)
  refine .ite (ht.step (State.queueRecord_frame _ _)) (.ite (.ite (ht.trans (State.onUnit_opsStand _ _ rfl))
    (ht.step (State.wadiRecord_frame _ _ _))) ?_)
  split
  · exact ht.step (State.wadiRecord_frame _ _ _)
  · exact ht.trans (.of_sched rfl)

theorem State.collect_opsStand (s : State) (r : FaultRec) : s.OpsStand (s.collect r) := by
  unfold State.collect
  extract_lets die counted peaked entered fenced
  have hentered : s.OpsStand entered := .ite (.of_sched rfl) (.of_sched rfl)
  have hfenced : s.OpsStand fenced := .ite (hentered.step (State.fence_frame _ _)) hentered
  exact .ite hfenced (.ite (hfenced.step (State.coalesceRecord_frame _ _))
    ((hfenced.step (State.forwardRecord_frame _ _)).trans (State.placeRecord_opsStand _ _ _)))

theorem State.faultOf_opsStand (s : State) (u cause : Nat) (f : FaultRec → FaultRec) : s.OpsStand (s.faultOf u cause f) :=
  s.collect_opsStand _

/-! ### An operation that ends with an error status -/

/-- The first error status of a unit: its event, its segment, class and cause, and what the block's register adds (R186, R468). -/
theorem State.recordError_of_clear {s : State} {u : Nat} {e : ErrRegs} (he : errRegs u = some e)
    (hev : s.on e.event (unitDie u) e.idx = false) (segment opclass cause : Nat) (more : State → State) :
    s.recordError u segment opclass cause more =
      more ((((s.flag e.event (unitDie u) e.idx).put e.segment segment (unitDie u) e.idx).put e.opclass opclass (unitDie u) e.idx).put
        e.cause cause (unitDie u) e.idx) := by
  simp [State.recordError, he, hev]

/-- What an operation's error status leaves, where `recorded` is the module with the error register written: the operation failed, no
die became fatal, and beside that and the fault record the module stands as recorded. -/
structure State.Fails (s recorded t : State) (u k : Nat) : Prop where
  failed : (t.opAt u k).state = .failed
  fatal  : t.flt.fatal = s.flt.fatal
  get    : ∀ f : Fld, f.reg ∉ recordRegs → ∀ d i, t.get f d i = recorded.get f d i
  parts  : ∀ p, p ∉ recordParts → p.same recorded t

/-- An operation of a step that runs ends with an error status, in a calm module (R101, R538, R643). -/
theorem State.failOp_spec {s : State} {u k cause : Nat} {kind : ErrorKind} {more : State → State} {K : Touch}
    (hk : k < (s.unit u).ops.length) (ha : (s.opAt u k).ahead = false) (hc : s.Calm 1) (hmore : ∀ t, Frame K t (more t))
    (hK : Touch.sub ⟨[], errorRegs, false⟩ K = true ∧ K.any = false ∧
      (∀ p ∈ [Part.fatal, .sched], p ∉ K.parts) ∧ ∀ r ∈ [Reg.FLT_HABOOB, .FLT_RATE], r ∉ K.regs := by decide +kernel) :
    s.Fails (s.recordError u (s.opAt u k).segment (s.opAt u k).opclass cause more) (s.failOp u k cause kind more) u k := by
  obtain ⟨hsub, hany, hparts, hregs⟩ := hK
  unfold State.failOp
  extract_lets o recorded failed
  rw [if_neg (by simp [o, ha])]
  have hrec : Frame K s recorded := State.recordError_frame _ _ _ _ _ _ hsub hmore
  have hsched : recorded.sched = s.sched := hrec.sched_eq (hparts _ (by decide))
  have hfail : Frame ⟨[.sched], [], false⟩ recorded failed := (State.onOp_frame _ _ _ _).step (State.onUnit_frame _ _ _)
  have hstate : (failed.opAt u k).state = .failed := by
    rw [(State.onUnit_opsStand _ u rfl).opAt, State.opAt_onOp _ (by rwa [State.unit_congr hsched])]
  have hspares : State.Spares 0 s failed :=
    (State.Spares.of_frame hrec ⟨hany, hparts _ (by decide), hregs _ (by decide), hregs _ (by decide)⟩).step hfail
  change s.Fails recorded _ u k
  clear_value failed recorded
  have key : ∀ (c : Nat) (f : FaultRec → FaultRec), s.Fails recorded (failed.faultOf u c f) u k := fun c f => by
    have hfault : Frame ⟨recordParts, recordRegs, false⟩ failed (failed.faultOf u c f) := State.faultOf_frame _ _ _ _
    refine ⟨by rw [(State.faultOf_opsStand failed u c f).opAt, hstate], ?_, fun g hg d i => ?_, fun p hp => ?_⟩
    · exact ((hspares.trans (State.faultOf_spares failed u c f)) 0 (hc.mono (by omega))).2
    · rw [hfault.get_eq _ _ _ hg, hfail.get_eq _ _ _ List.not_mem_nil]
    · exact Part.same_trans (hfail.parts p fun h => hp (by simp [List.mem_singleton.1 h, recordParts])) (hfault.parts p hp)
  split <;> exact key _ _

end Sys2Proof.Machine

end

/-! # Synchronisation objects

What the pieces of the synchronisation model do to one object (R449 to R459): its waiters, its counter, its last signaller, the end of
a barrier's round. Then signals (R450, R453, R454, R456). -/

section

namespace Sys2Proof.Machine

/-! ### Waiters -/

theorem State.waitersOf_congr {s t : State} (h : t.syn = s.syn) (die obj : Nat) : t.waitersOf die obj = s.waitersOf die obj := by
  rw [State.waitersOf, State.waitersOf, h]

theorem State.waitersOf_setWaiters_same (s : State) (die obj : Nat) (ws : List SynWaiter) :
    (s.setWaiters die obj ws).waitersOf die obj = ws := by
  simp [State.waitersOf, State.setWaiters, lookupKey_setKey_same]

theorem State.waitersOf_setWaiters_ne {die obj d o : Nat} (h : (die, obj) ≠ (d, o)) (s : State) (ws : List SynWaiter) :
    (s.setWaiters die obj ws).waitersOf d o = s.waitersOf d o := by
  simp [State.waitersOf, State.setWaiters, lookupKey_setKey_ne h]

theorem State.get_setWaiters_waiters (s : State) (die obj : Nat) (ws : List SynWaiter) :
    (s.setWaiters die obj ws).get F.SYN_OBJ_VALUE.WAITERS die obj = ws.length % 32 :=
  State.get_put_same _ _ _ _ _ (by decide)

/-- The other fields of an object stand. -/
theorem State.get_setWaiters {f : Fld} (h : F.SYN_OBJ_VALUE.WAITERS.lo + F.SYN_OBJ_VALUE.WAITERS.len ≤ f.lo ∨ f.lo + f.len ≤ 48)
    (s : State) (die obj : Nat) (ws : List SynWaiter) (d i : Nat) : (s.setWaiters die obj ws).get f d i = s.get f d i := by
  rw [State.setWaiters, State.get_put_apart h (by decide), State.get_onSyn]

theorem State.waiterOp_congr {s t : State} (h : t.sched = s.sched) (w : SynWaiter) : t.waiterOp w = s.waiterOp w := by
  rw [State.waiterOp, State.waiterOp, State.unit_congr h]

/-- The operation of a waiter that is woken is done. -/
theorem State.wakeWaiter_done {s : State} {w : SynWaiter} {k : Nat} (h : s.waiterOp w = some k) :
    ((s.wakeWaiter w).opAt w.unit k).state = .done := by
  rw [State.wakeWaiter, h]
  exact congrArg Op.state (State.opAt_onOp _ (length_of_findIdx h))

/-! ### The test of a counter's waiters -/

theorem testPass_none {ws : List SynWaiter} {v : Nat} (h : ∀ w ∈ ws, w.holds v = false) : testPass ws v = (v, ws, []) := by
  induction ws with
  | nil => rfl
  | cons w ws ih => simp [testPass, h w (by simp), ih fun x hx => h x (by simp [hx])]

theorem testPasses_none {ws : List SynWaiter} {v : Nat} (h : ∀ w ∈ ws, w.holds v = false) (n : Nat) :
    testPasses n ws v = (v, ws, []) := by
  cases n with
  | zero => rfl
  | succ n => simp [testPasses, testPass_none h]

/-- What a waiter whose condition holds leaves of the counter: one that consumes takes its target away (R456). -/
def SynWaiter.leaves (w : SynWaiter) (v : Nat) : Nat := if w.kind == 0 && w.consume then v - w.target else v

theorem testPasses_one {w : SynWaiter} {v : Nat} (h : w.holds v = true) : testPasses 1 [w] v = (w.leaves v, [], [w]) := by
  simp [testPasses, testPass, h, SynWaiter.leaves]

/-- No waiter's condition holds: the test changes nothing (R454). -/
theorem State.testWaiters_none {s : State} {die obj : Nat}
    (h : ∀ w ∈ s.waitersOf die obj, w.holds (s.get F.SYN_OBJ_VALUE.VALUE die obj) = false) : s.testWaiters die obj = s := by
  simp [State.testWaiters, testPasses_none h]

/-- The one waiter's condition holds: it completes and leaves the object (R454, R456). -/
theorem State.testWaiters_one {s : State} {die obj : Nat} {w : SynWaiter} (hw : s.waitersOf die obj = [w])
    (h : w.holds (s.get F.SYN_OBJ_VALUE.VALUE die obj) = true) : s.testWaiters die obj =
      ((s.put F.SYN_OBJ_VALUE.VALUE (w.leaves (s.get F.SYN_OBJ_VALUE.VALUE die obj)) die obj).setWaiters die obj []).wakeWaiter w := by
  simp [State.testWaiters, hw, testPasses_one h]

/-- What the one waiter's completion leaves of its object and its operation. -/
theorem State.testWaiters_one_spec {s : State} {die obj k : Nat} {w : SynWaiter} (hw : s.waitersOf die obj = [w])
    (h : w.holds (s.get F.SYN_OBJ_VALUE.VALUE die obj) = true) (hk : s.waiterOp w = some k) :
    (s.testWaiters die obj).get F.SYN_OBJ_VALUE.VALUE die obj = w.leaves (s.get F.SYN_OBJ_VALUE.VALUE die obj) ∧
    (s.testWaiters die obj).waitersOf die obj = [] ∧ (s.testWaiters die obj).get F.SYN_OBJ_VALUE.WAITERS die obj = 0 ∧
    ((s.testWaiters die obj).opAt w.unit k).state = .done := by
  rw [State.testWaiters_one hw h]
  have hlt : w.leaves (s.get F.SYN_OBJ_VALUE.VALUE die obj) < 2 ^ 32 :=
    Nat.lt_of_le_of_lt (by unfold SynWaiter.leaves; split <;> omega) (s.get_lt F.SYN_OBJ_VALUE.VALUE die obj)
  generalize w.leaves (s.get F.SYN_OBJ_VALUE.VALUE die obj) = v at hlt ⊢
  have hwake := State.wakeWaiter_frame ((s.put F.SYN_OBJ_VALUE.VALUE v die obj).setWaiters die obj []) w
  refine ⟨?_, ?_, ?_, State.wakeWaiter_done ((State.waiterOp_congr rfl w).trans hk)⟩
  · rw [hwake.get_eq _ _ _, State.get_setWaiters (by decide), State.get_put_same _ _ _ _ _ (by decide)]
    exact Nat.mod_eq_of_lt hlt
  · rw [State.waitersOf_congr (hwake.parts .syn (by decide)), State.waitersOf_setWaiters_same]
  · rw [hwake.get_eq _ _ _, State.get_setWaiters_waiters]
    rfl

/-! ### Signals -/

/-- The counter with a signal's value and its signaller, before the waiters are tested (R450, R453). -/
def State.signalled (s : State) (die obj org : Nat) (set : Bool) (value : Nat) : State :=
  (s.put F.SYN_OBJ_VALUE.VALUE (if set then value else s.get F.SYN_OBJ_VALUE.VALUE die obj + value) die obj).signedBy die obj org

section
variable (s : State) (die obj org : Nat) (set : Bool) (value : Nat)

theorem State.applySignal_eq : s.applySignal die obj org set value = (s.signalled die obj org set value).testWaiters die obj := rfl

theorem State.signedBy_touch : Frame ⟨[], [.SYN_OBJ_LAST, .SYN_OBJ_LAST_TICK], false⟩ s (s.signedBy die obj org) :=
  ((Frame.refl s).step (s.put_touch _ _ _ _)).step (State.put_touch ..) |>.step (State.put_touch ..)

theorem State.signedBy_spec : (s.signedBy die obj org).on F.SYN_OBJ_LAST.VALID die obj = true ∧
    (s.signedBy die obj org).get F.SYN_OBJ_LAST.ORIGINATOR die obj = org % 2 ^ 29 ∧
    (s.signedBy die obj org).get F.SYN_OBJ_LAST_TICK.TICK die obj = s.now die := by
  refine ⟨?_, ?_, ?_⟩
  · simp (disch := decide) [State.signedBy, State.on, State.flag, State.get_put_same, State.get_put_apart, State.get_put_reg]
  · simp (disch := decide) [State.signedBy, State.flag, State.get_put_same, State.get_put_reg]
  · rw [State.signedBy, State.get_put_same _ _ _ _ _ (by decide)]
    exact Nat.mod_eq_of_lt (s.get_lt F.TCK_COUNT.COUNT die 0)

theorem State.signedBy_alters {parts : List Part} {fs : List (Fld × Nat × Nat)} (h1 : (F.SYN_OBJ_LAST.VALID, die, obj) ∈ fs)
    (h2 : (F.SYN_OBJ_LAST.ORIGINATOR, die, obj) ∈ fs) (h3 : (F.SYN_OBJ_LAST_TICK.TICK, die, obj) ∈ fs) :
    State.Alters parts fs s (s.signedBy die obj org) :=
  (((State.Alters.refl s).put h1 rfl).put h2 rfl).put h3 rfl

theorem State.signalled_frame :
    Frame ⟨[], [.SYN_OBJ_LAST, .SYN_OBJ_LAST_TICK, .SYN_OBJ_VALUE], false⟩ s (s.signalled die obj org set value) :=
  ((Frame.refl s).step (s.put_touch _ _ _ _)).step (State.signedBy_touch ..)

theorem State.get_signalled_value : (s.signalled die obj org set value).get F.SYN_OBJ_VALUE.VALUE die obj =
    (if set then value else s.get F.SYN_OBJ_VALUE.VALUE die obj + value) % 2 ^ 32 := by
  rw [State.signalled, (State.signedBy_touch ..).get_eq _ _ _]
  exact State.get_put_same _ _ _ _ _ (by decide)

theorem State.now_put_value (v : Nat) : (s.put F.SYN_OBJ_VALUE.VALUE v die obj).now die = s.now die := State.get_put_reg (by decide)

/-- A signal that satisfies no waiter: the counter has its value and its signaller, and nothing else changed (R450, R453). -/
theorem State.applySignal_none (h : ∀ w ∈ s.waitersOf die obj,
      w.holds ((if set then value else s.get F.SYN_OBJ_VALUE.VALUE die obj + value) % 2 ^ 32) = false) :
    s.applySignal die obj org set value = s.signalled die obj org set value := by
  refine State.testWaiters_none fun w hw => ?_
  rw [← State.signalled, State.get_signalled_value]
  exact h w hw

end

/-- What every local signal does (R450, R453, R454, R456). -/
theorem State.applySignal_completes {s : State} {c : Instr} {die obj org value : Nat} {set : Bool} {effect : State → State}
    (hr : s.Reaches c) (he : exec c s = act c s effect) (heff : effect s = s.applySignal die obj org set value)
    (h : ∀ w ∈ s.waitersOf die obj,
      w.holds ((if set then value else s.get F.SYN_OBJ_VALUE.VALUE die obj + value) % 2 ^ 32) = false) :
    Completes c s [] [(F.SYN_OBJ_VALUE.VALUE, die, obj), (F.SYN_OBJ_LAST.VALID, die, obj), (F.SYN_OBJ_LAST.ORIGINATOR, die, obj),
      (F.SYN_OBJ_LAST_TICK.TICK, die, obj)] fun t =>
        t.get F.SYN_OBJ_VALUE.VALUE die obj = (if set then value else s.get F.SYN_OBJ_VALUE.VALUE die obj + value) % 2 ^ 32 ∧
        t.on F.SYN_OBJ_LAST.VALID die obj = true ∧
        t.get F.SYN_OBJ_LAST.ORIGINATOR die obj = org % 2 ^ 29 ∧ t.get F.SYN_OBJ_LAST_TICK.TICK die obj = s.now die := by
  rw [State.applySignal_none _ _ _ _ _ _ h] at heff
  refine Completes.of_alters hr he ?_ ?_
  · rw [heff]
    exact ((State.Alters.refl s).put (by simp) rfl).trans (State.signedBy_alters _ _ _ _ (by simp) (by simp) (by simp))
  · rw [heff]
    obtain ⟨hvalid, horg, htick⟩ := State.signedBy_spec (s.put F.SYN_OBJ_VALUE.VALUE
      (if set then value else s.get F.SYN_OBJ_VALUE.VALUE die obj + value) die obj) die obj org
    exact ⟨State.get_signalled_value .., hvalid, horg, htick.trans (State.now_put_value ..)⟩

/-- A signal that satisfies the one waiter. -/
theorem State.applySignal_one {s : State} {c : Instr} {die obj org value k : Nat} {set : Bool} {w : SynWaiter} {effect : State → State}
    (hr : s.Reaches c) (he : exec c s = act c s effect) (heff : effect s = s.applySignal die obj org set value)
    (hw : s.waitersOf die obj = [w]) (hk : s.waiterOp w = some k)
    (h : w.holds ((if set then value else s.get F.SYN_OBJ_VALUE.VALUE die obj + value) % 2 ^ 32) = true) :
    ∃ t, exec c s = .next t ∧
      t.get F.SYN_OBJ_VALUE.VALUE die obj =
        w.leaves ((if set then value else s.get F.SYN_OBJ_VALUE.VALUE die obj + value) % 2 ^ 32) ∧
      t.waitersOf die obj = [] ∧ t.get F.SYN_OBJ_VALUE.WAITERS die obj = 0 ∧ (t.opAt w.unit k).state = .done := by
  have hframe := s.signalled_frame die obj org set value
  have hspec := State.testWaiters_one_spec (s := s.signalled die obj org set value) (die := die) (obj := obj) (k := k) (w := w)
    ((State.waitersOf_congr (hframe.parts .syn (by decide)) _ _).trans hw) (by rwa [State.get_signalled_value])
    ((State.waiterOp_congr hframe.sched_eq w).trans hk)
  rw [State.get_signalled_value, ← State.applySignal_eq] at hspec
  exact ⟨_, exec_eq_next hr he heff (State.applySignal_frame ..).fatal_eq, hspec⟩

/-! ### The operation of a SYN command -/

theorem State.takeSyn_some {s : State} {u cls k : Nat} {payload : Bytes}
    (h : (s.unit u).ops.findIdx? (fun o => o.opclass == cls && o.payload == payload && o.state == .started) = some k) :
    s.takeSyn u cls payload = (s, k) := by
  rw [State.takeSyn, h]

theorem isObject_of_badObject {s : State} {die obj kind : Nat} (h : s.badObject die obj kind = false) :
    isObject die obj = true ∧ s.get F.SYN_OBJ_CFG.KIND die obj = kind := by
  simpa [State.badObject] using h

theorem badObject_of_kind {s : State} {die obj kind : Nat} (h : isObject die obj = true) (hk : s.get F.SYN_OBJ_CFG.KIND die obj = kind) :
    s.badObject die obj kind = false := by
  simp [State.badObject, h, hk]

/-- A SIGNAL packet for this step, or for an object that no step resets, is applied to its counter. -/
theorem State.receiveSyn_applied {s : State} {type : Nat} {pkt : Bytes} (hcrc : crcHolds 64 pkt = true)
    (htype : (SynPacket.ofBytes pkt).type = type)
    (hobj : isObject (SynPacket.ofBytes pkt).die (SynPacket.ofBytes pkt).index = true)
    (hmine : s.on F.SYN_OBJ_CFG.RESET (SynPacket.ofBytes pkt).die (SynPacket.ofBytes pkt).index = false ∨
      ((SynPacket.ofBytes pkt).step = s.get F.SCH_STEP.STEP % 65536 ∧ (SynPacket.ofBytes pkt).replay = s.get F.SCH_REPLAY.COUNT)) :
    s.receiveSyn type pkt = s.applyPacket (SynPacket.ofBytes pkt) := by
  unfold State.receiveSyn
  extract_lets q step
  rw [if_neg (by simp [hcrc]), if_neg (by simp [q, htype, hobj])]
  rcases hmine with hreset | hstep
  · rw [if_pos (by simp [q, hreset])]
  · rw [if_pos hstep, ite_self]

theorem State.applyPacket_signal {s : State} {q : SynPacket} (htype : q.type = 0x10) (hobj : isObject q.die q.index = true)
    (hkind : s.get F.SYN_OBJ_CFG.KIND q.die q.index = 1) :
    s.applyPacket q = s.applySignal q.die q.index q.source q.mode q.value := by
  simp [State.applyPacket, htype, hobj, hkind]

/-! ### The SIGNAL operation -/

section
variable {s : State} {u k : Nat} {p : BitVec 192} (hfree : s.unitFree u = true)
  (hk : (s.unit u).ops.findIdx? (fun o => o.opclass == 0x58 && o.payload == bytesOf p && o.state == .started) = some k)
  (hmode : pay p 8 1 ≤ 1) (hres : payBits p 2 13 2 = 0) (hzero : payZero p 9 15 = true)
include hfree hk hmode hres hzero

/-- A SIGNAL of the own module (R452, R453). -/
theorem State.signalOp_local
    (hlocal : payBits p 2 15 1 = 0 ∨ (payBits p 2 0 12 = s.moduleNo ∧ payBits p 2 12 1 = s.erg))
    (hobj : s.badObject (pay p 1 1) (pay p 0 1) 1 = false) :
    s.signalOp u p =
      (s.applySignal (pay p 1 1) (pay p 0 1) (s.originator u) (pay p 8 1 == 1) (pay p 4 4)).finishOp u k [] 0 := by
  unfold State.signalOp
  rw [if_neg (by simp [hfree]), State.takeSyn_some hk]
  dsimp only
  rw [if_neg (by simp [hres, hzero]; omega), if_neg (by rcases hlocal with h | h <;> simp [h]), if_neg (by simp [hobj])]

/-- A SIGNAL to another module leaves as a packet (R453). -/
theorem State.signalOp_remote (hremote : payBits p 2 15 1 = 1)
    (hother : ¬(payBits p 2 0 12 = s.moduleNo ∧ payBits p 2 12 1 = s.erg)) (hobj : isObject (pay p 1 1) (pay p 0 1) = true)
    (hroute : s.noRouteTo (unitDie u) (payBits p 2 0 12) (payBits p 2 12 1) = false) :
    s.signalOp u p =
      (s.tc0To (s.sourceFd (unitDie u)) (payBits p 2 0 12) (payBits p 2 12 1)
        (s.signalPacket u (pay p 1 1) (pay p 0 1) (pay p 8 1 == 1) (pay p 4 4)).bytes).onOp u k fun o =>
          { o with state := .writing, tags := [0] } := by
  unfold State.signalOp
  rw [if_neg (by simp [hfree]), State.takeSyn_some hk]
  dsimp only
  rw [if_neg (by simp [hres, hzero]; omega), if_pos (by simpa [hremote, imp_iff_not_or] using hother), if_neg (by simp [hobj]),
    if_neg (by simp [hroute])]

end

end Sys2Proof.Machine

open Sys2Proof Sys2Proof.Machine

/-- Settles O44: each way to signal comes to `State.applySignal`, and the waiters that it tests are none or one that holds. -/
theorem signalsReachTheirCounter : Obligations.SignalsReachTheirCounter := by
  unfold Obligations.SignalsReachTheirCounter
  refine ⟨fun s c die obj org value set hr hc hobj hkind => ?_, fun s die obj core v hr hkind => ?_, ?_⟩
  · obtain ⟨effect, he, heff⟩ : ∃ effect, exec c s = act c s effect ∧ effect s = s.applySignal die obj org set value := by
      rcases hc with ⟨v, rfl, rfl, rfl⟩ | ⟨pkt, rfl, hcrc, hq, hmine⟩
      · refine ⟨fun s => s.coreSignal die obj org v, rfl, ?_⟩
        simp only [State.coreSignal, badObject_of_kind hobj hkind, Bool.false_eq_true, if_false]
      · refine ⟨fun s => s.receiveSyn 0x10 pkt, rfl, ?_⟩
        have hdie : (SynPacket.ofBytes pkt).die = die := by rw [hq]
        have hidx : (SynPacket.ofBytes pkt).index = obj := by rw [hq]
        have htype : (SynPacket.ofBytes pkt).type = 0x10 := by rw [hq]
        have hsrc : (SynPacket.ofBytes pkt).source = org := by rw [hq]
        have hmode : (SynPacket.ofBytes pkt).mode = set := by rw [hq]
        have hval : (SynPacket.ofBytes pkt).value = value := by rw [hq]
        change s.receiveSyn 0x10 pkt = _
        rw [State.receiveSyn_applied hcrc htype (by rwa [hdie, hidx]) (by rwa [hdie, hidx]),
          State.applyPacket_signal htype (by rwa [hdie, hidx]) (by rwa [hdie, hidx]), hdie, hidx, hsrc, hmode, hval]
    refine ⟨fun hnone => State.applySignal_completes hr he heff hnone, fun w k hw hholds hk => ?_⟩
    obtain ⟨t, ht, hspec⟩ := State.applySignal_one hr he heff hw hk hholds
    exact ⟨t, ht, by simpa [SynWaiter.leaves] using hspec⟩
  · refine exec_eq_next (effect := fun s => s.coreSignal die obj core v) hr rfl (if_pos ?_)
    simp [State.badObject, hkind]
  · intro s die k p hr hfree hk hmode hres hzero u obj od module erg v
    refine ⟨fun hlocal hobj hnone => ?_, fun hremote hother hobj hroute => ?_⟩
    · have hop := State.signalOp_local hfree hk hmode hres hzero hlocal hobj
      have hv : v = (if (pay p 8 1 == 1) = true then pay p 4 4 else s.get F.SYN_OBJ_VALUE.VALUE od obj + pay p 4 4) % 2 ^ 32 := by
        simp only [v, beq_iff_eq]
      rw [State.applySignal_none _ _ _ _ _ _ (hv ▸ hnone)] at hop
      have hsig := s.signalled_frame od obj (s.originator u) (pay p 8 1 == 1) (pay p 4 4)
      have hfin := State.finishOp_frame (s.signalled od obj (s.originator u) (pay p 8 1 == 1) (pay p 4 4)) u k [] 0
      refine ⟨_, exec_eq_next (effect := fun s => s.signalOp u p) hr rfl hop ?_, ?_, ?_, ?_, fun q hq => ?_⟩
      · exact hfin.fatal_eq.trans hsig.fatal_eq
      · rw [hfin.get_eq _ _ _, State.get_signalled_value, hv]
      · rw [hfin.get_eq _ _ _]
        exact (State.signedBy_spec ..).2.1
      · refine congrArg Op.state (State.opAt_onOp _ ?_)
        rw [State.unit_congr hsig.sched_eq]
        exact length_of_findIdx hk
      · exact Part.same_trans (hsig.parts q List.not_mem_nil) (hfin.parts q (by simpa using hq))
    · have hop := State.signalOp_remote hfree hk hmode hres hzero hremote hother hobj hroute
      refine ⟨_, exec_eq_next (effect := fun s => s.signalOp u p) hr rfl hop rfl, rfl, rfl, rfl, ?_⟩
      exact congrArg Op.state (State.opAt_onOp _ (length_of_findIdx hk))

end

/-! # WAIT and BAR

How the operations of a SYN unit fail, register, complete and time out (R452, R454, R455, R457, R458). -/

section

namespace Sys2Proof.Machine

/-! ### Error statuses -/

theorem unitDie_synUnit {d : Nat} (hd : isCompute d = true) : unitDie (synUnit d) = d := by
  have : d < 64 := by simpa [isCompute] using hd
  simp only [synUnit, unitId, unitDie]
  omega

theorem errRegs_synUnit {d : Nat} (hd : isCompute d = true) : errRegs (synUnit d) =
    some ⟨F.SYN_EVENTS.OP_ERROR, F.SYN_ERROR.SEGMENT, F.SYN_ERROR.OPCLASS, F.SYN_ERROR.CAUSE, 0⟩ := by
  have htype : unitType (synUnit d) = 9 := by simp only [synUnit, unitId, unitType]; omega
  simp [errRegs, unitDie_synUnit hd, hd, htype]

/-- A SYN operation that ends with an error status, in a calm module (R455, R468). -/
theorem State.failSyn_spec {s : State} {d k cause index : Nat} (hd : isCompute d = true)
    (hk : k < (s.unit (synUnit d)).ops.length) (ha : (s.opAt (synUnit d) k).ahead = false) (hc : s.Calm 1)
    (hev : s.on F.SYN_EVENTS.OP_ERROR d = false) :
    ((s.failSyn (synUnit d) k cause index).opAt (synUnit d) k).state = .failed ∧
    (s.failSyn (synUnit d) k cause index).on F.SYN_EVENTS.OP_ERROR d = true ∧
    (s.failSyn (synUnit d) k cause index).get F.SYN_ERROR.CAUSE d = cause % 256 ∧
    (s.failSyn (synUnit d) k cause index).get F.SYN_ERROR.INDEX d = index % 64 ∧
    (s.failSyn (synUnit d) k cause index).syn = s.syn ∧
    (s.failSyn (synUnit d) k cause index).flt.fatal = s.flt.fatal := by
  have hspec := State.failOp_spec (K := ⟨[], errorRegs, false⟩) (cause := cause) (kind := .operation)
    (more := fun s => s.put F.SYN_ERROR.INDEX index (unitDie (synUnit d))) hk ha hc
    (fun t => (t.put_touch _ _ _ _).mono (by decide +kernel))
  rw [State.recordError_of_clear (errRegs_synUnit hd) (by rwa [unitDie_synUnit hd])] at hspec
  simp only [unitDie_synUnit hd] at hspec
  rw [State.failSyn, unitDie_synUnit hd]
  refine ⟨hspec.failed, ?_, ?_, ?_, hspec.parts .syn (by decide), hspec.fatal⟩
  · rw [State.on, hspec.get _ (by decide)]
    simp (disch := decide) [State.flag, State.get_put_same, State.get_put_apart, State.get_put_reg]
  · rw [hspec.get _ (by decide)]
    simp (disch := decide) [State.get_put_same, State.get_put_apart]
  · rw [hspec.get _ (by decide)]
    simp (disch := decide) [State.get_put_same]

section
variable {s : State} {u k cause : Nat} {p : BitVec 192}

theorem State.signalOp_fails (hfree : s.unitFree u = true)
    (hk : (s.unit u).ops.findIdx? (fun o => o.opclass == 0x58 && o.payload == bytesOf p && o.state == .started) = some k)
    (h : ((pay p 8 1 > 1 ∨ payBits p 2 13 2 ≠ 0 ∨ payZero p 9 15 = false) ∧ cause = 1) ∨
      (¬(pay p 8 1 > 1 ∨ payBits p 2 13 2 ≠ 0 ∨ payZero p 9 15 = false) ∧ payBits p 2 15 1 = 0 ∧
        s.badObject (pay p 1 1) (pay p 0 1) 1 = true ∧ cause = 2)) :
    s.signalOp u p = s.failSyn u k cause (pay p 0 1) := by
  unfold State.signalOp
  rw [if_neg (by simp [hfree]), State.takeSyn_some hk]
  dsimp only
  rcases h with ⟨hbad, rfl⟩ | ⟨hgood, hlocal, hobj, rfl⟩
  · rw [if_pos (by simpa using hbad)]
  · rw [if_neg (by simpa using hgood), if_neg (by simp [hlocal]), if_pos hobj]

theorem State.waitOpOf_fails (hfree : s.unitFree u = true)
    (hk : (s.unit u).ops.findIdx? (fun o => o.opclass == 0x59 && o.payload == bytesOf p && o.state == .started) = some k)
    (h : ((payZero p 2 2 = false ∨ payBits p 8 2 14 ≠ 0 ∨ payZero p 12 12 = false) ∧ cause = 1) ∨
      (¬(payZero p 2 2 = false ∨ payBits p 8 2 14 ≠ 0 ∨ payZero p 12 12 = false) ∧
        ((s.badObject (pay p 1 1) (pay p 0 1) 1 = true ∧ cause = 2) ∨
          (s.badObject (pay p 1 1) (pay p 0 1) 1 = false ∧ 16 ≤ (s.waitersOf (pay p 1 1) (pay p 0 1)).length ∧ cause = 3)))) :
    s.waitOpOf u p = s.failSyn u k cause (pay p 0 1) := by
  unfold State.waitOpOf
  rw [if_neg (by simp [hfree]), State.takeSyn_some hk]
  dsimp only
  rcases h with ⟨hbad, rfl⟩ | ⟨hgood, ⟨hobj, rfl⟩ | ⟨hobj, hfull, rfl⟩⟩
  · rw [if_pos (by simpa using hbad)]
  · rw [if_neg (by simpa using hgood), if_pos hobj]
  · rw [if_neg (by simpa using hgood), if_neg (by simp [hobj]), if_pos hfull]

theorem State.barOp_fails (hfree : s.unitFree u = true)
    (hk : (s.unit u).ops.findIdx? (fun o => o.opclass == 0x5A && o.payload == bytesOf p && o.state == .started) = some k)
    (h : ((payZero p 2 8 = false ∨ payZero p 12 12 = false) ∧ cause = 1) ∨
      (¬(payZero p 2 8 = false ∨ payZero p 12 12 = false) ∧
        ((s.badObject (pay p 1 1) (pay p 0 1) 2 = true ∧ cause = 2) ∨
          (s.badObject (pay p 1 1) (pay p 0 1) 2 = false ∧ 16 ≤ (s.waitersOf (pay p 1 1) (pay p 0 1)).length ∧ cause = 3)))) :
    s.barOp u p = s.failSyn u k cause (pay p 0 1) := by
  unfold State.barOp
  rw [if_neg (by simp [hfree]), State.takeSyn_some hk]
  dsimp only
  rcases h with ⟨hbad, rfl⟩ | ⟨hgood, ⟨hobj, rfl⟩ | ⟨hobj, hfull, rfl⟩⟩
  · rw [if_pos (by simpa using hbad)]
  · rw [if_neg (by simpa using hgood), if_pos hobj]
  · rw [if_neg (by simpa using hgood), if_neg (by simp [hobj]), if_pos hfull]

end

/-! ### Registering -/

/-- The waiter that an operation registers as (R454, R458). -/
def State.newWaiter (s : State) (u k kind target timeout : Nat) (consume : Bool) : SynWaiter :=
  { unit := u, kind := kind, consume := consume, target := target, op := (s.opAt u k).entry, tick := s.now (unitDie u),
    timeout := timeout }

section
variable (s : State) (u k die obj kind target timeout : Nat) (consume : Bool)

theorem State.register_eq : s.register u k die obj kind target timeout consume =
    (s.setWaiters die obj (s.waitersOf die obj ++ [s.newWaiter u k kind target timeout consume])).waitOp u k := rfl

theorem State.register_touch : Frame ⟨[.sched, .syn], [.SYN_OBJ_VALUE], false⟩ s (s.register u k die obj kind target timeout consume) :=
  ((Frame.refl s).step (State.setWaiters_frame ..)).step (State.waitOp_frame ..)

theorem State.waitersOf_register : (s.register u k die obj kind target timeout consume).waitersOf die obj =
    s.waitersOf die obj ++ [s.newWaiter u k kind target timeout consume] :=
  State.waitersOf_setWaiters_same ..

theorem State.get_register {f : Fld} (h : 53 ≤ f.lo ∨ f.lo + f.len ≤ 48) (d i : Nat) :
    (s.register u k die obj kind target timeout consume).get f d i = s.get f d i := by
  rw [State.register_eq, State.waitOp, State.onOp, State.get_onUnit, State.get_setWaiters h]

theorem State.get_register_waiters (h : (s.waitersOf die obj).length < 16) :
    (s.register u k die obj kind target timeout consume).get F.SYN_OBJ_VALUE.WAITERS die obj = (s.waitersOf die obj).length + 1 := by
  rw [State.register_eq, State.waitOp, State.onOp, State.get_onUnit, State.get_setWaiters_waiters, List.length_append,
    List.length_singleton]
  omega

theorem State.opAt_register (hk : k < (s.unit u).ops.length) :
    (s.register u k die obj kind target timeout consume).opAt u k = { s.opAt u k with state := .waiting } :=
  State.opAt_onOp _ hk

end

/-- The operations of a unit after one of them began to wait. -/
theorem State.ops_register (s : State) (u k die obj kind target timeout : Nat) (consume : Bool) :
    ((s.register u k die obj kind target timeout consume).unit u).ops =
      (s.unit u).ops.modify k fun o => { o with state := .waiting } :=
  congrArg UnitSt.ops (State.unit_onUnit _ u _)

/-- The only waiting operation of its unit is found by its waiter. -/
theorem State.waiterOp_of_only {s : State} {w : SynWaiter} {k : Nat} (hk : k < (s.unit w.unit).ops.length)
    (hop : (s.opAt w.unit k).entry = w.op ∧ (s.opAt w.unit k).state = .waiting ∧
      ((s.opAt w.unit k).opclass = 0x59 ∨ (s.opAt w.unit k).opclass = 0x5A))
    (honly : ∀ j, j ≠ k → (s.opAt w.unit j).state ≠ .waiting) : s.waiterOp w = some k := by
  have hat : ∀ j (hj : j < (s.unit w.unit).ops.length), (s.unit w.unit).ops[j] = s.opAt w.unit j := fun j hj => by
    simp [State.opAt, hj]
  refine List.findIdx?_eq_some_iff_getElem.2 ⟨hk, ?_, fun j hj => ?_⟩
  · simpa [hat, and_assoc] using hop
  · simp [hat, honly j (by omega)]

/-- The operation of a waiter that has just registered, where its unit had none waiting. -/
theorem State.waiterOp_register {s : State} {u k : Nat} (hk : k < (s.unit u).ops.length)
    (hclass : (s.opAt u k).opclass = 0x59 ∨ (s.opAt u k).opclass = 0x5A) (hnone : ∀ o ∈ (s.unit u).ops, o.state ≠ .waiting)
    (die obj kind target timeout : Nat) (consume : Bool) :
    (s.register u k die obj kind target timeout consume).waiterOp (s.newWaiter u k kind target timeout consume) = some k ∧
    ∀ j, j ≠ k → ((s.register u k die obj kind target timeout consume).opAt u j).state ≠ .waiting := by
  have hothers : ∀ j, j ≠ k → ((s.register u k die obj kind target timeout consume).opAt u j).state ≠ .waiting := fun j hj => by
    rw [State.register_eq, State.waitOp, State.opAt_onOp_ne (.inr hj.symm)]
    change (s.opAt u j).state ≠ .waiting
    rw [State.opAt]
    by_cases hlen : j < (s.unit u).ops.length
    · simpa [hlen] using hnone _ (List.getElem_mem hlen)
    · simp [hlen]
  refine ⟨State.waiterOp_of_only ?_ ?_ hothers, hothers⟩
  · change k < ((s.register u k die obj kind target timeout consume).unit u).ops.length
    rwa [State.ops_register, List.length_modify]
  · have hop := s.opAt_register u k die obj kind target timeout consume hk
    simp only [State.newWaiter] at *
    rw [hop]
    exact ⟨rfl, rfl, hclass⟩

section
variable {s : State} {u k : Nat} {p : BitVec 192}

theorem State.waitOpOf_registers (hfree : s.unitFree u = true)
    (hk : (s.unit u).ops.findIdx? (fun o => o.opclass == 0x59 && o.payload == bytesOf p && o.state == .started) = some k)
    (h2 : payZero p 2 2 = true) (h8 : payBits p 8 2 14 = 0) (h12 : payZero p 12 12 = true)
    (hobj : s.badObject (pay p 1 1) (pay p 0 1) 1 = false) (hroom : (s.waitersOf (pay p 1 1) (pay p 0 1)).length < 16) :
    s.waitOpOf u p = (s.register u k (pay p 1 1) (pay p 0 1) (payBits p 8 0 1) (pay p 4 4) (pay p 10 2)
      (payBits p 8 0 1 == 0 && payBits p 8 1 1 == 1)).testWaiters (pay p 1 1) (pay p 0 1) := by
  unfold State.waitOpOf
  rw [if_neg (by simp [hfree]), State.takeSyn_some hk]
  dsimp only
  rw [if_neg (by simp [h2, h8, h12]), if_neg (by simp [hobj]), if_neg (by omega)]

theorem State.barOp_registers (hfree : s.unitFree u = true)
    (hk : (s.unit u).ops.findIdx? (fun o => o.opclass == 0x5A && o.payload == bytesOf p && o.state == .started) = some k)
    (h2 : payZero p 2 8 = true) (h12 : payZero p 12 12 = true)
    (hobj : s.badObject (pay p 1 1) (pay p 0 1) 2 = false) (hroom : (s.waitersOf (pay p 1 1) (pay p 0 1)).length < 16) :
    s.barOp u p = (s.register u k (pay p 1 1) (pay p 0 1) 2 0 (pay p 10 2) false).arrive (pay p 1 1) (pay p 0 1)
      (s.originator u) := by
  unfold State.barOp
  rw [if_neg (by simp [hfree]), State.takeSyn_some hk]
  dsimp only
  rw [if_neg (by simp [h2, h12]), if_neg (by simp [hobj]), if_neg (by omega)]

end

/-! ### The end of a round -/

/-- An operation that is done stays so when a waiter is woken. -/
theorem State.wakeWaiter_keeps_done {s : State} {u k : Nat} (h : (s.opAt u k).state = .done) (w : SynWaiter) :
    ((s.wakeWaiter w).opAt u k).state = .done := by
  cases hw : s.waiterOp w with
  | none => simpa only [State.wakeWaiter, hw] using h
  | some j =>
    by_cases hj : w.unit = u ∧ j = k
    · obtain ⟨rfl, rfl⟩ := hj
      exact State.wakeWaiter_done hw
    · simp only [State.wakeWaiter, hw]
      rwa [State.finishOp, State.opAt_onOp_ne (by tauto)]

theorem State.wakeAll_keeps_done {s : State} {u k : Nat} (h : (s.opAt u k).state = .done) (ws : List SynWaiter) :
    ((ws.foldl State.wakeWaiter s).opAt u k).state = .done := by
  induction ws generalizing s with
  | nil => exact h
  | cons w ws ih => exact ih (State.wakeWaiter_keeps_done h w)

/-- A waiter other than that of an operation leaves the operation, or completes it. -/
theorem State.wakeWaiter_waits_or_done (s : State) (w : SynWaiter) (u k : Nat) :
    ((s.wakeWaiter w).opAt u k).state = .done ∨ (s.wakeWaiter w).opAt u k = s.opAt u k := by
  cases hw : s.waiterOp w with
  | none => exact .inr (by simp only [State.wakeWaiter, hw])
  | some j =>
    by_cases hj : w.unit = u ∧ j = k
    · obtain ⟨rfl, rfl⟩ := hj
      exact .inl (State.wakeWaiter_done hw)
    · refine .inr ?_
      simp only [State.wakeWaiter, hw]
      rw [State.finishOp, State.opAt_onOp_ne (by tauto)]

/-- The operation at a place is done, or waits for this waiter as the only one of its unit. -/
def State.DoneOrOnly (s : State) (w : SynWaiter) (k : Nat) : Prop :=
  (s.opAt w.unit k).state = .done ∨
    (k < (s.unit w.unit).ops.length ∧ ((s.opAt w.unit k).entry = w.op ∧ (s.opAt w.unit k).state = .waiting ∧
      ((s.opAt w.unit k).opclass = 0x59 ∨ (s.opAt w.unit k).opclass = 0x5A)) ∧ ∀ j, j ≠ k → (s.opAt w.unit j).state ≠ .waiting)

theorem State.opAt_of_length_le {s : State} {u k : Nat} (h : (s.unit u).ops.length ≤ k) : s.opAt u k = { opclass := 0 } := by
  simp [State.opAt, h]

theorem State.DoneOrOnly.wake {s : State} {w : SynWaiter} {k : Nat} (h : s.DoneOrOnly w k) (x : SynWaiter) :
    (s.wakeWaiter x).DoneOrOnly w k := by
  rcases h with h | ⟨-, hop, honly⟩
  · exact .inl (State.wakeWaiter_keeps_done h x)
  · rcases s.wakeWaiter_waits_or_done x w.unit k with h | h
    · exact .inl h
    · refine .inr ⟨Nat.lt_of_not_le fun hlen => ?_, h ▸ hop, fun j hj => ?_⟩
      · have := hop.2.1
        rw [← h, State.opAt_of_length_le hlen] at this
        cases this
      · rcases s.wakeWaiter_waits_or_done x w.unit j with h | h
        · simp [h]
        · rw [h]
          exact honly j hj

theorem State.DoneOrOnly.done {s : State} {w : SynWaiter} {k : Nat} (h : s.DoneOrOnly w k) :
    ((s.wakeWaiter w).opAt w.unit k).state = .done := by
  rcases h with h | ⟨hk, hop, honly⟩
  · exact State.wakeWaiter_keeps_done h w
  · exact State.wakeWaiter_done (State.waiterOp_of_only hk hop honly)

theorem State.DoneOrOnly.wakeAll {s : State} {w : SynWaiter} {k : Nat} (h : s.DoneOrOnly w k) {ws : List SynWaiter} (hw : w ∈ ws) :
    ((ws.foldl State.wakeWaiter s).opAt w.unit k).state = .done := by
  induction ws generalizing s with
  | nil => cases hw
  | cons x ws ih =>
    rcases List.mem_cons.1 hw with rfl | hw
    · exact State.wakeAll_keeps_done h.done ws
    · exact ih (h.wake x) hw

/-- The object after the end of its round: VALUE 0, not held, without waiters, in this generation (R458). -/
structure State.RoundOver (s : State) (die obj gen : Nat) : Prop where
  value   : s.get F.SYN_OBJ_VALUE.VALUE die obj = 0
  held    : s.on F.SYN_OBJ_VALUE.HELD die obj = false
  waiters : s.waitersOf die obj = []
  gen     : s.get F.SYN_OBJ_VALUE.GEN die obj = gen

/-- The object with its counter cleared and its generation counted on (R458). -/
def State.nextRound (s : State) (die obj : Nat) : State :=
  ((s.put F.SYN_OBJ_VALUE.VALUE 0 die obj).addWrap F.SYN_OBJ_VALUE.GEN 1 die obj).put F.SYN_OBJ_VALUE.HELD 0 die obj

/-- The object's waiters that had timed out are counted, and it has none left (R457). -/
def State.lateCounted (s : State) (die obj late : Nat) : State :=
  let s := s.onSyn fun x => { x with timedOut := x.timedOut.filter fun t => !(t.1 == die && t.2.1 == obj) }
  if late = 0 then s else s.bump F.SYN_LATE.VALUE late die

theorem State.endRound_eq (s : State) (die obj : Nat) : s.endRound die obj =
    (s.waitersOf die obj).foldl State.wakeWaiter (((s.nextRound die obj).lateCounted die obj
      (s.syn.timedOut.filter fun t => t.1 == die && t.2.1 == obj).length).setWaiters die obj []) := by
  simp only [State.endRound, State.nextRound, State.lateCounted, List.isEmpty_iff, List.length_eq_zero_iff]

section
variable (s : State) (die obj : Nat)

theorem State.lateCounted_frame (late : Nat) : Frame ⟨[.syn], [.SYN_LATE], false⟩ s (s.lateCounted die obj late) := by
  have hsyn : Frame ⟨[.syn], [.SYN_LATE], false⟩ s
      (s.onSyn fun x => { x with timedOut := x.timedOut.filter fun t => !(t.1 == die && t.2.1 == obj) }) :=
    (Frame.refl s).step (State.onSyn_frame _ _)
  exact .ite hsyn (hsyn.step (State.bump_touch _ _ _ _ _))

theorem State.wakeAll_frame (ws : List SynWaiter) : Frame ⟨[.sched], [], false⟩ s (ws.foldl State.wakeWaiter s) :=
  .foldl fun t w => t.wakeWaiter_frame w

theorem State.endRound_over : (s.endRound die obj).RoundOver die obj ((s.get F.SYN_OBJ_VALUE.GEN die obj + 1) % 256) := by
  rw [State.endRound_eq]
  generalize (s.syn.timedOut.filter _).length = late
  generalize s.waitersOf die obj = ws
  have hlate := (s.nextRound die obj).lateCounted_frame die obj late
  have hwake := State.wakeAll_frame (((s.nextRound die obj).lateCounted die obj late).setWaiters die obj []) ws
  have hget : ∀ f : Fld, 53 ≤ f.lo ∨ f.lo + f.len ≤ 48 → f.reg = .SYN_OBJ_VALUE →
      (ws.foldl State.wakeWaiter (((s.nextRound die obj).lateCounted die obj late).setWaiters die obj [])).get f die obj =
        (s.nextRound die obj).get f die obj := fun f hf hr => by
    rw [hwake.get_eq _ _ _ List.not_mem_nil, State.get_setWaiters hf, hlate.get_eq _ _ _ (by simp [hr])]
  refine ⟨?_, ?_, ?_, ?_⟩
  · rw [hget _ (by decide) rfl]
    simp (disch := decide) [State.nextRound, State.addWrap, State.get_put_same, State.get_put_apart]
  · rw [State.on, hget _ (by decide) rfl]
    simp (disch := decide) [State.nextRound, State.get_put_same]
  · rw [State.waitersOf_congr (hwake.parts .syn (by decide)), State.waitersOf_setWaiters_same]
  · rw [hget _ (by decide) rfl]
    simp (disch := decide) [State.nextRound, State.addWrap, State.get_put_same, State.get_put_apart]

variable {s die obj}

/-- The end of another object's round. -/
theorem State.RoundOver.endRound {g d o : Nat} (h : s.RoundOver die obj g) (ho : (d, o) ≠ (die, obj)) :
    (s.endRound d o).RoundOver die obj g := by
  rw [State.endRound_eq]
  generalize (s.syn.timedOut.filter _).length = late
  generalize s.waitersOf d o = ws
  have hlate := (s.nextRound d o).lateCounted_frame d o late
  have hsyn : (s.nextRound d o).syn = s.syn := rfl
  have hplace : ∀ (t : State) (f : Fld) v (g : Fld), f.reg = .SYN_OBJ_VALUE → g.reg = .SYN_OBJ_VALUE →
      (t.put f v d o).get g die obj = t.get g die obj := fun t f v g hf hg => by
    refine State.get_put_place fun e => ho ?_
    rw [hf, hg] at e
    simpa [Reg.place, Reg.info, regSYN_OBJ_VALUE] using e
  have hwake := State.wakeAll_frame (((s.nextRound d o).lateCounted d o late).setWaiters d o []) ws
  have hget : ∀ f : Fld, f.reg = .SYN_OBJ_VALUE →
      (ws.foldl State.wakeWaiter (((s.nextRound d o).lateCounted d o late).setWaiters d o [])).get f die obj =
        s.get f die obj := fun f hr => by
    rw [hwake.get_eq _ _ _ List.not_mem_nil, State.setWaiters, hplace _ _ _ _ rfl hr, State.get_onSyn,
      hlate.get_eq _ _ _ (by simp [hr]), State.nextRound, hplace _ _ _ _ rfl hr, State.addWrap, hplace _ _ _ _ rfl hr,
      hplace _ _ _ _ rfl hr]
  refine ⟨(hget _ rfl).trans h.value, ?_, ?_, (hget _ rfl).trans h.gen⟩
  · rw [State.on, hget _ rfl]
    exact h.held
  · rw [State.waitersOf_congr (hwake.parts .syn (by decide)), State.waitersOf_setWaiters_ne ho, ← h.waiters, State.waitersOf,
      State.waitersOf]
    have hwaiters : ((s.nextRound d o).lateCounted d o late).syn.waiters = s.syn.waiters := by
      unfold State.lateCounted
      split <;> rfl
    rw [hwaiters]

theorem State.endRound_keeps_done {u k : Nat} (h : (s.opAt u k).state = .done) : ((s.endRound die obj).opAt u k).state = .done := by
  rw [State.endRound_eq]
  refine State.wakeAll_keeps_done ?_ _
  rw [State.opAt_congr (t := State.setWaiters _ _ _ _) (s := s) ?_, h]
  unfold State.lateCounted
  split <;> rfl

theorem State.endRound_wakes {w : SynWaiter} {k : Nat} (h : s.DoneOrOnly w k) (hw : w ∈ s.waitersOf die obj) :
    ((s.endRound die obj).opAt w.unit k).state = .done := by
  rw [State.endRound_eq]
  refine State.DoneOrOnly.wakeAll ?_ hw
  have hsched : (((s.nextRound die obj).lateCounted die obj
      (s.syn.timedOut.filter fun t => t.1 == die && t.2.1 == obj).length).setWaiters die obj []).sched = s.sched := by
    unfold State.lateCounted
    split <;> rfl
  simpa only [State.DoneOrOnly, State.opAt_congr hsched, State.unit_congr hsched] using h

/-! ### Releases -/

theorem mem_insertBy {α : Type} {key : α → Nat} {x y : α} {xs : List α} (h : y ∈ insertBy key x xs) : y = x ∨ y ∈ xs := by
  induction xs with
  | nil => simpa [insertBy] using h
  | cons z xs ih =>
    simp only [insertBy] at h
    split at h
    · simpa using h
    · rcases List.mem_cons.1 h with rfl | h
      · simp
      · rcases ih h with h | h <;> simp [h]

theorem mem_sortBy {α : Type} {key : α → Nat} {y : α} {xs : List α} (h : y ∈ sortBy key xs) : y ∈ xs := by
  have key : ∀ (xs acc : List α), y ∈ xs.foldl (fun acc x => insertBy key x acc) acc → y ∈ acc ∨ y ∈ xs := by
    intro xs
    induction xs with
    | nil => exact fun acc h => .inl h
    | cons x xs ih =>
      intro acc h
      rcases ih _ h with h | h
      · rcases mem_insertBy h with rfl | h <;> simp [*]
      · simp [h]
  simpa using key xs [] h

theorem State.heldFor_of_released {rd ri gen : Nat} {o : Nat × Nat} (h : o ∈ s.released rd ri gen) :
    s.heldFor o rd ri gen = true :=
  (List.mem_filter.1 (mem_sortBy h)).2

/-- A release leaves an object whose round is over. -/
theorem State.RoundOver.releaseAll {g : Nat} (h : s.RoundOver die obj g) (rd ri gen : Nat) :
    (s.releaseAll rd ri gen).RoundOver die obj g := by
  have hnot : ∀ o ∈ s.released rd ri gen, o ≠ (die, obj) := fun o ho e => by
    have := State.heldFor_of_released ho
    simp [State.heldFor, e, h.held] at this
  unfold State.releaseAll
  generalize s.released rd ri gen = os at hnot
  induction os generalizing s with
  | nil => exact h
  | cons o os ih => exact ih (h.endRound (hnot o (by simp))) fun o ho => hnot o (by simp [ho])

theorem State.releaseAll_keeps_done {u k : Nat} (h : (s.opAt u k).state = .done) (rd ri gen : Nat) :
    ((s.releaseAll rd ri gen).opAt u k).state = .done := by
  unfold State.releaseAll
  generalize s.released rd ri gen = os
  induction os generalizing s with
  | nil => exact h
  | cons o os ih => exact ih (State.endRound_keeps_done h)

end

/-! ### Arrivals -/

/-- A barrier with one arrival more, and who signed for it (R450, R458). -/
def State.arrived (s : State) (die obj org : Nat) : State := (s.addWrap F.SYN_OBJ_VALUE.VALUE 1 die obj).signedBy die obj org

section
variable (s : State) (die obj org : Nat)

theorem State.arrived_frame : Frame ⟨[], [.SYN_OBJ_LAST, .SYN_OBJ_LAST_TICK, .SYN_OBJ_VALUE], false⟩ s (s.arrived die obj org) :=
  ((Frame.refl s).step (s.put_touch _ _ _ _)).step (State.signedBy_touch ..)

theorem State.get_arrived_value : (s.arrived die obj org).get F.SYN_OBJ_VALUE.VALUE die obj =
    (s.get F.SYN_OBJ_VALUE.VALUE die obj + 1) % 2 ^ 32 := by
  rw [State.arrived, (State.signedBy_touch ..).get_eq _ _ _]
  exact State.get_addWrap_same _ _ _ _ _ (by decide)

theorem State.get_arrived {f : Fld} (hf : F.SYN_OBJ_VALUE.VALUE.lo + F.SYN_OBJ_VALUE.VALUE.len ≤ f.lo) (hr : f.reg ∉ [Reg.SYN_OBJ_LAST, .SYN_OBJ_LAST_TICK]) (d i : Nat) :
    (s.arrived die obj org).get f d i = s.get f d i := by
  rw [State.arrived, (State.signedBy_touch ..).get_eq _ _ _ hr, State.addWrap, State.get_put_apart (.inl hf) (by decide)]

theorem State.get_arrived_cfg {f : Fld} (hr : f.reg = .SYN_OBJ_CFG ∨ f.reg = .SYN_OBJ_LINK) (d i : Nat) :
    (s.arrived die obj org).get f d i = s.get f d i :=
  (s.arrived_frame die obj org).get_eq _ _ _ (by rcases hr with h | h <;> simp [h])

variable {s die obj}

/-- An arrival at a barrier that is held, or whose round it does not complete. -/
theorem State.arrive_waits (h : s.on F.SYN_OBJ_VALUE.HELD die obj = true ∨
      (s.get F.SYN_OBJ_VALUE.VALUE die obj + 1) % 2 ^ 32 < s.get F.SYN_OBJ_CFG.TARGET die obj) :
    s.arrive die obj org = s.arrived die obj org := by
  rw [State.arrive, State.arriveAt]
  refine if_pos ?_
  rw [← State.arrived, State.on, State.get_arrived _ _ _ _ (by decide) (by decide), State.get_arrived_value,
    State.get_arrived_cfg _ _ _ _ (.inl rfl), ← State.on]
  simpa using h

/-- An arrival that completes the round of a root: the round ends, here and at what the root releases. -/
theorem State.arrive_ends (hheld : s.on F.SYN_OBJ_VALUE.HELD die obj = false)
    (hv : s.get F.SYN_OBJ_CFG.TARGET die obj ≤ (s.get F.SYN_OBJ_VALUE.VALUE die obj + 1) % 2 ^ 32)
    (hroot : s.on F.SYN_OBJ_LINK.PARENT_VALID die obj = false) : ∃ rd ri gen,
    Frame ⟨[.vrt], [], false⟩ (((s.arrived die obj org).endRound die obj).releaseAll rd ri gen) (s.arrive die obj org) := by
  rw [State.arrive, State.arriveAt, ← State.arrived]
  have hheld' : (s.arrived die obj org).on F.SYN_OBJ_VALUE.HELD die obj = false := by
    rw [State.on, State.get_arrived _ _ _ _ (by decide) (by decide)]
    exact hheld
  have hroot' : (s.arrived die obj org).on F.SYN_OBJ_LINK.PARENT_VALID die obj = false := by
    rw [State.on, State.get_arrived_cfg _ _ _ _ (.inr rfl)]
    exact hroot
  have hv' : ¬ (s.arrived die obj org).get F.SYN_OBJ_VALUE.VALUE die obj <
      (s.arrived die obj org).get F.SYN_OBJ_CFG.TARGET die obj := by
    rw [State.get_arrived_value, State.get_arrived_cfg _ _ _ _ (.inl rfl)]
    omega
  generalize s.arrived die obj org = t at *
  rw [if_neg (by simp [hheld', hv']), if_neg (by simp [hroot'])]
  exact ⟨_, _, _, .ite (State.tc0Bcast_frame _ _ _) (.refl _)⟩

end

/-! ### Timeouts -/

/-- A waiter whose time is over has left its object; the release of a barrier will count it late (R457). -/
def State.leftWaiters (s : State) (die obj i : Nat) (w : SynWaiter) : State :=
  let s := s.setWaiters die obj ((s.waitersOf die obj).eraseIdx i)
  if w.kind = 2 then s.onSyn fun y => { y with timedOut := y.timedOut ++ [(die, obj, w.unit)] } else s

section
variable (s : State) (die obj i : Nat) (w : SynWaiter)

theorem State.leftWaiters_frame : Frame ⟨[.syn], [.SYN_OBJ_VALUE], false⟩ s (s.leftWaiters die obj i w) := by
  unfold State.leftWaiters
  have h := s.setWaiters_frame die obj ((s.waitersOf die obj).eraseIdx i)
  exact .ite (h.step (State.onSyn_frame _ _)) h

theorem State.waitersOf_leftWaiters : (s.leftWaiters die obj i w).waitersOf die obj = (s.waitersOf die obj).eraseIdx i := by
  have h := s.waitersOf_setWaiters_same die obj ((s.waitersOf die obj).eraseIdx i)
  unfold State.leftWaiters
  split
  · exact h
  · exact h

theorem State.timedOut_leftWaiters :
    (s.leftWaiters die obj i w).syn.timedOut = s.syn.timedOut ++ if w.kind = 2 then [(die, obj, w.unit)] else [] := by
  unfold State.leftWaiters
  split
  · rfl
  · exact (List.append_nil _).symm

variable {s die obj i w}

/-- A waiter's time is over: its operation ends with cause 4 (R457). -/
theorem State.waitTimeout_over {k : Nat} (hw : (s.waitersOf die obj)[i]? = some w) (h0 : w.timeout ≠ 0)
    (hlate : w.timeout ≤ s.now (unitDie w.unit) - w.tick) (hk : s.waiterOp w = some k) :
    s.waitTimeout die obj i = (s.leftWaiters die obj i w).failSyn w.unit k 4 obj := by
  have hop : (s.leftWaiters die obj i w).waiterOp w = some k := by
    rw [State.waiterOp_congr (s.leftWaiters_frame die obj i w).sched_eq, hk]
  unfold State.leftWaiters at *
  simp only [State.waitTimeout, hw, if_pos (And.intro h0 hlate), hop]

end

end Sys2Proof.Machine

open Sys2Proof Sys2Proof.Machine

/-- Settles O45: error statuses, registering, the end of a round and timeouts, each by what its piece of the model does. -/
theorem waitsAndBarriersHoldTheirOperation : Obligations.WaitsAndBarriersHoldTheirOperation := by
  unfold Obligations.WaitsAndBarriersHoldTheirOperation
  refine ⟨?_, ?_, ?_, ?_⟩
  · intro s die k cls kind cause p c hr hfree hc hk bad hcause ha hcalm hev
    obtain ⟨hdie, hk', effect, he, heff⟩ : isCompute die = true ∧ k < (s.unit (synUnit die)).ops.length ∧
        ∃ effect, exec c s = act c s effect ∧ effect s = s.failSyn (synUnit die) k cause (pay p 0 1) := by
      rcases hc with ⟨rfl, rfl, rfl⟩ | ⟨rfl, rfl, rfl⟩ | ⟨rfl, rfl, rfl⟩
      · refine ⟨hr.1, length_of_findIdx hk, fun s => s.signalOp (synUnit die) p, rfl, State.signalOp_fails hfree hk ?_⟩
        simpa [bad, and_assoc] using hcause
      · refine ⟨hr.1, length_of_findIdx hk, fun s => s.waitOpOf (synUnit die) p, rfl, State.waitOpOf_fails hfree hk ?_⟩
        rcases hcause with h | ⟨hgood, -, hobj⟩ | ⟨hgood, -, hfull⟩
        · exact .inl h
        · exact .inr ⟨hgood, .inl hobj⟩
        · exact .inr ⟨hgood, .inr hfull⟩
      · refine ⟨hr.1, length_of_findIdx hk, fun s => s.barOp (synUnit die) p, rfl, State.barOp_fails hfree hk ?_⟩
        rcases hcause with h | ⟨hgood, -, hobj⟩ | ⟨hgood, -, hfull⟩
        · exact .inl h
        · exact .inr ⟨hgood, .inl hobj⟩
        · exact .inr ⟨hgood, .inr hfull⟩
    obtain ⟨hfailed, hevent, hc, hidx, hsyn, hfatal⟩ := State.failSyn_spec (cause := cause) (index := pay p 0 1) hdie hk' ha
      ((State.Calm.of_calm hcalm).mono (by decide)) hev
    have hlt : cause < 256 := by omega
    exact ⟨_, exec_eq_next hr he heff hfatal, hfailed, hevent, hc.trans (Nat.mod_eq_of_lt hlt), hidx, hsyn⟩
  · intro s die k p hr hfree hk h2 h8 h12 hobj u obj od v w
    refine ⟨fun hroom hnone => ?_, fun hws hholds hops => ?_⟩
    · have hop := State.waitOpOf_registers hfree hk h2 h8 h12 hobj hroom
      have hws := s.waitersOf_register u k od obj (payBits p 8 0 1) (pay p 4 4) (pay p 10 2)
        (payBits p 8 0 1 == 0 && payBits p 8 1 1 == 1)
      have hv : (s.register u k od obj (payBits p 8 0 1) (pay p 4 4) (pay p 10 2)
        (payBits p 8 0 1 == 0 && payBits p 8 1 1 == 1)).get F.SYN_OBJ_VALUE.VALUE od obj = v :=
        State.get_register _ _ _ _ _ _ _ _ _ (by decide) _ _
      rw [State.testWaiters_none (by rw [hws, hv]; exact hnone)] at hop
      refine ⟨_, exec_eq_next (effect := fun s => s.waitOpOf (synUnit die) p) hr rfl hop (State.register_touch ..).fatal_eq, hws, ?_, hv,
        State.get_register_waiters _ _ _ _ _ _ _ _ _ hroom⟩
      rw [State.opAt_register _ _ _ _ _ _ _ _ _ (length_of_findIdx hk)]
    · have hop := State.waitOpOf_registers hfree hk h2 h8 h12 hobj (by rw [hws]; decide)
      have hws' := s.waitersOf_register u k od obj (payBits p 8 0 1) (pay p 4 4) (pay p 10 2)
        (payBits p 8 0 1 == 0 && payBits p 8 1 1 == 1)
      rw [hws, List.nil_append] at hws'
      have hv : (s.register u k od obj (payBits p 8 0 1) (pay p 4 4) (pay p 10 2)
        (payBits p 8 0 1 == 0 && payBits p 8 1 1 == 1)).get F.SYN_OBJ_VALUE.VALUE od obj = v :=
        State.get_register _ _ _ _ _ _ _ _ _ (by decide) _ _
      have hclass : (s.opAt u k).opclass = 0x59 := by
        have := State.opAt_of_findIdx hk
        simp only [Bool.and_eq_true, beq_iff_eq] at this
        exact this.1.1
      have hfound := (State.waiterOp_register (length_of_findIdx hk) (.inl hclass) hops od obj (payBits p 8 0 1) (pay p 4 4)
        (pay p 10 2) (payBits p 8 0 1 == 0 && payBits p 8 1 1 == 1)).1
      obtain ⟨hvalue, hnone, -, hdone⟩ := State.testWaiters_one_spec hws' (by rw [hv]; exact hholds) hfound
      refine ⟨_, exec_eq_next (effect := fun s => s.waitOpOf (synUnit die) p) hr rfl hop
        ((State.testWaiters_frame ..).fatal_eq.trans (State.register_touch ..).fatal_eq), hnone, hdone, ?_⟩
      rw [hvalue, hv]
      simp only [SynWaiter.leaves, State.newWaiter, w, Bool.and_eq_true, beq_iff_eq]
      simp only [and_self_left]
  · intro s die k p hr hfree hk h2 h12 hobj hroom u obj od v
    have hop := State.barOp_registers hfree hk h2 h12 hobj hroom
    have hreg := s.register_touch u k od obj 2 0 (pay p 10 2) false
    have hws := s.waitersOf_register u k od obj 2 0 (pay p 10 2) false
    have hwaiters := s.get_register_waiters u k od obj 2 0 (pay p 10 2) false hroom
    have hopAt := s.opAt_register u k od obj 2 0 (pay p 10 2) false (length_of_findIdx hk)
    have hget : ∀ f : Fld, 53 ≤ f.lo ∨ f.lo + f.len ≤ 48 → ∀ d i,
        (s.register u k od obj 2 0 (pay p 10 2) false).get f d i = s.get f d i := fun f hf d i =>
      State.get_register _ _ _ _ _ _ _ _ _ hf d i
    refine ⟨fun hwait => ?_, fun hheld hv hroot hops => ?_⟩
    · rw [State.arrive_waits _ (by rwa [State.on, hget _ (by decide), hget _ (by decide), hget _ (by decide)])] at hop
      generalize s.register u k od obj 2 0 (pay p 10 2) false = r at *
      have harr := r.arrived_frame od obj (s.originator u)
      refine ⟨_, exec_eq_next (effect := fun s => s.barOp (synUnit die) p) hr rfl hop (harr.fatal_eq.trans hreg.fatal_eq), ?_, ?_, ?_, ?_⟩
      · rw [State.get_arrived_value, hget _ (by decide)]
      · rw [State.opAt_congr harr.sched_eq, hopAt]
      · rw [State.get_arrived _ _ _ _ (by decide) (by decide), hwaiters]
      · rw [State.get_arrived _ _ _ _ (by decide) (by decide), hget _ (by decide)]
    · have hclass : (s.opAt u k).opclass = 0x5A := by
        have := State.opAt_of_findIdx hk
        simp only [Bool.and_eq_true, beq_iff_eq] at this
        exact this.1.1
      have honly := (State.waiterOp_register (length_of_findIdx hk) (.inr hclass) hops od obj 2 0 (pay p 10 2) false).2
      have hlen : k < ((s.register u k od obj 2 0 (pay p 10 2) false).unit u).ops.length := by
        rw [State.ops_register, List.length_modify]
        exact length_of_findIdx hk
      obtain ⟨rd, ri, gen, hend⟩ := State.arrive_ends (s := s.register u k od obj 2 0 (pay p 10 2) false) (die := od) (obj := obj)
        (s.originator u) (by rwa [State.on, hget _ (by decide)]) (by rwa [hget _ (by decide), hget _ (by decide)])
        (by rwa [State.on, hget _ (by decide)])
      have hgen := hget F.SYN_OBJ_VALUE.GEN (by decide) od obj
      generalize s.register u k od obj 2 0 (pay p 10 2) false = r at *
      have harr := r.arrived_frame od obj (s.originator u)
      have hover := ((r.arrived od obj (s.originator u)).endRound_over od obj).releaseAll rd ri gen
      have hdone : ((((r.arrived od obj (s.originator u)).endRound od obj).releaseAll rd ri gen).opAt u k).state = .done := by
        refine State.releaseAll_keeps_done (State.endRound_wakes (w := s.newWaiter u k 2 0 (pay p 10 2) false) (.inr ?_) ?_) _ _ _
        · change k < ((r.arrived od obj (s.originator u)).unit u).ops.length ∧ _
          simp only [State.newWaiter, State.opAt_congr harr.sched_eq, State.unit_congr harr.sched_eq]
          exact ⟨hlen, by rw [hopAt]; exact ⟨rfl, rfl, .inr hclass⟩, honly⟩
        · rw [State.waitersOf_congr (harr.parts .syn (by decide)), hws]
          simp
      refine ⟨_, exec_eq_next (effect := fun s => s.barOp (synUnit die) p) hr rfl hop ?_, ?_, ?_, ?_, ?_⟩
      · exact (State.arriveAt_frame ..).fatal_eq.trans hreg.fatal_eq
      · rw [hend.get_eq _ _ _ List.not_mem_nil, hover.value]
      · rw [State.opAt_congr hend.sched_eq, hdone]
      · rw [State.waitersOf_congr (hend.parts .syn (by decide)), hover.waiters]
      · rw [hend.get_eq _ _ _ List.not_mem_nil, hover.gen, State.get_arrived _ _ _ _ (by decide) (by decide), hgen]
  · intro s die obj i hr
    refine ⟨fun hnone => ?_, fun w hw => ⟨fun hearly => ?_, fun k d ht0 hlate hu hd hk ha hcalm hev => ?_⟩⟩
    · exact exec_eq_next (effect := fun s => s.waitTimeout die obj i) hr rfl (by simp only [State.waitTimeout, hnone])
    · refine exec_eq_next (effect := fun s => s.waitTimeout die obj i) hr rfl ?_
      simp only [State.waitTimeout, hw]
      exact if_neg (by omega)
    · have hop := State.waitTimeout_over hw ht0 hlate hk
      have hframe := s.leftWaiters_frame die obj i w
      rw [hu] at hop ha ⊢
      have hlen : k < ((s.leftWaiters die obj i w).unit (synUnit d)).ops.length := by
        rw [State.unit_congr hframe.sched_eq, ← hu]
        exact length_of_findIdx hk
      obtain ⟨hfailed, -, hc, -, hsyn, hfatal⟩ := State.failSyn_spec (cause := 4) (index := obj) hd hlen
        (by rwa [State.opAt_congr hframe.sched_eq])
        ((State.Spares.of_frame (n := 0) hframe) 1 ((State.Calm.of_calm hcalm).mono (by decide))).1
        (by rwa [hframe.on_eq _ _ _])
      refine ⟨_, exec_eq_next (effect := fun s => s.waitTimeout die obj i) hr rfl hop (hfatal.trans hframe.fatal_eq), ?_, hfailed,
        hc, ?_⟩
      · rw [State.waitersOf_congr hsyn, State.waitersOf_leftWaiters]
      · rw [hsyn, State.timedOut_leftWaiters, hu]

end

/-! # Synchronisation packets and the job abort

What arrives from other modules: packets of objects, held, applied or stray (R458 to R461), and the ABORT and ABORT_RELEASE of the job
(R463, R464). -/

section

namespace Sys2Proof.Machine

/-! ### Stray packets -/

section
variable {s : State} {die : Nat} {c : Instr} {effect : State → State}

theorem isObject_die {die obj : Nat} (h : isObject die obj = true) : (isCompute die || isHost die) = true := by
  simp only [isObject, Bool.and_eq_true] at h
  exact h.1

theorem State.stray_eq (h : (isCompute die || isHost die) = true) (s : State) :
    s.stray die = (s.bump F.SYN_STRAY.VALUE 1 die).flag F.SYN_EVENTS.STRAY die := by
  rw [State.stray, if_pos h]

/-- What a stray packet at a die does (R459, R461, R463). -/
theorem State.stray_completes (hr : s.Reaches c) (he : exec c s = act c s effect) (heff : effect s = s.stray die)
    (hd : (isCompute die || isHost die) = true) :
    Completes c s [] [(F.SYN_STRAY.VALUE, die, 0), (F.SYN_EVENTS.STRAY, die, 0)] fun t =>
      t.on F.SYN_EVENTS.STRAY die = true ∧ t.get F.SYN_STRAY.VALUE die = min (s.get F.SYN_STRAY.VALUE die + 1) (2 ^ 32 - 1) := by
  rw [State.stray_eq hd] at heff
  refine Completes.of_alters hr he ?_ ?_
  · rw [heff]
    exact ((State.Alters.refl s).put (by simp) rfl).put (by simp) rfl
  · rw [heff]
    refine ⟨State.on_flag_same _ _ _ _ (by decide) (by decide), ?_⟩
    rw [State.flag, State.get_put_reg (by decide)]
    exact State.get_bump_same _ _ _ _ _ (by decide)

end

/-! ### Packets of objects -/

section
variable {s : State} {type : Nat} {pkt : Bytes}

theorem State.receiveSyn_broken (h : crcHolds 64 pkt = false) : s.receiveSyn type pkt = s.stray 0 := by
  rw [State.receiveSyn, if_pos (by simp [h])]

/-- What a packet that names the object's step, or not, comes to (R461). -/
theorem State.receiveSyn_other (hcrc : crcHolds 64 pkt = true) (htype : (SynPacket.ofBytes pkt).type = type)
    (hobj : isObject (SynPacket.ofBytes pkt).die (SynPacket.ofBytes pkt).index = true)
    (hmine : ¬(s.on F.SYN_OBJ_CFG.RESET (SynPacket.ofBytes pkt).die (SynPacket.ofBytes pkt).index = false ∨
      ((SynPacket.ofBytes pkt).step = s.get F.SCH_STEP.STEP % 65536 ∧ (SynPacket.ofBytes pkt).replay = s.get F.SCH_REPLAY.COUNT))) :
    s.receiveSyn type pkt =
      if (SynPacket.ofBytes pkt).step = (s.get F.SCH_STEP.STEP % 65536 + 1) % 65536 ∧ (SynPacket.ofBytes pkt).replay = 0 then
        if s.heldAt (SynPacket.ofBytes pkt).die < 16 then
          (s.onSyn fun x => { x with hold := x.hold ++ [((SynPacket.ofBytes pkt).die, pkt)] }).put F.SYN_STATUS.HELD
            ((s.onSyn fun x => { x with hold := x.hold ++ [((SynPacket.ofBytes pkt).die, pkt)] }).heldAt (SynPacket.ofBytes pkt).die)
            (SynPacket.ofBytes pkt).die
        else (s.flag F.SYN_EVENTS.HOLD_FULL (SynPacket.ofBytes pkt).die).stray (SynPacket.ofBytes pkt).die
      else s.stray (SynPacket.ofBytes pkt).die := by
  obtain ⟨hreset, hstep⟩ := not_or.1 hmine
  unfold State.receiveSyn
  extract_lets q step
  rw [if_neg (by simp [hcrc]), if_neg (by simp [q, htype, hobj]), if_neg (by simpa using hreset), if_neg hstep]

theorem State.heldAt_append (s : State) (die : Nat) (pkt : Bytes) :
    (s.onSyn fun x => { x with hold := x.hold ++ [(die, pkt)] }).heldAt die = s.heldAt die + 1 := by
  simp [State.heldAt]

end

section
variable {s : State} {q : SynPacket}

theorem State.applyPacket_no_counter (htype : q.type = 0x10) (hobj : isObject q.die q.index = true)
    (hkind : s.get F.SYN_OBJ_CFG.KIND q.die q.index ≠ 1) : s.applyPacket q = s.stray q.die := by
  simp [State.applyPacket, htype, hobj, hkind]

theorem State.applyPacket_no_barrier (htype : q.type = 0x11) (hobj : isObject q.die q.index = true)
    (h : s.get F.SYN_OBJ_CFG.KIND q.die q.index ≠ 2 ∨ s.get F.SYN_OBJ_VALUE.GEN q.die q.index ≠ q.gen) :
    s.applyPacket q = s.stray q.die := by
  simp only [State.applyPacket, htype, hobj, if_true]
  exact if_neg (by tauto)

theorem State.applyPacket_arrive (htype : q.type = 0x11) (hobj : isObject q.die q.index = true)
    (hkind : s.get F.SYN_OBJ_CFG.KIND q.die q.index = 2) (hgen : s.get F.SYN_OBJ_VALUE.GEN q.die q.index = q.gen) :
    s.applyPacket q = s.arrive q.die q.index q.source := by
  simp only [State.applyPacket, htype, hobj, if_true]
  exact if_pos ⟨hkind, hgen⟩

theorem State.applyPacket_release (htype : q.type = 0x12) :
    s.applyPacket q = if (s.released q.die q.index q.gen).isEmpty then s.stray q.die else s.releaseAll q.die q.index q.gen := by
  simp only [State.applyPacket, htype]

theorem State.releaseAll_one {rd ri gen : Nat} {o : Nat × Nat} (h : s.released rd ri gen = [o]) :
    s.releaseAll rd ri gen = s.endRound o.1 o.2 := by
  simp [State.releaseAll, h]

end

/-! ### The job abort -/

theorem fieldAt_lt (bs : Bytes) (off len : Nat) : fieldAt bs off len < 256 ^ len :=
  Nat.lt_of_lt_of_le (leN_lt _) (Nat.pow_le_pow_right (by decide) (by simp))

/-- The fields of a break that was recorded (R103, R462). -/
theorem State.recordBreak_spec (s : State) (segment cause unit erg module tick : Nat) :
    (s.recordBreak segment cause unit erg module tick).get F.SCH_BREAK.CAUSE = cause % 16 ∧
    (s.recordBreak segment cause unit erg module tick).get F.SCH_BREAK.UNIT = unit % 2 ^ 16 ∧
    (s.recordBreak segment cause unit erg module tick).get F.SCH_BREAK.SEGMENT = segment % 2 ^ 24 ∧
    (s.recordBreak segment cause unit erg module tick).get F.SCH_BREAK.ERG = erg % 2 ∧
    (s.recordBreak segment cause unit erg module tick).get F.SCH_BREAK.MODULE = module % 2 ^ 12 ∧
    (s.recordBreak segment cause unit erg module tick).get F.SCH_BREAK_TICK.TICK = tick % 2 ^ 64 := by
  unfold State.recordBreak
  simp only [State.get_onSched]
  refine ⟨?_, ?_, ?_, ?_, ?_, ?_⟩ <;>
    simp (disch := decide) [State.get_put_same, State.get_put_apart, State.get_put_reg]

/-- The step is aborted as another module's break says, or, for a halt, the break is recorded alone (R103, R463, R464). -/
def State.abortTaken (s : State) (q : SynPacket) : State :=
  let s := if !s.active then s
    else if s.sched.broken then s.flag F.SCH_EVENTS.EXTRA_BREAK
    else
      let s := s.recordBreak q.segment q.cause q.unit (bits q.source 28 1) (bits q.source 16 12) q.tick
      if q.halt then s else s.abortStep
  if q.halt then s.recordHaltPacket else s

/-- A change that leaves the job's register and the identity leaves who is root. -/
theorem State.isRoot_frame {K : Touch} {s t : State} (h : Frame K s t) (hj : Reg.SYN_JOB ∉ K.regs := by decide)
    (hi : Reg.SEC_IDENTITY ∉ K.regs := by decide) (ha : K.any = false := by rfl) : t.isRoot = s.isRoot := by
  rw [State.isRoot, State.isRoot, State.moduleNo, State.moduleNo, h.on_eq _ _ _ hj ha, h.get_eq _ _ _ hj ha, h.get_eq _ _ _ hi ha]

theorem State.partnerRoot_of_isRoot {s : State} (h : s.isRoot = false) (q : SynPacket) : s.partnerRoot q = false := by
  rw [State.partnerRoot, Bool.and_assoc, ← State.isRoot, h, Bool.and_false]

/-- The footprint of an abort's own part. -/
def abortTouch : Touch :=
  ⟨storeParts ++ [.sched, .codec, .fsel, .upd, .rdx, .syn, .ldg], ledgerRegs ++
    [.CDC_EVENTS, .CDC_PENDING, .RDX_STRAY, .SCH_CTRL, .SCH_EPOCH, .SYN_OBJ_VALUE, .SYN_STATUS, .UPD_STATUS, .VRT_BANK,
      .SCH_BREAK, .SCH_BREAK_TICK, .SCH_EVENTS], false⟩

theorem State.abortTaken_frame (s : State) (q : SynPacket) : Frame abortTouch s (s.abortTaken q) := by
  unfold State.abortTaken
  extract_lets recorded taken
  have hrecorded : Frame abortTouch s recorded := (Frame.refl s).step (State.recordBreak_frame ..)
  have htaken : Frame abortTouch s taken :=
    .ite (.refl s) (.ite ((Frame.refl s).step (s.put_touch _ _ _ _)) (.ite hrecorded (hrecorded.step (State.abortStep_frame _))))
  exact .ite (htaken.step (State.onSched_frame _ _)) htaken

/-- At a module that is not the root an ABORT of another module is taken and goes no further (R463). -/
theorem State.acceptAbort_eq {s : State} {pkt : Bytes}
    (hother : bits (SynPacket.ofBytes pkt).source 28 1 ≠ s.erg ∨ bits (SynPacket.ofBytes pkt).source 16 12 ≠ s.moduleNo)
    (hroot : s.isRoot = false) : s.acceptAbort pkt = s.abortTaken (SynPacket.ofBytes pkt) := by
  have hr : (s.abortTaken (SynPacket.ofBytes pkt)).isRoot = false := by
    rw [State.isRoot_frame (s.abortTaken_frame _)]
    exact hroot
  have hp := State.partnerRoot_of_isRoot hr (SynPacket.ofBytes pkt)
  unfold State.abortTaken at hr hp ⊢
  unfold State.acceptAbort
  extract_lets q erg module recorded taken halted
  have hr' : halted.isRoot = false := hr
  have hp' : halted.partnerRoot q = false := hp
  rw [if_neg (by tauto), if_neg (by simp [hp']), if_neg (by simp [hr'])]

theorem State.active_of_inStep {s : State} (h : s.inStep) : s.active = true := by simp [State.active, h.1]

/-- An ABORT of another module's break while the step runs (R103, R463). -/
theorem State.abortTaken_running {s : State} {q : SynPacket} (hin : s.inStep) (hhalt : q.halt = false) :
    s.abortTaken q =
      (s.recordBreak q.segment q.cause q.unit (bits q.source 28 1) (bits q.source 16 12) q.tick).abortStep := by
  simp [State.abortTaken, State.active_of_inStep hin, hin.2.2, hhalt]

/-- One with HALT: the module aborts at a tick it marks (R464). -/
theorem State.abortTaken_halt {s : State} {q : SynPacket} (hhalt : q.halt = true) :
    (s.abortTaken q).sched.haltAt = some (s.now 72) ∧ (s.abortTaken q).sched.st = s.sched.st := by
  unfold State.abortTaken
  extract_lets recorded taken
  have hnow : taken.now 72 = s.now 72 := by
    have hframe : Frame ⟨[.sched], [.SCH_BREAK, .SCH_BREAK_TICK, .SCH_EVENTS], false⟩ s taken :=
      .ite (.refl s) (.ite ((Frame.refl s).step (s.put_touch _ _ _ _)) (by
        rw [if_pos hhalt]
        exact (Frame.refl s).step (State.recordBreak_frame ..)))
    exact hframe.get_eq _ _ _
  have hst : taken.sched.st = s.sched.st := by
    simp only [taken, hhalt, if_true]
    split
    · rfl
    · split <;> rfl
  rw [if_pos hhalt, State.recordHaltPacket, hnow]
  exact ⟨rfl, hst⟩

/-- A second break of the step (R103). -/
theorem State.abortTaken_extra {s : State} {q : SynPacket} (hhalt : q.halt = false) (hact : s.active = true)
    (hbroken : s.sched.broken = true) : s.abortTaken q = s.flag F.SCH_EVENTS.EXTRA_BREAK := by
  simp [State.abortTaken, hact, hbroken, hhalt]

/-- A break of a step that runs is recorded and the step aborts (R103, R463). -/
theorem State.abort_recorded {s : State} (hin : s.inStep) (segment cause unit erg module tick : Nat) :
    s.Aborted (s.recordBreak segment cause unit erg module tick).abortStep ∧
    ∀ f : Fld, f.reg = .SCH_BREAK ∨ f.reg = .SCH_BREAK_TICK →
      (s.recordBreak segment cause unit erg module tick).abortStep.get f = (s.recordBreak segment cause unit erg module tick).get f := by
  have hrec := s.recordBreak_frame segment cause unit erg module tick
  have hst : (s.recordBreak segment cause unit erg module tick).sched.st = .running ∧
      (s.recordBreak segment cause unit erg module tick).sched.stepEnded = false := ⟨hin.1, hin.2.1⟩
  generalize s.recordBreak segment cause unit erg module tick = r at *
  refine ⟨(State.abortStep_aborted hst.1 hst.2).of_epoch fun d => hrec.get_eq _ _ _, fun f hf => ?_⟩
  exact r.abortStep_frame.get_eq _ _ _ (by rcases hf with hf | hf <;> rw [hf] <;> decide)

theorem State.receiveAbort_eq {s : State} {pkt : Bytes} (hcrc : crcHolds 64 pkt = true)
    (htype : (SynPacket.ofBytes pkt).type = 0x13) (hstep : s.thisStep (SynPacket.ofBytes pkt) = true) :
    s.receiveAbort pkt = s.acceptAbort pkt := by
  simp [State.receiveAbort, hcrc, htype, hstep]

/-- An ABORT_RELEASE is taken: the replay tick is fixed, and a step that nothing has aborted aborts (R103, R463). -/
theorem State.receiveRelease_eq {s : State} {pkt : Bytes} (hcrc : crcHolds 64 pkt = true)
    (htype : (SynPacket.ofBytes pkt).type = 0x14) (hstep : s.thisStep (SynPacket.ofBytes pkt) = true) (hroot : s.isRoot = false) :
    s.receiveRelease pkt = s.acceptRelease (SynPacket.ofBytes pkt) := by
  unfold State.receiveRelease
  extract_lets q taken
  have hframe : Frame abortTouch s taken := by
    simp only [taken, State.acceptRelease]
    refine (Frame.step ?_ (State.put_touch _ _ _ _ _)).step (State.onSched_frame _ _)
    exact .ite (((Frame.refl s).step (State.recordBreak_frame ..)).step (State.abortStep_frame _)) (.refl s)
  have hp : taken.partnerRoot q = false := State.partnerRoot_of_isRoot ((State.isRoot_frame hframe).trans hroot) q
  rw [if_neg (by simp [q, hcrc, htype, hstep]), if_neg (by simp [hp])]

end Sys2Proof.Machine

open Sys2Proof Sys2Proof.Machine

/-- Settles O46: what each packet comes to, by the checks it passes; aborts by what `State.abortStep` leaves. -/
theorem synchronisationAndAbortPackets : Obligations.SynchronisationAndAbortPackets := by
  unfold Obligations.SynchronisationAndAbortPackets
  constructor
  · intro s c type pkt hr hc q step mine next strayAt
    have he : exec c s = act c s (·.receiveSyn type pkt) := by
      rcases hc with ⟨rfl, rfl⟩ | ⟨rfl, rfl⟩ | ⟨rfl, rfl⟩ <;> rfl
    have hstray : ∀ die, (isCompute die || isHost die) = true → s.receiveSyn type pkt = s.stray die → strayAt die :=
      fun die hd heff => State.stray_completes hr he heff hd
    refine ⟨fun hcrc => hstray 0 rfl (State.receiveSyn_broken hcrc), fun hcrc htype hobj => ?_⟩
    have hdie := isObject_die hobj
    refine ⟨fun hmine hnext => ?_, fun hmine hnext hroom => ?_, fun hmine hnext hfull => ?_, fun hmine ht hkind => ?_,
      fun hmine ht => ⟨fun h => ?_, fun hkind hgen hwait => ?_⟩, fun hmine ht => ⟨fun h => ?_, fun o h => ?_⟩⟩
    · refine hstray _ hdie ?_
      rw [State.receiveSyn_other hcrc htype hobj hmine, if_neg hnext]
    · have heff := State.receiveSyn_other hcrc htype hobj hmine
      rw [if_pos hnext, if_pos hroom, State.heldAt_append] at heff
      refine Completes.of_alters hr he ?_ ?_
      · rw [heff]
        exact ((State.Alters.refl s).frame (State.onSyn_frame _ _) ⟨rfl, rfl⟩ (by simp)).put (by simp [q]) rfl
      · rw [heff]
        refine ⟨rfl, (State.get_put_same _ _ _ _ _ (by decide)).trans (Nat.mod_eq_of_lt ?_)⟩
        change s.heldAt q.die + 1 < 32
        omega
    · have heff := State.receiveSyn_other hcrc htype hobj hmine
      rw [if_pos hnext, if_neg (by exact Nat.not_lt.2 hfull), State.stray_eq hdie] at heff
      refine ⟨_, exec_eq_next hr he heff, ?_, State.on_flag_same _ _ _ _ (by decide) (by decide), rfl⟩
      simp (disch := decide) [State.on, State.flag, State.bump, State.get_put_same, State.get_put_apart, State.get_put_reg, q]
    · refine hstray _ hdie ?_
      rw [State.receiveSyn_applied hcrc htype hobj hmine, State.applyPacket_no_counter (htype.trans ht) hobj hkind]
    · refine hstray _ hdie ?_
      rw [State.receiveSyn_applied hcrc htype hobj hmine, State.applyPacket_no_barrier (htype.trans ht) hobj h]
    · have heff : s.receiveSyn type pkt = s.arrived q.die q.index q.source := by
        rw [State.receiveSyn_applied hcrc htype hobj hmine, State.applyPacket_arrive (htype.trans ht) hobj hkind hgen,
          State.arrive_waits _ hwait]
      refine Completes.of_alters hr he ?_ ?_
      · rw [heff]
        exact ((State.Alters.refl s).put (by simp) rfl).trans (State.signedBy_alters _ _ _ _ (by simp) (by simp) (by simp))
      · rw [heff]
        refine ⟨State.get_arrived_value .., (State.signedBy_spec ..).2.1.trans (Nat.mod_eq_of_lt ?_)⟩
        exact Nat.mod_lt _ (by decide)
    · refine hstray _ hdie ?_
      rw [State.receiveSyn_applied hcrc htype hobj hmine, State.applyPacket_release (htype.trans ht), if_pos (List.isEmpty_iff.2 h)]
    · have heff : s.receiveSyn type pkt = s.endRound o.1 o.2 := by
        rw [State.receiveSyn_applied hcrc htype hobj hmine, State.applyPacket_release (htype.trans ht), if_neg (by rw [show s.released (SynPacket.ofBytes pkt).die _ _ = [o] from h]; simp),
          State.releaseAll_one h]
      have hover := s.endRound_over o.1 o.2
      exact ⟨_, exec_eq_next hr he heff (State.endRound_frame ..).fatal_eq, hover.value, hover.held, hover.waiters, hover.gen⟩
  · intro s pkt q erg module
    refine ⟨fun c type hr hc h => ?_, fun hr hcrc htype hstep => ⟨fun herg hmod => ?_, fun hother hroot =>
      ⟨fun hhalt hin => ?_, fun hhalt => ?_, fun hhalt hact hbroken => ?_⟩⟩, fun hr hcrc htype hstep hroot => ⟨fun h => ?_, fun hin => ?_⟩⟩
    · rcases hc with ⟨rfl, rfl⟩ | ⟨rfl, rfl⟩
      · refine State.stray_completes (effect := fun s => s.receiveAbort pkt) (die := 0) hr rfl (if_pos ?_) rfl
        simpa [q, or_assoc] using h
      · refine State.stray_completes (effect := fun s => s.receiveRelease pkt) (die := 0) hr rfl (if_pos ?_) rfl
        simpa [q, or_assoc] using h
    · refine exec_eq_next (effect := fun s => s.receiveAbort pkt) hr rfl ?_
      rw [State.receiveAbort_eq hcrc htype hstep]
      exact if_pos ⟨herg, hmod⟩
    · have heff : s.receiveAbort pkt = (s.recordBreak q.segment q.cause q.unit erg module q.tick).abortStep := by
        rw [State.receiveAbort_eq hcrc htype hstep, State.acceptAbort_eq hother hroot, State.abortTaken_running hin hhalt]
      obtain ⟨habort, hbreak⟩ := State.abort_recorded hin q.segment q.cause q.unit erg module q.tick
      obtain ⟨hcause, hunit, hseg, herg, hmod, htick⟩ := s.recordBreak_spec q.segment q.cause q.unit erg module q.tick
      have hfatal := (State.abortStep_frame (s.recordBreak q.segment q.cause q.unit erg module q.tick)).fatal_eq
      refine ⟨_, exec_eq_next (effect := fun s => s.receiveAbort pkt) hr rfl heff hfatal, habort, ?_, ?_, ?_, ?_, ?_, ?_⟩
      · rw [hbreak _ (.inl rfl), hcause]
      · rw [hbreak _ (.inl rfl), hunit]
        exact Nat.mod_eq_of_lt (fieldAt_lt ..)
      · rw [hbreak _ (.inl rfl), hseg]
        exact Nat.mod_eq_of_lt (fieldAt_lt ..)
      · rw [hbreak _ (.inl rfl), herg]
        exact Nat.mod_eq_of_lt (bits_lt ..)
      · rw [hbreak _ (.inl rfl), hmod]
        exact Nat.mod_eq_of_lt (bits_lt ..)
      · rw [hbreak _ (.inr rfl), htick]
        exact Nat.mod_eq_of_lt (fieldAt_lt ..)
    · have heff : s.receiveAbort pkt = s.abortTaken q := by
        rw [State.receiveAbort_eq hcrc htype hstep, State.acceptAbort_eq hother hroot]
      exact ⟨_, exec_eq_next (effect := fun s => s.receiveAbort pkt) hr rfl heff (s.abortTaken_frame q).fatal_eq,
        State.abortTaken_halt hhalt⟩
    · refine exec_eq_next (effect := fun s => s.receiveAbort pkt) hr rfl ?_
      rw [State.receiveAbort_eq hcrc htype hstep, State.acceptAbort_eq hother hroot, State.abortTaken_extra hhalt hact hbroken]
    · have heff : s.receiveRelease pkt =
          (s.flag F.SCH_EVENTS.BREAK_REMOTE).onSched fun c => { c with replayTick := some q.tick } := by
        rw [State.receiveRelease_eq hcrc htype hstep hroot, State.acceptRelease, if_neg (by rcases h with h | h <;> simp [h])]
      refine Completes.of_alters (effect := fun s => s.receiveRelease pkt) hr rfl ?_ ?_
      · simp only [heff]
        exact ((State.Alters.refl s).put (by simp) rfl).frame (State.onSched_frame _ _) ⟨rfl, rfl⟩ (by simp)
      · simp only [heff]
        exact ⟨rfl, by simp [State.on, State.get_flag_same]⟩
    · have heff : s.receiveRelease pkt =
          ((s.recordBreak s.lowestSegment 0 0 erg module (s.now 72)).abortStep.flag F.SCH_EVENTS.BREAK_REMOTE).onSched fun c =>
            { c with replayTick := some q.tick } := by
        rw [State.receiveRelease_eq hcrc htype hstep hroot, State.acceptRelease,
          if_pos (by simp [State.active_of_inStep hin, hin.2.2])]
      obtain ⟨habort, hbreak⟩ := State.abort_recorded hin s.lowestSegment 0 0 erg module (s.now 72)
      have hcause := (s.recordBreak_spec s.lowestSegment 0 0 erg module (s.now 72)).1
      have hfatal := (State.abortStep_frame (s.recordBreak s.lowestSegment 0 0 erg module (s.now 72))).fatal_eq
      have hrfatal : (s.recordBreak s.lowestSegment 0 0 erg module (s.now 72)).flt.fatal = s.flt.fatal := rfl
      generalize s.recordBreak s.lowestSegment 0 0 erg module (s.now 72) = r at *
      generalize r.abortStep = a at *
      have hflag : Frame ⟨[.sched], [.SCH_EVENTS], false⟩ a
          ((a.flag F.SCH_EVENTS.BREAK_REMOTE).onSched fun c => { c with replayTick := some q.tick }) :=
        (Frame.step (.refl a) (a.put_touch _ _ _ _)).step (State.onSched_frame _ _)
      refine ⟨_, exec_eq_next (effect := fun s => s.receiveRelease pkt) hr rfl heff (hflag.fatal_eq.trans (hfatal.trans hrfatal)),
        habort.step hflag ⟨rfl, rfl, rfl, rfl, rfl⟩, rfl, ?_, ?_⟩
      · rw [hflag.get_eq _ _ _, hbreak _ (.inl rfl), hcause]
      · simp [State.on, State.get_flag_same]

end

/-! # Replays and halts

What the module does once an aborted step has stopped: it waits for its replay, replays, or halts (R106 to R108, R464, R553, R564). -/

section

namespace Sys2Proof.Machine

/-! ### Halts -/

section
variable {s : State} (hv : s.on F.FLT_RECOVERY.VALID = false) (reason item : Nat)
include hv

/-- The first halt since Starting is recorded (R564). -/
theorem State.recordHalt_spec : (s.recordHalt reason item).get F.FLT_RECOVERY.REASON = reason % 16 ∧
    (s.recordHalt reason item).get F.FLT_RECOVERY.STEP = s.get F.SCH_STEP.STEP := by
  rw [State.recordHalt, if_neg (by simp [hv])]
  constructor
  · simp (disch := decide) [State.get_put_same, State.get_put_apart]
  · rw [State.get_put_same _ _ _ _ _ (by decide)]
    exact Nat.mod_eq_of_lt (s.get_lt F.SCH_STEP.STEP 0 0)

/-- The module stops for good, in a step that has not ended (R107, R554): it aborts, with the halt recorded. -/
theorem State.haltModule_spec (hc : s.Calm 1) (hact : s.sched.st = .running ∨ s.sched.st = .aborting) (hended : s.sched.stepEnded = false) :
    (s.haltModule reason item).sched.replayTick = s.sched.replayTick ∧ (s.haltModule reason item).sched.halt = true ∧
    (s.haltModule reason item).sched.st = .aborting ∧
    (s.haltModule reason item).get F.FLT_RECOVERY.REASON = reason % 16 ∧ (s.haltModule reason item).flt.fatal = s.flt.fatal := by
  unfold State.haltModule
  extract_lets tick reported sent halted
  have hreason := (State.recordHalt_spec hv reason item).1
  have hrec : Frame ⟨[], [.FLT_RECOVERY], false⟩ s (s.recordHalt reason item) := s.recordHalt_frame reason item
  have hstands : s.SchedStands reported := (State.SchedStands.of_sched hrec.sched_eq).trans (State.faultOf_schedStands ..)
  have hfault : Frame ⟨recordParts, recordRegs, false⟩ (s.recordHalt reason item) reported := State.faultOf_frame _ _ _ _
  have hfatal : reported.flt.fatal = s.flt.fatal :=
    (((State.Spares.of_frame (n := 0) hrec).trans (State.faultOf_spares _ _ _ _)) 0 hc).2
  have hsent : Frame ⟨[.sched, .vrt], [], false⟩ reported sent := State.sendAbort_frame _ _ _ _ _ _
  have hsched : ∃ b, sent.sched = { reported.sched with release := b } := State.sendAbort_sched ..
  have habort : ∃ us rel, sent.abortStep.sched =
      { s.sched with units := us, release := rel, st := sent.abortStep.sched.st, items := sent.abortStep.sched.items,
                     carried := sent.abortStep.sched.carried, tokens := sent.abortStep.sched.tokens,
                     mesh := sent.abortStep.sched.mesh } ∧
      sent.abortStep.sched.st = .aborting := by
    obtain ⟨b, hb⟩ := hsched
    rw [hstands] at hb
    by_cases hrun : s.sched.st = .running
    · obtain ⟨us, hus⟩ := State.abortStep_sched (s := sent) (by rw [hb]; exact hrun) (by rw [hb]; exact hended)
      exact ⟨us, b, by rw [hus, hb], by rw [hus]⟩
    · have hst : sent.sched.st = s.sched.st := by rw [hb]
      have hid : sent.abortStep = sent := if_pos (by simpa [hst] using hrun)
      exact ⟨reported.sched.units, b, by rw [hid, hb], by rw [hid, hst, hact.resolve_left hrun]⟩
  have hframe := sent.abortStep_frame
  have hget : sent.abortStep.get F.FLT_RECOVERY.REASON = reason % 16 := by
    rw [hframe.get_eq _ _ _, hsent.get_eq _ _ _, hfault.get_eq _ _ _, hreason]
  have hflt : sent.abortStep.flt.fatal = s.flt.fatal := by rw [hframe.fatal_eq, hsent.fatal_eq, hfatal]
  have hhalted : halted = sent.abortStep.onSched fun c => { c with halt := true } := rfl
  clear_value halted reported sent
  generalize sent.abortStep = a at *
  obtain ⟨us, rel, hsch, hst⟩ := habort
  subst hhalted
  split
  · exact ⟨by rw [State.onSched_sched, hsch], rfl, hst, (State.get_onSched ..).trans hget, hflt⟩
  · refine ⟨by rw [State.setSched_aborting, State.onSched_sched, State.onSched_sched, hsch], rfl, rfl, ?_, hflt⟩
    rw [State.setSched_aborting, State.get_onSched, State.get_onSched, hget]

end

/-! ### Replays -/

/-- What a restore from a cairn touches beside the register of the image. -/
def restTouch : Touch := ⟨recordParts, readRegs ++ [.UPD_LOSS, .VRT_BANK, .VSE_GEN_STATE], false⟩

/-- A replay takes the image of its cairn (R553, R631). -/
theorem State.restoreCairn_image (s : State) (step : Nat) :
    (s.restoreCairn step).word .SCH_IMAGE_BASE = BitVec.ofNat 64 (fieldAt (s.cairnHead step) 24 8) := by
  have hframe : Frame restTouch
      (s.setWord .SCH_IMAGE_BASE (BitVec.ofNat 64 (fieldAt (s.cairnHead step) 24 8))) (s.restoreCairn step) := by
    unfold State.restoreCairn
    extract_lets base head loss tensors inputs gens banks based routed lost placed filled
    change Frame restTouch based _
    clear_value based loss tensors inputs gens banks
    have hrouted : Frame restTouch based routed := by
      unfold routed
      have hbanks : Frame ⟨[], [.VRT_BANK], false⟩ based (banks.foldl (fun s b => s.put F.VRT_BANK.CURRENT b.2 b.1) based) :=
        Frame.foldl fun t b => t.put_touch F.VRT_BANK.CURRENT b.2 b.1 0
      exact ((Frame.refl based).step hbanks).step (State.showRouting_frame _)
    clear_value routed
    have hlost : Frame restTouch based lost := (hrouted.step (State.put_touch ..)).step (State.put_touch ..)
    clear_value lost
    have hplaced : Frame restTouch based placed := .ite hlost (Frame.Fst.step hlost (State.writeSpan_frame _ _ _))
    clear_value placed
    have hfilled : Frame restTouch based filled := .ite hplaced (Frame.Fst.step hplaced (State.writeSpan_frame _ _ _))
    clear_value filled
    exact hfilled.trans (Frame.foldl fun t g => Frame.foldl fun t i => (Frame.refl t).step (State.setGen_frame ..))
  rw [hframe.words rfl _ _ _ (by decide), State.word_setWord_same]

/-- The module with the figures of a replay, before the step begins (R106, R553). -/
def State.replayArmed (s : State) (base : Nat) : State :=
  (((s.put F.SCH_BASE_TICK.BASE_TICK base).put F.SCH_REPLAY.COUNT (s.get F.SCH_REPLAY.COUNT + 1)).onSched fun c =>
    { c with first := true, broken := false, ending := .none, replayTick := none, release := false, carried := [],
             units := c.units.map fun p => (p.1, { p.2 with aheadNext := [] }) }).setSched .running

theorem State.replayArmed_frame (s : State) (base : Nat) :
    Frame ⟨[.sched], [.SCH_REPLAY, .SCH_CTRL], false⟩ (s.put F.SCH_BASE_TICK.BASE_TICK base) (s.replayArmed base) :=
  (((Frame.refl _).step (State.put_touch ..)).step (State.onSched_frame ..)).step (State.setSched_frame ..)

/-- A replay whose cairn is whole: the step begins from it, with segment 0 due at the replay tick. -/
theorem State.replayAt_eq {s : State} (hc : s.cairnRefused (s.get F.SCH_STEP.STEP) = none) (t : Nat) :
    s.replayAt t = (((s.restoreCairn (s.get F.SCH_STEP.STEP)).takeUp).replayArmed ((t + 2 ^ 64 -
      s.get F.SCH_STEP.STEP * ((s.restoreCairn (s.get F.SCH_STEP.STEP)).takeUp).segments % 2 ^ 64) % 2 ^ 64)).beginStep true 0 := by
  simp only [State.replayAt, hc]
  rfl

/-- What the replay of a step leaves of the registers that say where it runs (R106, R553). -/
theorem State.replayAt_spec {s : State} {t : Nat} (hc : s.cairnRefused (s.get F.SCH_STEP.STEP) = none) :
    (s.replayAt t).settle.get F.SCH_BASE_TICK.BASE_TICK =
      (t + 2 ^ 64 - s.get F.SCH_STEP.STEP * ((s.restoreCairn (s.get F.SCH_STEP.STEP)).takeUp).segments % 2 ^ 64) % 2 ^ 64 ∧
    (s.replayAt t).settle.word .SCH_IMAGE_BASE = BitVec.ofNat 64 (fieldAt (s.cairnHead (s.get F.SCH_STEP.STEP)) 24 8) := by
  rw [State.replayAt_eq hc]
  have himage := s.restoreCairn_image (s.get F.SCH_STEP.STEP)
  generalize s.restoreCairn (s.get F.SCH_STEP.STEP) = restored at *
  have htake := (restored.takeUp_frame.words rfl .SCH_IMAGE_BASE 0 0 (by decide)).trans himage
  generalize restored.takeUp = taken at *
  generalize hbase : (t + 2 ^ 64 - s.get F.SCH_STEP.STEP * taken.segments % 2 ^ 64) % 2 ^ 64 = base
  have hlt : base < 2 ^ 64 := hbase ▸ Nat.mod_lt _ (by decide)
  have harmed := taken.replayArmed_frame base
  have hbegin := (taken.replayArmed base).beginStep_frame true 0
  have hsettle := ((taken.replayArmed base).beginStep true 0).settle_frame
  constructor
  · rw [hsettle.get_eq _ _ _, hbegin.get_eq _ _ _, harmed.get_eq _ _ _, State.get_put_same _ _ _ _ _ (by decide)]
    exact Nat.mod_eq_of_lt hlt
  · rw [hsettle.words rfl _ _ _ (by decide), hbegin.words rfl _ _ _ (by decide), harmed.words rfl _ _ _ (by decide),
      State.word_put_reg (by decide), htake]

end Sys2Proof.Machine

open Sys2Proof Sys2Proof.Machine

/-- Settles O24: the branches of the wait for a replay, of the entry to HALTED and of the replay's start. -/
theorem abortedStepsReplayOrHalt : Obligations.AbortedStepsReplayOrHalt := by
  unfold Obligations.AbortedStepsReplayOrHalt
  refine ⟨fun s hr => ⟨fun hst hstopped hhalt hcount => ?_, fun hst hstopped hhalt hcount hv => ?_, fun h => ?_⟩,
    fun s hr => ⟨fun hhalt hst hstopped => ?_, fun h => ?_⟩, fun s n hr hn hhalt => ⟨fun hnot => ?_, fun hst hnow hc => ?_,
      fun hact hst hreached hcalm hv hended => ?_⟩⟩
  · refine exec_eq_next (effect := State.awaitReplay) hr rfl ?_
    rw [State.awaitReplay, if_neg (by simp [hst, hstopped, hhalt]), if_neg (by omega)]
    rfl
  · have heff : s.awaitReplay = ((s.flag F.SCH_EVENTS.REPLAY_LIMIT).recordHalt 3 0).setSched .halted := by
      rw [State.awaitReplay, if_neg (by simp [hst, hstopped, hhalt]), if_pos hcount]
    have hv' : (s.flag F.SCH_EVENTS.REPLAY_LIMIT).on F.FLT_RECOVERY.VALID = false := by
      rwa [State.on, State.flag, State.get_put_reg (by decide)]
    obtain ⟨hreason, hstep⟩ := State.recordHalt_spec hv' 3 0
    have hrec := (s.flag F.SCH_EVENTS.REPLAY_LIMIT).recordHalt_frame 3 0
    have hset := ((s.flag F.SCH_EVENTS.REPLAY_LIMIT).recordHalt 3 0).setSched_frame .halted
    have hsched : (((s.flag F.SCH_EVENTS.REPLAY_LIMIT).recordHalt 3 0).setSched .halted).sched.st = .halted ∧
        (((s.flag F.SCH_EVENTS.REPLAY_LIMIT).recordHalt 3 0).setSched .halted).on F.SCH_CTRL.RUN = false := by
      rw [State.setSched, if_pos (.inr rfl)]
      exact ⟨rfl, by simp [State.on, State.get_put_same]⟩
    refine ⟨_, exec_eq_next (effect := State.awaitReplay) hr rfl heff (hset.fatal_eq.trans hrec.fatal_eq), hsched.1, hsched.2,
      ?_, ?_, ?_, hset.mem_eq.trans hrec.mem_eq⟩
    · rw [hset.on_eq _ _ _, hrec.on_eq _ _ _]
      exact State.on_flag_same _ _ _ _ (by decide) (by decide)
    · rw [hset.get_eq _ _ _, hreason]
    · rw [hset.get_eq _ _ _, hstep, State.flag, State.get_put_reg (by decide)]
  · refine exec_eq_next (effect := State.awaitReplay) hr rfl (if_pos ?_)
    rcases h with h | h | h <;> simp [h]
  · have heff : s.enterHalted = (s.onSched fun c =>
        { c with halt := false, haltAt := none, replayTick := none, stopReq := false, release := false }).setSched .halted :=
      if_pos (by rcases hst with h | h <;> simp [hhalt, h, hstopped])
    rw [State.setSched, if_pos (.inr rfl)] at heff
    refine Completes.of_alters (effect := State.enterHalted) hr rfl ?_ ?_
    · rw [heff]
      exact (((State.Alters.refl s).frame (State.onSched_frame _ _) ⟨rfl, rfl⟩ (by simp)).frame (State.onSched_frame _ _) ⟨rfl, rfl⟩
        (by simp)).put (by simp) rfl
    · rw [heff]
      exact ⟨rfl, rfl, by simp [State.on, State.get_put_same]⟩
  · refine exec_eq_next (effect := State.enterHalted) hr rfl (if_neg ?_)
    rcases h with h | h <;> simp [h]
  · refine exec_eq_next (effect := State.startReplay) hr rfl ?_
    simp only [State.startReplay, hn]
    exact if_pos (by simp [hnot])
  · have hact : s.active = true := by simp [State.active, hst]
    have hreached : tickReached (s.now 72) n = true := by
      simp only [tickReached, hnow, decide_eq_true_eq]
      omega
    have heff : s.startReplay = s.replayAt (n % 2 ^ 64) := by
      simp only [State.startReplay, hn]
      rw [if_neg (by simp [hact, hhalt, hreached]), if_pos (by simp [hst, hnow])]
    have hspec := State.replayAt_spec (t := n % 2 ^ 64) hc
    refine ⟨_, exec_settled (effect := State.startReplay) hr rfl, ?_, ?_⟩
    · rw [heff, hspec.1]
    · rw [heff, hspec.2, BitVec.toNat_ofNat]
  · have heff : s.startReplay = (s.onSched fun c => { c with replayTick := none }).haltModule 6 0 := by
      simp only [State.startReplay, hn]
      rw [if_neg (by simp [hact, hhalt, hreached]), if_neg (by simp [hst])]
    have hrun : s.sched.st = .running ∨ s.sched.st = .aborting := by
      simp only [State.active, Bool.or_eq_true, beq_iff_eq] at hact
      tauto
    have hframe := s.onSched_frame fun c => { c with replayTick := none }
    obtain ⟨htick, hhalts, hstate, hreason, hfatal⟩ := State.haltModule_spec (s := s.onSched fun c => { c with replayTick := none })
      (by rwa [State.on, State.get_onSched]) 6 0
      ((State.Spares.of_frame (n := 0) hframe) 1 ((State.Calm.of_calm hcalm).mono (by decide))).1 hrun hended
    exact ⟨_, exec_eq_next (effect := State.startReplay) hr rfl heff (hfatal.trans hframe.fatal_eq), htick, hhalts, hstate, hreason⟩

end

/-! # Operations of a stream

An operation that starts or completes moves its unit's stream, its channels' counters and the messages on the panel (R85, R87, R91,
R92, R645). What a unit reads of the image stands while the image and memory do. -/

section

namespace Sys2Proof.Machine

/-! ### The image stands -/

/-- From `s` to `t` what a unit reads of the image stands. -/
structure State.ImageStands (s t : State) : Prop where
  image : t.sched.image = s.sched.image
  mem   : t.mem = s.mem

section
variable {s t : State} (h : s.ImageStands t)
include h

theorem State.ImageStands.ctrlAt (x : Stream) (i : Nat) : t.ctrlAt x i = s.ctrlAt x i := by
  simp only [State.ctrlAt, State.entryAddr, State.load, State.byte, State.bytes, h.image, h.mem]

theorem State.ImageStands.entryBad (u : Nat) (x : Stream) (i next : Nat) : t.entryBad u x i next = s.entryBad u x i next := by
  have hmarker : t.markerAt x i = s.markerAt x i := by
    simp only [State.markerAt, State.entryAddr, State.load, State.byte, State.bytes, h.image, h.mem]
  have hsegments : t.segments = s.segments := by simp only [State.segments, h.image]
  have hrefs : ∀ c, t.refsOk u c = s.refsOk u c := fun c => by simp only [State.refsOk, State.chan, h.image]
  simp only [State.entryBad, h.ctrlAt, hmarker, hsegments, hrefs]

theorem State.ImageStands.streamOfUnit (u : Nat) : t.streamOfUnit u = s.streamOfUnit u := by
  simp only [State.streamOfUnit, State.streams, h.image]

theorem State.ImageStands.atBoundary (x : Stream) (y : UnitSt) : t.atBoundary x y = s.atBoundary x y := by
  simp only [State.atBoundary, h.ctrlAt]

end

theorem State.ImageStands.trans {s t u : State} (h : s.ImageStands t) (g : t.ImageStands u) : s.ImageStands u :=
  ⟨g.image.trans h.image, g.mem.trans h.mem⟩

/-- An effect whose footprint leaves the schedule and memory out. -/
theorem State.ImageStands.of_frame {K : Touch} {s t : State} (h : Frame K s t)
    (hk : Part.sched ∉ K.parts ∧ Part.mem ∉ K.parts := by decide) : s.ImageStands t :=
  ⟨congrArg SchedSt.image (h.sched_eq hk.1), h.mem_eq hk.2⟩

theorem State.ImageStands.onUnit (s : State) (u : Nat) (f : UnitSt → UnitSt) : s.ImageStands (s.onUnit u f) := ⟨rfl, rfl⟩

/-! ### The next entry -/

/-- A unit reaches an entry that is sound and has not run ahead. -/
theorem State.reach_stays {s : State} {u fuel : Nat} {t : Stream}
    (h : t.entries ≤ (s.unit u).pos ∨
      (s.entryBad u t (s.unit u).pos (s.unit u).started = false ∧ (s.unit u).pos ∉ (s.unit u).ahead)) :
    State.reach u t fuel s = s := by
  cases fuel with
  | zero => rfl
  | succ fuel =>
    simp only [State.reach]
    split
    · rfl
    · next hlt =>
      obtain ⟨hgood, hahead⟩ := h.resolve_left hlt
      rw [if_neg (by simp [hgood]), if_neg (by simpa using hahead)]

/-- The stream of a unit moves past an entry to a sound one that has not run ahead, or to its end. -/
theorem State.passEntry_eq {s : State} {u : Nat} {t : Stream}
    (h : t.entries ≤ (s.unit u).pos + 1 + (s.ctrlAt t (s.unit u).pos).ext ∨
      (s.entryBad u t ((s.unit u).pos + 1 + (s.ctrlAt t (s.unit u).pos).ext) (s.unit u).started = false ∧
        (s.unit u).pos + 1 + (s.ctrlAt t (s.unit u).pos).ext ∉ (s.unit u).ahead)) :
    s.passEntry u t = s.onUnit u fun x => { x with pos := (s.unit u).pos + 1 + (s.ctrlAt t (s.unit u).pos).ext } := by
  have hmove : (s.onUnit u fun x => { x with pos := x.pos + 1 + (s.ctrlAt t (s.unit u).pos).ext }) =
      s.onUnit u fun x => { x with pos := (s.unit u).pos + 1 + (s.ctrlAt t (s.unit u).pos).ext } := rfl
  refine (State.reach_stays ?_).trans hmove
  rw [State.unit_onUnit, (State.ImageStands.onUnit ..).entryBad]
  exact h

/-- A unit in the middle of a segment does not move on. -/
theorem State.goOn_stays {s : State} {u late : Nat} {t : Stream} (ht : s.streamOfUnit u = some t)
    (hrun : (s.unit u).finished < (s.unit u).started) (hmid : s.atBoundary t (s.unit u) = false) : s.goOn u late = s := by
  unfold State.goOn State.advance
  simp only [ht, if_pos hrun, hmid, Bool.false_and, Bool.false_eq_true, if_false, ite_self]

/-! ### Credits -/

theorem State.get_takeCredits (s : State) (outs : List Nat) (ch : Nat) :
    (s.takeCredits outs).get F.SCH_CHANNEL.CREDITS 0 ch = s.get F.SCH_CHANNEL.CREDITS 0 ch - outs.count ch := by
  induction outs generalizing s with
  | nil => rfl
  | cons c outs ih =>
    have hstep : (s.put F.SCH_CHANNEL.CREDITS (s.get F.SCH_CHANNEL.CREDITS 0 c - 1) 0 c).get F.SCH_CHANNEL.CREDITS 0 ch =
        s.get F.SCH_CHANNEL.CREDITS 0 ch - if c = ch then 1 else 0 := by
      by_cases hc : c = ch
      · subst hc
        rw [State.get_put_same _ _ _ _ _ (by decide), if_pos rfl]
        exact Nat.mod_eq_of_lt (Nat.lt_of_le_of_lt (Nat.sub_le _ _) (s.get_lt F.SCH_CHANNEL.CREDITS 0 c))
      · rw [State.get_put_place (fun e => hc (congrArg Loc.idx e)), if_neg hc, Nat.sub_zero]
    refine (ih _).trans ?_
    rw [hstep, List.count_cons]
    by_cases hc : c = ch
    · simp only [hc, beq_self_eq_true, if_true]
      omega
    · simp [hc]

theorem State.get_takeCredits_tokens (s : State) (outs : List Nat) (ch : Nat) :
    (s.takeCredits outs).get F.SCH_CHANNEL.TOKENS 0 ch = s.get F.SCH_CHANNEL.TOKENS 0 ch := by
  induction outs generalizing s with
  | nil => rfl
  | cons c outs ih => exact (ih _).trans (State.get_put_apart (by decide) (by decide))

/-! ### An operation starts -/

section
variable {s : State} {u : Nat} {t : Stream}

/-- An operation of a class the unit runs joins those in flight (R91). -/
theorem State.beginOp_eq {o : Op} {ext : Nat} {credits : List Nat} (hclass : (unitClasses u).contains o.opclass = true)
    (hext : classExt o.opclass = ext) :
    s.beginOp u o ext credits = (s.takeCredits credits).onUnit u fun x => { x with ops := x.ops ++ [o] } := by
  simp only [State.beginOp, hclass, hext, beq_self_eq_true, Bool.and_self, if_true]

/-- The next entry's operation starts, where no input of it is a mirage channel's (R91). -/
theorem State.startNext_eq (hstarted : (s.unit u).started ≠ 0) (hpos : (s.unit u).pos < t.entries)
    (hclass : (s.ctrlAt t (s.unit u).pos).opclass < 0x80) (htok : s.tokensFor u (s.ctrlAt t (s.unit u).pos).ins = true)
    (hcred : s.creditsFor (s.ctrlAt t (s.unit u).pos).outs = true)
    (hmirage : ∀ i ∈ (s.ctrlAt t (s.unit u).pos).ins, s.isMirage i = false) :
    s.startNext u t = some ((s.beginOp u
      (s.opOf u t (s.unit u).pos (s.unit u).segment (s.ctrlAt t (s.unit u).pos) false false)
      (s.ctrlAt t (s.unit u).pos).ext (s.ctrlAt t (s.unit u).pos).outs).passEntry u t) := by
  unfold State.startNext
  extract_lets x c o needs items bad
  have hneeds : needs = [] := by
    refine List.filter_eq_nil_iff.2 fun i hi => ?_
    obtain ⟨ch, hch, rfl⟩ := List.mem_map.1 (show i ∈ (c.ins.map fun n => (n, s.useNo t x.pos n false)) from hi)
    simp [hmirage ch hch]
  have hitems : items = [] := by simp [items, hneeds]
  have hbad : bad = [] := by simp [bad, hitems]
  rw [if_neg (by simpa [x, c] using And.intro (And.intro hstarted hpos) hclass), if_neg (by simp [c, htok, hcred, x]),
    if_neg (by simp [hitems, hneeds]), if_pos (by simp [hbad])]

theorem State.startNext_none (h : s.tokensFor u (s.ctrlAt t (s.unit u).pos).ins = false ∨
    s.creditsFor (s.ctrlAt t (s.unit u).pos).outs = false) : s.startNext u t = none := by
  unfold State.startNext
  extract_lets x c o needs items bad
  rw [if_pos (c := (_ || !s.creditsFor c.outs) = true) (by rcases h with h | h <;> simp [c, x, h]), ite_self]

theorem State.startAhead_none (h : s.on F.SCH_CTRL.RA_ENABLE = false) : s.startAhead u t = none := by
  simp [State.startAhead, h]

/-- With no entry to run again, the next one starts or one that may run ahead. -/
theorem State.startOperation_eq (ht : s.streamOfUnit u = some t) (hst : s.sched.st = .running) (hended : s.sched.stepEnded = false)
    (hfree : s.unitFree u = true) (hstop : (s.unit u).stopped = false) (hredo : (s.unit u).redo = []) :
    s.startOperation u = ((s.startNext u t).orElse fun _ => s.startAhead u t).getD s := by
  have hnone : s.startRedo u t = none := by simp only [State.startRedo, hredo]
  simp only [State.startOperation, ht, hnone]
  rw [if_neg (by simp [hst, hended, hfree, hstop])]
  rfl

end

end Sys2Proof.Machine

open Sys2Proof Sys2Proof.Machine

/-- Settles O22: with its tokens and credits the next entry starts (`State.startNext_eq`), and the stream moves past it. -/
theorem operationsStartOnTheirTokens : Obligations.OperationsStartOnTheirTokens := by
  unfold Obligations.OperationsStartOnTheirTokens
  intro s u t hr ht hst hended hfree hstop hredo hstarted hpos pos c hclass
  have hop := State.startOperation_eq ht hst hended hfree hstop hredo
  refine ⟨fun htok hcred hmirage hruns hext hnext => ?_, fun h hra => ?_⟩
  · rw [State.startNext_eq hstarted hpos hclass htok hcred hmirage] at hop
    change s.startOperation u = (s.beginOp u (s.opOf u t pos (s.unit u).segment c false false) c.ext c.outs).passEntry u t at hop
    rw [State.beginOp_eq hruns hext] at hop
    have hcredit := s.takeCredits_frame c.outs
    have htake : ∀ ch, (s.takeCredits c.outs).get F.SCH_CHANNEL.TOKENS 0 ch = s.get F.SCH_CHANNEL.TOKENS 0 ch ∧
        (s.takeCredits c.outs).get F.SCH_CHANNEL.CREDITS 0 ch = s.get F.SCH_CHANNEL.CREDITS 0 ch - c.outs.count ch := fun ch =>
      ⟨s.get_takeCredits_tokens _ ch, s.get_takeCredits _ ch⟩
    generalize s.takeCredits c.outs = taken at *
    have hunit : (taken.onUnit u fun x => { x with ops := x.ops ++ [s.opOf u t pos (s.unit u).segment c false false] }).unit u =
        { s.unit u with ops := (s.unit u).ops ++ [s.opOf u t pos (s.unit u).segment c false false] } := by
      rw [State.unit_onUnit, State.unit_congr hcredit.sched_eq]
    have hstands : s.ImageStands
        (taken.onUnit u fun x => { x with ops := x.ops ++ [s.opOf u t pos (s.unit u).segment c false false] }) :=
      (State.ImageStands.of_frame hcredit).trans (State.ImageStands.onUnit ..)
    rw [State.passEntry_eq (by rw [hunit, hstands.ctrlAt, hstands.entryBad]; exact hnext)] at hop
    rw [hunit, hstands.ctrlAt] at hop
    refine ⟨_, exec_eq_next (effect := fun s => s.startOperation u) hr rfl hop hcredit.fatal_eq, ?_, ?_, fun ch => ?_, fun p hp => ?_⟩
    · rw [State.unit_onUnit, hunit]
    · rw [State.unit_onUnit]
    · simpa using htake ch
    · exact Part.same_trans (Part.same_trans (hcredit.parts p List.not_mem_nil)
        ((State.onUnit_frame taken u _).parts p (by simpa using hp))) ((State.onUnit_frame _ u _).parts p (by simpa using hp))
  · rw [State.startNext_none h, State.startAhead_none hra] at hop
    exact exec_eq_next (effect := fun s => s.startOperation u) hr rfl hop

end

/-! # Tokens and credits

What an operation that completes does to its channels, and what the messages on the panel do when they arrive (R87, R92, R645). -/

section

namespace Sys2Proof.Machine

/-! ### Inputs -/

/-- One input of an operation that completes: its token is taken, its item is used up, and its credit goes back (R92). -/
def State.takeInput (s : State) (p : Nat × Nat) : State :=
  (s.put F.SCH_CHANNEL.TOKENS (s.get F.SCH_CHANNEL.TOKENS 0 p.1 - 1) 0 p.1).onSched fun x =>
    { x with items := removeFirst (fun i => i.chan == p.1 && i.k == p.2) x.items, mesh := x.mesh ++ [⟨p.1, false, none⟩] }

/-- The tokens of all its inputs. -/
theorem State.get_takeInputs (s : State) {ins : List (Nat × Nat)} (h : (ins.map (·.1)).Nodup) (ch : Nat) :
    (ins.foldl State.takeInput s).get F.SCH_CHANNEL.TOKENS 0 ch =
      s.get F.SCH_CHANNEL.TOKENS 0 ch - if ch ∈ ins.map (·.1) then 1 else 0 := by
  induction ins generalizing s with
  | nil => rfl
  | cons p ins ih =>
    obtain ⟨hp, hins⟩ := List.nodup_cons.1 h
    refine (ih (s.takeInput p) hins).trans ?_
    rw [State.takeInput, State.get_onSched]
    by_cases hc : ch = p.1
    · subst hc
      rw [if_neg hp, if_pos (by simp), State.get_put_same _ _ _ _ _ (by decide), Nat.sub_zero]
      exact Nat.mod_eq_of_lt (Nat.lt_of_le_of_lt (Nat.sub_le _ _) (s.get_lt F.SCH_CHANNEL.TOKENS 0 _))
    · rw [State.get_put_place fun e => hc (congrArg Loc.idx e).symm]
      simp only [List.map_cons, List.mem_cons, hc, false_or]

/-- The schedule after all its inputs: beside the items only the credits on the panel are new. -/
theorem State.takeInputs_sched (s : State) (ins : List (Nat × Nat)) : ∃ items, (ins.foldl State.takeInput s).sched =
    { s.sched with items := items, mesh := s.sched.mesh ++ ins.map fun p => ⟨p.1, false, none⟩ } := by
  induction ins generalizing s with
  | nil => exact ⟨s.sched.items, by simp⟩
  | cons p ins ih =>
    obtain ⟨items, h⟩ := ih (s.takeInput p)
    refine ⟨items, h.trans ?_⟩
    simp [State.takeInput]

theorem State.takeInputs_frame (s : State) (ins : List (Nat × Nat)) :
    Frame ⟨[.sched], [.SCH_CHANNEL], false⟩ s (ins.foldl State.takeInput s) :=
  Frame.foldl fun t p => ((Frame.refl t).step (t.put_touch _ _ _ _)).step (State.onSched_frame _ _)

/-! ### Outputs -/

/-- A token of an item whose turn has come crosses the panel (R645). -/
theorem State.postToken_next {s : State} {ch n : Nat} (item : Option Item) (hnone : s.sched.tokens = [])
    (hn : n = (lookupKey ch s.sched.posted).getD 0) : s.postToken ch n item = s.onSched fun x =>
      { x with tokens := [], posted := setKey ch (n + 1) x.posted, mesh := x.mesh ++ [⟨ch, true, item⟩] } := by
  simp only [State.postToken, hnone, State.onSched_sched, List.nil_append, List.length_singleton, State.drainTokens,
    ← hn, List.find?_cons, beq_self_eq_true, Bool.and_self, lt_irrefl, if_false]
  simp [State.onSched, hnone, removeFirst]

/-- A token of a later item waits (R645). -/
theorem State.postToken_waits {s : State} {ch n : Nat} (item : Option Item) (hnone : s.sched.tokens = [])
    (hn : (lookupKey ch s.sched.posted).getD 0 < n) :
    s.postToken ch n item = s.onSched fun x => { x with tokens := [(ch, n, item)] } := by
  have hlt : ¬ n < (lookupKey ch s.sched.posted).getD 0 := by omega
  have hne : (n == (lookupKey ch s.sched.posted).getD 0) = false := by simp; omega
  simp only [State.postToken, hlt, if_false, hnone, State.onSched_sched, List.nil_append, List.length_singleton, State.drainTokens,
    List.find?_cons, beq_self_eq_true, Bool.true_and, hne, List.find?_nil]
  simp only [State.onSched, hnone, List.nil_append]

theorem State.drainTokens_stands (ch fuel : Nat) (s : State) :
    (State.drainTokens ch fuel s).sched.units = s.sched.units ∧ (State.drainTokens ch fuel s).sched.image = s.sched.image := by
  induction fuel generalizing s with
  | zero => exact ⟨rfl, rfl⟩
  | succ fuel ih =>
    simp only [State.drainTokens]
    split
    · exact ⟨rfl, rfl⟩
    · exact ih _

theorem State.postToken_stands (s : State) (ch n : Nat) (item : Option Item) :
    (s.postToken ch n item).sched.units = s.sched.units ∧ (s.postToken ch n item).sched.image = s.sched.image := by
  unfold State.postToken
  split
  · exact ⟨rfl, rfl⟩
  · exact State.drainTokens_stands _ _ _

/-- Tokens that are posted change no unit and not the image. -/
theorem State.postTokens_stand (s : State) (outs : List (Nat × Nat)) (item : Nat × Nat → Option Item) :
    (outs.foldl (fun s p => s.postToken p.1 p.2 (item p)) s).sched.units = s.sched.units ∧
    (outs.foldl (fun s p => s.postToken p.1 p.2 (item p)) s).sched.image = s.sched.image := by
  induction outs generalizing s with
  | nil => exact ⟨rfl, rfl⟩
  | cons p outs ih =>
    obtain ⟨hu, hi⟩ := s.postToken_stands p.1 p.2 (item p)
    exact ⟨(ih _).1.trans hu, (ih _).2.trans hi⟩

/-- What an operation posts that is of this step: its inputs, its outputs in order, and its unit's count of operations. -/
theorem State.postOp_eq (s : State) (u : Nat) {o : Op} (h : o.next = false) : s.postOp u o =
    (o.outs.foldl (fun s' p => s'.postToken p.1 p.2
      (if s.isMirage p.1 then some { chan := p.1, k := p.2, tag := o.tag, valid := !o.invalid, entry := o.entry } else none)) (o.ins.foldl State.takeInput s)).onUnit u fun x => { x with opsDone := x.opsDone + 1, remote := x.remote + o.remote } := by
  rw [State.postOp, if_neg (by simp [h])]
  rfl

/-! ### An operation completes -/

/-- An operation that is done posts, in a step that runs and in the middle of a segment (R92). -/
theorem State.completeOp_done {s : State} {u k : Nat} {o : Op} {t : Stream} (ho : (s.unit u).ops[k]? = some o) (hdone : o.state = .done)
    (hcut : o.cut = false) (hnext : o.next = false) (hst : s.sched.st = .running) (htrace : s.on F.LDG_TRACE.VALID = false)
    (hrun : (s.unit u).finished < (s.unit u).started) (ht : s.streamOfUnit u = some t) (hmid : s.atBoundary t (s.unit u) = false)
    {posted : State} (hposted : o.outs.foldl (fun s' p => s'.postToken p.1 p.2 (if s.isMirage p.1 then
      some { chan := p.1, k := p.2, tag := o.tag, valid := !o.invalid, entry := o.entry } else none))
        (o.ins.foldl State.takeInput (s.dropOp u k)) = posted)
    (hframe : Frame ⟨[.sched], [.SCH_CHANNEL], false⟩ (s.dropOp u k) posted) (hunits : posted.sched.units = (s.dropOp u k).sched.units)
    (himage : posted.sched.image = s.sched.image) :
    s.completeOp u k = posted.onUnit u fun x => { x with opsDone := x.opsDone + 1, remote := x.remote + o.remote } := by
  have htraced : s.traceOp u o false = s := by simp [State.traceOp, htrace]
  have hop : s.completeOp u k = ((s.dropOp u k).postOp u o).goOn u 1 := by
    simp only [State.completeOp, ho, hdone, htraced]
    rw [if_neg (by simp only [State.dropOp]; simp [hcut, State.onUnit, State.setUnit, hst])]
  rw [hop, State.postOp_eq _ u hnext]
  change (State.onUnit (o.outs.foldl (fun s' p => s'.postToken p.1 p.2 (if s.isMirage p.1 then
    some { chan := p.1, k := p.2, tag := o.tag, valid := !o.invalid, entry := o.entry } else none))
      (o.ins.foldl State.takeInput (s.dropOp u k))) u _).goOn u 1 = _
  rw [hposted]
  have hunit : posted.unit u = { s.unit u with ops := (s.unit u).ops.eraseIdx k } := by
    rw [State.unit, hunits, ← State.unit, State.dropOp, State.unit_onUnit]
  have hstands : s.ImageStands (posted.onUnit u fun x => { x with opsDone := x.opsDone + 1, remote := x.remote + o.remote }) :=
    State.ImageStands.trans ⟨himage, hframe.mem_eq⟩ (State.ImageStands.onUnit ..)
  refine State.goOn_stays (t := t) (by rw [hstands.streamOfUnit, ht]) ?_ ?_
  · rw [State.unit_onUnit, hunit]
    exact hrun
  · rw [State.unit_onUnit, hunit, hstands.atBoundary]
    exact hmid

/-! ### Messages arrive -/

theorem State.takeMesh_none {s : State} {ch : Nat} {token : Bool}
    (h : s.sched.mesh.find? (fun m => m.chan == ch && m.token == token) = none) : s.takeMesh ch token = none := by
  simp only [State.takeMesh, h]

theorem State.takeMesh_some {s : State} {ch : Nat} {token : Bool} {m : MeshMsg}
    (h : s.sched.mesh.find? (fun m => m.chan == ch && m.token == token) = some m) :
    s.takeMesh ch token = some (m, s.onSched fun x => { x with mesh := removeFirst (· == m) x.mesh }) := by
  simp only [State.takeMesh, h]

/-- A token arrives with its item (R92). -/
theorem State.tokenArrives_some {s : State} {ch : Nat} {m : MeshMsg}
    (h : s.sched.mesh.find? (fun m => m.chan == ch && m.token == true) = some m) :
    s.tokenArrives ch = ((s.onSched fun x => { x with mesh := removeFirst (· == m) x.mesh }).put F.SCH_CHANNEL.TOKENS
      (s.get F.SCH_CHANNEL.TOKENS 0 ch + 1) 0 ch).onSched fun x => { x with items := x.items ++ m.item.toList } := by
  simp only [State.tokenArrives, State.takeMesh_some h, State.get_onSched]
  cases m.item with
  | none => simp only [Option.toList_none, List.append_nil]; rfl
  | some i => rfl

end Sys2Proof.Machine

open Sys2Proof Sys2Proof.Machine

/-- Settles O23: what completes posts through `State.completeOp_done`; messages and no-operation entries by their branches. -/
theorem operationsPostTheirTokens : Obligations.OperationsPostTheirTokens := by
  unfold Obligations.OperationsPostTheirTokens
  refine ⟨fun s u k o hr ho => ⟨?_, fun h => ?_⟩, fun s ch c token f hr hc => ⟨fun m hm => ?_, fun hm => ?_⟩, ?_⟩
  · rintro hdone hcut hnext hst hended htrace hnodup hmirage hrun ⟨t, ht, hmid⟩
    have hframe := (s.dropOp u k).takeInputs_frame o.ins
    obtain ⟨items, hsched⟩ := (s.dropOp u k).takeInputs_sched o.ins
    have htokens := fun ch => (State.get_takeInputs (s.dropOp u k) hnodup ch).trans
      (congrArg (· - _) (State.get_onUnit s F.SCH_CHANNEL.TOKENS 0 ch u _))
    have hmesh : (o.ins.foldl State.takeInput (s.dropOp u k)).sched.mesh = s.sched.mesh ++ o.ins.map fun p => ⟨p.1, false, none⟩ := by
      rw [hsched]
      rfl
    have htok : (o.ins.foldl State.takeInput (s.dropOp u k)).sched.tokens = s.sched.tokens := by
      rw [hsched]
      rfl
    have hposted : (o.ins.foldl State.takeInput (s.dropOp u k)).sched.posted = s.sched.posted := by
      rw [hsched]
      rfl
    have hunits : (o.ins.foldl State.takeInput (s.dropOp u k)).sched.units = (s.dropOp u k).sched.units := by rw [hsched]
    have himage : (o.ins.foldl State.takeInput (s.dropOp u k)).sched.image = s.sched.image := by
      rw [hsched]
      rfl
    generalize hins : o.ins.foldl State.takeInput (s.dropOp u k) = taken at *
    have hstand := taken.postTokens_stand o.outs fun p => if s.isMirage p.1 then
      some { chan := p.1, k := p.2, tag := o.tag, valid := !o.invalid, entry := o.entry } else none
    have hpost : Frame ⟨[.sched], [], false⟩ taken (o.outs.foldl (fun s' p => s'.postToken p.1 p.2 (if s.isMirage p.1 then
        some { chan := p.1, k := p.2, tag := o.tag, valid := !o.invalid, entry := o.entry } else none)) taken) :=
      Frame.foldl fun t p => State.postToken_frame _ _ _ _
    have hop := State.completeOp_done ho hdone hcut hnext hst htrace hrun ht hmid (by rw [hins])
      (hframe.trans (hpost.mono (by decide +kernel))) (hstand.1.trans hunits) (hstand.2.trans himage)
    refine ⟨_, exec_eq_next (effect := fun s => s.completeOp u k) hr rfl hop (hpost.fatal_eq.trans hframe.fatal_eq), fun ch => ?_, ?_,
      hpost.mem_eq.trans hframe.mem_eq, fun houts => ?_, fun ch n houts hmir hnone => ⟨fun hn => ?_, fun hn => ?_⟩⟩
    · rw [State.get_onUnit, hpost.get_eq _ _ _ List.not_mem_nil]
      exact htokens ch
    · rw [State.unit_onUnit, State.unit, hstand.1, hunits, ← State.unit, State.dropOp, State.unit_onUnit]
    · rw [houts]
      exact hmesh
    · have hnext := State.postToken_next (s := taken) (ch := ch) none (htok.trans hnone) (hn.trans (by rw [hposted]))
      simp only [houts, List.foldl_cons, List.foldl_nil, hmir, Bool.false_eq_true, if_false, hnext]
      exact ⟨congrArg (· ++ _) hmesh, lookupKey_setKey_same _ _ _⟩
    · have hwaits := State.postToken_waits (s := taken) (ch := ch) (n := n) none (htok.trans hnone) (by rwa [hposted])
      simp only [houts, List.foldl_cons, List.foldl_nil, hmir, Bool.false_eq_true, if_false, hwaits]
      exact ⟨hmesh, rfl⟩
  · refine exec_eq_next (effect := fun s => s.completeOp u k) hr rfl ?_
    simp only [State.completeOp, ho]
    rcases h with h | h | h <;> simp only [h]
  · rcases hc with ⟨rfl, rfl, rfl⟩ | ⟨rfl, rfl, rfl⟩
    · refine Completes.of_alters (effect := fun s => s.tokenArrives ch) hr rfl ?_ ?_
      · simp only [State.tokenArrives_some hm]
        exact (((State.Alters.refl s).frame (State.onSched_frame _ _) ⟨rfl, rfl⟩ (by simp)).put (by simp) rfl).frame
          (State.onSched_frame _ _) ⟨rfl, rfl⟩ (by simp)
      · simp only [State.tokenArrives_some hm]
        exact ⟨by rw [State.get_onSched, State.get_put_same _ _ _ _ _ (by decide)], rfl, rfl⟩
    · refine Completes.of_alters (effect := fun s => s.creditArrives ch) hr rfl ?_ ?_
      · simp only [State.creditArrives, State.takeMesh_some hm]
        exact ((State.Alters.refl s).frame (State.onSched_frame _ _) ⟨rfl, rfl⟩ (by simp)).put (by simp) rfl
      · simp only [State.creditArrives, State.takeMesh_some hm]
        exact ⟨by rw [State.get_put_same _ _ _ _ _ (by decide), State.get_onSched], rfl, (List.append_nil _).symm⟩
  · rcases hc with ⟨rfl, rfl, rfl⟩ | ⟨rfl, rfl, rfl⟩
    · exact exec_eq_next (effect := fun s => s.tokenArrives ch) hr rfl (by simp only [State.tokenArrives, State.takeMesh_none hm])
    · exact exec_eq_next (effect := fun s => s.creditArrives ch) hr rfl (by simp only [State.creditArrives, State.takeMesh_none hm])
  · intro s u t hr ht hst hended hfree hstop hpos c next hclass hrun hlt hmark hgood hahead
    refine exec_eq_next (effect := fun s => s.passNop u) hr rfl ?_
    have hpass : s.passEntry u t = s.onUnit u fun x => { x with pos := next } := State.passEntry_eq (.inr ⟨hgood, hahead⟩)
    have hstands := State.ImageStands.onUnit s u fun x => { x with pos := next }
    have hgo : (s.onUnit u fun x => { x with pos := next }).goOn u 1 = s.onUnit u fun x => { x with pos := next } := by
      refine State.goOn_stays (t := t) (by rw [hstands.streamOfUnit, ht]) ?_ ?_
      · rw [State.unit_onUnit]
        exact hrun
      · rw [State.unit_onUnit, hstands.atBoundary, State.atBoundary]
        simpa [hlt] using hmark
    simp only [State.passNop, ht]
    rw [if_neg (by rw [show (s.ctrlAt t (s.unit u).pos).opclass = 0x81 from hclass]; simp [hst, hended, hfree, hstop, hpos]; omega), hpass, hgo]

end

/-! # Operations of the engines

Every engine command runs its task (`exec_runs_task`), so an operation that stands ready is performed. -/

section

namespace Sys2Proof.Machine

theorem act_congr {c : Instr} {s : State} {f g : State → State} (h : f s = g s) : act c s f = act c s g := by
  simp only [act, h]

section
variable {c : Instr} {s s' : State} {t : Task} {k : Nat} {a b e : State} {ws : List (Nat × Bytes)}

/-- The command of an operation that stands ready runs the operation's task. UPRUN runs as many blocks as it names unless an abort
has cut it (R341). -/
theorem exec_runs_task (ht : taskOf s c = some (s', t)) (h : s'.Performs t k a b ws e) :
    exec c s = act c s fun _ => s'.runOp t := by
  unfold taskOf at ht
  split at ht
  case h_24 die p =>
    cases ht
    have hfound : s.findOp (unitId die 7 0) 0x4A (bytesOf p) = some k := h.found
    have hcut : (s.opAt (unitId die 7 0) k).cut = false := h.op.2.2
    simp only [exec, execUprun]
    exact act_congr (by simp only [hfound, hcut, Bool.false_eq_true, if_false])
  case h_27 => cases ht
  all_goals
    cases ht
    simp only [exec, execLdx, execMma, execOut, execPsend, execPadd, execStf, execEw, execCvt, execScan, execReduce, execDgrad,
      execRand, execSlice, execChain, execCode, execDecode, execHstore, execBuild, execFsel, execMove, execXpose, execRbank,
      execNchk, execCscale, execRsend]
    exact act_congr rfl

/-- The command of an operation that stands ready performs it. -/
theorem exec_performs (hc : s.Reaches c) (ht : taskOf s c = some (s', t)) (h : s'.Performs t k a b ws e) :
    ∃ t', exec c s = .next t' ∧ e.Performed t' t.unit k := by
  have hdone := h.performed
  have hflt : (s'.runOp t).flt = e.flt := hdone.parts .flt (by decide) (by decide)
  exact ⟨_, exec_eq_next hc (exec_runs_task ht h) rfl (by rw [hflt, h.quiet, hc.2.2]), hdone⟩

end

end Sys2Proof.Machine

open Sys2Proof Sys2Proof.Machine

/-- Settles O25: every engine command runs its task, and a task that stands ready is performed (`State.Performs.performed`). -/
theorem readyOperationsArePerformed : Obligations.ReadyOperationsArePerformed := by
  unfold Obligations.ReadyOperationsArePerformed
  intro c s s' t k a b e ws hc ht h
  exact exec_performs hc ht h

end

/-! # Matrix arrays

Loading a tile, exact products and partials (R121 to R125, R153 to R161, R176, R180), and the output operations (R126 to R131, R171 to
R174): each is its task's computation between its reads and its writes. -/

section

namespace Sys2Proof.Machine

/-! ### An operation between its reads and its writes -/

section
variable {s a b e t' : State} {t : Task} {k : Nat} {ws : List (Nat × Bytes)} (h : s.Performs t k a b ws e)
include h

theorem State.Performs.reads_frame : Frame ⟨accessParts, accessRegs, false⟩ s a := by
  obtain ⟨-, -, rfl⟩ := h.reads
  exact ((Frame.refl s).step (State.onOp_frame ..)).step (State.readAll_frame ..)

theorem State.Performs.writes_frame : Frame ⟨accessParts, accessRegs, false⟩ b e := by
  obtain ⟨-, -, rfl⟩ := h.writes
  exact State.writeAll_frame ..

/-- An operation that writes nothing leaves what its computation left. -/
theorem State.Performs.eq_of_no_writes (hw : ws = []) : e = b := by
  obtain ⟨-, -, rfl⟩ := h.writes
  rw [hw]
  rfl

end

theorem State.array_congr {s t : State} (h : t.arrays = s.arrays) (u : Nat) : t.array u = s.array u := by
  rw [State.array, State.array, h]

theorem State.array_onArray (s : State) (u : Nat) (f : ArraySt → ArraySt) : (s.onArray u f).array u = f (s.array u) := by
  simp [State.array, State.onArray, lookupKey_setKey_same]

theorem State.Performed.array {e t : State} {u k : Nat} (h : e.Performed t u k) (v : Nat) : t.array v = e.array v :=
  State.array_congr (h.parts .arrays (by decide) (by decide)) v

/-! ### Accumulator columns -/

/-- A column that was set reads, row by row, what was put there. -/
theorem ArraySt.getD_column_setColumn (a : ArraySt) {u shape c i : Nat} {vals : List (Option Int)} (hs : shape ≠ 1) (hs' : shape ≠ 2)
    (hi : i < (shapeOf shape).rows) (hv : i < vals.length) :
    ((a.setColumn u shape c vals).column u shape c).getD i none = vals[i] := by
  have hcell : cellOf shape c = (0, c) := by simp [cellOf, hs, hs']
  simp [ArraySt.column, ArraySt.setColumn, hcell, lookupKey_setKey_same, hi, List.getElem?_append_left hv, hv]

theorem ArraySt.column_congr {a a' : ArraySt} (h : a'.acc = a.acc) (u shape c : Nat) : a'.column u shape c = a.column u shape c := by
  simp only [ArraySt.column, h]

/-! ### Exact products -/

theorem nan80_lt {x : Int} (h : (x.natAbs : Int) ≤ max80) : x ≠ nan80 := by
  simp only [max80, nan80] at *
  omega

/-- An addition that does not saturate is exact (R124). -/
theorem AccRun.acc_add {r : AccRun} {x : Int} (hr : r.acc ≠ nan80) (h : ((r.acc + x).natAbs : Int) ≤ max80) :
    (r.add x).acc = r.acc + x := by
  have hup : ¬ max80 < r.acc + x := by simp only [max80] at *; omega
  have hdown : ¬ r.acc + x < -max80 := by simp only [max80] at *; omega
  simp only [AccRun.add, hr, hup, hdown, if_false]

/-- The exact product of a stationary and a stream element. -/
def termOf (x w : Option (Int × Nat)) : Int :=
  match x, w with
  | some (m, q), some (m', q') => m * m' * 2 ^ (q + q')
  | _, _ => 0

theorem AccRun.acc_term {r : AccRun} {x w : Option (Int × Nat)} (hx : x.isSome = true) (hw : w.isSome = true) (hr : r.acc ≠ nan80)
    (h : ((r.acc + termOf x w).natAbs : Int) ≤ max80) : (r.term x w).acc = r.acc + termOf x w := by
  obtain ⟨⟨m, q⟩, rfl⟩ := Option.isSome_iff_exists.1 hx
  obtain ⟨⟨m', q'⟩, rfl⟩ := Option.isSome_iff_exists.1 hw
  exact AccRun.acc_add hr h

/-- Cells beyond the loaded elements hold zero (R156). -/
theorem AccRun.acc_dot_nil {ws : List (Option (Int × Nat))} (hws : ∀ w ∈ ws, w.isSome = true) {r : AccRun}
    (h : ((r.acc.natAbs : Nat) : Int) ≤ max80) : (r.dot [] ws).acc = r.acc := by
  induction ws generalizing r with
  | nil => rfl
  | cons w ws ih =>
    have hzero : termOf (some (0, 16)) w = 0 := by
      obtain ⟨⟨m', q'⟩, rfl⟩ := Option.isSome_iff_exists.1 (hws w (by simp))
      simp [termOf]
    have hterm : (r.term (some (0, 16)) w).acc = r.acc := by
      rw [AccRun.acc_term rfl (hws w (by simp)) (nan80_lt h) (by rwa [hzero, add_zero]), hzero, add_zero]
    rw [AccRun.dot, ih (fun x hx => hws x (by simp [hx])) (by rwa [hterm]), hterm]

/-- A dot product whose magnitudes add up to no more than the largest accumulator is exact (R121 to R124). -/
theorem AccRun.acc_dot {xs ws : List (Option (Int × Nat))} (hlen : xs.length ≤ ws.length) (hxs : ∀ x ∈ xs, x.isSome = true)
    (hws : ∀ w ∈ ws, w.isSome = true) {r : AccRun}
    (h : ((r.acc.natAbs + ((xs.zip ws).map fun p => (termOf p.1 p.2).natAbs).sum : Nat) : Int) ≤ max80) :
    (r.dot xs ws).acc = r.acc + ((xs.zip ws).map fun p => termOf p.1 p.2).sum := by
  induction xs generalizing ws r with
  | nil => simpa using AccRun.acc_dot_nil hws (by simpa using h)
  | cons x xs ih =>
    cases ws with
    | nil => simp at hlen
    | cons w ws =>
      simp only [List.zip_cons_cons, List.map_cons, List.sum_cons] at h ⊢
      have hnan : r.acc ≠ nan80 := nan80_lt (by omega)
      have hterm : (r.term x w).acc = r.acc + termOf x w :=
        AccRun.acc_term (hxs x (by simp)) (hws w (by simp)) hnan (by omega)
      rw [AccRun.dot, ih (by simpa using hlen) (fun y hy => hxs y (by simp [hy])) (fun y hy => hws y (by simp [hy]))
        (by rw [hterm]; omega), hterm, add_assoc]

theorem termOf_map (f g : Nat) (row codes : List Nat) :
    ((row.map (decode8 f)).zip (codes.map (decode8 g))).map (fun p => termOf p.1 p.2) =
      (row.zip codes).map fun x => match decode8 f x.1, decode8 g x.2 with
        | some (m, q), some (m', q') => m * m' * 2 ^ (q + q')
        | _, _ => 0 := by
  rw [List.zip_map, List.map_map]
  rfl

/-! ### MMA -/

/-- One column of an MMA on an array without slices: row `i` meets the column's codes. -/
theorem ArrayRun.mmaCol_a {r : ArrayRun} {u : Nat} {t : Tile} (hs : t.shape ≠ 7) (hslices : (shapeOf t.shape).slices = 0)
    (fw sj c : Nat) (clr : Bool) (codes : List Nat) : (r.mmaCol u t fw sj c clr codes).a =
      r.a.setColumn u t.shape c (((List.range (shapeOf t.shape).rows).map fun i =>
        (AccRun.dot { acc := if clr then 0 else (((r.a.column u t.shape c)[i]?).getD none).getD 0 }
          (((t.rows[i]?).getD []).map (decode8 t.format)) (codes.map (decode8 fw)))).map fun w => some w.acc) := by
  simp only [ArrayRun.mmaCol, hs, if_false, hslices, if_true]

/-- The stream elements of the first column of an MMA on an FP8/INT8 array. -/
def mmaCodes (a : State) (u asid va n : Nat) : List Nat :=
  (List.range n).map fun j => fieldAt (a.spanBytes u (unitDie u) asid va n) j 1

/-- What an MMA of one column leaves of its array: that column's run on the tile (R153, R161). -/
theorem State.Performs.mma_one {s a b e : State} {u k : Nat} {p : BitVec 192} {ws : List (Nat × Bytes)} {tile : Tile}
    (h : s.Performs (mmaTask u p) k a b ws e) (htile : mmaTile (s.array u) (payBits p 16 0 1 == 1) = some tile)
    (hwide : isWide u = false) (hn : pay p 12 2 = 1) :
    ws = [] ∧ b.mem = a.mem ∧ b.array u =
      (ArrayRun.mmaCol { a := (a.swapTile u (payBits p 16 0 1 == 1)).array u } u tile (payBits p 17 0 4) (payBits p 17 4 4)
        (mmaColumn tile (pay p 14 2) (payBits p 17 4 4)) (payBits p 16 1 1 == 1)
        (mmaCodes a u s.asidOf (pay p 0 8) (shapeOf tile.shape).k)).a := by
  have hswap : (a.swapTile u (payBits p 16 0 1 == 1)).mem = a.mem := by
    unfold State.swapTile
    split <;> rfl
  have hbody := h.body
  simp only [mmaTask, htile, Option.getD_some, hwide, hn, Bool.false_eq_true, if_false] at hbody
  split at hbody
  · simp at hbody
  · simp only [mul_one, List.range_one, List.map_cons, List.map_nil, Nat.zero_mul, Nat.add_zero, List.zipIdx_cons, List.zipIdx_nil,
      List.foldl_cons, List.foldl_nil, Prod.mk.injEq, Computed.writes.injEq] at hbody
    obtain ⟨rfl, rfl⟩ := hbody
    refine ⟨rfl, (State.arrayEvents_frame ..).mem_eq.trans hswap, ?_⟩
    refine (State.array_congr ((State.arrayEvents_frame ..).parts .arrays (by decide)) u).trans ?_
    rw [State.array_onArray]
    rfl

/-- The tile of an MMA is the active one when its columns enter (R153, R160). -/
theorem State.swapTile_spec {s : State} {u : Nat} {swap : Bool} {tile : Tile} (h : mmaTile (s.array u) swap = some tile) :
    ((s.swapTile u swap).array u).active = some tile ∧ ((s.swapTile u swap).array u).acc = (s.array u).acc := by
  cases swap with
  | true =>
    rw [State.swapTile, if_pos rfl, State.array_onArray]
    exact ⟨h, rfl⟩
  | false => exact ⟨h, rfl⟩

end Sys2Proof.Machine

open Sys2Proof Sys2Proof.Machine

/-- Settles O26: LDX's computation is the tile, and a dot product that cannot saturate is exact (`AccRun.acc_dot`). -/
theorem arraysMultiplyExactly : Obligations.ArraysMultiplyExactly := by
  unfold Obligations.ArraysMultiplyExactly
  constructor
  · intro u k p s a b e ws hc h size row
    obtain ⟨t, ht, hdone⟩ := h.act_performed hc
    obtain ⟨rfl, rfl⟩ := h.body_eq rfl
    obtain rfl := h.eq_of_no_writes rfl
    have harray : a.array u = s.array u := State.array_congr (h.reads_frame.parts .arrays (by decide)) u
    have htarray := (hdone.array u).trans (State.array_onArray ..)
    refine ⟨t, ht, hdone.parts .mem (by decide) (by decide), ?_, ?_, ?_⟩
    · rw [htarray, harray]
    · rw [htarray, harray]
    · rw [htarray]
      simp [row, size]
  · intro u k p s a b e ws tile hc h htile hwide hshape hn codes old
    obtain ⟨t, ht, hdone⟩ := h.act_performed hc
    obtain ⟨hws, hmem, hrun⟩ := h.mma_one htile hwide hn
    obtain rfl := h.eq_of_no_writes hws
    have harray : a.array u = s.array u := State.array_congr (h.reads_frame.parts .arrays (by decide)) u
    obtain ⟨hactive, hacc⟩ := State.swapTile_spec (harray ▸ htile)
    have hshape' : tile.shape ≠ 1 ∧ tile.shape ≠ 2 ∧ tile.shape ≠ 7 := by omega
    have hplain : (shapeOf tile.shape).slices = 0 ∧ (shapeOf tile.shape).group = 0 := by
      rcases hshape with h | h | h <;> rw [h] <;> exact ⟨rfl, rfl⟩
    rw [ArrayRun.mmaCol_a hshape'.2.2 hplain.1, show mmaColumn tile (pay p 14 2) (payBits p 17 4 4) = pay p 14 2 by
      rw [mmaColumn, hplain.2, Nat.mul_zero, Nat.zero_add], ArraySt.column_congr (hacc.trans (congrArg ArraySt.acc harray))] at hrun
    have htarray := (hdone.array u).trans hrun
    refine ⟨t, ht, (hdone.parts .mem (by decide) (by decide)).trans hmem, by rw [htarray]; exact hactive, fun i hi => ?_⟩
    intro row start terms hlen hrow hcodes hsum
    rw [htarray, ArraySt.getD_column_setColumn _ hshape'.1 hshape'.2.1 hi (by simpa using hi)]
    have hdot := AccRun.acc_dot (xs := row.map (decode8 tile.format)) (ws := codes.map (decode8 (payBits p 17 0 4)))
      (r := { acc := start }) (by simpa using hlen) (by simpa using hrow) (by simpa using hcodes)
      (by rw [show (fun p : Option (Int × Nat) × Option (Int × Nat) => (termOf p.1 p.2).natAbs) = Int.natAbs ∘ fun p => termOf p.1 p.2 from rfl, ← List.map_map, termOf_map]
          exact hsum)
    rw [termOf_map] at hdot
    rw [List.getElem_map, List.getElem_map, List.getElem_range]
    refine congrArg some (Eq.trans ?_ hdot)
    simp only [start, row, codes, old, mmaCodes, List.getD_eq_getElem?_getD, beq_iff_eq]

end

/-! # The output operations of an array

Partials that are added (R125, R176), and the elements of an OUT that rounds to the nearest even (R126 to R131). -/

section

namespace Sys2Proof.Machine

/-! ### Partials -/

/-- A partial as an accumulator takes it (R125). -/
def AccRun.partial (r : AccRun) (x : Int) : AccRun := if x = nan80 then r.toNan else r.add x

/-- The rows of a column that a PADD adds to (R176). -/
def paddRows (data : Bytes) (old : List (Option Int)) (rows : Nat) : List (Option Int) :=
  ((List.range rows).map fun i => some (AccRun.partial { acc := (old[i]?.getD none).getD 0 } (signed 80 (fieldAt data (i * 10) 10))).acc) ++
    old.drop rows

/-- A PADD asks for no more rows than its shape has (R176). -/
theorem rows_le_of_partialCheck {a : ArraySt} {u : Nat} {p : BitVec 192} {add : Bool} (h : partialCheck a u p add = none) :
    pay p 16 2 ≤ (shapeOf (a.shape u)).rows := by
  by_contra hrows
  simp [partialCheck, hrows] at h

/-- What a PADD of one column leaves of its array (R125, R176). -/
theorem State.Performs.padd_one {s a b e : State} {u k : Nat} {p : BitVec 192} {ws : List (Nat × Bytes)}
    (h : s.Performs (paddTask u p) k a b ws e) (hwide : isWide u = false) (hn : pay p 12 2 = 1) :
    ws = [] ∧ b.mem = a.mem ∧ b.array u = (a.array u).setColumn u ((s.array u).shape u) (pay p 14 2)
      (paddRows (a.spanBytes u (unitDie u) s.asidOf (pay p 0 8) (pay p 16 2 * 10))
        ((a.array u).column u ((s.array u).shape u) (pay p 14 2)) (pay p 16 2)) := by
  have hbody := h.body
  simp only [paddTask, hwide, hn, Bool.false_eq_true, if_false] at hbody
  split at hbody
  · simp at hbody
  · simp only [mul_one, List.range_one, List.foldl_cons, List.foldl_nil, Nat.add_zero, Prod.mk.injEq, Computed.writes.injEq] at hbody
    obtain ⟨rfl, rfl⟩ := hbody
    refine ⟨rfl, (State.arrayEvents_frame ..).mem_eq, ?_⟩
    refine (State.array_congr ((State.arrayEvents_frame ..).parts .arrays (by decide)) u).trans ?_
    rw [State.array_onArray, paddRows, List.map_map]
    rfl

/-! ### Elements of an OUT -/

/-- The code of one element, rounded to the nearest even (R128, R131). -/
def outCode (s : State) (u shape fmt : Nat) (sat : Bool) (acc r j : Nat) (sx sw : Bytes) : Nat :=
  ((fmtOf fmt).round .rne sat false (match outValue s u shape r (acc + j) j sx sw with
    | .fin n m x => if m = 0 then .zero else .fin n m x
    | v => v)).code

/-- An element that is rounded to the nearest even draws nothing. -/
theorem OutRun.element_rne (r : OutRun) {shape : Nat} (hs : shape ≠ 7) (u fmt : Nat) (sat : Bool) (row acc j : Nat) (sx sw : Bytes) :
    ((r.element u shape fmt 0 sat row (acc + j) (outValue r.s u shape row (acc + j) j sx sw)).1.s = r.s ∧
      (r.element u shape fmt 0 sat row (acc + j) (outValue r.s u shape row (acc + j) j sx sw)).1.vals = r.vals) ∧
    (r.element u shape fmt 0 sat row (acc + j) (outValue r.s u shape row (acc + j) j sx sw)).2 =
      outCode r.s u shape fmt sat acc row j sx sw := by
  refine ⟨⟨rfl, rfl⟩, ?_⟩
  simp only [OutRun.element, hs, false_and, if_false, outCode] <;> rfl

/-- A column's codes, row by row. -/
theorem OutRun.column_rne (r : OutRun) {shape : Nat} (hs : shape ≠ 7) (u fmt : Nat) (sat : Bool) (rows acc j : Nat) (sx sw : Bytes) :
    (r.column u shape fmt 0 sat rows acc j sx sw).s = r.s ∧ (r.column u shape fmt 0 sat rows acc j sx sw).vals =
      r.vals ++ [(List.range rows).map fun row => outCode r.s u shape fmt sat acc row j sx sw] := by
  have hfold : ∀ n, let x := (List.range n).foldl (fun (p : OutRun × List Nat) row =>
      ((p.1.element u shape fmt 0 sat row (acc + j) (outValue p.1.s u shape row (acc + j) j sx sw)).1,
        p.2 ++ [(p.1.element u shape fmt 0 sat row (acc + j) (outValue p.1.s u shape row (acc + j) j sx sw)).2])) (r, [])
      x.1.s = r.s ∧ x.1.vals = r.vals ∧ x.2 = (List.range n).map fun row => outCode r.s u shape fmt sat acc row j sx sw := by
    intro n
    induction n with
    | zero => exact ⟨rfl, rfl, rfl⟩
    | succ n ih =>
      obtain ⟨hstate, hvals, hcodes⟩ := ih
      simp only [List.range_succ, List.foldl_append, List.foldl_cons, List.foldl_nil, List.map_append, List.map_cons, List.map_nil]
      obtain ⟨⟨hs', hv'⟩, hc'⟩ := OutRun.element_rne _ hs u fmt sat n acc j sx sw
      exact ⟨hs'.trans hstate, hv'.trans hvals, by rw [hcodes, hc', hstate]⟩
  obtain ⟨hstate, hvals, hcodes⟩ := hfold rows
  exact ⟨hstate, congrArg₂ (· ++ [·]) hvals hcodes⟩

/-- An OUT's codes, column by column. -/
theorem OutRun.columns_rne (r : OutRun) {shape : Nat} (hs : shape ≠ 7) (u fmt : Nat) (sat : Bool) (rows acc : Nat) (sx sw : Bytes) (n : Nat) :
    let x := (List.range n).foldl (fun (r : OutRun) j => r.column u shape fmt 0 sat rows acc j sx sw) r
    x.s = r.s ∧ x.vals = r.vals ++ (List.range n).map fun j => (List.range rows).map fun row =>
      outCode r.s u shape fmt sat acc row j sx sw := by
  induction n with
  | zero => exact ⟨rfl, (List.append_nil _).symm⟩
  | succ n ih =>
    obtain ⟨hstate, hvals⟩ := ih
    simp only [List.range_succ, List.foldl_append, List.foldl_cons, List.foldl_nil, List.map_append, List.map_cons, List.map_nil]
    obtain ⟨hs', hv'⟩ := OutRun.column_rne _ hs u fmt sat rows acc n sx sw
    exact ⟨hs'.trans hstate, by rw [hv', hvals, hstate, List.append_assoc]⟩

theorem slices_of_shape {shape : Nat} (h : shape ≤ 4) : (shapeOf shape).slices = 0 := by
  interval_cases shape <;> rfl

/-- What an OUT to memory writes that rounds to the nearest even on a shape without slices. -/
theorem State.Performs.out_rne {s a b e : State} {u k : Nat} {p : BitVec 448} {ws : List (Nat × Bytes)}
    (h : s.Performs (outTask u p) k a b ws e) (hmode : payBits p 16 4 2 = 0) (hdest : payBits p 16 7 1 = 0)
    (hs : (s.array u).shape u ≤ 4) :
    ws = (List.range (pay p 18 2)).map fun r => (pay p 0 8 + r * pay p 8 4, (List.range (pay p 12 2)).flatMap fun j =>
      toLE (fmtSize (payBits p 16 0 4)) (outCode a u ((s.array u).shape u) (payBits p 16 0 4) (payBits p 16 6 1 == 1) (pay p 14 2) r j
        (a.spanBytes u (unitDie u) s.asidOf (pay p 24 8) (4 * pay p 18 2))
        (a.spanBytes u (unitDie u) s.asidOf (pay p 32 8) (4 * pay p 12 2)))) := by
  have hbody := h.body
  simp only [outTask, hmode, hdest, slices_of_shape hs, bne_self_eq_false, Bool.false_and, Bool.false_eq_true, if_false,
    show ((0 : Nat) == 1) = false from rfl, Prod.mk.injEq, Computed.writes.injEq] at hbody
  rw [← hbody.2]
  refine List.map_congr_left fun row hrow => congrArg (Prod.mk _) (List.flatMap_congr fun j hj => congrArg (toLE _) ?_)
  rw [(OutRun.columns_rne _ (by omega) ..).2]
  simp [List.mem_range.1 hrow, List.mem_range.1 hj]

end Sys2Proof.Machine

open Sys2Proof Sys2Proof.Machine

/-- Settles O27: each operation's writes are its task's computation; PADD's addition is exact where it does not saturate. -/
theorem arraysGiveTheirResults : Obligations.ArraysGiveTheirResults := by
  unfold Obligations.ArraysGiveTheirResults
  refine ⟨?_, ?_, ?_, ?_⟩
  · intro u k p s a b e ws hc h size
    obtain ⟨-, rfl⟩ := h.body_eq rfl
    exact ⟨rfl, h.act_performed hc⟩
  · intro u k p s a b e ws hc h hwide hn shape hs hs' data
    obtain ⟨t, ht, hdone⟩ := h.act_performed hc
    obtain ⟨hws, hmem, hrun⟩ := h.padd_one hwide hn
    obtain rfl := h.eq_of_no_writes hws
    have harray : a.array u = s.array u := State.array_congr (h.reads_frame.parts .arrays (by decide)) u
    refine ⟨t, ht, (hdone.parts .mem (by decide) (by decide)).trans hmem, fun i hi x y hx hy hnan hnan' hsmall => ?_⟩
    have hrows : i < (shapeOf shape).rows := hi.trans_le (rows_le_of_partialCheck h.check)
    rw [hdone.array, hrun, ArraySt.getD_column_setColumn _ hs hs' hrows (by simp [paddRows]; omega)]
    have hold : ((s.array u).column u shape (pay p 14 2))[i]?.getD none = some x := by simpa [List.getD_eq_getElem?_getD] using hx
    change y = signed 80 (fieldAt (a.spanBytes u (unitDie u) s.asidOf (pay p 0 8) (pay p 16 2 * 10)) (i * 10) 10) at hy
    have hadd : (AccRun.add { acc := x } y).acc = x + y := AccRun.acc_add hnan (by simp only [max80]; omega)
    simp only [paddRows, harray]
    rw [List.getElem_append_left (by simpa using hi)]
    rw [List.getElem_map, List.getElem_range, AccRun.partial, ← hy, if_neg hnan', hold]
    exact congrArg some hadd
  · intro u k p s a b e ws hc h hmode hdest _ hs fmt sx sw value
    exact ⟨h.out_rne hmode hdest hs, h.act_performed hc⟩
  · intro u k p s a b e ws hc h
    obtain ⟨rfl, rfl⟩ := h.body_eq rfl
    obtain ⟨t, ht, hdone⟩ := h.act_performed hc
    refine ⟨rfl, t, ht, hdone, ?_⟩
    rw [hdone.array, State.array_congr (h.writes_frame.parts .arrays (by decide)), State.array_onArray]
    exact lookupKey_dropKey_same ..

end

/-! # The vector stream engine

The lane generators (R208 to R213), and the operations whose destination has an element for each element of their streams (R192 to R205):
without a mask they write their elements' codes in order, and a scan or a reduction of integers sums exactly. -/

section

namespace Sys2Proof.Machine

/-! ### Lane generators -/

theorem seedWords_lt (seed module die g : Nat) : (seedWords seed module die g).1 < 2 ^ 64 ∧ (seedWords seed module die g).2 < 2 ^ 64 := by
  have hmix (z : Nat) : mix64 z < 2 ^ 64 := by
    unfold mix64
    exact Nat.xor_lt_two_pow (Nat.mod_lt _ (by decide)) ((Nat.shiftRight_le _ _).trans_lt (Nat.mod_lt _ (by decide)))
  simp only [seedWords]
  split
  · decide
  · exact ⟨hmix _, hmix _⟩

/-- A word of VSE_GEN_STATE, or its seed. -/
def State.genWord (s : State) (die i seed : Nat) : Nat :=
  match findWord (Reg.VSE_GEN_STATE.place die i) s.regs with
  | some w => w.toNat
  | none => seed

theorem State.genWords_eq (s : State) (die g : Nat) : s.genWords die g =
    (s.genWord die (2 * g) (seedWords (s.get F.VSE_GEN_SEED.SEED die) s.moduleNo die g).1,
      s.genWord die (2 * g + 1) (seedWords (s.get F.VSE_GEN_SEED.SEED die) s.moduleNo die g).2) := rfl

theorem State.genWord_lt (s : State) (die i : Nat) {seed : Nat} (h : seed < 2 ^ 64) : s.genWord die i seed < 2 ^ 64 := by
  unfold State.genWord
  split
  · exact BitVec.isLt _
  · exact h

theorem State.genWords_lt (s : State) (die g : Nat) : (s.genWords die g).1 < 2 ^ 64 ∧ (s.genWords die g).2 < 2 ^ 64 := by
  obtain ⟨hfst, hsnd⟩ := seedWords_lt (s.get F.VSE_GEN_SEED.SEED die) s.moduleNo die g
  rw [State.genWords_eq]
  exact ⟨State.genWord_lt _ _ _ hfst, State.genWord_lt _ _ _ hsnd⟩

theorem rotl32_lt {x : Nat} (h : x < 2 ^ 32) (n : Nat) : rotl32 x n < 2 ^ 32 :=
  Nat.or_lt_two_pow (Nat.mod_lt _ (by decide)) ((Nat.shiftRight_le _ _).trans_lt h)

theorem packed_lt {a b : Nat} (ha : a < 2 ^ 32) (hb : b < 2 ^ 32) : a + b <<< 32 < 2 ^ 64 := by
  rw [Nat.shiftLeft_eq]
  omega

/-- A draw leaves two words of 64 bits. -/
theorem drawWords_lt {w : Nat × Nat} (h : w.1 < 2 ^ 64 ∧ w.2 < 2 ^ 64) : (drawWords w).2.1 < 2 ^ 64 ∧ (drawWords w).2.2 < 2 ^ 64 := by
  have hlow (x : Nat) : x % 2 ^ 32 < 2 ^ 32 := Nat.mod_lt _ (by decide)
  have hhigh {x : Nat} (hx : x < 2 ^ 64) : x >>> 32 < 2 ^ 32 := by
    rw [Nat.shiftRight_eq_div_pow]
    omega
  have h2 := Nat.xor_lt_two_pow (hlow w.2) (hlow w.1)
  have h3 := Nat.xor_lt_two_pow (hhigh h.2) (hhigh h.1)
  exact ⟨packed_lt (Nat.xor_lt_two_pow (hlow w.1) h3) (Nat.xor_lt_two_pow (hhigh h.1) h2),
    packed_lt (Nat.xor_lt_two_pow h2 (hlow _)) (rotl32_lt h3 11)⟩

/-- The registers that the words of a generator come from. -/
def genRegs : List Reg := [.VSE_GEN_STATE, .VSE_GEN_SEED, .SEC_IDENTITY]

theorem State.genWords_setWord (s : State) {r : Reg} (h : r ∉ genRegs) (v : Word) (d i die g : Nat) :
    (s.setWord r v d i).genWords die g = s.genWords die g := by
  simp only [genRegs, List.mem_cons, List.not_mem_nil, or_false, not_or] at h
  obtain ⟨hstate, hseed, hident⟩ := h
  simp only [State.genWords, State.moduleNo, State.get_setWord_reg (f := F.VSE_GEN_SEED.SEED) hseed,
    State.get_setWord_reg (f := F.SEC_IDENTITY.MODULE) hident, State.setWord_regs, findWord_storeWord_ne (Reg.place_ne hstate _ _ _ _)]

theorem State.genWords_bump (s : State) {f : Fld} (h : f.reg ∉ genRegs) (n d i die g : Nat) :
    (s.bump f n d i).genWords die g = s.genWords die g := State.genWords_setWord s h _ _ _ _ _

/-- Counting results leaves the generators. -/
theorem State.genWords_vseCount (s : State) (u : Nat) (rs : List Rounded) (die g : Nat) :
    (s.vseCount u rs).genWords die g = s.genWords die g := by
  unfold State.vseCount
  dsimp only
  split <;> simp only [State.genWords_bump _ (f := F.VSE_EVENTS.NAN_COUNT) (by decide), State.genWords_bump _ (f := F.VSE_EVENTS.OVF_COUNT) (by decide),
    State.genWords_bump _ (f := F.VSE_EVENTS.FLUSH_COUNT) (by decide), State.genWords_bump _ (f := F.VSC_EVENTS.NAN_COUNT) (by decide),
    State.genWords_bump _ (f := F.VSC_EVENTS.OVF_COUNT) (by decide), State.genWords_bump _ (f := F.VSC_EVENTS.FLUSH_COUNT) (by decide)]

/-- A generator that was set holds its words. -/
theorem State.genWords_setGen_same (s : State) (die g : Nat) {w : Nat × Nat} (h : w.1 < 2 ^ 64 ∧ w.2 < 2 ^ 64) :
    (s.setGen die g w).genWords die g = w := by
  have hne : 2 * g + 1 ≠ 2 * g := by omega
  simp only [State.genWords, State.setGen, State.setWord_regs, findWord_storeWord_same,
    findWord_storeWord_ne (Reg.place_ne_idx (r := .VSE_GEN_STATE) (r' := .VSE_GEN_STATE) hne die die), BitVec.toNat_ofNat,
    Nat.mod_eq_of_lt h.1, Nat.mod_eq_of_lt h.2]

/-- Another generator stands when one is set. -/
theorem State.genWords_setGen_ne (s : State) {die g die' g' : Nat} (h : die' ≠ die ∨ g' ≠ g) (w : Nat × Nat) :
    (s.setGen die g w).genWords die' g' = s.genWords die' g' := by
  have hplace {i i' : Nat} (hi : i / 2 = g) (hi' : i' / 2 = g') : Reg.VSE_GEN_STATE.place die i ≠ Reg.VSE_GEN_STATE.place die' i' := by
    rintro heq
    have hdie : die = die' := congrArg Loc.die heq
    have hidx : i = i' := congrArg Loc.idx heq
    omega
  simp only [State.genWords, State.setGen, State.moduleNo, State.setWord_regs,
    State.get_setWord_reg (f := F.VSE_GEN_SEED.SEED) (r := .VSE_GEN_STATE) (by decide),
    State.get_setWord_reg (f := F.SEC_IDENTITY.MODULE) (r := .VSE_GEN_STATE) (by decide),
    findWord_storeWord_ne (hplace (show (2 * g) / 2 = g by omega) (show (2 * g') / 2 = g' by omega)),
    findWord_storeWord_ne (hplace (show (2 * g + 1) / 2 = g by omega) (show (2 * g') / 2 = g' by omega)),
    findWord_storeWord_ne (hplace (show (2 * g) / 2 = g by omega) (show (2 * g' + 1) / 2 = g' by omega)),
    findWord_storeWord_ne (hplace (show (2 * g + 1) / 2 = g by omega) (show (2 * g' + 1) / 2 = g' by omega))]

theorem State.drawVector_succ (s : State) (die n : Nat) : s.drawVector die (n + 1) =
    (((s.drawVector die n).1.draw die (n % 1024)).1, (s.drawVector die n).2 ++ [((s.drawVector die n).1.draw die (n % 1024)).2]) := by
  simp only [State.drawVector, List.range_succ, List.foldl_append, List.foldl_cons, List.foldl_nil]

theorem State.length_drawVector (s : State) (die n : Nat) : (s.drawVector die n).2.length = n := by
  induction n with
  | zero => rfl
  | succ n ih => simp [State.drawVector_succ, ih]

/-- Up to 1,024 draws take each generator at most one step on (R191). -/
theorem State.genWords_drawVector (s : State) (die : Nat) {n : Nat} (hn : n ≤ 1024) (g : Nat) :
    (s.drawVector die n).1.genWords die g = if g < n then (drawWords (s.genWords die g)).2 else s.genWords die g := by
  induction n with
  | zero => rfl
  | succ n ih =>
    rw [State.drawVector_succ, Nat.mod_eq_of_lt (show n < 1024 by omega)]
    have hn' := ih (by omega)
    by_cases hg : g = n
    · subst hg
      rw [if_neg (by omega)] at hn'
      rw [if_pos (by omega), ← hn']
      exact State.genWords_setGen_same _ _ _ (drawWords_lt (State.genWords_lt _ _ _))
    · refine (State.genWords_setGen_ne _ (Or.inr hg) _).trans (hn'.trans ?_)
      congr 1
      simp only [eq_iff_iff]
      omega

/-! ### Elements without a mask -/

theorem map_range_getD (l : List Nat) (d : Nat) : ((List.range l.length).map fun i => l.getD i d) = l :=
  List.ext_getElem (by simp) fun i _ hi => by simp [List.getD_eq_getElem?_getD, hi]

/-- The codes of an operation without a mask stand as they are (R192). -/
theorem maskedResult_unmasked {v : VsePayload} (h : v.masked = false) {fo : Nat} (hfo : fo ≠ 13) (mask : List Nat) (old : Bytes)
    (rs : List Rounded) : (maskedResult v fo mask old rs).1 = rs.flatMap fun r => toLE (fmtSize fo) r.code := by
  simp only [maskedResult, h, Bool.not_false, Bool.true_or, if_true, bytesOfElements, hfo, if_false]
  rw [List.flatMap_map, ← List.flatMap_map (f := Prod.fst) (g := fun r : Rounded => toLE (fmtSize fo) r.code), List.zipIdx_map_fst]

/-- What an operation without a mask writes (R192): its elements, of the codes of its streams and its draws. -/
theorem State.Performs.elements_unmasked {s a b e : State} {die cls k fo purposes : Nat} {p : BitVec 448} {formats : Bool}
    {inputs : List Stream3} {elems : List (List Nat) → List Bool → List Nat → List Rounded} {ws : List (Nat × Bytes)}
    (h : s.Performs (elementsTask die cls p formats inputs fo purposes elems) k a b ws e) (hmask : (vsePayload p).masked = false)
    (hfo : fo ≠ 13) :
    ws = [((vsePayload p).dst, (elems (inputs.map fun x =>
        elementsOf x.fmt x.n (a.spanBytes (unitId die 2 0) die s.asidOf x.va (streamBytes x.fmt x.n)))
      ((List.range (vsePayload p).n).map fun _ => true) (a.drawsFor die (vsePayload p).n (purposes != 0)).2).flatMap
        fun r => toLE (fmtSize fo) r.code)] ∧
    ∃ rs, b = (a.drawsFor die (vsePayload p).n (purposes != 0)).1.vseCount (unitId die 2 0) rs := by
  have hbody := h.body
  simp only [elementsTask, hmask, Bool.not_false, Bool.true_or, maskedResult_unmasked hmask hfo, Prod.mk.injEq, Computed.writes.injEq] at hbody
  obtain ⟨rfl, rfl⟩ := hbody
  exact ⟨rfl, _, rfl⟩

/-- What an operation without a mask writes that draws nothing. -/
theorem State.Performs.elements_plain {s a b e : State} {die cls k fo purposes : Nat} {p : BitVec 448} {formats : Bool}
    {inputs : List Stream3} {elems : List (List Nat) → List Bool → List Nat → List Rounded} {ws : List (Nat × Bytes)}
    (h : s.Performs (elementsTask die cls p formats inputs fo purposes elems) k a b ws e) (hmask : (vsePayload p).masked = false)
    (hfo : fo ≠ 13) (hdraws : purposes = 0) :
    ws = [((vsePayload p).dst, (elems (inputs.map fun x =>
        elementsOf x.fmt x.n (a.spanBytes (unitId die 2 0) die s.asidOf x.va (streamBytes x.fmt x.n)))
      ((List.range (vsePayload p).n).map fun _ => true) (List.replicate (vsePayload p).n 0)).flatMap
        fun r => toLE (fmtSize fo) r.code)] := by
  rw [(h.elements_unmasked hmask hfo).1, hdraws]
  rfl

theorem roundsRsr_eq_zero {v : VsePayload} {float : Bool} (h : v.mode = 0 ∨ float = false) : roundsRsr v float = 0 := by
  rcases h with h | h <;> simp [roundsRsr, h, b2n]

end Sys2Proof.Machine

open Sys2Proof Sys2Proof.Machine

/-- Settles O29: elements without a mask are written in order (`State.Performs.elements_unmasked`), and a vector of draws takes each
generator one step on. -/
theorem vectorElementsAreComputed : Obligations.VectorElementsAreComputed := by
  unfold Obligations.VectorElementsAreComputed
  refine ⟨?_, ?_, ?_⟩
  · intro die k p s a b e ws hc h v hmask hmode hfo codes
    refine ⟨?_, h.act_performed hc⟩
    unfold ewTask at h
    rw [h.elements_plain hmask hfo (roundsRsr_eq_zero (.inl hmode)), List.flatMap_map]
    refine congrArg (fun x => [(_, x)]) (List.flatMap_congr fun i hi => ?_)
    simp [List.mem_range.1 hi, v, codes]
  · intro die k p s a b e ws hc h v hmask hmode hfo codes
    have hdone := h.performed
    have hflt : ((s.took 1).runOp (cvtTask die p s.free)).flt = e.flt := hdone.parts .flt (by decide) (by decide)
    refine ⟨?_, _, act_eq_next (effect := fun s => (s.took 1).runOp (cvtTask die p s.free)) hc rfl (by rw [hflt, h.quiet, hc.2.2]), hdone⟩
    unfold cvtTask at h
    rw [h.elements_plain hmask hfo (roundsRsr_eq_zero (.inl hmode)), List.flatMap_map]
    refine congrArg (fun x => [(_, x)]) (List.flatMap_congr fun i hi => ?_)
    simp [List.mem_range.1 hi, v, codes, elemAt, State.asidOf]
  · intro die k p s a b e ws hc h v hmask hfunc
    have hfo : v.fo = 12 := by
      have hcheck := h.check
      by_contra hne
      simp [randTask, elementsTask, vseCheck, show (vsePayload p).func = 0 from hfunc, show (vsePayload p).fo ≠ 12 from hne] at hcheck
    have hact := h.act_performed hc
    have hdraws : (1 + b2n (v.mode == 2) != 0) = true := by simp
    unfold randTask at h
    obtain ⟨hws, rs, hb⟩ := h.elements_unmasked hmask (by rw [show (vsePayload p).fo = 12 from hfo]; decide)
    rw [hdraws] at hws hb
    refine ⟨?_, hact, fun g hn hg => ?_⟩
    · rw [hws, List.flatMap_map]
      refine congrArg (fun x => [(_, x)]) ?_
      have hlist := map_range_getD (a.drawVector die v.n).2 0
      rw [State.length_drawVector] at hlist
      conv_rhs => rw [← hlist]
      rw [List.flatMap_map]
      simp [v, hfunc, hfo, randElement, State.drawsFor, fmtSize]
    · rw [hb, State.genWords_vseCount]
      simp only [State.drawsFor, if_true]
      rw [State.genWords_drawVector a die hn g, if_pos hg]

end

/-! # Integer scans and reductions

An inclusive scan's running sums (R203) and the sums of the lane tree (R204). -/

section

namespace Sys2Proof.Machine

/-! ### Scans -/

/-- The inclusive ADD scan of elements that are all active: at each, the sum up to it (R203). -/
theorem scanGo_add (acc : Int) (xs : List (Int × Bool × Bool)) (hon : ∀ x ∈ xs, x.2.1 = true) :
    scanGo (foldInt 0) 0 false false acc xs = (List.range xs.length).map fun i => acc + ((xs.take (i + 1)).map (·.1)).sum := by
  induction xs generalizing acc with
  | nil => rfl
  | cons x xs ih =>
    obtain ⟨v, on, flag⟩ := x
    obtain rfl : on = true := hon _ List.mem_cons_self
    simp [scanGo, foldInt, ih (acc + v) (fun y hy => hon y (List.mem_cons_of_mem _ hy)), List.range_succ_eq_map, Function.comp_def, add_assoc]

/-! ### Streams of signed 32-bit integers -/

theorem streamBytes_int32 (n : Nat) : streamBytes 9 n = 4 * n := Nat.mul_comm n 4

/-- An element of a stream of signed 32-bit integers. -/
theorem int32_getD {n i : Nat} (h : i < n) (data : Bytes) :
    intDecode 9 ((elementsOf 9 n data).getD i 0) = signed 32 (fieldAt data (4 * i) 4) := by
  have hcode : (elementsOf 9 n data).getD i 0 = fieldAt data (4 * i) 4 := by
    simp [elementsOf, h, fmtSize, Nat.mul_comm i 4]
  rw [hcode]
  rfl

theorem intEncode_int32 (x : Int) : intEncode 9 false x = unsigned 32 x := rfl

/-! ### The lane tree -/

/-- One level of the tree keeps the sum and halves the lanes. -/
theorem sum_pairs (xs : List Int) : (laneTree.pairs (foldInt 0) xs).sum = xs.sum := by
  induction xs using laneTree.pairs.induct with
  | case1 a b rest ih => simp [laneTree.pairs, foldInt, ih, add_assoc]
  | case2 rest h => rw [laneTree.pairs.eq_2 _ _ h]

theorem length_pairs {n : Nat} {xs : List Int} (h : xs.length = 2 * n) : (laneTree.pairs (foldInt 0) xs).length = n := by
  induction n generalizing xs with
  | zero =>
    obtain rfl := List.length_eq_zero_iff.1 h
    rfl
  | succ n ih =>
    match xs, h with
    | a :: b :: rest, h => simp [laneTree.pairs, ih (xs := rest) (by simp at h; omega)]

/-- The tree over `2 ^ j` lanes leaves their sum. -/
theorem laneTree_add {j : Nat} {xs : List Int} (h : xs.length = 2 ^ j) : laneTree (foldInt 0) j xs = [xs.sum] := by
  induction j generalizing xs with
  | zero =>
    obtain ⟨a, rfl⟩ := List.length_eq_one_iff.1 h
    simp [laneTree]
  | succ j ih => rw [laneTree, ih (length_pairs (by rw [h, pow_succ]; omega)), sum_pairs]

theorem sum_modify {l : List Int} {k : Nat} (h : k < l.length) (x : Int) : (l.modify k fun a => a + x).sum = l.sum + x := by
  induction l generalizing k with
  | nil => simp at h
  | cons a l ih =>
    cases k with
    | zero => simp only [List.modify_zero_cons, List.sum_cons]; ring
    | succ k => rw [List.modify_succ_cons, List.sum_cons, ih (by simpa using h), List.sum_cons, add_assoc]

/-- The lane partials add up to the elements. -/
theorem sum_partials {lanes : Nat} (hl : 0 < lanes) (xs : List (Int × Nat)) (ps : List Int) (hps : ps.length = lanes) :
    (xs.foldl (fun ps x => ps.modify (x.2 % lanes) fun a => foldInt 0 a x.1) ps).length = lanes ∧
    (xs.foldl (fun ps x => ps.modify (x.2 % lanes) fun a => foldInt 0 a x.1) ps).sum = ps.sum + (xs.map (·.1)).sum := by
  induction xs generalizing ps with
  | nil => simp [hps]
  | cons x xs ih =>
    obtain ⟨hlen, hsum⟩ := ih (ps.modify (x.2 % lanes) fun a => foldInt 0 a x.1) (by simp [hps])
    refine ⟨hlen, hsum.trans ?_⟩
    rw [show (fun a => foldInt 0 a x.1) = fun a => a + x.1 from rfl, sum_modify (by rw [hps]; exact Nat.mod_lt _ hl)]
    simp [add_assoc]

/-- A group's sum does not depend on the order of R204. -/
theorem reduceGroup_add {lanes : Nat} (h : ∃ j, lanes = 2 ^ j) (xs : List Int) : reduceGroup (foldInt 0) 0 lanes xs = xs.sum := by
  obtain ⟨j, rfl⟩ := h
  obtain ⟨hlen, hsum⟩ := sum_partials (Nat.two_pow_pos j) xs.zipIdx (List.replicate (2 ^ j) 0) (by simp)
  simp only [reduceGroup, Nat.log2_two_pow, laneTree_add hlen, hsum, List.zipIdx_map_fst]
  simp

end Sys2Proof.Machine

open Sys2Proof Sys2Proof.Machine

/-- Settles O30: the scan's elements are the sums of the prefixes (`scanGo_add`), and the lane tree adds up its group
(`reduceGroup_add`). -/
theorem scansAndReductionsSum : Obligations.ScansAndReductionsSum := by
  unfold Obligations.ScansAndReductionsSum
  constructor
  · intro die k p s a b e ws hc h v hmask hfunc hfa hfo hsat x
    refine ⟨?_, h.act_performed hc⟩
    change (vsePayload p).func = 0 at hfunc
    change (vsePayload p).fa = 9 at hfa
    change (vsePayload p).fo = 9 at hfo
    change (vsePayload p).sat = false at hsat
    unfold scanTask at h
    rw [h.elements_plain hmask (by rw [hfo]; decide) (roundsRsr_eq_zero (.inr (by rw [hfa]; rfl)))]
    simp only [hfunc, hfa, hfo, hsat, show isFloat 9 = false from rfl, show bit 0 2 = false from rfl, show bit 0 3 = false from rfl,
      show identityInt (0 % 4) 9 = 0 from rfl, show fmtSize 9 = 4 from rfl, Nat.zero_mod, Bool.false_eq_true, if_false, List.append_nil,
      List.map_cons, List.map_nil, streamBytes_int32, intEncode_int32]
    rw [scanGo_add 0 _ (by simp +contextual), List.length_map, List.length_range, List.map_map, List.flatMap_map]
    refine congrArg (fun x => [(_, x)]) (List.flatMap_congr fun i hi => ?_)
    have hi' := List.mem_range.1 hi
    simp only [Function.comp_apply, ← List.map_take, List.take_range, Nat.min_eq_left (show i + 1 ≤ (vsePayload p).n from hi'),
      List.map_map, Int.zero_add]
    refine congrArg (fun l : List Int => toLE 4 (unsigned 32 l.sum)) (List.map_congr_left fun e he => ?_)
    exact int32_getD (by have := List.mem_range.1 he; omega) _
  · intro die k p s a b e ws hc h v hmask hfunc hfa hfo hsat hmode hlanes x
    refine ⟨?_, h.act_performed hc⟩
    change (vsePayload p).func = 0 at hfunc
    change (vsePayload p).fa = 9 at hfa
    change (vsePayload p).fo = 9 at hfo
    change (vsePayload p).sat = false at hsat
    change (vsePayload p).mode = 0 at hmode
    have hbody := h.body
    simp only [reduceTask, show (vsePayload p).masked = false from hmask, hfunc, hfa, hfo, hsat, hmode, show isFloat 9 = false from rfl,
      show reduceOp 0 = 0 from rfl, show identityInt 0 9 = 0 from rfl, Bool.and_false, Bool.not_false, Bool.true_or, if_true,
      Bool.false_eq_true, if_false, Prod.mk.injEq, Computed.writes.injEq, intEncode_int32, State.drawsFor,
      reduceGroup_add hlanes] at hbody
    rw [← hbody.2, show (if (vsePayload p).glen = 0 then 0 else (vsePayload p).n / (vsePayload p).glen) =
      (vsePayload p).n / (vsePayload p).glen by split <;> simp [*]]
    simp only [bytesOfElements, show ¬ (9 : Nat) = 13 by decide, if_false, List.map_map, List.flatMap_map, show fmtSize 9 = 4 from rfl,
      Stream3.span, streamBytes_int32]
    refine congrArg (fun x => [(_, x)]) (List.flatMap_congr fun g hg => congrArg (fun l : List Int => toLE 4 (unsigned 32 l.sum)) ?_)
    refine List.map_congr_left fun i hi => ?_
    have hgroup : i + g * (vsePayload p).glen < (vsePayload p).n := by
      have hmul := Nat.mul_le_mul_right (vsePayload p).glen (List.mem_range.1 hg)
      have hdiv := Nat.div_mul_le_self (vsePayload p).n (vsePayload p).glen
      have hi' := List.mem_range.1 hi
      rw [Nat.succ_mul] at hmul
      omega
    refine (int32_getD hgroup _).trans ?_
    rw [Nat.add_comm i]

end

/-! # Flushes, generator writes and late sectors

An operation's first error status in a calm module, as the unit's registers show it (R101, R186), and the commands of R212, R221, R251
and R252. -/

section

namespace Sys2Proof.Machine

/-! ### A first error status -/

/-- The error status of an operation whose unit has recorded none: the unit's registers hold it. -/
theorem State.failOp_first {s : State} {u k cause : Nat} {kind : ErrorKind} {more : State → State} {K : Touch} {e : ErrRegs}
    (he : errRegs u = some e) (hev : s.on e.event (unitDie u) e.idx = false)
    (hk : k < (s.unit u).ops.length) (ha : (s.opAt u k).ahead = false) (hc : s.Calm 1) (hmore : ∀ t, Frame K t (more t))
    (hK : Touch.sub ⟨[], errorRegs, false⟩ K = true ∧ K.any = false ∧
      (∀ p ∈ [Part.fatal, .sched], p ∉ K.parts) ∧ ∀ r ∈ [Reg.FLT_HABOOB, .FLT_RATE], r ∉ K.regs := by decide +kernel) :
    s.Fails (more ((((s.flag e.event (unitDie u) e.idx).put e.segment (s.opAt u k).segment (unitDie u) e.idx).put e.opclass
      (s.opAt u k).opclass (unitDie u) e.idx).put e.cause cause (unitDie u) e.idx)) (s.failOp u k cause kind more) u k := by
  exact State.recordError_of_clear he hev _ _ cause more ▸ State.failOp_spec hk ha hc hmore hK

/-- The registers of a decoder's errors (R258). -/
theorem errRegs_decoder {u block : Nat} (h : Instr.wf (.codecInputTimeout u block) = true) : errRegs u =
    some ⟨F.CDC_EVENTS.OP_ERROR, F.CDC_ERROR.SEGMENT, F.CDC_ERROR.OPCLASS, F.CDC_ERROR.CAUSE, 0⟩ := by
  simp only [Instr.wf, isComputeUnit, isFabricUnit, Bool.or_eq_true, Bool.and_eq_true, List.contains_eq_mem, List.mem_singleton,
    decide_eq_true_eq] at h
  rcases h with ⟨⟨-, hdie⟩, htype⟩ | ⟨⟨⟨-, hdie⟩, htype⟩, -⟩
  · simp [errRegs, hdie, htype]
  · have hnot : isCompute (unitDie u) = false := by
      simp only [isFabric, isCompute, Bool.and_eq_true, decide_eq_true_eq, decide_eq_false_iff_not] at hdie ⊢
      omega
    simp [errRegs, hdie, htype, hnot]

/-- What FLUSH does (R221). -/
def State.flush (s : State) (u : Nat) : State :=
  if !s.unitFree u then s
  else
    let (s, k) := s.takeClass u 0x17
    if s.earlierDone u k [0x10, 0x11, 0x12, 0x13, 0x14, 0x15, 0x16, 0x20] then s.finishOp u k (s.writesUnderWay u) 0 else s

theorem State.flush_found {s : State} {u k : Nat} (hfree : s.unitFree u = true) (hk : s.findClass u 0x17 = some k) : s.flush u =
    if s.earlierDone u k [0x10, 0x11, 0x12, 0x13, 0x14, 0x15, 0x16, 0x20] then s.finishOp u k (s.writesUnderWay u) 0 else s := by
  simp only [State.flush, State.takeClass, hk, hfree, Bool.not_true, Bool.false_eq_true, if_false]

/-- What a sector that comes too late does (R252). -/
def State.lateSector (s : State) (die : Nat) : State :=
  match lookupKey die s.codec.late with
  | some (n + 1) =>
    (s.onCodec fun c => { c with late := if n = 0 then dropKey die c.late else setKey die n c.late }).bump F.CDC_LATE.VALUE 1 die
  | _ => s

/-- What the end of the wait for a DECODE's input does (R251). -/
def State.inputTimeout (s : State) (u block : Nat) : State :=
  match s.decodeOf u block with
  | none => s
  | some k =>
    let o := s.opAt u k
    let (s, n) := s.lateSectors u k
    let s := s.onCodec fun c => { c with late := setKey (unitDie u) ((lookupKey (unitDie u) c.late).getD 0 + n) c.late }
    let s := if o.ahead then s
      else s.spoil (unitDie u) s.asidOf (fieldAt o.payload 0 8 + 4096 * (block - fieldAt o.payload 16 4)) 4096
    s.failOp u k 8 .operation (cdcAt u block)

/-- A DECODE that times out fails in a module whose registers and schedule its late sectors have left alone. -/
theorem State.inputTimeout_found {s : State} {u block k : Nat} (hk : s.decodeOf u block = some k) (ha : (s.opAt u k).ahead = false) :
    ∃ t, Frame ⟨[.rem, .codec, .fresh, .mem], [], false⟩ s t ∧ s.inputTimeout u block = t.failOp u k 8 .operation (cdcAt u block) := by
  unfold State.inputTimeout
  simp only [hk, ha, Bool.false_eq_true, if_false]
  exact ⟨_, (((State.lateSectors_frame s u k).mono (by decide +kernel)).step (State.onCodec_frame _ _)).step
    (State.spoil_frame _ _ _ _ _), rfl⟩

theorem cdcAt_touch (u block : Nat) (s : State) : Frame ⟨[], [.CDC_ERROR], false⟩ s (cdcAt u block s) :=
  (s.put_touch F.CDC_ERROR.BLOCK _ _ _).trans (State.put_touch _ F.CDC_ERROR.UNIT _ _ _)

/-! ### Writes to generators -/

theorem halfWrite_lt {old : Nat} (h : old < 2 ^ 64) (half v : Nat) : halfWrite old half v < 2 ^ 64 := by
  unfold halfWrite
  split
  · exact putBits_lt h (by decide)
  · exact putBits_lt h (by decide)
  · exact Nat.mod_lt _ (by decide)

end Sys2Proof.Machine

open Sys2Proof Sys2Proof.Machine

/-- Settles O31: by the cases of each effect; a DECODE that times out fails in a module whose schedule its late sectors leave alone. -/
theorem flushGeneratorsAndLateSectors : Obligations.FlushGeneratorsAndLateSectors := by
  unfold Obligations.FlushGeneratorsAndLateSectors
  refine ⟨?_, ?_, ?_, ?_⟩
  · intro s u k hr hfree hk before
    have heff := State.flush_found hfree hk
    refine ⟨fun hdone htags => ?_, fun hearly => exec_eq_next (effect := fun s => s.flush u) hr rfl (by simp [heff, hearly, before])⟩
    rw [if_pos hdone] at heff
    refine ⟨_, exec_eq_next (effect := fun s => s.flush u) hr rfl heff rfl, ?_, ?_, fun p hp => ?_⟩
    · simp only [State.finishOp, State.opAt_onOp _ (length_of_findIdx hk), List.isEmpty_iff]
    · simp only [State.finishOp, State.opAt_onOp _ (length_of_findIdx hk), htags, List.nil_append]
    · exact (State.finishOp_frame ..).parts p (by simpa using hp)
  · intro s die idx half v hr old new
    have hset := State.genWords_setGen_same s die (idx / 2) (w := new) (by
      have hold := s.genWords_lt die (idx / 2)
      simp only [new]
      split
      · exact ⟨halfWrite_lt hold.1 _ _, hold.2⟩
      · exact ⟨hold.1, halfWrite_lt hold.2 _ _⟩)
    have hpair : (new.1 = 0 ∧ new.2 = 0) ↔ new = (0, 0) := (Prod.ext_iff (x := new) (y := (0, 0))).symm
    refine ⟨fun hst => ?_, fun h1 h2 hz => ?_, fun h1 h2 hz => ?_⟩
    · exact exec_eq_next (effect := fun s => s.genWrite die idx half v) hr rfl (by simp [State.genWrite, hst]) rfl
    · refine exec_eq_next (effect := fun s => s.genWrite die idx half v) hr rfl ?_ rfl
      simp only [State.genWrite, h1, h2, beq_iff_eq, Bool.or_eq_true, or_self, if_false]
      exact if_pos (hpair.2 hz)
    · refine ⟨_, exec_eq_next (effect := fun s => s.genWrite die idx half v) (t := s.setGen die (idx / 2) new) hr rfl ?_ rfl, hset,
        fun d g hne => State.genWords_setGen_ne _ hne _, fun p => (State.setGen_frame _ _ _ _).parts p List.not_mem_nil⟩
      simp only [State.genWrite, h1, h2, beq_iff_eq, Bool.or_eq_true, or_self, if_false]
      exact if_neg fun h => hz (hpair.1 h)
  · intro s die n hr
    refine ⟨fun hlate => ?_, fun hnone => exec_eq_next (effect := fun s => s.lateSector die) hr rfl (by simp only [State.lateSector, hnone])⟩
    have heff : s.lateSector die = (s.onCodec fun c => { c with late := if n = 0 then dropKey die c.late else setKey die n c.late }).bump
        F.CDC_LATE.VALUE 1 die := by simp only [State.lateSector, hlate]
    refine Completes.of_alters (effect := fun s => s.lateSector die) hr rfl ?_ ?_
    · rw [heff]
      exact ((State.Alters.refl s).frame (State.onCodec_frame _ _) ⟨rfl, rfl⟩ (by simp)).put (by simp) rfl
    · rw [heff, State.get_bump_same _ _ _ _ _ (by decide)]
      rfl
  · intro s u block hr
    refine ⟨fun hnone => exec_eq_next (effect := fun s => s.inputTimeout u block) hr rfl (by simp only [State.inputTimeout, hnone]),
      fun k hk ha hcalm hev => ?_⟩
    obtain ⟨t, hlate, heff⟩ := State.inputTimeout_found hk ha
    have hsched : t.sched = s.sched := hlate.sched_eq
    have hop := State.opAt_congr hsched u k
    obtain ⟨hcalm', hfatal⟩ := State.Spares.of_frame (n := 0) hlate (by decide) 1 ((State.Calm.of_calm hcalm).mono (by decide))
    have hfails := State.failOp_first (K := ⟨[], errorRegs, false⟩) (cause := 8) (kind := .operation) (more := cdcAt u block)
      (errRegs_decoder hr.1) (by rw [hlate.on_eq _ _ _]; exact hev) (by rw [State.unit_congr hsched]; exact length_of_findIdx hk)
      (by rw [hop]; exact ha) hcalm' (fun t => (cdcAt_touch u block t).mono (by decide +kernel))
    refine ⟨_, exec_eq_next (effect := fun s => s.inputTimeout u block) hr rfl heff (hfails.fatal.trans hfatal), hfails.failed, ?_, ?_⟩
    · rw [hfails.get _ (by decide)]
      simp (disch := decide) [cdcAt, State.get_put_same, State.get_put_apart]
    · rw [hfails.get _ (by decide)]
      simp (disch := decide) [cdcAt, State.get_put_same, State.get_put_apart]

end

/-! # Verdicts and bank switches

The verdict of a step (R335), and the arming and the taking effect of a bank switch (R315, R316). -/

section

namespace Sys2Proof.Machine

/-- The norm of a judged sum of squares, and the verdict it gives (R335). -/
theorem State.judge_spec (s : State) (x : Nat) :
    (s.judge x).1.get F.UPD_NORM.NORM = normOf s.lossExp x % 2 ^ 32 ∧ (s.judge x).1.verdict =
      if (of32 x).isFin = true ∧ (of32 (s.get F.UPD_NORM_CEIL.VALUE)).lt (of32 (normOf s.lossExp x)) = false then 1 else 2 := by
  unfold State.judge
  extract_lets norm ceil cn s' clip
  by_cases h : (of32 x).isFin = true ∧ (of32 ceil).lt (of32 norm) = false
  · rw [if_pos h, if_neg (by simp [h.1, h.2])]
    constructor <;> simp (disch := decide) [State.verdict, s', norm, State.get_put_same, State.get_put_apart, State.get_put_reg]
  · rw [if_neg h, if_pos (by simpa [-not_and, not_and_or] using h)]
    constructor <;> simp (disch := decide) [State.verdict, s', norm, State.get_put_same, State.get_put_reg]

/-- What NCHK leaves with a verdict word of 0 (R335). -/
theorem State.Performs.nchk {s a b e : State} {die k : Nat} {p : BitVec 192} {ws : List (Nat × Bytes)}
    (h : s.Performs (nchkTask die p) k a b ws e) : ∃ f : Fld, f.reg = .UPD_EVENTS ∧
      (b = (a.judge (leN (a.spanBytes (unitId die 7 0) die s.asidOf (pay p 0 8) 4))).1 ∨
        b = (a.judge (leN (a.spanBytes (unitId die 7 0) die s.asidOf (pay p 0 8) 4))).1.flag f die) ∧ ws = [] := by
  have hbody := h.body
  simp only [nchkTask] at hbody
  split at hbody
  · simp at hbody
  · simp only [Prod.mk.injEq, Computed.writes.injEq] at hbody
    obtain ⟨rfl, rfl⟩ := hbody
    refine ⟨F.UPD_EVENTS.SKIPPED, rfl, ?_, rfl⟩
    split
    · exact .inr rfl
    · exact .inl rfl

theorem State.Performed.get {e t : State} {u k : Nat} (h : e.Performed t u k) (f : Fld) (d i : Nat) : t.get f d i = e.get f d i :=
  State.get_congr h.regs f d i

/-- A bank switch that takes effect (R315, R419). -/
theorem State.switchBank_armed {s : State} {die : Nat} (harmed : s.on F.VRT_BANK.ARMED die = true)
    (hdue : tickReached (s.now die) (s.get F.VRT_ARM_TICK.TICK die) = true) : s.switchBank die =
      ((((s.put F.VRT_BANK.CURRENT (s.get F.VRT_BANK.ARM_BANK die) die).put F.VRT_BANK.ARMED 0 die).showRouting).checkJoined) := by
  rw [State.switchBank, harmed, hdue]
  rfl

end Sys2Proof.Machine

open Sys2Proof Sys2Proof.Machine

/-- Settles O32: the verdict by `State.judge_spec`, the arming and the switch by the fields that they write. -/
theorem verdictsAndBankSwitchesFollowTheirRules : Obligations.VerdictsAndBankSwitchesFollowTheirRules := by
  unfold Obligations.VerdictsAndBankSwitchesFollowTheirRules
  refine ⟨?_, ?_, ?_⟩
  · intro die k p s a b e ws hc h x norm
    obtain ⟨t, ht, hdone⟩ := h.act_performed hc
    obtain ⟨f, hf, hb, hws⟩ := h.nchk
    obtain rfl := h.eq_of_no_writes hws
    have hget (g : Fld) (hg : g.reg ≠ .UPD_EVENTS) : t.get g = (a.judge x).1.get g := by
      rw [hdone.get]
      rcases hb with rfl | rfl
      · rfl
      · exact State.get_put_reg (by rw [hf]; exact Ne.symm hg)
    obtain ⟨hnorm, hverdict⟩ := a.judge_spec x
    exact ⟨t, ht, hdone.done, (hget _ (by decide)).trans hnorm, (hget _ (by decide)).trans hverdict⟩
  · intro die k p s a b e ws hc h
    obtain ⟨t, ht, hdone⟩ := h.act_performed hc
    obtain ⟨rfl, rfl⟩ := h.body_eq rfl
    obtain rfl := h.eq_of_no_writes rfl
    have hfound : s.findOp (unitId die 2 0) 0x44 (bytesOf p) = some k := h.found
    refine ⟨t, ht, hdone.done, ?_, ?_, ?_⟩
    · rw [State.on, hdone.get]
      simp (disch := decide) [State.flag, State.get_put_same, State.get_put_apart, State.get_put_reg]
    · rw [hdone.get, State.get_put_reg (by decide), State.get_put_same _ _ _ _ _ (by decide)]
      exact Nat.mod_eq_of_lt (bits_lt _ _ _)
    · rw [hdone.get, State.get_put_same _ _ _ _ _ (by decide)]
      dsimp only
      rw [hfound]
      exact Nat.mod_eq_of_lt (Nat.mod_lt _ (by decide))
  · intro s die hr
    refine ⟨fun harmed hdue => ?_, fun hoff => exec_eq_next (effect := fun s => s.switchBank die) hr rfl (by
      rcases hoff with h | h <;> simp [State.switchBank, h])⟩
    have heff := State.switchBank_armed harmed hdue
    have hget (g : Fld) (hg : g.reg = .VRT_BANK) (hg' : g.lo + g.len ≤ 7 ∨ 8 ≤ g.lo) (d : Nat) : (s.switchBank die).get g d =
        ((s.put F.VRT_BANK.CURRENT (s.get F.VRT_BANK.ARM_BANK die) die).put F.VRT_BANK.ARMED 0 die).get g d := by
      rw [heff, State.get_checkJoined _ (by rw [hg]; decide), State.get_showRouting _ (.inr hg')]
    have hcurrent : (s.switchBank die).get F.VRT_BANK.CURRENT die = s.get F.VRT_BANK.ARM_BANK die := by
      rw [hget _ rfl (by decide), State.get_put_apart (by decide) (by decide), State.get_put_same _ _ _ _ _ (by decide)]
      exact Nat.mod_eq_of_lt (s.get_lt F.VRT_BANK.ARM_BANK die 0)
    have hvalid (d : Nat) : ((s.put F.VRT_BANK.CURRENT (s.get F.VRT_BANK.ARM_BANK die) die).put F.VRT_BANK.ARMED 0 die).get
        F.VRT_BANK.VALID d = s.get F.VRT_BANK.VALID d := by
      rw [State.get_put_apart (by decide) (by decide), State.get_put_apart (by decide) (by decide)]
    refine ⟨_, exec_eq_next (effect := fun s => s.switchBank die) hr rfl rfl ((State.switchBank_frame s die).fatal_eq), ?_, hcurrent,
      fun d hd => ?_, fun d hd => ?_⟩
    · rw [State.on, hget _ rfl (by decide), State.get_put_same _ _ _ _ _ (by decide)]
      rfl
    · rw [hget _ rfl (by decide), State.get_put_die rfl (Ne.symm hd), State.get_put_die rfl (Ne.symm hd)]
    · rw [hget F.VRT_BANK.CURRENT rfl (by decide), heff, State.on, State.get_checkJoined _ (by decide), ← State.on,
        State.on_showRouting _ hd, hvalid]
      rfl

end

/-! # COMMIT and the digests

A COMMIT that skips, waits, commits, diverges or times out (R333, R350, R351). -/

section

namespace Sys2Proof.Machine

/-! ### An operation that ends with an error status -/

/-- An error status leaves all of the schedule but the units' own states. -/
theorem State.failOp_schedStands {s : State} {u k : Nat} (ha : (s.opAt u k).ahead = false) (cause : Nat) (kind : ErrorKind)
    {more : State → State} {K : Touch} (hmore : ∀ t, Frame K t (more t))
    (hK : Touch.sub ⟨[], errorRegs, false⟩ K = true ∧ Part.sched ∉ K.parts := by decide +kernel) :
    s.SchedStands (s.failOp u k cause kind more) := by
  unfold State.failOp
  extract_lets o recorded failed
  rw [if_neg (by simp [o, ha])]
  have hrec : Frame K s recorded := State.recordError_frame _ _ _ _ _ _ hK.1 hmore
  have hfailed : s.SchedStands failed := ((State.SchedStands.of_sched (hrec.sched_eq hK.2)).onUnit u _).onUnit u _
  split
  · exact hfailed.trans (State.faultOf_schedStands _ _ _ _)
  · exact hfailed.trans (State.faultOf_schedStands _ _ _ _)

/-- An error status makes one record. -/
theorem State.failOp_spares (s : State) (u k cause : Nat) (kind : ErrorKind) {more : State → State} {K : Touch}
    (hmore : ∀ t, Frame K t (more t))
    (hK : Touch.sub ⟨[], errorRegs, false⟩ K = true ∧ K.any = false ∧
      Part.fatal ∉ K.parts ∧ Reg.FLT_HABOOB ∉ K.regs ∧ Reg.FLT_RATE ∉ K.regs := by decide +kernel) :
    State.Spares 1 s (s.failOp u k cause kind more) := by
  unfold State.failOp
  extract_lets o recorded failed
  have hrec : Frame K s recorded := State.recordError_frame _ _ _ _ _ _ hK.1 hmore
  have hfailed : State.Spares 0 s failed :=
    ((State.Spares.of_frame hrec hK.2).step (State.onOp_frame _ _ _ _)).step (State.onUnit_frame _ _ _)
  refine State.Spares.ite (.of_frame (State.onOp_frame _ _ _ _)) ?_
  split
  · exact hfailed.trans (State.faultOf_spares _ _ _ _)
  · exact hfailed.trans (State.faultOf_spares _ _ _ _)

theorem State.inStep_of_schedStands {s t : State} (h : s.SchedStands t) (hin : s.inStep) : t.inStep := by
  unfold State.inStep at *
  rw [h]
  exact hin

/-! ### The update unit -/

theorem unitDie_upd {d : Nat} (hd : isCompute d = true) : unitDie (unitId d 7 0) = d := by
  have : d < 64 := by simpa [isCompute] using hd
  simp only [unitId, unitDie]
  omega

theorem errRegs_upd {d : Nat} (hd : isCompute d = true) : errRegs (unitId d 7 0) =
    some ⟨F.UPD_EVENTS.OP_ERROR, F.UPD_ERROR.SEGMENT, F.UPD_ERROR.OPCLASS, F.UPD_ERROR.CAUSE, 0⟩ := by
  have htype : unitType (unitId d 7 0) = 7 := by
    have : d < 64 := by simpa [isCompute] using hd
    simp only [unitId, unitType]
    omega
  simp [errRegs, unitDie_upd hd, hd, htype]

/-- An update operation that ends with an error status, the unit's first, in a calm module. -/
theorem State.failUpd_spec {s : State} {d k cause : Nat} (hd : isCompute d = true) (hk : k < (s.unit (unitId d 7 0)).ops.length)
    (ha : (s.opAt (unitId d 7 0) k).ahead = false) (hc : s.Calm 1) (hev : s.on F.UPD_EVENTS.OP_ERROR d = false) :
    s.Fails (s.recordError (unitId d 7 0) (s.opAt (unitId d 7 0) k).segment (s.opAt (unitId d 7 0) k).opclass cause id)
      (s.failOp (unitId d 7 0) k cause .operation) (unitId d 7 0) k ∧
    (s.failOp (unitId d 7 0) k cause .operation).get F.UPD_ERROR.CAUSE d = cause % 256 := by
  have hfails := State.failOp_spec (K := ⟨[], errorRegs, false⟩) (cause := cause) (kind := .operation) (more := id) hk ha hc
    fun t => Frame.refl t
  refine ⟨hfails, ?_⟩
  rw [hfails.get _ (by decide), State.recordError_of_clear (errRegs_upd hd) (by rwa [unitDie_upd hd]), unitDie_upd hd, id]
  exact State.get_put_same _ _ _ _ _ (by decide)

/-! ### The digests of an update -/

/-- What the digests show depends on memory, the update's number, the state table and the peers that are ignored. -/
theorem State.digests_congr {s t : State} (hmem : t.mem = s.mem)
    (hget : ∀ f : Fld, f.reg ∈ [Reg.UPD_UNUM, .UPD_STATE_BASE, .UPD_PEER_IGNORE] → ∀ i, t.get f 0 i = s.get f 0 i) :
    t.digests = s.digests := by
  have hbytes (a n : Nat) : t.bytes a n = s.bytes a n := by simp only [State.bytes, State.byte, hmem]
  have htable : t.stateTable = s.stateTable := by rw [State.stateTable, State.stateTable, hget _ (by decide)]
  have hshards : t.shards = s.shards := by
    have hshard : t.shard = s.shard := funext fun d => by simp only [State.shard, hbytes, htable]
    simp only [State.shards, State.shardCount, hbytes, htable, hshard]
  have hledger : t.ledgerAt = s.ledgerAt := funext fun d => funext fun j => by simp only [State.ledgerAt, hbytes]
  have hignores : t.ignoresPeer = s.ignoresPeer := funext fun p => by
    simp only [State.ignoresPeer, State.on, hget F.UPD_PEER_IGNORE.VALID (by decide), hget F.UPD_PEER_IGNORE.ERG (by decide),
      hget F.UPD_PEER_IGNORE.MODULE (by decide)]
  have hwaited : t.waitedPeers = s.waitedPeers := funext fun d => by simp only [State.waitedPeers, hignores]
  unfold State.digests
  rw [hshards, hledger, hwaited, hget _ (by decide)]

/-- A waiting COMMIT whose digests do not differ waits on. -/
theorem State.checkDigests_of_not_differ {s : State} (h : ∀ key own peer p, s.digests ≠ .differ key own peer p) : s.checkDigests = s := by
  unfold State.checkDigests
  split
  · rfl
  · split
    · rename_i hd
      exact absurd hd (h _ _ _ _)
    · rfl

theorem State.on_commitWait_endWait (s : State) : s.endWait.on F.UPD_STATUS.COMMIT_WAIT = false := by
  rw [State.on, State.endWait, State.get_put_same _ _ _ _ _ (by decide)]
  rfl

/-- An error status of the update unit leaves the divergence that was recorded. -/
theorem State.get_recordError_upd (s : State) (segment opclass cause : Nat) {f : Fld}
    (hf : f = F.UPD_EVENTS.DIVERGE ∨ f = F.UPD_DIVERGE.VALID ∨ f = F.UPD_DIVERGE.KEY) :
    (s.recordError updLd00 segment opclass cause id).get f = s.get f := by
  simp only [State.recordError, show errRegs updLd00 = _ from errRegs_upd (d := 0) rfl]
  split
  · rfl
  · rcases hf with rfl | rfl | rfl <;>
      simp (disch := decide) [State.flag, State.get_put_apart, State.get_put_reg]

/-! ### A divergence -/

/-- A divergence as it is recorded, and COMMIT's wait ended (R350, R355). -/
def State.recordDiverge (s : State) (key own peer : Nat) (p : Peer) : State :=
  let s := ((s.flag F.UPD_DIVERGE.VALID).put F.UPD_DIVERGE.PEER (p.erg <<< 12 + p.module)).put F.UPD_DIVERGE.KEY key
  let s := ((s.put F.UPD_DIVERGE_OWN.DIGEST own).put F.UPD_DIVERGE_PEER.DIGEST peer).put F.UPD_DIVERGE_STEP.STEP
    (s.get F.SCH_STEP.STEP)
  (s.flag F.UPD_EVENTS.DIVERGE).endWait

theorem State.recordDiverge_frame (s : State) (key own peer : Nat) (p : Peer) :
    Frame ⟨[.upd], [.UPD_DIVERGE, .UPD_DIVERGE_OWN, .UPD_DIVERGE_PEER, .UPD_DIVERGE_STEP, .UPD_EVENTS, .UPD_STATUS], false⟩ s
      (s.recordDiverge key own peer p) :=
  (((((((((Frame.refl s).step (s.put_touch F.UPD_DIVERGE.VALID _ _ _)).step (State.put_touch _ F.UPD_DIVERGE.PEER _ _ _)).step
    (State.put_touch _ F.UPD_DIVERGE.KEY _ _ _)).step (State.put_touch _ F.UPD_DIVERGE_OWN.DIGEST _ _ _)).step
    (State.put_touch _ F.UPD_DIVERGE_PEER.DIGEST _ _ _)).step (State.put_touch _ F.UPD_DIVERGE_STEP.STEP _ _ _)).step
    (State.put_touch _ F.UPD_EVENTS.DIVERGE _ _ _))).step (State.endWait_frame _)

theorem State.diverge_eq {s : State} (hv : s.on F.UPD_DIVERGE.VALID = false) (k key own peer : Nat) (p : Peer) :
    s.diverge k key own peer p =
      ((((s.recordDiverge key own peer p).failOp updLd00 k 8 .operation).onOp updLd00 k fun o => { o with state := .ended }).recordHalt
        4 0).raiseBreak 7 updLd00 ((s.recordDiverge key own peer p).opAt updLd00 k).segment true := by
  unfold State.diverge
  rw [hv]
  rfl

/-- The first divergence of a step in a calm module (R350): it is recorded, and the module aborts with a halt. -/
theorem State.diverge_spec {s : State} {k key own peer : Nat} {p : Peer} (hin : s.inStep) (hcalm : s.calm)
    (hk : k < (s.unit updLd00).ops.length) (ha : (s.opAt updLd00 k).ahead = false) (hv : s.on F.UPD_DIVERGE.VALID = false)
    (hrec : s.on F.FLT_RECOVERY.VALID = false) (t : State) (ht : t = s.diverge k key own peer p) :
    t.on F.UPD_EVENTS.DIVERGE = true ∧ t.on F.UPD_DIVERGE.VALID = true ∧ t.get F.UPD_DIVERGE.KEY = key % 2 ^ F.UPD_DIVERGE.KEY.len ∧
    t.get F.FLT_RECOVERY.REASON = 4 ∧ t.sched.halt = true ∧ t.sched.st = .aborting ∧ t.get F.SCH_BREAK.CAUSE = 7 ∧
    t.flt.fatal = s.flt.fatal := by
  have hframe := s.recordDiverge_frame key own peer p
  have hevent : (s.recordDiverge key own peer p).on F.UPD_EVENTS.DIVERGE = true ∧
      (s.recordDiverge key own peer p).on F.UPD_DIVERGE.VALID = true ∧
      (s.recordDiverge key own peer p).get F.UPD_DIVERGE.KEY = key % 2 ^ F.UPD_DIVERGE.KEY.len := by
    refine ⟨?_, ?_, ?_⟩ <;> simp (disch := decide) [State.recordDiverge, State.endWait, State.on, State.flag, State.get_put_same,
      State.get_put_apart, State.get_put_reg]
  rw [State.diverge_eq hv] at ht
  generalize s.recordDiverge key own peer p = r at *
  have hsched : r.sched = s.sched := hframe.sched_eq
  have hra : (r.opAt updLd00 k).ahead = false := by rw [State.opAt_congr hsched]; exact ha
  have hspares : State.Spares 0 s r := .of_frame hframe
  have hrcalm : r.Calm 2 := (hspares 2 ((State.Calm.of_calm hcalm).mono (by decide))).1
  have hfails := State.failOp_spec (K := ⟨[], errorRegs, false⟩) (cause := 8) (kind := .operation) (more := id)
    (by rw [State.unit_congr hsched]; exact hk) hra (hrcalm.mono (by decide)) fun t => Frame.refl t
  have hstands := State.failOp_schedStands hra 8 .operation (more := id) (K := ⟨[], errorRegs, false⟩) fun t => Frame.refl t
  obtain ⟨hfcalm, hffatal⟩ := State.failOp_spares r updLd00 k 8 .operation (more := id) (K := ⟨[], errorRegs, false⟩) (fun t => Frame.refl t)
    (by decide +kernel) 1 hrcalm
  have hfget (f : Fld) (hf : f = F.UPD_EVENTS.DIVERGE ∨ f = F.UPD_DIVERGE.VALID ∨ f = F.UPD_DIVERGE.KEY) :
      (r.failOp updLd00 k 8 .operation).get f = r.get f := by
    rw [hfails.get f (by rcases hf with rfl | rfl | rfl <;> decide), State.get_recordError_upd _ _ _ _ hf]
  have hfrec : (r.failOp updLd00 k 8 .operation).on F.FLT_RECOVERY.VALID = false := by
    rw [State.on, hfails.get _ (by decide), (State.recordError_frame (K := ⟨[], errorRegs, false⟩) _ _ _ _ _ id (by decide +kernel)
      fun t => Frame.refl t).get_eq _ _ _, hframe.get_eq _ _ _]
    exact hrec
  generalize r.failOp updLd00 k 8 .operation = f at *
  have hended : f.SchedStands (f.onOp updLd00 k fun o => { o with state := .ended }) := (State.SchedStands.refl f).onUnit _ _
  have heframe : Frame ⟨[.sched], [], false⟩ f (f.onOp updLd00 k fun o => { o with state := .ended }) := State.onOp_frame _ _ _ _
  generalize (f.onOp updLd00 k fun o => { o with state := .ended }) = g at *
  have hgrec : g.on F.FLT_RECOVERY.VALID = false := by rw [heframe.on_eq _ _ _]; exact hfrec
  have hreason := (State.recordHalt_spec hgrec 4 0).1
  have hhframe : Frame ⟨[], [.FLT_RECOVERY], false⟩ g (g.recordHalt 4 0) := g.recordHalt_frame 4 0
  generalize g.recordHalt 4 0 = h at *
  have hin' : h.inStep := State.inStep_of_schedStands (((State.SchedStands.of_sched hsched).trans hstands).trans hended |>.step hhframe) hin
  have hhspares : State.Spares 0 f h := (State.Spares.of_frame (n := 0) heframe).step hhframe
  obtain ⟨hhcalm, hhfatal⟩ := hhspares 1 hfcalm
  obtain ⟨habort, hcause, hhalt, hbfatal⟩ := State.raiseBreak_first hin' hhcalm 7 updLd00 (r.opAt updLd00 k).segment true
  have hbframe : Frame ⟨abortParts, abortRegs, false⟩ h t := ht ▸ h.raiseBreak_frame 7 updLd00 (r.opAt updLd00 k).segment true
  rw [← ht] at habort hcause hhalt hbfatal
  have hget (f' : Fld) (hf : f' = F.UPD_EVENTS.DIVERGE ∨ f' = F.UPD_DIVERGE.VALID ∨ f' = F.UPD_DIVERGE.KEY) : t.get f' = r.get f' := by
    rw [hbframe.get_eq _ _ _ (by rcases hf with rfl | rfl | rfl <;> decide), hhframe.get_eq _ _ _ (by rcases hf with rfl | rfl | rfl <;> decide),
      heframe.get_eq _ _ _ List.not_mem_nil, hfget _ hf]
  refine ⟨?_, ?_, ?_, ?_, hhalt, habort.state, hcause, ?_⟩
  · rw [State.on, hget _ (.inl rfl)]; exact hevent.1
  · rw [State.on, hget _ (.inr (.inl rfl))]; exact hevent.2.1
  · rw [hget _ (.inr (.inr rfl))]; exact hevent.2.2
  · rw [hbframe.get_eq _ _ _]; exact hreason
  · rw [hbfatal, hhfatal, hffatal, hframe.fatal_eq]

/-! ### The commands -/

/-- What COMMIT does (R333, R350). -/
def State.commitOp (s : State) (die : Nat) : State :=
  let u := unitId die 7 0
  if !s.unitFree u then s
  else
    let (s, k) := s.takeClass u 0x4C
    let fail (c : Nat) : State := s.failOp u k c .operation
    if (s.opAt u k).cut then s.onOp u k fun o => { o with state := .ended }
    else if die ≠ 0 then fail 11
    else if s.verdict = 0 then fail 4
    else if s.verdict = 2 then (s.onSched fun c => { c with ending := .skipped }).finishOp u k [] 0
    else if s.shards.any fun d => !d.ok then fail 2
    else if s.shards.any fun d => (List.range d.blocks).any fun j => (s.ledgerAt d j).wtag != s.get F.UPD_UNUM.VALUE then fail 9
    else if s.upd.commitTick.isSome then s.checkDigests
    else
      let s := (s.onUpd fun x => { x with commitTick := some (s.now 0) }).put F.UPD_STATUS.COMMIT_WAIT 1
      (s.waitOp u k).checkDigests

section
variable {s : State} {die k : Nat} (hfree : s.unitFree (unitId die 7 0) = true) (hk : s.findClass (unitId die 7 0) 0x4C = some k)
  (hcut : (s.opAt (unitId die 7 0) k).cut = false)
include hfree hk hcut

theorem State.commitOp_skips (hdie : die = 0) (hv : s.verdict = 2) :
    s.commitOp die = (s.onSched fun c => { c with ending := .skipped }).finishOp (unitId die 7 0) k [] 0 := by
  subst hdie
  simp [State.commitOp, State.takeClass, hfree, hk, hcut, hv]

theorem State.commitOp_fails (h : die ≠ 0 ∨ s.verdict = 0) :
    s.commitOp die = s.failOp (unitId die 7 0) k (if die ≠ 0 then 11 else 4) .operation := by
  by_cases hdie : die = 0
  · subst hdie
    simp [State.commitOp, State.takeClass, hfree, hk, hcut, h.resolve_left (not_not.2 rfl)]
  · simp [State.commitOp, State.takeClass, hfree, hk, hcut, hdie]

theorem State.commitOp_waits (hdie : die = 0) (hv : s.verdict = 1)
    (hblocks : ∀ d ∈ s.shards, d.ok = true ∧ ∀ j, j < d.blocks → (s.ledgerAt d j).wtag = s.get F.UPD_UNUM.VALUE)
    (htick : s.upd.commitTick = none) (hdiff : ∀ key own peer p, s.digests ≠ .differ key own peer p) :
    s.commitOp die = ((s.onUpd fun x => { x with commitTick := some (s.now 0) }).put F.UPD_STATUS.COMMIT_WAIT 1).waitOp
      (unitId die 7 0) k := by
  have hok : (s.shards.any fun d => !d.ok) = false := by simpa using fun d hd => (hblocks d hd).1
  have htags : (s.shards.any fun d => (List.range d.blocks).any fun j => (s.ledgerAt d j).wtag != s.get F.UPD_UNUM.VALUE) = false := by
    simpa using fun d hd => (hblocks d hd).2
  subst hdie
  simp only [State.commitOp, State.takeClass, hfree, hk, hcut, hv, hok, htags, htick, Bool.not_true, Bool.false_eq_true, if_false, ne_eq,
    not_true_eq_false, OfNat.one_ne_ofNat, one_ne_zero, Option.isSome_none]
  refine State.checkDigests_of_not_differ fun key own peer p => ?_
  rw [State.digests_congr (t := ((s.onUpd fun x => { x with commitTick := some (s.now 0) }).put F.UPD_STATUS.COMMIT_WAIT 1).waitOp
    (unitId 0 7 0) k) (s := s) rfl fun f hf i => ?_]
  · exact hdiff key own peer p
  · exact State.get_put_reg (by rintro h; rw [← h] at hf; revert hf; decide)

end

/-- What the end of COMMIT's wait does. -/
def State.commitUpdate (s : State) : State :=
  match s.waitingCommit with
  | none => s
  | some k => match s.digests with
    | .missing => s
    | .differ key own peer p => s.diverge k key own peer p
    | .equal => (s.endWait.onSched fun c => { c with ending := .committed }).finishOp updLd00 k [] 0

theorem exec_updateCommit (s : State) : exec .updateCommit s = act .updateCommit s State.commitUpdate := by
  show execUpdateCommit s = _
  unfold execUpdateCommit
  refine act_congr ?_
  rcases hw : s.waitingCommit with _ | k
  · simp only [State.commitUpdate, hw]
  · rcases hd : s.digests <;> simp only [State.commitUpdate, hw, hd]

/-- What COMMIT's timeout does (R351). -/
def State.digestTimeout (s : State) : State :=
  match s.waitingCommit, s.upd.commitTick with
  | some k, some t =>
    if tickReached (s.now 0) (t + s.get F.UPD_DIGEST_TIMEOUT.TICKS) then s.endWait.failOp updLd00 k 7 .operation else s
  | _, _ => s

theorem State.length_of_waitingCommit {s : State} {k : Nat} (h : s.waitingCommit = some k) : k < (s.unit updLd00).ops.length := by
  unfold State.waitingCommit at h
  split at h
  · simp at h
  · exact length_of_findIdx h

end Sys2Proof.Machine

open Sys2Proof Sys2Proof.Machine
/-- Settles O33: COMMIT by its cases (`State.commitOp`), a difference by `State.diverge_spec`, the timeout by `State.failUpd_spec`. -/
theorem commitsWaitForEqualDigests : Obligations.CommitsWaitForEqualDigests := by
  unfold Obligations.CommitsWaitForEqualDigests
  refine ⟨?_, ?_, ?_⟩
  · intro s die k hr hfree hk hcut ha
    have hlen := length_of_findIdx hk
    refine ⟨fun hdie hv htags => ?_, fun hdie hv hblocks htick hdiff => ?_, fun hfail hcalm hev => ?_⟩
    · have heff := State.commitOp_skips hfree hk hcut hdie hv
      refine ⟨_, exec_eq_next (effect := fun s => s.commitOp die) hr rfl heff rfl, rfl, ?_, rfl, rfl⟩
      rw [State.finishOp, State.opAt_onOp _ (by exact hlen)]
      rfl
    · have heff := State.commitOp_waits hfree hk hcut hdie hv hblocks htick hdiff
      refine ⟨_, exec_eq_next (effect := fun s => s.commitOp die) hr rfl heff rfl, rfl, ?_, ?_, rfl, rfl⟩
      · exact State.on_flag_same (s.onUpd fun x => { x with commitTick := some (s.now 0) }) F.UPD_STATUS.COMMIT_WAIT 0 0 (by decide)
          (by decide)
      · rw [State.waitOp, State.opAt_onOp _ (by exact hlen)]
    · have heff := State.commitOp_fails hfree hk hcut hfail
      obtain ⟨hfails, hcause⟩ := State.failUpd_spec (cause := if die ≠ 0 then 11 else 4) hr.1 hlen ha
        ((State.Calm.of_calm hcalm).mono (by decide)) hev
      refine ⟨_, exec_eq_next (effect := fun s => s.commitOp die) hr rfl heff hfails.fatal, hfails.failed, hcause.trans ?_⟩
      split <;> rfl
  · intro s hr
    refine ⟨fun hstays => exec_eq_next (effect := State.commitUpdate) hr (exec_updateCommit s) ?_, fun k hk hequal htags => ?_,
      fun k key own peer p hk hdiff hin hcalm ha hv hrec => ?_⟩
    · unfold State.commitUpdate
      split
      · rfl
      · rename_i k hk
        rw [hstays.resolve_left (by simp [hk])]
    · have heff : s.commitUpdate = (s.endWait.onSched fun c => { c with ending := .committed }).finishOp updLd00 k [] 0 := by
        simp only [State.commitUpdate, hk, hequal]
      refine Completes.of_alters (effect := State.commitUpdate) hr (exec_updateCommit s) ?_ ?_
      · rw [heff]
        exact ((((State.Alters.refl s).frame (State.onUpd_frame _ _) ⟨rfl, rfl⟩ (by simp)).put (by simp) rfl).frame
          (State.onSched_frame _ _) ⟨rfl, rfl⟩ (by simp)).frame (State.finishOp_frame _ _ _ _ _) ⟨rfl, rfl⟩ (by simp)
      · rw [heff]
        refine ⟨rfl, rfl, s.on_commitWait_endWait, ?_⟩
        have hlen := State.length_of_waitingCommit hk
        rw [State.finishOp, State.opAt_onOp _ (by exact hlen)]
        rfl
    · have heff : s.commitUpdate = s.diverge k key own peer p := by simp only [State.commitUpdate, hk, hdiff]
      obtain ⟨hevent, hvalid, hkey, hreason, hhalt, hst, hcause, hfatal⟩ := State.diverge_spec hin hcalm (State.length_of_waitingCommit hk)
        ha hv hrec (s.diverge k key own peer p) rfl
      exact ⟨_, exec_eq_next (effect := State.commitUpdate) hr (exec_updateCommit s) heff hfatal, hevent, hvalid, hkey, hreason, hhalt, hst, hcause⟩
  · intro s k since hr hk hsince
    have heff : s.digestTimeout = if tickReached (s.now 0) (since + s.get F.UPD_DIGEST_TIMEOUT.TICKS) then
        s.endWait.failOp updLd00 k 7 .operation else s := by simp only [State.digestTimeout, hk, hsince]
    refine ⟨fun hsoon => exec_eq_next (effect := State.digestTimeout) hr rfl (by rw [heff, hsoon]; rfl), fun hlate hcalm ha hev => ?_⟩
    rw [hlate, if_pos rfl] at heff
    have hend := s.endWait_frame
    have hlen := State.length_of_waitingCommit hk
    obtain ⟨hfails, hcause⟩ := State.failUpd_spec (s := s.endWait) (d := 0) (cause := 7) rfl hlen ha
      ((State.Spares.of_frame (n := 0) hend (by decide) 1 ((State.Calm.of_calm hcalm).mono (by decide))).1)
      (by rw [hend.on_eq _ _ _]; exact hev)
    have hrecord : Frame ⟨[], errorRegs, false⟩ s.endWait _ := State.recordError_frame _ updLd00 (s.endWait.opAt updLd00 k).segment
      (s.endWait.opAt updLd00 k).opclass 7 id (by decide +kernel) fun t => Frame.refl t
    refine ⟨_, exec_eq_next (effect := State.digestTimeout) hr rfl heff (hfails.fatal.trans hend.fatal_eq), hfails.failed, ?_, ?_, hcause⟩
    · exact congrArg UpdSt.commitTick ((hfails.parts .upd (by decide)).trans (hrecord.parts .upd (by decide)))
    · have hget := (hfails.get F.UPD_STATUS.COMMIT_WAIT (by decide) 0 0).trans (hrecord.get_eq _ _ _)
      exact (congrArg (· != 0) hget).trans s.on_commitWait_endWait

end

/-! # Digest packets, verification and rewind

A peer's digest in its ledger entry (R349), the recomputation of blocks (R352) and the rewind of an update (R353). -/

section

namespace Sys2Proof.Machine

/-! ### Bytes that are replaced -/

theorem length_patch {bs new : Bytes} {off : Nat} (h : off + new.length ≤ bs.length) : (patch bs off new).length = bs.length := by
  simp [patch]
  omega

theorem fieldAt_patch_same {bs new : Bytes} {off : Nat} (h : off ≤ bs.length) : fieldAt (patch bs off new) off new.length = leN new := by
  have hlen : (bs.take off).length = off := by simp [h]
  rw [fieldAt, patch, List.append_assoc, List.drop_left' hlen, List.take_left' rfl]

theorem fieldAt_patch_apart {bs new : Bytes} {off i k : Nat} (h : off + new.length ≤ bs.length) (hi : i + k ≤ off ∨ off + new.length ≤ i) :
    fieldAt (patch bs off new) i k = fieldAt bs i k := by
  have hlen := length_patch h
  rw [fieldAt, fieldAt]
  congr 1
  refine List.ext_getElem? fun j => ?_
  by_cases hj : j < k
  · rw [List.getElem?_take_of_lt hj, List.getElem?_take_of_lt hj, List.getElem?_drop, List.getElem?_drop, patch, List.append_assoc]
    rcases hi with hi | hi
    · rw [List.getElem?_append_left (by simp; omega), List.getElem?_take_of_lt (by omega)]
    · rw [List.getElem?_append_right (by simp; omega), List.getElem?_append_right (by simp; omega), List.getElem?_drop]
      congr 1
      simp
      omega
  · rw [List.getElem?_eq_none (by simp; omega), List.getElem?_eq_none (by simp; omega)]

/-! ### Parts of a backed span -/

theorem region_shift {a b : Nat} (h : a >>> 40 = b >>> 40) : region a = region b := by rw [region, region, h]

/-- The number of a region that storage backs (R47). -/
def Region.number : Region → Nat
  | .hbm => 0
  | .host => 1
  | .window => 2
  | _ => 8

/-- A region that storage backs is one run of addresses. -/
theorem State.shift_of_backed {s : State} {a : Nat} (h : s.backed a = true) : a >>> 40 = (region a).number := by
  have hcases : a >>> 40 = (region a).number ∨ region a ∈ [Region.control, .pcie, .reserved] := by
    unfold region
    split <;> simp [Region.number, *]
  refine hcases.resolve_right fun hnone => ?_
  simp only [List.mem_cons, List.not_mem_nil, or_false] at hnone
  rcases hnone with hr | hr | hr <;> simp [State.backed, hr] at h

/-- What lies between two backed addresses of one region is backed. -/
theorem State.backed_between {s : State} {a b c : Nat} (ha : s.backed a = true) (hc : s.backed c = true) (hr : region a = region c)
    (hab : a ≤ b) (hbc : b ≤ c) : s.backed b = true ∧ region b = region a := by
  have hshift : a >>> 40 = c >>> 40 := by rw [State.shift_of_backed ha, State.shift_of_backed hc, hr]
  have hb : b >>> 40 = a >>> 40 := by
    simp only [Nat.shiftRight_eq_div_pow] at hshift ⊢
    have h1 := Nat.div_le_div_right (c := 2 ^ 40) hab
    have h2 := Nat.div_le_div_right (c := 2 ^ 40) hbc
    omega
  have hreg := region_shift hb
  refine ⟨?_, hreg⟩
  unfold State.backed at hc ⊢
  rw [← hr] at hc
  rw [hreg]
  split at hc
  · exact decide_eq_true (hbc.trans_lt (of_decide_eq_true hc))
  · exact decide_eq_true (hbc.trans_lt (of_decide_eq_true hc))
  · exact decide_eq_true ((Nat.sub_le_sub_right hbc _).trans_lt (of_decide_eq_true hc))
  · exact decide_eq_true (hbc.trans_lt (of_decide_eq_true hc))
  · exact absurd hc Bool.false_ne_true

theorem State.backedSpan_piece {s : State} {a n i k : Nat} (h : s.backedSpan a n = true) (hk : i + k ≤ n) (hpos : 0 < k) :
    s.backedSpan (a + i) k = true := by
  simp only [State.backedSpan, Bool.and_eq_true, beq_iff_eq] at h ⊢
  obtain ⟨⟨ha, hc⟩, hr⟩ := h
  obtain ⟨hfirst, hfr⟩ := State.backed_between (b := a + i) ha hc hr (by omega) (by omega)
  obtain ⟨hlast, hlr⟩ := State.backed_between (b := a + i + k - 1) ha hc hr (by omega) (by omega)
  exact ⟨⟨hfirst, hlast⟩, hfr.trans hlr.symm⟩

/-! ### A peer's digest -/

/-- The part of a ledger entry that holds the peers' digests, with one of them replaced (R349). -/
def peerBytes (old : Bytes) (h digest step : Nat) : Bytes :=
  let b := patch (patch old (8 * h) (toLE 8 digest)) (32 + h) (toLE 1 step)
  patch b 36 (toLE 1 (putBits (fieldAt b 36 1) h 1 1))

theorem peerBytes_spec {old : Bytes} {h digest step : Nat} (hold : old.length = 37) (hh : h < 4) (hd : digest < 256 ^ 8) (hs : step < 256 ^ 1) :
    (peerBytes old h digest step).length = 37 ∧ fieldAt (peerBytes old h digest step) (8 * h) 8 = digest ∧
    fieldAt (peerBytes old h digest step) (32 + h) 1 = step ∧ (fieldAt (peerBytes old h digest step) 36 1).testBit h = true := by
  unfold peerBytes
  extract_lets b
  have hlen1 : (patch old (8 * h) (toLE 8 digest)).length = 37 := (length_patch (by simp; omega)).trans hold
  have hlen : b.length = 37 := (length_patch (by simp; omega)).trans hlen1
  have hdigest : fieldAt b (8 * h) 8 = digest := by
    have hsame := fieldAt_patch_same (bs := old) (off := 8 * h) (new := toLE 8 digest) (by omega)
    rw [toLE_length, leN_toLE hd] at hsame
    exact (fieldAt_patch_apart (by simp; omega) (by left; omega)).trans hsame
  have hstep : fieldAt b (32 + h) 1 = step := by
    have hsame := fieldAt_patch_same (bs := patch old (8 * h) (toLE 8 digest)) (off := 32 + h) (new := toLE 1 step) (by omega)
    rwa [toLE_length, leN_toLE hs] at hsame
  clear_value b
  have hvalid : putBits (fieldAt b 36 1) h 1 1 < 256 ^ 1 := by
    have hx := fieldAt_lt b 36 1
    generalize fieldAt b 36 1 = x at *
    have hh' : h = 0 ∨ h = 1 ∨ h = 2 ∨ h = 3 := by omega
    rw [putBits_eq]
    rcases hh' with rfl | rfl | rfl | rfl <;> omega
  refine ⟨(length_patch (by simp; omega)).trans hlen, (fieldAt_patch_apart (by simp; omega) (by left; omega)).trans hdigest,
    (fieldAt_patch_apart (by simp; omega) (by left; omega)).trans hstep, ?_⟩
  have hsame := fieldAt_patch_same (bs := b) (off := 36) (new := toLE 1 (putBits (fieldAt b 36 1) h 1 1)) (by omega)
  rw [toLE_length, leN_toLE hvalid] at hsame
  rw [hsame, ← bit_eq_testBit, bit, bits_putBits_same]
  rfl

/-- A peer's digest is written where the ledger's entry is sound (R349). -/
theorem State.writePeer_spec {s : State} {d : Shard} {j h digest step : Nat} (hw : Memory.wf s.mem = true)
    (hb : s.backedSpan (d.ledger + 64 * j) 64 = true) (hs : s.soundSpan (d.ledger + 64 * j) 64) (hh : h < 4) (hd : digest < 256 ^ 8)
    (hstep : step < 256 ^ 1) :
    let t := s.writePeer d j h digest step
    let a := d.ledger + 64 * j
    t.load (a + 24 + 8 * h) 8 = digest ∧ t.load (a + 56 + h) 1 = step ∧ (t.load (a + 60) 1).testBit h = true ∧
    (∀ x, x < a + 24 ∨ a + 61 ≤ x → t.byte x = s.byte x) ∧ Frame soundWriteTouch s t := by
  intro t a
  obtain ⟨hlen, hdigest, hstep', hvalid⟩ := peerBytes_spec (old := s.bytes (a + 24) 37) (by simp [State.bytes]) hh hd hstep
  have ht : t = (s.writeSpan (a + 24) (peerBytes (s.bytes (a + 24) 37) h digest step)).1 := by
    have hne : (peerBytes (s.bytes (a + 24) 37) h digest step).isEmpty = false := by
      rw [List.isEmpty_eq_false_iff_exists_mem]
      exact ⟨_, List.getElem_mem (by omega : 0 < _)⟩
    have hback : s.backedSpan (a + 24) (peerBytes (s.bytes (a + 24) 37) h digest step).length = true := by
      rw [hlen]
      exact State.backedSpan_piece hb (by decide) (by decide)
    show (s.engineWrite (a + 24) (peerBytes (s.bytes (a + 24) 37) h digest step)).1 = _
    rw [State.engineWrite, if_neg (by simp [hne]), if_pos hback]
  have hsound : s.soundSpan (a + 24) (peerBytes (s.bytes (a + 24) 37) h digest step).length := by
    rw [hlen]
    exact hs.piece (by decide)
  obtain ⟨-, hquiet, hmem⟩ := State.writeSpan_sound hsound
  rw [← ht] at hquiet hmem
  obtain ⟨hbytes, hother⟩ := State.bytes_of_mem hw hmem
  rw [hlen] at hbytes hother
  have hload (i k : Nat) (hik : i + k ≤ 37) : t.load (a + 24 + i) k = fieldAt (peerBytes (s.bytes (a + 24) 37) h digest step) i k := by
    rw [State.load_of_bytes t hik, hbytes]
  refine ⟨(hload _ _ (by omega)).trans hdigest, ?_, ?_, fun x hx => hother x (by omega), hquiet.frame⟩
  · rw [← hstep', ← hload _ _ (by omega)]
    congr 1
    omega
  · rw [← hvalid, ← hload 36 1 (by omega)]

/-! ### Digest packets that are discarded -/

/-- UPD_STRAY counts a packet in its 64 bits. -/
theorem State.strayDigest_word (s : State) (h : (s.word .UPD_STRAY).toNat + 1 < 2 ^ 64) :
    (s.strayDigest.word .UPD_STRAY).toNat = (s.word .UPD_STRAY).toNat + 1 := by
  have hword (w : Nat) (hw : w < 2 ^ 64) : bits w 32 32 <<< 32 + bits w 0 32 = w := by
    simp only [bits_eq, Nat.shiftLeft_eq]
    omega
  have hlt := (s.word .UPD_STRAY).isLt
  have hflag : s.strayDigest.word .UPD_STRAY = (s.bumpWide F.UPD_STRAY.HIGH F.UPD_STRAY.LOW 0).word .UPD_STRAY :=
    State.word_put_reg (by decide)
  have hcount : s.get F.UPD_STRAY.HIGH 0 <<< 32 + s.get F.UPD_STRAY.LOW 0 = (s.word .UPD_STRAY).toNat := hword _ hlt
  have hget : (s.bumpWide F.UPD_STRAY.HIGH F.UPD_STRAY.LOW 0).get F.UPD_STRAY.HIGH 0 <<< 32 +
      (s.bumpWide F.UPD_STRAY.HIGH F.UPD_STRAY.LOW 0).get F.UPD_STRAY.LOW 0 = (s.word .UPD_STRAY).toNat + 1 := by
    rw [State.bumpWide, hcount, Nat.min_eq_left (by omega), State.get_put_same _ _ _ _ _ (by decide),
      State.get_put_apart (by decide) (by decide), State.get_put_same _ _ _ _ _ (by decide), Nat.shiftLeft_eq, Nat.shiftRight_eq_div_pow,
      show F.UPD_STRAY.HIGH.len = 32 from rfl]
    omega
  rw [hflag, ← hget]
  exact (hword _ (BitVec.isLt _)).symm

/-- A digest packet that no shard takes, or that is not whole, is counted as stray (R349). -/
def State.digestArrives (s : State) (pkt : Bytes) : State :=
  let source := fieldAt pkt 2 4
  let count := fieldAt pkt 6 2
  let key := fieldAt pkt 16 6
  match s.shardOfTensor (key / 2 ^ 32) with
  | none => s.strayDigest
  | some d =>
    let blk := key % 2 ^ 32
    let lo := d.firstSq * 64
    let peer := (d.peers.findIdx? fun p => p.valid && p.module == bits source 16 12 && p.erg == bits source 28 1)
    match peer with
    | none => s.strayDigest
    | some h =>
      if crcHolds 64 pkt && d.ok && decide (1 ≤ count) && decide (count ≤ 4) && decide (lo ≤ blk) && decide (blk + count ≤ lo + d.blocks) then
        ((List.range count).foldl (fun s i =>
          s.writePeer d (blk - lo + i) h (fieldAt pkt (24 + 8 * i) 8) (fieldAt pkt 8 1)) s).checkDigests
      else s.strayDigest

theorem State.digestArrives_stray {s : State} {pkt : Bytes}
    (h : s.shardOfTensor (fieldAt pkt 16 6 / 2 ^ 32) = none ∨ crcHolds 64 pkt = false) : s.digestArrives pkt = s.strayDigest := by
  unfold State.digestArrives
  dsimp only
  split
  · rfl
  · next hd =>
    split
    · rfl
    · rw [h.resolve_left fun hnone => Option.some_ne_none _ (hd.symm.trans hnone)]
      rfl

theorem State.digestArrives_one {s : State} {pkt : Bytes} {d : Shard} {h : Nat} (hd : s.shardOfTensor (fieldAt pkt 16 6 / 2 ^ 32) = some d)
    (hok : d.ok = true)
    (hp : (d.peers.findIdx? fun p => p.valid && p.module == bits (fieldAt pkt 2 4) 16 12 && p.erg == bits (fieldAt pkt 2 4) 28 1) = some h)
    (hcrc : crcHolds 64 pkt = true) (hone : fieldAt pkt 6 2 = 1) (hlo : d.firstSq * 64 ≤ fieldAt pkt 16 6 % 2 ^ 32)
    (hhi : fieldAt pkt 16 6 % 2 ^ 32 < d.firstSq * 64 + d.blocks) : s.digestArrives pkt =
      (s.writePeer d (fieldAt pkt 16 6 % 2 ^ 32 - d.firstSq * 64) h (fieldAt pkt 24 8) (fieldAt pkt 8 1)).checkDigests := by
  have hhi' : fieldAt pkt 16 6 % 2 ^ 32 + 1 ≤ d.firstSq * 64 + d.blocks := hhi
  simp only [State.digestArrives, hd, hp, hcrc, hok, hone, hlo, hhi', le_refl, decide_true, Bool.and_self, if_true,
    show (1 : Nat) ≤ 4 by decide, List.range_one, List.foldl_cons, List.foldl_nil, Nat.add_zero, Nat.mul_zero]

/-- What the end of a verify does (R352). -/
def State.verifyDone (s : State) : State :=
  match s.upd.verifying with
  | some n =>
    let s := (s.put F.UPD_VERIFY_RESULT.MISMATCHES (min n (2 ^ 32 - 1))).flag F.UPD_VERIFY_RESULT.DONE
    (s.put F.UPD_STATUS.VERIFY_BUSY 0).onUpd fun x => { x with verifying := none }
  | _ => s

/-- What the end of a rewind does (R353). -/
def State.rewindDone (s : State) : State :=
  if s.upd.rewinding then (s.put F.UPD_STATUS.REWIND_BUSY 0).onUpd fun x => { x with rewinding := false } else s

end Sys2Proof.Machine

open Sys2Proof Sys2Proof.Machine
/-- Settles O34: a digest by `State.writePeer_spec`, the rest by the cases of the writes and their ends. -/
theorem digestsVerifyAndRewind : Obligations.DigestsVerifyAndRewind := by
  unfold Obligations.DigestsVerifyAndRewind
  refine ⟨?_, ?_, ?_, ?_, ?_⟩
  · intro s pkt hr
    refine ⟨fun hstray => ?_, fun d h hinv htick hd hok hp hh hcrc hone hlo hhi => ?_⟩
    · have heff := State.digestArrives_stray hstray
      refine Completes.of_alters (effect := fun s => s.digestArrives pkt) hr rfl ?_ ?_
      · rw [heff]
        exact (((State.Alters.refl s).put (by simp) rfl).put (by simp) rfl).put (by simp) rfl
      · rw [heff]
        exact ⟨State.on_flag_same _ _ _ _ (by decide) (by decide), s.strayDigest_word⟩
    · intro a _ hback hsound
      have heff := State.digestArrives_one hd hok hp hcrc hone hlo hhi
      obtain ⟨hdigest, hstep, hvalid, hother, hframe⟩ := State.writePeer_spec hinv.1 hback hsound hh (fieldAt_lt pkt 24 8) (fieldAt_lt pkt 8 1)
      have hnone : (s.writePeer d (fieldAt pkt 16 6 % 2 ^ 32 - d.firstSq * 64) h (fieldAt pkt 24 8) (fieldAt pkt 8 1)).waitingCommit = none := by
        rw [State.waitingCommit, if_pos (by rw [hframe.parts .upd (by decide), htick]; rfl)]
      have hcheck (t : State) (ht : t.waitingCommit = none) : t.checkDigests = t := by rw [State.checkDigests, ht]
      rw [hcheck _ hnone] at heff
      exact ⟨_, exec_eq_next (effect := fun s => s.digestArrives pkt) hr rfl heff hframe.fatal_eq, hdigest, hstep, hvalid, hother⟩
  · intro s key hr
    refine ⟨fun hoff => exec_eq_next (effect := fun s => s.verifyWrite key) hr rfl (if_pos ?_), fun hstart hidle => ?_⟩
    · rw [bit_eq_testBit, State.on, State.get_put_reg (by decide)]
      exact hoff
    · have hgo : ¬ (bit key 63 = false ∨ (s.put F.UPD_VERIFY_KEY.VALUE key).on F.UPD_STATUS.VERIFY_BUSY = true) := by
        rw [bit_eq_testBit, hstart, State.on, State.get_put_reg (by decide), ← State.on, hidle]
        simp
      have hcount : (s.put F.UPD_VERIFY_KEY.VALUE key).get F.UPD_VERIFY_COUNT.VALUE = s.get F.UPD_VERIFY_COUNT.VALUE :=
        State.get_put_reg (by decide)
      have hfatal (r : State) (hquiet : r.flt.fatal = []) : r.flt.fatal = s.flt.fatal := hquiet.trans hr.2.2.symm
      refine ⟨fun r n hv hquiet => ?_, fun r hv hquiet => ?_⟩
      · have heff : s.verifyWrite key = (((r.put F.UPD_VERIFY_RESULT.DONE 0).put F.UPD_VERIFY_RESULT.ERROR 0).flag
            F.UPD_STATUS.VERIFY_BUSY).onUpd fun x => { x with verifying := some n } := by rw [State.verifyWrite, if_neg hgo, hcount, hv]
        refine ⟨_, exec_eq_next (effect := fun s => s.verifyWrite key) hr rfl heff (hfatal r hquiet), ?_, ?_, rfl⟩
        · rw [State.on, State.get_onUpd]
          exact State.on_flag_same _ _ _ _ (by decide) (by decide)
        · simp (disch := decide) [State.on, State.flag, State.get_put_same, State.get_put_apart]
      · exact exec_eq_next (effect := fun s => s.verifyWrite key) hr rfl (by rw [State.verifyWrite, if_neg hgo, hcount, hv])
          (hfatal r hquiet)
  · intro s n hr hn
    have heff : s.verifyDone = ((((s.put F.UPD_VERIFY_RESULT.MISMATCHES (min n (2 ^ 32 - 1))).flag F.UPD_VERIFY_RESULT.DONE).put
        F.UPD_STATUS.VERIFY_BUSY 0).onUpd fun x => { x with verifying := none }) := by simp only [State.verifyDone, hn]
    refine Completes.of_alters (effect := State.verifyDone) hr rfl ?_ ?_
    · rw [heff]
      exact ((((State.Alters.refl s).put (by simp) rfl).put (by simp) rfl).put (by simp) rfl).frame (State.onUpd_frame _ _) ⟨rfl, rfl⟩
        (by simp)
    · rw [heff]
      refine ⟨?_, ?_, ?_, rfl⟩
      · simp (disch := decide) only [State.get_onUpd, State.flag, State.get_put_reg, State.get_put_apart]
        rw [State.get_put_same _ _ _ _ _ (by decide)]
        exact Nat.mod_eq_of_lt (by simp only []; omega)
      · simp (disch := decide) [State.on, State.flag, State.get_put_same, State.get_put_reg]
      · simp (disch := decide) [State.on, State.get_put_same]
  · intro s unum hr hstart hidle
    have hgo : ¬ (bit unum 63 = false ∨ (s.put F.UPD_REWIND.UNUM unum).on F.UPD_STATUS.REWIND_BUSY = true) := by
      rw [bit_eq_testBit, hstart, State.on, State.get_put_reg (by decide), ← State.on, hidle]
      simp
    refine ⟨fun hactive => ?_, fun hstill hnone => ?_⟩
    · have heff : s.rewindWrite unum = (s.put F.UPD_REWIND.UNUM unum).flag F.UPD_EVENTS.REWIND_REFUSED := by
        rw [State.rewindWrite, if_neg hgo, if_pos]
        exact Bool.or_eq_true_iff.2 (.inl (by rw [show (s.put F.UPD_REWIND.UNUM unum).schedStill = s.schedStill from rfl, hactive]; rfl))
      refine Completes.of_alters (effect := fun s => s.rewindWrite unum) hr rfl ?_ ?_
      · rw [heff]
        exact ((State.Alters.refl s).put (by simp) rfl).put (by simp) rfl
      · rw [heff]
        exact State.on_flag_same _ _ _ _ (by decide) (by decide)
    · have hcount : (s.put F.UPD_REWIND.UNUM unum).shardCount = none := by
        have htable : (s.put F.UPD_REWIND.UNUM unum).stateTable = s.stateTable := by
          rw [State.stateTable, State.stateTable, State.get_put_reg (by decide)]
        exact (show _ = s.shardCount by simp only [State.shardCount, htable]; rfl).trans hnone
      have hshards : (s.put F.UPD_REWIND.UNUM unum).shards = [] := by rw [State.shards, hcount]; rfl
      have heff : s.rewindWrite unum = (((s.put F.UPD_REWIND.UNUM unum).put F.UPD_UNUM.VALUE (bits unum 0 40)).flag
          F.UPD_STATUS.REWIND_BUSY).onUpd fun x => { x with rewinding := true } := by
        rw [State.rewindWrite, if_neg hgo, if_neg, State.rewindTags, hshards]
        · rfl
        · rw [hshards, show (s.put F.UPD_REWIND.UNUM unum).schedStill = s.schedStill from rfl, hstill]
          simp
      refine ⟨_, exec_eq_next (effect := fun s => s.rewindWrite unum) hr rfl heff rfl, ?_, ?_, rfl, rfl⟩
      · rw [State.get_onUpd, State.flag, State.get_put_reg (by decide), State.get_put_same _ _ _ _ _ (by decide), bits_eq]
        simp
      · rw [State.on, State.get_onUpd]
        exact State.on_flag_same _ _ _ _ (by decide) (by decide)
  · intro s hr hbusy
    have heff : s.rewindDone = (s.put F.UPD_STATUS.REWIND_BUSY 0).onUpd fun x => { x with rewinding := false } := if_pos hbusy
    refine Completes.of_alters (effect := State.rewindDone) hr rfl ?_ ?_
    · rw [heff]
      exact ((State.Alters.refl s).put (by simp) rfl).frame (State.onUpd_frame _ _) ⟨rfl, rfl⟩ (by simp)
    · rw [heff]
      refine ⟨?_, rfl⟩
      simp (disch := decide) [State.on, State.get_put_same]

end

/-! # Accesses leave the operations in flight

What a memory access or an access to another module touches of the schedule are the records of its faults: every unit's operations
stand (`State.OpsStand`). -/

section

namespace Sys2Proof.Machine

section
variable {s t : State}

theorem State.OpsStand.put (h : s.OpsStand t) (f : Fld) (v d i : Nat) : s.OpsStand (t.put f v d i) := h.trans (.of_sched rfl)

/-- The state of a pair that was taken apart. -/
theorem State.OpsStand.of_eq {α : Type} {x : α} {p : State × α} (h : s.OpsStand p.1) (e : p = (t, x)) : s.OpsStand t := by
  rw [e] at h
  exact h

theorem State.OpsStand.foldl_fst {α β : Type} {f : State × β → α → State × β} {l : List α} {b : State × β} (hb : s.OpsStand b.1)
    (hf : ∀ (p : State × β) x, p.1.OpsStand (f p x).1) : s.OpsStand (l.foldl f b).1 := by
  induction l generalizing b with
  | nil => exact hb
  | cons x l ih => exact ih (hb.trans (hf b x))

end

/-! ### Reads of memory -/

theorem State.corrected_opsStand (s : State) (sector rest : Nat) : s.OpsStand (s.corrected sector rest) := by
  unfold State.corrected
  extract_lets die row counted recorded
  have hcounted : s.OpsStand counted := (((OpsStand.refl s).step (State.residue_frame _ _ _)).put _ _ _ _).put _ _ _ _
  have hrecorded : s.OpsStand recorded := .ite hcounted ((hcounted.step (State.onHbm_frame _ _)).trans (State.collect_opsStand _ _))
  exact hrecorded.step (State.countRow_frame _ _ _)

theorem State.uncorrectable_opsStand (s : State) (sector : Nat) (misaddress write : Bool) :
    s.OpsStand (s.uncorrectable sector misaddress write) := by
  unfold State.uncorrectable
  extract_lets die counted placed marked
  have hplaced : s.OpsStand placed := ((((OpsStand.refl s).put _ _ _ _).put _ _ _ _).put _ _ _ _).put _ _ _ _
  have hmarked : s.OpsStand marked := .ite (hplaced.put _ _ _ _) hplaced
  exact hmarked.trans (State.collect_opsStand _ _)

theorem State.checkHbm_opsStand (s : State) (sector : Nat) (write : Bool) : s.OpsStand (s.checkHbm sector write).1 := by
  unfold State.checkHbm
  split
  · exact .refl s
  · split
    · exact (OpsStand.refl s).step (State.residue_frame _ _ _)
    · exact State.corrected_opsStand _ _ _
    · exact State.uncorrectable_opsStand _ _ _ _
    · exact State.uncorrectable_opsStand _ _ _ _

theorem State.readHbmAll_opsStand (s : State) (sectors : List Nat) (write : Bool) : s.OpsStand (s.readHbmAll sectors write).1 :=
  .foldl_fst (.refl s) fun p n => ((OpsStand.refl p.1).put _ _ _ _).trans (State.checkHbm_opsStand _ n write)

theorem State.fetchLine_opsStand (s : State) (g : Nat) (write : Bool) : s.OpsStand (s.fetchLine g write) := by
  unfold State.fetchLine
  split
  · extract_lets need
    split
    next read => exact ((State.readHbmAll_opsStand _ _ _).of_eq read).step (State.onLine_frame _ _ _)
  · split
    next read => exact ((State.readHbmAll_opsStand _ _ _).of_eq read).step (State.allocate_frame _ _ _ _)

theorem State.readCached_opsStand (s : State) (g : Nat) (secs : List Nat) (write : Bool) : s.OpsStand (s.readCached g secs write).1 := by
  unfold State.readCached
  extract_lets validIn hit counted fetched failed bypass
  have hcounted : s.OpsStand counted := (OpsStand.refl s).step (State.countAccess_frame _ _ _)
  have hfetched : s.OpsStand fetched :=
    .ite (hcounted.step (State.useLine_frame _ _)) (hcounted.trans (State.fetchLine_opsStand _ _ _))
  split
  · exact hfetched.trans (State.readHbmAll_opsStand _ _ _)
  · clear_value failed
    split
    · exact hfetched.trans (State.collect_opsStand _ _)
    · exact hfetched

theorem State.readGranule_opsStand (s : State) (a n : Nat) (write : Bool) : s.OpsStand (s.readGranule a n write).1 := by
  unfold State.readGranule
  extract_lets secs
  split
  · split
    · exact State.readCached_opsStand _ _ _ _
    · exact State.readHbmAll_opsStand _ _ _
  · split
    · exact State.collect_opsStand _ _
    · exact .refl s
  · split
    · exact State.collect_opsStand _ _
    · exact .refl s
  · exact .refl s

theorem State.readSpan_opsStand (s : State) (a n : Nat) : s.OpsStand (s.readSpan a n).1 :=
  .foldl_fst (.refl s) fun p q => State.readGranule_opsStand p.1 q.1 q.2 false

/-! ### Writes of memory -/

theorem State.writeMasked_opsStand (s : State) (a : Nat) (data : Bytes) (mask : List Bool) :
    s.OpsStand (s.writeMasked a data mask).1 := by
  unfold State.writeMasked
  split
  rename_i t ok read
  have hread : s.OpsStand t := (State.readGranule_opsStand _ _ _ _).of_eq read
  split
  · exact hread
  · extract_lets stored
    have hstored : s.OpsStand stored := hread.step (State.store_frame _ _ _)
    split
    · split
      · exact hstored.step (State.onLine_frame _ _ _)
      · exact hstored.step (State.controllerWrites_frame _ _)
    · split
      · exact hstored.step (State.controllerWrites_frame _ _)
      · exact hstored

theorem State.writeSpan_opsStand (s : State) (a : Nat) (data : Bytes) : s.OpsStand (s.writeSpan a data).1 := by
  refine .foldl_fst (.refl s) fun p q => ?_
  extract_lets d
  split
  · exact (OpsStand.refl p.1).step (State.writeGranule_frame _ _ _)
  · exact State.writeMasked_opsStand _ _ _ _

/-! ### Accesses of an operation -/

theorem State.readPhysical_opsStand (r : ReadResult) (u pa len : Nat) : r.state.OpsStand (State.readPhysical r u pa len).state := by
  unfold State.readPhysical
  extract_lets s la
  split
  · split
    · exact State.readGranule_opsStand _ _ _ _
    · exact .refl _
  · split
    · exact State.OpsStand.of_sched rfl
    · split
      · exact .refl _
      · split
        · exact .refl _
        · have hissue : s.OpsStand (s.issueRead u pa len).1 := (OpsStand.refl s).step (State.issueRead_frame _ _ _ _)
          split
          · next read => exact hissue.of_eq read
          · next read => exact hissue.of_eq read

theorem State.readPiece_opsStand (r : ReadResult) (u die asid : Nat) (a : Span) :
    r.state.OpsStand (State.readPiece r u die asid a).state := by
  unfold State.readPiece
  split
  · exact State.readPhysical_opsStand _ _ _ _
  · extract_lets pa x
    have hx : r.state.OpsStand x.state :=
      ((OpsStand.refl r.state).step (State.xltUse_frame _ die asid a.va)).trans (State.readPhysical_opsStand _ _ _ _)
    split
    · exact hx
    · exact hx.step (State.noteIssued_frame _ _ _ _ _)

theorem State.readAll_opsStand (s : State) (u die asid : Nat) (reads : List Span) : s.OpsStand (s.readAll u die asid reads).state := by
  have hfold : ∀ (r : ReadResult) (l : List Span), r.state.OpsStand (l.foldl (fun r a => State.readPiece r u die asid a) r).state := by
    intro r l
    induction l generalizing r with
    | nil => exact .refl _
    | cons a l ih => exact (State.readPiece_opsStand r u die asid a).trans (ih _)
  exact hfold { state := s } reads

theorem State.writePhysical_opsStand (r : ReadResult) (u pa : Nat) (data : Bytes) :
    r.state.OpsStand (State.writePhysical r u pa data).state := by
  unfold State.writePhysical
  split
  · exact .refl _
  · extract_lets s la whole mask body
    have hpci := (OpsStand.refl s).step (State.sendPci_frame s (some u) (s.originator u) la true data.length data)
    have hremote := (OpsStand.refl s).step (State.sendRemote_frame s u pa data.length (if whole then 2 else 3) body)
    clear_value body
    split
    · split
      · split
        · next sent => exact hpci.of_eq sent
        · next sent => exact hpci.of_eq sent
      · split
        · exact State.writeSpan_opsStand _ _ _
        · exact .refl _
    · split
      · next sent => exact hremote.of_eq sent
      · next sent => exact hremote.of_eq sent

theorem State.writePiece_opsStand (r : ReadResult) (u die asid va : Nat) (data : Bytes) :
    r.state.OpsStand (State.writePiece r u die asid va data).state := by
  unfold State.writePiece
  split
  · exact .refl _
  · exact ((OpsStand.refl r.state).step (State.xltUse_frame _ _ _ _)).trans (State.writePhysical_opsStand _ _ _ _)

theorem State.writeData_opsStand (r : ReadResult) (u die asid va : Nat) (data : Bytes) :
    r.state.OpsStand (State.writeData r u die asid va data).state := by
  unfold State.writeData
  induction writePieces va data.length generalizing r with
  | nil => exact .refl _
  | cons q l ih => exact (State.writePiece_opsStand _ _ _ _ _ _).trans (ih _)

theorem State.writeAll_opsStand (s : State) (u die asid : Nat) (writes : List (Nat × Bytes)) :
    s.OpsStand (s.writeAll u die asid writes).state := by
  have hfold : ∀ (r : ReadResult), r.state.OpsStand (writes.foldl (fun r w => State.writeData r u die asid w.1 w.2) r).state := by
    intro r
    induction writes generalizing r with
    | nil => exact .refl _
    | cons w l ih => exact (State.writeData_opsStand r u die asid w.1 w.2).trans (ih _)
  exact hfold { state := s }

end Sys2Proof.Machine

end

/-! # Reductions

The tags that are open on an engine (R359 to R366), the result of an ALLR (R380), the packets that arrive (R365, R371) and the check
that does not come (R378). -/

section

namespace Sys2Proof.Machine

/-! ### Open tags -/

/-- The tag open on an engine depends on the engines alone. -/
theorem State.openTag_congr {s t : State} (h : t.rdx = s.rdx) (u tag : Nat) : t.openTag u tag = s.openTag u tag := by
  rw [State.openTag, State.openTag, h]

theorem State.openTag_closeTag (s : State) (u tag : Nat) : (s.closeTag u tag).openTag u tag = none := by
  simp only [State.openTag, State.closeTag, State.onRdx, List.find?_eq_none, List.mem_filter]
  rintro x ⟨-, hx⟩
  simpa [-not_and, not_and_or] using hx

theorem find?_updateFirst {α : Type} {p : α → Bool} {f : α → α} (hf : ∀ x, p x = true → p (f x) = true) (l : List α) :
    (updateFirst p f l).find? p = (l.find? p).map f := by
  induction l with
  | nil => rfl
  | cons x l ih =>
    by_cases hx : p x = true
    · simp [updateFirst, hx, hf x hx]
    · simp [updateFirst, hx, ih]

/-- A change of an open tag. -/
theorem State.openTag_onTag (s : State) {u tag : Nat} {f : OpenTag → OpenTag} (hf : ∀ x, (f x).engine = x.engine ∧ (f x).tag = x.tag) :
    (s.onTag u tag f).openTag u tag = (s.openTag u tag).map f :=
  find?_updateFirst (fun x hx => by rw [(hf x).1, (hf x).2]; exact hx) _

theorem State.openTag_tagProgress (s : State) (u tag : Nat) :
    (s.tagProgress u tag).openTag u tag = none ∨ s.tagProgress u tag = s := by
  unfold State.tagProgress
  split
  · exact .inr rfl
  · split
    · left
      extract_lets closed
      have hnone : closed.openTag u tag = none := s.openTag_closeTag u tag
      split
      · next k _ => exact (State.openTag_congr ((State.finishOp_frame closed u k [] 0).parts .rdx (by decide)) _ _).trans hnone
      · exact hnone
    · exact .inr rfl

/-- A result of an ALLR that has not come. -/
theorem State.allrArrived_of_not_allr {s : State} {u tag : Nat} (h : ∀ x, s.openTag u tag = some x → x.allr = false) :
    s.allrArrived u tag = s := by
  unfold State.allrArrived
  split
  · next x hx => rw [h x hx]; rfl
  · rfl

/-- A tag that was read is that of its engine (R359). -/
theorem State.readTag_inr {s s₁ : State} {u n round : Nat} {payload : Bytes} {t : OpenTag} (h : s.readTag u n round payload = (s₁, .inr t)) :
    t.engine = u ∧ t.tag = n := by
  unfold State.readTag at h
  extract_lets at h
  split at h
  extract_lets at h
  split at h
  extract_lets at h
  have key : ∀ {c : Prop} [Decidable c] {x : State × (Nat ⊕ OpenTag)} {k : Nat} {s' : State},
      (if c then (s', .inl k) else x) = (s₁, .inr t) → x = (s₁, .inr t) := by
    intro c _ x k s' hx
    split at hx
    · simp at hx
    · exact hx
  have hfinal := key (key (key (key (key (key (key (key h)))))))
  simp only [Prod.mk.injEq, Sum.inr.injEq] at hfinal
  rw [← hfinal.2]
  exact ⟨rfl, rfl⟩

/-- The reading of a tag's entry leaves the operations in flight. -/
theorem State.readTag_opsStand (s : State) (u n round : Nat) (payload : Bytes) : s.OpsStand (s.readTag u n round payload).1 := by
  unfold State.readTag
  extract_lets
  split
  next t ok hentry =>
  have ht : s.OpsStand t := (State.readSpan_opsStand _ _ _).of_eq hentry
  extract_lets
  split
  next t' ok' hlist =>
  have ht' : t.OpsStand t' := by
    split at hlist
    · exact .of_eq (.refl t) hlist
    · exact (State.readSpan_opsStand _ _ _).of_eq hlist
  have key : ∀ {c : Prop} [Decidable c] {x y : State × (Nat ⊕ OpenTag)}, s.OpsStand x.1 → s.OpsStand y.1 → s.OpsStand (if c then x else y).1 := by
    intro c _ x y hx hy
    split <;> assumption
  have hend := ht.trans ht'
  exact key hend (key hend (key hend (key hend (key hend (key hend (key hend (key hend hend)))))))

/-! ### ROPEN -/

/-- An ROPEN whose entry is sound opens its tag and waits (R359, R360). -/
theorem State.ropen_opens {s s₁ : State} {u k : Nat} {p : BitVec 192} {tag : OpenTag} (hfree : s.unitFree u = true)
    (hfound : s.findOp u 0x45 (bytesOf p) = some k) (hst : (s.opAt u k).state = .started) (ha : (s.opAt u k).ahead = false)
    (hz : payZero p 0 8 = true) (hz' : payZero p 11 13 = true) (hroom : s.openCount u < 16) (hnone : s.openTag u (pay p 8 2) = none)
    (hread : (s.onOp u k fun o => { o with tag := s.get F.SCH_EPOCH.VALUE (unitDie u) }).readTag u (pay p 8 2) (pay p 10 1) (bytesOf p) =
      (s₁, .inr tag)) (hdest : tag.dkind ≠ 0 ∨ s₁.destInRegion tag = true) :
    s.ropen u p = (s₁.onRdx fun r => { r with tags := r.tags ++ [tag] }).waitOp u k := by
  have hframe := (s.onOp u k fun o => { o with tag := s.get F.SCH_EPOCH.VALUE (unitDie u) }).readTag_frame u (pay p 8 2) (pay p 10 1) (bytesOf p)
  rw [hread] at hframe
  have hnone' : s₁.openTag u (pay p 8 2) = none := (State.openTag_congr (hframe.parts .rdx (by decide)) _ _).trans hnone
  have hgood : ¬ (tag.dkind = 0 ∧ ¬ s₁.destInRegion tag = true) := by
    rintro ⟨h0, h1⟩
    exact hdest.elim (fun h => h h0) h1
  have hbody : (((ropenTask u p).plan s).body (s.onOp u k fun o => { o with tag := s.get F.SCH_EPOCH.VALUE (unitDie u) })) =
      (s₁.onRdx fun r => { r with tags := r.tags ++ [tag] }, .wait) := by
    simp only [ropenTask, hread, if_neg hgood, hnone', Option.isSome_none, Bool.false_eq_true, if_false]
  have hrun : s.runTask (ropenTask u p) = s.performOp u k ((ropenTask u p).plan s) := by
    simp [State.runTask, State.takeOp, ropenTask, hfree, hfound, hz, hz', hroom]
  have hperform : s.performOp u k ((ropenTask u p).plan s) = (s₁.onRdx fun r => { r with tags := r.tags ++ [tag] }).waitOp u k := by
    unfold State.performOp
    simp only [show accessesOf (((ropenTask u p).plan s).reads ++ ((ropenTask u p).plan s).also ++
      ((ropenTask u p).plan s).writes.map fun w => { w with write := true }) = [] from rfl,
      show s.firstTrouble u s.asidOf [] = none from rfl, hst, ha, show accessesOf ((ropenTask u p).plan s).near = [] from rfl, show accessesOf ((ropenTask u p).plan s).reads = [] from rfl,
      show ((ropenTask u p).plan s).place s = none from rfl, List.all_nil, Bool.not_true, Bool.false_eq_true, if_false, Bool.false_and,
      beq_self_eq_true, if_true, State.readAll, List.foldl_nil, List.isEmpty_nil, hbody]
  rw [State.ropen, hnone]
  show s.runOp (ropenTask u p) = _
  rw [State.runOp, State.drawing]
  exact hrun.trans hperform

/-- What an ROPEN leaves for which nothing is held and whose conditions do not hold yet. -/
theorem State.afterOpen_waits {s : State} {u : Nat} {p : BitVec 192} {tag : OpenTag} (hhold : s.rdx.hold = [])
    (hopen : s.openTag u (pay p 8 2) = some tag) (hnot : tag.complete = false) : s.afterOpen u p = s.onRdx fun r => { r with hold := [] } := by
  have hheld : s.useHeld u (pay p 8 2) (pay p 10 1) = s.onRdx fun r => { r with hold := [] } := by
    simp [State.useHeld, State.onRdx, hhold]
  have hopen' : (s.onRdx fun r => { r with hold := [] }).openTag u (pay p 8 2) = some tag := hopen
  rw [State.afterOpen, hheld, State.tagProgress, hopen']
  simp [hnot]

/-! ### ALLR -/

/-- The result of an ALLR that stands is written, and its tag closes (R380). -/
theorem State.allr_closes {s : State} {u k : Nat} {p : BitVec 192} {tag : OpenTag} (hfree : s.unitFree u = true)
    (hopen : s.openTag u (pay p 16 2) = some tag) (hallr : tag.allr = true) (hpay : tag.payload = bytesOf p) (hall : tag.delivered = tag.s)
    (hfound : s.findOp u 0x47 (bytesOf p) = some k) (hst : (s.opAt u k).state = .waiting) (ha : (s.opAt u k).ahead = false)
    (htrouble : s.firstTrouble u s.asidOf (accessesOf [⟨tag.dst, 4 * tag.s, true⟩]) = none) (w : ReadResult)
    (hw : w = (s.closeTag u (pay p 16 2)).writeAll u (unitDie u) s.asidOf
      [(tag.dst, (List.range tag.s).flatMap fun i => toLE 4 ((lookupKey i tag.results).getD 0))])
    (hfailed : w.failed = none) (hpending : w.pending = []) : s.allr u p = w.state.finishOp u k [] (0 + w.remote) := by
  have hperform : s.allrClose u p = w.state.finishOp u k [] (0 + w.remote) := by
    simp only [State.allrClose, hopen, hallr, hpay, hall, hfree, beq_self_eq_true, Bool.and_self, if_true, hfound]
    unfold State.performOp
    simp only [List.nil_append, List.append_nil, List.map_cons, List.map_nil, htrouble, hst, ha, show accessesOf [] = [] from rfl,
      List.all_nil, Bool.not_true, Bool.false_eq_true, if_false, Bool.false_and, show (OpState.waiting == OpState.started) = false from rfl,
      State.readAll, List.foldl_nil, List.isEmpty_nil, ← hw, hfailed, hpending, State.dropReads]
  rw [State.allr, hopen]
  simp only [Option.any_some, hallr, hpay, beq_self_eq_true, Bool.and_self, if_true, hperform]

/-! ### Packets that arrive -/

section
variable {s : State} {u : Nat} {pkt : Bytes} {crcOk : Bool}

/-- A packet that is not whole, or is of another step or group, is stray (R365). -/
theorem State.redArrive_stray (h : crcOk = false ∨ (redHeader pkt).step ≠ s.get F.SCH_STEP.STEP % 65536 ∨
    (redHeader pkt).group ≠ s.ownGroup (redHeader pkt).tag) : s.redArrive u pkt crcOk =
      (s.bump F.RDX_STRAY.VALUE 1 (unitDie u) (unitInst u)).flag F.RDX_EVENTS.STRAY (unitDie u) (unitInst u) := by
  rw [State.redArrive, if_pos (by rcases h with h | h | h <;> simp [h])]

/-- A packet whose tag is not open is held (R365). -/
theorem State.redArrive_held (hcrc : crcOk = true) (hstep : (redHeader pkt).step = s.get F.SCH_STEP.STEP % 65536)
    (hgroup : (redHeader pkt).group = s.ownGroup (redHeader pkt).tag)
    (hnone : s.openTag (tagEngine u (redHeader pkt).kind) (redHeader pkt).tag = none)
    (hroom : (s.rdx.hold.filter fun p => p.1 == u).length < 255) :
    s.redArrive u pkt crcOk = s.onRdx fun r => { r with hold := r.hold ++ [(u, pkt)] } := by
  unfold State.redArrive
  simp only [hcrc, hstep, ← hgroup, hnone, bne_self_eq_false, Bool.not_true, Bool.or_self, Bool.false_eq_true, if_false]
  rw [if_pos (by omega), if_neg (by omega)]

/-- A packet whose tag is open with its round is used (R365). -/
theorem State.redArrive_used {x : OpenTag} (hcrc : crcOk = true) (hstep : (redHeader pkt).step = s.get F.SCH_STEP.STEP % 65536)
    (hgroup : (redHeader pkt).group = s.ownGroup (redHeader pkt).tag)
    (hopen : s.openTag (tagEngine u (redHeader pkt).kind) (redHeader pkt).tag = some x) (hround : x.round = (redHeader pkt).round) :
    s.redArrive u pkt crcOk = s.usePacket pkt (tagEngine u (redHeader pkt).kind) := by
  unfold State.redArrive
  simp only [hcrc, hstep, ← hgroup, hopen, hround, beq_self_eq_true, bne_self_eq_false, Bool.not_true, Bool.or_self, Bool.false_eq_true,
    if_false, if_true]

end

/-- A result that is delivered one by one, as it stands before its tag may close (R371). -/
def State.delivered (s : State) (u tag a v : Nat) : State :=
  (s.writeSpan a (toLE 4 v)).1.onTag u tag fun t => { t with delivered := t.delivered + 1 }

/-- A packet with one result for an FP32 destination is written there (R371). -/
theorem State.usePacket_result {s : State} {u : Nat} {pkt : Bytes} {x : OpenTag} (hopen : s.openTag u (redHeader pkt).tag = some x)
    (hkind : (redHeader pkt).kind = 2) (hcount : (redHeader pkt).count = 1) (hd : x.dkind = 1)
    (hsound : s.soundSpan (x.dest + 4 * ((redHeader pkt).offset % x.s)) 4) : s.usePacket pkt u =
      (s.delivered u (redHeader pkt).tag (x.dest + 4 * ((redHeader pkt).offset % x.s)) (fieldAt pkt 16 4)).tagProgress u (redHeader pkt).tag := by
  have hwrite := (State.writeSpan_sound (data := toLE 4 (fieldAt pkt 16 4)) (by simpa using hsound)).1
  have hpair : s.writeSpan (x.dest + 4 * ((redHeader pkt).offset % x.s)) (toLE 4 (fieldAt pkt 16 4)) =
      ((s.writeSpan (x.dest + 4 * ((redHeader pkt).offset % x.s)) (toLE 4 (fieldAt pkt 16 4))).1, true) := Prod.ext rfl hwrite
  have hdeliver : s.deliver u (redHeader pkt).tag (redHeader pkt).offset (fieldAt pkt 16 4) =
      s.delivered u (redHeader pkt).tag (x.dest + 4 * ((redHeader pkt).offset % x.s)) (fieldAt pkt 16 4) := by
    unfold State.deliver
    simp only [hopen, hd, if_true]
    rw [hpair]
    rfl
  unfold State.usePacket
  simp only [hopen, hkind, hcount, List.range_one, List.map_cons, List.map_nil, List.foldl_cons, List.foldl_nil, redValue,
    show ¬ (2 : Nat) = 1 by decide, if_false, Nat.add_zero, Nat.mul_zero, hdeliver]

/-- What a result that is delivered leaves of memory and of its tag. -/
theorem State.delivered_spec {s : State} {u tag a v : Nat} (hw : Memory.wf s.mem = true) (hsound : s.soundSpan a 4) (hv : v < 256 ^ 4) :
    (s.delivered u tag a v).load a 4 = v ∧ (∀ b, b < a ∨ a + 4 ≤ b → (s.delivered u tag a v).byte b = s.byte b) ∧
    (s.delivered u tag a v).openTag u tag = (s.openTag u tag).map (fun t => { t with delivered := t.delivered + 1 }) ∧
    (s.delivered u tag a v).flt.fatal = s.flt.fatal := by
  obtain ⟨-, hquiet, hmem⟩ := State.writeSpan_sound (a := a) (data := toLE 4 v) (by simpa using hsound)
  have hmem' : (s.delivered u tag a v).mem = setCells a (toLE 4 v) s.mem := hmem
  obtain ⟨hbytes, hother⟩ := State.bytes_of_mem hw hmem'
  rw [toLE_length] at hbytes hother
  refine ⟨by rw [State.load, hbytes, leN_toLE hv], hother, ?_, hquiet.frame.fatal_eq⟩
  rw [State.delivered, State.openTag_onTag _ (f := fun t : OpenTag => { t with delivered := t.delivered + 1 }) fun _ => ⟨rfl, rfl⟩, State.openTag_congr (hquiet.frame.parts .rdx (by decide))]

/-! ### A check that does not come -/

/-- A sampled element is treated as compared, and the timeout is recorded (R378). -/
def State.noteMissed (s : State) (u tag element : Nat) : State :=
  (s.onTag u tag fun t => { t with sums := dropKey element t.sums, late := t.late ++ [element], compared := t.compared + 1 }).flag
    F.RDX_EVENTS.CHECK_TIMEOUT (unitDie u) (unitInst u)

/-- What the timeout of a check result does (R378). -/
def State.checkMissed (s : State) (u tag element : Nat) : State :=
  match s.openTag u tag with
  | none => s
  | some t =>
    if (lookupKey element t.sums).isNone then s
    else ((s.noteMissed u tag element).setVerdict u 2).tagProgress u tag

/-- A bit of the verdict word is set where the word is sound (R377). -/
theorem State.setVerdict_spec {s : State} {u n : Nat} (hw : Memory.wf s.mem = true) (hn : n < 8) (hu : engineNo u < 8)
    (hs : s.soundSpan (s.get F.RDX_VERDICT_ADDR.BASE 72 <<< 3) 8) :
    ((s.setVerdict u n).byte (s.get F.RDX_VERDICT_ADDR.BASE 72 <<< 3 + engineNo u)).getLsbD n = true ∧
    Frame soundWriteTouch s (s.setVerdict u n) := by
  obtain ⟨-, hquiet, hmem⟩ := State.writeSpan_sound (a := s.get F.RDX_VERDICT_ADDR.BASE 72 <<< 3 + engineNo u)
    (data := [s.byte (s.get F.RDX_VERDICT_ADDR.BASE 72 <<< 3 + engineNo u) ||| BitVec.ofNat 8 (2 ^ n)]) (hs.piece (by simp; omega))
  have hbytes := (State.bytes_of_mem hw hmem).1
  refine ⟨?_, hquiet.frame⟩
  have hbyte : (s.setVerdict u n).byte (s.get F.RDX_VERDICT_ADDR.BASE 72 <<< 3 + engineNo u) =
      s.byte (s.get F.RDX_VERDICT_ADDR.BASE 72 <<< 3 + engineNo u) ||| BitVec.ofNat 8 (2 ^ n) := by
    simpa [State.bytes, State.setVerdict] using hbytes
  rw [hbyte, BitVec.getLsbD_or, BitVec.getLsbD_ofNat, Nat.testBit_two_pow_self]
  simp [hn]

theorem engineNo_lt {u : Nat} (h : isFabricUnit [2] u = true) : engineNo u < 8 := by
  simp only [isFabricUnit, isUnit, isFabric, Bool.and_eq_true, List.contains_eq_mem, List.mem_singleton, decide_eq_true_eq] at h
  obtain ⟨⟨⟨-, hinst⟩, hlo, hhi⟩, htype⟩ := h
  have hcount : unitCount (unitDie u) (unitType u) = 2 := by
    rw [htype]
    have : unitDie u = 72 ∨ unitDie u = 73 ∨ unitDie u = 74 ∨ unitDie u = 75 := by omega
    rcases this with h | h | h | h <;> rw [h] <;> rfl
  unfold engineNo
  omega

/-- What a reduction packet does (R365). -/
def State.redPacketArrives (s : State) (u : Nat) (pkt : Bytes) (crcOk : Bool) : State :=
  (s.redArrive u pkt crcOk).allrArrived (tagEngine u (redHeader pkt).kind) (redHeader pkt).tag

end Sys2Proof.Machine

open Sys2Proof Sys2Proof.Machine

/-- Settles O35: each command by what its effect comes to; a result and a verdict by the writes of sound memory. -/
theorem reductionsOpenHoldAndDeliver : Obligations.ReductionsOpenHoldAndDeliver := by
  unfold Obligations.ReductionsOpenHoldAndDeliver
  refine ⟨?_, ?_, ?_, ?_⟩
  · intro s s₁ u k p tag hr hfree hfound hst ha hz hz' hroom hnone hhold hread hdest hnot hquiet
    have hopens := State.ropen_opens hfree hfound hst ha hz hz' hroom hnone hread hdest
    obtain ⟨hengine, htag⟩ := State.readTag_inr hread
    have hread' := (s.onOp u k fun o => { o with tag := s.get F.SCH_EPOCH.VALUE (unitDie u) }).readTag_frame u (pay p 8 2) (pay p 10 1)
      (bytesOf p)
    have hops := (s.onOp u k fun o => { o with tag := s.get F.SCH_EPOCH.VALUE (unitDie u) }).readTag_opsStand u (pay p 8 2) (pay p 10 1)
      (bytesOf p)
    rw [hread] at hread' hops
    have hrdx : s₁.rdx = s.rdx := hread'.parts .rdx (by decide)
    have hopen : ((s₁.onRdx fun r => { r with tags := r.tags ++ [tag] }).waitOp u k).openTag u (pay p 8 2) = some tag := by
      have hnone' : s₁.openTag u (pay p 8 2) = none := (State.openTag_congr hrdx _ _).trans hnone
      show (s₁.rdx.tags ++ [tag]).find? _ = _
      rw [List.find?_append, show s₁.rdx.tags.find? _ = none from hnone']
      simp [hengine, htag]
    have hwaits := State.afterOpen_waits (s := (s₁.onRdx fun r => { r with tags := r.tags ++ [tag] }).waitOp u k) (u := u) (p := p)
      ((congrArg RdxSt.hold hrdx).trans hhold) hopen hnot
    rw [← hopens] at hwaits
    have hlen : k < (s₁.unit u).ops.length := by
      rw [hops u, State.onOp, State.unit_onUnit]
      simpa [updateAt] using length_of_findIdx hfound
    refine ⟨_, exec_eq_next (effect := fun s => (s.ropen u p).afterOpen u p) hr rfl hwaits ?_, ?_, ?_, ?_⟩
    · rw [hopens]
      exact hquiet.trans hr.2.2.symm
    · rw [hopens]
      exact hopen
    · rw [hopens]
      show (((s₁.onRdx fun r => { r with tags := r.tags ++ [tag] }).waitOp u k).opAt u k).state = _
      rw [State.waitOp, State.opAt_onOp _ (by exact hlen)]
    · rw [hopens]
      rfl
  · intro s u k p tag hr hfree hopen hallr hpay hall hfound hst ha htags htrouble result w hfailed hpending hquiet
    have heff := State.allr_closes hfree hopen hallr hpay hall hfound hst ha htrouble w rfl hfailed hpending
    have hwrites : Frame ⟨accessParts, accessRegs, false⟩ (s.closeTag u (pay p 16 2)) w.state := State.writeAll_frame ..
    have hops : s.OpsStand w.state := ((State.OpsStand.refl s).step (State.closeTag_frame s u (pay p 16 2))).trans
      (State.writeAll_opsStand _ _ _ _ _)
    refine ⟨_, exec_eq_next (effect := fun s => s.allr u p) hr rfl heff (hquiet.trans hr.2.2.symm), ?_, ?_, rfl⟩
    · exact (State.openTag_congr (hwrites.parts .rdx (by decide)) _ _).trans (State.openTag_closeTag _ _ _)
    · rw [State.finishOp, State.opAt_onOp _ (by rw [hops u]; exact length_of_findIdx hfound)]
      rfl
  · intro s u pkt crcOk hr h q hnot
    refine ⟨fun hstray => ?_, fun hcrc hstep hgroup => ⟨fun hnone hroom => ?_, fun x hopen hround hkind hcount hd hinv => ?_⟩⟩
    · have heff : s.redPacketArrives u pkt crcOk = (s.bump F.RDX_STRAY.VALUE 1 (unitDie u) (unitInst u)).flag F.RDX_EVENTS.STRAY (unitDie u)
          (unitInst u) := by
        rw [State.redPacketArrives, State.redArrive_stray hstray]
        exact State.allrArrived_of_not_allr hnot
      refine Completes.of_alters (effect := fun s => s.redPacketArrives u pkt crcOk) hr rfl ?_ ?_
      · rw [heff]
        exact ((State.Alters.refl s).put (by simp) rfl).put (by simp) rfl
      · rw [heff]
        refine ⟨State.on_flag_same _ _ _ _ (by decide) (by decide), ?_⟩
        rw [State.flag, State.get_put_reg (by decide), State.get_bump_same _ _ _ _ _ (by decide)]
    · refine exec_eq_next (effect := fun s => s.redPacketArrives u pkt crcOk) hr rfl ?_ rfl
      rw [State.redPacketArrives, State.redArrive_held hcrc hstep hgroup hnone hroom]
      refine State.allrArrived_of_not_allr fun x hx => ?_
      exact absurd (hx.symm.trans hnone) (by simp)
    · intro a _ hback hsound
      have hq : q = u := by simp only [q, tagEngine, show h.kind = 2 from hkind]; rfl
      rw [hq] at hopen hnot
      obtain ⟨hload, hother, hopened, hfatal⟩ := State.delivered_spec (u := u) (tag := h.tag) hinv.1 hsound (fieldAt_lt pkt 16 4)
      have hused : s.redArrive u pkt crcOk = (s.delivered u h.tag a (fieldAt pkt 16 4)).tagProgress u h.tag := by
        rw [State.redArrive_used (x := x) hcrc hstep hgroup (by rw [show tagEngine u (redHeader pkt).kind = u from hq]; exact hopen) hround,
          show tagEngine u (redHeader pkt).kind = u from hq]
        exact State.usePacket_result hopen hkind hcount hd hsound
      have hprogress := (s.delivered u h.tag a (fieldAt pkt 16 4)).tagProgress_frame u h.tag
      have hstays : ((s.delivered u h.tag a (fieldAt pkt 16 4)).tagProgress u h.tag).allrArrived u h.tag =
          (s.delivered u h.tag a (fieldAt pkt 16 4)).tagProgress u h.tag := by
        refine State.allrArrived_of_not_allr fun y hy => ?_
        rcases State.openTag_tagProgress (s.delivered u h.tag a (fieldAt pkt 16 4)) u h.tag with hnone | hsame
        · exact absurd (hy.symm.trans hnone) (by simp)
        · rw [hsame, hopened, hopen] at hy
          obtain rfl := Option.some_injective _ hy
          exact hnot x hopen
      have heff : s.redPacketArrives u pkt crcOk = (s.delivered u h.tag a (fieldAt pkt 16 4)).tagProgress u h.tag := by
        rw [State.redPacketArrives, hused, show tagEngine u (redHeader pkt).kind = u from hq]
        exact hstays
      refine ⟨_, exec_eq_next (effect := fun s => s.redPacketArrives u pkt crcOk) hr rfl heff (hprogress.fatal_eq.trans hfatal), ?_,
        fun b hb => ?_⟩
      · rw [State.load, State.bytes_congr hprogress.mem_eq]
        exact hload
      · rw [State.byte_congr hprogress.mem_eq]
        exact hother b hb
  · intro s u tag element hr
    refine ⟨fun hnone => exec_eq_next (effect := fun s => s.checkMissed u tag element) hr rfl ?_, fun x hopen hsum hsound hback hinv => ?_⟩
    · unfold State.checkMissed
      split
      · rfl
      · next t ht => rw [if_pos (by rw [hnone t ht]; rfl)]
    · have heff : s.checkMissed u tag element = ((s.noteMissed u tag element).setVerdict u 2).tagProgress u tag := by
        have hsome : (lookupKey element x.sums).isNone = false := by simpa using hsum
        simp only [State.checkMissed, hopen, hsome, Bool.false_eq_true, if_false]
      have hevent : (s.noteMissed u tag element).on F.RDX_EVENTS.CHECK_TIMEOUT (unitDie u) (unitInst u) = true :=
        State.on_flag_same _ _ _ _ (by decide) (by decide)
      have hflag : Frame ⟨[.rdx], [.RDX_EVENTS], false⟩ s (s.noteMissed u tag element) :=
        ((Frame.refl s).step (State.onTag_frame _ _ _ _)).step (State.put_touch _ _ _ _ _)
      generalize s.noteMissed u tag element = f at heff hevent hflag
      have hbase : f.get F.RDX_VERDICT_ADDR.BASE 72 = s.get F.RDX_VERDICT_ADDR.BASE 72 := hflag.get_eq _ _ _
      obtain ⟨hbit, hverdict⟩ := State.setVerdict_spec (s := f) (u := u) (n := 2) (by rw [hflag.mem_eq]; exact hinv.1) (by decide)
        (engineNo_lt hr.1) (by rw [hbase]; exact State.soundSpan_congr (hflag.parts .hbm (by decide)) (hflag.parts .oasis (by decide)) hsound)
      have hprogress := (f.setVerdict u 2).tagProgress_frame u tag
      refine ⟨_, exec_eq_next (effect := fun s => s.checkMissed u tag element) hr rfl heff
        (hprogress.fatal_eq.trans (hverdict.fatal_eq.trans hflag.fatal_eq)), ?_, ?_⟩
      · rw [hprogress.on_eq _ _ _, hverdict.on_eq _ _ _]
        exact hevent
      · rw [State.byte_congr hprogress.mem_eq, ← hbase]
        exact hbit

end

/-! # A flit arrives at a Vemen port

What a port with nothing to send does with a flit (R390 to R395): it counts the codewords, and then it asks for a replay or takes the
flit and acknowledges it. -/

section

namespace Sys2Proof.Machine

/-- A port's state is in the fabric part alone. -/
theorem State.vlk_congr {s t : State} (h : t.vrt = s.vrt) (die inst : Nat) : t.vlk die inst = s.vlk die inst := by
  rw [State.vlk, State.vlk, h]

@[simp] theorem State.vlk_put (s : State) (f : Fld) (v d i die inst : Nat) : (s.put f v d i).vlk die inst = s.vlk die inst := rfl
@[simp] theorem State.vlk_bump (s : State) (f : Fld) (v d i die inst : Nat) : (s.bump f v d i).vlk die inst = s.vlk die inst := rfl
@[simp] theorem State.vlk_emit (s : State) (o : Out) (die inst : Nat) : (s.emit o).vlk die inst = s.vlk die inst := rfl

@[simp] theorem State.vlk_sendIdle (s : State) (die inst : Nat) (nak : Bool) (a b n : Nat) :
    (s.sendIdle die inst nak a b n).vlk die inst = s.vlk die inst := rfl

@[simp] theorem State.vlk_onVlk (s : State) (die inst : Nat) (f : VlkPort → VlkPort) :
    (s.onVlk die inst f).vlk die inst = f (s.vlk die inst) := by
  simp only [State.vlk, State.onVlk, State.onVrt, lookupKey_setKey_same, Option.getD_some]

@[simp] theorem State.get_onVlk (s : State) (die inst : Nat) (f : VlkPort → VlkPort) (g : Fld) (d i : Nat) :
    (s.onVlk die inst f).get g d i = s.get g d i := State.get_congr rfl g d i

/-- A port with no flit waiting and no open batch has nothing to send. -/
theorem State.drain_of_idle {s : State} {die inst : Nat} (hq : (s.vlk die inst).queue = []) (hb : (s.vlk die inst).batch = []) :
    s.drain die inst = s := by
  have hready (tc : Nat) : (s.vlk die inst).ready tc = none := by rw [VlkPort.ready, hq, List.find?_nil]
  have hflit : s.nextFlit die inst = none := by
    unfold State.nextFlit
    extract_lets p w other
    simp only [show ∀ tc, p.ready tc = none from hready, ite_self, Option.map_none]
  have hnext : s.sendNext die inst = none := by
    unfold State.sendNext
    extract_lets p
    rw [show p.batch = [] from hb, hflit, if_neg (by simp : ¬ 15 ≤ ([] : List Bytes).length), ite_self]
  rw [State.drain, hq]
  show State.drainPort 2 s die inst = s
  rw [State.drainPort, hnext]

/-- Sound codewords are counted (R386). -/
theorem State.countFec_sound (s : State) (die inst corrected : Nat) :
    s.countFec die inst corrected 0 = (s.bump F.VLK_FEC.LOW corrected die inst).bump F.VLK_FEC.HIGH 0 die inst := by
  rw [State.countFec, if_pos rfl]

theorem State.vlkUp_countFec (s : State) (die inst corrected : Nat) :
    (s.countFec die inst corrected 0).vlkUp die inst = s.vlkUp die inst := by
  rw [State.countFec_sound, State.vlkUp, State.vlkUp, State.bump, State.get_put_reg (by decide), State.bump,
    State.get_put_reg (by decide)]

theorem State.vlk_countFec (s : State) (die inst corrected : Nat) :
    (s.countFec die inst corrected 0).vlk die inst = s.vlk die inst := by
  rw [State.countFec_sound, State.vlk_bump, State.vlk_bump]

theorem State.countFec_alters (s : State) (die inst corrected : Nat) {parts : List Part} {fs : List (Fld × Nat × Nat)}
    (hl : (F.VLK_FEC.LOW, die, inst) ∈ fs) (hh : (F.VLK_FEC.HIGH, die, inst) ∈ fs) :
    State.Alters parts fs s (s.countFec die inst corrected 0) := by
  rw [State.countFec_sound]
  exact ((State.Alters.refl s).put hl rfl).put hh rfl

/-- The idle flit with which a port acknowledges, or asks for a replay (R390). -/
theorem State.sendIdle_out (s : State) (die inst : Nat) (nak : Bool) : (s.sendIdle die inst nak 0 0 0).out =
    s.out ++ [.vlkFlit die inst { type := 0, ack := ((s.vlk die inst).rxSeq + 4095) % 4096, nak := nak : Flit }.bytes] := rfl

/-- A flit that asks for a replay. -/
theorem State.reject_asks {s : State} {die inst : Nat} {again : Bool} (h : again = true ∨ (s.vlk die inst).nakSent = false) :
    s.reject die inst again = (s.onVlk die inst fun p => { p with nakSent := true }).sendIdle die inst true 0 0 0 := by
  unfold State.reject
  rw [if_neg]
  rcases h with h | h <;> simp [h]

/-- A flit in sequence that no batch protects is accepted (R392). -/
theorem State.acceptFlit_plain {s : State} {die inst : Nat} {b : Bytes} (ht : (Flit.ofBytes b).type ≠ 3)
    (hs : s.vlkSec die inst = false ∨ (Flit.ofBytes b).tc = 0) :
    s.acceptFlit die inst b = (s.bump F.VLK_RX_FLITS.VALUE 1 die inst).onVlk die inst fun p =>
      { p with rxSeq := ((Flit.ofBytes b).seq + 1) % 4096, nakSent := false, rx := p.rx ++ [b] } := by
  have hw : ((s.bump F.VLK_RX_FLITS.VALUE 1 die inst).vlkSec die inst && (Flit.ofBytes b).tc != 0) = false := by
    rw [State.vlkSec, State.on, State.bump, State.get_put_reg (by decide), ← State.on, ← State.vlkSec]
    rcases hs with h | h <;> simp [h]
  unfold State.acceptFlit
  extract_lets f s1 wait
  have hwait : wait = false := hw
  rw [if_neg ht, hwait]
  rfl

/-- What follows the counting of the codewords, for a whole flit that acknowledges nothing that is kept and brings no credits. -/
theorem State.receiveFlit_whole {s : State} {die inst corrected : Nat} {b : Bytes} (hu : s.vlkUp die inst = true)
    (hcrc : flitCrcOk b = true) (hnak : (Flit.ofBytes b).nak = false) (hc : (Flit.ofBytes b).ccount = 0)
    (hr : (s.vlk die inst).retry = []) :
    s.receiveFlit die inst b corrected 0 =
      let s := s.countFec die inst corrected 0
      if (Flit.ofBytes b).type = 0 then s.drain die inst
      else if (Flit.ofBytes b).seq ≠ (s.vlk die inst).rxSeq then (s.reject die inst false).drain die inst
      else
        let s := s.acceptFlit die inst b
        (if (s.vlk die inst).nakSent then s else s.sendIdle die inst false 0 0 0).drain die inst := by
  have hu' := (s.vlkUp_countFec die inst corrected).trans hu
  have hack : (s.countFec die inst corrected 0).takeAck die inst (Flit.ofBytes b).ack = s.countFec die inst corrected 0 := by
    rw [State.takeAck, s.vlk_countFec, hr]
    rfl
  have hcred : (s.countFec die inst corrected 0).portCredits die inst (Flit.ofBytes b) = s.countFec die inst corrected 0 :=
    if_pos hc
  unfold State.receiveFlit
  simp only [hu, hu', hcrc, hack, hcred, hnak, Bool.not_true, Bool.false_eq_true, if_false, bne_self_eq_false, Bool.or_self]

/-- A flit whose CRC fails asks for a replay (R392). -/
theorem State.receiveFlit_broken {s : State} {die inst corrected : Nat} {b : Bytes} (hu : s.vlkUp die inst = true)
    (hcrc : flitCrcOk b = false) :
    s.receiveFlit die inst b corrected 0 = (s.countFec die inst corrected 0).reject die inst true := by
  have hu' := (s.vlkUp_countFec die inst corrected).trans hu
  unfold State.receiveFlit
  simp only [hu, hu', hcrc, Bool.not_true, Bool.false_eq_true, if_false, bne_self_eq_false, Bool.not_false, Bool.or_true, if_true]

section
variable {s : State} {die inst corrected : Nat} {b : Bytes} (hu : s.vlkUp die inst = true) (hcrc : flitCrcOk b = true)
  (hnak : (Flit.ofBytes b).nak = false) (hc : (Flit.ofBytes b).ccount = 0) (hr : (s.vlk die inst).retry = [])
  (hq : (s.vlk die inst).queue = []) (hb : (s.vlk die inst).batch = [])
include hu hcrc hnak hc hr hq hb

/-- An idle flit. -/
theorem State.receiveFlit_idle (h0 : (Flit.ofBytes b).type = 0) :
    s.receiveFlit die inst b corrected 0 = s.countFec die inst corrected 0 := by
  rw [State.receiveFlit_whole hu hcrc hnak hc hr]
  simp only [h0, if_true]
  exact State.drain_of_idle (by rw [s.vlk_countFec, hq]) (by rw [s.vlk_countFec, hb])

/-- A flit that is not the next one. -/
theorem State.receiveFlit_astray (h0 : (Flit.ofBytes b).type ≠ 0) (hseq : (Flit.ofBytes b).seq ≠ (s.vlk die inst).rxSeq)
    (hsent : (s.vlk die inst).nakSent = false) :
    s.receiveFlit die inst b corrected 0 = ((s.countFec die inst corrected 0).onVlk die inst fun p =>
      { p with nakSent := true }).sendIdle die inst true 0 0 0 := by
  rw [State.receiveFlit_whole hu hcrc hnak hc hr]
  simp only [if_neg h0, s.vlk_countFec, if_pos hseq]
  rw [State.reject_asks (.inr (by rw [s.vlk_countFec, hsent]))]
  exact State.drain_of_idle (by simp [s.vlk_countFec, hq]) (by simp [s.vlk_countFec, hb])

/-- The next flit, which no batch protects. -/
theorem State.receiveFlit_next (ht : (Flit.ofBytes b).type = 1 ∨ (Flit.ofBytes b).type = 2)
    (hseq : (Flit.ofBytes b).seq = (s.vlk die inst).rxSeq) (hsec : s.vlkSec die inst = false ∨ (Flit.ofBytes b).tc = 0) :
    s.receiveFlit die inst b corrected 0 =
      (((s.countFec die inst corrected 0).bump F.VLK_RX_FLITS.VALUE 1 die inst).onVlk die inst fun p =>
        { p with rxSeq := ((Flit.ofBytes b).seq + 1) % 4096, nakSent := false, rx := p.rx ++ [b] }).sendIdle die inst false 0 0 0 := by
  have hsec' : (s.countFec die inst corrected 0).vlkSec die inst = false ∨ (Flit.ofBytes b).tc = 0 := by
    refine hsec.imp_left fun h => ?_
    rwa [State.countFec_sound, State.vlkSec, State.on, State.bump, State.get_put_reg (by decide), State.bump,
      State.get_put_reg (by decide)]
  rw [State.receiveFlit_whole hu hcrc hnak hc hr]
  simp only [s.vlk_countFec]
  rw [if_neg (by omega), if_neg (not_not.mpr hseq), State.acceptFlit_plain (by omega) hsec', State.vlk_onVlk, if_neg (by simp)]
  exact State.drain_of_idle (by simp [s.vlk_countFec, hq]) (by simp [s.vlk_countFec, hb])

end

/-- The acknowledgement that goes out for an accepted flit names it. -/
theorem ack_of_next {n : Nat} (h : n < 4096) : ((n + 1) % 4096 + 4095) % 4096 = n := by omega

theorem seq_lt (b : Bytes) : (Flit.ofBytes b).seq < 4096 := bits_lt ..

end Sys2Proof.Machine

open Sys2Proof Sys2Proof.Machine

/-- Settles O36: by what the flit is, after the counting of its codewords; the port has nothing to send on. -/
theorem portsTakeFlitsInSequence : Obligations.PortsTakeFlitsInSequence := by
  intro s die inst flit corrected hr c f p
  have he : exec c s = act c s fun s => s.receiveFlit die inst flit corrected 0 := rfl
  have hasks : State.Alters [.vrt, .out] [(F.VLK_FEC.LOW, die, inst), (F.VLK_FEC.HIGH, die, inst)] s
      (((s.countFec die inst corrected 0).onVlk die inst fun p => { p with nakSent := true }).sendIdle die inst true 0 0 0) :=
    ((s.countFec_alters die inst corrected (by simp) (by simp)).frame (State.onVlk_frame ..) ⟨rfl, rfl⟩ (by simp)).frame
      (State.sendIdle_frame ..) ⟨rfl, rfl⟩ (by simp)
  have hport := s.vlk_countFec die inst corrected
  refine ⟨fun hdown => ?_, fun hu hcrc => ?_,
    fun hu hcrc hnak hcc hqueue hbatch hretry => ⟨fun h0 => ?_, fun hne hseq hsent => ?_, fun ht hseq hsec => ?_⟩⟩
  · refine exec_eq_next hr he ?_
    rw [State.receiveFlit, hdown]
    rfl
  · refine .of_alters hr he ?_ ?_ <;> rw [State.receiveFlit_broken hu hcrc, State.reject_asks (.inl rfl)]
    · exact hasks
    · rw [State.sendIdle_out]
      simp only [State.vlk_sendIdle, State.vlk_onVlk, hport]
      exact ⟨rfl, rfl, by rw [State.countFec_sound]; rfl⟩
  · refine .of_alters hr he ?_ ?_ <;> rw [State.receiveFlit_idle hu hcrc hnak hcc hretry hqueue hbatch h0]
    · exact s.countFec_alters die inst corrected (by simp) (by simp)
    · rw [hport]
      exact ⟨rfl, rfl⟩
  · refine .of_alters hr he ?_ ?_ <;> rw [State.receiveFlit_astray hu hcrc hnak hcc hretry hqueue hbatch hne hseq hsent]
    · exact hasks
    · rw [State.sendIdle_out]
      simp only [State.vlk_sendIdle, State.vlk_onVlk, hport]
      exact ⟨rfl, trivial, by rw [State.countFec_sound]; rfl⟩
  · refine .of_alters hr he ?_ ?_ <;> rw [State.receiveFlit_next hu hcrc hnak hcc hretry hqueue hbatch ht hseq hsec]
    · exact (((s.countFec_alters die inst corrected (by simp) (by simp)).put (f := F.VLK_RX_FLITS.VALUE) (by simp) rfl).frame
        (State.onVlk_frame ..) ⟨rfl, rfl⟩ (by simp)).frame (State.sendIdle_frame ..) ⟨rfl, rfl⟩ (by simp)
    · rw [State.sendIdle_out]
      simp only [State.vlk_sendIdle, State.vlk_onVlk, State.vlk_bump, hport, ack_of_next (seq_lt flit)]
      refine ⟨?_, rfl, by rw [State.countFec_sound]; rfl⟩
      rw [hseq]

end

/-! # Routers and remote accesses

What becomes of a packet that comes over the ring (R397 to R409), which TC0 packet a die admits (R581), and how an access to another
module ends (R412). -/

section

namespace Sys2Proof.Machine

/-! ### The first of a list in ascending order -/

theorem insertBy_sorted {α : Type} {key : α → Nat} (x : α) {l : List α} (h : l.Pairwise fun a b => key a ≤ key b) :
    (insertBy key x l).Pairwise fun a b => key a ≤ key b := by
  induction l with
  | nil => exact List.pairwise_singleton _ _
  | cons y l ih =>
    obtain ⟨hy, hl⟩ := List.pairwise_cons.1 h
    rw [insertBy]
    split
    · next hlt =>
      refine List.pairwise_cons.2 ⟨fun z hz => ?_, h⟩
      rcases List.mem_cons.1 hz with rfl | hz
      · exact hlt.le
      · exact hlt.le.trans (hy z hz)
    · next hge =>
      refine List.pairwise_cons.2 ⟨fun z hz => ?_, ih hl⟩
      rcases mem_insertBy hz with rfl | hz
      · exact not_lt.1 hge
      · exact hy z hz

theorem mem_insertBy_of {α : Type} {key : α → Nat} {x y : α} {l : List α} (h : y = x ∨ y ∈ l) : y ∈ insertBy key x l := by
  induction l with
  | nil => simpa [insertBy] using h
  | cons z l ih =>
    rw [insertBy]
    split
    · simpa using h
    · rcases h with h | h
      · exact List.mem_cons_of_mem _ (ih (.inl h))
      · rcases List.mem_cons.1 h with rfl | h
        · exact List.mem_cons_self
        · exact List.mem_cons_of_mem _ (ih (.inr h))

theorem sortBy_sorted {α : Type} (key : α → Nat) (xs : List α) : (sortBy key xs).Pairwise fun a b => key a ≤ key b := by
  suffices h : ∀ acc : List α, acc.Pairwise (fun a b => key a ≤ key b) →
      (xs.foldl (fun acc x => insertBy key x acc) acc).Pairwise fun a b => key a ≤ key b from h [] .nil
  induction xs with
  | nil => exact fun acc h => h
  | cons x xs ih => exact fun acc h => ih _ (insertBy_sorted x h)

theorem mem_sortBy_of {α : Type} {key : α → Nat} {y : α} {xs : List α} (h : y ∈ xs) : y ∈ sortBy key xs := by
  suffices hall : ∀ acc : List α, y ∈ acc ∨ y ∈ xs → y ∈ xs.foldl (fun acc x => insertBy key x acc) acc from hall [] (.inr h)
  clear h
  induction xs with
  | nil => exact fun acc h => by simpa using h
  | cons x xs ih =>
    refine fun acc h => ih _ ?_
    rcases h with h | h
    · exact .inl (mem_insertBy_of (.inr h))
    · exact (List.mem_cons.1 h).imp (fun e => mem_insertBy_of (.inl e)) id

/-- The first in ascending order has the least key. -/
theorem head?_sortBy_le {α : Type} {key : α → Nat} {xs : List α} {x y : α} (h : (sortBy key xs).head? = some x) (hy : y ∈ xs) :
    key x ≤ key y := by
  have hsorted := sortBy_sorted key xs
  have hmem := mem_sortBy_of (key := key) hy
  rcases hs : sortBy key xs with _ | ⟨z, l⟩ <;> rw [hs] at h hsorted hmem
  · exact absurd hmem List.not_mem_nil
  · obtain rfl : z = x := by simpa using h
    rcases List.mem_cons.1 hmem with rfl | hl
    · exact le_rfl
    · exact (List.pairwise_cons.1 hsorted).1 y hl

/-- The TC0 packet that goes next stands first in the order of R581. -/
theorem State.nextTc0_le {s : State} {die : Nat} {k : Packet} (h : s.nextTc0 die = some k) {q : Nat × Packet} (hq : q ∈ s.vrt.tc0)
    (hd : q.1 = die) : tc0Rank k.payload ≤ tc0Rank q.2.payload := by
  obtain ⟨x, hx, rfl⟩ := Option.map_eq_some_iff.1 h
  exact head?_sortBy_le (key := fun p : Nat × Packet => tc0Rank p.2.payload) hx (List.mem_filter.2 ⟨hq, by simpa using hd⟩)

theorem foldl_keeps {α β γ : Type} {f : α → β → α} {q : α → γ} (h : ∀ a b, q (f a b) = q a) (l : List β) (a : α) :
    q (l.foldl f a) = q a := by
  induction l generalizing a with
  | nil => rfl
  | cons b l ih => exact (ih _).trans (h a b)

/-! ### The TC0 queue under the forwarding of a packet -/

theorem State.sendFlit_tc0 (s : State) (die inst : Nat) (f : Flit) : (s.sendFlit die inst f).vrt.tc0 = s.vrt.tc0 := rfl

theorem State.sendTag_tc0 (s : State) (die inst : Nat) : (s.sendTag die inst).vrt.tc0 = s.vrt.tc0 := rfl

theorem State.sendNext_tc0 {s t : State} {die inst : Nat} (h : s.sendNext die inst = some t) : t.vrt.tc0 = s.vrt.tc0 := by
  unfold State.sendNext at h
  extract_lets p at h
  split at h
  · exact absurd h (by simp)
  · split at h
    · obtain rfl := Option.some.inj h
      exact s.sendTag_tc0 die inst
    · split at h
      · exact absurd h (by simp)
      · obtain rfl := Option.some.inj h
        rfl

theorem State.drainPort_tc0 (n : Nat) (s : State) (die inst : Nat) : (State.drainPort n s die inst).vrt.tc0 = s.vrt.tc0 := by
  induction n generalizing s with
  | zero => rfl
  | succ n ih =>
    rw [State.drainPort]
    split
    · rfl
    · next t ht => exact (ih t).trans (State.sendNext_tc0 ht)

theorem State.queuePacket_tc0 (s : State) (die inst : Nat) (k : Packet) : (s.queuePacket die inst k).vrt.tc0 = s.vrt.tc0 :=
  State.drainPort_tc0 ..

theorem State.leaveBuffer_tc0 (s : State) (die input : Nat) (k : Packet) : (s.leaveBuffer die input k).vrt.tc0 = s.vrt.tc0 := by
  unfold State.leaveBuffer
  extract_lets
  split <;> rfl

theorem State.enterRouter_tc0 (s : State) (die input : Nat) (k : Packet) : (s.enterRouter die input k).1.vrt.tc0 = s.vrt.tc0 := by
  unfold State.enterRouter
  split
  · exact s.leaveBuffer_tc0 die input k
  · split <;> rfl

theorem State.countHead_tc0 (s : State) (die input : Nat) (k : Packet) : (s.countHead die input k).vrt.tc0 = s.vrt.tc0 := by
  unfold State.countHead
  extract_lets
  split <;> rfl

theorem State.leaveBy_tc0 (s : State) (die input : Nat) (k : Packet) (p vc : Nat) : (s.leaveBy die input k p vc).vrt.tc0 = s.vrt.tc0 := by
  unfold State.leaveBy
  split
  · exact s.queuePacket_tc0 ..
  · rfl

theorem State.routeBy_tc0 (s : State) (die input : Nat) (k : Packet) (p vc : Nat) : (s.routeBy die input k p vc).vrt.tc0 = s.vrt.tc0 := by
  unfold State.routeBy
  split
  · rfl
  · exact s.leaveBy_tc0 ..

theorem State.forwardEscape_tc0 (s : State) (die input : Nat) (k : Packet) (primary alt : Nat) :
    (s.forwardEscape die input k primary alt).vrt.tc0 = s.vrt.tc0 := by
  unfold State.forwardEscape
  split
  · split
    · exact s.leaveBy_tc0 ..
    · rfl
  · split
    · exact s.routeBy_tc0 ..
    · split
      · extract_lets t
        refine (State.routeBy_tc0 ..).trans ?_
        show (State.vrt (ite _ _ _)).tc0 = _
        split <;> rfl
      · rfl

theorem State.deliverPacket_tc0 (s : State) (die input : Nat) (k : Packet) : (s.deliverPacket die input k).vrt.tc0 = s.vrt.tc0 := by
  unfold State.deliverPacket
  split
  · cases (s.entryRefusal k).2 <;> rfl
  · rfl

theorem State.forwardOne_tc0 (s : State) (die input : Nat) (k : Packet) : (s.forwardOne die input k).vrt.tc0 = s.vrt.tc0 := by
  unfold State.forwardOne
  split
  · split
    · exact s.leaveBy_tc0 ..
    · rfl
  · split
    · exact s.deliverPacket_tc0 ..
    · split
      · rfl
      · extract_lets
        split
        · exact s.routeBy_tc0 ..
        · exact s.forwardEscape_tc0 ..

theorem State.forwardBcast_tc0 (s : State) (die input : Nat) (k : Packet) : (s.forwardBcast die input k).vrt.tc0 = s.vrt.tc0 := by
  unfold State.forwardBcast
  split
  · rfl
  · extract_lets mask ring ports t
    have ht : t.vrt.tc0 = s.vrt.tc0 := by
      exact foldl_keeps (q := fun t => t.vrt.tc0) (fun t p => t.queuePacket_tc0 ..) ports s
    split <;> exact ht

/-- The forwarding of a packet leaves the TC0 packets that wait. -/
theorem State.forward_tc0 (s : State) (die input : Nat) (k : Packet) : (s.forward die input k).vrt.tc0 = s.vrt.tc0 := by
  unfold State.forward
  split
  next s₁ k₁ hent =>
  have henter : s₁.vrt.tc0 = s.vrt.tc0 := by rw [← s.enterRouter_tc0 die input k, hent]
  extract_lets s₂ k₂
  have hcount : s₂.vrt.tc0 = s.vrt.tc0 := (s₁.countHead_tc0 die input k₁).trans henter
  split
  · exact hcount
  · split
    next s₃ k₃ hp =>
    have hpass : s₃.vrt.tc0 = s.vrt.tc0 := by
      rw [← hcount, ← (s₂.passMark_frame die input k₂).vrt_eq, hp]
    split
    · exact (s₃.forwardBcast_tc0 ..).trans hpass
    · exact (s₃.forwardOne_tc0 ..).trans hpass

theorem State.signalLeft_vrt (s : State) (body : Bytes) : (s.signalLeft body).vrt = s.vrt := (s.signalLeft_frame body).vrt_eq

/-! ### A packet that comes over the ring -/

/-- A class other than TC0 bears no tick mark. -/
theorem State.passMark_of_ne {s : State} {die input : Nat} {k : Packet} (h : k.tc ≠ 0) : s.passMark die input k = (s, k) := by
  unfold State.passMark
  extract_lets
  rw [if_neg (fun h' => h h'.1)]

section
variable {s : State} {die input : Nat} {k : Packet} (hi : input = 6 ∨ input = 7)
include hi

theorem State.enterRouter_ring : s.enterRouter die input k = (s, k) := by
  rcases hi with rfl | rfl <;> rfl

/-- The 32nd hop is the last (R397). -/
theorem State.forward_spent (h : 31 ≤ k.hops) :
    s.forward die input k = (s.countHead die input k).discardPacket die { k with hops := k.hops + 1 } F.VRT_EVENTS.HOP_LIMIT := by
  unfold State.forward
  rw [State.enterRouter_ring hi]
  exact if_pos (by simpa using h)

theorem State.forward_ring (h : k.hops < 31) (ht : k.tc ≠ 0) :
    s.forward die input k = if k.bcast then (s.countHead die input k).forwardBcast die input { k with hops := k.hops + 1 }
      else (s.countHead die input k).forwardOne die input { k with hops := k.hops + 1 } := by
  unfold State.forward
  rw [State.enterRouter_ring hi]
  dsimp only
  rw [if_neg (by simpa using h), State.passMark_of_ne (by exact ht)]

/-- A packet that comes over the ring is past its global hop only by its channel (R401). -/
theorem State.afterGlobal_ring (hv : k.vc < 2) : s.afterGlobal die input k = false := by
  have h6 : ¬ input < 6 := by omega
  simp [State.afterGlobal, h6, show k.vc ≠ 2 by omega, show k.vc ≠ 3 by omega]

theorem State.deliverPacket_ring : s.deliverPacket die input k = s.emit (.packet die 8 k) :=
  if_neg fun h => by omega

/-- A packet whose port another die holds goes on over the ring (R404, R40). -/
theorem State.leaveBy_ring {p vc : Nat} (hp : portDie p ≠ die) (hv : k.vc < 2) (hvc : vc ≠ 5) :
    s.leaveBy die input k p vc = s.emit (.packet die (if ringHop die (portDie p) = 1 then 6 else 7) { k with vc := 0 }) := by
  unfold State.leaveBy
  rw [if_neg hp, State.afterGlobal_ring hi hv]
  simp [hvc, show k.vc ≠ 4 by omega, b2n]

theorem State.escapeVc_ring (hv : k.vc < 2) (p : Nat) : s.escapeVc die input k p ≠ 5 := by
  unfold State.escapeVc
  extract_lets dim late
  rw [State.afterGlobal_ring hi hv]
  generalize (s.on F.VLK_PORT_CFG.DATELINE (portDie p) (portInst p) || late) = dateline
  split
  · decide
  · decide
  · cases dateline <;> decide

end

/-- A discarded packet's flits are counted, and the event says why. -/
theorem State.discardPacket_spec (s : State) (die : Nat) (k : Packet) {event : Fld}
    (he : event.reg = .VRT_EVENTS ∧ event.len = 1 ∧ event.lo < 64) :
    (s.discardPacket die k event).on event die = true ∧ (s.discardPacket die k event).get F.VRT_COUNTS.HIGH die =
      min (s.get F.VRT_COUNTS.HIGH die + flitCount k.payload.length) (2 ^ 32 - 1) := by
  obtain ⟨hr, hl, hlo⟩ := he
  refine ⟨State.on_flag_same _ _ _ _ (by omega) (by omega), ?_⟩
  rw [State.discardPacket, State.flag, State.get_put_reg (by rw [hr]; decide)]
  exact State.get_bump_same _ _ _ _ _ (by decide)

theorem State.countHead_regs (s : State) (die input : Nat) (k : Packet) : (s.countHead die input k).regs = s.regs := by
  unfold State.countHead
  extract_lets
  split <;> rfl

theorem State.countHead_out (s : State) (die input : Nat) (k : Packet) : (s.countHead die input k).out = s.out :=
  (s.countHead_frame die input k).out_eq

theorem State.get_countHead (s : State) (die input : Nat) (k : Packet) (f : Fld) (d i : Nat) :
    (s.countHead die input k).get f d i = s.get f d i := State.get_congr (s.countHead_regs die input k) f d i

theorem State.portTakes_countHead (s : State) (die input p : Nat) (j k : Packet) :
    (s.countHead die input j).portTakes p k = s.portTakes p k := by
  simp only [State.portTakes, State.vlkUp, State.on, State.get_countHead]

theorem State.mirrorFor_countHead (s : State) (die input : Nat) (j k : Packet) :
    (s.countHead die input j).mirrorFor k = s.mirrorFor k := by
  simp only [State.mirrorFor, State.portRole, State.portTakes_countHead, State.get_countHead]

theorem State.route_countHead (s : State) (die input fd bank dest : Nat) (j : Packet) (f : Fld) :
    (s.countHead die input j).route fd bank dest f = s.route fd bank dest f := State.get_countHead ..

theorem State.moduleNo_countHead (s : State) (die input : Nat) (j : Packet) : (s.countHead die input j).moduleNo = s.moduleNo :=
  State.get_countHead ..

theorem State.erg_countHead (s : State) (die input : Nat) (j : Packet) : (s.countHead die input j).erg = s.erg :=
  State.get_countHead ..

theorem State.bcastEntry_countHead (s : State) (die input : Nat) (j k : Packet) :
    (s.countHead die input j).bcastEntry die k = s.bcastEntry die k := by
  simp only [State.bcastEntry, State.on, State.get_countHead]

/-- A packet of a class and channel without adaptive routing leaves by the port its route names. -/
theorem State.forwardOne_primary {s : State} {die input p : Nat} {k : Packet} (hi : input = 6 ∨ input = 7) (herg : k.destErg = s.erg)
    (hd : k.dest ≠ s.moduleNo) (hvalid : s.route die k.bank k.dest F.VRT_ROUTE.VALID ≠ 0)
    (hp : p = s.route die k.bank k.dest F.VRT_ROUTE.PRIMARY) (ht : k.tc ≠ 2) (hv : k.vc < 2) (htakes : s.portTakes p k = true)
    (hdie : portDie p ≠ die) :
    s.forwardOne die input k = s.emit (.packet die (if ringHop die (portDie p) = 1 then 6 else 7) { k with vc := 0 }) := by
  have hesc : s.onEscape die input k = true := by simp [State.onEscape, ht]
  unfold State.forwardOne
  rw [if_neg (not_not.mpr herg), if_neg hd, if_neg hvalid, hesc]
  dsimp only
  rw [if_pos rfl, ← hp]
  show s.forwardEscape die input k p _ = _
  rw [State.forwardEscape, if_neg (by omega), if_pos htakes, State.routeBy, State.afterGlobal_ring hi hv]
  exact State.leaveBy_ring hi hdie hv (State.escapeVc_ring hi hv p)

end Sys2Proof.Machine

open Sys2Proof Sys2Proof.Machine

/-- A packet that comes over the ring: the clauses of O38 about the routers. -/
theorem packetForward_over_ring (s : State) (die input : Nat) (k : Packet) (hr : s.Reaches (.packetForward die input k))
    (hi : input = 6 ∨ input = 7) :
    let gone := min (s.get F.VRT_COUNTS.HIGH die + flitCount k.payload.length) (2 ^ 32 - 1)
    (31 ≤ k.hops → ∃ t, exec (.packetForward die input k) s = .next t ∧ t.on F.VRT_EVENTS.HOP_LIMIT die = true ∧
      t.get F.VRT_COUNTS.HIGH die = gone ∧ t.out = s.out ∧ t.mem = s.mem) ∧
    (k.hops < 31 → k.tc ≠ 0 →
      (k.bcast = false → k.destErg = s.erg → k.dest = s.moduleNo → ∃ t, exec (.packetForward die input k) s = .next t ∧
        t.out = s.out ++ [.packet die 8 { k with hops := k.hops + 1 }] ∧ t.regs = s.regs ∧ t.mem = s.mem) ∧
      (k.bcast = false → k.destErg = s.erg → k.dest ≠ s.moduleNo → s.route die k.bank k.dest F.VRT_ROUTE.VALID = 0 →
        ∃ t, exec (.packetForward die input k) s = .next t ∧ t.on F.VRT_EVENTS.NO_ROUTE die = true ∧
          t.get F.VRT_COUNTS.HIGH die = gone ∧ t.out = s.out ∧ t.mem = s.mem) ∧
      (k.bcast = false → k.destErg ≠ s.erg → s.mirrorFor { k with hops := k.hops + 1 } = none →
        ∃ t, exec (.packetForward die input k) s = .next t ∧ t.on F.VRT_EVENTS.NO_ROUTE die = true ∧
          t.get F.VRT_COUNTS.HIGH die = gone ∧ t.out = s.out) ∧
      (k.bcast = true → s.bcastEntry die k = none →
        ∃ t, exec (.packetForward die input k) s = .next t ∧ t.on F.VRT_EVENTS.BCAST_NO_ENTRY die = true ∧
          t.get F.VRT_COUNTS.HIGH die = gone ∧ t.out = s.out) ∧
      (∀ p, k.bcast = false → k.destErg = s.erg → k.dest ≠ s.moduleNo → s.route die k.bank k.dest F.VRT_ROUTE.VALID ≠ 0 →
        p = s.route die k.bank k.dest F.VRT_ROUTE.PRIMARY → k.tc ≠ 2 → k.vc < 2 → s.portTakes p k = true → portDie p ≠ die →
        ∃ t, exec (.packetForward die input k) s = .next t ∧
          t.out = s.out ++ [.packet die (if ringHop die (portDie p) = 1 then 6 else 7) { k with hops := k.hops + 1, vc := 0 }])) := by
  intro gone
  have hgo : exec (.packetForward die input k) s = .next (s.forward die input k) :=
    exec_eq_next (effect := fun s => s.forward die input k) hr rfl rfl ((s.forward_frame die input k).fatal_eq)
  have hmem : (s.forward die input k).mem = s.mem := (s.forward_frame die input k).mem_eq
  have hdrop : ∀ {event : Fld}, event.reg = .VRT_EVENTS ∧ event.len = 1 ∧ event.lo < 64 →
      s.forward die input k = (s.countHead die input k).discardPacket die { k with hops := k.hops + 1 } event →
      (s.forward die input k).on event die = true ∧ (s.forward die input k).get F.VRT_COUNTS.HIGH die = gone ∧
        (s.forward die input k).out = s.out := fun he h => by
    obtain ⟨hon, hcount⟩ := (s.countHead die input k).discardPacket_spec die { k with hops := k.hops + 1 } he
    rw [s.get_countHead] at hcount
    rw [h]
    exact ⟨hon, hcount, s.countHead_out die input k⟩
  refine ⟨fun h => ?_, fun h ht => ?_⟩
  · obtain ⟨hon, hcount, hout⟩ := hdrop (by decide) (State.forward_spent hi h)
    exact ⟨_, hgo, hon, hcount, hout, hmem⟩
  have hone (hb : k.bcast = false) : s.forward die input k = (s.countHead die input k).forwardOne die input { k with hops := k.hops + 1 } :=
    (State.forward_ring hi h ht).trans (if_neg (by rw [hb]; decide))
  refine ⟨fun hb herg hd => ?_, fun hb herg hd hv => ?_, fun hb herg hm => ?_, fun hb he => ?_, fun p hb herg hd hv hp ht2 hvc htakes hdie => ?_⟩
  · have hrun : s.forward die input k = (s.countHead die input k).emit (.packet die 8 { k with hops := k.hops + 1 }) := by
      rw [hone hb]
      unfold State.forwardOne
      rw [s.erg_countHead, s.moduleNo_countHead]
      exact (if_neg (not_not.mpr herg)).trans ((if_pos hd).trans (State.deliverPacket_ring hi))
    refine ⟨_, hgo, ?_, ?_, hmem⟩ <;> rw [hrun]
    · exact congrArg (· ++ _) (s.countHead_out die input k)
    · exact s.countHead_regs die input k
  · obtain ⟨hon, hcount, hout⟩ := hdrop (event := F.VRT_EVENTS.NO_ROUTE) (by decide) (by
      rw [hone hb]
      unfold State.forwardOne
      rw [s.erg_countHead, s.moduleNo_countHead, s.route_countHead]
      exact (if_neg (not_not.mpr herg)).trans ((if_neg hd).trans (if_pos hv)))
    exact ⟨_, hgo, hon, hcount, hout, hmem⟩
  · obtain ⟨hon, hcount, hout⟩ := hdrop (event := F.VRT_EVENTS.NO_ROUTE) (by decide) (by
      rw [hone hb]
      unfold State.forwardOne
      rw [s.erg_countHead, s.mirrorFor_countHead, hm]
      exact if_pos herg)
    exact ⟨_, hgo, hon, hcount, hout⟩
  · obtain ⟨hon, hcount, hout⟩ := hdrop (event := F.VRT_EVENTS.BCAST_NO_ENTRY) (by decide) (by
      rw [State.forward_ring hi h ht, if_pos hb]
      unfold State.forwardBcast
      rw [s.bcastEntry_countHead, show s.bcastEntry die { k with hops := k.hops + 1 } = none from he])
    exact ⟨_, hgo, hon, hcount, hout⟩
  · refine ⟨_, hgo, ?_⟩
    rw [hone hb]
    rw [State.forwardOne_primary (k := { k with hops := k.hops + 1 }) (p := p) hi (by rw [s.erg_countHead]; exact herg)
      (by rw [s.moduleNo_countHead]; exact hd) (by rw [s.route_countHead]; exact hv) (by rw [s.route_countHead]; exact hp) ht2 hvc
      ((s.portTakes_countHead ..).trans htakes) hdie]
    exact congrArg (· ++ _) (s.countHead_out die input k)

/-- Settles O38: each packet by the branch of the router that takes it; the TC0 queue stands while a packet is forwarded; a remote
access is found by its tag. -/
theorem routersForwardAndRemoteAccessesEnd : Obligations.RoutersForwardAndRemoteAccessesEnd := by
  refine ⟨⟨packetForward_over_ring, fun s die hr => ⟨fun h => ?_, fun k h => ?_⟩⟩,
    fun s die tag status data hr => ⟨fun h => ?_, fun r h hgood => ?_⟩, fun s die tag hr => ⟨fun h => ?_, fun r h => ?_⟩⟩
  · refine exec_eq_next (effect := fun s => s.injectTc0 die) hr rfl ?_
    simp only [State.injectTc0, h]
  · have hgo := exec_eq_next (effect := fun s => s.injectTc0 die) hr rfl rfl (s.injectTc0_frame die).fatal_eq
    refine ⟨_, hgo, ?_, (s.injectTc0_frame die).mem_eq, fun q hq hd => State.nextTc0_le h hq hd⟩
    simp only [State.injectTc0, h]
    rw [State.signalLeft_vrt, State.forward_tc0]
    rfl
  · refine .of_alters (effect := fun s => s.remoteAnswer die tag status data) hr rfl ?_ ?_ <;> simp only [State.remoteAnswer, h]
    · exact ((State.Alters.refl s).put (f := F.VRT_LATE.LOW) (by simp) rfl).put (f := F.VRT_EVENTS.REMOTE_LATE) (by simp) rfl
    · refine ⟨State.on_flag_same _ _ _ _ (by decide) (by decide), ?_⟩
      rw [State.flag, State.get_put_reg (by decide)]
      exact State.get_bump_same _ _ _ _ _ (by decide)
  · refine exec_eq_next (effect := fun s => s.remoteAnswer die tag status data) hr rfl ?_
    have hgood' : ¬ ((decide (status = 0) && !r.write && data.length != r.len) = true) := by
      rcases hgood with hw | hs | hl <;> simp [*]
    simp only [State.remoteAnswer, h]
    rw [if_neg (by simpa using hgood')]
    simp [State.answer]
  · refine exec_eq_next (effect := fun s => s.remoteTimedOut die tag) hr rfl ?_
    simp only [State.remoteTimedOut, h]
  · refine .of_alters (effect := fun s => s.remoteTimedOut die tag) hr rfl ?_ ?_ <;> simp only [State.remoteTimedOut, h]
    · exact ((State.Alters.refl s).frame (State.onRem_frame _ _) ⟨rfl, rfl⟩ (by simp)).put (f := F.VRT_EVENTS.REMOTE_TIMEOUT) (by simp) rfl
    · exact ⟨State.on_flag_same _ _ _ _ (by decide) (by decide), rfl, rfl⟩

end

/-! # Register writes

What a write does to each field of a register, by its access code (R15 to R17, R638, R639). -/

section

namespace Sys2Proof.Machine

/-! ### The fields of a register -/

/-- Two fields that share no bit. -/
def FieldDef.Apart (f g : FieldDef) : Prop := f.lo + f.len ≤ g.lo ∨ g.lo + g.len ≤ f.lo

theorem FieldDef.Apart.symm {f g : FieldDef} (h : f.Apart g) : g.Apart f := Or.symm h

/-- The fields of a register share no bit and end within its 64. -/
theorem Reg.fields_apart (r : Reg) : (r.info.fields.Pairwise fun f g => f.lo + f.len ≤ g.lo ∨ g.lo + g.len ≤ f.lo) ∧
    ∀ f ∈ r.info.fields, f.lo + f.len ≤ 64 := by
  cases r <;> decide

/-! ### The word after a write -/

theorem bits_putBits_apart {f : FieldDef} {x v lo len : Nat} (h : f.lo + f.len ≤ lo ∨ lo + len ≤ f.lo) :
    bits (putBits x f.lo f.len v) lo len = bits x lo len :=
  h.elim bits_putBits_above bits_putBits_below

theorem testBit_bits (x lo len k : Nat) : (bits x lo len).testBit k = (decide (k < len) && x.testBit (lo + k)) := by
  simp only [bits, Nat.testBit_mod_two_pow, Nat.testBit_shiftRight]

theorem FieldDef.after_lt (f : FieldDef) (started : Bool) (old new shown hw : Nat) :
    f.after started old new shown hw < 2 ^ f.len := by
  have hcur := bits_lt old f.lo f.len
  have hnew := bits_lt new f.lo f.len
  unfold FieldDef.after
  extract_lets cur v
  split
  · exact hcur
  · exact hcur
  · split <;> assumption
  · split <;> assumption
  · exact Nat.or_lt_two_pow (Nat.xor_lt_two_pow hcur (Nat.and_lt_two_pow _ (bits_lt ..))) (bits_lt ..)

section
variable {started : Bool} {old new shown hw : Nat} {keep : List Nat}

/-- One field's turn in a write. -/
def fieldStep (started : Bool) (old new shown hw : Nat) (keep : List Nat) (w : Nat) (f : FieldDef) : Nat :=
  if keep.contains f.lo then w else putBits w f.lo f.len (f.after started old new shown hw)

theorem fieldsAfter_eq (fs : List FieldDef) :
    fieldsAfter fs started old new shown hw keep = fs.foldl (fieldStep started old new shown hw keep) old := rfl

/-- A field's turn leaves the bits of the others. -/
theorem bits_fieldStep_apart {f : FieldDef} {w lo len : Nat} (h : f.lo + f.len ≤ lo ∨ lo + len ≤ f.lo) :
    bits (fieldStep started old new shown hw keep w f) lo len = bits w lo len := by
  unfold fieldStep
  split
  · rfl
  · exact bits_putBits_apart h

theorem bits_foldl_fieldStep_apart {fs : List FieldDef} {w lo len : Nat}
    (h : ∀ f ∈ fs, f.lo + f.len ≤ lo ∨ lo + len ≤ f.lo) :
    bits (fs.foldl (fieldStep started old new shown hw keep) w) lo len = bits w lo len := by
  induction fs generalizing w with
  | nil => rfl
  | cons f fs ih =>
    rw [List.foldl_cons, ih fun g hg => h g (List.mem_cons_of_mem _ hg), bits_fieldStep_apart (h f List.mem_cons_self)]

theorem bits_foldl_fieldStep {fs : List FieldDef} (hp : fs.Pairwise FieldDef.Apart) {f : FieldDef} (hf : f ∈ fs) (w : Nat) :
    bits (fs.foldl (fieldStep started old new shown hw keep) w) f.lo f.len =
      if keep.contains f.lo then bits w f.lo f.len else f.after started old new shown hw := by
  induction fs generalizing w with
  | nil => exact absurd hf List.not_mem_nil
  | cons g fs ih =>
    obtain ⟨hg, hp⟩ := List.pairwise_cons.1 hp
    rw [List.foldl_cons]
    rcases List.mem_cons.1 hf with rfl | hf
    · rw [bits_foldl_fieldStep_apart fun k hk => (hg k hk).symm, fieldStep]
      split
      · rfl
      · rw [bits_putBits_same, Nat.mod_eq_of_lt (f.after_lt ..)]
    · rw [ih hp hf, bits_fieldStep_apart (hg f hf)]

theorem foldl_fieldStep_lt {fs : List FieldDef} (h : ∀ f ∈ fs, f.lo + f.len ≤ 64) {w : Nat} (hw' : w < 2 ^ 64) :
    fs.foldl (fieldStep started old new shown hw keep) w < 2 ^ 64 := by
  induction fs generalizing w with
  | nil => exact hw'
  | cons f fs ih =>
    refine ih (fun g hg => h g (List.mem_cons_of_mem _ hg)) ?_
    unfold fieldStep
    split
    · exact hw'
    · exact putBits_lt hw' (h f List.mem_cons_self)

end

/-! ### The state after a write -/

section
variable (s : State) (r : Reg) (die idx half v : Nat) (keep : List Nat) (hw : Nat)

/-- The word that a write leaves in its register. -/
theorem State.toNat_word_writeReg : ((s.writeReg r die idx half v keep hw).word r die idx).toNat =
    fieldsAfter r.info.fields s.started (s.word r die idx).toNat (halfWrite (s.word r die idx).toNat half v) (halfWrite 0 half v) hw
      keep := by
  rw [State.writeReg, State.word_setWord_same, BitVec.toNat_ofNat, Nat.mod_eq_of_lt]
  rw [fieldsAfter_eq]
  exact foldl_fieldStep_lt r.fields_apart.2 (s.word r die idx).isLt

/-- What a field holds after a write to its register. -/
theorem State.get_writeReg {f : FieldDef} (hf : f ∈ r.info.fields) :
    (s.writeReg r die idx half v keep hw).get ⟨r, f.lo, f.len⟩ die idx =
      if keep.contains f.lo then s.get ⟨r, f.lo, f.len⟩ die idx
      else f.after s.started (s.word r die idx).toNat (halfWrite (s.word r die idx).toNat half v) (halfWrite 0 half v) hw := by
  rw [State.get, State.toNat_word_writeReg, fieldsAfter_eq]
  exact bits_foldl_fieldStep r.fields_apart.1 hf _

theorem State.word_writeReg_place {r' : Reg} {d i : Nat} (h : r.place die idx ≠ r'.place d i) :
    (s.writeReg r die idx half v keep hw).word r' d i = s.word r' d i := State.word_setWord_ne h

/-- A field of another register, or of another place. -/
theorem State.get_writeReg_place {f : Fld} {d i : Nat} (h : r.place die idx ≠ f.reg.place d i) :
    (s.writeReg r die idx half v keep hw).get f d i = s.get f d i := by
  rw [State.get, State.get, s.word_writeReg_place r die idx half v keep hw h]

theorem State.get_writeReg_reg {f : Fld} {d i : Nat} (h : r ≠ f.reg) :
    (s.writeReg r die idx half v keep hw).get f d i = s.get f d i :=
  s.get_writeReg_place r die idx half v keep hw fun e => h (congrArg Loc.reg e)

theorem State.writeReg_part (p : Part) : p.same s (s.writeReg r die idx half v keep hw) := by cases p <;> rfl

/-- A write changes bits in the fields of its register alone (R17). -/
theorem KeepsBut.writeReg :
    KeepsBut (r.info.fields.map fun f => (⟨r, f.lo, f.len⟩, die, idx)) s (s.writeReg r die idx half v keep hw) := by
  intro r' d i k hk
  by_cases hp : r.place die idx = r'.place d i
  · have hr : r = r' := congrArg Loc.reg hp
    subst hr
    have hplace : ∀ u : State, u.word r d i = u.word r die idx := fun u => u.word_of_place hp.symm
    have hapart : ∀ f ∈ r.info.fields, f.lo + f.len ≤ k ∨ k + 1 ≤ f.lo := fun f hf =>
      (hk (⟨r, f.lo, f.len⟩, die, idx) (List.mem_map.2 ⟨f, hf, rfl⟩) hp).symm
    have hbit : bits ((s.writeReg r die idx half v keep hw).word r die idx).toNat k 1 = bits (s.word r die idx).toNat k 1 := by
      rw [State.toNat_word_writeReg, fieldsAfter_eq]
      exact bits_foldl_fieldStep_apart hapart
    rw [hplace, hplace]
    show Nat.testBit _ k = Nat.testBit _ k
    rw [← bit_eq_testBit, ← bit_eq_testBit, bit, bit, hbit]
  · rw [s.word_writeReg_place r die idx half v keep hw hp]

end

/-! ### A write without a rule of its own -/

section
variable {s : State} {r : Reg} {org die idx half v hw : Nat}

theorem State.clearBy_of_not_shown (h : ∀ f, r.clearField = some f → shows f half v = false) :
    s.clearBy r die idx half v = s := by
  unfold State.clearBy
  split
  · rfl
  · next f hf => rw [h f hf]; rfl

theorem State.regAction_unruled (h : r ∉ ruledRegs) (w shown : Nat) : s.regAction r org die idx half v w shown = s := by
  unfold State.regAction
  split
  iterate 16 next => exact absurd (by decide) h
  rfl

theorem State.plainWrite_unruled (h : r ∉ ruledRegs) (hhome : r.info.home.getD die = die)
    (hrun : r.heldByRun = true → s.on F.SCH_CTRL.RUN = false) : s.plainWrite r die idx half v hw = s.writeReg r die idx half v [] hw := by
  have hheld : ¬ (r.heldByRun && s.on F.SCH_CTRL.RUN) = true := by
    intro hb
    obtain ⟨h1, h2⟩ := Bool.and_eq_true_iff.1 hb
    rw [hrun h1] at h2
    exact absurd h2 (by decide)
  unfold State.plainWrite
  rw [if_neg (not_not.mpr hhome), if_neg hheld]
  split
  iterate 14 next => exact absurd (by decide) h
  rfl

/-- A write to a register without rules of its own, in its window. -/
theorem State.regWrite_unruled (h : r ∉ ruledRegs) (hhome : r.info.home.getD die = die)
    (hrun : r.heldByRun = true → s.on F.SCH_CTRL.RUN = false) (hclear : ∀ f, r.clearField = some f → shows f half v = false) :
    s.regWrite r org die idx half v hw = s.writeReg r die idx half v [] hw := by
  unfold State.regWrite
  extract_lets w shown
  rw [if_neg (not_not.mpr hhome)]
  split
  iterate 4 next => exact absurd (by decide) h
  rw [State.plainWrite_unruled h hhome hrun, State.clearBy_of_not_shown hclear, State.regAction_unruled h]

/-- A write in a window that is not the register's home. -/
theorem State.regWrite_elsewhere (h : r.info.home.getD die ≠ die) : s.regWrite r org die idx half v hw = s := by
  unfold State.regWrite
  exact if_pos h

end

/-- A write of a unit of the module to a defined register, with its answer. -/
theorem exec_registerWrite {s t : State} {org addr size v hw : Nat} {r : Reg} {die idx half : Nat}
    (hr : s.Reaches (.registerWrite org addr size v hw)) (hl : (s.localUnit org).isSome = true)
    (ha : accessReg addr size = some (r, die, idx, half)) (ht : s.regWrite r org die idx half v hw = t)
    (hf : t.flt.fatal = s.flt.fatal := by rfl) :
    exec (.registerWrite org addr size v hw) s = .next (t.emit (.response org addr 0 [])) := by
  refine exec_eq_next (effect := fun s => if inControl addr then s.controlWrite org addr size v hw else s) hr rfl ?_ hf
  have hin : inControl addr = true := by
    by_contra hne
    rw [accessReg, if_neg (by simp [hne])] at ha
    exact absurd ha (by simp)
  obtain ⟨u, hu⟩ := Option.isSome_iff_exists.1 hl
  simp only [hin, if_true, State.controlWrite, hu, ha, ht]

end Sys2Proof.Machine

open Sys2Proof Sys2Proof.Machine

/-- Settles O7: by the access code of each field of the register that the write names. -/
theorem registerWriteActsByAccessCode : Obligations.RegisterWriteActsByAccessCode := by
  intro s org addr size v hw r die idx half hr hl ha hrule hrun hclear
  by_cases hhome : r.info.home.getD die = die
  · refine ⟨_, exec_registerWrite hr hl ha (State.regWrite_unruled hrule hhome hrun hclear), fun p hp => ?_, rfl, rfl, ?_,
      fun hne => absurd hhome hne, fun _ f hf => ?_⟩
    · exact Part.same_trans (s.writeReg_part r die idx half v [] hw p) ((State.emit_frame _ _).parts p (by simpa using hp))
    · exact (KeepsBut.writeReg s r die idx half v [] hw).step rfl
    · have hgot := s.get_writeReg r die idx half v [] hw hf
      rw [List.contains_nil, if_neg (by decide)] at hgot
      intro old new got
      have hgot' : got = _ := (State.get_emit ..).trans hgot
      rw [hgot', FieldDef.after]
      cases f.acc with
      | ro => rfl
      | wo => rfl
      | rw => simp only [FieldDef.allows, Bool.and_eq_true, decide_eq_true_eq]; rfl
      | rwl => simp only [FieldDef.allows, Bool.and_eq_true, decide_eq_true_eq, Bool.not_eq_true']; rfl
      | w1c =>
        intro k hk
        simp only [Nat.testBit_or, Nat.testBit_xor, Nat.testBit_and, testBit_bits, hk, decide_true, Bool.true_and, old, State.get]
        cases Nat.testBit (s.word r die idx).toNat (f.lo + k) <;> cases (halfWrite 0 half v).testBit (f.lo + k) <;> rfl
  · refine ⟨_, exec_registerWrite hr hl ha (State.regWrite_elsewhere hhome), fun p hp => (State.emit_frame s _).parts p (by simpa using hp),
      rfl, rfl, .of_regs rfl, fun _ => rfl, fun h => absurd h hhome⟩

/-- Refutes O6: the statement ranges over every window number, and R384 gives a port's defaults for the fabric dies alone: in the window
of die 76 the model's default shows a ROLE that is not 0. -/
theorem not_resetLeavesTheResetColumn : ¬ Obligations.ResetLeavesTheResetColumn := by
  rintro ⟨-, hport, -⟩
  exact absurd (hport 76 0).2 (by decide)

end

/-! # Banks and routing; counters

The writes of the banks of a fabric die and of their entries (R403, R409, R410, R419 to R421), the writes that a register finds held
(R117, R355, R450, R637), and the zeroing of a block's counters (R185). -/

section

namespace Sys2Proof.Machine

/-! ### A field that takes any value -/

/-- A field of a whole write, in the value that was written. -/
theorem bits_mod_word (v : Nat) {lo len : Nat} (h : lo + len ≤ 64) : bits (v % 2 ^ 64) lo len = bits v lo len := by
  refine Nat.eq_of_testBit_eq fun k => ?_
  rw [testBit_bits, testBit_bits, Nat.testBit_mod_two_pow]
  by_cases hk : k < len
  · simp [hk, show lo + k < 64 by omega]
  · simp [hk]

/-- An RW field without a range of its own. -/
theorem FieldDef.after_rw (lo len : Nat) (h : len ≤ 64) (started : Bool) (old new shown hw : Nat) :
    (FieldDef.rw lo len).after started old new shown hw = bits new lo len := by
  have hlt : bits new lo len < 2 ^ 64 := (bits_lt new lo len).trans_le (Nat.pow_le_pow_right (by decide) h)
  have hallow : (FieldDef.rw lo len).allows (bits new lo len) = true := by
    rw [FieldDef.allows, Bool.and_eq_true, decide_eq_true_eq, decide_eq_true_eq]
    have hmost : (FieldDef.rw lo len).most = 0xFFFF_FFFF_FFFF_FFFF := rfl
    rw [hmost]
    exact ⟨Nat.zero_le _, by omega⟩
  exact if_pos hallow

/-- A whole write to an RW field without a range of its own. -/
theorem State.get_writeReg_rw (s : State) {r : Reg} {lo len : Nat} (hf : FieldDef.rw lo len ∈ r.info.fields) (die idx v : Nat)
    {keep : List Nat} (hk : keep.contains lo = false) : (s.writeReg r die idx 2 v keep).get ⟨r, lo, len⟩ die idx = bits v lo len := by
  have hle : lo + len ≤ 64 := r.fields_apart.2 _ hf
  have hget := s.get_writeReg r die idx 2 v keep 0 hf
  rw [show (FieldDef.rw lo len).lo = lo from rfl, show (FieldDef.rw lo len).len = len from rfl, hk, if_neg (by decide),
    FieldDef.after_rw lo len (by omega)] at hget
  exact hget.trans (bits_mod_word v hle)

/-- A field that a write keeps. -/
theorem State.get_writeReg_kept (s : State) {r : Reg} {f : FieldDef} (hf : f ∈ r.info.fields) (die idx half v : Nat)
    {keep : List Nat} (hk : keep.contains f.lo = true) :
    (s.writeReg r die idx half v keep).get ⟨r, f.lo, f.len⟩ die idx = s.get ⟨r, f.lo, f.len⟩ die idx := by
  rw [s.get_writeReg r die idx half v keep 0 hf, if_pos hk]

/-! ### Banks -/

/-- The fields of VRT_BANK that a write leaves to what follows it. -/
def State.barBank (s : State) (die half v : Nat) : State :=
  if s.on F.SCH_CTRL.RUN && (s.written F.VRT_BANK.CURRENT die 0 half v != s.bankOf die) then s.flag F.VRT_EVENTS.BANK_WRITE_DISCARD die
  else s

/-- The fields of VRT_BANK that a write keeps (R410). -/
def State.bankKeeps (s : State) (die half v : Nat) : List Nat :=
  (if bit (s.get F.VRT_BANK.VALID die) (s.bankOf die) && !bit (s.written F.VRT_BANK.VALID die 0 half v) (s.bankOf die) then [8]
    else []) ++ (if s.on F.SCH_CTRL.RUN then [0] else [])

theorem State.bankWrite_eq (s : State) (die half v : Nat) : s.bankWrite die half v =
    ((s.barBank die half v).writeReg .VRT_BANK die 0 half v (s.bankKeeps die half v)).showRouting.checkJoined := rfl

theorem State.bankKeeps_current (s : State) (die half v : Nat) :
    (s.bankKeeps die half v).contains 0 = s.on F.SCH_CTRL.RUN := by
  unfold State.bankKeeps
  cases s.on F.SCH_CTRL.RUN <;> split <;> rfl

theorem State.get_barBank (s : State) (die half v : Nat) {g : Fld} (h : g.reg ≠ .VRT_EVENTS) (d i : Nat) :
    (s.barBank die half v).get g d i = s.get g d i := by
  unfold State.barBank
  split
  · exact State.get_put_reg h.symm
  · rfl

/-- What ROUTING follows stands through its own showing. -/
theorem State.get_shown (s : State) {g : Fld} (h : g.reg = .VRT_BANK ∧ (g.lo + g.len ≤ 7 ∨ 8 ≤ g.lo)) (d : Nat) :
    s.showRouting.checkJoined.get g d = s.get g d := by
  rw [State.get_checkJoined _ (by rw [h.1]; decide), State.get_showRouting _ (.inr h.2)]

/-- Each fabric die reads ROUTING by its own bank in force (R419). -/
theorem State.on_shown (s : State) {d : Nat} (hd : d ∈ [72, 73, 74, 75]) : s.showRouting.checkJoined.on F.VRT_BANK.ROUTING d =
    ((s.showRouting.checkJoined.get F.VRT_BANK.VALID d).testBit (s.showRouting.checkJoined.get F.VRT_BANK.CURRENT d) &&
      !s.vrt.left) := by
  rw [s.get_shown (by decide), s.get_shown (by decide), State.on, State.get_checkJoined _ (by decide), ← State.on,
    s.on_showRouting hd]

theorem State.barBank_vrt (s : State) (die half v : Nat) : (s.barBank die half v).vrt = s.vrt := by
  unfold State.barBank
  split <;> rfl

theorem State.current_bankWrite (s : State) (die v : Nat) : (s.bankWrite die 2 v).get F.VRT_BANK.CURRENT die =
    if s.on F.SCH_CTRL.RUN then s.get F.VRT_BANK.CURRENT die else bits v F.VRT_BANK.CURRENT.lo 2 := by
  have hkeep := s.bankKeeps_current die 2 v
  rw [State.bankWrite_eq, State.get_shown _ (by decide)]
  split
  · next hrun =>
    rw [hrun] at hkeep
    exact (State.get_writeReg_kept _ (f := .rw 0 2) (by decide) die 0 2 v hkeep).trans (s.get_barBank die 2 v (by decide) die 0)
  · next hrun =>
    rw [Bool.not_eq_true] at hrun
    rw [hrun] at hkeep
    exact State.get_writeReg_rw _ (by decide) die 0 v hkeep

/-- A move of the bank that RUN bars is recorded (R410). -/
theorem State.discard_bankWrite {s : State} {die v : Nat} (hrun : s.on F.SCH_CTRL.RUN = true)
    (hmove : bits v F.VRT_BANK.CURRENT.lo 2 ≠ s.get F.VRT_BANK.CURRENT die) :
    (s.bankWrite die 2 v).on F.VRT_EVENTS.BANK_WRITE_DISCARD die = true := by
  have hwritten : s.written F.VRT_BANK.CURRENT die 0 2 v = bits v F.VRT_BANK.CURRENT.lo 2 := bits_mod_word v (by decide)
  have hbar : s.barBank die 2 v = s.flag F.VRT_EVENTS.BANK_WRITE_DISCARD die := by
    rw [State.barBank, if_pos]
    rw [hrun, hwritten, Bool.true_and, bne_iff_ne]
    exact hmove
  rw [State.bankWrite_eq, hbar, State.on, State.get_checkJoined _ (by decide), State.get_showRouting _ (.inl (by decide)),
    State.get_writeReg_reg _ _ _ _ _ _ _ _ (by decide), ← State.on]
  exact State.on_flag_same _ _ _ _ (by decide) (by decide)

/-! ### Writes that a register finds held -/

theorem Reg.held_unruled (r : Reg) (h : r.heldByRun = true) : r ∉ ruledRegs ∧ r.clearField = none := by
  revert h
  cases r <;> decide

theorem State.regWrite_held {s : State} {r : Reg} (h : r.heldByRun = true) (hrun : s.on F.SCH_CTRL.RUN = true)
    (org die idx half v hw : Nat) : s.regWrite r org die idx half v hw = s := by
  obtain ⟨hrule, hclear⟩ := r.held_unruled h
  by_cases hhome : r.info.home.getD die = die
  · have hplain : s.plainWrite r die idx half v hw = s := by
      unfold State.plainWrite
      rw [if_neg (not_not.mpr hhome), if_pos (by rw [h, hrun]; rfl)]
    unfold State.regWrite
    extract_lets w shown
    rw [if_neg (not_not.mpr hhome)]
    split
    iterate 4 next => exact absurd (by decide) hrule
    rw [hplain, State.clearBy_of_not_shown (fun f hf => by rw [hclear] at hf; exact absurd hf (by simp)),
      State.regAction_unruled hrule]
  · exact State.regWrite_elsewhere hhome

/-- A synchronisation register takes no write while RUN is 1 (R450). -/
theorem State.regWrite_syn {s : State} {r : Reg} (h : r = .SYN_OBJ_CFG ∨ r = .SYN_OBJ_LINK ∨ r = .SYN_JOB)
    (hrun : s.on F.SCH_CTRL.RUN = true) {die : Nat} (hhome : r.info.home.getD die = die) (org idx half v hw : Nat) :
    s.regWrite r org die idx half v hw = s.flag F.SYN_EVENTS.CFG_DISCARD die := by
  have hplain : s.plainWrite r die idx half v hw = s.flag F.SYN_EVENTS.CFG_DISCARD die := by
    unfold State.plainWrite
    rw [if_neg (not_not.mpr hhome), if_neg (by rcases h with rfl | rfl | rfl <;> simp [Reg.heldByRun])]
    rcases h with rfl | rfl | rfl <;> exact if_pos hrun
  unfold State.regWrite
  extract_lets w shown
  rw [if_neg (not_not.mpr hhome), ← hplain]
  rcases h with rfl | rfl | rfl <;> rfl

/-! ### Counters -/

/-- Two fields that share no bit of any register. -/
def Far (x y : Fld × Nat × Nat) : Prop :=
  x.1.reg.place x.2.1 x.2.2 ≠ y.1.reg.place y.2.1 y.2.2 ∨ x.1.lo + x.1.len ≤ y.1.lo ∨ y.1.lo + y.1.len ≤ x.1.lo

theorem State.get_put_far {s : State} {x y : Fld × Nat × Nat} (h : Far x y) (hx : x.1.lo + x.1.len ≤ 64) (v : Nat) :
    (s.put x.1 v x.2.1 x.2.2).get y.1 y.2.1 y.2.2 = s.get y.1 y.2.1 y.2.2 :=
  h.elim State.get_put_place fun h => State.get_put_apart h hx

/-- A counter is left at an increment. -/
def State.setCount (s : State) (inc : List Nat) (x : (Fld × Nat × Nat) × Nat) : State :=
  s.put x.1.1 (min (inc.getD x.2 0) (2 ^ x.1.1.len - 1)) x.1.2.1 x.1.2.2

theorem State.get_setCounts_far {l : List (Fld × Nat × Nat)} {y : Fld × Nat × Nat} (hl : ∀ x ∈ l, Far x y ∧ x.1.lo + x.1.len ≤ 64)
    (s : State) (inc : List Nat) (n : Nat) :
    ((l.zipIdx n).foldl (fun s x => s.setCount inc x) s).get y.1 y.2.1 y.2.2 = s.get y.1 y.2.1 y.2.2 := by
  induction l generalizing s n with
  | nil => rfl
  | cons x l ih =>
    rw [List.zipIdx_cons, List.foldl_cons, ih (fun z hz => hl z (List.mem_cons_of_mem _ hz))]
    exact State.get_put_far (hl x List.mem_cons_self).1 (hl x List.mem_cons_self).2 _

/-- Each of a list of counters is left at its increment. -/
theorem State.get_setCounts {l : List (Fld × Nat × Nat)} (hp : l.Pairwise Far) (hl : ∀ x ∈ l, x.1.lo + x.1.len ≤ 64)
    (s : State) (inc : List Nat) (n : Nat) {k : Nat} {x : Fld × Nat × Nat} (hk : l[k]? = some x) :
    ((l.zipIdx n).foldl (fun s x => s.setCount inc x) s).get x.1 x.2.1 x.2.2 = min (inc.getD (n + k) 0) (2 ^ x.1.len - 1) := by
  induction l generalizing s n k with
  | nil => exact absurd hk (by simp)
  | cons y l ih =>
    obtain ⟨hy, hp⟩ := List.pairwise_cons.1 hp
    rw [List.zipIdx_cons, List.foldl_cons]
    cases k with
    | zero =>
      obtain rfl : y = x := by simpa using hk
      have hlen := hl y List.mem_cons_self
      rw [State.get_setCounts_far fun z hz => ⟨?_, hl z (List.mem_cons_of_mem _ hz)⟩]
      · have hmin : min (inc.getD n 0) (2 ^ y.1.len - 1) < 2 ^ y.1.len :=
          (Nat.min_le_right ..).trans_lt (Nat.sub_lt (Nat.two_pow_pos _) Nat.one_pos)
        exact (State.get_put_same _ _ _ _ _ hlen).trans (Nat.mod_eq_of_lt hmin)
      · exact (hy z hz).imp Ne.symm Or.symm
    | succ k =>
      rw [ih hp (fun z hz => hl z (List.mem_cons_of_mem _ hz)) _ _ (by simpa using hk)]
      rw [show n + 1 + k = n + (k + 1) by omega]

theorem State.setCounts_alters {l : List (Fld × Nat × Nat)} {fs : List (Fld × Nat × Nat)} (h : ∀ x ∈ l, x ∈ fs) (s : State)
    (inc : List Nat) (n : Nat) : State.Alters [] fs s ((l.zipIdx n).foldl (fun s x => s.setCount inc x) s) := by
  induction l generalizing s n with
  | nil => exact .refl s
  | cons x l ih =>
    rw [List.zipIdx_cons, List.foldl_cons]
    exact ((State.Alters.refl s).put (h x List.mem_cons_self) rfl).trans (ih (fun z hz => h z (List.mem_cons_of_mem _ hz)) _ _)

/-! ### The counters of a block -/

theorem far_of_fields {f g : Fld} (h : f.reg ≠ g.reg ∨ f.lo + f.len ≤ g.lo ∨ g.lo + g.len ≤ f.lo) (d i d' i' : Nat) :
    Far (f, d, i) (g, d', i') := h.imp_left fun hr e => hr (congrArg Loc.reg e)

/-- The counter fields of a block share no bit. -/
theorem Blk.countFields_apart (b : Blk) : ((b.countRegs.flatMap Reg.counterFields).Pairwise fun f g =>
    f.reg ≠ g.reg ∨ f.lo + f.len ≤ g.lo ∨ g.lo + g.len ≤ f.lo) := by
  cases b <;> decide

theorem Reg.counterFields_le {r : Reg} {f : Fld} (h : f ∈ r.counterFields) : f.lo + f.len ≤ 64 := by
  obtain ⟨g, hg, rfl⟩ := List.mem_map.1 h
  exact r.fields_apart.2 g (List.mem_of_mem_filter hg)

theorem Blk.counters_le {b : Blk} {die inst : Nat} {x : Fld × Nat × Nat} (h : x ∈ b.counters die inst) : x.1.lo + x.1.len ≤ 64 := by
  unfold Blk.counters at h
  split at h
  · rcases List.mem_append.1 h with h | h
    · obtain ⟨d, -, h⟩ := List.mem_flatMap.1 h
      obtain ⟨f, hf, rfl⟩ := List.mem_map.1 h
      exact Reg.counterFields_le hf
    · obtain ⟨f, hf, rfl⟩ := List.mem_map.1 h
      obtain ⟨r, -, hf⟩ := List.mem_flatMap.1 hf
      exact Reg.counterFields_le hf
  · obtain ⟨f, hf, rfl⟩ := List.mem_map.1 h
    obtain ⟨r, -, hf⟩ := List.mem_flatMap.1 hf
    exact Reg.counterFields_le hf

/-- The counters of a block share no bit. -/
theorem Blk.counters_far (b : Blk) (die inst : Nat) : (b.counters die inst).Pairwise Far := by
  have hmap : ∀ (l : List Fld) (d i : Nat), (l.Pairwise fun f g => f.reg ≠ g.reg ∨ f.lo + f.len ≤ g.lo ∨ g.lo + g.len ≤ f.lo) →
      (l.map fun f => (f, d, i)).Pairwise Far := fun l d i h =>
    List.pairwise_map.2 (h.imp fun h => far_of_fields h d i d i)
  unfold Blk.counters
  split
  · refine List.pairwise_append.2 ⟨List.pairwise_flatMap.2 ⟨fun d _ => hmap _ d 0 (by decide), ?_⟩, hmap _ 0 0 (by decide), ?_⟩
    · refine (List.nodup_range (n := 64)).imp fun hne x hx y hy => ?_
      obtain ⟨f, hf, rfl⟩ := List.mem_map.1 hx
      obtain ⟨g, hg, rfl⟩ := List.mem_map.1 hy
      obtain ⟨f', -, rfl⟩ := List.mem_map.1 hf
      obtain ⟨g', -, rfl⟩ := List.mem_map.1 hg
      exact .inl fun e => hne (congrArg Loc.die e)
    · intro x hx y hy
      obtain ⟨d, -, hx⟩ := List.mem_flatMap.1 hx
      obtain ⟨f, hf, rfl⟩ := List.mem_map.1 hx
      obtain ⟨g, hg, rfl⟩ := List.mem_map.1 hy
      obtain ⟨f', -, rfl⟩ := List.mem_map.1 hf
      have hreg : ∀ g ∈ [Reg.UPD_BLOCKS, Reg.UPD_STRAY].flatMap Reg.counterFields, Reg.UPD_COUNTS ≠ g.reg := by decide
      exact far_of_fields (.inl (hreg g hg)) d 0 0 0
  · exact hmap _ die inst b.countFields_apart

/-- A write of 1 to CLEAR_COUNTS, where the block stands (R185). -/
theorem State.clearBlock_present {s : State} {b : Blk} {die inst : Nat} (hp : b.present die = true) (hi : inst < b.instances die)
    (hc : b.clearsIn die = true) (inc : List Nat) :
    s.clearBlock b die inst inc = ((b.counters die inst).zipIdx).foldl (fun s x => s.setCount inc x) s := by
  unfold State.clearBlock
  rw [if_pos (by rw [hp, hc, decide_eq_true hi]; rfl)]
  rfl

theorem State.clearBlock_absent {s : State} {b : Blk} {die inst : Nat}
    (h : b.present die = false ∨ b.instances die ≤ inst ∨ b.clearsIn die = false) (inc : List Nat) : s.clearBlock b die inst inc = s := by
  unfold State.clearBlock
  rw [if_neg]
  rcases h with h | h | h
  · simp [h]
  · simp [Nat.not_lt.2 h]
  · simp [h]

end Sys2Proof.Machine

open Sys2Proof Sys2Proof.Machine

/-- Settles O39: ROUTING is shown after every write; a write of an entry reaches the entry's word alone. -/
theorem banksAndRoutingFollowTheirWrites : Obligations.BanksAndRoutingFollowTheirWrites := by
  refine ⟨fun s c left hr hc => ?_, fun s c die hr hne hc => ?_, fun s die v hr => ?_, fun s die idx v bcast hr => ?_⟩
  · have he : exec c s = act c s fun s => s.setLeft 72 left := by rcases hc with ⟨rfl, rfl⟩ | ⟨rfl, rfl⟩ <;> rfl
    exact ⟨_, exec_eq_next hr he rfl (s.setLeft_frame 72 left).fatal_eq, s.setLeft_vrt left, (s.setLeft_frame 72 left).mem_eq,
      fun d hd => s.on_setLeft left hd⟩
  · have hstay : ∀ left, s.setLeft die left = s := fun left => if_neg hne
    rcases hc with rfl | rfl
    · exact exec_eq_next (effect := fun s => s.setLeft die true) hr rfl (hstay true)
    · exact exec_eq_next (effect := fun s => s.setLeft die false) hr rfl (hstay false)
  · refine ⟨_, exec_eq_next (effect := fun s => s.bankWrite die 2 v) hr rfl rfl (s.bankWrite_frame die 2 v).fatal_eq,
      (s.bankWrite_frame die 2 v).mem_eq, fun hrun => ⟨?_, State.discard_bankWrite hrun⟩, fun hrun => ?_, fun d hd => ?_⟩
    · exact (s.current_bankWrite die v).trans (if_pos hrun)
    · exact (s.current_bankWrite die v).trans (if_neg (by rw [hrun]; decide))
    · rw [State.bankWrite_eq, State.on_shown _ hd, ← s.barBank_vrt die 2 v]
      rfl
  · intro bank
    have hfatal := (s.entryWrite_frame die bcast idx 2 v).fatal_eq
    have hgo := exec_eq_next (effect := fun s => s.entryWrite die bcast idx 2 v) hr rfl rfl hfatal
    refine ⟨fun h => ?_, fun hcur harm => ?_⟩
    · rw [hgo]
      exact congrArg _ (if_pos h)
    · have hfree : s.entryWrite die bcast idx 2 v = s.writeReg (if bcast then .VRT_BCAST else .VRT_ROUTE) die idx 2 v := by
        refine if_neg ?_
        rintro (h | ⟨h1, h2⟩)
        · exact hcur h
        · exact harm.elim (fun h => by rw [h] at h1; exact absurd h1 (by decide)) fun h => h h2
      rw [hfree] at hgo
      refine ⟨_, hgo, fun p => State.writeReg_part _ _ _ _ _ _ _ _ p, fun r d i hne => ?_, fun hb => ?_, fun hb => ?_⟩
      · refine State.word_writeReg_place _ _ _ _ _ _ _ _ fun e => ?_
        have hdie : die = d := by
          have hreg := congrArg Loc.reg e
          have hplace := congrArg Loc.die e
          cases bcast <;> (rw [show r = _ from hreg.symm] at hplace; exact hplace)
        rcases hne with h | h | h
        · exact h (congrArg Loc.reg e).symm
        · exact h hdie.symm
        · exact h (congrArg Loc.idx e).symm
      · rw [hb]
        exact ⟨State.get_writeReg_rw _ (by decide) _ _ _ rfl, State.get_writeReg_rw _ (by decide) _ _ _ rfl,
          State.get_writeReg_rw _ (by decide) _ _ _ rfl, State.get_writeReg_rw _ (by decide) _ _ _ rfl⟩
      · rw [hb]
        exact State.get_writeReg_rw _ (by decide) _ _ _ rfl

/-- Settles O8: a held register's write has no effect; the counters of a block share no bit, so each keeps its own increment. -/
theorem heldWritesAndClearCounts : Obligations.HeldWritesAndClearCounts := by
  refine ⟨fun s org addr size v hw r die idx half hr hl ha hhome hrun => ⟨fun hheld => ?_, fun hsyn => ?_⟩,
    fun s die blk inst inc b hr hb => ⟨fun hp hi hc => ?_, fun habsent => ?_⟩⟩
  · exact exec_registerWrite hr hl ha (State.regWrite_held hheld hrun ..)
  · exact exec_registerWrite hr hl ha (State.regWrite_syn hsyn hrun hhome ..)
  · refine .of_alters (effect := fun s => match Blk.ofIndex blk with
      | none => s
      | some b => s.clearBlock b die inst inc) hr rfl ?_ ?_ <;> simp only [hb, State.clearBlock_present hp hi hc]
    · exact State.setCounts_alters (fun _ h => h) s inc 0
    · intro k x hk
      have hcount := State.get_setCounts (b.counters_far die inst) (fun _ => Blk.counters_le) s inc 0 hk
      rwa [Nat.zero_add] at hcount
  · refine exec_eq_next (effect := fun s => match Blk.ofIndex blk with
      | none => s
      | some b => s.clearBlock b die inst inc) hr rfl ?_
    simp only [hb, State.clearBlock_absent habsent]

end

/-! # The links between the dies

Training and descriptors (R515 to R518, R533), flits in sequence, replay and the hold limit (R519 to R530, R549). -/

section

namespace Sys2Proof.Machine

/-! ### The state of a link end -/

/-- A link end's state is in the part of the links alone. -/
theorem State.bdiLink_congr {s t : State} (h : t.bdi = s.bdi) (die link : Nat) : t.bdiLink die link = s.bdiLink die link := by
  rw [State.bdiLink, State.bdiLink, h]

@[simp] theorem State.bdiLink_put (s : State) (f : Fld) (v d i die link : Nat) :
    (s.put f v d i).bdiLink die link = s.bdiLink die link := rfl
@[simp] theorem State.bdiLink_flag (s : State) (f : Fld) (d i die link : Nat) :
    (s.flag f d i).bdiLink die link = s.bdiLink die link := rfl
@[simp] theorem State.bdiLink_bump (s : State) (f : Fld) (v d i die link : Nat) :
    (s.bump f v d i).bdiLink die link = s.bdiLink die link := rfl
@[simp] theorem State.bdiLink_emit (s : State) (o : Out) (die link : Nat) : (s.emit o).bdiLink die link = s.bdiLink die link := rfl
@[simp] theorem State.bdiLink_sendControl (s : State) (die link : Nat) (nak : Bool) (c n : Nat) :
    (s.sendControl die link nak c n).bdiLink die link = s.bdiLink die link := rfl

@[simp] theorem State.bdiLink_onLinkEnd (s : State) (die link : Nat) (f : BdiLink → BdiLink) :
    (s.onLinkEnd die link f).bdiLink die link = f (s.bdiLink die link) := by
  simp only [State.bdiLink, State.onLinkEnd, State.onBdi, lookupKey_setKey_same, Option.getD_some]

@[simp] theorem State.get_onLinkEnd (s : State) (die link : Nat) (f : BdiLink → BdiLink) (g : Fld) (d i : Nat) :
    (s.onLinkEnd die link f).get g d i = s.get g d i := State.get_congr rfl g d i

@[simp] theorem State.get_sendControl (s : State) (die link : Nat) (nak : Bool) (c n : Nat) (g : Fld) (d i : Nat) :
    (s.sendControl die link nak c n).get g d i = s.get g d i := State.get_congr rfl g d i

/-- A link without waiting flits sends none. -/
theorem State.drainBdi_of_empty {s : State} {die link : Nat} (h : (s.bdiLink die link).queue = []) : s.drainBdi die link = s := by
  rw [State.drainBdi, h]
  rfl

/-! ### Down -/

/-- A link that holds nothing goes DOWN (R518). -/
theorem State.linkDown_unheld {s : State} {die link : Nat} (h : (s.bdiLink die link).held = false) (event : Fld) :
    s.linkDown die link event = (s.put F.BDI_STATUS.STATE bdiDown die link).flag event die link := by
  unfold State.linkDown
  extract_lets held t
  exact if_neg (by rw [show held = false from h]; decide)

/-- A held link that goes DOWN discards its flits (R523, R524). -/
def State.droppedLink (s : State) (die link : Nat) : State :=
  ((((s.put F.BDI_STATUS.STATE bdiDown die link).flag F.BDI_EVENTS.HOLD_EXPIRED die link).discardLink die link).flag
    F.BDI_EVENTS.HOLD_EXPIRED die link).linkRecord die link

/-- A held link that goes DOWN in service makes its dies fatal (R549). -/
theorem State.linkDown_held {s : State} {die link : Nat} (h : (s.bdiLink die link).held = true) :
    s.linkDown die link F.BDI_EVENTS.HOLD_EXPIRED =
      if (s.droppedLink die link).power.mode = .starting then s.droppedLink die link
      else match (s.droppedLink die link |>.makeFatal die 3).bdiPeer die link with
        | some (d, _) => ((s.droppedLink die link).makeFatal die 3).makeFatal d 3
        | none => (s.droppedLink die link).makeFatal die 3 := by
  unfold State.linkDown
  extract_lets held t
  exact if_pos h

theorem State.linkDown_held_stands {s : State} {die link : Nat} (h : (s.bdiLink die link).held = true)
    (hmode : (s.droppedLink die link).power.mode ≠ .starting) :
    ((s.droppedLink die link).makeFatal die 3).HealthStands (s.linkDown die link F.BDI_EVENTS.HOLD_EXPIRED) := by
  rw [State.linkDown_held h, if_neg hmode]
  split
  · exact State.makeFatal_stands _ _ _
  · exact .refl _

theorem State.linkDown_held_frame {s : State} {die link : Nat} (h : (s.bdiLink die link).held = true) :
    Frame ⟨[.flt, .fatal], [.FLT_DIE_HEALTH], false⟩ (s.droppedLink die link) (s.linkDown die link F.BDI_EVENTS.HOLD_EXPIRED) := by
  have hfatal : ∀ (t : State) d, Frame ⟨[.flt, .fatal], [.FLT_DIE_HEALTH], false⟩ t (t.makeFatal d 3) := fun t d =>
    (t.makeFatal_frame d 3).mono (by decide +kernel)
  rw [State.linkDown_held h]
  split
  · exact .refl _
  · split
    · exact (hfatal _ _).trans (hfatal _ _)
    · exact hfatal _ _

/-- What the discard leaves of the link, before its dies are made fatal. -/
theorem State.droppedLink_spec (s : State) (die link : Nat) :
    (s.droppedLink die link).get F.BDI_STATUS.STATE die link = 0 ∧
    (s.droppedLink die link).on F.BDI_EVENTS.HOLD_EXPIRED die link = true ∧
    ((s.droppedLink die link).bdiLink die link).held = false ∧ ((s.droppedLink die link).bdiLink die link).replayBuf = [] ∧
    (s.droppedLink die link).power = s.power := by
  have hrec := State.linkRecord_frame ((((s.put F.BDI_STATUS.STATE bdiDown die link).flag F.BDI_EVENTS.HOLD_EXPIRED die link).discardLink
    die link).flag F.BDI_EVENTS.HOLD_EXPIRED die link) die link
  have hdisc := State.discardLink_frame ((s.put F.BDI_STATUS.STATE bdiDown die link).flag F.BDI_EVENTS.HOLD_EXPIRED die link) die link
  refine ⟨?_, ?_, ?_, ?_, ?_⟩
  · rw [State.droppedLink, hrec.get_eq _ _ _, State.flag, State.get_put_reg (by decide), hdisc.get_eq _ _ _, State.flag,
      State.get_put_reg (by decide)]
    exact State.get_put_same _ _ _ _ _ (by decide)
  · rw [State.droppedLink, hrec.on_eq _ _ _]
    exact State.on_flag_same _ _ _ _ (by decide) (by decide)
  · rw [State.droppedLink, State.bdiLink_congr (hrec.parts .bdi (by decide)), State.bdiLink_flag, State.discardLink,
      State.bdiLink_onLinkEnd]
  · rw [State.droppedLink, State.bdiLink_congr (hrec.parts .bdi (by decide)), State.bdiLink_flag, State.discardLink,
      State.bdiLink_onLinkEnd]
  · exact (hrec.parts .power (by decide)).trans (hdisc.parts .power (by decide))

/-! ### Records of a calm module -/

/-- A record in a calm module makes no die fatal (R544). -/
theorem State.on_fatal_faultOf {s : State} {n : Nat} (h : s.Calm (n + 1)) (u cause : Nat) (f : FaultRec → FaultRec) (d : Nat) :
    (s.faultOf u cause f).on F.FLT_DIE_HEALTH.FATAL d = s.on F.FLT_DIE_HEALTH.FATAL d := by
  have hcount : ∀ r : FaultRec, (s.counted r).on F.FLT_DIE_HEALTH.FATAL d = s.on F.FLT_DIE_HEALTH.FATAL d := fun r => by
    simp (disch := decide) [State.counted, State.bump, State.on, State.get_put_apart, State.get_put_reg]
  rw [State.faultOf, State.collect_eq h]
  split
  · exact hcount _
  · rw [(State.writeRecord_frame _ _).on_eq _ _ _, hcount]

/-! ### Training -/

/-- One cluster's repair is recorded. -/
def State.recordRepair (s : State) (die link : Nat) (x : BdiFacts) (c : Nat) : State :=
  (if (s.bdiLink die link).held ∧ repairWord (x.wires c) ≠ (s.word .BDI_REPAIR die (link * 16 + c)).toNat ∧ ¬ (x.wires c).isEmpty = true
    then s.flag F.BDI_EVENTS.REPAIR die link else s).setWord .BDI_REPAIR (BitVec.ofNat 64 (repairWord (x.wires c))) die (link * 16 + c)

theorem State.recordRepairs_eq (s : State) (die link : Nat) (x : BdiFacts) :
    s.recordRepairs die link x = (List.range 16).foldl (fun s c => s.recordRepair die link x c) s := rfl

theorem State.recordRepair_part (s : State) (die link : Nat) (x : BdiFacts) (c : Nat) (p : Part) :
    p.same s (s.recordRepair die link x c) := by
  unfold State.recordRepair
  split <;> cases p <;> rfl

theorem State.word_recordRepair_ne (s : State) (die link : Nat) (x : BdiFacts) {c k : Nat} (h : c ≠ k) :
    (s.recordRepair die link x c).word .BDI_REPAIR die (link * 16 + k) = s.word .BDI_REPAIR die (link * 16 + k) := by
  unfold State.recordRepair
  rw [State.word_setWord_ne fun e => h (by have := congrArg Loc.idx e; simpa [Reg.place] using this)]
  split
  · exact State.word_put_reg (by decide)
  · rfl

theorem State.recordRepairs_part (s : State) (die link : Nat) (x : BdiFacts) (p : Part) : p.same s (s.recordRepairs die link x) := by
  rw [State.recordRepairs_eq]
  generalize List.range 16 = l
  induction l generalizing s with
  | nil => exact p.same_refl s
  | cons c l ih => exact Part.same_trans (s.recordRepair_part die link x c p) (ih _)

/-- Every cluster's entry shows its failed wires (R516, R536). -/
theorem State.word_recordRepairs (s : State) (die link : Nat) (x : BdiFacts) {k : Nat} (hk : k < 16) :
    (s.recordRepairs die link x).word .BDI_REPAIR die (link * 16 + k) = BitVec.ofNat 64 (repairWord (x.wires k)) := by
  have hfold : ∀ (l : List Nat) (s : State), (k ∈ l ∨ s.word .BDI_REPAIR die (link * 16 + k) = BitVec.ofNat 64 (repairWord (x.wires k))) →
      (l.foldl (fun s c => s.recordRepair die link x c) s).word .BDI_REPAIR die (link * 16 + k) =
        BitVec.ofNat 64 (repairWord (x.wires k)) := by
    intro l
    induction l with
    | nil => exact fun s h => h.elim (fun h => absurd h List.not_mem_nil) id
    | cons c l ih =>
      intro s h
      refine ih _ ?_
      by_cases hc : c = k
      · exact .inr (by rw [hc]; exact State.word_setWord_same ..)
      · refine h.imp (fun h => (List.mem_cons.1 h).resolve_left (Ne.symm hc)) fun h => ?_
        rw [State.word_recordRepair_ne _ _ _ _ hc, h]
  rw [State.recordRepairs_eq]
  exact hfold _ _ (.inl (List.mem_range.2 hk))

/-- A sound training (R515 to R517, R525). -/
theorem State.bdiTrained_sound {s : State} {die link : Nat} {x : BdiFacts} (hu : s.linkUp die link = false)
    (hc : s.unconnected die link = false) (hf : x.fails = false) :
    s.bdiTrained die link x = ((s.recordRepairs die link x).put F.BDI_STATUS.STATE bdiCaps die link).onLinkEnd die link fun l =>
      { l with delay := x.roundTrip / 2, lastSeq := x.lastSeq, credits := fullCredits (isPeerLink die link), nakSent := false } := by
  unfold State.bdiTrained
  rw [hu, hc, hf]
  rfl

/-- A sound descriptor brings a link that holds nothing UP (R518). -/
theorem State.bdiDescribed_sound {s : State} {die link : Nat} {d : Bytes} (hst : s.get F.BDI_STATUS.STATE die link = bdiCaps)
    (hheld : (s.bdiLink die link).held = false) (hm : peerMeets d = true) (hq : (s.bdiLink die link).queue = []) :
    s.bdiDescribed die link d =
      ((((((s.onLinkEnd die link fun l => { l with seen := d }).flag F.BDI_STATUS.PEER_MEETS die link).put F.BDI_STATUS.PROTOCOLS
        (fieldAt d 7 1 &&& fieldAt (s.descriptor die) 7 1) die link).put F.BDI_STATUS.VERSION
        (0x100 + min (fieldAt d 4 1) (fieldAt (s.descriptor die) 4 1)) die link).put F.BDI_STATUS.STATE bdiUp die link).onLinkEnd die link
        fun k => { k with txSeq := 0, txAck := 1023, rxSeq := 0, replayBuf := [], rx := [], held := false, peer := d
                          credits := fullCredits (isPeerLink die link) }) := by
  unfold State.bdiDescribed
  rw [if_neg (not_not.mpr hst)]
  extract_lets l own s₁ resume s₂ s₃ s₄ s₅ s₆
  have hresume : resume = false := by
    show (l.held && l.peer == d) = false
    rw [show l.held = false from hheld, Bool.false_and]
  have hs₂ : s₂ = s₁ := by
    show (if (l.held && !resume) = true then _ else s₁) = s₁
    rw [show l.held = false from hheld, Bool.false_and]
    rfl
  have hs₆ : s₆ = s₅.onLinkEnd die link fun k => { k with
      txSeq := 0, txAck := 1023, rxSeq := 0, replayBuf := [], rx := [], held := false, peer := d, credits := fullCredits (isPeerLink die link) } := by
    show s₅.onLinkEnd die link _ = _
    rw [hresume]
    rfl
  have hqueue : (s₆.bdiLink die link).queue = [] := by
    rw [hs₆, State.bdiLink_onLinkEnd]
    show (s₂.bdiLink die link).queue = []
    rw [hs₂, State.bdiLink_onLinkEnd, hq]
  rw [if_neg (by rw [hm]; decide), hresume, if_neg (by decide), State.drainBdi_of_empty hqueue, hs₆]
  show State.onLinkEnd (State.put (State.put (State.put (State.flag s₂ _ _ _) _ _ _ _) _ _ _ _) _ _ _ _) _ _ _ = _
  rw [hs₂]

theorem State.bdiDescribed_lacking {s : State} {die link : Nat} {d : Bytes} (hst : s.get F.BDI_STATUS.STATE die link = bdiCaps)
    (hheld : (s.bdiLink die link).held = false) (hm : peerMeets d = false) :
    s.bdiDescribed die link d = (((s.onLinkEnd die link fun l => { l with seen := d }).put F.BDI_STATUS.PEER_MEETS 0 die link).put
      F.BDI_STATUS.STATE bdiDown die link).flag F.BDI_EVENTS.CAPS_FAIL die link := by
  unfold State.bdiDescribed
  rw [if_neg (not_not.mpr hst)]
  extract_lets l own s₁ resume s₂ s₃ s₄ s₅ s₆
  rw [if_pos (by rw [hm]; rfl)]
  refine State.linkDown_unheld ?_ _
  rw [State.bdiLink_put, State.bdiLink_onLinkEnd]
  exact hheld

/-! ### Flits -/

theorem bdiFlit_seq_lt (b : Bytes) : (BFlit.ofBytes b).seq < 1024 := bits_lt ..

/-- A flit that is not accepted asks for a replay (R521). -/
theorem State.bdiReject_asks {s : State} {die link : Nat} {again : Bool} (h : again = true ∨ (s.bdiLink die link).nakSent = false) :
    s.bdiReject die link again = (s.onLinkEnd die link fun l => { l with nakSent := true }).sendControl die link true 0 0 := by
  unfold State.bdiReject
  rw [if_neg]
  rcases h with h | h <;> simp [h]

/-- A CRC failure within the limit of its window (R522). -/
theorem State.bdiCrcFail_within {s : State} {die link : Nat} (h : (s.bdiLink die link).crcWindow < 256) :
    s.bdiCrcFail die link = ((s.bump F.BDI_COUNTS.CRC_FAILS 1 die link).flag F.BDI_EVENTS.CRC_FAIL die link).onLinkEnd die link fun l =>
      { l with crcWindow := l.crcWindow + 1 } := by
  unfold State.bdiCrcFail
  extract_lets t
  refine if_neg ?_
  simp only [t, State.bdiLink_onLinkEnd, State.bdiLink_flag, State.bdiLink_bump]
  omega

/-- A flit whose CRC fails asks for a replay. -/
theorem State.bdiReceive_broken {s : State} {die link : Nat} {b : Bytes} (hu : s.linkUp die link = true) (hcrc : crcHolds 64 b = false)
    (hw : (s.bdiLink die link).crcWindow < 256) :
    s.bdiReceive die link b = ((((s.bump F.BDI_COUNTS.CRC_FAILS 1 die link).flag F.BDI_EVENTS.CRC_FAIL die link).onLinkEnd die link fun l =>
      { l with crcWindow := l.crcWindow + 1 }).onLinkEnd die link fun l => { l with nakSent := true }).sendControl die link true 0 0 := by
  have hup : (s.bdiCrcFail die link).linkUp die link = true := by
    rw [State.bdiCrcFail_within hw, State.linkUp, State.get_onLinkEnd, State.flag, State.get_put_reg (by decide), State.bump,
      State.get_put_reg (by decide)]
    exact hu
  unfold State.bdiReceive
  rw [hu, hcrc, if_neg (by decide), if_pos (by decide)]
  dsimp only
  rw [hup, if_pos rfl, State.bdiReject_asks (.inl rfl), State.bdiCrcFail_within hw]

section
variable {s : State} {die link : Nat} {b : Bytes} (hu : s.linkUp die link = true) (hcrc : crcHolds 64 b = true)
  (hnak : (BFlit.ofBytes b).nak = false) (hc : (BFlit.ofBytes b).count = 0) (h7 : (BFlit.ofBytes b).chan ≠ 7)
  (hr : (s.bdiLink die link).replayBuf = []) (hq : (s.bdiLink die link).queue = [])
include hu hcrc hnak hc h7 hr

/-- What a link does with a whole flit that acknowledges nothing that is kept and brings no credits. -/
theorem State.bdiReceive_whole : s.bdiReceive die link b =
    if (BFlit.ofBytes b).seq ≠ (s.bdiLink die link).rxSeq then (s.bdiReject die link false).drainBdi die link
    else (s.bdiAccept die link b).drainBdi die link := by
  have hack : s.bdiAck die link (BFlit.ofBytes b).ack = s := by
    rw [State.bdiAck, hr]
    rfl
  have hcred : s.bdiCredits die link (BFlit.ofBytes b) = s := if_pos hc
  unfold State.bdiReceive
  simp only [hu, hcrc, hack, hcred, hnak, Bool.not_true, Bool.false_eq_true, if_false, if_neg h7]

include hq

theorem State.bdiReceive_astray (hseq : (BFlit.ofBytes b).seq ≠ (s.bdiLink die link).rxSeq)
    (hsent : (s.bdiLink die link).nakSent = false) :
    s.bdiReceive die link b = (s.onLinkEnd die link fun l => { l with nakSent := true }).sendControl die link true 0 0 := by
  rw [State.bdiReceive_whole hu hcrc hnak hc h7 hr, if_pos hseq, State.bdiReject_asks (.inr hsent)]
  exact State.drainBdi_of_empty (by simp [hq])

/-- A flit in sequence that is a message of its own for this die (R527, R529). -/
theorem State.bdiReceive_next (hseq : (BFlit.ofBytes b).seq = (s.bdiLink die link).rxSeq) (h6 : (BFlit.ofBytes b).chan ≠ 6)
    (h1 : (BFlit.ofBytes b).chan ≠ 1) (hfree : (s.bdiLink die link).onChan (BFlit.ofBytes b).chan = []) (hhead : (BFlit.ofBytes b).head = true)
    (hmore : (BFlit.ofBytes b).more = 0) (hknown : opcodeKnown (BFlit.ofBytes b).chan (fieldAt (BFlit.ofBytes b).data 0 1) = true)
    (hdest : fieldAt (BFlit.ofBytes b).data 1 1 % 128 = die) :
    ∃ t, t.out = s.out ∧ Frame ⟨[.bdi], [], false⟩ s t ∧ (t.bdiLink die link).rxSeq = ((BFlit.ofBytes b).seq + 1) % 1024 ∧
      (t.bdiLink die link).rx = (s.bdiLink die link).rx ∧ s.bdiReceive die link b =
        (t.sendControl die link false (BFlit.ofBytes b).chan 1).emit (.message die (BFlit.ofBytes b).chan (BFlit.ofBytes b).data) := by
  have hrest : (s.bdiLink die link).rx.filter (fun b' => (BFlit.ofBytes b').chan != (BFlit.ofBytes b).chan) = (s.bdiLink die link).rx := by
    refine List.filter_eq_self.2 fun a ha => ?_
    have := List.filter_eq_nil_iff.1 hfree a ha
    simpa using this
  have hflits : ((s.bdiLink die link).rx ++ [b]).filter (fun b' => (BFlit.ofBytes b').chan == (BFlit.ofBytes b).chan) = [b] := by
    rw [List.filter_append, show (s.bdiLink die link).rx.filter _ = [] from hfree]
    simp
  rw [State.bdiReceive_whole hu hcrc hnak hc h7 hr, if_neg (not_not.mpr hseq)]
  unfold State.bdiAccept
  extract_lets f s₁ begun s₂ flits msg s₃
  have hlink₁ : s₁.bdiLink die link = { s.bdiLink die link with rxSeq := (f.seq + 1) % 1024, nakSent := false } :=
    s.bdiLink_onLinkEnd die link _
  have hbegun : begun = false := by
    show (!((s₁.bdiLink die link).onChan f.chan).isEmpty) = false
    rw [hlink₁]
    show (!((s.bdiLink die link).onChan f.chan).isEmpty) = false
    rw [hfree]
    rfl
  have hlink₂ : s₂.bdiLink die link = { s₁.bdiLink die link with rx := (s₁.bdiLink die link).rx ++ [b] } := s₁.bdiLink_onLinkEnd die link _
  have hone : flits = [b] := by
    show (s₂.bdiLink die link).rx.filter _ = [b]
    rw [hlink₂, hlink₁]
    exact hflits
  have hmsg : msg = f.data := by
    show flits.flatMap _ = f.data
    rw [hone]
    exact List.append_nil _
  have hlink₃ : s₃.bdiLink die link =
      { s₂.bdiLink die link with rx := (s₂.bdiLink die link).rx.filter fun b => (BFlit.ofBytes b).chan != f.chan } :=
    s₂.bdiLink_onLinkEnd die link _
  have hroute : ∀ t : State, t.routeMessage die link f.chan msg = t.emit (.message die f.chan f.data) := fun t => by
    rw [hmsg, State.routeMessage, if_neg (by rw [hknown]; decide)]
    exact if_pos hdest
  rw [if_neg (by rw [hbegun, hhead]; rintro (h | h | h); exacts [h6 h, h1 h.1, absurd h (by decide)]), if_neg (not_not.mpr hmore), hroute, hone]
  refine ⟨s₃, rfl, ?_, ?_, ?_, ?_⟩
  · exact ((State.onLinkEnd_frame s die link _).trans (State.onLinkEnd_frame s₁ die link _)).trans (State.onLinkEnd_frame s₂ die link _)
  · rw [hlink₃, hlink₂, hlink₁]
  · rw [hlink₃, hlink₂, hlink₁]
    show ((s.bdiLink die link).rx ++ [b]).filter _ = _
    rw [List.filter_append, hrest]
    simp [f]
  · refine State.drainBdi_of_empty ?_
    rw [State.bdiLink_emit, State.bdiLink_sendControl, hlink₃, hlink₂, hlink₁]
    exact hq

end

/-! ### Leaving UP -/

/-- A calm link leaves UP with its flits held (R522). -/
theorem State.linkRetrain_spec {s : State} {die link : Nat} (hu : s.linkUp die link = true) (hcalm : s.calm) :
    (s.linkRetrain die link).flt.fatal = s.flt.fatal ∧ (s.linkRetrain die link).get F.BDI_STATUS.STATE die link = 1 ∧
    (s.linkRetrain die link).on F.BDI_EVENTS.RETRAIN die link = true ∧
    (s.linkRetrain die link).bdiLink die link = { s.bdiLink die link with held := true, replays := 0, replayed := 1024 } := by
  let marked := ((s.put F.BDI_STATUS.STATE bdiTrainingState die link).flag F.BDI_EVENTS.RETRAIN die link).onLinkEnd die link fun l =>
    { l with held := true, replays := 0, replayed := 1024 }
  have heq : s.linkRetrain die link = marked.linkRecord die link := by
    unfold State.linkRetrain
    exact if_pos hu
  have hmarked : Frame ⟨[.bdi], [.BDI_STATUS, .BDI_EVENTS], false⟩ s marked :=
    ((State.put_frame (h := by decide) ..).trans (State.flag_frame (h := by decide) ..)).step (State.onLinkEnd_frame ..)
  have hrec := marked.linkRecord_frame die link
  have hspares : State.Spares 1 s (marked.linkRecord die link) :=
    (State.Spares.of_frame (n := 0) hmarked).trans (marked.faultOf_spares (bdiUnit die link) 10 id)
  rw [heq]
  refine ⟨(hspares 0 (State.Calm.of_calm hcalm |>.mono (by decide))).2, ?_, ?_, ?_⟩
  · rw [hrec.get_eq _ _ _, State.get_onLinkEnd, State.flag, State.get_put_reg (by decide)]
    exact State.get_put_same _ _ _ _ _ (by decide)
  · rw [hrec.on_eq _ _ _, State.on, State.get_onLinkEnd, ← State.on]
    exact State.on_flag_same _ _ _ _ (by decide) (by decide)
  · rw [State.bdiLink_congr (hrec.parts .bdi (by decide))]
    exact State.bdiLink_onLinkEnd ..

theorem State.linkRetrain_down {s : State} {die link : Nat} (h : s.linkUp die link = false) : s.linkRetrain die link = s :=
  if_neg (by rw [h]; decide)

/-- A CRC failure in a calm module makes no die fatal. -/
theorem State.bdiCrcFail_fatal {s : State} {die link : Nat} (hcalm : s.calm) : (s.bdiCrcFail die link).flt.fatal = s.flt.fatal := by
  unfold State.bdiCrcFail
  extract_lets t
  have ht : Frame ⟨[.bdi], [.BDI_COUNTS, .BDI_EVENTS], false⟩ s t :=
    ((State.bump_frame (h := by decide) ..).trans (State.flag_frame (h := by decide) ..)).step (State.onLinkEnd_frame ..)
  split
  · have hfatal : t.flt.fatal = s.flt.fatal := rfl
    cases hup : t.linkUp die link with
    | true =>
      have hcalm' : t.calm := by
        rw [State.calm] at hcalm ⊢
        rw [ht.on_eq _ _ _, ht.get_eq _ _ _, ht.get_eq _ _ _]
        exact hcalm
      exact (State.linkRetrain_spec hup hcalm').1.trans hfatal
    | false => rw [State.linkRetrain_down hup, hfatal]
  · rfl

end Sys2Proof.Machine

open Sys2Proof Sys2Proof.Machine

/-- Settles O53: a training by whether its lanes are sound, a descriptor by whether it has the mandatory set; the link holds nothing. -/
theorem bdiLinksTrain : Obligations.BdiLinksTrain := by
  refine ⟨fun s die link x c hr hc => ?_, fun s die link d hr => ?_⟩
  · have heff : ∃ effect : State → State, exec c s = act c s effect ∧
        (s.linkUp die link = true ∨ s.unconnected die link = true → effect s = s) ∧
        (s.linkUp die link = false → s.unconnected die link = false → x.fails = true →
          effect s = s.linkDown die link F.BDI_EVENTS.TRAIN_FAIL) ∧
        (x.fails = false → effect s = s.bdiTrained die link x) := by
      rcases hc with rfl | ⟨rfl, hf⟩
      · refine ⟨fun s => s.bdiTrained die link x, rfl, fun h => ?_, fun hu hn hf => ?_, fun _ => rfl⟩
        · refine if_pos ?_
          rcases h with h | h <;> simp [h]
        · show s.bdiTrained die link x = _
          rw [State.bdiTrained, hu, hn, hf]
          rfl
      · refine ⟨fun s => s.bdiTrainLate die link, rfl, fun h => ?_, fun hu hn _ => ?_, fun h => absurd (hf.symm.trans h) (by decide)⟩
        · refine if_pos ?_
          rcases h with h | h <;> simp [h]
        · show s.bdiTrainLate die link = _
          rw [State.bdiTrainLate, hu, hn]
          rfl
    obtain ⟨effect, he, hstay, hdown, htrain⟩ := heff
    refine ⟨fun h => exec_eq_next hr he (hstay h), fun hu hn hf hheld => ?_, fun hu hn hf => ?_⟩
    · have hrun := (hdown hu hn hf).trans (State.linkDown_unheld hheld _)
      refine .of_alters hr he ?_ ?_ <;> rw [hrun]
      · exact ((State.Alters.refl s).put (f := F.BDI_STATUS.STATE) (by simp) rfl).put (f := F.BDI_EVENTS.TRAIN_FAIL) (by simp) rfl
      · refine ⟨?_, State.on_flag_same _ _ _ _ (by decide) (by decide)⟩
        rw [State.flag, State.get_put_reg (by decide)]
        exact State.get_put_same _ _ _ _ _ (by decide)
    · have hrun := (htrain hf).trans (State.bdiTrained_sound hu hn hf)
      have hpart := s.recordRepairs_part die link x
      have hword := fun k (hk : k < 16) => s.word_recordRepairs die link x hk
      generalize s.recordRepairs die link x = repaired at hrun hpart hword
      refine ⟨_, exec_eq_next hr he hrun ?_, ?_, ?_, ?_, fun k hk => ?_, fun p hp => ?_⟩
      · exact hpart .fatal
      · rw [State.get_onLinkEnd]
        exact State.get_put_same _ _ _ _ _ (by decide)
      · rw [State.bdiLink_onLinkEnd]
      · rw [State.bdiLink_onLinkEnd]
      · exact (State.word_put_reg (by decide)).trans (hword k hk)
      · exact Part.same_trans (hpart p) ((State.put_frame (K := ⟨[.bdi], [.BDI_STATUS], false⟩) (h := by decide) ..).step
          (State.onLinkEnd_frame ..) |>.parts p (by simpa using hp))
  · intro c
    have he : exec c s = act c s fun s => s.bdiDescribed die link d := rfl
    refine ⟨fun hst => exec_eq_next hr he (if_pos hst), fun hst hheld => ⟨fun hm => ?_, fun hm hq => ?_⟩⟩
    · refine .of_alters hr he ?_ ?_ <;> rw [State.bdiDescribed_lacking hst hheld hm]
      · exact ((((State.Alters.refl s).frame (State.onLinkEnd_frame ..) ⟨rfl, rfl⟩ (by simp)).put (f := F.BDI_STATUS.PEER_MEETS)
          (by simp) rfl).put (f := F.BDI_STATUS.STATE) (by simp) rfl).put (f := F.BDI_EVENTS.CAPS_FAIL) (by simp) rfl
      · refine ⟨?_, ?_, State.on_flag_same _ _ _ _ (by decide) (by decide), ?_⟩
        · rw [State.flag, State.get_put_reg (by decide)]
          exact State.get_put_same _ _ _ _ _ (by decide)
        · rw [State.flag, State.on, State.get_put_reg (by decide), State.get_put_apart (by decide) (by decide),
            State.get_put_same _ _ _ _ _ (by decide)]
          rfl
        · rw [State.bdiLink_flag, State.bdiLink_put, State.bdiLink_put, State.bdiLink_onLinkEnd]
    · refine .of_alters hr he ?_ ?_ <;> rw [State.bdiDescribed_sound hst hheld hm hq]
      · exact ((((((State.Alters.refl s).frame (State.onLinkEnd_frame ..) ⟨rfl, rfl⟩ (by simp)).put (f := F.BDI_STATUS.PEER_MEETS)
          (by simp) rfl).put (f := F.BDI_STATUS.PROTOCOLS) (by simp) rfl).put (f := F.BDI_STATUS.VERSION) (by simp) rfl).put
          (f := F.BDI_STATUS.STATE) (by simp) rfl).frame (State.onLinkEnd_frame ..) ⟨rfl, rfl⟩ (by simp)
      · have hver : 0x100 + min (fieldAt d 4 1) (fieldAt (s.descriptor die) 4 1) < 2 ^ 16 := by
          have := fieldAt_lt d 4 1
          omega
        simp (disch := decide) only [State.on, State.get_onLinkEnd, State.flag, State.get_put_same, State.get_put_apart,
          State.bdiLink_onLinkEnd, and_true]
        exact ⟨rfl, rfl, trivial, Nat.mod_eq_of_lt hver⟩

/-- Settles O54: a flit by its CRC and number; leaving UP keeps what the link holds; the hold limit discards it and makes the dies
fatal. -/
theorem bdiLinksCarryFlits : Obligations.BdiLinksCarryFlits := by
  refine ⟨fun s die link b hr => ?_, fun s die link c hr hc => ?_, fun s die link hr => ?_, fun s die link arrival b hr => ?_⟩
  · intro c f l nak
    have he : exec c s = act c s fun s => s.bdiReceive die link b := rfl
    refine ⟨fun hu => exec_eq_next hr he (if_pos (by rw [hu]; rfl)), fun hu hcrc hw => ?_,
      fun hu hcrc hnak hcount h7 hbuf hq => ⟨fun hseq hsent => ?_, fun hseq h6 h1 hfree hhead hmore hknown hdest => ?_⟩⟩
    · refine .of_alters hr he ?_ ?_ <;> rw [State.bdiReceive_broken hu hcrc hw]
      · exact (((((State.Alters.refl s).put (f := F.BDI_COUNTS.CRC_FAILS) (by simp) rfl).put (f := F.BDI_EVENTS.CRC_FAIL) (by simp)
          rfl).frame (State.onLinkEnd_frame ..) ⟨rfl, rfl⟩ (by simp)).frame (State.onLinkEnd_frame ..) ⟨rfl, rfl⟩ (by simp)).frame
          (State.sendControl_frame ..) ⟨rfl, rfl⟩ (by simp)
      · simp (disch := decide) only [State.get_sendControl, State.get_onLinkEnd, State.flag, State.get_put_reg, State.get_bump_same,
          State.bdiLink_sendControl, State.bdiLink_onLinkEnd, State.bdiLink_put, State.bdiLink_bump]
        refine ⟨?_, trivial, rfl, rfl⟩
        simp only [State.sendControl, State.bdiLink_onLinkEnd, State.bdiLink_put, State.bdiLink_bump]
        rfl
    · refine .of_alters hr he ?_ ?_ <;> rw [State.bdiReceive_astray hu hcrc hnak hcount h7 hbuf hq hseq hsent]
      · exact ((State.Alters.refl s).frame (State.onLinkEnd_frame ..) ⟨rfl, rfl⟩ (by simp)).frame (State.sendControl_frame ..)
          ⟨rfl, rfl⟩ (by simp)
      · rw [State.bdiLink_sendControl, State.bdiLink_onLinkEnd]
        refine ⟨?_, rfl, rfl⟩
        simp only [State.sendControl, State.bdiLink_onLinkEnd]
        rfl
    · obtain ⟨t, hout, hframe, hrx, hbuffer, hrun⟩ :=
        State.bdiReceive_next hu hcrc hnak hcount h7 hbuf hq hseq h6 h1 hfree hhead hmore hknown hdest
      refine .of_alters hr he ?_ ?_ <;> rw [hrun]
      · exact (((State.Alters.refl s).frame hframe ⟨rfl, rfl⟩ (by simp)).frame (State.sendControl_frame ..) ⟨rfl, rfl⟩ (by simp)).frame
          (State.emit_frame ..) ⟨rfl, rfl⟩ (by simp)
      · rw [State.bdiLink_emit, State.bdiLink_sendControl]
        refine ⟨?_, hrx.trans (by rw [hseq]), hbuffer⟩
        have hack : ((BFlit.ofBytes b).seq + 1) % 1024 + 1023 ≡ (BFlit.ofBytes b).seq [MOD 1024] := by
          have := bdiFlit_seq_lt b
          unfold Nat.ModEq
          omega
        have hack' : ((t.bdiLink die link).rxSeq + 1023) % 1024 = (BFlit.ofBytes b).seq := by
          rw [hrx]
          exact hack.trans (Nat.mod_eq_of_lt (bdiFlit_seq_lt b))
        simp only [State.sendControl, State.emit, hack', hout, List.append_assoc, List.cons_append, List.nil_append]
        rfl
  · have heff : ∃ effect : State → State, exec c s = act c s effect ∧ effect s = s.linkRetrain die link := by
      rcases hc with ⟨rfl, hbuf⟩ | rfl | rfl
      · refine ⟨fun s => if (s.bdiLink die link).replayBuf.isEmpty then s else s.linkRetrain die link, rfl, if_neg ?_⟩
        simpa using hbuf
      · exact ⟨fun s => s.linkRetrain die link, rfl, rfl⟩
      · exact ⟨fun s => s.linkRetrain die link, rfl, rfl⟩
    obtain ⟨effect, he, hrun⟩ := heff
    refine ⟨fun hu => exec_eq_next hr he (hrun.trans (State.linkRetrain_down hu)), fun hu hcalm => ?_⟩
    obtain ⟨hfatal, hst, hon, hlink⟩ := State.linkRetrain_spec hu hcalm
    exact ⟨_, exec_eq_next hr he hrun hfatal, hst, hon, by rw [hlink], by rw [hlink], by rw [hlink], by rw [hlink]⟩
  · have he : exec (.bdiHoldExpire die link) s = act (.bdiHoldExpire die link) s fun s =>
        if (s.bdiLink die link).held && !s.linkUp die link then s.linkDown die link F.BDI_EVENTS.HOLD_EXPIRED else s := rfl
    refine ⟨fun h => exec_eq_next hr he (if_neg (by rcases h with h | h <;> simp [h])), fun hheld hu => ?_⟩
    have hrun : (if (s.bdiLink die link).held && !s.linkUp die link then s.linkDown die link F.BDI_EVENTS.HOLD_EXPIRED else s) =
        s.linkDown die link F.BDI_EVENTS.HOLD_EXPIRED := if_pos (by rw [hheld, hu]; rfl)
    have hgo := exec_settled hr he
    obtain ⟨hst, hon, hfree, hbuf, hpower⟩ := s.droppedLink_spec die link
    have hdown := State.linkDown_held_frame hheld
    have hend := (s.linkDown die link F.BDI_EVENTS.HOLD_EXPIRED).settle_frame
    have hlink : ((s.linkDown die link F.BDI_EVENTS.HOLD_EXPIRED).settle).bdiLink die link = (s.droppedLink die link).bdiLink die link := by
      rw [State.bdiLink_congr (hend.parts .bdi (by decide)), State.bdiLink_congr (hdown.parts .bdi (by decide))]
    refine ⟨_, hgo, ?_, ?_, ?_, ?_, fun hmode => ⟨?_, fun hcalm hsafe => ?_⟩⟩ <;> rw [hrun]
    · rw [hend.get_eq _ _ _, hdown.get_eq _ _ _, hst]
    · rw [hend.on_eq _ _ _, hdown.on_eq _ _ _, hon]
    · rw [hlink, hfree]
    · rw [hlink, hbuf]
    · have hstands := (State.linkDown_held_stands hheld (by rwa [hpower])).trans (State.settle_stands _)
      exact (hstands die (State.makeFatal_fatal _ die 3).1).1
    · have hstands := (State.linkDown_held_stands hheld (by rwa [hpower])).trans (State.settle_stands _)
      have hfatal := State.makeFatal_fatal (s.droppedLink die link) die 3
      refine (hstands die hfatal.1).2.trans (hfatal.2 ?_)
      let marked := (((s.put F.BDI_STATUS.STATE bdiDown die link).flag F.BDI_EVENTS.HOLD_EXPIRED die link).discardLink die link).flag
        F.BDI_EVENTS.HOLD_EXPIRED die link
      have hmarked : Frame ⟨[.out, .bdi], [.BDI_STATUS, .BDI_EVENTS], false⟩ s marked :=
        (((State.put_frame (h := by decide) ..).trans (State.flag_frame (h := by decide) ..)).step (State.discardLink_frame ..)).trans
          (State.flag_frame (h := by decide) ..)
      have hquiet : marked.Calm 8 := ((State.Spares.of_frame (n := 0) hmarked) 8 (State.Calm.of_calm hcalm)).1
      show (marked.faultOf (bdiUnit die link) 10 id).on F.FLT_DIE_HEALTH.FATAL die = false
      rw [State.on_fatal_faultOf hquiet, hmarked.on_eq _ _ _, hsafe]
  · intro f
    have he : exec (.bdiTickFlit die link b arrival) s = act (.bdiTickFlit die link b arrival) s fun s => s.tickFlit die link b arrival := rfl
    refine ⟨fun hcrc hcalm => ?_, fun hcrc h7 htick => ?_⟩
    · have hrun : s.tickFlit die link b arrival = (s.bdiCrcFail die link).flag F.BDI_EVENTS.TICK_MISS die link := by
        rw [State.tickFlit, hcrc]
        rfl
      exact ⟨_, exec_eq_next hr he hrun (State.bdiCrcFail_fatal hcalm), State.on_flag_same _ _ _ _ (by decide) (by decide),
        (s.bdiCrcFail_frame die link).parts .tick (by decide)⟩
    · have hrun : s.tickFlit die link b arrival = s.onTick fun x => { x with dieMarks := setKey die (fieldAt f.data 3 8,
          2 * (arrival : Int) - (fieldAt f.data 1 2 : Int) * 125 - 2 * ((s.bdiLink die link).delay : Int)) x.dieMarks } := by
        unfold State.tickFlit
        rw [if_neg (by rw [hcrc]; decide)]
        exact if_pos ⟨h7, htick⟩
      refine .of_alters hr he ?_ ?_ <;> rw [hrun]
      · exact (State.Alters.refl s).frame (State.onTick_frame ..) ⟨rfl, rfl⟩ (by simp)
      · rfl

end

/-! # Root ports

Inbound requests (R509, R510), the links (R507, R508), completions, reports and interrupts (R508, R513, R528). -/

section

namespace Sys2Proof.Machine

/-! ### Inbound requests -/

/-- The bytes that a request names. -/
def PciRequest.bytes (r : PciRequest) : Nat := if r.write then r.data.length else r.len

/-- Whether the inbound window of a port admits a request (R509). -/
def State.inboundAdmits (s : State) (port : Nat) (r : PciRequest) : Prop :=
  r.bytes ≠ 0 ∧ s.get F.PCI_IN_BASE.ADDR (pciDie port) <<< 12 ≤ r.addr ∧
    r.addr + r.bytes ≤ (s.get F.PCI_IN_LIMIT.ADDR (pciDie port) + 1) <<< 12 ∧ region r.addr = .host ∧
    s.backedSpan r.addr r.bytes = true

section
variable {s : State} {port : Nat} {r : PciRequest}

theorem State.pciInbound_down (h : s.on F.PCI_STATUS.LINK_UP (pciDie port) = false) : s.pciInbound port r = s := by
  unfold State.pciInbound
  exact if_pos (by rw [h]; rfl)

/-- A write of an MSI (R510, R528). -/
theorem State.pciInbound_msi (hu : s.on F.PCI_STATUS.LINK_UP (pciDie port) = true) {h : Nat} (hh : h < 72) (hw : r.write = true)
    (hl : r.data.length = 4) (hv : s.on F.PCI_MSI.VALID (pciDie port) = true) (ha : r.addr = s.msiBase port + 4096 * h) :
    s.pciInbound port r = s.interruptTo h (bits (leN r.data) 0 11) := by
  have halign : s.msiBase port % 4096 = 0 := by
    have hbase : s.msiBase port = s.get F.PCI_MSI.BASE (pciDie port) * 2 ^ 19 := Nat.shiftLeft_eq ..
    generalize s.get F.PCI_MSI.BASE (pciDie port) = b at hbase
    omega
  have hlow : r.addr < s.msiBase port + 72 * 4096 := by omega
  have hhigh : s.msiBase port < r.addr + 4 := by omega
  have hin : s.inMsi port r.addr 4 = true := by
    simp only [State.inMsi, hv, hlow, hhigh, decide_true, Bool.and_self]
  have hhart : (r.addr - s.msiBase port) / 4096 = h := by omega
  have hfirst : r.addr % 4096 = 0 := by omega
  have hbase : s.msiBase port ≤ r.addr := by omega
  unfold State.pciInbound
  simp only [hu, hw, hl, hin, hhart, hfirst, hbase, decide_true, Bool.not_true, Bool.false_eq_true, if_false, if_true, beq_self_eq_true,
    Bool.and_self]

variable (hu : s.on F.PCI_STATUS.LINK_UP (pciDie port) = true) (hm : s.inMsi port r.addr r.bytes = false)
include hu hm

theorem State.pciInbound_refused (hi : ¬ s.inboundAdmits port r) : s.pciInbound port r = s.inboundUr port r := by
  unfold State.pciInbound
  extract_lets d n
  rw [if_neg (by rw [hu]; decide), if_neg (by rw [show n = r.bytes from rfl, hm]; decide)]
  exact if_neg hi

theorem State.pciInbound_write (hi : s.inboundAdmits port r) (hw : r.write = true) : s.pciInbound port r = (s.writeSpan r.addr r.data).1 := by
  unfold State.pciInbound
  extract_lets d n
  rw [if_neg (by rw [hu]; decide), if_neg (by rw [show n = r.bytes from rfl, hm]; decide)]
  exact (if_pos hi).trans (if_pos hw)

theorem State.pciInbound_read (hi : s.inboundAdmits port r) (hw : r.write = false) (hs : s.soundSpan r.addr r.bytes) :
    s.pciInbound port r = (s.readSpan r.addr r.bytes).1.emit (.pciCompletion port r.tag 0 (s.bytes r.addr r.bytes)) := by
  obtain ⟨hok, hquiet⟩ := State.readSpan_sound hs
  unfold State.pciInbound
  extract_lets d n
  rw [if_neg (by rw [hu]; decide), if_neg (by rw [show n = r.bytes from rfl, hm]; decide)]
  refine (if_pos hi).trans ((if_neg (by rw [hw]; decide)).trans ?_)
  have hmem := hquiet.frame.mem_eq
  show (match s.readSpan r.addr r.bytes with
    | (t, ok) => t.emit (if ok then .pciCompletion port r.tag 0 (t.bytes r.addr r.bytes) else .pciCompletion port r.tag 4 [])) = _
  generalize s.readSpan r.addr r.bytes = p at *
  obtain ⟨t, ok⟩ := p
  obtain rfl : ok = true := hok
  rw [← State.bytes_congr hmem]
  rfl

end

/-! ### Completions -/

theorem State.pciAnswer_outstanding (s : State) (p : PciOut) (status : Nat) (data : Bytes) :
    (s.pciAnswer p status data).pci.outstanding = removeFirst (· == p) s.pci.outstanding := by
  unfold State.pciAnswer
  extract_lets t
  split <;> rfl

theorem removeFirst_append {α : Type} {p : α → Bool} {l r : List α} (h : ∀ x ∈ l, p x = false) :
    removeFirst p (l ++ r) = l ++ removeFirst p r := by
  induction l with
  | nil => rfl
  | cons x l ih =>
    rw [List.cons_append, removeFirst, h x List.mem_cons_self, if_neg (by decide), ih fun y hy => h y (List.mem_cons_of_mem _ hy)]
    rfl

/-- Removing the elements of one kind, one after the other. -/
theorem foldl_removeFirst_filter {α : Type} [DecidableEq α] (p : α → Bool) (l : List α) :
    ∀ r : List α, (∀ x ∈ r, p x = false) → (l.filter p).foldl (fun a x => removeFirst (· == x) a) (r ++ l) = r ++ l.filter fun x => !p x := by
  induction l with
  | nil => exact fun r _ => rfl
  | cons x l ih =>
    intro r hr
    cases hx : p x with
    | true =>
      have hfirst : removeFirst (· == x) (r ++ x :: l) = r ++ l := by
        rw [removeFirst_append fun y hy => beq_false_of_ne fun e => by
          have hy' := hr y hy
          rw [e, hx] at hy'
          exact absurd hy' (by decide)]
        simp [removeFirst]
      rw [List.filter_cons_of_pos hx, List.foldl_cons, hfirst, ih r hr, List.filter_cons_of_neg (by simp [hx])]
    | false =>
      have hmore := ih (r ++ [x]) (by simpa [or_imp, forall_and, hx] using hr)
      rw [List.filter_cons_of_neg (by simp [hx]), List.filter_cons_of_pos (by simp [hx])]
      simpa using hmore

/-- After a link has gone down no access waits on it (R508). -/
theorem State.outstanding_pciAnswers (l : List PciOut) (s : State) :
    (l.foldl (fun s p => s.pciAnswer p 1 []) s).pci.outstanding = l.foldl (fun a x => removeFirst (· == x) a) s.pci.outstanding := by
  induction l generalizing s with
  | nil => rfl
  | cons p l ih => rw [List.foldl_cons, ih, State.pciAnswer_outstanding, List.foldl_cons]

theorem State.pciAnswers_frame (l : List PciOut) (s : State) :
    Frame ⟨[.out, .rem, .pci], [], false⟩ s (l.foldl (fun s p => s.pciAnswer p 1 []) s) :=
  Frame.foldl fun t p => t.pciAnswer_frame p 1 []

theorem State.pciDown_spec {s : State} {port : Nat} (hu : s.on F.PCI_STATUS.LINK_UP (pciDie port) = true) :
    (s.pciDown port).on F.PCI_STATUS.LINK_UP (pciDie port) = false ∧ (s.pciDown port).on F.PCI_EVENTS.LINK_DOWN (pciDie port) = true ∧
      ∀ p ∈ (s.pciDown port).pci.outstanding, p.port ≠ port := by
  have heq : s.pciDown port = (s.pci.outstanding.filter fun p => p.port == port).foldl (fun s p => s.pciAnswer p 1 [])
      ((s.setWord .PCI_STATUS 0 (pciDie port)).flag F.PCI_EVENTS.LINK_DOWN (pciDie port)) := if_pos hu
  have hframe := State.pciAnswers_frame (s.pci.outstanding.filter fun p => p.port == port)
    ((s.setWord .PCI_STATUS 0 (pciDie port)).flag F.PCI_EVENTS.LINK_DOWN (pciDie port))
  rw [heq]
  refine ⟨?_, ?_, fun p hp => ?_⟩
  · rw [hframe.on_eq _ _ _, State.on, State.flag, State.get_put_reg (by decide), State.get, State.word_setWord_same]
    rfl
  · rw [hframe.on_eq _ _ _]
    exact State.on_flag_same _ _ _ _ (by decide) (by decide)
  · rw [State.outstanding_pciAnswers] at hp
    have hrest := foldl_removeFirst_filter (fun p : PciOut => p.port == port) s.pci.outstanding [] (by simp)
    rw [List.nil_append, List.nil_append] at hrest
    have hmem : p ∈ s.pci.outstanding.filter fun x => !(x.port == port) := hrest ▸ hp
    simpa using (List.mem_filter.1 hmem).2

/-- A completion ends its request (R508). -/
theorem State.pciCompleted_found {s : State} {port tag status : Nat} {data : Bytes} {p : PciOut}
    (hp : (s.pci.outstanding.find? fun p => p.port == port && p.tag == tag) = some p)
    (h : status ≠ 0 ∨ p.write = true ∨ data.length = p.len) :
    s.pciCompleted port tag status data =
      s.pciAnswer p (if status = 0 then 0 else 1) (if status = 0 ∧ p.write = false then data else []) := by
  unfold State.pciCompleted
  rw [hp]
  dsimp only
  by_cases hst : status = 0
  · rw [if_pos hst]
    cases hw : p.write with
    | true => simp [hst]
    | false =>
      have hlen : data.length = p.len := (h.resolve_left (not_not.mpr hst)).resolve_left (by rw [hw]; decide)
      simp [hst, hlen]
  · simp [hst]

theorem State.mem_imsic_of_mem (s : State) (hart id : Nat) {x : Nat × Nat} (h : x ∈ s.imsic) : x ∈ (s.interruptTo hart id).imsic := by
  unfold State.interruptTo
  split
  · exact List.mem_append_left _ h
  · exact h

end Sys2Proof.Machine

open Sys2Proof Sys2Proof.Machine

/-- Settles O52: an inbound request by the window or the MSI range it falls in; a link that goes down ends each of its accesses in turn. -/
theorem rootPortsCarryTheirRequests : Obligations.RootPortsCarryTheirRequests := by
  refine ⟨fun s port r c hinv hr hc => ?_, fun s port rate width hr => ?_, fun s port hr => ?_, fun s port ue hr => ?_,
    fun s port tag status data hr => ?_, fun s hart id hr => ?_⟩
  · intro d n inside
    have he : exec c s = act c s fun s => s.pciInbound port r := by
      rcases hc with rfl | ⟨rfl, hmsi⟩
      · rfl
      · rw [hmsi]
        rfl
    refine ⟨fun hdown => exec_eq_next hr he (State.pciInbound_down hdown), fun hu => ⟨fun h hh hw hl hv ha => ?_, fun hm hi => ?_,
      fun hm hi hs => ⟨fun hw => ?_, fun hw => ?_⟩⟩⟩
    · exact exec_eq_next hr he (State.pciInbound_msi hu hh hw hl hv ha) (State.interruptTo_frame _ _ _).fatal_eq
    · refine .of_alters hr he ?_ ?_ <;> rw [State.pciInbound_refused hu hm hi, State.inboundUr]
      · exact .ite (((State.Alters.refl s).put (f := F.PCI_COUNTS.INBOUND_UR) (by simp [d]) rfl).put (f := F.PCI_EVENTS.INBOUND_UR)
          (by simp [d]) rfl) ((((State.Alters.refl s).put (f := F.PCI_COUNTS.INBOUND_UR) (by simp [d]) rfl).put
          (f := F.PCI_EVENTS.INBOUND_UR) (by simp [d]) rfl).frame (State.emit_frame ..) ⟨rfl, rfl⟩ (by simp))
      · have hon : ((s.bump F.PCI_COUNTS.INBOUND_UR 1 (pciDie port)).flag F.PCI_EVENTS.INBOUND_UR (pciDie port)).on
            F.PCI_EVENTS.INBOUND_UR d = true := State.on_flag_same _ _ _ _ (by decide) (by decide)
        have hcount : ((s.bump F.PCI_COUNTS.INBOUND_UR 1 (pciDie port)).flag F.PCI_EVENTS.INBOUND_UR (pciDie port)).get
            F.PCI_COUNTS.INBOUND_UR d = min (s.get F.PCI_COUNTS.INBOUND_UR d + 1) (2 ^ 32 - 1) := by
          rw [State.flag, State.get_put_reg (by decide)]
          exact State.get_bump_same _ _ _ _ _ (by decide)
        cases r.write with
        | true => exact ⟨hon, hcount, (List.append_nil _).symm⟩
        | false => exact ⟨hon, hcount, rfl⟩
    · have hn : n = r.data.length := if_pos hw
      rw [hn] at hs ⊢
      obtain ⟨-, hquiet, hmem⟩ := State.writeSpan_sound hs
      obtain ⟨hbytes, hother⟩ := State.bytes_of_mem hinv.mem hmem
      exact ⟨_, exec_eq_next hr he (State.pciInbound_write hu hm hi hw) hquiet.frame.fatal_eq, hbytes, hquiet.frame.out_eq, hother⟩
    · obtain ⟨-, hquiet⟩ := State.readSpan_sound hs
      exact ⟨_, exec_eq_next hr he (State.pciInbound_read hu hm hi hw hs) hquiet.frame.fatal_eq, hquiet.frame.mem_eq,
        congrArg (· ++ _) hquiet.frame.out_eq⟩
  · intro d
    have he : exec (.pcieLinkUp port rate width) s = act (.pcieLinkUp port rate width) s fun s => s.pciUp port rate width := rfl
    have hwf := hr.1
    refine ⟨fun hen hrate => ?_, fun h => exec_eq_next hr he (if_neg ?_)⟩
    · have hrun : s.pciUp port rate width = ((s.flag F.PCI_STATUS.LINK_UP d).put F.PCI_STATUS.RATE rate d).put F.PCI_STATUS.WIDTH width d :=
        if_pos (by rw [hen, decide_eq_true hrate]; rfl)
      obtain ⟨hr8, hw32⟩ : rate < 2 ^ 3 ∧ width < 2 ^ 5 := by
        simp only [Instr.wf, Bool.and_eq_true, decide_eq_true_eq, List.contains_eq_mem, List.mem_cons, List.not_mem_nil, or_false] at hwf
        omega
      refine .of_alters hr he ?_ ?_ <;> rw [hrun]
      · exact (((State.Alters.refl s).put (f := F.PCI_STATUS.LINK_UP) (by simp) rfl).put (f := F.PCI_STATUS.RATE) (by simp) rfl).put
          (f := F.PCI_STATUS.WIDTH) (by simp) rfl
      · simp (disch := decide) only [State.on, State.flag, State.get_put_same, State.get_put_apart]
        exact ⟨rfl, Nat.mod_eq_of_lt hr8, Nat.mod_eq_of_lt hw32⟩
    · rcases h with h | h
      · rw [h, Bool.false_and]
        decide
      · rw [decide_eq_false (Nat.not_le.2 h), Bool.and_false]
        decide
  · intro d
    refine ⟨fun hu => ?_, fun hu => exec_eq_next (effect := fun s => s.pciDown port) hr rfl (if_neg (by rw [hu]; decide))⟩
    obtain ⟨hdown, hevent, hout⟩ := State.pciDown_spec hu
    exact ⟨_, exec_eq_next (effect := fun s => s.pciDown port) hr rfl rfl (s.pciDown_frame port).fatal_eq, hdown, hevent, hout,
      (s.pciDown_frame port).mem_eq⟩
  · refine .of_alters (effect := fun s => s.aerReport port ue) hr rfl ?_ ?_ <;> cases ue
    · exact ((State.Alters.refl s).put (f := F.PCI_COUNTS.AER_CE) (by simp) rfl).put (f := F.PCI_EVENTS.AER_CE) (by simp) rfl
    · exact (State.Alters.refl s).put (f := F.PCI_EVENTS.AER_UE) (by simp) rfl
    · refine ⟨fun h => absurd h (by decide), fun _ => ⟨State.on_flag_same _ _ _ _ (by decide) (by decide), ?_⟩⟩
      show ((s.bump F.PCI_COUNTS.AER_CE 1 (pciDie port)).flag F.PCI_EVENTS.AER_CE (pciDie port)).get _ _ = _
      rw [State.flag, State.get_put_reg (by decide)]
      exact State.get_bump_same _ _ _ _ _ (by decide)
    · exact ⟨fun _ => ⟨State.on_flag_same _ _ _ _ (by decide) (by decide), State.get_put_reg (by decide)⟩, fun h => absurd h (by decide)⟩
  · intro found
    have he : exec (.pcieCompletion port tag status data) s = act (.pcieCompletion port tag status data) s fun s =>
      s.pciCompleted port tag status data := rfl
    refine ⟨fun hnone => exec_eq_next hr he ?_, fun p hp h => ?_⟩
    · unfold State.pciCompleted
      rw [show (s.pci.outstanding.find? _) = none from hnone]
    · intro body code
      have hrun := State.pciCompleted_found hp h
      have hframe := s.pciAnswer_frame p code body
      refine ⟨_, exec_eq_next hr he hrun hframe.fatal_eq, s.pciAnswer_outstanding p code body, ?_, hframe.mem_eq, fun hn => ?_, fun u hu => ?_⟩
      · unfold State.pciAnswer
        extract_lets t
        split <;> rfl
      · simp only [State.pciAnswer, hn]
        rfl
      · simp only [State.pciAnswer, hu]
        exact ⟨rfl, rfl⟩
  · have hh : hart < 72 := of_decide_eq_true hr.1
    exact ⟨_, exec_eq_next (effect := fun s => s.interruptTo hart id) hr rfl rfl (State.interruptTo_frame _ _ _).fatal_eq,
      s.mem_imsic_interruptTo id hh, fun x hx => s.mem_imsic_of_mem hart id hx, s.interruptTo_regs hart id,
      (State.interruptTo_frame _ _ _).mem_eq⟩

end

/-! # Queue contexts, doorbells and entries

The fields of a cached context (R488), doorbells (R490, R491, R497, R498, R500), and the fetching of entries (R491, R493, R499). -/

section

namespace Sys2Proof.Machine

/-! ### The fields of a context -/

/-- A field that lies within a context's 64 bytes. -/
abbrev CtxFld.Inside (f : CtxFld) : Prop := f.off + f.len ≤ 64

/-- Two fields that share no byte. -/
abbrev CtxFld.Apart (f g : CtxFld) : Prop := g.off + g.len ≤ f.off ∨ f.off + f.len ≤ g.off

theorem length_ctxPut {b : Bytes} (h : b.length = 64) {f : CtxFld} (hf : f.Inside) (v : Nat) : (ctxPut f v b).length = 64 := by
  have hf' : f.off + f.len ≤ 64 := hf
  rw [ctxPut, length_patch (by rw [toLE_length, h]; exact hf'), h]

theorem ctxGet_ctxPut_same {b : Bytes} (h : b.length = 64) {f : CtxFld} (hf : f.Inside) {v : Nat} (hv : v < 256 ^ f.len) :
    ctxGet (ctxPut f v b) f = v := by
  have hf' : f.off + f.len ≤ 64 := hf
  have hget := fieldAt_patch_same (bs := b) (new := toLE f.len v) (off := f.off) (by omega)
  rw [toLE_length, leN_toLE hv] at hget
  exact hget

theorem ctxGet_ctxPut_apart {b : Bytes} (h : b.length = 64) {f g : CtxFld} (hf : f.Inside) (ha : f.Apart g) (v : Nat) :
    ctxGet (ctxPut f v b) g = ctxGet b g := by
  have hf' : f.off + f.len ≤ 64 := hf
  refine fieldAt_patch_apart (by rw [toLE_length, h]; exact hf') ?_
  rw [toLE_length]
  exact ha

/-- A queue whose context is cached whole. -/
def State.Cached (s : State) (q : Nat) : Prop := ∃ b, s.ctx q = some b ∧ b.length = 64

section
variable {s t : State} {q : Nat}

theorem State.ctx_congr (h : t.qcx.cached = s.qcx.cached) (q : Nat) : t.ctx q = s.ctx q := by rw [State.ctx, State.ctx, h]

theorem State.ctxField_congr (h : t.qcx.cached = s.qcx.cached) (q : Nat) (f : CtxFld) : t.ctxField q f = s.ctxField q f := by
  rw [State.ctxField, State.ctxField, State.ctx_congr h]

theorem State.ctxField_of_ctx {b : Bytes} (h : s.ctx q = some b) (f : CtxFld) : s.ctxField q f = ctxGet b f := by
  rw [State.ctxField, h]

theorem State.Cached.congr (h : s.Cached q) (he : t.qcx.cached = s.qcx.cached) : t.Cached q := by
  obtain ⟨b, hb, hl⟩ := h
  exact ⟨b, (State.ctx_congr he q).trans hb, hl⟩

theorem State.ctx_setCtx {b : Bytes} (h : s.ctx q = some b) (f : CtxFld) (v : Nat) : (s.setCtx q f v).ctx q = some (ctxPut f v b) := by
  rw [State.setCtx, State.onCtx, h]
  exact lookupKey_setKey_same ..

theorem State.Cached.setCtx (h : s.Cached q) {f : CtxFld} (hf : f.Inside) (v : Nat) : (s.setCtx q f v).Cached q := by
  obtain ⟨b, hb, hl⟩ := h
  exact ⟨_, State.ctx_setCtx hb f v, length_ctxPut hl hf v⟩

theorem State.ctxField_setCtx_same (h : s.Cached q) {f : CtxFld} (hf : f.Inside) {v : Nat} (hv : v < 256 ^ f.len) :
    (s.setCtx q f v).ctxField q f = v := by
  obtain ⟨b, hb, hl⟩ := h
  rw [State.ctxField_of_ctx (State.ctx_setCtx hb f v), ctxGet_ctxPut_same hl hf hv]

theorem State.ctxField_setCtx_apart (h : s.Cached q) {f g : CtxFld} (hf : f.Inside) (ha : f.Apart g) (v : Nat) :
    (s.setCtx q f v).ctxField q g = s.ctxField q g := by
  obtain ⟨b, hb, hl⟩ := h
  rw [State.ctxField_of_ctx (State.ctx_setCtx hb f v), State.ctxField_of_ctx hb, ctxGet_ctxPut_apart hl hf ha]

/-- A change of a context leaves the rest of the queues' state. -/
theorem State.setCtx_eq (s : State) (q : Nat) (f : CtxFld) (v : Nat) : ∃ l, s.setCtx q f v = s.onQcx fun x => { x with cached := l } := by
  unfold State.setCtx State.onCtx
  split
  · exact ⟨_, rfl⟩
  · exact ⟨s.qcx.cached, rfl⟩

theorem State.setCtx_qcx (s : State) (q : Nat) (f : CtxFld) (v : Nat) :
    (s.setCtx q f v).qcx = { s.qcx with cached := (s.setCtx q f v).qcx.cached } := by
  obtain ⟨l, hl⟩ := s.setCtx_eq q f v
  rw [hl]
  rfl

@[simp] theorem State.setCtx_fetches (s : State) (q : Nat) (f : CtxFld) (v : Nat) : (s.setCtx q f v).qcx.fetches = s.qcx.fetches := by
  rw [s.setCtx_qcx q f v]

@[simp] theorem State.setCtx_cmds (s : State) (q : Nat) (f : CtxFld) (v : Nat) : (s.setCtx q f v).qcx.cmds = s.qcx.cmds := by
  rw [s.setCtx_qcx q f v]

@[simp] theorem State.setCtx_waiting (s : State) (q : Nat) (f : CtxFld) (v : Nat) : (s.setCtx q f v).qcx.waiting = s.qcx.waiting := by
  rw [s.setCtx_qcx q f v]

@[simp] theorem State.setCtx_qctl (s : State) (q : Nat) (f : CtxFld) (v : Nat) : (s.setCtx q f v).qcx.qctl = s.qcx.qctl := by
  rw [s.setCtx_qcx q f v]

theorem State.disabling_congr (h : t.qcx.qctl = s.qcx.qctl) (q : Nat) : t.disabling q = s.disabling q := by
  rw [State.disabling, State.disabling, h]

theorem State.inFlight_congr (h : t.qcx.cmds = s.qcx.cmds) (q : Nat) : t.inFlight q = s.inFlight q := by
  rw [State.inFlight, State.inFlight, h]

/-! ### The most recently used context -/

theorem lookupKey_append_of_none {κ α : Type} [DecidableEq κ] {k : κ} {l r : List (κ × α)} (h : lookupKey k l = none) :
    lookupKey k (l ++ r) = lookupKey k r := by
  induction l with
  | nil => rfl
  | cons x l ih =>
    obtain ⟨k', v⟩ := x
    by_cases hk : k' = k
    · simp [lookupKey, hk] at h
    · simp only [lookupKey, hk, if_false] at h
      simp only [List.cons_append, lookupKey, hk, if_false, ih h]

/-- A context at the end of the cache. -/
theorem lookupKey_dropKey_append (q : Nat) (b : Bytes) (l : List (Nat × Bytes)) : lookupKey q (dropKey q l ++ [(q, b)]) = some b := by
  rw [lookupKey_append_of_none (lookupKey_dropKey_same q l)]
  simp [lookupKey]

theorem State.touchCtx_eq (s : State) (q : Nat) : ∃ l, s.touchCtx q = s.onQcx fun x => { x with cached := l } := by
  unfold State.touchCtx
  split
  · exact ⟨_, rfl⟩
  · exact ⟨s.qcx.cached, rfl⟩

theorem State.touchCtx_qcx (s : State) (q : Nat) : (s.touchCtx q).qcx = { s.qcx with cached := (s.touchCtx q).qcx.cached } := by
  obtain ⟨l, hl⟩ := s.touchCtx_eq q
  rw [hl]
  rfl

theorem State.touchCtx_regs (s : State) (q : Nat) : (s.touchCtx q).regs = s.regs := by
  obtain ⟨l, hl⟩ := s.touchCtx_eq q
  rw [hl]
  rfl

@[simp] theorem State.ctx_touchCtx (s : State) (q : Nat) : (s.touchCtx q).ctx q = s.ctx q := by
  unfold State.touchCtx
  split
  · next b hb => rw [hb]; exact lookupKey_dropKey_append q b _
  · rfl

@[simp] theorem State.ctxField_touchCtx (s : State) (q : Nat) (f : CtxFld) : (s.touchCtx q).ctxField q f = s.ctxField q f := by
  rw [State.ctxField, State.ctxField, s.ctx_touchCtx]

theorem State.Cached.touchCtx (h : s.Cached q) : (s.touchCtx q).Cached q := by
  obtain ⟨b, hb, hl⟩ := h
  exact ⟨b, (s.ctx_touchCtx q).trans hb, hl⟩

/-! ### Errors and starts -/

theorem fetches_filter_ne (l : List Fetch) (q : Nat) : ∀ f ∈ l.filter (fun f => f.q != q), f.q ≠ q := fun f hf => by
  simpa using (List.mem_filter.1 hf).2

/-- A queue that enters ERROR (R491). -/
theorem State.queueError_spec (hc : s.Cached q) (hne : s.ctxField q ctxState ≠ qDisabled) {cause : Nat} (hcause : cause < 256) :
    (s.queueError q cause).ctxField q ctxState = qError ∧ (s.queueError q cause).ctxField q ctxErrCause = cause ∧
      (s.queueError q cause).on F.QCX_EVENTS.QUEUE_ERROR (queueDie q) = true ∧ ∀ f ∈ (s.queueError q cause).qcx.fetches, f.q ≠ q := by
  have hstate : ctxState.Inside := by decide
  have herr : ctxErrCause.Inside := by decide
  have hrun : s.queueError q cause = (((s.setCtx q ctxState qError).setCtx q ctxErrCause cause).flag F.QCX_EVENTS.QUEUE_ERROR
      (queueDie q)).onQcx fun x => { x with fetches := x.fetches.filter fun f => f.q != q } := if_neg hne
  have hcached : (s.queueError q cause).qcx.cached = ((s.setCtx q ctxState qError).setCtx q ctxErrCause cause).qcx.cached := by rw [hrun]; rfl
  refine ⟨?_, ?_, ?_, ?_⟩
  · rw [State.ctxField_congr hcached, State.ctxField_setCtx_apart (hc.setCtx hstate _) herr (by decide)]
    exact State.ctxField_setCtx_same hc hstate (by decide)
  · rw [State.ctxField_congr hcached]
    exact State.ctxField_setCtx_same (hc.setCtx hstate _) herr hcause
  · rw [hrun, State.on, State.get_onQcx, ← State.on]
    exact State.on_flag_same _ _ _ _ (by decide) (by decide)
  · rw [hrun]
    exact fetches_filter_ne _ q

/-- An ACTIVE queue with entries to fetch begins a fetch sequence at HEAD (R499, R501). -/
theorem State.settleQueue_fetches (hst : s.ctxField q ctxState = qActive) (hht : s.ctxField q ctxHead ≠ s.ctxField q ctxTail)
    (hd : s.disabling q = false) (hfly : (s.inFlight q).length < 8) (hnone : ∀ f ∈ s.qcx.fetches, f.q ≠ q) :
    s.settleQueue q = s.onQcx fun x => { x with fetches := x.fetches ++ [{ q := q, c := s.ctxField q ctxHead }] } := by
  have hany : (s.qcx.fetches.any fun f => f.q == q) = false := by simpa using hnone
  unfold State.settleQueue
  rw [if_neg fun h => hht h.2.1, State.startFetch, if_pos]
  simp [hst, hht, hd, hfly, hany]

/-! ### Doorbells -/

theorem State.doorbell_cached {b : Bytes} (h : s.ctx q = some b) (kind v : Nat) : s.doorbell q kind v = s.ringCached q kind v := by
  rw [State.doorbell, h]

theorem State.doorbell_uncached (h : s.ctx q = none) (kind v : Nat) : s.doorbell q kind v =
    (if (s.ctxRoom (queueDie q)).isNone then s.flag F.QCX_EVENTS.CACHE_FULL (queueDie q) else s).onQcx fun x =>
      { x with waiting := x.waiting ++ [(q, kind, v)] } := by
  rw [State.doorbell, h]

/-- A submission on a queue that is disabled, or being so (R491). -/
theorem State.submitted_disabled {v : Nat} (h : s.ctxField q ctxState = qDisabled ∨ s.disabling q = true) :
    s.submitted q v = s.discardDoorbell q := if_pos h

/-- A submission that runs past the ring (R498). -/
theorem State.submitted_past {v : Nat} (hst : s.ctxField q ctxState ≠ qDisabled) (hd : s.disabling q = false)
    (h : 2 ^ s.ctxField q ctxRingLog < (v + 65536 - s.ctxField q ctxHead) % 65536) : s.submitted q v = s.queueError q 1 := by
  unfold State.submitted
  extract_lets st
  rw [if_neg (by rw [hd]; simpa using hst), if_pos h]

/-- A submission that makes an IDLE or parked queue ACTIVE (R491, R500). -/
theorem State.submitted_starts (hc : s.Cached q) {v : Nat} (hv : v < 65536) (hst : s.ctxField q ctxState = qIdle ∨ s.ctxField q ctxState = qEarly)
    (hd : s.disabling q = false) (hring : ¬ 2 ^ s.ctxField q ctxRingLog < (v + 65536 - s.ctxField q ctxHead) % 65536)
    (hne : v ≠ s.ctxField q ctxHead) (hfly : (s.inFlight q).length < 8) (hnone : ∀ f ∈ s.qcx.fetches, f.q ≠ q) :
    (s.submitted q v).ctxField q ctxState = qActive ∧ (s.submitted q v).ctxField q ctxTail = v ∧
      (s.submitted q v).ctxField q ctxHead = s.ctxField q ctxHead ∧
      (s.submitted q v).qcx.fetches = s.qcx.fetches ++ [{ q := q, c := s.ctxField q ctxHead }] ∧
      Frame ⟨[.qcx], [], false⟩ s (s.submitted q v) := by
  have htail : ctxTail.Inside := by decide
  have hstate : ctxState.Inside := by decide
  have hc₁ := hc.setCtx htail v
  have hnd : ¬ (s.ctxField q ctxState = qDisabled ∨ s.disabling q = true) := by
    rw [hd]
    rcases hst with h | h <;> rw [h] <;> decide
  have hhead₁ : (s.setCtx q ctxTail v).ctxField q ctxHead = s.ctxField q ctxHead := State.ctxField_setCtx_apart hc htail (by decide) v
  have hact : s.ctxField q ctxState = qIdle ∧ v ≠ (s.setCtx q ctxTail v).ctxField q ctxHead ∨ s.ctxField q ctxState = qEarly :=
    hst.imp_left fun h => ⟨h, by rwa [hhead₁]⟩
  have hrun : s.submitted q v = ((s.setCtx q ctxTail v).setCtx q ctxState qActive).settleQueue q := by
    unfold State.submitted
    extract_lets st t u
    rw [if_neg hnd, if_neg hring]
    exact congrArg (State.settleQueue · q) (if_pos hact)
  have hstate₂ : ((s.setCtx q ctxTail v).setCtx q ctxState qActive).ctxField q ctxState = qActive :=
    State.ctxField_setCtx_same hc₁ hstate (by decide)
  have htail₂ : ((s.setCtx q ctxTail v).setCtx q ctxState qActive).ctxField q ctxTail = v :=
    (State.ctxField_setCtx_apart hc₁ hstate (by decide) _).trans (State.ctxField_setCtx_same hc htail hv)
  have hhead₂ : ((s.setCtx q ctxTail v).setCtx q ctxState qActive).ctxField q ctxHead = s.ctxField q ctxHead :=
    (State.ctxField_setCtx_apart hc₁ hstate (by decide) _).trans hhead₁
  have hsettle := State.settleQueue_fetches (s := (s.setCtx q ctxTail v).setCtx q ctxState qActive) hstate₂ (by rw [htail₂, hhead₂]; exact hne.symm)
    ((State.disabling_congr (by simp) q).trans hd) (by rw [State.inFlight_congr (s := s) (by simp)]; exact hfly) (by simpa using hnone)
  rw [hhead₂] at hsettle
  rw [hrun]
  refine ⟨?_, ?_, ?_, ?_, (((Frame.refl s).step (State.setCtx_frame ..)).step (State.setCtx_frame ..)).step (State.settleQueue_frame ..)⟩ <;>
    rw [hsettle]
  · exact (State.ctxField_congr rfl ..).trans hstate₂
  · exact (State.ctxField_congr rfl ..).trans htail₂
  · exact (State.ctxField_congr rfl ..).trans hhead₂
  · simp [State.onQcx]

/-! ### Entries -/

/-- Where the entry of a counter stands (R493). -/
def State.ringSlot (s : State) (q c : Nat) : Nat := s.ctxField q ctxRing + 256 * (c % 2 ^ s.ctxField q ctxRingLog)

/-- What a fetch of a sound entry finds. -/
def Fetch.taken (f : Fetch) (k : Nat) (e : Bytes) (good : Bool) : Fetch :=
  if good then { f with valid := f.valid ++ [(k, e)] } else { f with returned := f.returned ++ [k] }

/-- The state in which a fetch's return is judged. -/
def State.fetched (s : State) (q k : Nat) (f : Fetch) (e : Bytes) (good : Bool) : State :=
  (if good then s else s.bump F.QCX_COUNTS.INVALID_FETCHES 1 (queueDie q)).onQcx fun x =>
    { x with fetches := updateFirst (fun g => g.q == q) (fun _ => f.taken k e good) x.fetches }

section
variable {f : Fetch} {k : Nat} (hf : (s.qcx.fetches.find? fun f => f.q == q) = some f)
include hf

/-- A fetch that is not issued, or has returned, is no fetch. -/
theorem State.entryReturns_stale (h : f.issued ≤ k ∨ k ∈ f.returned) : s.entryReturns q k = s := by
  unfold State.entryReturns
  rw [hf]
  exact if_pos (h.imp_right fun h => .inl (by simpa using h))

/-- The return of a sound entry (R493, R499). -/
theorem State.entryReturns_sound (hk : k < f.issued) (hnew : k ∉ f.returned) (hvalid : f.valid = [])
    (hback : s.backedSpan (s.ringSlot q f.c) 256 = true) (hsound : s.soundSpan (s.ringSlot q f.c) 256)
    (hht : s.ctxField q ctxHead ≠ s.ctxField q ctxTail) :
    ∃ r, Frame soundReadTouch s r ∧ s.entryReturns q k =
      let e := s.bytes (s.ringSlot q f.c) 256
      let good := entryValid e f.c (s.ctxField q ctxRingLog)
      match (f.taken k e good).ready with
      | some b => (r.fetched q k f e good).takeEntry q f.c b
      | none => if (f.taken k e good).returned.length = 9 then (r.fetched q k f e good).park q else r.fetched q k f e good := by
  obtain ⟨hok, hquiet⟩ := State.readSpan_sound hsound
  have hqcx := hquiet.frame.qcx_eq
  have hbytes := State.bytes_congr hquiet.frame.mem_eq (s.ringSlot q f.c) 256
  refine ⟨_, hquiet.frame, ?_⟩
  have hnot : ¬ (f.issued ≤ k ∨ f.returned.contains k = true ∨ (lookupKey k f.valid).isSome = true) := by
    rw [hvalid]
    rintro (h | h | h)
    · omega
    · exact hnew (by simpa using h)
    · simp [lookupKey] at h
  unfold State.entryReturns
  rw [hf]
  dsimp only
  rw [if_neg hnot, show s.ctxField q ctxRing + 256 * (f.c % 2 ^ s.ctxField q ctxRingLog) = s.ringSlot q f.c from rfl, if_pos hback]
  generalize s.readSpan (s.ringSlot q f.c) 256 = p at *
  obtain ⟨r, ok⟩ := p
  obtain rfl : ok = true := hok
  dsimp only at hqcx hbytes ⊢
  rw [hbytes, Bool.true_and]
  generalize s.bytes (s.ringSlot q f.c) 256 = e
  generalize entryValid e f.c (s.ctxField q ctxRingLog) = good
  have hfield : ∀ g, (r.fetched q k f e good).ctxField q g = s.ctxField q g := fun g => by
    refine State.ctxField_congr ?_ q g
    rw [← hqcx]
    cases good <;> rfl
  have hne : ¬ (r.fetched q k f e good).ctxField q ctxHead = (r.fetched q k f e good).ctxField q ctxTail := by rwa [hfield, hfield]
  cases good <;> exact if_neg hne

end

/-- An entry that is taken (R499, R501). -/
theorem State.takeEntry_spec (hc : s.Cached q) {c : Nat} (b : Bytes) :
    (s.takeEntry q c b).qcx.cmds = s.qcx.cmds ++ [{ q := q, c := c, entry := b, status := if badCommand b then some 3 else none }] ∧
      (s.takeEntry q c b).ctxField q ctxHead = (c + 1) % 65536 := by
  have hhead : ctxHead.Inside := by decide
  have hset := State.ctxField_setCtx_same hc hhead (v := (c + 1) % 65536) (Nat.mod_lt _ (by decide))
  have hstart : ∀ t : State, (t.startFetch q).qcx.cmds = t.qcx.cmds ∧ (t.startFetch q).qcx.cached = t.qcx.cached := fun t => by
    unfold State.startFetch
    split <;> exact ⟨rfl, rfl⟩
  unfold State.takeEntry
  extract_lets t
  refine ⟨(hstart t).1.trans ?_, (State.ctxField_congr (hstart t).2 q _).trans ((State.ctxField_congr rfl q _).trans hset)⟩
  show (s.setCtx q ctxHead ((c + 1) % 65536)).qcx.cmds ++ _ = _
  rw [State.setCtx_cmds]

/-- A queue that parks (R491, R499). -/
theorem State.park_spec (hc : s.Cached q) : (s.park q).ctxField q ctxState = qEarly ∧
    (s.park q).ctxField q ctxParks = min 255 (s.ctxField q ctxParks + 1) ∧ (s.park q).on F.QCX_EVENTS.EARLY (queueDie q) = true ∧
      (s.park q).qcx.cmds = s.qcx.cmds := by
  have hstate : ctxState.Inside := by decide
  have hparks : ctxParks.Inside := by decide
  unfold State.park
  extract_lets die t u
  have ht : t.Cached q := hc.congr rfl
  have hpark : t.ctxField q ctxParks = s.ctxField q ctxParks := State.ctxField_congr rfl q _
  refine ⟨(State.ctxField_congr (s := u) rfl q _).trans ?_, (State.ctxField_congr (s := u) rfl q _).trans ?_,
    State.on_flag_same _ _ _ _ (by decide) (by decide), ?_⟩
  · show (State.setCtx _ _ _ _).ctxField _ _ = _
    rw [State.ctxField_setCtx_apart (ht.setCtx hstate _) hparks (by decide), State.ctxField_setCtx_same ht hstate (by decide)]
  · show (State.setCtx _ _ _ _).ctxField _ _ = _
    rw [State.ctxField_setCtx_same (ht.setCtx hstate _) hparks (by rw [show 256 ^ ctxParks.len = 256 from rfl]; omega), hpark]
  · show (State.setCtx _ _ _ _).qcx.cmds = _
    rw [State.setCtx_cmds, State.setCtx_cmds]
    rfl

end

theorem updateFirst_of_none {α : Type} {p : α → Bool} {f : α → α} {l : List α} (h : ∀ x ∈ l, p x = false) : updateFirst p f l = l := by
  induction l with
  | nil => rfl
  | cons x l ih =>
    rw [updateFirst, h x List.mem_cons_self, if_neg (by decide), ih fun y hy => h y (List.mem_cons_of_mem _ hy)]

/-- The first sequence of a queue after one more issue of it. -/
theorem find?_updateFirst_issued {l : List Fetch} {q k : Nat} {f : Fetch} (hf : (l.find? fun f => f.q == q) = some f) (hk : f.issued = k) :
    ((updateFirst (fun g : Fetch => g.q == q && g.issued == k) (fun g => { g with issued := k + 1 }) l).find? fun f => f.q == q) =
      some { f with issued := k + 1 } := by
  induction l with
  | nil => exact absurd hf (by simp)
  | cons g l ih =>
    by_cases hg : g.q = q
    · obtain rfl : g = f := by simpa [hg] using hf
      simp [updateFirst, hg, hk]
    · simp only [List.find?_cons, beq_false_of_ne hg] at hf
      simpa [updateFirst, hg] using ih hf

end Sys2Proof.Machine

open Sys2Proof Sys2Proof.Machine

/-- A doorbell on a cached context: the clauses of O49 about it. -/
theorem doorbell_on_cached_context {s : State} {q v kind : Nat} {c : Instr} {b : Bytes} (hr : s.Reaches c)
    (he : exec c s = act c s fun s => s.doorbell q kind v) (hv : v < 65536) (hb : s.ctx q = some b) (hl : b.length = 64) :
    let head := s.ctxField q ctxHead
    let past := 2 ^ s.ctxField q ctxRingLog < (v + 65536 - head) % 65536
    let st := s.ctxField q ctxState
    (kind = 0 → st = qDisabled ∨ s.disabling q = true → ∃ t, exec c s = .next t ∧ t.ctx q = some b ∧
      t.on F.QCX_EVENTS.DB_DISCARD (queueDie q) = true ∧ t.get F.QCX_COUNTS.DB_DISCARDED (queueDie q) =
        min (s.get F.QCX_COUNTS.DB_DISCARDED (queueDie q) + 1) (2 ^ F.QCX_COUNTS.DB_DISCARDED.len - 1)) ∧
    (kind = 0 → st ≠ qDisabled → s.disabling q = false → past → ∃ t, exec c s = .next t ∧ t.ctxField q ctxState = qError ∧
      t.ctxField q ctxErrCause = 1 ∧ t.on F.QCX_EVENTS.QUEUE_ERROR (queueDie q) = true ∧ ∀ f ∈ t.qcx.fetches, f.q ≠ q) ∧
    (kind = 0 → st = qIdle ∨ st = qEarly → s.disabling q = false → ¬past → v ≠ head → (s.inFlight q).length < 8 →
      (∀ f ∈ s.qcx.fetches, f.q ≠ q) → Completes c s [.qcx] [] fun t =>
        t.ctxField q ctxState = qActive ∧ t.ctxField q ctxTail = v ∧ t.ctxField q ctxHead = head ∧
        t.qcx.fetches = s.qcx.fetches ++ [{ q := q, c := head }]) ∧
    (kind = 1 → (s.ctxField q ctxCqTail + 65536 - v) % 65536 ≤ 2 ^ s.ctxField q ctxCqLog → Completes c s [.qcx] [] fun t =>
      t.ctxField q ctxCqHead = v ∧ t.ctxField q ctxState = st) ∧
    (kind = 1 → st ≠ qDisabled → 2 ^ s.ctxField q ctxCqLog < (s.ctxField q ctxCqTail + 65536 - v) % 65536 →
      ∃ t, exec c s = .next t ∧ t.ctxField q ctxState = qError ∧ t.ctxField q ctxErrCause = 3) := by
  intro head past st
  have hc : (s.touchCtx q).Cached q := State.Cached.touchCtx ⟨b, hb, hl⟩
  have hqcx := s.touchCtx_qcx q
  have hdis : (s.touchCtx q).disabling q = s.disabling q := State.disabling_congr (by rw [hqcx]) q
  have hfly : (s.touchCtx q).inFlight q = s.inFlight q := State.inFlight_congr (by rw [hqcx]) q
  have hfetch : (s.touchCtx q).qcx.fetches = s.qcx.fetches := by rw [hqcx]
  have hget := fun f => s.ctxField_touchCtx q f
  have hsubm : s.doorbell q 0 v = (s.touchCtx q).submitted q v := State.doorbell_cached hb 0 v
  have hcons : s.doorbell q 1 v = (s.touchCtx q).consumed q v := State.doorbell_cached hb 1 v
  have hgo := exec_eq_next hr he rfl (s.doorbell_frame q kind v).fatal_eq
  refine ⟨fun hk hst => ?_, fun hk hst hd hp => ?_, fun hk hst hd hp hne hfew hnone => ?_, fun hk hle => ?_, fun hk hst hlt => ?_⟩ <;> subst hk
  · have hdisc : s.doorbell q 0 v = (s.touchCtx q).discardDoorbell q := hsubm.trans (State.submitted_disabled (by rw [hget, hdis]; exact hst))
    refine ⟨_, hgo, ?_, ?_, ?_⟩ <;> rw [hdisc]
    · exact (State.ctx_congr rfl q).trans ((s.ctx_touchCtx q).trans hb)
    · exact State.on_flag_same _ _ _ _ (by decide) (by decide)
    · rw [State.discardDoorbell, State.flag, State.get_put_reg (by decide), State.get_bump_same _ _ _ _ _ (by decide),
        State.get_congr (s.touchCtx_regs q)]
  · have herr : s.doorbell q 0 v = (s.touchCtx q).queueError q 1 :=
      hsubm.trans (State.submitted_past (by rwa [hget]) (hdis.trans hd) (by rwa [hget, hget]))
    rw [herr] at hgo
    obtain ⟨h1, h2, h3, h4⟩ := State.queueError_spec hc (by rwa [hget]) (cause := 1) (by decide)
    exact ⟨_, hgo, h1, h2, h3, h4⟩
  · obtain ⟨h1, h2, h3, h4, hframe⟩ := State.submitted_starts hc hv (by rw [hget]; exact hst) (hdis.trans hd) (by rwa [hget, hget])
      (by rwa [hget]) (by rwa [hfly]) (by rwa [hfetch])
    refine .of_alters hr he ?_ ?_ <;> rw [hsubm]
    · exact ((State.Alters.refl s).frame (s.touchCtx_frame q) ⟨rfl, rfl⟩ (by simp)).frame hframe ⟨rfl, rfl⟩ (by simp)
    · rw [hget] at h3 h4
      exact ⟨h1, h2, h3, by rw [h4, hfetch]⟩
  · have hcq : ctxCqHead.Inside := by decide
    have hset : s.doorbell q 1 v = (s.touchCtx q).setCtx q ctxCqHead v := hcons.trans (if_neg (by rw [hget, hget]; exact Nat.not_lt.2 hle))
    refine .of_alters hr he ?_ ?_ <;> rw [hset]
    · exact ((State.Alters.refl s).frame (s.touchCtx_frame q) ⟨rfl, rfl⟩ (by simp)).frame (State.setCtx_frame ..) ⟨rfl, rfl⟩ (by simp)
    · exact ⟨State.ctxField_setCtx_same hc hcq hv, (State.ctxField_setCtx_apart hc hcq (by decide) v).trans (hget _)⟩
  · have herr : s.doorbell q 1 v = (s.touchCtx q).queueError q 3 := hcons.trans (if_pos (by rwa [hget, hget]))
    rw [herr] at hgo
    obtain ⟨h1, h2, -, -⟩ := State.queueError_spec hc (by rwa [hget]) (cause := 3) (by decide)
    exact ⟨_, hgo, h1, h2⟩

/-- Settles O49: a doorbell by whether its context is cached and by what its ring holds; a fetch by what its entry reads. -/
theorem doorbellsAndFetchesFollowTheRing : Obligations.DoorbellsAndFetchesFollowTheRing := by
  refine ⟨fun s q v kind c hr hc => ?_, fun s q k hinv hr => ⟨fun hnone => ?_, fun f b hf hb hl => ?_⟩, fun s q k hr => ⟨fun hnone => ?_, fun f hf hk => ?_⟩⟩
  · obtain ⟨he, hv⟩ : (exec c s = act c s fun s => s.doorbell q kind v) ∧ v < 65536 := by
      have hwf := hr.1
      rcases hc with ⟨rfl, rfl⟩ | ⟨rfl, rfl⟩ <;>
        simp only [Instr.wf, Bool.and_eq_true, decide_eq_true_eq] at hwf <;> exact ⟨rfl, hwf.2⟩
    refine ⟨fun hn hroom => exec_eq_next hr he ?_, fun hn hroom => ?_, fun b hb hl => doorbell_on_cached_context hr he hv hb hl⟩
    · rw [State.doorbell_uncached hn, if_neg]
      simpa using hroom
    · refine .of_alters hr he ?_ ?_ <;> rw [State.doorbell_uncached hn, if_pos (by rw [hroom]; rfl)]
      · exact ((State.Alters.refl s).put (f := F.QCX_EVENTS.CACHE_FULL) (by simp) rfl).frame (State.onQcx_frame ..) ⟨rfl, rfl⟩ (by simp)
      · rw [State.on, State.get_onQcx, ← State.on]
        exact ⟨State.on_flag_same _ _ _ _ (by decide) (by decide), rfl⟩
  · refine exec_eq_next (effect := fun s => s.entryReturns q k) hr rfl ?_
    have hfind : (s.qcx.fetches.find? fun f => f.q == q) = none := by simpa using hnone
    simp only [State.entryReturns, hfind]
  · intro n a e missed
    have he : exec (.entryFetchReturn q k) s = act (.entryFetchReturn q k) s fun s => s.entryReturns q k := rfl
    refine ⟨fun h => exec_eq_next hr he (State.entryReturns_stale hf h), fun hk hnew hvalid hback hsound hht => ?_⟩
    obtain ⟨r, hframe, hrun⟩ := State.entryReturns_sound hf hk hnew hvalid hback hsound hht
    have hqcx := hframe.qcx_eq
    have hfatal : ∀ t, Frame ⟨[.qcx], [.QCX_COUNTS, .QCX_EVENTS], false⟩ (r.fetched q k f e (entryValid e f.c n)) t →
        t.flt.fatal = s.flt.fatal ∧ t.mem = s.mem := fun t ht => by
      refine ⟨(ht.fatal_eq).trans (Eq.trans ?_ hframe.fatal_eq), (ht.mem_eq).trans (Eq.trans ?_ hframe.mem_eq)⟩ <;>
        cases entryValid e f.c n <;> rfl
    have hcached : (r.fetched q k f e (entryValid e f.c n)).Cached q := by
      refine State.Cached.congr ⟨b, hb, hl⟩ ?_
      rw [← hqcx]
      cases entryValid e f.c n <;> rfl
    have hcmds : (r.fetched q k f e (entryValid e f.c n)).qcx.cmds = s.qcx.cmds := by
      rw [← hqcx]
      cases entryValid e f.c n <;> rfl
    have hmissed : entryValid e f.c n = false →
        (r.fetched q k f e (entryValid e f.c n)).get F.QCX_COUNTS.INVALID_FETCHES (queueDie q) = missed := fun hbad => by
      rw [hbad]
      show (r.bump F.QCX_COUNTS.INVALID_FETCHES 1 (queueDie q)).get _ _ = _
      rw [State.get_bump_same _ _ _ _ _ (by decide), hframe.get_eq _ _ _]
    have hready : entryValid e f.c n = false → (f.taken k e (entryValid e f.c n)).ready = none := fun hbad => by
      rw [hbad]
      show (f.valid.find? _).map _ = none
      rw [hvalid]
      rfl
    have hreturned : entryValid e f.c n = false → (f.taken k e (entryValid e f.c n)).returned.length = f.returned.length + 1 := fun hbad => by
      rw [hbad]
      exact List.length_append
    refine ⟨fun hgood hearlier => ?_, fun hbad hlen => ?_, fun hbad hlen => ?_⟩
    · have htaken : (f.taken k e (entryValid e f.c n)).ready = some e := by
        rw [hgood]
        show ((f.valid ++ [(k, e)]).find? fun v => (List.range v.1).all fun j => f.returned.contains j).map (·.2) = some e
        rw [hvalid, List.nil_append, List.find?_cons_of_pos]
        · rfl
        · simpa using hearlier
      have hrun' : s.entryReturns q k = (r.fetched q k f e (entryValid e f.c n)).takeEntry q f.c e := by
        rw [hrun]
        dsimp only
        rw [show entryValid (s.bytes (s.ringSlot q f.c) 256) f.c (s.ctxField q ctxRingLog) = entryValid e f.c n from rfl,
          show s.bytes (s.ringSlot q f.c) 256 = e from rfl, htaken]
      obtain ⟨hf1, hm1⟩ := hfatal _ ((State.takeEntry_frame _ q f.c e).mono (by decide +kernel))
      obtain ⟨h1, h2⟩ := State.takeEntry_spec hcached (c := f.c) e
      exact ⟨_, exec_eq_next hr he hrun' hf1, by rw [h1, hcmds], h2, hm1⟩
    · have hrun' : s.entryReturns q k = r.fetched q k f e (entryValid e f.c n) := by
        rw [hrun]
        dsimp only
        rw [show entryValid (s.bytes (s.ringSlot q f.c) 256) f.c (s.ctxField q ctxRingLog) = entryValid e f.c n from rfl,
          show s.bytes (s.ringSlot q f.c) 256 = e from rfl, hready hbad]
        exact if_neg (by rw [hreturned hbad]; exact hlen)
      refine ⟨_, exec_eq_next hr he hrun' (hfatal _ (.refl _)).1, hmissed hbad, hcmds, ?_⟩
      have hq : f.q = q := by simpa using List.find?_some hf
      rw [hbad]
      show (updateFirst (fun g => g.q == q) (fun _ => f.taken k e false) r.qcx.fetches).find? _ = _
      rw [find?_updateFirst (fun _ _ => by simpa [Fetch.taken] using hq), hqcx, hf]
      rfl
    · have hrun' : s.entryReturns q k = (r.fetched q k f e (entryValid e f.c n)).park q := by
        rw [hrun]
        dsimp only
        rw [show entryValid (s.bytes (s.ringSlot q f.c) 256) f.c (s.ctxField q ctxRingLog) = entryValid e f.c n from rfl,
          show s.bytes (s.ringSlot q f.c) 256 = e from rfl, hready hbad]
        exact if_pos (by rw [hreturned hbad]; exact hlen)
      have hparks : (r.fetched q k f e (entryValid e f.c n)).ctxField q ctxParks = s.ctxField q ctxParks := by
        refine State.ctxField_congr ?_ q _
        rw [← hqcx]
        cases entryValid e f.c n <;> rfl
      obtain ⟨h1, h2, h3, h4⟩ := State.park_spec hcached
      exact ⟨_, exec_eq_next hr he hrun' (hfatal _ (State.park_frame _ q)).1, h1, by rw [h2, hparks], h3, by rw [h4, hcmds]⟩
  · refine exec_eq_next (effect := fun s => s.refetch q k) hr rfl ?_
    have hsame : updateFirst (fun f : Fetch => f.q == q && f.issued == k) (fun f => { f with issued := k + 1 }) s.qcx.fetches = s.qcx.fetches :=
      updateFirst_of_none fun f hf => by
        by_cases hq : f.q = q
        · simp [hnone f hf hq]
        · simp [hq]
    rw [State.refetch, State.onQcx, hsame]
  · have hq : f.q = q := by simpa using List.find?_some hf
    refine .of_alters (effect := fun s => s.refetch q k) hr rfl ((State.Alters.refl s).frame (s.refetch_frame q k) ⟨rfl, rfl⟩ (by simp)) ?_
    show (updateFirst (fun f : Fetch => f.q == q && f.issued == k) (fun f => { f with issued := k + 1 }) s.qcx.fetches).find? _ = _
    exact find?_updateFirst_issued hf hk

end

/-! # The actions of QCX_QCTL

ENABLE, DISABLE and SYNC (R489, R490, R492, R512), and the fetching of a context (R490). -/

section

namespace Sys2Proof.Machine

theorem length_withCrc {b : Bytes} (h : b.length = 64) : (withCrc (b.take 60)).length = 64 := by
  rw [withCrc, List.length_append, toLE_length, List.length_take, h]
  rfl

section
variable {s : State}

/-- A read of backed and sound storage gives its data, and is quiet. -/
theorem State.readSpan_backed {a n : Nat} (hback : s.backedSpan a n = true) (hsound : s.soundSpan a n) :
    ∃ r, Frame soundReadTouch s r ∧ (if s.backedSpan a n = true then s.readSpan a n else (s, false)) = (r, true) := by
  obtain ⟨hok, hquiet⟩ := State.readSpan_sound hsound
  exact ⟨_, hquiet.frame, by rw [if_pos hback, ← hok]⟩

/-- What the write of a context leaves (R488, R490). -/
theorem State.writeCtx_spec (hw : Memory.wf s.mem = true) {q : Nat} {b : Bytes} (hl : b.length = 64) (hback : s.backedSpan (s.ctxAddr q) 64 = true) :
    (s.writeCtx q b).bytes (s.ctxAddr q) 64 = withCrc (b.take 60) ∧
      ∀ x, x < s.ctxAddr q ∨ s.ctxAddr q + 64 ≤ x → (s.writeCtx q b).byte x = s.byte x := by
  have hlen := length_withCrc hl
  have hmem := State.mem_writeSectors (s := s) (a := s.ctxAddr q) (data := withCrc (b.take 60)) (by rwa [hlen])
  obtain ⟨hbytes, hrest⟩ := State.bytes_of_mem hw hmem
  rw [hlen] at hbytes hrest
  exact ⟨hbytes, hrest⟩

theorem dropKey_sublist {κ α : Type} [DecidableEq κ] (k : κ) (l : List (κ × α)) : (dropKey k l).Sublist l := by
  induction l with
  | nil => exact .slnil
  | cons x l ih =>
    rw [dropKey]
    split
    · exact ih.cons x
    · exact ih.cons_cons x

theorem State.ctxRoom_free {die : Nat} (h : (s.cachedOn die).length < 8192) : s.ctxRoom die = some s := if_pos h

theorem State.ctxAddr_congr {t : State} (h : t.get F.QCX_BASE.BASE = s.get F.QCX_BASE.BASE) (q : Nat) : t.ctxAddr q = s.ctxAddr q := by
  rw [State.ctxAddr, State.ctxAddr, h]

theorem State.ctxPasses_congr {t : State} (h : t.get F.OAS_SPLIT.SCRATCH_WAYS = s.get F.OAS_SPLIT.SCRATCH_WAYS) (b : Bytes) :
    t.ctxPasses b = s.ctxPasses b := by
  simp only [State.ctxPasses, State.ringBacked, State.backedSpan_congr h]

/-! ### Actions -/

section
variable {die q : Nat}

theorem State.qctl_discarded {action : Nat} (h : queueDie q ≠ die ∨ s.on F.QCX_QCTL.BUSY die = true) :
    s.qctl die q action = (s.put F.QCX_QCTL.QUEUE q die).flag F.QCX_EVENTS.QCTL_DISCARD die :=
  if_pos (h.imp_right fun h => by rwa [State.on, State.get_put_apart (by decide) (by decide), ← State.on])

theorem State.qctl_taken (hd : queueDie q = die) (hb : s.on F.QCX_QCTL.BUSY die = false) (action : Nat) :
    s.qctl die q action = match action with
      | 1 => (s.put F.QCX_QCTL.QUEUE q die).enableQueue die q
      | 2 => (s.put F.QCX_QCTL.QUEUE q die).disableQueue die q
      | 3 => (s.put F.QCX_QCTL.QUEUE q die).syncQueue die q
      | _ => (s.put F.QCX_QCTL.QUEUE q die).flag F.QCX_EVENTS.QCTL_DISCARD die := by
  refine (if_neg ?_).trans (by rfl)
  rw [State.on, State.get_put_apart (by decide) (by decide), ← State.on, hb]
  rintro (h | h)
  · exact h hd
  · exact absurd h (by decide)

theorem State.enableQueue_refused (h : s.ctxField q ctxState ≠ qDisabled) : s.enableQueue die q = s.qctlResult die 2 := if_pos h

/-- What an action that is taken finds: the state, with the queue's number noted. -/
theorem State.qctl_noted (s : State) (die q : Nat) : ∃ t, s.put F.QCX_QCTL.QUEUE q die = t ∧ Frame ⟨[], [.QCX_QCTL], false⟩ s t ∧ t.qcx = s.qcx ∧
    t.mem = s.mem ∧ t.hbm = s.hbm ∧ t.oasis = s.oasis ∧ t.ctxAddr q = s.ctxAddr q :=
  ⟨_, rfl, s.put_touch F.QCX_QCTL.QUEUE q die 0, rfl, rfl, rfl, rfl, State.ctxAddr_congr (State.get_put_reg (by decide)) q⟩

section
variable (hdis : s.ctxField q ctxState = qDisabled) (hback : s.backedSpan (s.ctxAddr q) 64 = true) (hsound : s.soundSpan (s.ctxAddr q) 64)
include hdis hback hsound

/-- ENABLE of a context that fails its check (R489). -/
theorem State.enableQueue_fails (h : s.ctxPasses (s.bytes (s.ctxAddr q) 64) = false) :
    ∃ r, Frame soundReadTouch s r ∧ s.enableQueue die q = r.qctlResult die 1 := by
  obtain ⟨r, hframe, hread⟩ := State.readSpan_backed hback hsound
  refine ⟨r, hframe, ?_⟩
  unfold State.enableQueue
  rw [if_neg (not_not_intro hdis)]
  extract_lets a
  rw [show s.backedSpan a 64 = s.backedSpan (s.ctxAddr q) 64 from rfl, hread]
  refine if_neg ?_
  rw [State.ctxPasses_congr (hframe.get_eq _ _ _), State.bytes_congr hframe.mem_eq, h]
  decide

/-- ENABLE of a context that passes its check, with room in the cache (R489, R491). -/
theorem State.enableQueue_passes (h : s.ctxPasses (s.bytes (s.ctxAddr q) 64) = true) (hroom : (s.cachedOn die).length < 8192) :
    ∃ r, Frame soundReadTouch s r ∧ s.enableQueue die q =
      ((r.onQcx fun x => { x with cached := dropKey q x.cached }).cacheCtx q (ctxPut ctxState qIdle (s.bytes (s.ctxAddr q) 64))).qctlResult die 0 := by
  obtain ⟨r, hframe, hread⟩ := State.readSpan_backed hback hsound
  refine ⟨r, hframe, ?_⟩
  have hfree : (r.onQcx fun x => { x with cached := dropKey q x.cached }).ctxRoom die = some (r.onQcx fun x => { x with cached := dropKey q x.cached }) := by
    refine State.ctxRoom_free (Nat.lt_of_le_of_lt ?_ hroom)
    show ((dropKey q r.qcx.cached).filter _).length ≤ (s.qcx.cached.filter _).length
    rw [hframe.qcx_eq]
    exact ((dropKey_sublist q _).filter _).length_le
  unfold State.enableQueue
  rw [if_neg (not_not_intro hdis)]
  extract_lets a
  rw [show s.backedSpan a 64 = s.backedSpan (s.ctxAddr q) 64 from rfl, hread]
  dsimp only
  rw [if_pos, hfree, State.bytes_congr hframe.mem_eq]
  rw [State.ctxPasses_congr (hframe.get_eq _ _ _), State.bytes_congr hframe.mem_eq, h]
  rfl

end

/-! ### The end of a DISABLE, and contexts that are fetched -/

theorem State.disableDone_idle (h : ∀ p ∈ s.qcx.qctl, p.1 ≠ die) : s.disableDone die = s := by
  have hnone : (s.qcx.qctl.find? fun p => p.1 == die) = none := by simpa using h
  unfold State.disableDone
  rw [hnone]

section
variable (hfind : (s.qcx.qctl.find? fun p => p.1 == die) = some (die, q))
include hfind

theorem State.disableDone_waits (h : s.inFlight q ≠ []) : s.disableDone die = s := by
  unfold State.disableDone
  rw [hfind]
  exact if_neg (by simpa using h)

theorem State.disableDone_ends {b : Bytes} (h : s.inFlight q = []) (hb : s.ctx q = some b) :
    s.disableDone die = ((((s.writeCtx q (ctxPut ctxState qDisabled b)).onQcx fun x => { x with cached := dropKey q x.cached }).onQcx fun x =>
      { x with qctl := removeFirst (· == (die, q)) x.qctl }).put F.QCX_QCTL.BUSY 0 die).qctlResult die 0 := by
  unfold State.disableDone
  rw [hfind]
  dsimp only
  rw [if_pos (by rw [h]; rfl), hb]

end

end

/-! ### Doorbells that waited -/

/-- What a doorbell of a queue leaves: its context where it was cached, and the doorbells that wait. -/
def State.Rung (q : Nat) (s t : State) : Prop := t.qcx.waiting = s.qcx.waiting ∧ ((s.ctx q).isSome = true → (t.ctx q).isSome = true)

section
variable {q : Nat} {t u : State}

theorem State.Rung.trans (h : State.Rung q s t) (g : State.Rung q t u) : State.Rung q s u := ⟨g.1.trans h.1, fun hs => g.2 (h.2 hs)⟩

theorem State.Rung.of_eq (hc : t.qcx.cached = s.qcx.cached) (hw : t.qcx.waiting = s.qcx.waiting) : State.Rung q s t :=
  ⟨hw, by rw [State.ctx_congr hc]; exact id⟩

theorem State.Rung.refl (s : State) : State.Rung q s s := .of_eq rfl rfl

theorem State.Rung.ite {c : Prop} [Decidable c] (h : State.Rung q s t) (g : State.Rung q s u) : State.Rung q s (if c then t else u) := by
  split <;> assumption

theorem State.rung_setCtx (s : State) (f : CtxFld) (v : Nat) : State.Rung q s (s.setCtx q f v) := by
  refine ⟨s.setCtx_waiting q f v, fun h => ?_⟩
  obtain ⟨b, hb⟩ := Option.isSome_iff_exists.1 h
  rw [State.ctx_setCtx hb]
  rfl

theorem State.rung_touchCtx (s : State) : State.Rung q s (s.touchCtx q) :=
  ⟨by rw [s.touchCtx_qcx q], by rw [s.ctx_touchCtx]; exact id⟩

theorem State.rung_queueError (s : State) (cause : Nat) : State.Rung q s (s.queueError q cause) :=
  (State.Rung.refl s).ite (((State.rung_setCtx s _ _).trans (State.rung_setCtx _ _ _)).trans (.of_eq rfl rfl))

theorem State.rung_settleQueue (s : State) : State.Rung q s (s.settleQueue q) :=
  ((State.Rung.of_eq rfl rfl).trans (State.rung_setCtx _ _ _)).ite (State.Rung.ite (.of_eq rfl rfl) (.refl s))

theorem State.rung_submitted (s : State) (v : Nat) : State.Rung q s (s.submitted q v) := by
  unfold State.submitted
  extract_lets st t u
  have hu : State.Rung q s u := (State.rung_setCtx s _ _).trans ((State.rung_setCtx _ _ _).ite (.refl _))
  exact State.Rung.ite (.of_eq rfl rfl) ((State.rung_queueError s 1).ite (hu.trans (State.rung_settleQueue u)))

theorem State.rung_ringCached (s : State) (kind v : Nat) : State.Rung q s (s.ringCached q kind v) := by
  unfold State.ringCached
  extract_lets t
  exact (State.rung_touchCtx s).trans
    (State.Rung.ite (State.rung_submitted t v) ((State.rung_queueError t 3).ite (State.rung_setCtx t _ _)))

/-- The doorbells that waited for a context ring, and it stays cached (R490). -/
theorem State.ringWaiting_spec (h : (s.ctx q).isSome = true) :
    ((s.ringWaiting q).ctx q).isSome = true ∧ ∀ w ∈ (s.ringWaiting q).qcx.waiting, w.1 ≠ q := by
  have hkeeps : State.Rung q (s.onQcx fun x => { x with waiting := x.waiting.filter fun w => w.1 != q }) (s.ringWaiting q) := by
    unfold State.ringWaiting
    extract_lets ws
    have hws : ∀ w ∈ ws, w.1 = q := fun w hw => by simpa using (List.mem_filter.1 hw).2
    clear_value ws
    generalize s.onQcx (fun x => { x with waiting := x.waiting.filter fun w => w.1 != q }) = t
    induction ws generalizing t with
    | nil => exact .refl t
    | cons w ws ih =>
      obtain rfl : w.1 = q := hws w List.mem_cons_self
      exact (State.rung_ringCached t _ _).trans (ih (fun x hx => hws x (List.mem_cons_of_mem _ hx)) _)
  refine ⟨hkeeps.2 h, ?_⟩
  rw [hkeeps.1]
  intro w hw
  simpa using (List.mem_filter.1 hw).2

theorem State.fetchCtx_idle (h : (s.ctx q).isSome = true ∨ (s.qcx.waiting.any fun w => w.1 == q) = false) : s.fetchCtx q = s :=
  if_pos (by rcases h with h | h <;> simp [h])

/-- A context that is asked for is fetched (R490). -/
theorem State.fetchCtx_fetches (hnone : s.ctx q = none) (hasked : (s.qcx.waiting.any fun w => w.1 == q) = true)
    (hroom : (s.cachedOn (queueDie q)).length < 8192) (hback : s.backedSpan (s.ctxAddr q) 64 = true) (hsound : s.soundSpan (s.ctxAddr q) 64) :
    ∃ r, Frame soundReadTouch s r ∧ s.fetchCtx q = (r.cacheCtx q (s.bytes (s.ctxAddr q) 64)).ringWaiting q := by
  obtain ⟨r, hframe, hread⟩ := State.readSpan_backed hback hsound
  refine ⟨r, hframe, ?_⟩
  unfold State.fetchCtx
  rw [if_neg (by simp [hnone, hasked]), State.ctxRoom_free hroom]
  dsimp only
  rw [hread, State.bytes_congr hframe.mem_eq]
  rfl

/-- A context that enters the cache. -/
theorem State.ctx_cacheCtx (h : s.ctx q = none) (b : Bytes) : (s.cacheCtx q b).ctx q = some b := by
  show lookupKey q (s.qcx.cached ++ [(q, b)]) = some b
  rw [lookupKey_append_of_none h]
  simp [lookupKey]

end

end

end Sys2Proof.Machine

open Sys2Proof Sys2Proof.Machine

/-- An ENABLE, DISABLE or SYNC is the action of its number. -/
theorem exec_qctl_of {s : State} {die q : Nat} {c : Instr} (h : c = .qctlEnable die q ∨ c = .qctlDisable die q ∨ c = .qctlSync die q) :
    ∃ action, exec c s = act c s fun s => s.qctl die q action := by
  rcases h with rfl | rfl | rfl
  · exact ⟨1, rfl⟩
  · exact ⟨2, rfl⟩
  · exact ⟨3, rfl⟩

/-- ENABLE by the context that it finds (R489). -/
theorem qctlEnable_checks {s : State} {die q : Nat} (hr : s.Reaches (.qctlEnable die q)) (hd : queueDie q = die)
    (hb : s.on F.QCX_QCTL.BUSY die = false) :
    let a := s.ctxAddr q
    (s.ctxField q ctxState ≠ qDisabled → ∃ t, exec (.qctlEnable die q) s = .next t ∧ t.get F.QCX_QCTL.RESULT die = 2 ∧
      t.qcx = s.qcx ∧ t.mem = s.mem) ∧
    (s.ctxField q ctxState = qDisabled → s.backedSpan a 64 = true → s.soundSpan a 64 →
      (s.ctxPasses (s.bytes a 64) = false → ∃ t, exec (.qctlEnable die q) s = .next t ∧ t.get F.QCX_QCTL.RESULT die = 1 ∧
        t.qcx = s.qcx ∧ t.mem = s.mem) ∧
      (s.ctxPasses (s.bytes a 64) = true → (s.cachedOn die).length < 8192 → ∃ t, exec (.qctlEnable die q) s = .next t ∧
        t.get F.QCX_QCTL.RESULT die = 0 ∧ t.ctx q = some (ctxPut ctxState qIdle (s.bytes a 64)) ∧ t.mem = s.mem)) := by
  intro a
  obtain ⟨t, ht, hframe, hqcx, hmem, hhbm, hoasis, haddr⟩ := s.qctl_noted die q
  have hrun : s.qctl die q 1 = t.enableQueue die q := (State.qctl_taken hd hb 1).trans (by rw [ht]; rfl)
  have hfld : t.ctxField q ctxState = s.ctxField q ctxState := State.ctxField_congr (by rw [hqcx]) q _
  refine ⟨fun hst => ?_, fun hst hback hsound => ?_⟩
  · refine ⟨_, exec_eq_next (effect := fun s => s.qctl die q 1) hr rfl (hrun.trans (State.enableQueue_refused (by rwa [hfld]))) hframe.fatal_eq,
      State.get_put_same _ _ _ _ _ (by decide), hqcx, hmem⟩
  · have hback' : t.backedSpan (t.ctxAddr q) 64 = true := by rwa [haddr, State.backedSpan_congr (hframe.get_eq _ _ _)]
    have hsound' : t.soundSpan (t.ctxAddr q) 64 := by rw [haddr]; exact State.soundSpan_congr hhbm hoasis hsound
    have hpasses : t.ctxPasses (t.bytes (t.ctxAddr q) 64) = s.ctxPasses (s.bytes a 64) := by
      rw [State.ctxPasses_congr (hframe.get_eq _ _ _), haddr, State.bytes_congr hmem]
    refine ⟨fun hfail => ?_, fun hpass hroom => ?_⟩
    · obtain ⟨r, hread, hres⟩ := State.enableQueue_fails (die := die) (hfld.trans hst) hback' hsound' (hpasses.trans hfail)
      exact ⟨_, exec_eq_next (effect := fun s => s.qctl die q 1) hr rfl (hrun.trans hres) (hread.fatal_eq.trans hframe.fatal_eq),
        State.get_put_same _ _ _ _ _ (by decide), hread.qcx_eq.trans hqcx, hread.mem_eq.trans hmem⟩
    · obtain ⟨r, hread, hres⟩ := State.enableQueue_passes (die := die) (hfld.trans hst) hback' hsound' (hpasses.trans hpass)
        (by rwa [State.cachedOn, hqcx])
      refine ⟨_, exec_eq_next (effect := fun s => s.qctl die q 1) hr rfl (hrun.trans hres) (hread.fatal_eq.trans hframe.fatal_eq),
        State.get_put_same _ _ _ _ _ (by decide), ?_, hread.mem_eq.trans hmem⟩
      rw [← show t.bytes (t.ctxAddr q) 64 = s.bytes a 64 by rw [haddr, State.bytes_congr hmem]]
      exact lookupKey_dropKey_append q _ _

/-- SYNC by whether the context is cached (R490, R512). -/
theorem qctlSync_writes {s : State} {die q : Nat} (hinv : s.Inv) (hr : s.Reaches (.qctlSync die q)) (hd : queueDie q = die)
    (hb : s.on F.QCX_QCTL.BUSY die = false) :
    let a := s.ctxAddr q
    (s.ctx q = none → ∃ t, exec (.qctlSync die q) s = .next t ∧ t.get F.QCX_QCTL.RESULT die = 0 ∧ t.mem = s.mem) ∧
    (∀ b, s.ctx q = some b → b.length = 64 → s.backedSpan a 64 = true → ∃ t, exec (.qctlSync die q) s = .next t ∧
      t.get F.QCX_QCTL.RESULT die = 0 ∧ t.bytes a 64 = withCrc (b.take 60) ∧ t.qcx = s.qcx ∧
      ∀ x, x < a ∨ a + 64 ≤ x → t.byte x = s.byte x) := by
  intro a
  obtain ⟨t, ht, hframe, hqcx, hmem, -, -, haddr⟩ := s.qctl_noted die q
  have hrun : s.qctl die q 3 = t.syncQueue die q := (State.qctl_taken hd hb 3).trans (by rw [ht]; rfl)
  have hctx : t.ctx q = s.ctx q := State.ctx_congr (by rw [hqcx]) q
  have hgo := exec_eq_next (effect := fun s => s.qctl die q 3) hr rfl hrun
    ((t.syncQueue_frame die q).fatal_eq.trans hframe.fatal_eq)
  refine ⟨fun hnone => ?_, fun b hsome hl hback => ?_⟩
  · refine ⟨_, hgo, State.get_put_same _ _ _ _ _ (by decide), ?_⟩
    rw [State.syncQueue, hctx, hnone]
    exact hmem
  · have hspec := State.writeCtx_spec (s := t) (q := q) (by rw [hmem]; exact hinv.mem) hl (by rwa [haddr, State.backedSpan_congr (hframe.get_eq _ _ _)])
    have hsync : t.syncQueue die q = (t.writeCtx q b).qctlResult die 0 := by rw [State.syncQueue, hctx, hsome]
    obtain ⟨hbytes, hrest⟩ := hspec
    rw [haddr] at hbytes hrest
    refine ⟨_, hgo, State.get_put_same _ _ _ _ _ (by decide), ?_, ?_, fun x hx => ?_⟩ <;> rw [hsync]
    · exact hbytes
    · exact (t.writeCtx_frame q b).qcx_eq.trans hqcx
    · exact (hrest x hx).trans (State.byte_congr hmem x)

/-- Settles O50: an action of QCX_QCTL by whether it is admitted and what the context holds; a fetch by whether it is asked for. -/
theorem queueActionsFollowTheContext : Obligations.QueueActionsFollowTheContext := by
  refine ⟨fun s die q c hr hc h => ?_, fun s die q _ hr hd hb => qctlEnable_checks hr hd hb, fun s die q hr hd hb => ?_,
    fun s die q hinv hr hd hb => qctlSync_writes hinv hr hd hb,
    fun s die hinv hr => ⟨fun hidle => ?_, fun q hfind => ⟨fun hbusy => ?_, fun b hfly hctx hl hback => ?_⟩⟩,
    fun s q _ hr => ⟨fun h => ?_, fun hnone hasked hroom hback hsound => ?_⟩⟩
  · obtain ⟨action, he⟩ := exec_qctl_of (s := s) hc
    refine .of_alters hr he ?_ ?_ <;> rw [State.qctl_discarded h]
    · exact ((State.Alters.refl s).put (f := F.QCX_QCTL.QUEUE) (by simp) rfl).put (f := F.QCX_EVENTS.QCTL_DISCARD) (by simp) rfl
    · exact State.on_flag_same _ _ _ _ (by decide) (by decide)
  · obtain ⟨t, ht, hframe, hqcx, hmem, -⟩ := s.qctl_noted die q
    have hrun : s.qctl die q 2 = t.disableQueue die q := (State.qctl_taken hd hb 2).trans (by rw [ht]; rfl)
    refine ⟨_, exec_eq_next (effect := fun s => s.qctl die q 2) hr rfl hrun hframe.fatal_eq, ?_, hmem, ?_⟩
    · rw [State.disableQueue, State.on, State.get_onQcx, ← State.on]
      exact State.on_flag_same _ _ _ _ (by decide) (by decide)
    · rw [← hqcx]
      rfl
  · exact exec_eq_next (effect := fun s => s.disableDone die) hr rfl (State.disableDone_idle hidle)
  · exact exec_eq_next (effect := fun s => s.disableDone die) hr rfl (State.disableDone_waits hfind hbusy)
  · have hend := State.disableDone_ends hfind hfly hctx
    have hmem : (s.disableDone die).mem = (s.writeCtx q (ctxPut ctxState qDisabled b)).mem := by rw [hend]; rfl
    refine ⟨_, exec_eq_next (effect := fun s => s.disableDone die) hr rfl rfl (s.disableDone_frame die).fatal_eq, ?_, ?_, ?_, ?_⟩
    · rw [hend, State.on, State.qctlResult, State.get_put_apart (by decide) (by decide), State.get_put_same _ _ _ _ _ (by decide)]
      rfl
    · rw [hend]
      exact State.get_put_same _ _ _ _ _ (by decide)
    · rw [hend]
      exact lookupKey_dropKey_same q _
    · rw [State.bytes_congr hmem]
      exact (State.writeCtx_spec hinv.mem (length_ctxPut hl (f := ctxState) (by decide) _) hback).1
  · exact exec_eq_next (effect := fun s => s.fetchCtx q) hr rfl (State.fetchCtx_idle h)
  · obtain ⟨r, hread, hrun⟩ := State.fetchCtx_fetches hnone hasked hroom hback hsound
    have hctx : ((r.cacheCtx q (s.bytes (s.ctxAddr q) 64)).ctx q).isSome = true := by
      rw [State.ctx_cacheCtx ((State.ctx_congr (by rw [hread.qcx_eq]) q).trans hnone)]
      rfl
    obtain ⟨hsome, hwait⟩ := State.ringWaiting_spec hctx
    refine ⟨_, exec_eq_next (effect := fun s => s.fetchCtx q) hr rfl hrun (((State.ringWaiting_frame _ q).fatal_eq).trans hread.fatal_eq), hsome,
      hwait, ((State.ringWaiting_frame _ q).mem_eq).trans hread.mem_eq⟩

end

/-! # The accesses of a queue's commands

A command's translations are checked at the pieces of R49, cut at 256 B; its writes are cut at partial sectors too (R267). An entry of
a page smaller than a sector lets the first pass and leaves a piece of the second untranslated. -/

section

namespace Sys2Proof.Machine

/-- A WRITE_INLINE of two bytes, from the last byte of a sector on, that its engine serves. -/
def smallPageCommand : Cmd :=
  { q := 0, c := 0, entry := patch (patch (zeros 64) 0 [3, 0, 0, 0, 2]) 24 [63] ++ [1, 1], started := true }

/-- A module whose translation cache holds a page of one byte, that of the command's destination. -/
def smallPageState : State :=
  { State.reset with
    xlt := { entries := [{ die := 0, asid := 0, page := 63, size := 0, frame := 63, r := true, w := true }] }
    qcx := { cmds := [smallPageCommand] } }

theorem smallPageState_inv : smallPageState.Inv := ⟨rfl, resetHoldsTheInvariant.regs, rfl⟩

/-- What the command writes. -/
theorem smallPageCommand_data : (smallPageCommand.entry.drop 64).take (fieldAt smallPageCommand.entry 4 1) = [1, 1] := by decide +kernel

theorem smallPageState_reaches : smallPageState.Reaches (.writeInline 0 0) := ⟨by decide +kernel, by decide +kernel, rfl⟩

theorem smallPageState_serves : smallPageState.Serves smallPageCommand 0 0 3 where
  found := by decide +kernel
  op := by decide +kernel
  started := rfl
  free := ⟨rfl, rfl, rfl⟩
  ready := by decide +kernel
  fresh := by simp [smallPageState, State.reset]

theorem smallPageCommand_dst : smallPageCommand.dst = 63 := by decide +kernel

theorem smallPageState_asid : smallPageState.ctxField 0 ctxAsid % 4096 = 0 := by decide +kernel

theorem smallPageState_spanAt : smallPageState.SpanAt 0 0 63 2 63 where
  maps i hi e he _ _ hpage := by
    obtain rfl : e = _ := List.mem_singleton.1 he
    obtain rfl : i = 0 := by simpa using hpage
    decide +kernel
  align := rfl
  storage := .inl (by decide)
  backed := by decide +kernel
  sound k _ _ := ⟨rfl, by simp [smallPageState, State.reset], by simp [smallPageState, State.reset]⟩

theorem exec_writeInline (q c : Nat) (s : State) : exec (.writeInline q c) s = act (.writeInline q c) s fun s => s.serve q c 3 := rfl

/-- The second byte of the write, whose address no entry translates, lands at address 0. -/
theorem smallPageState_runs : ∃ t, exec (.writeInline 0 0) smallPageState = .next t ∧ t.byte 0 = 1 := by
  refine ⟨_, exec_settled smallPageState_reaches (exec_writeInline 0 0 _), ?_⟩
  decide +kernel

end Sys2Proof.Machine

open Sys2Proof Sys2Proof.Machine

/-- Refutes O51: a WRITE_INLINE that crosses a sector, whose destination is translated by a page of one byte, writes its second byte at
address 0 and not at its place. -/
theorem not_queueCommandsRunAndPost : ¬ Obligations.QueueCommandsRunAndPost := by
  rintro ⟨⟨-, -, hwrites, -⟩, -⟩
  obtain ⟨t, hexec, -, hrest, -⟩ := hwrites smallPageState (.writeInline 0 0) 0 0 3 2 63 [1, 1] smallPageCommand smallPageState_inv
    smallPageState_reaches smallPageState_serves (.inl ⟨rfl, rfl, smallPageCommand_data.symm, rfl⟩) (by decide)
    (by rw [smallPageState_asid, smallPageCommand_dst]; exact smallPageState_spanAt)
  obtain ⟨u, hu, hbyte⟩ := smallPageState_runs
  obtain rfl : u = t := by rw [hu] at hexec; injection hexec
  exact absurd ((hrest 0 (.inl (by decide))).symm.trans hbyte) (by decide +kernel)

end

/-! # Coherence requests at their home

The acceptance of a core's request (R471, R474 to R478), the maintenance requests (R484) and the WriteBack (R480). -/

section

namespace Sys2Proof.Machine

section
variable {s : State} {core line : Nat}

@[simp] theorem State.settle_coh (s : State) : s.settle.coh = s.coh := s.settle_frame.parts .coh (by decide)

/-! ### Arrival -/

theorem State.coreRequest_uncached {r : CohReq} (h : s.cacheable line = false) :
    s.coreRequest core line r = s.coreError (coreUnit core) (64 * line) (r != .readShared) := if_neg (by simp [h])

theorem State.requestCoh_blocked {x : CohTxn} (h : s.txnOf x.line ≠ none) :
    s.requestCoh x = s.onCoh fun h => { h with waiting := h.waiting ++ [x] } := if_pos (Option.isSome_iff_ne_none.2 h)

theorem State.requestCoh_free {x : CohTxn} (h : s.txnOf x.line = none) : s.requestCoh x = s.acceptCoh x := if_neg (by simp [h])

theorem State.coreRequest_blocked {r : CohReq} (h : s.cacheable line = true) (hx : s.txnOf line ≠ none) :
    s.coreRequest core line r = s.onCoh fun h => { h with waiting := h.waiting ++ [{ core := core, line := line, req := some r }] } :=
  (if_pos h).trans (State.requestCoh_blocked hx)

theorem State.coreRequest_accepted {r : CohReq} (h : s.cacheable line = true) (hx : s.txnOf line = none) :
    s.coreRequest core line r = s.acceptCoh { core := core, line := line, req := some r } :=
  (if_pos h).trans (State.requestCoh_free hx)

/-! ### Snoops -/

theorem State.snoopDies_coh (s : State) (line : Nat) (req : Option CohReq) (dies : List Nat) :
    (s.snoopDies line req dies).coh = { s.coh with msgs := s.coh.msgs ++ dies.map fun d => .snp d line req } := by
  induction dies generalizing s with
  | nil => simp [State.snoopDies]
  | cons d dies ih =>
    refine (ih _).trans ?_
    simp [State.sendCoh, State.onCoh, State.bump, State.put]

/-! ### Acceptance -/

/-- The request of a core as a transaction that has begun. -/
abbrev CohTxn.begun (core line : Nat) (r : CohReq) : CohTxn := { core := core, line := line, req := some r }

/-- A transaction begins (R477). -/
abbrev State.beginTxn (s : State) (x : CohTxn) : State := s.onCoh fun c => { c with txns := c.txns ++ [x] }

theorem State.needEntry_present {e : FilterEntry} (hf : s.filterOf line = some e) :
    s.needEntry line = s.onCoh fun c => { c with filter := removeFirst (fun x => x.line == line) c.filter ++ [e] } := by
  rw [State.needEntry, hf]

theorem State.needEntry_absent (hf : s.filterOf line = none) (hfull : s.fullSet line = none) :
    s.needEntry line = s.onCoh fun c => { c with filter := c.filter ++ [{ line := line }] } := by
  rw [State.needEntry, hf]
  dsimp only
  rw [hfull]

/-- A set without a line to give up has none after a transaction begins. -/
theorem State.fullSet_beginTxn (h : s.fullSet line = none) (x : CohTxn) : (s.beginTxn x).fullSet line = none := by
  have htxn : ∀ n, (s.txnOf n).isSome = true → ((s.beginTxn x).txnOf n).isSome = true := fun n hn => by
    show ((s.coh.txns ++ [x]).find? _).isSome = true
    rw [List.find?_append, Option.isSome_or, show (s.coh.txns.find? _).isSome = true from hn, Bool.true_or]
  unfold State.fullSet at h
  extract_lets here set at h
  show (if here.length < 16 then none else if set.length < 16 then none
    else set.find? fun e => ((s.beginTxn x).txnOf e.line).isNone) = none
  by_cases hhere : here.length < 16
  · exact if_pos hhere
  · rw [if_neg hhere] at h ⊢
    by_cases hset : set.length < 16
    · exact if_pos hset
    · rw [if_neg hset] at h ⊢
      rw [List.find?_eq_none] at h ⊢
      intro e he
      simpa using Option.isSome_iff_ne_none.1 (htxn _ (Option.isSome_iff_ne_none.2 (by simpa using h e he)))

section
variable {r : CohReq} (hr : r ≠ .writeBack)
include hr

/-- A request for a line of which dies are marked snoops them (R478). -/
theorem State.acceptCoh_snoops {e : FilterEntry} (hf : s.filterOf line = some e) (hd : e.dies ≠ []) :
    (s.acceptCoh (.begun core line r)).coh.txns = s.coh.txns ++ [{ CohTxn.begun core line r with snoops := e.dies }] ∧
      (s.acceptCoh (.begun core line r)).coh.msgs = s.coh.msgs ++ e.dies.map fun d => .snp d line (some r) := by
  have hne : e.dies.isEmpty = false := by simpa using hd
  unfold State.acceptCoh
  rw [if_neg (by simpa using hr), hf]
  dsimp only
  rw [hne, if_neg (by decide), State.snoopDies_coh,
    State.needEntry_present (s := s.beginTxn { CohTxn.begun core line r with snoops := e.dies }) hf]
  split <;> exact ⟨rfl, rfl⟩

/-- A request for a line of which no die is marked (R478). -/
theorem State.acceptCoh_fills (hfill : r = .readShared ∨ r = .readUnique ∨ r = .upgrade) (hf : s.filterOf line = none)
    (hfull : s.fullSet line = none) : s.acceptCoh (.begun core line r) =
      ((s.beginTxn (.begun core line r)).onCoh fun h => { h with filter := h.filter ++ [{ line := line }] }).proceed (.begun core line r) := by
  unfold State.acceptCoh
  rw [if_neg (by simpa using hr), hf]
  refine (if_pos rfl).trans ?_
  dsimp only
  rw [if_pos (by simpa using hfill), State.needEntry_absent (s := s.beginTxn (.begun core line r)) hf (State.fullSet_beginTxn hfull _)]

/-- A maintenance request for a line of which no die is marked (R484). -/
theorem State.acceptCoh_maintains (hfill : ¬ (r = .readShared ∨ r = .readUnique ∨ r = .upgrade)) (hf : s.filterOf line = none) :
    s.acceptCoh (.begun core line r) = (s.beginTxn (.begun core line r)).maintain (.begun core line r) r := by
  unfold State.acceptCoh
  rw [if_neg (by simpa using hr), hf]
  refine (if_pos rfl).trans ?_
  dsimp only
  rw [if_neg (by simpa using hfill)]
  cases r <;> simp at hr hfill <;> rfl

end

/-! ### The supply of a line -/

/-- A home supplies a line from L3, or has it read (R478). -/
theorem State.supply_coh (s : State) (x : CohTxn) (grant : LineState) :
    (s.supply x grant).coh = { s.coh with msgs := s.coh.msgs ++ [match s.l3Line x.line with
      | some (d, _) => .dat x.core x.line grant d
      | none => .fwd x.line false []] } := by
  unfold State.supply
  cases s.l3Line x.line <;> rfl

/-- What answers a request that no snoop delays. -/
theorem State.proceed_fills {r : CohReq} (hfill : r = .readShared ∨ r = .readUnique ∨ r = .upgrade) (s : State) :
    (s.proceed (.begun core line r)).coh = { s.coh with msgs := s.coh.msgs ++
      [if r = .upgrade ∧ (s.l2Line core line).isSome = true then .rsp core line 0
        else match s.l3Line line with
          | some (d, _) => .dat core line (if r = .readShared then .e else .m) d
          | none => .fwd line false []] } := by
  rcases hfill with rfl | rfl | rfl
  · exact State.supply_coh ..
  · exact State.supply_coh ..
  · show State.coh (match s.l2Line core line with
      | some _ => s.sendCoh (.rsp core line 0)
      | none => s.supply (.begun core line .upgrade) .m) = _
    cases s.l2Line core line with
    | none => exact State.supply_coh ..
    | some l => rfl

/-! ### Maintenance -/

section
variable {r : CohReq} (hr : r = .clean ∨ r = .flush ∨ r = .invalidate)

/-- Modified data of L3 goes to its holder first (R484). -/
theorem State.maintain_writes {d : Bytes} (hl : s.l3Line line = some (d, true)) (hr : r = .clean ∨ r = .flush) :
    s.maintain (.begun core line r) r = (s.onCoh fun c =>
      { c with l3 := if r = .clean then setKey line (d, false) c.l3 else dropKey line c.l3 }).sendCoh (.fwd line true d) := by
  have hkey : (lookupKey line s.coh.l3).isSome = true := by rw [show lookupKey line s.coh.l3 = _ from hl]; rfl
  unfold State.maintain
  rw [hl]
  rcases hr with rfl | rfl
  · simp only [reduceCtorEq, if_false, Option.none_or, if_true, State.onCoh, hkey]
  · rfl

include hr in
/-- With none, or to discard it, the request is complete (R484). -/
theorem State.maintain_answers (hl : (∀ d, s.l3Line line ≠ some (d, true)) ∨ r = .invalidate) :
    s.maintain (.begun core line r) r = (s.onCoh fun c =>
      { c with l3 := if r = .clean then c.l3 else dropKey line c.l3 }).sendCoh (.rsp core line 0) := by
  unfold State.maintain
  rcases hr with rfl | rfl | rfl
  · rcases h : s.l3Line line with _ | ⟨d, _ | _⟩
    · rfl
    · rfl
    · exact absurd h (by simpa using hl.resolve_right (by decide) d)
  · rcases h : s.l3Line line with _ | ⟨d, _ | _⟩
    · rfl
    · rfl
    · exact absurd h (by simpa using hl.resolve_right (by decide) d)
  · rfl

include hr in
/-- What a maintenance request with no copy to snoop comes to (R484). -/
theorem State.maintain_begun :
    let t := (s.beginTxn (.begun core line r)).maintain (.begun core line r) r
    t.coh.txns = s.coh.txns ++ [.begun core line r] ∧ t.coh.l2 = s.coh.l2 ∧ t.coh.filter = s.coh.filter ∧
    ((∀ d, s.l3Line line ≠ some (d, true)) ∨ r = .invalidate → t.coh.msgs = s.coh.msgs ++ [.rsp core line 0]) ∧
    (∀ d, s.l3Line line = some (d, true) → r ≠ .invalidate → t.coh.msgs = s.coh.msgs ++ [.fwd line true d]) ∧
    (r ≠ .clean → t.l3Line line = none) ∧ (r = .clean → ∀ d, s.l3Line line = some (d, true) → t.l3Line line = some (d, false)) := by
  intro t
  by_cases hl : (∀ d, s.l3Line line ≠ some (d, true)) ∨ r = .invalidate
  · have ht : t = _ := State.maintain_answers (s := s.beginTxn (.begun core line r)) hr hl
    rw [ht]
    refine ⟨rfl, rfl, rfl, fun _ => rfl, fun d hd hne => absurd hd (hl.resolve_right hne d), fun hne => ?_, fun hc d hd => ?_⟩
    · show lookupKey line (if r = .clean then s.coh.l3 else dropKey line s.coh.l3) = none
      rw [if_neg hne, lookupKey_dropKey_same]
    · exact absurd hd (hl.resolve_right (by rw [hc]; decide) d)
  · simp only [not_or, not_forall, not_not] at hl
    obtain ⟨⟨d, hd⟩, hne⟩ := hl
    have ht : t = _ := State.maintain_writes (s := s.beginTxn (.begun core line r)) hd (hr.imp_right fun h => h.resolve_right hne)
    rw [ht]
    refine ⟨rfl, rfl, rfl, fun h => ?_, fun d' hd' _ => ?_, fun hne => ?_, fun hc d' hd' => ?_⟩
    · exact absurd hd (h.resolve_right hne d)
    · obtain rfl : d = d' := by simpa [hd] using hd'
      rfl
    · show lookupKey line (if r = .clean then setKey line (d, false) s.coh.l3 else dropKey line s.coh.l3) = none
      rw [if_neg hne, lookupKey_dropKey_same]
    · obtain rfl : d = d' := by simpa [hd] using hd'
      show lookupKey line (if r = .clean then setKey line (d, false) s.coh.l3 else dropKey line s.coh.l3) = _
      rw [if_pos hc, lookupKey_setKey_same]

end

/-! ### WriteBacks -/

/-- A WriteBack of the line's owner is taken (R480). -/
theorem State.acceptCoh_writeBack {e : FilterEntry} (hf : s.filterOf line = some e) (ho : e.owner = some core) :
    s.acceptCoh (.begun core line .writeBack) = (s.beginTxn (.begun core line .writeBack)).sendCoh (.rsp core line 1) := by
  unfold State.acceptCoh
  rw [if_pos rfl, State.acceptWriteBack, show (s.beginTxn (.begun core line .writeBack)).filterOf line = some e from hf]
  exact if_pos (by simp [ho])

/-- A WriteBack of another is cancelled (R480). -/
theorem State.acceptCoh_cancels (h : ∀ e, s.filterOf line = some e → e.owner ≠ some core) :
    s.acceptCoh (.begun core line .writeBack) =
      ((s.beginTxn (.begun core line .writeBack)).bump F.HCX_WB_CANCEL.VALUE 1 (homeDie line)).sendCoh (.rsp core line 2) := by
  unfold State.acceptCoh
  rw [if_pos rfl, State.acceptWriteBack, show (s.beginTxn (.begun core line .writeBack)).filterOf line = s.filterOf line from rfl]
  refine if_neg ?_
  cases hf : s.filterOf line with
  | none => simp
  | some e => simpa using h e hf

/-- A WriteBack as it arrives: the core's copy has its data, and the data is under way (R480). -/
def State.wroteBack (s : State) (core line : Nat) (data : Bytes) : State :=
  State.onCoh (match s.l2Line core line with
    | some l => if l.state = LineState.s then s else s.setL2 core line .m data
    | none => s) fun c => { c with sent := c.sent ++ [(core, line, data)] }

theorem State.wroteBack_eq (s : State) (core line : Nat) (data : Bytes) : ∃ l, s.wroteBack core line data =
    s.onCoh fun c => { c with l2 := l, sent := c.sent ++ [(core, line, data)] } := by
  unfold State.wroteBack
  cases s.l2Line core line with
  | none => exact ⟨s.coh.l2, rfl⟩
  | some l =>
    by_cases h : l.state = LineState.s
    · exact ⟨s.coh.l2, by simp [h, State.onCoh]⟩
    · dsimp only
      rw [if_neg h]
      exact ⟨_, rfl⟩

theorem exec_writeBack (hc : s.cacheable line = true) {data : Bytes} :
    ∃ effect : State → State, exec (.writeBack core line data none) s = act (.writeBack core line data none) s effect ∧
      effect s = (s.wroteBack core line data).requestCoh (.begun core line .writeBack) :=
  ⟨fun s => if !s.cacheable line then s else (s.wroteBack core line data).requestCoh (.begun core line .writeBack), rfl, if_neg (by simp [hc])⟩

end

end Sys2Proof.Machine

open Sys2Proof Sys2Proof.Machine

/-- A request of a core is its request of the home. -/
theorem exec_coreRequest {s : State} {core line : Nat} {r : CohReq} {c : Instr}
    (h : (c = .readShared core line ∧ r = .readShared) ∨ (c = .readUnique core line ∧ r = .readUnique) ∨
      (c = .upgrade core line ∧ r = .upgrade) ∨ (c = .clean core line ∧ r = .clean) ∨ (c = .cohFlush core line ∧ r = .flush) ∨
      (c = .invalidate core line true ∧ r = .flush) ∨ (c = .invalidate core line false ∧ r = .invalidate)) :
    exec c s = act c s (fun s => s.coreRequest core line r) ∧ r ≠ .writeBack := by
  rcases h with ⟨rfl, rfl⟩ | ⟨rfl, rfl⟩ | ⟨rfl, rfl⟩ | ⟨rfl, rfl⟩ | ⟨rfl, rfl⟩ | ⟨rfl, rfl⟩ | ⟨rfl, rfl⟩ <;> exact ⟨rfl, by decide⟩

/-- Settles O47: a request by whether storage backs the line, whether it is blocked and what the filter marks; a WriteBack by the
line's owner. -/
theorem requestsAreTakenAtTheirHome : Obligations.RequestsAreTakenAtTheirHome := by
  intro s core line r c hr
  refine ⟨fun h => ?_, fun data hc hcache => ?_⟩
  · obtain ⟨he, hnw⟩ := exec_coreRequest (s := s) h
    refine ⟨fun hun hcalm => ?_, fun hcache hx => exec_eq_next hr he (State.coreRequest_blocked hcache hx), fun hcache hx => ?_⟩
    · refine ⟨_, exec_settled hr he, ?_, ?_⟩
      · rw [State.settle_coh]
        rw [State.coreRequest_uncached hun]
        exact (s.coreError_frame ..).parts .coh (by decide)
      · rw [State.coreRequest_uncached hun, State.coreError_out]
    · have hrun := State.coreRequest_accepted (core := core) (r := r) hcache hx
      have hacc := s.acceptCoh_frame (.begun core line r)
      refine ⟨fun e hf hd => ?_, fun hfill hf hfull => ?_, fun hfill hf => ?_⟩
      · obtain ⟨htxns, hmsgs⟩ := State.acceptCoh_snoops (core := core) hnw hf hd
        exact ⟨_, exec_eq_next hr he hrun hacc.fatal_eq, hacc.mem_eq, htxns, hmsgs⟩
      · have hacc := hrun.trans (State.acceptCoh_fills hnw hfill hf hfull)
        refine .of_alters hr he ?_ ?_ <;> rw [hacc]
        · exact ((State.Alters.refl s).frame ((State.onCoh_frame s _).step (State.onCoh_frame _ _)) ⟨rfl, rfl⟩ (by simp)).frame
            (State.proceed_frame _ _) ⟨rfl, rfl⟩ (by simp)
        · exact State.proceed_fills hfill _
      · have hm : r = .clean ∨ r = .flush ∨ r = .invalidate := by cases r <;> simp at hfill hnw ⊢
        have hacc := hrun.trans (State.acceptCoh_maintains hnw hfill hf)
        refine .of_alters hr he ?_ ?_ <;> rw [hacc]
        · exact ((State.Alters.refl s).frame (State.onCoh_frame s _) ⟨rfl, rfl⟩ (by simp)).frame (State.maintain_frame _ _ _) ⟨rfl, rfl⟩ (by simp)
        · exact State.maintain_begun hm
  · obtain ⟨effect, he, hrun⟩ := exec_writeBack (core := core) (data := data) hcache
    obtain ⟨l, hl⟩ := s.wroteBack_eq core line data
    rw [hl] at hrun
    subst hc
    refine ⟨fun hx => ?_, fun hx ⟨e, hf, ho⟩ => ?_, fun hx hnot => ?_⟩
    · have hblk := hrun.trans (State.requestCoh_blocked (x := .begun core line .writeBack) hx)
      exact ⟨_, exec_eq_next hr he hblk, rfl, rfl⟩
    · have hacc := (hrun.trans (State.requestCoh_free (x := .begun core line .writeBack) hx)).trans (State.acceptCoh_writeBack hf ho)
      refine .of_alters hr he ?_ ?_ <;> rw [hacc]
      · exact (State.Alters.refl s).frame (((State.onCoh_frame s _).step (State.onCoh_frame _ _)).step (State.onCoh_frame _ _)) ⟨rfl, rfl⟩ (by simp)
      · exact ⟨rfl, rfl, rfl⟩
    · have hacc := (hrun.trans (State.requestCoh_free (x := .begun core line .writeBack) hx)).trans (State.acceptCoh_cancels hnot)
      refine .of_alters hr he ?_ ?_ <;> rw [hacc]
      · exact (((State.Alters.refl s).frame ((State.onCoh_frame s _).step (State.onCoh_frame _ _)) ⟨rfl, rfl⟩ (by simp)).put
          (f := F.HCX_WB_CANCEL.VALUE) (by simp) rfl).frame (State.onCoh_frame _ _) ⟨rfl, rfl⟩ (by simp)
      · exact ⟨rfl, rfl, State.get_bump_same _ _ _ _ _ (by decide)⟩

end

/-! # Snoops and coherence messages

What a snoop does to the copy that it meets (R476, R478, R479), and what the other messages of the protocol do (R478 to R484). -/

section

namespace Sys2Proof.Machine

/-! ### Messages in flight -/

/-- A snoop of a line on a die's rings. -/
def CohMsg.isSnp (die line : Nat) : CohMsg → Bool
  | .snp d l _ => d == die && l == line
  | _ => false

/-- A forwarded read or write of a line. -/
def CohMsg.isFwd (line : Nat) : CohMsg → Bool
  | .fwd l _ _ => l == line
  | _ => false

/-- An answer to a core's request for a line. -/
def CohMsg.isRsp (core line : Nat) : CohMsg → Bool
  | .rsp c l _ => c == core && l == line
  | _ => false

/-- Data of a line that a core sent or is to have. -/
def CohMsg.isDat (core line : Nat) : CohMsg → Bool
  | .dat c l _ _ => c == core && l == line
  | .datHome c l _ => c == core && l == line
  | _ => false

/-- A core's ACK of a line. -/
def CohMsg.isAck (core line : Nat) : CohMsg → Bool
  | .ack c l => c == core && l == line
  | _ => false

/-- A message for a line's home with data. -/
def CohMsg.isHome (line : Nat) : CohMsg → Bool
  | .datHome _ l _ => l == line
  | _ => false

/-- The state without the first message that a test accepts. -/
def State.unsend (s : State) (p : CohMsg → Bool) : State := s.onCoh fun c => { c with msgs := removeFirst p c.msgs }

theorem find?_filter_not {α : Type} (p : α → Bool) (l : List α) : (l.filter fun x => !p x).find? p = none :=
  List.find?_eq_none.2 fun x hx => by simpa using (List.mem_filter.1 hx).2

section
variable {s t u : State} {core line die : Nat}

/-- A test that accepts what another does takes what it takes. -/
theorem State.takeCoh_none {p q : CohMsg → Bool} (h : s.coh.msgs.find? p = none) (hq : ∀ m, q m = p m) : s.takeCoh q = none := by
  rw [funext hq, State.takeCoh, h]

theorem State.takeCoh_some {p q : CohMsg → Bool} {m : CohMsg} (h : s.coh.msgs.find? p = some m) (hq : ∀ m, q m = p m) :
    s.takeCoh q = some (m, s.unsend p) := by
  rw [funext hq, State.takeCoh, h]
  rfl

/-- What a test finds, one that agrees with it finds. -/
theorem find?_of_test {α : Type} {p q : α → Bool} {l : List α} {o : Option α} (h : l.find? p = o) (hq : ∀ m, q m = p m) : l.find? q = o := by
  rw [funext hq, h]

/-! ### Lines and transactions -/

theorem State.l2Line_dropL2 (s : State) (core line : Nat) : (s.dropL2 core line).l2Line core line = none :=
  find?_filter_not _ _

theorem State.l2Line_setL2 (s : State) (core line : Nat) (st : LineState) (data : Bytes) :
    (s.setL2 core line st data).l2Line core line = some ⟨core, line, st, data⟩ := by
  show (s.coh.l2.filter _ ++ _).find? _ = _
  rw [List.find?_append, find?_filter_not]
  simp

theorem State.l2Line_congr (h : t.coh.l2 = s.coh.l2) (core line : Nat) : t.l2Line core line = s.l2Line core line := by
  rw [State.l2Line, State.l2Line, h]

theorem State.txnOf_congr (h : t.coh.txns = s.coh.txns) (line : Nat) : t.txnOf line = s.txnOf line := by rw [State.txnOf, State.txnOf, h]

theorem State.txnOf_onTxn {x : CohTxn} (h : s.txnOf line = some x) {f : CohTxn → CohTxn} (hf : ∀ y, (f y).line = y.line) :
    (s.onTxn line f).txnOf line = some (f x) := by
  show (updateFirst (fun t => t.line == line) f s.coh.txns).find? _ = _
  rw [find?_updateFirst fun y hy => by rwa [hf], show s.coh.txns.find? _ = some x from h]
  rfl

theorem State.filterOf_onFilter {e : FilterEntry} (h : s.filterOf line = some e) {f : FilterEntry → FilterEntry} (hf : ∀ y, (f y).line = y.line) :
    (s.onFilter line f).filterOf line = some (f e) := by
  show (updateFirst (fun x => x.line == line) f s.coh.filter).find? _ = _
  rw [find?_updateFirst fun y hy => by rwa [hf], show s.coh.filter.find? _ = some e from h]
  rfl

theorem State.line_of_txnOf {x : CohTxn} (h : s.txnOf line = some x) : x.line = line := by simpa using List.find?_some h

/-! ### The end of a transaction -/

theorem State.endTxn_last (h : ∀ w ∈ s.coh.waiting, w.line ≠ line) :
    s.endTxn line = s.onCoh fun c => { c with txns := removeFirst (fun t => t.line == line) c.txns } := by
  have hnone : (s.coh.waiting.find? fun t => t.line == line) = none := by simpa using h
  unfold State.endTxn State.nextCoh
  rw [show (s.onCoh fun c => { c with txns := removeFirst (fun t => t.line == line) c.txns }).coh.waiting.find? (fun t => t.line == line) = none
    from hnone]

/-! ### What a snoop's answer leads to -/

/-- Only messages were sent. -/
structure State.Sends (s t : State) : Prop where
  txns : t.coh.txns = s.coh.txns
  l2   : t.coh.l2 = s.coh.l2
  msgs : ∀ m ∈ s.coh.msgs, m ∈ t.coh.msgs

theorem State.Sends.refl (s : State) : s.Sends s := ⟨rfl, rfl, fun _ h => h⟩

theorem State.sends_sendCoh (s : State) (m : CohMsg) : s.Sends (s.sendCoh m) := ⟨rfl, rfl, fun _ h => List.mem_append_left _ h⟩

theorem State.sends_supply (s : State) (x : CohTxn) (grant : LineState) : s.Sends (s.supply x grant) := by
  rw [State.supply]
  cases s.l3Line x.line <;> exact s.sends_sendCoh _

theorem State.sends_maintain (s : State) (x : CohTxn) (r : CohReq) : s.Sends (s.maintain x r) := by
  unfold State.maintain
  extract_lets l3 data t
  cases data <;> exact ⟨rfl, rfl, fun _ h => List.mem_append_left _ h⟩

/-- What the home does when every snoop is answered: it sends messages (R478, R484). -/
theorem State.sends_proceed (s : State) {x : CohTxn} {r : CohReq} (h : x.req = some r) : s.Sends (s.proceed x) := by
  unfold State.proceed
  rw [h]
  cases r with
  | readShared => exact iteInduction (fun _ => .refl s) fun _ => s.sends_supply ..
  | readUnique => exact iteInduction (fun _ => .refl s) fun _ => s.sends_supply ..
  | upgrade =>
    refine iteInduction (fun _ => .refl s) fun _ => ?_
    cases s.l2Line x.core x.line with
    | none => exact s.sends_supply ..
    | some l => exact s.sends_sendCoh _
  | writeBack => exact .refl s
  | clean => exact s.sends_maintain ..
  | flush => exact s.sends_maintain ..
  | invalidate => exact s.sends_maintain ..

/-- A die's answer reaches the home (R478, R479). -/
def State.answered (s : State) (die line : Nat) : State :=
  let t := (s.filterAnswer die line).onTxn line fun x => { x with snoops := removeFirst (· == die) x.snoops }
  match t.txnOf line with
  | some y => if y.snoops.isEmpty then (let u := t.proceed y; if y.req.isNone then u.nextCoh line else u) else t
  | none => t

theorem State.answered_spec {x : CohTxn} {r : CohReq} (h : s.txnOf line = some x) (hr : x.req = some r) :
    Frame ⟨[.coh], [], false⟩ s (s.answered die line) ∧ (s.answered die line).coh.l2 = s.coh.l2 ∧
      (∀ m ∈ s.coh.msgs, m ∈ (s.answered die line).coh.msgs) ∧
      (s.answered die line).txnOf line = some { x with snoops := removeFirst (· == die) x.snoops } := by
  unfold State.answered
  extract_lets t
  have ht : t.txnOf line = some { x with snoops := removeFirst (· == die) x.snoops } :=
    State.txnOf_onTxn (s := s.filterAnswer die line) h fun _ => rfl
  have hframe : Frame ⟨[.coh], [], false⟩ s t := (s.filterAnswer_frame die line).step (State.onTxn_frame ..)
  rw [ht]
  dsimp only
  by_cases hs : (removeFirst (· == die) x.snoops).isEmpty = true
  · have hsends := t.sends_proceed (x := { x with snoops := removeFirst (· == die) x.snoops }) hr
    rw [if_pos hs, if_neg (by simp [hr])]
    exact ⟨hframe.step (State.proceed_frame ..), hsends.l2, hsends.msgs, (State.txnOf_congr hsends.txns line).trans ht⟩
  · rw [if_neg hs]
    exact ⟨hframe, rfl, fun _ hm => hm, ht⟩

/-! ### One copy -/

section
variable {x : CohTxn} {l : L2Line}

theorem State.snoopCopy_shared (hr : x.req = some .readShared) (hl : l.state = .s) :
    s.snoopCopy x l = s.onTxn l.line fun t => { t with others := true } := by
  unfold State.snoopCopy
  rw [hr, hl]

theorem State.snoopCopy_readShared (hr : x.req = some .readShared) (hl : l.state ≠ .s)
    (hstay : ∀ w ∈ s.coh.sent, ¬ (w.1 = l.core ∧ w.2.1 = l.line)) :
    s.snoopCopy x l = ((if l.state = .m then (s.sendCoh (.dat x.core l.line .s l.data)).sendCoh (.datHome l.core l.line l.data)
      else s.sendCoh (.dat x.core l.line .s l.data)).onTxn l.line fun t => { t with supplied := true, others := true }).setL2
        l.core l.line .s l.data := by
  have hleave : (s.coh.sent.any fun w => w.1 == l.core && w.2.1 == l.line) = false := by simpa using hstay
  unfold State.snoopCopy
  rw [hleave, hr]
  cases h : l.state with
  | s => exact absurd h hl
  | m => rfl
  | e => rfl

theorem State.snoopCopy_takenShared (hr : x.req = some .readUnique ∨ x.req = some .upgrade) (hl : l.state = .s) :
    s.snoopCopy x l = s.dropL2 l.core l.line := by
  unfold State.snoopCopy
  rcases hr with hr | hr <;> rw [hr, hl]

theorem State.snoopCopy_taken (hr : x.req = some .readUnique ∨ x.req = some .upgrade) (hl : l.state ≠ .s) :
    s.snoopCopy x l = ((s.sendCoh (.dat x.core l.line .m l.data)).dropL2 l.core l.line).onTxn l.line fun t => { t with supplied := true } := by
  unfold State.snoopCopy
  rcases hr with hr | hr <;> rw [hr] <;> cases h : l.state with
  | s => exact absurd h hl
  | m => rfl
  | e => rfl

theorem State.snoopCopy_cleaned (hr : x.req = some .clean) (hl : l.state = .m)
    (hstay : ∀ w ∈ s.coh.sent, ¬ (w.1 = l.core ∧ w.2.1 = l.line)) :
    s.snoopCopy x l = (s.onTxn l.line fun t => { t with dirty := some l.data, others := true }).setL2 l.core l.line .e l.data := by
  have hleave : (s.coh.sent.any fun w => w.1 == l.core && w.2.1 == l.line) = false := by simpa using hstay
  unfold State.snoopCopy
  rw [hleave, hr, hl]
  rfl

theorem State.snoopCopy_clean (hr : x.req = some .clean) (hl : l.state ≠ .m) :
    s.snoopCopy x l = s.onTxn l.line fun t => { t with others := true } := by
  unfold State.snoopCopy
  rw [hr]
  cases h : l.state with
  | m => exact absurd h hl
  | s => rfl
  | e => rfl

theorem State.snoopCopy_flushed (hr : x.req = some .flush ∨ x.req = some .invalidate) (hl : l.state = .m) :
    s.snoopCopy x l = (s.dropL2 l.core l.line).onTxn l.line fun t => { t with dirty := some l.data } := by
  unfold State.snoopCopy
  rcases hr with hr | hr <;> rw [hr, hl]

theorem State.snoopCopy_dropped (hr : x.req = some .flush ∨ x.req = some .invalidate) (hl : l.state ≠ .m) :
    s.snoopCopy x l = s.dropL2 l.core l.line := by
  unfold State.snoopCopy
  rcases hr with hr | hr <;> rw [hr] <;> cases h : l.state with
  | m => exact absurd h hl
  | s => rfl
  | e => rfl

/-- The transaction of the snoop after it met a copy. -/
theorem State.snoopCopy_txn {r : CohReq} (hx : s.txnOf l.line = some x) (hr : x.req = some r) (hnw : r ≠ .writeBack)
    (hstay : ∀ w ∈ s.coh.sent, ¬ (w.1 = l.core ∧ w.2.1 = l.line)) :
    ∃ y, (s.snoopCopy x l).txnOf l.line = some y ∧ y.req = some r ∧ y.snoops = x.snoops ∧
      (r = .clean ∨ r = .flush ∨ r = .invalidate → l.state = .m → y.dirty = some l.data) := by
  have hset : ∀ {t : State} {f : CohTxn → CohTxn}, t.coh.txns = s.coh.txns → (∀ y, (f y).line = y.line) →
      (t.onTxn l.line f).txnOf l.line = some (f x) := fun ht hf => State.txnOf_onTxn ((State.txnOf_congr ht _).trans hx) hf
  cases r with
  | writeBack => exact absurd rfl hnw
  | readShared =>
    by_cases hl : l.state = .s
    · rw [State.snoopCopy_shared hr hl]
      exact ⟨_, hset rfl fun _ => rfl, hr, rfl, by simp⟩
    · rw [State.snoopCopy_readShared hr hl hstay]
      exact ⟨_, hset (by split <;> rfl) fun _ => rfl, hr, rfl, by simp⟩
  | readUnique =>
    by_cases hl : l.state = .s
    · rw [State.snoopCopy_takenShared (.inl hr) hl]
      exact ⟨x, hx, hr, rfl, by simp⟩
    · rw [State.snoopCopy_taken (.inl hr) hl]
      exact ⟨_, hset rfl fun _ => rfl, hr, rfl, by simp⟩
  | upgrade =>
    by_cases hl : l.state = .s
    · rw [State.snoopCopy_takenShared (.inr hr) hl]
      exact ⟨x, hx, hr, rfl, by simp⟩
    · rw [State.snoopCopy_taken (.inr hr) hl]
      exact ⟨_, hset rfl fun _ => rfl, hr, rfl, by simp⟩
  | clean =>
    by_cases hl : l.state = .m
    · rw [State.snoopCopy_cleaned hr hl hstay]
      exact ⟨_, hset rfl fun _ => rfl, hr, rfl, fun _ _ => rfl⟩
    · rw [State.snoopCopy_clean hr hl]
      exact ⟨_, hset rfl fun _ => rfl, hr, rfl, fun _ h => absurd h hl⟩
  | flush =>
    by_cases hl : l.state = .m
    · rw [State.snoopCopy_flushed (.inl hr) hl]
      exact ⟨_, hset rfl fun _ => rfl, hr, rfl, fun _ _ => rfl⟩
    · rw [State.snoopCopy_dropped (.inl hr) hl]
      exact ⟨x, hx, hr, rfl, fun _ h => absurd h hl⟩
  | invalidate =>
    by_cases hl : l.state = .m
    · rw [State.snoopCopy_flushed (.inr hr) hl]
      exact ⟨_, hset rfl fun _ => rfl, hr, rfl, fun _ _ => rfl⟩
    · rw [State.snoopCopy_dropped (.inr hr) hl]
      exact ⟨x, hx, hr, rfl, fun _ h => absurd h hl⟩

/-- A copy leaves for a request that wants it alone, or away (R476, R484). -/
theorem State.snoopCopy_leaves {r : CohReq} (hr : x.req = some r)
    (h : r = .readUnique ∨ r = .upgrade ∨ r = .flush ∨ r = .invalidate) : (s.snoopCopy x l).l2Line l.core l.line = none := by
  have htaken : x.req = some .readUnique ∨ x.req = some .upgrade → (s.snoopCopy x l).l2Line l.core l.line = none := fun h => by
    by_cases hl : l.state = .s
    · rw [State.snoopCopy_takenShared h hl]
      exact State.l2Line_dropL2 ..
    · rw [State.snoopCopy_taken h hl]
      exact State.l2Line_dropL2 (s.sendCoh _) ..
  have hflushed : x.req = some .flush ∨ x.req = some .invalidate → (s.snoopCopy x l).l2Line l.core l.line = none := fun h => by
    by_cases hl : l.state = .m
    · rw [State.snoopCopy_flushed h hl]
      exact State.l2Line_dropL2 s ..
    · rw [State.snoopCopy_dropped h hl]
      exact State.l2Line_dropL2 ..
  rcases h with rfl | rfl | rfl | rfl
  · exact htaken (.inl hr)
  · exact htaken (.inr hr)
  · exact hflushed (.inl hr)
  · exact hflushed (.inr hr)

/-- A copy that is not S sends its data to a requester that wants it alone (R478). -/
theorem State.snoopCopy_sends (hr : x.req = some .readUnique ∨ x.req = some .upgrade) (hl : l.state ≠ .s) :
    CohMsg.dat x.core l.line .m l.data ∈ (s.snoopCopy x l).coh.msgs := by
  rw [State.snoopCopy_taken hr hl]
  exact List.mem_append_right _ (List.mem_singleton.2 rfl)

/-- A copy that is not S becomes S for a ReadShared, and sends its data (R476, R478). -/
theorem State.snoopCopy_shares (hr : x.req = some .readShared) (hl : l.state ≠ .s)
    (hstay : ∀ w ∈ s.coh.sent, ¬ (w.1 = l.core ∧ w.2.1 = l.line)) :
    (s.snoopCopy x l).l2Line l.core l.line = some ⟨l.core, l.line, .s, l.data⟩ ∧
      CohMsg.dat x.core l.line .s l.data ∈ (s.snoopCopy x l).coh.msgs ∧
      (l.state = .m → CohMsg.datHome l.core l.line l.data ∈ (s.snoopCopy x l).coh.msgs) := by
  rw [State.snoopCopy_readShared hr hl hstay]
  refine ⟨State.l2Line_setL2 .., ?_, fun hm => ?_⟩
  · by_cases hm : l.state = .m
    · rw [if_pos hm]
      exact List.mem_append_left _ (List.mem_append_right _ (List.mem_singleton.2 rfl))
    · rw [if_neg hm]
      exact List.mem_append_right _ (List.mem_singleton.2 rfl)
  · rw [if_pos hm]
    exact List.mem_append_right _ (List.mem_singleton.2 rfl)

end

/-! ### A snoop at a die -/

/-- Caches that neither evicted nor stored hold what they held. -/
theorem State.coresActed_none (s : State) (die line : Nat) : s.coresActed die line [] none = s := by
  have hkeep : ((s.coh.l2.filter fun l => !((l.line == line && coreDie l.core == die) && [].contains l.core && l.state != .m)).map fun l =>
      if (l.line == line && coreDie l.core == die) && l.state != .s then
        { l with state := if (none : Option Bytes).isSome then .m else l.state, data := (none : Option Bytes).getD l.data } else l) = s.coh.l2 := by
    rw [List.filter_eq_self.2 (by simp)]
    exact (List.map_congr_left fun l _ => ite_id _).trans (List.map_id _)
  exact congrArg (fun l => s.onCoh fun c => { c with l2 := l }) hkeep

theorem State.snoopArrives_stale (h : (s.coh.msgs.any (CohMsg.isSnp die line)) = false ∨ s.txnOf line = none) (gone : List Nat) (stored : Option Bytes) :
    s.snoopArrives die line gone stored = s := by
  unfold State.snoopArrives
  rcases h with h | h
  · rw [State.takeCoh_none (p := CohMsg.isSnp die line) (by simpa using h)]
    exact fun m => by cases m <;> rfl
  · rw [h]
    cases s.takeCoh _ <;> rfl

theorem State.snoopArrives_meets {m : CohMsg} (hm : s.coh.msgs.find? (CohMsg.isSnp die line) = some m) {x : CohTxn} (hx : s.txnOf line = some x) :
    s.snoopArrives die line [] none =
      let u := s.unsend (CohMsg.isSnp die line)
      ((u.met x die).foldl (fun s l => s.snoopCopy x l)
        (if (u.met x die).isEmpty then u.bump F.HCX_COUNTS.STALE_SNOOP 1 die else u)).answered die line := by
  unfold State.snoopArrives
  rw [State.takeCoh_some hm, hx]
  · dsimp only
    rw [State.coresActed_none]
    rfl
  · exact fun m => by cases m <;> rfl

/-! ### The other messages -/

/-- A message that is found is one that the test accepts. -/
theorem State.fwdArrives_none (h : s.coh.msgs.find? (CohMsg.isFwd line) = none) : s.fwdArrives line = s := by
  unfold State.fwdArrives
  rw [State.takeCoh_none h]
  exact fun m => by cases m <;> rfl

/-- A forwarded write is performed (R482, R484). -/
theorem State.fwdArrives_write {d : Bytes} (h : s.coh.msgs.find? (CohMsg.isFwd line) = some (.fwd line true d)) :
    ∃ t, Frame ⟨[.coh], [], false⟩ ((s.unsend (CohMsg.isFwd line)).writeSectors (64 * line) d) t ∧ s.fwdArrives line = t := by
  have hsend := fun t m => State.onCoh_frame t fun c : CohSt => { c with msgs := c.msgs ++ [m] }
  unfold State.fwdArrives
  rw [State.takeCoh_some h]
  · refine ⟨_, ?_, rfl⟩
    dsimp only
    split
    · split
      · exact hsend _ _
      · exact .refl _
    · exact .refl _
  · exact fun m => by cases m <;> rfl

/-- A forwarded read returns the line (R478). -/
theorem State.fwdArrives_read {d : Bytes} {x : CohTxn} (h : s.coh.msgs.find? (CohMsg.isFwd line) = some (.fwd line false d))
    (hx : s.txnOf line = some x) (hsound : s.soundSpan (64 * line) 64) :
    ∃ r, Frame soundReadTouch (s.unsend (CohMsg.isFwd line)) r ∧
      s.fwdArrives line = r.sendCoh (.dat x.core line x.grant (s.bytes (64 * line) 64)) := by
  obtain ⟨hok, hquiet⟩ := State.readSpan_sound (s := s.unsend (CohMsg.isFwd line)) hsound
  have hframe := hquiet.frame
  refine ⟨_, hframe, ?_⟩
  unfold State.fwdArrives
  rw [State.takeCoh_some h]
  · dsimp only
    generalize (s.unsend (CohMsg.isFwd line)).readSpan (64 * line) 64 = p at *
    obtain ⟨r, ok⟩ := p
    obtain rfl : ok = true := hok
    have hcoh : r.coh = (s.unsend (CohMsg.isFwd line)).coh := hframe.parts .coh (by decide)
    have hmem : r.mem = s.mem := hframe.mem_eq
    dsimp only
    rw [show r.txnOf line = some x from (State.txnOf_congr (s := s) (by rw [hcoh]; rfl) line).trans hx, State.bytes_congr hmem]
    rfl
  · exact fun m => by cases m <;> rfl

theorem State.rspArrives_none (h : s.coh.msgs.find? (CohMsg.isRsp core line) = none) : s.rspArrives core line = s := by
  unfold State.rspArrives
  rw [State.takeCoh_none h]
  exact fun m => by cases m <;> rfl

/-- A WriteBack that was sent. -/
abbrev isSent (core line : Nat) (w : Nat × Nat × Bytes) : Bool := w.1 == core && w.2.1 == line

/-- The WriteBack of a core's line is sent no more. -/
def State.unsent (s : State) (core line : Nat) : State := s.onCoh fun c => { c with sent := removeFirst (isSent core line) c.sent }

/-- GO for an Upgrade (R478). -/
theorem State.rspArrives_go {x : CohTxn} {l : L2Line} (h : s.coh.msgs.find? (CohMsg.isRsp core line) = some (.rsp core line 0))
    (hx : s.txnOf line = some x) (hr : x.req = some .upgrade) (hl : s.l2Line core line = some l) :
    s.rspArrives core line = ((s.unsend (CohMsg.isRsp core line)).setL2 core line .m l.data).sendCoh (.ack core line) := by
  unfold State.rspArrives
  rw [State.takeCoh_some h]
  · dsimp only
    rw [show (s.unsend (CohMsg.isRsp core line)).txnOf line = some x from hx, Option.bind_some, hr,
      show (s.unsend (CohMsg.isRsp core line)).l2Line core line = some l from hl]
    rfl
  · exact fun m => by cases m <;> rfl

/-- GO_WB (R480). -/
theorem State.rspArrives_goWb {d : Bytes} (h : s.coh.msgs.find? (CohMsg.isRsp core line) = some (.rsp core line 1))
    (hd : s.coh.sent.find? (isSent core line) = some (core, line, d)) : s.rspArrives core line =
      (((s.unsend (CohMsg.isRsp core line)).unsent core line).dropL2 core line).sendCoh (.datHome core line d) := by
  unfold State.rspArrives
  rw [State.takeCoh_some h]
  · dsimp only
    rw [show (s.unsend (CohMsg.isRsp core line)).coh.sent.find? (fun w => w.1 == core && w.2.1 == line) = some (core, line, d) from hd]
    rfl
  · exact fun m => by cases m <;> rfl

/-- WB_CANCEL (R480). -/
theorem State.rspArrives_cancel (h : s.coh.msgs.find? (CohMsg.isRsp core line) = some (.rsp core line 2)) :
    s.rspArrives core line = ((s.unsend (CohMsg.isRsp core line)).unsent core line).endTxn line := by
  unfold State.rspArrives
  rw [State.takeCoh_some h]
  · rfl
  · exact fun m => by cases m <;> rfl

theorem State.datArrives_none (h : s.coh.msgs.find? (CohMsg.isDat core line) = none) : s.datArrives core line = s := by
  unfold State.datArrives
  rw [State.takeCoh_none h]
  exact fun m => by cases m <;> rfl

/-- Line data at its requester (R478, R481). -/
theorem State.datArrives_fills {grant : LineState} {d : Bytes} (h : s.coh.msgs.find? (CohMsg.isDat core line) = some (.dat core line grant d)) :
    s.datArrives core line = ((s.unsend (CohMsg.isDat core line)).setL2 core line grant d).sendCoh (.ack core line) := by
  unfold State.datArrives
  rw [State.takeCoh_some h]
  exact fun m => by cases m <;> rfl

/-- Line data at its home (R478). -/
theorem State.datArrives_home {d : Bytes} (h : s.coh.msgs.find? (CohMsg.isDat core line) = some (.datHome core line d)) :
    s.datArrives core line = (s.unsend (CohMsg.isDat core line)).homeData line d := by
  unfold State.datArrives
  rw [State.takeCoh_some h]
  exact fun m => by cases m <;> rfl

theorem State.homeData_spec (hw : ∀ w ∈ s.coh.waiting, w.line ≠ line) (d : Bytes) :
    Frame ⟨[.coh], [], false⟩ s (s.homeData line d) ∧ (s.homeData line d).l3Line line = some (d, true) := by
  have hend := State.endTxn_last (s := (s.setL3 line d true).onCoh fun c => { c with filter := removeFirst (fun e => e.line == line) c.filter }) hw
  have hset : (s.setL3 line d true).l3Line line = some (d, true) := lookupKey_setKey_same ..
  unfold State.homeData
  dsimp only
  split
  · rw [hend]
    exact ⟨((State.onCoh_frame s _).step (State.onCoh_frame _ _)).step (State.onCoh_frame _ _), hset⟩
  · exact ⟨State.onCoh_frame s _, hset⟩

/-- A filter entry after a completed request of a core that holds the line (R474, R476). -/
def FilterEntry.completed (core : Nat) (l : L2Line) (e : FilterEntry) : FilterEntry :=
  { e with dies := if l.state = .s then insertNat (coreDie core) e.dies else [coreDie core]
           owner := if l.state = .s then none else some core }

theorem State.filterDone_held {l : L2Line} (hl : s.l2Line core line = some l) :
    s.filterDone core line = s.onFilter line (.completed core l) := by
  rw [State.filterDone, hl]
  refine congrArg (s.onFilter line) (funext fun e => ?_)
  simp only [FilterEntry.completed, beq_iff_eq]

theorem State.ackArrives_none (h : s.coh.msgs.find? (CohMsg.isAck core line) = none) : s.ackArrives core line = s := by
  unfold State.ackArrives
  rw [State.takeCoh_none h]
  exact fun m => by cases m <;> rfl

/-- An ACK ends its transaction (R477). -/
theorem State.ackArrives_ends {m : CohMsg} (h : s.coh.msgs.find? (CohMsg.isAck core line) = some m) (hw : ∀ w ∈ s.coh.waiting, w.line ≠ line) :
    ∃ t, Frame ⟨[.coh], [], false⟩ s t ∧ t.coh.l2 = s.coh.l2 ∧ t.coh.txns = s.coh.txns ∧ t.coh.filter = s.coh.filter ∧
      s.ackArrives core line = (t.filterDone core line).onCoh fun c => { c with txns := removeFirst (fun t => t.line == line) c.txns } := by
  have hend : ∀ t : State, t.coh.waiting = s.coh.waiting → (t.filterDone core line).endTxn line =
      (t.filterDone core line).onCoh fun c => { c with txns := removeFirst (fun t => t.line == line) c.txns } := fun t ht => by
    refine State.endTxn_last ?_
    have hkeep : (t.filterDone core line).coh.waiting = t.coh.waiting := by
      unfold State.filterDone
      split <;> rfl
    rwa [hkeep, ht]
  have hback : ∀ q : CohMsg → Bool, (∀ m, q m = CohMsg.isHome line m) → ∃ t, (match (s.unsend (CohMsg.isAck core line)).takeCoh q with
      | some (.datHome _ _ d, s) => s.setL3 line d true
      | _ => s.unsend (CohMsg.isAck core line)) = t ∧ Frame ⟨[.coh], [], false⟩ s t ∧ t.coh.l2 = s.coh.l2 ∧ t.coh.txns = s.coh.txns ∧
        t.coh.filter = s.coh.filter ∧ t.coh.waiting = s.coh.waiting := fun q hq => by
    have hunsend : Frame ⟨[.coh], [], false⟩ s (s.unsend (CohMsg.isAck core line)) := State.onCoh_frame s _
    cases hm : (s.unsend (CohMsg.isAck core line)).coh.msgs.find? (CohMsg.isHome line) with
    | none =>
      rw [State.takeCoh_none hm hq]
      exact ⟨_, rfl, hunsend, rfl, rfl, rfl, rfl⟩
    | some m =>
      rw [State.takeCoh_some hm hq]
      cases m with
      | datHome c l d => exact ⟨_, rfl, (hunsend.step (State.onCoh_frame _ _)).step (State.onCoh_frame _ _), rfl, rfl, rfl, rfl⟩
      | snp | fwd | rsp | dat | ack => exact ⟨_, rfl, hunsend, rfl, rfl, rfl, rfl⟩
  obtain ⟨t, ht, hframe, hl2, htxns, hfilter, hwait⟩ := hback _ fun m => rfl
  refine ⟨t, hframe, hl2, htxns, hfilter, ?_⟩
  rw [← hend t hwait, ← ht]
  unfold State.ackArrives
  rw [State.takeCoh_some h]
  · have hq : (fun m : CohMsg => match m with | .datHome _ l _ => l == line | _ => false) = CohMsg.isHome line :=
      funext fun m => by cases m <;> rfl
    rw [← hq] <;> rfl
  · exact fun m => by cases m <;> rfl

end

end Sys2Proof.Machine

open Sys2Proof Sys2Proof.Machine

/-- Settles the snoops of O48: the copy that is met, and what the answer leads to. -/
theorem snoop_acts {s : State} {die line : Nat} (hr : s.Reaches (.snoop die line [] none)) {x : CohTxn} {r : CohReq}
    (hm : s.coh.msgs.any (CohMsg.isSnp die line) = true) (hx : s.txnOf line = some x) (hreq : x.req = some r) (hnw : r ≠ .writeBack) :
    (s.met x die = [] → ∃ t, exec (.snoop die line [] none) s = .next t ∧
       t.get F.HCX_COUNTS.STALE_SNOOP die = min (s.get F.HCX_COUNTS.STALE_SNOOP die + 1) (2 ^ F.HCX_COUNTS.STALE_SNOOP.len - 1) ∧
       t.coh.l2 = s.coh.l2 ∧ ∃ y, t.txnOf line = some y ∧ y.snoops = removeFirst (· == die) x.snoops) ∧
     (∀ l, s.met x die = [l] → (∀ w ∈ s.coh.sent, ¬(w.1 = l.core ∧ w.2.1 = line)) → ∃ t, exec (.snoop die line [] none) s = .next t ∧
       (∃ y, t.txnOf line = some y ∧ y.snoops = removeFirst (· == die) x.snoops ∧
         ((r = .clean ∨ r = .flush ∨ r = .invalidate) → l.state = .m → y.dirty = some l.data)) ∧
       (r = .readUnique ∨ r = .upgrade ∨ r = .flush ∨ r = .invalidate → t.l2Line l.core line = none) ∧
       (r = .readUnique ∨ r = .upgrade → l.state ≠ .s → CohMsg.dat x.core line .m l.data ∈ t.coh.msgs) ∧
       (r = .readShared → l.state ≠ .s → t.l2Line l.core line = some ⟨l.core, line, .s, l.data⟩ ∧
         CohMsg.dat x.core line .s l.data ∈ t.coh.msgs ∧ (l.state = .m → CohMsg.datHome l.core line l.data ∈ t.coh.msgs)) ∧
       (r = .clean → l.state = .m → t.l2Line l.core line = some ⟨l.core, line, .e, l.data⟩) ∧
       (r = .readShared → l.state = .s → t.coh.l2 = s.coh.l2)) := by
  obtain ⟨m, hfind⟩ := Option.isSome_iff_exists.1 (List.find?_isSome.2 (by simpa using hm))
  have hrun := State.snoopArrives_meets hfind hx
  have hgo := exec_eq_next (effect := fun s => s.snoopArrives die line [] none) hr rfl rfl (s.snoopArrives_frame die line [] none).fatal_eq
  refine ⟨fun hmet => ?_, fun l hmet hstay => ?_⟩
  · have hmet' : (s.unsend (CohMsg.isSnp die line)).met x die = [] := hmet
    dsimp only at hrun
    rw [hmet', if_pos List.isEmpty_nil] at hrun
    obtain ⟨hframe, hl2, -, htxn⟩ := State.answered_spec (s := (s.unsend (CohMsg.isSnp die line)).bump F.HCX_COUNTS.STALE_SNOOP 1 die)
      (die := die) (x := x) hx hreq
    refine ⟨_, hgo, ?_⟩
    rw [hrun]
    exact ⟨(hframe.get_eq _ _ _).trans (State.get_bump_same _ _ _ _ _ (by decide)), hl2, _, htxn, rfl⟩
  · have hmet' : (s.unsend (CohMsg.isSnp die line)).met x die = [l] := hmet
    dsimp only at hrun
    rw [hmet', if_neg (by simp)] at hrun
    have hline : l.line = line := by
      have hmem : l ∈ s.met x die := by rw [hmet]; exact List.mem_singleton.2 rfl
      rw [← State.line_of_txnOf hx]
      have hp := (List.mem_filter.1 hmem).2
      simp only [Bool.and_eq_true, beq_iff_eq] at hp
      exact hp.1.1
    subst hline
    have hx' : (s.unsend (CohMsg.isSnp die l.line)).txnOf l.line = some x := hx
    obtain ⟨y, hy, hyreq, hysnoops, hydirty⟩ := State.snoopCopy_txn hx' hreq hnw hstay
    obtain ⟨-, hl2, hmsgs, htxn⟩ := State.answered_spec (die := die) hy hyreq
    have hl2' := State.l2Line_congr hl2
    have hreq' : ∀ {k : CohReq}, r = k → x.req = some k := fun h => h ▸ hreq
    have hstay' : ∀ w ∈ (s.unsend (CohMsg.isSnp die l.line)).coh.sent, ¬ (w.1 = l.core ∧ w.2.1 = l.line) := hstay
    refine ⟨_, hgo, ?_⟩
    rw [hrun]
    refine ⟨⟨_, htxn, congrArg (removeFirst _) hysnoops, hydirty⟩, fun h => ?_, fun h hl => ?_, fun h hl => ?_, fun h hl => ?_, fun h hl => ?_⟩
    · exact (hl2' _ _).trans (State.snoopCopy_leaves hreq h)
    · exact hmsgs _ (State.snoopCopy_sends (h.imp hreq' hreq') hl)
    · obtain ⟨hcopy, hsent, hhome⟩ := State.snoopCopy_shares (hreq' h) hl hstay'
      exact ⟨(hl2' _ _).trans hcopy, hmsgs _ hsent, fun hm => hmsgs _ (hhome hm)⟩
    · refine (hl2' _ _).trans ?_
      rw [State.snoopCopy_cleaned (hreq' h) hl hstay']
      exact State.l2Line_setL2 ..
    · refine hl2.trans ?_
      rw [State.snoopCopy_shared (hreq' h) hl]
      rfl

/-- Settles O48: a snoop by the copy it meets, each other message by what it carries. -/
theorem snoopsAndCoherenceMessagesAct : Obligations.SnoopsAndCoherenceMessagesAct := by
  refine ⟨fun s die line hr => ⟨fun h => ?_, fun x r hm hx hreq hnw => snoop_acts hr ?_ hx hreq hnw⟩,
    fun s line hinv hr => ⟨fun h => ?_, fun d h hl hback => ?_, fun d x h hx hsound => ?_⟩,
    fun s core line hr => ⟨fun h => ?_, fun l x h hx hreq hl => ?_, fun d h hd => ?_, fun h hw => ?_⟩,
    fun s core line hr => ⟨fun h => ?_, fun grant d h => ?_, fun d h hw => ?_⟩,
    fun s core line hr => ⟨fun h => ?_, fun h hw l e hl hf => ?_⟩, fun s die idx v hr => ⟨fun h => ?_, fun h => ?_⟩⟩
  · have h' : s.coh.msgs.any (CohMsg.isSnp die line) = false ∨ s.txnOf line = none := by
      refine h.imp_left fun h => ?_
      rw [← h]
      exact congrArg _ (funext fun m => by cases m <;> rfl)
    exact exec_eq_next (effect := fun s => s.snoopArrives die line [] none) hr rfl (State.snoopArrives_stale h' [] none)
  · rw [← hm]
    exact congrArg _ (funext fun m => by cases m <;> rfl)
  · exact exec_eq_next (effect := fun s => s.fwdArrives line) hr rfl (State.fwdArrives_none (find?_of_test h fun m => by cases m <;> rfl))
  · obtain ⟨t, hframe, hrun⟩ := State.fwdArrives_write (find?_of_test h fun m => by cases m <;> rfl)
    have hw := hframe.mem_eq.trans (State.mem_writeSectors (s := s.unsend (CohMsg.isFwd line)) (by rw [hl]; exact hback))
    obtain ⟨hbytes, hrest⟩ := State.bytes_of_mem hinv.mem hw
    rw [hl] at hbytes hrest
    exact ⟨t, exec_eq_next (effect := fun s => s.fwdArrives line) hr rfl hrun (hframe.fatal_eq.trans (State.writeSectors_frame ..).fatal_eq),
      hbytes, hrest⟩
  · obtain ⟨r, hframe, hrun⟩ := State.fwdArrives_read (find?_of_test h fun m => by cases m <;> rfl) hx hsound
    exact ⟨_, exec_eq_next (effect := fun s => s.fwdArrives line) hr rfl hrun hframe.fatal_eq, hframe.mem_eq,
      List.mem_append_right _ (List.mem_singleton.2 rfl)⟩
  · exact exec_eq_next (effect := fun s => s.rspArrives core line) hr rfl (State.rspArrives_none (find?_of_test h fun m => by cases m <;> rfl))
  · have hrun := State.rspArrives_go (find?_of_test h fun m => by cases m <;> rfl) hx hreq hl
    refine .of_alters (effect := fun s => s.rspArrives core line) hr rfl ?_ ?_ <;> rw [hrun]
    · exact (State.Alters.refl s).frame (((State.onCoh_frame s _).step (State.onCoh_frame _ _)).step (State.onCoh_frame _ _)) ⟨rfl, rfl⟩ (by simp)
    · exact ⟨State.l2Line_setL2 .., List.mem_append_right _ (List.mem_singleton.2 rfl)⟩
  · have hrun := State.rspArrives_goWb (find?_of_test h fun m => by cases m <;> rfl) hd
    refine .of_alters (effect := fun s => s.rspArrives core line) hr rfl ?_ ?_ <;> rw [hrun]
    · exact (State.Alters.refl s).frame ((((State.onCoh_frame s _).step (State.onCoh_frame _ _)).step (State.onCoh_frame _ _)).step
        (State.onCoh_frame _ _)) ⟨rfl, rfl⟩ (by simp)
    · exact ⟨State.l2Line_dropL2 .., List.mem_append_right _ (List.mem_singleton.2 rfl), rfl⟩
  · have hrun := (State.rspArrives_cancel (find?_of_test h fun m => by cases m <;> rfl)).trans
      (State.endTxn_last (s := (s.unsend (CohMsg.isRsp core line)).unsent core line) hw)
    refine .of_alters (effect := fun s => s.rspArrives core line) hr rfl ?_ ?_ <;> rw [hrun]
    · exact (State.Alters.refl s).frame (((State.onCoh_frame s _).step (State.onCoh_frame _ _)).step (State.onCoh_frame _ _)) ⟨rfl, rfl⟩ (by simp)
    · exact ⟨rfl, rfl, rfl⟩
  · exact exec_eq_next (effect := fun s => s.datArrives core line) hr rfl (State.datArrives_none (find?_of_test h fun m => by cases m <;> rfl))
  · have hrun := State.datArrives_fills (find?_of_test h fun m => by cases m <;> rfl)
    refine .of_alters (effect := fun s => s.datArrives core line) hr rfl ?_ ?_ <;> rw [hrun]
    · exact (State.Alters.refl s).frame (((State.onCoh_frame s _).step (State.onCoh_frame _ _)).step (State.onCoh_frame _ _)) ⟨rfl, rfl⟩ (by simp)
    · exact ⟨State.l2Line_setL2 .., List.mem_append_right _ (List.mem_singleton.2 rfl)⟩
  · have hrun := State.datArrives_home (find?_of_test h fun m => by cases m <;> rfl)
    obtain ⟨hframe, hl3⟩ := State.homeData_spec (s := s.unsend (CohMsg.isDat core line)) hw d
    refine .of_alters (effect := fun s => s.datArrives core line) hr rfl ?_ ?_ <;> rw [hrun]
    · exact (State.Alters.refl s).frame ((State.onCoh_frame s _).step hframe) ⟨rfl, rfl⟩ (by simp)
    · exact hl3
  · refine exec_eq_next (effect := fun s => s.ackArrives core line) hr rfl (State.ackArrives_none (List.find?_eq_none.2 fun m hm => ?_))
    cases m with
    | ack c l =>
      simp only [CohMsg.isAck, Bool.and_eq_true, beq_iff_eq]
      rintro ⟨rfl, rfl⟩
      exact h hm
    | snp | fwd | rsp | dat | datHome => exact Bool.false_ne_true
  · obtain ⟨m, hm⟩ := Option.isSome_iff_exists.1 (List.find?_isSome (p := CohMsg.isAck core line).2 ⟨_, h, by simp [CohMsg.isAck]⟩)
    obtain ⟨t, hframe, hl2, htxns, hfilter, hrun⟩ := State.ackArrives_ends hm hw
    have hl' : t.l2Line core line = some l := (State.l2Line_congr hl2 core line).trans hl
    have hf' : t.filterOf line = some e := by rw [State.filterOf, hfilter]; exact hf
    have hdone := State.filterDone_held hl'
    rw [hdone] at hrun
    refine .of_alters (effect := fun s => s.ackArrives core line) hr rfl ?_ ?_ <;> rw [hrun]
    · exact (State.Alters.refl s).frame ((hframe.step (State.onCoh_frame _ _)).step (State.onCoh_frame _ _)) ⟨rfl, rfl⟩ (by simp)
    · refine ⟨congrArg (removeFirst _) htxns, hl2, ?_⟩
      exact State.filterOf_onFilter (f := FilterEntry.completed core l) hf' fun _ => rfl
  · exact exec_eq_next (effect := fun s => s.rwinWrite die idx 2 v) hr rfl (if_pos h)
  · have hrun : s.rwinWrite die idx 2 v = s.writeReg .HCX_RWIN die idx 2 v := if_neg h
    refine .of_alters (effect := fun s => s.rwinWrite die idx 2 v) hr rfl ?_ ?_ <;> rw [hrun]
    · exact ⟨rfl, fun p _ => s.writeReg_part .HCX_RWIN die idx 2 v [] 0 p, KeepsBut.writeReg s .HCX_RWIN die idx 2 v [] 0⟩
    · exact ⟨State.get_writeReg_rw _ (by decide) _ _ _ rfl, State.get_writeReg_rw _ (by decide) _ _ _ rfl,
        State.get_writeReg_rw _ (by decide) _ _ _ rfl⟩

end

/-! # Patrol scrub and row repair

What the code finds at a scrub step (R263 to R265, R269, R284), and the end of a row's copy (R270, R284). -/

section

namespace Sys2Proof.Machine

section
variable {s : State}

/-! ### What the code finds -/

theorem State.checkHbm_sound {n : Nat} (h : lookupKey n s.hbm.flips = none) (write : Bool) : s.checkHbm n write = (s, true) := by
  rw [State.checkHbm, h]

theorem State.checkHbm_single {n e pos val : Nat} (h : lookupKey n s.hbm.flips = some e) (hc : checkSector e = .single pos val) :
    s.checkHbm n = (s.corrected n (e ^^^ (val <<< (16 * pos))), true) := by
  rw [State.checkHbm, h]
  dsimp only
  rw [hc]

theorem State.checkHbm_bad {n e : Nat} (h : lookupKey n s.hbm.flips = some e) (hc : checkSector e = .bad ∨ checkSector e = .misaddress) :
    ∃ miss, s.checkHbm n = (s.uncorrectable n miss false, false) := by
  rcases hc with hc | hc
  · exact ⟨false, by rw [State.checkHbm, h]; dsimp only; rw [hc]⟩
  · exact ⟨true, by rw [State.checkHbm, h]; dsimp only; rw [hc]⟩

/-- A row's count leaves the event of a corrected sector (R270). -/
theorem State.on_ce_countRow (s : State) (stack row die : Nat) : (s.countRow stack row).on F.HBC_EVENTS.CE die = s.on F.HBC_EVENTS.CE die := by
  unfold State.countRow
  extract_lets key t n
  have ht : Frame ⟨[.hbm], [], false⟩ s t := by
    refine Frame.trans ?_ (.refl t)
    simp only [t]
    split
    · exact State.onHbm_frame s _
    · exact (s.rowRoom_frame stack).step (State.onHbm_frame _ _)
  have hgot : t.on F.HBC_EVENTS.CE die = s.on F.HBC_EVENTS.CE die := ht.on_eq _ _ _
  split
  · unfold State.startRemap
    split
    · exact hgot
    · rw [State.on, State.flag, State.get_put_apart (by decide) (by decide), ← State.on, hgot]
  · exact hgot

/-- A corrected sector is counted and recorded as an event (R265). -/
theorem State.corrected_spec (s : State) (n rest : Nat) :
    (s.corrected n rest).on F.HBC_EVENTS.CE (s.stackDie (n * 64)) = true ∧
      (s.corrected n rest).get F.HBC_COUNTS.CE (s.stackDie (n * 64)) =
        min (s.get F.HBC_COUNTS.CE (s.stackDie (n * 64)) + 1) (2 ^ F.HBC_COUNTS.CE.len - 1) := by
  unfold State.corrected
  extract_lets die row t u
  have hu : Frame ⟨recordParts, recordRegs, false⟩ t u :=
    Frame.ite (.refl t) (((Frame.refl t).step (State.onHbm_frame t _)).step (State.holderRecord_frame ..))
  have hres : (s.residue n rest).get F.HBC_COUNTS.CE die = s.get F.HBC_COUNTS.CE die := (s.residue_frame n rest).get_eq _ _ _
  refine ⟨?_, ?_⟩
  · rw [State.on_ce_countRow, hu.on_eq _ _ _]
    exact State.on_flag_same _ _ _ _ (by decide) (by decide)
  · rw [(u.countRow_frame (die - 80) row).get_eq _ _ _, hu.get_eq _ _ _,
      show t = ((s.residue n rest).bump F.HBC_COUNTS.CE 1 die).flag F.HBC_EVENTS.CE die from rfl, State.flag, State.get_put_reg (by decide),
      State.get_bump_same _ _ _ _ _ (by decide), hres]

/-- An uncorrectable sector is recorded, and its number noted (R264). -/
theorem State.uncorrectable_spec (s : State) (n : Nat) (miss write : Bool) :
    (s.uncorrectable n miss write).on F.HBC_EVENTS.UE (s.stackDie (n * 64)) = true ∧
      (s.uncorrectable n miss write).on F.HBC_UE_ADDR.VALID (s.stackDie (n * 64)) = true ∧
      (s.uncorrectable n miss write).get F.HBC_UE_ADDR.SECTOR (s.stackDie (n * 64)) = n % 2 ^ F.HBC_UE_ADDR.SECTOR.len := by
  unfold State.uncorrectable
  extract_lets die t u v
  have hrec := v.holderRecord_frame (unitId die 0 0) 6 n write
  have hv : ∀ f : Fld, f.reg ≠ .HBC_EVENTS ∨ f = F.HBC_EVENTS.UE → v.get f die = u.get f die := fun f hf => by
    cases miss with
    | false => rfl
    | true =>
      rcases hf with hf | rfl
      · exact State.get_put_reg fun h => hf h.symm
      · exact State.get_put_apart (by decide) (by decide)
  refine ⟨?_, ?_, ?_⟩
  · rw [hrec.on_eq _ _ _, State.on, hv _ (.inr rfl), State.get_put_reg (by decide),
      show t = (((s.bump F.HBC_COUNTS.UE 1 die).flag F.HBC_EVENTS.UE die).flag F.HBC_UE_ADDR.VALID die) from rfl, State.flag,
      State.get_put_reg (by decide), ← State.on]
    exact State.on_flag_same _ _ _ _ (by decide) (by decide)
  · rw [hrec.on_eq _ _ _, State.on, hv _ (.inl (by decide)), State.get_put_apart (by decide) (by decide), ← State.on]
    exact State.on_flag_same _ _ _ _ (by decide) (by decide)
  · rw [hrec.get_eq _ _ _, hv _ (.inl (by decide))]
    exact State.get_put_same _ _ _ _ _ (by decide)

/-! ### A scrub step -/

/-- The state in which a scrub step reads: the pass goes on (R269). -/
def State.scrubNext (s : State) (ms : Nat) : State :=
  s.onHbm fun h => { h with scrub := setKey (ms - 80) (((lookupKey (ms - 80) s.hbm.scrub).getD 0 + 1) % stackSectors) h.scrub }

/-- The sector that a scrub step reads. -/
def State.scrubSector (s : State) (ms : Nat) : Nat := s.stackSector (ms - 80) ((lookupKey (ms - 80) s.hbm.scrub).getD 0) / 64

/-- What a scrub step comes to. -/
def State.scrubbed (s : State) (ms : Nat) : State :=
  if !s.on F.HBC_SCRUB.ENABLE ms then s
  else match (s.scrubNext ms).checkHbm (s.scrubSector ms) with
    | (s, true) => s
    | (s, false) => s.flag F.HBC_EVENTS.SCRUB_UE ms

theorem exec_patrolScrubStep (ms : Nat) : exec (.patrolScrubStep ms []) s = act (.patrolScrubStep ms []) s fun s => s.scrubbed ms := rfl

theorem exec_scrub {ms : Nat} (hr : s.Reaches (.patrolScrubStep ms [])) : exec (.patrolScrubStep ms []) s = .next (s.scrubbed ms).settle :=
  exec_settled hr (exec_patrolScrubStep ms)

/-! ### The end of a row's copy -/

/-- The row's sectors with an error are read and copied (R270). -/
def State.rowCopied (s : State) (ms row : Nat) : State :=
  ((s.hbm.flips.map (·.1)).filter fun n => s.stackDie (n * 64) == ms && (s.hbmPlace (n * 64)).rowNo == row).foldl
    (fun s n => (s.checkHbm n).1) s

theorem State.rowCopied_frame (s : State) (ms row : Nat) :
    Frame ⟨recordParts, recordRegs ++ [.HBC_COUNTS, .HBC_EVENTS, .HBC_UE_ADDR], false⟩ s (s.rowCopied ms row) :=
  Frame.foldl fun t n => t.checkHbm_frame n

theorem State.rowCopied_of_sound (h : s.hbm.flips = []) (ms row : Nat) : s.rowCopied ms row = s := by
  rw [State.rowCopied, h]
  rfl

/-- The remap of a row is logged (R270, R284). -/
def State.logRemap (s : State) (ms stack row : Nat) : State :=
  let s := s.onHbm fun h => { h with copying := removeFirst (· == (stack, row)) h.copying, remaps := h.remaps ++ [(stack, row)] }
  let n := s.get F.HBC_SPARES.REMAPPED ms
  let s := s.setWord .HBC_REPAIR_LOG (BitVec.ofNat 64 (2 ^ 63 + row)) ms n
  ((s.put F.HBC_SPARES.REMAPPED (n + 1) ms).put F.HBC_SPARES.LEFT (s.get F.HBC_SPARES.LEFT ms - 1) ms).flag F.HBC_EVENTS.REPAIR_DONE ms

theorem State.logRemap_spec (s : State) (ms stack row : Nat) :
    let n := s.get F.HBC_SPARES.REMAPPED ms
    let t := s.logRemap ms stack row
    t.on F.HBC_EVENTS.REPAIR_DONE ms = true ∧ t.get F.HBC_SPARES.REMAPPED ms = (n + 1) % 2 ^ F.HBC_SPARES.REMAPPED.len ∧
      t.get F.HBC_SPARES.LEFT ms = s.get F.HBC_SPARES.LEFT ms - 1 ∧ t.word .HBC_REPAIR_LOG ms n = BitVec.ofNat 64 (2 ^ 63 + row) := by
  intro n t
  have hleft : s.get F.HBC_SPARES.LEFT ms < 2 ^ F.HBC_SPARES.LEFT.len := State.get_lt ..
  refine ⟨State.on_flag_same _ _ _ _ (by decide) (by decide), ?_, ?_, ?_⟩
  · show (State.flag _ _ _).get _ _ = _
    rw [State.flag, State.get_put_reg (by decide), State.get_put_apart (by decide) (by decide), State.get_put_same _ _ _ _ _ (by decide)]
    rfl
  · show (State.flag _ _ _).get _ _ = _
    rw [State.flag, State.get_put_reg (by decide), State.get_put_same _ _ _ _ _ (by decide), State.get_setWord_reg (by decide),
      State.get_onHbm]
    exact Nat.mod_eq_of_lt (by omega)
  · show (State.flag _ _ _).word _ _ _ = _
    rw [State.flag, State.word_put_reg (by decide), State.word_put_reg (by decide), State.word_put_reg (by decide)]
    exact State.word_setWord_same ..

theorem exec_rowRemapDone_found {ms stack row : Nat} (hr : s.Reaches (.rowRemapDone ms))
    (h : s.hbm.copying.find? (fun r => r.1 == ms - 80) = some (stack, row)) :
    exec (.rowRemapDone ms) s = .next ((s.rowCopied ms row).logRemap ms stack row).settle := by
  change execRowRemapDone ms s = _
  unfold execRowRemapDone
  refine (act_admitted hr).trans ?_
  rw [h]
  rfl

theorem exec_rowRemapDone_none {ms : Nat} (hr : s.Reaches (.rowRemapDone ms)) (h : s.hbm.copying.find? (fun r => r.1 == ms - 80) = none) :
    exec (.rowRemapDone ms) s = .next s := by
  change execRowRemapDone ms s = _
  unfold execRowRemapDone
  exact act_eq_next hr (by rw [h]) rfl

end

end Sys2Proof.Machine

open Sys2Proof Sys2Proof.Machine

/-- Settles O17: a scrub step by what the code finds; a finished copy is logged. -/
theorem scrubAndRepairFollowTheCode : Obligations.ScrubAndRepairFollowTheCode := by
  refine ⟨fun s ms hr => ⟨fun hoff => ?_, fun hon hnone => ?_, fun e pos val hon hsome hc => ?_, fun e hon hsome hc => ?_⟩,
    fun s ms hr => ⟨fun stack row hfind => ?_, fun hnone => ?_⟩⟩
  · exact exec_eq_next hr (exec_patrolScrubStep ms) (if_pos (by rw [hoff]; rfl))
  · have hrun : s.scrubbed ms = s.scrubNext ms := by
      rw [State.scrubbed, hon, if_neg (by decide), State.checkHbm_sound (s := s.scrubNext ms) (n := s.scrubSector ms) hnone]
    refine .of_alters hr (exec_patrolScrubStep ms) ?_ ?_ <;> rw [hrun]
    · exact (State.Alters.refl s).frame (State.onHbm_frame s _) ⟨rfl, rfl⟩ (by simp)
    · rfl
  · have hrun : s.scrubbed ms = (s.scrubNext ms).corrected (s.scrubSector ms) (e ^^^ (val <<< (16 * pos))) := by
      rw [State.scrubbed, hon, if_neg (by decide), State.checkHbm_single (s := s.scrubNext ms) (n := s.scrubSector ms) hsome hc]
    obtain ⟨hce, hcount⟩ := (s.scrubNext ms).corrected_spec (s.scrubSector ms) (e ^^^ (val <<< (16 * pos)))
    have hsettle := (s.scrubbed ms).settle_frame
    refine ⟨_, exec_scrub hr, ?_, ?_⟩
    · rw [hsettle.on_eq _ _ _, hrun]
      exact hce
    · rw [hsettle.get_eq _ _ _, hrun]
      exact hcount
  · obtain ⟨miss, hcheck⟩ := State.checkHbm_bad (s := s.scrubNext ms) hsome hc
    have hrun : s.scrubbed ms = ((s.scrubNext ms).uncorrectable (s.scrubSector ms) miss false).flag F.HBC_EVENTS.SCRUB_UE ms := by
      rw [State.scrubbed, hon, if_neg (by decide)]
      exact congrArg (fun p : State × Bool => match p with | (s, true) => s | (s, false) => s.flag F.HBC_EVENTS.SCRUB_UE ms) hcheck
    obtain ⟨hue, hvalid, hsector⟩ := (s.scrubNext ms).uncorrectable_spec (s.scrubSector ms) miss false
    have hsettle := (s.scrubbed ms).settle_frame
    refine ⟨_, exec_scrub hr, ?_, ?_, ?_, ?_⟩
    · rw [hsettle.on_eq _ _ _, hrun]
      exact State.on_flag_same _ _ _ _ (by decide) (by decide)
    · rw [hsettle.on_eq _ _ _, hrun, State.on, State.flag, State.get_put_apart (by decide) (by decide), ← State.on]
      exact hue
    · rw [hsettle.on_eq _ _ _, hrun, State.on, State.flag, State.get_put_reg (by decide), ← State.on]
      exact hvalid
    · rw [hsettle.get_eq _ _ _, hrun, State.flag, State.get_put_reg (by decide)]
      exact hsector
  · intro n
    have hcopied := s.rowCopied_frame ms row
    have hsettle := ((s.rowCopied ms row).logRemap ms stack row).settle_frame
    obtain ⟨hdone, hremapped, hleft, hlog⟩ := (s.rowCopied ms row).logRemap_spec ms stack row
    have hn : (s.rowCopied ms row).get F.HBC_SPARES.REMAPPED ms = n := hcopied.get_eq _ _ _
    rw [hn] at hremapped hlog
    refine ⟨_, exec_rowRemapDone_found hr hfind, ?_, ?_, ?_, ?_, fun hsound => ?_⟩
    · rw [hsettle.on_eq _ _ _, hdone]
    · rw [hsettle.get_eq _ _ _, hremapped]
    · rw [hsettle.get_eq _ _ _, hleft, hcopied.get_eq _ _ _]
    · rw [hsettle.words rfl _ _ _ (by decide), hlog]
    · rw [State.rowCopied_of_sound hsound, State.settle_eq (s := s.logRemap ms stack row) hr.2.2]
      rfl
  · exact exec_rowRemapDone_none hr hnone

end

/-! # The place of a fault record

The fault queue and the wadi (R442 to R445), haboob mode (R544, R547) and forwarded copies (R541). -/

section

namespace Sys2Proof.Machine

/-! ### Haboob mode stays until it ends -/

/-- Haboob mode is on, and its beginning noted (R544, R547). -/
def State.InHaboob (s : State) : Prop := s.on F.FLT_HABOOB.ACTIVE = true ∧ s.on F.FLT_HABOOB.ENTERED = true

section
variable {K : Touch} {s t : State}

theorem State.InHaboob.frame (h : s.InHaboob) (g : Frame K s t) (hk : K.any = false ∧ Reg.FLT_HABOOB ∉ K.regs := by decide) : t.InHaboob := by
  simpa only [State.InHaboob, State.on, State.get, g.words hk.1 _ _ _ hk.2] using h

theorem State.InHaboob.put (h : s.InHaboob) {f : Fld} {v d i : Nat} (hf : f.reg ≠ .FLT_HABOOB ∨ f.lo + f.len ≤ 62) : (s.put f v d i).InHaboob := by
  have hget : ∀ g : Fld, g = F.FLT_HABOOB.ACTIVE ∨ g = F.FLT_HABOOB.ENTERED → (s.put f v d i).get g = s.get g := fun g hg => by
    rcases hf with hf | hf
    · exact State.get_put_reg (by rcases hg with rfl | rfl <;> exact hf)
    · exact State.get_put_apart (by rcases hg with rfl | rfl <;> simp only <;> omega) (by omega)
  simpa only [State.InHaboob, State.on, hget _ (.inl rfl), hget _ (.inr rfl)] using h

theorem State.InHaboob.ite {c : Prop} [Decidable c] (h : s.InHaboob) (g : t.InHaboob) : (if c then s else t).InHaboob := by split <;> assumption

theorem State.InHaboob.foldl {α : Type} {f : State → α → State} (hf : ∀ (s : State) x, s.InHaboob → (f s x).InHaboob) (l : List α)
    (h : s.InHaboob) : (l.foldl f s).InHaboob := by
  induction l generalizing s with
  | nil => exact h
  | cons x l ih => exact ih (hf s x h)

theorem State.InHaboob.fence (h : s.InHaboob) (die : Nat) : (s.fence die).InHaboob := by
  unfold State.fence State.makeFatal
  extract_lets marked
  have hmarked : marked.InHaboob := (h.put (.inl (by decide))).put (.inr (by decide))
  exact .ite hmarked (.ite hmarked (((hmarked.put (.inl (by decide))).put (.inl (by decide))).frame (State.onFlt_fatal_frame ..)))

theorem State.InHaboob.coalesceRecord (h : s.InHaboob) (r : FaultRec) : (s.coalesceRecord r).InHaboob := by
  unfold State.coalesceRecord
  extract_lets same dieSource sameDie more marked
  have hmarked : marked.InHaboob := h.put (.inr (by decide))
  exact .ite h (.ite h (.ite hmarked hmarked))

/-- A record of a module in haboob mode, or the one that begins it (R544). -/
theorem State.collect_inHaboob (r : FaultRec) (h : s.InHaboob ∨ s.on F.FLT_HABOOB.ACTIVE = false ∧
    s.get F.FLT_HABOOB.ENTER < s.get F.FLT_RATE.CURRENT + 1 ∧ s.get F.FLT_RATE.CURRENT + 1 < 2 ^ F.FLT_RATE.CURRENT.len) :
    (s.collect r).InHaboob := by
  have hcounted : ∀ f : Fld, f.reg = .FLT_HABOOB → (s.counted r).get f = s.get f := fun f hf => by
    have hword := s.word_habo_counted r 0 0
    rw [State.get, State.get, hf, hword]
  unfold State.collect
  extract_lets die counted peaked entered fenced
  have hpeaked : peaked = s.counted r := rfl
  have hentered : entered.InHaboob := by
    rcases h with h | ⟨hoff, hlow, hroom⟩
    · have hin : (s.counted r).InHaboob := by
        simpa only [State.InHaboob, State.on, hcounted F.FLT_HABOOB.ACTIVE rfl, hcounted F.FLT_HABOOB.ENTERED rfl] using h
      simp only [entered, hpeaked, hin.1, Bool.not_true, Bool.false_and, Bool.false_eq_true, if_false]
      exact hin
    · have hoff' : (s.counted r).on F.FLT_HABOOB.ACTIVE = false := by rwa [State.on, hcounted F.FLT_HABOOB.ACTIVE rfl, ← State.on]
      have hlow' : (s.counted r).get F.FLT_HABOOB.ENTER < (s.counted r).get F.FLT_RATE.CURRENT := by
        rw [hcounted F.FLT_HABOOB.ENTER rfl, s.get_current_counted r]
        omega
      simp only [entered, hpeaked, hoff', hlow', decide_true, Bool.not_false, Bool.and_self, if_true]
      refine ⟨?_, State.on_flag_same _ _ _ _ (by decide) (by decide)⟩
      rw [State.on, State.flag, State.get_put_apart (by decide) (by decide), ← State.on]
      exact State.on_flag_same _ _ _ _ (by decide) (by decide)
  have hfenced : fenced.InHaboob := .ite (hentered.fence die) hentered
  exact .ite hfenced (.ite (hfenced.coalesceRecord r) (hfenced.frame (State.writeRecord_frame _ r)))

theorem State.InHaboob.collect (h : s.InHaboob) (r : FaultRec) : (s.collect r).InHaboob := State.collect_inHaboob r (.inl h)

theorem State.InHaboob.failOp (h : s.InHaboob) (u k cause : Nat) (kind : ErrorKind) : (s.failOp u k cause kind).InHaboob := by
  unfold State.failOp
  extract_lets o recorded failed
  have hrecorded : recorded.InHaboob := h.frame (State.recordError_frame (K := ⟨[], errorRegs, false⟩) s u o.segment o.opclass cause id
    (by decide +kernel) fun t => .refl t)
  have hfailed : failed.InHaboob := (hrecorded.frame (State.onOp_frame ..)).frame (State.onUnit_frame ..)
  refine .ite (h.frame (State.onOp_frame ..)) ?_
  cases kind with
  | access => exact hfailed.collect _
  | operation => exact hfailed.collect _

theorem State.InHaboob.stopDie (h : s.InHaboob) (die : Nat) : (s.stopDie die).InHaboob := by
  unfold State.stopDie
  refine .foldl (fun s p h => ?_) _ h
  refine .foldl (fun s k h => ?_) _ (h.frame (State.onUnit_frame ..))
  extract_lets o
  exact .ite (h.failOp _ _ _ _) h

theorem State.InHaboob.raiseBreak (h : s.InHaboob) (cause unit segment : Nat) (halt : Bool) : (s.raiseBreak cause unit segment halt).InHaboob := by
  unfold State.raiseBreak
  extract_lets noUnit u seg tick event halted extra recorded reported
  have hevent : event.InHaboob := h.put (.inl (by decide))
  have hhalted : halted.InHaboob := .ite (hevent.frame (State.onSched_frame ..)) hevent
  have hextra : extra.InHaboob := hhalted.put (.inl (by decide))
  have hreported : reported.InHaboob := (hhalted.frame (State.recordBreak_frame ..)).collect _
  exact .ite h (.ite (.ite (hextra.frame (State.sendAbort_frame ..)) hextra)
    ((hreported.frame (State.abortStep_frame _)).frame (State.sendAbort_frame ..)))

theorem State.InHaboob.haltFatal (h : s.InHaboob) : s.haltFatal.InHaboob := by
  unfold State.haltFatal
  split
  · exact h
  · next d rest _ =>
    extract_lets dies stopped seg recorded told
    have hstopped : stopped.InHaboob := .foldl (fun s p h => h.stopDie p) _ (h.frame (State.onFlt_fatal_frame s _))
    have hrecorded : recorded.InHaboob := hstopped.frame (State.recordHalt_frame ..)
    have htold : told.InHaboob := (hrecorded.frame (State.sendAbort_frame ..)).frame (State.onSched_frame ..)
    exact .ite (hrecorded.raiseBreak _ _ _ _) (.ite htold (htold.frame (State.setSched_frame ..)))

/-- The halts that follow a command leave haboob mode on. -/
theorem State.InHaboob.settle (h : s.InHaboob) : s.settle.InHaboob := by
  unfold State.settle
  exact .ite h (h.haltFatal.haltFatal.frame (State.onFlt_fatal_frame ..))

end

/-! ### The queue and the wadi -/

theorem FaultRec.length_bytes (r : FaultRec) (phase wadi : Bool) : (r.bytes phase wadi).length = 64 := by
  simp [FaultRec.bytes, withCrc, toLE_length, zeros]

section
variable {s : State} {r : FaultRec}

/-- Where the next record of the fault queue stands (R442). -/
def State.queuePlace (s : State) : Nat := s.get F.FLT_QBASE.BASE <<< 17 + 64 * (s.get F.FLT_QPTR.TAIL % 4096)

/-- Where a wadi slot stands (R443). -/
def State.wadiPlace (s : State) (slot : Nat) : Nat := s.get F.FLT_WADI_BASE.BASE <<< 17 + 64 * slot

/-- A record that the fault queue takes (R442). -/
theorem State.queueRecord_spec (hw : Memory.wf s.mem = true) (hback : s.backedSpan s.queuePlace 64 = true) :
    let tail := s.get F.FLT_QPTR.TAIL
    (s.queueRecord r).get F.FLT_QPTR.TAIL = (tail + 1) % 8192 ∧ (s.queueRecord r).bytes s.queuePlace 64 = r.bytes (!bit tail 12) false ∧
      ∀ b, b < s.queuePlace ∨ s.queuePlace + 64 ≤ b → (s.queueRecord r).byte b = s.byte b := by
  intro tail
  have hlen := r.length_bytes (!bit tail 12) false
  have hmem := State.mem_writeSectors (s := s) (a := s.queuePlace) (data := r.bytes (!bit tail 12) false) (by rwa [hlen])
  obtain ⟨hbytes, hrest⟩ := State.bytes_of_mem (t := s.queueRecord r) hw hmem
  rw [hlen] at hbytes hrest
  refine ⟨?_, hbytes, hrest⟩
  rw [State.queueRecord, State.addWrap, State.get_put_same _ _ _ _ _ (by decide), (State.writeSectors_frame s _ _).get_eq _ _ _]
  rfl

/-- A record that takes a wadi slot (R444, R445). -/
theorem State.wadiRecord_spec (hw : Memory.wf s.mem = true) {slot : Nat} (hback : s.backedSpan (s.wadiPlace slot) 64 = true) :
    (s.wadiRecord slot r).bytes (s.wadiPlace slot) 64 = r.bytes false true ∧ slot ∈ (s.wadiRecord slot r).flt.wadi ∧
      (s.wadiRecord slot r).on F.FLT_STATUS.OVERFLOW = true := by
  have hlen := r.length_bytes false true
  have hmem := State.mem_writeSectors (s := s) (a := s.wadiPlace slot) (data := r.bytes false true) (by rwa [hlen])
  obtain ⟨hbytes, -⟩ := State.bytes_of_mem (t := s.wadiRecord slot r) hw hmem
  rw [hlen] at hbytes
  refine ⟨hbytes, mem_insertNat.2 (.inl rfl), State.on_flag_same _ _ _ _ (by decide) (by decide)⟩

theorem State.placeRecord_queued {own : Bool} (he : s.on F.FLT_QBASE.ENABLE = true) (hf : s.fltFull = false)
    (ho : s.on F.FLT_STATUS.OVERFLOW = false) : s.placeRecord r own = s.queueRecord r := by
  unfold State.placeRecord
  extract_lets full enabled t
  have ht : t = s := by simp only [t, full, enabled, hf, Bool.and_false, Bool.false_eq_true, if_false]
  rw [ht]
  exact if_pos (by simp [full, enabled, he, hf, ho])

/-- The state in which a record finds no place in the queue. -/
def State.queueShut (s : State) : State :=
  if s.on F.FLT_QBASE.ENABLE && s.fltFull then s.flag F.FLT_EVENTS.QUEUE_FULL else s

theorem State.queueShut_frame (s : State) : Frame ⟨[], [.FLT_EVENTS], false⟩ s s.queueShut :=
  Frame.ite (State.flag_frame (h := by decide) ..) (.refl s)

/-- A record of a unit with a wadi slot, which the queue does not take (R443 to R445). -/
theorem State.placeRecord_shut (hshut : s.on F.FLT_QBASE.ENABLE = false ∨ s.fltFull = true ∨ s.on F.FLT_STATUS.OVERFLOW = true)
    (hcap : isFaultCapable r.unit = true) : s.placeRecord r true =
      if s.flt.wadi.contains (wadiSlot r.unit) then s.queueShut.onUnit r.unit fun x => { x with blocked := x.blocked ++ [r] }
      else s.queueShut.wadiRecord (wadiSlot r.unit) r := by
  have hon : s.queueShut.on F.FLT_STATUS.OVERFLOW = s.on F.FLT_STATUS.OVERFLOW := s.queueShut_frame.on_eq _ _ _
  have hflt : s.queueShut.flt = s.flt := s.queueShut_frame.flt_eq
  unfold State.placeRecord
  extract_lets full enabled t
  have ht : t = s.queueShut := rfl
  rw [ht, hon, hflt, if_neg, if_pos (by rw [hcap]; rfl)]
  rcases hshut with h | h | h <;> simp [full, enabled, h]

/-! ### A record of a calm module -/

/-- The state in which a record finds its place: it is counted, and a copy may have gone out (R541, R544). -/
def State.reported (s : State) (r : FaultRec) : State := (s.counted r).forwardRecord r

theorem State.reported_frame (s : State) (r : FaultRec) : Frame ⟨[.vrt], [.FLT_RATE, .FLT_DIE_HEALTH], false⟩ s (s.reported r) :=
  ((Frame.refl s).step (s.counted_frame r)).step (State.forwardRecord_frame _ r)

theorem State.collect_places (hc : s.calm) (hm : ¬ (isMemory (unitDie r.unit) = true ∧ r.cause = 7)) :
    s.collect r = (s.reported r).placeRecord r true := by
  rw [State.collect_eq (n := 7) (.of_calm hc), if_neg]
  · rfl
  · simp only [Bool.and_eq_true, beq_iff_eq]
    exact fun h => hm ⟨h.1.1, h.2⟩

/-- What the report of a calm module's record leaves (R544). -/
theorem State.get_window_reported (s : State) (r : FaultRec) : (s.reported r).get F.FLT_DIE_HEALTH.WINDOW (unitDie r.unit) =
    min (s.get F.FLT_DIE_HEALTH.WINDOW (unitDie r.unit) + 1) (2 ^ F.FLT_DIE_HEALTH.WINDOW.len - 1) := by
  rw [State.reported, (State.forwardRecord_frame _ r).get_eq _ _ _, State.counted, State.get_put_apart (by decide) (by decide),
    State.get_bump_same _ _ _ _ _ (by decide), State.bump, State.get_put_reg (by decide)]

theorem State.get_current_reported (hc : s.calm) : (s.reported r).get F.FLT_RATE.CURRENT = s.get F.FLT_RATE.CURRENT + 1 := by
  have hroom := hc.2
  have hlt := s.get_lt F.FLT_HABOOB.ENTER 0 0
  rw [State.reported, (State.forwardRecord_frame _ r).get_eq _ _ _, s.get_current_counted r]
  simp only [show F.FLT_HABOOB.ENTER.len = 16 from rfl, show F.FLT_RATE.CURRENT.len = 32 from rfl] at hlt ⊢
  omega

theorem State.fltFull_congr {t : State} (h : ∀ f : Fld, f.reg = .FLT_QPTR → t.get f = s.get f) : t.fltFull = s.fltFull := by
  rw [State.fltFull, State.fltFull, h F.FLT_QPTR.TAIL rfl, h F.FLT_QPTR.HEAD rfl]

end

end Sys2Proof.Machine

open Sys2Proof Sys2Proof.Machine

/-- Where a calm module's record goes (R442 to R445). -/
theorem faultRecord_finds_place {s : State} {r : FaultRec} (hinv : s.Inv) (hr : s.Reaches (.faultRecord r)) (hc : s.calm)
    (hm : ¬(isMemory (unitDie r.unit) = true ∧ r.cause = 7)) :
    let tail := s.get F.FLT_QPTR.TAIL
    let a := s.queuePlace
    let slot := wadiSlot r.unit
    let w := s.wadiPlace slot
    (s.on F.FLT_QBASE.ENABLE = true → s.fltFull = false → s.on F.FLT_STATUS.OVERFLOW = false → s.backedSpan a 64 = true →
      ∃ t, exec (.faultRecord r) s = .next t ∧ t.get F.FLT_QPTR.TAIL = (tail + 1) % 8192 ∧
        t.bytes a 64 = r.bytes (!bit tail 12) false ∧ (∀ b, b < a ∨ a + 64 ≤ b → t.byte b = s.byte b) ∧
        t.get F.FLT_RATE.CURRENT = s.get F.FLT_RATE.CURRENT + 1 ∧
        t.get F.FLT_DIE_HEALTH.WINDOW (unitDie r.unit) =
          min (s.get F.FLT_DIE_HEALTH.WINDOW (unitDie r.unit) + 1) (2 ^ F.FLT_DIE_HEALTH.WINDOW.len - 1)) ∧
    (s.on F.FLT_QBASE.ENABLE = false ∨ s.fltFull = true ∨ s.on F.FLT_STATUS.OVERFLOW = true → isFaultCapable r.unit = true →
      (slot ∉ s.flt.wadi → s.backedSpan w 64 = true → ∃ t, exec (.faultRecord r) s = .next t ∧
        t.bytes w 64 = r.bytes false true ∧ slot ∈ t.flt.wadi ∧ t.on F.FLT_STATUS.OVERFLOW = true ∧
        t.get F.FLT_QPTR.TAIL = tail) ∧
      (slot ∈ s.flt.wadi → ∃ t, exec (.faultRecord r) s = .next t ∧ (t.unit r.unit).blocked = (s.unit r.unit).blocked ++ [r] ∧
        t.mem = s.mem)) := by
  intro tail a slot w
  have hrep := s.reported_frame r
  have hmem := hrep.mem_eq
  have hwf : Memory.wf (s.reported r).mem = true := by rw [hmem]; exact hinv.mem
  have hgo : exec (.faultRecord r) s = .next ((s.reported r).placeRecord r true) := by
    refine exec_eq_next (effect := fun s => s.collect r) hr rfl (State.collect_places hc hm) ?_
    exact ((s.reported r).placeRecord_frame r true).fatal_eq.trans hrep.fatal_eq
  have hon : ∀ f : Fld, f.reg ≠ .FLT_RATE → f.reg ≠ .FLT_DIE_HEALTH → (s.reported r).on f = s.on f := fun f h1 h2 =>
    hrep.on_eq _ _ _ (by simp [h1, h2])
  have hfull : (s.reported r).fltFull = s.fltFull := State.fltFull_congr fun f hf => hrep.get_eq f 0 0 (by rw [hf]; decide)
  have htail : (s.reported r).get F.FLT_QPTR.TAIL = tail := hrep.get_eq _ _ _
  refine ⟨fun he hf ho hback => ?_, fun hshut hcap => ?_⟩
  · have hplace : (s.reported r).queuePlace = a := by
      rw [State.queuePlace, htail, hrep.get_eq _ _ _]
      rfl
    have hqueued := State.placeRecord_queued (s := s.reported r) (r := r) (own := true) (by rwa [hon _ (by decide) (by decide)])
      (by rwa [hfull]) (by rwa [hon _ (by decide) (by decide)])
    obtain ⟨hnext, hbytes, hrest⟩ := State.queueRecord_spec (s := s.reported r) (r := r) hwf
      (by rwa [hplace, State.backedSpan_congr (hrep.get_eq _ _ _)])
    rw [hplace] at hbytes hrest
    rw [htail] at hnext hbytes
    have hqueue := (s.reported r).queueRecord_frame r
    refine ⟨_, hgo, ?_⟩
    rw [hqueued]
    refine ⟨hnext, hbytes, fun b hb => (hrest b hb).trans (State.byte_congr hmem b), ?_, ?_⟩
    · rw [hqueue.get_eq _ _ _, State.get_current_reported hc]
    · rw [hqueue.get_eq _ _ _, State.get_window_reported]
  · have hflt : (s.reported r).flt = s.flt := hrep.flt_eq
    have hshut' : (s.reported r).on F.FLT_QBASE.ENABLE = false ∨ (s.reported r).fltFull = true ∨
        (s.reported r).on F.FLT_STATUS.OVERFLOW = true := by
      rwa [hon _ (by decide) (by decide), hfull, hon F.FLT_STATUS.OVERFLOW (by decide) (by decide)]
    have hrun := State.placeRecord_shut hshut' hcap
    have hframe : Frame ⟨[.vrt], [.FLT_RATE, .FLT_DIE_HEALTH, .FLT_EVENTS], false⟩ s (s.reported r).queueShut :=
      ((Frame.refl s).step hrep).step (s.reported r).queueShut_frame
    rw [hflt] at hrun
    refine ⟨fun hfree hback => ?_, fun hused => ?_⟩
    · have hplace : (s.reported r).queueShut.wadiPlace slot = w := by rw [State.wadiPlace, hframe.get_eq _ _ _]; rfl
      rw [if_neg (by simpa using hfree)] at hrun
      obtain ⟨hbytes, hslot, hover⟩ := State.wadiRecord_spec (s := (s.reported r).queueShut) (r := r) (slot := slot)
        (by rw [hframe.mem_eq]; exact hinv.mem) (by rwa [hplace, State.backedSpan_congr (hframe.get_eq _ _ _)])
      rw [hplace] at hbytes
      refine ⟨_, hgo, ?_⟩
      rw [hrun]
      exact ⟨hbytes, hslot, hover, ((State.wadiRecord_frame _ slot r).get_eq _ _ _).trans (hframe.get_eq _ _ _)⟩
    · rw [if_pos (by simpa using hused)] at hrun
      refine ⟨_, hgo, ?_⟩
      rw [hrun]
      refine ⟨?_, hframe.mem_eq⟩
      rw [State.unit_onUnit, State.unit, State.unit, hframe.sched_eq]

/-- Settles O42: a record by the place it finds; the count that begins haboob mode; a copy as a record that is not counted. -/
theorem recordsFindTheirPlace : Obligations.RecordsFindTheirPlace := by
  refine ⟨fun s r hinv hr => ⟨fun hc hm => faultRecord_finds_place hinv hr hc hm, fun hoff hlow hroom => ?_⟩,
    fun s rec hinv hr => ⟨fun hoff => ?_, fun hv he hf ho hback => ?_⟩⟩
  · obtain ⟨hactive, hentered⟩ := (State.collect_inHaboob r (.inr ⟨hoff, hlow, hroom⟩)).settle
    exact ⟨_, exec_settled (effect := fun s => s.collect r) hr rfl, hactive, hentered⟩
  · exact exec_eq_next (effect := fun s => s.acceptCopy rec) hr rfl (if_neg (by rw [hoff]; decide))
  · have hrun : s.acceptCopy rec = s.queueRecord (.ofBytes rec) := (if_pos hv).trans (State.placeRecord_queued he hf ho)
    obtain ⟨hnext, hbytes, -⟩ := State.queueRecord_spec (r := .ofBytes rec) hinv.mem hback
    have hframe := s.queueRecord_frame (.ofBytes rec)
    exact ⟨_, exec_eq_next (effect := fun s => s.acceptCopy rec) hr rfl hrun hframe.fatal_eq, hnext, hbytes, hframe.get_eq _ _ _⟩

end

/-! # Invalidations and resumptions

The fault of an access (R439), invalidations of the translation cache (R437, R438) and the resumption of a stalled unit (R440). -/

section

namespace Sys2Proof.Machine

section
variable {s : State}

/-! ### An access that faults -/

/-- The stall of a unit is no part of its operations. -/
theorem State.stall_onOp (s : State) (u k : Nat) (f : Op → Op) : ((s.onOp u k f).unit u).stall = (s.unit u).stall := by
  rw [State.onOp, State.unit_onUnit]

/-- The access of an operation faults in a calm module: its unit stalls, the operation waits, and the fault is counted (R439). -/
theorem State.faultAccess_spec {u k : Nat} (hk : k < (s.unit u).ops.length) (ha : (s.opAt u k).ahead = false) (hcut : (s.opAt u k).cut = false)
    (hc : s.Calm 1) (asid cause va : Nat) (write : Bool) :
    ∃ t, s.faultAccess u k asid cause va write = t ∧ (t.unit u).stall = some ⟨va, write, asid, (s.opAt u k).entry⟩ ∧ (t.opAt u k).state = .waiting ∧ t.flt.fatal = s.flt.fatal ∧
      t.get F.XLT_COUNTS.FAULTS (unitDie u) = min (s.get F.XLT_COUNTS.FAULTS (unitDie u) + 1) (2 ^ F.XLT_COUNTS.FAULTS.len - 1) := by
  unfold State.faultAccess
  extract_lets o counted stalled recorded
  have hops : s.OpsStand recorded := (State.OpsStand.of_sched (t := counted) rfl).trans (State.faultOf_opsStand _ _ _ _)
  have hcounted : State.Spares 0 s counted :=
    .of_frame (State.bump_frame (K := ⟨[], [.XLT_COUNTS], false⟩) (h := by decide) s F.XLT_COUNTS.FAULTS 1 (unitDie u) 0)
  have hfatal : recorded.flt.fatal = s.flt.fatal :=
    ((hcounted.trans (State.faultOf_spares counted u cause _)) 0 hc).2
  have hget : recorded.get F.XLT_COUNTS.FAULTS (unitDie u) = counted.get F.XLT_COUNTS.FAULTS (unitDie u) :=
    (counted.faultOf_frame u cause _).get_eq F.XLT_COUNTS.FAULTS _ _
  have hend : Frame ⟨[.sched], [], false⟩ recorded ((recorded.onUnit u fun x => { x with stall := some ⟨va, write, asid, o.entry⟩ }).onOp u k
      fun o => { o with state := .waiting }) := (State.onUnit_frame recorded u _).step (State.onOp_frame _ u k _)
  refine ⟨_, (if_neg (by simp [o, ha])).trans (if_pos (by simp [stalled, o, hcut])), ?_, ?_, hend.fatal_eq.trans hfatal, ?_⟩
  · rw [State.stall_onOp, State.unit_onUnit]
  · rw [State.opAt_onOp _ (by rw [State.unit_onUnit]; exact (hops u).symm ▸ hk)]
  · rw [hend.get_eq _ _ _, hget]
    exact State.get_bump_same _ _ _ _ _ (by decide)

/-- A waiting operation is one of the entry that waits. -/
theorem State.waitingOp_spec {u e k : Nat} (h : s.waitingOp u e = some k) :
    k < (s.unit u).ops.length ∧ (s.opAt u k).entry = e ∧ (s.opAt u k).state = .waiting := by
  have hp := State.opAt_of_findIdx h
  simp only [Bool.and_eq_true, beq_iff_eq] at hp
  exact ⟨length_of_findIdx h, hp.1, hp.2⟩

theorem State.faultWaiter_stream {w : Waiter} {k : Nat} (hs : isStreamUnit w.unit = true) (hw : s.waitingOp w.unit w.op = some k) (asid cause : Nat) :
    s.faultWaiter asid cause w = s.faultAccess w.unit k asid cause w.vaddr w.write := by
  unfold State.faultWaiter
  rw [if_pos hs, hw]

theorem State.lookupVa_congr {t : State} (h : t.xlt = s.xlt) (die asid va : Nat) (write : Bool) :
    t.lookupVa die asid va write = s.lookupVa die asid va write := by
  rw [State.lookupVa, State.lookupVa, State.xltFind, State.xltFind, h]

/-! ### Invalidations -/

/-- The scope of an invalidation as it is written, and the counts as the write leaves them (R437, R447). -/
def State.invalScope (s : State) (die v : Nat) : State :=
  let s := ((s.put F.XLT_INVAL.SCOPE (bits v 44 2) die).put F.XLT_INVAL.PAGES (bits v 28 16) die).put F.XLT_INVAL.ASID (bits v 0 12) die
  if bit v 61 then s.setWord .XLT_COUNTS 0 die else s

theorem State.invalScope_spec (s : State) (die v : Nat) :
    let t := s.invalScope die v
    t.get F.XLT_INVAL.SCOPE die = bits v 44 2 ∧ t.get F.XLT_INVAL.PAGES die = bits v 28 16 ∧ t.get F.XLT_INVAL.ASID die = bits v 0 12 ∧
      t.get F.XLT_INVAL_VA.VA die = s.get F.XLT_INVAL_VA.VA die ∧ t.on F.XLT_INVAL.DONE die = s.on F.XLT_INVAL.DONE die ∧
      ∀ p : Part, p.same s t := by
  have hclear : ∀ (u : State) (f : Fld), f.reg ≠ .XLT_COUNTS → (if bit v 61 then u.setWord .XLT_COUNTS 0 die else u).get f die = u.get f die :=
    fun u f hf => by
      split
      · exact State.get_setWord_reg hf.symm
      · rfl
  intro t
  have hget : ∀ f : Fld, f.reg ≠ .XLT_COUNTS → t.get f die =
      (((s.put F.XLT_INVAL.SCOPE (bits v 44 2) die).put F.XLT_INVAL.PAGES (bits v 28 16) die).put F.XLT_INVAL.ASID (bits v 0 12) die).get f die :=
    fun f hf => hclear _ f hf
  refine ⟨?_, ?_, ?_, ?_, ?_, fun p => ?_⟩
  · rw [hget _ (by decide), State.get_put_apart (by decide) (by decide), State.get_put_apart (by decide) (by decide),
      State.get_put_same _ _ _ _ _ (by decide)]
    exact Nat.mod_eq_of_lt (bits_lt v 44 2)
  · rw [hget _ (by decide), State.get_put_apart (by decide) (by decide), State.get_put_same _ _ _ _ _ (by decide)]
    exact Nat.mod_eq_of_lt (bits_lt v 28 16)
  · rw [hget _ (by decide), State.get_put_same _ _ _ _ _ (by decide)]
    exact Nat.mod_eq_of_lt (bits_lt v 0 12)
  · rw [hget _ (by decide), State.get_put_reg (by decide), State.get_put_reg (by decide), State.get_put_reg (by decide)]
  · rw [State.on, hget _ (by decide), State.get_put_apart (by decide) (by decide), State.get_put_apart (by decide) (by decide),
      State.get_put_apart (by decide) (by decide), ← State.on]
  · show p.same s (if bit v 61 then _ else _)
    split <;> cases p <;> rfl

theorem State.invalWrite_start {die v : Nat} (h : bit v 63 = true) : s.invalWrite die v = (s.invalScope die v).invalidateXlt die := if_pos h

theorem State.invalidateXlt_busy {die : Nat} (h : s.on F.XLT_INVAL.DONE die = false) :
    s.invalidateXlt die = s.flag F.XLT_EVENTS.INVAL_BUSY die := by
  unfold State.invalidateXlt
  extract_lets
  exact if_neg (by simp [h])

/-- An invalidation whose scope names nothing is refused (R437). -/
theorem State.invalidateXlt_bad {die : Nat} (h : s.on F.XLT_INVAL.DONE die = true)
    (hbad : s.get F.XLT_INVAL.SCOPE die = 3 ∨ s.get F.XLT_INVAL.SCOPE die = 2 ∧ s.get F.XLT_INVAL.PAGES die = 0) :
    s.invalidateXlt die = s.flag F.XLT_EVENTS.INVAL_BAD die := by
  unfold State.invalidateXlt
  extract_lets
  exact (if_pos h).trans (if_pos hbad)

/-- What an invalidation removes and marks (R437). -/
theorem State.invalidateXlt_removes {die : Nat} (hd : s.on F.XLT_INVAL.DONE die = true) {scope pages asid lo : Nat}
    (hscope : s.get F.XLT_INVAL.SCOPE die = scope) (hpages : s.get F.XLT_INVAL.PAGES die = pages) (hasid : s.get F.XLT_INVAL.ASID die = asid)
    (hlo : s.get F.XLT_INVAL_VA.VA die <<< 16 = lo) (h3 : scope ≠ 3) (h2 : scope ≠ 2 ∨ pages ≠ 0) :
    ∃ t, s.invalidateXlt die = t ∧ t.on F.XLT_INVAL.DONE die = false ∧ (∀ p : Part, p ≠ .xlt → p.same s t) ∧
      (∀ e, e ∈ t.xlt.entries ↔ e ∈ s.xlt.entries ∧
        ¬(e.die = die ∧ covers scope asid lo (pages <<< 16) e.asid (e.page <<< e.size) (2 ^ e.size) = true)) ∧
      t.xlt.slots = s.xlt.slots.map fun m =>
        if m.die = die ∧ covers scope asid lo (pages <<< 16) m.asid (m.granule <<< 16) 65536 = true then { m with stale := true } else m := by
  have hnot : ¬ (scope = 3 ∨ scope = 2 ∧ pages = 0) := by omega
  unfold State.invalidateXlt
  rw [hscope, hpages, hasid, hlo]
  extract_lets scope pages asid lo len gone busy
  refine ⟨_, (if_pos hd).trans (if_neg hnot), ?_, fun p hp => ?_, fun e => ?_, ?_⟩
  · rw [State.on, State.get_onXlt, State.get_put_same _ _ _ _ _ (by decide)]
    rfl
  · exact Part.same_trans (by cases p <;> rfl) ((State.onXlt_frame (s.put F.XLT_INVAL.DONE 0 die) _).parts p (by simpa using hp))
  · show e ∈ s.xlt.entries.filter (fun e => !gone.contains e) ↔ _
    simp only [gone, len, List.mem_filter, Bool.not_eq_true', List.contains_eq_mem, decide_eq_false_iff_not, Bool.and_eq_true, beq_iff_eq]
    exact and_congr_right fun he => not_congr ⟨fun h => h.2, fun h => ⟨he, h⟩⟩
  · refine List.map_congr_left fun m _ => ?_
    by_cases h : m.die = die ∧ covers scope asid lo len m.asid (m.granule <<< 16) 65536 = true
    · rw [if_pos h, if_pos (by simpa using h)]
    · rw [if_neg h, if_neg (by simpa using h)]

theorem State.invalDone_idle {die : Nat} (h : lookupKey die s.xlt.inval = none) : s.invalDone die = s := by
  rw [State.invalDone, h]

section
variable {die : Nat} {tags : List Nat} (h : lookupKey die s.xlt.inval = some tags)
include h

theorem State.invalDone_waits (hw : ∃ t ∈ tags, t ∈ (s.waysOut die).map (·.1)) : s.invalDone die = s := by
  rw [State.invalDone, h]
  refine if_pos ?_
  obtain ⟨t, ht, hout⟩ := hw
  obtain ⟨r, hr, rfl⟩ := List.mem_map.1 hout
  exact List.any_eq_true.2 ⟨_, ht, List.any_eq_true.2 ⟨r, hr, beq_self_eq_true _⟩⟩

theorem State.invalDone_ends (hw : ∀ t ∈ tags, t ∉ (s.waysOut die).map (·.1)) :
    s.invalDone die = (s.flag F.XLT_INVAL.DONE die).onXlt fun x => { x with inval := dropKey die x.inval } := by
  rw [State.invalDone, h]
  refine if_neg ?_
  simp only [List.any_eq_true, beq_iff_eq, not_exists, not_and]
  exact fun t ht r hr he => hw t ht (he ▸ List.mem_map_of_mem hr)

end

/-! ### Resumption -/

theorem State.resumeRetry_stalled {u : Nat} {a : Stall} (h : s.stallOf u = some a) :
    s.resumeRetry u = (s.endStall u a).retryAccess ⟨u, a.vaddr, a.write, a.op⟩ a.asid := by
  rw [State.resumeRetry, h]

theorem State.endStall_xlt (s : State) (u : Nat) (a : Stall) : (s.endStall u a).xlt = s.xlt :=
  (s.endStall_frame u a).parts .xlt (by decide)

section
variable {w : Waiter} {asid : Nat}

theorem State.retryAccess_hit {pa : Nat} (h : s.lookupVa (unitDie w.unit) asid w.vaddr w.write = .hit pa) : s.retryAccess w asid = s := by
  rw [State.retryAccess, h]

theorem State.retryAccess_miss (h : s.lookupVa (unitDie w.unit) asid w.vaddr w.write = .miss) :
    s.retryAccess w asid = s.openMiss (unitDie w.unit) asid w false := by
  rw [State.retryAccess, h]

theorem State.retryAccess_fault {c : Nat} (h : s.lookupVa (unitDie w.unit) asid w.vaddr w.write = .fault c) :
    s.retryAccess w asid = s.faultWaiter asid c w := by
  rw [State.retryAccess, h]

end

theorem State.endStall_opsStand (s : State) (u : Nat) (a : Stall) : s.OpsStand (s.endStall u a) := by
  unfold State.endStall
  exact .ite (s.onUnit_opsStand u rfl) (.of_sched rfl)

/-- The access of a stalled operation that faults again stalls it again (R439, R440). -/
theorem State.resumeRetry_faults {u k cause : Nat} {a : Stall} (h : s.stallOf u = some a)
    (hf : s.lookupVa (unitDie u) a.asid a.vaddr a.write = .fault cause) (hs : isStreamUnit u = true) (hw : s.waitingOp u a.op = some k)
    (ha : (s.opAt u k).ahead = false) (hcut : (s.opAt u k).cut = false) (hc : s.calm) :
    ∃ t, s.resumeRetry u = t ∧ (t.unit u).stall = some a ∧ t.flt.fatal = s.flt.fatal := by
  have hops := s.endStall_opsStand u a
  have hw' : (s.endStall u a).waitingOp u a.op = some k := by rw [State.waitingOp, hops u]; exact hw
  have hspares : State.Spares 7 s (s.endStall u a) := .of_frame (s.endStall_frame u a)
  have hcalm : (s.endStall u a).Calm 1 := (hspares 1 (.of_calm hc)).1
  obtain ⟨hk, hentry, -⟩ := State.waitingOp_spec hw'
  obtain ⟨t, ht, hstall, -, hfatal, -⟩ := State.faultAccess_spec hk ((hops.opAt ..).symm ▸ ha) ((hops.opAt ..).symm ▸ hcut) hcalm
    a.asid cause a.vaddr a.write
  refine ⟨t, ?_, ?_, hfatal.trans (s.endStall_frame u a).fatal_eq⟩
  · rw [State.resumeRetry_stalled h, State.retryAccess_fault ((State.lookupVa_congr (s.endStall_xlt u a) ..).trans hf),
      State.faultWaiter_stream hs hw', ht]
  · rw [hstall, hentry]

/-- An operation whose stalled access is given up ends with an error status (R440). -/
theorem State.resumeAbort_stream {u k : Nat} {a : Stall} (h : s.stallOf u = some a) (hs : isStreamUnit u = true)
    (hw : s.waitingOp u a.op = some k) : ∃ t, s.resumeAbort u = t ∧ (t.opAt u k).state = .failed ∧ (t.unit u).stall = none ∧ t.mem = s.mem ∧
      t.flt = s.flt := by
  have hops := s.endStall_opsStand u a
  have hw' : (s.endStall u a).waitingOp u a.op = some k := by rw [State.waitingOp, hops u]; exact hw
  unfold State.resumeAbort
  rw [h]
  dsimp only
  rw [if_pos hs, hw']
  have hend : ((s.endStall u a).unit u).stall = none := by rw [State.endStall, if_pos hs, State.unit_onUnit]
  have hrec := State.recordError_frame (K := ⟨[], errorRegs, false⟩) (s.endStall u a) u ((s.endStall u a).opAt u k).segment
    ((s.endStall u a).opAt u k).opclass (accessCauseOf u) id (by decide +kernel) fun t => .refl t
  refine ⟨_, rfl, ?_, ?_, ?_, ?_⟩
  · dsimp only
    rw [(State.onUnit_opsStand _ u rfl).opAt, State.opAt_onOp]
    rw [State.unit_congr hrec.sched_eq, hops u]
    exact (State.waitingOp_spec hw).1
  · dsimp only
    rw [State.unit_onUnit, State.stall_onOp, State.unit_congr hrec.sched_eq, hend]
  · exact hrec.mem_eq.trans (s.endStall_frame u a).mem_eq
  · exact hrec.flt_eq.trans (s.endStall_frame u a).flt_eq

/-- A queue command whose stalled access is given up has STATUS 2 (R440). -/
theorem State.resumeAbort_command {u : Nat} {a : Stall} (h : s.stallOf u = some a) (hs : isStreamUnit u = false) :
    s.resumeAbort u = s.onQcx fun q =>
      { q with cmds := updateFirst (fun c => c.key == a.op) (fun c => { c with status := some 2 }) <|
          updateFirst (fun c => c.key == a.op) (fun c => { c with stall := none }) q.cmds } := by
  unfold State.resumeAbort
  rw [h]
  dsimp only
  rw [if_neg (by simp [hs]), State.endStall, if_neg (by simp [hs])]
  rfl

end

end Sys2Proof.Machine

open Sys2Proof Sys2Proof.Machine

/-- An invalidation that is started: refused while one is under way or where its scope names nothing, else under way (R437). -/
theorem xltInval_starts {s : State} {die v scope pages asid lo : Nat} (hr : s.Reaches (.xltInval die v)) (hs : bits v 44 2 = scope)
    (hp : bits v 28 16 = pages) (ha : bits v 0 12 = asid) (hlo : s.get F.XLT_INVAL_VA.VA die <<< 16 = lo) :
    let c := Instr.xltInval die v
    (s.on F.XLT_INVAL.DONE die = false → ∃ t, exec c s = .next t ∧ t.xlt = s.xlt ∧ t.on F.XLT_EVENTS.INVAL_BUSY die = true) ∧
    (s.on F.XLT_INVAL.DONE die = true → scope = 3 ∨ (scope = 2 ∧ pages = 0) → ∃ t, exec c s = .next t ∧ t.xlt = s.xlt ∧
      t.on F.XLT_EVENTS.INVAL_BAD die = true ∧ t.on F.XLT_INVAL.DONE die = true) ∧
    (s.on F.XLT_INVAL.DONE die = true → scope ≠ 3 → scope ≠ 2 ∨ pages ≠ 0 → ∃ t, exec c s = .next t ∧
      t.on F.XLT_INVAL.DONE die = false ∧ (∀ p : Part, p ≠ .xlt → p.same s t) ∧
      (∀ e, e ∈ t.xlt.entries ↔ e ∈ s.xlt.entries ∧
        ¬(e.die = die ∧ covers scope asid lo (pages <<< 16) e.asid (e.page <<< e.size) (2 ^ e.size) = true)) ∧
      t.xlt.slots = s.xlt.slots.map fun m =>
        if m.die = die ∧ covers scope asid lo (pages <<< 16) m.asid (m.granule <<< 16) 65536 = true then { m with stale := true }
        else m) := by
  intro c
  obtain ⟨hscope, hpages, hasid, hva, hdone, hparts⟩ := s.invalScope_spec die (putBits v 63 1 1)
  have hxlt : (s.invalScope die (putBits v 63 1 1)).xlt = s.xlt := hparts .xlt
  have hgo : exec c s = .next ((s.invalScope die (putBits v 63 1 1)).invalidateXlt die) :=
    exec_eq_next (effect := fun s => s.invalWrite die (putBits v 63 1 1)) hr rfl (State.invalWrite_start (by simp [bit]))
      ((congrArg (·.flt.fatal) (State.invalWrite_start (by simp [bit]))).symm.trans (s.invalWrite_frame die _).fatal_eq)
  rw [(bits_putBits_below (by decide)).trans hs] at hscope
  rw [(bits_putBits_below (by decide)).trans hp] at hpages
  rw [(bits_putBits_below (by decide)).trans ha] at hasid
  generalize s.invalScope die (putBits v 63 1 1) = t at hscope hpages hasid hva hdone hparts hxlt hgo
  refine ⟨fun hoff => ?_, fun hon hbad => ?_, fun hon h3 h2 => ?_⟩
  · rw [State.invalidateXlt_busy (hdone.trans hoff)] at hgo
    exact ⟨_, hgo, (State.flag_xlt _ _ _ _).trans hxlt, State.on_flag_same _ _ _ _ (by decide) (by decide)⟩
  · rw [State.invalidateXlt_bad (hdone.trans hon) (by rw [hscope, hpages]; exact hbad)] at hgo
    refine ⟨_, hgo, (State.flag_xlt _ _ _ _).trans hxlt, State.on_flag_same _ _ _ _ (by decide) (by decide), ?_⟩
    rw [State.on, State.flag, State.get_put_reg (by decide), ← State.on, hdone, hon]
  · obtain ⟨u, hu, hoff, hsame, hentries, hslots⟩ := State.invalidateXlt_removes (hdone.trans hon) hscope hpages hasid
      (by rw [hva, hlo]) h3 h2
    rw [hu] at hgo
    rw [hxlt] at hentries hslots
    exact ⟨u, hgo, hoff, fun p hp => Part.same_trans (hparts p) (hsame p hp), hentries, hslots⟩

/-- Settles O41: an invalidation by whether one is under way and what its scope names; a resumption by the stall it names. -/
theorem invalidationsAndResumptions : Obligations.InvalidationsAndResumptions := by
  refine ⟨⟨fun s die v hr => xltInval_starts hr rfl rfl rfl rfl, fun s die hr => ⟨fun h => ?_, fun tags h => ⟨fun hw => ?_, fun hw => ?_⟩⟩⟩,
    fun s c target hr hc => ⟨fun hnone => ?_, fun a ha => ⟨fun hc => ⟨fun pa hhit => ?_, fun hmiss => ?_, fun cause k hfault hs hw hah hcut hcalm => ?_⟩,
      fun hc => ⟨fun k hs hw => ?_, fun hs => ?_⟩⟩⟩⟩
  · exact exec_eq_next (effect := fun s => s.invalDone die) hr rfl (State.invalDone_idle h)
  · exact exec_eq_next (effect := fun s => s.invalDone die) hr rfl (State.invalDone_waits h hw)
  · have hend := State.invalDone_ends h hw
    refine .of_alters (effect := fun s => s.invalDone die) hr rfl ?_ ?_ <;> rw [hend]
    · exact ((State.Alters.refl s).put (f := F.XLT_INVAL.DONE) (by simp) rfl).frame (State.onXlt_frame _ _) ⟨rfl, rfl⟩ (by simp)
    · rw [State.on, State.get_onXlt, ← State.on]
      exact ⟨State.on_flag_same _ _ _ _ (by decide) (by decide), rfl⟩
  · rcases hc with rfl | rfl
    · exact exec_eq_next (effect := fun s => s.resumeRetry target) hr rfl (by rw [State.resumeRetry, hnone]; rfl)
    · exact exec_eq_next (effect := fun s => s.resumeAbort target) hr rfl (by rw [State.resumeAbort, hnone]; rfl)
  all_goals
    subst hc
  · refine exec_eq_next (effect := fun s => s.resumeRetry target) hr rfl ?_ (s.endStall_frame target a).fatal_eq
    rw [State.resumeRetry_stalled ha, State.retryAccess_hit (pa := pa)]
    exact (State.lookupVa_congr (s.endStall_xlt target a) ..).trans hhit
  · refine exec_eq_next (effect := fun s => s.resumeRetry target) hr rfl ?_
      ((State.openMiss_frame _ _ _ _ _).fatal_eq.trans (s.endStall_frame target a).fatal_eq)
    rw [State.resumeRetry_stalled ha, State.retryAccess_miss]
    exact (State.lookupVa_congr (s.endStall_xlt target a) ..).trans hmiss
  · obtain ⟨t, ht, hstall, hfatal⟩ := State.resumeRetry_faults ha hfault hs hw hah hcut hcalm
    exact ⟨t, exec_eq_next (effect := fun s => s.resumeRetry target) hr rfl ht hfatal, hstall⟩
  · obtain ⟨t, ht, hstate, hstall, hmem, hflt⟩ := State.resumeAbort_stream ha hs hw
    exact ⟨t, exec_eq_next (effect := fun s => s.resumeAbort target) hr rfl ht (congrArg (·.fatal) hflt), hstate, hstall, hmem, hflt⟩
  · refine ⟨_, exec_eq_next (effect := fun s => s.resumeAbort target) hr rfl (State.resumeAbort_command ha hs) rfl, rfl, rfl, fun q hq => ?_⟩
    show List.find? _ (updateFirst _ _ (updateFirst _ _ s.qcx.cmds)) = _
    rw [find?_updateFirst, find?_updateFirst, hq]
    · rfl
    · exact fun x hx => hx
    · exact fun x hx => hx

end

/-! # Misses and run-ahead translation

The records of misses (R431, R432), the answers to them (R430, R433, R434, R437) and the run-ahead translation of granules (R435, R436). -/

section

namespace Sys2Proof.Machine

/-- The access at a virtual address has a translation that allows it (R425, R429). -/
def State.Translates (s : State) (die asid va : Nat) (write : Bool) : Prop :=
  va < 2 ^ 56 ∧ (∃ e ∈ s.xlt.entries, e.die = die ∧ e.asid = asid ∧ e.page = va >>> e.size) ∧
    ∀ e ∈ s.xlt.entries, e.die = die → e.asid = asid → e.page = va >>> e.size → (if write then e.w else e.r) = true

/-- The record of an open slot enters the miss queue, where it has not yet (R431). -/
def State.recordMiss (s : State) (die slot : Nat) : State :=
  match s.missSlot die slot with
  | none => s
  | some m => if m.written then s else s.writeMiss m

/-- A slot whose record has been written: the tail goes on, and the slot has its mark (R432). -/
def State.enterMiss (s : State) (m : MissSlot) : State :=
  (s.addWrap F.XLT_MISSQ_PTR.TAIL 1).onXlt fun x =>
    { x with slots := updateFirst (fun n => n.die == m.die && n.slot == m.slot) (fun n => { n with written := true }) x.slots }

section
variable {s : State} {die slot : Nat}

/-! ### Slots -/

theorem State.missSlot_named {m : MissSlot} (h : s.missSlot die slot = some m) : m.die = die ∧ m.slot = slot := by
  simpa using List.find?_some h

theorem State.closeSlot_slots (s : State) (die slot : Nat) :
    (s.closeSlot die slot).xlt.slots = removeFirst (fun m => m.die == die && m.slot == slot) s.xlt.slots := rfl

theorem State.closeSlot_entries (s : State) (die slot : Nat) : (s.closeSlot die slot).xlt.entries = s.xlt.entries := rfl

/-! ### Miss records -/

theorem MissSlot.bytes_length (m : MissSlot) (phase : Bool) : (m.bytes phase).length = 32 := by
  simp [MissSlot.bytes, withCrc, toLE_length, zeros]

theorem exec_missRecordWrite (s : State) (die slot : Nat) :
    exec (.missRecordWrite die slot) s = act (.missRecordWrite die slot) s fun s => s.recordMiss die slot := rfl

theorem State.recordMiss_none (h : s.missSlot die slot = none) : s.recordMiss die slot = s := by
  rw [State.recordMiss, h]

section
variable {m : MissSlot} (h : s.missSlot die slot = some m)
include h

theorem State.recordMiss_written (hw : m.written = true) : s.recordMiss die slot = s := by
  rw [State.recordMiss, h]
  exact if_pos hw

theorem State.recordMiss_full (hw : m.written = false) (hf : s.missqFull = true) :
    s.recordMiss die slot = s.flag F.XLT_EVENTS.MISSQ_FULL die := by
  rw [State.recordMiss, h, ← (State.missSlot_named h).1]
  exact (if_neg (by simp [hw])).trans (if_pos hf)

/-- A record that finds room is written at the tail (R431, R432). -/
theorem State.recordMiss_room (hinv : s.Inv) (hw : m.written = false) (hf : s.missqFull = false)
    (hb : s.backedSpan (s.get F.XLT_MISSQ_BASE.BASE <<< 15 + 32 * (s.get F.XLT_MISSQ_PTR.TAIL % 1024)) 32 = true)
    (hs : s.soundSpan (s.get F.XLT_MISSQ_BASE.BASE <<< 15 + 32 * (s.get F.XLT_MISSQ_PTR.TAIL % 1024)) 32) :
    let tail := s.get F.XLT_MISSQ_PTR.TAIL
    let a := s.get F.XLT_MISSQ_BASE.BASE <<< 15 + 32 * (tail % 1024)
    ∃ t, s.recordMiss die slot = t ∧ t.flt.fatal = s.flt.fatal ∧ t.get F.XLT_MISSQ_PTR.TAIL = (tail + 1) % 2048 ∧
      t.missSlot die slot = some { m with written := true } ∧ t.bytes a 32 = m.bytes (!bit tail 10) ∧
      ∀ b, b < a ∨ a + 32 ≤ b → t.byte b = s.byte b := by
  intro tail a
  obtain ⟨hdie, hslot⟩ := State.missSlot_named h
  have hlen := m.bytes_length (!bit tail 10)
  obtain ⟨-, hquiet, hmem⟩ := State.writeSpan_sound (a := a) (data := m.bytes (!bit tail 10)) (by rwa [hlen])
  have hwrite : s.writeMiss m = (s.writeSpan a (m.bytes (!bit tail 10))).1.enterMiss m := by
    unfold State.writeMiss
    rw [if_neg (by simp [hf])]
    dsimp only
    rw [if_pos hb]
    rfl
  have htail := hquiet.frame.get_eq F.XLT_MISSQ_PTR.TAIL 0 0
  have hxlt : (s.writeSpan a (m.bytes (!bit tail 10))).1.xlt = s.xlt := hquiet.frame.parts .xlt (by decide)
  have hfatal := hquiet.frame.fatal_eq
  generalize (s.writeSpan a (m.bytes (!bit tail 10))).1 = q at hwrite htail hxlt hmem hfatal
  refine ⟨q.enterMiss m, ?_, hfatal, ?_, ?_, ?_⟩
  · rw [State.recordMiss, h]
    exact (if_neg (by simp [hw])).trans hwrite
  · rw [State.enterMiss, State.get_onXlt, State.addWrap, State.get_put_same _ _ _ _ _ (by decide), htail]
    rfl
  · show (updateFirst _ _ q.xlt.slots).find? _ = _
    rw [hdie, hslot, find?_updateFirst, hxlt, ← State.missSlot, h]
    · simp [hdie, hslot]
    · exact fun x hx => hx
  · obtain ⟨hbytes, hother⟩ := State.bytes_of_mem (t := q.enterMiss m) hinv.mem hmem
    rw [hlen] at hbytes hother
    exact ⟨hbytes, hother⟩

end

/-! ### Answers -/

theorem State.answerMiss_late (h : s.missSlot die slot = none) (fill : Option Nat) : s.answerMiss die slot fill = s.lateAnswer die := by
  rw [State.answerMiss, h]

theorem State.lateAnswer_alters (s : State) (die : Nat) :
    State.Alters [] [(F.XLT_COUNTS.LATE, die, 0), (F.XLT_EVENTS.RESP_LATE, die, 0)] s (s.lateAnswer die) :=
  ((State.Alters.refl s).put (f := F.XLT_COUNTS.LATE) (by simp) rfl).put (f := F.XLT_EVENTS.RESP_LATE) (by simp) rfl

section
variable {m : MissSlot} (h : s.missSlot die slot = some m)
include h

theorem State.answerMiss_stale (hs : m.stale = true) (fill : Option Nat) : s.answerMiss die slot fill =
    m.waiters.foldl (fun s w => s.openMiss die m.asid w m.ahead) (s.closeSlot die slot) := by
  obtain ⟨rfl, rfl⟩ := State.missSlot_named h
  rw [State.answerMiss, h]
  exact if_pos hs

theorem State.answerMiss_fault (hs : m.stale = false) : s.answerMiss die slot none = s.faultSlot m 1 := by
  rw [State.answerMiss, h]
  exact if_neg (by simp [hs])

theorem State.answerMiss_fill (hs : m.stale = false) (v : Nat) :
    s.answerMiss die slot (some v) = s.fillSlot m (bits v 60 2) (bits v 16 44) (bit v 1) (bit v 0) := by
  rw [State.answerMiss, h]
  exact if_neg (by simp [hs])

theorem State.timeoutMiss_written (hw : m.written = true) : s.timeoutMiss die slot = (s.flag F.XLT_EVENTS.TIMEOUT die).faultSlot m 3 := by
  rw [State.timeoutMiss, h]
  exact if_pos hw

end

theorem State.timeoutMiss_unwritten (h : ∀ m, s.missSlot die slot = some m → m.written = false) : s.timeoutMiss die slot = s := by
  unfold State.timeoutMiss
  split
  · rfl
  case h_2 m hm => exact if_neg (by simp [h m hm])

theorem State.fillSlot_refused (s : State) (m : MissSlot) (frame : Nat) (w r : Bool) :
    s.fillSlot m 3 frame w r = (s.flag F.XLT_EVENTS.RESP_BAD m.die).faultSlot m 1 := by
  unfold State.fillSlot
  exact if_pos (.inl rfl)

theorem State.fillSlot_fits {m : MissSlot} {size frame : Nat} {w r : Bool} (h3 : size ≠ 3) (h : (frame <<< 16) % 2 ^ pageBits size = 0) :
    s.fillSlot m size frame w r = (s.closeSlot m.die m.slot).xltInstall
      { die := m.die, asid := m.asid, page := m.vaddr >>> pageBits size, size := pageBits size, frame := frame <<< 16, r := r, w := w } :=
  if_neg (by rw [not_or]; exact ⟨h3, fun hn => hn h⟩)

theorem State.xltInstall_slots (s : State) (e : XltEntry) : (s.xltInstall e).xlt.slots = s.xlt.slots := rfl

/-- Every address of an installed page translates as its entry says (R425, R429, R430). -/
theorem State.lookupVa_xltInstall (s : State) {e : XltEntry} {va : Nat} (h : va >>> e.size = e.page) (hva : va < 2 ^ 56) (write : Bool) :
    (s.xltInstall e).lookupVa e.die e.asid va write =
      if (if write then e.w else e.r) then .hit (e.frame + va % 2 ^ e.size) else .fault 2 := by
  have hfind : (s.xltInstall e).xltFind e.die e.asid va = some e := List.find?_cons_of_pos (by simp [h])
  unfold State.lookupVa
  rw [if_neg (by omega), hfind]

/-- The one access that waits on a slot faults as the slot closes (R433, R434, R439). -/
theorem State.faultSlot_waiter {m : MissSlot} {w : Waiter} {k : Nat} (hm : m.waiters = [w]) (hs : isStreamUnit w.unit = true)
    (hw : s.waitingOp w.unit w.op = some k) (ha : (s.opAt w.unit k).ahead = false) (hcut : (s.opAt w.unit k).cut = false) (hc : s.Calm 1)
    (cause : Nat) : ∃ t, s.faultSlot m cause = t ∧ t.flt.fatal = s.flt.fatal ∧
      t.xlt.slots = removeFirst (fun n => n.die == m.die && n.slot == m.slot) s.xlt.slots ∧ t.xlt.entries = s.xlt.entries ∧
      (t.unit w.unit).stall = some ⟨w.vaddr, w.write, m.asid, w.op⟩ ∧ (t.opAt w.unit k).state = .waiting ∧
      t.get F.XLT_COUNTS.FAULTS (unitDie w.unit) =
        min (s.get F.XLT_COUNTS.FAULTS (unitDie w.unit) + 1) (2 ^ F.XLT_COUNTS.FAULTS.len - 1) := by
  have hclose : State.Spares 0 s (s.closeSlot m.die m.slot) := .of_frame (s.closeSlot_frame _ _)
  have hcalm : (s.closeSlot m.die m.slot).Calm 1 := (hclose 1 hc).1
  have hw' : (s.closeSlot m.die m.slot).waitingOp w.unit w.op = some k := hw
  obtain ⟨hk, hentry, -⟩ := State.waitingOp_spec hw'
  obtain ⟨t, ht, hstall, hstate, hfatal, hfaults⟩ := State.faultAccess_spec hk ha hcut hcalm m.asid cause w.vaddr w.write
  have hxlt : t.xlt = (s.closeSlot m.die m.slot).xlt := by
    rw [← ht]
    exact (State.faultAccess_frame ..).parts .xlt (by decide)
  refine ⟨t, ?_, hfatal, by rw [hxlt]; rfl, by rw [hxlt]; rfl, by rw [hstall, hentry], hstate, hfaults⟩
  rw [State.faultSlot, hm, List.foldl_cons, List.foldl_nil, State.faultWaiter_stream hs hw', ht]

/-! ### Run-ahead translation -/

theorem removeFirst_mem {α : Type} [DecidableEq α] {x : α} {l : List α} (hx : x ∈ l) (y : α) :
    y ∈ x :: removeFirst (· == x) l ↔ y ∈ l := by
  induction l with
  | nil => exact absurd hx List.not_mem_nil
  | cons z l ih =>
    by_cases hz : z = x
    · simp [removeFirst, hz]
    · have hxl : x ∈ l := (List.mem_cons.1 hx).resolve_left fun h => hz h.symm
      have := ih hxl
      simp only [removeFirst, beq_iff_eq, hz, if_false, List.mem_cons] at this ⊢
      grind

/-- The use of an entry changes the order of the entries alone (R428). -/
theorem State.xltUse_entries (s : State) (die asid va : Nat) (e : XltEntry) :
    e ∈ (s.xltUse die asid va).xlt.entries ↔ e ∈ s.xlt.entries := by
  unfold State.xltUse
  split
  · rfl
  case h_2 x hx => exact removeFirst_mem (List.mem_of_find?_eq_some hx) e

section
variable {asid va : Nat} {write : Bool}

theorem State.Translates.hit (h : s.Translates die asid va write) : ∃ pa, s.lookupVa die asid va write = .hit pa := by
  obtain ⟨hva, ⟨e, he, hdie, hasid, hpage⟩, hall⟩ := h
  unfold State.lookupVa
  rw [if_neg (by omega)]
  cases hf : s.xltFind die asid va with
  | none => exact absurd (List.find?_eq_none.1 hf e he) (by simp [hdie, hasid, hpage])
  | some x =>
    have hx := List.find?_some hf
    simp only [Bool.and_eq_true, beq_iff_eq] at hx
    obtain ⟨⟨hxdie, hxasid⟩, hxpage⟩ := hx
    exact ⟨_, if_pos (hall x (List.mem_of_find?_eq_some hf) hxdie hxasid hxpage)⟩

theorem State.Translates.of_entries {t : State} (h : s.Translates die asid va write) (ht : ∀ e, e ∈ t.xlt.entries ↔ e ∈ s.xlt.entries) :
    t.Translates die asid va write := by
  obtain ⟨hva, ⟨e, he, hmatch⟩, hall⟩ := h
  exact ⟨hva, ⟨e, (ht e).2 he, hmatch⟩, fun x hx => hall x ((ht x).1 hx)⟩

end

theorem State.asidOf_xltUse (s : State) (die asid va : Nat) : (s.xltUse die asid va).asidOf = s.asidOf :=
  (s.xltUse_frame die asid va).get_eq F.XLT_CTX.ASID 0 0

section
variable {u : Nat} {o : Op} {write : Bool} {va : Nat} {rest : List Nat}

theorem State.prefetch_hit {pa : Nat} (h : s.lookupVa (unitDie u) s.asidOf va write = .hit pa) :
    s.prefetch u o write (va :: rest) = (s.xltUse (unitDie u) s.asidOf va).prefetch u o write rest := by
  rw [State.prefetch, h]

theorem State.prefetch_fault {c : Nat} (h : s.lookupVa (unitDie u) s.asidOf va write = .fault c) :
    s.prefetch u o write (va :: rest) = (s, true, some (va, c)) := by
  rw [State.prefetch, h]

theorem State.prefetch_miss (h : s.lookupVa (unitDie u) s.asidOf va write = .miss) (ha : o.ahead = false) :
    s.prefetch u o write [va] = (s.openMiss (unitDie u) s.asidOf ⟨u, va, write, o.entry⟩ true, false, none) := by
  rw [State.prefetch, h]
  exact if_neg (by simp [ha])

end

/-- Where every granule translates, the run-ahead translation uses their entries and opens no slot (R435). -/
theorem State.prefetch_translates {u : Nat} {o : Op} {write : Bool} {gs : List Nat}
    (h : ∀ va ∈ gs, s.Translates (unitDie u) s.asidOf va write) :
    ∃ t, s.prefetch u o write gs = (t, true, none) ∧ Frame ⟨[.xlt], [], false⟩ s t ∧ ∀ e, e ∈ t.xlt.entries ↔ e ∈ s.xlt.entries := by
  induction gs generalizing s with
  | nil => exact ⟨s, rfl, .refl s, fun e => Iff.rfl⟩
  | cons va rest ih =>
    obtain ⟨pa, hhit⟩ := (h va List.mem_cons_self).hit
    have hmem := s.xltUse_entries (unitDie u) s.asidOf va
    obtain ⟨t, ht, hframe, hentries⟩ := ih (s := s.xltUse (unitDie u) s.asidOf va) fun a ha => by
      rw [State.asidOf_xltUse]
      exact (h a (List.mem_cons_of_mem _ ha)).of_entries hmem
    exact ⟨t, (State.prefetch_hit hhit).trans ht, (s.xltUse_frame _ _ _).trans hframe, fun e => (hentries e).trans (hmem e)⟩

/-- The item of a run-ahead translation: the granule count (R435). -/
theorem State.prefetchItem_spec {u k : Nat} (hk : k < (s.unit u).ops.length) (n : Nat) :
    ((s.prefetchItem k u n).opAt u k).state = .done ∧ (s.prefetchItem k u n).xlt = s.xlt ∧
    ((s.opAt u k).outs = [] → (s.prefetchItem k u n).mem = s.mem) ∧
    (Memory.wf s.mem = true → ∀ ch j im c, (s.opAt u k).outs = [(ch, j)] → s.sched.image = some im → im.channels[ch]? = some c →
      s.backedSpan (c.itemAt j) 64 = true → (s.prefetchItem k u n).bytes (c.itemAt j) 64 = toLE 4 n ++ zeros 60) := by
  have hlen : (toLE 4 n ++ zeros 60).length = 64 := by simp [toLE_length, zeros]
  unfold State.prefetchItem
  extract_lets item written
  have hframe : Frame ⟨storeParts, storeRegs, false⟩ s written := by
    unfold written
    split
    · split
      · split
        · exact State.writeSectors_frame _ _ _
        · exact .refl s
      · exact .refl s
    · exact .refl s
  have hunit : (written.unit u).ops = (s.unit u).ops := by rw [State.unit_congr hframe.sched_eq]
  have hfinish : Frame ⟨[.sched], [], false⟩ written (written.finishOp u k [] 0) := State.onOp_frame _ _ _ _
  refine ⟨?_, (hfinish.parts .xlt (by decide)).trans (hframe.parts .xlt (by decide)), fun hout => ?_, fun hw ch j im c hout him hch hb => ?_⟩
  · rw [State.finishOp, State.opAt_onOp _ (hunit ▸ hk)]
    rfl
  · rw [hfinish.mem_eq]
    unfold written
    rw [hout]
  · have hmem : written.mem = setCells (c.itemAt j) item s.mem := by
      unfold written
      rw [hout, him]
      dsimp only
      rw [hch]
      exact State.mem_writeSectors (by rw [hlen]; exact hb)
    have hbytes := (State.bytes_of_mem hw (hfinish.mem_eq.trans hmem)).1
    rwa [hlen] at hbytes

/-- The granules of a run-ahead translation. -/
def xpfGranules (p : BitVec 192) : List Nat := (List.range (pay p 8 4)).map fun i => (pay p 0 8 / 65536 + i) * 65536

theorem xpfGranules_cons {p : BitVec 192} (h : pay p 8 4 ≠ 0) :
    ∃ rest, xpfGranules p = (pay p 0 8 / 65536 + 0) * 65536 :: rest ∧ rest.length + 1 = pay p 8 4 := by
  obtain ⟨n, hn⟩ := Nat.exists_eq_succ_of_ne_zero h
  refine ⟨((List.range n).map (· + 1)).map fun i => (pay p 0 8 / 65536 + i) * 65536, ?_, by simp [hn]⟩
  rw [xpfGranules, hn, List.range_succ_eq_map, List.map_cons]

/-- How a run-ahead translation ends, by what the lookups of its granules gave (R435). -/
def State.afterPrefetch (u k count : Nat) (write : Bool) (r : State × Bool × Option (Nat × Nat)) : State :=
  match r with
  | (s, _, some (a, c)) => s.faultAccess u k s.asidOf c a write
  | (s, true, none) => s.prefetchItem k u count
  | (s, false, none) => s.waitOp u k

theorem unitDie_xlt {die : Nat} (hd : isCompute die = true) : unitDie (unitId die 8 0) = die := by
  have : die < 64 := by simpa [isCompute] using hd
  simp only [unitId, unitDie]
  omega

section
variable {p : BitVec 192} {k : Nat} (hfree : s.unitFree (unitId die 8 0) = true)
  (hfind : s.findOp (unitId die 8 0) 0x50 (bytesOf p) = some k)
include hfree hfind

theorem State.prefetchOp_bad (h : pay p 8 4 = 0 ∨ payBits p 12 1 7 ≠ 0 ∨ payZero p 13 11 = false) :
    s.prefetchOp die p = s.failOp (unitId die 8 0) k 0 .operation := by
  unfold State.prefetchOp
  extract_lets u
  rw [if_neg (by simp [u, hfree])]
  have htake : s.takeOp u 0x50 (bytesOf p) = (s, k) := by rw [State.takeOp, hfind]
  rw [htake]
  exact if_pos (by simpa using h)

/-- A run-ahead translation whose payload the spec allows goes by what the lookups give (R435). -/
theorem State.prefetchOp_good (hn : pay p 8 4 ≠ 0) (hr : payBits p 12 1 7 = 0) (hz : payZero p 13 11 = true) :
    s.prefetchOp die p = State.afterPrefetch (unitId die 8 0) k (pay p 8 4) (payBits p 12 0 1 == 1)
      (s.prefetch (unitId die 8 0) (s.opAt (unitId die 8 0) k) (payBits p 12 0 1 == 1) (xpfGranules p)) := by
  unfold State.prefetchOp
  rw [if_neg (by simp [hfree])]
  have htake : s.takeOp (unitId die 8 0) 0x50 (bytesOf p) = (s, k) := by rw [State.takeOp, hfind]
  dsimp only
  rw [htake]
  exact if_neg (by simp [hn, hr, hz])

end

end

end Sys2Proof.Machine

open Sys2Proof Sys2Proof.Machine

/-- The record of a miss slot: nothing where none is open or it is written, a mark where the queue is full, else the record (R431, R432). -/
theorem missRecordWrite_acts {s : State} {die slot : Nat} (hinv : s.Inv) (hr : s.Reaches (.missRecordWrite die slot)) :
    let c := Instr.missRecordWrite die slot
    let tail := s.get F.XLT_MISSQ_PTR.TAIL
    let a := s.get F.XLT_MISSQ_BASE.BASE <<< 15 + 32 * (tail % 1024)
    (s.missSlot die slot = none → exec c s = .next s) ∧
    (∀ m, s.missSlot die slot = some m →
      (m.written = true → exec c s = .next s) ∧
      (m.written = false → s.missqFull = true → exec c s = .next (s.flag F.XLT_EVENTS.MISSQ_FULL die)) ∧
      (m.written = false → s.missqFull = false → s.backedSpan a 32 = true → s.soundSpan a 32 → ∃ t, exec c s = .next t ∧
        t.get F.XLT_MISSQ_PTR.TAIL = (tail + 1) % 2048 ∧ t.missSlot die slot = some { m with written := true } ∧
        t.bytes a 32 = m.bytes (!bit tail 10) ∧ ∀ b, b < a ∨ a + 32 ≤ b → t.byte b = s.byte b)) := by
  intro c tail a
  have hact := exec_missRecordWrite s die slot
  refine ⟨fun h => exec_eq_next hr hact (State.recordMiss_none h), fun m h => ⟨fun hw => exec_eq_next hr hact (State.recordMiss_written h hw),
    fun hw hf => exec_eq_next hr hact (State.recordMiss_full h hw hf), fun hw hf hb hs => ?_⟩⟩
  obtain ⟨t, ht, hfatal, hstands⟩ := State.recordMiss_room h hinv hw hf hb hs
  exact ⟨t, exec_eq_next hr hact ht hfatal, hstands⟩

/-- An answer that faults the one access of its slot (R433, R434). -/
theorem answer_faults {s s' : State} {die slot cause k : Nat} {m : MissSlot} {w : Waiter} {c : Instr} {effect : State → State}
    (hr : s.Reaches c) (hact : exec c s = act c s effect) (heff : effect s = s'.faultSlot m cause)
    (hs' : Frame ⟨[], [.XLT_EVENTS], false⟩ s s') (hm : s.missSlot die slot = some m) (hone : m.waiters = [w])
    (hs : isStreamUnit w.unit = true) (hw : s.waitingOp w.unit w.op = some k) (ha : (s.opAt w.unit k).ahead = false)
    (hcut : (s.opAt w.unit k).cut = false) (hc : s.calm) : ∃ t, exec c s = .next t ∧
      t.xlt.slots = removeFirst (fun n => n.die == die && n.slot == slot) s.xlt.slots ∧ t.xlt.entries = s.xlt.entries ∧
      (t.unit w.unit).stall = some ⟨w.vaddr, w.write, m.asid, w.op⟩ ∧ (t.opAt w.unit k).state = .waiting ∧
      t.get F.XLT_COUNTS.FAULTS (unitDie w.unit) =
        min (s.get F.XLT_COUNTS.FAULTS (unitDie w.unit) + 1) (2 ^ F.XLT_COUNTS.FAULTS.len - 1) := by
  obtain ⟨rfl, rfl⟩ := State.missSlot_named hm
  have hops : s.OpsStand s' := .of_sched hs'.sched_eq
  have hspares : State.Spares 7 s s' := .of_frame hs'
  have hxlt : s'.xlt = s.xlt := hs'.parts .xlt (by decide)
  obtain ⟨t, ht, hfatal, hslots, hentries, hstall, hstate, hfaults⟩ := State.faultSlot_waiter (s := s') (k := k) hone hs
    (by rw [State.waitingOp, hops]; exact hw) (by rw [hops.opAt]; exact ha) (by rw [hops.opAt]; exact hcut) (hspares 1 (.of_calm hc)).1 cause
  rw [hxlt] at hslots hentries
  rw [hs'.get_eq F.XLT_COUNTS.FAULTS _ _] at hfaults
  exact ⟨t, exec_eq_next hr hact (heff.trans ht) (hfatal.trans hs'.fatal_eq), hslots, hentries, hstall, hstate, hfaults⟩

/-- A fill: its page translates as it says (R430, R433). -/
theorem xltRespFill_translates {s : State} {die slot v : Nat} {m : MissSlot} (hr : s.Reaches (.xltRespFill die slot v))
    (hm : s.missSlot die slot = some m) (hs : m.stale = false) (h3 : bits v 60 2 ≠ 3)
    (hfits : (bits v 16 44 <<< 16) % 2 ^ pageBits (bits v 60 2) = 0) :
    let z := pageBits (bits v 60 2)
    Completes (.xltRespFill die slot v) s [.xlt] [] fun t =>
      t.xlt.slots = removeFirst (fun n => n.die == die && n.slot == slot) s.xlt.slots ∧
      ∀ va write, va / 2 ^ z = m.vaddr / 2 ^ z → va < 2 ^ 56 → t.lookupVa die m.asid va write =
        if (if write then bit v 1 else bit v 0) then .hit ((bits v 16 44 <<< 16) + va % 2 ^ z) else .fault 2 := by
  intro z
  have heff := (State.answerMiss_fill hm hs v).trans (State.fillSlot_fits h3 hfits)
  obtain ⟨rfl, rfl⟩ := State.missSlot_named hm
  refine .of_alters (effect := fun s => s.answerMiss m.die m.slot (some v)) hr rfl ?_ ?_ <;> rw [heff]
  · exact ((State.Alters.refl s).frame (s.closeSlot_frame _ _) ⟨rfl, rfl⟩ (by simp)).frame (State.xltInstall_frame _ _) ⟨rfl, rfl⟩ (by simp)
  · refine ⟨rfl, fun va write hpage hva => State.lookupVa_xltInstall _ ?_ hva write⟩
    rw [Nat.shiftRight_eq_div_pow, Nat.shiftRight_eq_div_pow]
    exact hpage

/-- XPF: its item where all translates, a slot at a miss, a stall at a fault, an error status at a payload not allowed (R435). -/
theorem xpf_acts {s : State} {die k : Nat} {p : BitVec 192} (hinv : s.Inv) (hr : s.Reaches (.xpf die p))
    (hfree : s.unitFree (unitId die 8 0) = true) (hfind : s.findOp (unitId die 8 0) 0x50 (bytesOf p) = some k) :
    let u := unitId die 8 0
    let n := pay p 8 4
    let write := payBits p 12 0 1 == 1
    let va (i : Nat) := (pay p 0 8 / 65536 + i) * 65536
    (n ≠ 0 → payBits p 12 1 7 = 0 → payZero p 13 11 = true →
      ((∀ i, i < n → s.Translates die s.asidOf (va i) write) →
        ∃ t, exec (.xpf die p) s = .next t ∧
        (t.opAt u k).state = .done ∧ (∀ e, e ∈ t.xlt.entries ↔ e ∈ s.xlt.entries) ∧
        ((s.opAt u k).outs = [] → t.mem = s.mem) ∧
        (∀ ch j im c, (s.opAt u k).outs = [(ch, j)] → s.sched.image = some im → im.channels[ch]? = some c →
          s.backedSpan (c.itemAt j) 64 = true → t.bytes (c.itemAt j) 64 = toLE 4 n ++ zeros 60)) ∧
      (n = 1 → s.lookupVa die s.asidOf (va 0) write = .miss → (s.opAt u k).ahead = false →
        exec (.xpf die p) s = .next ((s.openMiss die s.asidOf ⟨u, va 0, write, (s.opAt u k).entry⟩ true).waitOp u k)) ∧
      (∀ cause, s.lookupVa die s.asidOf (va 0) write = .fault cause → (s.opAt u k).ahead = false → (s.opAt u k).cut = false →
        s.calm → ∃ t, exec (.xpf die p) s = .next t ∧ (t.opAt u k).state = .waiting ∧
          (t.unit u).stall = some ⟨va 0, write, s.asidOf, (s.opAt u k).entry⟩)) ∧
    (n = 0 ∨ payBits p 12 1 7 ≠ 0 ∨ payZero p 13 11 = false → (s.opAt u k).ahead = false → s.calm →
      ∃ t, exec (.xpf die p) s = .next t ∧ (t.opAt u k).state = .failed) := by
  intro u n write va
  have hdie : unitDie u = die := unitDie_xlt hr.1
  have hk : k < (s.unit u).ops.length := length_of_findIdx hfind
  refine ⟨fun hn hres hz => ?_, fun hbad ha hc => ?_⟩
  · have hgood : s.prefetchOp die p = State.afterPrefetch u k n write (s.prefetch u (s.opAt u k) write (xpfGranules p)) :=
      State.prefetchOp_good hfree hfind hn hres hz
    obtain ⟨rest, hcons, hrest⟩ := xpfGranules_cons hn
    refine ⟨fun hall => ?_, fun hone hmiss ha => ?_, fun cause hfault ha hcut hc => ?_⟩
    · obtain ⟨t, ht, hframe, hentries⟩ := State.prefetch_translates (o := s.opAt u k) (gs := xpfGranules p) fun a ha => by
        obtain ⟨i, hi, rfl⟩ := List.mem_map.1 ha
        rw [hdie]
        exact hall i (List.mem_range.1 hi)
      rw [ht] at hgood
      have hops : s.OpsStand t := .of_sched hframe.sched_eq
      obtain ⟨hstate, hxlt, hnone, hitem⟩ := State.prefetchItem_spec (s := t) (u := u) (k := k) (by rw [hops]; exact hk) n
      rw [hops.opAt] at hnone hitem
      refine ⟨t.prefetchItem k u n, exec_eq_next (effect := fun s => s.prefetchOp die p) hr rfl hgood
        ((t.prefetchItem_frame k u n).fatal_eq.trans hframe.fatal_eq), hstate, fun e => by rw [hxlt]; exact hentries e,
        fun hout => (hnone hout).trans hframe.mem_eq, fun ch j im c hout him hch hb => ?_⟩
      refine hitem (by rw [hframe.mem_eq]; exact hinv.mem) ch j im c hout (by rw [hframe.sched_eq]; exact him) hch ?_
      rw [State.backedSpan_congr (hframe.get_eq F.OAS_SPLIT.SCRATCH_WAYS 0 0)]
      exact hb
    · obtain rfl : rest = [] := List.length_eq_zero_iff.1 (by omega)
      rw [hcons, State.prefetch_miss (by rw [hdie]; exact hmiss) ha, hdie] at hgood
      exact exec_eq_next (effect := fun s => s.prefetchOp die p) hr rfl hgood (State.openMiss_frame ..).fatal_eq
    · rw [hcons, State.prefetch_fault (by rw [hdie]; exact hfault)] at hgood
      obtain ⟨t, ht, hstall, hstate, hfatal, -⟩ := State.faultAccess_spec hk ha hcut ((State.Calm.of_calm hc).mono (by decide)) s.asidOf cause
        (va 0) write
      exact ⟨t, exec_eq_next (effect := fun s => s.prefetchOp die p) hr rfl (hgood.trans ht) hfatal, hstate, hstall⟩
  · have hfails := State.failOp_spec (K := ⟨[], errorRegs, false⟩) (cause := 0) (kind := .operation) (more := id) hk ha
      ((State.Calm.of_calm hc).mono (by decide)) fun t => Frame.refl t
    exact ⟨_, exec_eq_next (effect := fun s => s.prefetchOp die p) hr rfl (State.prefetchOp_bad hfree hfind hbad) hfails.fatal, hfails.failed⟩

/-- Settles O40: the record of a slot, its answer or its timeout, and the run-ahead translation. -/
theorem missesAndPrefetchesTranslate : Obligations.MissesAndPrefetchesTranslate := by
  refine ⟨⟨fun s die slot hinv hr => missRecordWrite_acts hinv hr, fun s die slot v c hr hc => ⟨fun h => ?_, fun m h hs => ?_⟩,
    fun s die slot v m hr hm hs h3 hfits => xltRespFill_translates hr hm hs h3 hfits,
    fun s die slot v k m w c hr hm hc hone hs hw ha hcut hcalm => ?_, fun s die slot hr h => ?_⟩,
    fun s die k p hinv hr hfree hfind => xpf_acts hinv hr hfree hfind⟩
  · obtain ⟨fill, hact⟩ : ∃ fill, exec c s = act c s fun s => s.answerMiss die slot fill := by
      rcases hc with rfl | rfl
      · exact ⟨some v, rfl⟩
      · exact ⟨none, rfl⟩
    refine .of_alters hr hact ?_ ?_ <;> rw [State.answerMiss_late h]
    · exact s.lateAnswer_alters die
    · refine ⟨State.on_flag_same _ _ _ _ (by decide) (by decide), ?_⟩
      rw [State.lateAnswer, State.flag, State.get_put_reg (by decide)]
      exact State.get_bump_same _ _ _ _ _ (by decide)
  · obtain ⟨fill, hact⟩ : ∃ fill, exec c s = act c s fun s => s.answerMiss die slot fill := by
      rcases hc with rfl | rfl
      · exact ⟨some v, rfl⟩
      · exact ⟨none, rfl⟩
    have hfatal := (s.missAgain_frame m).fatal_eq
    obtain ⟨rfl, rfl⟩ := State.missSlot_named h
    exact exec_eq_next hr hact (State.answerMiss_stale h hs fill) hfatal
  · rcases hc with ⟨rfl, hstale⟩ | ⟨rfl, hwritten⟩ | ⟨rfl, hstale, h3⟩
    · exact answer_faults (effect := fun s => s.answerMiss die slot none) hr rfl (State.answerMiss_fault hm hstale) (.refl s) hm hone hs hw ha
        hcut hcalm
    · exact answer_faults (effect := fun s => s.timeoutMiss die slot) hr rfl (State.timeoutMiss_written hm hwritten)
        (State.flag_frame s F.XLT_EVENTS.TIMEOUT die 0 (by decide)) hm hone hs hw ha hcut hcalm
    · exact answer_faults (effect := fun s => s.answerMiss die slot (some v)) hr rfl
        ((State.answerMiss_fill hm hstale v).trans (by rw [h3]; exact s.fillSlot_refused m _ _ _))
        (State.flag_frame s F.XLT_EVENTS.RESP_BAD m.die 0 (by decide)) hm hone hs hw ha hcut hcalm
  · exact exec_eq_next (effect := fun s => s.timeoutMiss die slot) hr rfl (State.timeoutMiss_unwritten h)

end

end
